-- ==== Sys2Proof/Word.lean ====
section
/-! DEFINITION. The word types of the Drulor, and the plain data that names who sends a command and which core
runs an instruction word. Nothing here computes a meaning. -/
namespace Sys2Proof

/-- A 32-bit data word: a register, a line value, a word of memory. -/
abbrev Word := BitVec 32

/-- A byte of memory. -/
abbrev Byte := BitVec 8

/-- A 72-bit accumulator (R69). -/
abbrev Acc := BitVec 72

/-- A 64-bit Cyilo instruction word (R81). -/
abbrev IWord := BitVec 64

/-- The bus identity of an access: the master's number in the master table (R355) and the die it sits on. -/
structure Access where
  master : Nat
  odie   : Nat
deriving DecidableEq, Repr

/-- A core that runs Cyilo: a kernel (die-local number `idx`, R7) or a steward (`idx` 0 or 1) of die `die`. -/
structure CoreRef where
  die  : Nat
  stew : Bool
  idx  : Nat
deriving DecidableEq, Repr

/-- A line as readers see it in this tick: its value and whether it is valid (R78). -/
structure Line where
  val   : Word
  valid : Bool
deriving DecidableEq, Repr

/-- A block of a Roarn link lane (R310): the header in bits 131:128, the payload below, as the lane carries it. -/
abbrev LinkBlock := BitVec 132

/-- Where a packet that a link command takes comes from: blocks that arrive, the first of them block `k` of a frame; the
first packet that waits in the port's receive buffer (R323); or the first that the device has sent to itself. -/
inductive Arrival where
  | blocks (k : Nat) (bs : List LinkBlock)
  | waiting
  | own
deriving DecidableEq, Repr

/-- What a step of link training sees beside its measurements (R331): the partner's rate code, the headers of the blocks
that each of the three receive lanes has delivered since the last step, and, for the wake detector of a port that sleeps (R343),
what lane 0 has carried at 10 Mb/s: in each 0.1 us no differential swing of 80 mV, or a bit. -/
structure TrainSeen where
  rate  : Nat
  heads : List (List Nat)
  line  : List (Option Bool)
deriving DecidableEq, Repr

/-- A packet of the Roarn link (R319): the header's fields and the data words. `bad` says that its CRC fails or a block of
it cannot be used. -/
structure Packet where
  ty     : Nat
  bcast  : Bool
  scope  : Bool
  hops   : Nat
  words  : Nat
  dst    : Nat
  src    : Nat
  tag    : Nat
  addr   : Nat
  status : Nat
  data   : List Word
  bad    : Bool
deriving DecidableEq, Repr

/-- A frame of the Roarn link (R312): the fields of its FS and TC blocks and the slots that do not carry 0 and invalid. -/
structure Frame where
  rate   : Nat
  slots  : Nat
  credit : Nat
  devid  : Nat
  die    : Nat
  num    : Nat
  gmprio : Nat
  gmid   : Nat
  hops   : Nat
  sync   : Bool
  offset : Nat
  count  : Nat
  data   : List (Nat × Line)
deriving DecidableEq, Repr

/-- A frame of a serial audio port as its pins carry it (R244, R251, R252, R271). `sync` says how its successor's boundary
came: 0 at the expected bit clock, 1 by an early FSYNC that interrupts it, 2 without an FSYNC. `fitRx` and `fitTx` say that a
pending mask was written two bit clocks or more before that boundary, and `late` that the frame completed less than 0.8 us
before the next Pulse. `pins` holds what the data pins carry at the edges of BCLK from bit clock 0 on, in pairs of rising and
falling edges: SD0 in a PCM format, SD0 to SD3 in PDM. `subs` holds time slots 4-31 of a biphase receiver's two subframes, the
earliest in bit 0, and `b` says that the frame began with preamble B; `cv` says which subframe has a code violation there, and
`viol` counts all violations outside preambles. -/
structure SapFrame where
  sync  : Nat
  fitRx : Bool
  fitTx : Bool
  late  : Bool
  pins  : List (List Bool)
  b     : Bool
  subs  : List (BitVec 28)
  cv    : List Bool
  viol  : Nat
deriving DecidableEq, Repr

/-- What the debug port programs into the fuses (R385): a digest into a key slot, the image key, or LOCK. -/
inductive FuseOp where
  | keySlot (slot : Nat) (digest : List Byte)
  | imageKey (key : Nat)
  | lock
deriving DecidableEq, Repr

/-- The registers of PULSE_CONFIG_WRITE: PULSE_CFG, PULSE_COUNT_LO, PULSE_COUNT_HI. -/
inductive PulseReg where
  | cfg | countLo | countHi
deriving DecidableEq, Repr

end Sys2Proof
end

