-- ==== Sys2Proof/Syntax.lean ====
section
/-! DEFINITION. The commands of the Drulor: one constructor for each row of the opcode table, in the table's order. `a` is
the bus identity of the master that makes an access, `d` a die, `c` a core, and the other operands are a unit's number or what
the event brings. A Cyilo row names only the core: the word at its program counter holds the operands. -/
namespace Sys2Proof

/-- A command. -/
inductive Instr where
  /-- RESET_N_ASSERT (R483): RESET_N held low for at least 1 µs is accepted and resets the package. -/
  | resetNAssert
  /-- RESET_RELEASE (R375): release of reset runs the self-tests, clears kernel memories and starts steward 0 of die 0 in the Seed ROM. -/
  | resetRelease (recov ok : Bool)
  /-- BOOT_DIRECTORY_READ (R377): the Seed finishes reading both directory copies, applies the FLASH setting and chooses the valid copy. -/
  | bootDirectoryRead (p q again : List Byte)
  /-- SLOT_CHECK (R382): a slot's header and table have been read and the Seed gives the slot its code and chooses a slot. -/
  | slotCheck (i : Nat) (img : Option (List Byte))
  /-- SEGMENT_LOAD (R383): the loader finishes streaming one segment, checking its digest and tag and writing it to DEST. -/
  | segmentLoad (data : List Byte)
  /-- BOOT_RETRY_WAIT_END (R396): the retry wait after a failed attempt expires and the Seed starts again from the directory reads. -/
  | bootRetryWaitEnd
  /-- BOOT_HANDOFF (R376): the write of ENTRY sets REMAP and ROMLOCK, clears PRIV, starts any trial watchdog and restarts steward 0 at ENTRY. -/
  | bootHandoff
  /-- BOOT_CONFIRM (R393): a write of 0x5EED during trial stops the watchdog and writes the confirmed record, floor, revocations and fast-wake record. -/
  | bootConfirm (a : Access)
  /-- TRIAL_EXPIRY (R394): the trial watchdog expires and the boot block resets the package with CAUSE trial expiry. -/
  | trialExpiry
  /-- RECOVERY_GO (R398): a write of BOOT_RECOV with GO starts the check and load of the image in the recovery buffer. -/
  | recoveryGo (a : Access) (len : Nat)
  /-- RECOVERY_CHECK_DONE (R399): the recovery check and load finish and the Seed reports RESULT and hands over or waits again. -/
  | recoveryCheckDone
  /-- FAST_WAKE_LOAD_DONE (R401): the remaining segments of a fast wake are in place and BOOT_STAT.LOADED becomes 1. -/
  | fastWakeLoadDone
  /-- DEBUG_CERT_VERIFY (R407): verification of a certificate shifted in through DBGCERT completes and grants its permissions. -/
  | debugCertVerify (c : List Byte)
  /-- BOOT_STATUSN_WRITE (R397): a write of BOOT_STATUSN.DRIVE sets STATUS_N after handoff. -/
  | bootStatusnWrite (a : Access) (drive : Bool)
  /-- PULSE (R18): at each Pulse every die publishes lines, captures SN fields, applies swaps, snapshots pointers and starts every running kernel at step 0. -/
  | pulse
  /-- DEADLINE (R19): the deadline of a tick passes and kernels that have not reached END are stopped. -/
  | deadline
  /-- PULSE_RUN_SET (R28): writing 1 to PULSE_CTL.RUN requests the start of the Pulse. -/
  | pulseRunSet (a : Access)
  /-- PULSE_START (R28): once PULSE_STAT.LOCK is 1 the first Pulse issues with the value held in PULSE_COUNT. -/
  | pulseStart
  /-- PULSE_RUN_CLEAR (R28): writing 0 to PULSE_CTL.RUN lets the current tick commit and stops further Pulses. -/
  | pulseRunClear (a : Access)
  /-- PULSE_HALT (R231): at the end of the last commit window pending swaps, faders and table changes end or keep waiting. -/
  | pulseHalt
  /-- PULSE_CONFIG_WRITE (R27): a write to PULSE_CFG.RATE or PULSE_COUNT is accepted while stopped and otherwise rejected. -/
  | pulseConfigWrite (a : Access) (r : PulseReg) (v : Word)
  /-- SYNTH_LOCK_LOSS (R30): the synthesizer loses lock to its reference, holds its frequency and sets LOCKLOSS. -/
  | synthLockLoss (d : Nat)
  /-- SYNTH_RELOCK (R30): the synthesizer relocks without a phase step larger than 1 ns per tick. -/
  | synthRelock (d : Nat)
  /-- ADMISSION_DONE (R39): admission of a candidate bank completes within 64 µs, counting steps and admitting or refusing it. -/
  | admissionDone (d : Nat) (rejoin : Bool) (n : Nat)
  /-- GOV_PREP_END (R50): one window after the target Pulse the governor clears PREP and may lower. -/
  | govPrepEnd (d : Nat)
  /-- GOV_RAISE (R47): with the worst margin below target the governor moves bias to BBFWD and raises VID every SETTLE ticks. -/
  | govRaise (d : Nat)
  /-- GOV_LOWER (R48): after a full window above target plus hysteresis the governor makes one lowering step. -/
  | govLower (d : Nat)
  /-- GOV_MANUAL_WRITE (R52): a write of GOV_MANUAL sets VID, bias and assist while MANUAL is 1. -/
  | govManualWrite (a : Access) (d : Nat) (v : Word)
  /-- GOV_MARGIN_MIN_CLR (R42): writing CLR resets GOV_MARGIN_MIN. -/
  | govMarginMinClr (a : Access) (d : Nat)
  /-- WEAR_REPORT (R53): the 65,536-tick wear average of a kernel is updated and a drift above the limit reports it. -/
  | wearReport (d k : Nat)
  /-- THERM_SAMPLE (R445): every 64 µs the die reads its junction sensors and updates THERM_TEMP and the alarm. -/
  | thermSample (d : Nat) (t1 t2 t3 t4 : Int)
  /-- THERM_CAP_STEP (R445): every 1 ms the thermal VID cap falls or rises by one code and the VID follows it. -/
  | thermCapStep (d : Nat)
  /-- THERM_MAX_CLR (R445): writing THERM_MAX.CLR sets TJ to −40 °C. -/
  | thermMaxClr (a : Access) (d : Nat)
  /-- NOP (R139): NOP does nothing for one step. -/
  | nop (c : CoreRef)
  /-- NV_SLOT (R85): a word with COND NV is annulled and costs one step. -/
  | nvSlot (c : CoreRef)
  /-- END (R147): END completes the tick's program and the kernel stops fetching. -/
  | end_ (c : CoreRef) (t : Nat)
  /-- BRA (R141): BRA branches to its own address plus DISP after two delay slots. -/
  | bra (c : CoreRef)
  /-- JMP (R141): JMP jumps to ADDR or a register target after two delay slots. -/
  | jmp (c : CoreRef)
  /-- BSR (R143): BSR writes RA and branches after two delay slots. -/
  | bsr (c : CoreRef)
  /-- RTS (R143): RTS returns to RA after two delay slots. -/
  | rts (c : CoreRef)
  /-- REP (R148): REP latches a count and repeats the next word that many times. -/
  | rep (c : CoreRef)
  /-- BRPT (R152): BRPT loads a block-repeat level and activates it. -/
  | brpt (c : CoreRef)
  /-- TRAP (R157): TRAP posts to the kernel-event queue in sample mode or raises vector 0x01 in free mode. -/
  | trap (c : CoreRef)
  /-- BRK (R161): BRK raises vector 0x02 or halts the core for the debugger. -/
  | brk (c : CoreRef)
  /-- RTI (R162): RTI restores state from EFLG and continues at EPC. -/
  | rti (c : CoreRef)
  /-- EI (R160): EI sets IPL.IE. -/
  | ei (c : CoreRef)
  /-- DI (R160): DI clears IPL.IE. -/
  | di (c : CoreRef)
  /-- WAIT (R167): WAIT suspends the core until an enabled source is pending and may enter a power state. -/
  | wait (c : CoreRef)
  /-- WAIT_RESUME (R167): an enabled source becomes pending and a waiting core takes the interrupt or continues after WAIT. -/
  | waitResume (c : CoreRef)
  /-- INTERRUPT_ENTRY (R165): a pending interrupt is taken at a permitted point and entry runs to the vector. -/
  | interruptEntry (c : CoreRef)
  /-- EXCEPTION_ENTRY (R162): an exception raised by an instruction saves state and vectors. -/
  | exceptionEntry (c : CoreRef)
  /-- ADD (R112): ADD sums two operands and sets Z, N, C and V. -/
  | add (c : CoreRef)
  /-- ADDC (R112): ADDC sums two operands and the carry. -/
  | addc (c : CoreRef)
  /-- SUB (R112): SUB subtracts with the no-borrow carry convention. -/
  | sub (c : CoreRef)
  /-- SUBC (R112): SUBC subtracts with borrow. -/
  | subc (c : CoreRef)
  /-- AND (R112): AND computes a bitwise and. -/
  | and (c : CoreRef)
  /-- OR (R112): OR computes a bitwise or. -/
  | or (c : CoreRef)
  /-- XOR (R112): XOR computes a bitwise exclusive or. -/
  | xor (c : CoreRef)
  /-- CMP (R112): CMP sets the flags of a subtraction without writing a destination. -/
  | cmp (c : CoreRef)
  /-- TST (R112): TST sets Z and N from one source and clears C and V. -/
  | tst (c : CoreRef)
  /-- MIN (R112): MIN selects the signed minimum. -/
  | min (c : CoreRef)
  /-- MAX (R112): MAX selects the signed maximum. -/
  | max (c : CoreRef)
  /-- ASH (R115): ASH shifts arithmetically by a signed count with saturation. -/
  | ash (c : CoreRef)
  /-- LSH (R115): LSH shifts logically by a signed count. -/
  | lsh (c : CoreRef)
  /-- NEG (R116): NEG negates its operand. -/
  | neg (c : CoreRef)
  /-- ABS (R116): ABS gives the absolute value. -/
  | abs (c : CoreRef)
  /-- NOT (R112): NOT inverts a D register. -/
  | not (c : CoreRef)
  /-- SAT (R117): SAT clamps a register or accumulator. -/
  | sat (c : CoreRef)
  /-- NORM (R118): NORM counts redundant sign bits. -/
  | norm (c : CoreRef)
  /-- DIV (R119): DIV divides in 20 steps with rounding toward zero. -/
  | div (c : CoreRef)
  /-- BSET (R136): BSET sets a bit operand. -/
  | bset (c : CoreRef)
  /-- BCLR (R136): BCLR clears a bit operand. -/
  | bclr (c : CoreRef)
  /-- BNOT (R136): BNOT inverts a bit operand. -/
  | bnot (c : CoreRef)
  /-- BTST (R136): BTST tests a bit into C and Z. -/
  | btst (c : CoreRef)
  /-- BAND (R136): BAND ands a source bit into a bit operand. -/
  | band (c : CoreRef)
  /-- BOR (R136): BOR ors a source bit into a bit operand. -/
  | bor (c : CoreRef)
  /-- BXOR (R136): BXOR exclusive-ors a source bit into a bit operand. -/
  | bxor (c : CoreRef)
  /-- BMOV (R136): BMOV copies a source bit to a bit operand. -/
  | bmov (c : CoreRef)
  /-- MPY (R121): MPY writes the signed product to an accumulator. -/
  | mpy (c : CoreRef)
  /-- MPYU (R122): MPYU writes an unshifted signed-by-unsigned or unsigned product. -/
  | mpyu (c : CoreRef)
  /-- MAC (R121): MAC adds the product to an accumulator. -/
  | mac (c : CoreRef)
  /-- MSU (R121): MSU subtracts the product from an accumulator. -/
  | msu (c : CoreRef)
  /-- CMPY (R123): CMPY writes a complex product to an accumulator pair. -/
  | cmpy (c : CoreRef)
  /-- CMAC (R123): CMAC adds a complex product to an accumulator pair. -/
  | cmac (c : CoreRef)
  /-- CMSU (R123): CMSU subtracts a complex product from an accumulator pair. -/
  | cmsu (c : CoreRef)
  /-- CMACJ (R123): CMACJ adds the product with the conjugate of the Y operand. -/
  | cmacj (c : CoreRef)
  /-- BFLY (R124): BFLY performs a radix-2 butterfly on two accumulator pairs. -/
  | bfly (c : CoreRef)
  /-- MAXI (R137): MAXI updates a running maximum and IX. -/
  | maxi (c : CoreRef)
  /-- MINI (R137): MINI updates a running minimum and IX. -/
  | mini (c : CoreRef)
  /-- MAXAI (R137): MAXAI updates a running maximum magnitude and IX. -/
  | maxai (c : CoreRef)
  /-- CLRA (R125): CLRA clears an accumulator. -/
  | clra (c : CoreRef)
  /-- MOVA (R125): MOVA copies an accumulator or places a D register in one. -/
  | mova (c : CoreRef)
  /-- SHACC (R115): SHACC shifts an accumulator in place. -/
  | shacc (c : CoreRef)
  /-- RESADD (R127): RESADD adds the residue En to An. -/
  | resadd (c : CoreRef)
  /-- LD (R128): LD loads a word through a pointer into a D register. -/
  | ld (c : CoreRef)
  /-- ST (R128): ST stores a D register through a pointer. -/
  | st (c : CoreRef)
  /-- LDI (R129): LDI writes an immediate to a register. -/
  | ldi (c : CoreRef)
  /-- MOV (R129): MOV copies one register to another. -/
  | mov (c : CoreRef)
  /-- LDL (R130): LDL reads a published Wadi line or a slipface line. -/
  | ldl (c : CoreRef)
  /-- SLIPFACE_LDL_RELEASE (R36): a waiting slipface LDL completes one step after the producer's STL completes or the handshake is released. -/
  | slipfaceLdlRelease (c : CoreRef)
  /-- STL (R131): STL stages a line write or makes a slipface value available. -/
  | stl (c : CoreRef)
  /-- LDH (R135): LDH reads a Hoard word. -/
  | ldh (c : CoreRef)
  /-- STH (R135): STH writes a Hoard word. -/
  | sth (c : CoreRef)
  /-- MODP (R128): MODP updates a pointer without an access. -/
  | modp (c : CoreRef)
  /-- STA (R126): STA stores an accumulator to a register or memory by R70. -/
  | sta (c : CoreRef)
  /-- FTAP (R138): FTAP multiplies a tap and moves the X word one place. -/
  | ftap (c : CoreRef)
  /-- VOTE (R140): VOTE places or withdraws the steward's power votes. -/
  | vote (c : CoreRef)
  /-- SWAPREQ (R104): SWAPREQ hands a swap request for a group and target to the swap logic. -/
  | swapreq (c : CoreRef)
  /-- SWAP_REQUEST_RX (R226): a die or device receives a swap request and checks its members. -/
  | swapRequestRx (g d : Nat)
  /-- SWAP_READY_RX (R226): the coordinator receives a ready report. -/
  | swapReadyRx (g d : Nat)
  /-- SWAP_REFUSAL_RX (R226): the coordinator receives a refusal report and refuses the group. -/
  | swapRefusalRx (g d : Nat)
  /-- SWAP_DECISION (R226): at the decision Pulse the coordinator commits or refuses for missing reports. -/
  | swapDecision (g : Nat)
  /-- SWAP_COMMIT_RX (R227): a die receives the commit and arms its members and faders. -/
  | swapCommitRx (g d : Nat)
  /-- SWAP_APPLY (R227): at the target Pulse committed members exchange banks and tables and faders begin. -/
  | swapApply (g : Nat)
  /-- FADER_END (R239): after LEN ticks a fader entry clears EN and ACTIVE. -/
  | faderEnd (d e : Nat)
  /-- BRIDGE_TRANSFER_RX (R195): a bridge transfer arrives, is checked and its values are published at the Pulse. -/
  | bridgeTransferRx (d n : Nat)
  /-- BRIDGE_TRANSFER_FAIL (R195): a transfer missing at the Pulse or failing CRC holds its import lines invalid and counts an error. -/
  | bridgeTransferFail (d n : Nat)
  /-- BRIDGE_HOLD_EXPIRE (R195): after HOLDT failed ticks the import lines carry 0. -/
  | bridgeHoldExpire (d n : Nat)
  /-- BRIDGE_SWAP_WRITE (R196): a write of BRIDGE_SWAP requests a table change at BRIDGE_TPULSE. -/
  | bridgeSwapWrite (a : Access) (d ports : Nat)
  /-- BRIDGE_TABLE_SWITCH (R196): at the target Pulse each named port makes its other table active. -/
  | bridgeTableSwitch (d n : Nat)
  /-- ROW_REPAIR_COPY_DONE (R178): the repair engine finishes copying a row into a spare row. -/
  | rowRepairCopyDone (d p : Nat)
  /-- POD_ECC_CLEAR (R177): writing CLR resets a pod's ECC record. -/
  | podEccClear (a : Access) (d p : Nat) (unc : Bool)
  /-- KERNEL_ECC_CLEAR (R63): writing KERNEL_ECC.CLR resets the kernel's ECC record. -/
  | kernelEccClear (a : Access) (d k : Nat)
  /-- CARAVAN_SWAP_GO (R214): a write of GO requests a check of the inactive schedule table. -/
  | caravanSwapGo (a : Access) (d p : Nat)
  /-- CARAVAN_TABLE_CHECK_DONE (R214): within 16 µs the engine passes or refuses the inactive table. -/
  | caravanTableCheckDone (d p : Nat)
  /-- CARAVAN_TABLE_SWITCH (R214): at the target Pulse the checked table becomes active. -/
  | caravanTableSwitch (d p : Nat)
  /-- CARAVAN_FETCH_ISSUE (R210): a fetch entry issues a block read at its phase. -/
  | caravanFetchIssue (d p e : Nat)
  /-- CARAVAN_FETCH_STAGED (R210): a fetch block is fully staged and written into the Hoard. -/
  | caravanFetchStaged (d p e : Nat)
  /-- CARAVAN_FETCH_LATE (R216): a fetch block not staged in time is late and discarded. -/
  | caravanFetchLate (d p e : Nat)
  /-- CARAVAN_STORE_ISSUE (R211): a store entry reads its block from the Hoard into staging. -/
  | caravanStoreIssue (d p e : Nat)
  /-- CARAVAN_STORE_DONE (R211): the store block's write to LPDDR4X completes. -/
  | caravanStoreDone (d p e : Nat)
  /-- CARAVAN_SHARE_WRITE (R208): a share write is accepted or rejected against the limits and DDR_BUDGET. -/
  | caravanShareWrite (a : Access) (d p : Nat) (v : Word)
  /-- DDR_ENABLE (R201): writing DDR_CTL.EN 1 releases DRAM reset and starts training. -/
  | ddrEnable (a : Access) (d : Nat)
  /-- DDR_DISABLE (R201): writing DDR_CTL.EN 0 holds the DRAM in reset. -/
  | ddrDisable (a : Access) (d : Nat)
  /-- DDR_RETRAIN (R201): writing RETRAIN runs full training outside the window. -/
  | ddrRetrain (a : Access) (d : Nat)
  /-- DDR_TRAINING_DONE (R201): training completes and READY becomes 1, or a step fails and TRAINFAIL is set. -/
  | ddrTrainingDone (d : Nat) (ok : Bool)
  /-- DDR_CFG_WRITE (R201): a write of DDR_CFG is accepted while EN is 0 and otherwise sets CFGREJ. -/
  | ddrCfgWrite (a : Access) (d : Nat) (v : Word)
  /-- DDR_REFRESH_DUE (R203): each tREFI adds one owed refresh to the refresh debt. -/
  | ddrRefreshDue (d : Nat)
  /-- DDR_REFRESH_ISSUE (R203): outside the window the controller issues an owed refresh. -/
  | ddrRefreshIssue (d : Nat)
  /-- DDR_WINDOW_OPEN (R204): the critical window starts after the Pulse and only caravan reads are issued. -/
  | ddrWindowOpen (d : Nat)
  /-- DDR_WINDOW_CLOSE (R204): the critical window ends and held traffic resumes. -/
  | ddrWindowClose (d : Nat)
  /-- DDR_ZQ_CALIBRATION (R201): every 2 ms the controller runs ZQ calibration and oscillator tracking. -/
  | ddrZqCalibration (d : Nat)
  /-- DDR_MR4_POLL (R198): every 1,000 µs the controller polls MR4 and sets the refresh rate. -/
  | ddrMr4Poll (d mul : Nat)
  /-- DDR_POWER_DOWN (R202): after PDIDLE idle ticks the DRAM enters power-down. -/
  | ddrPowerDown (d : Nat)
  /-- MEMORY_WRITE (R21): a bus write to memory, a window or the Hoard takes effect when it completes. -/
  | memoryWrite (a : Access) (addr width v : Nat)
  /-- MEMORY_READ (R360): a bus read of memory, a window or the Hoard returns its data. -/
  | memoryRead (a : Access) (addr width : Nat)
  /-- PROGRAM_BANK_WRITE (R65): a bus write to a program bank is accepted or refused by state and withdraws admission. -/
  | programBankWrite (a : Access) (d k : Nat) (bankB : Bool) (off width v : Nat)
  /-- KERNEL_IMAGE_WRITE (R66): a write to the register image sets a register in permitted states. -/
  | kernelImageWrite (a : Access) (d k off width v : Nat)
  /-- KERNEL_BANKMODE_WRITE (R40): a write to KERNEL_BANKMODE changes a bank's HOARD mode and may withdraw admission. -/
  | kernelBankmodeWrite (a : Access) (d k : Nat) (v : Word)
  /-- POD_HOWN_WRITE (R173): a write to POD_HOWN changes Hoard ownership and may withdraw admission. -/
  | podHownWrite (a : Access) (d p i : Nat) (v : Word)
  /-- KERNEL_STOP_REQUEST (R80): STOP from 0 to 1 in RUN or HELD makes a stop pending. -/
  | kernelStopRequest (a : Access) (d k : Nat)
  /-- KERNEL_STOP_CANCEL (R80): STOP from 1 to 0 while pending cancels the stop. -/
  | kernelStopCancel (a : Access) (d k : Nat)
  /-- KERNEL_REJOIN (R80): STOP from 1 to 0 in STOPPED runs admission on the active bank. -/
  | kernelRejoin (a : Access) (d k : Nat)
  /-- KERNEL_TEST_ENTER (R80): FREE from 0 to 1 in STOPPED makes the kernel TEST. -/
  | kernelTestEnter (a : Access) (d k : Nat)
  /-- KERNEL_TEST_EXIT (R80): FREE from 1 to 0 returns a TEST kernel to STOPPED. -/
  | kernelTestExit (a : Access) (d k : Nat)
  /-- BUS_WIN_WRITE (R353): a write of BUS_WIN retargets a steward window. -/
  | busWinWrite (a : Access) (d w : Nat) (v : Word)
  /-- BUS_SLICE_WRITE (R359): a write of BUS_SLICE requests decoupling stages. -/
  | busSliceWrite (a : Access) (d : Nat) (v : Word)
  /-- BUS_SLICE_APPLY (R359): a path with no outstanding transaction takes its new slice setting. -/
  | busSliceApply (d : Nat)
  /-- ROMLOCK_SET (R354): writing ROMLOCK sends every later Seed ROM access to the default target. -/
  | romlockSet (a : Access) (d : Nat)
  /-- REMAP_WRITE (R354): writing BUS_CTL.REMAP changes the ROM and working memory exchange. -/
  | remapWrite (a : Access) (d : Nat) (remap : Bool)
  /-- FW_LOCK_SET (R366): writing FW_CTL.LOCK locks the FW page until reset. -/
  | fwLockSet (a : Access) (d : Nat)
  /-- COUNTER64_LOW_READ (R368): reading the low word of a 64-bit counter latches its high word for that master. -/
  | counter64LowRead (a : Access) (d : Nat)
  /-- QUEUE_STAGE (R370): a write to DATAi stages a word for the writing master. -/
  | queueStage (a : Access) (d q i : Nat) (v : Word)
  /-- QUEUE_PUSH (R370): a write to DATA0 appends an entry or is dropped or overwrites when full. -/
  | queuePush (a : Access) (d q : Nat) (v : Word)
  /-- QUEUE_POP (R370): a read of DATA0 removes the head entry and latches its words. -/
  | queuePop (a : Access) (d q : Nat)
  /-- QUEUE_CFG_WRITE (R369): a write of QUEUE_CFG enables, disables and empties, or configures a queue. -/
  | queueCfgWrite (a : Access) (d q : Nat) (v : Word)
  /-- STEWARD_RUN (R347): writing RUN 1 starts a HELD, HALTED or DEBUG steward at START. -/
  | stewardRun (a : Access) (d i : Nat)
  /-- STEWARD_HOLD (R347): writing RUN 0 holds a running steward at the next interruptible point. -/
  | stewardHold (a : Access) (d i : Nat)
  /-- DOORBELL_SET (R350): writing DBSET sets doorbell bits. -/
  | doorbellSet (a : Access) (d i : Nat) (v : Word)
  /-- DOORBELL_CLEAR (R350): writing 1 to DBELL clears doorbell bits. -/
  | doorbellClear (a : Access) (d i : Nat) (v : Word)
  /-- PWR_VDATA_WRITE (R411): a write of PWR_VDATA sets the votes of the host or a firmware client. -/
  | pwrVdataWrite (a : Access) (d : Nat) (v : Word)
  /-- PWR_HOLD_WRITE (R412): a write of PWR_HOLD places or withdraws client 32's votes per die. -/
  | pwrHoldWrite (a : Access) (v : Word)
  /-- PWR_MODE_WRITE (R417): a write of PWR_MODE.STATE sets the start-up mode taken at the next WAIT. -/
  | pwrModeWrite (a : Access) (d : Nat) (v : Word)
  /-- VOTEONLY_SET (R417): writing VOTEONLY disables PWR_MODE until reset. -/
  | voteonlySet (a : Access) (d : Nat)
  /-- WAKEREL (R427): writing WAKEREL withdraws client 58's votes on the die. -/
  | wakerel (a : Access) (d : Nat)
  /-- PADREL (R420): writing PADREL hands a domain's held pads back to its blocks. -/
  | padrel (a : Access) (d : Nat) (v : Word)
  /-- DOMAIN_ENTRY_START (R418): a domain whose target falls starts an entry unless refused. -/
  | domainEntryStart (d m : Nat)
  /-- PAD_HOLD_POINT (R420): the entry reaches its pad-hold point and latches the domain's pads. -/
  | padHoldPoint (d m : Nat)
  /-- DOMAIN_ENTRY_DONE (R418): the domain reaches RET or OFF and any queued target starts. -/
  | domainEntryDone (d m : Nat)
  /-- DOMAIN_EXIT_START (R419): a domain whose target rises starts an exit. -/
  | domainExitStart (d m : Nat)
  /-- DOMAIN_EXIT_DONE (R419): the domain is ON again. -/
  | domainExitDone (d m : Nat)
  /-- WAKE_PIN_ACCEPT (R424): a WAKE pin change held for 2 µs is accepted and may make a wake event. -/
  | wakePinAccept (i : Nat) (high soon : Bool)
  /-- WAKE_TIMER_WRITE (R425): a write to WAKE_TIMER restarts the interval count. -/
  | wakeTimerWrite (a : Access) (v : Word)
  /-- INTERVAL_TIMER_EXPIRY (R425): the interval timer reaches 0 and makes a wake event. -/
  | intervalTimerExpiry
  /-- LINK_WAKE_DETECT (R343): the link wake detector sees activity or the wake pattern and raises a wake event. -/
  | linkWakeDetect
  /-- HUSK_ENTRY (R428): with the conditions met the Husk sequencer isolates the Keep domain, resets the dies and drops SUPPLY_EN. -/
  | huskEntry (wake : Option Nat)
  /-- SUPPLY_PG_RISE (R429): SUPPLY_PG goes high and the sequencer waits for the reference. -/
  | supplyPgRise
  /-- REFERENCE_READY (R429): the reference oscillator is ready and the dies leave reset. -/
  | referenceReady (recov ok : Bool)
  /-- HUSK_EXIT_TIMEOUT (R430): SUPPLY_PG or the reference is late and the attempt fails. -/
  | huskExitTimeout
  /-- HUSK_EXIT_RETRY (R430): 50 ms after a failed attempt the sequencer tries the exit again. -/
  | huskExitRetry
  /-- SUPPLY_PG_LOSS (R476): SUPPLY_PG low for over 1 µs holds the dies in reset and pulses FAULT_N. -/
  | supplyPgLoss
  /-- VDD_KEEP_APPLY (R475): on first application of VDD_KEEP the sequencer raises SUPPLY_EN after 1 ms. -/
  | vddKeepApply
  /-- VDD_KEEP_LOSS (R476): VDD_KEEP below 1.62 V resets the Keep domain. -/
  | vddKeepLoss
  /-- SHADOW_PERIOD_START (R434): a shadow period on the next target starts with its load phase. -/
  | shadowPeriodStart (d p : Nat)
  /-- SHADOW_LOAD_DONE (R434): the copy into the spares completes and lockstep starts. -/
  | shadowLoadDone (d p : Nat)
  /-- SPARE_CMD (R437): a write of SPARE_CMD.GO makes a kernel a substitution trigger. -/
  | spareCmd (a : Access) (d k : Nat)
  /-- SPARE_TAKEOVER (R438): at the takeover Pulse the standby becomes RUN and the old kernel RETIRED. -/
  | spareTakeover (d p : Nat)
  /-- DISPLACEMENT_RAMP_END (R441): the displacement ramp reaches 0 and loading of the displaced kernel begins. -/
  | displacementRampEnd (d p : Nat)
  /-- SRC_ENGINE_CHECK (R443): every second the spare engine checks one channel and takes over a failed engine. -/
  | srcEngineCheck (d e : Nat) (ok : Bool)
  /-- SAP_ARM (R260): writing ARM 1 while STOPPED checks the port and arms it. -/
  | sapArm (a : Access) (d m : Nat)
  /-- SAP_DISARM (R260): writing ARM 0 returns an ARMED or STARTING port to STOPPED. -/
  | sapDisarm (a : Access) (d m : Nat)
  /-- SAP_STOP (R265): writing STOP 1 makes a running port STOPPING. -/
  | sapStop (a : Access) (d m : Nat)
  /-- SAP_MUTE (R264): writing MUTE ramps the port's gain down or up. -/
  | sapMute (a : Access) (d m : Nat) (mute : Bool)
  /-- SAP_TRIG (R261): a write to SAP0_TRIG triggers armed TSRC 0 ports at the next Pulse. -/
  | sapTrig (a : Access) (d : Nat) (v : Word)
  /-- START_PIN_EDGE (R261): a START rising edge held 100 ns triggers TSRC 1 ports 8 Pulses later. -/
  | startPinEdge
  /-- SAP_TRIGGER_PULSE (R261): the trigger Pulse T arrives and the port becomes STARTING. -/
  | sapTriggerPulse (d m : Nat)
  /-- SAP_FRAME_ZERO (R262): frame 0 begins, FRAMECNT restarts and the port becomes RUNNING. -/
  | sapFrameZero (d m : Nat) (fitRx fitTx : Bool)
  /-- SAP_FRAME (R249): a frame completes, delivering receive samples and sending transmit samples. -/
  | sapFrame (d m : Nat) (own : Bool) (f : SapFrame)
  /-- SAP_RING_TRANSFER (R256): a ring unit is written to or read from memory and the port's pointer advances. -/
  | sapRingTransfer (d m : Nat) (tx : Bool)
  /-- SAP_MASK_WRITE (R253): a write of a slot mask makes the value pending. -/
  | sapMaskWrite (a : Access) (d m : Nat) (tx : Bool) (v : Word)
  /-- SAP_CLOCK_LOSS (R277): a port detects loss of clock and becomes LOST. -/
  | sapClockLoss (d m cause : Nat)
  /-- SAP_CLOCK_RECOVER (R280): a lost input returns and the port returns to RUNNING. -/
  | sapClockRecover (d m : Nat)
  /-- BIPHASE_LOCK (R270): the biphase receiver locks after 8 good frames. -/
  | biphaseLock (d m hz : Nat)
  /-- BIPHASE_BLOCK_RX (R273): a complete received block is checked, recorded in the ring and captured. -/
  | biphaseBlockRx (d m : Nat) (complete : Bool) (ws : List Word)
  /-- BIPHASE_BLOCK_TX (R274): at a block start the transmitter fixes the block's C and U bits. -/
  | biphaseBlockTx (d m : Nat)
  /-- CSNEW_RELEASE (R273): writing 1 to CSNEW releases the capture arrays. -/
  | csnewRelease (a : Access) (d m : Nat)
  /-- SRC_ENTRY_WRITE (R282): a converter entry write is accepted while its ports are stopped. -/
  | srcEntryWrite (a : Access) (d e : Nat) (v : Word)
  /-- SRC_RATIO_LOCK (R283): a tracked port's converter channels acquire their ratio. -/
  | srcRatioLock (d m : Nat) (tx : Bool) (r : Nat)
  /-- SRC_RELOCK (R283): a frame-rate step above 0.2 % makes the channels relock. -/
  | srcRelock (d m : Nat) (tx : Bool)
  /-- CLKSTEER_ENABLE (R286): writing CLKSTEER_CTL.EN starts or stops rate-follow steering. -/
  | clksteerEnable (a : Access) (v : Word)
  /-- CLKSTEER_SEL_WRITE (R286): a write of CLKSTEER_SEL is accepted while EN is 0. -/
  | clksteerSelWrite (a : Access) (v : Word)
  /-- CLKSTEER_LOCK (R288): the fill stays near half for 1,024 ticks and the loop enters LOCK. -/
  | clksteerLock
  /-- METER_CFG_WRITE (R294): a write of METER_CFG takes effect at the next Pulse and discards the block. -/
  | meterCfgWrite (a : Access) (d m : Nat) (v : Word)
  /-- METER_BLOCK_END (R291): at a block end the meter captures its readings and checks its alarm. -/
  | meterBlockEnd (d m : Nat)
  /-- METER_HOLDCLR (R293): writing HOLDCLR sets PKHOLD to 0. -/
  | meterHoldclr (a : Access) (d m : Nat)
  /-- DETECTOR_WRITE (R297): a write to a detector entry resets COUNT and SILENT and may wake a pod. -/
  | detectorWrite (a : Access) (d : Nat) (v : Word)
  /-- PARK_ENTRY_WRITE (R304): a write to a park entry wakes a parked pod. -/
  | parkEntryWrite (a : Access) (d p : Nat) (cfg : Bool) (v : Word)
  /-- POD_RESUME (R304): D ticks after a wake the parked kernels enter RUN. -/
  | podResume (d p : Nat)
  /-- LOOKAHEAD_WRITE (R300): a write to a look-ahead entry takes effect at the next Pulse. -/
  | lookaheadWrite (a : Access) (d n : Nat) (v : Word)
  /-- GEN_ARM (R308): writing ARM checks a generator channel and arms it. -/
  | genArm (a : Access) (d c : Nat) (now : Bool)
  /-- GEN_STOP (R308): writing STOP returns the channel to IDLE at the next Pulse. -/
  | genStop (a : Access) (d c : Nat)
  /-- GEN_TRIGGER (R308): at the trigger Pulse the channel becomes RUNNING. -/
  | genTrigger (d c : Nat)
  /-- GEN_DONE (R308): after its periods the channel returns to IDLE and sets DONE. -/
  | genDone (d c : Nat)
  /-- LINK_ENABLE (R331): writing LINK_CTL.EN 1 starts training. -/
  | linkEnable (a : Access) (d : Nat)
  /-- LINK_RETRAIN (R331): writing RETRAIN restarts training. -/
  | linkRetrain (a : Access) (d : Nat)
  /-- LINK_TRAIN_STEP (R331): a training state's condition is met or fails and the port moves on or records LCODE. -/
  | linkTrainStep (d : Nat) (ok : Bool) (a b : Nat) (c : TrainSeen)
  /-- LINK_TRAIN_RESTART (R331): 10 ms after a failure training restarts from DETECT. -/
  | linkTrainRestart (d : Nat)
  /-- LINK_WAKETX (R344): writing WAKETX sends the idle pattern and wake word and resumes training. -/
  | linkWaketx (a : Access) (d : Nat)
  /-- LINK_FRAME_RX (R315): a frame's line section arrives and is published and forwarded. -/
  | linkFrameRx (d : Nat) (bs sp : List LinkBlock) (err : Int)
  /-- LINK_FRAME_FAIL (R317): a frame missing, invalid or late fails and holds its import lines. -/
  | linkFrameFail (d num : Nat) (bs : List LinkBlock)
  /-- LINK_TIME_LOCK (R337): the time error stays within 5 ns for 1,024 ticks and the state becomes LOCK. -/
  | linkTimeLock
  /-- LINK_RDREQ (R325): an RDREQ for the device is executed by the link master and answered. -/
  | linkRdreq (d : Nat) (p : Arrival) (ahead : Nat)
  /-- LINK_WRREQ (R325): a WRREQ for the device is executed and acknowledged. -/
  | linkWrreq (d : Nat) (p : Arrival) (ahead : Nat) (aged : Bool)
  /-- LINK_RDRSP (R327): an RDRSP completes the remote access engine's read. -/
  | linkRdrsp (d : Nat) (p : Arrival)
  /-- LINK_WRACK (R327): a WRACK completes the remote access engine's write. -/
  | linkWrack (d : Nat) (p : Arrival)
  /-- LINK_SWAP_PACKET (R329): a SWAP packet delivers a swap request, report or commit. -/
  | linkSwapPacket (d : Nat) (p : Arrival) (aged : Bool)
  /-- LINK_START_PACKET (R328): a START packet triggers armed TSRC 3 ports with its start number. -/
  | linkStartPacket (d : Nat) (p : Arrival) (aged : Bool)
  /-- LINK_HOST_PACKET (R330): a HOST packet goes to the link receive queue. -/
  | linkHostPacket (d : Nat) (p : Arrival) (aged : Bool)
  /-- LINK_PACKET_ROUTE (R320): a packet not for the device is routed, broadcast or dropped as unreachable. -/
  | linkPacketRoute (d : Nat) (p : Arrival) (aged : Bool)
  /-- LINK_PACKET_TIMEOUT (R323): a queued packet waiting longer than TMO is discarded. -/
  | linkPacketTimeout (d i : Nat)
  /-- LINK_REMOTE_GO (R327): writing LINK_RCMD.GO sends one remote request. -/
  | linkRemoteGo (a : Access) (d : Nat) (write : Bool) (words : Nat)
  /-- LINK_REMOTE_TIMEOUT (R327): TMO expires with no response and the engine reports STATUS 0x4. -/
  | linkRemoteTimeout (d : Nat)
  /-- LINK_START_GO (R328): writing LINK_START.GO broadcasts a START message. -/
  | linkStartGo (a : Access) (d num : Nat)
  /-- LINK_TSWAP_GO (R318): writing LINK_TSWAP.GO requests an export table change. -/
  | linkTswapGo (a : Access) (d : Nat)
  /-- LINK_EXPORT_SWITCH (R318): at the target Pulse the export table changes. -/
  | linkExportSwitch (d : Nat)
  /-- LINK_RTSWAP_GO (R324): writing LINK_RTSWAP.GO requests a route table switch. -/
  | linkRtswapGo (a : Access)
  /-- LINK_ROUTE_SWITCH (R324): at the target Pulse the route tables switch copies. -/
  | linkRouteSwitch
  /-- LINK_RTHOLD_END (R324): RTHOLD ticks after a switch held packets are sent. -/
  | linkRtholdEnd
  /-- LINK_DELAY_MEASURE (R332): every 4,096 frames DELAY blocks measure the hop delay. -/
  | linkDelayMeasure (d : Nat) (raw : Nat × Nat)
  /-- LINK_DELAY_ECHO (R332): a received DELAY block is echoed with its turnaround time. -/
  | linkDelayEcho (d turn : Nat)
  /-- LINK_SPARE_REQUEST (R339): a lane exceeding THR in a window sends a SPARE request. -/
  | linkSpareRequest (d lane : Nat) (hs : List Nat) (ts : List (LinkBlock × Nat))
  /-- LINK_SPARE_BLOCK (R339): a SPARE request or acknowledgement is received. -/
  | linkSpareBlock (d : Nat) (ack : Bool) (lane f : Nat)
  /-- LINK_SPARE_SWITCH (R339): at frame Fs both ends use the spare lane, or the request lapses. -/
  | linkSpareSwitch (d : Nat) (tx : Bool)
  /-- LINK_LOSS (R341): a lost lane, bad headers or 8 failed frames take the port from UP to DETECT. -/
  | linkLoss (d cause : Nat)
  /-- LINK_ID_WRITE (R327): a write of LINK_ID is accepted only while every port has EN 0. -/
  | linkIdWrite (a : Access) (v : Word)
  /-- CSP_STAGE (R454): a write to CSP_D1–D5 stages a descriptor word. -/
  | cspStage (a : Access) (d n : Nat) (v : Word)
  /-- CSP_PUSH (R454): a write to CSP_D0 checks and queues a descriptor. -/
  | cspPush (a : Access) (d : Nat) (v : Word)
  /-- CSP_ENABLE (R455): writing CSP_CTL.EN runs or stops the queue. -/
  | cspEnable (a : Access) (d : Nat) (en : Bool)
  /-- CSP_ABORT (R455): writing ABORT stops at the next clock boundary and empties the queue. -/
  | cspAbort (a : Access) (d : Nat)
  /-- CSP_ENTRY_START (R452): the port starts the next queued entry with its select framing. -/
  | cspEntryStart (d : Nat)
  /-- CSP_ENTRY_DONE (R455): an entry completes, updating CSP_LAST and DONECNT. -/
  | cspEntryDone (d : Nat) (rx : List (List Bool))
  /-- CSP_MODF (R456): a contested select releases the drivers, stops the entry and sets MODF. -/
  | cspModf (d moved : Nat) (rx : List (List Bool))
  /-- CSP_MODF_CLEAR (R456): writing 1 to MODF returns the port to IDLE. -/
  | cspModfClear (a : Access) (d : Nat)
  /-- CSP_CFG_WRITE (R457): a write of CSP_CFG sets controller or target role and MMEN when allowed. -/
  | cspCfgWrite (a : Access) (d : Nat) (v : Word)
  /-- CSP_TARGET_SELECT (R457): SEL3_N becomes active and a target transfer begins. -/
  | cspTargetSelect
  /-- CSP_TARGET_COMMAND (R457): the target command byte and address are taken and the first read issued. -/
  | cspTargetCommand (cmd addr : Nat)
  /-- CSP_TARGET_READ_WORD (R458): a target read word is sent and the next read is issued. -/
  | cspTargetReadWord (late : Bool)
  /-- CSP_TARGET_WRITE_WORD (R460): a target write word is taken and issued as a bus write. -/
  | cspTargetWriteWord (v : Nat) (stalled : Bool)
  /-- CSP_TARGET_RELEASE (R461): SEL3_N becomes inactive and the transfer ends. -/
  | cspTargetRelease (mid : Option Bool)
  /-- REGISTER_WRITE (R12): a write to a register without its own row acts per its field access codes. -/
  | registerWrite (a : Access) (addr : Nat) (v : Word)
  /-- NOMINAL_TICK_FRAME (R333): while PULSE_STAT.RUNNING is 0, an UP link port sends a frame with SLOTS 0 at every nominal tick of PULSE_CFG.RATE, timed from its reference. -/
  | nominalTickFrame (d : Nat)
  /-- HUSK_DEFERRED_EXIT (R428): when a wake event comes after the pad-hold point of a HUSK entry, the exit starts 1 ms after SUPPLY_EN falls. -/
  | huskDeferredExit
  /-- STEWARD_DEBUG_HALT (R407): with a debug session granting bit 0, the debug port halts a steward, which becomes DEBUG. -/
  | stewardDebugHalt (d i : Nat)
  /-- DEBUG_FUSE_PROGRAM (R385): before LOCK is blown, the debug port programs key slots, the image key or the LOCK fuse. -/
  | debugFuseProgram (o : FuseOp)
deriving DecidableEq, Repr

end Sys2Proof
end

