-- ==== Sys2Proof/Decode.lean ====
section
/-! DEFINITION. The commands that words of the opcode table spell. No row of the table gives bits, so no word spells one. -/
namespace Sys2Proof

/-- The command that a word of `nbits` bits spells: none, for no row of the opcode table has bits. -/
def decodeTableWord (_nbits _w : Nat) : Option Instr := none

end Sys2Proof
end

