-- ==== Sys2Proof/Machine/Cyilo.lean ====
section
/-! DEFINITION. A Cyilo instruction word as typed data, and the decoding of the 64-bit word into it (R81–R107): one
constructor per layout, every operand pulled out once. `decodeWord` answers `none` for a word that is illegal wherever
it runs; `legalOn` adds what the core and its mode rule out (R105, R106). -/
namespace Sys2Proof.Machine

/-- The sixteen conditions of the condition table (R83). -/
inductive Cond where
  | al | eq | ne | lt | ge | le | gt | lo | hs | mi | pl | vs | vc | bt | bf | nv
deriving DecidableEq, Repr

/-- The addressing modes of R88; `imm` carries the signed IMM16. -/
inductive AM where
  | keep | inc | dec | addM | subM | add2 | sub2 | imm (i : Int)
deriving DecidableEq, Repr

/-- A memory operand: pointer number 0–15 and its addressing mode. -/
structure MemOp where
  ptr : Nat
  am  : AM
deriving DecidableEq, Repr

/-- An S1 or S2 operand of the multiply and search layouts (R90). -/
inductive DualOp where
  | mem (m : MemOp)
  | reg (n : Nat)
deriving DecidableEq, Repr

/-- A line operand (R91): a Wadi line of the die or a slipface line of the pod. -/
inductive LineOp where
  | wadi (n : Nat)
  | slip (n : Nat)
deriving DecidableEq, Repr

/-- A bit operand (R93): a bit-space address or bit `b` of D`n`. -/
inductive BitOp where
  | space (a : Nat)
  | dreg (n b : Nat)
deriving DecidableEq, Repr

/-- The parallel move of a class-10 word (R102). -/
inductive PMove where
  | none
  | ldl (l : LineOp) (d : Nat)
  | stlD (l : LineOp) (d : Nat)
  | stlA (l : LineOp) (a : Nat)
  | mov (dd ds : Nat)
  | sta (dd a : Nat)
deriving DecidableEq, Repr

/-- The binary ALU operations, opcodes 0x10–0x1C (R98). -/
inductive BinFn where
  | add | addc | sub | subc | and | or | xor | cmp | tst | min | max | ash | lsh
deriving DecidableEq, Repr

/-- The one-operand functions of opcode 0x1D (R99). -/
inductive UnFn where
  | neg | abs | not | sat | norm
deriving DecidableEq, Repr

/-- The bit operations of opcode 0x1F (R100). -/
inductive BitFn where
  | bset | bclr | bnot | btst | band | bor | bxor | bmov
deriving DecidableEq, Repr

/-- The multiply operations, opcodes 0x20–0x28 (R101). -/
inductive MulFn where
  | mpy | mpyu | mac | msu | cmpy | cmac | cmsu | cmacj | bfly
deriving DecidableEq, Repr

/-- The search operations, opcodes 0x29–0x2B (R137). -/
inductive SearchFn where
  | maxi | mini | maxai
deriving DecidableEq, Repr

/-- The second operand of a 32-bit binary operation. -/
inductive Src2 where
  | reg (n : Nat)
  | imm (w : Word)
deriving DecidableEq, Repr

/-- The second operand of an accumulator operation (R98): accumulator, D register or immediate. -/
inductive ASrc2 where
  | acc (n : Nat)
  | reg (n : Nat)
  | imm (w : Word)
deriving DecidableEq, Repr

/-- A count: from the word, or from a D register (R97, R101). -/
inductive Count where
  | imm (n : Int)
  | reg (d : Nat)
deriving DecidableEq, Repr

/-- What a Cyilo word asks for, its operands decoded (R95–R103). -/
inductive Op where
  | nop | end_ | bra (disp : Int) | jmpImm (addr : Nat) | jmpReg (d : Nat) | bsr (disp : Int) | rts
  | rep (c : Count) | brpt (level : Nat) (c : Count) (len : Nat)
  | trap (number : Nat) | brk (code : Nat) | rti | ei | di | wait
  | binD (f : BinFn) (dd ds1 : Nat) (s2 : Src2)
  | binA (f : BinFn) (ad as1 : Nat) (s2 : ASrc2)
  | unD (f : UnFn) (dd ds : Nat)
  | unA (f : UnFn) (ad as : Nat)
  | normA (dd as : Nat)
  | div (frac : Bool) (dd ds1 ds2 : Nat)
  | bit (f : BitFn) (bd bs : BitOp)
  | mul (f : MulFn) (acc : Nat) (s1 s2 : DualOp) (int : Bool) (pm : PMove)
  | search (f : SearchFn) (dd : Nat) (src : DualOp) (pm : PMove)
  | clra (a : Nat) (pm : PMove)
  | movaA (ad as : Nat) (pm : PMove)
  | movaD (ad d : Nat) (pm : PMove)
  | shacc (a : Nat) (c : Count) (pm : PMove)
  | resadd (a : Nat) (pm : PMove)
  | ld (d : Nat) (m : MemOp) | st (d : Nat) (m : MemOp)
  | ldi (dst : Nat) (v : Word) | mov (dst src : Nat)
  | ldl (d : Nat) (l : LineOp) | stl (d : Nat) (l : LineOp)
  | ldh (d : Nat) (m : MemOp) | sth (d : Nat) (m : MemOp)
  | modp (m : MemOp)
  | staD (a dd : Nat) | staM (a : Nat) (m : MemOp)
  | ftap (acc : Nat) (s1 : MemOp) (s2 : DualOp) (int : Bool)
  | voteOne (domain : Nat) (val : Bool) | voteSet (d : Nat)
  | swapreq (dg dt : Nat) (yonly : Bool)
deriving DecidableEq, Repr

/-- A decoded slot: its condition, the bit-space address CBIT, and the operation (R81). -/
structure Slot where
  cond : Cond
  cbit : Nat
  op   : Op
deriving DecidableEq, Repr

/-- Where a word runs (R105): a kernel in sample mode, a kernel in TEST, a steward. -/
inductive Mode where
  | sample | test | steward
deriving DecidableEq, Repr

/-- Bits [hi:lo] of an instruction word. -/
def iField (w : IWord) (hi lo : Nat) : Nat := (w.toNat >>> lo) % 2 ^ (hi + 1 - lo)

/-- A field read as a two's complement number of `bits` bits. -/
def signedField (v bits : Nat) : Int := if v < 2 ^ (bits - 1) then (v : Int) else (v : Int) - (2 ^ bits : Nat)

/-- `some ()` when a reserved field is 0 (R107). -/
def zeroField (w : IWord) (hi lo : Nat) : Option Unit := if iField w hi lo = 0 then some () else none

/-- `some ()` when the condition of a layout holds. -/
def need (b : Bool) : Option Unit := if b then some () else none

/-- COND as the condition table names it (R83). -/
def decodeCond (n : Nat) : Cond :=
  match n with
  | 0 => .al | 1 => .eq | 2 => .ne | 3 => .lt | 4 => .ge | 5 => .le | 6 => .gt | 7 => .lo
  | 8 => .hs | 9 => .mi | 10 => .pl | 11 => .vs | 12 => .vc | 13 => .bt | 14 => .bf | _ => .nv

/-- The addressing mode of a layout with an IMM16 field: IMM16 must be 0 unless AM is 0b111 (R88). -/
def decodeAMImm (am imm16 : Nat) : Option AM :=
  match am with
  | 7 => some (.imm (signedField imm16 16))
  | _ =>
    if imm16 = 0 then
      some (match am with | 0 => .keep | 1 => .inc | 2 => .dec | 3 => .addM | 4 => .subM | 5 => .add2 | _ => .sub2)
    else none

/-- The addressing mode of a layout without IMM16: 0b111 is illegal (R88). -/
def decodeAM (am : Nat) : Option AM := if am = 7 then none else decodeAMImm am 0

/-- A seven-bit S1 or S2 field (R90); `base` is 0 on the X side and 8 on the Y side. -/
def decodeDual (f base : Nat) : Option DualOp :=
  if f / 64 = 0 then do
    let am ← decodeAM (f % 8)
    some (.mem ⟨base + f / 8 % 8, am⟩)
  else if f % 4 = 0 then some (.reg (f / 4 % 16)) else none

/-- A fifteen-bit line operand (R91). -/
def decodeLine (f : Nat) : Option LineOp :=
  if f / 2 ^ 14 = 0 then some (.wadi (f % 2 ^ 14))
  else if f / 256 % 64 = 0 then some (.slip (f % 256)) else none

/-- A thirteen-bit bit operand (R93). -/
def decodeBit (f : Nat) : Option BitOp :=
  if f / 4096 = 0 then some (.space f)
  else if f / 512 % 8 = 0 then some (.dreg (f / 32 % 16) (f % 32)) else none

/-- The parallel-move field, bits [35:12] (R102). -/
def decodePM (w : IWord) : Option PMove := do
  zeroField w 13 12
  match iField w 35 33 with
  | 0 => do zeroField w 32 14; some .none
  | 1 => do let l ← decodeLine (iField w 32 18); some (.ldl l (iField w 17 14))
  | 2 => do let l ← decodeLine (iField w 32 18); some (.stlD l (iField w 17 14))
  | 3 => do zeroField w 15 14; let l ← decodeLine (iField w 32 18); some (.stlA l (iField w 17 16))
  | 4 => do zeroField w 32 22; some (.mov (iField w 17 14) (iField w 21 18))
  | 5 => do zeroField w 32 20; some (.sta (iField w 17 14) (iField w 19 18))
  | _ => none

/-- The register codes that R92 defines. -/
def regCodeOk (c : Nat) : Bool := c ≤ 0x60 || (0x68 ≤ c && c ≤ 0x6D)

/-- The free-mode registers' codes (R92, R106). -/
def regCodeFree (c : Nat) : Bool := 0x68 ≤ c && c ≤ 0x6D

/-- The flow and control opcodes (R95, R96). -/
def decodeFlow (opc : Nat) (w : IWord) : Option Op :=
  match opc with
  | 0x00 => do zeroField w 53 12; some .nop
  | 0x01 => do zeroField w 53 12; some .end_
  | 0x02 => do
    zeroField w 29 12; let d := signedField (iField w 53 30) 24
    need (d ≠ 1 && d ≠ 2); some (.bra d)
  | 0x03 =>
    if iField w 53 53 = 0 then do zeroField w 23 12; some (.jmpImm (iField w 52 24))
    else do zeroField w 48 12; some (.jmpReg (iField w 52 49))
  | 0x04 => do
    zeroField w 29 12; let d := signedField (iField w 53 30) 24
    need (d ≠ 1 && d ≠ 2); some (.bsr d)
  | 0x05 => do zeroField w 53 12; some .rts
  | 0x06 =>
    if iField w 53 53 = 0 then do
      zeroField w 39 12; let n := iField w 52 40; need (1 ≤ n && n ≤ 4096); some (.rep (.imm n))
    else do zeroField w 48 12; some (.rep (.reg (iField w 52 49)))
  | 0x07 => do
    let lv := iField w 53 52; let len := iField w 37 26
    need (lv ≠ 3 && 1 ≤ len); zeroField w 25 12
    if iField w 51 51 = 0 then do
      let n := iField w 50 38; need (1 ≤ n && n ≤ 4096); some (.brpt lv (.imm n) len)
    else do zeroField w 46 38; some (.brpt lv (.reg (iField w 50 47)) len)
  | 0x08 => do zeroField w 45 12; some (.trap (iField w 53 46))
  | 0x09 => do zeroField w 37 12; some (.brk (iField w 53 38))
  | 0x0A => do zeroField w 53 12; some .rti
  | 0x0B => do zeroField w 53 12; some .ei
  | 0x0C => do zeroField w 53 12; some .di
  | 0x0D => do zeroField w 53 12; some .wait
  | _ => none

/-- Opcodes 0x10–0x1C. -/
def binFnOf (opc : Nat) : BinFn :=
  match opc with
  | 0x10 => .add | 0x11 => .addc | 0x12 => .sub | 0x13 => .subc | 0x14 => .and | 0x15 => .or | 0x16 => .xor
  | 0x17 => .cmp | 0x18 => .tst | 0x19 => .min | 0x1A => .max | 0x1B => .ash | _ => .lsh

/-- ASH and LSH take their count from IMM32[7:0], and IMM32[31:8] must be 0 (R94). -/
def immOk (f : BinFn) (imm : Nat) : Bool :=
  match f with
  | .ash | .lsh => imm < 256
  | _ => true

/-- CMP and TST write no destination, so the field must be 0 (R98). -/
def destOk (f : BinFn) (d : Nat) : Bool :=
  match f with
  | .cmp | .tst => d = 0
  | _ => true

/-- The binary ALU layouts (R98). -/
def decodeBin (f : BinFn) (w : IWord) : Option Op :=
  if iField w 53 53 = 0 then do
    let dd := iField w 52 49
    need (destOk f dd)
    if iField w 44 44 = 0 then do
      zeroField w 39 12
      need (f ≠ .tst || iField w 43 40 = 0)
      some (.binD f dd (iField w 48 45) (.reg (iField w 43 40)))
    else do
      need (f ≠ .tst && immOk f (iField w 43 12))
      some (.binD f dd (iField w 48 45) (.imm (BitVec.ofNat 32 (iField w 43 12))))
  else do
    let ad := iField w 52 51
    need (destOk f ad)
    need (f ≠ .addc && f ≠ .subc && f ≠ .and && f ≠ .or && f ≠ .xor)
    match iField w 48 47 with
    | 0 => do
      zeroField w 44 12
      need (f ≠ .ash && f ≠ .lsh && (f ≠ .tst || iField w 46 45 = 0))
      some (.binA f ad (iField w 50 49) (.acc (iField w 46 45)))
    | 1 => do
      zeroField w 42 12
      need (f ≠ .tst)
      some (.binA f ad (iField w 50 49) (.reg (iField w 46 43)))
    | 2 => do
      zeroField w 46 44
      need (f ≠ .tst && immOk f (iField w 43 12))
      some (.binA f ad (iField w 50 49) (.imm (BitVec.ofNat 32 (iField w 43 12))))
    | _ => none

/-- Opcode 0x1D (R99). -/
def decodeUnary (w : IWord) : Option Op := do
  let f ← match iField w 52 50 with
    | 0 => some UnFn.neg | 1 => some .abs | 2 => some .not | 3 => some .sat | 4 => some .norm | _ => none
  if iField w 53 53 = 0 then do
    zeroField w 41 12; some (.unD f (iField w 49 46) (iField w 45 42))
  else
    match f with
    | .not => none
    | .norm => do zeroField w 43 12; some (.normA (iField w 49 46) (iField w 45 44))
    | _ => do zeroField w 45 12; some (.unA f (iField w 49 48) (iField w 47 46))

/-- Opcode 0x1E (R99). -/
def decodeDiv (w : IWord) : Option Op := do
  zeroField w 40 12
  some (.div (iField w 53 53 = 1) (iField w 52 49) (iField w 48 45) (iField w 44 41))

/-- Opcode 0x1F (R100). -/
def decodeBitOp (w : IWord) : Option Op := do
  zeroField w 24 12
  let bd ← decodeBit (iField w 50 38)
  let bs ← decodeBit (iField w 37 25)
  let f := match iField w 53 51 with
    | 0 => BitFn.bset | 1 => .bclr | 2 => .bnot | 3 => .btst | 4 => .band | 5 => .bor | 6 => .bxor | _ => .bmov
  need (4 ≤ iField w 53 51 || iField w 37 25 = 0)
  some (.bit f bd bs)

/-- Whether a multiply operation is complex: it names a pair and takes no integer form (R101). -/
def isComplex (f : MulFn) : Bool :=
  match f with
  | .cmpy | .cmac | .cmsu | .cmacj | .bfly => true
  | _ => false

/-- A complex operation's register operand is an even D register (R90). -/
def pairOk (o : DualOp) : Bool :=
  match o with
  | .reg n => n % 2 = 0
  | .mem _ => true

/-- The D register that a parallel move writes, if any (R102). -/
def pmDest (pm : PMove) : Option Nat :=
  match pm with
  | .ldl _ d => some d
  | .mov dd _ => some dd
  | .sta dd _ => some dd
  | _ => none

/-- Opcodes 0x20–0x28 (R101). -/
def decodeMul (f : MulFn) (w : IWord) : Option Op := do
  zeroField w 36 36
  let s1 ← decodeDual (iField w 51 45) 0
  let s2 ← decodeDual (iField w 44 38) 8
  let pm ← decodePM w
  let acc := iField w 53 52
  let int := iField w 37 37 = 1
  need (!isComplex f || (acc % 2 = 0 && !int && pairOk s1 && pairOk s2))
  some (.mul f acc s1 s2 int pm)

/-- Opcodes 0x29–0x2B; the running extreme and the parallel move's destination must differ (R87, R107). -/
def decodeSearch (f : SearchFn) (w : IWord) : Option Op := do
  zeroField w 42 36
  let src ← decodeDual (iField w 49 43) 0
  let pm ← decodePM w
  need (pmDest pm ≠ some (iField w 53 50))
  some (.search f (iField w 53 50) src pm)

/-- Opcodes 0x2C–0x2F (R101). -/
def decodeAcc (opc : Nat) (w : IWord) : Option Op := do
  let pm ← decodePM w
  let a := iField w 53 52
  match opc with
  | 0x2C => do zeroField w 51 36; some (.clra a pm)
  | 0x2D =>
    match iField w 51 50 with
    | 0 => do zeroField w 47 36; some (.movaA a (iField w 49 48) pm)
    | 1 => do zeroField w 45 36; some (.movaD a (iField w 49 46) pm)
    | _ => none
  | 0x2E => do
    zeroField w 42 36
    if iField w 51 51 = 0 then some (.shacc a (.imm (signedField (iField w 50 43) 8)) pm)
    else do zeroField w 46 43; some (.shacc a (.reg (iField w 50 47)) pm)
  | _ => do zeroField w 51 36; some (.resadd a pm)

/-- Opcodes 0x30–0x3C (R103). -/
def decodeLoad (opc : Nat) (w : IWord) : Option Op :=
  match opc with
  | 0x30 => do
    zeroField w 26 12; let am ← decodeAMImm (iField w 45 43) (iField w 42 27)
    some (.ld (iField w 53 50) ⟨iField w 49 46, am⟩)
  | 0x31 => do
    zeroField w 26 12; let am ← decodeAMImm (iField w 45 43) (iField w 42 27)
    some (.st (iField w 53 50) ⟨iField w 49 46, am⟩)
  | 0x32 => do
    zeroField w 14 12; need (regCodeOk (iField w 53 47))
    some (.ldi (iField w 53 47) (BitVec.ofNat 32 (iField w 46 15)))
  | 0x33 => do
    zeroField w 39 12; need (regCodeOk (iField w 53 47) && regCodeOk (iField w 46 40))
    some (.mov (iField w 53 47) (iField w 46 40))
  | 0x34 => do zeroField w 34 12; let l ← decodeLine (iField w 49 35); some (.ldl (iField w 53 50) l)
  | 0x35 => do zeroField w 34 12; let l ← decodeLine (iField w 49 35); some (.stl (iField w 53 50) l)
  | 0x36 => do
    zeroField w 28 12; let am ← decodeAMImm (iField w 47 45) (iField w 44 29)
    some (.ldh (iField w 53 50) ⟨12 + iField w 49 48, am⟩)
  | 0x37 => do
    zeroField w 28 12; let am ← decodeAMImm (iField w 47 45) (iField w 44 29)
    some (.sth (iField w 53 50) ⟨12 + iField w 49 48, am⟩)
  | 0x38 => do
    zeroField w 30 12; let am ← decodeAMImm (iField w 49 47) (iField w 46 31)
    some (.modp ⟨iField w 53 50, am⟩)
  | 0x39 =>
    if iField w 51 51 = 0 then do zeroField w 46 12; some (.staD (iField w 53 52) (iField w 50 47))
    else do
      zeroField w 27 12; let am ← decodeAMImm (iField w 46 44) (iField w 43 28)
      some (.staM (iField w 53 52) ⟨iField w 50 47, am⟩)
  | 0x3A => do
    zeroField w 36 12
    let s1 ← decodeDual (iField w 51 45) 0
    let s2 ← decodeDual (iField w 44 38) 8
    match s1 with
    | .mem m => some (.ftap (iField w 53 52) m s2 (iField w 37 37 = 1))
    | .reg _ => none
  | 0x3B => do
    zeroField w 47 12
    if iField w 53 53 = 0 then do
      need (iField w 52 49 ≤ 8); some (.voteOne (iField w 52 49) (iField w 48 48 = 1))
    else do zeroField w 48 48; some (.voteSet (iField w 52 49))
  | 0x3C => do
    zeroField w 44 12
    some (.swapreq (iField w 53 50) (iField w 49 46) (iField w 45 45 = 1))
  | _ => none

/-- The operation of a word whose COND is not NV. -/
def decodeOp (w : IWord) : Option Op :=
  let opc := iField w 63 58
  if opc < 0x10 then decodeFlow opc w
  else if opc < 0x1D then decodeBin (binFnOf opc) w
  else match opc with
    | 0x1D => decodeUnary w
    | 0x1E => decodeDiv w
    | 0x1F => decodeBitOp w
    | 0x20 => decodeMul .mpy w
    | 0x21 => decodeMul .mpyu w
    | 0x22 => decodeMul .mac w
    | 0x23 => decodeMul .msu w
    | 0x24 => decodeMul .cmpy w
    | 0x25 => decodeMul .cmac w
    | 0x26 => decodeMul .cmsu w
    | 0x27 => decodeMul .cmacj w
    | 0x28 => decodeMul .bfly w
    | 0x29 => decodeSearch .maxi w
    | 0x2A => decodeSearch .mini w
    | 0x2B => decodeSearch .maxai w
    | 0x2C => decodeAcc 0x2C w
    | 0x2D => decodeAcc 0x2D w
    | 0x2E => decodeAcc 0x2E w
    | 0x2F => decodeAcc 0x2F w
    | _ => decodeLoad opc w

/-- END, REP and BRPT must carry AL (R86). -/
def condOk (c : Cond) (op : Op) : Bool :=
  match op with
  | .end_ | .rep _ | .brpt _ _ _ => c = .al
  | _ => true

/-- A word as a slot. NV makes any word a harmless annulled slot (R85), here NOP under NV; otherwise `none` says that
R107 makes the word illegal wherever it runs. -/
def decodeWord (w : IWord) : Option Slot :=
  let c := decodeCond (iField w 57 54)
  if c = .nv then some ⟨.nv, 0, .nop⟩
  else do
    let op ← decodeOp w
    need (condOk c op && (c = .bt || c = .bf || iField w 11 0 = 0))
    some ⟨c, iField w 11 0, op⟩

/-- A parallel move that reaches a line: not legal on a steward (R106). -/
def pmLine (pm : PMove) : Bool :=
  match pm with
  | .ldl _ _ | .stlD _ _ | .stlA _ _ => true
  | _ => false

/-- The parallel move of an operation, `.none` where its layout has none. -/
def opPM (op : Op) : PMove :=
  match op with
  | .mul _ _ _ _ _ pm | .search _ _ _ pm | .clra _ pm | .movaA _ _ pm | .movaD _ _ pm | .shacc _ _ pm
  | .resadd _ pm => pm
  | _ => .none

/-- The register codes an operation names through LDI or MOV. -/
def opCodes (op : Op) : List Nat :=
  match op with
  | .ldi d _ => [d]
  | .mov d s => [d, s]
  | _ => []

/-- What R105 and R106 allow on a core and in a mode. Backward branches, and LDI or MOV to RPC or LC0–LC2, are legal
words that admission refuses with codes of their own (R108). -/
def legalOn (m : Mode) (op : Op) : Bool :=
  match m with
  | .sample =>
    (match op with
     | .jmpReg _ | .bsr _ | .rts | .rep (.reg _) | .brpt _ (.reg _) _ | .brk _ | .rti | .ei | .di | .wait
     | .voteOne _ _ | .voteSet _ | .swapreq _ _ _ => false
     | _ => true)
      && !(opCodes op).any regCodeFree
  | .test =>
    match op with
    | .end_ | .voteOne _ _ | .voteSet _ | .swapreq _ _ _ => false
    | _ => true
  | .steward =>
    (match op with
     | .end_ | .ldl _ _ | .stl _ _ | .ldh _ _ | .sth _ _ => false
     | _ => true)
      && !pmLine (opPM op)

/-- The words that R142 bars from a delay slot, and that R148 bars after REP together with NOP. -/
def isFlow (op : Op) : Bool :=
  match op with
  | .end_ | .bra _ | .jmpImm _ | .jmpReg _ | .bsr _ | .rts | .rep _ | .brpt _ _ _ | .trap _ | .brk _ | .rti | .wait =>
    true
  | _ => false

/-- A flow instruction in the sense of R148 and admission code 0x4: the whole flow class. -/
def isFlowClass (op : Op) : Bool :=
  match op with
  | .nop | .ei | .di => true
  | _ => isFlow op

/-- Steps of one run of a slot, by the step cost table (R109); REP and BRPT count 1 themselves. -/
def opCost (onSteward : Bool) (op : Op) : Nat :=
  match op with
  | .div _ _ _ _ => 20
  | .mul f _ _ _ _ _ => if onSteward && isComplex f then 2 else 1
  | .ftap _ _ _ _ => if onSteward then 2 else 1
  | _ => 1

/-- Steps of a slot: an NV word costs one (R85, R109). -/
def slotCost (onSteward : Bool) (sl : Slot) : Nat := if sl.cond = .nv then 1 else opCost onSteward sl.op

/-- The pointers whose memory an operation accesses, main operation only. -/
def opPtrs (op : Op) : List Nat :=
  let dual (o : DualOp) : List Nat := match o with | .mem m => [m.ptr] | .reg _ => []
  match op with
  | .ld _ m | .st _ m | .staM _ m => [m.ptr]
  | .mul _ _ s1 s2 _ _ => dual s1 ++ dual s2
  | .search _ _ s _ => dual s
  | .ftap _ m s2 _ => m.ptr :: dual s2
  | _ => []

/-- Whether a slot takes a Hoard operand, given KMODE.HOARD (R35); an NV word takes none. -/
def takesHoard (hoard : Bool) (sl : Slot) : Bool :=
  if sl.cond = .nv then false
  else match sl.op with
    | .ldh _ _ | .sth _ _ => true
    | op => hoard && (opPtrs op).any (12 ≤ ·)

end Sys2Proof.Machine
end

