-- ==== Sys2Proof/Machine/FixedMath.lean ====
section
/-! DEFINITION. Integer arithmetic for the functions that the spec gives by formula: square root, sine, cosine,
logarithm and exponential, in fixed point far finer than any result that is kept (assumption log 6). -/
namespace Sys2Proof.Machine

/-- The scale of the fixed-point numbers of this file: 2^192. -/
def fxOne : Int := (2 ^ 192 : Nat)

/-- π × 2^192, rounded. -/
def fxPi : Int := 19720096697726538562396133364228268891463450865190089732560

/-- The product of two fixed-point numbers. -/
def fxMul (a b : Int) : Int := a * b / fxOne

/-- One bit of an integer square root, from bit `i` down: `r` is the root so far. -/
def sqrtBits (n : Nat) : Nat → Nat → Nat
  | 0, r => r
  | i + 1, r => let t := r + 2 ^ i; sqrtBits n i (if t * t ≤ n then t else r)

/-- floor(sqrt(n)) for n below 2^128. -/
def isqrt (n : Nat) : Nat := sqrtBits n 64 0

/-- Terms of the alternating series x − x³/3! + …: `t` is the current term, `k` its odd order. -/
def sinSeries (x2 : Int) : Nat → Int → Nat → Int
  | 0, _, _ => 0
  | fuel + 1, t, k => t + sinSeries x2 fuel (-(fxMul t x2) / ((k + 1) * (k + 2) : Nat)) (k + 2)

/-- sin of a fixed-point angle of at most π/2, 2^−192 scale. -/
def fxSinSmall (x : Int) : Int := sinSeries (fxMul x x) 40 x 1

/-- sin(2π × turn) for a fixed-point number of turns. -/
def fxSinTurn (turn : Int) : Int :=
  let t := turn % fxOne
  let quarter := fxOne / 4
  let half := fxOne / 2
  let (neg, u) := if t < half then (false, t) else (true, t - half)
  let v := if u ≤ quarter then u else half - u
  let y := if v = quarter then fxOne else fxSinSmall (fxMul (2 * fxPi) v)
  if neg then -y else y

/-- cos(2π × turn). -/
def fxCosTurn (turn : Int) : Int := fxSinTurn (turn + fxOne / 4)

/-- Terms of 1 + x + x²/2! + …. -/
def expSeries (x : Int) : Nat → Int → Nat → Int
  | 0, _, _ => 0
  | fuel + 1, t, k => t + expSeries x fuel (fxMul t x / (k + 1 : Nat)) (k + 1)

/-- exp of a fixed-point number, by halving the argument six times. -/
def fxExp (x : Int) : Int :=
  let sq (y : Int) : Int := fxMul y y
  let y := expSeries (x / 64) 50 fxOne 0
  sq (sq (sq (sq (sq (sq y)))))

/-- Terms of y + y³/3 + y⁵/5 + …. -/
def atanhSeries (y2 : Int) : Nat → Int → Nat → Int
  | 0, _, _ => 0
  | fuel + 1, p, k => p / (k : Nat) + atanhSeries y2 fuel (fxMul p y2) (k + 2)

/-- ln(a / b) for a fixed-point ratio between 1 and 2: 2 × atanh((r − 1) / (r + 1)). -/
def fxLnSmall (r : Int) : Int :=
  let y := (r - fxOne) * fxOne / (r + fxOne)
  2 * atanhSeries (fxMul y y) 65 y 1

/-- ln of a fixed-point ratio of at least 1, halving it while it is 2 or more. -/
def fxLn : Nat → Int → Int
  | 0, r => fxLnSmall r
  | fuel + 1, r => if 2 * fxOne ≤ r then fxLnSmall (2 * fxOne) + fxLn fuel (r / 2) else fxLnSmall r

/-- floor(gain × sin) for a fixed-point sine: the sample of R306. -/
def fxScale (gain s : Int) : Int := gain * s / fxOne

end Sys2Proof.Machine
end

