-- ==== Sys2Proof/Config.lean ====
section
/-! DEFINITION. What an implementation fixes and what the spec leaves open. Every constant is opaque: no proof can see
its value, so a claim that holds of the model holds whatever the value is. -/
namespace Sys2Proof.Config

/-- A fresh open word: the model's counter `State.fresh` numbers the draws (assumption log 3). -/
opaque freeWord : Nat → Word

/-- A fresh open truth value, numbered the same way (assumption log 3). -/
opaque freeBool : Nat → Bool

/-- A fresh open natural number, numbered the same way (assumption log 3). -/
opaque freeNat : Nat → Nat

/-- The wear baseline of a kernel, fused at manufacture (R440), in millionths of the die's median time per step: kernel
`k` of die `d` is number `d * 144 + k` (assumption log 10). -/
opaque wearBaseline : Nat → Nat

/-- SHA-384 of a string of bytes, as its standard defines it (R379, assumption log 14). -/
opaque sha384 : List Byte → List Byte

/-- Whether an ECDSA P-384 signature verifies: public key, digest, signature (R379, assumption log 14). -/
opaque ecdsaOk : List Byte → List Byte → List Byte → Bool

/-- Byte `i` of the AES-256-GCM key stream of a key and an initialisation vector (R383, assumption log 14). -/
opaque gcmStream : Nat → List Byte → Nat → Byte

/-- The AES-256-GCM tag of a key, an initialisation vector, additional data and stored bytes (R383, assumption log 14). -/
opaque gcmTag : Nat → List Byte → List Byte → List Byte → List Byte

/-- Hops beyond the first by which a line has come over the network outside, by die and import line (R242, R315, assumption
log 18). -/
opaque importHops : Nat → Nat → Nat

/-- The impulse response of a half-band stage of a PDM decimator (R252), in units of 2^-23, by DECIM, stage (1, 2) and sample: the
responses are not in the spec, which gives what the whole chain meets (assumption log 89). -/
opaque halfBand : Nat → Nat → Nat → Int

/-- The impulse response of a converter channel (R284, R285), in units of 2^-31 per tick, by filter (low-latency or not), ratio and distance
from its centre in 2^-24 tick: it is symmetric, for its phase is linear, and its values are not in the spec (assumption log 3). -/
opaque convTap : Bool → Nat → Nat → Int

/-- A filter's result outside the number format, by the exact result: the spec states none (assumption log 3). -/
opaque clipped : Int → Word

/-- What the damping ratio of the rate-follow loop (R287) exceeds 1/2 by, in units of 1/256 below 3/2: the spec gives the bandwidth
and no damping (assumption log 16). -/
opaque steerDamping : Nat

/-- The pseudo-random pattern of the TRAIN block that block `n` of a frame on the spare lane is (R311), bits 119:0: the spec
does not give it (assumption log 93). -/
opaque trainPattern : Nat → BitVec 120

/-- Bits 119:0 of a SPARE or DELAY block (R311, R332, R339), by its type, lane and number: the spec does not lay them out
(assumption log 93). -/
opaque controlBits : Nat → Nat → Nat → BitVec 120

end Sys2Proof.Config
end

