-- ==== Sys2Proof/Machine/Flags.lean ====
section
/-! DEFINITION. FLG and every flag computation of Cyilo (R76, R110–R127, R137): pure functions from operands and the old
flags to a result and the new flags. -/
namespace Sys2Proof.Machine

/-- FLG (R76): Z, N, C, V, VS, SAT, DZ in bits 0–6. -/
abbrev Flg := BitVec 7

def flagZ (f : Flg) : Bool := f.getLsbD 0
def flagN (f : Flg) : Bool := f.getLsbD 1
def flagC (f : Flg) : Bool := f.getLsbD 2
def flagV (f : Flg) : Bool := f.getLsbD 3
def flagVS (f : Flg) : Bool := f.getLsbD 4
def flagSAT (f : Flg) : Bool := f.getLsbD 5
def flagDZ (f : Flg) : Bool := f.getLsbD 6

/-- FLG from its seven flags. -/
def mkFlg (z n c v vs sat dz : Bool) : Flg :=
  BitVec.ofNat 7 (z.toNat + 2 * n.toNat + 4 * c.toNat + 8 * v.toNat + 16 * vs.toNat + 32 * sat.toNat + 64 * dz.toNat)

/-- Z and N set, the rest kept. -/
def setZN (f : Flg) (z n : Bool) : Flg := mkFlg z n (flagC f) (flagV f) (flagVS f) (flagSAT f) (flagDZ f)

/-- C set, the rest kept. -/
def setC (f : Flg) (c : Bool) : Flg := mkFlg (flagZ f) (flagN f) c (flagV f) (flagVS f) (flagSAT f) (flagDZ f)

/-- V set or cleared; setting V also sets VS (R110). -/
def setV (f : Flg) (v : Bool) : Flg := mkFlg (flagZ f) (flagN f) (flagC f) v (flagVS f || v) (flagSAT f) (flagDZ f)

/-- SAT is only ever set (R110). -/
def addSAT (f : Flg) (b : Bool) : Flg := mkFlg (flagZ f) (flagN f) (flagC f) (flagV f) (flagVS f) (flagSAT f || b) (flagDZ f)

/-- DZ is only ever set (R110). -/
def addDZ (f : Flg) (b : Bool) : Flg := mkFlg (flagZ f) (flagN f) (flagC f) (flagV f) (flagVS f) (flagSAT f) (flagDZ f || b)

/-- Z and N of a result of any width (R110). -/
def znOf {w : Nat} (f : Flg) (r : BitVec w) : Flg := setZN f (r.toNat = 0) r.msb

/-- Whether a condition holds (R83); `bit` is the value of the bit at CBIT. -/
def condHolds (c : Cond) (f : Flg) (bit : Bool) : Bool :=
  match c with
  | .al => true
  | .eq => flagZ f
  | .ne => !flagZ f
  | .lt => flagN f != flagV f
  | .ge => flagN f == flagV f
  | .le => flagZ f || flagN f != flagV f
  | .gt => !flagZ f && flagN f == flagV f
  | .lo => !flagC f
  | .hs => flagC f
  | .mi => flagN f
  | .pl => !flagN f
  | .vs => flagV f
  | .vc => !flagV f
  | .bt => bit
  | .bf => !bit
  | .nv => false

/-- Whether an exact integer lies outside the signed range of `w` bits. -/
def outOfRange (w : Nat) (x : Int) : Bool := x < -(2 ^ (w - 1) : Nat) || (2 ^ (w - 1) : Nat) ≤ x

/-- The largest signed value of `w` bits. -/
def maxPos (w : Nat) : BitVec w := BitVec.ofNat w (2 ^ (w - 1) - 1)

/-- The most negative value of `w` bits. -/
def minNeg (w : Nat) : BitVec w := BitVec.ofNat w (2 ^ (w - 1))

/-- A value and the flags that go with it. -/
structure Res (w : Nat) where
  val : BitVec w
  flg : Flg
deriving DecidableEq, Repr

/-- ADD and ADDC (R112, R114): the carry out of the top bit, and V when the exact sum leaves the signed range. -/
def addRes {w : Nat} (f : Flg) (x y : BitVec w) (cin : Bool) : Res w :=
  let t := x.toNat + y.toNat + cin.toNat
  let r := BitVec.ofNat w t
  ⟨r, setV (setC (znOf f r) (2 ^ w ≤ t)) (outOfRange w (x.toInt + y.toInt + (cin.toNat : Int)))⟩

/-- SUB, SUBC and CMP (R112, R114): C is 1 when no borrow is needed. -/
def subRes {w : Nat} (f : Flg) (x y : BitVec w) (cin : Bool) : Res w :=
  let t := x.toNat + (2 ^ w - 1 - y.toNat) + cin.toNat
  let r := BitVec.ofNat w t
  ⟨r, setV (setC (znOf f r) (2 ^ w ≤ t)) (outOfRange w (x.toInt - y.toInt - 1 + (cin.toNat : Int)))⟩

/-- AND, OR, XOR and NOT: Z and N of the result, V cleared (R109 table). -/
def logicRes {w : Nat} (f : Flg) (r : BitVec w) : Res w := ⟨r, setV (znOf f r) false⟩

/-- TST (R112). -/
def tstFlags {w : Nat} (f : Flg) (x : BitVec w) : Flg := setV (setC (znOf f x) false) false

/-- MIN: op2 wins only when it is strictly less (R112). -/
def minRes {w : Nat} (f : Flg) (x y : BitVec w) : Res w :=
  let c := decide (y.toInt < x.toInt)
  let r := if c then y else x
  ⟨r, setV (setC (znOf f r) c) false⟩

/-- MAX: op2 wins only when it is strictly greater (R112). -/
def maxRes {w : Nat} (f : Flg) (x y : BitVec w) : Res w :=
  let c := decide (x.toInt < y.toInt)
  let r := if c then y else x
  ⟨r, setV (setC (znOf f r) c) false⟩

/-- Bit `i` of a shift operand as R115 reads it for C: `above` is the value of every position past the top bit. -/
def shiftBit {w : Nat} (x : BitVec w) (i : Int) (above : Bool) : Bool :=
  if i < 0 then false else if (w : Int) ≤ i then above else x.getLsbD i.toNat

/-- The last bit shifted out, for a non-zero count (R115). -/
def shiftCarry {w : Nat} (x : BitVec w) (n : Int) (above : Bool) : Bool :=
  if 0 < n then shiftBit x ((w : Int) - n) above else shiftBit x (-n - 1) above

/-- ASH and SHACC (R115). -/
def ashRes {w : Nat} (f : Flg) (sat : Bool) (x : BitVec w) (n : Int) : Res w :=
  if n = 0 then ⟨x, setV (znOf f x) false⟩
  else if n < 0 then
    let r := BitVec.ofInt w (x.toInt / (2 ^ (-n).toNat : Nat))
    ⟨r, setV (setC (znOf f r) (shiftCarry x n x.msb)) false⟩
  else
    let exact := x.toInt * (2 ^ n.toNat : Nat)
    let ov := outOfRange w exact
    let r := if ov && sat then (if x.msb then minNeg w else maxPos w) else BitVec.ofInt w exact
    ⟨r, addSAT (setV (setC (znOf f r) (shiftCarry x n x.msb)) ov) (ov && sat)⟩

/-- LSH (R115): zeros come in, V is always cleared. -/
def lshRes {w : Nat} (f : Flg) (x : BitVec w) (n : Int) : Res w :=
  if n = 0 then ⟨x, setV (znOf f x) false⟩
  else
    let r := if n < 0 then BitVec.ofNat w (x.toNat / 2 ^ (-n).toNat) else BitVec.ofNat w (x.toNat * 2 ^ n.toNat)
    ⟨r, setV (setC (znOf f r) (shiftCarry x n false)) false⟩

/-- NEG (R116): the flags of 0 − op1, with the most negative value going to the most positive. -/
def negRes {w : Nat} (f : Flg) (x : BitVec w) : Res w :=
  if x = minNeg w then ⟨maxPos w, addSAT (setV (setC (znOf f (maxPos w)) false) true) true⟩
  else subRes f 0 x true

/-- ABS (R116): C is unchanged. -/
def absRes {w : Nat} (f : Flg) (x : BitVec w) : Res w :=
  if x = minNeg w then ⟨maxPos w, addSAT (setV (znOf f (maxPos w)) true) true⟩
  else
    let r := if x.msb then -x else x
    ⟨r, setV (znOf f r) false⟩

/-- A clamp to [lo, hi] that sets V, VS and SAT when it acts (R117). -/
def clampRes {w : Nat} (f : Flg) (x : BitVec w) (lo hi : Int) : Res w :=
  let r := if x.toInt < lo then BitVec.ofInt w lo else if hi < x.toInt then BitVec.ofInt w hi else x
  let hit := decide (x.toInt < lo) || decide (hi < x.toInt)
  ⟨r, addSAT (setV (znOf f r) hit) hit⟩

/-- SAT on a D register: the range of a 24-bit sample (R117). -/
def satRes32 (f : Flg) (x : Word) : Res 32 := clampRes f x (-8388608) 8388607

/-- SAT on an accumulator: the range that a 32-bit store holds (R117). -/
def satRes72 (f : Flg) (x : Acc) : Res 72 := clampRes f x (-(2 ^ 63 : Nat)) ((2 ^ 63 : Nat) - 1)

/-- The number of bits below the top bit that equal it, before the first that differs (R118). -/
def signBits {w : Nat} (x : BitVec w) : Nat :=
  ((List.range (w - 1)).map fun i => x.getLsbD (w - 2 - i)).takeWhile (· == x.msb) |>.length

/-- NORM (R118): `bias` is 0 for a D register and 8 for an accumulator. -/
def normRes {w : Nat} (f : Flg) (x : BitVec w) (bias : Nat) : Res 32 :=
  let n : Int := (signBits x : Int) - bias
  ⟨BitVec.ofInt 32 n, setV (setZN f (x.toNat = 0) (decide (n < 0))) false⟩

/-- DIV (R119): the quotient rounds toward zero; C is unchanged. -/
def divRes (f : Flg) (frac : Bool) (x y : Word) : Res 32 :=
  if y.toInt = 0 then
    let r : Word := if 0 < x.toInt then maxPos 32 else if x.toInt < 0 then minNeg 32 else 0
    ⟨r, addDZ (setV (znOf f r) false) true⟩
  else
    let q := (if frac then x.toInt * (2 ^ 31 : Nat) else x.toInt).tdiv y.toInt
    let ov := outOfRange 32 q
    let r := if ov then (if q < 0 then minNeg 32 else maxPos 32) else BitVec.ofInt 32 q
    ⟨r, addSAT (setV (znOf f r) ov) ov⟩

/-- The result of storing an accumulator to 32 bits: the word, V, SAT and the residue (R70). -/
structure StoreRes where
  val : Word
  v   : Bool
  sat : Bool
  res : Word
deriving DecidableEq, Repr

/-- Whether an accumulator fits 32 bits: acc[71:63] all equal (R70). -/
def fits32 (a : Acc) : Bool := !outOfRange 64 a.toInt

/-- The store of R70; `sat` is KMODE.SATMODE. -/
def store32 (sat : Bool) (a : Acc) : StoreRes :=
  let cut : Word := BitVec.ofNat 32 (a.toNat / 2 ^ 32)
  let low : Word := BitVec.ofNat 32 a.toNat
  if fits32 a then ⟨cut, false, false, low⟩
  else if sat then ⟨if a.msb then minNeg 32 else maxPos 32, true, true, 0⟩
  else ⟨cut, true, false, low⟩

/-- q31: a word placed as Q1.31 in acc[63:32], sign-extended (R94). -/
def q31 (w : Word) : Acc := BitVec.ofInt 72 (w.toInt * (2 ^ 32 : Nat))

/-- The exact product of MPY, MAC and MSU, shifted left by one in the fractional form (R69, R121). -/
def prodExact (int : Bool) (x y : Word) : Int := if int then x.toInt * y.toInt else x.toInt * y.toInt * 2

/-- The unshifted product of MPYU (R122). -/
def prodUnsigned (int : Bool) (x y : Word) : Int := if int then (x.toNat : Int) * y.toNat else x.toInt * y.toNat

/-- An exact value reduced to an accumulator, with V when it left the 72-bit range (R121, R127). -/
def accRes (f : Flg) (x : Int) : Res 72 :=
  let r := BitVec.ofInt 72 x
  ⟨r, setV (znOf f r) (outOfRange 72 x)⟩

/-- The flags of an accumulator pair (R110): Z when both are 0, N of the real part, V when either overflowed. -/
def pairFlags (f : Flg) (re im : Int) (v : Bool) : Flg :=
  let r := BitVec.ofInt 72 re
  let i := BitVec.ofInt 72 im
  setV (setZN f (r.toNat = 0 && i.toNat = 0) r.msb) v

/-- The exact complex product of CMPY, real and imaginary part (R123). -/
def cprod (xr xi yr yi : Word) : Int × Int :=
  (xr.toInt * yr.toInt * 2 - xi.toInt * yi.toInt * 2, xr.toInt * yi.toInt * 2 + xi.toInt * yr.toInt * 2)

/-- The exact product of CMACJ, x times the conjugate of y (R123). -/
def cprodJ (xr xi yr yi : Word) : Int × Int :=
  (xr.toInt * yr.toInt * 2 + xi.toInt * yi.toInt * 2, xi.toInt * yr.toInt * 2 - xr.toInt * yi.toInt * 2)

/-- The outcome of a search step: whether the operand wins, the new extreme, the flags (R137). -/
structure SearchRes where
  win : Bool
  val : Word
  flg : Flg
deriving DecidableEq, Repr

/-- MAXI, MINI and MAXAI on a running extreme `d` and an operand `v` (R137). -/
def searchRes (f : Flg) (fn : SearchFn) (d v : Word) : SearchRes :=
  match fn with
  | .maxi =>
    let w := decide (d.toInt < v.toInt); let r := if w then v else d
    ⟨w, r, setV (setC (znOf f r) w) false⟩
  | .mini =>
    let w := decide (v.toInt < d.toInt); let r := if w then v else d
    ⟨w, r, setV (setC (znOf f r) w) false⟩
  | .maxai =>
    let ov := v = minNeg 32
    let mag : Word := if ov then maxPos 32 else if v.msb then -v else v
    let w := decide (d.toInt < mag.toInt); let r := if w then mag else d
    ⟨w, r, addSAT (setV (setC (znOf f r) w) ov) ov⟩

end Sys2Proof.Machine
end

