-- ==== Sys2Proof/Machine/RegMap.lean ====
section
/-! DEFINITION. The register map, taken from the register tables of the spec: the package address of every register
(R11), the places of the fields the model names, and for every register its reset value and the masks that its fields'
access codes give a bus write (R12, R14). -/
namespace Sys2Proof.Machine

/-- The package address of offset `off` of register page `page` of die `d` (R11). -/
def regA (d page off : Nat) : Nat := d * 0x10_0000_0000 + 0x4000_0000 + page * 0x1000 + off

/-- A field of a register: bits [hi:lo]. -/
structure Fld where
  hi : Nat
  lo : Nat
deriving DecidableEq, Repr

/-- One register of a page: where it lies (`n1` copies `s1` apart, each of `n2` copies `s2` apart), what it resets to,
and which bits a write sets (RW), clears by 1 (W1C), sets by 1 (W1S) or sets in boot privilege (BP). -/
structure RegRow where
  off   : Nat
  s1    : Nat
  n1    : Nat
  s2    : Nat
  n2    : Nat
  reset : Nat
  rw    : Nat
  w1c   : Nat
  w1s   : Nat
  bp    : Nat
deriving DecidableEq, Repr

/-- Whether a row lies at an offset of its page. -/
def rowAt (r : RegRow) (o : Nat) : Bool :=
  r.off ≤ o &&
    (let k := o - r.off
     let i := if r.n1 = 1 then 0 else k / r.s1
     let m := if r.n1 = 1 then k else k % r.s1
     let j := if r.n2 = 1 then 0 else m / r.s2
     let z := if r.n2 = 1 then m else m % r.s2
     i < r.n1 && j < r.n2 && z = 0)

namespace Reg

def SYS_ID (d : Nat) : Nat := regA d 0 0
def PULSE_CTL (d : Nat) : Nat := regA d 1 0
def PULSE_CFG (d : Nat) : Nat := regA d 1 4
def PULSE_STAT (d : Nat) : Nat := regA d 1 8
def PULSE_BUDGET (d : Nat) : Nat := regA d 1 0xc
def PULSE_ADMIT_LOG (d : Nat) : Nat := regA d 1 0x20
def PULSE_ADMIT_CNT (d : Nat) : Nat := regA d 1 0x24
def PULSE_OVR_LOG (d : Nat) : Nat := regA d 1 0x28
def PULSE_OVR_STEP (d : Nat) : Nat := regA d 1 0x2c
def PULSE_OVR_TOTAL (d : Nat) : Nat := regA d 1 0x30
def PULSE_COUNT_LO (d : Nat) : Nat := regA d 1 0x10
def PULSE_COUNT_HI (d : Nat) : Nat := regA d 1 0x14
def GOV_CTL (d : Nat) : Nat := regA d 2 0
def GOV_CFG (d : Nat) : Nat := regA d 2 4
def GOV_LIMIT (d : Nat) : Nat := regA d 2 8
def GOV_STAT (d : Nat) : Nat := regA d 2 0xc
def GOV_MARGIN (d : Nat) : Nat := regA d 2 0x10
def GOV_MARGIN_MIN (d : Nat) : Nat := regA d 2 0x14
def GOV_MANUAL (d : Nat) : Nat := regA d 2 0x18
def GOV_WEAR_SEL (d : Nat) : Nat := regA d 2 0x20
def GOV_WEAR_DATA (d : Nat) : Nat := regA d 2 0x24
def GOV_WEAR_LIM (d : Nat) : Nat := regA d 2 0x28
def GOV_ESC_CNT (d : Nat) : Nat := regA d 2 0x2c
def KERNEL_STAT (d k : Nat) : Nat := regA d (0x100 + k) 0
def KERNEL_CTL (d k : Nat) : Nat := regA d (0x100 + k) 4
def KERNEL_STEPS (d k : Nat) : Nat := regA d (0x100 + k) 8
def KERNEL_OVR_CNT (d k : Nat) : Nat := regA d (0x100 + k) 0xc
def KERNEL_BANKMODE (d k : Nat) : Nat := regA d (0x100 + k) 0x10
def KERNEL_ECC (d k : Nat) : Nat := regA d (0x100 + k) 0x14
def POD_LTAB_SEL (d p : Nat) : Nat := regA d (0x80 + p) 0
def POD_LTAB_DATA (d p : Nat) : Nat := regA d (0x80 + p) 4
def POD_CONFLICT_CAR (d p : Nat) : Nat := regA d (0x80 + p) 0x10
def POD_CONFLICT_BUS (d p : Nat) : Nat := regA d (0x80 + p) 0x14
def POD_CONFLICT_TEST (d p : Nat) : Nat := regA d (0x80 + p) 0x18
def POD_ECC (d p : Nat) : Nat := regA d (0x80 + p) 0x20
def POD_ECC_UNC (d p : Nat) : Nat := regA d (0x80 + p) 0x24
def POD_REPAIR (d p : Nat) : Nat := regA d (0x80 + p) 0x28
def POD_HOWN (d p n : Nat) : Nat := regA d (0x80 + p) (0x40 + 4 * n)
def WADI_STAT (d : Nat) : Nat := regA d 0x20 0
def WADI_STRAY_CNT (d : Nat) : Nat := regA d 0x20 4
def WADI_MULTI (d : Nat) : Nat := regA d 0x20 8
def WADI_PEEK_SEL (d n : Nat) : Nat := regA d 0x20 (0x100 + 4 * n)
def WADI_PEEK_DATA (d n : Nat) : Nat := regA d 0x20 (0x140 + 4 * n)
def WADI_TEST (d n : Nat) : Nat := regA d 0x20 (0x200 + 4 * n)
def BRIDGE_CTL (d : Nat) : Nat := regA d 0x21 0
def BRIDGE_CFG (d : Nat) : Nat := regA d 0x21 4
def BRIDGE_STAT (d : Nat) : Nat := regA d 0x21 8
def BRIDGE_SWAP (d : Nat) : Nat := regA d 0x21 0xc
def BRIDGE_TPULSE (d : Nat) : Nat := regA d 0x21 0x10
def BRIDGE_TSEL (d : Nat) : Nat := regA d 0x21 0x14
def BRIDGE_TDATA (d : Nat) : Nat := regA d 0x21 0x18
def BRIDGE_ERR (d n : Nat) : Nat := regA d 0x21 (0x20 + 4 * n)
def DDR_CTL (d : Nat) : Nat := regA d 0x70 0
def DDR_CFG (d : Nat) : Nat := regA d 0x70 4
def DDR_STAT (d : Nat) : Nat := regA d 0x70 8
def DDR_CRIT (d : Nat) : Nat := regA d 0x70 0xc
def DDR_BUDGET (d : Nat) : Nat := regA d 0x70 0x10
def DDR_BRK_CNT (d : Nat) : Nat := regA d 0x70 0x14
def CARAVAN_CTL (d p : Nat) : Nat := regA d (0x78 + p) 0
def CARAVAN_SHARE (d p : Nat) : Nat := regA d (0x78 + p) 4
def CARAVAN_STAT (d p : Nat) : Nat := regA d (0x78 + p) 8
def CARAVAN_SWAP (d p : Nat) : Nat := regA d (0x78 + p) 0xc
def CARAVAN_TPULSE (d p : Nat) : Nat := regA d (0x78 + p) 0x10
def CARAVAN_TSEL (d p : Nat) : Nat := regA d (0x78 + p) 0x14
def CARAVAN_TDATA (d p : Nat) : Nat := regA d (0x78 + p) 0x18
def CARAVAN_LATE_CNT (d p : Nat) : Nat := regA d (0x78 + p) 0x1c
def CARAVAN_LATE_LOG (d p : Nat) : Nat := regA d (0x78 + p) 0x20
def PULSE_SWAP_CFG (d : Nat) : Nat := regA d 1 0x40
def PULSE_SGRP_SEL (d : Nat) : Nat := regA d 1 0x44
def PULSE_SWAP_RES (d : Nat) : Nat := regA d 1 0x4c
def PULSE_SWAP_WHO (d : Nat) : Nat := regA d 1 0x50
def PULSE_SWAP_TGT (d : Nat) : Nat := regA d 1 0x54
def PULSE_SWAP_CNT (d : Nat) : Nat := regA d 1 0x58
def PULSE_FADE_SEL (d : Nat) : Nat := regA d 1 0x60
def PULSE_FADE_ACT (d : Nat) : Nat := regA d 1 0x68
def PULSE_LAT_SEL (d : Nat) : Nat := regA d 1 0x70
def PULSE_SGRP_DATA (d : Nat) : Nat := regA d 1 0x48
def PULSE_FADE_DATA (d : Nat) : Nat := regA d 1 0x64
def PULSE_LAT_DATA (d : Nat) : Nat := regA d 1 0x74
def SAP_CTL (d m : Nat) : Nat := regA d (0x40 + m) 0
def SAP_CFG (d m : Nat) : Nat := regA d (0x40 + m) 4
def SAP_CLK (d m : Nat) : Nat := regA d (0x40 + m) 8
def SAP_MUTE (d m : Nat) : Nat := regA d (0x40 + m) 0xc
def SAP_MASKSTAT (d m : Nat) : Nat := regA d (0x40 + m) 0x18
def SAP_TPULSE (d m : Nat) : Nat := regA d (0x40 + m) 0x24
def SAP_STAT (d m : Nat) : Nat := regA d (0x40 + m) 0x28
def SAP_IE (d m : Nat) : Nat := regA d (0x40 + m) 0x2c
def SAP_FSLIP_CNT (d m : Nat) : Nat := regA d (0x40 + m) 0x30
def SAP_SLOTMASK_RX (d m : Nat) : Nat := regA d (0x40 + m) 0x10
def SAP_SLOTMASK_TX (d m : Nat) : Nat := regA d (0x40 + m) 0x14
def SAP_MASKFRAME (d m : Nat) : Nat := regA d (0x40 + m) 0x1c
def SAP_FRAMECNT (d m : Nat) : Nat := regA d (0x40 + m) 0x20
def SAP0_TRIG (d : Nat) : Nat := regA d 0x40 0x34
def SAP_RXR_BASE (d m : Nat) : Nat := regA d (0x40 + m) 0x40
def SAP_TXR_BASE (d m : Nat) : Nat := regA d (0x40 + m) 0x60
def SAP_RXR_SIZE (d m : Nat) : Nat := regA d (0x40 + m) 0x44
def SAP_TXR_SIZE (d m : Nat) : Nat := regA d (0x40 + m) 0x64
def SAP_RXR_WPTR (d m : Nat) : Nat := regA d (0x40 + m) 0x48
def SAP_RXR_RPTR (d m : Nat) : Nat := regA d (0x40 + m) 0x4c
def SAP_TXR_WPTR (d m : Nat) : Nat := regA d (0x40 + m) 0x68
def SAP_TXR_RPTR (d m : Nat) : Nat := regA d (0x40 + m) 0x6c
def SAP_RXR_MASK (d m : Nat) : Nat := regA d (0x40 + m) 0x50
def SAP_TXR_MASK (d m : Nat) : Nat := regA d (0x40 + m) 0x70
def SAP_RXR_THR (d m : Nat) : Nat := regA d (0x40 + m) 0x54
def SAP_TXR_THR (d m : Nat) : Nat := regA d (0x40 + m) 0x74
def SAP_RXR_LOST (d m : Nat) : Nat := regA d (0x40 + m) 0x58
def SAP_TXR_LOST (d m : Nat) : Nat := regA d (0x40 + m) 0x78
def SAP_RXR_ROT (d m : Nat) : Nat := regA d (0x40 + m) 0x5c
def SAP_TXR_ROT (d m : Nat) : Nat := regA d (0x40 + m) 0x7c
def SRC_ROLE (d e : Nat) : Nat := regA d (0x50 + e) 0
def SRC_STAT (d e : Nat) : Nat := regA d (0x50 + e) 4
def SRC_CHSEL (d e : Nat) : Nat := regA d (0x50 + e) 8
def SRC_CHDATA (d e : Nat) : Nat := regA d (0x50 + e) 0xc
def SRC_RELOCK_CNT (d e : Nat) : Nat := regA d (0x50 + e) 0x10
def CLKSTEER_CTL (d : Nat) : Nat := regA d 0x58 0
def CLKSTEER_SEL (d : Nat) : Nat := regA d 0x58 4
def CLKSTEER_STAT (d : Nat) : Nat := regA d 0x58 8
def CLKSTEER_FREQ (d : Nat) : Nat := regA d 0x58 0xc
def CLKSTEER_FILL (d : Nat) : Nat := regA d 0x58 0x10
def CLKSTEER_LOSS (d n : Nat) : Nat := regA d 0x58 (0x40 + 4 * n)
def BIP_CFG (d n : Nat) : Nat := regA d 0x58 (0x100 + 0x100 * n)
def BIP_STAT (d n : Nat) : Nat := regA d 0x58 (0x104 + 0x100 * n)
def BIP_RATE (d n : Nat) : Nat := regA d 0x58 (0x108 + 0x100 * n)
def BIP_ERR0 (d n : Nat) : Nat := regA d 0x58 (0x10c + 0x100 * n)
def BIP_ERR1 (d n : Nat) : Nat := regA d 0x58 (0x110 + 0x100 * n)
def BIP_RINGCNT (d n : Nat) : Nat := regA d 0x58 (0x134 + 0x100 * n)
def BIP_SRXBASE (d n : Nat) : Nat := regA d 0x58 (0x114 + 0x100 * n)
def BIP_STXBASE (d n : Nat) : Nat := regA d 0x58 (0x124 + 0x100 * n)
def BIP_SRXSIZE (d n : Nat) : Nat := regA d 0x58 (0x118 + 0x100 * n)
def BIP_STXSIZE (d n : Nat) : Nat := regA d 0x58 (0x128 + 0x100 * n)
def BIP_SRXWPTR (d n : Nat) : Nat := regA d 0x58 (0x11c + 0x100 * n)
def BIP_SRXRPTR (d n : Nat) : Nat := regA d 0x58 (0x120 + 0x100 * n)
def BIP_STXWPTR (d n : Nat) : Nat := regA d 0x58 (0x12c + 0x100 * n)
def BIP_STXRPTR (d n : Nat) : Nat := regA d 0x58 (0x130 + 0x100 * n)
def BIP_CSRXA (d n w : Nat) : Nat := regA d 0x58 (0x140 + 0x100 * n + 4 * w)
def BIP_CSRXB (d n w : Nat) : Nat := regA d 0x58 (0x158 + 0x100 * n + 4 * w)
def BIP_USRXA (d n w : Nat) : Nat := regA d 0x58 (0x170 + 0x100 * n + 4 * w)
def BIP_USRXB (d n w : Nat) : Nat := regA d 0x58 (0x188 + 0x100 * n + 4 * w)
def BIP_CSTXA (d n w : Nat) : Nat := regA d 0x58 (0x1a0 + 0x100 * n + 4 * w)
def BIP_CSTXB (d n w : Nat) : Nat := regA d 0x58 (0x1b8 + 0x100 * n + 4 * w)
def BIP_USTXA (d n w : Nat) : Nat := regA d 0x58 (0x1d0 + 0x100 * n + 4 * w)
def BIP_USTXB (d n w : Nat) : Nat := regA d 0x58 (0x1e8 + 0x100 * n + 4 * w)
def METER_CFG (d m : Nat) : Nat := regA d (0x30 + m / 128) (0 + 0x20 * (m % 128))
def METER_ALARM (d m : Nat) : Nat := regA d (0x30 + m / 128) (4 + 0x20 * (m % 128))
def METER_PEAK (d m : Nat) : Nat := regA d (0x30 + m / 128) (8 + 0x20 * (m % 128))
def METER_RMS (d m : Nat) : Nat := regA d (0x30 + m / 128) (0xc + 0x20 * (m % 128))
def METER_TPEAK (d m : Nat) : Nat := regA d (0x30 + m / 128) (0x10 + 0x20 * (m % 128))
def METER_PKHOLD (d m : Nat) : Nat := regA d (0x30 + m / 128) (0x14 + 0x20 * (m % 128))
def METER_STAT (d m : Nat) : Nat := regA d (0x30 + m / 128) (0x18 + 0x20 * (m % 128))
def METER_CTL (d m : Nat) : Nat := regA d (0x30 + m / 128) (0x1c + 0x20 * (m % 128))
def SILENCE_SEL (d : Nat) : Nat := regA d 0x38 0
def SILENCE_DATA (d : Nat) : Nat := regA d 0x38 4
def SILENCE_LSEL (d : Nat) : Nat := regA d 0x38 8
def SILENCE_LDATA (d : Nat) : Nat := regA d 0x38 0xc
def SILENCE_EVT (d : Nat) : Nat := regA d 0x38 0x10
def SILENCE_IE (d : Nat) : Nat := regA d 0x38 0x14
def SILENCE_PARK_CFG (d n : Nat) : Nat := regA d 0x38 (0x40 + 8 * n)
def SILENCE_PARK_DET (d n : Nat) : Nat := regA d 0x38 (0x44 + 8 * n)
def SILENCE_PARK_STAT (d n : Nat) : Nat := regA d 0x38 (0x80 + 4 * n)
def SILENCE_LA (d n : Nat) : Nat := regA d 0x38 (0x100 + 4 * n)
def SILENCE_MAP (d n : Nat) : Nat := regA d 0x38 (0x200 + 4 * n)
def SILENCE_ALARM (d n : Nat) : Nat := regA d 0x38 (0x280 + 4 * n)
def GEN_STAT (d : Nat) : Nat := regA d 0x3c 0
def GEN_CFG (d n : Nat) : Nat := regA d 0x3c (0x100 + 0x20 * n)
def GEN_GAIN (d n : Nat) : Nat := regA d 0x3c (0x104 + 0x20 * n)
def GEN_FREQ1 (d n : Nat) : Nat := regA d 0x3c (0x108 + 0x20 * n)
def GEN_FREQ2 (d n : Nat) : Nat := regA d 0x3c (0x10c + 0x20 * n)
def GEN_LEN (d n : Nat) : Nat := regA d 0x3c (0x110 + 0x20 * n)
def GEN_TPULSE (d n : Nat) : Nat := regA d 0x3c (0x114 + 0x20 * n)
def GEN_CTL (d n : Nat) : Nat := regA d 0x3c (0x118 + 0x20 * n)
def GEN_STATC (d n : Nat) : Nat := regA d 0x3c (0x11c + 0x20 * n)
def LINK_ID (d : Nat) : Nat := regA d 0x68 0
def LINK_GM (d : Nat) : Nat := regA d 0x68 4
def LINK_GMSTAT (d : Nat) : Nat := regA d 0x68 8
def LINK_TERR (d : Nat) : Nat := regA d 0x68 0xc
def LINK_RTSEL (d : Nat) : Nat := regA d 0x68 0x10
def LINK_RTDATA (d : Nat) : Nat := regA d 0x68 0x14
def LINK_RTSWAP (d : Nat) : Nat := regA d 0x68 0x18
def LINK_RTTPULSE (d : Nat) : Nat := regA d 0x68 0x1c
def LINK_RTCFG (d : Nat) : Nat := regA d 0x68 0x20
def LINK_WAKE (d : Nat) : Nat := regA d 0x68 0x24
def LINK_CTL (d : Nat) : Nat := regA d 0x68 0x40
def LINK_CFG (d : Nat) : Nat := regA d 0x68 0x44
def LINK_STAT (d : Nat) : Nat := regA d 0x68 0x48
def LINK_LANE (d : Nat) : Nat := regA d 0x68 0x4c
def LINK_DELAY (d : Nat) : Nat := regA d 0x68 0x5c
def LINK_DLYADJ (d : Nat) : Nat := regA d 0x68 0x60
def LINK_FERR (d : Nat) : Nat := regA d 0x68 0x64
def LINK_PERR (d : Nat) : Nat := regA d 0x68 0x68
def LINK_PARTNER (d : Nat) : Nat := regA d 0x68 0x6c
def LINK_TSEL (d : Nat) : Nat := regA d 0x68 0x80
def LINK_TDATA (d : Nat) : Nat := regA d 0x68 0x84
def LINK_TSWAP (d : Nat) : Nat := regA d 0x68 0x88
def LINK_TPULSE (d : Nat) : Nat := regA d 0x68 0x8c
def LINK_START (d : Nat) : Nat := regA d 0x68 0x90
def LINK_START_TP (d : Nat) : Nat := regA d 0x68 0x94
def LINK_RDST (d : Nat) : Nat := regA d 0x68 0x98
def LINK_RADDR_LO (d : Nat) : Nat := regA d 0x68 0x9c
def LINK_RADDR_HI (d : Nat) : Nat := regA d 0x68 0xa0
def LINK_RCMD (d : Nat) : Nat := regA d 0x68 0xa4
def LINK_RSTAT (d : Nat) : Nat := regA d 0x68 0xa8
def LINK_LERR (d n : Nat) : Nat := regA d 0x68 (0x50 + 4 * n)
def LINK_RDATA (d n : Nat) : Nat := regA d 0x68 (0x100 + 4 * n)
def STEWARD_CTL (d i : Nat) : Nat := regA d (0x200 + i) 0
def STEWARD_STAT (d i : Nat) : Nat := regA d (0x200 + i) 4
def STEWARD_START (d i : Nat) : Nat := regA d (0x200 + i) 8
def STEWARD_HPC (d i : Nat) : Nat := regA d (0x200 + i) 0xc
def STEWARD_IE (d i : Nat) : Nat := regA d (0x200 + i) 0x10
def STEWARD_IPRI0 (d i : Nat) : Nat := regA d (0x200 + i) 0x14
def STEWARD_IPRI1 (d i : Nat) : Nat := regA d (0x200 + i) 0x18
def STEWARD_IPEND (d i : Nat) : Nat := regA d (0x200 + i) 0x1c
def STEWARD_DBSET (d i : Nat) : Nat := regA d (0x200 + i) 0x20
def STEWARD_DBELL (d i : Nat) : Nat := regA d (0x200 + i) 0x24
def STEWARD_QPEND_LO (d i : Nat) : Nat := regA d (0x200 + i) 0x28
def STEWARD_QPEND_HI (d i : Nat) : Nat := regA d (0x200 + i) 0x2c
def BUS_CTL (d : Nat) : Nat := regA d 8 0
def BUS_STAT (d : Nat) : Nat := regA d 8 4
def BUS_SLICE (d : Nat) : Nat := regA d 8 8
def BUS_HOLD_CNT (d : Nat) : Nat := regA d 8 0xc
def BUS_ERR_LO (d : Nat) : Nat := regA d 8 0x10
def BUS_ERR_HI (d : Nat) : Nat := regA d 8 0x14
def BUS_WMECC (d : Nat) : Nat := regA d 8 0x18
def BUS_PRI0 (d : Nat) : Nat := regA d 8 0x20
def BUS_PRI1 (d : Nat) : Nat := regA d 8 0x24
def BUS_PRI2 (d : Nat) : Nat := regA d 8 0x28
def BUS_WIN (d n : Nat) : Nat := regA d 8 (0x40 + 4 * n)
def BUS_WMCONF (d n : Nat) : Nat := regA d 8 (0x80 + 4 * n)
def FW_CTL (d : Nat) : Nat := regA d 7 0
def FW_SEL (d : Nat) : Nat := regA d 7 4
def FW_BASE (d : Nat) : Nat := regA d 7 8
def FW_LIMIT (d : Nat) : Nat := regA d 7 0xc
def FW_RD (d : Nat) : Nat := regA d 7 0x10
def FW_WR (d : Nat) : Nat := regA d 7 0x14
def FW_DEFRD (d : Nat) : Nat := regA d 7 0x18
def FW_DEFWR (d : Nat) : Nat := regA d 7 0x1c
def QUEUE_CFG (d q : Nat) : Nat := regA d (0x10 + q / 16) (0 + 0x100 * (q % 16))
def QUEUE_BASE (d q : Nat) : Nat := regA d (0x10 + q / 16) (4 + 0x100 * (q % 16))
def QUEUE_STAT (d q : Nat) : Nat := regA d (0x10 + q / 16) (8 + 0x100 * (q % 16))
def QUEUE_LOST (d q : Nat) : Nat := regA d (0x10 + q / 16) (0xc + 0x100 * (q % 16))
def QUEUE_THR (d q : Nat) : Nat := regA d (0x10 + q / 16) (0x10 + 0x100 * (q % 16))
def QUEUE_HEAD (d q : Nat) : Nat := regA d (0x10 + q / 16) (0x14 + 0x100 * (q % 16))
def QUEUE_TAIL (d q : Nat) : Nat := regA d (0x10 + q / 16) (0x18 + 0x100 * (q % 16))
def QUEUE_DATA (d q i : Nat) : Nat := regA d (0x10 + q / 16) (0x20 + 0x100 * (q % 16) + 4 * i)
def BOOT_STAT (d : Nat) : Nat := regA d 5 0
def BOOT_VERSION (d : Nat) : Nat := regA d 5 4
def BOOT_CONFIRM (d : Nat) : Nat := regA d 5 0x18
def BOOT_TRIAL (d : Nat) : Nat := regA d 5 0x1c
def BOOT_HANDOFF (d : Nat) : Nat := regA d 5 0x20
def BOOT_KEYS (d : Nat) : Nat := regA d 5 0x24
def BOOT_STATUSN (d : Nat) : Nat := regA d 5 0x30
def BOOT_RECOV (d : Nat) : Nat := regA d 5 0x34
def BOOT_DBG (d : Nat) : Nat := regA d 5 0x38
def BOOT_SLOTA (d : Nat) : Nat := regA d 5 8
def BOOT_SLOTB (d : Nat) : Nat := regA d 5 0xc
def BOOT_VERA (d : Nat) : Nat := regA d 5 0x10
def BOOT_VERB (d : Nat) : Nat := regA d 5 0x14
def BOOT_UID_LO (d : Nat) : Nat := regA d 5 0x28
def BOOT_UID_HI (d : Nat) : Nat := regA d 5 0x2c
def SHELL_FLOOR (d : Nat) : Nat := regA d 6 0
def SHELL_CONFVER (d : Nat) : Nat := regA d 6 4
def SHELL_CONF (d : Nat) : Nat := regA d 6 8
def SHELL_REJ (d : Nat) : Nat := regA d 6 0xc
def SHELL_WRITES (d : Nat) : Nat := regA d 6 0x10
def PWR_CTL (d : Nat) : Nat := regA d 3 0
def PWR_MODE (d : Nat) : Nat := regA d 3 4
def PWR_HOLD (d : Nat) : Nat := regA d 3 8
def PWR_VSEL (d : Nat) : Nat := regA d 3 0xc
def PWR_VDATA (d : Nat) : Nat := regA d 3 0x10
def PWR_DVOTE (d : Nat) : Nat := regA d 3 0x14
def PWR_DSTAT (d : Nat) : Nat := regA d 3 0x18
def PWR_REFUSE (d : Nat) : Nat := regA d 3 0x1c
def PWR_REFCNT (d : Nat) : Nat := regA d 3 0x20
def PWR_QCNT (d : Nat) : Nat := regA d 3 0x24
def PWR_PADSTAT (d : Nat) : Nat := regA d 3 0x28
def PWR_PADREL (d : Nat) : Nat := regA d 3 0x2c
def PWR_WMRET (d : Nat) : Nat := regA d 3 0x30
def PWR_EVT (d : Nat) : Nat := regA d 3 0x34
def PWR_IE (d : Nat) : Nat := regA d 3 0x38
def WAKE_PIN (d n : Nat) : Nat := regA d 4 (0 + 4 * n)
def WAKE_COAL (d n : Nat) : Nat := regA d 4 (0x40 + 4 * n)
def WAKE_STAT (d : Nat) : Nat := regA d 4 0x20
def WAKE_ACTIVE (d : Nat) : Nat := regA d 4 0x24
def WAKE_IE (d : Nat) : Nat := regA d 4 0x28
def WAKE_CTL (d : Nat) : Nat := regA d 4 0x2c
def WAKE_TIMER (d : Nat) : Nat := regA d 4 0x30
def WAKE_TCNT (d : Nat) : Nat := regA d 4 0x34
def WAKE_FAIL (d : Nat) : Nat := regA d 4 0x38
def SPARE_CTL (d : Nat) : Nat := regA d 9 0
def SPARE_CFG (d : Nat) : Nat := regA d 9 4
def SPARE_CMD (d : Nat) : Nat := regA d 9 8
def SPARE_STAT (d : Nat) : Nat := regA d 9 0xc
def SPARE_IE (d : Nat) : Nat := regA d 9 0x10
def SPARE_SRC (d : Nat) : Nat := regA d 9 0x14
def SPARE_WMREP (d : Nat) : Nat := regA d 9 0x18
def SPARE_LOGCNT (d : Nat) : Nat := regA d 9 0x80
def SPARE_LSEL (d : Nat) : Nat := regA d 9 0x84
def SPARE_LDATA0 (d : Nat) : Nat := regA d 9 0x88
def SPARE_LDATA1 (d : Nat) : Nat := regA d 9 0x8c
def SPARE_POD (d n : Nat) : Nat := regA d 9 (0x20 + 4 * n)
def SPARE_CLASS (d n : Nat) : Nat := regA d 9 (0x40 + 4 * n)
def THERM_TEMP (d : Nat) : Nat := regA d 0xa 0
def THERM_MAX (d : Nat) : Nat := regA d 0xa 4
def THERM_CFG (d : Nat) : Nat := regA d 0xa 8
def THERM_STAT (d : Nat) : Nat := regA d 0xa 0xc
def THERM_IE (d : Nat) : Nat := regA d 0xa 0x10
def CSP_CTL (d : Nat) : Nat := regA d 0x60 0
def CSP_CFG (d : Nat) : Nat := regA d 0x60 4
def CSP_STAT (d : Nat) : Nat := regA d 0x60 8
def CSP_IE (d : Nat) : Nat := regA d 0x60 0xc
def CSP_D0 (d : Nat) : Nat := regA d 0x60 0x20
def CSP_LAST (d : Nat) : Nat := regA d 0x60 0x38
def CSP_DONECNT (d : Nat) : Nat := regA d 0x60 0x3c
def CSP_TWIN (d : Nat) : Nat := regA d 0x60 0x40
def CSP_TCFG (d : Nat) : Nat := regA d 0x60 0x44
def CSP_SCFG (d n : Nat) : Nat := regA d 0x60 (0x10 + 4 * n)
def CSP_D (d n : Nat) : Nat := regA d 0x60 (0x24 + 4 * n)

end Reg

namespace F

def PULSE_CTL_RUN : Fld := ⟨0, 0⟩
def PULSE_CFG_RATE : Fld := ⟨2, 0⟩
def PULSE_STAT_HELD : Fld := ⟨23, 16⟩
def PULSE_STAT_RATE : Fld := ⟨6, 4⟩
def PULSE_STAT_CFGREJ : Fld := ⟨3, 3⟩
def PULSE_STAT_LOCKLOSS : Fld := ⟨2, 2⟩
def PULSE_STAT_RUNNING : Fld := ⟨1, 1⟩
def PULSE_STAT_LOCK : Fld := ⟨0, 0⟩
def PULSE_ADMIT_LOG_VALID : Fld := ⟨31, 31⟩
def PULSE_OVR_LOG_VALID : Fld := ⟨31, 31⟩
def GOV_CTL_MANUAL : Fld := ⟨1, 1⟩
def GOV_CTL_EN : Fld := ⟨0, 0⟩
def GOV_CFG_WINDOW : Fld := ⟨31, 24⟩
def GOV_CFG_SETTLE : Fld := ⟨23, 18⟩
def GOV_CFG_OVRSTEP : Fld := ⟨17, 14⟩
def GOV_CFG_UPSTEP : Fld := ⟨13, 10⟩
def GOV_CFG_HYST : Fld := ⟨9, 6⟩
def GOV_CFG_TARGET : Fld := ⟨5, 0⟩
def GOV_LIMIT_BBREV : Fld := ⟨28, 24⟩
def GOV_LIMIT_BBFWD : Fld := ⟨20, 16⟩
def GOV_LIMIT_VMAX : Fld := ⟨14, 8⟩
def GOV_LIMIT_VMIN : Fld := ⟨6, 0⟩
def GOV_STAT_CEIL : Fld := ⟨31, 31⟩
def GOV_STAT_THCAP : Fld := ⟨30, 30⟩
def GOV_STAT_PREP : Fld := ⟨29, 29⟩
def GOV_STAT_UNSAFE : Fld := ⟨28, 28⟩
def GOV_STAT_ASSIST : Fld := ⟨25, 24⟩
def GOV_STAT_BB : Fld := ⟨20, 16⟩
def GOV_STAT_VIDCAP : Fld := ⟨14, 8⟩
def GOV_STAT_VID : Fld := ⟨6, 0⟩
def GOV_MARGIN_KERNEL : Fld := ⟨31, 24⟩
def GOV_MARGIN_MARGIN : Fld := ⟨15, 0⟩
def GOV_MARGIN_MIN_KERNEL : Fld := ⟨31, 24⟩
def GOV_MARGIN_MIN_CLR : Fld := ⟨23, 23⟩
def GOV_MARGIN_MIN_MARGIN : Fld := ⟨15, 0⟩
def GOV_MANUAL_ASSIST : Fld := ⟨25, 24⟩
def GOV_MANUAL_BB : Fld := ⟨20, 16⟩
def GOV_MANUAL_VID : Fld := ⟨6, 0⟩
def GOV_WEAR_SEL_KERNEL : Fld := ⟨7, 0⟩
def GOV_WEAR_LIM_LIMIT : Fld := ⟨15, 0⟩
def GOV_ESC_CNT_SPARE : Fld := ⟨31, 16⟩
def GOV_ESC_CNT_BOOST : Fld := ⟨15, 0⟩
def KERNEL_STAT_CTLREJ : Fld := ⟨9, 9⟩
def KERNEL_STAT_FAULT : Fld := ⟨8, 8⟩
def KERNEL_STAT_OVR : Fld := ⟨0, 0⟩
def KERNEL_CTL_FREE : Fld := ⟨1, 1⟩
def KERNEL_CTL_STOP : Fld := ⟨0, 0⟩
def KERNEL_STEPS_SHADOW : Fld := ⟨31, 16⟩
def KERNEL_STEPS_COUNT : Fld := ⟨15, 0⟩
def KERNEL_ECC_MEM : Fld := ⟨31, 30⟩
def KERNEL_ECC_BANK : Fld := ⟨29, 29⟩
def KERNEL_ECC_CLR : Fld := ⟨28, 28⟩
def KERNEL_ECC_ADDR : Fld := ⟨27, 16⟩
def KERNEL_ECC_CORR : Fld := ⟨15, 0⟩
def POD_ECC_BANK : Fld := ⟨31, 28⟩
def POD_ECC_ROW : Fld := ⟨27, 20⟩
def POD_ECC_CORR : Fld := ⟨15, 0⟩
def POD_ECC_UNC_BANK : Fld := ⟨31, 28⟩
def POD_ECC_UNC_ROW : Fld := ⟨27, 20⟩
def POD_ECC_UNC_COUNT : Fld := ⟨15, 0⟩
def POD_REPAIR_USED : Fld := ⟨25, 16⟩
def POD_REPAIR_BUSY : Fld := ⟨10, 10⟩
def POD_REPAIR_FREE : Fld := ⟨9, 0⟩
def POD_HOWN_BANKB : Fld := ⟨31, 16⟩
def POD_HOWN_BANKA : Fld := ⟨15, 0⟩
def WADI_STAT_MULTI : Fld := ⟨1, 1⟩
def WADI_STAT_STRAY : Fld := ⟨0, 0⟩
def WADI_PEEK_SEL_VALID : Fld := ⟨31, 31⟩
def WADI_PEEK_SEL_LINE : Fld := ⟨13, 0⟩
def BRIDGE_CTL_EN : Fld := ⟨2, 0⟩
def BRIDGE_CFG_HOLDT : Fld := ⟨7, 0⟩
def BRIDGE_STAT_MDST : Fld := ⟨25, 16⟩
def BRIDGE_STAT_PEND : Fld := ⟨10, 8⟩
def BRIDGE_STAT_ACTIVE : Fld := ⟨6, 4⟩
def BRIDGE_STAT_MULTI : Fld := ⟨3, 3⟩
def BRIDGE_STAT_LOCK : Fld := ⟨2, 0⟩
def BRIDGE_SWAP_PORTS : Fld := ⟨2, 0⟩
def DDR_CTL_RETRAIN : Fld := ⟨1, 1⟩
def DDR_CTL_EN : Fld := ⟨0, 0⟩
def DDR_CFG_RANKS : Fld := ⟨10, 10⟩
def DDR_CFG_DENS : Fld := ⟨9, 7⟩
def DDR_CFG_RATE : Fld := ⟨6, 4⟩
def DDR_CFG_PDIDLE : Fld := ⟨3, 0⟩
def DDR_STAT_OVERSUB : Fld := ⟨8, 8⟩
def DDR_STAT_REFMUL : Fld := ⟨7, 6⟩
def DDR_STAT_BRK : Fld := ⟨5, 5⟩
def DDR_STAT_SHAREREJ : Fld := ⟨4, 4⟩
def DDR_STAT_CFGREJ : Fld := ⟨3, 3⟩
def DDR_STAT_TRAINFAIL : Fld := ⟨2, 2⟩
def DDR_STAT_TRAINING : Fld := ⟨1, 1⟩
def DDR_STAT_READY : Fld := ⟨0, 0⟩
def DDR_CRIT_LEN : Fld := ⟨31, 16⟩
def CARAVAN_CTL_EN : Fld := ⟨0, 0⟩
def CARAVAN_SHARE_STORE : Fld := ⟨31, 16⟩
def CARAVAN_SHARE_FETCH : Fld := ⟨15, 0⟩
def CARAVAN_STAT_REJCODE : Fld := ⟨11, 8⟩
def CARAVAN_STAT_REJ : Fld := ⟨2, 2⟩
def CARAVAN_STAT_PEND : Fld := ⟨1, 1⟩
def CARAVAN_STAT_ACTIVE : Fld := ⟨0, 0⟩
def CARAVAN_SWAP_GO : Fld := ⟨0, 0⟩
def CARAVAN_LATE_LOG_VALID : Fld := ⟨31, 31⟩
def PULSE_SWAP_CFG_DLEAD : Fld := ⟨7, 0⟩
def PULSE_SWAP_RES_VALID : Fld := ⟨31, 31⟩
def PULSE_SWAP_RES_PEND : Fld := ⟨30, 28⟩
def PULSE_SWAP_RES_RESULT : Fld := ⟨27, 24⟩
def PULSE_SWAP_RES_DETAIL : Fld := ⟨23, 20⟩
def PULSE_SWAP_RES_GROUP : Fld := ⟨7, 0⟩
def PULSE_SWAP_CNT_REFUSED : Fld := ⟨31, 16⟩
def PULSE_SWAP_CNT_COMMITTED : Fld := ⟨15, 0⟩
def SAP_CTL_MUTE : Fld := ⟨2, 2⟩
def SAP_CTL_STOP : Fld := ⟨1, 1⟩
def SAP_CTL_ARM : Fld := ⟨0, 0⟩
def SAP_CFG_MODE : Fld := ⟨27, 24⟩
def SAP_CFG_TSRC : Fld := ⟨23, 22⟩
def SAP_CFG_PATH : Fld := ⟨21, 21⟩
def SAP_CFG_MS : Fld := ⟨20, 20⟩
def SAP_CFG_SLOTW : Fld := ⟨19, 18⟩
def SAP_CFG_SLOTS : Fld := ⟨17, 13⟩
def SAP_CFG_DELAY : Fld := ⟨12, 12⟩
def SAP_CFG_FSW : Fld := ⟨11, 11⟩
def SAP_CFG_FSINV : Fld := ⟨10, 10⟩
def SAP_CFG_BCLKINV : Fld := ⟨9, 9⟩
def SAP_CFG_TXHIZ : Fld := ⟨8, 8⟩
def SAP_CFG_PACK : Fld := ⟨7, 7⟩
def SAP_CFG_DECIM : Fld := ⟨6, 4⟩
def SAP_CFG_STARTID : Fld := ⟨3, 0⟩
def SAP_CLK_FBEN : Fld := ⟨17, 17⟩
def SAP_CLK_MCLK : Fld := ⟨16, 16⟩
def SAP_CLK_BDIV : Fld := ⟨9, 0⟩
def SAP_MUTE_LEN : Fld := ⟨12, 0⟩
def SAP_MASKSTAT_PENDTX : Fld := ⟨1, 1⟩
def SAP_MASKSTAT_PENDRX : Fld := ⟨0, 0⟩
def SAP_TPULSE_TARGET : Fld := ⟨31, 0⟩
def SAP_STAT_STATE : Fld := ⟨31, 28⟩
def SAP_STAT_CFGERR : Fld := ⟨27, 24⟩
def SAP_STAT_MUTED : Fld := ⟨13, 13⟩
def SAP_STAT_RAMP : Fld := ⟨12, 12⟩
def SAP_STAT_TXTHR : Fld := ⟨11, 11⟩
def SAP_STAT_RXTHR : Fld := ⟨10, 10⟩
def SAP_STAT_FSERR : Fld := ⟨9, 9⟩
def SAP_STAT_FSLIP : Fld := ⟨8, 8⟩
def SAP_STAT_SLIP : Fld := ⟨7, 7⟩
def SAP_STAT_TXUNR : Fld := ⟨6, 6⟩
def SAP_STAT_RXOVR : Fld := ⟨5, 5⟩
def SAP_STAT_CFGREJ : Fld := ⟨4, 4⟩
def SAP_STAT_REFUSED : Fld := ⟨3, 3⟩
def SAP_STAT_STOPPED : Fld := ⟨2, 2⟩
def SAP_STAT_STARTED : Fld := ⟨1, 1⟩
def SAP_RXR_BASE_ADDR : Fld := ⟨29, 0⟩
def SAP_TXR_BASE_ADDR : Fld := ⟨29, 0⟩
def SAP_RXR_SIZE_SIZE : Fld := ⟨27, 6⟩
def SAP_TXR_SIZE_SIZE : Fld := ⟨27, 6⟩
def SAP_RXR_WPTR_OFFSET : Fld := ⟨27, 0⟩
def SAP_RXR_RPTR_OFFSET : Fld := ⟨27, 0⟩
def SAP_TXR_WPTR_OFFSET : Fld := ⟨27, 0⟩
def SAP_RXR_THR_BYTES : Fld := ⟨27, 0⟩
def SAP_TXR_THR_BYTES : Fld := ⟨27, 0⟩
def SAP_RXR_ROT_ROT : Fld := ⟨4, 0⟩
def SAP_TXR_ROT_ROT : Fld := ⟨4, 0⟩
def SRC_ROLE_SPARE : Fld := ⟨0, 0⟩
def SRC_STAT_DUP : Fld := ⟨1, 1⟩
def SRC_STAT_CFGREJ : Fld := ⟨0, 0⟩
def CLKSTEER_CTL_SLEW : Fld := ⟨5, 4⟩
def CLKSTEER_CTL_BW : Fld := ⟨3, 2⟩
def CLKSTEER_CTL_EN : Fld := ⟨0, 0⟩
def CLKSTEER_SEL_DIE : Fld := ⟨6, 4⟩
def CLKSTEER_SEL_PORT : Fld := ⟨3, 0⟩
def CLKSTEER_STAT_CFGREJ : Fld := ⟨4, 4⟩
def CLKSTEER_STAT_STATE : Fld := ⟨2, 0⟩
def CLKSTEER_LOSS_COUNT : Fld := ⟨31, 16⟩
def CLKSTEER_LOSS_CAUSE : Fld := ⟨15, 12⟩
def CLKSTEER_LOSS_LOST : Fld := ⟨0, 0⟩
def BIP_CFG_IE : Fld := ⟨31, 24⟩
def BIP_CFG_CVTHR : Fld := ⟨23, 16⟩
def BIP_CFG_VMUTE : Fld := ⟨4, 4⟩
def BIP_CFG_TXVB : Fld := ⟨3, 3⟩
def BIP_CFG_TXVA : Fld := ⟨2, 2⟩
def BIP_CFG_CRCGEN : Fld := ⟨1, 1⟩
def BIP_CFG_CRCCHK : Fld := ⟨0, 0⟩
def BIP_STAT_FALLBACK : Fld := ⟨13, 13⟩
def BIP_STAT_NONPCM : Fld := ⟨12, 12⟩
def BIP_STAT_PRO : Fld := ⟨11, 11⟩
def BIP_STAT_LOCK : Fld := ⟨10, 10⟩
def BIP_STAT_NPCMCNV : Fld := ⟨7, 7⟩
def BIP_STAT_TXSUNR : Fld := ⟨6, 6⟩
def BIP_STAT_RINGLOST : Fld := ⟨5, 5⟩
def BIP_STAT_CRCERR : Fld := ⟨4, 4⟩
def BIP_STAT_BLKERR : Fld := ⟨3, 3⟩
def BIP_STAT_PARERR : Fld := ⟨2, 2⟩
def BIP_STAT_CSCHG : Fld := ⟨1, 1⟩
def BIP_STAT_CSNEW : Fld := ⟨0, 0⟩
def BIP_RATE_HZ : Fld := ⟨19, 0⟩
def BIP_ERR0_CODEV : Fld := ⟨31, 16⟩
def BIP_ERR0_PARITY : Fld := ⟨15, 0⟩
def BIP_ERR1_CRC : Fld := ⟨31, 16⟩
def BIP_ERR1_BLOCK : Fld := ⟨15, 0⟩
def BIP_RINGCNT_TXUNR : Fld := ⟨31, 16⟩
def BIP_RINGCNT_RXLOST : Fld := ⟨15, 0⟩
def BIP_SRXBASE_ADDR : Fld := ⟨28, 0⟩
def BIP_STXBASE_ADDR : Fld := ⟨28, 0⟩
def BIP_SRXSIZE_SIZE : Fld := ⟨27, 7⟩
def BIP_STXSIZE_SIZE : Fld := ⟨27, 7⟩
def BIP_SRXWPTR_OFFSET : Fld := ⟨27, 7⟩
def BIP_SRXRPTR_OFFSET : Fld := ⟨27, 7⟩
def METER_CFG_MODE : Fld := ⟨30, 30⟩
def METER_CFG_OUTSEL : Fld := ⟨29, 28⟩
def METER_CFG_LINE : Fld := ⟨27, 14⟩
def METER_CFG_LEN : Fld := ⟨12, 0⟩
def METER_ALARM_SRC : Fld := ⟨31, 31⟩
def METER_ALARM_LEVEL : Fld := ⟨30, 0⟩
def METER_STAT_VALID : Fld := ⟨31, 31⟩
def METER_STAT_INVAL : Fld := ⟨30, 30⟩
def METER_STAT_CLIP : Fld := ⟨29, 29⟩
def METER_STAT_ALARM : Fld := ⟨28, 28⟩
def METER_STAT_TICK : Fld := ⟨19, 0⟩
def SILENCE_LSEL_POD : Fld := ⟨14, 12⟩
def SILENCE_LSEL_SLOT : Fld := ⟨11, 7⟩
def SILENCE_LSEL_BANK : Fld := ⟨6, 6⟩
def SILENCE_LSEL_ENTRY : Fld := ⟨5, 0⟩
def SILENCE_EVT_ERR : Fld := ⟨23, 16⟩
def SILENCE_EVT_WAKE : Fld := ⟨15, 8⟩
def SILENCE_EVT_PARK : Fld := ⟨7, 0⟩
def SILENCE_IE_ALARM : Fld := ⟨24, 24⟩
def SILENCE_PARK_CFG_EN : Fld := ⟨31, 31⟩
def SILENCE_PARK_CFG_MEMLEN : Fld := ⟨23, 0⟩
def SILENCE_PARK_DET_DLAST : Fld := ⟨25, 16⟩
def SILENCE_PARK_DET_DFIRST : Fld := ⟨9, 0⟩
def SILENCE_PARK_STAT_PARKED : Fld := ⟨31, 31⟩
def SILENCE_PARK_STAT_ERR : Fld := ⟨30, 28⟩
def SILENCE_PARK_STAT_PARKS : Fld := ⟨15, 0⟩
def SILENCE_LA_EN : Fld := ⟨31, 31⟩
def SILENCE_LA_LEN : Fld := ⟨30, 24⟩
def SILENCE_LA_LINE : Fld := ⟨13, 0⟩
def GEN_STAT_DONE : Fld := ⟨15, 8⟩
def GEN_STAT_RUNNING : Fld := ⟨7, 0⟩
def GEN_CFG_MODE : Fld := ⟨27, 24⟩
def GEN_CFG_ORDER : Fld := ⟨20, 16⟩
def GEN_CFG_REPEAT : Fld := ⟨7, 0⟩
def GEN_FREQ1_FREQ : Fld := ⟨31, 0⟩
def GEN_LEN_TICKS : Fld := ⟨23, 0⟩
def GEN_CTL_NOW : Fld := ⟨2, 2⟩
def GEN_CTL_STOP : Fld := ⟨1, 1⟩
def GEN_CTL_ARM : Fld := ⟨0, 0⟩
def GEN_STATC_STATE : Fld := ⟨31, 28⟩
def GEN_STATC_CFGREJ : Fld := ⟨25, 25⟩
def GEN_STATC_REFUSED : Fld := ⟨24, 24⟩
def GEN_STATC_POS : Fld := ⟨23, 0⟩
def LINK_ID_ID : Fld := ⟨15, 0⟩
def LINK_GM_PRIO : Fld := ⟨7, 0⟩
def LINK_GMSTAT_GMID : Fld := ⟨31, 16⟩
def LINK_GMSTAT_HOPS : Fld := ⟨15, 10⟩
def LINK_GMSTAT_UPDIE : Fld := ⟨9, 7⟩
def LINK_GMSTAT_TSTATE : Fld := ⟨2, 0⟩
def LINK_RTSEL_TABLE : Fld := ⟨9, 9⟩
def LINK_RTSEL_KIND : Fld := ⟨8, 8⟩
def LINK_RTSEL_INDEX : Fld := ⟨7, 0⟩
def LINK_RTSWAP_GO : Fld := ⟨0, 0⟩
def LINK_RTCFG_PEND : Fld := ⟨9, 9⟩
def LINK_RTCFG_ACTIVE : Fld := ⟨8, 8⟩
def LINK_RTCFG_RTHOLD : Fld := ⟨7, 0⟩
def LINK_WAKE_DETECTED : Fld := ⟨2, 2⟩
def LINK_WAKE_MODE : Fld := ⟨1, 0⟩
def LINK_CTL_WAKETX : Fld := ⟨2, 2⟩
def LINK_CTL_RETRAIN : Fld := ⟨1, 1⟩
def LINK_CTL_EN : Fld := ⟨0, 0⟩
def LINK_CFG_HOLDT : Fld := ⟨23, 16⟩
def LINK_CFG_HOPLIM : Fld := ⟨15, 10⟩
def LINK_CFG_SLOTS : Fld := ⟨5, 0⟩
def LINK_STAT_STATE : Fld := ⟨31, 28⟩
def LINK_STAT_LCODE : Fld := ⟨27, 24⟩
def LINK_STAT_PEND : Fld := ⟨9, 9⟩
def LINK_STAT_ACTIVE : Fld := ⟨8, 8⟩
def LINK_STAT_NOSPARE : Fld := ⟨7, 7⟩
def LINK_STAT_SPARED : Fld := ⟨6, 6⟩
def LINK_STAT_FFAIL : Fld := ⟨5, 5⟩
def LINK_STAT_DOWN : Fld := ⟨4, 4⟩
def LINK_STAT_UPEVT : Fld := ⟨3, 3⟩
def LINK_STAT_CFGREJ : Fld := ⟨2, 2⟩
def LINK_LANE_THR : Fld := ⟨23, 16⟩
def LINK_LANE_TXSP : Fld := ⟨13, 12⟩
def LINK_LANE_TXL1 : Fld := ⟨11, 10⟩
def LINK_LANE_TXL0 : Fld := ⟨9, 8⟩
def LINK_LANE_RXSP : Fld := ⟨5, 4⟩
def LINK_LANE_RXL1 : Fld := ⟨3, 2⟩
def LINK_LANE_RXL0 : Fld := ⟨1, 0⟩
def LINK_DELAY_DELAY : Fld := ⟨23, 0⟩
def LINK_DLYADJ_ADJ : Fld := ⟨15, 0⟩
def LINK_PERR_BAD : Fld := ⟨31, 16⟩
def LINK_PERR_DROP : Fld := ⟨15, 0⟩
def LINK_PARTNER_DEVID : Fld := ⟨31, 16⟩
def LINK_PARTNER_DIE : Fld := ⟨2, 0⟩
def LINK_TSEL_TABLE : Fld := ⟨12, 12⟩
def LINK_TSEL_ENTRY : Fld := ⟨11, 0⟩
def LINK_TSWAP_GO : Fld := ⟨0, 0⟩
def LINK_START_NUM : Fld := ⟨3, 0⟩
def LINK_RDST_SCOPE : Fld := ⟨17, 17⟩
def LINK_RDST_BCAST : Fld := ⟨16, 16⟩
def LINK_RDST_DST : Fld := ⟨15, 0⟩
def LINK_RADDR_HI_ADDR : Fld := ⟨7, 0⟩
def LINK_RCMD_WRITE : Fld := ⟨30, 30⟩
def LINK_RCMD_WORDS : Fld := ⟨5, 0⟩
def LINK_RSTAT_BUSY : Fld := ⟨31, 31⟩
def LINK_RSTAT_DONE : Fld := ⟨30, 30⟩
def LINK_RSTAT_STATUS : Fld := ⟨3, 0⟩
def STEWARD_CTL_RUN : Fld := ⟨0, 0⟩
def STEWARD_START_ADDR : Fld := ⟨28, 0⟩
def STEWARD_HPC_ADDR : Fld := ⟨28, 0⟩
def BUS_CTL_ROMLOCK : Fld := ⟨1, 1⟩
def BUS_CTL_REMAP : Fld := ⟨0, 0⟩
def BUS_STAT_SLICEPEND : Fld := ⟨0, 0⟩
def BUS_ERR_HI_VALID : Fld := ⟨31, 31⟩
def BUS_ERR_HI_KIND : Fld := ⟨30, 29⟩
def BUS_ERR_HI_MASTER : Fld := ⟨28, 24⟩
def BUS_WMECC_UNC : Fld := ⟨31, 16⟩
def BUS_WMECC_CORR : Fld := ⟨15, 0⟩
def BUS_WIN_BASE : Fld := ⟨11, 0⟩
def FW_CTL_LOCK : Fld := ⟨1, 1⟩
def FW_CTL_EN : Fld := ⟨0, 0⟩
def FW_SEL_REGION : Fld := ⟨5, 0⟩
def QUEUE_CFG_EN : Fld := ⟨31, 31⟩
def QUEUE_CFG_OVWR : Fld := ⟨30, 30⟩
def QUEUE_CFG_EWORDS : Fld := ⟨21, 16⟩
def QUEUE_CFG_DEPTH : Fld := ⟨12, 0⟩
def QUEUE_BASE_ADDR : Fld := ⟨21, 2⟩
def QUEUE_STAT_COUNT : Fld := ⟨28, 16⟩
def QUEUE_STAT_CFGERR : Fld := ⟨4, 4⟩
def QUEUE_STAT_UNDER : Fld := ⟨3, 3⟩
def QUEUE_STAT_OVF : Fld := ⟨2, 2⟩
def QUEUE_STAT_FULL : Fld := ⟨1, 1⟩
def QUEUE_STAT_EMPTY : Fld := ⟨0, 0⟩
def QUEUE_THR_IE : Fld := ⟨31, 31⟩
def QUEUE_THR_BELOW : Fld := ⟨30, 30⟩
def QUEUE_THR_LEVEL : Fld := ⟨12, 0⟩
def QUEUE_HEAD_INDEX : Fld := ⟨11, 0⟩
def QUEUE_TAIL_INDEX : Fld := ⟨11, 0⟩
def BOOT_STAT_PRIV : Fld := ⟨31, 31⟩
def BOOT_STAT_LOCKED : Fld := ⟨30, 30⟩
def BOOT_STAT_DEBUG : Fld := ⟨29, 29⟩
def BOOT_STAT_SELFFAIL : Fld := ⟨28, 28⟩
def BOOT_STAT_TRIAL : Fld := ⟨27, 27⟩
def BOOT_STAT_LOADED : Fld := ⟨26, 26⟩
def BOOT_STAT_MODE : Fld := ⟨25, 24⟩
def BOOT_STAT_SLOT : Fld := ⟨23, 23⟩
def BOOT_STAT_CAUSE : Fld := ⟨19, 16⟩
def BOOT_STATUSN_DRIVE : Fld := ⟨0, 0⟩
def BOOT_RECOV_BUSY : Fld := ⟨30, 30⟩
def BOOT_RECOV_RESULT : Fld := ⟨27, 24⟩
def BOOT_RECOV_LEN : Fld := ⟨21, 0⟩
def BOOT_DBG_PERM : Fld := ⟨2, 0⟩
def BOOT_SLOTA_CODE : Fld := ⟨31, 28⟩
def BOOT_SLOTB_CODE : Fld := ⟨31, 28⟩
def PWR_CTL_HUSKEN : Fld := ⟨3, 3⟩
def PWR_CTL_VOTEONLY : Fld := ⟨2, 2⟩
def PWR_CTL_WAKEREL : Fld := ⟨1, 1⟩
def PWR_MODE_STATE : Fld := ⟨1, 0⟩
def PWR_HOLD_DIES : Fld := ⟨7, 0⟩
def PWR_VSEL_CLIENT : Fld := ⟨5, 0⟩
def PWR_REFUSE_VALID : Fld := ⟨31, 31⟩
def PWR_REFCNT_ABORTED : Fld := ⟨31, 16⟩
def PWR_REFCNT_REFUSED : Fld := ⟨15, 0⟩
def PWR_QCNT_REPLACED : Fld := ⟨31, 16⟩
def PWR_QCNT_QUEUED : Fld := ⟨15, 0⟩
def PWR_PADSTAT_HELD : Fld := ⟨8, 0⟩
def PWR_EVT_WAKE : Fld := ⟨3, 3⟩
def PWR_EVT_CFGREJ : Fld := ⟨2, 2⟩
def PWR_EVT_ABORT : Fld := ⟨1, 1⟩
def PWR_EVT_REFUSE : Fld := ⟨0, 0⟩
def WAKE_PIN_LEVEL : Fld := ⟨2, 2⟩
def WAKE_PIN_POL : Fld := ⟨1, 1⟩
def WAKE_PIN_EN : Fld := ⟨0, 0⟩
def WAKE_ACTIVE_PIN : Fld := ⟨7, 0⟩
def WAKE_CTL_LMODE : Fld := ⟨2, 1⟩
def WAKE_CTL_LINKEN : Fld := ⟨0, 0⟩
def WAKE_TIMER_EN : Fld := ⟨31, 31⟩
def WAKE_TIMER_PERIODIC : Fld := ⟨30, 30⟩
def WAKE_TIMER_MS : Fld := ⟨23, 0⟩
def SPARE_CTL_ROWREP : Fld := ⟨2, 2⟩
def SPARE_CTL_SUBST : Fld := ⟨1, 1⟩
def SPARE_CTL_SHADOW : Fld := ⟨0, 0⟩
def SPARE_CFG_ROWTHR : Fld := ⟨23, 20⟩
def SPARE_CFG_RAMP : Fld := ⟨12, 0⟩
def SPARE_CMD_KERNEL : Fld := ⟨7, 0⟩
def SPARE_STAT_EMPTY : Fld := ⟨23, 16⟩
def SPARE_STAT_CFGREJ : Fld := ⟨7, 7⟩
def SPARE_STAT_NOSPARE : Fld := ⟨6, 6⟩
def SPARE_STAT_DISPLACED : Fld := ⟨5, 5⟩
def SPARE_STAT_SUBST : Fld := ⟨4, 4⟩
def SPARE_STAT_REPAIR : Fld := ⟨3, 3⟩
def SPARE_STAT_MISMATCH : Fld := ⟨2, 2⟩
def SPARE_SRC_RETV : Fld := ⟨7, 7⟩
def SPARE_SRC_RETIRED : Fld := ⟨6, 4⟩
def SPARE_SRC_SPAREENG : Fld := ⟨2, 0⟩
def SPARE_WMREP_USED : Fld := ⟨22, 16⟩
def SPARE_WMREP_FREE : Fld := ⟨6, 0⟩
def SPARE_LSEL_ENTRY : Fld := ⟨3, 0⟩
def SPARE_POD_TARGET : Fld := ⟨28, 24⟩
def SPARE_POD_STANDBY : Fld := ⟨20, 16⟩
def SPARE_POD_SHADOWSL : Fld := ⟨12, 8⟩
def SPARE_POD_SPARES : Fld := ⟨1, 0⟩
def THERM_TEMP_TJ : Fld := ⟨15, 0⟩
def THERM_MAX_TJ : Fld := ⟨15, 0⟩
def THERM_CFG_ALARM : Fld := ⟨23, 16⟩
def THERM_CFG_THROT : Fld := ⟨7, 0⟩
def THERM_STAT_CAP : Fld := ⟨14, 8⟩
def THERM_STAT_ALARM : Fld := ⟨2, 2⟩
def THERM_STAT_THROTEVT : Fld := ⟨1, 1⟩
def THERM_STAT_THROTTLING : Fld := ⟨0, 0⟩
def CSP_CTL_ABORT : Fld := ⟨1, 1⟩
def CSP_CTL_EN : Fld := ⟨0, 0⟩
def CSP_CFG_MMEN : Fld := ⟨1, 1⟩
def CSP_CFG_ROLE : Fld := ⟨0, 0⟩
def CSP_STAT_STATE : Fld := ⟨31, 28⟩
def CSP_STAT_QERR : Fld := ⟨27, 24⟩
def CSP_STAT_QCOUNT : Fld := ⟨20, 16⟩
def CSP_STAT_TLATE : Fld := ⟨9, 9⟩
def CSP_STAT_PARTIAL : Fld := ⟨8, 8⟩
def CSP_STAT_WRAP : Fld := ⟨7, 7⟩
def CSP_STAT_TERR : Fld := ⟨6, 6⟩
def CSP_STAT_TOVF : Fld := ⟨5, 5⟩
def CSP_STAT_CFGREJ : Fld := ⟨4, 4⟩
def CSP_STAT_QREJ : Fld := ⟨3, 3⟩
def CSP_STAT_MODF : Fld := ⟨1, 1⟩
def CSP_STAT_DONE : Fld := ⟨0, 0⟩
def CSP_TWIN_BASE : Fld := ⟨7, 0⟩
def CSP_TCFG_NOAHEAD : Fld := ⟨0, 0⟩

end F

/-- Page 0x0. -/
def sysRows : List RegRow :=
  [⟨0, 0, 1, 0, 1, 0, 0, 0, 0, 0⟩ /- SYS_ID -/]

/-- Page 0x1. -/
def pulseRows : List RegRow :=
  [⟨0, 0, 1, 0, 1, 0, 1, 0, 0, 0⟩ /- PULSE_CTL -/,
   ⟨4, 0, 1, 0, 1, 1, 7, 0, 0, 0⟩ /- PULSE_CFG -/,
   ⟨8, 0, 1, 0, 1, 0x10, 0, 0xc, 0, 0⟩ /- PULSE_STAT -/,
   ⟨0xc, 0, 1, 0, 1, 0x3000, 0, 0, 0, 0⟩ /- PULSE_BUDGET -/,
   ⟨0x20, 0, 1, 0, 1, 0, 0, 0x80000000, 0, 0⟩ /- PULSE_ADMIT_LOG -/,
   ⟨0x24, 0, 1, 0, 1, 0, 0, 0, 0, 0⟩ /- PULSE_ADMIT_CNT -/,
   ⟨0x28, 0, 1, 0, 1, 0, 0, 0x80000000, 0, 0⟩ /- PULSE_OVR_LOG -/,
   ⟨0x2c, 0, 1, 0, 1, 0, 0, 0, 0, 0⟩ /- PULSE_OVR_STEP -/,
   ⟨0x30, 0, 1, 0, 1, 0, 0, 0, 0, 0⟩ /- PULSE_OVR_TOTAL -/,
   ⟨0x10, 0, 1, 0, 1, 0, 0xffffffff, 0, 0, 0⟩ /- PULSE_COUNT_LO -/,
   ⟨0x14, 0, 1, 0, 1, 0, 0xffffffff, 0, 0, 0⟩ /- PULSE_COUNT_HI -/,
   ⟨0x40, 0, 1, 0, 1, 8, 0xff, 0, 0, 0⟩ /- PULSE_SWAP_CFG -/,
   ⟨0x44, 0, 1, 0, 1, 0, 0xfff, 0, 0, 0⟩ /- PULSE_SGRP_SEL -/,
   ⟨0x4c, 0, 1, 0, 1, 0, 0, 0x80000000, 0, 0⟩ /- PULSE_SWAP_RES -/,
   ⟨0x50, 0, 1, 0, 1, 0, 0, 0, 0, 0⟩ /- PULSE_SWAP_WHO -/,
   ⟨0x54, 0, 1, 0, 1, 0, 0, 0, 0, 0⟩ /- PULSE_SWAP_TGT -/,
   ⟨0x58, 0, 1, 0, 1, 0, 0, 0, 0, 0⟩ /- PULSE_SWAP_CNT -/,
   ⟨0x60, 0, 1, 0, 1, 0, 0x7ff, 0, 0, 0⟩ /- PULSE_FADE_SEL -/,
   ⟨0x68, 0, 1, 0, 1, 0, 0, 0, 0, 0⟩ /- PULSE_FADE_ACT -/,
   ⟨0x70, 0, 1, 0, 1, 0, 0xff, 0, 0, 0⟩ /- PULSE_LAT_SEL -/,
   ⟨0x48, 0, 1, 0, 1, 0, 0xffffffff, 0, 0, 0⟩ /- PULSE_SGRP_DATA -/,
   ⟨0x64, 0, 1, 0, 1, 0, 0xffffffff, 0, 0, 0⟩ /- PULSE_FADE_DATA -/,
   ⟨0x74, 0, 1, 0, 1, 0, 0xffffffff, 0, 0, 0⟩ /- PULSE_LAT_DATA -/]

/-- Page 0x2. -/
def govRows : List RegRow :=
  [⟨0, 0, 1, 0, 1, 1, 3, 0, 0, 0⟩ /- GOV_CTL -/,
   ⟨4, 0, 1, 0, 1, 0x10210a10, 0xffffffff, 0, 0, 0⟩ /- GOV_CFG -/,
   ⟨8, 0, 1, 0, 1, 0x140c3c00, 0x1f1f7f7f, 0, 0, 0⟩ /- GOV_LIMIT -/,
   ⟨0xc, 0, 1, 0, 1, 0x3c3c, 0, 0, 0, 0⟩ /- GOV_STAT -/,
   ⟨0x10, 0, 1, 0, 1, 0x7fff, 0, 0, 0, 0⟩ /- GOV_MARGIN -/,
   ⟨0x14, 0, 1, 0, 1, 0x7fff, 0, 0, 0, 0⟩ /- GOV_MARGIN_MIN -/,
   ⟨0x18, 0, 1, 0, 1, 0x3c, 0x31f007f, 0, 0, 0⟩ /- GOV_MANUAL -/,
   ⟨0x20, 0, 1, 0, 1, 0, 0xff, 0, 0, 0⟩ /- GOV_WEAR_SEL -/,
   ⟨0x24, 0, 1, 0, 1, 0, 0, 0, 0, 0⟩ /- GOV_WEAR_DATA -/,
   ⟨0x28, 0, 1, 0, 1, 0x1e, 0xffff, 0, 0, 0⟩ /- GOV_WEAR_LIM -/,
   ⟨0x2c, 0, 1, 0, 1, 0, 0, 0, 0, 0⟩ /- GOV_ESC_CNT -/]

/-- Page 0x3. -/
def pwrRows : List RegRow :=
  [⟨0, 0, 1, 0, 1, 0, 8, 0, 4, 0⟩ /- PWR_CTL -/,
   ⟨4, 0, 1, 0, 1, 0, 3, 0, 0, 0⟩ /- PWR_MODE -/,
   ⟨8, 0, 1, 0, 1, 0, 0xff, 0, 0, 0⟩ /- PWR_HOLD -/,
   ⟨0xc, 0, 1, 0, 1, 0, 0x3f, 0, 0, 0⟩ /- PWR_VSEL -/,
   ⟨0x10, 0, 1, 0, 1, 0, 0x3ffff, 0, 0, 0⟩ /- PWR_VDATA -/,
   ⟨0x14, 0, 1, 0, 1, 0x2aaaa, 0, 0, 0, 0⟩ /- PWR_DVOTE -/,
   ⟨0x18, 0, 1, 0, 1, 0x2aaaa, 0, 0, 0, 0⟩ /- PWR_DSTAT -/,
   ⟨0x1c, 0, 1, 0, 1, 0, 0, 0x80000000, 0, 0⟩ /- PWR_REFUSE -/,
   ⟨0x20, 0, 1, 0, 1, 0, 0, 0, 0, 0⟩ /- PWR_REFCNT -/,
   ⟨0x24, 0, 1, 0, 1, 0, 0, 0, 0, 0⟩ /- PWR_QCNT -/,
   ⟨0x28, 0, 1, 0, 1, 0, 0, 0, 0, 0⟩ /- PWR_PADSTAT -/,
   ⟨0x2c, 0, 1, 0, 1, 0, 0, 0, 0, 0⟩ /- PWR_PADREL -/,
   ⟨0x30, 0, 1, 0, 1, 0xffffffff, 0xffffffff, 0, 0, 0⟩ /- PWR_WMRET -/,
   ⟨0x34, 0, 1, 0, 1, 0, 0, 0xf, 0, 0⟩ /- PWR_EVT -/,
   ⟨0x38, 0, 1, 0, 1, 0, 0xf, 0, 0, 0⟩ /- PWR_IE -/]

/-- Page 0x4. -/
def wakeRows : List RegRow :=
  [⟨0, 4, 8, 0, 1, 0, 7, 0, 0, 0⟩ /- WAKE_PIN -/,
   ⟨0x40, 4, 8, 0, 1, 0, 0, 0, 0, 0⟩ /- WAKE_COAL -/,
   ⟨0x20, 0, 1, 0, 1, 0, 0, 0x3ff, 0, 0⟩ /- WAKE_STAT -/,
   ⟨0x24, 0, 1, 0, 1, 0, 0, 0, 0, 0⟩ /- WAKE_ACTIVE -/,
   ⟨0x28, 0, 1, 0, 1, 0, 0x3ff, 0, 0, 0⟩ /- WAKE_IE -/,
   ⟨0x2c, 0, 1, 0, 1, 0, 1, 0, 0, 0⟩ /- WAKE_CTL -/,
   ⟨0x30, 0, 1, 0, 1, 0, 0xc0ffffff, 0, 0, 0⟩ /- WAKE_TIMER -/,
   ⟨0x34, 0, 1, 0, 1, 0, 0, 0, 0, 0⟩ /- WAKE_TCNT -/,
   ⟨0x38, 0, 1, 0, 1, 0, 0, 0, 0, 0⟩ /- WAKE_FAIL -/]

/-- Page 0x5. -/
def bootRows : List RegRow :=
  [⟨0, 0, 1, 0, 1, 0x80000000, 0, 0, 0, 0⟩ /- BOOT_STAT -/,
   ⟨4, 0, 1, 0, 1, 0, 0, 0, 0, 0⟩ /- BOOT_VERSION -/,
   ⟨0x18, 0, 1, 0, 1, 0, 0, 0, 0, 0⟩ /- BOOT_CONFIRM -/,
   ⟨0x1c, 0, 1, 0, 1, 0, 0, 0, 0, 0⟩ /- BOOT_TRIAL -/,
   ⟨0x20, 0, 1, 0, 1, 0, 0, 0, 0, 0x1fffffff⟩ /- BOOT_HANDOFF -/,
   ⟨0x24, 0, 1, 0, 1, 0, 0, 0, 0, 0⟩ /- BOOT_KEYS -/,
   ⟨0x30, 0, 1, 0, 1, 0, 1, 0, 0, 0⟩ /- BOOT_STATUSN -/,
   ⟨0x34, 0, 1, 0, 1, 0, 0x3fffff, 0, 0, 0⟩ /- BOOT_RECOV -/,
   ⟨0x38, 0, 1, 0, 1, 0, 0, 0, 0, 0⟩ /- BOOT_DBG -/,
   ⟨8, 0, 1, 0, 1, 0, 0, 0, 0, 0⟩ /- BOOT_SLOTA -/,
   ⟨0xc, 0, 1, 0, 1, 0, 0, 0, 0, 0⟩ /- BOOT_SLOTB -/,
   ⟨0x10, 0, 1, 0, 1, 0, 0, 0, 0, 0⟩ /- BOOT_VERA -/,
   ⟨0x14, 0, 1, 0, 1, 0, 0, 0, 0, 0⟩ /- BOOT_VERB -/,
   ⟨0x28, 0, 1, 0, 1, 0, 0, 0, 0, 0⟩ /- BOOT_UID_LO -/,
   ⟨0x2c, 0, 1, 0, 1, 0, 0, 0, 0, 0⟩ /- BOOT_UID_HI -/]

/-- Page 0x6. -/
def shellRows : List RegRow :=
  [⟨0, 0, 1, 0, 1, 0, 0, 0, 0, 0⟩ /- SHELL_FLOOR -/,
   ⟨4, 0, 1, 0, 1, 0, 0, 0, 0, 0⟩ /- SHELL_CONFVER -/,
   ⟨8, 0, 1, 0, 1, 0, 0, 0, 0, 0⟩ /- SHELL_CONF -/,
   ⟨0xc, 0, 1, 0, 1, 0, 0, 0, 0, 0⟩ /- SHELL_REJ -/,
   ⟨0x10, 0, 1, 0, 1, 0, 0, 0, 0, 0⟩ /- SHELL_WRITES -/]

/-- Page 0x7. -/
def fwRows : List RegRow :=
  [⟨0, 0, 1, 0, 1, 0, 0, 0, 0, 3⟩ /- FW_CTL -/,
   ⟨4, 0, 1, 0, 1, 0, 0, 0, 0, 0x3f⟩ /- FW_SEL -/,
   ⟨8, 0, 1, 0, 1, 0, 0, 0, 0, 0x80ffffff⟩ /- FW_BASE -/,
   ⟨0xc, 0, 1, 0, 1, 0, 0, 0, 0, 0xffffff⟩ /- FW_LIMIT -/,
   ⟨0x10, 0, 1, 0, 1, 0, 0, 0, 0, 0xfffff⟩ /- FW_RD -/,
   ⟨0x14, 0, 1, 0, 1, 0, 0, 0, 0, 0xfffff⟩ /- FW_WR -/,
   ⟨0x18, 0, 1, 0, 1, 0, 0, 0, 0, 0xfffff⟩ /- FW_DEFRD -/,
   ⟨0x1c, 0, 1, 0, 1, 0, 0, 0, 0, 0xfffff⟩ /- FW_DEFWR -/]

/-- Page 0x8. -/
def busRows : List RegRow :=
  [⟨0, 0, 1, 0, 1, 0, 0, 0, 0, 3⟩ /- BUS_CTL -/,
   ⟨4, 0, 1, 0, 1, 0, 0, 0, 0, 0⟩ /- BUS_STAT -/,
   ⟨8, 0, 1, 0, 1, 0, 0x1f, 0, 0, 0⟩ /- BUS_SLICE -/,
   ⟨0xc, 0, 1, 0, 1, 0, 0, 0, 0, 0⟩ /- BUS_HOLD_CNT -/,
   ⟨0x10, 0, 1, 0, 1, 0, 0, 0, 0, 0⟩ /- BUS_ERR_LO -/,
   ⟨0x14, 0, 1, 0, 1, 0, 0, 0x80000000, 0, 0⟩ /- BUS_ERR_HI -/,
   ⟨0x18, 0, 1, 0, 1, 0, 0, 0, 0, 0⟩ /- BUS_WMECC -/,
   ⟨0x20, 0, 1, 0, 1, 0xbbdeac88, 0xffffffff, 0, 0, 0⟩ /- BUS_PRI0 -/,
   ⟨0x24, 0, 1, 0, 1, 0xffffff4b, 0xffffffff, 0, 0, 0⟩ /- BUS_PRI1 -/,
   ⟨0x28, 0, 1, 0, 1, 0xff, 0, 0, 0, 0⟩ /- BUS_PRI2 -/,
   ⟨0x40, 4, 8, 0, 1, 0, 0xfff, 0, 0, 0⟩ /- BUS_WIN -/,
   ⟨0x80, 4, 20, 0, 1, 0, 0, 0, 0, 0⟩ /- BUS_WMCONF -/]

/-- Page 0x9. -/
def spareRows : List RegRow :=
  [⟨0, 0, 1, 0, 1, 7, 7, 0, 0, 0⟩ /- SPARE_CTL -/,
   ⟨4, 0, 1, 0, 1, 0x200040, 0xf01fff, 0, 0, 0⟩ /- SPARE_CFG -/,
   ⟨8, 0, 1, 0, 1, 0, 0xff, 0, 0, 0⟩ /- SPARE_CMD -/,
   ⟨0xc, 0, 1, 0, 1, 0, 0, 0xfc, 0, 0⟩ /- SPARE_STAT -/,
   ⟨0x10, 0, 1, 0, 1, 0, 0x7c, 0, 0, 0⟩ /- SPARE_IE -/,
   ⟨0x14, 0, 1, 0, 1, 5, 0, 0, 0, 0⟩ /- SPARE_SRC -/,
   ⟨0x18, 0, 1, 0, 1, 0x40, 0, 0, 0, 0⟩ /- SPARE_WMREP -/,
   ⟨0x80, 0, 1, 0, 1, 0, 0, 0, 0, 0⟩ /- SPARE_LOGCNT -/,
   ⟨0x84, 0, 1, 0, 1, 0, 0xf, 0, 0, 0⟩ /- SPARE_LSEL -/,
   ⟨0x88, 0, 1, 0, 1, 0, 0, 0, 0, 0⟩ /- SPARE_LDATA0 -/,
   ⟨0x8c, 0, 1, 0, 1, 0, 0, 0, 0, 0⟩ /- SPARE_LDATA1 -/,
   ⟨0x20, 4, 8, 0, 1, 0x1f111002, 0, 0, 0, 0⟩ /- SPARE_POD -/,
   ⟨0x40, 4, 9, 0, 1, 0x55555555, 0xffffffff, 0, 0, 0⟩ /- SPARE_CLASS -/]

/-- Page 0xa. -/
def thermRows : List RegRow :=
  [⟨0, 0, 1, 0, 1, 0, 0, 0, 0, 0⟩ /- THERM_TEMP -/,
   ⟨4, 0, 1, 0, 1, 0xff60, 0, 0, 0, 0⟩ /- THERM_MAX -/,
   ⟨8, 0, 1, 0, 1, 0x64006e, 0xff00ff, 0, 0, 0⟩ /- THERM_CFG -/,
   ⟨0xc, 0, 1, 0, 1, 0x3c00, 0, 6, 0, 0⟩ /- THERM_STAT -/,
   ⟨0x10, 0, 1, 0, 1, 0, 6, 0, 0, 0⟩ /- THERM_IE -/]

/-- Page 0x10–0x12. -/
def queueRows : List RegRow :=
  [⟨0, 256, 16, 0, 1, 0, 0xc03f1fff, 0, 0, 0⟩ /- QUEUE_CFG -/,
   ⟨4, 256, 16, 0, 1, 0, 0x3ffffc, 0, 0, 0⟩ /- QUEUE_BASE -/,
   ⟨8, 256, 16, 0, 1, 1, 0, 0x1c, 0, 0⟩ /- QUEUE_STAT -/,
   ⟨0xc, 256, 16, 0, 1, 0, 0, 0, 0, 0⟩ /- QUEUE_LOST -/,
   ⟨0x10, 256, 16, 0, 1, 0, 0xc0001fff, 0, 0, 0⟩ /- QUEUE_THR -/,
   ⟨0x14, 256, 16, 0, 1, 0, 0, 0, 0, 0⟩ /- QUEUE_HEAD -/,
   ⟨0x18, 256, 16, 0, 1, 0, 0, 0, 0, 0⟩ /- QUEUE_TAIL -/,
   ⟨0x20, 256, 16, 4, 56, 0, 0xffffffff, 0, 0, 0⟩ /- QUEUE_DATA -/]

/-- Page 0x20. -/
def wadiRows : List RegRow :=
  [⟨0, 0, 1, 0, 1, 0, 0, 3, 0, 0⟩ /- WADI_STAT -/,
   ⟨4, 0, 1, 0, 1, 0, 0, 0, 0, 0⟩ /- WADI_STRAY_CNT -/,
   ⟨8, 0, 1, 0, 1, 0, 0, 0, 0, 0⟩ /- WADI_MULTI -/,
   ⟨0x100, 4, 16, 0, 1, 0, 0x3fff, 0, 0, 0⟩ /- WADI_PEEK_SEL -/,
   ⟨0x140, 4, 16, 0, 1, 0, 0, 0, 0, 0⟩ /- WADI_PEEK_DATA -/,
   ⟨0x200, 4, 64, 0, 1, 0, 0xffffffff, 0, 0, 0⟩ /- WADI_TEST -/]

/-- Page 0x21. -/
def bridgeRows : List RegRow :=
  [⟨0, 0, 1, 0, 1, 0, 7, 0, 0, 0⟩ /- BRIDGE_CTL -/,
   ⟨4, 0, 1, 0, 1, 8, 0xff, 0, 0, 0⟩ /- BRIDGE_CFG -/,
   ⟨8, 0, 1, 0, 1, 0, 0, 8, 0, 0⟩ /- BRIDGE_STAT -/,
   ⟨0xc, 0, 1, 0, 1, 0, 0, 0, 0, 0⟩ /- BRIDGE_SWAP -/,
   ⟨0x10, 0, 1, 0, 1, 0, 0xffffffff, 0, 0, 0⟩ /- BRIDGE_TPULSE -/,
   ⟨0x14, 0, 1, 0, 1, 0, 0x1fff, 0, 0, 0⟩ /- BRIDGE_TSEL -/,
   ⟨0x18, 0, 1, 0, 1, 0, 0xbfff03ff, 0, 0, 0⟩ /- BRIDGE_TDATA -/,
   ⟨0x20, 4, 3, 0, 1, 0, 0, 0, 0, 0⟩ /- BRIDGE_ERR -/]

/-- Page 0x30–0x33. -/
def meterRows : List RegRow :=
  [⟨0, 32, 128, 0, 1, 0, 0xffffdfff, 0, 0, 0⟩ /- METER_CFG -/,
   ⟨4, 32, 128, 0, 1, 0, 0xffffffff, 0, 0, 0⟩ /- METER_ALARM -/,
   ⟨8, 32, 128, 0, 1, 0, 0, 0, 0, 0⟩ /- METER_PEAK -/,
   ⟨0xc, 32, 128, 0, 1, 0, 0, 0, 0, 0⟩ /- METER_RMS -/,
   ⟨0x10, 32, 128, 0, 1, 0, 0, 0, 0, 0⟩ /- METER_TPEAK -/,
   ⟨0x14, 32, 128, 0, 1, 0, 0, 0, 0, 0⟩ /- METER_PKHOLD -/,
   ⟨0x18, 32, 128, 0, 1, 0, 0, 0, 0, 0⟩ /- METER_STAT -/,
   ⟨0x1c, 32, 128, 0, 1, 0, 0, 0, 0, 0⟩ /- METER_CTL -/]

/-- Page 0x38. -/
def silenceRows : List RegRow :=
  [⟨0, 0, 1, 0, 1, 0, 0xfff, 0, 0, 0⟩ /- SILENCE_SEL -/,
   ⟨4, 0, 1, 0, 1, 0, 0xffffffff, 0, 0, 0⟩ /- SILENCE_DATA -/,
   ⟨8, 0, 1, 0, 1, 0, 0x7fff, 0, 0, 0⟩ /- SILENCE_LSEL -/,
   ⟨0xc, 0, 1, 0, 1, 0, 0x800003ff, 0, 0, 0⟩ /- SILENCE_LDATA -/,
   ⟨0x10, 0, 1, 0, 1, 0, 0, 0xffffff, 0, 0⟩ /- SILENCE_EVT -/,
   ⟨0x14, 0, 1, 0, 1, 0, 0x1ffffff, 0, 0, 0⟩ /- SILENCE_IE -/,
   ⟨0x40, 8, 8, 0, 1, 0, 0x80ffffff, 0, 0, 0⟩ /- SILENCE_PARK_CFG -/,
   ⟨0x44, 8, 8, 0, 1, 0, 0x3ff03ff, 0, 0, 0⟩ /- SILENCE_PARK_DET -/,
   ⟨0x80, 4, 8, 0, 1, 0, 0, 0, 0, 0⟩ /- SILENCE_PARK_STAT -/,
   ⟨0x100, 4, 64, 0, 1, 0, 0xff003fff, 0, 0, 0⟩ /- SILENCE_LA -/,
   ⟨0x200, 4, 32, 0, 1, 0, 0, 0, 0, 0⟩ /- SILENCE_MAP -/,
   ⟨0x280, 4, 16, 0, 1, 0, 0, 0xffffffff, 0, 0⟩ /- SILENCE_ALARM -/]

/-- Page 0x3c. -/
def genRows : List RegRow :=
  [⟨0, 0, 1, 0, 1, 0, 0, 0xff00, 0, 0⟩ /- GEN_STAT -/,
   ⟨0x100, 32, 8, 0, 1, 0, 0xf1f00ff, 0, 0, 0⟩ /- GEN_CFG -/,
   ⟨0x104, 32, 8, 0, 1, 0, 0xffffffff, 0, 0, 0⟩ /- GEN_GAIN -/,
   ⟨0x108, 32, 8, 0, 1, 0, 0xffffffff, 0, 0, 0⟩ /- GEN_FREQ1 -/,
   ⟨0x10c, 32, 8, 0, 1, 0, 0xffffffff, 0, 0, 0⟩ /- GEN_FREQ2 -/,
   ⟨0x110, 32, 8, 0, 1, 0, 0xffffff, 0, 0, 0⟩ /- GEN_LEN -/,
   ⟨0x114, 32, 8, 0, 1, 0, 0xffffffff, 0, 0, 0⟩ /- GEN_TPULSE -/,
   ⟨0x118, 32, 8, 0, 1, 0, 5, 0, 0, 0⟩ /- GEN_CTL -/,
   ⟨0x11c, 32, 8, 0, 1, 0, 0, 0x3000000, 0, 0⟩ /- GEN_STATC -/]

/-- Page 0x40. -/
def sapTrigRows : List RegRow :=
  [⟨0x34, 0, 1, 0, 1, 0, 0, 0, 0, 0⟩ /- SAP0_TRIG -/]

/-- Page 0x40–0x49. -/
def sapRows : List RegRow :=
  [⟨0, 0, 1, 0, 1, 0, 5, 0, 0, 0⟩ /- SAP_CTL -/,
   ⟨4, 0, 1, 0, 1, 0x82020, 0xfffffff, 0, 0, 0⟩ /- SAP_CFG -/,
   ⟨8, 0, 1, 0, 1, 0x20, 0x303ff, 0, 0, 0⟩ /- SAP_CLK -/,
   ⟨0xc, 0, 1, 0, 1, 0x40, 0x1fff, 0, 0, 0⟩ /- SAP_MUTE -/,
   ⟨0x18, 0, 1, 0, 1, 0, 0, 0, 0, 0⟩ /- SAP_MASKSTAT -/,
   ⟨0x24, 0, 1, 0, 1, 0, 0xffffffff, 0, 0, 0⟩ /- SAP_TPULSE -/,
   ⟨0x28, 0, 1, 0, 1, 0, 0, 0x3fe, 0, 0⟩ /- SAP_STAT -/,
   ⟨0x2c, 0, 1, 0, 1, 0, 0xffe, 0, 0, 0⟩ /- SAP_IE -/,
   ⟨0x30, 0, 1, 0, 1, 0, 0, 0, 0, 0⟩ /- SAP_FSLIP_CNT -/,
   ⟨0x10, 0, 1, 0, 1, 0, 0xffffffff, 0, 0, 0⟩ /- SAP_SLOTMASK_RX -/,
   ⟨0x14, 0, 1, 0, 1, 0, 0xffffffff, 0, 0, 0⟩ /- SAP_SLOTMASK_TX -/,
   ⟨0x1c, 0, 1, 0, 1, 0, 0, 0, 0, 0⟩ /- SAP_MASKFRAME -/,
   ⟨0x20, 0, 1, 0, 1, 0, 0, 0, 0, 0⟩ /- SAP_FRAMECNT -/,
   ⟨0x40, 0, 1, 0, 1, 0, 0x3fffffff, 0, 0, 0⟩ /- SAP_RXR_BASE -/,
   ⟨0x60, 0, 1, 0, 1, 0, 0x3fffffff, 0, 0, 0⟩ /- SAP_TXR_BASE -/,
   ⟨0x44, 0, 1, 0, 1, 0, 0xfffffc0, 0, 0, 0⟩ /- SAP_RXR_SIZE -/,
   ⟨0x64, 0, 1, 0, 1, 0, 0xfffffc0, 0, 0, 0⟩ /- SAP_TXR_SIZE -/,
   ⟨0x48, 0, 1, 0, 1, 0, 0xfffffff, 0, 0, 0⟩ /- SAP_RXR_WPTR -/,
   ⟨0x4c, 0, 1, 0, 1, 0, 0xfffffff, 0, 0, 0⟩ /- SAP_RXR_RPTR -/,
   ⟨0x68, 0, 1, 0, 1, 0, 0xfffffff, 0, 0, 0⟩ /- SAP_TXR_WPTR -/,
   ⟨0x6c, 0, 1, 0, 1, 0, 0xfffffff, 0, 0, 0⟩ /- SAP_TXR_RPTR -/,
   ⟨0x50, 0, 1, 0, 1, 0, 0xffffffff, 0, 0, 0⟩ /- SAP_RXR_MASK -/,
   ⟨0x70, 0, 1, 0, 1, 0, 0xffffffff, 0, 0, 0⟩ /- SAP_TXR_MASK -/,
   ⟨0x54, 0, 1, 0, 1, 0, 0xfffffff, 0, 0, 0⟩ /- SAP_RXR_THR -/,
   ⟨0x74, 0, 1, 0, 1, 0, 0xfffffff, 0, 0, 0⟩ /- SAP_TXR_THR -/,
   ⟨0x58, 0, 1, 0, 1, 0, 0, 0, 0, 0⟩ /- SAP_RXR_LOST -/,
   ⟨0x78, 0, 1, 0, 1, 0, 0, 0, 0, 0⟩ /- SAP_TXR_LOST -/,
   ⟨0x5c, 0, 1, 0, 1, 0, 0, 0, 0, 0⟩ /- SAP_RXR_ROT -/,
   ⟨0x7c, 0, 1, 0, 1, 0, 0, 0, 0, 0⟩ /- SAP_TXR_ROT -/]

/-- Page 0x50–0x55. -/
def srcRows : List RegRow :=
  [⟨0, 0, 1, 0, 1, 0, 0, 0, 0, 0⟩ /- SRC_ROLE -/,
   ⟨4, 0, 1, 0, 1, 0, 0, 3, 0, 0⟩ /- SRC_STAT -/,
   ⟨8, 0, 1, 0, 1, 0, 0x7f, 0, 0, 0⟩ /- SRC_CHSEL -/,
   ⟨0xc, 0, 1, 0, 1, 0, 0xffffffff, 0, 0, 0⟩ /- SRC_CHDATA -/,
   ⟨0x10, 0, 1, 0, 1, 0, 0, 0, 0, 0⟩ /- SRC_RELOCK_CNT -/]

/-- Page 0x58. -/
def clksteerRows : List RegRow :=
  [⟨0, 0, 1, 0, 1, 0x14, 0x3d, 0, 0, 0⟩ /- CLKSTEER_CTL -/,
   ⟨4, 0, 1, 0, 1, 0, 0x7f, 0, 0, 0⟩ /- CLKSTEER_SEL -/,
   ⟨8, 0, 1, 0, 1, 0, 0, 0x10, 0, 0⟩ /- CLKSTEER_STAT -/,
   ⟨0xc, 0, 1, 0, 1, 0, 0, 0, 0, 0⟩ /- CLKSTEER_FREQ -/,
   ⟨0x10, 0, 1, 0, 1, 0, 0, 0, 0, 0⟩ /- CLKSTEER_FILL -/,
   ⟨0x40, 4, 10, 0, 1, 0, 0, 0, 0, 0⟩ /- CLKSTEER_LOSS -/,
   ⟨0x100, 256, 4, 0, 1, 0x100003, 0xffff001f, 0, 0, 0⟩ /- BIP_CFG -/,
   ⟨0x104, 256, 4, 0, 1, 0, 0, 0xff, 0, 0⟩ /- BIP_STAT -/,
   ⟨0x108, 256, 4, 0, 1, 0, 0, 0, 0, 0⟩ /- BIP_RATE -/,
   ⟨0x10c, 256, 4, 0, 1, 0, 0, 0, 0, 0⟩ /- BIP_ERR0 -/,
   ⟨0x110, 256, 4, 0, 1, 0, 0, 0, 0, 0⟩ /- BIP_ERR1 -/,
   ⟨0x134, 256, 4, 0, 1, 0, 0, 0, 0, 0⟩ /- BIP_RINGCNT -/,
   ⟨0x114, 256, 4, 0, 1, 0, 0x1fffffff, 0, 0, 0⟩ /- BIP_SRXBASE -/,
   ⟨0x124, 256, 4, 0, 1, 0, 0x1fffffff, 0, 0, 0⟩ /- BIP_STXBASE -/,
   ⟨0x118, 256, 4, 0, 1, 0, 0xfffff80, 0, 0, 0⟩ /- BIP_SRXSIZE -/,
   ⟨0x128, 256, 4, 0, 1, 0, 0xfffff80, 0, 0, 0⟩ /- BIP_STXSIZE -/,
   ⟨0x11c, 256, 4, 0, 1, 0, 0xfffff80, 0, 0, 0⟩ /- BIP_SRXWPTR -/,
   ⟨0x120, 256, 4, 0, 1, 0, 0xfffff80, 0, 0, 0⟩ /- BIP_SRXRPTR -/,
   ⟨0x12c, 256, 4, 0, 1, 0, 0xfffff80, 0, 0, 0⟩ /- BIP_STXWPTR -/,
   ⟨0x130, 256, 4, 0, 1, 0, 0xfffff80, 0, 0, 0⟩ /- BIP_STXRPTR -/,
   ⟨0x140, 256, 4, 4, 6, 0, 0, 0, 0, 0⟩ /- BIP_CSRXA -/,
   ⟨0x158, 256, 4, 4, 6, 0, 0, 0, 0, 0⟩ /- BIP_CSRXB -/,
   ⟨0x170, 256, 4, 4, 6, 0, 0, 0, 0, 0⟩ /- BIP_USRXA -/,
   ⟨0x188, 256, 4, 4, 6, 0, 0, 0, 0, 0⟩ /- BIP_USRXB -/,
   ⟨0x1a0, 256, 4, 4, 6, 0, 0xffffffff, 0, 0, 0⟩ /- BIP_CSTXA -/,
   ⟨0x1b8, 256, 4, 4, 6, 0, 0xffffffff, 0, 0, 0⟩ /- BIP_CSTXB -/,
   ⟨0x1d0, 256, 4, 4, 6, 0, 0xffffffff, 0, 0, 0⟩ /- BIP_USTXA -/,
   ⟨0x1e8, 256, 4, 4, 6, 0, 0xffffffff, 0, 0, 0⟩ /- BIP_USTXB -/]

/-- Page 0x60. -/
def cspRows : List RegRow :=
  [⟨0, 0, 1, 0, 1, 0, 1, 0, 0, 0⟩ /- CSP_CTL -/,
   ⟨4, 0, 1, 0, 1, 0, 3, 0, 0, 0⟩ /- CSP_CFG -/,
   ⟨8, 0, 1, 0, 1, 0, 0, 0x3fb, 0, 0⟩ /- CSP_STAT -/,
   ⟨0xc, 0, 1, 0, 1, 0, 0x3ff, 0, 0, 0⟩ /- CSP_IE -/,
   ⟨0x20, 0, 1, 0, 1, 0, 0, 0, 0, 0⟩ /- CSP_D0 -/,
   ⟨0x38, 0, 1, 0, 1, 0, 0, 0, 0, 0⟩ /- CSP_LAST -/,
   ⟨0x3c, 0, 1, 0, 1, 0, 0, 0, 0, 0⟩ /- CSP_DONECNT -/,
   ⟨0x40, 0, 1, 0, 1, 0, 0xff, 0, 0, 0⟩ /- CSP_TWIN -/,
   ⟨0x44, 0, 1, 0, 1, 0, 1, 0, 0, 0⟩ /- CSP_TCFG -/,
   ⟨0x10, 4, 4, 0, 1, 0xa000422, 0xfffcffff, 0, 0, 0⟩ /- CSP_SCFG -/,
   ⟨0x24, 4, 5, 0, 1, 0, 0xffffffff, 0, 0, 0⟩ /- CSP_D -/]

/-- Page 0x68. -/
def linkRows : List RegRow :=
  [⟨0, 0, 1, 0, 1, 0, 0xffff, 0, 0, 0⟩ /- LINK_ID -/,
   ⟨4, 0, 1, 0, 1, 0x80, 0xff, 0, 0, 0⟩ /- LINK_GM -/,
   ⟨8, 0, 1, 0, 1, 0, 0, 0, 0, 0⟩ /- LINK_GMSTAT -/,
   ⟨0xc, 0, 1, 0, 1, 0, 0, 0, 0, 0⟩ /- LINK_TERR -/,
   ⟨0x10, 0, 1, 0, 1, 0, 0x3ff, 0, 0, 0⟩ /- LINK_RTSEL -/,
   ⟨0x14, 0, 1, 0, 1, 0, 0x80000007, 0, 0, 0⟩ /- LINK_RTDATA -/,
   ⟨0x18, 0, 1, 0, 1, 0, 0, 0, 0, 0⟩ /- LINK_RTSWAP -/,
   ⟨0x1c, 0, 1, 0, 1, 0, 0xffffffff, 0, 0, 0⟩ /- LINK_RTTPULSE -/,
   ⟨0x20, 0, 1, 0, 1, 8, 0xff, 0, 0, 0⟩ /- LINK_RTCFG -/,
   ⟨0x24, 0, 1, 0, 1, 0, 3, 4, 0, 0⟩ /- LINK_WAKE -/,
   ⟨0x40, 0, 1, 0, 1, 0, 1, 0, 0, 0⟩ /- LINK_CTL -/,
   ⟨0x44, 0, 1, 0, 1, 0x50088000, 0xf0fffc3f, 0, 0, 0⟩ /- LINK_CFG -/,
   ⟨0x48, 0, 1, 0, 1, 0, 0, 0xfc, 0, 0⟩ /- LINK_STAT -/,
   ⟨0x4c, 0, 1, 0, 1, 0x102424, 0xff0000, 0, 0, 0⟩ /- LINK_LANE -/,
   ⟨0x5c, 0, 1, 0, 1, 0, 0, 0, 0, 0⟩ /- LINK_DELAY -/,
   ⟨0x60, 0, 1, 0, 1, 0, 0xffff, 0, 0, 0⟩ /- LINK_DLYADJ -/,
   ⟨0x64, 0, 1, 0, 1, 0, 0, 0, 0, 0⟩ /- LINK_FERR -/,
   ⟨0x68, 0, 1, 0, 1, 0, 0, 0, 0, 0⟩ /- LINK_PERR -/,
   ⟨0x6c, 0, 1, 0, 1, 0, 0, 0, 0, 0⟩ /- LINK_PARTNER -/,
   ⟨0x80, 0, 1, 0, 1, 0, 0x1fff, 0, 0, 0⟩ /- LINK_TSEL -/,
   ⟨0x84, 0, 1, 0, 1, 0, 0xc0007fff, 0, 0, 0⟩ /- LINK_TDATA -/,
   ⟨0x88, 0, 1, 0, 1, 0, 0, 0, 0, 0⟩ /- LINK_TSWAP -/,
   ⟨0x8c, 0, 1, 0, 1, 0, 0xffffffff, 0, 0, 0⟩ /- LINK_TPULSE -/,
   ⟨0x90, 0, 1, 0, 1, 0, 0xf, 0, 0, 0⟩ /- LINK_START -/,
   ⟨0x94, 0, 1, 0, 1, 0, 0xffffffff, 0, 0, 0⟩ /- LINK_START_TP -/,
   ⟨0x98, 0, 1, 0, 1, 0, 0x3ffff, 0, 0, 0⟩ /- LINK_RDST -/,
   ⟨0x9c, 0, 1, 0, 1, 0, 0xffffffff, 0, 0, 0⟩ /- LINK_RADDR_LO -/,
   ⟨0xa0, 0, 1, 0, 1, 0, 0xff, 0, 0, 0⟩ /- LINK_RADDR_HI -/,
   ⟨0xa4, 0, 1, 0, 1, 0, 0x4000003f, 0, 0, 0⟩ /- LINK_RCMD -/,
   ⟨0xa8, 0, 1, 0, 1, 0, 0, 0x40000000, 0, 0⟩ /- LINK_RSTAT -/,
   ⟨0x50, 4, 3, 0, 1, 0, 0, 0, 0, 0⟩ /- LINK_LERR -/,
   ⟨0x100, 4, 32, 0, 1, 0, 0xffffffff, 0, 0, 0⟩ /- LINK_RDATA -/]

/-- Page 0x70. -/
def ddrRows : List RegRow :=
  [⟨0, 0, 1, 0, 1, 0, 1, 0, 0, 0⟩ /- DDR_CTL -/,
   ⟨4, 0, 1, 0, 1, 0x800, 0xfff, 0, 0, 0⟩ /- DDR_CFG -/,
   ⟨8, 0, 1, 0, 1, 0, 0, 0x3c, 0, 0⟩ /- DDR_STAT -/,
   ⟨0xc, 0, 1, 0, 1, 0, 0xffffffff, 0, 0, 0⟩ /- DDR_CRIT -/,
   ⟨0x10, 0, 1, 0, 1, 0, 0, 0, 0, 0⟩ /- DDR_BUDGET -/,
   ⟨0x14, 0, 1, 0, 1, 0, 0, 0, 0, 0⟩ /- DDR_BRK_CNT -/]

/-- Page 0x78–0x7f. -/
def caravanRows : List RegRow :=
  [⟨0, 0, 1, 0, 1, 0, 1, 0, 0, 0⟩ /- CARAVAN_CTL -/,
   ⟨4, 0, 1, 0, 1, 0, 0xffffffff, 0, 0, 0⟩ /- CARAVAN_SHARE -/,
   ⟨8, 0, 1, 0, 1, 0, 0, 4, 0, 0⟩ /- CARAVAN_STAT -/,
   ⟨0xc, 0, 1, 0, 1, 0, 0, 0, 0, 0⟩ /- CARAVAN_SWAP -/,
   ⟨0x10, 0, 1, 0, 1, 0, 0xffffffff, 0, 0, 0⟩ /- CARAVAN_TPULSE -/,
   ⟨0x14, 0, 1, 0, 1, 0, 0xfff, 0, 0, 0⟩ /- CARAVAN_TSEL -/,
   ⟨0x18, 0, 1, 0, 1, 0, 0xffffffff, 0, 0, 0⟩ /- CARAVAN_TDATA -/,
   ⟨0x1c, 0, 1, 0, 1, 0, 0, 0, 0, 0⟩ /- CARAVAN_LATE_CNT -/,
   ⟨0x20, 0, 1, 0, 1, 0, 0, 0x80000000, 0, 0⟩ /- CARAVAN_LATE_LOG -/]

/-- Page 0x80–0x87. -/
def podRows : List RegRow :=
  [⟨0, 0, 1, 0, 1, 0, 0x7ff, 0, 0, 0⟩ /- POD_LTAB_SEL -/,
   ⟨4, 0, 1, 0, 1, 0x3fff, 0x3fff3fff, 0, 0, 0⟩ /- POD_LTAB_DATA -/,
   ⟨0x10, 0, 1, 0, 1, 0, 0, 0, 0, 0⟩ /- POD_CONFLICT_CAR -/,
   ⟨0x14, 0, 1, 0, 1, 0, 0, 0, 0, 0⟩ /- POD_CONFLICT_BUS -/,
   ⟨0x18, 0, 1, 0, 1, 0, 0, 0, 0, 0⟩ /- POD_CONFLICT_TEST -/,
   ⟨0x20, 0, 1, 0, 1, 0, 0, 0, 0, 0⟩ /- POD_ECC -/,
   ⟨0x24, 0, 1, 0, 1, 0, 0, 0, 0, 0⟩ /- POD_ECC_UNC -/,
   ⟨0x28, 0, 1, 0, 1, 0x200, 0, 0, 0, 0⟩ /- POD_REPAIR -/,
   ⟨0x40, 4, 18, 0, 1, 0, 0xffffffff, 0, 0, 0⟩ /- POD_HOWN -/]

/-- Page 0x100–0x18f. -/
def kernelRows : List RegRow :=
  [⟨0, 0, 1, 0, 1, 0x20000000, 0, 0x301, 0, 0⟩ /- KERNEL_STAT -/,
   ⟨4, 0, 1, 0, 1, 0, 3, 0, 0, 0⟩ /- KERNEL_CTL -/,
   ⟨8, 0, 1, 0, 1, 0, 0, 0, 0, 0⟩ /- KERNEL_STEPS -/,
   ⟨0xc, 0, 1, 0, 1, 0, 0, 0, 0, 0⟩ /- KERNEL_OVR_CNT -/,
   ⟨0x10, 0, 1, 0, 1, 0, 3, 0, 0, 0⟩ /- KERNEL_BANKMODE -/,
   ⟨0x14, 0, 1, 0, 1, 0, 0, 0, 0, 0⟩ /- KERNEL_ECC -/]

/-- Page 0x200–0x201. -/
def stewardRows : List RegRow :=
  [⟨0, 0, 1, 0, 1, 0, 1, 0, 0, 0⟩ /- STEWARD_CTL -/,
   ⟨4, 0, 1, 0, 1, 0, 0, 0, 0, 0⟩ /- STEWARD_STAT -/,
   ⟨8, 0, 1, 0, 1, 0, 0x1fffffff, 0, 0, 0⟩ /- STEWARD_START -/,
   ⟨0xc, 0, 1, 0, 1, 0, 0, 0, 0, 0⟩ /- STEWARD_HPC -/,
   ⟨0x10, 0, 1, 0, 1, 0, 0xffffffff, 0, 0, 0⟩ /- STEWARD_IE -/,
   ⟨0x14, 0, 1, 0, 1, 0, 0xffffffff, 0, 0, 0⟩ /- STEWARD_IPRI0 -/,
   ⟨0x18, 0, 1, 0, 1, 0, 0xffffffff, 0, 0, 0⟩ /- STEWARD_IPRI1 -/,
   ⟨0x1c, 0, 1, 0, 1, 0, 0, 0, 0, 0⟩ /- STEWARD_IPEND -/,
   ⟨0x20, 0, 1, 0, 1, 0, 0, 0, 0, 0⟩ /- STEWARD_DBSET -/,
   ⟨0x24, 0, 1, 0, 1, 0, 0, 0xffffffff, 0, 0⟩ /- STEWARD_DBELL -/,
   ⟨0x28, 0, 1, 0, 1, 0, 0, 0, 0, 0⟩ /- STEWARD_QPEND_LO -/,
   ⟨0x2c, 0, 1, 0, 1, 0, 0, 0, 0, 0⟩ /- STEWARD_QPEND_HI -/]

/-- The rows of a register page; an empty list where the page is not listed (R351). -/
def pageRows (q : Nat) : List RegRow :=
  if q = 0x0 then sysRows
  else if q = 0x1 then pulseRows
  else if q = 0x2 then govRows
  else if q = 0x3 then pwrRows
  else if q = 0x4 then wakeRows
  else if q = 0x5 then bootRows
  else if q = 0x6 then shellRows
  else if q = 0x7 then fwRows
  else if q = 0x8 then busRows
  else if q = 0x9 then spareRows
  else if q = 0xa then thermRows
  else if 0x10 ≤ q && q ≤ 0x12 then queueRows
  else if q = 0x20 then wadiRows
  else if q = 0x21 then bridgeRows
  else if 0x30 ≤ q && q ≤ 0x33 then meterRows
  else if q = 0x38 then silenceRows
  else if q = 0x3c then genRows
  else if q = 0x40 then sapTrigRows ++ sapRows
  else if 0x40 ≤ q && q ≤ 0x49 then sapRows
  else if 0x50 ≤ q && q ≤ 0x55 then srcRows
  else if q = 0x58 then clksteerRows
  else if q = 0x60 then cspRows
  else if q = 0x68 then linkRows
  else if q = 0x70 then ddrRows
  else if 0x78 ≤ q && q ≤ 0x7f then caravanRows
  else if 0x80 ≤ q && q ≤ 0x87 then podRows
  else if 0x100 ≤ q && q ≤ 0x18f then kernelRows
  else if 0x200 ≤ q && q ≤ 0x201 then stewardRows
  else []

end Sys2Proof.Machine
end

