-- ==== Sys2Proof/Machine/State.lean ====
section
/-! DEFINITION. The state of the Drulor as plain data, and the state right after reset. Sparse tables are lists of
(key, value) pairs with rising keys that list no entry equal to the table's default. -/
namespace Sys2Proof.Machine

/-- Why the machine stops with a fault. -/
inductive Fault where
  /-- Raised by EXCEPTION_ENTRY for a kernel in sample mode at a word that no admitted bank presents (R108): the spec
  gives the kernel no effect there (safe; assumption log 5). -/
  | illegalInSample
deriving DecidableEq, Repr

/-- Why a command has no effect to give. -/
inductive Refusal where
  /-- An arm of `exec` without a meaning yet (safe). -/
  | notModelled (mnemonic : String)
  /-- Raised by a command that names a die, core, port or channel that the part does not have (safe). -/
  | noSuchUnit
deriving DecidableEq, Repr

/-- The parts of the family (R2). -/
inductive Part where
  | drl2 | drl4 | drl8
deriving DecidableEq, Repr

/-- The register set of a core (R67, R345). D, E, P, B, L, M, LS, LE and LC are register files by number; the files of
18-bit, 30-bit, 12-bit and 13-bit registers hold words that fit the width. -/
structure Regs where
  d     : List (Nat × Word)
  a     : List (Nat × Acc)
  e     : List (Nat × Word)
  p     : List (Nat × Word)
  b     : List (Nat × Word)
  l     : List (Nat × Word)
  m     : List (Nat × Word)
  rpc   : Word
  ls    : List (Nat × Word)
  le    : List (Nat × Word)
  lc    : List (Nat × Word)
  ix    : Word
  flg   : BitVec 7
  kmode : BitVec 3
  pc    : Nat
deriving DecidableEq, Repr

/-- The free-mode registers (R160). -/
structure FreeRegs where
  ra     : Word
  epc    : Word
  eflg   : Word
  ivb    : Word
  icause : Word
  ipl    : Word
deriving DecidableEq, Repr

/-- The repeat engine (R148–R151): idle; `left` runs to go, RPC detached or not; or the next word annulled once at the
cost of `n` runs. -/
inductive Repeat where
  | idle
  | run (left : Nat) (detached : Bool)
  | annul (n : Nat)
deriving DecidableEq, Repr

/-- A branch whose delay slots are running (R141): its own address, the slots to go, its target if taken, and whether a
taken one ends the block repeats that it leaves (BRA and JMP, R155). -/
structure Delay where
  own    : Nat
  left   : Nat
  target : Option Nat
  leaves : Bool
deriving DecidableEq, Repr

/-- What a core holds beside its state code: registers, the image of R66, the pointer snapshot of R18, the flow of
control, the program bits of its bit space, and the CODE that a BRK at which it halts has reported to the debugger (R95, R161). -/
structure Core where
  r        : Regs
  img      : Regs
  snap     : Regs
  free     : FreeRegs
  lact     : BitVec 3
  rep      : Repeat
  dly      : Option Delay
  annulTo  : Option Nat
  annulMul : List (Nat × Nat)
  iterEnd  : Bool
  bits     : List (Nat × Bool)
  steps    : Nat
  halves   : Nat
  brk      : Option Nat
deriving DecidableEq, Repr

/-- Kernel states (R79). -/
inductive KState where
  | off | run | held | stopped | parked | test | shadow | standby | retired | faulted
deriving DecidableEq, Repr

/-- A write that a kernel makes, as lockstep compares it (R435): a staged Wadi line, a slipface line, an X or Y word by its
window offset, a Hoard word. -/
inductive OutWrite where
  | line (n : Nat) (v : Word)
  | slip (line : Nat) (v : Word)
  | mem (off : Nat) (v : Word)
  | hoard (addr : Nat) (v : Word)
deriving DecidableEq, Repr

/-- The wear average of a kernel (R53): of the average in progress the ticks, tenths of a nanosecond to END and counted
steps; the time per step of the average last reported, 0 before the first. -/
structure Wear where
  ticks : Nat
  time  : Nat
  steps : Nat
  last  : Nat
deriving DecidableEq, Repr

/-- A kernel (R59–R80). `active` says it started this tick, `ended` that it reached END; `staged` holds its line writes
of the tick (last one wins) and `passed` the lines whose STL it passed annulled; `hoardIn` and `slipIn` are the values that it has
read from the Hoard and from slipface lines in this tick, in order, which its shadow reads too (R174, R189); `wait` is the slipface line an LDL
waits on. `enter` is a RUN entry due at the next Pulse, `rejoin` an admission under way for a rejoin, `stop` a pending
stop. `ovr` says the kernel overran in the tick in progress, `ovrPrev` in the previous one. `spoilt` says that a
bus write has withdrawn the admission of a kernel about to enter RUN (R40). `ran` says that it has entered RUN since reset
(R8). `ovrs` are its overruns within the last 1,000 ticks, oldest first: the ticks since each and its Pulse count (R57). `capt` are the bits
captured at the Pulse (R77), `none` where they are the die's `DieX.capt`. -/
structure Kern where
  core     : Core
  st       : KState
  fcode    : Nat
  pbank    : Bool
  ybank    : Bool
  swapped  : Bool
  stop     : Bool
  rejoin   : Bool
  enter    : Bool
  active   : Bool
  ended    : Bool
  ovr      : Bool
  ovrPrev  : Bool
  wait     : Option Nat
  suspended : Bool
  staged   : List (Nat × Word)
  passed   : List Nat
  outs     : List OutWrite
  hoardIn  : List Word
  slipIn   : List Word
  margin   : Option Int
  ovrs     : List (Nat × Nat)
  capt     : Option (BitVec 128)
  wear     : Wear
  spoilt   : Bool
  ran      : Bool
deriving DecidableEq, Repr

/-- Steward states (STEWARD_STAT.STATE). -/
inductive SState where
  | held | run | wait | halted | debug
deriving DecidableEq, Repr

/-- A steward (R345–R349). -/
structure Stew where
  core : Core
  st   : SState
deriving DecidableEq, Repr

/-- A slipface line of a pod (R132, R133): the value it carries and whether its handshake of this tick is complete. -/
structure Slip where
  val  : Word
  done : Bool
deriving DecidableEq, Repr

/-- A word with a bit error (R63, R177): correctable or not. -/
inductive EccMark where
  | clean | single | double
deriving DecidableEq, Repr

/-- Row repair of one pod's Hoard or of a die's working memory (R178, R442): the rows most recently corrected with
their counts, the rows waiting for a copy (the head is being copied), the rows copied whose spare takes their place
at the next Pulse, and the rows whose repair found no free spare row and is not retried. -/
structure Rows where
  tally  : List (Nat × Nat)
  want   : List Nat
  copied : List Nat
  denied : List Nat
deriving DecidableEq, Repr

/-- Where a pod's spares stand (R434): no period, the load phase, or lockstep. -/
inductive SparePhase where
  | idle | load | lock
deriving DecidableEq, Repr

/-- A takeover in hand (R437, R441): the failing slot, the log TYPE of its cause, the slot that takes over, whether that one
is a displaced kernel, whether that slot is loaded, and whether the takeover Pulse has come (a pending swap of the failing
kernel defers it past the swap's target Pulse, R234). -/
structure Takeover where
  slot  : Nat
  cause : Nat
  new   : Nat
  disp  : Bool
  ready : Bool
  come  : Bool
deriving DecidableEq, Repr

/-- A displacement ramp (R441, R491): the displaced slot, the failing slot, step `j` of `len`, and whether its tick at 0 is
over. -/
structure DispRamp where
  slot : Nat
  fail : Nat
  j    : Nat
  len  : Nat
  last : Bool
deriving DecidableEq, Repr

/-- The spares logic and the parking of a pod: triggers of this tick and those that wait (slot and log TYPE); the phase of the
shadow period, the ticks left in it, whether the copy of its load phase is complete; the takeover or displacement ramp in hand, and
the displaced slots that ramp back up (slot, step, length); the mismatch of this period and of the previous one (shadow slot and
target), and whether a lone shadow repeats its period after a mismatch (R434–R439, R491). `due` is the slot whose period starts at
this Pulse; `again` asks for the same target, and `frozen` says that parking interrupted a period or a load. `wakeIn` counts the
Pulses to the one at which parked kernels enter RUN (R304). `woken` notes a write that wakes the pod. -/
structure PodX where
  trig    : List (Nat × Nat)
  waits   : List (Nat × Nat)
  phase   : SparePhase
  left    : Nat
  copied  : Bool
  take    : Option Takeover
  ramp    : Option DispRamp
  backs   : List (Nat × Nat × Nat)
  mis     : Option (Nat × Nat)
  lastMis : Option (Nat × Nat)
  repeated : Bool
  due     : Option Nat
  again   : Bool
  frozen  : Bool
  wakeIn  : Option Nat
  woken   : Bool
deriving DecidableEq, Repr

/-- What a die holds beside its registers. `mode` is the start-up mode in effect (R417). Governor: `window` ticks in a row at or
above target plus hysteresis, `settle` ticks to the next raise (none: not raising), `prepTo` the Pulse count after which PREP may
end (R47–R50). `hot` counts consecutive readings at 125 °C or more (R446). `capt` are the bits that a kernel of the die without line
table, silence list or flag of its own captured at the Pulse (R77): PARITY, LINKLOCK and VALID of empty groups. `laMoved` are the
look-ahead entries whose LINE was changed, `detNew` the detectors written, since the last Pulse (R297, R299). `srcNext` is the place
of the converter engine check in its rotation (64 × engine + channel entry), `srcBad` the engine whose failure it has found since
the last Pulse (R443). -/
structure DieX where
  mode    : Nat
  window  : Nat
  settle  : Option Nat
  prepTo  : Option Nat
  hot     : Nat
  capt    : BitVec 128
  laMoved : List Nat
  detNew  : List Nat
  srcNext : Nat
  srcBad  : Option Nat
deriving DecidableEq, Repr

/-- The sequencer of a switched domain (R418, R419): OFF, RET or ON; an entry to RET (`lvl` 1) or OFF (0) from the level
`from_`, past its pad-hold point or not; an exit. Levels are 0 OFF, 1 RET, 2 ON. -/
inductive DomSt where
  | off | ret | on
  | entering (lvl from_ : Nat) (padded : Bool)
  | exiting (from_ : Nat)
deriving DecidableEq, Repr

/-- A switched domain: its sequencer, the queued target (R423), the target last seen, and whether the entry asked for
has already been counted as refused (R422). -/
structure DomX where
  st      : DomSt
  queued  : Option Nat
  tgt     : Nat
  refused : Bool
deriving DecidableEq, Repr

/-- The Keep and Husk sequencers (R428–R430, R475, R476): dies out of reset; held by RESET_N; HUSK; HUSK with the
deferred exit; waiting for SUPPLY_PG, for the reference, or for the next attempt; supply lost with SUPPLY_EN high; VDD_KEEP
absent. -/
inductive Seq where
  | run | held | husk | deferred | pgWait | refWait | retryWait | pgLost | noKeep
deriving DecidableEq, Repr

/-- The Keep domain beside its registers: the sequencer, the exit attempts made, whether the second after a thermal
shutdown may still run (R446), the cause that the next release of reset reports, the pins whose event is
still active (R424), whether a refused HUSK entry has been counted (R422), and the pins SUPPLY_EN and FAULT_N (how often it was
driven low). -/
structure Keep where
  seq      : Seq
  attempts : Nat
  deaf     : Bool
  cause    : Nat
  pinEv    : List Nat
  refused  : Bool
  supplyEn : Bool
  faults   : Nat
deriving DecidableEq, Repr

/-- What one die has done for a swap request (R226, R227): the request on its way; its checks under way; ready, not yet
heard by the coordinator; refused with RESULT, DETAIL and WHO, not yet heard; heard; the commit received; a split to be
reported, with DETAIL and WHO. -/
inductive Job where
  | sent
  | checking
  | ready
  | refused (result detail who : Nat)
  | heard
  | armed
  | split (detail who : Nat)
deriving DecidableEq, Repr

/-- A swap request (R225–R232): group, 64-bit target Pulse, YONLY, coordinating die, the device that sent it if it came
over the link, the tick of the request, each die's part, each remote device with whether it has reported ready, whether
it has committed or been applied, the members (as WHO words) whose table was written directly after the commit (R233), and
whether a split has been recorded for it (R232). An applied request is kept for the reports that may still come. -/
structure SwapReq where
  group     : Nat
  target    : Nat
  yonly     : Bool
  coord     : Nat
  origin    : Option Nat
  tick      : Nat
  jobs      : List (Nat × Job)
  remotes   : List (Nat × Bool)
  committed : Bool
  applied   : Bool
  direct    : List Nat
  split     : Bool
deriving DecidableEq, Repr

/-- A bridge port (R191, R195, R196): the transfer it sends in this tick; the transfer it has received in this tick, if
it passed; whether the tick's transfer failed; failed ticks in a row; the offsets that its last good transfer named;
whether its hold has expired; the low word of the Pulse count named for its pending table change and whether that Pulse
has come. -/
structure BridgePort where
  out     : List (Nat × Line)
  got     : Option (List (Nat × Line))
  failed  : Bool
  fails   : Nat
  named   : List Nat
  expired : Bool
  change  : Option (Nat × Bool)
deriving DecidableEq, Repr

/-- A control block of the link beside its frames (R332, R339): a DELAY block of the port's own, one echoed with a turnaround
time, a request for a lane to move at a frame, and its acknowledgement. -/
inductive Ctl where
  | delay
  | echo (turn : Nat)
  | request (lane frame : Nat)
  | accept (lane frame : Nat)
deriving DecidableEq, Repr

/-- A link port and its die's remote access engine beside their registers (R312–R341). `queue` waits to be sent; `sent` are the
packets and `out` the frame that went out last; `credit` is the partner's last CREDIT less what was sent on it. `frames` are the
frames received by number, `none` for one that failed; `fwd` the slots of the frame that came due at the last Pulse; `frameOk`
whether that frame passed, `fails` the frames failed in a row, `upAt` the Pulse count from which frames are expected. `change` is a
pending export table change. `heldPk` are packets held after a route change with the ticks that they still wait. `tag` counts the
engine's requests and `wait` is the one outstanding, with whether it writes. `gm` is what the partner announced (GMPRIO, GMID, HOPS,
SYNC). `spare` is a lane request for reception with its frame and whether it was acknowledged, `spareAgain` the lane of one that
lapsed and is to be repeated, `txSpare` one received; `frameNo` counts frames since the last delay measurement; `failed` says that
training failed and waits to restart; `echo` is the turnaround time last echoed; `waketx` is the wake pattern that lane 0 sends
last, bit after bit at 10 Mb/s, until the port trains on; `own` are packets that the device has sent to itself, not yet delivered on
this die. `ctl` are SPARE and DELAY blocks to send and `sentCtl` those that went out last; `rx` are requests that wait in the
receive buffer. `lerr` counts the invalid headers of each physical lane in its window, `trainBad` says that the spare lane's TRAIN
blocks had an error in its window, and `spareBad` that its last whole window had one; `seenCount` is the COUNT of the last frame
received. -/
structure LinkPort where
  queue   : List Packet
  sent    : List Packet
  out     : Option Frame
  credit  : Nat
  frames  : List (Nat × Option (List (Nat × Line)))
  fwd     : List (Nat × Line)
  frameOk : Bool
  fails   : Nat
  upAt    : Nat
  change  : Option (Nat × Bool)
  heldPk  : List (Packet × Nat)
  tag     : Nat
  wait    : Option (Nat × Bool)
  gm      : Option (Nat × Nat × Nat × Bool)
  spare   : Option (Nat × Nat × Bool)
  spareAgain : Option Nat
  txSpare : Option (Nat × Nat)
  frameNo : Nat
  failed  : Bool
  echo    : Option Nat
  waketx  : List Bool
  own     : List Packet
  ctl     : List Ctl
  sentCtl : List Ctl
  rx      : List Packet
  lerr    : List Nat
  trainBad : Bool
  spareBad : Bool
  seenCount : Option Nat
deriving DecidableEq, Repr

/-- What the device holds for the link beside die 0's registers: broadcasts seen (SRC, TAG), newest first; a pending route
switch; the route entries that a switch changed (kind × 256 + index), with the ticks for which each still holds; upstream frames in
a row with an error of at most 5 ns; the error measured last, in 0.1 ns; whether the wake detector fired while PD_LINK was not ON,
and what it has heard on die 0's lane 0 at 10 Mb/s, newest first (none: no swing of 80 mV). -/
structure LinkDev where
  seen   : List (Nat × Nat)
  change : Option (Nat × Bool)
  moved  : List (Nat × Nat)
  calm   : Nat
  err    : Int
  woke   : Bool
  heard  : List (Option Bool)
deriving DecidableEq, Repr

/-- Where the Pulse stands (R19, R28): stopped, in a tick before its deadline, or in a commit window. -/
inductive Phase where
  | stopped | tick | commit
deriving DecidableEq, Repr

/-- A caravan block in flight (R210, R211): its entry, direction, issue and due Pulse counts, Hoard word address, offset
from 0x8_0000_0000, length in words, and its words as they were read at the issue; `seq` is its place in the order in which the
blocks of its die were issued. -/
structure Flight where
  entry : Nat
  store : Bool
  issue : Nat
  due   : Nat
  hptr  : Nat
  doff  : Nat
  words : Nat
  data  : List Word
  seq   : Nat
deriving DecidableEq, Repr

/-- A caravan engine beside its registers and tables (R209–R217): the pending table change (low word of its target, and
whether that Pulse has come), whether its check has passed, the blocks in flight, and the entries served in this tick. -/
structure Caravan where
  change : Option (Nat × Bool)
  passed : Bool
  flight : List Flight
  served : List Nat
deriving DecidableEq, Repr

/-- The LPDDR4X controller beside its registers (R201–R205): the refresh debt, the rank refreshed next, the critical window
open, whether it has opened in this tick, power-down, ticks in a row without an access, an access in this tick, and a
retraining that waits for the window's end. -/
structure Ddr where
  debt    : Nat
  rank    : Nat
  window  : Bool
  opened  : Bool
  down    : Bool
  idle    : Nat
  used    : Bool
  retrain : Bool
deriving DecidableEq, Repr

/-- A trigger Pulse in the making (R261, R308): none; the first Pulse after a request; the eighth after the next one; the
Pulse with a count; the Pulse whose count has a low word; come. -/
inductive Trig where
  | idle
  | next
  | edge
  | at (n : Nat)
  | low (w : Nat)
  | met
deriving DecidableEq, Repr

/-- What a biphase port holds beside its registers (R268–R280): each channel's last sample, the code violations of the last
32 frames, whether a block is being received (its preamble B has come since the lock), the C and U bits of its frames so far, newest first
(each frame's in bits 0 and 1 for C of channels A and B, 2 and 3 for U), the V bits and errors seen in it, blocks completed since
frame 0, frames of the block being sent, whether its C and U bits are still to be fixed and what they
are, whether the fallback ends at the next block, the measured frame rate, the settings in force: VMUTE and CRCCHK as they stood
when the frame began, the CRCCHK of the block being received, the V bits of the frame being sent; and the receive records that
wait for the end of the critical window (R204). -/
structure Bip where
  prev   : List Word
  viols  : List Nat
  inBlk  : Bool
  bits   : List Nat
  vA     : Bool
  vB     : Bool
  err    : Bool
  blocks : Nat
  pos    : Nat
  blkDue : Bool
  blk    : List Word
  fbEnd  : Bool
  hz     : Nat
  vmute  : Bool
  chkNow : Bool
  chk    : Bool
  txV    : List Bool
  recs   : List (List Byte)
deriving DecidableEq, Repr

/-- A soft-mute gain (R264): step `j` of `len`, and whether its last ramp rises. -/
structure Gain where
  j   : Nat
  len : Nat
  up  : Option Bool
deriving DecidableEq, Repr

/-- A serial audio port beside its registers (R243–R265, R277–R284): the masks in effect and whether a pending one was
written while STOPPED or ARMED; the trigger, which after T holds T; frames begun in this tick; a slave's transmit queue and the
frame sent last; the slots being sent, those of the frame before, and the ring slots of the frame that still wait for their
sample (with their places in the ring frame); the frame to publish at the next Pulse, the one completed too late for it, and
the one published last; whether the lines wait for a frame after a recovery, and whether the frame in progress began during a
loss; the gain of the port and of its receive side (step, length, direction); a clock lost, and whether it was lost while
STOPPING; converters relocking; the buffers between rings and pins; the samples of the frame being received whose room in
a packed ring has been judged, in ring order; runs of lost samples; the ratios acquired, in 24 fraction bits, and the one that the
receive side had last; the bits in each PDM decimator, newest first; the input samples that each converter channel remembers,
newest first; the age of the newest received one at the last Pulse, in 2^-24 tick, and the frames received since; where the frame being
sent begins, measured from 2,604.2 ns before the last Pulse, for frames from the pins. -/
structure SapPort where
  maskRx : Word
  maskTx : Word
  sureRx : Bool
  sureTx : Bool
  trig   : Trig
  frames : Nat
  queue  : List (List Word)
  sent   : Option (List Word)
  out    : List (Nat × Word)
  outPrev : List (Nat × Word)
  due    : List (Nat × Nat)
  got    : Option (List (Nat × Word))
  late   : Option (List (Nat × Word))
  last   : Option (List (Nat × Word))
  held   : Bool
  broken : Bool
  gain   : Gain
  gainRx : Gain
  lost   : Bool
  lostStopping : Bool
  relockRx : Bool
  relockTx : Bool
  bufRx  : List (List Byte)
  bufTx  : List Byte
  judged : List Bool
  runRx  : Bool
  runTx  : Bool
  ratioRx : Option Nat
  ratioTx : Option Nat
  ratioWas : Nat
  pdm    : List (List Bool)
  convRx : List (Nat × List Word)
  convTx : List (Nat × List Word)
  convAge : Option Nat
  convNew : Nat
  convTxAt : Option Int
  bip    : Bip
deriving DecidableEq, Repr

/-- A meter beside its registers (R291–R295): the setting in effect and whether a write waits for the next Pulse; the ticks,
peak, sum of squares and invalid ticks of the block in progress; the latest 13 samples, newest first, and the largest magnitude
of its true-peak block; the mean square of mode 1; the readings of a block that has ended, still to be captured: peak, sum of
squares, INVAL, whether it was whole, and true peak. -/
structure Meter where
  cfg    : Word
  changed : Bool
  ticks  : Nat
  peak   : Nat
  sum    : Nat
  inval  : Bool
  hist   : List Word
  tpeak  : Nat
  ms     : Nat
  ended  : Option (Nat × Nat × Bool × Bool × Nat)
deriving DecidableEq, Repr

/-- A generator channel beside its registers (R306–R308): the trigger, the sample index in the period, periods done, the
MLS register, a STOP written, and its end come. -/
structure Gen where
  trig  : Trig
  pos   : Nat
  done  : Nat
  mls   : Nat
  stop  : Bool
  ended : Bool
deriving DecidableEq, Repr

/-- The rate-follow loop beside its registers (R286–R288): ticks in a row near half full, the offsets of the last 1,024
ticks, newest first, the offset in effect, in 2^−10 ppm, the part of a unit that the slew limit carries over, and the integral
term of the loop, in 2^-42 ppm. -/
structure Steer where
  calm   : Nat
  past   : List Int
  offset : Int
  carry  : Nat
  integ  : Int
deriving DecidableEq, Repr

/-- The transfer of a clocked serial port in target mode (R457–R461): its command is awaited; it is ignored; or it runs,
reading or not, with AUTO, the word's size in bytes, the address of the word in hand, that word if it is read, and the words
done. -/
inductive CspTarget where
  | command
  | ignored
  | xfer (rd auto : Bool) (width addr word count : Nat)
deriving DecidableEq, Repr

/-- A clocked serial port beside its registers (R450–R461): the entries queued, the entry in progress, the select configuration
it started with, and whether it goes on with a select that was held active, with no gap; the select held active after an
entry with CONT; how often the last entry made its select active, and the bits it sent; the target transfer; the target word
sent last; and the target words (address, size, value) that wait in the write buffer. -/
structure Csp where
  queue  : List (List Word)
  busy   : Option (List Word)
  scfg   : Word
  joined : Bool
  held   : Option Nat
  pulses : Nat
  out    : List Bool
  tgt    : Option CspTarget
  sent   : Nat
  wbuf   : List (Nat × Nat × Nat)
deriving DecidableEq, Repr

/-- The signals of a serial audio port (R243). -/
inductive SapSignal where
  | bclk
  | fsync
  | sd (n : Nat)
deriving DecidableEq, Repr

/-- A pad of a domain that has pads (R420, R466): a signal of a serial audio port; CLK, a lane or a select of the clocked serial
port; a transmit or receive lane of the Roarn link; DDR_RESET_N; the other pads of the LPDDR4X interface. -/
inductive Pad where
  | sap (m : Nat) (sig : SapSignal)
  | cspClk
  | cspIo (n : Nat)
  | cspSel (n : Nat)
  | linkTx (n : Nat)
  | linkRx (n : Nat)
  | ddrReset
  | ddrBus
deriving DecidableEq, Repr

/-- What a pad does: an input that its block ignores or uses, high impedance, a level that it drives, a clock of `num` ÷ `den`
Hz, a biphase-mark cell (a preamble, or a time slot's bit), a transmitter idle at common mode, the terminated input of a
receiver, or the traffic of a link or memory interface. -/
inductive Pin where
  | ignored
  | input
  | highZ
  | level (b : Bool)
  | clock (num den : Nat)
  | preamble (channelA : Bool) (blockStart : Bool)
  | cell (b : Bool)
  | idle
  | terminated
  | traffic
deriving DecidableEq, Repr

/-- The pull of a pad (R466). -/
inductive Pull where
  | none_ | up | down
deriving DecidableEq, Repr

/-- The fuses (R178, R385, R386, R405): the digests of the key slots (an unprogrammed one is all zeros or empty), the revoked
slots, LOCK, the UID, the image key; the digest of the Seed ROM, `none` being that of the ROM as manufactured; the Hoard
rows repaired at manufacture, by die × 8 + pod; and the fuse rows that fail their redundancy check, by die (R432). -/
structure Fuses where
  digests : List (List Byte)
  revoked : Nat
  lock    : Bool
  uid     : Nat
  key     : Nat
  seed    : Option (List Byte)
  repairs : List (Nat × Nat)
  badRows : List (Nat × Nat)
deriving DecidableEq, Repr

/-- The Shell store (R387–R389): its bytes by offset, an unlisted one being 0, and the record copies written. -/
structure Shell where
  cells  : List (Nat × Byte)
  writes : Nat
deriving DecidableEq, Repr

/-- Where the Seed stands (R375–R401): it reads the directory, a slot's header and table, or the segments; it is ready to
hand over; it waits to retry; it waits for a recovery image or checks one; it reads the header of a fast wake; the error
state; it has handed over. -/
inductive BootStep where
  | directory | slots | load | ready | wait | recovery | checking | fastHead | error | done
deriving DecidableEq, Repr

/-- A flash setting (R378): read opcode, dummy cycles, clock in units of 0.1 MHz, lanes for address and data, 4-byte addresses,
and the command phase on the lanes of the address. -/
structure FlashSetting where
  opcode : Nat
  dummy  : Nat
  clock  : Nat
  lanes  : Nat
  long   : Bool
  wide   : Bool
deriving DecidableEq, Repr

/-- A flash read of the Seed or the loader: the setting, the address and the length. -/
structure FlashRead where
  set  : FlashSetting
  addr : Nat
  len  : Nat
deriving DecidableEq, Repr

/-- What zeroization clears (R384, R406): the AES key register, the engines' working state (the initialisation vector in hand),
the hash in hand, and the Seed's buffer in working memory. -/
structure Secret where
  key  : Nat
  work : List Byte
  hash : List Byte
  buf  : List Byte
deriving DecidableEq, Repr

/-- The first flash setting (R378): command 0x03, a 24-bit address, one lane, 12.5 MHz. -/
def FlashSetting.first : FlashSetting := ⟨0x03, 0, 125, 1, false, false⟩

/-- No secret held. -/
def Secret.zero : Secret := ⟨0, [], [], []⟩

/-- What the boot block holds beside its registers: the step; each slot's OFF, LEN and SEQ in the chosen directory and the
flash setting in effect; the headers and segment tables of the images; slots that failed while loading; the slot in hand;
segments still to load, those of them that handoff does not wait for, and the firewall records loaded; the STATUS_N code shown;
the flash reads made last; and what zeroization clears (R406). -/
structure Boot where
  step    : BootStep
  dir     : List (Nat × Nat × Nat)
  flash   : FlashSetting
  images  : List (Nat × List Byte)
  failed  : List Nat
  slot    : Nat
  todo    : List Nat
  later   : List Nat
  fw      : List (List Byte)
  status  : Nat
  reads   : List FlashRead
  secret  : Secret
deriving DecidableEq, Repr

/-- What the last bus access answered: a value, or an error response with the KIND that BUS_ERR records, if any. -/
inductive Resp where
  | none_
  | ok (v : BitVec 64)
  | err (kind : Option Nat)
deriving DecidableEq, Repr

/-- The state of a package. -/
structure State where
  part    : Part
  pending : List Instr
  phase   : Phase
  /-- registers of the pages by package address -/
  regs    : List (Nat × Word)
  /-- entries behind the SEL and DATA windows, by table key -/
  tabs    : List (Nat × Word)
  /-- memories by package address: working memory, Hoards, kernel program, X and Y memories, LPDDR4X, Seed ROM, Oasis -/
  mem     : List Host.Cell
  ecc     : List (Nat × EccMark)
  kern    : List (Nat × Kern)
  stew    : List (Nat × Stew)
  lines   : List (Nat × Line)
  /-- the transmit lines of the Pulse before, as readers saw them -/
  txOld   : List (Nat × Word)
  lastPub : List (Nat × Word)
  pub     : List (Nat × Line)
  slip    : List (Nat × Slip)
  rows    : List (Nat × Rows)
  pods    : List (Nat × PodX)
  dieX    : List (Nat × DieX)
  doms    : List (Nat × DomX)
  keep    : Keep
  swaps   : List SwapReq
  bridges : List (Nat × BridgePort)
  link    : List (Nat × LinkPort)
  linkDev : LinkDev
  carav   : List (Nat × Caravan)
  ddr     : List (Nat × Ddr)
  laEff   : List (Nat × Word)
  laHist  : List (Nat × List Line)
  saps    : List (Nat × SapPort)
  steer   : Steer
  meters  : List (Nat × Meter)
  gens    : List (Nat × Gen)
  csp     : List (Nat × Csp)
  /-- what held pads latched at the pad-hold point, by die × 16 + domain (R420) -/
  pads    : List (Nat × List (Pad × Pin × Pull))
  fuses   : Fuses
  shell   : Shell
  boot    : Boot
  resp    : Resp
  fresh   : Nat
deriving DecidableEq, Repr

/-- The machine right after reset (R14, R79, R347, R375): every register at the value of its table, every memory empty,
kernels HELD, steward 0 of die 0 running, the Seed about to read the boot directory. The part, the fuses and the Shell
store are those of assumption log 1. -/
def State.reset : State where
  part := .drl8
  pending := []
  phase := .stopped
  regs := []
  tabs := []
  mem := []
  ecc := []
  kern := []
  stew := []
  lines := []
  txOld := []
  lastPub := []
  pub := []
  slip := []
  rows := []
  pods := []
  dieX := []
  doms := []
  keep := ⟨.run, 0, false, 0, [], false, true, 0⟩
  swaps := []
  bridges := []
  link := []
  linkDev := ⟨[], none, [], 0, 0, false, []⟩
  carav := []
  ddr := []
  laEff := []
  laHist := []
  saps := []
  steer := ⟨0, [], 0, 0, 0⟩
  meters := []
  gens := []
  csp := []
  pads := []
  fuses := ⟨[], 0, false, 0, 0, none, [], []⟩
  shell := ⟨[], 0⟩
  boot := ⟨.directory, [], FlashSetting.first, [], [], 0, [], [], [], 0, [], Secret.zero⟩
  resp := .none_
  fresh := 0

end Sys2Proof.Machine
end

