-- ==== Sys2Proof/Machine/Ops.lean ====
section
/-! DEFINITION. The named operations over the state: sparse tables, registers and their fields, memory, lines, cores. -/
namespace Sys2Proof.Machine

abbrev Out := Host.Outcome State Fault Refusal

/-! ### Sparse tables -/

/-- The entry at `k`; a key that is not listed has the default `d k`. -/
def smGet {α : Type} (d : Nat → α) : List (Nat × α) → Nat → α
  | [], k => d k
  | (k', v) :: m, k => if k < k' then d k else if k = k' then v else smGet d m k

/-- The table with `v` at `k`, in canonical form: rising keys, no entry equal to its default. -/
def smSet {α : Type} [DecidableEq α] (d : Nat → α) (k : Nat) (v : α) : List (Nat × α) → List (Nat × α)
  | [] => if v = d k then [] else [(k, v)]
  | (k', v') :: m =>
    if k < k' then (if v = d k then (k', v') :: m else (k, v) :: (k', v') :: m)
    else if k = k' then (if v = d k then m else (k, v) :: m)
    else (k', v') :: smSet d k v m

/-- An association list without a default: the value at `k`, if one is listed. -/
def alGet {α : Type} (k : Nat) : List (Nat × α) → Option α
  | [] => none
  | (k', v) :: m => if k = k' then some v else alGet k m

/-- The association list with `v` at `k`, its keys rising. -/
def alPut {α : Type} (k : Nat) (v : α) : List (Nat × α) → List (Nat × α)
  | [] => [(k, v)]
  | (k', v') :: m =>
    if k < k' then (k, v) :: (k', v') :: m else if k = k' then (k, v) :: m else (k', v') :: alPut k v m

/-- The table without the keys that `p` names. -/
def smDrop {α : Type} (p : Nat → Bool) (m : List (Nat × α)) : List (Nat × α) := m.filter fun e => !p e.1

/-- Canonical form: keys rise from `lo`, and no entry equals its default. -/
def smWf {α : Type} [DecidableEq α] (d : Nat → α) : Nat → List (Nat × α) → Bool
  | _, [] => true
  | lo, (k, v) :: m => lo ≤ k && v ≠ d k && smWf d (k + 1) m

/-- Fold of a state transformer over a list. -/
def each {α : Type} (xs : List α) (f : α → State → State) (s : State) : State := xs.foldl (fun t x => f x t) s

/-! ### Parts and dies -/

/-- The die count of a part (R2). -/
def dieCount (p : Part) : Nat :=
  match p with
  | .drl2 => 2
  | .drl4 => 4
  | .drl8 => 8

/-- The dies of the package. -/
def dies (s : State) : List Nat := List.range (dieCount s.part)

/-! ### Words and fields -/

/-- Bits [hi:lo] of a word as a number. -/
def wField (w : Word) (hi lo : Nat) : Nat := (w.toNat >>> lo) % 2 ^ (hi + 1 - lo)

/-- A word with bits [hi:lo] set to the low bits of `v`. -/
def wPut (w : Word) (hi lo v : Nat) : Word :=
  let n := 2 ^ (hi + 1 - lo)
  let old := wField w hi lo
  BitVec.ofNat 32 (w.toNat - old * 2 ^ lo + v % n * 2 ^ lo)

/-- A field of a word. -/
def wGet (w : Word) (f : Fld) : Nat := wField w f.hi f.lo

/-- A word with a field set. -/
def wSet (w : Word) (f : Fld) (v : Nat) : Word := wPut w f.hi f.lo v

/-- A number read as two's complement of `bits` bits. -/
def toSigned (n bits : Nat) : Int := if n < 2 ^ (bits - 1) then (n : Int) else (n : Int) - (2 ^ bits : Nat)

/-- A number as two's complement bits. -/
def ofSigned (i : Int) (bits : Nat) : Nat := (i % (2 ^ bits : Nat)).toNat

/-! ### Registers -/

/-- The die, page and offset of a register address. -/
def addrDie (a : Nat) : Nat := a / 0x10_0000_0000

/-- The die-local part of a package address (R11). -/
def addrLocal (a : Nat) : Nat := a % 0x10_0000_0000

/-- The register page of a die-local address at or above 0x4000_0000. -/
def addrPage (a : Nat) : Nat := (addrLocal a - 0x4000_0000) / 0x1000

/-- The offset within a register page. -/
def addrOff (a : Nat) : Nat := addrLocal a % 0x1000

/-- The row of a register address, if a register lies there. -/
def regRow (a : Nat) : Option RegRow := (pageRows (addrPage a)).find? fun r => rowAt r (addrOff a)

/-- The die count code of SYS_ID (R4). -/
def sysId (p : Part) : Nat := 0xD7A1_00A1 + dieCount p * 0x1000

/-- The reset value of a register (R14): its table's value, with the values that depend on the part, the die or the
instance (SYS_ID, STEWARD, BUS, SRC_ROLE, queues 0–2, PWR_HOLD). -/
def resetReg (p : Part) (a : Nat) : Word :=
  let d := addrDie a
  let q := addrPage a
  let o := addrOff a
  let base := match regRow a with | some r => r.reset | none => 0
  BitVec.ofNat 32
    (if q = 0 && o = 0 then sysId p
     else if q = 0x200 && d = 0 && o = 0 then 1
     else if q = 0x200 && d = 0 && o = 4 then 0x1000_0000
     else if q = 8 && o = 0 then (if d = 0 then 0 else 3)
     else if q = 8 && 0x40 ≤ o && o < 0x60 && o % 4 = 0 then d * 0x100 + 0x80 + (o - 0x40) / 4
     else if q = 0x55 && o = 0 then 1
     else if q = 0x10 && o = 0 then 0x0002_0000
     else if q = 0x10 && (o = 0x100 || o = 0x200) then 0x0021_0000
     else if q = 3 && o = 8 then (if d = 0 then 2 ^ dieCount p - 1 else 0)
     else base)

/-- The register at a package address. -/
def reg (s : State) (a : Nat) : Word := smGet (resetReg s.part) s.regs a

/-- The state with a register set. -/
def setReg (s : State) (a : Nat) (w : Word) : State := { s with regs := smSet (resetReg s.part) a w s.regs }

/-- A field of a register. -/
def fld (s : State) (a : Nat) (f : Fld) : Nat := wGet (reg s a) f

/-- A one-bit field of a register. -/
def bitF (s : State) (a : Nat) (f : Fld) : Bool := fld s a f = 1

/-- The state with a field of a register set. -/
def setFld (s : State) (a : Nat) (f : Fld) (v : Nat) : State := setReg s a (wSet (reg s a) f v)

/-- A counter field that wraps. -/
def incFld (s : State) (a : Nat) (f : Fld) : State := setFld s a f (fld s a f + 1)

/-- A counter field that stops at its largest value. -/
def satFld (s : State) (a : Nat) (f : Fld) : State :=
  if fld s a f + 1 < 2 ^ (f.hi + 1 - f.lo) then incFld s a f else s

/-- The whole register as a counter that wraps at 2^32. -/
def incReg (s : State) (a : Nat) : State := setReg s a (reg s a + 1)

/-- A register after a write of `v`: RW bits take `v`, a 1 clears W1C bits and sets W1S bits, BP bits take `v` when the
write has boot privilege; all other bits stay (R12, R13). -/
def maskWrite (r : RegRow) (old v : Word) (bp : Bool) : Word :=
  let rw : Word := BitVec.ofNat 32 (if bp then r.rw ||| r.bp else r.rw)
  let c : Word := BitVec.ofNat 32 r.w1c &&& v
  let st : Word := BitVec.ofNat 32 r.w1s &&& v
  (((old &&& ~~~rw) ||| (v &&& rw)) &&& ~~~c) ||| st

/-! ### Byte strings -/

/-- A number as `n` bytes, lowest first. -/
def toBytes : Nat → Nat → List Byte
  | 0, _ => []
  | n + 1, v => BitVec.ofNat 8 v :: toBytes n (v / 256)

/-- Bytes as a number, lowest first. -/
def ofBytes : List Byte → Nat
  | [] => 0
  | b :: bs => b.toNat + 256 * ofBytes bs

/-- CRC-32C over a list of bytes. -/
def crc32c (bs : List Byte) : Nat :=
  let step (c : Nat) (_ : Nat) : Nat := if c % 2 = 1 then (c / 2) ^^^ 0x82F63B78 else c / 2
  (bs.foldl (fun c b => (List.range 8).foldl step (c ^^^ b.toNat)) 0xFFFF_FFFF) ^^^ 0xFFFF_FFFF

/-! ### The tables behind SEL and DATA windows -/

/-- The key of entry `i` of table `t` of die `d`. -/
def tabKey (t d i : Nat) : Nat := t * 0x10000_0000_0000 + d * 0x1000_0000_0000 + i

/-- Line-table entries: ((pod × 18 + slot) × 2 + bank) × 32 + group (R184). -/
def tLtab : Nat := 1
/-- Bridge send entries: (port × 2 + table) × 1024 + entry (R191). -/
def tBridge : Nat := 2

/-- Words staged for a push: ((queue × 32 + master) × 8 + the master's die) × 64 + word (R370). -/
def tQStage : Nat := 3
/-- Words latched by a pop, indexed as staging is (R370). -/
def tQLatch : Nat := 4
/-- Fader entries: entry × 4 + word (R236). -/
def tFade : Nat := 5
/-- Swap group entries: group × 16 + word (R224). -/
def tSgrp : Nat := 6
/-- Route latency entries: entry × 4 + word (R242). -/
def tLat : Nat := 7
/-- The spares log: entry × 2 + word, entry 0 the newest (log types table). -/
def tLog : Nat := 8
/-- High words of 64-bit counters latched for a master: master × 8 + the master's die; bit 32 of the key's low part
marks the flag that a shadow is held (R368). -/
def tHigh : Nat := 9

/-- Wear records: kernel, laid out as GOV_WEAR_DATA (R53). -/
def tWear : Nat := 12

/-- Votes written by VOTE, PWR_VDATA and the wake logic: client, coded as PWR_VDATA (R410). -/
def tVote : Nat := 13

/-- Link export entries: table × 4096 + entry (R314). -/
def tLexp : Nat := 14
/-- Link routes: (copy × 2 + kind) × 256 + index, on die 0 (R320). -/
def tRoute : Nat := 15

/-- Caravan schedule entries: ((pod × 2 + table) × 256 + entry) × 8 + word (R209). -/
def tCar : Nat := 16

/-- Converter channel entries: engine × 64 + entry, word 0 (R282). -/
def tSrc : Nat := 17
/-- Firewall regions: region × 4 + word (R365). -/
def tFw : Nat := 18

/-- Words staged for a clocked serial port: (master × 8 + the master's die) × 8 + word (R454). -/
def tCsp : Nat := 19

/-- What an entry that nothing has written holds. -/
def tabReset (k : Nat) : Word := if k / 0x10000_0000_0000 = tLtab then 0x3FFF else 0

/-- An entry of a table. -/
def tab (s : State) (t d i : Nat) : Word := smGet tabReset s.tabs (tabKey t d i)

/-- The state with an entry of a table set. -/
def setTab (s : State) (t d i : Nat) (w : Word) : State := { s with tabs := smSet tabReset (tabKey t d i) w s.tabs }

/-- The entries of a table of die `d` that differ from 0, with index from `lo` up to `hi`. -/
def tabRange (s : State) (t d lo hi : Nat) : List (Nat × Word) :=
  (s.tabs.filter fun e => tabKey t d lo ≤ e.1 && e.1 < tabKey t d hi).map fun e => (e.1 - tabKey t d 0, e.2)

/-! ### Memory -/

/-- What a byte that is not listed reads as (assumption log 2). -/
def memDefault (_ : Nat) : Byte := 0

/-- One byte of memory. -/
def loadByte (s : State) (a : Nat) : Byte := smGet memDefault s.mem a

/-- The memory with one byte written. -/
def storeByte (s : State) (a : Nat) (v : Byte) : State := { s with mem := smSet memDefault a v s.mem }

/-- The `n` bytes from address `a` up as a number, lowest address least significant. -/
def loadBytes (s : State) (a : Nat) : Nat → Nat
  | 0 => 0
  | n + 1 => (loadByte s a).toNat + 256 * loadBytes s (a + 1) n

/-- The low `n` bytes of `v` written from address `a` up. -/
def storeBytes (s : State) (a v : Nat) : Nat → State
  | 0 => s
  | n + 1 => storeBytes (storeByte s a (BitVec.ofNat 8 v)) (a + 1) (v / 256) n

/-- A 32-bit word of memory. -/
def loadW (s : State) (a : Nat) : Word := BitVec.ofNat 32 (loadBytes s a 4)

/-- The memory with a 32-bit word written. -/
def storeW (s : State) (a : Nat) (w : Word) : State := storeBytes s a w.toNat 4

/-- The canonical form of memory. -/
abbrev Memory.wf (m : List Host.Cell) : Bool := smWf memDefault 0 m

/-- The package address of a die-local address. -/
def pkgA (d a : Nat) : Nat := d * 0x10_0000_0000 + a

/-- The window of kernel `k` of die `d` (R64). -/
def kernWin (d k : Nat) : Nat := pkgA d (0x3000_0000 + k * 0x4_0000)

/-- Instruction word `i` of a program bank. -/
def progA (d k : Nat) (bankB : Bool) (i : Nat) : Nat := kernWin d k + (if bankB then 0x8000 else 0) + 8 * i

/-- X word `j`. -/
def xA (d k j : Nat) : Nat := kernWin d k + 0x1_0000 + 4 * j

/-- Y word `j` of a bank. -/
def yA (d k : Nat) (bankB : Bool) (j : Nat) : Nat := kernWin d k + (if bankB then 0x1_8000 else 0x1_4000) + 4 * j

/-- Hoard word `a` of pod `p` (R171). -/
def hoardA (d p a : Nat) : Nat := pkgA d (0x2000_0000 + p * 0x10_0000 + 4 * a)

/-- The bit-error mark of the word at an address. -/
def eccAt (s : State) (a : Nat) : EccMark := smGet (fun _ => EccMark.clean) s.ecc a

/-- The state with the bit-error mark of a word set. -/
def setEcc (s : State) (a : Nat) (e : EccMark) : State := { s with ecc := smSet (fun _ => EccMark.clean) a e s.ecc }

/-! ### Lines -/

/-- A line that no producer published. -/
def deadLine : Line := ⟨0, false⟩

/-- Line `n` of die `d` as readers see it in this tick. -/
def line (s : State) (d n : Nat) : Line := smGet (fun _ => deadLine) s.lines (d * 0x4000 + n)

/-- The state with a value waiting to become visible at the next Pulse (R18). -/
def publish (s : State) (d n : Nat) (v : Word) (valid : Bool) : State :=
  { s with pub := smSet (fun _ => deadLine) (d * 0x4000 + n) ⟨v, valid⟩ s.pub }

/-- The value a line last published (R131). -/
def lastPub (s : State) (d n : Nat) : Word := smGet (fun _ => (0 : Word)) s.lastPub (d * 0x4000 + n)

/-- The state with the value a line last published. -/
def setLastPub (s : State) (d n : Nat) (v : Word) : State :=
  { s with lastPub := smSet (fun _ => (0 : Word)) (d * 0x4000 + n) v s.lastPub }

/-- Slipface line `n` of pod `p` of die `d`. -/
def slipLine (s : State) (d p n : Nat) : Slip := smGet (fun _ => ⟨0, false⟩) s.slip ((d * 8 + p) * 256 + n)

/-- The state with a slipface line set. -/
def setSlip (s : State) (d p n : Nat) (v : Slip) : State :=
  { s with slip := smSet (fun _ => ⟨0, false⟩) ((d * 8 + p) * 256 + n) v s.slip }

/-! ### Cores -/

/-- A register file's entry. -/
def rf (m : List (Nat × Word)) (n : Nat) : Word := smGet (fun _ => (0 : Word)) m n

/-- A register file with an entry set. -/
def rfSet (m : List (Nat × Word)) (n : Nat) (w : Word) : List (Nat × Word) := smSet (fun _ => (0 : Word)) n w m

/-- Accumulator `n`. -/
def accOf (r : Regs) (n : Nat) : Acc := smGet (fun _ => (0 : Acc)) r.a n

/-- The registers with accumulator `n` set. -/
def setAcc (r : Regs) (n : Nat) (v : Acc) : Regs := { r with a := smSet (fun _ => (0 : Acc)) n v r.a }

/-- A word cut to its low `bits` bits. -/
def lowBits (w : Word) (bits : Nat) : Word := BitVec.ofNat 32 (w.toNat % 2 ^ bits)

/-- A repeat or loop count as RPC and LC hold it: above 4,096 it is 4,096 (R92). -/
def clampCount (w : Word) : Word := if 4096 < w.toNat then 4096 else w

/-- The registers at reset (R67, R74). -/
def Regs.zero : Regs := ⟨[], [], [], [], [], [], [], 0, [], [], [], 0, 0, 1, 0⟩

/-- The free-mode registers at reset (R160). -/
def FreeRegs.zero : FreeRegs := ⟨0, 0, 0, 0, 0, 0⟩

/-- A core at reset. -/
def Core.zero : Core :=
  ⟨.zero, .zero, .zero, .zero, 0, .idle, none, none, [], false, [], 0, 0, none⟩

/-- A kernel after RESET_N: HELD (R79). -/
def Kern.zero : Kern :=
  ⟨.zero, .held, 0, false, false, false, false, false, false, false, false, false, false, none, false, [], [], [], [], [],
   none, [], none, ⟨0, 0, 0, 0⟩, false, false⟩

/-- A steward after RESET_N: steward 0 of die 0 runs, every other is HELD (R347). -/
def Stew.zero (key : Nat) : Stew := ⟨.zero, if key = 0 then .run else .held⟩

/-- A core at step 0 of a tick (R18, R68): no repeat in progress, loop registers 0, the pointer snapshot taken. -/
def startTick (k : Core) : Core :=
  let r := { k.r with rpc := 0, ls := [], le := [], lc := [], pc := 0 }
  { k with r := r, snap := r, lact := 0, rep := .idle, dly := none, annulTo := none, annulMul := [], iterEnd := false,
           steps := 0, halves := 0, brk := none }

/-- A kernel that enters TEST (R80): it runs on from its program counter with no repeat or branch in progress. Its image keeps the
registers of the stop, whatever was written to them while STOPPED (R66). -/
def enterTest (kn : Kern) : Kern :=
  { kn with
    st := .test, suspended := false, rejoin := false, enter := false, spoilt := false
    core := { kn.core with rep := .idle, dly := none, annulTo := none, annulMul := [], lact := 0 } }

/-- A kernel that leaves TEST (R80), which is a stop of it (DEDUCED, assumption log 75). -/
def leaveTest (kn : Kern) : Kern :=
  { kn with
    st := .stopped, suspended := false
    core := { kn.core with img := kn.core.r, rep := .idle, dly := none, annulTo := none, annulMul := [], lact := 0 } }

/-- A kernel that enters RUN; it is no spare until reset (R8). Its image stays at the registers of its last END or stop (R66);
before its first one, what the image reads is open: it keeps the registers of reset, whatever was written to them while HELD
(DESIGN CHOICE, assumption log 99). -/
def enterRun (kn : Kern) : Kern := { kn with st := .run, ran := true }

/-- A kernel that starts a tick. -/
def startKern (kn : Kern) : Kern :=
  { kn with core := startTick kn.core, active := true, ended := false, staged := [], passed := [], outs := [],
            hoardIn := [], slipIn := [], margin := none, wait := none }

/-- Kernel `k` of die `d`. -/
def kern (s : State) (d k : Nat) : Kern := smGet (fun _ => Kern.zero) s.kern (d * 144 + k)

/-- The state with a kernel set. -/
def setKern (s : State) (d k : Nat) (v : Kern) : State :=
  { s with kern := smSet (fun _ => Kern.zero) (d * 144 + k) v s.kern }

/-- Steward `i` of die `d`. -/
def stew (s : State) (d i : Nat) : Stew := smGet Stew.zero s.stew (d * 2 + i)

/-- The state with a steward set. -/
def setStew (s : State) (d i : Nat) (v : Stew) : State := { s with stew := smSet Stew.zero (d * 2 + i) v s.stew }

/-- The core of a reference. -/
def coreOf (s : State) (c : CoreRef) : Core := if c.stew then (stew s c.die c.idx).core else (kern s c.die c.idx).core

/-- The state with the core of a reference set. -/
def setCore (s : State) (c : CoreRef) (v : Core) : State :=
  if c.stew then setStew s c.die c.idx { stew s c.die c.idx with core := v }
  else setKern s c.die c.idx { kern s c.die c.idx with core := v }

/-- The state with the registers of a core changed. -/
def updRegs (s : State) (c : CoreRef) (f : Regs → Regs) : State :=
  setCore s c { coreOf s c with r := f (coreOf s c).r }

/-- Whether the package has the core. -/
def hasCore (s : State) (c : CoreRef) : Bool :=
  c.die < dieCount s.part && c.idx < (if c.stew then 2 else 144)

/-- The spares logic and parking of a pod at reset. -/
def PodX.zero : PodX :=
  ⟨[], [], .idle, 0, false, none, none, [], none, none, false, none, false, false, none, false⟩

/-- The hidden record of pod `p` of die `d`. -/
def podX (s : State) (d p : Nat) : PodX := smGet (fun _ => PodX.zero) s.pods (d * 8 + p)

/-- The state with a pod's hidden record set. -/
def setPodX (s : State) (d p : Nat) (x : PodX) : State :=
  { s with pods := smSet (fun _ => PodX.zero) (d * 8 + p) x s.pods }

/-- A die's hidden record at reset. No Pulse has captured the bits of R77 yet: they start at 0, VALID of an empty group
included (DESIGN CHOICE, assumption log 104). -/
def DieX.zero : DieX := ⟨0, 0, none, none, 0, 0, [], [], 0, none⟩

/-- The hidden record of die `d`. -/
def dieX (s : State) (d : Nat) : DieX := smGet (fun _ => DieX.zero) s.dieX d

/-- The state with a die's hidden record set. -/
def setDieX (s : State) (d : Nat) (x : DieX) : State := { s with dieX := smSet (fun _ => DieX.zero) d x s.dieX }

/-- The kernels of die `d` that differ from their reset state, lowest number first. -/
def listed (s : State) (d : Nat) : List Nat :=
  (s.kern.filter fun e => e.1 / 144 = d).map fun e => e.1 % 144

/-- An event whose condition holds takes the machine from `s` to `t`; one that is not due has no effect, for the machine
does not take that step now (DESIGN CHOICE, assumption log 4). -/
def whenDue (s : State) (b : Bool) (t : State) : Out := .next (if b then t else s)

/-- A command for a unit that the part has. -/
def onUnit (b : Bool) (k : Out) : Out := if b then k else .refused .noSuchUnit

/-! ### Power domains -/

/-- A domain after reset: client 32 holds it ON. -/
def DomX.zero : DomX := ⟨.on, none, 2, false⟩

/-- Domain codes (R408). -/
def pdSap : Nat := 0
def pdSrc : Nat := 1
def pdLink : Nat := 2
def pdStew : Nat := 7
def pdDdr : Nat := 8

/-- The domain of pod `p`. -/
def pdPod (p : Nat) : Nat := 3 + p / 2

/-- Domain `m` of die `d`. -/
def dom (s : State) (d m : Nat) : DomX := smGet (fun _ => DomX.zero) s.doms (d * 9 + m)

/-- The state with a domain set. -/
def setDom (s : State) (d m : Nat) (x : DomX) : State :=
  { s with doms := smSet (fun _ => DomX.zero) (d * 9 + m) x s.doms }

/-- Whether a domain is ON: from the start of an entry until the exit is done it is not (R463). -/
def domOn (s : State) (d m : Nat) : Bool := (dom s d m).st = .on

/-- Whether a domain's blocks still run (R418, R422): it is ON, or in an entry from ON before its pad-hold point, which an abort
ends without loss. An entry from RET to OFF runs nothing (R409). -/
def domLive (s : State) (d m : Nat) : Bool :=
  match (dom s d m).st with
  | .on => true
  | .entering _ from_ held => from_ = 2 && !held
  | _ => false

/-- The level of a stable domain. -/
def stableLevel (x : DomSt) : Option Nat :=
  match x with
  | .off => some 0
  | .ret => some 1
  | .on => some 2
  | _ => none

/-- The domain's code in PWR_DSTAT. -/
def domCode (x : DomSt) : Nat := (stableLevel x).getD 3

/-- Whether a die is in RETAIN (R414). -/
def dieRetained (s : State) (d : Nat) : Bool :=
  (List.range 9).all fun m => (dom s d m).st = .off || (dom s d m).st = .ret

/-- Whether every domain of a die is ON. -/
def dieAllOn (s : State) (d : Nat) : Bool := (List.range 9).all fun m => domOn s d m

/-! ### Hidden records of the blocks -/

/-- A bridge port at reset. -/
def BridgePort.zero : BridgePort := ⟨[], none, false, 0, [], false, none⟩

/-- Bridge port `n` of die `d`. -/
def bridge (s : State) (d n : Nat) : BridgePort := smGet (fun _ => BridgePort.zero) s.bridges (d * 3 + n)

/-- The state with a bridge port set. -/
def setBridge (s : State) (d n : Nat) (b : BridgePort) : State :=
  { s with bridges := smSet (fun _ => BridgePort.zero) (d * 3 + n) b s.bridges }

/-- A link port at reset. -/
def LinkPort.zero : LinkPort where
  queue := []
  sent := []
  out := none
  credit := 0
  frames := []
  fwd := []
  frameOk := false
  fails := 0
  upAt := 0
  change := none
  heldPk := []
  tag := 0
  wait := none
  gm := none
  spare := none
  spareAgain := none
  txSpare := none
  frameNo := 0
  failed := false
  echo := none
  waketx := []
  own := []
  ctl := []
  sentCtl := []
  rx := []
  lerr := []
  trainBad := false
  spareBad := false
  seenCount := none

/-- The link port of die `d`. -/
def linkPort (s : State) (d : Nat) : LinkPort := smGet (fun _ => LinkPort.zero) s.link d

/-- The state with a link port set. -/
def setLinkPort (s : State) (d : Nat) (p : LinkPort) : State :=
  { s with link := smSet (fun _ => LinkPort.zero) d p s.link }

/-- A caravan engine at reset. -/
def Caravan.zero : Caravan := ⟨none, false, [], []⟩

/-- The caravan engine of pod `p` of die `d`. -/
def caravan (s : State) (d p : Nat) : Caravan := smGet (fun _ => Caravan.zero) s.carav (d * 8 + p)

/-- The state with a caravan engine set. -/
def setCaravan (s : State) (d p : Nat) (x : Caravan) : State :=
  { s with carav := smSet (fun _ => Caravan.zero) (d * 8 + p) x s.carav }

/-- An LPDDR4X controller at reset. -/
def Ddr.zero : Ddr := ⟨0, 0, false, false, false, 0, false, false⟩

/-- The LPDDR4X controller of die `d`. -/
def ddr (s : State) (d : Nat) : Ddr := smGet (fun _ => Ddr.zero) s.ddr d

/-- The state with a controller set. -/
def setDdr (s : State) (d : Nat) (x : Ddr) : State := { s with ddr := smSet (fun _ => Ddr.zero) d x s.ddr }

/-- A gain at rest at 0. -/
def Gain.zero : Gain := ⟨0, 64, none⟩

/-- A serial audio port at reset. -/
def SapPort.zero : SapPort where
  maskRx := 0
  maskTx := 0
  sureRx := false
  sureTx := false
  trig := .idle
  frames := 0
  queue := []
  sent := none
  out := []
  outPrev := []
  due := []
  got := none
  late := none
  last := none
  held := false
  broken := false
  gain := .zero
  gainRx := .zero
  lost := false
  lostStopping := false
  relockRx := false
  relockTx := false
  bufRx := []
  bufTx := []
  judged := []
  runRx := false
  runTx := false
  ratioRx := none
  ratioTx := none
  ratioWas := 0
  pdm := []
  convRx := []
  convTx := []
  convAge := none
  convNew := 0
  convTxAt := none
  bip := ⟨[], [], false, [], false, false, false, 0, 0, false, [], false, 0, false, false, false, [], []⟩

/-- Serial audio port `m` of die `d`. -/
def sap (s : State) (d m : Nat) : SapPort := smGet (fun _ => SapPort.zero) s.saps (d * 10 + m)

/-- The state with a serial audio port set. -/
def setSap (s : State) (d m : Nat) (x : SapPort) : State :=
  { s with saps := smSet (fun _ => SapPort.zero) (d * 10 + m) x s.saps }

/-- A meter at reset. -/
def Meter.zero : Meter := ⟨0, false, 0, 0, 0, false, [], 0, 0, none⟩

/-- Meter `m` of die `d`. -/
def meter (s : State) (d m : Nat) : Meter := smGet (fun _ => Meter.zero) s.meters (d * 512 + m)

/-- The state with a meter set. -/
def setMeter (s : State) (d m : Nat) (x : Meter) : State :=
  { s with meters := smSet (fun _ => Meter.zero) (d * 512 + m) x s.meters }

/-- A generator channel at reset. -/
def Gen.zero : Gen := ⟨.idle, 0, 0, 0, false, false⟩

/-- Generator channel `c` of die `d`. -/
def gen (s : State) (d c : Nat) : Gen := smGet (fun _ => Gen.zero) s.gens (d * 8 + c)

/-- The state with a generator channel set. -/
def setGen (s : State) (d c : Nat) (x : Gen) : State := { s with gens := smSet (fun _ => Gen.zero) (d * 8 + c) x s.gens }

/-- A clocked serial port at reset. -/
def Csp.zero : Csp := ⟨[], none, 0, false, none, 0, [], none, 0, []⟩

/-- The clocked serial port of die `d`. -/
def csp (s : State) (d : Nat) : Csp := smGet (fun _ => Csp.zero) s.csp d

/-- The state with a clocked serial port set. -/
def setCsp (s : State) (d : Nat) (x : Csp) : State := { s with csp := smSet (fun _ => Csp.zero) d x s.csp }

/-- The trigger at the Pulse with count `c` (R261, R488). -/
def trigAt (c : Nat) (t : Trig) : Trig :=
  match t with
  | .next => .met
  | .edge => .at (c + 8)
  | .at n => if n = c then .met else t
  | .low w => if w = c % 2 ^ 32 then .met else t
  | _ => t

/-- A pending change at a Pulse, marked when that Pulse comes (R488); `low` is the low word of the Pulse's count. -/
def markMet (low : Nat) (x : Option (Nat × Bool)) : Option (Nat × Bool) :=
  x.map fun c => (c.1, c.2 || decide (c.1 = low))

/-- Whether the Pulse that a pending change names has come. -/
def isMet (x : Option (Nat × Bool)) : Bool := match x with | some (_, b) => b | none => false

/-- The sum of a list of numbers. -/
def natSum (xs : List Nat) : Nat := xs.foldl (· + ·) 0

end Sys2Proof.Machine
end

