-- ==== Sys2Proof/Machine/Queue.lean ====
section
/-! DEFINITION. The record of bit errors and row repair orders (R63, R177, R364, R442); the hardware queues (R369–R373):
rings of entries in working memory, pushes, pops and the kernel-event post; the spares log. -/
namespace Sys2Proof.Machine

/-! ### Bit errors and row repair -/

/-- The record of pod `p` (0–7), or of working memory (8), of a die. -/
def rowsOf (s : State) (d p : Nat) : Rows := smGet (fun _ => (⟨[], [], [], []⟩ : Rows)) s.rows (d * 9 + p)

/-- The state with a row record set. -/
def setRows (s : State) (d p : Nat) (r : Rows) : State :=
  { s with rows := smSet (fun _ => (⟨[], [], [], []⟩ : Rows)) (d * 9 + p) r s.rows }

/-- Spare rows that no repair has taken yet. -/
def freeRows (s : State) (d p : Nat) : Nat :=
  (if p = 8 then fld s (Reg.SPARE_WMREP d) F.SPARE_WMREP_FREE else fld s (Reg.POD_REPAIR d p) F.POD_REPAIR_FREE)
    - (rowsOf s d p).want.length - (rowsOf s d p).copied.length

/-- A repair ordered for a row (R442): nothing when repair is disabled, the row is already in hand, or its repair has found
no free spare row before; NOSPARE when no free row is left. -/
def orderRepair (s : State) (d p row : Nat) : State :=
  let r := rowsOf s d p
  if !bitF s (Reg.SPARE_CTL d) F.SPARE_CTL_ROWREP || r.want.contains row || r.copied.contains row || r.denied.contains row then s
  else if freeRows s d p = 0 then
    setFld (setRows s d p { r with denied := row :: r.denied }) (Reg.SPARE_STAT d) F.SPARE_STAT_NOSPARE 1
  else
    let t := setRows s d p { r with want := r.want ++ [row], tally := r.tally.filter fun e => e.1 ≠ row }
    if p = 8 then t else setFld t (Reg.POD_REPAIR d p) F.POD_REPAIR_BUSY 1

/-- A correction counted against its row: the 16 rows most recently corrected are kept, and a row that reaches ROWTHR
corrections is ordered for repair (R442). -/
def tallyRow (s : State) (d p row : Nat) : State :=
  let r := rowsOf s d p
  let n := ((r.tally.find? fun e => e.1 = row).map (·.2)).getD 0 + 1
  let thr := max 1 (fld s (Reg.SPARE_CFG d) F.SPARE_CFG_ROWTHR)
  let t := setRows s d p { r with tally := ((row, n) :: r.tally.filter fun e => e.1 ≠ row).take 16 }
  if thr ≤ n then orderRepair t d p row else t

/-- A corrected Hoard word (R177): written back, counted with its bank and row, and tallied. -/
def hoardCorrected (s : State) (d p w : Nat) : State :=
  let a := Reg.POD_ECC d p
  let t := setFld (setFld (satFld s a F.POD_ECC_CORR) a F.POD_ECC_BANK (w / 2 ^ 14)) a F.POD_ECC_ROW (w / 64 % 256)
  tallyRow (setEcc t (hoardA d p w) .clean) d p (w / 64)

/-- An uncorrectable Hoard word (R177): counted with its bank and row, and its row ordered for repair (R442). -/
def hoardUncorrectable (s : State) (d p w : Nat) : State :=
  let a := Reg.POD_ECC_UNC d p
  let t := setFld (setFld (satFld s a F.POD_ECC_UNC_COUNT) a F.POD_ECC_UNC_BANK (w / 2 ^ 14))
    a F.POD_ECC_UNC_ROW (w / 64 % 256)
  orderRepair t d p (w / 64)

/-- A corrected kernel word (R63): `mem` is 1 program, 2 X, 3 Y. -/
def kernelCorrected (s : State) (d k mem : Nat) (bankB : Bool) (w a : Nat) : State :=
  let e := Reg.KERNEL_ECC d k
  let t := setFld (setFld (setFld (satFld s e F.KERNEL_ECC_CORR) e F.KERNEL_ECC_MEM mem)
    e F.KERNEL_ECC_BANK bankB.toNat) e F.KERNEL_ECC_ADDR w
  setEcc t a .clean

/-- MEM code, bank and word address of a window offset below 0x1_C000, as KERNEL_ECC names them (R63). -/
def winPlace (off : Nat) : Nat × Bool × Nat :=
  if off < 0x1_0000 then (1, decide (0x8000 ≤ off), off % 0x8000 / 8)
  else if off < 0x1_4000 then (2, false, (off - 0x1_0000) / 4)
  else if off < 0x1_8000 then (3, false, (off - 0x1_4000) / 4) else (3, true, (off - 0x1_8000) / 4)

/-- The words of a kernel's window from offset `lo` up to `hi` read by a copy or a check: single-bit errors corrected and
counted (R63). -/
def scrubKernel (s : State) (d k lo hi : Nat) : State :=
  let a := kernWin d k
  each ((s.ecc.filter fun e => decide (a + lo ≤ e.1) && decide (e.1 < a + hi) && e.2 = .single).map (·.1)) (fun key t =>
    let p := winPlace (key - a)
    kernelCorrected t d k p.1 p.2.1 p.2.2 key) s

/-! ### Lines of working memory -/

/-- One 64-bit line of working memory read (R364): a single-bit error corrected and counted, a double-bit error counted, and
whether the line can be read; both count for row repair (R442). -/
def wmLine (s : State) (d line : Nat) : State × Bool :=
  let key := pkgA d (line * 8)
  match eccAt s key with
  | .clean => (s, true)
  | .single => (tallyRow (satFld (setEcc s key .clean) (Reg.BUS_WMECC d) F.BUS_WMECC_CORR) d 8 (line / 128), true)
  | .double => (orderRepair (satFld s (Reg.BUS_WMECC d) F.BUS_WMECC_UNC) d 8 (line / 128), false)

/-- The lines that `n` bytes from a die-local address touch, all read. -/
def wmLines (s : State) (d loc n : Nat) : State × Bool :=
  (List.range ((loc + n + 7) / 8 - loc / 8)).foldl (fun (acc : State × Bool) i =>
    let (t, ok) := wmLine acc.1 d (loc / 8 + i)
    (t, acc.2 && ok)) (s, true)

/-- Marks of lines that a write covers wholly. -/
def wmFresh (s : State) (d loc n : Nat) : State :=
  each ((List.range ((loc + n) / 8 - (loc + 7) / 8)).map fun i => pkgA d (((loc + 7) / 8 + i) * 8))
    (fun k t => setEcc t k .clean) s

/-! ### The queues -/

/-- Words per entry of a queue. -/
def queueWords (s : State) (d q : Nat) : Nat := fld s (Reg.QUEUE_CFG d q) F.QUEUE_CFG_EWORDS

/-- The die-local address of word `i` of entry `e` of a queue's ring. -/
def queueLoc (s : State) (d q e i : Nat) : Nat :=
  fld s (Reg.QUEUE_BASE d q) F.QUEUE_BASE_ADDR * 4 + 4 * (queueWords s d q * e + i)

/-- The package address of word `i` of entry `e` of a queue. -/
def queueAddr (s : State) (d q e i : Nat) : Nat := pkgA d (queueLoc s d q e i)

/-- COUNT set, with EMPTY and FULL as it leaves them. -/
def setQueueCount (s : State) (d q n : Nat) : State :=
  let a := Reg.QUEUE_STAT d q
  let en := bitF s (Reg.QUEUE_CFG d q) F.QUEUE_CFG_EN
  let full := en && n = fld s (Reg.QUEUE_CFG d q) F.QUEUE_CFG_DEPTH
  setFld (setFld (setFld s a F.QUEUE_STAT_COUNT n) a F.QUEUE_STAT_EMPTY (if n = 0 then 1 else 0))
    a F.QUEUE_STAT_FULL full.toNat

/-- The index after `i` in a ring of the queue's DEPTH. -/
def queueNext (s : State) (d q i : Nat) : Nat :=
  if i + 1 < fld s (Reg.QUEUE_CFG d q) F.QUEUE_CFG_DEPTH then i + 1 else 0

/-- The words of an entry written into its ring slot; lines written whole lose their bit errors (R364). -/
def storeEntry (s : State) (d q e : Nat) (ws : List Word) : State :=
  wmFresh (each (List.range (queueWords s d q)) (fun i t => storeW t (queueAddr s d q e i) (ws.getD i 0)) s)
    d (queueLoc s d q e 0) (4 * queueWords s d q)

/-- The head entry removed. -/
def queueDrop (s : State) (d q : Nat) : State :=
  let h := fld s (Reg.QUEUE_HEAD d q) F.QUEUE_HEAD_INDEX
  let n := fld s (Reg.QUEUE_STAT d q) F.QUEUE_STAT_COUNT
  setQueueCount (setFld s (Reg.QUEUE_HEAD d q) F.QUEUE_HEAD_INDEX (queueNext s d q h)) d q (n - 1)

/-- An entry appended at the tail. -/
def queueAppend (s : State) (d q : Nat) (ws : List Word) : State :=
  let t := fld s (Reg.QUEUE_TAIL d q) F.QUEUE_TAIL_INDEX
  let n := fld s (Reg.QUEUE_STAT d q) F.QUEUE_STAT_COUNT
  setQueueCount (setFld (storeEntry s d q t ws) (Reg.QUEUE_TAIL d q) F.QUEUE_TAIL_INDEX (queueNext s d q t)) d q (n + 1)

/-- An entry pushed (R370, R371): dropped and counted while the queue is disabled; when it is full, dropped, or with
OVWR the oldest entry discarded first. -/
def queuePush (s : State) (d q : Nat) (ws : List Word) : State :=
  let cfg := Reg.QUEUE_CFG d q
  let st := Reg.QUEUE_STAT d q
  let lost := incReg s (Reg.QUEUE_LOST d q)
  if !bitF s cfg F.QUEUE_CFG_EN then lost
  else if fld s st F.QUEUE_STAT_COUNT < fld s cfg F.QUEUE_CFG_DEPTH then queueAppend s d q ws
  else
    let marked := setFld lost st F.QUEUE_STAT_OVF 1
    if bitF s cfg F.QUEUE_CFG_OVWR then queueAppend (queueDrop marked d q) d q ws else marked

/-- The index of the head entry. -/
def queueHeadIndex (s : State) (d q : Nat) : Nat := fld s (Reg.QUEUE_HEAD d q) F.QUEUE_HEAD_INDEX

/-- Whether a queue answers a pop with an entry (R370). -/
def queueHas (s : State) (d q : Nat) : Bool :=
  bitF s (Reg.QUEUE_CFG d q) F.QUEUE_CFG_EN && fld s (Reg.QUEUE_STAT d q) F.QUEUE_STAT_COUNT ≠ 0

/-- The lines of a queue's head entry, all read (R364). -/
def queueLines (s : State) (d q : Nat) : State × Bool :=
  wmLines s d (queueLoc s d q (queueHeadIndex s d q) 0) (4 * queueWords s d q)

/-- The words of the head entry; a word on a line with a double-bit error is free (assumption log 3). -/
def queueHead (s : State) (d q : Nat) : List Word :=
  (List.range (queueWords s d q)).map fun i =>
    let loc := queueLoc s d q (queueHeadIndex s d q) i
    if eccAt s (pkgA d (loc / 8 * 8)) = .double then Config.freeWord (s.fresh + i) else loadW s (pkgA d loc)

/-- The head entry read and removed: its words, and whether no line of it had a double-bit error (R364). -/
def queueTake (s : State) (d q : Nat) : State × List Word :=
  let r := queueLines s d q
  let t := if r.2 then r.1 else { r.1 with fresh := s.fresh + queueWords s d q }
  (queueDrop t d q, queueHead s d q)

/-- Whether a pop meets a line that cannot be corrected, and so answers with an error (R361, R364). -/
def queueBroken (s : State) (d q : Nat) : Bool := queueHas s d q && !(queueLines s d q).2

/-- The key of a master's staging and latch words. -/
def queueKey (q : Nat) (a : Access) (i : Nat) : Nat := ((q * 32 + a.master) * 8 + a.odie) * 64 + i

/-- A read of DATA0 (R370): the head entry removed, its words latched for the master, word 0 returned. -/
def queuePop (s : State) (d q : Nat) (a : Access) : State × Word :=
  let latch (ws : List Word) (t : State) : State :=
    each (List.range 56) (fun i u => setTab u tQLatch d (queueKey q a i) (ws.getD i 0)) t
  if queueHas s d q then
    let r := queueTake s d q
    (latch r.2 r.1, r.2.getD 0 0)
  else (latch [] (setFld s (Reg.QUEUE_STAT d q) F.QUEUE_STAT_UNDER 1), 0)

/-- A write of DATA0 (R370): the entry made of that word and the master's staged words, whose staging is cleared. -/
def queuePushData (s : State) (d q : Nat) (a : Access) (w : Word) : State :=
  let n := queueWords s d q
  let ws := w :: (List.range (n - 1)).map fun i => tab s tQStage d (queueKey q a (i + 1))
  each (List.range 56) (fun i u => setTab u tQStage d (queueKey q a i) 0) (queuePush s d q ws)

/-- The queue's interrupt condition (R371). -/
def queueCond (s : State) (d q : Nat) : Bool :=
  let n := fld s (Reg.QUEUE_STAT d q) F.QUEUE_STAT_COUNT
  let lv := fld s (Reg.QUEUE_THR d q) F.QUEUE_THR_LEVEL
  bitF s (Reg.QUEUE_THR d q) F.QUEUE_THR_IE &&
    (if bitF s (Reg.QUEUE_THR d q) F.QUEUE_THR_BELOW then decide (n ≤ lv) else decide (lv ≤ n))

/-- The low word of the Pulse count of the tick in progress. -/
def pulseLow (s : State) : Word := reg s (Reg.PULSE_COUNT_LO 0)

/-- The 64-bit Pulse count of the tick in progress; die 0 holds it (R26). -/
def pulseCount (s : State) : Nat := (reg s (Reg.PULSE_COUNT_LO 0)).toNat + 2 ^ 32 * (reg s (Reg.PULSE_COUNT_HI 0)).toNat

/-- Whether the Pulse runs (R28). -/
def pulseRuns (s : State) : Bool := s.phase ≠ .stopped

/-- The count that the next Pulse carries (R28). -/
def nextPulse (s : State) : Nat := if pulseRuns s then pulseCount s + 1 else pulseCount s

/-- A kernel event appended to queue 0 of the die (R372): `ty` 1 TRAP, 2 fault. -/
def postEvent (s : State) (d k ty fcode number : Nat) : State :=
  queuePush s d 0 [BitVec.ofNat 32 (ty * 2 ^ 28 + fcode * 2 ^ 24 + number * 2 ^ 16 + k), pulseLow s]

/-- An event of the spares log: the newest entry is entry 0 and the oldest of 16 is lost. -/
def spareLog (s : State) (d ty a b c : Nat) : State :=
  let shifted := each ((List.range 15).reverse)
    (fun i t => setTab (setTab t tLog d (2 * (i + 1)) (tab t tLog d (2 * i))) tLog d (2 * (i + 1) + 1)
      (tab t tLog d (2 * i + 1))) s
  let w := BitVec.ofNat 32 (ty * 2 ^ 28 + a % 256 * 2 ^ 20 + b % 256 * 2 ^ 12 + c % 4096)
  incReg (setTab (setTab shifted tLog d 0 w) tLog d 1 (pulseLow s)) (Reg.SPARE_LOGCNT d)

/-! ### The spare slots of a pod -/

/-- A field of SPARE_POD. -/
def sparePod (s : State) (d p : Nat) (f : Fld) : Nat := fld s (Reg.SPARE_POD d p) f

/-- The spare slots of a pod: the shadow slot first. -/
def spareSlots (s : State) (d p : Nat) : List Nat :=
  [sparePod s d p F.SPARE_POD_SHADOWSL, sparePod s d p F.SPARE_POD_STANDBY].filter fun i => i < 18

/-- The spare slots of a pod set: SPARE_POD and SPARE_STAT.EMPTY follow (R439). -/
def setSpares (s : State) (d p : Nat) (slots : List Nat) : State :=
  let a := Reg.SPARE_POD d p
  let t := setFld (setFld (setFld s a F.SPARE_POD_SHADOWSL (slots.getD 0 31)) a F.SPARE_POD_STANDBY (slots.getD 1 31))
    a F.SPARE_POD_SPARES slots.length
  let st := Reg.SPARE_STAT d
  let e := fld t st F.SPARE_STAT_EMPTY
  setFld t st F.SPARE_STAT_EMPTY (e - e / 2 ^ p % 2 * 2 ^ p + slots.isEmpty.toNat * 2 ^ p)

/-- A slot that is a spare no longer; a shadow period that it served ends at the next Pulse (R436). -/
def dropSpare (s : State) (d p i : Nat) : State :=
  setPodX (setSpares s d p ((spareSlots s d p).filter fun j => j ≠ i)) d p { podX s d p with left := 0 }

/-- A trigger for the spares logic of a kernel's pod (R437): each is taken up in its turn (R433, R491). -/
def spareTrigger (s : State) (d k cause : Nat) : State :=
  let x := podX s d (k / 18)
  setPodX s d (k / 18) { x with trig := x.trig ++ [(k % 18, cause)] }

end Sys2Proof.Machine
end

