-- ==== Sys2Proof/Machine/Lines.lean ====
section
/-! DEFINITION. What a reader of a line gets (R179–R182): the internal rate's figures, look-ahead (R299, R300), faders
(R236, R237), validity groups and silence flags as a kernel's bit space captures them (R77, R78). -/
namespace Sys2Proof.Machine

/-- The rate code in effect (PULSE_STAT.RATE, R26). -/
def rateCode (s : State) : Nat := fld s (Reg.PULSE_STAT 0) F.PULSE_STAT_RATE

/-- The entry of a rate table. -/
def byRate (s : State) (xs : List Nat) : Nat := xs.getD (rateCode s) 0

/-- The step budget of the rate in effect (R32). -/
def stepBudget (s : State) : Nat := byRate s [13312, 12288, 6400, 5888, 2944, 2688]

/-- The nominal tick in tenths of a nanosecond (R31, R32). -/
def tickTenths (s : State) : Nat := byRate s [226757, 208333, 113379, 104167, 56689, 52083]

/-- The deadline after the Pulse in tenths of a nanosecond (R32). -/
def deadlineTenths (s : State) : Nat := tickTenths s - 8000

/-- Ticks in one second at the internal rate. -/
def ticksPerSecond (s : State) : Nat := byRate s [44100, 48000, 88200, 96000, 176400, 192000]

/-- The wake delay D of a pod (R301). -/
def wakeDelay (s : State) : Nat := byRate s [3, 3, 6, 6, 12, 12]

/-- The smallest look-ahead (R301). -/
def minLookahead (s : State) : Nat := byRate s [4, 4, 7, 7, 13, 13]

/-- Look-ahead entry `n` of die `d` as it is in effect since the last Pulse (R300). -/
def laWord (s : State) (d n : Nat) : Word := smGet (fun _ => (0 : Word)) s.laEff (d * 64 + n)

/-- The delay of an entry, within 4–64 and not below the rate's minimum (R299). -/
def laLen (s : State) (w : Word) : Nat := min 64 (max (minLookahead s) (max 4 (wGet w F.SILENCE_LA_LEN)))

/-- The look-ahead entry that acts on a line: the lowest-numbered enabled one that names it (R299). -/
def laEntry (s : State) (d n : Nat) : Option Nat :=
  (List.range 64).find? fun i => wGet (laWord s d i) F.SILENCE_LA_EN = 1 && wGet (laWord s d i) F.SILENCE_LA_LINE = n

/-- The delay memory of an entry, the tick in progress first. -/
def laPast (s : State) (d i : Nat) : List Line := smGet (fun _ => ([] : List Line)) s.laHist (d * 64 + i)

/-- Line `n` as every reader but a silence detector sees it: delayed where a look-ahead entry acts on it (R299). -/
def readLine (s : State) (d n : Nat) : Line :=
  match laEntry s d n with
  | some i => (laPast s d i).getD (laLen s (laWord s d i)) deadLine
  | none => line s d n

/-! ### Faders -/

/-- Word `w` of fader entry `e`. -/
def fadeWord (s : State) (d e w : Nat) : Word := tab s tFade d (e * 4 + w)

/-- The length of a fade: above 8,192 acts as 8,192. -/
def fadeLen (w0 : Word) : Nat := min 8192 (wField w0 29 16)

/-- The active fader entry through which kernel `k` reads line `n` (R236); the lowest-numbered one where several do
(assumption log 7). -/
def activeFader (s : State) (d k n : Nat) : Option Nat :=
  (tabRange s tFade d 0 2048).findSome? fun x =>
    let e := x.1 / 4
    if x.1 % 4 = 2 && x.2.getLsbD 31 && wField (fadeWord s d e 0) 7 0 = k && wField (fadeWord s d e 1) 13 0 = n
    then some e else none

/-- A gain of R237 as a 24-bit fraction: one of the values within 2^−23 of the formula, the choice being open
(assumption log 6). -/
def fadeGain (exact : Int) (tag : Nat) : Int :=
  let g := exact * (2 ^ 24 : Nat) / fxOne + ((Config.freeNat tag % 4 : Nat) : Int) - 1
  if g < 0 then 0 else if (2 ^ 24 : Nat) ≤ g then (2 ^ 24 : Nat) - 1 else g

/-- The blend of OLD and NEW in the tick with `pos` ticks done (R237): summed exactly, truncated, saturated. -/
def fadeBlend (law pos len : Nat) (old new : Word) : Word :=
  if len ≤ pos + 1 then new
  else
    let ratio := ((pos + 1 : Nat) : Int) * fxOne / (len : Nat)
    let tag := ((law * 8193 + pos + 1) * 8193 + len) * 2
    let gNew := fadeGain (if law = 0 then ratio else fxSinTurn (ratio / 4)) tag
    let gOld := fadeGain (if law = 0 then fxOne - ratio else fxCosTurn (ratio / 4)) (tag + 1)
    let v := (gOld * old.toInt + gNew * new.toInt) / (2 ^ 24 : Nat)
    if v < -(2 ^ 31 : Nat) then minNeg 32 else if (2 ^ 31 : Nat) ≤ v then maxPos 32 else BitVec.ofInt 32 v

/-- What kernel `k`'s LDL of Wadi line `n` returns (R130, R236). -/
def kernelLine (s : State) (d k n : Nat) : Word :=
  match activeFader s d k n with
  | none => (readLine s d n).val
  | some e =>
    fadeBlend (wField (fadeWord s d e 0) 30 30) (wField (fadeWord s d e 2) 13 0) (fadeLen (fadeWord s d e 0))
      (readLine s d (wField (fadeWord s d e 1) 29 16)).val (readLine s d n).val

/-! ### The bits a kernel captures at a Pulse -/

/-- Line-table entry `g` of a slot and bank (R184). -/
def ltab (s : State) (d k : Nat) (bankB : Bool) (g : Nat) : Word := tab s tLtab d ((k * 2 + bankB.toNat) * 32 + g)

/-- VALID`g` (R78): every line of the group valid, true for an empty group. -/
def groupValid (s : State) (d : Nat) (w : Word) : Bool :=
  let first := wField w 13 0
  let last := wField w 29 16
  (List.range (last + 1 - first)).all fun i => (readLine s d (first + i)).valid

/-- Silence-list entries: ((pod × 18 + slot) × 2 + bank) × 64 + entry (R298). -/
def tSlist : Nat := 10

/-- Detector entries: detector × 4 + word (R297). -/
def tDet : Nat := 11

/-- SILENT of a detector (R297). -/
def detSilent (s : State) (d n : Nat) : Bool := wField (tab s tDet d (n * 4 + 2)) 31 31 = 1

/-- SIL`i` of a slot and bank (R78): an unused entry reads 0. -/
def silFlag (s : State) (d k : Nat) (bankB : Bool) (i : Nat) : Bool :=
  let w := tab s tSlist d ((k * 2 + bankB.toNat) * 64 + i)
  wField w 31 31 = 1 && detSilent s d (wField w 9 0)

/-- A list of truth values as a number, the first least significant. -/
def bitsToNat : List Bool → Nat
  | [] => 0
  | b :: bs => b.toNat + 2 * bitsToNat bs

/-- The bits that a kernel captures whose banks, overrun and swap flags are 0, whose line table is empty and whose silence
list is unused (R77, R78). -/
def baseBits (s : State) (linkLock : Bool) : BitVec 128 :=
  BitVec.ofNat 128
    (bitsToNat [false, false, (pulseLow s).toNat % 2 = 1, false, linkLock] + 2 ^ 0x20 * (2 ^ 32 - 1))

/-- The captured part of a kernel's bit space as it stands in this tick (R77). -/
def captOf (s : State) (d k : Nat) : BitVec 128 := (kern s d k).capt.getD (dieX s d).capt

/-- The captured part of a kernel's bit space, 0x000–0x07F without the FLG mirror (R77). -/
def captureBits (s : State) (d k : Nat) (kn : Kern) (linkLock : Bool) : BitVec 128 :=
  BitVec.ofNat 128
    (bitsToNat [kn.pbank, kn.ybank, (pulseLow s).toNat % 2 = 1, kn.ovrPrev, linkLock, kn.swapped]
      + 2 ^ 0x20 * bitsToNat ((List.range 32).map fun g => groupValid s d (ltab s d k kn.pbank g))
      + 2 ^ 0x40 * bitsToNat ((List.range 64).map fun i => silFlag s d k kn.pbank i))

end Sys2Proof.Machine
end

