-- ==== Sys2Proof/Machine/Gov.lean ====
section
/-! DEFINITION. The slack governor (R42–R53, R57, R492): margins, the operating point, raises, lowering steps,
preparation, escalation and wear. -/
namespace Sys2Proof.Machine

/-- A quotient in whole units where the spec gives no rounding: exact where it is a whole number, otherwise one of its
two neighbours, the choice being open (assumption log 11). -/
def openRound (num : Int) (den tag : Nat) : Int :=
  if num % (den : Int) = 0 then num / (den : Int)
  else num / (den : Int) + (if Config.freeBool tag then 1 else 0)

/-- Automatic mode (R52). -/
def govAuto (s : State) (d : Nat) : Bool :=
  bitF s (Reg.GOV_CTL d) F.GOV_CTL_EN && !bitF s (Reg.GOV_CTL d) F.GOV_CTL_MANUAL

/-- A body bias code: outside −12 to +12 it acts as the nearest limit (R45). -/
def bbCode (n : Nat) : Int := max (-12) (min 12 (toSigned n 5))

/-- GOV_LIMIT.VMAX: above 60 acts as 60. -/
def govVmax (s : State) (d : Nat) : Nat := min 60 (fld s (Reg.GOV_LIMIT d) F.GOV_LIMIT_VMAX)

/-- GOV_LIMIT.VMIN: above VMAX acts as VMAX. -/
def govVmin (s : State) (d : Nat) : Nat := min (govVmax s d) (fld s (Reg.GOV_LIMIT d) F.GOV_LIMIT_VMIN)

/-- The thermal cap (R51). -/
def thermCap (s : State) (d : Nat) : Nat := fld s (Reg.THERM_STAT d) F.THERM_STAT_CAP

/-- The ceiling's VID (R49). -/
def govCeiling (s : State) (d : Nat) : Nat := min (govVmax s d) (thermCap s d)

/-- The VID in effect. -/
def govVid (s : State) (d : Nat) : Nat := fld s (Reg.GOV_STAT d) F.GOV_STAT_VID

/-- The body bias in effect. -/
def govBias (s : State) (d : Nat) : Int := toSigned (fld s (Reg.GOV_STAT d) F.GOV_STAT_BB) 5

/-- GOV_LIMIT.BBFWD and BBREV. -/
def govFwd (s : State) (d : Nat) : Int := bbCode (fld s (Reg.GOV_LIMIT d) F.GOV_LIMIT_BBFWD)
def govRev (s : State) (d : Nat) : Int := bbCode (fld s (Reg.GOV_LIMIT d) F.GOV_LIMIT_BBREV)

/-- The SRAM assist level of a VID (R46). -/
def assistLevel (vid : Nat) : Nat := if vid ≤ 15 then 3 else if vid ≤ 29 then 2 else if vid ≤ 43 then 1 else 0

/-- The operating point set, with assist as R46 and R52 give it. -/
def setPoint (s : State) (d vid : Nat) (bb : Int) : State :=
  let a := Reg.GOV_STAT d
  let man := if bitF s (Reg.GOV_CTL d) F.GOV_CTL_MANUAL then fld s (Reg.GOV_MANUAL d) F.GOV_MANUAL_ASSIST else 0
  setFld (setFld (setFld s a F.GOV_STAT_VID vid) a F.GOV_STAT_BB (ofSigned bb 5))
    a F.GOV_STAT_ASSIST (max man (assistLevel vid))

/-- The frozen operating point (R52): it stays as it was, except that the thermal cap lowers the VID, with assist not below
the table's level for the new VID (R46). -/
def frozenPoint (s : State) (d : Nat) : State :=
  let a := Reg.GOV_STAT d
  if thermCap s d < govVid s d then
    setFld (setFld s a F.GOV_STAT_VID (thermCap s d)) a F.GOV_STAT_ASSIST
      (max (fld s a F.GOV_STAT_ASSIST) (assistLevel (thermCap s d)))
  else s

/-- The governor of a die in RETAIN (R415, R416): GOV_LIMIT.VMIN, which a thermal cap below it prevails over (R51), GOV_LIMIT.BBREV,
and assist of the table alone: the governor's own settings, GOV_MANUAL's included, apply to domains that are ON. -/
def retainPoint (s : State) (d : Nat) : State :=
  let a := Reg.GOV_STAT d
  let vid := min (thermCap s d) (govVmin s d)
  setFld (setFld (setFld s a F.GOV_STAT_VID vid) a F.GOV_STAT_BB (ofSigned (govRev s d) 5)) a F.GOV_STAT_ASSIST (assistLevel vid)

/-- The point that R51, R52 and R416 ask for at once: that of RETAIN, GOV_MANUAL's in manual mode, otherwise the VID limited by
the thermal cap. -/
def capPoint (s : State) (d : Nat) : State :=
  if dieRetained s d then retainPoint s d
  else if bitF s (Reg.GOV_CTL d) F.GOV_CTL_MANUAL then
    setPoint s d (min (min 60 (thermCap s d)) (fld s (Reg.GOV_MANUAL d) F.GOV_MANUAL_VID))
      (bbCode (fld s (Reg.GOV_MANUAL d) F.GOV_MANUAL_BB))
  else if govAuto s d then setPoint s d (min (govVid s d) (thermCap s d)) (govBias s d)
  else frozenPoint s d

/-- GOV_STAT brought in line with the settings and the cap after either changes (R49–R52). -/
def govRefresh (s : State) (d : Nat) : State :=
  let a := Reg.GOV_STAT d
  let t := capPoint s d
  let t := setFld (setFld (setFld t a F.GOV_STAT_VIDCAP (govCeiling s d))
    a F.GOV_STAT_THCAP (decide (thermCap s d < govVmax s d)).toNat)
    a F.GOV_STAT_UNSAFE (decide (govCeiling s d < 50)).toNat
  if govAuto s d then t
  else setDieX (setFld t a F.GOV_STAT_PREP 0) d { dieX t d with prepTo := none, settle := none, window := 0 }

/-- The lowering window in ticks (R48). -/
def govWindow (s : State) (d : Nat) : Nat := 16 * max 1 (fld s (Reg.GOV_CFG d) F.GOV_CFG_WINDOW)

/-- Preparation (R50): the ceiling VID with zero bias, held until one window after the Pulse `target`. A die in RETAIN holds the
settings of R415 (R416). -/
def govPrep (s : State) (d target : Nat) : State :=
  if govAuto s d && !dieRetained s d then
    let x := dieX s d
    let until_ := max (x.prepTo.getD 0) (target + govWindow s d)
    setDieX (setFld (setPoint s d (govCeiling s d) 0) (Reg.GOV_STAT d) F.GOV_STAT_PREP 1) d
      { x with prepTo := some until_, settle := none, window := 0 }
  else s

/-- Whether a margin in tenths of a nanosecond lies below `n` half percents of the nominal tick (R43). -/
def belowHalfPercents (s : State) (m : Int) (n : Nat) : Bool := decide (m * 200 < ((n * tickTenths s : Nat) : Int))

/-- The margin target in half percents (R43). -/
def govTarget (s : State) (d : Nat) : Nat := max 16 (fld s (Reg.GOV_CFG d) F.GOV_CFG_TARGET)

/-- The margin of an overrun, in tenths of a nanosecond (R42). -/
def overrunMargin : Int := -327680

/-- The worst margin of the tick just ended and the lowest-numbered kernel that has it (R42). -/
def worstMargin (s : State) (d : Nat) : Option (Nat × Int) :=
  (listed s d).foldl (fun w k =>
    match (kern s d k).st, (kern s d k).margin with
    | .run, some m => match w with
      | some (_, b) => if m < b then some (k, m) else w
      | none => some (k, m)
    | _, _ => w) none

/-- GOV_MARGIN and GOV_MARGIN_MIN at a Pulse (R42). The first Pulse of a run captures the margin of the last tick before the stop,
for no tick has ended since (DESIGN CHOICE, assumption log 116). -/
def govCapture (s : State) (d : Nat) (w : Option (Nat × Int)) : State :=
  let a := Reg.GOV_MARGIN d
  match w with
  | none => setFld (setFld s a F.GOV_MARGIN_KERNEL 0) a F.GOV_MARGIN_MARGIN 0x7FFF
  | some (k, m) =>
    let ns := openRound m 10 (m + 400000).toNat
    let b := Reg.GOV_MARGIN_MIN d
    let t := setFld (setFld s a F.GOV_MARGIN_KERNEL k) a F.GOV_MARGIN_MARGIN (ofSigned ns 16)
    if ns < toSigned (fld s b F.GOV_MARGIN_MIN_MARGIN) 16 then
      setFld (setFld t b F.GOV_MARGIN_MIN_KERNEL k) b F.GOV_MARGIN_MIN_MARGIN (ofSigned ns 16)
    else t

/-- R492: in automatic mode a VID outside its limits moves into them; not in RETAIN (R416). -/
def govClamp (s : State) (d : Nat) : State :=
  if govAuto s d && !dieRetained s d then
    let v := govVid s d
    let v' := min (govCeiling s d) (max v (govVmin s d))
    if v' = v then s else setPoint s d v' (govBias s d)
  else s

/-- The governor's work at a Pulse: the margin captured, the VID kept in its limits, and the counts of R47 and R48 that
say when a raise or a lowering step is due. Calm ticks during PREP do not count toward the lowering window, so that one
whole window passes between the end of PREP and the first lowering step (DESIGN CHOICE, assumption log 30: R50 does not
say). A tick without a margin leaves the spacing of raises as it is: it does not count toward SETTLE, and a raise that is due
stays due (DESIGN CHOICE, assumption log 117: R492 does not say). -/
def govPulse (s : State) (d : Nat) (w : Option (Nat × Int)) : State :=
  let t := govClamp (govCapture s d w) d
  let x := dieX t d
  let a := Reg.GOV_STAT d
  match w with
  | none => setFld t a F.GOV_STAT_CEIL 0
  | some (_, m) =>
    let short := belowHalfPercents s m (govTarget s d)
    let calm := !belowHalfPercents s m (govTarget s d + fld s (Reg.GOV_CFG d) F.GOV_CFG_HYST)
    let atTop := decide (govCeiling s d ≤ govVid t d) && decide (govBias t d = govFwd s d)
    let t := setFld t a F.GOV_STAT_CEIL (short && atTop).toNat
    if !govAuto s d || bitF s a F.GOV_STAT_PREP then setDieX t d { x with settle := none, window := 0 }
    else if short then setDieX t d { x with settle := some ((x.settle.getD 0) - 1), window := 0 }
    else setDieX t d { x with settle := none, window := if calm then x.window + 1 else 0 }

/-- GOV_RAISE (R47): after a short tick, and again every SETTLE ticks while the margin stays short; not in RETAIN (R416). -/
def execGovRaise (d : Nat) (s : State) : Out :=
  onUnit (d < dieCount s.part) <|
    let x := dieX s d
    whenDue s (govAuto s d && x.settle = some 0 && !dieRetained s d)
      (let t := setPoint s d (min (govCeiling s d) (govVid s d + max 1 (fld s (Reg.GOV_CFG d) F.GOV_CFG_UPSTEP)))
         (govFwd s d)
       setDieX t d { x with settle := some (max 1 (fld s (Reg.GOV_CFG d) F.GOV_CFG_SETTLE)), window := 0 })

/-- The one change of a lowering step (R48). -/
def lowerPoint (s : State) (d : Nat) : State :=
  let v := govVid s d
  let b := govBias s d
  if 0 < b then setPoint s d v (b - 1)
  else if b = 0 ∧ govVmin s d < v then setPoint s d (v - 1) b
  else if v ≤ govVmin s d then
    (if govRev s d < b then setPoint s d v (b - 1) else if b < govRev s d then setPoint s d v (b + 1) else s)
  else s

/-- GOV_LOWER (R48); not in RETAIN (R416). -/
def execGovLower (d : Nat) (s : State) : Out :=
  onUnit (d < dieCount s.part) <|
    whenDue s (govAuto s d && decide (govWindow s d ≤ (dieX s d).window) && !dieRetained s d)
      (setDieX (lowerPoint s d) d { dieX s d with window := 0 })

/-- Whether a pod domain of a die is on its way to ON (R416). -/
def podsExiting (s : State) (d : Nat) : Bool :=
  [3, 4, 5, 6].any fun m => match (dom s d m).st with | .exiting _ => true | _ => false

/-- GOV_PREP_END (R50, R416): one window after the target Pulse PREP is cleared, and not before a pod domain that exits is ON. -/
def execGovPrepEnd (d : Nat) (s : State) : Out :=
  onUnit (d < dieCount s.part) <|
    match (dieX s d).prepTo with
    | some n =>
      whenDue s (decide (n ≤ pulseCount s) && !podsExiting s d)
        (setDieX (setFld s (Reg.GOV_STAT d) F.GOV_STAT_PREP 0) d { dieX s d with prepTo := none })
    | none => .next s

/-- The ages of a kernel's overruns one tick on; only those of the last 1,000 ticks matter (R57). -/
def tickAges (ovrs : List (Nat × Nat)) : List (Nat × Nat) :=
  (ovrs.map fun e => (e.1 + 1, e.2)).filter fun e => decide (e.1 < 1000)

/-- The third overrun within 1,000 ticks (R57): a raise below the ceiling, otherwise a report to the spares logic. Where its Pulse count
is 1,000 or more above the first's the governor does not act, and the first no longer counts. -/
def escalate (s : State) (d k : Nat) : State :=
  let kn := kern s d k
  let past := kn.ovrs ++ [(0, pulseCount s)]
  if past.length < 3 then setKern s d k { kn with ovrs := past }
  else if past.head?.any fun e => decide (e.2 + 1000 ≤ pulseCount s) then setKern s d k { kn with ovrs := past.drop 1 }
  else
    let t := setKern s d k { kn with ovrs := [] }
    if govAuto s d && decide (govVid s d < govCeiling s d) then
      let u := setPoint t d (min (govCeiling s d) (govVid s d + fld s (Reg.GOV_CFG d) F.GOV_CFG_OVRSTEP)) (govFwd s d)
      setDieX (satFld u (Reg.GOV_ESC_CNT d) F.GOV_ESC_CNT_BOOST) d { dieX u d with window := 0 }
    else spareTrigger (satFld t (Reg.GOV_ESC_CNT d) F.GOV_ESC_CNT_SPARE) d k 2

/-! ### Wear -/

/-- The time of a tick added to a kernel's wear average (R53), over its counted steps (R35). A wait of a slipface LDL (R36) lengthens the
time and adds no counted step (DESIGN CHOICE, assumption log 133: R53 does not say). -/
def wearTick (s : State) (d k : Nat) : State :=
  let kn := kern s d k
  match kn.margin with
  | some m =>
    setKern s d k { kn with wear :=
      { kn.wear with
        ticks := kn.wear.ticks + 1, time := kn.wear.time + ((deadlineTenths s : Int) - m).toNat
        steps := kn.wear.steps + kn.core.steps + (kn.core.halves + 1) / 2 } }
  | none => s

/-- Time per counted step of a kernel's average in progress, in millionths of a tenth of a nanosecond. -/
def stepTime (w : Wear) : Nat := w.time * 1000000 / max 1 w.steps

/-- The average that stands for a kernel in the die's median: one complete but not reported, else the one last reported,
else the one in progress. -/
def medianTime (w : Wear) : Nat := if 65536 ≤ w.ticks || w.last = 0 then stepTime w else w.last

/-- A number inserted into a rising list. -/
def sortInsert (x : Nat) : List Nat → List Nat
  | [] => [x]
  | y :: ys => if x ≤ y then x :: y :: ys else y :: sortInsert x ys

/-- The median of a list of numbers, the mean of the two in the middle where two are. -/
def median (xs : List Nat) : Nat :=
  let ys := xs.foldr sortInsert []
  (ys.getD ((ys.length - 1) / 2) 0 + ys.getD (ys.length / 2) 0) / 2

/-- Drift from the baseline in units of 0.1 %, normalised to the median of the die's running kernels (R53). -/
def wearDrift (s : State) (d k : Nat) : Int :=
  let running := (listed s d).filter fun j => (kern s d j).st = .run && decide (0 < (kern s d j).wear.ticks + (kern s d j).wear.last)
  let m := max 1 (median (running.map fun j => medianTime (kern s d j).wear))
  let norm := stepTime (kern s d k).wear * 1000000 / m
  let base := max 1 (Config.wearBaseline (d * 144 + k))
  openRound (((norm : Int) - base) * 1000) base (norm + base)

/-- WEAR_REPORT (R53, R440): after 65,536 ticks the drift is reported; the first drift above the limit is a trigger. -/
def execWearReport (d k : Nat) (s : State) : Out :=
  onUnit (d < dieCount s.part && k < 144) <|
    let kn := kern s d k
    whenDue s (decide (65536 ≤ kn.wear.ticks) && kn.st ≠ .retired)
      (let dr := wearDrift s d k
       let was := (tab s tWear d k).getLsbD 16
       let above := was || decide ((fld s (Reg.GOV_WEAR_LIM d) F.GOV_WEAR_LIM_LIMIT : Int) < dr)
       let w := BitVec.ofNat 32 (above.toNat * 2 ^ 16 + ofSigned dr 16)
       let t := setTab (setKern s d k { kn with wear := ⟨0, 0, 0, stepTime kn.wear⟩ }) tWear d k w
       if above && !was then spareTrigger t d k 3 else t)

end Sys2Proof.Machine
end

