-- ==== Sys2Proof/Machine/Admission.lean ====
section
/-! DEFINITION. Admission (R29, R34–R41, R156, R173, R183, R188, R490): what a program bank holds up to its first END,
the refusal codes, worst-case counts with slipface waits, and the check of a pod as it will be. -/
namespace Sys2Proof.Machine

/-! ### The slots of a bank -/

/-- The slots of a program bank from address `i` up to its first END, an undecodable word as `none`. -/
def bankSlots (s : State) (d k : Nat) (bankB : Bool) : Nat → Nat → List (Nat × Option Slot)
  | 0, _ => []
  | fuel + 1, i =>
    let sl := decodeWord (BitVec.ofNat 64 (loadBytes s (progA d k bankB i) 8))
    match sl with
    | some ⟨.al, _, .end_⟩ => [(i, sl)]
    | _ => (i, sl) :: bankSlots s d k bankB fuel (i + 1)

/-- The line that a slot stores to, main operation or parallel move; none for an NV word. -/
def slotStores (sl : Slot) : Option LineOp :=
  if sl.cond = .nv then none
  else match sl.op with
    | .stl _ l => some l
    | op => match opPM op with
      | .stlD l _ => some l
      | .stlA l _ => some l
      | _ => none

/-- The line that a slot loads, main operation or parallel move; none for an NV word. -/
def slotLoads (sl : Slot) : Option LineOp :=
  if sl.cond = .nv then none
  else match sl.op with
    | .ldl _ l => some l
    | op => match opPM op with
      | .ldl l _ => some l
      | _ => none

/-- Whether nothing has been written into a program bank: it holds 4,096 NOPs (R62, R82). -/
def bankBlank (s : State) (d k : Nat) (bankB : Bool) : Bool :=
  !s.mem.any fun c => progA d k bankB 0 ≤ c.1 && c.1 < progA d k bankB 4096

/-- An access of a slipface line by a bank, at half-step position `pos`: the start of an LDL slot's first run, or the
end of an STL slot's last run (R36). -/
structure SlipEv where
  pos   : Nat
  store : Bool
  line  : Nat
  addr  : Nat
deriving DecidableEq, Repr

/-- What admission finds in one bank: the first refusal of codes 0x1–0x7 (code 0: none) and its slot, the counted
half-steps without slipface waits, and the slipface accesses. -/
structure BankInfo where
  code : Nat
  addr : Nat
  half : Nat
  evs  : List SlipEv
deriving DecidableEq, Repr

/-- The operation at an address of a scanned bank; an NV word has none that matters here (R156). -/
def scanOp (sc : List (Nat × Option Slot)) (a : Nat) : Option Op :=
  match alGet a sc with
  | some (some sl) => if sl.cond = .nv then none else some sl.op
  | _ => none

/-- The target of BRA or immediate JMP at an address. -/
def scanTarget (a : Nat) (op : Op) : Option Int :=
  match op with
  | .bra d => some ((a : Int) + d)
  | .jmpImm t => some (t : Int)
  | _ => none

/-- The operations of a scanned bank with their addresses, NV and undecodable words left out. -/
def scanOps (sc : List (Nat × Option Slot)) : List (Nat × Op) :=
  sc.filterMap fun e => match e.2 with
    | some sl => if sl.cond = .nv then none else some (e.1, sl.op)
    | none => none

/-- A block repeat of a bank: its BRPT's address, level, count, and last body address. -/
structure Block where
  at_ : Nat
  lvl : Nat
  cnt : Nat
  le  : Nat
deriving DecidableEq, Repr

/-- The block repeats of a bank. -/
def scanBlocks (ops : List (Nat × Op)) : List Block :=
  ops.filterMap fun e => match e.2 with
    | .brpt l (.imm n) len => some ⟨e.1, l, n.toNat, e.1 + len⟩
    | _ => none

/-- Whether an address lies in a block's body. -/
def inBody (b : Block) (a : Nat) : Bool := b.at_ < a && a ≤ b.le

/-- Code 0x1 at a slot (R108, R142, R156): undefined or not legal in sample mode, a target at or above 4,096, or a word
that R142 bars from a delay slot. -/
def code1 (sc : List (Nat × Option Slot)) (a : Nat) (sl : Option Slot) : Bool :=
  match sl with
  | none => true
  | some sl =>
    sl.cond ≠ .nv &&
      (!legalOn .sample sl.op
        || (match scanTarget a sl.op with | some t => decide ((4096 : Int) ≤ t) | none => false)
        || (isFlow sl.op && [1, 2].any fun j => j ≤ a &&
              (match scanOp sc (a - j) with
               | some (.bra _) | some (.jmpImm _) | some (.jmpReg _) | some (.bsr _) | some .rts => true
               | _ => false)))

/-- Code 0x2 at a slot: a target at or before its own address. -/
def code2 (a : Nat) (op : Op) : Bool :=
  match scanTarget a op with | some t => decide (t ≤ (a : Int)) | none => false

/-- Register codes of RPC and LC0–LC2 (R92). -/
def isLoopReg (c : Nat) : Bool := c = 0x54 || (0x5B ≤ c && c ≤ 0x5D)

/-- Code 0x3 at a slot: LDI or MOV to RPC or LC0–LC2. -/
def code3 (op : Op) : Bool :=
  match op with
  | .ldi r _ | .mov r _ => isLoopReg r
  | _ => false

/-- Code 0x4 at a slot (R153, R154, R156): at a REP before a flow instruction or at the LE of a block; at a branch to a
repeated word, out of a body with its slots or target, or into one; at a BRPT that breaks the nesting or holds END. -/
def code4 (sc : List (Nat × Option Slot)) (ops : List (Nat × Op)) (bs : List Block) (fin : Nat) (a : Nat) (op : Op) :
    Bool :=
  match op with
  | .rep _ => (match scanOp sc (a + 1) with | some o => isFlowClass o | none => false) || bs.any fun b => b.le = a
  | .brpt l _ len =>
    decide (fin ≤ a + len) || bs.any fun b => inBody b a && (b.lvl = l || decide (b.le ≤ a + len))
  | _ =>
    match scanTarget a op with
    | none => false
    | some t =>
      let tn := t.toNat
      (decide (0 ≤ t) && ops.any fun e => match e.2 with | .rep _ => e.1 + 1 = tn | _ => false)
        || bs.any fun b =>
          if inBody b a then decide (b.le < a + 2) || t < 0 || !inBody b tn else decide (0 ≤ t) && inBody b tn

/-- Code 0x6 at a slot: a target past the first END. -/
def code6 (hasEnd : Bool) (fin a : Nat) (op : Op) : Bool :=
  hasEnd && match scanTarget a op with | some t => decide ((fin : Int) < t) | none => false

/-- The count of the REP that stands before a slot, 1 without one. -/
def repOf (sc : List (Nat × Option Slot)) (a : Nat) : Nat :=
  if a = 0 then 1 else match scanOp sc (a - 1) with | some (.rep (.imm n)) => n.toNat | _ => 1

/-- Product of the counts of the blocks that hold address `a` and not address `x`. -/
def blocksWithout (bs : List Block) (a x : Nat) : Nat :=
  bs.foldl (fun p b => if inBody b a && !inBody b x then p * b.cnt else p) 1

/-- Product of the counts of the blocks that hold address `a`. -/
def blocksOf (bs : List Block) (a : Nat) : Nat := bs.foldl (fun p b => if inBody b a then p * b.cnt else p) 1

/-- The half-steps of one pass over a slot with its REP (R34, R35, R109). -/
def slotHalf (hoard : Bool) (sc : List (Nat × Option Slot)) (a : Nat) (sl : Option Slot) : Nat :=
  match sl with
  | some sl => repOf sc a * (2 * slotCost false sl + (takesHoard hoard sl).toNat)
  | none => 0

/-- Slipface lines a slot accesses. -/
def slipOf (l : Option LineOp) : Option Nat := match l with | some (.slip n) => some n | _ => none

/-- Whether a slot reaches a Wadi line. -/
def isWadi (l : Option LineOp) : Bool := match l with | some (.wadi _) => true | _ => false

/-- The slot at which a line count first exceeds its limit (R183, code 0x7). A slot in a block-repeat body counts once per
iteration, as one under REP does (DESIGN CHOICE, assumption log 85: R183 names REP only). -/
def code7At (sc : List (Nat × Option Slot)) (bs : List Block) : Option Nat :=
  (sc.foldl (fun (acc : Nat × Nat × Option Nat) e =>
    match e.2 with
    | some sl =>
      let n := repOf sc e.1 * blocksOf bs e.1
      let r := acc.1 + if isWadi (slotLoads sl) then n else 0
      let w := acc.2.1 + if isWadi (slotStores sl) then n else 0
      (r, w, acc.2.2 <|> if 256 < r || 64 < w then some e.1 else none)
    | none => acc) (0, 0, none)).2.2

/-- What admission finds in program bank `bankB` of kernel `k` (R34–R36, R38, R156, R183). -/
def bankInfo (s : State) (d k : Nat) (bankB : Bool) : BankInfo :=
  if bankBlank s d k bankB then ⟨5, 0, 0, []⟩
  else
    let sc := bankSlots s d k bankB 4096 0
    let hoard := (reg s (Reg.KERNEL_BANKMODE d k)).getLsbD bankB.toNat
    let ops := scanOps sc
    let bs := scanBlocks ops
    let hasEnd := (ops.getLast?.map fun e => match e.2 with | .end_ => true | _ => false).getD false
    let fin := if hasEnd then sc.length - 1 else 4096
    let seven := code7At sc bs
    let codeAt (e : Nat × Option Slot) : Option Nat :=
      let op := (e.2.bind fun sl => if sl.cond = .nv then none else some sl.op).getD .nop
      if code1 sc e.1 e.2 then some 1
      else if code2 e.1 op then some 2
      else if code3 op then some 3
      else if code4 sc ops bs fin e.1 op then some 4
      else if code6 hasEnd fin e.1 op then some 6
      else if seven = some e.1 then some 7 else none
    let half := sc.foldl (fun n e => n + slotHalf hoard sc e.1 e.2 * blocksOf bs e.1) 0
    let firstAt (a : Nat) : Nat :=
      sc.foldl (fun n e => if e.1 < a then n + slotHalf hoard sc e.1 e.2 * blocksWithout bs e.1 a else n) 0
    let lastAt (a : Nat) : Nat :=
      half - sc.foldl (fun n e => if a < e.1 then n + slotHalf hoard sc e.1 e.2 * blocksWithout bs e.1 a else n) 0
    let evs := sc.flatMap fun e => match e.2 with
      | some sl =>
        (match slipOf (slotLoads sl) with | some n => [⟨firstAt e.1, false, n, e.1⟩] | none => []) ++
        (match slipOf (slotStores sl) with | some n => [⟨lastAt e.1, true, n, e.1⟩] | none => [])
      | none => []
    match sc.findSome? fun e => (codeAt e).map fun c => (c, e.1) with
    | some (c, a) => ⟨c, a, half, evs⟩
    | none => ⟨if hasEnd then 0 else 5, 0, half, evs⟩

/-- The check of a bank that asks for admission: a word that cannot be corrected is no word that admission can decode, and is
refused as an undefined one (DESIGN CHOICE, assumption log 111: R38 does not name it). -/
def checkInfo (s : State) (d k : Nat) (bankB : Bool) : BankInfo :=
  let b := bankInfo s d k bankB
  if bankBlank s d k bankB then b
  else match (bankSlots s d k bankB 4096 0).find? fun e => eccAt s (progA d k bankB e.1) = .double with
  | some e => if b.code = 0 || b.code = 5 || e.1 ≤ b.addr then { b with code := 1, addr := e.1 } else b
  | none => b

/-- The words of a bank that admission reads, single-bit errors corrected and counted (R63). -/
def scrubBank (s : State) (d k : Nat) (bankB : Bool) : State :=
  let lo := if bankB then 0x8000 else 0
  if bankBlank s d k bankB then s else scrubKernel s d k lo (lo + 8 * (bankSlots s d k bankB 4096 0).length)

/-! ### Slipface chains of a pod -/

/-- The kernels of a pod that take part after the change, with what their banks hold. -/
abbrev View := List (Nat × BankInfo)

/-- The producers of a slipface line: kernel and STL event. -/
def producers (v : View) (n : Nat) : List (Nat × SlipEv) :=
  v.flatMap fun e => (e.2.evs.filter fun x => x.store && x.line = n).map fun x => (e.1, x)

/-- Whether line `n`'s STL waits for line `m`: its producer reaches an LDL of `m` before the STL's last run ends; for
the producer's own line, an LDL before the STL (R36, R132). -/
def dependsOn (v : View) (n m : Nat) : Bool :=
  (producers v n).any fun p =>
    match alGet p.1 v with
    | some b => b.evs.any fun x => !x.store && x.line = m &&
        (if (producers v m).any fun q => q.1 = p.1 then decide (x.addr < p.2.addr) && decide (n = m)
         else decide (x.pos < p.2.pos))
    | none => false

/-- The lines that line `n` waits for, at any remove. -/
def reaches (v : View) (lines : List Nat) (n : Nat) : List Nat :=
  (List.range lines.length).foldl
    (fun acc _ => lines.filter fun m => acc.contains m || dependsOn v n m || acc.any fun x => dependsOn v x m) []

/-- The slipface lines of a view. -/
def viewLines (v : View) : List Nat := (v.flatMap fun e => e.2.evs.map (·.line)).eraseDups

/-- The lines concerned by code 0x8 (R38, R490): read with no producer, with two or more producers, or on a cycle. -/
def badLines (v : View) : List Nat :=
  let lines := viewLines v
  lines.filter fun n =>
    decide (2 ≤ (producers v n).length)
      || ((v.any fun e => e.2.evs.any fun x => !x.store && x.line = n) && (producers v n).isEmpty)
      || (reaches v lines n).contains n

/-- The wait that a kernel has gathered before one of its events: half-steps, and the producers of the lines of the chain,
first line first (R36, R188). -/
structure Delay8 where
  half : Nat
  path : List Nat
deriving DecidableEq, Repr

/-- When line `n` is available: its producer, the position of the STL's last run with its producer's waits, and the
producers of the chain. -/
def lineReady (v : View) (waits : List (Nat × List (SlipEv × Delay8))) (n : Nat) : Option (Nat × Nat × List Nat) :=
  match producers v n with
  | [(k, x)] =>
    let w := (alGet k waits).getD []
    let got := w.foldl (fun (acc : Delay8) e => if e.1.pos < x.pos then e.2 else acc) ⟨0, []⟩
    some (k, x.pos + got.half, got.path ++ [k])
  | _ => none

/-- The waits of one kernel's LDLs in order, given when the lines are available. -/
def kernelWaits (v : View) (waits : List (Nat × List (SlipEv × Delay8))) (k : Nat) (b : BankInfo) :
    List (SlipEv × Delay8) :=
  ((b.evs.filter fun x => !x.store).foldl (fun (acc : List (SlipEv × Delay8) × Delay8) x =>
    let cur := acc.2
    let new : Delay8 := match lineReady v waits x.line with
      | some (p, t, o) => if p ≠ k && x.pos + cur.half < t then ⟨t - x.pos, o⟩ else cur
      | none => cur
    (acc.1 ++ [(x, new)], new)) ([], ⟨0, []⟩)).1

/-- The waits of every kernel, by as many rounds as there are lines. -/
def viewWaits (v : View) : List (Nat × List (SlipEv × Delay8)) :=
  (List.range ((viewLines v).length + 1)).foldl
    (fun w _ => v.map fun e => (e.1, kernelWaits v w e.1 e.2)) []

/-- A kernel's worst-case count in steps, rounded up once (R35), and the producers of its longest chain, first line
first. -/
def worstCount (waits : List (Nat × List (SlipEv × Delay8))) (k : Nat) (b : BankInfo) : Nat × List Nat :=
  let w := match ((alGet k waits).getD []).getLast? with | some e => e.2 | none => ⟨0, []⟩
  ((b.half + w.half + 1) / 2, w.path)

/-- The worst-case count of a bank alone, without slipface waits. -/
def loneCount (b : BankInfo) : Nat := (b.half + 1) / 2

/-! ### The check of a pod -/

/-- A kernel that asks for admission: its die-local number, the bank, what it and the active bank hold, whether the active
bank runs on if the kernel is refused, and whether the kernel runs if it is admitted. -/
structure Cand where
  k     : Nat
  bankB : Bool
  info  : BankInfo
  act   : BankInfo
  keeps : Bool
  joins : Bool
deriving DecidableEq, Repr

/-- Refusals of a check, in the order found: kernel and code, with the slot address for codes 0x1–0x7 and the worst-case
count found for codes 0x9 and 0xB. -/
abbrev Refusals := List (Nat × Nat × Nat)

/-- The kernels of pod `p` that run or are parked and do not ask, with their active banks, as they stand at the check: a pending
stop, or the earlier target of another pending group, counts for nothing yet (DESIGN CHOICE, assumption log 102). -/
def standing (s : State) (d p : Nat) (cs : List Cand) : View :=
  ((List.range 18).map fun i => p * 18 + i).filterMap fun k =>
    let kn := kern s d k
    if (kn.st = .run || kn.st = .parked || kn.enter) && !cs.any fun c => c.k = k
    then some (k, bankInfo s d k kn.pbank) else none

/-- The view of a pod with some candidates refused. -/
def viewOf (base : View) (cs : List Cand) (ref : Refusals) : View :=
  base ++ cs.filterMap fun c =>
    if ref.any fun r => r.1 = c.k then (if c.keeps then some (c.k, c.act) else none)
    else if c.joins then some (c.k, c.info) else none

/-- The candidates not refused so far. -/
def liveCands (cs : List Cand) (ref : Refusals) : List Cand := cs.filter fun c => !ref.any fun r => r.1 = c.k

/-- Every kernel's worst-case count with the producers of its longest chain; a candidate that does not run counts alone. -/
def podCounts (base : View) (cs : List Cand) (ref : Refusals) : List (Nat × Nat × List Nat) :=
  let v := viewOf base cs ref
  let waits := viewWaits v
  v.map (fun e => (e.1, worstCount waits e.1 e.2))
    ++ ((liveCands cs ref).filter fun c => !c.joins).map fun c => (c.k, loneCount c.info, [])

/-- The candidates that answer for the kernels whose count is above `limit` (R37, R188): such a kernel itself, or, where it
does not ask for admission, the first candidate among the producers of its chain. -/
def blamedFor (limit : Nat) (counts : List (Nat × Nat × List Nat)) (live : List Cand) : List Nat :=
  (counts.filter fun e => decide (limit < e.2.1)).filterMap fun e =>
    if live.any fun c => c.k = e.1 then some e.1 else e.2.2.find? fun k => live.any fun c => c.k = k

/-- A kernel's count among the counts of a pod. -/
def countIn (counts : List (Nat × Nat × List Nat)) (k : Nat) : Nat := ((alGet k counts).map (·.1)).getD 0

/-- One round of codes 0x8 and 0x9 (R37, R188, R490). -/
def chainRound (s : State) (base : View) (cs : List Cand) (ref : Refusals) : Refusals :=
  let bad := badLines (viewOf base cs ref)
  let live := liveCands cs ref
  let touches (b : BankInfo) : Bool := b.evs.any fun x => bad.contains x.line
  let eight : Refusals := (live.filter fun c => touches c.info || touches c.act).map fun c => (c.k, 8, 0)
  if !eight.isEmpty then eight
  else
    let counts := podCounts base cs ref
    let blamed := blamedFor (stepBudget s) counts live
    (live.filter fun c => blamed.contains c.k).map fun c => (c.k, 9, countIn counts c.k)

/-- The Hoard banks a slot owns with a program bank active (R172). -/
def ownSet (s : State) (d k : Nat) (bankB : Bool) : Nat :=
  fld s (Reg.POD_HOWN d (k / 18) (k % 18)) (if bankB then F.POD_HOWN_BANKB else F.POD_HOWN_BANKA)

/-- The set that a candidate counts with (R173): a swapping kernel holds the set of its new bank, as if it were admitted,
until it is refused with code 0xB, and then that of its active bank if it keeps running; a kernel that asks for its active
bank and is refused owns nothing, for it does not run. -/
def candSet (s : State) (d : Nat) (ref : Refusals) (c : Cand) : Nat :=
  let active := (kern s d c.k).pbank
  if !c.joins then 0
  else if c.bankB = active then (if ref.any fun r => r.1 = c.k then 0 else ownSet s d c.k c.bankB)
  else if ref.any fun r => r.1 = c.k && r.2.1 = 0xB then (if c.keeps then ownSet s d c.k active else 0)
  else ownSet s d c.k c.bankB

/-- The next code 0xB refusal (R173): the highest-numbered candidate owner of a bank with three or more owners, the lowest such
bank first (DESIGN CHOICE, assumption log 101). -/
def hoardRefusal (s : State) (d : Nat) (base : View) (cs : List Cand) (ref : Refusals) : Option Nat :=
  let live := liveCands cs ref
  let sets := base.map (fun e => (e.1, ownSet s d e.1 (kern s d e.1).pbank)) ++ cs.map fun c => (c.k, candSet s d ref c)
  (List.range 16).findSome? fun b =>
    let own := sets.filter fun e => e.2.testBit b
    if own.length < 3 then none
    else (live.filter fun c => own.any fun e => e.1 = c.k).foldl
      (fun (m : Option Nat) c => match m with | some x => some (max x c.k) | none => some c.k) none

/-- The check of one pod (R38, R41, R173, R188, R490): the refusals, and every kernel's worst-case count as the pod will
be. `lead` says whether a higher highest count must be refused with code 0xA, given the die's highest. -/
def admitPod (s : State) (d p : Nat) (cs : List Cand) (lead : Option Nat) : Refusals × List (Nat × Nat) :=
  let base := standing s d p cs
  let first : Refusals := cs.filterMap fun c => if c.info.code = 0 then none else some (c.k, c.info.code, c.info.addr)
  let chain (ref : Refusals) : Refusals :=
    (List.range (cs.length + 1)).foldl (fun r _ => r ++ chainRound s base cs r) ref
  let r1 := chain first
  let r2 : Refusals := match lead with
    | some high =>
      let blamed := blamedFor high ((podCounts base cs r1).filter fun e => !(liveCands cs r1).any fun c => c.k = e.1 && !c.joins)
        (liveCands cs r1)
      r1 ++ ((liveCands cs r1).filter fun c => blamed.contains c.k).map fun c => (c.k, 0xA, 0)
    | none => r1
  let r3 := (List.range (cs.length + 1)).foldl (fun r _ => match hoardRefusal s d base cs r with
    | some k => chain (r ++ [(k, 0xB, countIn (podCounts base cs r) k)])
    | none => r) (chain r2)
  (r3, (podCounts base cs r3).map fun e => (e.1, e.2.1))

/-- The die's highest admitted count (R50): the largest count among its kernels in RUN or PARKED or about to enter RUN. A kernel that is
STOPPED or FAULTED has none (DESIGN CHOICE, assumption log 134: R50 does not say whose counts). -/
def highestCount (s : State) (d : Nat) : Nat :=
  (listed s d).foldl (fun m k =>
    let kn := kern s d k
    if kn.st = .run || kn.st = .parked || kn.enter then max m (fld s (Reg.KERNEL_STEPS d k) F.KERNEL_STEPS_COUNT) else m) 0

/-- A refusal logged and counted (R38): PULSE_ADMIT_LOG holds the first since it was cleared. -/
def logRefusal (s : State) (d k : Nat) (bankB : Bool) (code a : Nat) : State :=
  let t := incReg s (Reg.PULSE_ADMIT_CNT d)
  if bitF s (Reg.PULSE_ADMIT_LOG d) F.PULSE_ADMIT_LOG_VALID then t
  else setReg t (Reg.PULSE_ADMIT_LOG d) (BitVec.ofNat 32
    (2 ^ 31 + code * 2 ^ 24 + bankB.toNat * 2 ^ 23 + k * 2 ^ 12 + (if code = 5 || 8 ≤ code then 0 else a)))

/-- KERNEL_STEPS.COUNT or SHADOW from a count: 0xFFFF above 65,534. -/
def stepsField (n : Nat) : Nat := if 65534 < n then 0xFFFF else n

/-- KMODE.HOARD of slot `j` takes the field of its active bank in the BANKMODE of kernel `k`, whose program it runs (R75,
R434). -/
def loadHoardMode (s : State) (d k j : Nat) : State :=
  let kn := kern s d j
  let h := (reg s (Reg.KERNEL_BANKMODE d k)).getLsbD kn.pbank.toNat
  let m : BitVec 3 := BitVec.ofNat 3 (kn.core.r.kmode.toNat - (kn.core.r.kmode.getLsbD 1).toNat * 2 + h.toNat * 2)
  setKern s d j { kn with core := { kn.core with r := { kn.core.r with kmode := m } } }

/-- KERNEL_STEPS.COUNT of every kernel of a pod whose count changed (R188). -/
def recountPod (s : State) (d p : Nat) : State :=
  let v := standing s d p []
  let w := viewWaits v
  each v (fun e t => setFld t (Reg.KERNEL_STEPS d e.1) F.KERNEL_STEPS_COUNT (stepsField (worstCount w e.1 e.2).1)) s

/-! ### Admission at start and at a rejoin -/

/-- The kernels of a pod that R29 checks: HELD, RUN, PARKED, or admitted and about to enter RUN. -/
def startCands (s : State) (d p : Nat) : List Cand :=
  ((List.range 18).map fun i => p * 18 + i).filterMap fun k =>
    let kn := kern s d k
    if kn.st = .held || kn.st = .run || kn.st = .parked || kn.enter || kn.rejoin
    then some ⟨k, kn.pbank, checkInfo s d k kn.pbank, bankInfo s d k kn.pbank, false, true⟩ else none

/-- The worst-case count that a check of an active bank finds (R37): that of the pod as it will be, or as it stood where the
kernel was refused for its count or its Hoard banks; without slipface waits where these have none (code 0x8). -/
def foundCount (res : Refusals × List (Nat × Nat)) (c : Cand) : Nat :=
  match res.1.find? fun r => r.1 = c.k with
  | some (_, code, n) => if code = 9 || code = 0xB then n else loneCount c.info
  | none => (alGet c.k res.2).getD (loneCount c.info)

/-- A kernel after the check at start: refused ones are HELD with the refusal logged, HELD and rejoining ones that pass
enter RUN (R29, R80). -/
def startKernel (d : Nat) (res : Refusals × List (Nat × Nat)) (c : Cand) (s : State) : State :=
  let kn := { kern s d c.k with enter := false, rejoin := false, spoilt := false }
  let t := if c.info.code = 0 then
      setFld s (Reg.KERNEL_STEPS d c.k) F.KERNEL_STEPS_COUNT (stepsField (foundCount res c)) else s
  match res.1.find? fun r => r.1 = c.k with
  | some (_, code, a) => logRefusal (setKern t d c.k { kn with st := .held, active := false }) d c.k c.bankB code a
  | none => setKern t d c.k (if kn.st = .parked then kn else enterRun kn)

/-- START_ADMISSION of one pod (R29), with KMODE.HOARD of every kernel loaded (R75). -/
def admitStart (d p : Nat) (s : State) : State :=
  let t := each ((List.range 18).map fun i => p * 18 + i) (fun k t => loadHoardMode t d k k) s
  let t := each (startCands t d p) (fun c u => scrubBank u d c.k c.bankB) t
  let cs := startCands t d p
  if cs.all fun c => c.info.code = 5 && c.info.half = 0 then
    each cs (startKernel d (cs.map fun c => (c.k, 5, 0), [])) t
  else each cs (startKernel d (admitPod t d p cs none)) t

/-- The kernels of a die held by R29, as PULSE_STAT.HELD counts them. -/
def countHeld (s : State) (d : Nat) : Nat :=
  ((List.range 144).filter fun k => (kern s d k).st = .held).length

/-- The completion of a rejoin's admission (R80): the kernel enters RUN at the next Pulse or becomes HELD. -/
def admitRejoin (d k : Nat) (s : State) : State :=
  let kn := kern s d k
  let s := scrubBank s d k kn.pbank
  let c : Cand := ⟨k, kn.pbank, checkInfo s d k kn.pbank, bankInfo s d k kn.pbank, false, true⟩
  let high := highestCount s d
  let res := admitPod s d (k / 18) [c] none
  let t := if c.info.code = 0 then
      setFld s (Reg.KERNEL_STEPS d k) F.KERNEL_STEPS_COUNT (stepsField (foundCount res c)) else s
  match res.1.find? fun r => r.1 = k with
  | some (_, code, a) =>
    logRefusal (setKern t d k { kn with st := .held, rejoin := false, enter := false, spoilt := false }) d k c.bankB code a
  | none =>
    let u := each res.2 (fun e v => setFld v (Reg.KERNEL_STEPS d e.1) F.KERNEL_STEPS_COUNT (stepsField e.2))
      (setKern t d k { kn with rejoin := false, enter := true, spoilt := false })
    let u := loadHoardMode u d k k
    if res.2.any fun e => decide (high < e.2) then govPrep u d (pulseCount s + 1) else u

/-! ### Admission of a swap -/

/-- Whether a member of a program swap runs after it (R29, R234); STOPPED and FAULTED members keep their state. -/
def joinsPod (k : KState) : Bool := k = .run || k = .parked || k = .held

/-- The shadow-bank candidates of a program swap in one pod. -/
def swapCands (s : State) (d p : Nat) (ms : List Nat) : List Cand :=
  (ms.filter fun k => k / 18 = p).map fun k =>
    let kn := kern s d k
    ⟨k, !kn.pbank, checkInfo s d k !kn.pbank, bankInfo s d k kn.pbank, kn.st = .run || kn.st = .parked, joinsPod kn.st⟩

/-- Refusals in ascending kernel order. -/
def sortRefusals (r : Refusals) : Refusals :=
  (List.range 144).filterMap fun k => r.find? fun e => e.1 = k

/-- The check of a program swap's kernel members on one die (R37–R39, R226): KERNEL_STEPS.SHADOW holds the count of every
member admitted and 0 of every member refused; answers the first refusal, lowest kernel number first. -/
def admitSwap (d : Nat) (ms : List Nat) (target : Nat) (s : State) : State × Option (Nat × Nat) :=
  let s := each ms (fun k t => scrubBank t d k !(kern t d k).pbank) s
  let high := highestCount s d
  let lead := if target < pulseCount s + 50 then some high else none
  let pods := (List.range 8).filter fun p => ms.any fun k => k / 18 = p
  let res := pods.map fun p => admitPod s d p (swapCands s d p ms) lead
  let ref := sortRefusals (res.flatMap (·.1))
  let counts := res.flatMap (·.2)
  let t := each ms (fun k t =>
    match ref.find? fun e => e.1 = k with
    | some (_, code, a) =>
      logRefusal (setFld t (Reg.KERNEL_STEPS d k) F.KERNEL_STEPS_SHADOW 0) d k (!(kern s d k).pbank) code a
    | none =>
      setFld t (Reg.KERNEL_STEPS d k) F.KERNEL_STEPS_SHADOW
        (stepsField ((alGet k counts).getD (loneCount (bankInfo s d k !(kern s d k).pbank))))) s
  let raises := counts.any fun e => decide (high < e.2) && (kern s d e.1).st ≠ .stopped && (kern s d e.1).st ≠ .faulted
  (if raises then govPrep t d target else t, ref.head?.map fun e => (e.1, e.2.1))

/-- The withdrawal of a shadow bank's admission (R40). -/
def withdraw (s : State) (d k : Nat) : State := setFld s (Reg.KERNEL_STEPS d k) F.KERNEL_STEPS_SHADOW 0

end Sys2Proof.Machine
end

