-- ==== Sys2Proof/Machine/Domain.lean ====
section
/-! DEFINITION. Power domains, votes and targets (R408–R413, R417, R421–R423), the package state (R414), and the limits
that a domain's state puts on register pages (R463, R464). -/
namespace Sys2Proof.Machine

/-! ### Votes -/

/-- Field `m` of a word of two-bit levels; 3 acts as 2. -/
def voteField (w : Word) (m : Nat) : Nat := min 2 (wField w (2 * m + 1) (2 * m))

/-- Whether a ring of port `m`, or a status ring of a biphase port (R275), lies in LPDDR4X. -/
def ringInDdr (s : State) (d m : Nat) : Bool :=
  let status (size base : Nat) : Bool :=
    fld s size F.BIP_SRXSIZE_SIZE ≠ 0 && decide (0x8_0000_0000 ≤ fld s base F.BIP_SRXBASE_ADDR * 128)
  (m < 4 && fld s (Reg.SAP_CFG d m) F.SAP_CFG_MODE = 5
      && (status (Reg.BIP_SRXSIZE d m) (Reg.BIP_SRXBASE d m) || status (Reg.BIP_STXSIZE d m) (Reg.BIP_STXBASE d m)))
  ||
  (fld s (Reg.SAP_RXR_SIZE d m) F.SAP_RXR_SIZE_SIZE ≠ 0
      && decide (0x8_0000_0000 ≤ fld s (Reg.SAP_RXR_BASE d m) F.SAP_RXR_BASE_ADDR * 64))
    || (fld s (Reg.SAP_TXR_SIZE d m) F.SAP_TXR_SIZE_SIZE ≠ 0
      && decide (0x8_0000_0000 ≤ fld s (Reg.SAP_TXR_BASE d m) F.SAP_TXR_BASE_ADDR * 64))

/-- Whether a pod is parked and no wake has placed its ON vote (R303, R304). -/
def podParked (s : State) (d p : Nat) : Bool :=
  bitF s (Reg.SILENCE_PARK_STAT d p) F.SILENCE_PARK_STAT_PARKED && (podX s d p).wakeIn.isNone

/-- Whether a pod holds its domain ON (R410). -/
def podBusy (s : State) (d p : Nat) : Bool :=
  (podX s d p).wakeIn.isSome || (List.range 18).any fun i =>
    match (kern s d (p * 18 + i)).st with
    | .run | .shadow | .standby | .test => true
    | _ => false

/-- A kernel of die `d` named by the KMASK of group `g` (R224). -/
def groupKernels (s : State) (d g : Nat) : List Nat :=
  (List.range 144).filter fun k => (tab s tSgrp d (g * 16 + k / 32)).getLsbD (k % 32)

/-- The bridge ports and caravan engines of group `g` on die `d`. -/
def groupPorts (s : State) (d g : Nat) : List Nat :=
  (List.range 3).filter fun n => (tab s tSgrp d (g * 16 + 5)).getLsbD (8 + n)
def groupEngines (s : State) (d g : Nat) : List Nat :=
  (List.range 8).filter fun n => (tab s tSgrp d (g * 16 + 5)).getLsbD n

/-- The remote devices of group `g` in the entry of die `d`. -/
def groupRemotes (s : State) (d g : Nat) : List Nat :=
  (List.range (min 8 (wField (tab s tSgrp d (g * 16 + 6)) 3 0))).map fun i =>
    let w := tab s tSgrp d (g * 16 + 7 + i / 2)
    if i % 2 = 0 then wField w 15 0 else wField w 31 16

/-- The enabled fader entries of group `g` on die `d`. -/
def groupFaders (s : State) (d g : Nat) : List Nat :=
  (tabRange s tFade d 0 2048).filterMap fun e =>
    if e.1 % 4 = 0 && e.2.getLsbD 31 && wField e.2 15 8 = g then some (e.1 / 4) else none

/-- Requests that are pending (R230): until their result is recorded. -/
def pendingSwaps (s : State) : List SwapReq := s.swaps.filter fun r => !r.applied && !r.split

/-- Whether a meter's capture of this Pulse is still to come (R18 step 2, R291): it precedes the swaps, takeovers and kernels of the
tick. -/
def metersOwed (s : State) : Bool := s.meters.any fun e => e.2.ended.isSome && domLive s (e.1 / 512) pdStew

/-- The committed requests that stand at their target Pulse and have not been applied. -/
def dueSwaps (s : State) : List SwapReq :=
  s.swaps.filter fun r => r.committed && !r.applied && decide (r.target ≤ pulseCount s)

/-- The pods of a die that hold a member of a pending request, and whether the die holds any member (R230). A fader is a member
of its die but holds no pod: the pod of the kernel it serves is none that holds a member (DESIGN CHOICE, assumption log 107). -/
def swapPods (s : State) (d : Nat) : List Nat :=
  (pendingSwaps s).flatMap fun r => (groupKernels s d r.group).map (· / 18) ++ groupEngines s d r.group
def swapHere (s : State) (d : Nat) : Bool :=
  (pendingSwaps s).any fun r => !(groupKernels s d r.group).isEmpty || !(groupEngines s d r.group).isEmpty
    || !(groupPorts s d r.group).isEmpty || !(groupFaders s d r.group).isEmpty

/-- The level that client `c` holds on domain `m` of die `d` (R410). -/
def voteOf (s : State) (d c m : Nat) : Nat :=
  let on (b : Bool) : Nat := if b then 2 else 0
  if c ≤ 2 || (33 ≤ c && c ≤ 47) || c = 58 then voteField (tab s tVote d c) m
  else if c ≤ 12 then
    let p := c - 3
    let up := decide (fld s (Reg.SAP_STAT d p) F.SAP_STAT_STATE ≠ 0)
    if m = pdSap || m = pdStew then on up
    else if m = pdSrc then on (up && bitF s (Reg.SAP_CFG d p) F.SAP_CFG_PATH)
    else if m = pdDdr then on (up && ringInDdr s d p) else 0
  else if c = 13 then on ((m = pdLink || m = pdStew) && bitF s (Reg.LINK_CTL d) F.LINK_CTL_EN)
  else if c ≤ 21 then
    let p := c - 14
    if podParked s d p then (if m = pdStew then 2 else if m = pdPod p then 1 else 0)
    else on (podBusy s d p && (m = pdPod p || m = pdStew))
  else if c ≤ 29 then on (m = pdDdr && bitF s (Reg.CARAVAN_CTL d (c - 22)) F.CARAVAN_CTL_EN)
  else if c = 30 then on ((m = pdStew && swapHere s d) || (swapPods s d).any fun p => pdPod p = m)
  else if c = 31 then on (fld s (Reg.BOOT_DBG 0) F.BOOT_DBG_PERM ≠ 0)
  else if c = 32 then on ((reg s (Reg.PWR_HOLD 0)).getLsbD d)
  else 0

/-- The highest level of any client on a domain: what PWR_DVOTE shows. -/
def highestVote (s : State) (d m : Nat) : Nat := (List.range 64).foldl (fun n c => max n (voteOf s d c m)) 0

/-- The target that a start-up mode in effect gives a domain (R417). -/
def startupTarget (s : State) (d m : Nat) : Option Nat :=
  if (dieX s 0).mode = 2 then some (if m = pdStew then 1 else 0)
  else if (dieX s d).mode = 1 then some 1 else none

/-- The target of a domain (R411, R417). -/
def domTarget (s : State) (d m : Nat) : Nat :=
  match startupTarget s d m with
  | some t => max t (voteOf s d 58 m)
  | none => if m = pdStew then max 1 (highestVote s d m) else highestVote s d m

/-! ### Refusals, aborts and the queue -/

/-- A refusal or abort counted and, if the record is empty, recorded (R422). -/
def noteEntry (s : State) (d : Nat) (abort : Bool) (client domain : Nat) : State :=
  let t := satFld s (Reg.PWR_REFCNT d) (if abort then F.PWR_REFCNT_ABORTED else F.PWR_REFCNT_REFUSED)
  let u := setFld t (Reg.PWR_EVT d) (if abort then F.PWR_EVT_ABORT else F.PWR_EVT_REFUSE) 1
  if bitF s (Reg.PWR_REFUSE d) F.PWR_REFUSE_VALID then u
  else setReg u (Reg.PWR_REFUSE d)
    (BitVec.ofNat 32 (2 ^ 31 + abort.toNat * 2 ^ 30 + client * 2 ^ 24 + domain * 2 ^ 20))

/-- The client named for an abort: the wake source, or the lowest-numbered client that holds the new level. -/
def abortClient (s : State) (d m lvl : Nat) (wake : Option Nat) : Nat :=
  match wake with
  | some w => w
  | none => ((List.range 64).find? fun c => voteOf s d c m = lvl).getD 0

/-- The stable state at a level. -/
def domAt (lvl : Nat) : DomSt := if lvl = 0 then .off else if lvl = 1 then .ret else .on

/-- Where an entry that is aborted or refused leaves its domain (R421, R422): ON, by an exit where the entry began in RET. -/
def entryUndone (from_ : Nat) : DomSt := if from_ = 2 then .on else .exiting from_

/-- An enabled level-sensed WAKE pin whose event is still active (R421, R424), as the client it is named by. -/
def activePin (s : State) : Option Nat :=
  (s.keep.pinEv.find? fun i => bitF s (Reg.WAKE_PIN 0 i) F.WAKE_PIN_EN && bitF s (Reg.WAKE_PIN 0 i) F.WAKE_PIN_LEVEL).map
    (48 + ·)

/-- The client that refuses an entry of domain `m` of die `d` now (R421), if any. -/
def entryRefuser (s : State) (d m : Nat) : Option Nat :=
  if m = pdStew then
    ((List.range 2).find? fun i => (stew s d i).st = .run || (stew s d i).st = .debug) <|>
      activePin s
  else none

/-- A refusal of an entry, counted once while it is requested (R421, R422). -/
def refuseEntry (s : State) (d m c : Nat) : State :=
  let x := dom s d m
  if x.refused then s else noteEntry (setDom s d m { x with refused := true }) d false c m

/-- The governor when a pod domain starts an exit, and when it is ON again (R416). -/
def exitPrep (s : State) (d m : Nat) : State :=
  if 3 ≤ m && m ≤ 6 then govPrep s d (nextPulse s) else s

/-- A domain put into state `x.st`, with what the start of an exit brings (R416). -/
def moveDom (s : State) (d m : Nat) (x : DomX) : State :=
  match x.st with
  | .exiting _ => exitPrep (setDom s d m x) d m
  | _ => setDom s d m x

/-- An entry before its pad-hold point refused where a condition of R421 has come to hold. -/
def recheckEntry (d m : Nat) (s : State) : State :=
  let x := dom s d m
  match x.st, entryRefuser s d m with
  | .entering _ from_ false, some c => refuseEntry (moveDom s d m { x with st := entryUndone from_ }) d m c
  | _, _ => s

/-- One domain after its target may have changed (R422, R423): an abort before the pad-hold point, otherwise a queued
target during a transition. -/
def retarget (wake : Option Nat) (d m : Nat) (s : State) : State :=
  let x := dom s d m
  let t := domTarget s d m
  if t = x.tgt then s
  else
    let y : DomX := { x with tgt := t, refused := false }
    let queue : State :=
      setDom (satFld s (Reg.PWR_QCNT d) (if x.queued.isSome then F.PWR_QCNT_REPLACED else F.PWR_QCNT_QUEUED)) d m
        { y with queued := some t }
    match x.st with
    | .entering lvl from_ false =>
      if lvl < t then
        noteEntry (moveDom s d m { y with st := entryUndone from_, queued := none }) d true (abortClient s d m t wake) m
      else queue
    | .entering _ _ true => queue
    | .exiting _ => queue
    | _ => setDom s d m y

/-- One domain after votes, modes or the conditions of R421 may have changed. -/
def syncDomain (wake : Option Nat) (d m : Nat) (s : State) : State := recheckEntry d m (retarget wake d m s)

/-- The domains of one die brought in line with the votes. -/
def powerSync (s : State) (d : Nat) : State := each (List.range 9) (syncDomain none d) s

/-- The domains of every die brought in line with the votes, after an event that names `wake` as its source. -/
def powerSyncAll (s : State) (wake : Option Nat) : State :=
  each (dies s) (fun d t => each (List.range 9) (syncDomain wake d) t) s

/-! ### Held pads -/

/-- Whether the pads of a domain are held (R420). -/
def padHeld (s : State) (d m : Nat) : Bool := (fld s (Reg.PWR_PADSTAT d) F.PWR_PADSTAT_HELD).testBit m

/-- An event that reaches the block over the pads of a domain: while they are held their input is ignored (R420). -/
def fromPads (s : State) (d m : Nat) (o : Out) : Out := if padHeld s d m then .next s else o

/-! ### What register pages answer -/

/-- The domain that a register page lies in (R462): `none` for the die base and the WAKE page. -/
def pageDomain (q : Nat) : Option Nat :=
  if q ≤ 3 || q = 9 || q = 0xA then none
  else if q = 4 then none
  else if 0x40 ≤ q && q ≤ 0x49 || q = 0x58 then some pdSap
  else if 0x50 ≤ q && q ≤ 0x55 then some pdSrc
  else if q = 0x68 then some pdLink
  else if q = 0x70 then some pdDdr
  else if 0x78 ≤ q && q ≤ 0x7F then some (pdPod (q - 0x78))
  else if 0x80 ≤ q && q ≤ 0x87 then some (pdPod (q - 0x80))
  else some pdStew

/-- Whether the package's dies are out of reset. -/
def running (s : State) : Bool := s.keep.seq = .run

end Sys2Proof.Machine
end

