-- ==== Sys2Proof/Machine/LinkQ.lean ====
section
/-! DEFINITION. Packets of the Roarn link (R319–R324): the queues of the ports, routes, and what is sent where. -/
namespace Sys2Proof.Machine

/-- Packet types (R319). -/
def pkRdreq : Nat := 1
def pkWrreq : Nat := 2
def pkRdrsp : Nat := 3
def pkWrack : Nat := 4
def pkSwap : Nat := 5
def pkStart : Nat := 6
def pkHost : Nat := 7

/-- LINK_ID (R320). -/
def linkId (s : State) : Nat := fld s (Reg.LINK_ID 0) F.LINK_ID_ID

/-- Whether a die's port is UP. -/
def linkUp (s : State) (d : Nat) : Bool := fld s (Reg.LINK_STAT d) F.LINK_STAT_STATE = 7 && domLive s d pdLink

/-- The blocks that a packet takes (R319). -/
def packetBlocks (p : Packet) : Nat := 1 + if p.ty = pkRdreq then 0 else (p.words + 3) / 4

/-- SWAP and START packets leave ahead of every other packet (R324). -/
def urgent (p : Packet) : Bool := p.ty = pkSwap || p.ty = pkStart

/-- A packet placed in a port's queue: an urgent one behind the urgent ones, a fast response behind those (R324, R326),
any other at the end. -/
def placePacket (q : List Packet) (p : Packet) (fast : Bool) : List Packet :=
  if urgent p || fast then q.takeWhile urgent ++ [p] ++ q.dropWhile urgent else q ++ [p]

/-- A packet handed to the port of die `d`. -/
def portSend (s : State) (d : Nat) (p : Packet) (fast : Bool) : State :=
  let x := linkPort s d
  setLinkPort s d { x with queue := placePacket x.queue p fast }

/-- A packet dropped at a die and counted (R321, R323). -/
def countDrop (s : State) (d : Nat) : State := incFld s (Reg.LINK_PERR d) F.LINK_PERR_DROP

/-- The route of a destination by the active copy of the tables (R320). -/
def routeOf (s : State) (copy dst : Nat) : Option Nat :=
  let id := linkId s
  let w := if dst / 256 % 256 = id / 256 % 256 then tab s tRoute 0 ((copy * 2 + 1) * 256 + dst % 256)
           else tab s tRoute 0 (copy * 2 * 256 + dst / 256 % 256)
  if w.getLsbD 31 then some (wField w 2 0) else none

/-- The active copy of the route tables. -/
def routeCopy (s : State) : Nat := fld s (Reg.LINK_RTCFG 0) F.LINK_RTCFG_ACTIVE

/-- The UP port that a destination routes to. -/
def routePort (s : State) (dst : Nat) : Option Nat :=
  match routeOf s (routeCopy s) dst with
  | some d => if d < dieCount s.part && linkUp s d then some d else none
  | none => none

/-- The place of a destination's entry in a copy of the route tables (R320): kind × 256 + index. -/
def routeKey (s : State) (dst : Nat) : Nat :=
  if dst / 256 % 256 = linkId s / 256 % 256 then 256 + dst % 256 else dst / 256 % 256

/-- The ticks that a packet waits at the switching device (R324): those for which its route still holds after the last switch that
changed it, and no fewer than a packet of its source and destination that is still held. -/
def holdTicks (s : State) (d : Nat) (p : Packet) : Nat :=
  ((linkPort s d).heldPk.filter fun e => e.1.src = p.src && e.1.dst = p.dst).foldl (fun n e => max n e.2)
    ((alGet (routeKey s p.dst) s.linkDev.moved).getD 0)

/-- A routed packet sent, or held at the switching device (R324), behind a packet of its source and destination that is held. -/
def routeSend (s : State) (d : Nat) (p : Packet) (fast : Bool) : State :=
  let x := linkPort s d
  let n := holdTicks s d p
  if 0 < n || x.heldPk.any fun e => e.1.src = p.src && e.1.dst = p.dst then
    setLinkPort s d { x with heldPk := x.heldPk ++ [(p, n)] }
  else portSend s d p fast

/-- A broadcast that the device has seen, newest first; it remembers 64 (R322). -/
def noteSeen (s : State) (p : Packet) : State :=
  { s with linkDev := { s.linkDev with seen := ((p.src, p.tag) :: s.linkDev.seen).take 64 } }

/-- A packet of the device's own, sent from die `d`: by its route, or on every UP port if it is a broadcast; with SCOPE
0 only to partners in the device's region, and remembered (R320–R322). One for the device itself waits for delivery on die `d`; an unreachable
one is dropped and counted there. -/
def deviceSend (s : State) (d : Nat) (p : Packet) (fast : Bool) : State :=
  if p.bcast then
    each (dies s) (fun e t =>
      let near := fld t (Reg.LINK_PARTNER e) F.LINK_PARTNER_DEVID / 256 = linkId t / 256
      if linkUp t e && (p.scope || near) then portSend t e p fast else t) (noteSeen s p)
  else if p.dst = linkId s then setLinkPort s d { linkPort s d with own := (linkPort s d).own ++ [p] }
  else match routePort s p.dst with
    | some e => routeSend s e p fast
    | none => countDrop s d

/-- HOPS as the source sets it (R321). -/
def ownHops (s : State) (d : Nat) : Nat := fld s (Reg.LINK_CFG d) F.LINK_CFG_HOPLIM

/-- A SWAP packet to a device (R329). -/
def swapPacket (s : State) (d dst kind : Nat) (yonly : Bool) (group target : Nat) (rest : List Word) : Packet :=
  let w0 := BitVec.ofNat 32 (kind * 2 ^ 28 + yonly.toNat * 2 ^ 27 + group % 256)
  let ws := [w0, BitVec.ofNat 32 target] ++ rest
  ⟨pkSwap, false, false, ownHops s d, ws.length, dst, linkId s, 0, 0, 0, ws, false⟩

end Sys2Proof.Machine
end

