-- ==== Sys2Proof/Machine/Bridges.lean ====
section
/-! DEFINITION. Die bridges (R24, R190–R197) and row repair (R178, R442). -/
namespace Sys2Proof.Machine

/-- The neighbour of die `d` on bridge port `n` (R24, R190). -/
def neighbour (s : State) (d n : Nat) : Option Nat :=
  let cols := if s.part = .drl2 then 2 else 4
  let cnt := dieCount s.part
  if cnt ≤ d then none
  else match n with
    | 0 => if d % cols = 0 then none else some (d - 1)
    | 1 => if d % cols + 1 = cols then none else some (d + 1)
    | 2 => if cnt ≤ cols then none else some (if d < cols then d + cols else d - cols)
    | _ => none

/-- The port that faces port `n` on the neighbour. -/
def facing (n : Nat) : Nat := if n = 0 then 1 else if n = 1 then 0 else n

/-- A bit of a three-port field. -/
def portBit (s : State) (a : Nat) (f : Fld) (n : Nat) : Bool := (fld s a f).testBit n

/-- The state with a bit of a three-port field set to `b`. -/
def setPortBit (s : State) (a : Nat) (f : Fld) (n : Nat) (b : Bool) : State :=
  let v := fld s a f
  setFld s a f (v - (v.testBit n).toNat * 2 ^ n + b.toNat * 2 ^ n)

/-- Whether the Pulse of a die is locked to die 0 (R17): while its synthesizer is in lock, and die 0's own also while it runs on
after a loss of lock (R30). After reset no synthesizer is in lock yet, and LOCK reads 0 (R14). -/
def pulseLocked (s : State) (d : Nat) : Bool :=
  bitF s (Reg.PULSE_STAT d) F.PULSE_STAT_LOCK || (d = 0 && pulseRuns s)

/-- BRIDGE_STAT.LOCK of a port (R195). -/
def bridgeLock (s : State) (d n : Nat) : Bool :=
  match neighbour s d n with
  | some e => domLive s e pdStew && pulseLocked s e
  | none => false

/-- BRIDGE_CTL.EN of a port. -/
def bridgeEn (s : State) (d n : Nat) : Bool := portBit s (Reg.BRIDGE_CTL d) F.BRIDGE_CTL_EN n

/-- The active table of a port: 0 A, 1 B. -/
def bridgeActive (s : State) (d n : Nat) : Nat := (portBit s (Reg.BRIDGE_STAT d) F.BRIDGE_STAT_ACTIVE n).toNat

/-- The transfer of a port in this tick (R191, R195): the values its active table names, in entry order, or nothing. -/
def buildTransfer (s : State) (d n : Nat) : List (Nat × Line) :=
  if bridgeEn s d n then
    let base := (n * 2 + bridgeActive s d n) * 1024
    (tabRange s tBridge d base (base + 1024)).filterMap fun e =>
      if e.2.getLsbD 31 then some (wField e.2 9 0, readLine s d (wField e.2 29 16)) else none
  else []

/-- The transfer of every port of a die, as each tick sends it. -/
def sendTransfers (s : State) (d : Nat) : State :=
  each (List.range 3) (fun n t => setBridge t d n
    { bridge t d n with out := buildTransfer t d n, got := none, failed := false }) s

/-- A port's other table made active (R196, R227): this tick's transfer is sent from it. -/
def switchTable (s : State) (d n : Nat) : State :=
  let t := setPortBit s (Reg.BRIDGE_STAT d) F.BRIDGE_STAT_ACTIVE n (bridgeActive s d n = 0)
  setBridge t d n { bridge t d n with out := buildTransfer t d n }

/-- A failed tick of a port (R195). -/
def failPort (s : State) (d n : Nat) : State :=
  let b := bridge s d n
  let t := setBridge s d n { b with got := none, failed := true, fails := b.fails + 1 }
  if bridgeEn s d n then incReg t (Reg.BRIDGE_ERR d n) else t

/-- Whether a port's import lines have been held for HOLDT failed ticks (R195). -/
def holdOver (s : State) (d n : Nat) : Bool :=
  decide (fld s (Reg.BRIDGE_CFG d) F.BRIDGE_CFG_HOLDT < (bridge s d n).fails)

/-- One line of a transfer published: a second enabled entry for a line sets MULTI (R194). Of several lines that conflict in one
tick MDST records the first that a second entry names, by port and entry (DESIGN CHOICE, assumption log 119). -/
def publishImport (d : Nat) (acc : State × List Nat) (e : Nat × Line) : State × List Nat :=
  let (s, seen) := acc
  let a := Reg.BRIDGE_STAT d
  let t := if seen.contains e.1 then
      (if bitF s a F.BRIDGE_STAT_MULTI then s
       else setFld (setFld s a F.BRIDGE_STAT_MDST e.1) a F.BRIDGE_STAT_MULTI 1) else s
  (publish t d (0x400 + e.1) e.2.val e.2.valid, e.1 :: seen)

/-- The import lines of a die at a Pulse (R194, R195): ports from the lowest up, so that the highest-numbered one provides
a line; a port without a good transfer holds its lines invalid, at 0 once its hold is over. At the first Pulse after a stop, before
which no transfer could come, the lines stay as they were: after a last tick that failed, invalid. -/
def publishImports (s : State) (d : Nat) : State :=
  ((List.range 3).foldl (fun (acc : State × List Nat) n =>
    let s := acc.1
    if (neighbour s d n).isNone then acc
    else
      match (bridge s d n).got with
      | some xs =>
        let t := setBridge s d n { bridge s d n with fails := 0, expired := false, named := (xs.map (·.1)).eraseDups }
        xs.foldl (publishImport d) (t, acc.2)
      | none =>
        if s.phase = .stopped && !(bridge s d n).failed then
          (each (bridge s d n).named (fun o u =>
            publish u d (0x400 + o) (line u d (0x400 + o)).val (line u d (0x400 + o)).valid) s, acc.2)
        else
          let t := if (bridge s d n).failed then s else failPort s d n
          let zero := (bridge t d n).expired || holdOver t d n
          (each (bridge t d n).named (fun o u =>
            publish u d (0x400 + o) (if zero then 0 else (line u d (0x400 + o)).val) false) t, acc.2)) (s, [])).1

/-! ### Row repair -/

/-- The words of a row that a repair replaces: addresses of Hoard words, or of working-memory lines. -/
def rowAddrs (d p row : Nat) : List Nat :=
  if p = 8 then (List.range 128).map fun i => pkgA d (row * 1024 + 8 * i)
  else (List.range 64).map fun i => hoardA d p (row * 64 + i)

/-- A spare row in the place of a copied one (R178, R442): a word that could not be corrected is 0 with fresh ECC. -/
def switchRow (d p : Nat) (row : Nat) (s : State) : State :=
  let t := each (rowAddrs d p row) (fun a u =>
    match eccAt u a with
    | .double => setEcc (storeBytes u a 0 (if p = 8 then 8 else 4)) a .clean
    | _ => setEcc u a .clean) s
  let st := Reg.SPARE_STAT d
  let t := setFld t st F.SPARE_STAT_REPAIR 1
  if p = 8 then
    let a := Reg.SPARE_WMREP d
    spareLog (setFld (setFld t a F.SPARE_WMREP_USED (fld t a F.SPARE_WMREP_USED + 1)) a F.SPARE_WMREP_FREE
      (fld t a F.SPARE_WMREP_FREE - 1)) d 0xA (row / 128) 0 (row % 128)
  else
    let a := Reg.POD_REPAIR d p
    spareLog (setFld (setFld t a F.POD_REPAIR_USED (fld t a F.POD_REPAIR_USED + 1)) a F.POD_REPAIR_FREE
      (fld t a F.POD_REPAIR_FREE - 1)) d 9 p (row / 256) (row % 256)

/-- The rows copied since the last Pulse replaced (R178); those of a pod whose domain does not run wait (R409). -/
def switchRows (s : State) (d : Nat) : State :=
  each ((List.range 9).filter fun p => p = 8 || domLive s d (pdPod p)) (fun p t =>
    let r := rowsOf t d p
    setRows (each r.copied (switchRow d p) t) d p { rowsOf t d p with copied := [] }) s

/-- ROW_REPAIR_COPY_DONE (R178): the row at the head of the list has been copied. -/
def execRowRepairCopyDone (d p : Nat) (s : State) : Out :=
  onUnit (d < dieCount s.part && p < 9) <|
    match (rowsOf s d p).want with
    | row :: rest =>
      let r := rowsOf s d p
      let t := setRows s d p { r with want := rest, copied := r.copied ++ [row] }
      whenDue s (domLive s d (if p = 8 then pdStew else pdPod p))
        (if p < 8 && rest.isEmpty then setFld t (Reg.POD_REPAIR d p) F.POD_REPAIR_BUSY 0 else t)
    | [] => .next s

/-! ### Bridge transfers -/

/-- Whether a port of a die can receive the transfer of the tick in progress. -/
def transferDue (s : State) (d n : Nat) : Bool :=
  pulseRuns s && (neighbour s d n).isSome && domLive s d pdStew && (bridge s d n).got.isNone && !(bridge s d n).failed

/-- BRIDGE_TRANSFER_RX (R195): the neighbour's transfer arrives and passes its check; a change of tables at this Pulse comes first
(R196, R235). -/
def execBridgeTransferRx (d n : Nat) (s : State) : Out :=
  onUnit (d < dieCount s.part && n < 3) <|
    match neighbour s d n with
    | some e =>
      whenDue s (transferDue s d n && bridgeLock s d n && !isMet (bridge s e (facing n)).change && (dueSwaps s).isEmpty)
        (setBridge s d n { bridge s d n with got := some (bridge s e (facing n)).out })
    | none => .next s

/-- BRIDGE_TRANSFER_FAIL (R195): the tick's transfer fails. -/
def execBridgeTransferFail (d n : Nat) (s : State) : Out :=
  onUnit (d < dieCount s.part && n < 3) <| whenDue s (transferDue s d n) (failPort s d n)

/-- BRIDGE_HOLD_EXPIRE (R195): the import lines held for HOLDT failed ticks carry 0. -/
def execBridgeHoldExpire (d n : Nat) (s : State) : Out :=
  onUnit (d < dieCount s.part && n < 3) <|
    whenDue s (holdOver s d n && !(bridge s d n).expired) (setBridge s d n { bridge s d n with expired := true })

/-- BRIDGE_TABLE_SWITCH (R196): the Pulse named for a port's table change has come. -/
def execBridgeTableSwitch (d n : Nat) (s : State) : Out :=
  onUnit (d < dieCount s.part && n < 3) <|
    whenDue s (isMet (bridge s d n).change)
      (switchTable (setBridge s d n { bridge s d n with change := none }) d n)

end Sys2Proof.Machine
end

