-- ==== Sys2Proof/Machine/SwapCore.lean ====
section
/-! DEFINITION. Swap requests (R222–R234): the request, its limits, its result, the member checks of a die, and what ends
a request early. -/
namespace Sys2Proof.Machine

/-- PULSE_SWAP_WHO for a member of this package (R229). -/
def swapWho (s : State) (d kind unit : Nat) : Nat := linkId s * 2 ^ 16 + 2 ^ 15 + d * 2 ^ 12 + kind * 2 ^ 10 + unit

/-- A result recorded at die `d` (R227, R229). -/
def recordSwap (s : State) (d group target result detail who : Nat) : State :=
  let a := Reg.PULSE_SWAP_RES d
  let t := setFld (setFld (setFld (setFld s a F.PULSE_SWAP_RES_VALID 1) a F.PULSE_SWAP_RES_RESULT result)
    a F.PULSE_SWAP_RES_DETAIL detail) a F.PULSE_SWAP_RES_GROUP group
  let w := if result = 0 || result = 5 || result = 7 || result = 0xA then 0 else who
  let t := setReg (setReg t (Reg.PULSE_SWAP_WHO d) (BitVec.ofNat 32 w)) (Reg.PULSE_SWAP_TGT d) (BitVec.ofNat 32 target)
  satFld t (Reg.PULSE_SWAP_CNT d) (if result = 0 then F.PULSE_SWAP_CNT_COMMITTED else F.PULSE_SWAP_CNT_REFUSED)

/-- A result recorded by the coordinator; a refusal is also reported to the device that sent the request (R225, R329). -/
def reportSwap (s : State) (r : SwapReq) (result detail who : Nat) : State :=
  let t := recordSwap s r.coord r.group r.target result detail who
  match r.origin with
  | some dev =>
    if result = 0 then t
    else deviceSend t r.coord (swapPacket t r.coord dev 3 r.yonly r.group r.target
      [BitVec.ofNat 32 (result * 2 ^ 24 + detail * 2 ^ 20), BitVec.ofNat 32 who]) false
  | none => t

/-- A split recorded by the coordinator (R232): the first report for a request is the one recorded, counted and passed on
(R229). -/
def splitSwap (s : State) (r : SwapReq) (result detail who : Nat) : State :=
  if r.split then s
  else reportSwap { s with swaps := s.swaps.map fun q => if q = r then { r with split := true } else q } r result detail who

/-- A request removed; its power votes go with it (R230). -/
def dropSwap (s : State) (r : SwapReq) : State :=
  powerSyncAll { s with swaps := s.swaps.filter fun q => q ≠ r } none

/-- A request ended with a result (R226, R231). -/
def endSwap (s : State) (r : SwapReq) (result detail who : Nat) : State :=
  reportSwap (dropSwap s r) r result detail who

/-- Whether a job has a report on its way to the coordinator. -/
def isSplit (j : Job) : Bool := match j with | .split _ _ => true | _ => false

/-- A request with one die's part changed. -/
def setJob (s : State) (r : SwapReq) (d : Nat) (j : Job) : State :=
  { s with swaps := s.swaps.map fun q => if q = r then { r with jobs := alPut d j r.jobs } else q }

/-- The pending request of a group. -/
def pendingGroup (s : State) (g : Nat) : Option SwapReq := (pendingSwaps s).find? fun r => r.group = g

/-- DLEAD: below 8 acts as 8 (R228). -/
def swapLead (s : State) (d : Nat) : Nat := max 8 (fld s (Reg.PULSE_SWAP_CFG d) F.PULSE_SWAP_CFG_DLEAD)

/-- Whether the decision Pulse of a request is over (R226, R232). A device that coordinates for another takes it from its own
DLEAD, which Filnan sets alike on every device (R228; assumption log 112). -/
def swapDecided (s : State) (r : SwapReq) : Bool :=
  r.committed || (r.origin.isSome && decide (r.target ≤ pulseCount s + swapLead s r.coord))

/-- A table of a bridge port (kind 2) or caravan engine (kind 1) written directly while it is a member of a pending
request (R233): before the decision Pulse the request ends, after it the group splits. -/
def swapDirect (s : State) (d kind unit : Nat) : State :=
  let member (r : SwapReq) : Bool :=
    (if kind = 2 then groupPorts s d r.group else groupEngines s d r.group).contains unit
  match (s.swaps.filter fun r => !r.applied).find? member with
  | none => s
  | some r =>
    let who := swapWho s d kind unit
    if swapDecided s r then
      let r' : SwapReq := { r with direct := if r.direct.contains who then r.direct else who :: r.direct }
      splitSwap { s with swaps := s.swaps.map fun q => if q = r then r' else q } r' 9 3 who
    else endSwap s r 6 4 who

/-- The admission of a shadow bank withdrawn by a write that changes it (R40, R232): before the decision Pulse the member's
report becomes a refusal with DETAIL 0xC; after it the member refuses at the target Pulse. -/
def withdrawBank (s : State) (d k : Nat) : State :=
  if fld s (Reg.KERNEL_STEPS d k) F.KERNEL_STEPS_SHADOW = 0 then s
  else
    let t := withdraw s d k
    match (pendingSwaps t).find? fun r =>
        !r.yonly && !swapDecided s r && (groupKernels t d r.group).contains k &&
          (match alGet d r.jobs with | some .ready | some .heard => true | _ => false) with
    | some r => logRefusal (setJob t r d (.refused 1 0xC (swapWho t d 0 k))) d k (!(kern t d k).pbank) 0xC 0
    | none => t

/-- The admission of the active bank of a kernel about to enter RUN withdrawn by a write that changes it (R40): it is
refused at that Pulse. -/
def withdrawActive (s : State) (d k : Nat) : State :=
  if (kern s d k).enter then setKern s d k { kern s d k with spoilt := true } else s

/-- The withdrawal that a change of one of a kernel's banks brings (R40). -/
def withdrawBy (s : State) (d k : Nat) (bankB : Bool) : State :=
  if bankB = (kern s d k).pbank then withdrawActive s d k else withdrawBank s d k

/-- Whether two groups share a member on some die (R230). -/
def groupsMeet (s : State) (g h : Nat) : Bool :=
  (dies s).any fun d =>
    (groupKernels s d g).any (fun k => (groupKernels s d h).contains k)
      || (groupPorts s d g).any (fun n => (groupPorts s d h).contains n)
      || (groupEngines s d g).any (fun n => (groupEngines s d h).contains n)

/-- The members that a group shares with a pending group, as WHO words (R230). -/
def sharedMembers (s : State) (g : Nat) : List Nat :=
  (dies s).flatMap fun d =>
    let busy (f : Nat → List Nat) : List Nat := (f g).filter fun x => (pendingSwaps s).any fun r => (f r.group).contains x
    (busy (groupKernels s d)).map (swapWho s d 0) ++ (busy (groupEngines s d)).map (swapWho s d 1)
      ++ (busy (groupPorts s d)).map (swapWho s d 2)

/-- The WHO of a busy refusal (R229): a shared member, which one the rules leave open, or else the coordinating die as a
whole (assumption log 12). -/
def busyWho (s : State) (d g detail : Nat) : State × Nat :=
  match detail, sharedMembers s g with
  | 2, m :: ms => ({ s with fresh := s.fresh + 1 }, (m :: ms).getD (Config.freeNat s.fresh % (ms.length + 1)) m)
  | _, _ => (s, swapWho s d 3 0)

/-- The DETAIL of a busy refusal (R230), 0 if there is none; of several the lowest (DESIGN CHOICE, assumption log 123). -/
def swapBusy (s : State) (g : Nat) : Nat :=
  if (pendingSwaps s).any fun r => r.group = g then 1
  else if (pendingSwaps s).any fun r => groupsMeet s g r.group then 2
  else if 4 ≤ (pendingSwaps s).length then 3 else 0

/-- Whether a group has no member on any die, no fader and no remote device (R229). -/
def groupEmpty (s : State) (d g : Nat) : Bool :=
  ((dies s).all fun e => (groupKernels s e g).isEmpty && (groupPorts s e g).isEmpty && (groupEngines s e g).isEmpty
    && (groupFaders s e g).isEmpty) && (groupRemotes s d g).isEmpty

/-- The first Pulse count at or after the tick in progress whose low word is `low` (R104). -/
def swapTarget (s : State) (low : Nat) : Nat :=
  let n := pulseCount s
  n + (low + 2 ^ 32 - n % 2 ^ 32) % 2 ^ 32

/-- A swap request handed to the swap logic of die `d` (R104, R225, R230): its checks, then the request to every die and remote
device. Of several codes that apply the model takes 0x7 with DETAIL 1, 0x5, 0x6, 0x7 with DETAIL 0, in this order (DESIGN
CHOICE, assumption log 123: R229 gives none). What was kept of an earlier request of the group goes, unless a report of a split
may still come for it (R232). -/
def requestSwap (s : State) (d group low : Nat) (yonly : Bool) (origin : Option Nat) : State :=
  let target := swapTarget s low
  let rem := groupRemotes s d group
  let r : SwapReq := ⟨group, target, yonly, d, origin, pulseCount s, (dies s).map fun e => (e, Job.sent),
    rem.map fun v => (v, false), false, false, [], false⟩
  if 255 < group then reportSwap s { r with group := group % 256 } 7 1 0
  else if origin.isNone && decide (target - swapLead s d ≤ pulseCount s) then reportSwap s r 5 0 0
  else if swapBusy s group ≠ 0 then
    let f := busyWho s d group (swapBusy s group)
    reportSwap f.1 r 6 (swapBusy s group) f.2
  else if groupEmpty s d group then reportSwap s r 7 0 0
  else
    let awaited (q : SwapReq) : Bool := (q.jobs.any fun e => isSplit e.2) || (!q.remotes.isEmpty && !q.split)
    let kept := s.swaps.filter fun q => !(q.applied && q.group = group && !awaited q)
    let t := powerSyncAll { s with swaps := kept ++ [r] } none
    each rem (fun v u => deviceSend u d (swapPacket u d v 1 yonly group target []) false) t

/-! ### Faders -/

/-- Whether a fader entry is armed or active. -/
def fadeBusy (s : State) (d e : Nat) : Bool :=
  (fadeWord s d e 2).getLsbD 31 || (fadeWord s d e 2).getLsbD 30

/-- The armed or active fader entries of a die. -/
def busyFaders (s : State) (d : Nat) : List Nat :=
  (tabRange s tFade d 0 2048).filterMap fun x =>
    if x.1 % 4 = 2 && (x.2.getLsbD 31 || x.2.getLsbD 30) then some (x.1 / 4) else none

/-- The kernel of a fader entry. -/
def fadeKernel (s : State) (d e : Nat) : Nat := wField (fadeWord s d e 0) 7 0

/-- The first fader entry of a group that refuses, with its DETAIL (R238). -/
def faderCheck (s : State) (d g : Nat) : Option (Nat × Nat) :=
  let es := groupFaders s d g
  let inPod (xs : List Nat) (p : Nat) : Nat := (xs.filter fun e => fadeKernel s d e / 18 = p).length
  es.findSome? fun e =>
    if 143 < fadeKernel s d e then some (1, e)
    else if fadeBusy s d e then some (2, e)
    else
      let p := fadeKernel s d e / 18
      if 64 < inPod (busyFaders s d) p + inPod (es.filter fun x => x ≤ e) p then some (3, e) else none

/-- A flag of a fader entry's word 2. -/
def fadeFlag (s : State) (d e bit : Nat) (b : Bool) : State :=
  setTab s tFade d (e * 4 + 2) (wPut (fadeWord s d e 2) bit bit b.toNat)

/-- A fader entry that has ended: EN, ACTIVE and ARMED cleared (R239). -/
def fadeClear (s : State) (d e : Nat) : State :=
  fadeFlag (fadeFlag (setTab s tFade d (e * 4) (wPut (fadeWord s d e 0) 31 31 0)) d e 31 false) d e 30 false

/-- A fader entry at its target Pulse (R236): with LEN 0 it ends, otherwise it is active from position 0. -/
def fadeBegin (d e : Nat) (s : State) : State :=
  if !(fadeWord s d e 2).getLsbD 30 then s
  else if fadeLen (fadeWord s d e 0) = 0 then fadeClear s d e
  else
    let t := fadeFlag (fadeFlag s d e 30 false) d e 31 true
    setTab t tFade d (e * 4 + 2) (wPut (fadeWord t d e 2) 13 0 0)

end Sys2Proof.Machine
end

