-- ==== Sys2Proof/Machine/Caravan.lean ====
section
/-! DEFINITION. The LPDDR4X channel and the caravan engines (R198–R218). -/
namespace Sys2Proof.Machine

/-! ### The channel -/

/-- The density of a channel in Gb (LPDDR4X options): a reserved code installs nothing (assumption log 13). -/
def ddrGb (code : Nat) : Nat := [4, 6, 8, 12, 16].getD code 0

/-- Whether the channel serves traffic. -/
def ddrReady (s : State) (d : Nat) : Bool :=
  bitF s (Reg.DDR_CTL d) F.DDR_CTL_EN && bitF s (Reg.DDR_STAT d) F.DDR_STAT_READY

/-- The installed capacity in bytes (R199): two channels of the density in each rank. -/
def ddrBytes (s : State) (d : Nat) : Nat :=
  if ddrReady s d then
    2 * ddrGb (fld s (Reg.DDR_CFG d) F.DDR_CFG_DENS) * 2 ^ 27 * (1 + fld s (Reg.DDR_CFG d) F.DDR_CFG_RANKS)
  else 0

/-- The data rate in MT/s; a reserved code carries nothing (assumption log 13). -/
def ddrRate (code : Nat) : Nat := [1600, 2133, 3200, 3733, 4266].getD code 0

/-- DDR_BUDGET (R207): bytes per tick, a multiple of 64, and 0 while the channel does not serve traffic. -/
def ddrBudget (s : State) (d : Nat) : Nat :=
  if ddrReady s d then
    8000000000 * ddrRate (fld s (Reg.DDR_CFG d) F.DDR_CFG_RATE) / (4266 * ticksPerSecond s * 64) * 64
  else 0

/-- The fetch and store shares of an engine. -/
def fetchShare (s : State) (d p : Nat) : Nat := fld s (Reg.CARAVAN_SHARE d p) F.CARAVAN_SHARE_FETCH
def storeShare (s : State) (d p : Nat) : Nat := fld s (Reg.CARAVAN_SHARE d p) F.CARAVAN_SHARE_STORE

/-- The sum of a die's shares. -/
def shareSum (s : State) (d : Nat) : Nat :=
  natSum ((List.range 8).map fun p => fetchShare s d p + storeShare s d p)

/-- DDR_STAT.OVERSUB (R208). -/
def oversub (s : State) (d : Nat) : Bool := decide (ddrBudget s d < shareSum s d)

/-- An access to the channel noted for the idle count of R202; it ends a power-down. -/
def ddrTouch (s : State) (d : Nat) : State := setDdr s d { ddr s d with used := true, down := false, idle := 0 }

/-- Training started: the channel serves nothing until it is done (R201). -/
def startTraining (s : State) (d : Nat) : State :=
  let a := Reg.DDR_STAT d
  setDdr (setFld (setFld s a F.DDR_STAT_READY 0) a F.DDR_STAT_TRAINING 1) d { ddr s d with retrain := false }

/-- A write of DDR_CTL (R201). The memory keeps every byte while EN is 0 and it is held in reset, and after training (DESIGN CHOICE,
assumption log 138: the spec does not say). -/
def ddrCtlWrite (s : State) (d : Nat) (v : Word) : State :=
  let a := Reg.DDR_STAT d
  let was := bitF s (Reg.DDR_CTL d) F.DDR_CTL_EN
  let en := decide (wGet v F.DDR_CTL_EN = 1)
  let big := fld s (Reg.DDR_CFG d) F.DDR_CFG_RANKS = 1 &&
    (fld s (Reg.DDR_CFG d) F.DDR_CFG_DENS = 3 || fld s (Reg.DDR_CFG d) F.DDR_CFG_DENS = 4)
  if en && !was && big then setFld s a F.DDR_STAT_CFGREJ 1
  else
    let t := setFld s (Reg.DDR_CTL d) F.DDR_CTL_EN en.toNat
    if !en then
      setDdr (setFld (setFld t a F.DDR_STAT_READY 0) a F.DDR_STAT_TRAINING 0) d Ddr.zero
    else if !was then startTraining t d
    else if wGet v F.DDR_CTL_RETRAIN = 1 then
      (if (ddr t d).window then setDdr t d { ddr t d with retrain := true } else startTraining t d)
    else t

/-- A write of DDR_CFG (R201). -/
def ddrCfgWrite (s : State) (d : Nat) (v : Word) : State :=
  if bitF s (Reg.DDR_CTL d) F.DDR_CTL_EN then setFld s (Reg.DDR_STAT d) F.DDR_STAT_CFGREJ 1
  else match regRow (Reg.DDR_CFG d) with
    | some r => setReg s (Reg.DDR_CFG d) (maskWrite r (reg s (Reg.DDR_CFG d)) v false)
    | none => s

/-- DDR_STAT as it reads. -/
def ddrStat (s : State) (d : Nat) : Word := wSet (reg s (Reg.DDR_STAT d)) F.DDR_STAT_OVERSUB (oversub s d).toNat

/-- Whether the controller serves what it has in hand: its domain runs, the channel is trained, and its pads are its own, for held
pads keep their levels and ignore their input (R420; assumption log 74). -/
def ddrServes (s : State) (d : Nat) : Bool := domLive s d pdDdr && ddrReady s d && !padHeld s d pdDdr

/-- Whether the controller takes accesses: it serves, and its domain is ON (R418). -/
def ddrRuns (s : State) (d : Nat) : Bool := domOn s d pdDdr && ddrServes s d

/-- A share write (R208). One that lowers a share while the sum stays above the budget is refused like any other (DESIGN CHOICE,
assumption log 122). -/
def shareWrite (s : State) (d p : Nat) (v : Word) : State :=
  let f := wGet v F.CARAVAN_SHARE_FETCH
  let st := wGet v F.CARAVAN_SHARE_STORE
  let top := if rateCode s ≤ 3 then 32768 else 16384
  if top < f || 16384 < st || ddrBudget s d < shareSum s d - fetchShare s d p - storeShare s d p + f + st
  then setFld s (Reg.DDR_STAT d) F.DDR_STAT_SHAREREJ 1
  else setReg s (Reg.CARAVAN_SHARE d p) v

/-! ### Schedule tables -/

/-- Word `w` of schedule entry `e` of a table (R209). -/
def carWord (s : State) (d p t e w : Nat) : Word := tab s tCar d (((p * 2 + t) * 256 + e) * 8 + w)

/-- The state with a word of a schedule entry set. -/
def setCarWord (s : State) (d p t e w : Nat) (v : Word) : State := setTab s tCar d (((p * 2 + t) * 256 + e) * 8 + w) v

/-- The fields of a schedule entry. -/
structure CarEntry where
  store  : Bool
  once   : Bool
  per    : Nat
  phase  : Nat
  lead   : Nat
  words  : Nat
  hbase  : Nat
  hlen   : Nat
  dbase  : Nat
  dlen   : Nat
deriving DecidableEq, Repr

/-- The fields of an enabled schedule entry. -/
def carEntry (s : State) (d p t e : Nat) : Option CarEntry :=
  let w i := carWord s d p t e i
  if (w 0).getLsbD 31 then
    some ⟨(w 0).getLsbD 30, (w 0).getLsbD 29, wField (w 0) 27 24, wField (w 0) 23 16, wField (w 0) 7 0,
      16 * (wField (w 1) 31 24 + 1), wField (w 1) 17 0, wField (w 2) 17 0, wField (w 3) 31 6 * 64, wField (w 4) 25 0⟩
  else none

/-- The entries of a table with a word that is not 0. -/
def carListed (s : State) (d p t : Nat) : List Nat :=
  ((tabRange s tCar d ((p * 2 + t) * 2048) ((p * 2 + t + 1) * 2048)).map fun x => x.1 / 8 % 256).eraseDups

/-- The enabled entries of a table. -/
def carEntries (s : State) (d p t : Nat) : List (Nat × CarEntry) :=
  (tabRange s tCar d ((p * 2 + t) * 2048) ((p * 2 + t + 1) * 2048)).filterMap fun x =>
    if x.1 % 8 = 0 then (carEntry s d p t (x.1 / 8 % 256)).map fun c => (x.1 / 8 % 256, c) else none

/-- The active table of an engine. -/
def carActive (s : State) (d p : Nat) : Nat := fld s (Reg.CARAVAN_STAT d p) F.CARAVAN_STAT_ACTIVE

/-- The smallest LEAD of the rate in effect (R212). -/
def minLead (s : State) : Nat := if rateCode s ≤ 3 then 3 else 4

/-- Ticks of LEAD in whole periods, rounded up. -/
def leadPeriods (c : CarEntry) : Nat := (c.lead + 2 ^ c.per - 1) / 2 ^ c.per

/-- REJCODE 0x1 for an entry (R214). -/
def carBadField (s : State) (d : Nat) (c : CarEntry) : Bool :=
  decide (9 ≤ c.per) || decide (2 ^ c.per ≤ c.phase) || (!c.store && decide (c.lead < minLead s))
    || c.hlen % c.words ≠ 0 || c.dlen * 64 % (4 * c.words) ≠ 0 || decide (262144 < c.hbase + c.hlen)
    || decide (ddrBytes s d < c.dbase + c.dlen * 64)

/-- REJCODE 0x2 for an entry (R213). -/
def carShortRing (c : CarEntry) : Bool :=
  decide (c.hlen < if c.store then 2 * c.words else c.words * (1 + leadPeriods c))

/-- Whether an entry issues at Pulse count `n`. -/
def carIssues (c : CarEntry) (n : Nat) : Bool := n % 2 ^ c.per = c.phase

/-- Bytes that a table issues together in tick `n` of the cycle, in one direction. -/
def carTogether (es : List (Nat × CarEntry)) (store : Bool) (n : Nat) : Nat :=
  natSum (es.map fun e => if e.2.store = store && carIssues e.2 n then 4 * e.2.words else 0)

/-- The check of an engine's inactive table (R214): its REJCODE, 0 if it passes. -/
def carCheck (s : State) (d p : Nat) : Nat :=
  let es := carEntries s d p (1 - carActive s d p)
  if es.any fun e => carBadField s d e.2 then 1
  else if es.any fun e => carShortRing e.2 then 2
  else if (List.range 256).any fun n =>
      decide (fetchShare s d p < carTogether es false n) || decide (storeShare s d p < carTogether es true n) then 3
  else 0

/-- An engine's refusal recorded (R214). -/
def carReject (s : State) (d p code : Nat) : State :=
  let a := Reg.CARAVAN_STAT d p
  setFld (setFld s a F.CARAVAN_STAT_REJ 1) a F.CARAVAN_STAT_REJCODE code

/-- The pointers of a table's entries at their bases (R209): an enabled entry issues, a disabled one does not. RUN reads 0 "while EN
is 0": the entry's own EN is meant, and CARAVAN_CTL.EN leaves RUN as it is (DESIGN CHOICE, assumption log 105). -/
def carRestart (s : State) (d p t : Nat) : State :=
  each (carListed s d p t) (fun e u =>
    setCarWord (setCarWord u d p t e 5
      (BitVec.ofNat 32 (((carWord u d p t e 0).getLsbD 31).toNat * 2 ^ 31 + wField (carWord u d p t e 1) 17 0))) d p t e 6 0) s

/-- The entries of a table that no longer issue. -/
def carRelease (s : State) (d p t : Nat) : State :=
  each (carEntries s d p t) (fun e u => setCarWord u d p t e.1 5 (wPut (carWord u d p t e.1 5) 31 31 0)) s

/-- The inactive table of an engine made active (R209, R214, R227). -/
def carSwitch (s : State) (d p : Nat) : State :=
  let old := carActive s d p
  let t := setFld (carRelease s d p old) (Reg.CARAVAN_STAT d p) F.CARAVAN_STAT_ACTIVE (1 - old)
  carRestart (setCaravan t d p { caravan t d p with served := [] }) d p (1 - old)

/-- A write of CARAVAN_SWAP.GO (R214, R233): a new request replaces a pending one. -/
def carSwapGo (s : State) (d p : Nat) : State :=
  let low := (reg s (Reg.CARAVAN_TPULSE d p)).toNat
  let t := setCaravan s d p { caravan s d p with change := some (low, false), passed := false }
  swapDirect (setFld t (Reg.CARAVAN_STAT d p) F.CARAVAN_STAT_PEND 1) d 1 p

/-- A pending table change dropped (R231). -/
def carDrop (s : State) (d p : Nat) : State :=
  setCaravan (setFld s (Reg.CARAVAN_STAT d p) F.CARAVAN_STAT_PEND 0) d p
    { caravan s d p with change := none, passed := false }

/-! ### Blocks -/

/-- The pointers of an entry after a block, each wrapped within its ring; ONCE stops at the ring's end (R209). -/
def carAdvance (s : State) (d p t e : Nat) (c : CarEntry) : State :=
  let hp := wField (carWord s d p t e 5) 17 0
  let dp := wField (carWord s d p t e 6) 25 0
  let hn := if hp + c.words < c.hbase + c.hlen then hp + c.words else c.hbase
  let dn := if dp + c.words / 16 < c.dlen then dp + c.words / 16 else 0
  let run := !(c.once && decide (c.dlen ≤ dp + c.words / 16))
  setCarWord (setCarWord s d p t e 5 (BitVec.ofNat 32 (run.toNat * 2 ^ 31 + hn))) d p t e 6 (BitVec.ofNat 32 dn)

/-- A late block counted and, if the log is empty, recorded (R216, R217). -/
def carLate (s : State) (d p e : Nat) (store : Bool) (tick : Nat) : State :=
  let t := incReg s (Reg.CARAVAN_LATE_CNT d p)
  if bitF t (Reg.CARAVAN_LATE_LOG d p) F.CARAVAN_LATE_LOG_VALID then t
  else setReg t (Reg.CARAVAN_LATE_LOG d p)
    (BitVec.ofNat 32 (2 ^ 31 + store.toNat * 2 ^ 30 + e * 2 ^ 20 + tick % 2 ^ 20))

/-- Whether the pod of an engine is parked: its kernels stand in PARKED (R215). -/
def carParked (s : State) (d p : Nat) : Bool :=
  (List.range 18).any fun i => (kern s d (p * 18 + i)).st = .parked

/-- The entry of an engine's active table that is due to issue in this tick (R209–R211): the engine runs, the entry is
issuing at its phase, it has not been served yet, and no change of tables comes first (R214, R235). A parked engine's pointers
advance whether or not the shares fit (R208, R215). -/
def carDue (s : State) (d p e : Nat) (store : Bool) : Option CarEntry :=
  match carEntry s d p (carActive s d p) e with
  | some c =>
    if c.store = store && pulseRuns s && bitF s (Reg.CARAVAN_CTL d p) F.CARAVAN_CTL_EN
        && (carParked s d p || (!oversub s d && domLive s d (pdPod p))) && (carWord s d p (carActive s d p) e 5).getLsbD 31
        && carIssues c (pulseCount s) && !(caravan s d p).served.contains e && !isMet (caravan s d p).change
        && (dueSwaps s).isEmpty
    then some c else none
  | none => none

/-- The store blocks of a die that reached the channel before a fetch issued at Pulse `issue`: those issued at an earlier
Pulse (R200; of one Pulse the fetches are served first, R207; assumption log 88). -/
def earlierStores (s : State) (d issue : Nat) : List Flight :=
  (List.range 8).flatMap fun p => (caravan s d p).flight.filter fun f => f.store && f.issue < issue

/-- Every store block of a die that waits in staging. -/
def stagedStores (s : State) (d : Nat) : List Flight :=
  (List.range 8).flatMap fun p => (caravan s d p).flight.filter (·.store)

/-- The place in the order of issue of a die's next block (R200). -/
def nextSeq (s : State) (d : Nat) : Nat :=
  (List.range 8).foldl (fun n p => (caravan s d p).flight.foldl (fun k f => max k (f.seq + 1)) n) 1

/-- The word at a word-aligned offset of LPDDR4X as an access finds it: the newest of the store blocks `es` in staging counts as
written (R200), the one issued last. -/
def fetchedWord (s : State) (d : Nat) (es : List Flight) (off : Nat) : Word :=
  (es.foldl (fun (best : Nat × Word) f =>
      if f.doff ≤ off && off < f.doff + 4 * f.words && best.1 ≤ f.seq then (f.seq, f.data.getD ((off - f.doff) / 4) 0)
      else best)
    (0, loadW s (pkgA d (0x8_0000_0000 + off)))).2

/-- `n` bytes of LPDDR4X from a die-local address as an access that reaches the controller now finds them (R200). -/
def ddrBytesAt (s : State) (d loc n : Nat) : List Byte :=
  let es := stagedStores s d
  (List.range n).map fun i =>
    let off := loc + i - 0x8_0000_0000
    (fetchedWord s d es (off / 4 * 4) >>> (8 * (off % 4))).setWidth 8

/-- A staged store block after later writes of `bs` at a die-local address: those bytes come after it (R200). -/
def patchFlight (loc : Nat) (bs : List Byte) (f : Flight) : Flight :=
  if !f.store then f
  else { f with data := (List.range f.words).map fun i =>
    let a := 0x8_0000_0000 + f.doff + 4 * i
    let old := f.data.getD i 0
    BitVec.ofNat 32 (ofBytes ((List.range 4).map fun j =>
      if loc ≤ a + j && a + j < loc + bs.length then bs.getD (a + j - loc) 0 else (old >>> (8 * j)).setWidth 8)) }

/-- Bytes written to LPDDR4X by a master: they come after every store block in staging (R200). -/
def ddrWrite (s : State) (d loc : Nat) (bs : List Byte) : State :=
  let t := (bs.foldl (fun (acc : State × Nat) b => (storeByte acc.1 acc.2 b, acc.2 + 1)) (s, pkgA d loc)).1
  ddrTouch (each (List.range 8) (fun p u =>
    setCaravan u d p { caravan u d p with flight := (caravan u d p).flight.map (patchFlight loc bs) }) t) d

/-- The block that an entry names now. A fetch reaches its bursts at its issue (assumption log 88); a store takes 0 for a word
that cannot be corrected (R177). -/
def carFlight (s : State) (d p e : Nat) (c : CarEntry) : Flight :=
  let t := carActive s d p
  let hp := wField (carWord s d p t e 5) 17 0
  let doff := c.dbase + 64 * wField (carWord s d p t e 6) 25 0
  let es := earlierStores s d (pulseCount s)
  ⟨e, c.store, pulseCount s, pulseCount s + c.lead, hp, doff, c.words,
    (List.range c.words).map fun i =>
      if !c.store then fetchedWord s d es (doff + 4 * i)
      else if eccAt s (hoardA d p (hp + i)) = .double then 0 else loadW s (hoardA d p (hp + i)), nextSeq s d⟩

/-- An entry noted as served in this tick, its pointers advanced (R215, R216). -/
def carServe (s : State) (d p e : Nat) (c : CarEntry) : State :=
  let t := carAdvance s d p (carActive s d p) e c
  setCaravan t d p { caravan t d p with served := e :: (caravan t d p).served }

/-- A block in flight added. -/
def carLaunch (s : State) (d p : Nat) (f : Flight) : State :=
  ddrTouch (setCaravan s d p { caravan s d p with flight := (caravan s d p).flight ++ [f] }) d

/-- A block in flight removed. -/
def carLand (s : State) (d p : Nat) (f : Flight) : State :=
  setCaravan s d p { caravan s d p with flight := (caravan s d p).flight.erase f }

/-- A pod and its die exist. -/
def hasPod (s : State) (d p : Nat) : Bool := d < dieCount s.part && p < 8

/-- CARAVAN_FETCH_ISSUE (R210, R215). -/
def execCaravanFetchIssue (d p e : Nat) (s : State) : Out :=
  onUnit (hasPod s d p && e < 256) <|
    match carDue s d p e false with
    | some c => .next (if carParked s d p then carServe s d p e c
                       else carLaunch (carServe s d p e c) d p (carFlight s d p e c))
    | none => .next s

/-- The oldest fetch block of an entry in flight. -/
def fetchFlight (s : State) (d p e : Nat) : Option Flight :=
  (caravan s d p).flight.find? fun f => !f.store && f.entry = e

/-- Whether staging that ends now is in time (R210): no later than the Pulse that opens the tick before the due one. -/
def inTime (s : State) (f : Flight) : Bool := decide (nextPulse s < f.due)

/-- The words of a block written into a pod's Hoard. -/
def hoardBlock (d p : Nat) (f : Flight) (s : State) : State :=
  each (List.range f.words) (fun i t =>
    let a := hoardA d p (f.hptr + i)
    setEcc (storeW t a (f.data.getD i 0)) a .clean) s

/-- CARAVAN_FETCH_STAGED (R200, R210): the whole block is staged in time and written into the Hoard of a pod that runs (R409). -/
def execCaravanFetchStaged (d p e : Nat) (s : State) : Out :=
  onUnit (hasPod s d p && e < 256) <|
    match fetchFlight s d p e with
    | some f => whenDue s (inTime s f && ddrServes s d && domLive s d (pdPod p)) (ddrTouch (hoardBlock d p f (carLand s d p f)) d)
    | none => .next s

/-- CARAVAN_FETCH_LATE (R216): no word is written. -/
def execCaravanFetchLate (d p e : Nat) (s : State) : Out :=
  onUnit (hasPod s d p && e < 256) <|
    match fetchFlight s d p e with
    | some f => whenDue s (decide (f.due ≤ pulseCount s + 1)) (carLate (carLand s d p f) d p e false f.due)
    | none => .next s

/-- The bytes of store staging in use. -/
def stagedBytes (s : State) (d p : Nat) : Nat :=
  natSum ((caravan s d p).flight.map fun f => if f.store then 4 * f.words else 0)

/-- The ECC of the words a store block reads (R177): single-bit errors are corrected; an uncorrectable word is counted. -/
def storeEcc (d p : Nat) (f : Flight) (s : State) : State :=
  each (List.range f.words) (fun i t =>
    match eccAt t (hoardA d p (f.hptr + i)) with
    | .clean => t
    | .single => hoardCorrected t d p (f.hptr + i)
    | .double => hoardUncorrectable t d p (f.hptr + i)) s

/-- CARAVAN_STORE_ISSUE (R211, R215, R217): the block is staged, or skipped for want of room. -/
def execCaravanStoreIssue (d p e : Nat) (s : State) : Out :=
  onUnit (hasPod s d p && e < 256) <|
    match carDue s d p e true with
    | some c =>
      if carParked s d p then .next (carServe s d p e c)
      else if 32768 < stagedBytes s d p + 4 * c.words then
        .next (carLate (carServe s d p e c) d p e true (pulseCount s))
      else
        let f := carFlight s d p e c
        .next (storeEcc d p f (carLaunch (carServe s d p e c) d p f))
    | none => .next s

/-- Whether a store block of the die that was issued before still waits for a part of the same LPDDR4X (R200): of two issued at one Pulse
too, so that memory ends with the one that a read in between takes as the newest. -/
def storeWaits (s : State) (d : Nat) (f : Flight) : Bool :=
  (stagedStores s d).any fun g => decide (g.seq < f.seq) && decide (g.doff < f.doff + 4 * f.words)
    && decide (f.doff < g.doff + 4 * g.words)

/-- CARAVAN_STORE_DONE (R200, R211). -/
def execCaravanStoreDone (d p e : Nat) (s : State) : Out :=
  onUnit (hasPod s d p && e < 256) <|
    match (caravan s d p).flight.find? fun f => f.store && f.entry = e with
    | some f =>
      whenDue s (ddrServes s d && !(ddr s d).window && !storeWaits s d f)
        (ddrTouch (each (List.range f.words) (fun i t =>
          storeW t (pkgA d (0x8_0000_0000 + f.doff + 4 * i)) (f.data.getD i 0)) (carLand s d p f)) d)
    | none => .next s

/-- CARAVAN_TABLE_CHECK_DONE (R214). -/
def execCaravanTableCheckDone (d p : Nat) (s : State) : Out :=
  onUnit (hasPod s d p) <|
    let x := caravan s d p
    let code := if carCheck s d p ≠ 0 then carCheck s d p else if isMet x.change then 4 else 0
    whenDue s (x.change.isSome && !x.passed)
      (if code = 0 then setCaravan s d p { x with passed := true } else carReject (carDrop s d p) d p code)

/-- CARAVAN_TABLE_SWITCH (R214): the table as it stands then becomes active. What was written to it since its check passed is not checked
again (DESIGN CHOICE, assumption log 137: R214 does not say). -/
def execCaravanTableSwitch (d p : Nat) (s : State) : Out :=
  onUnit (hasPod s d p) <|
    whenDue s (isMet (caravan s d p).change && (caravan s d p).passed) (carSwitch (carDrop s d p) d p)

/-! ### The controller -/

/-- DDR_TRAINING_DONE (R201): `ok` says whether every step passed. -/
def execDdrTrainingDone (d : Nat) (ok : Bool) (s : State) : Out :=
  onUnit (d < dieCount s.part) <|
    let a := Reg.DDR_STAT d
    whenDue s (bitF s a F.DDR_STAT_TRAINING && domLive s d pdDdr && !padHeld s d pdDdr)
      (let t := setFld s a F.DDR_STAT_TRAINING 0
       if ok then setFld t a F.DDR_STAT_READY 1 else setFld t a F.DDR_STAT_TRAINFAIL 1)

/-- The rank that the next refresh goes to after this one: with two ranks each is refreshed in turn (R203). -/
def nextRank (s : State) (d : Nat) : Nat := ((ddr s d).rank + 1) % (1 + fld s (Reg.DDR_CFG d) F.DDR_CFG_RANKS)

/-- DDR_REFRESH_DUE (R203, R205): in the window a debt that would exceed 8 breaks it. -/
def execDdrRefreshDue (d : Nat) (s : State) : Out :=
  onUnit (d < dieCount s.part) <|
    let x := ddr s d
    whenDue s (ddrRuns s d)
      (if x.window && decide (8 < x.debt + 1) then
        setDdr (setFld (incReg s (Reg.DDR_BRK_CNT d)) (Reg.DDR_STAT d) F.DDR_STAT_BRK 1) d { x with rank := nextRank s d }
       else setDdr s d { x with debt := x.debt + 1 })

/-- DDR_REFRESH_ISSUE (R203): with two ranks each is refreshed in turn. -/
def execDdrRefreshIssue (d : Nat) (s : State) : Out :=
  onUnit (d < dieCount s.part) <|
    let x := ddr s d
    whenDue s (ddrRuns s d && !x.window && decide (0 < x.debt))
      (setDdr s d { x with debt := x.debt - 1, rank := nextRank s d })

/-- DDR_WINDOW_OPEN (R204). -/
def execDdrWindowOpen (d : Nat) (s : State) : Out :=
  onUnit (d < dieCount s.part) <|
    let x := ddr s d
    whenDue s (ddrRuns s d && pulseRuns s && !x.opened && fld s (Reg.DDR_CRIT d) F.DDR_CRIT_LEN ≠ 0)
      (setDdr s d { x with window := true, opened := true })

/-- The window closed: a retraining that waited for its end starts (R201, R204). -/
def closeWindow (s : State) (d : Nat) : State :=
  let t := setDdr s d { ddr s d with window := false }
  if (ddr t d).retrain then startTraining t d else t

/-- DDR_WINDOW_CLOSE (R204). -/
def execDdrWindowClose (d : Nat) (s : State) : Out :=
  onUnit (d < dieCount s.part) <| whenDue s ((ddr s d).window) (closeWindow s d)

/-- DDR_ZQ_CALIBRATION (R201): it runs outside the window and leaves nothing that software can see. -/
def execDdrZqCalibration (d : Nat) (s : State) : Out :=
  onUnit (d < dieCount s.part) <| whenDue s (ddrRuns s d && !(ddr s d).window) s

/-- DDR_MR4_POLL (R198): the rate that MR4 reports. -/
def execDdrMr4Poll (d mul : Nat) (s : State) : Out :=
  onUnit (d < dieCount s.part) <|
    whenDue s (ddrRuns s d && !(ddr s d).window) (setFld s (Reg.DDR_STAT d) F.DDR_STAT_REFMUL mul)

/-- DDR_POWER_DOWN (R202). -/
def execDdrPowerDown (d : Nat) (s : State) : Out :=
  onUnit (d < dieCount s.part) <|
    let x := ddr s d
    let n := fld s (Reg.DDR_CFG d) F.DDR_CFG_PDIDLE
    whenDue s (ddrRuns s d && !x.window && !x.down && n ≠ 15 && decide (2 ^ n ≤ x.idle)) (setDdr s d { x with down := true })

/-- A die's controller and engines at a Pulse: the window ends, idle ticks are counted, every entry may be served again,
and a table change that names this Pulse is due. -/
def ddrPulse (s : State) (d : Nat) : State :=
  let t := if (ddr s d).window then closeWindow s d else s
  let x := ddr t d
  let busy := x.used || (List.range 8).any fun p => !(caravan t d p).flight.isEmpty
  let t := setDdr t d { x with opened := false, used := false, idle := if busy then 0 else x.idle + 1 }
  each (List.range 8) (fun p u => setCaravan u d p
    { caravan u d p with served := [], change := markMet (pulseLow u).toNat (caravan u d p).change }) t

end Sys2Proof.Machine
end

