-- ==== Sys2Proof/Machine/BusMem.lean ====
section
/-! DEFINITION. Bus accesses to the memories of a die below the register pages: the record of error responses (R361), the
firewall (R365), and the transfers of port DMA. -/
namespace Sys2Proof.Machine

/-- An error response recorded, if none has been since VALID was cleared (R361): `kind` 0 default target, 1 width or
alignment, 2 firewall, 3 uncorrectable ECC; `addr` is the package address. -/
def busError (s : State) (d kind addr : Nat) (a : Access) (write : Bool) : State :=
  let r := Reg.BUS_ERR_HI d
  if bitF s r F.BUS_ERR_HI_VALID then s
  else
    setReg (setReg s (Reg.BUS_ERR_LO d) (BitVec.ofNat 32 addr)) r
      (BitVec.ofNat 32 (2 ^ 31 + kind * 2 ^ 29 + a.master * 2 ^ 24 + write.toNat * 2 ^ 23 + a.odie * 2 ^ 20
        + addr / 2 ^ 32 % 256))

/-- Whether an access has boot privilege (R374): steward 0 of die 0, or the loader of die 0 on its behalf, while
BOOT_STAT.PRIV is 1. -/
def bootPriv (s : State) (a : Access) : Bool :=
  (a.master = 0 || a.master = 2) && a.odie = 0 && bitF s (Reg.BOOT_STAT 0) F.BOOT_STAT_PRIV

/-- Word `w` of firewall region `i`: BASE, LIMIT, RD, WR. -/
def fwWord (s : State) (d i w : Nat) : Word := tab s tFw d (i * 4 + w)

/-- Whether an enabled region covers a page of 4 KiB. -/
def fwCovers (s : State) (d page i : Nat) : Bool :=
  (fwWord s d i 0).getLsbD 31 && decide (wField (fwWord s d i 0) 23 0 ≤ page)
    && decide (page ≤ wField (fwWord s d i 1) 23 0)

/-- Whether the firewall of die `d` permits an access (R365); working memory, reads of the Seed ROM and the transfers of the caravan
engines (masters 10–17) are not checked. -/
def fwAllows (s : State) (d : Nat) (a : Access) (loc : Nat) (write : Bool) : Bool :=
  if !bitF s (Reg.FW_CTL d) F.FW_CTL_EN || bootPriv s a || loc < 0x40_0000 || (10 ≤ a.master && a.master < 18)
      || (!write && 0x1000_0000 ≤ loc && loc < 0x1001_0000) then true
  else
    match (List.range 64).filter (fwCovers s d (loc / 4096)) with
    | [] => (reg s (if write then Reg.FW_DEFWR d else Reg.FW_DEFRD d)).getLsbD a.master
    | rs => rs.any fun i => (fwWord s d i (if write then 3 else 2)).getLsbD a.master

/-! ### Port DMA -/

/-- The access of port DMA (R355). -/
def dmaAccess (d : Nat) : Access := ⟨4, d⟩

/-- Whether DMA to a die-local address is answered now: it waits only for the end of the critical window of a channel that
runs (R204, R257); a channel that does not run answers with an error (R199, R201). -/
def dmaOpen (s : State) (d loc : Nat) : Bool := loc < 0x8_0000_0000 || !(ddrRuns s d && (ddr s d).window)

/-- The kind of error that port DMA meets at `n` bytes of a die, if any. -/
def dmaRefuse (s : State) (d loc n : Nat) (a : Access) (write : Bool) : Option Nat :=
  if loc + n ≤ 0x40_0000 then none
  else if 0x8_0000_0000 ≤ loc && decide (loc + n ≤ 0x8_0000_0000 + ddrBytes s d) && ddrRuns s d then
    (if fwAllows s d a loc write then none else some 2)
  else some 0

/-- The part of a transfer that lies in the 4 KiB page of its first byte, which is what one check of the firewall covers. -/
def pagePart (loc n : Nat) : Nat := min n (4096 - loc % 4096)

/-- `n` bytes of one page read by DMA; free bytes where the access is answered with an error (assumption log 3). -/
def dmaReadPage (s : State) (d loc n : Nat) (a : Access) : State × List Byte :=
  let free (t : State) : State × List Byte :=
    ({ t with fresh := t.fresh + n },
      (List.range n).map fun i => (Config.freeWord (t.fresh + i)).setWidth 8)
  match dmaRefuse s d loc n a false with
  | some k => free (busError s d k (pkgA d loc) a false)
  | none =>
    if loc < 0x40_0000 then
      let (t, ok) := wmLines s d loc n
      if ok then (t, (List.range n).map fun i => loadByte s (pkgA d loc + i))
      else free (busError t d 3 (pkgA d loc) a false)
    else (ddrTouch s d, ddrBytesAt s d loc n)

/-- Bytes written into one page by DMA; nothing changes where the access is answered with an error. -/
def dmaWritePage (s : State) (d loc : Nat) (bs : List Byte) (a : Access) : State :=
  match dmaRefuse s d loc bs.length a true with
  | some k => busError s d k (pkgA d loc) a true
  | none =>
    if loc < 0x40_0000 then
      wmFresh (bs.foldl (fun (acc : State × Nat) b => (storeByte acc.1 acc.2 b, acc.2 + 1)) (s, pkgA d loc)).1 d loc bs.length
    else ddrWrite s d loc bs

/-- `n` bytes, at most 4 KiB, read by DMA, page by page (R365). -/
def dmaRead (s : State) (d loc n : Nat) (a : Access) : State × List Byte :=
  let k := pagePart loc n
  let r := dmaReadPage s d loc k a
  if n ≤ k then r
  else
    let q := dmaReadPage r.1 d (loc + k) (n - k) a
    (q.1, r.2 ++ q.2)

/-- Bytes, at most 4 KiB, written by DMA, page by page (R365). -/
def dmaWrite (s : State) (d loc : Nat) (bs : List Byte) (a : Access) : State :=
  let k := pagePart loc bs.length
  let t := dmaWritePage s d loc (bs.take k) a
  if bs.length ≤ k then t else dmaWritePage t d (loc + k) (bs.drop k) a

end Sys2Proof.Machine
end

