-- ==== Sys2Proof/Machine/Sap.lean ====
section
/-! DEFINITION. Serial audio ports (R243–R265): configuration, the arm check, slot masks, soft mute, rings and the frames of
every kind of port. Biphase blocks and loss of clock are in Biphase.lean. -/
namespace Sys2Proof.Machine

/-! ### Configuration -/

/-- SAP states (SAP_STAT.STATE). -/
def sapStopped : Nat := 0
def sapArmed : Nat := 1
def sapStarting : Nat := 2
def sapRunning : Nat := 3
def sapStopping : Nat := 4
def sapLost : Nat := 5

/-- A field of SAP_CFG. -/
def sapCfg (s : State) (d m : Nat) (f : Fld) : Nat := fld s (Reg.SAP_CFG d m) f

/-- The port's state. -/
def sapState (s : State) (d m : Nat) : Nat := fld s (Reg.SAP_STAT d m) F.SAP_STAT_STATE

/-- Modes of R243. -/
def sapMode (s : State) (d m : Nat) : Nat := sapCfg s d m F.SAP_CFG_MODE
def isPdm (s : State) (d m : Nat) : Bool := sapMode s d m = 4
def isBip (s : State) (d m : Nat) : Bool := sapMode s d m = 5
def isMaster (s : State) (d m : Nat) : Bool := sapCfg s d m F.SAP_CFG_MS = 1
def isConv (s : State) (d m : Nat) : Bool := sapCfg s d m F.SAP_CFG_PATH = 1

/-- Slots of a frame (R244, R252, R268). -/
def sapSlots (s : State) (d m : Nat) : Nat :=
  match sapMode s d m with
  | 3 => sapCfg s d m F.SAP_CFG_SLOTS + 1
  | 4 => 8
  | _ => 2

/-- Bits of a sample in its slot: the slot width, or 24 for PDM and biphase (R245, R252, R268). -/
def sapWidth (s : State) (d m : Nat) : Nat :=
  if isPdm s d m || isBip s d m then 24 else [16, 24, 32].getD (sapCfg s d m F.SAP_CFG_SLOTW) 32

/-- The master clock in Hz (R246). -/
def sapMclk (s : State) (d m : Nat) : Nat :=
  if bitF s (Reg.SAP_CLK d m) F.SAP_CLK_MCLK then 90316800 else 98304000

/-- The clock divider. -/
def sapDiv (s : State) (d m : Nat) : Nat := fld s (Reg.SAP_CLK d m) F.SAP_CLK_BDIV

/-- PDM decimation (R252); 0 for a reserved code. -/
def sapDecim (s : State) (d m : Nat) : Nat := [32, 48, 64, 96, 128].getD (sapCfg s d m F.SAP_CFG_DECIM) 0

/-- Clocks of a frame of a master: bit clocks, PDM clocks or biphase time slots (R244, R252, R269). -/
def sapFrameLen (s : State) (d m : Nat) : Nat :=
  if isPdm s d m then sapDecim s d m else if isBip s d m then 64 else sapSlots s d m * sapWidth s d m

/-- The denominator of a master's frame rate; the numerator is MCLK. -/
def sapRateDen (s : State) (d m : Nat) : Nat := sapDiv s d m * sapFrameLen s d m

/-- E of R248: a frame boundary lies before every Pulse whose count is a multiple of it. -/
def sapEpoch (s : State) (d m : Nat) : Nat :=
  let n := sapRateDen s d m * ticksPerSecond s
  n / Nat.gcd n (sapMclk s d m)

/-- Frame boundaries of a master's grid before `x` ticks have passed since a Pulse whose count is a multiple of E (R248):
boundary `k` lies `k` frames less the lead after that Pulse. The lead of 2,604.2 ns is the 32 bit clocks of 12.288 MHz that
the spec's example states, 1/384,000 s. -/
def sapGridBefore (s : State) (d m x : Nat) : Nat :=
  let r := ticksPerSecond s
  let n := sapRateDen s d m * r * 384000
  (sapMclk s d m * (384000 * x + r) + n - 1) / n

/-- Frame boundaries of a master's grid in the tick with count `c` (R248). -/
def sapFramesIn (s : State) (d m c : Nat) : Nat :=
  let x := c % sapEpoch s d m
  sapGridBefore s d m (x + 1) - sapGridBefore s d m x

/-- Whether the frames of a port come from its pins (R250, R270): a slave, or a biphase port with MS 0. -/
def isSlave (s : State) (d m : Nat) : Bool := !isMaster s d m

/-- Whether the receive side takes its frames from the pins: a slave or a biphase receiver. -/
def rxFromPins (s : State) (d m : Nat) : Bool := isSlave s d m || isBip s d m

/-! ### Samples at the pins -/

/-- Bit clocks from bit clock 0 of a frame to its slot 0 (R244). -/
def slotDelay (s : State) (d m : Nat) : Nat :=
  match sapMode s d m with
  | 1 => 1
  | 3 => sapCfg s d m F.SAP_CFG_DELAY
  | _ => 0

/-- The bits of a list as a number, the first most significant. -/
def msbFirst (bits : List Bool) : Nat := bits.foldl (fun v b => 2 * v + b.toNat) 0

/-- Slot `i` of a received frame in the top bits of a word (R244, R245): the bits sampled on the rising edge of BCLK, or on
the falling one with BCLKINV. -/
def pinSlot (s : State) (d m : Nat) (f : SapFrame) (i : Nat) : Word :=
  let w := sapWidth s d m
  let bits := f.pins.getD (sapCfg s d m F.SAP_CFG_BCLKINV) []
  BitVec.ofNat 32 (msbFirst ((List.range w).map fun k => bits.getD (slotDelay s d m + i * w + k) false) * 2 ^ (32 - w))

/-- The list of bits that a PDM slot samples (R252): slot 2d the rising edges of SDd and slot 2d + 1 the falling ones, the
other way round with BCLKINV. -/
def pdmLine (s : State) (d m i : Nat) : Nat :=
  if sapCfg s d m F.SAP_CFG_BCLKINV = 1 then i / 2 * 2 + (1 - i % 2) else i

/-- A running sum over `r` entries. -/
def boxcar (r : Nat) : List Int → List Int
  | [] => []
  | x :: xs => ((x :: xs).take r).foldl (· + ·) 0 :: boxcar r xs

/-- A fourth-order CIC decimator by `r` (R252), the newest output first. -/
def cicDecimate (r : Nat) (xs : List Int) : List Int :=
  let ys := boxcar r (boxcar r (boxcar r (boxcar r xs)))
  (List.range (ys.length / max 1 r)).map fun i => ys.getD (r * i) 0

/-- PCM periods that the bits of a decimator span (assumption log 89). -/
def pdmSpan : Nat := 64

/-- A half-band stage (R252), in units of 2^-23: every second output of a filter with the impulse response `h`, the newest first. -/
def halfBandStage (h : Nat → Int) (xs : List Int) : List Int :=
  (List.range (xs.length / 2)).map fun j =>
    ((xs.drop (2 * j)).zipIdx).foldl (fun acc e => acc + h e.2 * e.1) 0

/-- The exact value `v` ÷ `den` as a 24-bit sample in the top of a word, rounded down; outside the format it is open. -/
def sample24 (v : Int) (den : Nat) : Word :=
  let q := v / (den : Int)
  if -(2 ^ 23) ≤ q && q < 2 ^ 23 then BitVec.ofInt 32 (q * 2 ^ 8) else Config.clipped q &&& 0xFFFFFF00

/-- The output sample of a PDM slot (R252): a fourth-order CIC decimator by DECIM ÷ 4, which delays by half a sample period with two
bits of pipeline, and two half-band stages, with 24 significant bits (assumption log 89). -/
def pdmValue (s : State) (d m i : Nat) : Word :=
  let n := sapDecim s d m
  let r := n / 4
  let cic := cicDecimate r ((((sap s d m).pdm.getD i []).drop 2).map fun b => if b then 1 else -1)
  let pcm := halfBandStage (Config.halfBand n 2) ((halfBandStage (Config.halfBand n 1) cic))
  sample24 (pcm.headD 0) (r ^ 4 * 2 ^ 23)

/-- The bits of a PDM frame taken by the decimators of the enabled slots (R252): those of the latest 64 sample periods are
kept (assumption log 89). A disabled slot's decimator is stopped. -/
def pdmTake (s : State) (d m : Nat) (f : SapFrame) : State :=
  let x := sap s d m
  let keep (i : Nat) : List Bool :=
    if x.maskRx.getLsbD i then ((f.pins.getD (pdmLine s d m i) []).reverse ++ x.pdm.getD i []).take (pdmSpan * sapDecim s d m)
    else []
  setSap s d m { x with pdm := (List.range 8).map keep }

/-! ### Rings -/

/-- A ring of a port (R255): transmit or receive. -/
def ringBase (s : State) (d m : Nat) (tx : Bool) : Nat :=
  64 * fld s (if tx then Reg.SAP_TXR_BASE d m else Reg.SAP_RXR_BASE d m) F.SAP_RXR_BASE_ADDR
def ringSize (s : State) (d m : Nat) (tx : Bool) : Nat :=
  64 * fld s (if tx then Reg.SAP_TXR_SIZE d m else Reg.SAP_RXR_SIZE d m) F.SAP_RXR_SIZE_SIZE
def ringWptrA (d m : Nat) (tx : Bool) : Nat := if tx then Reg.SAP_TXR_WPTR d m else Reg.SAP_RXR_WPTR d m
def ringRptrA (d m : Nat) (tx : Bool) : Nat := if tx then Reg.SAP_TXR_RPTR d m else Reg.SAP_RXR_RPTR d m

/-- Bytes used in a ring (R256); 0 while it is disabled. -/
def ringUsed (s : State) (d m : Nat) (tx : Bool) : Nat :=
  let z := ringSize s d m tx
  if z = 0 then 0
  else (fld s (ringWptrA d m tx) F.SAP_RXR_WPTR_OFFSET + z - fld s (ringRptrA d m tx) F.SAP_RXR_RPTR_OFFSET % z) % z

/-- STAT.TXTHR and RXTHR (R256); 0 while the ring is disabled, as at reset. -/
def ringThr (s : State) (d m : Nat) (tx : Bool) : Bool :=
  ringSize s d m tx ≠ 0 &&
    (if tx then decide (ringUsed s d m true ≤ fld s (Reg.SAP_TXR_THR d m) F.SAP_TXR_THR_BYTES)
     else decide (fld s (Reg.SAP_RXR_THR d m) F.SAP_RXR_THR_BYTES ≤ ringUsed s d m false))

/-- Whether a ring lies wholly in working memory or installed LPDDR4X (code 0x7 of the arm check). -/
def ringFits (s : State) (d base size : Nat) : Bool :=
  size = 0 || base + size ≤ 0x40_0000
    || (0x8_0000_0000 ≤ base && decide (base + size ≤ 0x8_0000_0000 + ddrBytes s d))

/-- The slots that take part in a ring, in order (R255). A write of the ring's MASK acts at once, within a frame in progress too (DESIGN
CHOICE, assumption log 141: R255 gives a time for the port's own masks only). -/
def ringSlots (s : State) (d m : Nat) (tx : Bool) : List Nat :=
  let en := if tx then (sap s d m).maskTx else (sap s d m).maskRx
  let mk := reg s (if tx then Reg.SAP_TXR_MASK d m else Reg.SAP_RXR_MASK d m)
  if ringSize s d m tx = 0 || (tx && isPdm s d m) then []
  else (List.range (sapSlots s d m)).filter fun i => en.getLsbD i && mk.getLsbD i

/-- The parts of `n` bytes at ring offset `o`: address and length, continued at BASE (R255). -/
def ringParts (base size o n : Nat) : List (Nat × Nat) :=
  if size < o + n then [(base + o, size - o), (base, n - (size - o))] else [(base + o, n)]

/-- A ring offset moved on. -/
def ringNext (size o n : Nat) : Nat := if size ≤ o + n then o + n - size else o + n

/-- Bytes read from a ring at an offset. -/
def ringRead (s : State) (d base size o n : Nat) : State × List Byte :=
  (ringParts base size o n).foldl (fun (acc : State × List Byte) p =>
    let (t, bs) := dmaRead acc.1 d p.1 p.2 (dmaAccess d)
    (t, acc.2 ++ bs)) (s, [])

/-- Bytes written to a ring at an offset. -/
def ringWrite (s : State) (d base size o : Nat) (bs : List Byte) : State :=
  ((ringParts base size o bs.length).foldl (fun (acc : State × List Byte) p =>
    (dmaWrite acc.1 d p.1 (acc.2.take p.2) (dmaAccess d), acc.2.drop p.2)) (s, bs)).1

/-- Bytes of one unit of transfer (R255): a ring frame, or a sample; 0 where no slot takes part, as in the transmit ring of a PDM
port (R252). -/
def ringUnit (s : State) (d m : Nat) (tx : Bool) : Nat :=
  if (ringSlots s d m tx).isEmpty then 0
  else if sapCfg s d m F.SAP_CFG_PACK = 1 then 3 else 4 * (ringSlots s d m tx).length

/-! ### Gain -/

/-- x × j ÷ L, rounded down, at the slot width (R264). -/
def sapScale (width : Nat) (g : Gain) (x : Word) : Word :=
  if g.len ≤ g.j then x
  else
    let v : Int := toSigned (x.toNat / 2 ^ (32 - width)) width * g.j / g.len
    BitVec.ofNat 32 (ofSigned v width * 2 ^ (32 - width))

/-- The length of the next ramp (R264). -/
def sapLen (s : State) (d m : Nat) : Nat := max 1 (min 4096 (fld s (Reg.SAP_MUTE d m) F.SAP_MUTE_LEN))

/-- One step of a gain, down or up; a ramp that begins takes the length in force (R264). -/
def Gain.step (g : Gain) (len : Nat) (up : Bool) : Gain :=
  let h : Gain := if g.up = some up then g else { g with len := len, up := some up, j := min g.j len }
  { h with j := if up then min h.len (h.j + 1) else h.j - 1 }

/-- Whether a gain ramps. -/
def Gain.ramps (g : Gain) : Bool :=
  match g.up with
  | some true => g.j < g.len
  | some false => 0 < g.j
  | none => false

/-- Whether the port itself is held down (R264): STOPPING, CTL.MUTE, or the loss of the clock that its transmitter goes by. -/
def sapDown (s : State) (d m : Nat) : Bool :=
  sapState s d m = sapStopping || bitF s (Reg.SAP_CTL d m) F.SAP_CTL_MUTE || ((sap s d m).lost && isSlave s d m)

/-- Whether the receive side's gain waits for the converter channels of a port that has recovered (R280, R283). -/
def rxWaits (s : State) (d m : Nat) : Bool := isConv s d m && (sap s d m).held

/-- Whether the receive side is without its input: a lost clock, or relocking converters (R278, R283). -/
def rxLost (s : State) (d m : Nat) : Bool := (sap s d m).lost || (sap s d m).relockRx

/-- The receive side's gain after one more of its frames (R264, R265, R280): down while a cause holds the port down; otherwise up, but
for channels whose ratio is still to be acquired, which leave it as it is. -/
def rxGain (s : State) (d m : Nat) : Gain :=
  let g := (sap s d m).gainRx
  if rxLost s d m then g
  else if sapDown s d m then g.step (sapLen s d m) false
  else if rxWaits s d m then g
  else g.step (sapLen s d m) true

/-- STAT.RAMP and STAT.MUTED as the gains leave them (R264). Where the two sides of a biphase port with MS 1 have different gains
(R278), MUTED shows the receive side's, and RAMP either one's ramp (DESIGN CHOICE, assumption log 126). -/
def sapGainStat (s : State) (d m : Nat) : State :=
  let a := Reg.SAP_STAT d m
  let live := 2 ≤ sapState s d m
  let x := sap s d m
  setFld (setFld s a F.SAP_STAT_RAMP (live && (x.gain.ramps || x.gainRx.ramps)).toNat) a F.SAP_STAT_MUTED
    (live && x.gainRx.j = 0).toNat

/-- The port's state set, with what hangs on it: CTL.ARM, the gain bits and the power votes. -/
def setSapState (s : State) (d m st : Nat) : State :=
  let t := setFld (setFld s (Reg.SAP_STAT d m) F.SAP_STAT_STATE st) (Reg.SAP_CTL d m) F.SAP_CTL_ARM
    (st = sapArmed || st = sapStarting : Bool).toNat
  powerSync (sapGainStat t d m) d

/-- A bit of SAP_STAT set. -/
def sapFlag (s : State) (d m : Nat) (f : Fld) : State := setFld s (Reg.SAP_STAT d m) f 1

/-- What a port keeps from run to run: the masks written, and the units and status records that still wait for their receive
rings (R204, R257, R275). -/
def SapPort.rest (x : SapPort) : SapPort :=
  { SapPort.zero with
    maskRx := x.maskRx, maskTx := x.maskTx, sureRx := x.sureRx, sureTx := x.sureTx, bufRx := x.bufRx
    bip := { SapPort.zero.bip with recs := x.bip.recs } }

/-- The port STOPPED: nothing is sent, and nothing is published from the next Pulse on (R265). A block in progress goes without being
counted (DESIGN CHOICE, assumption log 132). -/
def sapStop (s : State) (d m : Nat) (flag : Bool) : State :=
  let t := setSap s d m (sap s d m).rest
  let t := if m < 4 then
      setFld (setFld t (Reg.BIP_STAT d m) F.BIP_STAT_FALLBACK 0) (Reg.BIP_STAT d m) F.BIP_STAT_LOCK 0 else t
  let u := setSapState t d m sapStopped
  if flag then sapFlag u d m F.SAP_STAT_STOPPED else u

/-! ### Arming -/

/-- Whether a master's frame rate lies in [lo, hi] Hz. -/
def sapRateIn (s : State) (d m lo hi : Nat) : Bool :=
  let den := sapRateDen s d m
  0 < den && decide (lo * den ≤ sapMclk s d m) && decide (sapMclk s d m ≤ hi * den)

/-- Whether a master's frame rate and MCLK family match the internal rate (R247). -/
def sapLocked (s : State) (d m : Nat) : Bool :=
  sapMclk s d m = ticksPerSecond s * sapRateDen s d m
    && (bitF s (Reg.SAP_CLK d m) F.SAP_CLK_MCLK == (rateCode s % 2 == 0))

/-- The status rings of a biphase port that fit in memory (R269). -/
def statusRingsFit (s : State) (d m : Nat) : Bool :=
  ringFits s d (128 * fld s (Reg.BIP_SRXBASE d m) F.BIP_SRXBASE_ADDR) (128 * fld s (Reg.BIP_SRXSIZE d m) F.BIP_SRXSIZE_SIZE)
    && ringFits s d (128 * fld s (Reg.BIP_STXBASE d m) F.BIP_STXBASE_ADDR)
      (128 * fld s (Reg.BIP_STXSIZE d m) F.BIP_STXSIZE_SIZE)

/-- The first failing reason of the arm check (R260, R269), 0 if none. -/
def armCheck (s : State) (d m : Nat) : Nat :=
  let mode := sapMode s d m
  let ms := isMaster s d m
  let div := sapDiv s d m
  let mclk := sapMclk s d m
  let rings := ringFits s d (ringBase s d m false) (ringSize s d m false)
    && ringFits s d (ringBase s d m true) (ringSize s d m true) && (mode ≠ 5 || statusRingsFit s d m)
  if mode = 0 || 6 ≤ mode || (mode = 5 && 4 ≤ m) then 1
  else if (mode = 1 || mode = 2) && sapCfg s d m F.SAP_CFG_SLOTS ≠ 1 then 2
  else if mode ≤ 3 && sapCfg s d m F.SAP_CFG_SLOTW = 3 then 2
  else if ms && (div < 2 || 49152000 * div < mclk) then 3
  else if ms && 0 < sapRateDen s d m && !sapRateIn s d m 8000 384000 then 4
  else if ms && !isConv s d m && 0 < sapRateDen s d m && !sapLocked s d m then 5
  else if mode = 4 && (!ms || sapDecim s d m = 0 || mclk < 1024000 * div || 6144000 * div < mclk
      || !sapRateIn s d m 8000 384000) then 6
  else if !rings then 7
  else if !pulseRuns s then 8
  else if mode = 5 && ms && !sapRateIn s d m 28000 216000 then 9
  else 0

/-- The trigger that an armed port waits for (R261). -/
def armTrig (s : State) (d m : Nat) : Trig :=
  if sapCfg s d m F.SAP_CFG_TSRC = 2 then .low (fld s (Reg.SAP_TPULSE d m) F.SAP_TPULSE_TARGET) else .idle

/-- ARM written 1 while STOPPED (R260). -/
def sapArm (s : State) (d m : Nat) : State :=
  let code := armCheck s d m
  if code ≠ 0 then
    setFld (sapFlag s d m F.SAP_STAT_REFUSED) (Reg.SAP_STAT d m) F.SAP_STAT_CFGERR code
  else setSapState (setSap s d m { (sap s d m).rest with trig := armTrig s d m }) d m sapArmed

/-- A write of `v` to SAP_CTL (R260, R264, R265). A return to STOPPED from ARMED or STARTING leaves STAT.STOPPED as it is (DESIGN
CHOICE, assumption log 127). -/
def sapCtlWrite (s : State) (d m : Nat) (v : Word) : State :=
  let t := setFld s (Reg.SAP_CTL d m) F.SAP_CTL_MUTE (wGet v F.SAP_CTL_MUTE)
  let st := sapState t d m
  if wGet v F.SAP_CTL_STOP = 1 then
    if st = sapRunning || st = sapLost then setSapState t d m sapStopping
    else if st = sapArmed || st = sapStarting then sapStop t d m false
    else sapFlag t d m F.SAP_STAT_CFGREJ
  else if wGet v F.SAP_CTL_ARM = fld t (Reg.SAP_CTL d m) F.SAP_CTL_ARM then t
  else if wGet v F.SAP_CTL_ARM = 0 then sapStop t d m false
  else if st = sapStopped then sapArm t d m
  else sapFlag t d m F.SAP_STAT_CFGREJ

/-- A write of `v` to a slot mask: the value becomes pending (R253). -/
def sapMaskWrite (s : State) (d m : Nat) (tx : Bool) (v : Word) : State :=
  let sure := sapState s d m ≤ sapArmed
  let x := sap s d m
  let t := setReg s (if tx then Reg.SAP_SLOTMASK_TX d m else Reg.SAP_SLOTMASK_RX d m) v
  let u := setFld t (Reg.SAP_MASKSTAT d m) (if tx then F.SAP_MASKSTAT_PENDTX else F.SAP_MASKSTAT_PENDRX) 1
  setSap u d m (if tx then { x with sureTx := sure } else { x with sureRx := sure })

/-- A write to SAP0_TRIG (R261, TSRC 0). -/
def sapTrigWrite (s : State) (d : Nat) (v : Word) : State :=
  each (List.range 10) (fun m t =>
    if v.getLsbD m && sapState t d m = sapArmed && sapCfg t d m F.SAP_CFG_TSRC = 0 then
      setSap t d m { sap t d m with trig := .next } else t) s

/-- A trigger with source `src` at Pulse `trig` for every armed port that waits for it. -/
def sapTrigAll (s : State) (src : Nat) (ok : Nat → Nat → Bool) (trig : Trig) : State :=
  each (dies s) (fun d t => each (List.range 10) (fun m u =>
    if sapState u d m = sapArmed && sapCfg u d m F.SAP_CFG_TSRC = src && (sap u d m).trig = .idle && ok d m then
      setSap u d m { sap u d m with trig := trig } else u) t) s

/-! ### Masks and frames -/

/-- A ring's ROT after its ring frame has changed to `n` slots (R259). -/
def ringRotFit (s : State) (d m : Nat) (tx : Bool) : State :=
  let n := (ringSlots s d m tx).length
  let a := if tx then Reg.SAP_TXR_ROT d m else Reg.SAP_RXR_ROT d m
  if n = 0 then s else setFld s a F.SAP_RXR_ROT_ROT (fld s a F.SAP_RXR_ROT_ROT % n)

/-- A pending mask applied at a frame sync if it was written in time (R253). -/
def sapMaskApply (s : State) (d m : Nat) (tx fit zero : Bool) : State :=
  let f := if tx then F.SAP_MASKSTAT_PENDTX else F.SAP_MASKSTAT_PENDRX
  let x := sap s d m
  if bitF s (Reg.SAP_MASKSTAT d m) f && (fit || (zero && (if tx then x.sureTx else x.sureRx))) then
    let v := reg s (if tx then Reg.SAP_SLOTMASK_TX d m else Reg.SAP_SLOTMASK_RX d m)
    let t := setSap s d m (if tx then { x with maskTx := v, sureTx := false } else { x with maskRx := v, sureRx := false })
    let u := setReg (setFld t (Reg.SAP_MASKSTAT d m) f 0) (Reg.SAP_MASKFRAME d m) (reg s (Reg.SAP_FRAMECNT d m))
    ringRotFit u d m tx
  else s

/-- Whether port `m` of die `d` is the input that CLKSTEER_SEL names. -/
def steerInput (s : State) (d m : Nat) : Bool :=
  fld s (Reg.CLKSTEER_SEL 0) F.CLKSTEER_SEL_DIE = d && fld s (Reg.CLKSTEER_SEL 0) F.CLKSTEER_SEL_PORT = m

/-- The steering state LOCK (R288). -/
def steerLock : Nat := 2

/-- The steering state. -/
def steerState (s : State) : Nat := fld s (Reg.CLKSTEER_STAT 0) F.CLKSTEER_STAT_STATE

/-- Whether a port's frames track the Pulse (R250, R288): the rate-follow input that is not lost, with the loop in LOCK. -/
def frameTracks (s : State) (d m : Nat) : Bool :=
  steerState s = steerLock && steerInput s d m && !(sap s d m).lost
    && (sapState s d m = sapRunning || sapState s d m = sapStopping)

/-- FSLIP: a frame repeated or dropped (R250), which cannot be while the port tracks the Pulse (R288). -/
def sapSlip (s : State) (d m : Nat) : State :=
  if frameTracks s d m then s else sapFlag (incReg s (Reg.SAP_FSLIP_CNT d m)) d m F.SAP_STAT_FSLIP

/-- Whether the Pulse can come at another time than the nominal one (R26, R31): the synthesizer is steered by an input, or
follows the link. -/
def pulseMoves (s : State) : Bool := s.steer.offset ≠ 0 || 2 ≤ fld s (Reg.LINK_GMSTAT 0) F.LINK_GMSTAT_TSTATE

/-- Whether a frame that completes now completes less than 0.8 us before the next Pulse (R250): after the deadline of the
tick (R31) while the Pulse keeps nominal time, otherwise as the frame says. -/
def frameLate (s : State) (f : SapFrame) : Bool := if pulseMoves s then f.late else s.phase = .commit

/-- Whether a frame that completes now finds its buffer free while its port tracks the Pulse (R288): no slip occurs. -/
def trackRoom (s : State) (d m : Nat) (late : Bool) : Bool :=
  !frameTracks s d m ||
    (if late then (sap s d m).got.isSome && (sap s d m).late.isNone else (sap s d m).got.isNone)

/-- Whether the next Pulse waits for the frame of an input that it tracks (R250, R288). -/
def trackOwed (s : State) : Bool :=
  let d := fld s (Reg.CLKSTEER_SEL 0) F.CLKSTEER_SEL_DIE
  let m := fld s (Reg.CLKSTEER_SEL 0) F.CLKSTEER_SEL_PORT
  frameTracks s d m && rxFromPins s d m && !isConv s d m && (sap s d m).got.isNone

/-- Samples or frames lost at a ring (R258, R259): LOST and its flag. -/
def ringLost (s : State) (d m : Nat) (tx : Bool) : State :=
  sapFlag (incReg s (if tx then Reg.SAP_TXR_LOST d m else Reg.SAP_RXR_LOST d m)) d m
    (if tx then F.SAP_STAT_TXUNR else F.SAP_STAT_RXOVR)

/-- The end or the beginning of a run of lost samples at slot position `i` (R259): SLIP anywhere but at a ring-frame
boundary. -/
def ringRun (s : State) (d m : Nat) (tx : Bool) (i : Nat) (lost : Bool) : State :=
  let x := sap s d m
  if (if tx then x.runTx else x.runRx) = lost then s
  else
    let t := setSap s d m (if tx then { x with runTx := lost } else { x with runRx := lost })
    if i = 0 then t else sapFlag t d m F.SAP_STAT_SLIP

/-- One sample lost in packed mode (R259): LOST, ROT, SLIP. -/
def sampleLost (s : State) (d m : Nat) (tx : Bool) (i n : Nat) : State :=
  let a := if tx then Reg.SAP_TXR_ROT d m else Reg.SAP_RXR_ROT d m
  let t := ringRun (ringLost s d m tx) d m tx i true
  setFld t a F.SAP_RXR_ROT_ROT ((fld t a F.SAP_RXR_ROT_ROT + 1) % n)

/-- Bytes that wait in the receive buffer, those of the frame's samples that are sure of their room among them. -/
def rxHeld (s : State) (d m : Nat) : Nat :=
  let x := sap s d m
  natSum (x.bufRx.map List.length) + ringUnit s d m false * (x.judged.filter id).length

/-- Whether a unit of `n` bytes fits the receive ring beside what waits, and the 2 KiB buffer (R256–R258). -/
def rxRoom (s : State) (d m n : Nat) : Bool :=
  let h := rxHeld s d m
  decide (ringUsed s d m false + h + n + 1 ≤ ringSize s d m false) && decide (h + n ≤ 2048)

/-- A unit placed in the receive buffer. -/
def rxQueue (s : State) (d m : Nat) (bs : List Byte) : State :=
  let x := sap s d m
  setSap s d m { x with bufRx := x.bufRx ++ [bs] }

/-- The next sample of a packed frame finds room in the ring or is lost (R259): slot `k` of the `n` of the ring frame. -/
def rxJudge (s : State) (d m n : Nat) : State :=
  let k := (sap s d m).judged.length
  let ok := rxRoom s d m 3
  let t := if ok then ringRun s d m false k false else sampleLost s d m false k n
  setSap t d m { sap t d m with judged := (sap t d m).judged ++ [ok] }

/-- A ring frame finds room in the ring or is lost whole, once its last slot is complete at the pins (R257, R258). -/
def rxJudgeFrame (s : State) (d m : Nat) : State :=
  let ok := rxRoom s d m (ringUnit s d m false)
  let t := if ok then s else ringLost s d m false
  setSap t d m { sap t d m with judged := [ok] }

/-- What of the frame in progress has come complete at the pins so far, judged by the room there is before it changes (R257–R259): how many
samples they are, or whether a ring frame that ends before the port's frame has ended, is open (assumption log 3). The slots of a PDM
frame end with it. -/
def rxJudgeSome (s : State) (d m : Nat) : State :=
  let slots := ringSlots s d m false
  let k := slots.length - (sap s d m).judged.length
  let st := sapState s d m
  let t := { s with fresh := s.fresh + 1 }
  if k = 0 || isPdm s d m || (sap s d m).lost || !(st = sapRunning || st = sapStopping) then s
  else if sapCfg s d m F.SAP_CFG_PACK = 0 then
    if (sap s d m).judged.isEmpty && decide (slots.getLastD 0 + 1 < sapSlots s d m) && Config.freeBool s.fresh then rxJudgeFrame t d m else t
  else each (List.range (Config.freeNat s.fresh % (k + 1))) (fun _ u => rxJudge u d m slots.length) t

/-- The ring's part of a received frame (R255, R258, R259): each unit as it was judged. -/
def ringReceive (s : State) (d m : Nat) (val : Nat → Word) : State :=
  let slots := ringSlots s d m false
  let n := slots.length
  let top (i : Nat) : Nat := (val i).toNat / 256
  if n = 0 then s
  else if sapCfg s d m F.SAP_CFG_PACK = 0 then
    let t := if (sap s d m).judged.isEmpty then rxJudgeFrame s d m else s
    let ok := (sap t d m).judged.headD false
    let u := setSap t d m { sap t d m with judged := [] }
    if ok then rxQueue u d m (slots.flatMap fun i => toBytes 4 (top i * 256)) else u
  else
    let t := each (List.range (n - (sap s d m).judged.length)) (fun _ u => rxJudge u d m n) s
    let x := sap t d m
    let kept := (slots.zip x.judged).filter (·.2)
    setSap t d m { x with judged := [], bufRx := x.bufRx ++ kept.map fun e => toBytes 3 (top e.1) }

/-- `n` bytes for the transmit side: from the buffer, and what it lacks from the ring if that holds it and memory answers
(R257); `none` otherwise, with nothing consumed. -/
def ringTake (s : State) (d m n : Nat) : Option (State × List Byte) :=
  let x := sap s d m
  if n ≤ x.bufTx.length then some (setSap s d m { x with bufTx := x.bufTx.drop n }, x.bufTx.take n)
  else
    let k := n - x.bufTx.length
    let base := ringBase s d m true
    let size := ringSize s d m true
    if k ≤ ringUsed s d m true && dmaOpen s d base then
      let o := fld s (ringRptrA d m true) F.SAP_RXR_RPTR_OFFSET
      let (t, bs) := ringRead s d base size o k
      let u := setFld t (ringRptrA d m true) F.SAP_RXR_RPTR_OFFSET (ringNext size o k)
      some (setSap u d m { sap u d m with bufTx := [] }, x.bufTx ++ bs)
    else none

/-- A packed sample as a word. -/
def packedWord (bs : List Byte) : Word := BitVec.ofNat 32 (ofBytes bs * 256)

/-- Word `i` of a ring frame in frame-locked mode (R255). -/
def lockedWord (bs : List Byte) (i : Nat) : Word := BitVec.ofNat 32 (ofBytes ((bs.drop (4 * i)).take 4) / 256 * 256)

/-- What a slot sends of a word: its top bits under the port's gain (R245, R264). -/
def sentWord (s : State) (d m : Nat) (v : Word) : Word :=
  let w := sapWidth s d m
  sapScale w (sap s d m).gain (BitVec.ofNat 32 (v.toNat / 2 ^ (32 - w) * 2 ^ (32 - w)))

/-- The ring's part of a frame to send: each ring slot with its sample (R255, R257–R259). The shift register needs slot 0 when the frame
begins: a unit that is not there then is lost if it begins with slot 0, and otherwise waits for its time, as the later slots of a
packed frame do. -/
def ringSend (s : State) (d m : Nat) : State × List (Nat × Word) :=
  let slots := ringSlots s d m true
  let n := slots.length
  if n = 0 then (s, [])
  else if sapCfg s d m F.SAP_CFG_PACK = 0 then
    match ringTake s d m (4 * n) with
    | some (t, bs) => (t, (slots.zipIdx).map fun e => (e.1, lockedWord bs e.2))
    | none =>
      (if slots.headD 0 = 0 then ringLost s d m true else setSap s d m { sap s d m with due := slots.zipIdx },
        slots.map fun i => (i, 0))
  else
    let (t, out, due) := slots.zipIdx.foldl (fun (acc : State × List (Nat × Word) × List (Nat × Nat)) e =>
      let (t, out, due) := acc
      if !due.isEmpty then (t, out ++ [(e.1, 0)], due ++ [e])
      else match ringTake t d m 3 with
        | some (u, bs) => (ringRun u d m true e.2 false, out ++ [(e.1, packedWord bs)], [])
        | none =>
          if e.1 = 0 then (sampleLost t d m true e.2 n, out ++ [(e.1, 0)], []) else (t, out ++ [(e.1, 0)], [e])) (s, [], [])
    (setSap t d m { sap t d m with due := due }, out)

/-- A ring frame that waits to be sent (R257, R258): it is lost if its first slot's bit clocks have come by now, which is open (assumption
log 3), and otherwise takes its samples once all of them are there. -/
def ringFillFrame (s : State) (d m : Nat) : State :=
  let due := (sap s d m).due
  let t := { s with fresh := s.fresh + 1 }
  if Config.freeBool s.fresh then ringLost (setSap t d m { sap t d m with due := [] }) d m true
  else match ringTake t d m (4 * due.length) with
    | some (u, bs) => each due (fun e v =>
        setSap v d m { sap v d m with out := alPut e.1 (sentWord v d m (lockedWord bs e.2)) (sap v d m).out })
        (setSap u d m { sap u d m with due := [] })
    | none => t

/-- The slots of the frame in progress that wait for a packed sample (R257, R259), in order: those whose bit clocks have passed have
sent 0 and lost theirs, and how many they are is open (assumption log 3); each of the others takes the one that has come by
now, and sends it in its bit clocks. -/
def ringFillPacked (s : State) (d m : Nat) : State :=
  let due := (sap s d m).due
  let gone := Config.freeNat s.fresh % (due.length + 1)
  let t := each (due.take gone) (fun e u => sampleLost u d m true e.2 (ringSlots s d m true).length) { s with fresh := s.fresh + 1 }
  each (due.drop gone) (fun e t =>
    if (sap t d m).due.head? ≠ some e then t
    else match ringTake t d m 3 with
      | some (u, bs) =>
        let y := sap u d m
        ringRun (setSap u d m { y with due := y.due.drop 1, out := alPut e.1 (sentWord u d m (packedWord bs)) y.out }) d m true e.2 false
      | none => t) (setSap t d m { sap t d m with due := due.drop gone })

/-- What waits to be sent in the frame in progress, when the ring has more (R257). -/
def ringFill (s : State) (d m : Nat) : State :=
  if (sap s d m).due.isEmpty then s
  else if sapCfg s d m F.SAP_CFG_PACK = 0 then ringFillFrame s d m else ringFillPacked s d m

/-- The end of a frame (R257–R259): a slot that still waits for its packed sample has sent 0 and lost it, and a ring frame that waits is
lost whole. Of a frame that an FSYNC has cut after `cut` bit clocks, the slots not reached lose nothing (R251). -/
def ringFinish (s : State) (d m : Nat) (cut : Option Nat) : State :=
  let x := sap s d m
  let n := (ringSlots s d m true).length
  let sent (e : Nat × Nat) : Bool := match cut with
    | some k => decide (slotDelay s d m + e.1 * sapWidth s d m < k)
    | none => true
  let t := setSap s d m { x with due := [] }
  if sapCfg s d m F.SAP_CFG_PACK = 0 then (if x.due.head?.any sent then ringLost t d m true else t)
  else each (x.due.filter sent) (fun e u => sampleLost u d m true e.2 n) t

/-! ### Converter channels -/

/-- Whether an entry word names a port, slot and direction. -/
def srcNames (w : Word) (m slot : Nat) (tx : Bool) : Bool :=
  w.getLsbD 31 && w.getLsbD 30 == tx && wField w 12 8 = slot && wField w 3 0 = m

/-- Whether an engine serves channels: not as the spare (R282), and not once retired (R443). -/
def engineServes (s : State) (d e : Nat) : Bool :=
  !bitF s (Reg.SRC_ROLE d e) F.SRC_ROLE_SPARE
    && !(bitF s (Reg.SPARE_SRC d) F.SPARE_SRC_RETV && fld s (Reg.SPARE_SRC d) F.SPARE_SRC_RETIRED = e)

/-- The entry that serves a slot (R282): engines in service, the lowest engine and then the lowest entry. -/
def srcServer (s : State) (d m slot : Nat) (tx : Bool) : Option Nat :=
  ((tabRange s tSrc d 0 384).find? fun e =>
    srcNames e.2 m slot tx && engineServes s d (e.1 / 64)).map (·.1)

/-- Whether a ratio, in 24 fraction bits, lies outside 1:16–16:1 (R283). -/
def ratioRange (r : Nat) : Bool := decide (r * 16 < 2 ^ 24) || decide (16 * 2 ^ 24 < r)

/-- The exact ratio of a master (R283). -/
def masterRatio (s : State) (d m : Nat) : Nat :=
  sapMclk s d m * 2 ^ 24 / (sapRateDen s d m * ticksPerSecond s)

/-- Whether the ratio of a direction is tracked and not taken from the clocks (R283). -/
def ratioTracked (s : State) (d m : Nat) (tx : Bool) : Bool := if tx then isSlave s d m else rxFromPins s d m

/-- Whether a direction's channels deliver: a ratio acquired and within range. -/
def convRuns (x : Option Nat) : Bool := match x with | some r => !ratioRange r | none => false

/-- The slots of a direction that converter channels serve (R247, R282). -/
def convSlots (s : State) (d m : Nat) (tx : Bool) : List Nat :=
  let en := if tx then (sap s d m).maskTx else (sap s d m).maskRx
  (List.range (sapSlots s d m)).filter fun i => en.getLsbD i && (srcServer s d m i tx).isSome

/-- What the channels of a direction remember after one more input sample each: the latest `n`. -/
def convFeedAll (n : Nat) (slots : List Nat) (st : List (Nat × List Word)) (val : Nat → Word) : List (Nat × List Word) :=
  slots.map fun i => (i, (val i :: (alGet i st).getD []).take n)

/-- The samples that the longest filter spans: 40 ticks of up to 16 received samples, and of one line value. -/
def convSpanRx : Nat := 640
def convSpanTx : Nat := 44

/-- A tick in the units of a converter's time. -/
def convTick : Nat := 2 ^ 24

/-- The latency of a filter in ticks (R284): low-latency or standard. -/
def convLatency (low : Bool) : Nat := if low then 8 else 20

/-- The input signal as it stood `latency` before an instant (R284, R285), interpolated from the samples `xs`, the newest of which is
`age` old at that instant and each other `step` older than the one before. The response is symmetric about that point, for
linear phase, and spans the filter's latency on either side; each sample stands for the `step` units of time that it covers. -/
def convOut (low : Bool) (ratio age step latency : Nat) (xs : List Word) : Word :=
  let term (e : Word × Nat) : Int :=
    let at_ := age + e.2 * step
    let dist := if at_ ≤ latency then latency - at_ else at_ - latency
    if convLatency low * convTick < dist then 0 else Config.convTap low ratio dist * e.1.toInt
  let q := ((xs.zipIdx).foldl (fun acc e => acc + term e) 0) * step / 2 ^ 55
  if -(2 ^ 31) ≤ q && q < 2 ^ 31 then BitVec.ofInt 32 q else Config.clipped q

/-- The filter of the channel that serves a slot: low-latency or not. -/
def convLow (s : State) (d m i : Nat) (tx : Bool) : Bool :=
  match srcServer s d m i tx with | some e => (tab s tSrc d e).getLsbD 29 | none => false

/-- A frame period of the receive side in converter time. -/
def convStep (s : State) (d m : Nat) : Nat :=
  convTick * convTick / max 1 ((sap s d m).ratioRx.getD (sap s d m).ratioWas)

/-- 2,604.2 ns, 1/384,000 s, in converter time (R248, R284). -/
def convLead (s : State) : Nat := convTick * ticksPerSecond s / 384000

/-- The age of the newest frame of a master's grid, at the instant 2,604.2 ns before the Pulse with count `c` that first sees it (R248,
R284), from its beginning: the last boundary before that Pulse has ended it. -/
def convNewest (s : State) (d m c : Nat) : Nat :=
  let r := ticksPerSecond s
  let f := sapMclk s d m
  let n := sapRateDen s d m * r
  let x := c % sapEpoch s d m * f % n
  let passed := (x * 384000 + r * f - 1) / (n * 384000)
  (x + n - passed * n) * convTick / f

/-- The age of the newest frame from the pins at a Pulse, `n` frames after `was`, the age at the Pulse before (R284). The instants lie a frame
period apart: where the first frame lies within the tick in which it ended is open (assumption log 3), and from then on every
frame is a period younger than the one before and every Pulse a tick later. The order of frames and Pulses bounds it: of a frame
that ended in this tick, and whose successor has not. -/
def convPinAge (s : State) (d m n : Nat) (was : Option Nat) : Nat :=
  let step := convStep s d m
  let lead := convLead s
  let lo := step - lead + if n = 0 then convTick else 0
  let hi := if n = 0 then 2 * step - lead else step - lead + min convTick step
  match was with
  | none => step - lead + Config.freeNat s.fresh % max 1 (min convTick step)
  | some a => if rxLost s d m then a + convTick else max lo (min (a + convTick - n * step) (hi - 1))

/-- A Pulse seen by the receive channels of a port (R284): what has come since the last one, and how old the newest is. Nothing ages
before the first frame. -/
def convAgePulse (s : State) (d m : Nat) : State :=
  let x := sap s d m
  let put (t : State) (a : Nat) : State := setSap t d m { x with convAge := some a, convNew := 0 }
  if x.convNew = 0 && x.convAge.isNone then s
  else if rxFromPins s d m then put { s with fresh := s.fresh + 1 } (convPinAge s d m x.convNew x.convAge)
  else put s (if x.convNew = 0 then x.convAge.getD 0 + convTick else convNewest s d m (pulseCount s))

/-- The output of the receive channel that serves a slot at a Pulse (R278, R284), at the ratio acquired, or the last one while the input
is lost: 0 for a ratio out of range (R283). -/
def convRxValue (s : State) (d m i : Nat) : Word :=
  let x := sap s d m
  let ratio := x.ratioRx.getD x.ratioWas
  let low := convLow s d m i false
  if ratioRange ratio then 0
  else convOut low ratio (x.convAge.getD 0) (convStep s d m) (convLatency low * convTick) ((alGet i x.convRx).getD [])

/-- A frame of a port whose frames come from its pins begins for its transmit channels (R284): the instants lie a frame period apart, where
in the tick the first one after the ratio is acquired lies is open (assumption log 3), and the order of frames and Pulses bounds
them. -/
def convTxBegin (s : State) (d m : Nat) : State :=
  let x := sap s d m
  if !isConv s d m || isMaster s d m then s
  else match x.ratioTx with
    | none => setSap s d m { x with convTxAt := none }
    | some r =>
      let lead : Int := convLead s
      let at_ : Int := match x.convTxAt with
        | some a => max lead (min (a + (convTick * convTick / max 1 r : Nat)) (lead + convTick - 1))
        | none => lead + (Config.freeNat s.fresh % convTick : Nat)
      setSap { s with fresh := s.fresh + 1 } d m { x with convTxAt := some at_ }

/-- 1 µs in converter time: the tolerance of R284 for transmit channels. -/
def convSlack (s : State) : Nat := convTick * ticksPerSecond s / 1000000

/-- The output of the transmit channel that serves a slot in the frame that begins (R284): the line value published at a Pulse would be
sent two ticks later by a rate-locked frame (R249). The frame begins `age` after the last Pulse, less 2,604.2 ns: as the grid of a
master says, and for frames from the pins within ±1 µs, the same for every channel of the port. -/
def convTxValue (s : State) (d m i : Nat) : Word :=
  let x := sap s d m
  let low := convLow s d m i true
  let age :=
    if isMaster s d m then
      let c := pulseCount s % sapEpoch s d m
      let k := sapGridBefore s d m c + x.frames - 1
      let n := k * sapRateDen s d m * ticksPerSecond s * convTick / sapMclk s d m
      n - c * convTick
    else (x.convTxAt.getD 0 + (Config.freeNat s.fresh % (2 * convSlack s + 1) : Nat) - convSlack s).toNat
  convOut low (x.ratioTx.getD 0) age convTick ((convLatency low + 2) * convTick) ((alGet i x.convTx).getD [])

/-! ### Frames -/

/-- The transmit line of slot `i` (R179), as readers see it. -/
def txLine (s : State) (d m i : Nat) : Word := (readLine s d (0x140 + 32 * m + i)).val

/-- The transmit line of slot `i` as readers saw it at the Pulse before. -/
def txOldLine (s : State) (d m i : Nat) : Word := smGet (fun _ => (0 : Word)) s.txOld (d * 0x4000 + 0x140 + 32 * m + i)

/-- The transmit lines of the package as readers see them in this tick, those at 0 left out. -/
def txViews (s : State) : List (Nat × Word) :=
  let isTx (k : Nat) : Bool := 0x140 ≤ k % 0x4000 && k % 0x4000 < 0x280
  let named := s.laEff.map fun e => e.1 / 64 * 0x4000 + wGet e.2 F.SILENCE_LA_LINE
  ((s.lines.map (·.1) ++ named).filter isTx).foldl
    (fun acc k => smSet (fun _ => (0 : Word)) k (readLine s (k / 0x4000) (k % 0x4000)).val acc) []

/-- The source of slot `i` of the frame that begins (R249, R250, R284): a line value, or a converter's output. -/
def txSource (s : State) (d m : Nat) (line : Option (List Word)) (i : Nat) : Word :=
  match line with
  | some ws => ws.getD i 0
  | none =>
    if (srcServer s d m i true).isSome && convRuns (sap s d m).ratioTx && !(sap s d m).relockTx then convTxValue s d m i
    else 0

/-- The line values that a rate-locked port's frame sends: a master's those of two Pulses before its own, a slave's the
oldest of its queue (R249, R250). -/
def txFrame (s : State) (d m : Nat) : State × Option (List Word) :=
  let x := sap s d m
  if isConv s d m then (s, none)
  else if isMaster s d m then (s, some ((List.range (sapSlots s d m)).map (txOldLine s d m)))
  else
    match x.queue, x.sent with
    | q :: qs, _ => (setSap s d m { x with queue := qs, sent := some q }, some q)
    | [], some q => (sapSlip s d m, some q)
    | [], none => (s, some [])

/-- Whether the transmitter runs on the fallback clock (R279). -/
def inFallback (s : State) (d m : Nat) : Bool := m < 4 && bitF s (Reg.BIP_STAT d m) F.BIP_STAT_FALLBACK

/-- The samples of the frame that begins (R245, R249, R254, R255, R264): what SD1 sends in each enabled slot. -/
def sapSend (s : State) (d m : Nat) : State :=
  let (t, lines) := if inFallback s d m then (s, some []) else txFrame s d m
  let (u, ring) := if inFallback s d m then (t, []) else ringSend t d m
  let u := convTxBegin u d m
  let x := sap u d m
  let slots := (List.range (sapSlots u d m)).filter fun i => x.maskTx.getLsbD i
  let out := if isPdm u d m then [] else slots.map fun i =>
    let v := match ring.find? fun e => e.1 = i with
      | some e => e.2
      | none => txSource u d m lines i
    (i, sentWord u d m v)
  setSap { u with fresh := u.fresh + 1 } d m { x with out := out, outPrev := x.out }

/-- The beginning of a frame (R253, R264): masks, a step of the gains, the samples to send. `rx` says that the receive
side's gain steps with this frame; a transmitter in fallback returns to the received timing at the first block after the
recovery (R280). -/
def sapBegin (s : State) (d m : Nat) (zero fitRx fitTx rx : Bool) : State :=
  let t := sapMaskApply (sapMaskApply s d m false fitRx zero) d m true fitTx zero
  let x := sap t d m
  let up := !sapDown t d m
  let len := sapLen t d m
  let g := x.gain.step len up
  let gr := if rx then rxGain t d m else x.gainRx
  let p := if zero then 0 else (x.bip.pos + 1) % 192
  let back := p = 0 && x.bip.fbEnd
  let cfg := Reg.BIP_CFG d m
  let bip := if isBip t d m then
      { x.bip with pos := p, blkDue := x.bip.blkDue || p = 0, fbEnd := x.bip.fbEnd && !back,
                   txV := [bitF t cfg F.BIP_CFG_TXVA, bitF t cfg F.BIP_CFG_TXVB] } else x.bip
  let t := if back then setFld t (Reg.BIP_STAT d m) F.BIP_STAT_FALLBACK 0 else t
  let judged := if rx then [] else x.judged
  sapSend (sapGainStat (setSap t d m { x with gain := g, gainRx := gr, judged := judged, bip := bip }) d m) d m

/-- A received sample under the gain of the receive side (R264): below full scale a non-PCM one is 0 (R276). -/
def rxScale (s : State) (d m : Nat) (v : Word) : Word :=
  let g := (sap s d m).gainRx
  if isBip s d m && bitF s (Reg.BIP_STAT d m) F.BIP_STAT_NONPCM && g.j < g.len then 0 else sapScale (sapWidth s d m) g v

/-- A received frame completes (R245, R250, R254, R284): its record waits for a Pulse or feeds the converter channels, and its
ring slots go to the ring. Channels that relock take zeros in its place (R278, R283). A `late` frame of a pin-clocked port
waits one Pulse longer. -/
def sapDeliver (s : State) (d m : Nat) (late : Bool) (val : Nat → Word) : State :=
  let x := sap s d m
  let g (i : Nat) : Word := rxScale s d m (val i)
  let t := ringReceive s d m g
  if isConv t d m then
    if x.relockRx then t
    else setSap t d m { sap t d m with convRx := convFeedAll convSpanRx (convSlots t d m false) x.convRx g, convNew := (sap t d m).convNew + 1 }
  else
    let rec_ := ((List.range (sapSlots t d m)).filter fun i => x.maskRx.getLsbD i).map fun i => (i, g i)
    let y := sap t d m
    if rxFromPins t d m && late then
      setSap (if y.late.isSome then sapSlip t d m else t) d m { y with late := some rec_ }
    else
      let u := if rxFromPins t d m && y.got.isSome then sapSlip t d m else t
      setSap u d m { sap u d m with got := some rec_ }

/-- Time slots 4-31 of a received subframe: bits 0-23 the sample, then V, U, C and P. -/
def subframe (f : SapFrame) (i : Nat) : BitVec 28 := f.subs.getD i 0

/-- Whether the number of ones in time slots 4-31 is odd (R268). -/
def oddOnes (b : BitVec 28) : Bool := (List.range 28).foldl (fun p i => p != b.getLsbD i) false

/-- Whether a subframe delivers the sample before it (R271): a parity error, or a code violation in time slots 4-31. -/
def bipBad (f : SapFrame) (i : Nat) : Bool := oddOnes (subframe f i) || f.cv.getD i false

/-- A biphase subframe's sample (R268, R271). A bad subframe delivers the sample before it even where its V bit is 1 with VMUTE 1
(DESIGN CHOICE, assumption log 109). -/
def bipSample (s : State) (d m : Nat) (f : SapFrame) (i : Nat) : Word :=
  if bipBad f i then (sap s d m).bip.prev.getD i 0
  else if (sap s d m).bip.vmute && (subframe f i).getLsbD 24 then 0
  else BitVec.ofNat 32 ((subframe f i).toNat % 2 ^ 24 * 2 ^ 8)

/-- A block in progress that is cut short, or whose next B is late, is discarded (R273). -/
def blockDiscard (s : State) (d m : Nat) : State :=
  let x := sap s d m
  if !x.bip.inBlk then s
  else setFld (incFld (setSap s d m { x with bip := { x.bip with
      inBlk := false, bits := [], vA := false, vB := false, err := false } })
    (Reg.BIP_ERR1 d m) F.BIP_ERR1_BLOCK) (Reg.BIP_STAT d m) F.BIP_STAT_BLKERR 1

/-- The C and U bits of a frame (R272): C of channels A and B in bits 0 and 1, U in bits 2 and 3. -/
def frameBits (f : SapFrame) : Nat :=
  (((subframe f 0).getLsbD 26).toNat + 2 * ((subframe f 1).getLsbD 26).toNat)
    + (4 * ((subframe f 0).getLsbD 25).toNat + 8 * ((subframe f 1).getLsbD 25).toNat)

/-- The two subframes of a received biphase frame: errors counted, the C and U bits of the block and what its record will say, and
the settings of the next frame (R271–R273, R275). A preamble B begins a block, with the CRCCHK that stood then; one that comes
before the block in progress has its 192 frames cuts that one short. -/
def bipFrame (s : State) (d m : Nat) (f : SapFrame) : State :=
  let s := if f.b && !(sap s d m).bip.bits.isEmpty then blockDiscard s d m else s
  let e0 := Reg.BIP_ERR0 d m
  let nbad := ((List.range 2).filter (bipBad f)).length
  let x := sap s d m
  let b := x.bip
  let inBlk := b.inBlk || f.b
  let t := setFld (setFld s e0 F.BIP_ERR0_PARITY (fld s e0 F.BIP_ERR0_PARITY + nbad)) e0 F.BIP_ERR0_CODEV
    (fld s e0 F.BIP_ERR0_CODEV + f.viol)
  let u := if nbad = 0 then t else setFld t (Reg.BIP_STAT d m) F.BIP_STAT_PARERR 1
  setSap u d m { x with bip := { b with
    prev := (List.range 2).map (bipSample s d m f)
    viols := (f.viol :: b.viols).take 32
    vmute := bitF s (Reg.BIP_CFG d m) F.BIP_CFG_VMUTE
    chkNow := bitF s (Reg.BIP_CFG d m) F.BIP_CFG_CRCCHK
    inBlk := inBlk
    bits := if inBlk then frameBits f :: b.bits else []
    chk := if f.b && !b.inBlk then b.chkNow else b.chk
    vA := b.vA || (inBlk && (subframe f 0).getLsbD 24)
    vB := b.vB || (inBlk && (subframe f 1).getLsbD 24)
    err := b.err || (inBlk && (nbad ≠ 0 || f.viol ≠ 0)) } }

/-- Whether the 192 frames of the block in progress have come (R273): what begins the next frame decides it. -/
def blockOver (s : State) (d m : Nat) : Bool := 192 ≤ (sap s d m).bip.bits.length

/-- The receive side of a completed frame: of a frame that is not to be delivered, only a biphase receiver's counts. -/
def sapReceive (s : State) (d m : Nat) (f : SapFrame) (whole : Bool) : State :=
  if isBip s d m then
    let t := bipFrame s d m f
    if whole then sapDeliver t d m (frameLate s f) (bipSample s d m f) else t
  else if !whole then s
  else if isPdm s d m then
    let t := pdmTake s d m f
    sapDeliver t d m false (pdmValue t d m)
  else sapDeliver s d m (frameLate s f) (pinSlot s d m f)

/-- Whether the next frame of a port's own timing may come now (R248, R250, R262, R270, R279). -/
def sapFrameDue (s : State) (d m : Nat) : Bool :=
  let x := sap s d m
  let st := sapState s d m
  domLive s d pdSap && !x.bip.blkDue &&
    if isMaster s d m then
      (st = sapRunning || st = sapStopping || st = sapLost) && s.phase = .tick
        && decide (x.frames < sapFramesIn s d m (pulseCount s))
    else if isBip s d m then
      (!x.lost && (st = sapRunning || st = sapStopping) && bitF s (Reg.BIP_STAT d m) F.BIP_STAT_LOCK && !blockOver s d m)
        || inFallback s d m
    else !x.lost && (st = sapRunning || st = sapStopping)

/-- Whether a port runs: RUNNING or STOPPING. -/
def sapRuns (s : State) (d m : Nat) : Bool := sapState s d m = sapRunning || sapState s d m = sapStopping

/-- Whether the receiver of a biphase port takes frames beside those that its transmitter sends (R270, R280): locked, and before
frame 0, with MS 1, or recovered while the transmitter is still on the fallback clock. -/
def bipReceives (s : State) (d m : Nat) : Bool :=
  isBip s d m && bitF s (Reg.BIP_STAT d m) F.BIP_STAT_LOCK && !(sap s d m).lost && domLive s d pdSap && !blockOver s d m
    && (sapState s d m = sapArmed || sapState s d m = sapStarting
        || ((isMaster s d m || inFallback s d m) && sapRuns s d m))

/-- Whether the receiver of a biphase port hears its line without being locked to it (R270, R271): code violations count. -/
def bipHunts (s : State) (d m : Nat) : Bool :=
  isBip s d m && sapArmed ≤ sapState s d m && domLive s d pdSap
    && (!bitF s (Reg.BIP_STAT d m) F.BIP_STAT_LOCK || (sap s d m).lost)

/-- What the data pins of a held port carry to its block (R420): their input is ignored, and what the block takes in its place is
open (assumption log 3). -/
def heldPins (s : State) (d m : Nat) (f : SapFrame) : State × SapFrame :=
  let n := sapFrameLen s d m + 1
  ({ s with fresh := s.fresh + 8 * n }, { f with
    pins := (List.range 8).map fun i => (List.range n).map fun k => Config.freeBool (s.fresh + i * n + k) })

/-- Whether a port whose gain has reached 0 stops at its next frame boundary (R265): not one that stops at a Pulse (R280). -/
def stopsAtFrame (s : State) (d m : Nat) : Bool :=
  let x := sap s d m
  sapState s d m = sapStopping && x.gain.j = 0 && x.gainRx.j = 0 && !x.lostStopping && !(x.lost && isSlave s d m)

/-- Whether a port stops at this Pulse (R280): its clock was lost while STOPPING, or has no clock now, and its gain is 0. -/
def stopsAtPulse (s : State) (d m : Nat) : Bool :=
  let x := sap s d m
  sapState s d m = sapStopping && x.gain.j = 0 && x.gainRx.j = 0 && (x.lostStopping || (x.lost && isSlave s d m))

/-- Whether the frames that the transmitter sends are not the port's own frames (R279, R280): a biphase port with MS 0 in fallback. -/
def onFallback (s : State) (d m : Nat) : Bool := isBip s d m && isSlave s d m && inFallback s d m

/-- A frame of a biphase receiver beside the transmitter's (R270, R280): it delivers, and steps the receive side's gain. Of a port with
MS 0 that has recovered in fallback it is the port's own: FRAMECNT, masks and the stop go by it (DEDUCED, assumption log 131). -/
def bipAside (s : State) (d m : Nat) (f : SapFrame) : State :=
  let t := sapReceive s d m f (!(sap s d m).broken && sapRuns s d m)
  let t := setSap t d m { sap t d m with broken := false, judged := [] }
  if !sapRuns t d m then sapGainStat t d m
  else if onFallback t d m && stopsAtFrame t d m then sapStop t d m true
  else
    let t := if onFallback t d m then
        sapMaskApply (sapMaskApply (incReg t (Reg.SAP_FRAMECNT d m)) d m false f.fitRx false) d m true f.fitTx false
      else t
    sapGainStat (setSap t d m { sap t d m with gainRx := rxGain t d m }) d m

/-- SAP_FRAME (R249): a frame of the port completes with what its pins received, and the next begins; samples of a frame that an
FSYNC interrupts are not sent any more (R251). `own` false is a frame of a biphase receiver beside those that the transmitter
sends: that keeps its own time, or frame 0 is still to come (R270, R280). With MS 1 the transmitter's frames count and apply masks while the
receiver's input is lost (DESIGN CHOICE, assumption log 142: R278 against R270). Held pads bring nothing (R420). -/
def execSapFrame (d m : Nat) (own : Bool) (f : SapFrame) (s : State) : Out :=
  onUnit (d < dieCount s.part && m < 10) <|
    let held := padHeld s d pdSap
    if held && (!own || (isSlave s d m && !inFallback s d m)) then .next s
    else if !own && bipHunts s d m then
      .next (setFld s (Reg.BIP_ERR0 d m) F.BIP_ERR0_CODEV (fld s (Reg.BIP_ERR0 d m) F.BIP_ERR0_CODEV + f.viol))
    else if !own then whenDue s (bipReceives s d m && trackRoom s d m (frameLate s f)) <| bipAside s d m f
    else whenDue s (sapFrameDue s d m && f.sync < 3 && (f.sync = 0 || (isSlave s d m && !isBip s d m))
        && trackRoom s d m (frameLate s f)) <|
      let aside := onFallback s d m
      let rx := !(isBip s d m && isMaster s d m) && !(sap s d m).lost && !aside
      let (t, f) := if held then heldPins s d m f else (s, f)
      let t := if f.sync = 0 then t else sapFlag t d m F.SAP_STAT_FSERR
      let t := ringFinish t d m (if f.sync = 1 then some ((f.pins.getD 0 []).length) else none)
      let t := if rx then sapReceive t d m f (f.sync ≠ 1 && !(sap s d m).broken) else t
      let t := if f.sync = 1 then setSap t d m { sap t d m with out := [] } else t
      if !aside && stopsAtFrame t d m then sapStop t d m true
      else
        let ok := !((sap t d m).lost && isSlave t d m) && !aside
        let u := if ok then incReg t (Reg.SAP_FRAMECNT d m) else t
        let u := setSap u d m { sap u d m with
          frames := (sap u d m).frames + 1
          broken := if (isBip u d m && isMaster u d m) || aside then (sap u d m).broken else (sap u d m).lost }
        sapBegin u d m false (f.fitRx && ok) (f.fitTx && ok) rx

/-- SAP_FRAME_ZERO (R262): frame 0 begins; that of a port that is no master comes from its pads (R420). -/
def execSapFrameZero (d m : Nat) (fitRx fitTx : Bool) (s : State) : Out :=
  onUnit (d < dieCount s.part && m < 10) <|
    if !isMaster s d m && padHeld s d pdSap then .next s else
    let due := sapState s d m = sapStarting && domLive s d pdSap &&
      (if isMaster s d m then s.phase = .tick && (pulseCount s + 1) % sapEpoch s d m = 0
       else if isBip s d m then bitF s (Reg.BIP_STAT d m) F.BIP_STAT_LOCK else true)
    whenDue s due <|
      let t := setReg s (Reg.SAP_FRAMECNT d m) 0
      let t := setFld (setFld t (Reg.SAP_RXR_ROT d m) F.SAP_RXR_ROT_ROT 0) (Reg.SAP_TXR_ROT d m) F.SAP_TXR_ROT_ROT 0
      let x := sap t d m
      let ratio := if isMaster t d m then some (masterRatio t d m) else none
      let t := setSap t d m { x with
        trig := .idle
        frames := if isMaster t d m then sapFramesIn t d m (pulseCount t) else 0
        gain := .zero, gainRx := .zero
        ratioTx := ratio, ratioRx := if rxFromPins t d m then none else ratio
        bip := { x.bip with blocks := 0 } }
      sapBegin (sapFlag (setSapState t d m sapRunning) d m F.SAP_STAT_STARTED) d m true fitRx fitTx
        (!(isBip s d m && isMaster s d m))

/-- The transmit lines of a port as they stand in this tick. -/
def txNow (s : State) (d m : Nat) : List Word := (List.range (sapSlots s d m)).map (txLine s d m)

/-- SAP_TRIGGER_PULSE (R261, R262): the trigger Pulse has come. -/
def execSapTriggerPulse (d m : Nat) (s : State) : Out :=
  onUnit (d < dieCount s.part && m < 10) <|
    whenDue s (sapState s d m = sapArmed && (sap s d m).trig = .met) <|
      let x := sap s d m
      setSapState (setSap s d m { x with
        trig := .idle
        queue := if isSlave s d m && !isConv s d m then [txNow s d m] else [] }) d m sapStarting

/-- START_PIN_EDGE (R261, TSRC 1). -/
def execStartPinEdge (s : State) : Out :=
  whenDue s (running s) (sapTrigAll s 1 (fun _ _ => true) .edge)

/-- SAP_RING_TRANSFER (R256, R257, R262): one unit moves between the buffer and the ring, and the port's pointer advances; the
transmit ring is read from frame 0 on, and units received before a stop still go to their ring, or are lost with it. -/
def execSapRingTransfer (d m : Nat) (tx : Bool) (s : State) : Out :=
  onUnit (d < dieCount s.part && m < 10) <|
    let base := ringBase s d m tx
    let size := ringSize s d m tx
    let x := sap s d m
    let go := dmaOpen s d base && domLive s d pdSap
    if tx then
      let n := ringUnit s d m true
      let o := fld s (ringRptrA d m true) F.SAP_RXR_RPTR_OFFSET
      whenDue s (go && size ≠ 0 && sapRunning ≤ sapState s d m && 0 < n && n ≤ ringUsed s d m true && x.bufTx.length + n ≤ 2048) <|
        let (t, bs) := ringRead s d base size o n
        let u := setFld t (ringRptrA d m true) F.SAP_RXR_RPTR_OFFSET (ringNext size o n)
        ringFill (setSap u d m { sap u d m with bufTx := x.bufTx ++ bs }) d m
    else
      match x.bufRx with
      | bs :: rest =>
        let o := fld s (ringWptrA d m false) F.SAP_RXR_WPTR_OFFSET
        if size = 0 then .next (ringLost (setSap s d m { x with bufRx := rest }) d m false)
        else whenDue s go <|
          let t := ringWrite (rxJudgeSome s d m) d base size o bs
          let u := setFld t (ringWptrA d m false) F.SAP_RXR_WPTR_OFFSET (ringNext size o bs.length)
          setSap u d m { sap u d m with bufRx := rest }
      | [] => .next s

/-! ### At a Pulse -/

/-- The receive lines of a record published. -/
def sapPublish (s : State) (d m : Nat) (r : List (Nat × Word)) (valid : Bool) : State :=
  each r (fun e t => publish t d (32 * m + e.1) e.2 valid) s

/-- The gain of the receive side one step down at a Pulse without input (R278). -/
def rxStepDown (s : State) (d m : Nat) : State :=
  let x := sap s d m
  let down (g : Gain) : Gain := g.step (sapLen s d m) false
  let own := isSlave s d m && x.lost && !inFallback s d m
  sapGainStat (setSap s d m { x with gainRx := down x.gainRx, gain := if own then down x.gain else x.gain }) d m

/-- The receive lines of a port with converters (R276, R278, R282–R284): the outputs of its channels while they run; while its
input is lost or relocks, their outputs from an input that goes on with zeros, scaled and invalid. -/
def convLines (s : State) (d m : Nat) : State :=
  let s := convAgePulse s d m
  let x := sap s d m
  if isBip s d m && bitF s (Reg.BIP_STAT d m) F.BIP_STAT_NONPCM then
    setFld s (Reg.BIP_STAT d m) F.BIP_STAT_NPCMCNV 1
  else
    let out := (convSlots s d m false).map fun i => (i, convRxValue s d m i)
    if rxLost s d m then sapPublish s d m (out.map fun e => (e.1, sapScale 32 x.gainRx e.2)) false
    else if convRuns x.ratioRx then sapPublish s d m out true
    else s

/-- What a port brings to a Pulse (R249, R250, R265, R278, R280): its receive lines, and the end of a stop without clock. One whose
domain has passed its pad-hold point is isolated (R418). -/
def sapPulseRx (s : State) (d m : Nat) : State :=
  let st := sapState s d m
  if st < sapRunning || !domLive s d pdSap then s
  else if stopsAtPulse s d m then sapStop s d m true
  else
    let s := if rxLost s d m then rxStepDown s d m else s
    let x := sap s d m
    if isConv s d m then convLines s d m
    else if !rxFromPins s d m then
      match x.got with
      | some r => setSap (sapPublish s d m r true) d m { x with got := none }
      | none => s
    else if x.lost then
      match x.last with
      | some r => sapPublish s d m (r.map fun e => (e.1, rxScale s d m e.2)) false
      | none => s
    else
      match x.got, x.last with
      | some r, _ => setSap (sapPublish s d m r true) d m { x with got := x.late, late := none, last := some r, held := false }
      | none, none => setSap s d m { x with got := x.late, late := none }
      | none, some r =>
        let t := if x.held then sapPublish s d m (r.map fun e => (e.1, (line s d (32 * m + e.1)).val)) false
          else sapPublish (sapSlip s d m) d m r true
        setSap t d m { sap t d m with got := x.late, late := none }

/-- What a port takes from a Pulse (R249, R250, R261, R284): the transmit lines just published, and its trigger. The queue of a slave
fills from its trigger Pulse on, so that one which waits for frame 0 drops entries and counts them (DESIGN CHOICE, assumption
log 125); so does that of a biphase port whose input has recovered while it still sends on the fallback clock (DESIGN CHOICE, assumption
log 143). -/
def sapPulseTx (s : State) (d m : Nat) : State :=
  let x := sap s d m
  let st := sapState s d m
  if sapMode s d m = 0 || !domLive s d pdSap then s
  else
    let trig := if st = sapArmed then trigAt (pulseCount s) x.trig else x.trig
    let fed := isConv s d m && sapStarting ≤ st && !(x.lost && isSlave s d m) && !x.relockTx
    let y := { x with frames := 0, trig := trig
                      convTxAt := x.convTxAt.map fun a => a - convTick
                      convTx := if fed then convFeedAll convSpanTx (convSlots s d m true) x.convTx (txLine s d m) else x.convTx }
    if isSlave s d m && !isConv s d m && !x.lost && sapStarting ≤ st && st ≤ sapStopping then
      let full := 2 ≤ x.queue.length
      let t := setSap s d m { y with queue := (if full then x.queue.drop 1 else x.queue) ++ [txNow s d m] }
      if full then sapSlip t d m else t
    else setSap s d m y

/-- Whether the port can read its transmit status ring now: one in LPDDR4X waits for the end of the critical window (R204). -/
def statusOpen (s : State) (d m : Nat) : Bool :=
  fld s (Reg.BIP_STXSIZE d m) F.BIP_STXSIZE_SIZE = 0 || dmaOpen s d (128 * fld s (Reg.BIP_STXBASE d m) F.BIP_STXBASE_ADDR)

/-- Whether a port holds up the next Pulse: its trigger has come and it has not started, or a rate-locked master's frame of
this tick has not. -/
def sapOwed (s : State) (d m : Nat) : Bool :=
  let st := sapState s d m
  let x := sap s d m
  (st = sapArmed && x.trig = .met) || (x.bip.blkDue && statusOpen s d m)
    || (isMaster s d m && sapStarting ≤ st && domLive s d pdSap
        && (if st = sapStarting then (pulseCount s + 1) % sapEpoch s d m = 0
            else decide (x.frames < sapFramesIn s d m (pulseCount s))))

end Sys2Proof.Machine
end

