-- ==== Sys2Proof/Machine/Biphase.lean ====
section
/-! DEFINITION. Biphase blocks (R272–R276), loss of clock (R277–R280), converter channels (R281–R283) and rate-follow
(R286–R289). -/
namespace Sys2Proof.Machine

/-! ### Rate-follow -/

/-- Steering states (R288). -/
def steerOff : Nat := 0
def steerAcq : Nat := 1
def steerHold : Nat := 3
def steerNotGm : Nat := 4
def steerRej : Nat := 5

/-- The conditions of R286 that the configuration shows. -/
def steerFit (s : State) : Bool :=
  let d := fld s (Reg.CLKSTEER_SEL 0) F.CLKSTEER_SEL_DIE
  let m := fld s (Reg.CLKSTEER_SEL 0) F.CLKSTEER_SEL_PORT
  d < dieCount s.part && m < 10 && !isConv s d m &&
    ((isSlave s d m && 1 ≤ sapMode s d m && sapMode s d m ≤ 3) || (isBip s d m && m < 4))

/-- Whether the device may steer (R289, R337): it has no link partner, or it is the grandmaster. -/
def steerAllowed (s : State) : Bool :=
  !((dies s).any (linkUp s)) || fld s (Reg.LINK_GMSTAT 0) F.LINK_GMSTAT_TSTATE = 1

/-- The state set; in OFF, NOTGM and REJ the offset is 0 (R288). While die 0's PD_SAP does not run the loop keeps what it holds
(R409). -/
def setSteer (s : State) (st : Nat) : State :=
  if !domLive s 0 pdSap then s else
  let t := setFld s (Reg.CLKSTEER_STAT 0) F.CLKSTEER_STAT_STATE st
  if st = steerOff || steerNotGm ≤ st then { t with steer := ⟨0, [], 0, 0, 0⟩ }
  else { t with steer := { t.steer with calm := 0 } }

/-- Whether the frame rate of the input lies within ±1,000 ppm of the internal rate (R286): as a locked biphase receiver has
measured it, otherwise open (assumption log 16). -/
def steerNear (s : State) : State × Bool :=
  let d := fld s (Reg.CLKSTEER_SEL 0) F.CLKSTEER_SEL_DIE
  let m := fld s (Reg.CLKSTEER_SEL 0) F.CLKSTEER_SEL_PORT
  let r := ticksPerSecond s
  if isBip s d m && m < 4 && bitF s (Reg.BIP_STAT d m) F.BIP_STAT_LOCK then
    (s, decide (r * 999 ≤ (sap s d m).bip.hz * 1000) && decide ((sap s d m).bip.hz * 1000 ≤ r * 1001))
  else ({ s with fresh := s.fresh + 1 }, Config.freeBool s.fresh)

/-- ω, the bandwidth of CTL.BW as an angular frequency, in 1/1130 of a radian per second (R287; π as 355/113). -/
def steerOmega (s : State) : Nat := 710 * [1, 10, 100, 500].getD (fld s (Reg.CLKSTEER_CTL 0) F.CLKSTEER_CTL_BW) 1

/-- The proportional gain of the loop (R287), in 2^-42 ppm per 1/256 frame: 2ζω over what 1 ppm moves the fill by in a second, 256
ticksPerSecond ÷ 10^6, for the bandwidth of CTL.BW and an open damping ζ between 1/2 and 2 (assumption log 16). -/
def steerKp (s : State) : Nat :=
  2 * (128 + Config.steerDamping % 385) * steerOmega s * 10 ^ 6 * 2 ^ 42 / (256 * 1130 * 256 * ticksPerSecond s)

/-- The integral gain of the loop, in the same units and per tick: ω² over the same rate and the ticks of a second. -/
def steerKi (s : State) : Nat :=
  steerOmega s ^ 2 * 10 ^ 6 * 2 ^ 42 / (1130 ^ 2 * 256 * ticksPerSecond s ^ 2)

/-- The loop entered with EN at 1 (R286, R288, R289). -/
def steerEnter (s : State) : State :=
  let (t, near) := steerNear s
  if !steerFit t || !near then setSteer t steerRej
  else if steerAllowed t then setSteer t steerAcq else setSteer t steerNotGm

/-- A write to CLKSTEER_CTL (R286). -/
def steerCtlWrite (s : State) (v : Word) : State :=
  let a := Reg.CLKSTEER_CTL 0
  let old := fld s a F.CLKSTEER_CTL_EN
  let t := setReg s a (v &&& 0x3D)
  let new := wGet v F.CLKSTEER_CTL_EN
  if new = old then t else if new = 1 then steerEnter t else setSteer t steerOff

/-- A write to CLKSTEER_SEL (R286). -/
def steerSelWrite (s : State) (v : Word) : State :=
  if bitF s (Reg.CLKSTEER_CTL 0) F.CLKSTEER_CTL_EN then
    setFld s (Reg.CLKSTEER_STAT 0) F.CLKSTEER_STAT_CFGREJ 1
  else setReg s (Reg.CLKSTEER_SEL 0) (v &&& 0x7F)

/-- The loop brought in line with the device's place in the link (R288, R289). -/
def steerSync (s : State) : State :=
  let st := steerState s
  if (st = steerAcq || st = steerLock || st = steerHold) && !steerAllowed s then setSteer s steerNotGm
  else if st = steerNotGm && steerAllowed s then setSteer s steerAcq
  else s

/-- The largest move of the offset in this tick, in 2^−10 ppm, with the part of a unit that the next tick takes over (R287):
whole units add up to no more than the slew limit; none: unlimited. -/
def steerSlew (s : State) : Option (Nat × Nat) :=
  let r := ticksPerSecond s
  let part (ppm : Nat) : Option (Nat × Nat) := some ((s.steer.carry + ppm * 1024) / r, (s.steer.carry + ppm * 1024) % r)
  match fld s (Reg.CLKSTEER_CTL 0) F.CLKSTEER_CTL_SLEW with
  | 0 => part 10
  | 1 => part 100
  | 2 => part 1000
  | _ => none

/-- The fill of the input's receive buffer at a Pulse, in 1/256 frame (R287): the frames that wait, and an open part of the
frame in progress (assumption log 16). -/
def steerFill (s : State) : Nat :=
  let d := fld s (Reg.CLKSTEER_SEL 0) F.CLKSTEER_SEL_DIE
  let m := fld s (Reg.CLKSTEER_SEL 0) F.CLKSTEER_SEL_PORT
  let x := sap s d m
  min 512 (256 * (x.got.isSome.toNat + x.late.isSome.toNat) + Config.freeNat s.fresh % 257)

/-- The fill measured at the Pulse, before its frame is published (R287), while die 0's PD_SAP runs (R409). -/
def steerMeasure (s : State) : State :=
  if !domLive s 0 pdSap then s else
  setReg { s with fresh := s.fresh + 1 } (Reg.CLKSTEER_FILL 0) (BitVec.ofNat 32 (steerFill s))

/-- A value brought within ±`lim` of `c`. -/
def nearTo (c : Int) (lim : Nat) (v : Int) : Int :=
  if v < c - lim then c - lim else if c + lim < v then c + lim else v

/-- The loop at a Pulse (R286–R288): the conditions are tested again, the offset follows the fill within its limits, and the
states follow the fill. The loop is proportional-integral about half full, with the bandwidth of CTL.BW (assumption log 16). -/
def steerPulse (s : State) : State :=
  if !domLive s 0 pdSap then s else
  let st := steerState s
  let fillA := Reg.CLKSTEER_FILL 0
  let freqA := Reg.CLKSTEER_FREQ 0
  let show_ (t : State) : State := setReg t freqA (BitVec.ofInt 32 t.steer.offset)
  let (s, near) := if st = steerAcq || st = steerLock then steerNear s else (s, true)
  let st' := if st ≠ steerOff && st ≠ steerRej && (!steerFit s || !near) then steerRej else st
  let s := if st' = st then s else setSteer s st'
  if st' = steerOff || steerNotGm ≤ st' then show_ (setReg s fillA 0)
  else
    let fill := (reg s fillA).toNat
    let t := s
    if st' = steerHold then show_ t
    else
      let err : Int := (fill : Int) - 256
      let sum := t.steer.integ + steerKi s * err
      let raw := (steerKp s * err + sum) / 2 ^ 32
      let (moved, carry) := match steerSlew t with
        | some (n, c) => (nearTo t.steer.offset n raw, c)
        | none => (raw, 0)
      let off := nearTo 0 (1000 * 1024) moved
      let gap := if fill < 256 then 256 - fill else fill - 256
      let calm := if gap ≤ 16 then t.steer.calm + 1 else 0
      let u := { t with steer := ⟨calm, (off :: t.steer.past).take 1024, off, carry, sum⟩ }
      show_ (if st' = steerLock && 64 < gap then setSteer u steerAcq else u)

/-- The held offset (R287, R288): the average of the last 1,024 ticks within ±1 ppm, where in that range is open, and within
±1,000 ppm. -/
def steerHoldNow (s : State) : State :=
  let n := max 1 s.steer.past.length
  let avg : Int := s.steer.past.foldl (· + ·) 0 / n
  let off := nearTo 0 (1000 * 1024) (avg + ((Config.freeNat s.fresh % 2049 : Nat) : Int) - 1024)
  if !domLive s 0 pdSap then s else
  let t := setSteer { s with fresh := s.fresh + 1 } steerHold
  { t with steer := { t.steer with offset := off } }

/-- ACQ after HOLD (R288): the loop starts from the held offset. -/
def steerResume (s : State) : State :=
  if !domLive s 0 pdSap then s else
  let t := setSteer s steerAcq
  { t with steer := { t.steer with integ := t.steer.offset * 2 ^ 32 } }

/-- The loop when die 0's PD_SAP runs again (R288, R289, R409): what happened to the device's place in the link and to the input
meanwhile is looked at now. -/
def steerWake (s : State) : State :=
  let t := steerSync s
  let lost := (sap t (fld t (Reg.CLKSTEER_SEL 0) F.CLKSTEER_SEL_DIE) (fld t (Reg.CLKSTEER_SEL 0) F.CLKSTEER_SEL_PORT)).lost
  if steerState t = steerLock && lost then steerHoldNow t
  else if steerState t = steerHold && !lost then steerResume t else t

/-- CLKSTEER_LOCK (R288): the fill has stayed within 1/16 frame of half for 1,024 ticks. -/
def execClksteerLock (s : State) : Out :=
  whenDue s (steerState s = steerAcq && 1024 ≤ s.steer.calm) (setSteer s steerLock)

/-! ### Loss of clock -/

/-- Whether a loss of a given cause can be detected now (R277). -/
def lossDue (s : State) (d m cause : Nat) : Bool :=
  let st := sapState s d m
  let x := sap s d m
  (st = sapRunning || st = sapStopping) && !x.lost && domLive s d pdSap &&
    (if isBip s d m then
      bitF s (Reg.BIP_STAT d m) F.BIP_STAT_LOCK &&
        (cause = 2 || (cause = 3 && decide (fld s (Reg.BIP_CFG d m) F.BIP_CFG_CVTHR < natSum x.bip.viols)))
     else cause = 1 && isSlave s d m && 1 ≤ sapMode s d m && sapMode s d m ≤ 3)

/-- Whether a receiver that is locked before frame 0 loses its lock (R270); no loss of clock is detected there (R277). -/
def unlockDue (s : State) (d m cause : Nat) : Bool :=
  isBip s d m && (sapState s d m = sapArmed || sapState s d m = sapStarting) && domLive s d pdSap
    && bitF s (Reg.BIP_STAT d m) F.BIP_STAT_LOCK
    && (cause = 2 || (cause = 3 && decide (fld s (Reg.BIP_CFG d m) F.BIP_CFG_CVTHR < natSum (sap s d m).bip.viols)))

/-- SAP_CLOCK_LOSS (R270, R273, R277–R279): the port's input is lost, for the cause of the detection table, and a block in progress with
it. -/
def execSapClockLoss (d m cause : Nat) (s : State) : Out :=
  onUnit (d < dieCount s.part && m < 10) <|
    if unlockDue s d m cause then
      let t := blockDiscard s d m
      .next (setFld (setSap t d m { sap t d m with bip := { (sap t d m).bip with viols := [], hz := 0 } })
        (Reg.BIP_STAT d m) F.BIP_STAT_LOCK 0)
    else whenDue s (lossDue s d m cause) <|
    let a := Reg.CLKSTEER_LOSS d m
    let s := blockDiscard s d m
    let t := setFld (setFld (incFld s a F.CLKSTEER_LOSS_COUNT) a F.CLKSTEER_LOSS_CAUSE cause) a F.CLKSTEER_LOSS_LOST 1
    let x := sap t d m
    let slave := isSlave t d m
    let t := setSap t d m { x with
      lost := true, lostStopping := sapState t d m = sapStopping, broken := true, got := none, late := none
      queue := if slave then [] else x.queue
      out := if slave then [] else x.out
      due := if slave then [] else x.due
      convTx := if slave then [] else x.convTx
      judged := [], ratioRx := none, ratioWas := x.ratioRx.getD x.ratioWas, relockRx := false
      ratioTx := if slave then none else x.ratioTx
      relockTx := x.relockTx && !slave
      bip := { x.bip with viols := [], hz := 0, fbEnd := false } }
    let t := if isBip t d m then
        let b := setFld t (Reg.BIP_STAT d m) F.BIP_STAT_LOCK 0
        if slave && bitF b (Reg.SAP_CLK d m) F.SAP_CLK_FBEN then setFld b (Reg.BIP_STAT d m) F.BIP_STAT_FALLBACK 1 else b
      else t
    let t := if sapState t d m = sapRunning then setSapState t d m sapLost else t
    if steerInput t d m && steerState t = steerLock then steerHoldNow t else t

/-- SAP_CLOCK_RECOVER (R280): the lost input has returned. -/
def execSapClockRecover (d m : Nat) (s : State) : Out :=
  onUnit (d < dieCount s.part && m < 10) <| fromPads s d pdSap <|
    let a := Reg.CLKSTEER_LOSS d m
    whenDue s (bitF s a F.CLKSTEER_LOSS_LOST && (!isBip s d m || bitF s (Reg.BIP_STAT d m) F.BIP_STAT_LOCK)) <|
      let t := setFld s a F.CLKSTEER_LOSS_LOST 0
      let x := sap t d m
      let t := if steerInput t d m && steerState t = steerHold then steerResume t else t
      if !x.lost then t
      else
        let fb := inFallback t d m
        let t := setSap t d m { x with lost := false, held := true, convRx := [], convAge := none, convNew := 0, bip := { x.bip with fbEnd := fb } }
        if sapState t d m = sapLost then setSapState t d m sapRunning else t

/-! ### Biphase -/

/-- BIPHASE_LOCK (R270): the receiver has locked and measured `hz`; a locked one has measured it anew. The frame that begins
takes the VMUTE and CRCCHK that stand now; no block is in progress until a preamble B comes (R272). -/
def execBiphaseLock (d m hz : Nat) (s : State) : Out :=
  onUnit (d < dieCount s.part && m < 4) <| fromPads s d pdSap <|
    whenDue s (isBip s d m && sapArmed ≤ sapState s d m && 28000 ≤ hz && hz ≤ 216000 && domLive s d pdSap) <|
      let x := sap s d m
      if bitF s (Reg.BIP_STAT d m) F.BIP_STAT_LOCK then setSap s d m { x with bip := { x.bip with hz := hz } }
      else setFld (setSap s d m { x with bip := { x.bip with
          hz := hz, vmute := bitF s (Reg.BIP_CFG d m) F.BIP_CFG_VMUTE, chkNow := bitF s (Reg.BIP_CFG d m) F.BIP_CFG_CRCCHK
          inBlk := false, bits := [], vA := false, vB := false, err := false } })
        (Reg.BIP_STAT d m) F.BIP_STAT_LOCK 1

/-- Bit `i` of the block being sent, of array `k`: status A and B, user bits A and B (R272). -/
def blockBit (ws : List Word) (k i : Nat) : Bool := (ws.getD (6 * k + i / 32) 0).getLsbD (i % 32)

/-- Time slots 4-31 of the subframe that a biphase port sends in channel `c` (R268, R274): the sample, V, U and C, and the
parity bit that makes the number of ones even. -/
def txSubframe (s : State) (d m c : Nat) : BitVec 28 :=
  let x := sap s d m
  let b := x.bip
  let body : BitVec 28 := BitVec.ofNat 28 (((alGet c x.out).getD 0).toNat / 2 ^ 8 + (b.txV.getD c false).toNat * 2 ^ 24
    + (blockBit b.blk (2 + c) b.pos).toNat * 2 ^ 25 + (blockBit b.blk c b.pos).toNat * 2 ^ 26)
  if oddOnes body then body ||| BitVec.ofNat 28 (2 ^ 27) else body

/-- The bits of a byte, the earliest first (R272). -/
def byteBits (b : Nat) : List Bool := (List.range 8).map fun i => b.testBit i

/-- The CRC-8 of AES3 over bits in transmission order (R273): x^8 + x^4 + x^3 + x^2 + 1 from all ones, its highest
coefficient sent first. -/
def crcAes3 (bits : List Bool) : Nat :=
  bits.foldl (fun c b => if (c % 2 = 1) != b then (c / 2) ^^^ 0xB8 else c / 2) 0xFF

/-- Byte `j` of an array of words (R272). -/
def arrayByte (ws : List Word) (j : Nat) : Nat := (ws.getD (j / 4) 0).toNat / 2 ^ (8 * (j % 4)) % 256

/-- The CRCC of a channel's 24 bytes of status. -/
def statusCrc (ws : List Word) : Nat := crcAes3 ((List.range 23).flatMap fun j => byteBits (arrayByte ws j))

/-- Whether a channel's status is professional. -/
def isPro (ws : List Word) : Bool := arrayByte ws 0 % 2 = 1

/-- The four arrays of a block: status A and B, user bits A and B. -/
def blockPart (ws : List Word) (k : Nat) : List Word := (ws.drop (6 * k)).take 6

/-- An array of registers read. -/
def readArray (s : State) (a : Nat) : List Word := (List.range 6).map fun w => reg s (a + 4 * w)

/-- An array of registers written. -/
def writeArray (s : State) (a : Nat) (ws : List Word) : State :=
  each (List.range 6) (fun w t => setReg t (a + 4 * w) (ws.getD w 0)) s

/-- Bytes used in a status ring (R275). -/
def statusUsed (s : State) (wptr rptr size : Nat) : Nat :=
  let z := 128 * fld s size F.BIP_SRXSIZE_SIZE
  if z = 0 then 0
  else (128 * fld s wptr F.BIP_SRXWPTR_OFFSET + z - 128 * fld s rptr F.BIP_SRXRPTR_OFFSET % z) % z

/-- The base of a receive status ring. -/
def statusBase (s : State) (d m : Nat) : Nat := 128 * fld s (Reg.BIP_SRXBASE d m) F.BIP_SRXBASE_ADDR

/-- A receive record written to its ring, and WPTR after it (R256, R275); it is lost with a ring that has been disabled. -/
def statusWrite (d m : Nat) (bs : List Byte) (s : State) : State :=
  let z := 128 * fld s (Reg.BIP_SRXSIZE d m) F.BIP_SRXSIZE_SIZE
  let o := 128 * fld s (Reg.BIP_SRXWPTR d m) F.BIP_SRXWPTR_OFFSET
  if z = 0 then setFld (incFld s (Reg.BIP_RINGCNT d m) F.BIP_RINGCNT_RXLOST) (Reg.BIP_STAT d m) F.BIP_STAT_RINGLOST 1
  else setFld (ringWrite s d (statusBase s d m) z o bs) (Reg.BIP_SRXWPTR d m) F.BIP_SRXWPTR_OFFSET (ringNext z o 128 / 128)

/-- The receive records that waited for the end of the critical window (R204), written once it has ended. -/
def statusDrain (s : State) (d m : Nat) : State :=
  let x := sap s d m
  if x.bip.recs.isEmpty || !dmaOpen s d (statusBase s d m) then s
  else each x.bip.recs (statusWrite d m) (setSap s d m { x with bip := { x.bip with recs := [] } })

/-- A receive record written to its ring, or dropped (R275); one for LPDDR4X waits for the end of the critical window
(R204). -/
def statusRecord (s : State) (d m : Nat) (ws : List Word) (flags : Nat) : State :=
  let sizeA := Reg.BIP_SRXSIZE d m
  let z := 128 * fld s sizeA F.BIP_SRXSIZE_SIZE
  let x := sap s d m
  let used := statusUsed s (Reg.BIP_SRXWPTR d m) (Reg.BIP_SRXRPTR d m) sizeA + 128 * x.bip.recs.length
  if z = 0 then s
  else if z ≤ used + 128 then
    setFld (incFld s (Reg.BIP_RINGCNT d m) F.BIP_RINGCNT_RXLOST) (Reg.BIP_STAT d m) F.BIP_STAT_RINGLOST 1
  else
    let bs := (ws.flatMap fun w => toBytes 4 w.toNat) ++ toBytes 4 x.bip.blocks ++ toBytes 4 flags ++ List.replicate 24 0
    statusDrain (setSap s d m { x with bip := { x.bip with recs := x.bip.recs ++ [bs] } }) d m

/-- Bits 32w + 31 to 32w of array `k` of the block received, the earliest frame in bit 0 (R272). -/
def blockWord (bits : List Nat) (k w : Nat) : Word :=
  BitVec.ofNat 32 (natSum ((((bits.reverse.drop (32 * w)).take 32).zipIdx).map fun e => (e.1.testBit k).toNat * 2 ^ e.2))

/-- The C and U bits of the block received, as 24 words: status A and B, user bits A and B (R272). -/
def blockWords (bits : List Nat) : List Word :=
  (List.range 24).map fun i => blockWord bits (i / 6) (i % 6)

/-- A complete block (R273): its CRCs checked, its record written and its bits captured. The preamble B that completed it begins the
next one, with the CRCCHK that stands now. -/
def blockComplete (s : State) (d m : Nat) : State :=
  let st := Reg.BIP_STAT d m
  let x := sap s d m
  let b : Bip := x.bip
  let ws := blockWords b.bits
  let seen := if b.chk then ([0, 1].filter fun k => isPro (blockPart ws k)) else []
  let badN := (seen.filter fun k => statusCrc (blockPart ws k) ≠ arrayByte (blockPart ws k) 23).length
  let s := setSap s d m { x with bip := { b with
    blocks := b.blocks + 1, bits := [], vA := false, vB := false, err := false, chk := bitF s (Reg.BIP_CFG d m) F.BIP_CFG_CRCCHK } }
  let s := if badN = 0 then s
    else setFld (setFld s (Reg.BIP_ERR1 d m) F.BIP_ERR1_CRC (fld s (Reg.BIP_ERR1 d m) F.BIP_ERR1_CRC + badN)) st
      F.BIP_STAT_CRCERR 1
  let flags := (!seen.isEmpty && badN = 0).toNat + 2 * (badN ≠ 0 : Bool).toNat + 4 * b.vA.toNat + 8 * b.vB.toNat
    + 16 * b.err.toNat
  let s := statusRecord s d m ws flags
  if badN ≠ 0 || bitF s st F.BIP_STAT_CSNEW then s
  else
    let cA := readArray s (Reg.BIP_CSRXA d m 0)
    let cB := readArray s (Reg.BIP_CSRXB d m 0)
    let chg := cA ≠ blockPart ws 0 || cB ≠ blockPart ws 1
    let t := writeArray (writeArray (writeArray (writeArray s (Reg.BIP_CSRXA d m 0) (blockPart ws 0))
      (Reg.BIP_CSRXB d m 0) (blockPart ws 1)) (Reg.BIP_USRXA d m 0) (blockPart ws 2))
      (Reg.BIP_USRXB d m 0) (blockPart ws 3)
    let t := setFld t st F.BIP_STAT_CSNEW 1
    let t := if chg then setFld t st F.BIP_STAT_CSCHG 1 else t
    let b0 := arrayByte ws 0
    setFld (setFld t st F.BIP_STAT_PRO (b0 % 2)) st F.BIP_STAT_NONPCM (b0 / 2 % 2)

/-- BIPHASE_BLOCK_RX (R273): the block in progress ends: complete, when a preamble B follows its 192 frames, whose C and U bits are
`ws`; or incomplete, after which the next preamble B begins a block, with the CRCCHK of its own moment. -/
def execBiphaseBlockRx (d m : Nat) (complete : Bool) (ws : List Word) (s : State) : Out :=
  onUnit (d < dieCount s.part && m < 4) <| fromPads s d pdSap <|
    let b := (sap s d m).bip
    whenDue s (isBip s d m && sapArmed ≤ sapState s d m && domLive s d pdSap && b.inBlk
        && (!complete || (bitF s (Reg.BIP_STAT d m) F.BIP_STAT_LOCK && b.bits.length = 192 && decide (ws = blockWords b.bits)))) <|
      if complete then blockComplete s d m
      else
        let t := blockDiscard s d m
        setSap t d m { sap t d m with bip := { (sap t d m).bip with chkNow := bitF s (Reg.BIP_CFG d m) F.BIP_CFG_CRCCHK } }

/-- A channel's status with its CRCC generated (R274). -/
def withCrc (gen : Bool) (ws : List Word) : List Word :=
  if gen && isPro ws then ws.set 5 (BitVec.ofNat 32 ((ws.getD 5 0).toNat % 2 ^ 24 + statusCrc ws * 2 ^ 24)) else ws

/-- BIPHASE_BLOCK_TX (R274): the C and U bits of the block that begins are fixed; a record in LPDDR4X comes after the critical
window, before its first bit is sent (R204). -/
def execBiphaseBlockTx (d m : Nat) (s : State) : Out :=
  onUnit (d < dieCount s.part && m < 4) <|
    whenDue s ((sap s d m).bip.blkDue && statusOpen s d m) <|
      let sizeA := Reg.BIP_STXSIZE d m
      let z := 128 * fld s sizeA F.BIP_SRXSIZE_SIZE
      let used := statusUsed s (Reg.BIP_STXWPTR d m) (Reg.BIP_STXRPTR d m) sizeA
      let arrays (t : State) : List Word :=
        readArray t (Reg.BIP_CSTXA d m 0) ++ readArray t (Reg.BIP_CSTXB d m 0) ++ readArray t (Reg.BIP_USTXA d m 0)
          ++ readArray t (Reg.BIP_USTXB d m 0)
      let (t, ws) :=
        if z = 0 then (s, arrays s)
        else if used < 128 then
          (setFld (incFld s (Reg.BIP_RINGCNT d m) F.BIP_RINGCNT_TXUNR) (Reg.BIP_STAT d m) F.BIP_STAT_TXSUNR 1, arrays s)
        else
          let o := 128 * fld s (Reg.BIP_STXRPTR d m) F.BIP_SRXRPTR_OFFSET
          let (t, bs) := ringRead s d (128 * fld s (Reg.BIP_STXBASE d m) F.BIP_STXBASE_ADDR) z o 96
          (setFld t (Reg.BIP_STXRPTR d m) F.BIP_SRXRPTR_OFFSET (ringNext z o 128 / 128),
            (List.range 24).map fun i => BitVec.ofNat 32 (ofBytes ((bs.drop (4 * i)).take 4)))
      let gen := bitF t (Reg.BIP_CFG d m) F.BIP_CFG_CRCGEN
      let x := sap t d m
      setSap t d m { x with bip := { x.bip with
        blkDue := false
        blk := withCrc gen (blockPart ws 0) ++ withCrc gen (blockPart ws 1) ++ ws.drop 12 } }

/-- The measured frame rates as a Pulse captures them (R18, R270): 0 while unlocked. -/
def bipCapture (s : State) (d : Nat) : State :=
  each (List.range 4) (fun m t =>
    setFld t (Reg.BIP_RATE d m) F.BIP_RATE_HZ
      (if bitF t (Reg.BIP_STAT d m) F.BIP_STAT_LOCK then (sap t d m).bip.hz else 0)) s

/-! ### Converter channels -/

/-- Entries that are idle as duplicates (R282): their engines' DUP is set. -/
def srcMarkDup (s : State) (d : Nat) : State :=
  each (tabRange s tSrc d 0 384) (fun e t =>
    let named := e.2.getLsbD 31 && wField e.2 3 0 < 10 && engineServes t d (e.1 / 64)
    if named && srcServer t d (wField e.2 3 0) (wField e.2 12 8) (e.2.getLsbD 30) ≠ some e.1 then
      setFld t (Reg.SRC_STAT d (e.1 / 64)) F.SRC_STAT_DUP 1 else t) s

/-- A write of word 0 of a converter entry (R282): accepted while the ports it names, before and after, are STOPPED. The
second part says whether it was. -/
def srcEntryWrite (s : State) (d e i : Nat) (v : Word) : State × Bool :=
  let old := tab s tSrc d (e * 64 + i)
  let stopped (w : Word) : Bool := 10 ≤ wField w 3 0 || sapState s d (wField w 3 0) = sapStopped
  if stopped old && stopped v then (srcMarkDup (setTab s tSrc d (e * 64 + i) (v &&& 0xE0001F0F)) d, true)
  else (setFld s (Reg.SRC_STAT d e) F.SRC_STAT_CFGREJ 1, false)

/-- Word 1 of an entry (R283): LOCK, RANGE, SERVING, RATIO. -/
def srcWord1 (s : State) (d e i : Nat) : Word :=
  let w := tab s tSrc d (e * 64 + i)
  let m := wField w 3 0
  let tx := w.getLsbD 30
  let x := sap s d m
  let en := if tx then x.maskTx else x.maskRx
  let live := m < 10 && sapRunning ≤ sapState s d m && isConv s d m && en.getLsbD (wField w 12 8)
    && wField w 12 8 < sapSlots s d m && srcServer s d m (wField w 12 8) tx = some (e * 64 + i)
  let ratio := if live then (if tx then x.ratioTx else x.ratioRx) else none
  BitVec.ofNat 32
    (match ratio with
     | some r => 2 ^ 31 + (ratioRange r).toNat * 2 ^ 30 + live.toNat * 2 ^ 29 + min r (2 ^ 29 - 1)
     | none => live.toNat * 2 ^ 29)

/-- Whether a direction of a port tracks its ratio now. -/
def tracksNow (s : State) (d m : Nat) (tx : Bool) : Bool :=
  let st := sapState s d m
  isConv s d m && (st = sapRunning || st = sapStopping) && !(sap s d m).lost && ratioTracked s d m tx && domLive s d pdSrc

/-- Whether channels that take the exact ratio of their master port relock, after a move to the spare engine (R443). -/
def relocksExact (s : State) (d m : Nat) (tx : Bool) : Bool :=
  let st := sapState s d m
  isConv s d m && (st = sapRunning || st = sapStopping) && !ratioTracked s d m tx && domLive s d pdSrc
    && (if tx then (sap s d m).relockTx else (sap s d m).relockRx)

/-- Whether a tracked ratio can become `r` (R283): it is acquired, or follows its port by no more than 0.2 %. -/
def ratioMoves (old : Option Nat) (r : Nat) : Bool :=
  match old with
  | none => 0 < r
  | some q => 0 < r && decide (q * 998 ≤ r * 1000) && decide (r * 1000 ≤ q * 1002)

/-- SRC_RATIO_LOCK (R283): the channels of a port and direction have acquired the ratio `r`, in 24 fraction bits, or follow
their port to it; those of a master take its exact ratio again. -/
def execSrcRatioLock (d m : Nat) (tx : Bool) (r : Nat) (s : State) : Out :=
  onUnit (d < dieCount s.part && m < 10) <|
    let x := sap s d m
    let exact := relocksExact s d m tx
    let v := if exact then masterRatio s d m else r
    whenDue s (exact || (tracksNow s d m tx && ratioMoves (if tx then x.ratioTx else x.ratioRx) r)) <|
      setSap s d m (if tx then { x with ratioTx := some v, relockTx := false }
        else { x with ratioRx := some v, relockRx := false, held := false,
                      convRx := if x.relockRx then [] else x.convRx
                      convAge := if x.relockRx then none else x.convAge, convNew := if x.relockRx then 0 else x.convNew })

/-- SRC_RELOCK (R283): a step of the frame rate makes the channels of a port and direction relock. -/
def execSrcRelock (d m : Nat) (tx : Bool) (s : State) : Out :=
  onUnit (d < dieCount s.part && m < 10) <|
    let x := sap s d m
    whenDue s (tracksNow s d m tx && (if tx then x.ratioTx else x.ratioRx).isSome) <|
      let t := setSap s d m (if tx then { x with ratioTx := none, relockTx := true, convTx := [] }
        else { x with ratioRx := none, ratioWas := x.ratioRx.getD x.ratioWas, relockRx := true })
      each (List.range 6) (fun e u =>
        if (List.range 64).any fun i => (srcWord1 s d e i).getLsbD 29 && (tab s tSrc d (e * 64 + i)).getLsbD 30 == tx
            && wField (tab s tSrc d (e * 64 + i)) 3 0 = m
        then incReg u (Reg.SRC_RELOCK_CNT d e) else u) t

end Sys2Proof.Machine
end

