-- ==== Sys2Proof/Machine/LinkCode.lean ====
section
/-! DEFINITION. The blocks of the Roarn link as its lanes carry them (R310–R313, R319): headers, the scrambler, the layout of
frames and packets with their CRCs, written and read. -/
namespace Sys2Proof.Machine

/-! ### Bits and checks -/

/-- A payload made of fields, each a width and a value, from bit 127 down. -/
def packBits (xs : List (Nat × Nat)) : BitVec 128 :=
  BitVec.ofNat 128 (xs.foldl (fun a e => a * 2 ^ e.1 + e.2 % 2 ^ e.1) 0)

/-- Bits `hi` to `lo` of a payload. -/
def payBits (p : BitVec 128) (hi lo : Nat) : Nat := p.toNat / 2 ^ lo % 2 ^ (hi + 1 - lo)

/-- The bytes of a payload in the order in which they are sent (R310). -/
def payBytes (p : BitVec 128) : List Byte := (List.range 16).map fun i => BitVec.ofNat 8 (payBits p (127 - 8 * i) (120 - 8 * i))

/-- The low `w` bits of a number, the most significant first. -/
def msbBits (w n : Nat) : List Bool := (List.range w).map fun i => n.testBit (w - 1 - i)

/-- CRC-16 with x^16 + x^12 + x^5 + 1 and an initial value of all ones, over bits in the order sent (R319). -/
def crc16 (bits : List Bool) : Nat :=
  bits.foldl (fun c b =>
    let x := c * 2 % 2 ^ 16
    if (c.testBit 15).xor b then x ^^^ 0x1021 else x) 0xFFFF

/-! ### The scrambler (R311) -/

/-- `n` steps of the scrambler x^23 + x^18 + 1 from state `s`, its output appended to `acc`. -/
def scramblerRun : Nat → Nat → Nat → Nat
  | 0, _, acc => acc
  | n + 1, s, acc =>
    let b := (s / 2 ^ 22 + s / 2 ^ 17) % 2
    scramblerRun n ((s * 2 + b) % 2 ^ 23) (acc * 2 + b)

/-- The scrambler's output over the payload of the `j`-th block after a lane's FS block (R311). -/
def scramblerKey (j : Nat) : BitVec 128 := BitVec.ofNat 128 (scramblerRun (128 * (j + 1)) (2 ^ 23 - 1) 0)

/-- The payload of block `k` of a frame scrambled, or recovered: blocks 0 and 1 are the FS blocks of the two lanes. -/
def scramble (k : Nat) (p : BitVec 128) : BitVec 128 := if k < 2 then p else p ^^^ scramblerKey (k / 2 - 1)

/-! ### Blocks (R310, R311) -/

def ctFs : Nat := 1
def ctTc : Nat := 2
def ctIdle : Nat := 3
def ctTrain : Nat := 4
def ctSpare : Nat := 5
def ctDelay : Nat := 6
def ctLcrc : Nat := 8
def ctPkt : Nat := 0x10

/-- The control block types (R311). -/
def controlTypes : List Nat := [ctFs, ctTc, ctIdle, ctTrain, ctSpare, ctDelay, ctLcrc, ctPkt]

/-- A block sent as block `k` of a frame: control or data, with its payload. -/
def sendBlock (k : Nat) (b : Bool × BitVec 128) : LinkBlock := (if b.1 then 0xA#4 else 0x5#4) ++ scramble k b.2

/-- The mark that stands for the header of a control block whose type is none of the table, where a command gives headers
alone (R311). -/
def headerOdd : Nat := 0x1A

/-- Whether a header is invalid (R310), or that mark. -/
def headerBad (h : Nat) : Bool := h ≠ 0x5 && h ≠ 0xA

/-- Block `k` of a frame as received: control or data with its payload; none where its header, or the type of a control block,
is invalid (R310, R311). -/
def readBlock (k : Nat) (b : LinkBlock) : Option (Bool × BitVec 128) :=
  let h := b.toNat / 2 ^ 128
  let p := scramble k (BitVec.ofNat 128 b.toNat)
  if h = 0x5 then some (false, p)
  else if h = 0xA && controlTypes.contains (payBits p 127 120) then some (true, p)
  else none

/-- The payload of a control block of a type, of a data block. -/
def controlOf (ty : Nat) : Option (Bool × BitVec 128) → Option (BitVec 128)
  | some (true, p) => if payBits p 127 120 = ty then some p else none
  | _ => none
def dataOf : Option (Bool × BitVec 128) → Option (BitVec 128)
  | some (false, p) => some p
  | _ => none

/-! ### Frames (R312) -/

/-- SLOTS as it acts (R313). -/
def slotsLimit (rate slots : Nat) : Nat := min slots (if rate ≤ 3 then 32 else 16)

/-- The FS block of a logical lane. -/
def fsBlock (f : Frame) (lane : Nat) : BitVec 128 :=
  packBits [(8, ctFs), (3, f.rate), (1, lane), (6, f.slots), (10, f.credit), (16, f.devid), (1, 0), (3, f.die), (16, 0),
    (32, f.num), (32, 0)]

/-- The TC block. -/
def tcBlock (f : Frame) : BitVec 128 :=
  packBits [(8, ctTc), (8, f.gmprio), (16, f.gmid), (6, f.hops), (1, f.sync.toNat), (1, 0), (24, f.offset), (64, f.count)]

/-- A slot of a frame. -/
def frameSlot (f : Frame) (i : Nat) : Line := (alGet i f.data).getD ⟨0, false⟩

/-- The line and validity blocks of a frame. -/
def sectionBlocks (f : Frame) : List (BitVec 128) :=
  ((List.range (32 * f.slots)).map fun b => packBits ((List.range 4).map fun i => (32, (frameSlot f (4 * b + i)).val.toNat)))
    ++ (List.range f.slots).map fun v =>
      packBits ((List.range 128).map fun i => (1, (frameSlot f (128 * v + (127 - i))).valid.toNat))

/-- The LCRC of line and validity blocks. -/
def lineCrc (ps : List (BitVec 128)) : Nat := crc32c (ps.flatMap payBytes)

/-- The blocks of a frame up to its packet section. -/
def frameBlocks (f : Frame) : List (Bool × BitVec 128) :=
  let ps := sectionBlocks f
  [(true, fsBlock f 0), (true, fsBlock f 1), (true, tcBlock f)] ++ ps.map (fun p => (false, p))
    ++ [(true, packBits [(8, ctLcrc), (88, 0), (32, lineCrc ps)])]

/-- The fields of a received frame's FS and TC blocks; none where one is missing or invalid (R317). -/
def readHead (bs : List LinkBlock) : Option Frame :=
  let at_ (k ty : Nat) : Option (BitVec 128) := (bs[k]?).bind fun b => controlOf ty (readBlock k b)
  match at_ 0 ctFs, at_ 1 ctFs, at_ 2 ctTc with
  | some a, some b, some c =>
    if payBits a 116 116 = 0 && payBits b 116 116 = 1 then
      some { rate := payBits a 119 117, slots := payBits a 115 110, credit := payBits a 109 100, devid := payBits a 99 84
             die := payBits a 82 80, num := payBits a 63 32, gmprio := payBits c 119 112, gmid := payBits c 111 96
             hops := payBits c 95 90, sync := payBits c 89 89 = 1, offset := payBits c 87 64, count := payBits c 63 0
             data := [] }
    else none
  | _, _, _ => none

/-- The payloads of a frame's line and validity blocks; none where one is missing or unusable. -/
def readSection (bs : List LinkBlock) (slots : Nat) : Option (List (BitVec 128)) :=
  (List.range (33 * slots)).mapM fun i => (bs[3 + i]?).bind fun b => dataOf (readBlock (3 + i) b)

/-- The slots that line and validity blocks carry, but for those at 0 and invalid. -/
def readSlots (ps : List (BitVec 128)) (slots : Nat) : List (Nat × Line) :=
  (List.range (128 * slots)).filterMap fun i =>
    let w := BitVec.ofNat 32 (payBits (ps.getD (i / 4) 0) (127 - 32 * (i % 4)) (96 - 32 * (i % 4)))
    let l : Line := ⟨w, (ps.getD (32 * slots + i / 128) 0).getLsbD (i % 128)⟩
    if l = ⟨0, false⟩ then none else some (i, l)

/-- The line section of a frame with `slots` × 128 slots: its slots, if every block of it is there and the LCRC matches
(R312, R317). -/
def readLines (bs : List LinkBlock) (slots : Nat) : Option (List (Nat × Line)) :=
  let k := 3 + 33 * slots
  match readSection bs slots, (bs[k]?).bind fun b => controlOf ctLcrc (readBlock k b) with
  | some ps, some c => if payBits c 31 0 = lineCrc ps then some (readSlots ps slots) else none
  | _, _ => none

/-! ### Packets (R319) -/

/-- The header of a packet with a value of CRC. -/
def packetHeader (p : Packet) (crc : Nat) : BitVec 128 :=
  packBits [(8, ctPkt), (4, p.ty), (1, p.bcast.toNat), (1, p.scope.toNat), (6, p.hops), (6, p.words), (16, p.dst), (16, p.src),
    (8, p.tag), (40, p.addr), (4, p.status), (2, 0), (16, crc)]

/-- The CRC of a header and data words. -/
def packetCrc (h : BitVec 128) (ws : List Word) : Nat :=
  crc16 (msbBits 112 (payBits h 127 16) ++ ws.flatMap fun w => msbBits 32 w.toNat)

/-- The blocks of a packet. -/
def packetCode (p : Packet) : List (Bool × BitVec 128) :=
  let n := packetBlocks p - 1
  let ws := if n = 0 then [] else (List.range p.words).map fun i => p.data.getD i 0
  (true, packetHeader p (packetCrc (packetHeader p 0) ws)) ::
    (List.range n).map fun j => (false, packBits ((List.range 4).map fun i => (32, (ws.getD (4 * j + i) 0).toNat)))

/-- The packet that starts at block `k` of a frame; none where that block is no usable packet header. A packet whose CRC
does not match, or with a block that is missing or unusable, is `bad`. -/
def readPacket (k : Nat) (bs : List LinkBlock) : Option Packet :=
  match (bs[0]?).bind fun b => controlOf ctPkt (readBlock k b) with
  | none => none
  | some h =>
    let p : Packet :=
      { ty := payBits h 119 116, bcast := payBits h 115 115 = 1, scope := payBits h 114 114 = 1, hops := payBits h 113 108
        words := payBits h 107 102, dst := payBits h 101 86, src := payBits h 85 70, tag := payBits h 69 62
        addr := payBits h 61 22, status := payBits h 21 18, data := [], bad := true }
    let n := packetBlocks p - 1
    match (List.range n).mapM fun j => (bs[j + 1]?).bind fun b => dataOf (readBlock (k + 1 + j) b) with
    | none => some p
    | some ps =>
      let ws := (List.range (if n = 0 then 0 else p.words)).map fun i =>
        BitVec.ofNat 32 (payBits (ps.getD (i / 4) 0) (127 - 32 * (i % 4)) (96 - 32 * (i % 4)))
      some { p with data := ws, bad := payBits h 15 0 ≠ packetCrc h ws }

/-! ### What the lanes send -/

/-- A SPARE or DELAY block. -/
def ctlBlock (c : Ctl) : Bool × BitVec 128 :=
  let make (ty a b : Nat) : Bool × BitVec 128 := (true, BitVec.ofNat 8 ty ++ Config.controlBits ty a b)
  match c with
  | .delay => make ctDelay 0 0
  | .echo t => make ctDelay 1 t
  | .request l f => make ctSpare l f
  | .accept l f => make ctSpare (4 + l) f

/-- The blocks of the frame that a port sends: the frame, the control blocks and packets of its packet section, and IDLE from
there on (R312). -/
def sentBlocks (x : LinkPort) : List (Bool × BitVec 128) :=
  match x.out with
  | some f => frameBlocks f ++ x.sentCtl.map ctlBlock ++ x.sent.flatMap packetCode
  | none => x.sentCtl.map ctlBlock

/-- Block `k` of the frame that a port sends, as the lane carries it. -/
def wireBlock (x : LinkPort) (k : Nat) : LinkBlock :=
  sendBlock k ((sentBlocks x).getD k (true, packBits [(8, ctIdle), (120, 0)]))

/-- Block `j` of physical transmit lane `n` of an UP port in its frame (R309–R312, R339): its logical lane's blocks, those
of the lane that a spare request moves, or a TRAIN block. -/
def laneBlock (s : State) (d n j : Nat) : LinkBlock :=
  let x := linkPort s d
  let a := Reg.LINK_LANE d
  let of_ (lane : Nat) : LinkBlock :=
    if fld s a F.LINK_LANE_TXL0 = lane then wireBlock x (2 * j)
    else if fld s a F.LINK_LANE_TXL1 = lane then wireBlock x (2 * j + 1)
    else 0xA#4 ++ (BitVec.ofNat 8 ctTrain ++ Config.trainPattern j : BitVec 128)
  match x.txSpare with
  | some (lane, _) => if fld s a F.LINK_LANE_TXSP = n then of_ lane else of_ n
  | none => of_ n

/-! ### Errors of the lanes (R310, R339) -/

/-- The physical receive lane of block `k` of a frame. -/
def rxLane (s : State) (d k : Nat) : Nat :=
  fld s (Reg.LINK_LANE d) (if k % 2 = 0 then F.LINK_LANE_RXL0 else F.LINK_LANE_RXL1)

/-- Invalid headers counted on the physical receive lanes, and in their windows. -/
def countHeaders (s : State) (d : Nat) (ns : List Nat) : State :=
  let x := linkPort s d
  each (List.range 3) (fun n t =>
      setReg t (Reg.LINK_LERR d n) (reg t (Reg.LINK_LERR d n) + BitVec.ofNat 32 (ns.getD n 0)))
    (setLinkPort s d { x with lerr := (List.range 3).map fun n => x.lerr.getD n 0 + ns.getD n 0 })

/-- The invalid headers of blocks received from block `k` of a frame on, counted by lane. -/
def countBlocks (s : State) (d k : Nat) (bs : List LinkBlock) : State :=
  let bad := (bs.zip (List.range bs.length)).filter fun e => (readBlock (k + e.2) e.1).isNone
  if bad.isEmpty then s
  else countHeaders s d ((List.range 3).map fun n => (bad.filter fun e => rxLane s d (k + e.2) = n).length)

/-- Whether block `j` of a frame on the spare lane counts as an invalid header (R310, R311): by its header, or as a control block
whose type is none of the table, TRAIN blocks not being scrambled. -/
def spareBadHead (j : Nat) (b : LinkBlock) : Bool :=
  (readBlock (2 * j) b).isNone && !(b.toNat / 2 ^ 128 = 0xA && payBits (BitVec.ofNat 128 b.toNat) 127 120 = ctTrain)

/-- Blocks of the spare lane, each with its place in its frame, checked bit by bit against the TRAIN pattern (R339). -/
def checkSpare (s : State) (d : Nat) (sp : List (LinkBlock × Nat)) : State :=
  let n := fld s (Reg.LINK_LANE d) F.LINK_LANE_RXSP
  if sp.isEmpty || n = 3 then s
  else
    let heads := (sp.filter fun e => spareBadHead e.2 e.1).length
    let bad := sp.any fun e =>
      e.1 ≠ (0xA#4 ++ (BitVec.ofNat 8 ctTrain ++ Config.trainPattern e.2 : BitVec 128) : LinkBlock)
    let t := if heads = 0 then s else countHeaders s d ((List.range 3).map fun l => if l = n then heads else 0)
    if bad then setLinkPort t d { linkPort t d with trainBad := true } else t

end Sys2Proof.Machine
end

