-- ==== Sys2Proof/Machine/Swaps.lean ====
section
/-! DEFINITION. The steps of a swap (R225–R239): reaching a die, its checks and report, the decision, the commit and the
target Pulse; the end of a fader. -/
namespace Sys2Proof.Machine

/-- The kernel that a shadow runs beside (R434): the target of its pod. -/
def shadowTarget (s : State) (d k : Nat) : Nat := k / 18 * 18 + fld s (Reg.SPARE_POD d (k / 18)) F.SPARE_POD_TARGET

/-- The kernel whose inputs a slot's program reads: a shadow gets what its target gets (R434). -/
def inputKernel (s : State) (d k : Nat) : Nat := if (kern s d k).st = .shadow then shadowTarget s d k else k

/-- The bits that a kernel's bit space captures, with the LINKLOCK of the Pulse that opened the tick (R77, R342); a shadow
captures those of its target. -/
def recapture (s : State) (d k : Nat) : State :=
  let j := inputKernel s d k
  let c := captureBits s d j (kern s d j) ((dieX s d).capt.getLsbD 4)
  setKern s d k { kern s d k with capt := if c = (dieX s d).capt then none else some c }

/-- The kernels of a die whose captured bits may differ from the die's: those not in their reset state, and those with a
line table or a silence list. -/
def captKernels (s : State) (d : Nat) : List Nat :=
  let byEntry (t n : Nat) : List Nat := (tabRange s t d 0 (144 * n)).map fun e => e.1 / n
  (listed s d ++ byEntry tLtab 64 ++ byEntry tSlist 128).eraseDups

/-- The bit spaces of a die at a Pulse (R77). -/
def captureDie (d : Nat) (s : State) : State :=
  let t := setDieX s d { dieX s d with capt := baseBits s (linkUp s d && (linkPort s d).frameOk) }
  each (captKernels t d) (fun k u => recapture u d k) t

/-- The spare slots that carry a kernel's banks in its shadow period (R434). -/
def sparesOf (s : State) (d k : Nat) : List Nat :=
  let r := Reg.SPARE_POD d (k / 18)
  if (podX s d (k / 18)).phase = .idle || fld s r F.SPARE_POD_TARGET ≠ k % 18 then []
  else ([fld s r F.SPARE_POD_SHADOWSL, fld s r F.SPARE_POD_STANDBY].filter fun i => i < 18).map fun i => k / 18 * 18 + i

/-- A kernel's banks exchanged (R222): program and Y bank together, or the Y bank alone. -/
def flipBanks (yonly : Bool) (kn : Kern) : Kern :=
  { kn with pbank := if yonly then kn.pbank else !kn.pbank, ybank := !kn.ybank, swapped := true }

/-- A kernel member at its target Pulse (R222, R227, R234): its banks and those of its spares are exchanged, its counts
follow, and a HELD kernel whose program changed starts at this Pulse, the first one after its bank was swapped in (DESIGN CHOICE,
assumption log 120: R29 may also mean the next one). -/
def applyKernel (d : Nat) (yonly : Bool) (k : Nat) (s : State) : State :=
  let t := each (k :: sparesOf s d k) (fun j u => setKern u d j (flipBanks yonly (kern u d j))) s
  if yonly then each (k :: sparesOf s d k) (fun j u => recapture u d j) t
  else
    let a := Reg.KERNEL_STEPS d k
    let held := (kern s d k).st = .held
    let old := if held then 0 else fld s a F.KERNEL_STEPS_COUNT
    let t := setFld (setFld t a F.KERNEL_STEPS_COUNT (fld s a F.KERNEL_STEPS_SHADOW)) a F.KERNEL_STEPS_SHADOW old
    let t := if held then setKern t d k (startKern (enterRun { kern t d k with enter := false, rejoin := false, stop := false })) else t
    each (k :: sparesOf s d k) (fun j u => recapture (loadHoardMode u d k j) d j) t

/-- The kernel members of a program swap whose admission has been withdrawn (R40, R232). -/
def withdrawn (s : State) (d : Nat) (r : SwapReq) : List Nat :=
  if r.yonly then [] else (groupKernels s d r.group).filter fun k =>
    fld s (Reg.KERNEL_STEPS d k) F.KERNEL_STEPS_SHADOW = 0

/-- One die at the target Pulse (R227, R233): members change together, a withdrawn kernel refuses with code 0xC, and a
port or engine whose table was written directly during the request keeps to that write. A change written directly before the request and
still pending falls with the group's change (DESIGN CHOICE, assumption log 139: R227 does not say). -/
def applyDie (d : Nat) (r : SwapReq) (s : State) : State :=
  let bad := withdrawn s d r
  let ms := (groupKernels s d r.group).filter fun k => !bad.contains k
  let t := each bad (fun k u => logRefusal u d k (!(kern u d k).pbank) 0xC 0) s
  let t := each ms (applyKernel d r.yonly) t
  let t := if r.yonly then t else each (List.range 8) (fun p u => if ms.any fun k => k / 18 = p then recountPod u d p else u) t
  let t := each ((groupEngines s d r.group).filter fun p => !r.direct.contains (swapWho s d 1 p))
    (fun p u => carSwitch (carDrop u d p) d p) t
  let t := each ((groupPorts s d r.group).filter fun n => !r.direct.contains (swapWho s d 2 n) && (neighbour s d n).isSome)
    (fun n u => switchTable (setBridge u d n { bridge u d n with change := none }) d n) t
  each (groupFaders s d r.group) (fun e u => fadeBegin d e u) t

/-- A die's part of a request after the target Pulse (R232): a split to be reported, or done. -/
def afterApply (s : State) (r : SwapReq) (d : Nat) (j : Job) : Job :=
  match j with
  | .armed => (match (withdrawn s d r).head? with
    | some k => .split 1 (swapWho s d 0 k)
    | none => .armed)
  | _ => .split 2 (swapWho s d 3 0)

/-! ### A die's checks -/

/-- The engines of a group on a die whose inactive table refuses, with their REJCODE (R214). -/
def badEngines (s : State) (d g : Nat) : List (Nat × Nat) :=
  (groupEngines s d g).filterMap fun p => if carCheck s d p ≠ 0 then some (p, carCheck s d p) else none

/-- A die's members checked, each of them whatever another one answers (R226): the faders, the kernels of a program swap, and the
engines, which show their REJCODE; bridge ports and Y-only kernels need no check. The answer names the first that refused: a
fader, then a kernel, then an engine, the lowest number of its kind (DESIGN CHOICE, assumption log 108: R226 does not order the kinds). -/
def checkDie (d : Nat) (r : SwapReq) (s : State) : State × Option (Nat × Nat × Nat) :=
  let ms := groupKernels s d r.group
  let fader := (faderCheck s d r.group).map fun e => (3, e.1, swapWho s d 3 e.2)
  let (t, ref) := if r.yonly || ms.isEmpty then (s, none) else admitSwap d ms r.target s
  let kernel := ref.map fun e => (1, e.2, swapWho t d 0 e.1)
  let bad := badEngines t d r.group
  (each bad (fun e u => carReject u d e.1 e.2) t, fader <|> kernel <|> bad.head?.map fun e => (2, e.2, swapWho t d 1 e.1))

/-- Whether a die has members whose check takes time. -/
def slowCheck (s : State) (d : Nat) (r : SwapReq) : Bool :=
  (!r.yonly && !(groupKernels s d r.group).isEmpty) || !(groupEngines s d r.group).isEmpty

/-- SWAP_REQUEST_RX (R226): a die has received the request of a group. One without kernels or engines to check answers for its faders
at once; another one answers when all its checks are done. -/
def execSwapRequestRx (g d : Nat) (s : State) : Out :=
  onUnit (d < dieCount s.part) <|
    match pendingGroup s g with
    | some r =>
      if alGet d r.jobs = some .sent then
        .next (setJob s r d (if slowCheck s d r then .checking else match faderCheck s d g with
          | some (code, e) => .refused 3 code (swapWho s d 3 e)
          | none => .ready))
      else .next s
    | none => .next s

/-- ADMISSION_DONE (R39, R80, R226): the check of a die's members of group `n` has completed, or with `rejoin` the
admission of kernel `n`'s active bank. -/
def execAdmissionDone (d : Nat) (rejoin : Bool) (n : Nat) (s : State) : Out :=
  onUnit (d < dieCount s.part) <|
    if rejoin then whenDue s (n < 144 && (kern s d n).rejoin) (powerSync (admitRejoin d n s) d)
    else match pendingGroup s n with
      | some r =>
        if alGet d r.jobs = some .checking then
          match checkDie d r s with
          | (t, some (code, detail, who)) => .next (setJob t r d (.refused code detail who))
          | (t, none) => .next (setJob t r d .ready)
        else .next s
      | none => .next s

/-- Whether every part of a request has been heard as ready. -/
def allHeard (r : SwapReq) : Bool := (r.jobs.all fun e => e.2 = .heard) && r.remotes.all fun e => e.2

/-- A report "ready" noted; a device that coordinates for another reports once all of it is ready (R225). -/
def noteReady (s : State) (r r' : SwapReq) : State :=
  let t : State := { s with swaps := s.swaps.map fun q => if q = r then r' else q }
  match r'.origin with
  | some dev =>
    if allHeard r' then deviceSend t r.coord (swapPacket t r.coord dev 2 r.yonly r.group r.target []) false else t
  | none => t

/-- SWAP_READY_RX (R226): the coordinator receives a die's report. -/
def execSwapReadyRx (g d : Nat) (s : State) : Out :=
  onUnit (d < dieCount s.part) <|
    match pendingGroup s g with
    | some r =>
      whenDue s (decide (alGet d r.jobs = some .ready) && !r.committed)
        (noteReady s r { r with jobs := alPut d .heard r.jobs })
    | none => .next s

/-- SWAP_REFUSAL_RX (R226, R232): the coordinator receives a die's refusal, or the report of a split member. -/
def execSwapRefusalRx (g d : Nat) (s : State) : Out :=
  onUnit (d < dieCount s.part) <|
    match s.swaps.find? fun r => r.group = g &&
        (match alGet d r.jobs with | some (.refused _ _ _) => !r.committed | some (.split _ _) => r.applied | _ => false) with
    | some r =>
      match alGet d r.jobs with
      | some (.refused result detail who) => .next (endSwap s r result detail who)
      | some (.split detail who) =>
        let r' : SwapReq := { r with jobs := alPut d .armed r.jobs }
        .next (splitSwap { s with swaps := s.swaps.map fun q => if q = r then r' else q } r' 9 detail who)
      | _ => .next s
    | none => .next s

/-- The first die or device of a request that has not been heard (R229). -/
def firstUnheard (s : State) (r : SwapReq) : Nat × Nat :=
  match r.jobs.find? fun e => e.2 ≠ .heard with
  | some (d, _) => (1, swapWho s d 3 0)
  | none =>
    match r.remotes.find? fun e => !e.2 with
    | some (dev, _) => (2, dev * 2 ^ 16 + 3 * 2 ^ 10)
    | none => (0, 0)

/-- SWAP_DECISION (R226): at the decision Pulse the coordinator commits and sends the commit, or refuses for a missing
report. -/
def execSwapDecision (g : Nat) (s : State) : Out :=
  match pendingGroup s g with
  | some r =>
    if r.committed || r.origin.isSome || decide (pulseCount s + swapLead s r.coord < r.target) then .next s
    else if allHeard r then
      let t : State := { s with swaps := s.swaps.map fun q => if q = r then { r with committed := true } else q }
      .next (each r.remotes (fun v u =>
        deviceSend u r.coord (swapPacket u r.coord v.1 4 r.yonly r.group r.target []) false) t)
    else
      let m := firstUnheard s r
      .next (endSwap s r 4 m.1 m.2)
  | none => .next s

/-- SWAP_COMMIT_RX (R227, R236): a die receives the commit, and the faders of the group are armed. -/
def execSwapCommitRx (g d : Nat) (s : State) : Out :=
  onUnit (d < dieCount s.part) <|
    match s.swaps.find? fun r => r.group = g && r.committed && !r.applied with
    | some r =>
      whenDue s (decide (alGet d r.jobs = some .heard) && decide (pulseCount s < r.target))
        (each (groupFaders s d g) (fun e u => fadeFlag u d e 30 true) (setJob s r d .armed))
    | none => .next s

/-- SWAP_APPLY (R18, R227, R232): the target Pulse of a committed request, once the readings of that Pulse are captured. A request
of another device that was not committed in time ends without a change. -/
def execSwapApply (g : Nat) (s : State) : Out :=
  if metersOwed s then .next s else
  match s.swaps.find? fun r => r.group = g && !r.applied && decide (r.target ≤ pulseCount s) && pulseRuns s with
  | some r =>
    if r.committed then
      let armed := (r.jobs.filter fun e => e.2 = .armed).map (·.1)
      let jobs := r.jobs.map fun e => (e.1, afterApply s r e.1 e.2)
      let r' : SwapReq := { r with applied := true, jobs := jobs }
      let t := each armed (fun d u => applyDie d r u) s
      let t : State := { t with swaps := t.swaps.map fun q => if q = r then r' else q }
      let t := powerSyncAll t none
      .next (if r.split then t else reportSwap t r 0 0 0)
    else if r.origin.isSome then .next (if r.split then dropSwap s r else endSwap s r 9 2 (swapWho s r.coord 3 0))
    else .next s
  | none => .next s

/-- FADER_END (R239): `LEN` ticks of a fade are done. -/
def execFaderEnd (d e : Nat) (s : State) : Out :=
  onUnit (d < dieCount s.part && e < 512) <|
    let w := fadeWord s d e 2
    whenDue s (w.getLsbD 31 && decide (fadeLen (fadeWord s d e 0) ≤ wField w 13 0)) (fadeClear s d e)

/-- The faders of a die at a Pulse: one more tick of every active fade is done (R237, R239). -/
def fadePulse (s : State) (d : Nat) : State :=
  each (busyFaders s d) (fun e t =>
    let w := fadeWord t d e 2
    if w.getLsbD 31 then setTab t tFade d (e * 4 + 2) (wPut w 13 0 (wField w 13 0 + 1)) else t) s

/-! ### The Pulse stops -/

/-- What waits for a later Pulse count when the Pulse stops (R231). A device past the decision Pulse that has not had the commit
records DETAIL 0 (DESIGN CHOICE, assumption log 124). -/
def stopWaiting (s : State) : State :=
  let t := (pendingSwaps s).foldl (fun u r => endSwap u r 0xA r.committed.toNat 0) s
  let t := each (dies t) (fun d u =>
    let u := each (busyFaders u d) (fun e v =>
      if (fadeWord v d e 2).getLsbD 31 then fadeClear v d e else fadeFlag v d e 30 false) u
    let u := each (List.range 3) (fun n v => setBridge v d n { bridge v d n with change := none }) u
    let u := each (List.range 8) (fun p v => if (caravan v d p).change.isSome then carDrop v d p else v) u
    setLinkPort u d { linkPort u d with change := none }) t
  { t with linkDev := { t.linkDev with change := none }, swaps := t.swaps.filter fun r => r.applied }

end Sys2Proof.Machine
end

