-- ==== Sys2Proof/Machine/Link.lean ====
section
/-! DEFINITION. The Roarn link but for its packets (R309–R318, R331–R344): frames, export and import, training, time, lane
sparing and loss. -/
namespace Sys2Proof.Machine

/-! ### Frames -/

/-- The hop term of the rate (R314). -/
def hopTerm (s : State) : Nat := byRate s [3, 3, 6, 6, 12, 12]

/-- SLOTS of a port. -/
def portSlots (s : State) (d : Nat) : Nat := slotsLimit (rateCode s) (fld s (Reg.LINK_CFG d) F.LINK_CFG_SLOTS)

/-- LINK_STAT.ACTIVE of a port. -/
def exportActive (s : State) (d : Nat) : Nat := fld s (Reg.LINK_STAT d) F.LINK_STAT_ACTIVE

/-- What an export entry carries (R314): a line, or a slot of the frame that came due at this Pulse on another port. -/
def exportValue (s : State) (w : Word) (d : Nat) : Line :=
  if w.getLsbD 30 then (alGet (wField w 11 0) (linkPort s (wField w 14 12)).fwd).getD deadLine
  else readLine s d (wField w 13 0)

/-- The line section of a port's frame: the slots that do not carry 0 and invalid. -/
def exportSlots (s : State) (d : Nat) : List (Nat × Line) :=
  let base := exportActive s d * 4096
  (tabRange s tLexp d base (base + 128 * portSlots s d)).filterMap fun e =>
    let l := exportValue s e.2 d
    if e.2.getLsbD 31 && l ≠ deadLine then some (e.1 - base, l) else none

/-- The time state of the device (R337). -/
def timeState (s : State) : Nat := fld s (Reg.LINK_GMSTAT 0) F.LINK_GMSTAT_TSTATE
def tFree : Nat := 0
def tGm : Nat := 1
def tAcq : Nat := 2
def tLock : Nat := 3
def tHold : Nat := 4
def tMerge : Nat := 5

/-- The upstream die (R334). -/
def upDie (s : State) : Nat := fld s (Reg.LINK_GMSTAT 0) F.LINK_GMSTAT_UPDIE

/-- Whether the device follows a grandmaster through an upstream port. -/
def follows (s : State) : Bool := timeState s = tAcq || timeState s = tLock || timeState s = tMerge

/-- The priority of the grandmaster that the device announces: 0 none (R312, R334). -/
def ownGmPrio (s : State) : Nat :=
  if timeState s = tGm then fld s (Reg.LINK_GM 0) F.LINK_GM_PRIO
  else if follows s then (match (linkPort s (upDie s)).gm with | some (p, _, _, _) => p | none => 0)
  else 0

/-- The free blocks of a port's packet receive buffer of 512 (R323): requests that wait for LPDDR4X take room. -/
def freeBlocks (s : State) (d : Nat) : Nat := 512 - ((linkPort s d).rx.map packetBlocks).sum

/-- The frame that a port sends (R312): `count` is its COUNT field, `slots` its SLOTS. Where the first block begins after the
Pulse is open within one block (assumption log 17). -/
def buildFrame (s : State) (d count slots : Nat) (data : List (Nat × Line)) : Frame where
  rate := fld s (Reg.PULSE_CFG 0) F.PULSE_CFG_RATE
  slots := slots
  credit := freeBlocks s d
  devid := linkId s
  die := d
  num := (count + 2 ^ 32 - 1) % 2 ^ 32
  gmprio := ownGmPrio s
  gmid := if ownGmPrio s = 0 then 0 else fld s (Reg.LINK_GMSTAT 0) F.LINK_GMSTAT_GMID
  hops := fld s (Reg.LINK_GMSTAT 0) F.LINK_GMSTAT_HOPS
  sync := timeState s = tGm || timeState s = tLock
  offset := Config.freeNat s.fresh % 1056
  count := count
  data := data

/-- The packets that a port sends with its credit (R323), and those that stay. -/
def drainPackets : Nat → List Packet → List Packet × List Packet × Nat
  | c, [] => ([], [], c)
  | c, p :: ps =>
    if packetBlocks p ≤ c then
      let (a, b, n) := drainPackets (c - packetBlocks p) ps
      (p :: a, b, n)
    else ([], p :: ps, c)

/-- HOST packets of queue 2 handed to the link (R330, R373). -/
def drainHost (d : Nat) : Nat → State → State
  | 0, s => s
  | n + 1, s =>
    if !queueHas s d 2 then s
    else
      let r := queueTake s d 2
      let ws := r.2
      let w := ws.getD 0 0
      let len := wField w 13 8
      let p : Packet := ⟨pkHost, w.getLsbD 15, w.getLsbD 14, ownHops s d, len, wField w 31 16, linkId s, wField w 7 0, 0, 0,
        (ws.drop 1).take (min 32 len), decide (32 < len)⟩
      drainHost d n (deviceSend r.1 d p false)

/-- A frame sent by a port, with the control blocks that wait and the packets that its credit covers; every 4,096 frames with
a DELAY block (R332). -/
def sendFrame (s : State) (d : Nat) (f : Frame) : State :=
  let x := linkPort s d
  let (out, rest, c) := drainPackets x.credit x.queue
  setLinkPort { s with fresh := s.fresh + 1 } d
    { x with queue := rest, sent := out, credit := c, out := some f, frameNo := x.frameNo + 1, ctl := []
             sentCtl := x.ctl ++ (if (x.frameNo + 1) % 4096 = 0 then [.delay] else []) }

/-- A control block sent: in the next frame of an UP port, at once while it trains (R332, R339). -/
def sendCtl (s : State) (d : Nat) (c : Ctl) : State :=
  let x := linkPort s d
  setLinkPort s d (if linkUp s d then { x with ctl := x.ctl ++ [c] } else { x with sentCtl := x.sentCtl ++ [c] })

/-- What waits in a die's link transmit queue handed to the link (R330), whichever die's port its route takes. -/
def drainDie (d : Nat) (s : State) : State :=
  if domLive s d pdLink && domLive s d pdStew then drainHost d (fld s (Reg.QUEUE_STAT d 2) F.QUEUE_STAT_COUNT) s else s

/-- The frame of a port at the Pulse with count `n`, before the lines of that Pulse are published (R312). -/
def pulseFrame (s : State) (n d : Nat) : State :=
  let s := drainDie d s
  if linkUp s d then sendFrame s d (buildFrame s d n (portSlots s d) (exportSlots s d)) else s

/-- NOMINAL_TICK_FRAME (R333): while the Pulse is stopped an UP port sends frames with SLOTS 0. Their COUNT stays one below that of
the next Pulse, as if the last one stood (DESIGN CHOICE, assumption log 114). -/
def execNominalTickFrame (d : Nat) (s : State) : Out :=
  onUnit (d < dieCount s.part) <|
    whenDue s (!pulseRuns s && linkUp s d && running s) <|
      let s := each (dies s) drainDie s
      sendFrame s d (buildFrame s d ((pulseCount s + 2 ^ 64 - 1) % 2 ^ 64) 0 [])

/-! ### Import -/

/-- A failed frame counted (R317). -/
def countFail (s : State) (d : Nat) : State :=
  setFld (incReg s (Reg.LINK_FERR d)) (Reg.LINK_STAT d) F.LINK_STAT_FFAIL 1

/-- The slots of a port after a failed frame (R195, R317): held and invalid, at 0 once HOLDT frames have failed. -/
def holdSlots (s : State) (d fails : Nat) (xs : List (Nat × Line)) : List (Nat × Line) :=
  let zero := decide (fld s (Reg.LINK_CFG d) F.LINK_CFG_HOLDT < fails)
  xs.map fun e => (e.1, ⟨if zero then 0 else e.2.val, false⟩)

/-- The frame that comes due at the Pulse with count `n` (R315, R317): frame `n` − 1 − H, none at a count below 1 + H. A frame that
never came counts as failed from the time the port is UP; in MERGE every frame of the upstream port fails (R338). -/
def linkDue (s : State) (n d : Nat) : State :=
  let x := linkPort s d
  let f := n - 1 - hopTerm s
  let got := alGet (f % 2 ^ 32) x.frames
  let rest := x.frames.filter fun e => e.1 ≠ f % 2 ^ 32
  let merge := timeState s = tMerge && upDie s = d
  let bad (t : State) : State :=
    setLinkPort t d { x with frames := rest, fwd := holdSlots s d (x.fails + 1) x.fwd, frameOk := false, fails := x.fails + 1 }
  if !linkUp s d then
    setLinkPort s d { x with frames := [], fwd := holdSlots s d (x.fails + 1) x.fwd, frameOk := false, fails := x.fails + 1 }
  else if n < 1 + hopTerm s then setLinkPort s d { x with fwd := holdSlots s d 0 x.fwd, frameOk := false }
  else match got with
    | some (some data) =>
      if merge then bad (countFail s d)
      else setLinkPort s d { x with frames := rest, fwd := data, frameOk := true, fails := 0 }
    | some none => bad s
    | none =>
      if x.upAt ≤ f then bad (countFail s d)
      else setLinkPort s d { x with fwd := holdSlots s d 0 x.fwd, frameOk := false }

/-- The import lines of a die at a Pulse (R315): the frame that came due one Pulse ago. A domain past its pad-hold point is
isolated (R418). -/
def publishLink (s : State) (d : Nat) : State :=
  if !domLive s d pdLink then s else each (linkPort s d).fwd (fun e t => publish t d (0x1000 + e.1) e.2.val e.2.valid) s

/-! ### Time -/

/-- The time state set; a port's rate-follow loop follows (R289). -/
def setTime (s : State) (st gmid hops up : Nat) : State :=
  let a := Reg.LINK_GMSTAT 0
  steerSync (setFld (setFld (setFld (setFld s a F.LINK_GMSTAT_TSTATE st) a F.LINK_GMSTAT_GMID gmid)
    a F.LINK_GMSTAT_HOPS hops) a F.LINK_GMSTAT_UPDIE up)

/-- The grandmasters that partners announce (R334): priority, ID, hops, die. -/
def candidates (s : State) : List (Nat × Nat × Nat × Nat) :=
  (dies s).filterMap fun d =>
    match (linkPort s d).gm with
    | some (p, id, h, true) => if linkUp s d && p ≠ 0 && decide (h < 63) then some (p, id, h, d) else none
    | _ => none

/-- Whether the first grandmaster is better: the higher PRIO, then the lower ID. -/
def betterGm (p id q jd : Nat) : Bool := decide (q < p) || (p = q && decide (id < jd))

/-- The best announcement: the best grandmaster, then the fewest hops, then the lowest die. -/
def bestGm (xs : List (Nat × Nat × Nat × Nat)) : Option (Nat × Nat × Nat × Nat) :=
  xs.foldl (fun b x => match b with
    | none => some x
    | some y =>
      if betterGm x.1 x.2.1 y.1 y.2.1 || (x.1 = y.1 && x.2.1 = y.2.1 && decide (x.2.2.1 < y.2.2.1)) then some x else b) none

/-- The re-election of R334: the device's own candidacy against what partners announce. MERGE lasts until the Pulse stops
(R338). -/
def elect (s : State) : State :=
  let own := fld s (Reg.LINK_GM 0) F.LINK_GM_PRIO
  let st := timeState s
  let self (t : State) : State := if st = tGm then t else setTime t tGm (linkId t) 0 0
  if st = tMerge && pulseRuns s then s
  else if !(dies s).any fun d => linkUp s d then (if st = tFree then s else setTime s tFree 0 0 0)
  else match bestGm (candidates s) with
    | some (p, id, h, d) =>
      if own ≠ 0 && !betterGm p id own (linkId s) then self s
      else
        let keep := (st = tAcq || st = tLock)
          && fld s (Reg.LINK_GMSTAT 0) F.LINK_GMSTAT_GMID = id && upDie s = d
        if keep then setFld s (Reg.LINK_GMSTAT 0) F.LINK_GMSTAT_HOPS (h + 1)
        else setTime { s with linkDev := { s.linkDev with calm := 0 } } tAcq id (h + 1) d
    | none =>
      if own ≠ 0 then self s
      else if st = tFree || st = tHold then s
      else setTime s tHold 0 0 0

/-- The upstream lost (R337, R341): HOLD until the next election; MERGE lasts until the Pulse stops (R338). -/
def lossOfTime (s : State) (d : Nat) : State :=
  if follows s && upDie s = d && !(timeState s = tMerge && pulseRuns s) then setTime { s with linkDev := { s.linkDev with calm := 0 } } tHold 0 0 0 else s

/-- Whether a grandmaster's count, taken from a frame, differs from the device's own while the Pulse runs (R337). -/
def countDiffers (s : State) (count : Nat) : Bool :=
  pulseRuns s && !(decide (count ≤ pulseCount s + 1) && decide (pulseCount s ≤ count + hopTerm s))

/-- The time code of an upstream frame (R335, R337, R338), with the measured error in 0.1 ns: LOCK falls back to ACQ,
MERGE where the Pulse runs apart, and a stopped Pulse keeps the count of the grandmaster's next Pulse: that after COUNT, and
after the Pulses that have come while the frame travelled. A COUNT that stands, as `stood` says, is that of an upstream device
whose Pulse is stopped (assumption log 114). -/
def upstreamTime (s : State) (f : Frame) (err : Int) (stood : Bool) : State :=
  let apart := pulseRuns s && (countDiffers s f.count || decide (10000 < err.natAbs))
  let near := decide (err.natAbs ≤ 50)
  let calm := if near && !apart then s.linkDev.calm + 1 else 0
  let t : State := { s with linkDev := { s.linkDev with err := err, calm := calm } }
  let st := timeState t
  let go (n : Nat) : State := setFld t (Reg.LINK_GMSTAT 0) F.LINK_GMSTAT_TSTATE n
  if apart then (if st = tMerge then t else go tMerge)
  else
    let t := if st = tMerge then (if pulseRuns t then t else go tAcq) else if st = tLock && !near then go tAcq else t
    if pulseRuns t then t
    else
      let a := (f.offset / 10 + fld t (Reg.LINK_DELAY (upDie t)) F.LINK_DELAY_DELAY) / max 1 (tickTenths t)
      let n := (f.count + 1 + if stood then 0 else a) % 2 ^ 64
      setReg (setReg t (Reg.PULSE_COUNT_LO 0) (BitVec.ofNat 32 n)) (Reg.PULSE_COUNT_HI 0) (BitVec.ofNat 32 (n / 2 ^ 32))

/-- The error captured at each Pulse (R335). -/
def timeCapture (s : State) : State :=
  setReg s (Reg.LINK_TERR 0) (BitVec.ofInt 32 (if follows s then s.linkDev.err else 0))

/-- LINK_TIME_LOCK (R337): 1,024 frames in a row with an error of at most 5 ns. -/
def execLinkTimeLock (s : State) : Out :=
  whenDue s (timeState s = tAcq && decide (1024 ≤ s.linkDev.calm))
    (steerSync (setFld s (Reg.LINK_GMSTAT 0) F.LINK_GMSTAT_TSTATE tLock))

/-- Whether a frame number can still come due (R315): from the next Pulse on. -/
def frameFits (s : State) (num : Nat) : Bool :=
  let c := if pulseRuns s then pulseCount s else pulseCount s - 1
  (List.range (hopTerm s + 2)).any fun i => (c + 1) % 2 ^ 32 = (num + i) % 2 ^ 32

/-- A frame noted by its number, unless one was. -/
def noteFrame (s : State) (d num : Nat) (v : Option (List (Nat × Line))) : State :=
  let x := linkPort s d
  let fs := x.frames.filter fun e => frameFits s e.1
  if (alGet num fs).isSome then s else setLinkPort s d { x with frames := alPut num v fs }

/-- A frame that arrives while the Pulse runs, noted by its number for the Pulse at which it comes due; one of a number that
cannot come due, or was noted, changes nothing. `v` is its slots, none if it failed (R317). -/
def takeRunning (s : State) (d num : Nat) (v : Option (List (Nat × Line))) : State :=
  if !frameFits s num || (alGet num (linkPort s d).frames).isSome then s
  else noteFrame (if v.isNone then countFail s d else s) d num v

/-- A frame that arrives while the Pulse is stopped (R333): it is judged at once, and counts toward the eight of R341. The slots of
one that comes due after a start are kept for it (R315). -/
def takeStopped (s : State) (d num : Nat) (v : Option (List (Nat × Line))) : State :=
  if v.isSome then
    let t := if frameFits s num then noteFrame s d num v else s
    setLinkPort t d { linkPort t d with frameOk := true, fails := 0 }
  else
    let t := countFail s d
    setLinkPort t d { linkPort t d with frameOk := false, fails := (linkPort t d).fails + 1 }

/-- What a frame's FS and TC blocks say (R323, R334): the partner's CREDIT and the grandmaster that it announces. -/
def takeHead (s : State) (d : Nat) (f : Frame) : State :=
  setLinkPort s d { linkPort s d with credit := min 512 f.credit, gm := some (f.gmprio, f.gmid, f.hops, f.sync), seenCount := some f.count }

/-- A frame received on an UP port (R312–R317, R323, R334–R338). It fails where its FS or TC block is missing or invalid, its
LCRC does not match or its RATE differs; one without an FS number fails while the Pulse runs at the Pulse at which it is due.
`err` is the time error measured, in 0.1 ns. -/
def takeFrame (s : State) (d : Nat) (bs : List LinkBlock) (err : Int) : State :=
  match readHead bs with
  | none => if pulseRuns s then s else takeStopped s d 0 none
  | some f =>
    let stood := (linkPort s d).seenCount = some f.count
    let t := takeHead s d f
    let v := if f.rate = rateCode t then readLines bs (slotsLimit f.rate f.slots) else none
    let t := elect (if pulseRuns t then takeRunning t d f.num v else takeStopped t d f.num v)
    if follows t && upDie t = d then upstreamTime t f err stood else t

/-- Whether the lanes of a port hand over blocks (R331): from BLOCKLOCK on. -/
def seesBlocks (s : State) (d : Nat) : Bool :=
  domLive s d pdLink && !padHeld s d pdLink && decide (3 ≤ fld s (Reg.LINK_STAT d) F.LINK_STAT_STATE)

/-- LINK_FRAME_RX (R310–R317, R323, R333–R338): the blocks of a frame up to its packet section arrive, in order, and
beside them blocks of the spare lane. -/
def execLinkFrameRx (d : Nat) (bs sp : List LinkBlock) (err : Int) (s : State) : Out :=
  onUnit (d < dieCount s.part) <|
    whenDue s (seesBlocks s d) <|
      let t := checkSpare (countBlocks s d 0 bs) d (sp.zip (List.range sp.length))
      if linkUp t d then takeFrame t d bs err else t

/-- LINK_FRAME_FAIL (R317): frame `num` is missing or its line section late; `bs` are the blocks of it that came. -/
def execLinkFrameFail (d num : Nat) (bs : List LinkBlock) (s : State) : Out :=
  onUnit (d < dieCount s.part) <|
    whenDue s (seesBlocks s d) <|
      let t := countBlocks s d 0 bs
      if !linkUp t d then t else if pulseRuns t then takeRunning t d num none else takeStopped t d num none

/-- The slots of a port at a start of the Pulse (R315, R317): none of this run has come due yet, and what stood before is held and
invalid (DESIGN CHOICE, assumption log 129); frames are expected from the first count on. -/
def startLink (s : State) (d : Nat) : State :=
  let x := linkPort s d
  setLinkPort s d { x with fwd := holdSlots s d 0 x.fwd, frameOk := false, upAt := pulseCount s }

/-! ### The wake pattern -/

/-- The wake word (R343), most significant bit first. -/
def wakeWord : List Bool := (List.range 32).map fun i => (0xD5A7_1E55 : BitVec 32).getLsbD (31 - i)

/-- `n` bits of idle pattern (R343): 1 and 0 alternating. -/
def idlePattern (n : Nat) : List Bool := (List.range n).map fun i => i % 2 = 0

/-- What transmit lane 0 sends for WAKETX (R344), at 10 Mb/s: 80 us of idle pattern and then the wake word three times, 89.6 us. -/
def wakeBits : List Bool := idlePattern 800 ++ wakeWord ++ wakeWord ++ wakeWord

/-- Whether a line ends in the wake pattern (R343), newest bit first: the wake word three times, at once after 64 us of idle pattern;
any other bit among them restarts the detection. -/
def wakeEnds (line : List (Option Bool)) : Bool :=
  let word := wakeWord.map some
  let idle := (line.drop 96).take 640
  decide ((line.take 96).reverse = word ++ word ++ word)
    && (decide (idle = (idlePattern 640).map some) || decide (idle = (idlePattern 640).map fun b => some !b))

/-- Whether a line shows activity (R343), newest first: a differential swing of 80 mV for 1 us in total within the latest 10 us. -/
def lineActive (line : List (Option Bool)) : Bool := 10 ≤ ((line.take 100).filter (·.isSome)).length

/-- Whether the Keep domain is powered. -/
def kept (s : State) : Bool := s.keep.seq ≠ .noKeep

/-- Whether the link wake detector is set to detect something (R343, R426). -/
def detectorOn (s : State) : Bool :=
  let md := fld s (Reg.WAKE_CTL 0) F.WAKE_CTL_LMODE
  bitF s (Reg.WAKE_CTL 0) F.WAKE_CTL_LINKEN && (md = 1 || md = 2)

/-- Whether what the detector has heard is what its mode asks for (R343). -/
def detects (s : State) : Bool :=
  match fld s (Reg.WAKE_CTL 0) F.WAKE_CTL_LMODE with
  | 1 => lineActive s.linkDev.heard
  | 2 => wakeEnds s.linkDev.heard
  | _ => false

/-- What lane 0 of die 0 carries while its PD_LINK is not ON, heard by the detector in the Keep domain, in HUSK and in every other
reset too (R343, R426). The row that reports training carries it (DEDUCED, assumption log 130). -/
def hearLane (s : State) (d : Nat) (line : List (Option Bool)) : State :=
  if d = 0 && kept s && detectorOn s && !(running s && domOn s 0 pdLink) then
    { s with linkDev := { s.linkDev with heard := (line.reverse ++ s.linkDev.heard).take 736 } }
  else s

/-! ### Training and loss -/

/-- STATE of a port (R331). -/
def portState (s : State) (d : Nat) : Nat := fld s (Reg.LINK_STAT d) F.LINK_STAT_STATE

/-- A port leaves UP (R341): queued packets are discarded and counted, what it received is gone, the upstream is lost. -/
def portDown (s : State) (d : Nat) : State :=
  if portState s d ≠ 7 then s
  else
    let x := linkPort s d
    let n := x.queue.length + x.heldPk.length
    let a := Reg.LINK_PERR d
    let t := setFld s a F.LINK_PERR_DROP (fld s a F.LINK_PERR_DROP + n)
    let t := setFld t (Reg.LINK_STAT d) F.LINK_STAT_DOWN 1
    let t := setLinkPort t d { x with
      queue := [], sent := [], out := none, credit := 0, frames := [], fwd := holdSlots s d x.fails x.fwd, frameOk := false
      heldPk := [], gm := none
      spare := none, spareAgain := none, txSpare := none, frameNo := 0, ctl := [], sentCtl := [], rx := [], lerr := [], trainBad := false
      spareBad := false, seenCount := none }
    lossOfTime t d

/-- Training from a state on: the lanes take their places at reset (R309, R340). With no port UP the device is FREE (R337), and
rate-follow steering follows (R289). -/
def trainFrom (s : State) (d st : Nat) : State :=
  let t := portDown s d
  let a := Reg.LINK_LANE d
  let t := setReg t a (BitVec.ofNat 32 (fld t a F.LINK_LANE_THR * 2 ^ 16 + 0x2424))
  let t := setFld t (Reg.LINK_STAT d) F.LINK_STAT_STATE st
  let t := setLinkPort t d { linkPort t d with failed := false, waketx := [] }
  steerSync (if (dies t).any fun e => linkUp t e then t else elect t)

/-- A write to LINK_CTL (R331, R344). -/
def linkCtlWrite (s : State) (d : Nat) (v : Word) : State :=
  let a := Reg.LINK_CTL d
  let was := bitF s a F.LINK_CTL_EN
  let en := wGet v F.LINK_CTL_EN = 1
  let t := setFld s a F.LINK_CTL_EN (wGet v F.LINK_CTL_EN)
  let t := if en && (!was || wGet v F.LINK_CTL_RETRAIN = 1) then trainFrom t d 1
    else if !en && was then trainFrom t d 0 else t
  let t :=
    if wGet v F.LINK_CTL_WAKETX = 0 then t
    else if portState s d = 7 then setFld t (Reg.LINK_STAT d) F.LINK_STAT_CFGREJ 1
    else setLinkPort t d { linkPort t d with waketx := wakeBits }
  powerSync t d

/-- A training failure (R331): LCODE, and training restarts 10 ms later. -/
def trainFail (s : State) (d code : Nat) : State :=
  setLinkPort (setFld s (Reg.LINK_STAT d) F.LINK_STAT_LCODE code) d { linkPort s d with failed := true }

/-- The next training state; a wake pattern sent before is over (R344). -/
def trainTo (s : State) (d st : Nat) : State :=
  setFld (setLinkPort s d { linkPort s d with waketx := [] }) (Reg.LINK_STAT d) F.LINK_STAT_STATE st

/-- The hop delay of a measurement, in 0.1 ns (R332): half of the round trip less the partner's turnaround, both in units of
10 ps, with the adjustment; a part of 0.1 ns is dropped (DEDUCED, assumption log 17). -/
def hopDelay (s : State) (d trip turn : Nat) : Nat :=
  (((trip - turn) / 20 : Nat) + toSigned (fld s (Reg.LINK_DLYADJ d) F.LINK_DLYADJ_ADJ) 16 : Int).toNat

/-- A receive lane that becomes the spare (R331). -/
def spareLane (s : State) (d lane : Nat) : State :=
  let a := Reg.LINK_LANE d
  let rest := (List.range 3).filter fun n => n ≠ lane
  setFld (setFld (setFld s a F.LINK_LANE_RXSP lane) a F.LINK_LANE_RXL0 (rest.getD 0 0)) a F.LINK_LANE_RXL1 (rest.getD 1 1)

/-- Whether headers end in 64 valid ones in a row (R331). -/
def lockedLane (hs : List Nat) : Bool := decide (64 ≤ hs.length) && (hs.reverse.take 64).all fun h => !headerBad h

/-- LINK_TRAIN_STEP (R310, R331, R332): the condition of the training state is met, which held pads hide (R420), or fails (`ok`
false). `c.heads` are the block headers received on each physical lane (`headerOdd` for a control block of unknown type), which
decide in BLOCKLOCK, `c.rate` is the partner's RATE in EXCH, and `c.line` what lane 0 carries for the wake detector, which hears it
whatever the port does (R343). `a` is the lane that did not lock (3 none) in BITLOCK, the partner's ID in EXCH, and the round trip
in DELAY; `b` is the partner's die in EXCH and its turnaround time in DELAY. -/
def execLinkTrainStep (d : Nat) (ok : Bool) (a b : Nat) (c : TrainSeen) (s : State) : Out :=
  onUnit (d < dieCount s.part) <|
    let s := hearLane s d c.line
    if padHeld s d pdLink && (ok || portState s d = 3) then .next s
    else
    let bad := (List.range 3).map fun n => ((c.heads.getD n []).filter headerBad).length
    let s := if domLive s d pdLink && decide (3 ≤ portState s d) && bad.any (fun n => n ≠ 0) then countHeaders s d bad else s
    if !domLive s d pdLink || (linkPort s d).failed then .next s
    else match portState s d with
      | 1 => .next (if ok then trainTo s d 2 else setFld s (Reg.LINK_STAT d) F.LINK_STAT_LCODE 1)
      | 2 => .next (if ok then trainTo (if a < 3 then spareLane s d a else s) d 3 else trainFail s d 2)
      | 3 => whenDue s (decide (2 ≤ (((List.range 3).map fun n => c.heads.getD n []).filter lockedLane).length)) (trainTo s d 4)
      | 4 => .next (if ok then trainTo s d 5 else trainFail s d 3)
      | 5 =>
        let p := Reg.LINK_PARTNER d
        let t := setFld (setFld s p F.LINK_PARTNER_DEVID a) p F.LINK_PARTNER_DIE b
        whenDue s ok (if c.rate ≠ fld s (Reg.PULSE_CFG 0) F.PULSE_CFG_RATE then trainFail t d 4
          else if a = linkId s then trainFail t d 6
          else trainTo (sendCtl t d .delay) d 6)
      | 6 =>
        let n := hopDelay s d a b
        let t := setFld s (Reg.LINK_DELAY d) F.LINK_DELAY_DELAY (min n (2 ^ 24 - 1))
        whenDue s ok (if 500000 < n then trainFail t d 5
          else
            let st := Reg.LINK_STAT d
            let t := setFld (setFld (trainTo t d 7) st F.LINK_STAT_UPEVT 1) st F.LINK_STAT_LCODE 0
            steerSync (elect (setLinkPort t d { linkPort t d with
              fails := 0, frameNo := 0, upAt := nextPulse t, sentCtl := [] })))
      | _ => .next s

/-- LINK_TRAIN_RESTART (R331): 10 ms after a failure. -/
def execLinkTrainRestart (d : Nat) (s : State) : Out :=
  onUnit (d < dieCount s.part) <|
    whenDue s ((linkPort s d).failed && domLive s d pdLink && bitF s (Reg.LINK_CTL d) F.LINK_CTL_EN) (trainFrom s d 1)

/-- LINK_LOSS (R341): a lane lost (0), bad headers (1), or eight failed frames in a row (2). -/
def execLinkLoss (d cause : Nat) (s : State) : Out :=
  onUnit (d < dieCount s.part) <|
    whenDue s (linkUp s d && (cause < 2 || (cause = 2 && decide (8 ≤ (linkPort s d).fails)))) (trainFrom s d 1)

/-! ### Delay and lane sparing -/

/-- LINK_DELAY_MEASURE (R332): every 4,096 frames the delay moves towards the measurement by at most 0.1 ns. `raw` is the
round trip and the partner's turnaround time. -/
def execLinkDelayMeasure (d : Nat) (raw : Nat × Nat) (s : State) : Out :=
  onUnit (d < dieCount s.part) <|
    let x := linkPort s d
    let n := hopDelay s d raw.1 raw.2
    let old := fld s (Reg.LINK_DELAY d) F.LINK_DELAY_DELAY
    let new := if old < n then old + 1 else if n < old then old - 1 else old
    whenDue s (linkUp s d && decide (4096 ≤ x.frameNo))
      (setLinkPort (setFld s (Reg.LINK_DELAY d) F.LINK_DELAY_DELAY new) d { x with frameNo := x.frameNo % 4096 })

/-- LINK_DELAY_ECHO (R332): a partner's DELAY block is echoed with its turnaround time in units of 10 ps. -/
def execLinkDelayEcho (d turn : Nat) (s : State) : Out :=
  onUnit (d < dieCount s.part) <|
    whenDue s (domLive s d pdLink && (portState s d = 6 || portState s d = 7))
      (sendCtl (setLinkPort s d { linkPort s d with echo := some turn }) d (.echo turn))

/-- The low word of the current frame's number. -/
def currentFrame (s : State) : Nat := (pulseCount s + 2 ^ 32 - 1) % 2 ^ 32

/-- Whether a frame number has been reached. -/
def frameReached (s : State) (f : Nat) : Bool := decide ((currentFrame s + 2 ^ 32 - f % 2 ^ 32) % 2 ^ 32 < 2 ^ 31)

/-- The blocks of a window's end counted and checked. -/
def windowEnd (s : State) (d lane : Nat) (hs : List Nat) (ts : List (LinkBlock × Nat)) : State :=
  let t := if fld s (Reg.LINK_LANE d) F.LINK_LANE_RXSP = lane then checkSpare s d ts else s
  let n := (hs.filter headerBad).length
  if n = 0 then t else countHeaders t d ((List.range 3).map fun l => if l = lane then n else 0)

/-- LINK_SPARE_REQUEST (R339, R340): a window of 2^24 blocks of physical lane `lane` ends. An active lane whose invalid headers
exceed THR is replaced by a spare lane that had no error in its last window, by a request that names frame Fs; with no spare left
NOSPARE is set. A request that lapsed is repeated at the end of the lane's next window, whatever that counted, once the spare had no
error (DESIGN CHOICE, assumption log 144: R339 does not say what the repetition takes from the conditions). The spare lane's own
window says whether it had an error. `hs` are the headers of the lane's blocks in the window (`headerOdd` for a control block of
unknown type), and `ts` blocks of the spare lane with their places, that no other command brought. -/
def execLinkSpareRequest (d lane : Nat) (hs : List Nat) (ts : List (LinkBlock × Nat)) (s : State) : Out :=
  onUnit (d < dieCount s.part) <|
    let a := Reg.LINK_LANE d
    let s := if linkUp s d then windowEnd s d lane hs ts else s
    let x := linkPort s d
    let n := x.lerr.getD lane 0
    let y := { x with lerr := (List.range 3).map fun l => if l = lane then 0 else x.lerr.getD l 0 }
    let t := setLinkPort s d y
    let f := (currentFrame s + 8) % 2 ^ 32
    let bad := decide (fld s a F.LINK_LANE_THR < n)
    whenDue s (linkUp s d) <|
      if fld s a F.LINK_LANE_RXSP = lane then
        setLinkPort s d { y with spareBad := x.trainBad || decide (n ≠ 0), trainBad := false }
      else if !(fld s a F.LINK_LANE_RXL0 = lane || fld s a F.LINK_LANE_RXL1 = lane) || (!bad && x.spareAgain ≠ some lane) then t
      else if fld s a F.LINK_LANE_RXSP = 3 then (if bad then setFld t (Reg.LINK_STAT d) F.LINK_STAT_NOSPARE 1 else t)
      else if x.spareBad || x.spare.isSome then t
      else sendCtl (setLinkPort s d { y with spare := some (lane, f, false), spareAgain := none }) d (.request lane f)

/-- LINK_SPARE_BLOCK (R339): a partner's request for transmit lane `lane` and frame `f`, which is acknowledged and from which
on the spare carries that lane's blocks too, or its acknowledgement. -/
def execLinkSpareBlock (d : Nat) (ack : Bool) (lane f : Nat) (s : State) : Out :=
  onUnit (d < dieCount s.part) <|
    let a := Reg.LINK_LANE d
    let x := linkPort s d
    if ack then
      match x.spare with
      | some (l, g, false) => whenDue s (linkUp s d && l = lane && g = f) (setLinkPort s d { x with spare := some (l, g, true) })
      | _ => .next s
    else
      whenDue s (linkUp s d && fld s a F.LINK_LANE_TXSP ≠ 3 && x.txSpare.isNone
          && (fld s a F.LINK_LANE_TXL0 = lane || fld s a F.LINK_LANE_TXL1 = lane))
        (sendCtl (setLinkPort s d { x with txSpare := some (lane, f % 2 ^ 32) }) d (.accept lane (f % 2 ^ 32)))

/-- A lane of a map replaced by the spare (R339, R340). -/
def replaceLane (s : State) (d lane : Nat) (l0 l1 sp : Fld) : State :=
  let a := Reg.LINK_LANE d
  let to_ := fld s a sp
  let t := if fld s a l0 = lane then setFld s a l0 to_ else setFld s a l1 to_
  setFld (setFld t a sp 3) (Reg.LINK_STAT d) F.LINK_STAT_SPARED 1

/-- LINK_SPARE_SWITCH (R339): at frame Fs both ends use the spare; a request without acknowledgement lapses at Fs − 2, to be repeated after
one window. -/
def execLinkSpareSwitch (d : Nat) (tx : Bool) (s : State) : Out :=
  onUnit (d < dieCount s.part) <|
    let x := linkPort s d
    if tx then
      match x.txSpare with
      | some (lane, f) =>
        whenDue s (frameReached s f) (replaceLane (setLinkPort s d { x with txSpare := none }) d lane
          F.LINK_LANE_TXL0 F.LINK_LANE_TXL1 F.LINK_LANE_TXSP)
      | none => .next s
    else
      match x.spare with
      | some (lane, f, true) =>
        whenDue s (frameReached s f) (replaceLane (setLinkPort s d { x with spare := none }) d lane
          F.LINK_LANE_RXL0 F.LINK_LANE_RXL1 F.LINK_LANE_RXSP)
      | some (lane, f, false) =>
        whenDue s (frameReached s (f + 2 ^ 32 - 2)) (setLinkPort s d { x with spare := none, spareAgain := some lane })
      | none => .next s

/-! ### Table and route changes -/

/-- A write to LINK_TSWAP (R318, R488). -/
def exportSwapGo (s : State) (d : Nat) (v : Word) : State :=
  if v.getLsbD 0 then
    setLinkPort s d { linkPort s d with change := some ((reg s (Reg.LINK_TPULSE d)).toNat, false) }
  else s

/-- LINK_EXPORT_SWITCH (R318): the target Pulse of an export table change has come. -/
def execLinkExportSwitch (d : Nat) (s : State) : Out :=
  onUnit (d < dieCount s.part) <|
    let x := linkPort s d
    whenDue s (isMet x.change)
      (setFld (setLinkPort s d { x with change := none }) (Reg.LINK_STAT d) F.LINK_STAT_ACTIVE (1 - exportActive s d))

/-- A write to LINK_RTSWAP (R324, R488). -/
def routeSwapGo (s : State) (v : Word) : State :=
  if v.getLsbD 0 then
    { s with linkDev := { s.linkDev with change := some ((reg s (Reg.LINK_RTTPULSE 0)).toNat, false) } }
  else s

/-- The entries in which the two copies of the route tables differ (R324). -/
def routesMoved (s : State) : List Nat :=
  ((tabRange s tRoute 0 0 1024).map fun e => e.1 % 512).eraseDups.filter fun k =>
    tab s tRoute 0 k ≠ tab s tRoute 0 (512 + k)

/-- LINK_ROUTE_SWITCH (R324): the route tables switch, and the routes that changed hold for RTHOLD ticks; one that an earlier switch
changed goes on holding. -/
def execLinkRouteSwitch (s : State) : Out :=
  whenDue s (isMet s.linkDev.change)
    (let t := setFld s (Reg.LINK_RTCFG 0) F.LINK_RTCFG_ACTIVE (1 - routeCopy s)
     let n := fld s (Reg.LINK_RTCFG 0) F.LINK_RTCFG_RTHOLD
     let new := routesMoved s
     let old := s.linkDev.moved.filter fun e => !new.contains e.1
     { t with linkDev := { t.linkDev with
        change := none
        moved := old ++ new.map fun k => (k, max n ((alGet k s.linkDev.moved).getD 0)) } })

/-- A tick of the holds after route changes (R324). -/
def holdTick (s : State) : State :=
  let t := each (dies s) (fun d u =>
    setLinkPort u d { linkPort u d with heldPk := (linkPort u d).heldPk.map fun e => (e.1, e.2 - 1) }) s
  { t with linkDev := { t.linkDev with
      moved := (t.linkDev.moved.map fun e => (e.1, e.2 - 1)).filter fun e => e.2 ≠ 0 } }

/-- Whether a held packet may leave (R324): its ticks have passed, or the Pulse is stopped and none pass (DESIGN CHOICE, assumption
log 128). -/
def mayLeave (s : State) (e : Packet × Nat) : Bool := e.2 = 0 || !pulseRuns s

/-- LINK_RTHOLD_END (R324): the packets that have waited for a route change as long as it asks are sent. -/
def execLinkRtholdEnd (s : State) : Out :=
  whenDue s ((dies s).any fun d => (linkPort s d).heldPk.any (mayLeave s))
    (each (dies s) (fun d t =>
      let x := linkPort t d
      (x.heldPk.filter (mayLeave s)).foldl (fun u e => portSend u d e.1 false)
        (setLinkPort t d { x with heldPk := x.heldPk.filter fun e => !mayLeave s e })) s)

/-- An entry of the export tables written (R314): the active table of an UP port ignores it. The second part says whether it
was taken. -/
def exportWrite (s : State) (d : Nat) (v : Word) : State × Bool :=
  let a := Reg.LINK_TSEL d
  if linkUp s d && fld s a F.LINK_TSEL_TABLE = exportActive s d then (s, false)
  else (setTab s tLexp d (fld s a F.LINK_TSEL_TABLE * 4096 + fld s a F.LINK_TSEL_ENTRY) (v &&& 0xC000_7FFF), true)

/-- An entry of the route tables written (R320): the active copy ignores it. -/
def routeWrite (s : State) (v : Word) : State × Bool :=
  let a := Reg.LINK_RTSEL 0
  if fld s a F.LINK_RTSEL_TABLE = routeCopy s then (s, false)
  else (setTab s tRoute 0 ((fld s a F.LINK_RTSEL_TABLE * 2 + fld s a F.LINK_RTSEL_KIND) * 256 + fld s a F.LINK_RTSEL_INDEX)
    (v &&& 0x8000_0007), true)

/-- A write to LINK_ID (R327): only while every port has EN 0. -/
def linkIdWrite (s : State) (v : Word) : State :=
  if (dies s).any fun d => bitF s (Reg.LINK_CTL d) F.LINK_CTL_EN then
    setFld s (Reg.LINK_STAT 0) F.LINK_STAT_CFGREJ 1
  else setFld s (Reg.LINK_ID 0) F.LINK_ID_ID (wGet v F.LINK_ID_ID)

/-- LINK_STAT and LINK_RTCFG with PEND. -/
def linkStat (s : State) (d : Nat) : Word :=
  wSet (reg s (Reg.LINK_STAT d)) F.LINK_STAT_PEND (linkPort s d).change.isSome.toNat
def routeCfg (s : State) : Word := wSet (reg s (Reg.LINK_RTCFG 0)) F.LINK_RTCFG_PEND s.linkDev.change.isSome.toNat

end Sys2Proof.Machine
end

