-- ==== Sys2Proof/Machine/SapPins.lean ====
section
/-! DEFINITION. What the pins of a serial audio port carry (R243, R244, R246, R248, R254, R265, R266, R279), as the state of
the port gives it. -/
namespace Sys2Proof.Machine

/-- Whether a master port drives its clock (R248): ARMED, STARTING or RUNNING, and while it ramps down. -/
def clockOn (s : State) (d m : Nat) : Bool := isMaster s d m && sapArmed ≤ sapState s d m

/-- Whether a port's frames go on (R248, R265): from frame 0 to the stop. -/
def framesOn (s : State) (d m : Nat) : Bool := sapRunning ≤ sapState s d m

/-- Whether FSYNC is active in bit clock `k` of a frame (R244). -/
def fsyncActive (s : State) (d m k : Nat) : Bool :=
  let w := sapWidth s d m
  if sapMode s d m = 3 && sapCfg s d m F.SAP_CFG_FSW = 0 then k = 0 else k < w

/-- The level of FSYNC (R244): active low in I2S and high in the other formats, inverted by FSINV. -/
def fsyncLevel (s : State) (d m k : Nat) : Bool :=
  let high := (sapMode s d m ≠ 1) != (sapCfg s d m F.SAP_CFG_FSINV = 1)
  (framesOn s d m && fsyncActive s d m k) == high

/-- Whether the port's outputs change on the falling edge of BCLK, and its inputs are sampled on the rising one (R244). -/
def outputsFall (s : State) (d m : Nat) : Bool := sapCfg s d m F.SAP_CFG_BCLKINV = 0

/-- SD1 where nothing is sent (R254, R265, R279, R283). -/
def idleLevel (s : State) (d m : Nat) : Pin := if sapCfg s d m F.SAP_CFG_TXHIZ = 1 then .highZ else .level false

/-- SD1 of a PCM format in bit clock `k` of the frame in progress (R244, R245, R254): the bits of each enabled slot, the
most significant first; the last bit of a delayed frame falls into the next one. -/
def pcmOut (s : State) (d m k : Nat) : Pin :=
  let x := sap s d m
  let w := sapWidth s d m
  let dly := slotDelay s d m
  let bit (out : List (Nat × Word)) (slot i : Nat) : Pin :=
    match alGet slot out with
    | some v => .level (v.getLsbD (31 - i))
    | none => idleLevel s d m
  if !framesOn s d m || (x.lost && isSlave s d m) || x.relockTx then idleLevel s d m
  else if k < dly then bit x.outPrev (sapSlots s d m - 1) (w - dly + k)
  else bit x.out ((k - dly) / w) ((k - dly) % w)

/-- SD1 of a biphase port in time slot `k` of the frame in progress (R267, R268, R279): two subframes of 32 time slots. -/
def biphaseOut (s : State) (d m k : Nat) : Pin :=
  let x := sap s d m
  if !framesOn s d m || (x.lost && isSlave s d m && !inFallback s d m) || x.relockTx then .level false
  else if k % 32 < 4 then .preamble (k < 32) (k < 32 && x.bip.pos = 0)
  else .cell ((txSubframe s d m (k / 32)).getLsbD (k % 32 - 4))

/-- What a port does with a signal in bit clock (or time slot) `k` of the frame in progress, while its pads are its own: the port
signal table. A MODE
that is reserved on the port leaves its pins as in Off (assumption log 90). -/
def sapLive (s : State) (d m k : Nat) (sig : SapSignal) : Pin :=
  match sapMode s d m with
  | 1 | 2 | 3 =>
    match sig with
    | .bclk => if !isMaster s d m then .input
               else if clockOn s d m then .clock (sapMclk s d m) (sapDiv s d m) else .level false
    | .fsync => if isMaster s d m then .level (fsyncLevel s d m k) else .input
    | .sd 0 => .input
    | .sd 1 => pcmOut s d m k
    | .sd _ => .ignored
  | 4 =>
    match sig with
    | .bclk => if clockOn s d m then .clock (sapMclk s d m) (sapDiv s d m) else .level false
    | .fsync => .ignored
    | .sd _ => .input
  | mode =>
    match sig with
    | .sd 0 => if mode = 5 && m < 4 then .input else .ignored
    | .sd 1 => if mode = 5 && m < 4 then biphaseOut s d m k else .highZ
    | _ => .ignored

end Sys2Proof.Machine
end

