-- ==== Sys2Proof/Machine/Measure.lean ====
section
/-! DEFINITION. Meters (R291–R295), silence detectors (R297), look-ahead (R299, R300) and the sequence generator
(R306–R308). -/
namespace Sys2Proof.Machine

/-! ### Meters -/

/-- The meters of die `d` that differ from their reset state. -/
def meterList (s : State) (d : Nat) : List Nat := (s.meters.filter fun e => e.1 / 512 = d).map fun e => e.1 % 512

/-- LEN of a setting: 1–8,192 ticks. -/
def meterLen (w : Word) : Nat := min 8192 (wGet w F.METER_CFG_LEN + 1)

/-- The magnitude of a sample (R291). -/
def magOf (x : Word) : Nat := x.toInt.natAbs

/-- The 4× oversampling filter of ITU-R BS.1770-4, Annex 2, in units of 2^-13: phases 0 and 1, of which phases 3 and 2 are the mirror
images (PRESUMED: the standard's table, which the spec names; assumption log 113). -/
def peakPhase (p : Nat) : List Int :=
  let outer : List Int := [14, 90, -161, 272, -487, 1125, 7964, -838, 390, -218, 122, -68]
  let inner : List Int := [-239, 240, -424, 730, -1364, 3810, 6388, -1641, 832, -477, 271, -155]
  match p with
  | 0 => outer
  | 1 => inner
  | 2 => inner.reverse
  | _ => outer.reverse

/-- The magnitude of interpolated sample `p` (1 to 3) between the samples 7 and 6 ticks back, of a history with the newest
first (R292). -/
def interpolated (p : Nat) (hist : List Word) : Nat :=
  (((peakPhase p).zip (hist.drop 1)).foldl (fun (v : Int) e => v + e.1 * e.2.toInt) 0).natAbs / 2 ^ 13

/-- The true peak of the sample 6 ticks back and, unless it is the `first` of its block, of the three samples interpolated between
the one before and it (R292). -/
def truePeak (hist : List Word) (first : Bool) : Nat :=
  (magOf (hist.getD 6 0) :: if first then [] else [1, 2, 3].map fun p => interpolated p hist).foldl max 0

/-- The alarm of a capture (R293): 2 × LEVEL against PEAK or RMS; with LEVEL 0 none is made. -/
def meterAlarm (s : State) (d m : Nat) : State :=
  let a := Reg.METER_ALARM d m
  let lvl := fld s a F.METER_ALARM_LEVEL
  if lvl = 0 then s
  else
    let v := if bitF s a F.METER_ALARM_SRC then reg s (Reg.METER_RMS d m) else reg s (Reg.METER_PEAK d m)
    if 2 * lvl ≤ v.toNat then
      let r := Reg.SILENCE_ALARM d (m / 32)
      setReg (setFld s (Reg.METER_STAT d m) F.METER_STAT_ALARM 1) r (reg s r ||| BitVec.ofNat 32 (2 ^ (m % 32)))
    else setFld s (Reg.METER_STAT d m) F.METER_STAT_ALARM 0

/-- What a meter's line carries in the tick that a Pulse opens (R290, R295), as the previous Pulse captured it. -/
def meterPublish (d m : Nat) (s : State) : State :=
  let w := (meter s d m).cfg
  let v := match wGet w F.METER_CFG_OUTSEL with
    | 1 => some (reg s (Reg.METER_PEAK d m))
    | 2 => some (reg s (Reg.METER_RMS d m))
    | 3 => some (reg s (Reg.METER_TPEAK d m))
    | _ => none
  match v with
  | some x =>
    if m < 256 && w.getLsbD 31 && bitF s (Reg.METER_STAT d m) F.METER_STAT_VALID then
      publish s d (0x290 + m) (BitVec.ofNat 32 (min x.toNat 0x7FFF_FFFF)) true
    else s
  | none => s

/-- VALID cleared where a written setting takes effect at this Pulse (R294). -/
def meterTake (d m : Nat) (s : State) : State :=
  if (meter s d m).changed then setFld s (Reg.METER_STAT d m) F.METER_STAT_VALID 0 else s

/-- A meter at a Pulse (R291, R292, R294, R295), after the lines have become visible: a written setting takes effect, a block
that ends waits for its capture, mode 1 captures RMS, and the tick that opens is taken in. A block of any other number of ticks
than LEN, as a stop of the Pulse can leave, is discarded. -/
def meterPulse (d m : Nat) (s : State) : State :=
  let old := meter s d m
  let w := if old.changed then reg s (Reg.METER_CFG d m) else old.cfg
  let n := meterLen w
  let edge := pulseCount s % n = 0
  let x : Meter := if old.changed then { Meter.zero with cfg := w } else old
  if !w.getLsbD 31 then setMeter s d m x
  else
    let mode1 := wGet w F.METER_CFG_MODE = 1
    let t := if mode1 && !old.changed then
        (let u := setReg s (Reg.METER_RMS d m) (BitVec.ofNat 32 (isqrt x.ms))
         if bitF u (Reg.METER_ALARM d m) F.METER_ALARM_SRC then meterAlarm u d m else u)
      else s
    let y : Meter := if edge && !old.changed then
        { x with ended := some (x.peak, x.sum, x.inval, x.ticks = n, x.tpeak)
                 ticks := 0, peak := 0, sum := 0, inval := false, tpeak := 0 }
      else x
    let l := readLine t d (wGet w F.METER_CFG_LINE)
    let q := magOf l.val * magOf l.val
    let hist := (l.val :: y.hist).take 13
    let ms := ((y.ms : Int) + ((q : Int) - y.ms) / n).toNat
    setMeter t d m { y with
      ticks := y.ticks + 1, hist := hist, tpeak := max y.tpeak (truePeak hist (y.ticks = 0))
      peak := max y.peak (magOf l.val), sum := y.sum + q, inval := y.inval || !l.valid
      ms := if mode1 then ms else 0 }

/-- METER_BLOCK_END (R291–R293, R295): the readings of the block that ended at this Pulse are captured. -/
def execMeterBlockEnd (d m : Nat) (s : State) : Out :=
  onUnit (d < dieCount s.part && m < 512) <|
    let x := meter s d m
    match x.ended with
    | none => .next s
    | some (peak, sum, inval, whole, tpeak) =>
      let w := x.cfg
      let mode1 := wGet w F.METER_CFG_MODE = 1
      let st := Reg.METER_STAT d m
      let t := setMeter s d m { x with ended := none }
      let mark (u : State) : State :=
        setFld (setFld u st F.METER_STAT_VALID 1) st F.METER_STAT_TICK (pulseCount s)
      .next <|
        if !whole then (if mode1 then mark t else t)
        else
          let u := setReg (setReg t (Reg.METER_PEAK d m) (BitVec.ofNat 32 peak)) (Reg.METER_TPEAK d m)
            (BitVec.ofNat 32 (min tpeak (2 ^ 32 - 1)))
          let u := if mode1 then u
            else setReg u (Reg.METER_RMS d m) (BitVec.ofNat 32 (isqrt (sum / meterLen w)))
          let h := Reg.METER_PKHOLD d m
          let u := setReg u h (BitVec.ofNat 32 (max (reg u h).toNat peak))
          let u := setFld (setFld u st F.METER_STAT_INVAL inval.toNat) st F.METER_STAT_CLIP
            (0x7FFF_FFFF ≤ peak : Bool).toNat
          mark (if mode1 && bitF u (Reg.METER_ALARM d m) F.METER_ALARM_SRC then u else meterAlarm u d m)

/-- A write to METER_CFG (R294). -/
def meterCfgWrite (s : State) (d m : Nat) (v : Word) : State :=
  setMeter (setReg s (Reg.METER_CFG d m) (v &&& 0xFFFFDFFF)) d m { meter s d m with changed := true }

/-! ### Silence detectors -/

/-- The largest number below 2^`i` whose 20th power times 10^`thr` stays within 2^620, found from the top bit down. -/
def detRoot (thr : Nat) : Nat → Nat → Nat
  | 0, r => r
  | i + 1, r => let t := r + 2 ^ i; detRoot thr i (if t ^ 20 * 10 ^ thr ≤ 2 ^ 620 then t else r)

/-- T of R297: floor(2^31 × 10^(−THR ÷ 20)), THR limited to 60–150. -/
def detThreshold (thr : Nat) : Nat := detRoot (max 60 (min 150 thr)) 22 0

/-- Word `w` of a detector entry. -/
def detWord (s : State) (d n w : Nat) : Word := tab s tDet d (n * 4 + w)

/-- Whether a detector is enabled. -/
def detOn (s : State) (d n : Nat) : Bool := (detWord s d n 0).getLsbD 31

/-- The detectors of die `d` that are enabled. -/
def detList (s : State) (d : Nat) : List Nat :=
  (tabRange s tDet d 0 4096).filterMap fun e => if e.1 % 4 = 0 && e.2.getLsbD 31 then some (e.1 / 4) else none

/-- COUNT and SILENT of a detector. -/
def detSet (s : State) (d n : Nat) (silent : Bool) (count : Nat) : State :=
  setTab s tDet d (n * 4 + 2) (BitVec.ofNat 32 (silent.toNat * 2 ^ 31 + count))

/-- A detector at a Pulse (R297). -/
def detPulse (d n : Nat) (s : State) : State :=
  let w := detWord s d n 0
  let x := (line s d (wField w 13 0)).val
  let c := if magOf x < detThreshold (wField w 23 16) then min (wField (detWord s d n 2) 23 0 + 1) 0xFF_FFFF else 0
  detSet s d n (max (wField (detWord s d n 1) 23 0) 1 ≤ c) c

/-- The detectors of a die at a Pulse: a written one restarts unevaluated; the maps capture SILENT (R290, R297). -/
def detectors (s : State) (d : Nat) : State :=
  let new := (dieX s d).detNew
  let t := each new (fun n u => detSet u d n false 0) s
  let t := each ((detList t d).filter fun n => !new.contains n) (detPulse d) t
  let maps := (detList t d).filter (detSilent t d)
  let t := each (List.range 32) (fun i u =>
    setReg u (Reg.SILENCE_MAP d i) (BitVec.ofNat 32 (natSum ((maps.filter fun n => n / 32 = i).map fun n => 2 ^ (n % 32))))) t
  setDieX t d { dieX t d with detNew := [] }

/-- The silence-map lines (R290), as the previous Pulse captured the maps. -/
def mapPublish (s : State) (d : Nat) : State :=
  each (List.range 32) (fun i t => publish t d (0x390 + i) (reg t (Reg.SILENCE_MAP d i)) true) s

/-- Pods whose detector range holds detector `n`. -/
def podsWatching (s : State) (d n : Nat) : List Nat :=
  (List.range 8).filter fun p =>
    let w := reg s (Reg.SILENCE_PARK_DET d p)
    decide (wGet w F.SILENCE_PARK_DET_DFIRST ≤ n) && decide (n ≤ wGet w F.SILENCE_PARK_DET_DLAST)

/-- A pod woken by a write (R304): it acts at the next Pulse. -/
def kickPod (d p : Nat) (s : State) : State := setPodX s d p { podX s d p with woken := true }

/-- A write through SILENCE_DATA (R297, R304): words 2 and 3 ignore it. -/
def detWrite (s : State) (d n w : Nat) (v : Word) : State :=
  if 2 ≤ w then s
  else
    let t := setTab s tDet d (n * 4 + w) (if w = 0 then v &&& 0xC0FF3FFF else v &&& 0x00FFFFFF)
    let t := if detOn t d n then t else detSet t d n false 0
    let x := dieX t d
    let t := setDieX t d { x with detNew := if x.detNew.contains n then x.detNew else x.detNew ++ [n] }
    each (podsWatching t d n) (kickPod d) t

/-- A write of a silence-list entry through SILENCE_LDATA (R298); the second part is false where it returns an error. -/
def slistWrite (s : State) (d : Nat) (v : Word) : State × Bool :=
  let w := reg s (Reg.SILENCE_LSEL d)
  let slot := wGet w F.SILENCE_LSEL_SLOT
  let k := wGet w F.SILENCE_LSEL_POD * 18 + slot
  let bank : Bool := wGet w F.SILENCE_LSEL_BANK = 1
  let kn := kern s d k
  if 18 ≤ slot then (s, true)
  else if bank = kn.pbank && (kn.st = .run || kn.st = .shadow || kn.st = .standby) then (s, false)
  else
    (setTab s tSlist d ((k * 2 + bank.toNat) * 64 + wGet w F.SILENCE_LSEL_ENTRY) (v &&& 0x800003FF), true)

/-- A write of a park register (R302, R304): while EN is 0, ERR reads 0. -/
def parkWrite (s : State) (d p : Nat) (cfg : Bool) (v : Word) : State :=
  kickPod d p (if cfg then
      (let t := setReg s (Reg.SILENCE_PARK_CFG d p) (v &&& 0x80FFFFFF)
       if v.getLsbD 31 then t else setFld t (Reg.SILENCE_PARK_STAT d p) F.SILENCE_PARK_STAT_ERR 0)
    else setReg s (Reg.SILENCE_PARK_DET d p) (v &&& 0x03FF03FF))

/-! ### Look-ahead -/

/-- A write of a look-ahead entry (R299, R300). -/
def laWrite (s : State) (d n : Nat) (v : Word) : State :=
  let a := Reg.SILENCE_LA d n
  let x := dieX s d
  let moved := fld s a F.SILENCE_LA_LINE ≠ wGet v F.SILENCE_LA_LINE
  setDieX (setReg s a (v &&& 0xFF003FFF)) d
    { x with laMoved := if moved && !x.laMoved.contains n then x.laMoved ++ [n] else x.laMoved }

/-- The delay memory without dead lines at its end. -/
def trimLines (ls : List Line) : List Line := (ls.reverse.dropWhile fun l => l = deadLine).reverse

/-- A look-ahead entry at a Pulse (R299, R300): the written entry acts, and its delay memory records the tick that opens. -/
def laPulse (d n : Nat) (s : State) : State :=
  let w := reg s (Reg.SILENCE_LA d n)
  let old := if (dieX s d).laMoved.contains n then [] else laPast s d n
  let hist := trimLines ((line s d (wGet w F.SILENCE_LA_LINE) :: old).take 65)
  { s with
    laEff := smSet (fun _ => (0 : Word)) (d * 64 + n) w s.laEff
    laHist := smSet (fun _ => ([] : List Line)) (d * 64 + n) hist s.laHist }

/-- The look-ahead entries of a die at a Pulse. -/
def lookaheads (s : State) (d : Nat) : State :=
  let t := each (List.range 64) (laPulse d) s
  setDieX t d { dieX t d with laMoved := [] }

/-! ### The sequence generator -/

/-- GEN states. -/
def genIdle : Nat := 0
def genArmed : Nat := 1
def genRunning : Nat := 2

/-- A channel's state. -/
def genState (s : State) (d c : Nat) : Nat := fld s (Reg.GEN_STATC d c) F.GEN_STATC_STATE

/-- The taps of an MLS order (R307). -/
def mlsTaps (order : Nat) : List Nat :=
  ([[10, 7], [11, 9], [12, 6, 4, 1], [13, 4, 3, 1], [14, 5, 3, 1], [15, 14], [16, 15, 13, 4], [17, 14], [18, 11],
    [19, 6, 2, 1], [20, 17], [21, 19], [22, 21], [23, 18], [24, 23, 22, 17]] : List (List Nat)).getD (order - 10) []

/-- The MLS register after one sample (R307): bit `i` of the register is bit `i` − 1 of the number. -/
def mlsNext (order v : Nat) : Nat :=
  let fb := (mlsTaps order).foldl (fun b t => b != v.testBit (t - 1)) false
  (2 * v + fb.toNat) % 2 ^ order

/-- A channel's settings. -/
def genMode (s : State) (d c : Nat) : Nat := fld s (Reg.GEN_CFG d c) F.GEN_CFG_MODE
def genOrder (s : State) (d c : Nat) : Nat := fld s (Reg.GEN_CFG d c) F.GEN_CFG_ORDER
def genRepeat (s : State) (d c : Nat) : Nat := fld s (Reg.GEN_CFG d c) F.GEN_CFG_REPEAT
def genLen (s : State) (d c : Nat) : Nat := fld s (Reg.GEN_LEN d c) F.GEN_LEN_TICKS

/-- The period in ticks; none: no end (R306). -/
def genPeriod (s : State) (d c : Nat) : Option Nat :=
  match genMode s d c with
  | 2 => some (2 ^ genOrder s d c - 1)
  | _ => if genLen s d c = 0 then none else some (genLen s d c)

/-- Sample `n` of a channel with MLS register `mls` (R306, assumption log 6). -/
def genSample (s : State) (d c n mls : Nat) : Word :=
  let g : Int := (reg s (Reg.GEN_GAIN d c)).toInt
  let f1 : Int := ((reg s (Reg.GEN_FREQ1 d c)).toNat : Int)
  let f2 : Int := ((reg s (Reg.GEN_FREQ2 d c)).toNat : Int)
  match genMode s d c with
  | 1 => BitVec.ofInt 32 (fxScale g (fxSinTurn (f1 * n * fxOne / (2 ^ 32 : Nat))))
  | 2 => if mls.testBit (genOrder s d c - 1) then BitVec.ofInt 32 g
         else if g = -(2 ^ 31 : Nat) then maxPos 32 else BitVec.ofInt 32 (-g)
  | 3 =>
    let k := (genLen s d c : Int) * fxOne * fxOne / fxLn 40 (f2 * fxOne / f1)
    let e := fxExp ((n : Int) * fxOne * fxOne / k) - fxOne
    BitVec.ofInt 32 (fxScale g (fxSinTurn (fxMul (f1 * k / (2 ^ 32 : Nat)) e)))
  | _ => 0

/-- Whether a channel may be armed (R308). -/
def genFit (s : State) (d c : Nat) : Bool :=
  let mode := genMode s d c
  let f1 := (reg s (Reg.GEN_FREQ1 d c)).toNat
  let f2 := (reg s (Reg.GEN_FREQ2 d c)).toNat
  1 ≤ mode && mode ≤ 3 && (mode ≠ 2 || (10 ≤ genOrder s d c && genOrder s d c ≤ 24))
    && f1 < 2 ^ 31 && f2 < 2 ^ 31 && (mode ≠ 3 || (f1 ≠ 0 && f1 < f2 && 2 ≤ genLen s d c)) && pulseRuns s

/-- A channel's state set, with CTL.ARM and GEN_STAT.RUNNING. -/
def setGenState (s : State) (d c st : Nat) : State :=
  let t := setFld (setFld s (Reg.GEN_STATC d c) F.GEN_STATC_STATE st) (Reg.GEN_CTL d c) F.GEN_CTL_ARM
    (st ≠ genIdle : Bool).toNat
  let r := fld t (Reg.GEN_STAT d) F.GEN_STAT_RUNNING
  let bit := 2 ^ c
  setFld t (Reg.GEN_STAT d) F.GEN_STAT_RUNNING (r - r / bit % 2 * bit + (st = genRunning : Bool).toNat * bit)

/-- A write to GEN_CTL (R308): STOP acts at the next Pulse; ARM 1 in IDLE checks the channel and arms it. -/
def genCtlWrite (s : State) (d c : Nat) (v : Word) : State :=
  let t := setFld s (Reg.GEN_CTL d c) F.GEN_CTL_NOW (wGet v F.GEN_CTL_NOW)
  let stop := wGet v F.GEN_CTL_STOP = 1
  if genState t d c ≠ genIdle then
    if stop then setGen t d c { gen t d c with stop := true } else t
  else if wGet v F.GEN_CTL_ARM = 0 then t
  else if genFit t d c then
    let trig := if wGet v F.GEN_CTL_NOW = 1 then Trig.next else .low (reg t (Reg.GEN_TPULSE d c)).toNat
    setGenState (setGen t d c { Gen.zero with trig := trig, stop := stop }) d c genArmed
  else setFld t (Reg.GEN_STATC d c) F.GEN_STATC_REFUSED 1

/-- A sample put on a channel's line. -/
def genPublish (s : State) (d c : Nat) : State :=
  let x := gen s d c
  publish s d (0x280 + c) (genSample s d c x.pos x.mls) true

/-- All ones: the MLS register at the start of a period. -/
def mlsStart (s : State) (d c : Nat) : Nat := 2 ^ genOrder s d c - 1

/-- A channel at a Pulse, before the lines become visible (R308). -/
def genPulse (d c : Nat) (s : State) : State :=
  let x := gen s d c
  let st := genState s d c
  let cap (t : State) : State := setFld t (Reg.GEN_STATC d c) F.GEN_STATC_POS (if st = genIdle then 0 else (gen t d c).pos)
  if st = genIdle then s
  else if x.stop then setFld (setGenState (setGen s d c Gen.zero) d c genIdle) (Reg.GEN_STATC d c) F.GEN_STATC_POS 0
  else if st = genArmed then
    let t := trigAt (pulseCount s) x.trig
    if t = .met then cap (genPublish (setGen s d c { x with trig := t, pos := 0, mls := mlsStart s d c }) d c)
    else setGen s d c { x with trig := t }
  else
    let wrap := match genPeriod s d c with | some p => decide (p ≤ x.pos + 1) | none => false
    let y : Gen := if wrap then { x with pos := 0, done := x.done + 1, mls := mlsStart s d c }
      else { x with pos := x.pos + 1, mls := mlsNext (genOrder s d c) x.mls }
    let n := if genRepeat s d c = 0 then (if genMode s d c = 1 && genLen s d c ≠ 0 then 1 else 0) else genRepeat s d c
    if wrap && n ≠ 0 && n ≤ y.done then cap (setGen s d c { y with ended := true })
    else cap (genPublish (setGen s d c y) d c)

/-- GEN_TRIGGER (R308): the trigger Pulse has come. -/
def execGenTrigger (d c : Nat) (s : State) : Out :=
  onUnit (d < dieCount s.part && c < 8) <|
    let x := gen s d c
    whenDue s (genState s d c = genArmed && x.trig = .met)
      (setGenState (setGen s d c { x with trig := .idle }) d c genRunning)

/-- GEN_DONE (R308): the channel's periods are over. -/
def execGenDone (d c : Nat) (s : State) : Out :=
  onUnit (d < dieCount s.part && c < 8) <|
    let a := Reg.GEN_STAT d
    let n := fld s a F.GEN_STAT_DONE
    whenDue s (genState s d c = genRunning && (gen s d c).ended)
      (setFld (setGenState (setGen s d c Gen.zero) d c genIdle) a F.GEN_STAT_DONE (if n.testBit c then n else n + 2 ^ c))

/-- Whether a channel's or a meter's step of this Pulse is still to come. -/
def measureOwed (s : State) (d : Nat) : Bool :=
  ((List.range 8).any fun c => (genState s d c = genArmed && (gen s d c).trig = .met) || (gen s d c).ended)
    || (meterList s d).any fun m => (meter s d m).ended.isSome

end Sys2Proof.Machine
end

