-- ==== Sys2Proof/Machine/Spares.lean ====
section
/-! DEFINITION. The spares logic (R433–R441, R491) and the converter spare (R443). -/
namespace Sys2Proof.Machine

/-! ### Roles -/

/-- The target of a pod's shadow period set; 31 none. -/
def setTarget (s : State) (d p slot : Nat) : State := setFld s (Reg.SPARE_POD d p) F.SPARE_POD_TARGET slot

/-- Whether shadow checking, or substitution, is enabled (R433). -/
def shadowOn (s : State) (d : Nat) : Bool := bitF s (Reg.SPARE_CTL d) F.SPARE_CTL_SHADOW
def substOn (s : State) (d : Nat) : Bool := bitF s (Reg.SPARE_CTL d) F.SPARE_CTL_SUBST

/-- The kernel of a slot. -/
def slotKern (s : State) (d p i : Nat) : Kern := kern s d (p * 18 + i)

/-- The state of a slot's kernel set. -/
def setSlotState (s : State) (d p i : Nat) (st : KState) : State :=
  setKern s d (p * 18 + i) { slotKern s d p i with st := st }

/-- The states in which a trigger leads to substitution (R437). -/
def canFail (st : KState) : Bool := st = .run || st = .faulted || st = .parked

/-- The spares of a pod in their roles (R79, R434, R439): the shadow slot SHADOW during a period, every other STANDBY; a
spare being loaded for a takeover is STANDBY. -/
def spareRoles (s : State) (d p : Nat) : State :=
  let x := podX s d p
  each (spareSlots s d p) (fun i t =>
    let st := (slotKern t d p i).st
    if st = .held || st = .shadow || st = .standby then
      let loading := match x.take with | some k => k.new = i | none => false
      setSlotState t d p i
        (if i = sparePod t d p F.SPARE_POD_SHADOWSL && x.phase ≠ .idle && !loading then .shadow else .standby)
    else t) s

/-- The spares of a pod when the Pulse starts (R8, R434): each of slots 16 and 17 that has not entered RUN since reset, one in
TEST included. A stop that is pending for such a slot, which R80 would make STOPPED, falls (DESIGN CHOICE, assumption log
118: R434 makes the slot a spare). -/
def startSpares (s : State) (d p : Nat) : State :=
  let fit := [16, 17].filter fun i =>
    let kn := slotKern s d p i
    kn.st ≠ .off && kn.st ≠ .retired && !kn.enter && !kn.rejoin && !kn.ran
  let old := (spareSlots s d p).filter fun i => i < 16
  let t := each fit (fun i u =>
    let kn := slotKern u d p i
    setKern u d (p * 18 + i) { (if kn.st = .test then leaveTest kn else kn) with st := .held }) s
  let t := setTarget (setSpares t d p (old ++ fit)) d p 31
  spareRoles (setPodX t d p { podX t d p with phase := .idle, due := none, take := none, ramp := none, backs := [] }) d p

/-- The kernels of a pod that a period may take: those in RUN that are not spares, in slot order (R434). -/
def periodSlots (s : State) (d p : Nat) : List Nat :=
  (List.range 18).filter fun i => !(spareSlots s d p).contains i && (slotKern s d p i).st = .run

/-- The target after a slot, in ascending slot order (R434). -/
def nextTarget (s : State) (d p cur : Nat) : Option Nat :=
  let cs := periodSlots s d p
  ((cs.filter fun i => cur < i).head?) <|> (if cur = 31 then none else cs.head?)

/-- The first target where no period has run, or the next one. -/
def pickTarget (s : State) (d p : Nat) : Option Nat :=
  let cur := sparePod s d p F.SPARE_POD_TARGET
  if cur = 31 then (periodSlots s d p).head? else nextTarget s d p cur

/-! ### Copies -/

/-- The entries of a sparse table in the window at `src` copied into the window at `dst`. -/
def copyWindow {α : Type} (src dst : Nat) (m : List (Nat × α)) : List (Nat × α) :=
  (m.filter fun e => e.1 < dst)
    ++ ((m.filter fun e => src ≤ e.1 && e.1 < src + 0x2_0000).map fun e => (e.1 - src + dst, e.2))
    ++ m.filter fun e => dst + 0x2_0000 ≤ e.1

/-- A kernel's memories copied into another slot's window, read through their ECC (R63): single-bit errors are corrected and
counted; an uncorrectable word is uncorrectable in the copy too (DESIGN CHOICE, assumption log 111). -/
def copyMem (s : State) (d j k : Nat) : State :=
  let t := scrubKernel s d j 0 0x2_0000
  { t with
    mem := copyWindow (kernWin d j) (kernWin d k) t.mem
    ecc := copyWindow (kernWin d j) (kernWin d k) t.ecc }

/-- The copy of a load phase (R434): memories, register image, program bits and bank selection. -/
def loadSpare (d j k : Nat) (s : State) : State :=
  let from_ := kern s d j
  let to_ := kern s d k
  setKern (copyMem s d j k) d k { to_ with
    pbank := from_.pbank, ybank := from_.ybank, swapped := from_.swapped
    core := { to_.core with r := from_.core.img, img := from_.core.img, bits := from_.core.bits } }

/-- The slots that a load phase copies into: both spares, or the displaced kernel. -/
def loadSlots (s : State) (d p : Nat) : List Nat :=
  match (podX s d p).take with
  | some k => if k.disp then [k.new] else spareSlots s d p
  | none => spareSlots s d p

/-- The target of the load phase in hand. -/
def loadTarget (s : State) (d p : Nat) : Nat :=
  match (podX s d p).take with
  | some k => k.slot
  | none => sparePod s d p F.SPARE_POD_TARGET

/-- The kernels that a load phase makes of kernel `k` of a die (R434): while it lasts, every write of `k` goes to them too. -/
def copiesOf (s : State) (d k : Nat) : List Nat :=
  let p := k / 18
  if (podX s d p).phase = .load && loadTarget s d p = k % 18 then (loadSlots s d p).map fun i => p * 18 + i else []

/-- The load phase's copy made. -/
def loadCopy (s : State) (d p : Nat) : State :=
  each (loadSlots s d p) (fun i t => loadSpare d (p * 18 + loadTarget s d p) (p * 18 + i) t) s

/-- SHADOW_PERIOD_START (R434, R437): the period that this Pulse opens starts with its load phase. -/
def execShadowPeriodStart (d p : Nat) (s : State) : Out :=
  onUnit (d < dieCount s.part && p < 8) <|
    let x := podX s d p
    match x.due with
    | some i =>
      let same := sparePod s d p F.SPARE_POD_TARGET = i
      let t := setPodX s d p { x with
        due := none, phase := .load, copied := false, left := ticksPerSecond s
        lastMis := x.mis, mis := none, repeated := x.repeated && same }
      .next (spareRoles (setTarget t d p i) d p)
    | none => .next s

/-- SHADOW_LOAD_DONE (R434): the copy into the spares completes; lockstep starts at the next Pulse. A pod whose domain is not
ON copies nothing (R409). -/
def execShadowLoadDone (d p : Nat) (s : State) : Out :=
  onUnit (d < dieCount s.part && p < 8) <|
    let x := podX s d p
    whenDue s (x.phase = .load && !x.copied && x.due.isNone && pulseRuns s && domOn s d (pdPod p))
      (loadCopy (setPodX s d p { x with copied := true }) d p)

/-! ### Mismatches -/

/-- Whether lockstep shows a mismatch in the tick that ends (R435): the shadow has reached END, and its writes, line stores among them,
differ from those of its target in address, value or order. A target that has not reached END, or has faulted in this tick, is
compared all the same. -/
def misses (s : State) (d p : Nat) : Bool :=
  let x := podX s d p
  let k := slotKern s d p (sparePod s d p F.SPARE_POD_TARGET)
  let sh := slotKern s d p (sparePod s d p F.SPARE_POD_SHADOWSL)
  x.phase = .lock && sparePod s d p F.SPARE_POD_SHADOWSL < 18 && sh.st = .shadow
    && (k.st = .run || k.st = .faulted) && sh.ended && k.outs ≠ sh.outs

/-- A mismatch (R436, R439): two in a row of one shadow on different targets retire it; otherwise it is a trigger, but a lone
shadow first repeats its period. -/
def mismatch (s : State) (d p : Nat) : State :=
  let x := podX s d p
  let tgt := sparePod s d p F.SPARE_POD_TARGET
  let sh := sparePod s d p F.SPARE_POD_SHADOWSL
  let t := setFld s (Reg.SPARE_STAT d) F.SPARE_STAT_MISMATCH 1
  let twice := match x.lastMis with | some (a, b) => a = sh && b ≠ tgt | none => false
  if twice then
    let t := setSlotState t d p sh .retired
    let t := dropSpare (setPodX t d p { x with mis := none }) d p sh
    spareLog t d 8 (p * 18 + sh) (p * 18 + tgt) 0
  else
    let y := { x with mis := some (sh, tgt) }
    if 1 < (spareSlots t d p).length || x.repeated then spareTrigger (setPodX t d p y) d (p * 18 + tgt) 1
    else setPodX t d p { y with repeated := true, again := true }

/-- The comparisons of the tick that ends (R435). -/
def lockstepCheck (s : State) (d : Nat) : State :=
  each (List.range 8) (fun p t => if misses t d p then mismatch t d p else t) s

/-! ### Substitution -/

/-- The class of a kernel (R441): 3 acts as 2. -/
def kernClass (s : State) (d k : Nat) : Nat :=
  min 2 (wField (reg s (Reg.SPARE_CLASS d (k / 16))) (2 * (k % 16) + 1) (2 * (k % 16)))

/-- The displaced kernel for a failing slot (R441): in RUN, of the lowest class strictly below, the highest slot. -/
def victim (s : State) (d p fail : Nat) : Option Nat :=
  let mine := kernClass s d (p * 18 + fail)
  let cs := (List.range 18).reverse.filter fun i =>
    i ≠ fail && (slotKern s d p i).st = .run && decide (kernClass s d (p * 18 + i) < mine)
  [0, 1].findSome? fun c => cs.find? fun i => kernClass s d (p * 18 + i) = c

/-- Whether a takeover must wait for a pending swap of its kernel (R234): not when that kernel has faulted. -/
def takeWaits (s : State) (d p slot : Nat) : Bool :=
  (slotKern s d p slot).st ≠ .faulted && (pendingSwaps s).any fun r => (groupKernels s d r.group).contains (p * 18 + slot)

/-- One trigger taken up at a Pulse (R437, R441, R491). With SUBST 0 it is logged whatever its kernel has become by then (R433); one
whose kernel has left RUN, FAULTED and PARKED is dropped before it takes a spare (R491). -/
def decideTrigger (s : State) (d p : Nat) (tr : Nat × Nat) : State :=
  let (slot, cause) := tr
  let k := p * 18 + slot
  let x := podX s d p
  let sp := spareSlots s d p
  let t := if sp.isEmpty then setFld s (Reg.SPARE_STAT d) F.SPARE_STAT_NOSPARE 1 else s
  if !substOn t d then spareLog t d cause k 0xFF 0
  else if !canFail (slotKern s d p slot).st then t
  else
      match sp.getLast? with
      | none =>
        match victim t d p slot with
        | some i =>
          let len := max 1 (min 4096 (fld t (Reg.SPARE_CFG d) F.SPARE_CFG_RAMP))
          let from_ := match alGet i x.backs with | some (j, l) => j * len / l | none => len
          setPodX t d p { x with
            ramp := some ⟨i, slot, from_ - 1, len, false⟩, take := none, backs := x.backs.filter fun e => e.1 ≠ i }
        | none => spareLog t d 7 k 0xFF 0
      | some new =>
        if 1 < sp.length && sparePod t d p F.SPARE_POD_TARGET = slot && x.phase = .lock then
          setPodX t d p { x with take := some ⟨slot, cause, new, false, true, !takeWaits s d p slot⟩ }
        else
          setPodX t d p { x with take := some ⟨slot, cause, new, false, false, false⟩, phase := .idle, due := some slot }

/-- A displacement ramp one tick on (R441, R491): one whose failing kernel has left is dropped, and its displaced kernel ramps
back up from its present gain. -/
def rampPulse (s : State) (d p : Nat) : State :=
  let x := podX s d p
  match x.ramp with
  | none => s
  | some r =>
    if canFail (slotKern s d p r.fail).st then setPodX s d p { x with ramp := some { r with j := r.j - 1, last := r.j = 0 } }
    else setPodX s d p { x with ramp := none, backs := alPut r.slot (r.j, r.len) x.backs }

/-- The ramps back up one tick on (R491). -/
def backsPulse (s : State) (d p : Nat) : State :=
  let x := podX s d p
  setPodX s d p { x with backs := x.backs.filterMap fun (i, j, len) =>
    let st := (slotKern s d p i).st
    if (st = .run || st = .parked) && decide (j + 1 < len) then some (i, j + 1, len) else none }

/-- Whether slot `i` ends its displacement ramp at the Pulse to come (R441): it leaves RUN there. -/
def rampsOut (s : State) (d p i : Nat) (leaving : Kern → Bool) : Bool :=
  match (podX s d p).ramp with
  | some r => r.slot = i && r.j = 0 && canFail (slotKern s d p r.fail).st && !leaving (slotKern s d p r.fail)
  | none => false

/-- A takeover dropped (R491): a displaced kernel whose load has begun becomes a spare in STANDBY. -/
def dropTake (s : State) (d p : Nat) (k : Takeover) : State :=
  let t := setPodX s d p { podX s d p with take := none, phase := .idle, due := none }
  let t := if k.disp then setSpares t d p (spareSlots t d p ++ [k.new]) else t
  spareRoles (setTarget t d p 31) d p

/-- The takeover in hand at a Pulse (R437, R438, R491). -/
def takePulse (s : State) (d p : Nat) : State :=
  let x := podX s d p
  match x.take with
  | none => s
  | some k =>
    if !canFail (slotKern s d p k.slot).st then dropTake s d p k
    else
      let loaded := k.ready || (x.phase = .load && x.copied)
      if !loaded then s
      else
        let t := if k.ready || x.phase ≠ .load then s else loadCopy s d p
        setPodX t d p { podX t d p with take := some { k with ready := true, come := !takeWaits s d p k.slot }, phase := .lock }

/-- Triggers in ascending slot order. -/
def sortTrig (xs : List (Nat × Nat)) : List (Nat × Nat) :=
  (List.range 18).flatMap fun i => xs.filter fun e => e.1 = i

/-- The triggers taken up at a Pulse, one at a time (R491). -/
def takeTriggers (d p : Nat) : Nat → State → State
  | 0, s => s
  | n + 1, s =>
    let x := podX s d p
    match x.waits with
    | [] => s
    | tr :: rest =>
      if x.take.isSome || x.ramp.isSome then s
      else takeTriggers d p n (decideTrigger (setPodX s d p { x with waits := rest }) d p tr)

/-- Whether a pod is parked (R303). -/
def parkedPod (s : State) (d p : Nat) : Bool := bitF s (Reg.SILENCE_PARK_STAT d p) F.SILENCE_PARK_STAT_PARKED

/-- A load phase or period interrupted by parking (R303): it starts again at wake, with a new load phase. -/
def freezePeriod (s : State) (d p : Nat) : State :=
  let x := podX s d p
  setPodX s d p { x with frozen := x.frozen || x.phase ≠ .idle || x.due.isSome, phase := .idle, copied := false, due := none }

/-- Whether a pod runs shadow periods (R433, R434). -/
def periodsOn (s : State) (d p : Nat) : Bool := shadowOn s d && !(spareSlots s d p).isEmpty

/-- The shadow period at a Pulse (R434, R436, R439). A lone shadow that has repeated its period without a mismatch has no
second mismatch in a row. -/
def periodPulse (s : State) (d p : Nat) : State :=
  let x := podX s d p
  match x.take with
  | some k => if parkedPod s d p && !k.ready then freezePeriod s d p else s
  | none =>
    if !periodsOn s d p then
      spareRoles (setTarget (setPodX s d p { x with phase := .idle, again := false, frozen := false, repeated := false }) d p 31) d p
    else if parkedPod s d p then freezePeriod s d p
    else
      let cur := sparePod s d p F.SPARE_POD_TARGET
      let runs := cur < 18 && (slotKern s d p cur).st = .run
      let again := x.again && runs
      let y := { x with again := false, left := x.left - 1 }
      if x.phase ≠ .idle && runs && !again && 1 < x.left then
        if x.phase = .load && x.copied then
          spareRoles (setPodX (loadCopy s d p) d p { y with phase := .lock }) d p
        else setPodX s d p y
      else
        let t := setPodX s d p { y with
          phase := .idle, repeated := x.repeated && again, due := if again then some cur else pickTarget s d p }
        if (podX t d p).due.isNone then spareRoles (setTarget t d p 31) d p else t

/-- What parking interrupted starts again at wake on the same target, with a new load phase (R303, R305, R434). -/
def thawPeriod (s : State) (d p : Nat) : State :=
  let x := podX s d p
  if !x.frozen then s
  else
    let y := { x with frozen := false }
    match x.take with
    | some k => if k.disp then setPodX s d p { y with phase := .load, copied := false } else setPodX s d p { y with due := some k.slot }
    | none =>
      let cur := sparePod s d p F.SPARE_POD_TARGET
      let runs := cur < 18 && (slotKern s d p cur).st = .run
      setPodX s d p { y with due := if !periodsOn s d p then none else if runs then some cur else pickTarget s d p }

/-- The spares logic of a pod at a Pulse (R18 step 3, R434–R441, R491); a pod whose domain does not run stands still (R409). -/
def sparesPulse (s : State) (d p : Nat) : State :=
  let x := podX s d p
  let t := setPodX s d p { x with waits := x.waits ++ sortTrig x.trig, trig := [] }
  if !domLive s d (pdPod p) && !parkedPod s d p then t else
  let t := takePulse (rampPulse t d p) d p
  let t := takeTriggers d p (podX t d p).waits.length t
  periodPulse (backsPulse t d p) d p

/-- Whether a takeover of a pod is due now: its Pulse has come and its kernel is not PARKED (R305). -/
def takeDue (s : State) (d p : Nat) : Option Takeover :=
  match (podX s d p).take with
  | some k => if k.come && (slotKern s d p k.slot).st ≠ .parked then some k else none
  | none => none

/-- A table's entries of one slot moved to another: `n` per slot. -/
def moveTab (s : State) (t d from_ to_ n : Nat) : State :=
  let base := tabKey t d 0
  let mine := (s.tabs.filter fun e => base + from_ * n ≤ e.1 && e.1 < base + (from_ + 1) * n).map fun e => (e.1 - base - from_ * n, e.2)
  let clean := { s with tabs := smDrop (fun k => (base + from_ * n ≤ k && k < base + (from_ + 1) * n)
    || (base + to_ * n ≤ k && k < base + (to_ + 1) * n)) s.tabs }
  each mine (fun e u => setTab u t d (to_ * n + e.1) e.2) clean

/-- A register moved, its old place back at reset. -/
def moveReg (s : State) (a b : Nat) : State := setReg (setReg s b (reg s a)) a (resetReg s.part a)

/-- A kernel number rewritten in every swap-group KMASK, fader entry and SPARE_CMD (R438); a route latency entry names lines
and no kernel (R242). -/
def renameKernel (s : State) (d j k : Nat) : State :=
  let bit (w : Word) (i : Nat) (b : Bool) : Word :=
    BitVec.ofNat 32 (w.toNat - (w.getLsbD i).toNat * 2 ^ i + b.toNat * 2 ^ i)
  let t := each (List.range 256) (fun g u =>
    if (tab u tSgrp d (g * 16 + j / 32)).getLsbD (j % 32) then
      let v := setTab u tSgrp d (g * 16 + j / 32) (bit (tab u tSgrp d (g * 16 + j / 32)) (j % 32) false)
      setTab v tSgrp d (g * 16 + k / 32) (bit (tab v tSgrp d (g * 16 + k / 32)) (k % 32) true)
    else u) s
  let t := each (List.range 512) (fun e u =>
    let w := tab u tFade d (e * 4)
    if wField w 7 0 = j then setTab u tFade d (e * 4) (wPut w 7 0 k) else u) t
  if fld t (Reg.SPARE_CMD d) F.SPARE_CMD_KERNEL = j then setFld t (Reg.SPARE_CMD d) F.SPARE_CMD_KERNEL k else t

/-- The standby that mirrors a kernel's X and Y writes in lockstep (R434), if any. -/
def standbyOf (s : State) (d k : Nat) : Option Nat :=
  let r := Reg.SPARE_POD d (k / 18)
  let sb := fld s r F.SPARE_POD_STANDBY
  let sh := fld s r F.SPARE_POD_SHADOWSL
  if fld s r F.SPARE_POD_TARGET = k % 18 && sb < 18 && sh < 18 &&
      (kern s d (k / 18 * 18 + sh)).st = .shadow && (kern s d (k / 18 * 18 + sb)).st = .standby
  then some (k / 18 * 18 + sb) else none

/-- What the new slot takes over (R437, R438): in lockstep the standby's own memories stand, which match the kernel's, and the registers,
pointers and program bits are copied onto it; otherwise the memories as they stand. -/
def takeOver (s : State) (d p : Nat) (k : Takeover) : State :=
  let j := p * 18 + k.slot
  let n := p * 18 + k.new
  let old := kern s d j
  let fault := old.st = .faulted
  let mirrored := (podX s d p).phase = .lock && standbyOf s d j = some n
  let t := setKern (if mirrored then s else copyMem s d j n) d n (startKern { old with
    st := .run, ran := true, spoilt := false, fcode := 0, ovrPrev := old.ovrPrev && !fault, ovr := false, stop := false, suspended := false
    enter := false, rejoin := false, wear := ⟨0, 0, 0, 0⟩ })
  let t := setKern t d j { kern t d j with st := .retired, active := false, enter := false, rejoin := false, stop := false }
  let t := moveReg t (Reg.KERNEL_STEPS d j) (Reg.KERNEL_STEPS d n)
  let t := moveReg t (Reg.KERNEL_BANKMODE d j) (Reg.KERNEL_BANKMODE d n)
  let t := moveReg t (Reg.POD_HOWN d p k.slot) (Reg.POD_HOWN d p k.new)
  let t := moveTab (moveTab t tLtab d j n 64) tSlist d j n 128
  let c := wField (reg t (Reg.SPARE_CLASS d (j / 16))) (2 * (j % 16) + 1) (2 * (j % 16))
  let t := setReg t (Reg.SPARE_CLASS d (n / 16)) (wPut (reg t (Reg.SPARE_CLASS d (n / 16))) (2 * (n % 16) + 1) (2 * (n % 16)) c)
  renameKernel t d j n

/-- SPARE_TAKEOVER (R438, R439): at the takeover Pulse the new slot enters RUN and the old kernel is RETIRED. -/
def execSpareTakeover (d p : Nat) (s : State) : Out :=
  onUnit (d < dieCount s.part && p < 8) <|
    match takeDue s d p with
    | none => .next s
    | some k => whenDue s (s.phase = .tick && !metersOwed s) <|
      let t := takeOver s d p k
      let t := spareLog t d (if k.disp then 6 else k.cause) (p * 18 + k.slot) (p * 18 + k.new) 0
      let t := setFld t (Reg.SPARE_STAT d) (if k.disp then F.SPARE_STAT_DISPLACED else F.SPARE_STAT_SUBST) 1
      let t := setSpares t d p ((spareSlots t d p).filter fun i => i ≠ k.new)
      let more := shadowOn t d && !(spareSlots t d p).isEmpty
      let x := podX t d p
      let t := setPodX t d p { x with
        take := none, phase := .idle, again := false, repeated := false
        due := if more then some k.new else none }
      powerSync (recapture (spareRoles (if more then t else setTarget t d p 31) d p) d (p * 18 + k.new)) d

/-- DISPLACEMENT_RAMP_END (R441): the tick at 0 is over, and the displaced kernel is loaded from the failing one. -/
def execDisplacementRampEnd (d p : Nat) (s : State) : Out :=
  onUnit (d < dieCount s.part && p < 8) <|
    let x := podX s d p
    match x.ramp with
    | some r =>
      whenDue s r.last <|
        let t := setKern s d (p * 18 + r.slot) { slotKern s d p r.slot with
          st := .standby, active := false, staged := [], passed := [], ended := false }
        setPodX t d p { x with
          ramp := none, take := some ⟨r.fail, 6, r.slot, true, false, false⟩, phase := .load, copied := false, due := none }
    | none => .next s

/-- A displaced kernel's published value in the tick that ends (R441, scaled as R264 gives). -/
def rampScale (s : State) (d k : Nat) (v : Word) : Word :=
  let x := podX s d (k / 18)
  let down := x.ramp.bind fun r => if r.slot = k % 18 then some (r.j, r.len) else none
  match down <|> alGet (k % 18) x.backs with
  | some (j, len) => sapScale 32 ⟨j, len, none⟩ v
  | none => v

/-- A write to SPARE_CMD (R437). -/
def spareCmdWrite (s : State) (d : Nat) (v : Word) : State :=
  let t := setFld s (Reg.SPARE_CMD d) F.SPARE_CMD_KERNEL (wGet v F.SPARE_CMD_KERNEL)
  let k := wGet v F.SPARE_CMD_KERNEL
  if !v.getLsbD 31 then t
  else if k < 144 && canFail (kern t d k).st then spareTrigger t d k 5
  else setFld t (Reg.SPARE_STAT d) F.SPARE_STAT_CFGREJ 1

/-- Whether a pod's spares logic has a step of this Pulse to come. -/
def sparesOwed (s : State) (d p : Nat) : Bool :=
  let x := podX s d p
  x.due.isSome || (takeDue s d p).isSome || match x.ramp with | some r => r.last | none => false

/-- Whether kernel `k` stands in a takeover that is due. -/
def takeOwed (s : State) (d k : Nat) : Bool :=
  match takeDue s d (k / 18) with
  | some t => t.slot = k % 18 || t.new = k % 18
  | none => false

/-! ### The converter spare -/

/-- The channel entry (64 × engine + entry) whose turn the check has reached (R443): the first serving one of an engine in
service at or after the place of the rotation, in ascending order and round again. -/
def checkedNext (s : State) (d : Nat) : Option Nat :=
  let all := (List.range 384).filter fun i => engineServes s d (i / 64) && (srcWord1 s d (i / 64) (i % 64)).getLsbD 29
  (all.find? fun i => decide ((dieX s d).srcNext ≤ i)) <|> all.head?

/-- SRC_ENGINE_CHECK (R443): the spare engine checks the serving channel whose turn has come, one of engine `e`; `ok` false is
its mismatch, or an uncorrectable error in the memories of engine `e`. The spare takes over at the next Pulse. -/
def execSrcEngineCheck (d e : Nat) (ok : Bool) (s : State) : Out :=
  onUnit (d < dieCount s.part && e < 6) <|
    let x := dieX s d
    let turn := (checkedNext s d).filter fun i => i / 64 = e
    whenDue s (fld s (Reg.SPARE_SRC d) F.SPARE_SRC_SPAREENG < 6 && engineServes s d e && x.srcBad.isNone
        && (turn.isSome || !ok) && domOn s d pdSrc)
      (setDieX s d { x with
        srcNext := match turn with | some i => i + 1 | none => x.srcNext
        srcBad := if ok then none else some e })

/-- The converter spare at a Pulse (R443): it takes all entries of the engine that failed; the moved channels relock. A domain that does
not run keeps what it holds (R409). -/
def enginePulse (s : State) (d : Nat) : State :=
  if !domLive s d pdSrc then s
  else match (dieX s d).srcBad with
  | none => s
  | some e =>
    let a := Reg.SPARE_SRC d
    let sp := fld s a F.SPARE_SRC_SPAREENG
    let moved := (List.range 64).filter fun i => (srcWord1 s d e i).getLsbD 29
    let ports := moved.map fun i =>
      (wField (tab s tSrc d (e * 64 + i)) 3 0, (tab s tSrc d (e * 64 + i)).getLsbD 30)
    let t := setDieX (moveTab s tSrc d e sp 64) d { dieX s d with srcBad := none }
    let t := setReg t (Reg.SRC_ROLE d sp) 0
    let t := setFld (setFld (setFld t a F.SPARE_SRC_RETV 1) a F.SPARE_SRC_RETIRED e) a F.SPARE_SRC_SPAREENG 7
    let t := setFld t (Reg.SPARE_STAT d) F.SPARE_STAT_SUBST 1
    let t := spareLog t d 0xB e sp 0
    let t := each ports.eraseDups (fun q u =>
      let x := sap u d q.1
      setSap u d q.1 (if q.2 then { x with ratioTx := none, relockTx := true, convTx := [] }
        else { x with ratioRx := none, ratioWas := x.ratioRx.getD x.ratioWas, relockRx := true })) t
    if moved.isEmpty then t else incReg t (Reg.SRC_RELOCK_CNT d sp)

end Sys2Proof.Machine
end

