-- ==== Sys2Proof/Machine/Pulse.lean ====
section
/-! DEFINITION. One tick (R17–R20, R26–R30, R54–R58): the Pulse and what every die does at it, silence parking (R302–R304),
the deadline with overruns and commit, and the start and stop of the Pulse. -/
namespace Sys2Proof.Machine

/-! ### Silence parking -/

/-- The park entry's detector range and enable (R302). -/
def parkEn (s : State) (d p : Nat) : Bool := bitF s (Reg.SILENCE_PARK_CFG d p) F.SILENCE_PARK_CFG_EN
def parkFirst (s : State) (d p : Nat) : Nat := fld s (Reg.SILENCE_PARK_DET d p) F.SILENCE_PARK_DET_DFIRST
def parkLast (s : State) (d p : Nat) : Nat := fld s (Reg.SILENCE_PARK_DET d p) F.SILENCE_PARK_DET_DLAST

/-- The enabled detectors of a pod's range. -/
def parkDets (s : State) (d p : Nat) : List Nat :=
  (detList s d).filter fun n => decide (parkFirst s d p ≤ n) && decide (n ≤ parkLast s d p)

/-- Whether a detector watches an input. -/
def detInput (s : State) (d n : Nat) : Bool := (detWord s d n 0).getLsbD 30

/-- The first failing code of a park entry (R302); 0 when none fails. -/
def parkErr (s : State) (d p : Nat) : Nat :=
  let ds := parkDets s d p
  let memlen := fld s (Reg.SILENCE_PARK_CFG d p) F.SILENCE_PARK_CFG_MEMLEN
  if parkLast s d p < parkFirst s d p then 1
  else if !ds.any (detInput s d) then 2
  else if ds.any fun n => decide (wField (detWord s d n 1) 23 0 < memlen) then 3
  else if ds.any fun n => detInput s d n && (laEntry s d (wField (detWord s d n 0) 13 0)).isNone then 4 else 0

/-- A pod's bit set in a field of SILENCE_EVT. -/
def silenceEvt (s : State) (d p : Nat) (f : Fld) : State :=
  let v := fld s (Reg.SILENCE_EVT d) f
  if v.testBit p then s else setFld s (Reg.SILENCE_EVT d) f (v + 2 ^ p)

/-- Every kernel of a pod in one state put into another. -/
def podMove (s : State) (d p : Nat) (a b : KState) : State :=
  each ((List.range 18).map fun i => p * 18 + i) (fun k t =>
    if (kern t d k).st = a then setKern t d k { kern t d k with st := b } else t) s

/-- The park logic of a pod at a Pulse (R302–R304): ERR, parking, and the start of a wake. -/
def parkPulse (s : State) (d p : Nat) : State :=
  let a := Reg.SILENCE_PARK_STAT d p
  let err := if parkEn s d p then parkErr s d p else 0
  let t := if err ≠ 0 && fld s a F.SILENCE_PARK_STAT_ERR = 0 then silenceEvt s d p F.SILENCE_EVT_ERR else s
  let t := setFld t a F.SILENCE_PARK_STAT_ERR err
  let quiet := parkEn s d p && err = 0 && (parkDets s d p).all (detSilent s d)
  let x := podX t d p
  let u := setPodX t d p { x with woken := false }
  if bitF s a F.SILENCE_PARK_STAT_PARKED then
    match x.wakeIn with
    | some n => setPodX t d p { x with woken := false, wakeIn := some (n - 1) }
    | none =>
      if !quiet || x.woken then
        silenceEvt (setPodX t d p { x with woken := false, wakeIn := some (wakeDelay s) }) d p F.SILENCE_EVT_WAKE
      else u
  else if quiet then
    satFld (silenceEvt (setFld (podMove u d p .run .parked) a F.SILENCE_PARK_STAT_PARKED 1) d p F.SILENCE_EVT_PARK)
      a F.SILENCE_PARK_STAT_PARKS
  else u

/-- Whether a pod's kernels are due to enter RUN at the Pulse that opened this tick (R304). -/
def resumeOwed (s : State) (d p : Nat) : Bool := (podX s d p).wakeIn = some 0

/-- POD_RESUME (R304): at Pulse W + D the parked kernels enter RUN and step 0 runs with their retained state; the pod may park again
from the next Pulse on. -/
def execPodResume (d p : Nat) (s : State) : Out :=
  onUnit (d < dieCount s.part && p < 8) <|
    whenDue s (s.phase = .tick && resumeOwed s d p && domOn s d (pdPod p)) <|
      let ks := ((List.range 18).map fun i => p * 18 + i).filter fun k => (kern s d k).st = .parked
      let t := each ks (fun k u => recapture (setKern u d k (startKern (enterRun (kern u d k)))) d k) s
      let t := setFld t (Reg.SILENCE_PARK_STAT d p) F.SILENCE_PARK_STAT_PARKED 0
      powerSync (thawPeriod (setPodX t d p { podX t d p with wakeIn := none }) d p) d

/-! ### What the Pulse captures -/

/-- The peek channels (R185). -/
def peekCapture (s : State) (d : Nat) : State :=
  each (List.range 16) (fun n t =>
    let l := readLine t d (fld t (Reg.WADI_PEEK_SEL d n) F.WADI_PEEK_SEL_LINE)
    setFld (setReg t (Reg.WADI_PEEK_DATA d n) l.val) (Reg.WADI_PEEK_SEL d n) F.WADI_PEEK_SEL_VALID l.valid.toNat) s

/-- A converter term (R242): `plain` without a converter, `std` and `low` by FILT; open where no channel serves the slot. -/
def convTerm (s : State) (d m slot : Nat) (tx : Bool) (plain std low : Nat) : State × Nat :=
  if !isConv s d m then (s, plain)
  else match srcServer s d m slot tx with
    | some i => (s, if (tab s tSrc d i).getLsbD 29 then low else std)
    | none => ({ s with fresh := s.fresh + 1 }, Config.freeNat s.fresh % 32)

/-- The latency of a link import (R241, R315): 2 + H for each hop that the line has come, of which there is at least one. -/
def importLatency (s : State) (d line : Nat) : Nat := 2 + hopTerm s * (1 + Config.importHops d line)

/-- One route latency entry at a Pulse (R242); the link term's hops are open (assumption log 18). -/
def latCapture (d i : Nat) (s : State) : State :=
  let w0 := tab s tLat d (i * 4)
  let w1 := tab s tLat d (i * 4 + 1)
  let src := wField w1 13 0
  let snk := wField w1 29 16
  let sd := wField w0 30 28
  let (s, inT) := if src < 0x140 then convTerm s sd (src / 32) (src % 32) false 1 20 8 else (s, 0)
  let (s, outT) := if 0x140 ≤ snk && snk < 0x280 then convTerm s d ((snk - 0x140) / 32) ((snk - 0x140) % 32) true 2 22 10
    else (s, 0)
  let laT := match laEntry s sd src with | some e => laLen s (laWord s sd e) | none => 0
  let lnkT := if 0x1000 ≤ src && src < 0x2000 then importLatency s sd src % 2 ^ 9 else 0
  let add (bit n : Nat) : Nat := if w0.getLsbD bit then n else 0
  let total := wField w0 15 0 + add 24 inT + add 25 outT + add 26 laT + add 27 lnkT
  setTab (setTab s tLat d (i * 4 + 2) (BitVec.ofNat 32 (total % 2 ^ 16))) tLat d (i * 4 + 3)
    (BitVec.ofNat 32 (lnkT * 2 ^ 23 + laT * 2 ^ 16 + outT * 2 ^ 8 + inT))

/-- The route latency entries in use. -/
def latencies (s : State) (d : Nat) : State :=
  each ((tabRange s tLat d 0 256).filterMap fun e => if e.1 % 4 = 0 && e.2.getLsbD 31 then some (e.1 / 4) else none)
    (latCapture d) s

/-! ### The lines of a kernel -/

/-- Wadi lines that a kernel may write (R180). -/
def kernelLineOk (n : Nat) : Bool :=
  (0x140 ≤ n && n < 0x280) || (0x800 ≤ n && n < 0x1000) || (0x2000 ≤ n && n < 0x4000)

/-- The Wadi lines that a kernel's active bank stores to. -/
def bankLines (s : State) (d k : Nat) : List Nat :=
  ((bankSlots s d k (kern s d k).pbank 4096 0).filterMap fun e =>
    match e.2 with
    | some sl => (match slotStores sl with | some (.wadi n) => some n | _ => none)
    | none => none).eraseDups.filter kernelLineOk

/-- The slipface lines that a kernel's active bank stores to. -/
def bankSlips (s : State) (d k : Nat) : List Nat :=
  ((bankSlots s d k (kern s d k).pbank 4096 0).filterMap fun e =>
    match e.2 with
    | some sl => (match slotStores sl with | some (.slip n) => some n | _ => none)
    | none => none).eraseDups

/-! ### Kernels at a Pulse -/

/-- Whether a kernel's pending stop takes effect at the next Pulse (R80). -/
def stopsNow (kn : Kern) : Bool := kn.stop && (kn.st = .run || kn.st = .held)

/-- A kernel at a Pulse, in step 2 and before swaps (R54, R55, R80): the overrun of the tick just ended, a pending stop, an
entry into RUN, which a write to the admitted bank turns into a refusal with code 0xC (R40). A stop leaves the registers in the
image (R66). -/
def kernelPulse (d k : Nat) (s : State) : State :=
  let kn := kern s d k
  let enters := kn.enter && kn.st = .stopped
  let st := if stopsNow kn then KState.stopped
    else if enters then (if kn.spoilt then .held else .run) else kn.st
  let stop := kn.stop && (kn.st = .parked)
  let s := if enters && kn.spoilt then logRefusal s d k kn.pbank 0xC 0 else s
  let core := if stopsNow kn then { kn.core with img := kn.core.r } else kn.core
  setKern s d k { kn with
    core := core, ovrs := tickAges kn.ovrs
    st := st, stop := stop, enter := false, spoilt := false, ovrPrev := kn.ovr, ovr := false, margin := none, swapped := false
    active := false, ended := false, wait := none, ran := kn.ran || decide (st = .run) }

/-- A kernel that starts at a Pulse: in RUN, or a shadow in lockstep (R18, R434). -/
def startsNow (s : State) (d k : Nat) : Bool :=
  match (kern s d k).st with
  | .run => domLive s d (pdPod (k / 18))
  | .shadow => (podX s d (k / 18)).phase = .lock && domLive s d (pdPod (k / 18))
      && !parkedPod s d (k / 18)
  | _ => false

/-- Steps 4 and 5 of R18 for one kernel: the pointer snapshot and step 0. -/
def kernelStart (d k : Nat) (s : State) : State :=
  if startsNow s d k then setKern s d k (startKern (kern s d k)) else s

/-- The handshakes of the slipface lines at step 0 of a tick (R132, R187). -/
def openSlips (s : State) : State :=
  { s with slip := (s.slip.map fun e => (e.1, { e.2 with done := false })).filter fun e => e.2.val ≠ 0 }

/-! ### The Pulse -/

/-- The lines of the kernels of a die that have left RUN and PARKED or are `leaving` them, and that no other kernel
produces, carry 0 and are invalid at the next Pulse (R182). -/
def clearLines (s : State) (d : Nat) (leaving : Nat → Bool) : State :=
  let lives (k : Nat) : Bool := ((kern s d k).st = .run || (kern s d k).st = .parked) && !leaving k
  let keep := ((listed s d).filter lives).flatMap (bankLines s d)
  let gone := ((listed s d).filter fun k => !lives k).flatMap (bankLines s d)
  each (gone.filter fun n => !keep.contains n) (fun n t => publish t d n 0 false) s

/-- Whether a kernel leaves RUN at the Pulse to come: by its pending stop, or displaced at the end of its ramp (R80, R441). -/
def leavesNow (s : State) (d k : Nat) : Bool := stopsNow (kern s d k) || rampsOut s d (k / 18) (k % 18) stopsNow

/-- The test lines as their registers stand (R186). -/
def testLines (s : State) (d : Nat) : State :=
  if domLive s d pdStew then
    each (List.range 64) (fun n t => publish t d (0x3C0 + n) (reg t (Reg.WADI_TEST d n)) true) s
  else s

/-- What the blocks of a die publish for a Pulse (R18 step 1). -/
def blocksPublish (d : Nat) (s : State) : State :=
  let t := each (meterList s d) (meterTake d) s
  let t := each (meterList t d) (meterPublish d) t
  let t := each (List.range 8) (genPulse d) (mapPublish t d)
  let t := publishImports t d
  each (List.range 10) (fun m u => sapPulseRx u d m) t

/-- What a die captures and does at a Pulse after its lines are visible, before kernels start (R18 steps 2 and 3). -/
def diePulse (d : Nat) (s : State) : State :=
  let t := govPulse s d (worstMargin s d)
  let t := each (listed t d) (kernelPulse d) t
  let t := detectors t d
  let t := peekCapture (each (List.range 8) (fun p u => parkPulse u d p) t) d
  let t := each (List.range 10) (fun m u => sapPulseTx u d m) t
  let t := each (meterList t d) (meterPulse d) t
  let t := fadePulse t d
  let low := (pulseLow t).toNat
  let t := each (List.range 3) (fun n u => setBridge u d n { bridge u d n with change := markMet low (bridge u d n).change }) t
  let t := enginePulse (switchRows t d) d
  each (List.range 8) (fun p u => sparesPulse u d p) t

/-- What the base of a die does at a Pulse while its PD_STEW does not run: the governor captures the margin of the tick just ended
(R18, R42, R416), in which no kernel of the next one takes part, and overruns age (R57). -/
def baseCapture (d : Nat) (s : State) : State :=
  each (listed s d) (fun k t => setKern t d k { kern t d k with margin := none, ovrs := tickAges (kern t d k).ovrs })
    (govPulse s d (worstMargin s d))

/-- What is captured at a Pulse across the dies (R18, R242, R300): the look-aheads of every die change first, so that a route latency
entry of any die takes the one that acts from this Pulse on; the entries lie in the die base, and capture while PD_STEW does not
run too; a port's frame rate is captured while PD_SAP runs. -/
def packageCapture (s : State) : State :=
  let t := each ((dies s).filter fun d => domLive s d pdStew) (fun d u => lookaheads u d) s
  let t := each (dies t) (fun d u => latencies u d) t
  each ((dies t).filter fun d => domLive t d pdSap) (fun d u => bipCapture u d) t

/-- What comes before the lines become visible at the Pulse with count `n` (R18 step 1): the count, the measurements at the Pulse, what
link, bridges, ports and the other blocks publish for it, and the lines of kernels that leave RUN at it. -/
def pulseGather (s : State) (n : Nat) : State :=
  let t := setReg (setReg s (Reg.PULSE_COUNT_LO 0) (BitVec.ofNat 32 n)) (Reg.PULSE_COUNT_HI 0) (BitVec.ofNat 32 (n / 2 ^ 32))
  let ds := dies t
  let live (u : State) : List Nat := ds.filter fun d => domLive u d pdStew
  let t := steerMeasure { t with txOld := txViews t }
  let t := each (live t) (fun d u => publishLink u d) t
  let t := holdTick (each ds (fun d u => linkDue u n d) t)
  let t := elect t
  let t := each ds (fun d u => pulseFrame u n d) t
  let t := each (live t) blocksPublish t
  each (live t) (fun d u => if (listed u d).any (leavesNow u d) then clearLines u d (leavesNow u d) else u) t

/-- The Pulse with count `n` (R17, R18) on every die: the lines published become visible, SN fields are captured, and every
running kernel starts at step 0. The swaps of this Pulse are applied by SWAP_APPLY before their members run. -/
def pulseWork (s : State) (n : Nat) : State :=
  let t := pulseGather s n
  let ds := dies t
  let live (u : State) : List Nat := ds.filter fun d => domLive u d pdStew
  let t : State := { t with lines := t.pub, pub := [] }
  let t : State := { t with linkDev := { t.linkDev with change := markMet (n % 2 ^ 32) t.linkDev.change } }
  let t := packageCapture (steerPulse (timeCapture t))
  let t := each (dies t) (fun d u => if domLive t d pdStew then diePulse d u else baseCapture d u) t
  let t := each ds (fun d u => setLinkPort u d { linkPort u d with change := markMet (n % 2 ^ 32) (linkPort u d).change }) t
  let t := each ds (fun d u => each (List.range 4) (fun m v => statusDrain v d m) (ddrPulse u d)) t
  let t := each (live t) (fun d u => sendTransfers u d) t
  let t := openSlips t
  let t := each ds captureDie t
  let t := each ds (fun d u => each (listed u d) (kernelStart d) u) t
  powerSyncAll { t with phase := .tick } none

/-- Whether something of the Pulse that opened this tick is still to come: a swap at its target, a table change, a
trigger, a takeover, a wake, a generator or meter step. -/
def tickOwed (s : State) : Bool :=
  !(dueSwaps s).isEmpty || isMet s.linkDev.change || (dies s).any (fun d => isMet (linkPort s d).change) || (dies s).any fun d =>
    domLive s d pdStew &&
    ((List.range 3).any (fun n => isMet (bridge s d n).change)
      || (List.range 8).any (fun p => isMet (caravan s d p).change || sparesOwed s d p || resumeOwed s d p)
      || (List.range 10).any (fun m => sapOwed s d m) || measureOwed s d)

/-- PULSE (R18, R28, R288): at the end of a commit window the next Pulse comes while RUN is 1; one that tracks an input comes
after that input's frame. -/
def execPulse (s : State) : Out :=
  whenDue s (running s && s.phase = .commit && !trackOwed s && bitF s (Reg.PULSE_CTL 0) F.PULSE_CTL_RUN) (pulseWork s (pulseCount s + 1))

/-! ### The deadline -/

/-- A kernel stopped at the deadline (R54, R56): pointers from the snapshot, staged writes discarded. -/
def stopLate (kn : Kern) : Kern :=
  let r := { kn.core.r with p := kn.core.snap.p, b := kn.core.snap.b, l := kn.core.snap.l, m := kn.core.snap.m }
  { kn with
    active := false, staged := [], passed := [], wait := none
    core := { kn.core with r := r, img := r, rep := .idle, dly := none, annulTo := none, annulMul := [] } }

/-- An overrun (R54–R57): recorded, its lines held and invalid in the next tick, and counted towards escalation. -/
def overrun (d k : Nat) (s : State) : State :=
  let kn := kern s d k
  let late := kn.wait.isSome
  let t := setKern s d k { stopLate kn with ovr := true, margin := some overrunMargin }
  let t := setFld t (Reg.KERNEL_STAT d k) F.KERNEL_STAT_OVR 1
  let t := incReg (incReg t (Reg.KERNEL_OVR_CNT d k)) (Reg.PULSE_OVR_TOTAL d)
  let t :=
    if bitF t (Reg.PULSE_OVR_LOG d) F.PULSE_OVR_LOG_VALID then t
    else setReg (setReg t (Reg.PULSE_OVR_LOG d)
        (BitVec.ofNat 32 (2 ^ 31 + late.toNat * 2 ^ 30 + k * 2 ^ 20 + pulseCount s % 2 ^ 20)))
      (Reg.PULSE_OVR_STEP d) (BitVec.ofNat 32 (min 16383 (kn.core.steps + kn.core.halves / 2)))
  let t := each (bankLines s d k) (fun n u => publish u d n (line u d n).val false) t
  escalate t d k

/-- The lines and values that a kernel at END publishes (R131): its last STL to each, and the held value of every line
that it produces and whose STL it passed annulled. -/
def commitList (s : State) (d k : Nat) : List (Nat × Word) :=
  let kn := kern s d k
  kn.staged ++ (kn.passed.filter fun n => kernelLineOk n && (alGet n kn.staged).isNone).map fun n => (n, lastPub s d n)

/-- One kernel's commit (R19, R180, R441). Kernels commit in ascending order, so where the highest-numbered producer of a line
only holds it while a lower one publishes it, the held entry repeats the value that the lower one has just published (DESIGN
CHOICE, assumption log 84: R131 says "the value it last published" of the line, R181 names no such case). -/
def commitKernel (d k : Nat) (s : State) : State :=
  each (commitList s d k) (fun e t =>
    if kernelLineOk e.1 then setLastPub (publish t d e.1 (rampScale t d k e.2) true) d e.1 e.2
    else setFld (incReg t (Reg.WADI_STRAY_CNT d)) (Reg.WADI_STAT d) F.WADI_STAT_STRAY 1) s

/-- The first line with more than one producer in a commit, the lowest-numbered where several are (R181, assumption log
19): its kernels, highest first. -/
def sharedLine (s : State) (d : Nat) (ks : List Nat) : Option (Nat × List Nat) :=
  let all := ks.flatMap fun k => ((commitList s d k).filter fun e => kernelLineOk e.1).map fun e => (e.1, k)
  let twice := (all.filter fun e => all.any fun f => f.1 = e.1 && f.2 ≠ e.2).map (·.1)
  match twice with
  | [] => none
  | n :: ns =>
    let low := ns.foldl min n
    some (low, (ks.filter fun k => all.any fun e => e.1 = low && e.2 = k).reverse)

/-- The record of R181. -/
def noteShared (s : State) (d : Nat) (ks : List Nat) : State :=
  match sharedLine s d ks with
  | some (n, w :: o :: _) =>
    if bitF s (Reg.WADI_STAT d) F.WADI_STAT_MULTI then s
    else setReg (setFld s (Reg.WADI_STAT d) F.WADI_STAT_MULTI 1) (Reg.WADI_MULTI d)
      (BitVec.ofNat 32 (o * 2 ^ 24 + w * 2 ^ 16 + n))
  | _ => s

/-- The lines of a parked kernel from the next Pulse on (R303): 0 and valid, its slipface lines 0. -/
def parkedLines (d k : Nat) (s : State) : State :=
  let t := each (bankLines s d k) (fun n u => publish u d n 0 true) s
  each (bankSlips s d k) (fun n u => setSlip u d (k / 18) n ⟨0, false⟩) t

/-- The deadline and the commit window of a die; a pod whose domain does not run takes no part (R409). -/
def dieDeadline (d : Nat) (s : State) : State :=
  let t := lockstepCheck s d
  let ks := (listed t d).filter fun k => domLive t d (pdPod (k / 18)) || (kern t d k).st = .parked
  let late := ks.filter fun k => (kern t d k).active && !(kern t d k).ended
  let t := each (late.filter fun k => (kern t d k).st = .run) (overrun d) t
  let t := each (late.filter fun k => (kern t d k).st = .shadow) (fun k u => setKern u d k (stopLate (kern u d k))) t
  let parked := ks.filter fun k => (kern t d k).st = .parked
  let t := each parked (parkedLines d) t
  let done := ks.filter fun k => (kern t d k).st = .run && (kern t d k).ended
  let t := noteShared t d done
  let t := each done (commitKernel d) t
  let t := each done (fun k u => wearTick u d k) t
  testLines t d

/-- DEADLINE (R19, R54): the deadline of the tick passes. -/
def execDeadline (s : State) : Out :=
  whenDue s (running s && s.phase = .tick && !tickOwed s)
    (let t := each (dies s) dieDeadline s
     { t with phase := .commit })

/-! ### Start and stop -/

/-- PULSE_STAT.LOCK of die 0 (R28, R338): while the Pulse is stopped and the device follows a grandmaster, only once the
synthesizer holds its time. -/
def pulseLock (s : State) : Bool :=
  bitF s (Reg.PULSE_STAT 0) F.PULSE_STAT_LOCK
    && (pulseRuns s || !(timeState s = tAcq || timeState s = tMerge))

/-- The admission of a start (R29), with the spares (R434), the lines of kernels that do not run (R182) and the count of
held kernels. Of what PREP waits for, the target of a request that is still pending stands (R50). -/
def startDie (d : Nat) (s : State) : State :=
  let t := each (List.range 8) (fun p u => admitStart d p u) s
  let t := setFld t (Reg.PULSE_STAT d) F.PULSE_STAT_HELD (countHeld t d)
  let t := each (List.range 8) (fun p u => startSpares u d p) t
  let last := (pendingSwaps t).foldl (fun n r => max n (r.target + govWindow t d)) 0
  let t := setDieX t d { dieX t d with prepTo := (dieX t d).prepTo.map (min last) }
  testLines (govPrep (clearLines t d fun _ => false) d (pulseCount t)) d

/-- PULSE_START (R28, R29, R50): the first Pulse carries the value held in PULSE_COUNT. -/
def execPulseStart (s : State) : Out :=
  whenDue s (running s && s.phase = .stopped && bitF s (Reg.PULSE_CTL 0) F.PULSE_CTL_RUN && pulseLock s)
    (let t := each (dies s) startDie s
     let t := each (dies t) (fun d u => startLink u d) t
     pulseWork t (pulseCount t))

/-- PULSE_HALT (R28, R231): with RUN 0 no Pulse follows the last commit window; what waits for a later count ends. -/
def execPulseHalt (s : State) : Out :=
  whenDue s (running s && s.phase = .commit && !bitF s (Reg.PULSE_CTL 0) F.PULSE_CTL_RUN)
    (powerSyncAll (elect { stopWaiting s with phase := .stopped }) none)

/-- SYNTH_LOCK_LOSS (R30): the synthesizer of a die loses lock; its frequency is held and the Pulse continues. -/
def execSynthLockLoss (d : Nat) (s : State) : Out :=
  onUnit (d < dieCount s.part) <|
    let a := Reg.PULSE_STAT d
    whenDue s (bitF s a F.PULSE_STAT_LOCK) (setFld (setFld s a F.PULSE_STAT_LOCK 0) a F.PULSE_STAT_LOCKLOSS 1)

/-- SYNTH_RELOCK (R28, R30): the synthesizer of a die locks to its reference. -/
def execSynthRelock (d : Nat) (s : State) : Out :=
  onUnit (d < dieCount s.part) <|
    let a := Reg.PULSE_STAT d
    whenDue s (running s && !bitF s a F.PULSE_STAT_LOCK) (setFld s a F.PULSE_STAT_LOCK 1)

/-! ### Register writes of the PULSE page -/

/-- A write to PULSE_CTL of die 0 (R28). -/
def pulseCtlWrite (s : State) (v : Word) : State := setFld s (Reg.PULSE_CTL 0) F.PULSE_CTL_RUN (wGet v F.PULSE_CTL_RUN)

/-- A write to PULSE_CFG of die 0 (R26, R27): the rate in effect and its budget follow. -/
def pulseCfgWrite (s : State) (v : Word) : State :=
  let r := wGet v F.PULSE_CFG_RATE
  if pulseRuns s || 6 ≤ r then setFld s (Reg.PULSE_STAT 0) F.PULSE_STAT_CFGREJ 1
  else setFld (setFld s (Reg.PULSE_CFG 0) F.PULSE_CFG_RATE r) (Reg.PULSE_STAT 0) F.PULSE_STAT_RATE r

/-- A write to a word of PULSE_COUNT of die 0 (R27). -/
def pulseCountWrite (s : State) (hi : Bool) (v : Word) : State :=
  if pulseRuns s then setFld s (Reg.PULSE_STAT 0) F.PULSE_STAT_CFGREJ 1
  else setReg s (if hi then Reg.PULSE_COUNT_HI 0 else Reg.PULSE_COUNT_LO 0) v

/-- PULSE_STAT of a die: RATE and RUNNING are those of the package. -/
def pulseStat (s : State) (d : Nat) : Word :=
  let w := reg s (Reg.PULSE_STAT d)
  let lock := if d = 0 then pulseLock s else bitF s (Reg.PULSE_STAT d) F.PULSE_STAT_LOCK
  wSet (wSet (wSet w F.PULSE_STAT_RATE (rateCode s)) F.PULSE_STAT_RUNNING (pulseRuns s).toNat) F.PULSE_STAT_LOCK lock.toNat

end Sys2Proof.Machine
end

