-- ==== Sys2Proof/Machine/Kernel.lean ====
section
/-! DEFINITION. A kernel from the bus: its window (R64–R66), its control and status registers (R80), its bank modes (R40) and
Hoard ownership (R173), and its pod's Hoard window (R171, R177). -/
namespace Sys2Proof.Machine

/-- What an access answers, with the state it leaves: the KIND of an error that BUS_ERR records is in the response. -/
abbrev Ans := State × Resp

/-- A successful read of a word. -/
def okW (s : State) (w : Word) : Ans := (s, .ok (w.setWidth 64))
/-- A successful write. -/
def done (s : State) : Ans := (s, .ok 0)
/-- A write that the block refuses: ignored, with an error response that BUS_ERR does not record. -/
def refuse (s : State) : Ans := (s, .err none)
/-- An error response of a KIND. -/
def errK (s : State) (k : Nat) : Ans := (s, .err (some k))
/-- A write taken or refused. -/
def takeOr (x : State × Bool) : Ans := if x.2 then done x.1 else refuse x.1

/-! ### Status and control -/

/-- The state code of a kernel (R79). -/
def kstateCode (st : KState) : Nat :=
  match st with
  | .off => 0
  | .run => 1
  | .held => 2
  | .stopped => 3
  | .parked => 4
  | .test => 5
  | .shadow => 6
  | .standby => 7
  | .retired => 8
  | .faulted => 9

/-- KERNEL_STAT. -/
def kernelStat (s : State) (d k : Nat) : Word :=
  let kn := kern s d k
  BitVec.ofNat 32 (kstateCode kn.st * 2 ^ 28 + kn.fcode * 2 ^ 24
    + fld s (Reg.KERNEL_STAT d k) F.KERNEL_STAT_CTLREJ * 2 ^ 9 + fld s (Reg.KERNEL_STAT d k) F.KERNEL_STAT_FAULT * 2 ^ 8
    + kn.ybank.toNat * 8 + kn.pbank.toNat * 4 + kn.ovrPrev.toNat * 2 + fld s (Reg.KERNEL_STAT d k) F.KERNEL_STAT_OVR)

/-- What KERNEL_CTL.STOP and FREE read (R80). -/
def ctlStop (kn : Kern) : Bool := kn.st = .stopped || kn.st = .test || kn.stop
def ctlFree (kn : Kern) : Bool := kn.st = .test

/-- KERNEL_CTL. -/
def kernelCtl (s : State) (d k : Nat) : Word :=
  BitVec.ofNat 32 ((ctlFree (kern s d k)).toNat * 2 + (ctlStop (kern s d k)).toNat)

/-- A write to KERNEL_CTL (R80). -/
def kernelCtlWrite (s : State) (d k : Nat) (v : Word) : State :=
  let kn := kern s d k
  let cs := v.getLsbD 0 != ctlStop kn
  let cf := v.getLsbD 1 != ctlFree kn
  let rej := setFld s (Reg.KERNEL_STAT d k) F.KERNEL_STAT_CTLREJ 1
  let put (x : Kern) : State := powerSync (setKern s d k x) d
  match cs, cf with
  | false, false => s
  | true, true => rej
  | true, false =>
    if kn.stop then put { kn with stop := false }
    else match kn.st with
      | .run | .held => put { kn with stop := true }
      | .stopped => put { kn with rejoin := true, enter := false, spoilt := false }
      | _ => rej
  | false, true =>
    match kn.st with
    | .stopped => put (enterTest kn)
    | .test => put (leaveTest kn)
    | _ => rej

/-- A write to KERNEL_BANKMODE (R40, R75): a change of a bank's field withdraws that bank's admission; one that changes
the active bank's field of a kernel in RUN, SHADOW, STANDBY or PARKED is refused. -/
def bankModeWrite (s : State) (d k : Nat) (v : Word) : Ans :=
  let a := Reg.KERNEL_BANKMODE d k
  let kn := kern s d k
  let moved (bankB : Bool) : Bool := (reg s a).getLsbD bankB.toNat != v.getLsbD bankB.toNat
  let t := setReg s a (v &&& 3)
  if (kn.st = .run || kn.st = .shadow || kn.st = .standby || kn.st = .parked) && moved kn.pbank then refuse s
  else done (each ([false, true].filter moved) (fun b u => withdrawBy u d k b) t)

/-- A write to POD_HOWN of slot `i` of pod `p` (R173). -/
def hownWrite (s : State) (d p i : Nat) (v : Word) : Ans :=
  let a := Reg.POD_HOWN d p i
  let k := p * 18 + i
  let kn := kern s d k
  let part (w : Word) (bankB : Bool) : Nat := if bankB then wField w 31 16 else wField w 15 0
  let busy := kn.st = .run || kn.st = .shadow || kn.st = .standby
  if busy && part (reg s a) kn.pbank ≠ part v kn.pbank then refuse s
  else
    let moved (bankB : Bool) : Bool := part (reg s a) bankB ≠ part v bankB
    done (each ([false, true].filter moved) (fun b u => withdrawBy u d k b) (setReg s a v))

/-- A write to KERNEL_ECC or POD_ECC: CLR sets the record to 0. -/
def eccClear (s : State) (a : Nat) (bit : Nat) (v : Word) : State := if v.getLsbD bit then setReg s a 0 else s

/-! ### The register image -/

/-- Whether the image shows the registers as they stand and takes writes (R66). -/
def imageOpen (st : KState) : Bool := st = .stopped || st = .held || st = .faulted || st = .retired

/-- A word of the register image (R66); offsets that name no register read 0. -/
def imageWord (r : Regs) (o : Nat) : Word :=
  let accPart (n w : Nat) : Word :=
    match w with
    | 0 => BitVec.ofNat 32 (accOf r n).toNat
    | 1 => BitVec.ofNat 32 ((accOf r n).toNat / 2 ^ 32)
    | 2 => BitVec.ofInt 32 (toSigned ((accOf r n).toNat / 2 ^ 64) 8)
    | _ => 0
  if o < 0x40 then rf r.d (o / 4)
  else if o < 0x80 then accPart ((o - 0x40) / 16) (o / 4 % 4)
  else if o < 0x90 then rf r.e ((o - 0x80) / 4)
  else if 0x100 ≤ o && o < 0x200 then
    let n := (o - 0x100) / 16
    match o / 4 % 4 with
    | 0 => rf r.p n
    | 1 => rf r.b n
    | 2 => rf r.l n
    | _ => BitVec.ofInt 32 (toSigned (rf r.m n).toNat 18)
  else if o = 0x200 then r.rpc
  else if 0x204 ≤ o && o < 0x228 then
    let j := (o - 0x204) / 12
    match (o - 0x204) % 12 / 4 with
    | 0 => rf r.ls j
    | 1 => rf r.le j
    | _ => rf r.lc j
  else if o = 0x230 then r.ix
  else if o = 0x234 then BitVec.ofNat 32 r.flg.toNat
  else if o = 0x238 then BitVec.ofNat 32 r.kmode.toNat
  else if o = 0x23C then BitVec.ofNat 32 (r.pc % 4096)
  else 0

/-- An accumulator with one of its image words written. -/
def accWrite (x : Acc) (w : Nat) (v : Word) : Acc :=
  let n := x.toNat
  match w with
  | 0 => BitVec.ofNat 72 (n / 2 ^ 32 * 2 ^ 32 + v.toNat)
  | 1 => BitVec.ofNat 72 (n / 2 ^ 64 * 2 ^ 64 + v.toNat * 2 ^ 32 + n % 2 ^ 32)
  | 2 => BitVec.ofNat 72 (v.toNat % 256 * 2 ^ 64 + n % 2 ^ 64)
  | _ => x

/-- The registers after a write of a word of the image (R66): each keeps the low bits that it holds. -/
def imageWrite (r : Regs) (o : Nat) (v : Word) : Regs :=
  let low (bits : Nat) : Word := lowBits v bits
  if o < 0x40 then { r with d := rfSet r.d (o / 4) v }
  else if o < 0x80 then setAcc r ((o - 0x40) / 16) (accWrite (accOf r ((o - 0x40) / 16)) (o / 4 % 4) v)
  else if o < 0x90 then { r with e := rfSet r.e ((o - 0x80) / 4) v }
  else if 0x100 ≤ o && o < 0x200 then
    let n := (o - 0x100) / 16
    match o / 4 % 4 with
    | 0 => { r with p := rfSet r.p n (low 18) }
    | 1 => { r with b := rfSet r.b n (low 18) }
    | 2 => { r with l := rfSet r.l n (low 18) }
    | _ => { r with m := rfSet r.m n (low 18) }
  else if o = 0x200 then { r with rpc := clampCount v }
  else if 0x204 ≤ o && o < 0x228 then
    let j := (o - 0x204) / 12
    match (o - 0x204) % 12 / 4 with
    | 0 => { r with ls := rfSet r.ls j (low 12) }
    | 1 => { r with le := rfSet r.le j (low 12) }
    | _ => { r with lc := rfSet r.lc j (clampCount v) }
  else if o = 0x230 then { r with ix := v }
  else if o = 0x234 then { r with flg := v.setWidth 7 }
  else if o = 0x238 then { r with kmode := v.setWidth 3 }
  else if o = 0x23C then { r with pc := v.toNat % 4096 }
  else r

/-! ### The window -/

/-- A bit of a kernel's bit space as a bus read sees it (R77). -/
def bitSpace (capt : BitVec 128) (kn : Kern) (b : Nat) : Bool :=
  if b < 0x10 || (0x20 ≤ b && b < 0x80) then capt.getLsbD b
  else if b < 0x17 then kn.core.r.flg.getLsbD (b - 0x10)
  else if b < 0x100 then false
  else (alGet b kn.core.bits).getD false

/-- A word of the bit space. -/
def bitWord (s : State) (d k w : Nat) : Word :=
  BitVec.ofNat 32 (bitsToNat ((List.range 32).map fun i => bitSpace (captOf s d k) (kern s d k) (32 * w + i)))

/-- The program bits with a word written (R64): bits below 0x100 ignore it. -/
def bitWordWrite (kn : Kern) (w : Nat) (v : Word) : Kern :=
  if w < 8 then kn
  else
    { kn with core := { kn.core with
      bits := (List.range 32).foldl (fun m i => smSet (fun _ => false) (32 * w + i) (v.getLsbD i) m) kn.core.bits } }

/-- Where a window offset lies (R64). -/
inductive WinPart where
  | prog (bankB : Bool)
  | xy
  | bits
  | image
  | none_
deriving DecidableEq, Repr

/-- The part of a window that holds an offset. -/
def winPart (off : Nat) : WinPart :=
  if off < 0x8000 then .prog false
  else if off < 0x1_0000 then .prog true
  else if off < 0x1_C000 then .xy
  else if off < 0x1_C200 then .bits
  else if 0x1_E000 ≤ off && off < 0x1_E240 then .image
  else .none_

/-- A 32-bit word of a window; `none` where its ECC fails (R63). The image of a PARKED kernel is that of
its last END: it keeps KMODE.HOARD as it was there, though a swap of its program bank may have changed the retained one since (DESIGN
CHOICE, assumption log 100), and a kernel that parks at the Pulse of its entry into RUN, with no END since, shows the image of its last
stop (DESIGN CHOICE, assumption log 99: R66 names the retained value too). -/
def winWord (s : State) (d k off : Nat) : State × Option Word :=
  let kn := kern s d k
  let a := kernWin d k + off
  let mem (key : Nat) : State × Option Word :=
    match eccAt s key with
    | .clean => (s, some (loadW s a))
    | .single => let (m, b, w) := winPlace off; (kernelCorrected s d k m b w key, some (loadW s a))
    | .double => (s, none)
  match winPart off with
  | .prog _ => mem (kernWin d k + off / 8 * 8)
  | .xy => mem a
  | .bits => (s, some (bitWord s d k ((off - 0x1_C000) / 4)))
  | .image => (s, some (imageWord (if imageOpen kn.st then kn.core.r else kn.core.img) (off - 0x1_E000)))
  | .none_ => (s, none)

/-- A read of a window (R64): `width` is 4 or 8 bytes. A reserved range accessed with a wrong width or alignment answers with KIND 1
(DESIGN CHOICE, assumption log 121: R64 does not order KIND 0 and 1). -/
def winRead (s : State) (d k off width : Nat) : Ans :=
  if !domOn s d (pdPod (k / 18)) then errK s 0
  else if !(width = 4 || width = 8) || off % width ≠ 0 then errK s 1
  else if winPart off = .none_ then errK s 0
  else match winWord s d k off with
    | (t, none) => errK t 3
    | (t, some lo) =>
      if width = 4 then okW t lo
      else match winWord t d k (off + 4) with
        | (u, none) => errK u 3
        | (u, some hi) => (u, .ok (BitVec.ofNat 64 (lo.toNat + 2 ^ 32 * hi.toNat)))

/-- A word written into a kernel's memory, with fresh ECC, and into the spares that carry the kernel (R434). A 32-bit write of
one half of a 64-bit program word gives the whole word fresh ECC, an uncorrectable one too (DESIGN CHOICE, assumption log
76: R63 speaks of words only). -/
def storeKernel (s : State) (d k off key : Nat) (v : Word) : State :=
  each (k :: sparesOf s d k ++ copiesOf s d k) (fun j t => setEcc (storeW t (kernWin d j + off) v) (kernWin d j + key) .clean) s

/-- One 32-bit word of a window written; the access has been found permitted. -/
def winStore (s : State) (d k off : Nat) (v : Word) : State :=
  let kn := kern s d k
  match winPart off with
  | .prog _ => storeKernel s d k off (off / 8 * 8) v
  | .xy => storeKernel s d k off off v
  | .bits =>
    each (k :: sparesOf s d k) (fun j t => setKern t d j (bitWordWrite (kern t d j) ((off - 0x1_C000) / 4) v)) s
  | .image => setKern s d k { kn with core := { kn.core with r := imageWrite kn.core.r (off - 0x1_E000) v } }
  | .none_ => s

/-- Whether a window takes a write at an offset (R65, R66). -/
def winOpen (kn : Kern) (off : Nat) : Bool :=
  match winPart off with
  | .prog b => !(b = kn.pbank && (kn.st = .run || kn.st = .shadow || kn.st = .standby || kn.st = .parked))
  | .image => imageOpen kn.st
  | _ => true

/-- A write to a window (R64–R66); a write to an admitted bank withdraws its admission (R40). -/
def winWrite (s : State) (d k off width v : Nat) : Ans :=
  let kn := kern s d k
  if !domOn s d (pdPod (k / 18)) then errK s 0
  else if !(width = 4 || width = 8) || off % width ≠ 0 then errK s 1
  else if winPart off = .none_ then errK s 0
  else if !winOpen kn off then refuse s
  else
    let t := winStore s d k off (BitVec.ofNat 32 v)
    let t := if width = 4 then t else winStore t d k (off + 4) (BitVec.ofNat 32 (v / 2 ^ 32))
    done (match winPart off with | .prog b => withdrawBy t d k b | _ => t)

/-! ### The Hoard window -/

/-- A word of a Hoard as the bus reads it (R177). -/
def hoardBusWord (s : State) (d p w : Nat) : State × Option Word :=
  match eccAt s (hoardA d p w) with
  | .clean => (s, some (loadW s (hoardA d p w)))
  | .single => (hoardCorrected s d p w, some (loadW s (hoardA d p w)))
  | .double => (hoardUncorrectable s d p w, none)

/-- A read of a pod's Hoard window (R171). -/
def hoardRead (s : State) (d p off width : Nat) : Ans :=
  if !domOn s d (pdPod p) then errK s 0
  else if !(width = 4 || width = 8) || off % width ≠ 0 then errK s 1
  else match hoardBusWord s d p (off / 4) with
    | (t, none) => errK t 3
    | (t, some lo) =>
      if width = 4 then okW t lo
      else match hoardBusWord t d p (off / 4 + 1) with
        | (u, none) => errK u 3
        | (u, some hi) => (u, .ok (BitVec.ofNat 64 (lo.toNat + 2 ^ 32 * hi.toNat)))

/-- A write to a pod's Hoard window (R171, R177). -/
def hoardWrite (s : State) (d p off width v : Nat) : Ans :=
  if !domOn s d (pdPod p) then errK s 0
  else if !(width = 4 || width = 8) || off % width ≠ 0 then errK s 1
  else
    let one (t : State) (w : Nat) (x : Nat) : State :=
      setEcc (storeW t (hoardA d p w) (BitVec.ofNat 32 x)) (hoardA d p w) .clean
    let t := one s (off / 4) v
    done (if width = 4 then t else one t (off / 4 + 1) (v / 2 ^ 32))

end Sys2Proof.Machine
end

