-- ==== Sys2Proof/Machine/Csp.lean ====
section
/-! DEFINITION. The clocked serial port as a controller (R448–R456): descriptors, the queue, entries, contested selects, and
the writes to its registers (R457). -/
namespace Sys2Proof.Machine

/-- The bus identity of the port (R355). -/
def cspAccess (d : Nat) : Access := ⟨3, d⟩

/-- A field of a descriptor's word. -/
def cspField (e : List Word) (w hi lo : Nat) : Nat := wField (e.getD w 0) hi lo

/-- The phases of a descriptor: bit count and lanes of command, address, dummy and data. -/
def cspPhases (e : List Word) : List (Nat × Nat) :=
  [(cspField e 1 29 16, 2 ^ cspField e 0 27 26), (cspField e 1 13 0, 2 ^ cspField e 0 25 24),
   (cspField e 2 29 16, 2 ^ cspField e 0 23 22), (cspField e 2 13 0, 2 ^ cspField e 0 21 20)]

/-- CONT, SEL, RX, WLEN and IRQ. -/
def cspCont (e : List Word) : Bool := cspField e 0 31 31 = 1
def cspSel (e : List Word) : Nat := cspField e 0 30 29
def cspRx (e : List Word) : Bool := cspField e 0 28 28 = 1
def cspWlen (e : List Word) : Nat := cspField e 0 19 12
def cspIrq (e : List Word) : Bool := cspField e 0 0 0 = 1

/-- The bits of an entry: all phases. -/
def cspTotal (e : List Word) : Nat := natSum ((cspPhases e).map (·.1))

/-- The bits that an entry sends (R450). -/
def cspTxBits (e : List Word) : Nat :=
  cspField e 1 29 16 + cspField e 1 13 0 + (if cspRx e then 0 else cspField e 2 13 0)

/-- The bits that an entry receives. -/
def cspRxBits (e : List Word) : Nat := if cspRx e then cspField e 2 13 0 else 0

/-- TXADDR and RXADDR, die-local. -/
def cspTxAddr (e : List Word) : Nat := (e.getD 3 0).toNat + 2 ^ 32 * cspField e 5 3 0
def cspRxAddr (e : List Word) : Nat := (e.getD 4 0).toNat + 2 ^ 32 * cspField e 5 7 4

/-- Bytes that hold a number of bits. -/
def bitBytes (n : Nat) : Nat := (n + 7) / 8

/-- Whether `n` bytes lie in the working memory or the installed LPDDR4X of a die (R451). -/
def cspBuffer (s : State) (d a n : Nat) : Bool :=
  n = 0 || decide (a + n ≤ 0x40_0000) || (decide (0x8_0000_0000 ≤ a) && decide (a + n ≤ 0x8_0000_0000 + ddrBytes s d))

/-- Whether a descriptor's reserved bits are 0. -/
def cspReserved (e : List Word) : Bool :=
  cspField e 0 11 1 = 0 && cspField e 1 31 30 = 0 && cspField e 1 15 14 = 0 && cspField e 2 31 30 = 0
    && cspField e 2 15 14 = 0 && cspField e 5 31 8 = 0

/-- Whether every word boundary of an entry falls on a clock boundary of its phase (R452): phases from bit `at_` on. -/
def cspWordsFit (w : Nat) : Nat → List (Nat × Nat) → Bool
  | _, [] => true
  | at_, (n, lanes) :: ps =>
    ((List.range (n + 1)).all fun i => (at_ + i) % w ≠ 0 || i % lanes = 0) && cspWordsFit w (at_ + n) ps

/-- The refusal code of a descriptor, if any (R454). -/
def cspRefuse (s : State) (d : Nat) (e : List Word) : Option Nat :=
  let ps := cspPhases e
  let w := cspWlen e
  if (ps.any fun p => decide (8192 < p.1)) || !cspReserved e then some 1
  else if ps.any fun p => p.1 % p.2 ≠ 0 then some 2
  else if cspTotal e = 0 then some 3
  else if !cspCont e && w ≠ 0 && (cspTotal e % w ≠ 0 || !cspWordsFit w 0 ps) then some 4
  else if cspCont e && w ≠ 0 then some 5
  else if !cspBuffer s d (cspTxAddr e) (bitBytes (cspTxBits e)) || !cspBuffer s d (cspRxAddr e) (bitBytes (cspRxBits e)) then
    some 6
  else if 16 ≤ (csp s d).queue.length then some 7
  else if bitF s (Reg.CSP_CFG d) F.CSP_CFG_ROLE then some 8
  else none

/-- The key of a word that a master has staged. -/
def cspKey (a : Access) (n : Nat) : Nat := (a.master * 8 + a.odie) * 8 + n

/-- A write to CSP_D1–CSP_D5 (R454). -/
def cspStage (s : State) (d : Nat) (a : Access) (n : Nat) (v : Word) : State := setTab s tCsp d (cspKey a n) v

/-- A write to CSP_D0 (R454): the entry of that word and the master's staged words, checked and queued; the staging is
cleared. -/
def cspPush (s : State) (d : Nat) (a : Access) (v : Word) : State :=
  let e := v :: (List.range 5).map fun i => tab s tCsp d (cspKey a (i + 1))
  let t := each (List.range 5) (fun i u => setTab u tCsp d (cspKey a (i + 1)) 0) s
  match cspRefuse s d e with
  | some q => setFld (setFld t (Reg.CSP_STAT d) F.CSP_STAT_QREJ 1) (Reg.CSP_STAT d) F.CSP_STAT_QERR q
  | none => setCsp t d { csp t d with queue := (csp t d).queue ++ [e] }

/-- CSP_STAT.STATE. -/
def cspState (s : State) (d : Nat) : Nat :=
  let x := csp s d
  if bitF s (Reg.CSP_STAT d) F.CSP_STAT_MODF then 3
  else if bitF s (Reg.CSP_CFG d) F.CSP_CFG_ROLE then (if x.tgt.isSome then 5 else 4)
  else if x.busy.isSome then 1
  else if x.held.isSome then 2 else 0

/-- CSP_STAT. -/
def cspStat (s : State) (d : Nat) : Word :=
  wSet (wSet (reg s (Reg.CSP_STAT d)) F.CSP_STAT_STATE (cspState s d)) F.CSP_STAT_QCOUNT (csp s d).queue.length

/-- CSP_LAST written. -/
def cspLast (s : State) (d bits : Nat) (abort : Bool) : State :=
  setReg s (Reg.CSP_LAST d) (BitVec.ofNat 32 (abort.toNat * 2 ^ 31 + bits))

/-- The lanes of the data phase. -/
def cspDataLanes (e : List Word) : Nat := 2 ^ cspField e 0 21 20

/-- The bits received in a clock period of the data phase whose lanes IO0 to IO7 are at the levels `io` (R448): on IO1 with one lane,
otherwise the earliest on the highest lane and the latest on IO0. -/
def cspPeriodBits (lanes : Nat) (io : List Bool) : List Bool :=
  if lanes = 1 then [io.getD 1 false] else (List.range lanes).map fun i => io.getD (lanes - 1 - i) false

/-- A byte of bits, the first most significant; those that are not there are 0. -/
def byteOf (bits : List Bool) : Byte :=
  BitVec.ofNat 8 (natSum ((List.range 8).map fun i => (bits.getD i false).toNat * 2 ^ (7 - i)))

/-- The first `bits` bits received, written to an entry's buffer in the order of the transmit stream, a last partial byte padded with
0 (R450); `rx` are the levels of the lanes in each clock period of the data phase. -/
def cspStore (s : State) (d : Nat) (e : List Word) (bits : Nat) (rx : List (List Bool)) : State :=
  if bits = 0 then s
  else
    let got := (rx.flatMap (cspPeriodBits (cspDataLanes e))).take bits
    dmaWrite s d (cspRxAddr e) ((List.range (bitBytes bits)).map fun i => byteOf (got.drop (8 * i))) (cspAccess d)

/-- The clock periods of an entry. -/
def cspClocks (e : List Word) : Nat := natSum ((cspPhases e).map fun p => p.1 / p.2)

/-- Where clock period `k` of an entry lies, of phases `ph` on: its phase, the lanes of the phase, and the period's first bit in
it. -/
def cspPlace : List (Nat × Nat) → Nat → Nat → Option (Nat × Nat × Nat)
  | [], _, _ => none
  | (n, l) :: ps, ph, k => if k < n / l then some (ph, l, k * l) else cspPlace ps (ph + 1) (k - n / l)

/-- The bits that an entry has moved after `k` of its clock periods (R455). -/
def cspMoved : List (Nat × Nat) → Nat → Nat
  | [], _ => 0
  | (n, l) :: ps, k => if k < n / l then k * l else n + cspMoved ps (k - n / l)

/-- The bits moved at the last clock boundary at which they are at most `m`. -/
def cspBoundary : List (Nat × Nat) → Nat → Nat
  | [], _ => 0
  | (n, l) :: ps, m => if m < n then m / l * l else n + cspBoundary ps (m - n)

/-- The entry in progress stopped at the clock boundary that `moved` of its bits have reached; `rx` are the levels of its lanes in
the data phase (R455, R456). -/
def cspCut (s : State) (d moved : Nat) (rx : List (List Bool)) : State :=
  let x := csp s d
  let t := match x.busy with
    | some e =>
      let m := cspBoundary (cspPhases e) (min moved (cspTotal e))
      cspLast (cspStore s d e (m - (cspTotal e - cspRxBits e)) rx) d m true
    | none => s
  setCsp t d { x with busy := none, held := none }

/-- The clock periods in which an entry receives. -/
def cspRxClocks (e : List Word) : Nat := cspRxBits e / cspDataLanes e

/-- Free levels of the eight lanes in `n` clock periods (assumption log 3). -/
def freeLanes (s : State) (n : Nat) : State × List (List Bool) :=
  ({ s with fresh := s.fresh + 8 * n },
    (List.range n).map fun k => (List.range 8).map fun i => Config.freeBool (s.fresh + 8 * k + i))

/-- ABORT (R455): the clock periods gone by then, and the bits received, are not stated. -/
def cspAbort (s : State) (d : Nat) : State :=
  let t : State := { s with fresh := s.fresh + 1 }
  let u := match (csp s d).busy with
    | some e =>
      let (u, bs) := freeLanes t (cspRxClocks e)
      cspCut u d (cspMoved (cspPhases e) (Config.freeNat s.fresh % (cspClocks e + 1))) bs
    | none => cspLast (setCsp s d { csp s d with held := none }) d 0 true
  setCsp u d { csp u d with queue := [] }

/-- A write to CSP_CTL (R452, R455, R456). -/
def cspCtlWrite (s : State) (d : Nat) (v : Word) : State :=
  let t := if v.getLsbD 1 then cspAbort s d else s
  if bitF t (Reg.CSP_STAT d) F.CSP_STAT_MODF then setFld t (Reg.CSP_STAT d) F.CSP_STAT_CFGREJ 1
  else
    let en := v.getLsbD 0
    let u := setFld t (Reg.CSP_CTL d) F.CSP_CTL_EN en.toNat
    if en then u else setCsp u d { csp u d with held := none }

/-- A write to CSP_CFG (R457): taken while EN is 0 and the queue is empty; ROLE 1 only on die 0. -/
def cspCfgWrite (s : State) (d : Nat) (v : Word) : State :=
  if bitF s (Reg.CSP_CTL d) F.CSP_CTL_EN || !(csp s d).queue.isEmpty || (v.getLsbD 0 && d ≠ 0) then
    setFld s (Reg.CSP_STAT d) F.CSP_STAT_CFGREJ 1
  else
    let t := setReg s (Reg.CSP_CFG d) (v &&& 3)
    if v.getLsbD 0 then t else setCsp t d { csp t d with tgt := none }

/-- Whether the port of a die works: the die is out of reset and PD_STEW is ON. -/
def cspOn (s : State) (d : Nat) : Bool := running s && domLive s d pdStew

/-- The bits of a transmit stream: bytes in ascending order, most significant bit first. -/
def cspStream (bs : List Byte) (n : Nat) : List Bool :=
  (bs.flatMap fun b => (List.range 8).map fun i => b.getLsbD (7 - i)).take n

/-- How often the select goes active for an entry (R452); one that goes on with a held select finds it active. -/
def cspPulses (e : List Word) (joined : Bool) : Nat :=
  (if cspCont e || cspWlen e = 0 then 1 else cspTotal e / cspWlen e) - joined.toNat

/-- Whether an entry's buffers can be reached now: LPDDR4X waits for the critical window's end, and CLK with it (R451). -/
def cspOpen (s : State) (d a n : Nat) : Bool := n = 0 || dmaOpen s d a

/-- CSP_ENTRY_START (R450–R453): the next queued entry starts with the select configuration as it stands; the transmit
stream is read. With its own select held it goes on without a gap; a held select of another number is released first, for
GAP periods. -/
def execCspEntryStart (d : Nat) (s : State) : Out :=
  onUnit (d < dieCount s.part) <|
    let x := csp s d
    match x.queue with
    | [] => .next s
    | e :: rest =>
      let n := bitBytes (cspTxBits e)
      whenDue s (cspOn s d && bitF s (Reg.CSP_CTL d) F.CSP_CTL_EN && x.busy.isNone
          && !bitF s (Reg.CSP_STAT d) F.CSP_STAT_MODF && !bitF s (Reg.CSP_CFG d) F.CSP_CFG_ROLE
          && cspOpen s d (cspTxAddr e) n) <|
        let r := if n = 0 then (s, []) else dmaRead s d (cspTxAddr e) n (cspAccess d)
        let joined := x.held = some (cspSel e)
        setCsp r.1 d { x with
          queue := rest, busy := some e, scfg := reg s (Reg.CSP_SCFG d (cspSel e)), joined := joined, held := none
          pulses := cspPulses e joined
          out := cspStream r.2 (cspTxBits e) }

/-- CSP_ENTRY_DONE (R452, R455): the entry in progress completes, with the levels of its lanes in each clock period of the data
phase, which are open where its pads are held (R420); with CONT its select stays active unless EN has been written 0. -/
def execCspEntryDone (d : Nat) (rx : List (List Bool)) (s : State) : Out :=
  onUnit (d < dieCount s.part) <|
    let x := csp s d
    match x.busy with
    | none => .next s
    | some e =>
      whenDue s (cspOn s d && cspOpen s d (cspRxAddr e) (bitBytes (cspRxBits e))) <|
        let keep := cspCont e && bitF s (Reg.CSP_CTL d) F.CSP_CTL_EN
        let (s, rx) := if padHeld s d pdStew then freeLanes s (cspRxClocks e) else (s, rx)
        let t := setCsp (cspStore s d e (cspRxBits e) rx) d
          { x with busy := none, held := if keep then some (cspSel e) else none }
        let t := incReg (cspLast t d (cspTotal e) false) (Reg.CSP_DONECNT d)
        if cspIrq e then setFld t (Reg.CSP_STAT d) F.CSP_STAT_DONE 1 else t

/-- CSP_MODF (R456): a select that the port is not pulling reads low for 20 ns; `moved` bits of the entry in progress have
moved and `rx` are the levels of its lanes in the data phase. -/
def execCspModf (d moved : Nat) (rx : List (List Bool)) (s : State) : Out :=
  onUnit (d < dieCount s.part) <| fromPads s d pdStew <|
    let x := csp s d
    whenDue s (cspOn s d && bitF s (Reg.CSP_CFG d) F.CSP_CFG_MMEN && !bitF s (Reg.CSP_CFG d) F.CSP_CFG_ROLE
        && (x.busy.isSome || x.held.isSome)) <|
      setFld (setFld (cspCut s d moved rx) (Reg.CSP_CTL d) F.CSP_CTL_EN 0) (Reg.CSP_STAT d) F.CSP_STAT_MODF 1

end Sys2Proof.Machine
end

