-- ==== Sys2Proof/Machine/Pins.lean ====
section
/-! DEFINITION. What the pads of a die and the other signals of the package carry (R44, R397, R448, R450, R456, R457, R466), and the
pads that a domain holds (R420). -/
namespace Sys2Proof.Machine

/-! ### The clocked serial port -/

/-- A moment of a clocked serial port: clock period `k` of the entry in progress, or of the target word in hand, which came `late` or
in time; CLK idle with the select as it stands; CLK idle between two words of an entry. -/
inductive CspAt where
  | clock (k : Nat) (late : Bool)
  | rest
  | gap
deriving DecidableEq, Repr

/-- Whether the port has let go of its pads (R456). -/
def cspReleased (s : State) (d : Nat) : Bool := bitF s (Reg.CSP_STAT d) F.CSP_STAT_MODF

/-- Whether the port is a target (R457). -/
def cspTargets (s : State) (d : Nat) : Bool := bitF s (Reg.CSP_CFG d) F.CSP_CFG_ROLE

/-- CLK (R449, R453, R457): 2,000 MHz ÷ DIV while a clock period runs, at its idle level CPOL otherwise, that of the select used
last. -/
def cspClkPin (s : State) (d : Nat) (t : CspAt) : Pin :=
  let x := csp s d
  let rest : Pin := .level (x.scfg.getLsbD 19)
  if cspReleased s d then .highZ
  else if cspTargets s d then .input
  else match t, x.busy with
    | .clock k _, some e => if k < cspClocks e then .clock 2000000000 (max 10 (wField x.scfg 31 20)) else rest
    | _, _ => rest

/-- Lane `n` of an entry in its clock period `k` (R448, R450): one lane sends on IO0 and receives on IO1; of more, the earliest bit
of the period is on the highest lane. A lane that the phase does not use, and every lane of the dummy phase, is high
impedance. -/
def cspLane (x : Csp) (e : List Word) (k n : Nat) : Pin :=
  match cspPlace (cspPhases e) 0 k with
  | none => .highZ
  | some (ph, l, i) =>
    let sent := (if ph = 0 then 0 else cspField e 1 29 16) + (if ph = 3 then cspField e 1 13 0 else 0) + i
    if ph = 2 then .highZ
    else if ph = 3 && cspRx e then (if (if l = 1 then n = 1 else n < l : Bool) then .input else .highZ)
    else if n < l then .level (x.out.getD (sent + (l - 1 - n)) false)
    else .highZ

/-- IO`n` of the port (R448, R450, R456–R458): as a target it takes IO0 and sends the word in hand on IO1, 0xFF in every byte of one
that is late. -/
def cspIoPin (s : State) (d n : Nat) (t : CspAt) : Pin :=
  let x := csp s d
  if cspReleased s d then .highZ
  else if cspTargets s d then
    (if n = 0 then .input
     else match x.tgt, t with
      | some (.xfer true _ width _ word _), .clock k late =>
        if n = 1 then .level (late || word.testBit (8 * width - 1 - k)) else .highZ
      | _, _ => .highZ)
  else match x.busy, t with
    | some e, .clock k _ => cspLane x e k n
    | _, _ => .highZ

/-- Whether the select is inactive between words of an entry (R452): framing by words, of which there is more than one. -/
def cspGaps (e : List Word) : Bool := !cspCont e && cspWlen e ≠ 0 && cspWlen e < cspTotal e

/-- SEL`n`_N of the port (R448, R452, R456): low while it is active; with MMEN released otherwise, and without it driven high. The
host drives SEL3_N of a target. -/
def cspSelPin (s : State) (d n : Nat) (t : CspAt) : Pin :=
  let x := csp s d
  let off : Pin := if bitF s (Reg.CSP_CFG d) F.CSP_CFG_MMEN then .highZ else .level true
  let active : Bool := match x.busy with
    | some e => cspSel e = n && !(t = .gap && cspGaps e)
    | none => x.held = some n
  if cspReleased s d then .highZ
  else if cspTargets s d then (if n = 3 then .input else off)
  else if active then .level false else off

/-! ### The other signals -/

/-- A signal of a die or of the package that no domain holds (R466): bit `b` of the die's VID, the Keep and control signals, and those
of the debug port; the crystal's two pins. -/
inductive Signal where
  | vid (b : Nat)
  | wake (n : Nat)
  | resetN | supplyEn | supplyPg | faultN | statusN | recovN | start
  | tck | tms | tdi | tdo | trstN
  | refXi | refXo
deriving DecidableEq, Repr

/-- STATUS_N (R397, R466): low until handoff, but for the burst of a code while one is shown; then low while DRIVE is 1 (that it is
high while DRIVE is 0 is DEDUCED, assumption log 115). -/
def statusPin (s : State) : Pin :=
  if running s && s.boot.status ≠ 0 then .traffic
  else .level (running s && !bitF s (Reg.BOOT_STAT 0) F.BOOT_STAT_PRIV && !bitF s (Reg.BOOT_STATUSN 0) F.BOOT_STATUSN_DRIVE)

/-- Whether the bank VDD_IO18 is valid: while the package's rails are up (R430, R466, R475). -/
def railsUp (s : State) : Bool := s.keep.seq = .run || s.keep.seq = .held || s.keep.seq = .refWait

/-- What a signal carries, with its pull (R44, R466). FAULT_N is released between the pulses that `Keep.faults` counts, and the debug
port sends nothing over TDO; the oscillator of the 24.576 MHz reference runs while its bank is valid, through resets too. -/
def signalPin (s : State) (d : Nat) : Signal → Pin × Pull
  | .vid b => (.level ((fld s (Reg.GOV_STAT d) F.GOV_STAT_VID).testBit b), .none_)
  | .wake _ => (.input, .none_)
  | .supplyEn => (.level s.keep.supplyEn, .none_)
  | .faultN | .tdo => (.highZ, .none_)
  | .statusN => (statusPin s, .none_)
  | .refXi => (.input, .none_)
  | .refXo => (if railsUp s then .clock 24576000 1 else .highZ, .none_)
  | .start | .tck | .trstN => (.input, .down)
  | .resetN | .supplyPg | .recovN | .tms | .tdi => (.input, .up)

/-! ### The pads of a domain -/

/-- The pads of a domain (R420, R466). -/
def domPads (m : Nat) : List Pad :=
  if m = pdSap then
    (List.range 10).flatMap fun p => [Pad.sap p .bclk, .sap p .fsync] ++ (List.range 4).map fun n => Pad.sap p (.sd n)
  else if m = pdStew then [Pad.cspClk] ++ (List.range 8).map Pad.cspIo ++ (List.range 4).map Pad.cspSel
  else if m = pdLink then (List.range 3).map Pad.linkTx ++ (List.range 3).map Pad.linkRx
  else if m = pdDdr then [Pad.ddrReset, .ddrBus]
  else []

/-- The domain of a pad. -/
def padDomain : Pad → Nat
  | .sap _ _ => pdSap
  | .cspClk | .cspIo _ | .cspSel _ => pdStew
  | .linkTx _ | .linkRx _ => pdLink
  | .ddrReset | .ddrBus => pdDdr

/-- The pull of a pad (R466); the spec gives it for reset, and it stays (DESIGN CHOICE, assumption log 115). -/
def padPull : Pad → Pull
  | .sap _ _ => .down
  | .cspIo _ => .up
  | _ => .none_

/-- What a pad does while it is its block's: `k` is the bit clock or time slot of a serial audio port's frame, or the bit of a wake
pattern at 10 Mb/s (R344), `t` the moment of the clocked serial port. The levels of the memory interface outside reset, and a link
transmitter's from DETECT on, are not stated (PRESUMED, assumption log 115). -/
def padLive (s : State) (d : Nat) (k : Nat) (t : CspAt) : Pad → Pin
  | .sap m sig => sapLive s d m k sig
  | .cspClk => cspClkPin s d t
  | .cspIo n => cspIoPin s d n t
  | .cspSel n => cspSelPin s d n t
  | .linkTx n =>
    match (linkPort s d).waketx[k]? with
    | some b => if n = 0 then .level b else if portState s d = 0 then .idle else .traffic
    | none => if portState s d = 0 then .idle else .traffic
  | .linkRx _ => .terminated
  | .ddrReset => .level (bitF s (Reg.DDR_CTL d) F.DDR_CTL_EN)
  | .ddrBus => if bitF s (Reg.DDR_CTL d) F.DDR_CTL_EN then .traffic else .highZ

/-- What a held pad latched (R420), if it is held. -/
def padLatched (s : State) (d : Nat) (p : Pad) : Option (Pin × Pull) :=
  if padHeld s d (padDomain p) then
    ((((alGet (d * 16 + padDomain p) s.pads).getD []).find? fun e => e.1 = p).map (·.2))
  else none

/-- What a pad does (R420, R466): a held one what it latched. -/
def padPin (s : State) (d : Nat) (k : Nat) (t : CspAt) (p : Pad) : Pin × Pull :=
  match padLatched s d p with
  | some x => x
  | none => (padLive s d k t p, padPull p)

/-- What a pad latches (R420): a level, a direction; a signal that moves latches the level `b` that it has by then. -/
def latchPin (b : Bool) : Pin → Pin
  | .clock _ _ | .preamble _ _ | .cell _ | .traffic => .level b
  | p => p

/-- The pads of a domain latched (R420). Where in a frame or entry that falls, and the level of a signal that moves, are open
(assumption log 3). -/
def latchPads (s : State) (d m : Nat) : State :=
  let n := s.fresh
  let k := Config.freeNat n
  let t : CspAt := match Config.freeNat (n + 1) % 3 with
    | 0 => .rest
    | 1 => .gap
    | _ => .clock k (Config.freeBool (n + 2))
  let ps := domPads m
  { s with
    fresh := n + 3 + ps.length
    pads := alPut (d * 16 + m) ((ps.zipIdx).map fun e =>
      (e.1, latchPin (Config.freeBool (n + 3 + e.2))
        (padLive s d (match e.1 with | .sap p _ => k % max 1 (sapFrameLen s d p) | _ => k) t e.1), padPull e.1)) s.pads }

/-- The pads of a domain handed back to its blocks (R420). -/
def freePads (s : State) (d m : Nat) : State := { s with pads := s.pads.filter fun e => e.1 ≠ d * 16 + m }

end Sys2Proof.Machine
end

