-- ==== Sys2Proof/Machine/Shell.lean ====
section
/-! DEFINITION. The Shell store (R387–R389): records kept as two copies, each with a generation and a CRC-32C, and the reject
list. Within a copy its fields lie in the order in which the spec names them, and the CRC covers what lies before it (DESIGN
CHOICE, assumption log 92). -/
namespace Sys2Proof.Machine

/-- `n` bytes of the store from an offset. -/
def shellBytes (x : Shell) (o n : Nat) : List Byte := (List.range n).map fun i => smGet (fun _ => (0 : Byte)) x.cells (o + i)

/-- The store with bytes written from an offset on. -/
def shellPut (x : Shell) (o : Nat) (bs : List Byte) : Shell :=
  { x with cells := (bs.foldl (fun (acc : List (Nat × Byte) × Nat) b => (smSet (fun _ => (0 : Byte)) acc.2 b acc.1, acc.2 + 1))
      (x.cells, o)).1 }

/-- A copy of a record: its body, its generation and its CRC. -/
def copyBytes (body : List Byte) (gen : Nat) : List Byte :=
  let b := body ++ toBytes 4 gen
  b ++ toBytes 4 (crc32c b)

/-- The copy at an offset, with a body of `n` bytes: the body and the generation, if its CRC is right. -/
def readCopy (x : Shell) (o n : Nat) : Option (List Byte × Nat) :=
  let b := shellBytes x o (n + 4)
  if ofBytes (shellBytes x (o + n + 4) 4) = crc32c b then some (b.take n, ofBytes (b.drop n)) else none

/-- A count of record copies written, which stops at its largest value. -/
def shellWrote (x : Shell) : Shell := { x with writes := min 0xFFFF_FFFF (x.writes + 1) }

/-- The newer of a record's two copies, at `o` and 64 bytes on (R388). -/
def newestCopy (x : Shell) (o n : Nat) : Option (List Byte × Nat) :=
  match readCopy x o n, readCopy x (o + 0x40) n with
  | some p, some q => some (if p.2 < q.2 then q else p)
  | some p, none => some p
  | none, q => q

/-- A record updated: the copy with the older generation, or one that holds none, is written (R388). -/
def writeRecord (x : Shell) (o : Nat) (body : List Byte) : Shell :=
  let n := body.length
  let at_ := match readCopy x o n, readCopy x (o + 0x40) n with
    | some p, some q => if p.2 < q.2 then o else o + 0x40
    | some _, none => o + 0x40
    | none, _ => o
  let gen := match newestCopy x o n with | some p => p.2 + 1 | none => 1
  shellWrote (shellPut x at_ (copyBytes body gen))

/-- The floor (R387): 0 where no record has been written. -/
def shellFloor (x : Shell) : Nat := match newestCopy x 0 4 with | some p => ofBytes p.1 | none => 0

/-- The confirmed record (R388): TDIGEST, VERSION and slot. -/
def shellConfirmed (x : Shell) : Option (List Byte × Nat × Nat) :=
  (newestCopy x 0x100 56).map fun p => (p.1.take 48, ofBytes ((p.1.drop 48).take 4), ofBytes (p.1.drop 52))

/-- The reject list (R389): each entry's number, TDIGEST and generation. -/
def shellRejects (x : Shell) : List (Nat × List Byte × Nat) :=
  (List.range 64).filterMap fun i => (readCopy x (0x1000 + 64 * i) 48).map fun p => (i, p.1, p.2)

/-- A digest added to the reject list: beyond 64 it takes the place of the one with the oldest generation (R389). -/
def rejectAdd (x : Shell) (dg : List Byte) : Shell :=
  let rs := shellRejects x
  let gen := rs.foldl (fun n e => max n e.2.2) 0 + 1
  let oldest := rs.foldl (fun n e => min n e.2.2) gen
  let free := (List.range 64).find? fun i => !rs.any fun e => e.1 = i
  let i := match free, rs.find? fun e => e.2.2 = oldest with
    | some i, _ => i
    | none, some e => e.1
    | none, none => 0
  shellWrote (shellPut x (0x1000 + 64 * i) (copyBytes dg gen))

/-- Whether the Seed may write an offset of the store in boot privilege: the reject list; the floor and the confirmed record are
written by the boot block alone (R388). -/
def shellOpen (o : Nat) : Bool := 0x1000 ≤ o && o < 0x2000

/-- Whether an offset lies in a record that the boot block alone writes. -/
def shellKept (o : Nat) : Bool := o < 0x80 || (0x100 ≤ o && o < 0x180)

end Sys2Proof.Machine
end

