-- ==== Sys2Proof/Machine/Reset.lean ====
section
/-! DEFINITION. Resets of the package (R14, R62, R347, R375, R409, R428, R466, R476): what they clear, what the Keep domain
and the stores carry through, and what a release of reset starts. -/
namespace Sys2Proof.Machine

/-- The address of the Oasis (R351). -/
def oasisA : Nat := 0x6000_0000

/-- A 32-bit word of the Oasis. -/
def oasis (s : State) (o : Nat) : Word := loadW s (oasisA + o)

/-- The state with a word of the Oasis written. -/
def setOasis (s : State) (o : Nat) (w : Word) : State := storeW s (oasisA + o) w

/-- A counter of the Oasis raised. -/
def incOasis (s : State) (o : Nat) : State := setOasis s o (oasis s o + 1)

/-- Bytes written from an address up. -/
def storeList (s : State) (a : Nat) (bs : List Byte) : State :=
  (bs.foldl (fun (acc : State × Nat) b => (storeByte acc.1 acc.2 b, acc.2 + 1)) (s, a)).1

/-- `n` bytes from an address up. -/
def loadList (s : State) (a n : Nat) : List Byte := (List.range n).map fun i => loadByte s (a + i)

/-- Memory that keeps its contents through every reset while VDD_KEEP holds: the Seed ROM and the Oasis (R400). -/
def keepsCell (a : Nat) : Bool :=
  (0x1000_0000 ≤ a && a < 0x1001_0000) || (oasisA ≤ a && a < oasisA + 0x200)

/-- Memory that a reset with power clears: the kernel windows (R62, R375). -/
def kernelCell (a : Nat) : Bool := 0x3000_0000 ≤ addrLocal a && addrLocal a < 0x3240_0000

/-- Registers of the WAKE page, which lie in the Keep domain. -/
def keepReg (a : Nat) : Bool := addrDie a = 0 && 0x4000_4000 ≤ addrLocal a && addrLocal a < 0x4000_5000

/-- The mode of the link wake detector copied when die 0's PD_LINK leaves ON (R426); it has heard nothing yet. `lvl` is the level
that domain `m` of die `d` leaves. -/
def copyLmode (s : State) (d m lvl : Nat) : State :=
  if d = 0 && m = pdLink && lvl = 2 then
    setFld { s with linkDev := { s.linkDev with heard := [] } } (Reg.WAKE_CTL 0) F.WAKE_CTL_LMODE
      (fld s (Reg.LINK_WAKE 0) F.LINK_WAKE_MODE)
  else s

/-- The Keep domain's part of a reset (R343, R426): one that finds die 0's PD_LINK ON takes it out of ON (DEDUCED, assumption log
130); otherwise the detector goes on with the mode that it has and what it has heard. -/
def keepOver (s : State) : State := if running s && domOn s 0 pdLink then copyLmode s 0 pdLink 2 else s

/-- The package at reset with what survives: fuses, Shell store, Keep domain and Oasis; working memory, Hoards and
LPDDR4X keep their contents unless power was lost (assumption log 15). Every die is held in reset. -/
def resetDies (s : State) (powerLost : Bool) : State :=
  let s := keepOver s
  { State.reset with
    part := s.part
    pending := s.pending
    regs := s.regs.filter fun e => keepReg e.1
    mem := s.mem.filter fun e => keepsCell e.1 || (!powerLost && !kernelCell e.1)
    stew := smSet Stew.zero 0 { Stew.zero 0 with st := .held } []
    keep := s.keep
    linkDev := { State.reset.linkDev with woke := s.linkDev.woke, heard := s.linkDev.heard }
    fuses := s.fuses
    shell := s.shell
    resp := s.resp
    fresh := s.fresh }

/-- Every die put into reset, to be released with BOOT_STAT.CAUSE `cause`. -/
def assertReset (s : State) (cause : Nat) : State :=
  let t := resetDies s false
  { t with keep := { t.keep with seq := .held, cause := cause } }

/-- Zeroization (R406): the AES key register, the engines' working state, the hash in hand and the Seed's buffers. -/
def zeroize (s : State) : State := { s with boot := { s.boot with secret := Secret.zero } }

/-- The error state of R405, entered after zeroization (R406): STATUS_N signals code 7. -/
def bootError (s : State) : State :=
  let t := zeroize s
  { setFld t (Reg.BOOT_STAT 0) F.BOOT_STAT_SELFFAIL 1 with
    boot := { t.boot with step := .error, status := 7, fw := [], dir := [], images := [], failed := [], todo := [], later := [] } }

/-- What the Seed does about a trial when it starts (R389, R394, R395): after a trial expiry its digest is rejected; after
power-on or RESET_N it is forgotten. -/
def settleTrial (s : State) (cause : Nat) : State :=
  if cause = 2 then
    setOasis { s with shell := rejectAdd s.shell (loadList s (oasisA + 0x48) 48) } 0x40 0
  else if cause ≤ 1 then storeList (setOasis s 0x40 0) (oasisA + 0x48) (List.replicate 48 0)
  else s

/-- Whether the Oasis holds a fast-wake record (R400). -/
def fastRecord (s : State) : Bool := oasis s 0 = 0x0A51_0001

/-- The row repairs of manufacture as the fuse load shows them (R178). -/
def loadRepairs (s : State) : State :=
  each s.fuses.repairs (fun e t =>
    let a := Reg.POD_REPAIR (e.1 / 8) (e.1 % 8)
    setFld (setFld t a F.POD_REPAIR_USED e.2) a F.POD_REPAIR_FREE (512 - e.2)) s

/-- The fuse rows that fail their redundancy check when fuses are read after reset (R432): each takes the next of its die's 16
spare fuse rows, and the log says so. -/
def loadFuseRows (s : State) : State :=
  each (dies s) (fun d t =>
    let bad := ((s.fuses.badRows.filter fun e => e.1 = d).map (·.2)).take 16
    (bad.foldl (fun (acc : State × Nat) row => (spareLog acc.1 d 0xC row acc.2 0, acc.2 + 1)) (t, 0)).1) s

/-- The Seed ROM: 64 KiB at 0x1000_0000 of die 0 (R351). -/
def seedRom (s : State) : List Byte := loadList s 0x1000_0000 0x1_0000

/-- The integrity test of the Seed ROM against its fused digest (R405). -/
def romIntact (s : State) : Bool :=
  match s.fuses.seed with
  | none => true
  | some dg => Config.sha384 (seedRom s) = dg

/-- The release of reset (R374, R375, R405): self-tests, mode selection, and steward 0 of die 0 from address 0. `recov`
is RECOV_N sampled low, `ok` the outcome of the known-answer tests. -/
def releaseReset (s : State) (recov ok : Bool) : State :=
  let c := s.keep.cause
  let a := Reg.BOOT_STAT 0
  let t := setFld { s with keep := { s.keep with seq := .run } } a F.BOOT_STAT_CAUSE c
  let t : State := if t.linkDev.woke then
      { setFld t (Reg.LINK_WAKE 0) F.LINK_WAKE_DETECTED 1 with linkDev := { t.linkDev with woke := false } } else t
  let t := loadFuseRows (loadRepairs t)
  if !ok || !romIntact t then bootError t
  else
    let t := settleTrial { t with stew := [] } c
    if recov then
      let tgt := setFld t (Reg.CSP_CFG 0) F.CSP_CFG_ROLE 1
      let en := setFld tgt (Reg.LINK_CTL 0) F.LINK_CTL_EN 1
      let up := setFld en (Reg.LINK_STAT 0) F.LINK_STAT_STATE 1
      { setFld up a F.BOOT_STAT_MODE 2 with boot := { up.boot with step := .recovery, status := 4 } }
    else if c = 4 && fastRecord t then
      { setFld t a F.BOOT_STAT_MODE 1 with
        boot := { t.boot with step := .fastHead, slot := (loadByte t (oasisA + 4)).toNat % 2 } }
    else { t with boot := { t.boot with step := .directory } }

/-- RESET_N_ASSERT (R483): RESET_N low for 1 µs resets the package; where the dies are already in reset it changes
nothing. -/
def execResetNAssert (s : State) : Out :=
  .next (if s.keep.seq = .run || s.keep.seq = .held then assertReset s 1 else s)

/-- RESET_RELEASE (R375). -/
def execResetRelease (recov ok : Bool) (s : State) : Out :=
  whenDue s (s.keep.seq = .held) (releaseReset s recov ok)

end Sys2Proof.Machine
end

