-- ==== Sys2Proof/Machine/Power.lean ====
section
/-! DEFINITION. Power domains in transition (R409, R415–R423), wake sources (R424–R427), HUSK (R428–R431), loss of supplies
(R475, R476) and the thermal monitor (R445–R447). -/
namespace Sys2Proof.Machine

/-! ### What a domain loses -/

/-- The domain that holds a register page's contents: KERNEL pages lie in their pod's domain (R464). -/
def contentDomain (q : Nat) : Option Nat :=
  if 0x100 ≤ q && q ≤ 0x18F then some (pdPod ((q - 0x100) / 18)) else pageDomain q

/-- Registers that show a repair or an engine change, which lasts until RESET_N (R433): POD_REPAIR and SRC_ROLE. -/
def lastsToReset (a : Nat) : Bool :=
  (List.range 8).any (fun p => a = Reg.POD_REPAIR (addrDie a) p) || (List.range 6).any fun e => a = Reg.SRC_ROLE (addrDie a) e

/-- The registers of a domain back at reset (R409), but for those of `lastsToReset`. -/
def dropRegs (s : State) (d m : Nat) : State :=
  { s with regs := s.regs.filter fun e =>
      !(addrDie e.1 = d && contentDomain (addrPage e.1) = some m) || lastsToReset e.1 }

/-- Entries `lo` to `hi` of a table back at reset. -/
def dropTab (s : State) (t d lo hi : Nat) : State :=
  { s with tabs := smDrop (fun k => tabKey t d lo ≤ k && k < tabKey t d hi) s.tabs }

/-- Memory from `lo` up to `hi` cleared, with fresh ECC. -/
def clearMem (s : State) (lo hi : Nat) : State :=
  { s with
    mem := s.mem.filter fun e => !(decide (lo ≤ e.1) && decide (e.1 < hi))
    ecc := smDrop (fun k => lo ≤ k && k < hi) s.ecc }

/-- A pod whose domain goes OFF (R62, R170, R409): retirements, row repairs and what a slot has been since reset stay (R8,
R433). A FAULTED kernel goes OFF as any other and is HELD when the domain is ON again (DESIGN CHOICE, assumption log 54: R159 keeps
it FAULTED until RESET_N, R409 and R79 give OFF and reset values). -/
def dropPod (d p : Nat) (s : State) : State :=
  let lo := p * 18
  let t := clearMem s (kernWin d lo) (kernWin d (lo + 18))
  let t := clearMem t (hoardA d p 0) (hoardA d p 0 + 0x10_0000)
  let t := dropTab (dropTab t tLtab d (lo * 64) ((lo + 18) * 64)) tCar d (p * 4096) ((p + 1) * 4096)
  let t := each ((List.range 18).map (lo + ·)) (fun k u =>
    setKern u d k { Kern.zero with
      st := if (kern u d k).st = .retired then .retired else .off, ran := (kern u d k).ran }) t
  let t := { t with slip := smDrop (fun k => (d * 8 + p) * 256 ≤ k && k < (d * 8 + p + 1) * 256) t.slip }
  let t := setFld (setRows t d p ⟨[], [], [], (rowsOf t d p).denied⟩) (Reg.POD_REPAIR d p) F.POD_REPAIR_BUSY 0
  let t := setCaravan (setPodX t d p PodX.zero) d p Caravan.zero
  setTarget (setSpares t d p []) d p 31

/-- A pod whose domain reaches RET keeps everything; the tick that its kernels were in is not finished (R409, DEDUCED,
assumption log 91). -/
def restPod (d p : Nat) (s : State) : State :=
  each ((listed s d).filter fun k => k / 18 = p && (kern s d k).active)
    (fun k t => setKern t d k { kern t d k with active := false, ended := false, wait := none }) s

/-- The ratios of a die's converter channels lost (R409). -/
def dropRatios (s : State) (d : Nat) : State :=
  each (List.range 10) (fun m t => setSap t d m { sap t d m with ratioRx := none, ratioTx := none }) s

/-- The bytes of a working-memory bank: 32 banks of 128 KiB. -/
def wmBank (d b : Nat) : Nat × Nat := (pkgA d (b * 0x2_0000), pkgA d ((b + 1) * 0x2_0000))

/-- The meters of a die whose PD_STEW reaches RET (R294, R444): each block in progress is discarded, with mode 1 starting again,
and VALID reads 0 until the next block ends. -/
def meterRest (s : State) (d : Nat) : State :=
  each (List.range 512) (fun i t => setFld t (Reg.METER_STAT d i) F.METER_STAT_VALID 0)
    (each (meterList s d) (fun i u => setMeter u d i { meter u d i with ticks := 0, ms := 0, ended := none }) s)

/-- What a domain loses when it reaches RET (level 1) or OFF (level 0) (R409). -/
def domainLoss (s : State) (d m lvl : Nat) : State :=
  let off := lvl = 0
  if m = pdSap then
    let t := each (List.range 10) (fun i u => sapStop u d i false) s
    if off then { dropRegs t d m with
        saps := smDrop (fun k => k / 10 = d) t.saps, steer := if d = 0 then State.reset.steer else t.steer } else t
  else if m = pdSrc then
    let t := dropRatios s d
    if off then dropTab (dropRegs t d m) tSrc d 0 384 else t
  else if m = pdLink then
    let t := trainFrom s d 0
    if off then
      let t := dropTab (setLinkPort (dropRegs t d m) d LinkPort.zero) tLexp d 0 8192
      if d = 0 then
        let t := dropTab t tRoute 0 0 1024
        { t with linkDev := { State.reset.linkDev with woke := t.linkDev.woke, heard := t.linkDev.heard } }
      else t
    else t
  else if m = pdStew then
    let keep := reg s (Reg.PWR_WMRET d)
    let t := each ((List.range 32).filter fun b => !keep.getLsbD b) (fun b u => clearMem u (wmBank d b).1 (wmBank d b).2) s
    meterRest t d
  else if m = pdDdr then
    if off then clearMem (setDdr (dropRegs s d m) d Ddr.zero) (pkgA d 0x8_0000_0000) (pkgA d 0x10_0000_0000)
    else setDdr s d { ddr s d with window := false, down := false }
  else
    let ps := (List.range 8).filter fun p => pdPod p = m
    if off then dropRegs (each ps (dropPod d) (clearLines s d fun k => pdPod (k / 18) = m)) d m else each ps (restPod d) s

/-! ### Entry and exit -/

/-- Whether a domain has pads that its entry holds (R408). -/
def hasPads (m : Nat) : Bool := m = pdSap || m = pdLink || m = pdStew || m = pdDdr

/-- DOMAIN_ENTRY_START (R418, R421): a domain whose target is lower than its state starts an entry, or is refused. -/
def execDomainEntryStart (d m : Nat) (s : State) : Out :=
  onUnit (d < dieCount s.part && m < 9) <|
    let x := dom s d m
    match stableLevel x.st with
    | some lvl =>
      let t := domTarget s d m
      match entryRefuser s d m with
      | some c => whenDue s (running s && decide (t < lvl) && !x.refused) (refuseEntry s d m c)
      | none => whenDue s (running s && decide (t < lvl))
          (copyLmode (setDom s d m { x with st := .entering t lvl false, tgt := t, refused := false }) d m lvl)
    | none => .next s

/-- Whether a caravan block of a domain is outstanding (R418): one that PD_DDR serves and whose pod, or channel, is the domain. -/
def outstanding (s : State) (d m : Nat) : Bool :=
  ddrServes s d && (List.range 8).any fun p => (pdPod p = m || m = pdDdr) && !(caravan s d p).flight.isEmpty

/-- PAD_HOLD_POINT (R418, R420, R421): the domain's pads are latched, unless a condition refuses the entry by now. Outstanding
transactions complete first: caravan blocks in flight count as such (DESIGN CHOICE, assumption log 110). -/
def execPadHoldPoint (d m : Nat) (s : State) : Out :=
  onUnit (d < dieCount s.part && m < 9) <|
    let x := dom s d m
    match x.st with
    | .entering lvl from_ false =>
      match entryRefuser s d m with
      | some c => .next (refuseEntry (moveDom s d m { x with st := entryUndone from_ }) d m c)
      | none => whenDue s (!outstanding s d m) <|
        let t := setDom s d m { x with st := .entering lvl from_ true }
        let h := fld t (Reg.PWR_PADSTAT d) F.PWR_PADSTAT_HELD
        if hasPads m && !h.testBit m then
          latchPads (setFld t (Reg.PWR_PADSTAT d) F.PWR_PADSTAT_HELD (h + 2 ^ m)) d m else t
    | _ => .next s

/-- A transition's end: a queued target starts at once if it differs from the state reached (R423). -/
def endTransition (s : State) (d m lvl : Nat) : State :=
  let x := dom s d m
  match x.queued with
  | some t =>
    if t = lvl then setDom s d m { x with st := domAt lvl, queued := none }
    else if lvl < t then moveDom s d m { x with st := .exiting lvl, queued := none }
    else (match entryRefuser s d m with
      | some c => refuseEntry (setDom s d m { x with st := domAt lvl, queued := none }) d m c
      | none => copyLmode (setDom s d m { x with st := .entering t lvl false, queued := none }) d m lvl)
  | none => setDom s d m { x with st := domAt lvl }

/-- DOMAIN_ENTRY_DONE (R409, R418, R423): the domain reaches RET or OFF. -/
def execDomainEntryDone (d m : Nat) (s : State) : Out :=
  onUnit (d < dieCount s.part && m < 9) <|
    match (dom s d m).st with
    | .entering lvl _ true => .next (powerSync (govRefresh (endTransition (domainLoss s d m lvl) d m lvl) d) d)
    | _ => .next s

/-- DOMAIN_EXIT_START (R416, R419): a domain whose target is higher than its state starts an exit. -/
def execDomainExitStart (d m : Nat) (s : State) : Out :=
  onUnit (d < dieCount s.part && m < 9) <|
    let x := dom s d m
    match stableLevel x.st with
    | some lvl =>
      let t := domTarget s d m
      whenDue s (running s && decide (lvl < t))
        (govRefresh (moveDom s d m { x with st := .exiting lvl, tgt := t }) d)
    | none => .next s

/-- What a domain does when it is ON again (R62, R186, R201, R288, R409, R426). Test lines that the deadline has passed over carry what
their registers hold at the next Pulse, and the bridge ports send what their lines carry in this tick (R191, R195). -/
def domainWake (s : State) (d m from_ : Nat) : State :=
  if m = pdStew then
    let t := sendTransfers s d
    if s.phase = .commit then testLines t d else t
  else if m = pdLink then
    let t := if bitF s (Reg.LINK_CTL d) F.LINK_CTL_EN then trainFrom s d 1 else s
    if d = 0 && t.linkDev.woke then
      { setFld t (Reg.LINK_WAKE 0) F.LINK_WAKE_DETECTED 1 with linkDev := { t.linkDev with woke := false } }
    else t
  else if m = pdDdr then (if from_ = 0 && bitF s (Reg.DDR_CTL d) F.DDR_CTL_EN then startTraining s d else s)
  else if 3 ≤ m && m ≤ 6 && from_ = 0 then
    each ((List.range 8).filter fun p => pdPod p = m) (fun p u => podMove u d p .off .held) s
  else if d = 0 && m = pdSap then steerWake s
  else s

/-- DOMAIN_EXIT_DONE (R416, R419, R423): the domain is ON; one whose target is RET then starts an entry. -/
def execDomainExitDone (d m : Nat) (s : State) : Out :=
  onUnit (d < dieCount s.part && m < 9) <|
    let x := dom s d m
    match x.st with
    | .exiting from_ =>
      let t := domainWake (setDom s d m { x with st := .on }) d m from_
      .next (powerSync (exitPrep (govRefresh (endTransition t d m 2) d) d m) d)
    | _ => .next s

/-! ### Votes and settings written by firmware -/

/-- The votes of a client as PWR_VDATA reads them. -/
def votesOf (s : State) (d c : Nat) : Word :=
  if c ≤ 2 || (33 ≤ c && c ≤ 47) then tab s tVote d c
  else BitVec.ofNat 32 (natSum ((List.range 9).map fun m => voteOf s d c m * 4 ^ m))

/-- A write to PWR_VDATA (R411). -/
def vdataWrite (s : State) (d : Nat) (v : Word) : State :=
  let c := fld s (Reg.PWR_VSEL d) F.PWR_VSEL_CLIENT
  if c = 2 || (33 ≤ c && c ≤ 47) then powerSync (setTab s tVote d c (v &&& 0x3FFFF)) d else s

/-- A write to PWR_HOLD of die 0 (R412). -/
def holdWrite (s : State) (v : Word) : State :=
  powerSyncAll (setFld s (Reg.PWR_HOLD 0) F.PWR_HOLD_DIES (v.toNat % 2 ^ dieCount s.part)) none

/-- A write to PWR_MODE (R417). -/
def modeWrite (s : State) (d : Nat) (v : Word) : State :=
  if bitF s (Reg.PWR_CTL d) F.PWR_CTL_VOTEONLY then setFld s (Reg.PWR_EVT d) F.PWR_EVT_CFGREJ 1
  else setFld s (Reg.PWR_MODE d) F.PWR_MODE_STATE (wGet v F.PWR_MODE_STATE)

/-- A write to PWR_CTL (R412, R417, R427). -/
def pwrCtlWrite (s : State) (d : Nat) (v : Word) : State :=
  let a := Reg.PWR_CTL d
  let t := if d = 0 then setFld s a F.PWR_CTL_HUSKEN (wGet v F.PWR_CTL_HUSKEN) else s
  let t := if wGet v F.PWR_CTL_VOTEONLY = 1 then
      setFld (setFld t a F.PWR_CTL_VOTEONLY 1) (Reg.PWR_MODE d) F.PWR_MODE_STATE 0 else t
  if wGet v F.PWR_CTL_WAKEREL = 1 then powerSync (setTab t tVote d 58 0) d else t

/-- A write to PWR_PADREL (R420): domains that are not ON ignore it. -/
def padrelWrite (s : State) (d : Nat) (v : Word) : State :=
  each (List.range 9) (fun m t =>
    let h := fld t (Reg.PWR_PADSTAT d) F.PWR_PADSTAT_HELD
    if v.getLsbD m && domOn t d m && h.testBit m then
      freePads (setFld t (Reg.PWR_PADSTAT d) F.PWR_PADSTAT_HELD (h - 2 ^ m)) d m else t) s

/-- PWR_DVOTE. -/
def dvote (s : State) (d : Nat) : Word :=
  BitVec.ofNat 32 (natSum ((List.range 9).map fun m => highestVote s d m * 4 ^ m))

/-- PWR_DSTAT (R414). -/
def dstat (s : State) (d : Nat) : Word :=
  let die := if dieAllOn s d then 0 else if dieRetained s d then 2 else 1
  let pkg := if d ≠ 0 then 0 else if (dies s).all fun e => dieAllOn s e then 0
    else if (dies s).all fun e => dieRetained s e then 2 else 1
  BitVec.ofNat 32 (pkg * 2 ^ 28 + die * 2 ^ 24 + natSum ((List.range 9).map fun m => domCode (dom s d m).st * 4 ^ m))

/-! ### Wake events -/

/-- The Keep sequencer record's counter of HUSK entries raised (R431). -/
def countHusk (s : State) : State := incOasis s 0x80

/-- SUPPLY_EN high for a wake from HUSK (R429). -/
def startExit (s : State) (cause : Nat) : State :=
  { s with keep := { s.keep with seq := .pgWait, attempts := 1, cause := cause, supplyEn := true, deaf := false } }

/-- Whether the conditions of R428 hold but for refusals. -/
def huskReady (s : State) : Bool :=
  let forced := (dieX s 0).mode = 2
  running s && (bitF s (Reg.PWR_CTL 0) F.PWR_CTL_HUSKEN || forced) && (dies s).all fun d =>
    (dom s d pdStew).st = .ret && ((List.range 9).all fun m => m = pdStew || (dom s d m).st = .off)
      && (forced || (List.range 9).all fun m => highestVote s d m = 0)

/-- What refuses a HUSK entry (R421), as the client named. -/
def huskRefuser (s : State) : Option Nat :=
  activePin s <|> if bitF s (Reg.BOOT_STAT 0) F.BOOT_STAT_TRIAL then some 59 else none

/-- A wake event (R427) of WAKE_STAT bit `b`: pins 0–7, timer 8, link 9. Where the HUSK conditions hold and nothing
refuses the entry it aborts it (R422); a shutdown's second of deafness may still hold it off in HUSK (R446). -/
def wakeEvent (s : State) (b : Nat) : State :=
  let src := 48 + b
  let a := Reg.WAKE_STAT 0
  let t := if (reg s a).getLsbD b then s else setReg s a (reg s a ||| BitVec.ofNat 32 (2 ^ b))
  let t := if huskReady s && (huskRefuser s).isNone then
      let n := noteEntry t 0 true src 0xF
      if Config.freeBool n.fresh then { countHusk n with fresh := n.fresh + 1 } else { n with fresh := n.fresh + 1 }
    else t
  let t := each (dies t) (fun d u =>
    let u := setDieX (setFld u (Reg.PWR_MODE d) F.PWR_MODE_STATE 0) d { dieX u d with mode := 0 }
    setFld (setTab u tVote d 58 (BitVec.ofNat 32 (2 * 4 ^ pdStew))) (Reg.PWR_EVT d) F.PWR_EVT_WAKE 1) t
  let t := powerSyncAll { t with keep := { t.keep with refused := false } } (some src)
  if t.keep.seq ≠ .husk then t
  else if t.keep.deaf && Config.freeBool t.fresh then { t with fresh := t.fresh + 1 }
  else setOasis (startExit t 4) 0x88 (BitVec.ofNat 32 (2 ^ b))

/-- An accepted change of a WAKE pin (R424). An enabled pin is active from its accepted activation, a coalesced one included, until
it is accepted inactive; while it is set to level mode it then refuses entries, whatever mode it made its event in (R421). -/
def pinChange (s : State) (i : Nat) (high soon : Bool) : State :=
  let p := Reg.WAKE_PIN 0 i
  let active := high == bitF s p F.WAKE_PIN_POL
  let a := Reg.WAKE_ACTIVE 0
  let old := fld s a F.WAKE_ACTIVE_PIN
  let t := setFld s a F.WAKE_ACTIVE_PIN (old - old / 2 ^ i % 2 * 2 ^ i + active.toNat * 2 ^ i)
  if !active then { t with keep := { t.keep with pinEv := t.keep.pinEv.filter fun j => j ≠ i } }
  else if !bitF s p F.WAKE_PIN_EN then t
  else if bitF s p F.WAKE_PIN_LEVEL && s.keep.pinEv.contains i then t
  else
    let u := if soon then incReg t (Reg.WAKE_COAL 0 i) else wakeEvent t i
    powerSyncAll { u with keep := { u.keep with pinEv := i :: u.keep.pinEv.filter fun j => j ≠ i } } none

/-- WAKE_PIN_ACCEPT (R424): pin `i` has held a new level for 2 µs; `soon` says that this is an activation less than 10 µs
after the pin's previous accepted one. -/
def execWakePinAccept (i : Nat) (high soon : Bool) (s : State) : Out :=
  onUnit (i < 8) <| whenDue s (kept s) (pinChange s i high soon)

/-- A write to WAKE_TIMER (R425): the count restarts. -/
def wakeTimerWrite (s : State) (v : Word) : State :=
  setReg (setReg s (Reg.WAKE_TIMER 0) (v &&& 0xC0FF_FFFF)) (Reg.WAKE_TCNT 0)
    (if v.getLsbD 31 then BitVec.ofNat 32 (max 1 (wField v 23 0)) else 0)

/-- The interval timer reaches 0 (R425). -/
def timerExpire (s : State) : State :=
  let a := Reg.WAKE_TIMER 0
  let again := bitF s a F.WAKE_TIMER_PERIODIC
  let t := if again then s else setFld s a F.WAKE_TIMER_EN 0
  let t := setReg t (Reg.WAKE_TCNT 0) (if again then BitVec.ofNat 32 (max 1 (fld s a F.WAKE_TIMER_MS)) else 0)
  wakeEvent t 8

/-- INTERVAL_TIMER_EXPIRY (R425). -/
def execIntervalTimerExpiry (s : State) : Out :=
  whenDue s (kept s && bitF s (Reg.WAKE_TIMER 0) F.WAKE_TIMER_EN) (timerExpire s)

/-- A detection: LINK_WAKE.DETECTED follows once PD_LINK is ON (R426), and the detection begins anew. -/
def linkWake (s : State) : State := wakeEvent { s with linkDev := { s.linkDev with woke := true, heard := [] } } 9

/-- LINK_WAKE_DETECT (R343, R426): the detector of die 0's lane 0 has heard what its mode asks for. -/
def execLinkWakeDetect (s : State) : Out :=
  whenDue s (kept s && detectorOn s && detects s && !(running s && domOn s 0 pdLink)) (linkWake s)

/-- A wake by source `b` of WAKE_STAT, if that source is set to make one (R424–R427). -/
def wakeBy (s : State) (b : Nat) : Option State :=
  if b < 8 then
    let p := Reg.WAKE_PIN 0 b
    if bitF s p F.WAKE_PIN_EN && !(bitF s p F.WAKE_PIN_LEVEL && s.keep.pinEv.contains b) then
      some (pinChange s b (bitF s p F.WAKE_PIN_POL) false)
    else none
  else if b = 8 then (if bitF s (Reg.WAKE_TIMER 0) F.WAKE_TIMER_EN then some (timerExpire s) else none)
  else if detectorOn s && detects s then some (linkWake s) else none

/-! ### HUSK -/

/-- HUSK_ENTRY (R428, R431): with the conditions met the dies are reset and SUPPLY_EN falls; `wake` is a wake event (its
WAKE_STAT bit) after the pad-hold point, on which the exit follows 1 ms later. -/
def execHuskEntry (wake : Option Nat) (s : State) : Out :=
  match huskRefuser s with
  | some c =>
    whenDue s (huskReady s && !s.keep.refused)
      (noteEntry { s with keep := { s.keep with refused := true } } 0 false c 0xF)
  | none =>
    whenDue s (huskReady s) <|
      let t := resetDies (countHusk s) true
      let t := { t with keep := { t.keep with seq := .husk, supplyEn := false, refused := false } }
      match wake.bind (wakeBy { t with keep := { t.keep with seq := .deferred } }), wake with
      | some u, some b => setOasis u 0x88 (BitVec.ofNat 32 (2 ^ min 9 b))
      | _, _ => t

/-- HUSK_DEFERRED_EXIT (R428): 1 ms after SUPPLY_EN fell. -/
def execHuskDeferredExit (s : State) : Out := whenDue s (s.keep.seq = .deferred) (startExit s 4)

/-- SUPPLY_PG_RISE (R429, R476). -/
def execSupplyPgRise (s : State) : Out :=
  whenDue s (s.keep.seq = .pgWait || s.keep.seq = .pgLost) { s with keep := { s.keep with seq := .refWait } }

/-- REFERENCE_READY (R429, R431): the dies leave reset; a wake from HUSK is counted. -/
def execReferenceReady (recov ok : Bool) (s : State) : Out :=
  whenDue s (s.keep.seq = .refWait) (releaseReset (if s.keep.cause = 4 then incOasis s 0x84 else s) recov ok)

/-- FAULT_N driven low for 1 ms. -/
def pulseFault (s : State) : State := { s with keep := { s.keep with faults := s.keep.faults + 1 } }

/-- HUSK_EXIT_TIMEOUT (R430): SUPPLY_PG (code 1) or the reference (code 2) is late. -/
def execHuskExitTimeout (s : State) : Out :=
  let q := s.keep.seq
  whenDue s (q = .pgWait || q = .refWait || q = .pgLost) <|
    let code := if q = .refWait then 2 else 1
    let t := { s with keep := { s.keep with supplyEn := false, seq := .retryWait } }
    if s.keep.attempts < 4 then t
    else
      let t := setOasis (incOasis t 0x8C) 0x90 (BitVec.ofNat 32 (s.keep.attempts * 16 + code))
      pulseFault { t with keep := { t.keep with seq := .husk } }

/-- HUSK_EXIT_RETRY (R430): 50 ms after a failed attempt. -/
def execHuskExitRetry (s : State) : Out :=
  whenDue s (s.keep.seq = .retryWait)
    { s with keep := { s.keep with seq := .pgWait, supplyEn := true, attempts := s.keep.attempts + 1 } }

/-- SUPPLY_PG_LOSS (R476): outside a HUSK entry or exit the dies are held in reset, and SUPPLY_EN stays high. -/
def execSupplyPgLoss (s : State) : Out :=
  whenDue s (s.keep.seq = .run || s.keep.seq = .held) <|
    let t := resetDies s true
    pulseFault { t with keep := { t.keep with seq := .pgLost, cause := 0, attempts := 1 } }

/-- VDD_KEEP_APPLY (R475): the Keep domain starts and raises SUPPLY_EN. -/
def execVddKeepApply (s : State) : Out := whenDue s (s.keep.seq = .noKeep) (startExit s 0)

/-- VDD_KEEP_LOSS (R476): the Keep domain, the Oasis and the WAKE page are lost. -/
def execVddKeepLoss (s : State) : Out :=
  whenDue s (kept s) <|
    let t := resetDies s true
    { t with
      regs := []
      mem := t.mem.filter fun e => !(oasisA ≤ e.1 && e.1 < oasisA + 0x200)
      linkDev := State.reset.linkDev
      keep := { State.reset.keep with seq := .noKeep, supplyEn := false, faults := s.keep.faults } }

/-! ### The thermal monitor -/

/-- THROT in units of 0.25 °C (R445). -/
def throttleAt (s : State) (d : Nat) : Int := (4 * min 110 (fld s (Reg.THERM_CFG d) F.THERM_CFG_THROT) : Nat)

/-- The temperature of a die in units of 0.25 °C. -/
def dieTemp (s : State) (d : Nat) : Int := toSigned (fld s (Reg.THERM_TEMP d) F.THERM_TEMP_TJ) 16

/-- The shutdown of R446. -/
def shutdown (s : State) : State :=
  let t := resetDies (countHusk s) true
  pulseFault { t with keep := { t.keep with seq := .husk, supplyEn := false, deaf := true } }

/-- THERM_SAMPLE (R445–R447): four junction sensors read, in units of 0.25 °C; `T` is the hottest. -/
def execThermSample (d : Nat) (t1 t2 t3 t4 : Int) (s : State) : Out :=
  onUnit (d < dieCount s.part) <| whenDue s (running s) <|
    let hot := max (max t1 t2) (max t3 t4)
    let t := setFld s (Reg.THERM_TEMP d) F.THERM_TEMP_TJ (ofSigned hot 16)
    let t := if toSigned (fld t (Reg.THERM_MAX d) F.THERM_MAX_TJ) 16 < hot then
        setFld t (Reg.THERM_MAX d) F.THERM_MAX_TJ (ofSigned hot 16) else t
    let alarm : Int := (4 * fld t (Reg.THERM_CFG d) F.THERM_CFG_ALARM : Nat)
    let t := if alarm ≤ hot then setFld t (Reg.THERM_STAT d) F.THERM_STAT_ALARM 1 else t
    let n := if 500 ≤ hot then (dieX t d).hot + 1 else 0
    if 2 ≤ n then shutdown t else setDieX t d { dieX t d with hot := n }

/-- THERM_CAP_STEP (R445, R51): every 1 ms the cap falls or rises by one code. -/
def execThermCapStep (d : Nat) (s : State) : Out :=
  onUnit (d < dieCount s.part) <| whenDue s (running s) <|
    let a := Reg.THERM_STAT d
    let cap := thermCap s d
    let new := if throttleAt s d ≤ dieTemp s d then cap - 1
      else if dieTemp s d ≤ throttleAt s d - 12 then min 60 (cap + 1) else cap
    let t := setFld (setFld s a F.THERM_STAT_CAP new) a F.THERM_STAT_THROTTLING (decide (new < 60)).toNat
    let t := if new < 60 && cap = 60 then setFld t a F.THERM_STAT_THROTEVT 1 else t
    govRefresh t d

/-- A write to THERM_MAX: CLR sets TJ to −40 °C. -/
def thermMaxWrite (s : State) (d : Nat) (v : Word) : State :=
  if v.getLsbD 31 then setFld s (Reg.THERM_MAX d) F.THERM_MAX_TJ 0xFF60 else s

end Sys2Proof.Machine
end

