-- ==== Sys2Proof/Machine/BootRegs.lean ====
section
/-! DEFINITION. The boot block: images as byte strings (R379, R380), handoff (R376), trial and confirmation (R392, R393),
recovery (R398), STATUS_N (R397), and the writes to the BOOT page. -/
namespace Sys2Proof.Machine

/-- A little-endian number of `n` bytes at an offset of a byte string. -/
def leAt (bs : List Byte) (o n : Nat) : Nat := ofBytes ((bs.drop o).take n)

/-- `n` bytes at an offset. -/
def bytesAt (bs : List Byte) (o n : Nat) : List Byte := (bs.drop o).take n

/-- Whether `n` bytes at an offset are 0. -/
def zeroAt (bs : List Byte) (o n : Nat) : Bool := (bytesAt bs o n).all fun b => b = 0

/-! ### Image headers (R379) -/

def imgFlags (h : List Byte) : Nat := leAt h 6 2
def imgEnc (h : List Byte) : Bool := (imgFlags h).testBit 0
def imgRaise (h : List Byte) : Bool := (imgFlags h).testBit 1
def imgVersion (h : List Byte) : Nat := leAt h 8 4
def imgKeyslot (h : List Byte) : Nat := leAt h 0xC 1
def imgDies (h : List Byte) : Nat := leAt h 0xD 1
def imgNseg (h : List Byte) : Nat := leAt h 0xE 2
def imgTrialt (h : List Byte) : Nat := leAt h 0x10 2
def imgRevoke (h : List Byte) : Nat := leAt h 0x12 1
def imgEntry (h : List Byte) : Nat := leAt h 0x14 4
def imgEarly (h : List Byte) : Nat := leAt h 0x18 8
def imgNonce (h : List Byte) : List Byte := bytesAt h 0x20 12
def imgDigest (h : List Byte) : List Byte := bytesAt h 0x30 48
def imgPubkey (h : List Byte) : List Byte := bytesAt h 0x60 96
def imgSig (h : List Byte) : List Byte := bytesAt h 0x100 96
/-- The segment table: NSEG entries of 128 bytes. -/
def imgTable (h : List Byte) : List Byte := bytesAt h 0x200 (imgNseg h * 128)
/-- A segment's entry (R380). -/
def segEntry (h : List Byte) (i : Nat) : List Byte := bytesAt h (0x200 + 128 * i) 128
def segFoff (e : List Byte) : Nat := leAt e 0 4
def segLen (e : List Byte) : Nat := leAt e 4 4
def segDest (e : List Byte) : Nat := leAt e 8 8
def segKind (e : List Byte) : Nat := leAt e 0x10 1
def segDigest (e : List Byte) : List Byte := bytesAt e 0x20 48
def segTag (e : List Byte) : List Byte := bytesAt e 0x50 16

/-- BOOT_STAT.MODE. -/
def bootMode (s : State) : Nat := fld s (Reg.BOOT_STAT 0) F.BOOT_STAT_MODE

/-- The header and table of the image in hand: slot 0 or 1, or 2 for a recovery image. -/
def imageInHand (s : State) : List Byte := (alGet s.boot.slot s.boot.images).getD []

/-- The flash offset of a slot. -/
def slotOff (s : State) (i : Nat) : Nat := (s.boot.dir.getD i (0, 0, 0)).1

/-! ### Fuses -/

/-- The digest of a key slot; unprogrammed where it is all zeros (R385). -/
def keyDigest (s : State) (i : Nat) : List Byte := s.fuses.digests.getD i []
def keyProgrammed (s : State) (i : Nat) : Bool := i < 4 && (keyDigest s i).any fun b => b ≠ 0
def keyRevoked (s : State) (i : Nat) : Bool := s.fuses.revoked.testBit i

/-- BOOT_KEYS. -/
def bootKeys (s : State) : Word :=
  BitVec.ofNat 32 (s.fuses.lock.toNat * 256 + s.fuses.revoked % 16 * 16
    + bitsToNat ((List.range 4).map fun i => keyProgrammed s i))

/-- BOOT_STAT. -/
def bootStat (s : State) : Word := wSet (reg s (Reg.BOOT_STAT 0)) F.BOOT_STAT_LOCKED s.fuses.lock.toNat

/-! ### Handoff, trial and confirmation -/

/-- Whether an image is on trial (R392, R399, R401). -/
def onTrial (s : State) (h : List Byte) : Bool :=
  bootMode s = 0 && (match shellConfirmed s.shell with | some (dg, _, _) => dg ≠ imgDigest h | none => true)

/-- The trial watchdog started (R392, R394). -/
def startTrial (s : State) (h : List Byte) : State :=
  let ms := if imgTrialt h = 0 then 4000 else imgTrialt h * 100
  let t := setFld s (Reg.BOOT_STAT 0) F.BOOT_STAT_TRIAL 1
  storeList (setOasis (setReg t (Reg.BOOT_TRIAL 0) (BitVec.ofNat 32 ms)) 0x40 1) (oasisA + 0x48) (imgDigest h)

/-- The handoff write (R376), after zeroization (R406). The boot block keeps the header of the image handed over, for its
confirmation (R393). -/
def handoff (s : State) (entry : Nat) : State :=
  let h := imageInHand s
  let s := zeroize s
  let t := each (dies s) (fun d u => setReg u (Reg.BUS_CTL d) (reg u (Reg.BUS_CTL d) ||| 3)) s
  let a := Reg.BOOT_STAT 0
  let t := setFld t a F.BOOT_STAT_PRIV 0
  let t := setFld t a F.BOOT_STAT_SLOT (if bootMode s = 2 then 0 else s.boot.slot % 2)
  let t := setReg t (Reg.BOOT_VERSION 0) (BitVec.ofNat 32 (imgVersion h))
  let t := if onTrial s h then startTrial t h else t
  let t : State := { t with boot := { t.boot with step := .done, status := 0, fw := [], images := [(s.boot.slot, h)] } }
  setStew t 0 0 { core := { Core.zero with r := { Regs.zero with pc := entry % 2 ^ 29 } }, st := .run }

/-- A write to BOOT_HANDOFF: only in boot privilege, and not in the error state, which only a reset leaves (R405). -/
def handoffWrite (s : State) (a : Access) (v : Word) : State :=
  if bootPriv s a && s.boot.step ≠ .error then handoff s (v.toNat % 2 ^ 29) else s

/-- The fast-wake record cleared: any VALIDWORD but 0x0A51_0001 means that there is none (R400). -/
def clearFast (s : State) : State := setOasis s 0 0

/-- The fast-wake record of an image (R400). -/
def writeFast (s : State) (h : List Byte) : State :=
  let slot := s.boot.slot % 2
  let t := setOasis (setOasis s 0 0x0A51_0001) 4 (BitVec.ofNat 32 slot)
  let t := setOasis (setOasis t 8 (BitVec.ofNat 32 (slotOff s slot))) 0xC (BitVec.ofNat 32 (imgVersion h))
  storeList t (oasisA + 0x10) (imgDigest h)

/-- The confirmation of the image on trial (R386, R387, R393). -/
def confirm (s : State) : State :=
  let h := imageInHand s
  let t := setReg (setFld s (Reg.BOOT_STAT 0) F.BOOT_STAT_TRIAL 0) (Reg.BOOT_TRIAL 0) 0
  let x := writeRecord t.shell 0x100 (imgDigest h ++ toBytes 4 (imgVersion h) ++ toBytes 4 (s.boot.slot % 2))
  let x := if imgRaise h && decide (shellFloor x < imgVersion h) then writeRecord x 0 (toBytes 4 (imgVersion h)) else x
  let t : State := { t with shell := x, fuses := { t.fuses with revoked := t.fuses.revoked ||| imgRevoke h % 16 } }
  writeFast (setOasis t 0x40 0) h

/-- A write to BOOT_CONFIRM (R393). -/
def confirmWrite (s : State) (v : Word) : State :=
  if bitF s (Reg.BOOT_STAT 0) F.BOOT_STAT_TRIAL && wField v 15 0 = 0x5EED then confirm s else s

/-- TRIAL_EXPIRY (R394). -/
def execTrialExpiry (s : State) : Out :=
  whenDue s (bitF s (Reg.BOOT_STAT 0) F.BOOT_STAT_TRIAL) (assertReset s 2)

/-! ### Recovery and STATUS_N -/

/-- A write to BOOT_RECOV (R398): LEN is kept in recovery mode, and GO starts a check while the Seed waits for an image. -/
def recovWrite (s : State) (v : Word) : State :=
  if bootMode s ≠ 2 then s
  else
    let a := Reg.BOOT_RECOV 0
    let t := setFld s a F.BOOT_RECOV_LEN (wGet v F.BOOT_RECOV_LEN)
    if v.getLsbD 31 && s.boot.step = .recovery then
      { setFld t a F.BOOT_RECOV_BUSY 1 with boot := { t.boot with step := .checking, status := 0 } }
    else t

/-- A write to BOOT_STATUSN (R397). -/
def statusnWrite (s : State) (v : Word) : State :=
  if bitF s (Reg.BOOT_STAT 0) F.BOOT_STAT_PRIV then s else setFld s (Reg.BOOT_STATUSN 0) F.BOOT_STATUSN_DRIVE (v.toNat % 2)

/-! ### The Shell store -/

/-- SHELL_CONF. -/
def shellConf (s : State) : Word :=
  match shellConfirmed s.shell with
  | some (_, _, slot) => BitVec.ofNat 32 (2 + slot % 2)
  | none => 0

/-- SHELL_CONFVER. -/
def shellConfver (s : State) : Word :=
  match shellConfirmed s.shell with
  | some (_, v, _) => BitVec.ofNat 32 v
  | none => 0

end Sys2Proof.Machine
end

