-- ==== Sys2Proof/Machine/LinkSend.lean ====
section
/-! DEFINITION. What a die sends on the Roarn link for a register write: remote requests (R327) and START messages (R328). -/
namespace Sys2Proof.Machine

/-- The remote access engine of a die completes (R327): DONE, STATUS, and for a read the words returned. -/
def engineDone (s : State) (d status : Nat) (words : List Word) : State :=
  let a := Reg.LINK_RSTAT d
  let t := setLinkPort s d { linkPort s d with wait := none }
  let t := setFld (setFld (setFld t a F.LINK_RSTAT_BUSY 0) a F.LINK_RSTAT_DONE 1) a F.LINK_RSTAT_STATUS status
  each (List.range (min 32 words.length)) (fun i u => setReg u (Reg.LINK_RDATA d i) (words.getD i 0)) t

/-- The WORDS of LINK_RCMD: 0 acts as 1, above 32 as 32. -/
def remoteWords (v : Word) : Nat := max 1 (min 32 (wGet v F.LINK_RCMD_WORDS))

/-- The packet of a remote request. -/
def remotePacket (s : State) (d : Nat) (v : Word) : Packet :=
  let write := wGet v F.LINK_RCMD_WRITE = 1
  let n := remoteWords v
  { ty := if write then pkWrreq else pkRdreq
    bcast := bitF s (Reg.LINK_RDST d) F.LINK_RDST_BCAST
    scope := bitF s (Reg.LINK_RDST d) F.LINK_RDST_SCOPE
    hops := ownHops s d
    words := n
    dst := fld s (Reg.LINK_RDST d) F.LINK_RDST_DST
    src := linkId s
    tag := (linkPort s d).tag % 256
    addr := (reg s (Reg.LINK_RADDR_LO d)).toNat + 2 ^ 32 * fld s (Reg.LINK_RADDR_HI d) F.LINK_RADDR_HI_ADDR
    status := 0
    data := if write then (List.range n).map fun i => reg s (Reg.LINK_RDATA d i) else []
    bad := false }

/-- A write to LINK_RCMD (R327). -/
def remoteCmdWrite (s : State) (d : Nat) (v : Word) : State :=
  let a := Reg.LINK_RCMD d
  if !v.getLsbD 31 then setReg s a (v &&& 0x4000003F)
  else if (linkPort s d).wait.isSome then setFld s (Reg.LINK_STAT d) F.LINK_STAT_CFGREJ 1
  else
    let t := setReg s a (v &&& 0x4000003F)
    let p := remotePacket t d v
    let x := linkPort t d
    let t := setLinkPort t d { x with tag := (x.tag + 1) % 256, wait := some (p.tag, p.ty = pkWrreq) }
    let t := setFld t (Reg.LINK_RSTAT d) F.LINK_RSTAT_BUSY 1
    let u := deviceSend t d p false
    if p.bcast then (if p.ty = pkWrreq then engineDone u d 0 [] else u)
    else if p.dst ≠ linkId t && (routePort t p.dst).isNone then engineDone u d 3 []
    else u

/-- The Pulse count of a START message: the first from the next Pulse on whose low word is `low` (R328). -/
def startTarget (s : State) (low : Nat) : Nat :=
  let n := nextPulse s
  n + (low + 2 ^ 32 - n % 2 ^ 32) % 2 ^ 32

/-- A START message acts on the device (R261, R328). -/
def startPorts (s : State) (num low : Nat) : State :=
  sapTrigAll s 3 (fun d m => sapCfg s d m F.SAP_CFG_STARTID = num) (.at (startTarget s low))

/-- A write to LINK_START (R328); the TAG of its packet is not stated. -/
def startWrite (s : State) (d : Nat) (v : Word) : State :=
  let t := setFld s (Reg.LINK_START d) F.LINK_START_NUM (wGet v F.LINK_START_NUM)
  if !v.getLsbD 31 then t
  else
    let num := wGet v F.LINK_START_NUM
    let low := reg t (Reg.LINK_START_TP d)
    let p : Packet := { ty := pkStart, bcast := true, scope := true, hops := ownHops t d, words := 2, dst := 0,
                        src := linkId t, tag := Config.freeNat t.fresh % 256, addr := 0, status := 0,
                        data := [BitVec.ofNat 32 num, low], bad := false }
    let u := deviceSend { t with fresh := t.fresh + 1 } d p false
    startPorts u num low.toNat

end Sys2Proof.Machine
end

