-- ==== Sys2Proof/Machine/Irq.lean ====
section
/-! DEFINITION. The interrupt sources of the stewards (R349). -/
namespace Sys2Proof.Machine

/-- SAP STAT with its threshold bits (R256). -/
def sapStat (s : State) (d m : Nat) : Word :=
  let w := reg s (Reg.SAP_STAT d m)
  wSet (wSet w F.SAP_STAT_TXTHR (ringThr s d m true).toNat) F.SAP_STAT_RXTHR (ringThr s d m false).toNat

/-- A port's steward interrupt: its page's condition, and for SAP0–SAP3 that of the biphase block. -/
def sapIrq (s : State) (d m : Nat) : Bool :=
  (sapStat s d m &&& reg s (Reg.SAP_IE d m) &&& 0xFFE) ≠ 0
    || (m < 4 && wField (reg s (Reg.BIP_STAT d m)) 7 0 &&& fld s (Reg.BIP_CFG d m) F.BIP_CFG_IE ≠ 0)

/-- The measurement interrupt. -/
def silenceIrq (s : State) (d : Nat) : Bool :=
  (reg s (Reg.SILENCE_EVT d) &&& reg s (Reg.SILENCE_IE d) &&& 0xFFFFFF) ≠ 0
    || (bitF s (Reg.SILENCE_IE d) F.SILENCE_IE_ALARM && (List.range 16).any fun i => reg s (Reg.SILENCE_ALARM d i) ≠ 0)

/-- Whether the other steward of a die is HALTED or DEBUG. -/
def otherHalted (s : State) (d i : Nat) : Bool :=
  let st := (stew s d (1 - i)).st
  st = .halted || st = .debug

/-- The condition of source `n` for steward `i` of die `d`. -/
def irqCond (s : State) (d i n : Nat) : Bool :=
  match n with
  | 0 => queueCond s d 0
  | 1 => bitF s (Reg.PULSE_SWAP_RES d) F.PULSE_SWAP_RES_VALID
  | 2 => bitF s (Reg.PULSE_ADMIT_LOG d) F.PULSE_ADMIT_LOG_VALID || bitF s (Reg.PULSE_OVR_LOG d) F.PULSE_OVR_LOG_VALID
  | 3 => bitF s (Reg.GOV_STAT d) F.GOV_STAT_CEIL || bitF s (Reg.GOV_STAT d) F.GOV_STAT_THCAP
  | 4 => silenceIrq s d
  | 5 => fld s (Reg.GEN_STAT d) F.GEN_STAT_DONE ≠ 0
  | 16 => (reg s (Reg.LINK_STAT d) &&& 0xF8) ≠ 0
  | 17 => bitF s (Reg.LINK_RSTAT d) F.LINK_RSTAT_DONE
  | 18 => queueCond s d 1
  | 19 => (List.range 46).any fun q => queueCond s d (q + 2)
  | 20 => (reg s (Reg.DDR_STAT d) &&& 0x3C) ≠ 0
  | 21 => (List.range 8).any fun p => bitF s (Reg.CARAVAN_STAT d p) F.CARAVAN_STAT_REJ
      || bitF s (Reg.CARAVAN_LATE_LOG d p) F.CARAVAN_LATE_LOG_VALID
  | 22 => bitF s (Reg.BRIDGE_STAT d) F.BRIDGE_STAT_MULTI
  | 23 => reg s (Reg.WADI_STAT d) ≠ 0
  | 24 => bitF s (Reg.BUS_ERR_HI d) F.BUS_ERR_HI_VALID
  | 25 => reg s (Reg.STEWARD_DBELL d i) ≠ 0
  | 26 => otherHalted s d i
  | 27 => (reg s (Reg.PWR_EVT d) &&& reg s (Reg.PWR_IE d)) ≠ 0
  | 28 => d = 0 && (reg s (Reg.WAKE_STAT 0) &&& reg s (Reg.WAKE_IE 0)) ≠ 0
  | 29 => (reg s (Reg.SPARE_STAT d) &&& reg s (Reg.SPARE_IE d) &&& 0x7C) ≠ 0
      || (reg s (Reg.THERM_STAT d) &&& reg s (Reg.THERM_IE d) &&& 6) ≠ 0
  | 30 => (reg s (Reg.CSP_STAT d) &&& reg s (Reg.CSP_IE d) &&& 0x3FF) ≠ 0
  | 31 => (List.range 6).any fun e => reg s (Reg.SRC_STAT d e) ≠ 0
  | n => 6 ≤ n && n ≤ 15 && sapIrq s d (n - 6)

/-- The pending sources of steward `i` of die `d` (R349). -/
def irqPending (s : State) (d i : Nat) : Word :=
  let ie := reg s (Reg.STEWARD_IE d i)
  BitVec.ofNat 32 (bitsToNat ((List.range 32).map fun n => ie.getLsbD n && irqCond s d i n))

end Sys2Proof.Machine
end

