-- ==== Sys2Proof/Machine/RegRead.lean ====
section
/-! DEFINITION. Reads of the register pages (R12, R351, R367, R368, R463–R465): registers whose value is composed, the DATA
windows, queue pops, and for every other register what it holds. -/
namespace Sys2Proof.Machine

/-- A register as it stands; offsets that no register takes read 0 (R351). -/
def plainRead (s : State) (d q o : Nat) : Word :=
  let a := regA d q o
  if (regRow a).isSome then reg s a else 0

/-- The key of a master's shadow of a 64-bit counter's high word (R368). -/
def highKey (a : Access) : Nat := a.master * 8 + a.odie

/-- A read of PULSE_COUNT_LO latches the high word for the master (R368). -/
def countLowRead (s : State) (d : Nat) (a : Access) : State × Word :=
  let t := setTab s tHigh d (highKey a) (reg s (Reg.PULSE_COUNT_HI 0))
  (setTab t tHigh d (highKey a + 2 ^ 32) 1, reg s (Reg.PULSE_COUNT_LO 0))

/-- A read of PULSE_COUNT_HI: the master's shadow, if it holds one. -/
def countHighRead (s : State) (d : Nat) (a : Access) : Word :=
  if tab s tHigh d (highKey a + 2 ^ 32) = 1 then tab s tHigh d (highKey a) else reg s (Reg.PULSE_COUNT_HI 0)

/-- Requests that a die coordinates and that are pending. -/
def swapPend (s : State) (d : Nat) : Nat := ((pendingSwaps s).filter fun r => r.coord = d).length

/-- PULSE_LAT_DATA: words 2 and 3 read 0 while EN is 0. -/
def latRead (s : State) (d : Nat) : Word :=
  let sel := (reg s (Reg.PULSE_LAT_SEL d)).toNat % 256
  if 2 ≤ sel % 4 && !(tab s tLat d (sel / 4 * 4)).getLsbD 31 then 0 else tab s tLat d sel

/-- The PULSE page. -/
def readPulse (s : State) (d o : Nat) (a : Access) : State × Word :=
  match o with
  | 0x00 => (s, reg s (Reg.PULSE_CTL 0))
  | 0x04 => (s, reg s (Reg.PULSE_CFG 0))
  | 0x08 => (s, pulseStat s d)
  | 0x0C => (s, BitVec.ofNat 32 (stepBudget s))
  | 0x10 => countLowRead s d a
  | 0x14 => (s, countHighRead s d a)
  | 0x48 =>
    let w := reg s (Reg.PULSE_SGRP_SEL d)
    (s, tab s tSgrp d (wField w 7 0 * 16 + wField w 11 8))
  | 0x4C => (s, wSet (reg s (Reg.PULSE_SWAP_RES d)) F.PULSE_SWAP_RES_PEND (swapPend s d))
  | 0x64 => (s, tab s tFade d ((reg s (Reg.PULSE_FADE_SEL d)).toNat % 2048))
  | 0x68 => (s, BitVec.ofNat 32 (busyFaders s d).length)
  | 0x74 => (s, latRead s d)
  | _ => (s, plainRead s d 1 o)

/-- The milliseconds left of a time that counts down in a register: free, and no more than the register held, which is what
it held at its start or its last read (assumption log 3). -/
def timeLeft (s : State) (a : Nat) : State × Word :=
  let n := BitVec.ofNat 32 (Config.freeNat s.fresh % ((reg s a).toNat + 1))
  (setReg { s with fresh := s.fresh + 1 } a n, n)

/-- The PWR page. -/
def readPwr (s : State) (d o : Nat) : Word :=
  match o with
  | 0x10 => votesOf s d (fld s (Reg.PWR_VSEL d) F.PWR_VSEL_CLIENT)
  | 0x14 => dvote s d
  | 0x18 => dstat s d
  | _ => plainRead s d 3 o

/-- The WAKE page (die 0). -/
def readWake (s : State) (o : Nat) : State × Word :=
  match o with
  | 0x34 => if bitF s (Reg.WAKE_TIMER 0) F.WAKE_TIMER_EN then timeLeft s (Reg.WAKE_TCNT 0) else (s, 0)
  | 0x38 => (s, BitVec.ofNat 32 (min 0xFFFF (oasis s 0x8C).toNat * 2 ^ 16 + (oasis s 0x90).toNat % 256))
  | _ => (s, plainRead s 0 4 o)

/-- The BOOT page (die 0). -/
def readBoot (s : State) (o : Nat) : State × Word :=
  match o with
  | 0x00 => (s, bootStat s)
  | 0x1C =>
    if bitF s (Reg.BOOT_STAT 0) F.BOOT_STAT_TRIAL then timeLeft s (Reg.BOOT_TRIAL 0) else (s, 0)
  | 0x24 => (s, bootKeys s)
  | 0x28 => (s, BitVec.ofNat 32 s.fuses.uid)
  | 0x2C => (s, BitVec.ofNat 32 (s.fuses.uid / 2 ^ 32))
  | 0x34 => (s, if bootMode s = 2 then reg s (Reg.BOOT_RECOV 0) else 0)
  | _ => (s, plainRead s 0 5 o)

/-- The SHELL page (die 0). -/
def readShell (s : State) (o : Nat) : Word :=
  match o with
  | 0x00 => BitVec.ofNat 32 (shellFloor s.shell)
  | 0x04 => shellConfver s
  | 0x08 => shellConf s
  | 0x0C => BitVec.ofNat 32 (shellRejects s.shell).length
  | 0x10 => BitVec.ofNat 32 s.shell.writes
  | _ => 0

/-- The FW page: BASE, LIMIT, RD and WR of the region selected. -/
def readFw (s : State) (d o : Nat) : Word :=
  if 8 ≤ o && o < 0x18 && o % 4 = 0 then fwWord s d (fld s (Reg.FW_SEL d) F.FW_SEL_REGION) ((o - 8) / 4)
  else plainRead s d 7 o

/-- The SPARE page: the log entry selected. -/
def readSpare (s : State) (d o : Nat) : Word :=
  if o = 0x88 || o = 0x8C then tab s tLog d (2 * fld s (Reg.SPARE_LSEL d) F.SPARE_LSEL_ENTRY + (o - 0x88) / 4)
  else plainRead s d 9 o

/-- A queue's block (R370). -/
def readQueue (s : State) (d q o : Nat) (a : Access) : State × Word :=
  if 0x20 ≤ o && o < 0x100 then
    let i := (o - 0x20) / 4
    if queueWords s d q ≤ i then (s, 0)
    else if i = 0 then queuePop s d q a
    else (s, tab s tQLatch d (queueKey q a i))
  else (s, plainRead s d (0x10 + q / 16) (q % 16 * 0x100 + o))

/-- BRIDGE_STAT. -/
def bridgeStat (s : State) (d : Nat) : Word :=
  let bits (f : Nat → Bool) : Nat := bitsToNat ((List.range 3).map f)
  let w := reg s (Reg.BRIDGE_STAT d)
  wSet (wSet w F.BRIDGE_STAT_LOCK (bits fun n => bridgeLock s d n)) F.BRIDGE_STAT_PEND
    (bits fun n => (bridge s d n).change.isSome)

/-- The BRIDGE page. -/
def readBridge (s : State) (d o : Nat) : Word :=
  match o with
  | 0x08 => bridgeStat s d
  | 0x18 =>
    let sel := (reg s (Reg.BRIDGE_TSEL d)).toNat % 8192
    if sel / 2048 < 3 && (neighbour s d (sel / 2048)).isSome then tab s tBridge d sel else 0
  | _ => plainRead s d 0x21 o

/-- The silence-list entry that SILENCE_LSEL selects, if its slot exists (R298). -/
def slistIndex (s : State) (d : Nat) : Option Nat :=
  let w := reg s (Reg.SILENCE_LSEL d)
  if wField w 11 7 < 18 then
    some (((wField w 14 12 * 18 + wField w 11 7) * 2 + wField w 6 6) * 64 + wField w 5 0)
  else none

/-- The SILENCE page. -/
def readSilence (s : State) (d o : Nat) : Word :=
  match o with
  | 0x04 =>
    let sel := (reg s (Reg.SILENCE_SEL d)).toNat % 4096
    if sel % 4 = 3 then 0 else tab s tDet d sel
  | 0x0C => match slistIndex s d with | some i => tab s tSlist d i | none => 0
  | _ => plainRead s d 0x38 o

/-- An SRC page. -/
def readSrc (s : State) (d e o : Nat) : Word :=
  if o = 0x0C then
    let w := reg s (Reg.SRC_CHSEL d e)
    if wField w 0 0 = 0 then tab s tSrc d (e * 64 + wField w 6 1) else srcWord1 s d e (wField w 6 1)
  else plainRead s d (0x50 + e) o

/-- The CSP page (R454). -/
def readCsp (s : State) (d o : Nat) (a : Access) : Word :=
  if o = 8 then cspStat s d
  else if 0x24 ≤ o && o < 0x38 && o % 4 = 0 then tab s tCsp d (cspKey a ((o - 0x20) / 4))
  else plainRead s d 0x60 o

/-- The LINK page; the device-wide registers read 0 on dies 1–7. -/
def readLink (s : State) (d o : Nat) : Word :=
  if o < 0x40 && d ≠ 0 then 0
  else match o with
  | 0x14 => tab s tRoute 0 ((reg s (Reg.LINK_RTSEL 0)).toNat % 1024)
  | 0x20 => routeCfg s
  | 0x48 => linkStat s d
  | 0x84 => tab s tLexp d ((reg s (Reg.LINK_TSEL d)).toNat % 8192)
  | _ => plainRead s d 0x68 o

/-- A CARAVAN page. -/
def readCaravan (s : State) (d p o : Nat) : Word :=
  match o with
  | 0x08 => wSet (reg s (Reg.CARAVAN_STAT d p)) F.CARAVAN_STAT_PEND (caravan s d p).change.isSome.toNat
  | 0x18 =>
    let sel := (reg s (Reg.CARAVAN_TSEL d p)).toNat % 4096
    if sel % 8 = 7 then 0 else tab s tCar d (p * 4096 + sel)
  | _ => plainRead s d (0x78 + p) o

/-- The line-table entry that POD_LTAB_SEL selects, if its slot exists: kernel, bank, table index (R184). -/
def ltabIndex (s : State) (d p : Nat) : Option (Nat × Bool × Nat) :=
  let w := reg s (Reg.POD_LTAB_SEL d p)
  let k := p * 18 + wField w 10 6
  if wField w 10 6 < 18 then some (k, w.getLsbD 5, (k * 2 + wField w 5 5) * 32 + wField w 4 0) else none

/-- A POD page. -/
def readPod (s : State) (d p o : Nat) : Word :=
  if o = 4 then match ltabIndex s d p with | some (_, _, i) => tab s tLtab d i | none => 0
  else plainRead s d (0x80 + p) o

/-- A KERNEL page (R464). -/
def readKernel (s : State) (d k o : Nat) : Word :=
  let off := (dom s d (pdPod (k / 18))).st = .off
  if off then
    if o = 0 then 0
    else match regRow (regA d (0x100 + k) o) with
      | some _ => resetReg s.part (regA d (0x100 + k) o)
      | none => 0
  else match o with
  | 0 => kernelStat s d k
  | 4 => kernelCtl s d k
  | _ => plainRead s d (0x100 + k) o

/-- The state code of a steward. -/
def sstateCode (st : SState) : Nat :=
  match st with
  | .held => 0
  | .run => 1
  | .wait => 2
  | .halted => 3
  | .debug => 4

/-- A STEWARD page. -/
def readSteward (s : State) (d i o : Nat) : Word :=
  match o with
  | 0x04 => BitVec.ofNat 32 (sstateCode (stew s d i).st * 2 ^ 28)
  | 0x1C => irqPending s d i
  | 0x28 => BitVec.ofNat 32 (bitsToNat ((List.range 32).map fun q => queueCond s d q))
  | 0x2C => BitVec.ofNat 32 (bitsToNat ((List.range 16).map fun q => queueCond s d (32 + q)))
  | _ => plainRead s d (0x200 + i) o

/-- A register read: page `q`, offset `o` of die `d`. -/
def regRead (s : State) (d q o : Nat) (a : Access) : State × Word :=
  if q = 1 then readPulse s d o a
  else if q = 2 then
    (s, if o = 0x24 then
          (if fld s (Reg.GOV_WEAR_SEL d) F.GOV_WEAR_SEL_KERNEL < 144 then
            tab s tWear d (fld s (Reg.GOV_WEAR_SEL d) F.GOV_WEAR_SEL_KERNEL) else 0)
        else plainRead s d q o)
  else if q = 3 then (s, readPwr s d o)
  else if 4 ≤ q && q ≤ 6 then
    (if d ≠ 0 then (s, 0) else if q = 4 then readWake s o else if q = 5 then readBoot s o else (s, readShell s o))
  else if q = 7 then (s, readFw s d o)
  else if q = 9 then (s, readSpare s d o)
  else if 0x10 ≤ q && q ≤ 0x12 then readQueue s d ((q - 0x10) * 16 + o / 0x100) (o % 0x100) a
  else if q = 0x21 then (s, readBridge s d o)
  else if q = 0x38 then (s, readSilence s d o)
  else if 0x40 ≤ q && q ≤ 0x49 then (s, if o = 0x28 then sapStat s d (q - 0x40) else plainRead s d q o)
  else if 0x50 ≤ q && q ≤ 0x55 then (s, readSrc s d (q - 0x50) o)
  else if q = 0x58 then (s, if d ≠ 0 && o < 0x14 then 0 else plainRead s d q o)
  else if q = 0x60 then (s, readCsp s d o a)
  else if q = 0x68 then (s, readLink s d o)
  else if q = 0x70 then
    (s, if o = 8 then ddrStat s d else if o = 0x10 then BitVec.ofNat 32 (ddrBudget s d) else plainRead s d q o)
  else if 0x78 ≤ q && q ≤ 0x7F then (s, readCaravan s d (q - 0x78) o)
  else if 0x80 ≤ q && q ≤ 0x87 then (s, readPod s d (q - 0x80) o)
  else if 0x100 ≤ q && q ≤ 0x18F then (s, readKernel s d (q - 0x100) o)
  else if 0x200 ≤ q && q ≤ 0x201 then (s, readSteward s d (q - 0x200) o)
  else (s, plainRead s d q o)

end Sys2Proof.Machine
end

