-- ==== Sys2Proof/Machine/RegWrite.lean ====
section
/-! DEFINITION. Writes of the register pages (R12, R351, R367, R464): registers with an action, the DATA windows, queue
pushes, and for every other register the masks of its access codes. -/
namespace Sys2Proof.Machine

/-- A write as the access codes of the register give it; an offset that no register takes ignores it (R12, R351). -/
def plainWrite (s : State) (d q o : Nat) (a : Access) (v : Word) : State :=
  match regRow (regA d q o) with
  | some r => setReg s (regA d q o) (maskWrite r (reg s (regA d q o)) v (bootPriv s a))
  | none => s

/-- A register cleared by a write of 1 to its VALID bit. -/
def clearValid (s : State) (a : Nat) (v : Word) : State := if v.getLsbD 31 then setReg s a 0 else s

/-! ### The die base -/

/-- The bits that each word of a swap group entry holds (R224). -/
def sgrpMask (w : Nat) : Word :=
  match w with
  | 4 => 0xFFFF
  | 5 => 0x7FF
  | 6 => 0xF
  | 11 | 12 | 13 | 14 | 15 => 0
  | _ => 0xFFFF_FFFF

/-- A write of PULSE_SGRP_DATA (R224). -/
def sgrpWrite (s : State) (d : Nat) (v : Word) : Ans :=
  let sel := reg s (Reg.PULSE_SGRP_SEL d)
  let g := wField sel 7 0
  let w := wField sel 11 8
  if (pendingGroup s g).isSome then refuse s else done (setTab s tSgrp d (g * 16 + w) (v &&& sgrpMask w))

/-- A write of PULSE_FADE_DATA (R236); words 2 and 3 ignore it. -/
def fadeWrite (s : State) (d : Nat) (v : Word) : Ans :=
  let sel := (reg s (Reg.PULSE_FADE_SEL d)).toNat % 2048
  if fadeBusy s d (sel / 4) then refuse s
  else match sel % 4 with
    | 0 => done (setTab s tFade d sel v)
    | 1 => done (setTab s tFade d sel (v &&& 0x3FFF_3FFF))
    | _ => done s

/-- A write of PULSE_LAT_DATA (R242); words 2 and 3 ignore it. -/
def latWrite (s : State) (d : Nat) (v : Word) : State :=
  let sel := (reg s (Reg.PULSE_LAT_SEL d)).toNat % 256
  match sel % 4 with
  | 0 => setTab s tLat d sel (v &&& 0xFF00_FFFF)
  | 1 => setTab s tLat d sel (v &&& 0x3FFF_3FFF)
  | _ => s

/-- The PULSE page; RUN, RATE and COUNT are those of die 0 (R26, R28). -/
def writePulse (s : State) (d o : Nat) (a : Access) (v : Word) : Ans :=
  match o with
  | 0x00 => done (if d = 0 then pulseCtlWrite s v else s)
  | 0x04 => done (if d = 0 then pulseCfgWrite s v else s)
  | 0x10 => done (if d = 0 then pulseCountWrite s false v else s)
  | 0x14 => done (if d = 0 then pulseCountWrite s true v else s)
  | 0x20 => done (clearValid s (Reg.PULSE_ADMIT_LOG d) v)
  | 0x28 => done (if v.getLsbD 31 then setReg (setReg s (Reg.PULSE_OVR_LOG d) 0) (Reg.PULSE_OVR_STEP d) 0 else s)
  | 0x4C => done (if v.getLsbD 31 then setReg (setReg s (Reg.PULSE_SWAP_RES d) 0) (Reg.PULSE_SWAP_WHO d) 0 else s)
  | 0x48 => sgrpWrite s d v
  | 0x64 => fadeWrite s d v
  | 0x74 => done (latWrite s d v)
  | _ => done (plainWrite s d 1 o a v)

/-- The GOV page; settings act at once (R51, R52). -/
def writeGov (s : State) (d o : Nat) (a : Access) (v : Word) : Ans :=
  match o with
  | 0x00 | 0x04 | 0x08 | 0x18 => done (govRefresh (plainWrite s d 2 o a v) d)
  | 0x14 =>
    let r := Reg.GOV_MARGIN_MIN d
    done (if v.getLsbD 23 then setFld (setFld s r F.GOV_MARGIN_MIN_MARGIN 0x7FFF) r F.GOV_MARGIN_MIN_KERNEL 0 else s)
  | _ => done (plainWrite s d 2 o a v)

/-- The PWR page. -/
def writePwr (s : State) (d o : Nat) (a : Access) (v : Word) : Ans :=
  match o with
  | 0x00 => done (pwrCtlWrite s d v)
  | 0x04 => done (modeWrite s d v)
  | 0x08 => done (if d = 0 then holdWrite s v else s)
  | 0x10 => done (vdataWrite s d v)
  | 0x1C => done (clearValid s (Reg.PWR_REFUSE d) v)
  | 0x2C => done (padrelWrite s d v)
  | _ => done (plainWrite s d 3 o a v)

/-- The WAKE page (die 0). A pin that a write makes active refuses entries from then on (R421). -/
def writeWake (s : State) (o : Nat) (a : Access) (v : Word) : Ans :=
  done (powerSyncAll (if o = 0x30 then wakeTimerWrite s v else plainWrite s 0 4 o a v) none)

/-- The BOOT page (die 0); BOOT_HANDOFF is BP. -/
def writeBoot (s : State) (o : Nat) (a : Access) (v : Word) : Ans :=
  match o with
  | 0x18 => done (confirmWrite s v)
  | 0x20 => if bootPriv s a then done (handoffWrite s a v) else refuse s
  | 0x30 => done (statusnWrite s v)
  | 0x34 => done (recovWrite s v)
  | _ => done (plainWrite s 0 5 o a v)

/-- The bits that each word of a firewall region holds (R365). -/
def fwMask (w : Nat) : Word :=
  match w with
  | 0 => 0x80FF_FFFF
  | 1 => 0x00FF_FFFF
  | _ => 0x000F_FFFF

/-- The FW page (R365, R366): BP throughout; LOCK is set by 1 and locks the page. -/
def writeFw (s : State) (d o : Nat) (a : Access) (v : Word) : Ans :=
  let r := Reg.FW_CTL d
  if bitF s r F.FW_CTL_LOCK then refuse s
  else if 0x20 ≤ o then done s
  else if !bootPriv s a then refuse s
  else if o = 0 then done (setReg s r ((v &&& 3) ||| (reg s r &&& 2)))
  else if 8 ≤ o && o < 0x18 && o % 4 = 0 then
    let w := (o - 8) / 4
    done (setTab s tFw d (fld s (Reg.FW_SEL d) F.FW_SEL_REGION * 4 + w) (v &&& fwMask w))
  else done (plainWrite s d 7 o a v)

/-- The BUS page (R354, R358, R359, R361): BUS_CTL is BP, and ROMLOCK is only set. -/
def writeBus (s : State) (d o : Nat) (a : Access) (v : Word) : Ans :=
  match o with
  | 0x00 =>
    let r := Reg.BUS_CTL d
    if bootPriv s a then done (setReg s r ((v &&& 3) ||| (reg s r &&& 2))) else refuse s
  | 0x08 =>
    let r := Reg.BUS_SLICE d
    let w := v &&& 0x1F
    done (if w = reg s r then s else setFld (setReg s r w) (Reg.BUS_STAT d) F.BUS_STAT_SLICEPEND 1)
  | 0x14 => done (if v.getLsbD 31 then setReg (setReg s (Reg.BUS_ERR_LO d) 0) (Reg.BUS_ERR_HI d) 0 else s)
  | 0x24 => done (setReg s (Reg.BUS_PRI1 d) (v ||| 0xFFFF_FF00))
  | _ => done (plainWrite s d 8 o a v)

/-! ### Queues -/

/-- Whether a queue may be enabled with a CFG word (R369): DEPTH and EWORDS in range, the ring below 4 MiB. -/
def queueFits (s : State) (d q : Nat) (w : Word) : Bool :=
  let ew := wGet w F.QUEUE_CFG_EWORDS
  let depth := wGet w F.QUEUE_CFG_DEPTH
  1 ≤ ew && ew ≤ 56 && 1 ≤ depth && depth ≤ 4096
    && decide (fld s (Reg.QUEUE_BASE d q) F.QUEUE_BASE_ADDR * 4 + 4 * ew * depth ≤ 0x40_0000)

/-- A queue emptied. -/
def queueEmpty (s : State) (d q : Nat) : State :=
  setQueueCount (setReg (setReg s (Reg.QUEUE_HEAD d q) 0) (Reg.QUEUE_TAIL d q) 0) d q 0

/-- A write of a queue's CFG (R369); OVWR and EWORDS of queues 0–2 are fixed. -/
def queueCfgWrite (s : State) (d q : Nat) (v : Word) : State :=
  let a := Reg.QUEUE_CFG d q
  if bitF s a F.QUEUE_CFG_EN then
    (if v.getLsbD 31 then s else queueEmpty (setFld s a F.QUEUE_CFG_EN 0) d q)
  else
    let w := if q < 3 then (v &&& 0x8000_1FFF) ||| (reg s a &&& 0x003F_0000) else v &&& 0xC03F_1FFF
    if w.getLsbD 31 && !queueFits s d q w then setFld s (Reg.QUEUE_STAT d q) F.QUEUE_STAT_CFGERR 1
    else setQueueCount (setReg s a w) d q 0

/-- A queue's block (R369, R370). -/
def writeQueue (s : State) (d q o : Nat) (a : Access) (v : Word) : Ans :=
  if 0x20 ≤ o && o < 0x100 then
    let i := (o - 0x20) / 4
    if queueWords s d q ≤ i then done s
    else if i = 0 then done (queuePushData s d q a v)
    else done (setTab s tQStage d (queueKey q a i) v)
  else if o = 0 then done (queueCfgWrite s d q v)
  else if o = 4 && bitF s (Reg.QUEUE_CFG d q) F.QUEUE_CFG_EN then done s
  else done (plainWrite s d (0x10 + q / 16) (q % 16 * 0x100 + o) a v)

/-! ### Lines, bridges, measurement -/

/-- The WADI page. -/
def writeWadi (s : State) (d o : Nat) (a : Access) (v : Word) : Ans :=
  let t := plainWrite s d 0x20 o a v
  done (if o = 0 && v.getLsbD 1 then setReg t (Reg.WADI_MULTI d) 0 else t)

/-- A write of BRIDGE_SWAP (R196, R233): the ports it names change tables at BRIDGE_TPULSE, in place of any request
pending. -/
def bridgeSwapWrite (s : State) (d : Nat) (v : Word) : State :=
  each (List.range 3) (fun n t =>
    if (neighbour t d n).isNone then t
    else if v.getLsbD n then
      swapDirect (setBridge t d n { bridge t d n with change := some ((reg t (Reg.BRIDGE_TPULSE d)).toNat, false) }) d 2 n
    else setBridge t d n { bridge t d n with change := none }) s

/-- A write of BRIDGE_TDATA (R191, R196). -/
def bridgeDataWrite (s : State) (d : Nat) (v : Word) : Ans :=
  let sel := (reg s (Reg.BRIDGE_TSEL d)).toNat % 8192
  let n := sel / 2048
  if (neighbour s d n).isNone then done s
  else if bridgeEn s d n && sel / 1024 % 2 = bridgeActive s d n then refuse s
  else done (setTab s tBridge d sel (v &&& 0xBFFF_03FF))

/-- The ports that a die has, as a mask. -/
def portMask (s : State) (d : Nat) : Word :=
  BitVec.ofNat 32 (bitsToNat ((List.range 3).map fun n => (neighbour s d n).isSome))

/-- The BRIDGE page; the bits of ports that the die does not have ignore writes. -/
def writeBridge (s : State) (d o : Nat) (a : Access) (v : Word) : Ans :=
  match o with
  | 0x00 => done (plainWrite s d 0x21 o a (v &&& portMask s d))
  | 0x08 =>
    let t := plainWrite s d 0x21 o a v
    done (if v.getLsbD 3 then setFld t (Reg.BRIDGE_STAT d) F.BRIDGE_STAT_MDST 0 else t)
  | 0x0C => done (bridgeSwapWrite s d v)
  | 0x18 => bridgeDataWrite s d v
  | _ => done (plainWrite s d 0x21 o a v)

/-- A METER page. -/
def writeMeter (s : State) (d q o : Nat) (a : Access) (v : Word) : Ans :=
  let m := (q - 0x30) * 128 + o / 0x20
  match o % 0x20 with
  | 0x00 => done (meterCfgWrite s d m v)
  | 0x1C => done (if v.getLsbD 0 then setReg s (Reg.METER_PKHOLD d m) 0 else s)
  | _ => done (plainWrite s d q o a v)

/-- The SILENCE page. -/
def writeSilence (s : State) (d o : Nat) (a : Access) (v : Word) : Ans :=
  if o = 0x04 then
    let sel := (reg s (Reg.SILENCE_SEL d)).toNat % 4096
    done (detWrite s d (sel / 4) (sel % 4) v)
  else if o = 0x0C then takeOr (slistWrite s d v)
  else if 0x40 ≤ o && o < 0x80 && o % 4 = 0 then done (parkWrite s d ((o - 0x40) / 8) (o % 8 = 0) v)
  else if 0x100 ≤ o && o < 0x200 && o % 4 = 0 then done (laWrite s d ((o - 0x100) / 4) v)
  else done (plainWrite s d 0x38 o a v)

/-- The GEN page (R308): the settings of a channel that is not IDLE ignore writes. -/
def writeGen (s : State) (d o : Nat) (a : Access) (v : Word) : Ans :=
  if 0x100 ≤ o && o < 0x200 then
    let c := (o - 0x100) / 0x20
    if o % 0x20 < 0x18 && genState s d c ≠ genIdle then done (setFld s (Reg.GEN_STATC d c) F.GEN_STATC_CFGREJ 1)
    else if o % 0x20 = 0x18 then done (genCtlWrite s d c v)
    else done (plainWrite s d 0x3C o a v)
  else done (plainWrite s d 0x3C o a v)

/-! ### Ports -/

/-- Settings and pointers of a serial audio port that only a STOPPED port takes (R256, R260). -/
def sapFixed (o : Nat) : Bool :=
  match o with
  | 0x04 | 0x08 | 0x40 | 0x44 | 0x48 | 0x60 | 0x64 | 0x6C => true
  | _ => false

/-- A SAP page. Software that moves on the transmit ring's WPTR gives packed samples to the slots that wait for theirs, and the samples received
before it moves the receive ring's RPTR on are judged by the room that was there (R259). -/
def writeSap (s : State) (d m o : Nat) (a : Access) (v : Word) : Ans :=
  let t :=
    if o = 0 then sapCtlWrite s d m v
    else if o = 0x10 then sapMaskWrite s d m false v
    else if o = 0x14 then sapMaskWrite s d m true v
    else if o = 0x34 && m = 0 then sapTrigWrite s d v
    else if sapFixed o && sapState s d m ≠ sapStopped then sapFlag s d m F.SAP_STAT_CFGREJ
    else
      let s := if o = 0x4C then rxJudgeSome s d m else s
      let u := ringRotFit (ringRotFit (plainWrite s d (0x40 + m) o a v) d m false) d m true
      if o = 0x68 then ringFill u d m else u
  done (powerSync t d)

/-- An SRC page (R282). -/
def writeSrc (s : State) (d e o : Nat) (a : Access) (v : Word) : Ans :=
  if o = 0x0C then
    let w := reg s (Reg.SRC_CHSEL d e)
    if wField w 0 0 = 1 then done s
    else takeOr (srcEntryWrite s d e (wField w 6 1) v)
  else done (plainWrite s d (0x50 + e) o a v)

/-- Ring settings and pointers of a biphase port that only a STOPPED port takes. -/
def bipFixed (o : Nat) : Bool :=
  match o with
  | 0x14 | 0x18 | 0x1C | 0x24 | 0x28 | 0x30 => true
  | _ => false

/-- The CLKSTEER page: the loop's registers are those of die 0. -/
def writeSteer (s : State) (d o : Nat) (a : Access) (v : Word) : Ans :=
  if o < 0x14 then
    (if d ≠ 0 then done s
     else if o = 0 then done (steerCtlWrite s v)
     else if o = 4 then done (steerSelWrite s v)
     else done (plainWrite s d 0x58 o a v))
  else if 0x100 ≤ o && o < 0x500 && bipFixed (o % 0x100) && sapState s d ((o - 0x100) / 0x100) ≠ sapStopped then
    done (sapFlag s d ((o - 0x100) / 0x100) F.SAP_STAT_CFGREJ)
  else done (plainWrite s d 0x58 o a v)

/-- The CSP page (R454–R457). -/
def writeCsp (s : State) (d o : Nat) (a : Access) (v : Word) : Ans :=
  if o = 0 then done (cspCtlWrite s d v)
  else if o = 4 then done (cspCfgWrite s d v)
  else if o = 0x20 then done (cspPush s d a v)
  else if 0x24 ≤ o && o < 0x38 && o % 4 = 0 then done (cspStage s d a ((o - 0x20) / 4) v)
  else done (plainWrite s d 0x60 o a v)

/-- The LINK page; the device-wide registers are those of die 0. -/
def writeLink (s : State) (d o : Nat) (a : Access) (v : Word) : Ans :=
  if o < 0x40 && d ≠ 0 then done s
  else match o with
  | 0x00 => done (linkIdWrite s v)
  | 0x04 => done (elect (plainWrite s d 0x68 o a v))
  | 0x14 => takeOr (routeWrite s v)
  | 0x18 => done (routeSwapGo s v)
  | 0x40 => done (linkCtlWrite s d v)
  | 0x84 => takeOr (exportWrite s d v)
  | 0x88 => done (exportSwapGo s d v)
  | 0x90 => done (startWrite s d v)
  | 0xA4 => done (remoteCmdWrite s d v)
  | _ => done (plainWrite s d 0x68 o a v)

/-! ### LPDDR4X and caravans -/

/-- The bits that each word of a schedule entry holds (R209). -/
def carMask (w : Nat) : Word :=
  match w with
  | 0 => 0xEFFF_00FF
  | 1 => 0xFF03_FFFF
  | 2 => 0x0003_FFFF
  | 3 => 0xFFFF_FFC0
  | 4 => 0x03FF_FFFF
  | _ => 0

/-- A write of CARAVAN_TDATA (R209, R214): words 5–7 ignore it. -/
def carDataWrite (s : State) (d p : Nat) (v : Word) : Ans :=
  let sel := (reg s (Reg.CARAVAN_TSEL d p)).toNat % 4096
  if sel / 2048 = carActive s d p then refuse s
  else if 5 ≤ sel % 8 then done s
  else done (setTab s tCar d (p * 4096 + sel) (v &&& carMask (sel % 8)))

/-- A CARAVAN page. -/
def writeCaravan (s : State) (d p o : Nat) (a : Access) (v : Word) : Ans :=
  match o with
  | 0x00 => done (powerSync (plainWrite s d (0x78 + p) o a v) d)
  | 0x04 => done (shareWrite s d p v)
  | 0x0C => done (if v.getLsbD 0 then carSwapGo s d p else s)
  | 0x18 => carDataWrite s d p v
  | 0x20 => done (clearValid s (Reg.CARAVAN_LATE_LOG d p) v)
  | _ => done (plainWrite s d (0x78 + p) o a v)

/-- The DDR page. -/
def writeDdr (s : State) (d o : Nat) (a : Access) (v : Word) : Ans :=
  match o with
  | 0x00 => done (ddrCtlWrite s d v)
  | 0x04 => done (ddrCfgWrite s d v)
  | _ => done (plainWrite s d 0x70 o a v)

/-! ### Pods, kernels, stewards -/

/-- A write of POD_LTAB_DATA (R184). -/
def ltabWrite (s : State) (d p : Nat) (v : Word) : Ans :=
  match ltabIndex s d p with
  | none => done s
  | some (k, bank, i) =>
    let kn := kern s d k
    if bank = kn.pbank && (kn.st = .run || kn.st = .shadow || kn.st = .standby) then refuse s
    else done (setTab s tLtab d i (v &&& 0x3FFF_3FFF))

/-- A POD page. -/
def writePod (s : State) (d p o : Nat) (a : Access) (v : Word) : Ans :=
  if o = 4 then ltabWrite s d p v
  else if o = 0x20 then done (eccClear s (Reg.POD_ECC d p) 16 v)
  else if o = 0x24 then done (eccClear s (Reg.POD_ECC_UNC d p) 16 v)
  else if 0x40 ≤ o && o < 0x88 && o % 4 = 0 then hownWrite s d p ((o - 0x40) / 4) v
  else done (plainWrite s d (0x80 + p) o a v)

/-- A KERNEL page (R464). -/
def writeKernel (s : State) (d k o : Nat) (a : Access) (v : Word) : Ans :=
  if (dom s d (pdPod (k / 18))).st = .off then refuse s
  else match o with
  | 0x04 => done (kernelCtlWrite s d k v)
  | 0x10 => bankModeWrite s d k v
  | 0x14 => done (eccClear s (Reg.KERNEL_ECC d k) 28 v)
  | _ => done (plainWrite s d (0x100 + k) o a v)

/-- R166: an interrupt is held off in delay slots, in a repeat, and inside an active block repeat except at the end of
an iteration. -/
def heldOff (k : Core) : Bool :=
  k.dly.isSome || k.rep ≠ .idle || (k.lact ≠ 0 && !k.iterEnd)

/-- A steward whose RUN is 0 held at the first point at which R166 would allow an interrupt (R347). -/
def settleHold (s : State) (d i : Nat) : State :=
  let st := stew s d i
  let waits := st.st = .wait || (st.st = .run && !heldOff st.core)
  if !bitF s (Reg.STEWARD_CTL d i) F.STEWARD_CTL_RUN && waits then setStew s d i { st with st := .held } else s

/-- A write of STEWARD_CTL (R347). -/
def stewardCtlWrite (s : State) (d i : Nat) (v : Word) : State :=
  let run := v.getLsbD 0
  let t := setFld s (Reg.STEWARD_CTL d i) F.STEWARD_CTL_RUN run.toNat
  let st := stew t d i
  if !run then settleHold t d i
  else match st.st with
    | .held | .halted | .debug =>
      let k := st.core
      setStew t d i
        { core := { k with r := { k.r with pc := fld t (Reg.STEWARD_START d i) F.STEWARD_START_ADDR }
                           free := { k.free with ipl := 0 }
                           rep := .idle, dly := none, lact := 0, iterEnd := false, brk := none }
          st := .run }
    | _ => t

/-- A STEWARD page (R347, R350). -/
def writeSteward (s : State) (d i o : Nat) (a : Access) (v : Word) : Ans :=
  match o with
  | 0x00 => done (stewardCtlWrite s d i v)
  | 0x20 => done (setReg s (Reg.STEWARD_DBELL d i) (reg s (Reg.STEWARD_DBELL d i) ||| v))
  | _ => done (plainWrite s d (0x200 + i) o a v)

/-- A register write: `v` to page `q`, offset `o` of die `d`. -/
def regWrite (s : State) (d q o : Nat) (a : Access) (v : Word) : Ans :=
  if q = 1 then writePulse s d o a v
  else if q = 2 then writeGov s d o a v
  else if q = 3 then writePwr s d o a v
  else if 4 ≤ q && q ≤ 6 then
    (if d ≠ 0 then done s else if q = 4 then writeWake s o a v else if q = 5 then writeBoot s o a v else done s)
  else if q = 7 then writeFw s d o a v
  else if q = 8 then writeBus s d o a v
  else if q = 9 && o = 8 then done (spareCmdWrite s d v)
  else if q = 0xA && o = 4 then done (thermMaxWrite s d v)
  else if 0x10 ≤ q && q ≤ 0x12 then writeQueue s d ((q - 0x10) * 16 + o / 0x100) (o % 0x100) a v
  else if q = 0x20 then writeWadi s d o a v
  else if q = 0x21 then writeBridge s d o a v
  else if 0x30 ≤ q && q ≤ 0x33 then writeMeter s d q o a v
  else if q = 0x38 then writeSilence s d o a v
  else if q = 0x3C then writeGen s d o a v
  else if 0x40 ≤ q && q ≤ 0x49 then writeSap s d (q - 0x40) o a v
  else if 0x50 ≤ q && q ≤ 0x55 then writeSrc s d (q - 0x50) o a v
  else if q = 0x58 then writeSteer s d o a v
  else if q = 0x60 then writeCsp s d o a v
  else if q = 0x68 then writeLink s d o a v
  else if q = 0x70 then writeDdr s d o a v
  else if 0x78 ≤ q && q ≤ 0x7F then writeCaravan s d (q - 0x78) o a v
  else if 0x80 ≤ q && q ≤ 0x87 then writePod s d (q - 0x80) o a v
  else if 0x100 ≤ q && q ≤ 0x18F then writeKernel s d (q - 0x100) o a v
  else if 0x200 ≤ q && q ≤ 0x201 then writeSteward s d (q - 0x200) o a v
  else done (plainWrite s d q o a v)

end Sys2Proof.Machine
end

