-- ==== Sys2Proof/Machine/Bus.lean ====
section
/-! DEFINITION. The bus: what answers an access at a die-local address (R351), the way to another die (R352, R357), the
firewall and the record of errors (R361, R365), and steward addresses (R353, R354). -/
namespace Sys2Proof.Machine

/-- The dies that a request from die `o` to die `d` passes (R357): along its row to the column of `d`, then across. -/
def busPath (o d : Nat) : List Nat :=
  let row := o / 4 * 4
  let lo := min (o % 4) (d % 4)
  let hi := max (o % 4) (d % 4)
  ((List.range (hi - lo + 1)).map fun i => row + lo + i) ++ (if o / 4 = d / 4 then [] else [d])

/-- Whether an access is aligned to a width that plain targets accept. -/
def widthOk (loc width : Nat) : Bool :=
  (width = 1 || width = 2 || width = 4 || width = 8) && loc % width = 0

/-- Whether a read of working memory is one that R363 describes: aligned, or an unaligned halfword or word. -/
def wmReadOk (loc width : Nat) : Bool := widthOk loc width || width = 2 || width = 4

/-- Where a die-local address lies (R351). -/
inductive Target where
  | memory
  | rom
  | hoard (p off : Nat)
  | window (k off : Nat)
  | page (q off : Nat)
  | shell (off : Nat)
  | oasis (off : Nat)
  | ddr
  | default_
deriving DecidableEq, Repr

/-- The target of a die-local address; LPDDR4X reaches up to the installed capacity (R199). -/
def target (s : State) (d loc width : Nat) : Target :=
  if loc + width ≤ 0x40_0000 then .memory
  else if 0x1000_0000 ≤ loc && loc < 0x1001_0000 then
    (if d = 0 && !bitF s (Reg.BUS_CTL 0) F.BUS_CTL_ROMLOCK then .rom else .default_)
  else if 0x2000_0000 ≤ loc && loc < 0x2080_0000 then
    .hoard ((loc - 0x2000_0000) / 0x10_0000) ((loc - 0x2000_0000) % 0x10_0000)
  else if 0x3000_0000 ≤ loc && loc < 0x3240_0000 then
    .window ((loc - 0x3000_0000) / 0x4_0000) ((loc - 0x3000_0000) % 0x4_0000)
  else if 0x4000_0000 ≤ loc && loc < 0x5000_0000 then
    (let q := (loc - 0x4000_0000) / 0x1000
     if (pageRows q).isEmpty then .default_ else .page q (loc % 0x1000))
  else if 0x5000_0000 ≤ loc && loc < 0x5001_0000 then (if d = 0 then .shell (loc - 0x5000_0000) else .default_)
  else if 0x6000_0000 ≤ loc && loc < 0x6000_0200 then (if d = 0 then .oasis (loc - 0x6000_0000) else .default_)
  else if 0x8_0000_0000 ≤ loc && decide (loc + width ≤ 0x8_0000_0000 + ddrBytes s d) && ddrRuns s d then .ddr
  else .default_

/-- Whether a register page answers now (R463): while its domain is ON, which for a KERNEL page is PD_STEW and not the pod's (R464). -/
def pageAnswers (s : State) (d q : Nat) : Bool :=
  match pageDomain q with | some m => domOn s d m | none => true

/-- Whether a target answers now: a page as `pageAnswers` says; working memory, the Seed ROM and the Shell store while PD_STEW is
ON (R408; DEDUCED, assumption log 64); the others as their own rules give. -/
def targetAnswers (s : State) (d : Nat) (t : Target) : Bool :=
  match t with
  | .page q _ => pageAnswers s d q
  | .memory | .rom | .shell _ => domOn s d pdStew
  | _ => true

/-- Bytes of a plain memory as a value. -/
def okBytes (s : State) (addr width : Nat) : Ans := (s, .ok (BitVec.ofNat 64 (loadBytes s addr width)))

/-- Whether a read is a pop whose entry lies on a line that cannot be corrected (R361, R364): the read answers with an
error; the entry is removed as by any pop (R370, assumption log 87). -/
def popFails (s : State) (d q off : Nat) : Bool :=
  0x10 ≤ q && q < 0x13 && off % 0x100 = 0x20 && queueWords s d ((q - 0x10) * 16 + off / 0x100) ≠ 0
    && queueBroken s d ((q - 0x10) * 16 + off / 0x100)

/-- A read as its target answers it. -/
def targetRead (s : State) (d loc width : Nat) (a : Access) : Ans :=
  if !targetAnswers s d (target s d loc width) then errK s 0
  else match target s d loc width with
  | .default_ => errK s 0
  | .memory =>
    if wmReadOk loc width then
      (let r := wmLines s d loc width
       if r.2 then okBytes r.1 (pkgA d loc) width else errK r.1 3)
    else errK s 1
  | .hoard p off => hoardRead s d p off width
  | .window k off => winRead s d k off width
  | .page q off =>
    if !(width = 4 && off % 4 = 0) then errK s 1
    else if popFails s d q off then errK (regRead s d q off a).1 3
    else okW (regRead s d q off a).1 (regRead s d q off a).2
  | .rom => if widthOk loc width then okBytes s (pkgA d loc) width else errK s 1
  | .shell off =>
    if !widthOk loc width then errK s 1
    else (s, .ok (BitVec.ofNat 64 (ofBytes (shellBytes s.shell off width))))
  | .oasis _ => if widthOk loc width then okBytes s (pkgA d loc) width else errK s 1
  | .ddr =>
    if widthOk loc width then (ddrTouch s d, .ok (BitVec.ofNat 64 (ofBytes (ddrBytesAt s d loc width)))) else errK s 1

/-- A write as its target answers it. -/
def targetWrite (s : State) (d loc width : Nat) (a : Access) (v : Nat) : Ans :=
  if !targetAnswers s d (target s d loc width) then errK s 0
  else match target s d loc width with
  | .default_ => errK s 0
  | .memory =>
    if widthOk loc width then done (wmFresh (storeBytes s (pkgA d loc) v width) d loc width) else errK s 1
  | .hoard p off => hoardWrite s d p off width v
  | .window k off => winWrite s d k off width v
  | .page q off =>
    if !(width = 4 && off % 4 = 0) then errK s 1
    else regWrite s d q off a (BitVec.ofNat 32 v)
  | .rom => refuse s
  | .shell off =>
    if !widthOk loc width then errK s 1
    else if !bootPriv s a || shellKept off then refuse s
    else if shellOpen off then done { s with shell := shellPut s.shell off (toBytes width v) }
    else done s
  | .oasis off =>
    if !widthOk loc width then errK s 1
    else if 0x100 ≤ off || (off < 0x80 && bootPriv s a) then done (storeBytes s (pkgA d loc) v width)
    else refuse s
  | .ddr => if widthOk loc width then done (ddrWrite s d loc (toBytes width v)) else errK s 1

/-- Whether an access is answered by its die: the die exists, and on the way to another die PD_STEW is ON on every die that the
request and the response pass (R352, R357, R412). -/
def canReach (s : State) (a : Access) (d : Nat) : Bool :=
  d < dieCount s.part && (d = a.odie || (busPath a.odie d ++ busPath d a.odie).all fun e => domOn s e pdStew)

/-- Whether the debug port's bus master answers (R407): always while the LOCK fuse is unblown, then only with the grant of
PERM bit 1. -/
def debugMaster (s : State) : Bool := !s.fuses.lock || (fld s (Reg.BOOT_DBG 0) F.BOOT_DBG_PERM).testBit 1

/-- Whether a master can make an access at all: the debug port only where R407 lets it. -/
def masterActs (s : State) (a : Access) : Bool := a.master ≠ 9 || debugMaster s

/-- Whether a master's accesses are routed to an address: the caravan engines reach LPDDR4X only (R355; elsewhere the default
target answers: DESIGN CHOICE, assumption log 86). -/
def masterReaches (a : Access) (loc : Nat) : Bool := !(10 ≤ a.master && a.master < 18) || 0x8_0000_0000 ≤ loc

/-- The answer of an access recorded where R361 asks for it. -/
def answer (d addr : Nat) (a : Access) (write : Bool) (x : Ans) : State :=
  match x.2 with
  | .err (some k) => { busError x.1 d k addr a write with resp := x.2 }
  | _ => { x.1 with resp := x.2 }

/-- An access of a master: through the bridges and the firewall to its target. -/
def busAccess (a : Access) (addr : Nat) (write : Bool) (go : Nat → Nat → Ans) (s : State) : State :=
  let d := addrDie addr
  let loc := addrLocal addr
  if !running s then { s with resp := .err none }
  else if !masterActs s a then s
  else if !(canReach s a d && masterReaches a loc) then answer a.odie addr a write (errK s 0)
  else if !fwAllows s d a loc write then answer d addr a write (errK s 2)
  else answer d addr a write (go d loc)

/-- A read of `width` bytes at a package address; the answer is in `resp`. -/
def busRead (a : Access) (addr width : Nat) (s : State) : State :=
  busAccess a addr false (fun d loc => targetRead s d loc width a) s

/-- A write of `width` bytes at a package address. -/
def busWrite (a : Access) (addr width v : Nat) (s : State) : State :=
  busAccess a addr true (fun d loc => targetWrite s d loc width a v) s

/-- The package address of a steward address of die `d` (R353, R354). -/
def stewAddr (s : State) (d a : Nat) : Nat :=
  let a := a % 2 ^ 32
  if a < 0x8000_0000 then
    (if bitF s (Reg.BUS_CTL d) F.BUS_CTL_REMAP then pkgA d a
     else if a < 0x1_0000 then pkgA d (0x1000_0000 + a)
     else if 0x1000_0000 ≤ a && a < 0x1001_0000 then pkgA d (a - 0x1000_0000)
     else pkgA d a)
  else
    fld s (Reg.BUS_WIN d ((a - 0x8000_0000) / 0x1000_0000)) F.BUS_WIN_BASE * 2 ^ 28 + a % 0x1000_0000

/-- The word that a read answered; 0 where it met an error. -/
def respWord (s : State) : Word :=
  match s.resp with
  | .ok v => v.setWidth 32
  | _ => 0

/-- Whether the last access was answered without an error. -/
def respOk (s : State) : Bool := match s.resp with | .ok _ => true | _ => false

end Sys2Proof.Machine
end

