-- ==== Sys2Proof/Machine/Boot.lean ====
section
/-! DEFINITION. What the Seed and the boot block do (R375–R401, R407): the directory, the checks of a slot and their codes,
the choice, loading, retry, handoff, recovery, fast wake, debug certificates and fuses. -/
namespace Sys2Proof.Machine

/-! ### Directory (R377, R378) -/

/-- Whether a directory copy is valid: MAGIC, FORMAT, CRC. -/
def dirValid (c : List Byte) : Bool :=
  c.length = 64 && leAt c 0 4 = 0x444C5244 && leAt c 4 2 = 1 && leAt c 0x3C 4 = crc32c (c.take 0x3C)

/-- The copy that the Seed uses. -/
def dirChoose (p q : List Byte) : Option (List Byte) :=
  match dirValid p, dirValid q with
  | true, true => some (if leAt p 8 4 < leAt q 8 4 then q else p)
  | true, false => some p
  | false, true => some q
  | false, false => none

/-- The FLASH word of a directory copy as a setting (R378); none where it is 0 or holds a reserved code. -/
def flashWord (c : List Byte) : Option FlashSetting :=
  let f := BitVec.ofNat 32 (leAt c 0x30 4)
  if f = 0 || wField f 19 17 = 7 || wField f 12 0 ≠ 0 then none
  else some ⟨wField f 31 24, wField f 23 20, [125, 250, 500, 1000, 1330, 1660, 2000].getD (wField f 19 17) 125,
    2 ^ wField f 16 15, f.getLsbD 14, f.getLsbD 13⟩

/-- The flash setting in effect: the one that the chosen copy names, if the copy reads the same with it (R378). -/
def flashSetting (c again : List Byte) : FlashSetting :=
  match flashWord c with
  | some f => if again = c then f else FlashSetting.first
  | none => FlashSetting.first

/-- The phases of a flash read on the port (R378): command, address, dummy and data, each with its lanes and its bits. -/
def readPhases (r : FlashRead) : List (Nat × Nat) :=
  [(if r.set.wide then r.set.lanes else 1, 8), (r.set.lanes, if r.set.long then 32 else 24), (0, r.set.dummy), (r.set.lanes, 8 * r.len)]

/-- The bits of the command and address phases of a flash read, the first sent as the most significant (R378). -/
def readBits (r : FlashRead) : Nat := let n := if r.set.long then 32 else 24; r.set.opcode * 2 ^ n + r.addr % 2 ^ n

/-- The reads of a directory: both copies at the first setting, then the chosen one at the setting that it names. -/
def dirReads (p q : List Byte) : List FlashRead :=
  let again := match dirChoose p q with
    | none => []
    | some c => match flashWord c with
      | some f => [⟨f, if dirValid p && p = c then 0 else 0x1000, 64⟩]
      | none => []
  [⟨FlashSetting.first, 0, 64⟩, ⟨FlashSetting.first, 0x1000, 64⟩] ++ again

/-- OFF, LEN and SEQ of both slots. -/
def dirSlots (c : List Byte) : List (Nat × Nat × Nat) :=
  [(leAt c 0x10 4, leAt c 0x14 4, leAt c 0x18 4), (leAt c 0x20 4, leAt c 0x24 4, leAt c 0x28 4)]

/-- The code of a slot in BOOT_SLOTA and BOOT_SLOTB. -/
def slotCodeOf (s : State) (i : Nat) : Nat :=
  if i = 0 then fld s (Reg.BOOT_SLOTA 0) F.BOOT_SLOTA_CODE else fld s (Reg.BOOT_SLOTB 0) F.BOOT_SLOTB_CODE
/-- The state with the code of a slot set. -/
def setSlotCode (s : State) (i code : Nat) : State :=
  if i = 0 then setFld s (Reg.BOOT_SLOTA 0) F.BOOT_SLOTA_CODE code
  else setFld s (Reg.BOOT_SLOTB 0) F.BOOT_SLOTB_CODE code

/-- An attempt that has failed with STATUS_N code `k` (R396, R397). -/
def attemptFail (s : State) (k : Nat) : State :=
  let t := incOasis s 0x78
  let t := setOasis t 0x7C (BitVec.ofNat 32 (slotCodeOf s 0 + slotCodeOf s 1 * 16 + k * 256))
  { t with boot := { t.boot with step := .wait, status := k } }

/-- Whether the Seed runs: the dies are out of reset and PRIV is 1. -/
def seedRuns (s : State) : Bool := running s && bitF s (Reg.BOOT_STAT 0) F.BOOT_STAT_PRIV

/-- BOOT_DIRECTORY_READ (R377, R378): both copies, and the chosen one read `again` at the setting it names. -/
def execBootDirectoryRead (p q again : List Byte) (s : State) : Out :=
  whenDue s (seedRuns s && s.boot.step = .directory) <|
    let s := { s with boot := { s.boot with reads := dirReads p q } }
    match dirChoose p q with
    | none => attemptFail s 1
    | some c =>
      { s with boot := { s.boot with
          step := .slots, dir := dirSlots c, flash := flashSetting c again, images := [], failed := [] } }

/-! ### Checks (R379, R380, R382) -/

/-- The segments of an image, by number. -/
def segments (h : List Byte) : List (List Byte) := (List.range (imgNseg h)).map (segEntry h)

/-- Whether the reserved bytes and the ranges of a header are right. -/
def headerOk (s : State) (h : List Byte) : Bool :=
  imgFlags h < 4 && imgKeyslot h < 4 && imgDies h = dieCount s.part && 1 ≤ imgNseg h && imgNseg h ≤ 64
    && imgTrialt h ≤ 300 && imgRevoke h < 16 && zeroAt h 0x13 1 && imgEntry h < 2 ^ 29 && zeroAt h 0x2C 4
    && zeroAt h 0xC0 64 && zeroAt h 0x160 160

/-- Whether an entry of the segment table is right: ranges, reserved bytes, and within `len` bytes of the slot. -/
def segmentOk (h : List Byte) (len : Nat) (e : List Byte) : Bool :=
  segLen e % 4 = 0 && segDest e < 2 ^ 40 && segKind e ≤ 2 && zeroAt e 0x11 15 && zeroAt e 0x60 32
    && (segKind e ≠ 1 || (zeroAt e 0x20 48 && zeroAt e 0x50 16)) && (imgEnc h || zeroAt e 0x50 16)
    && (segKind e = 1 || decide (segFoff e + segLen e ≤ len))

/-- Whether two stored segments overlap in the slot. -/
def segsMeet (e f : List Byte) : Bool :=
  segKind e ≠ 1 && segKind f ≠ 1 && decide (segFoff e < segFoff f + segLen f) && decide (segFoff f < segFoff e + segLen e)
    && segLen e ≠ 0 && segLen f ≠ 0

/-- Whether some two of a list of segments overlap. -/
def someMeet : List (List Byte) → Bool
  | [] => false
  | e :: es => es.any (segsMeet e) || someMeet es

/-- The code that the checks 0x2–0x9 give an image of `len` bytes whose header and table are `h` (R382). -/
def imageCode (s : State) (len : Nat) (h : List Byte) : Nat :=
  if h.length < 0x200 || leAt h 0 4 ≠ 0x494C5244 || leAt h 4 2 ≠ 1 then 2
  else if !headerOk s h then 3
  else if h.length < 0x200 + 128 * imgNseg h then 2
  else if !((segments h).all (segmentOk h len)) || someMeet (segments h) then 3
  else if !keyProgrammed s (imgKeyslot h) || Config.sha384 (imgPubkey h) ≠ keyDigest s (imgKeyslot h) then 4
  else if keyRevoked s (imgKeyslot h) then 5
  else if !Config.ecdsaOk (imgPubkey h) (Config.sha384 (h.take 0x100)) (imgSig h) then 6
  else if imgVersion h < shellFloor s.shell then 7
  else if Config.sha384 (imgTable h) ≠ imgDigest h then 8
  else if (shellRejects s.shell).any fun e => e.2.1 = imgDigest h then 9
  else 0

/-- The code of a slot of the directory; `img` is what was read of it, none if the read failed. -/
def slotCheck (s : State) (i : Nat) (img : Option (List Byte)) : Nat :=
  let e := s.boot.dir.getD i (0, 0, 0)
  if e.1 = 0 || e.2.1 = 0 then 1
  else match img with
    | none => 2
    | some h => imageCode s e.2.1 h

/-! ### The choice (R390) -/

/-- The header of a slot that has been read. -/
def slotImage (s : State) (i : Nat) : List Byte := (alGet i s.boot.images).getD []

/-- Whether a slot is valid and has not failed while loading. -/
def slotValid (s : State) (i : Nat) : Bool := slotCodeOf s i = 0 && !s.boot.failed.contains i

/-- The slot chosen. -/
def chooseSlot (s : State) : Option Nat :=
  let va := imgVersion (slotImage s 0)
  let vb := imgVersion (slotImage s 1)
  let qa := (s.boot.dir.getD 0 (0, 0, 0)).2.2
  let qb := (s.boot.dir.getD 1 (0, 0, 0)).2.2
  match slotValid s 0, slotValid s 1 with
  | false, false => none
  | true, false => some 0
  | false, true => some 1
  | true, true => some (if va < vb || (va = vb && qa < qb) then 1 else 0)

/-- Loading of a slot begins; a fast-wake record of a different image is cleared (R400). -/
def startLoad (s : State) (i : Nat) : State :=
  let h := slotImage s i
  let t := if fastRecord s && loadList s (oasisA + 0x10) 48 ≠ imgDigest h then clearFast s else s
  { t with boot := { t.boot with
      step := .load, slot := i, todo := List.range (imgNseg h), later := [], fw := [] } }

/-- Whether every key slot is revoked. -/
def allRevoked (s : State) : Bool := (List.range 4).all (keyRevoked s)

/-- What follows when both slots have their codes. -/
def afterCheck (s : State) : State :=
  match chooseSlot s with
  | some i => startLoad s i
  | none => attemptFail s (if allRevoked s then 6 else 2)

/-! ### Fast wake (R400, R401) -/

/-- A fast wake that has failed before handoff goes on as a cold boot. -/
def fastFail (s : State) : State :=
  let t := setFld (clearFast s) (Reg.BOOT_STAT 0) F.BOOT_STAT_MODE 0
  { t with boot := { t.boot with step := .directory, images := [], failed := [], todo := [], later := [], fw := [] } }

/-- Whether a header and table match the fast-wake record. -/
def fastMatch (s : State) (h : List Byte) : Bool :=
  let dg := loadList s (oasisA + 0x10) 48
  0x200 + 128 * imgNseg h ≤ h.length && imgDigest h = dg && Config.sha384 (imgTable h) = dg
    && !keyRevoked s (imgKeyslot h) && decide (shellFloor s.shell ≤ imgVersion h)

/-- A number of segments left to load: none, and the boot is ready for handoff. -/
def checkReady (s : State) : State :=
  if s.boot.todo.isEmpty then
    let t := setFld s (Reg.BOOT_STAT 0) F.BOOT_STAT_LOADED s.boot.later.isEmpty.toNat
    { t with boot := { t.boot with step := .ready } }
  else s

/-- The header of a fast wake read: the early set and the firewall records are loaded first. -/
def fastHeader (s : State) (img : Option (List Byte)) : State :=
  match img with
  | none => fastFail s
  | some h =>
    if fastMatch s h then
      let early (i : Nat) : Bool := (imgEarly h).testBit i || segKind (segEntry h i) = 2
      let e := ((oasis s 8).toNat, 0, 0)
      checkReady { s with boot := { s.boot with
        step := .load, images := alPut s.boot.slot h s.boot.images, dir := [e, e], fw := []
        todo := (List.range (imgNseg h)).filter early
        later := (List.range (imgNseg h)).filter fun i => !early i } }
    else fastFail s

/-- A header and its segment table read at a flash offset: the reads, the Seed's buffer, and the hash of the table (R378, R382,
R406). -/
def noteHeader (s : State) (off : Nat) (reads : Bool) (h : List Byte) : State :=
  if !reads then s
  else { s with boot := { s.boot with
    reads := [⟨s.boot.flash, off, 0x200⟩, ⟨s.boot.flash, off + 0x200, 128 * imgNseg h⟩]
    secret := { s.boot.secret with buf := h, hash := Config.sha384 (imgTable h) } } }

/-- SLOT_CHECK (R382, R390, R401): the header and table of slot `i` have been read (none: the read failed). -/
def execSlotCheck (i : Nat) (img : Option (List Byte)) (s : State) : Out :=
  let fast := s.boot.step = .fastHead && i = s.boot.slot
  let cold := s.boot.step = .slots && i < 2 && (alGet i s.boot.images).isNone
  whenDue s (seedRuns s && (fast || cold)) <|
    let s := noteHeader s (if fast then (oasis s 8).toNat else slotOff s i) (fast || slotCheck s i img ≠ 1) (img.getD [])
    if fast then fastHeader s img
    else
      let code := slotCheck s i img
      let h := if code = 1 then [] else img.getD []
      let t := setSlotCode s i code
      let t := setReg t (if i = 0 then Reg.BOOT_VERA 0 else Reg.BOOT_VERB 0) (BitVec.ofNat 32 (imgVersion h))
      let t : State := { t with boot := { t.boot with images := alPut i h t.boot.images } }
      if 2 ≤ t.boot.images.length then afterCheck t else t

/-! ### Loading (R380, R383) -/

/-- The loader's bus identity (R355). -/
def loaderAccess : Access := ⟨2, 0⟩

/-- Whether the DEST of a segment keeps R380, and in recovery stays clear of the buffer (R399). -/
def segDestOk (s : State) (recov : Bool) (e : List Byte) : Bool :=
  let d := addrDie (segDest e)
  let loc := addrLocal (segDest e)
  let n := segLen e
  let off := (loc - 0x3000_0000) % 0x4_0000
  segKind e = 2 ||
    (d < dieCount s.part
      && ((decide (loc + n ≤ 0x40_0000) && !(recov && d = 0 && decide (0x20_0000 < loc + n)))
        || (0x3000_0000 ≤ loc && loc < 0x3240_0000
          && (decide (off + n ≤ 0x8000) || (0x1_0000 ≤ off && decide (off + n ≤ 0x1_8000))))))

/-- Bytes written by the loader from an address up: words where they are aligned. -/
def loaderWrite : List Byte → Nat → State → State
  | b0 :: b1 :: b2 :: b3 :: bs, a, s =>
    loaderWrite bs (a + 4)
      (if a % 4 = 0 then busWrite loaderAccess a 4 (ofBytes [b0, b1, b2, b3]) s
       else busWrite loaderAccess (a + 3) 1 b3.toNat (busWrite loaderAccess (a + 2) 1 b2.toNat
        (busWrite loaderAccess (a + 1) 1 b1.toNat (busWrite loaderAccess a 1 b0.toNat s))))
  | _, _, s => s

/-- The initialisation vector of segment `i` (R383). -/
def segIv (h : List Byte) (i : Nat) : List Byte :=
  (imgNonce h).take 8 ++ (toBytes 4 (leAt (imgNonce h) 8 4 ^^^ i))

/-- The loader's engines at the end of a segment (R383, R384): the key register, loaded for an encrypted segment, the
initialisation vector, and the hash of the stored bytes. -/
def segSecret (s : State) (h : List Byte) (i : Nat) (data : List Byte) : Secret :=
  { s.boot.secret with
    key := if imgEnc h then s.fuses.key else s.boot.secret.key
    work := if imgEnc h then segIv h i else s.boot.secret.work
    hash := Config.sha384 data }

/-- The plaintext of the stored bytes of segment `i`. -/
def segPlain (x : Secret) (h : List Byte) (data : List Byte) : List Byte :=
  if imgEnc h then (List.range data.length).map fun j => data.getD j 0 ^^^ Config.gcmStream x.key x.work j else data

/-- Whether the digest, and with ENC the tag, of the stored bytes of segment `i` match. -/
def segMatches (x : Secret) (h : List Byte) (i : Nat) (data : List Byte) : Bool :=
  let e := segEntry h i
  x.hash = segDigest e && (!imgEnc h || Config.gcmTag x.key x.work (bytesAt e 0 0x20) data = segTag e)

/-- Segment `i` loaded: the state, and the code it fails with, if any. -/
def loadSegment (s : State) (recov : Bool) (h : List Byte) (i : Nat) (data : List Byte) : State × Nat :=
  let e := segEntry h i
  let x := if segKind e = 1 then s.boot.secret else segSecret s h i data
  let s := { s with boot := { s.boot with secret := x } }
  if !segDestOk s recov e then (s, 0xB)
  else match segKind e with
    | 1 => (loaderWrite (List.replicate (segLen e) 0) (segDest e) s, 0)
    | 2 =>
      if segMatches x h i data then
        ({ s with boot := { s.boot with fw := s.boot.fw ++ [segPlain x h data] } }, 0)
      else (s, 0xA)
    | _ =>
      let t := loaderWrite (segPlain x h data) (segDest e) s
      (t, if segMatches x h i data then 0 else 0xA)

/-- A segment that has failed with a code (R391, R401). -/
def segmentFail (s : State) (code : Nat) : State :=
  if s.boot.step = .done then assertReset (clearFast s) 3
  else if bootMode s = 1 then fastFail s
  else
    let i := s.boot.slot
    let t := setSlotCode s i code
    let t : State := { t with boot := { t.boot with failed := i :: t.boot.failed, todo := [], fw := [] } }
    if slotValid t (1 - i) then startLoad t (1 - i) else attemptFail t 3

/-- Whether the bytes of a segment are those that its entry asks for. -/
def dataFits (h : List Byte) (i : Nat) (data : List Byte) : Bool :=
  segKind (segEntry h i) = 1 || data.length = segLen (segEntry h i)

/-- The flash read of a segment (R383); one of KIND 1 has no stored data. -/
def noteSegment (s : State) (h : List Byte) (i : Nat) : State :=
  let e := segEntry h i
  { s with boot := { s.boot with
      reads := if segKind e = 1 then [] else [⟨s.boot.flash, slotOff s s.boot.slot + segFoff e, segLen e⟩] } }

/-- SEGMENT_LOAD (R383, R391, R401): the next segment in table order has been streamed; `data` are its stored bytes. -/
def execSegmentLoad (data : List Byte) (s : State) : Out :=
  let h := imageInHand s
  match s.boot.step, s.boot.todo, s.boot.later with
  | .load, i :: rest, _ =>
    whenDue s (seedRuns s && dataFits h i data) <|
      let (t, code) := loadSegment (noteSegment s h i) false h i data
      if code ≠ 0 then segmentFail t code else checkReady { t with boot := { t.boot with todo := rest } }
  | .done, _, i :: rest =>
    whenDue s (running s && dataFits h i data) <|
      let (t, code) := loadSegment (noteSegment s h i) false h i data
      if code ≠ 0 then segmentFail t code else { t with boot := { t.boot with later := rest } }
  | _, _, _ => .next s

/-- FAST_WAKE_LOAD_DONE (R401). -/
def execFastWakeLoadDone (s : State) : Out :=
  let a := Reg.BOOT_STAT 0
  whenDue s (running s && s.boot.step = .done && bootMode s = 1 && s.boot.later.isEmpty
      && !bitF s a F.BOOT_STAT_LOADED)
    (setFld s a F.BOOT_STAT_LOADED 1)

/-- BOOT_RETRY_WAIT_END (R396). -/
def execBootRetryWaitEnd (s : State) : Out :=
  whenDue s (seedRuns s && s.boot.step = .wait)
    { s with boot := { s.boot with step := .directory, status := 0, images := [], failed := [] } }

/-! ### Handoff (R376, R381) -/

/-- The firewall records of a list of bytes, 20 bytes each. -/
def fwRecords (n : Nat) (bs : List Byte) : List (List Byte) := (List.range n).map fun i => bytesAt bs (20 * i) 20

/-- One firewall record applied. -/
def fwApply (r : List Byte) (s : State) : State :=
  let d := leAt r 0 1
  let w (o : Nat) (m : Word) : Word := BitVec.ofNat 32 (leAt r o 4) &&& m
  if dieCount s.part ≤ d then s
  else
    let t := setFld s (Reg.FW_CTL d) F.FW_CTL_EN 1
    if leAt r 1 1 = 0xFF then
      setReg (setReg t (Reg.FW_DEFRD d) (w 12 0xF_FFFF)) (Reg.FW_DEFWR d) (w 16 0xF_FFFF)
    else if leAt r 1 1 < 64 then
      let i := leAt r 1 1 * 4
      setTab (setTab (setTab (setTab t tFw d i (w 4 0x80FF_FFFF)) tFw d (i + 1) (w 8 0xFF_FFFF))
        tFw d (i + 2) (w 12 0xF_FFFF)) tFw d (i + 3) (w 16 0xF_FFFF)
    else t

/-- The firewall of every die programmed and locked. -/
def fwProgram (s : State) : State :=
  let t := s.boot.fw.foldl (fun u bs => each (fwRecords (bs.length / 20) bs) fwApply u) s
  each (dies s) (fun d u => setFld u (Reg.FW_CTL d) F.FW_CTL_LOCK 1) t

/-- BOOT_HANDOFF (R376): the Seed programs and locks the firewalls and writes ENTRY to BOOT_HANDOFF. -/
def execBootHandoff (s : State) : Out :=
  whenDue s (seedRuns s && s.boot.step = .ready) (handoff (fwProgram s) (imgEntry (imageInHand s)))

/-! ### Recovery (R398, R399) -/

/-- The recovery buffer. -/
def recovA : Nat := 0x20_0000

/-- `n` bytes of the recovery buffer from offset `o`, read by the loader as working memory answers (R364). -/
def recovRead (s : State) (o n : Nat) : State × List Byte := dmaRead s 0 (recovA + o) n ⟨2, 0⟩

/-- Every segment of a recovery image loaded in table order, until one fails; one of KIND 1 has no stored data to read (R380). -/
def loadAll (h : List Byte) : List Nat → State → State × Nat
  | [], s => (s, 0)
  | i :: is, s =>
    let e := segEntry h i
    let r := if segKind e = 1 then (s, []) else recovRead s (segFoff e) (segLen e)
    match loadSegment r.1 true h i r.2 with
    | (t, 0) => loadAll h is t
    | x => x

/-- The check and load of the image in the recovery buffer, with its code. -/
def recoverImage (s : State) : State × Nat :=
  let len := fld s (Reg.BOOT_RECOV 0) F.BOOT_RECOV_LEN
  if 0x20_0000 < len then (s, 3)
  else
    let r := recovRead s 0 0x200
    let q := recovRead r.1 0x200 (128 * min 64 (imgNseg r.2))
    let h := r.2 ++ q.2
    let s := q.1
    let code := imageCode s len h
    let t : State := { s with boot := { s.boot with
      slot := 2, images := alPut 2 h s.boot.images, fw := []
      secret := { s.boot.secret with buf := h, hash := Config.sha384 (imgTable h) } } }
    if code ≠ 0 then (t, code) else loadAll h (List.range (imgNseg h)) t

/-- RECOVERY_CHECK_DONE (R398, R399). -/
def execRecoveryCheckDone (s : State) : Out :=
  whenDue s (seedRuns s && s.boot.step = .checking) <|
    let (t, code) := recoverImage s
    let a := Reg.BOOT_RECOV 0
    let t := setFld (setFld t a F.BOOT_RECOV_BUSY 0) a F.BOOT_RECOV_RESULT code
    if code = 0 then
      let u := setFld t (Reg.BOOT_STAT 0) F.BOOT_STAT_LOADED 1
      { u with boot := { u.boot with step := .ready, todo := [], later := [] } }
    else { t with boot := { t.boot with step := .recovery, status := 5 } }

/-! ### The debug port (R385, R407) -/

/-- Whether a debug certificate is accepted. -/
def certOk (s : State) (c : List Byte) : Bool :=
  let slot := leAt c 4 1
  let pub := bytesAt c 0x10 96
  c.length = 0xE0 && leAt c 0 4 = 0x434C5244 && leAt c 8 8 = s.fuses.uid && keyProgrammed s slot && !keyRevoked s slot
    && Config.sha384 pub = keyDigest s slot && Config.ecdsaOk pub (Config.sha384 (c.take 0x80)) (bytesAt c 0x80 96)

/-- DEBUG_CERT_VERIFY (R407): the verification of a certificate completes; in the error state nothing is granted (R405). -/
def execDebugCertVerify (c : List Byte) (s : State) : Out :=
  whenDue s (running s) <|
    if certOk s c && s.boot.step ≠ .error then
      let a := Reg.BOOT_DBG 0
      let s := zeroize s
      let t := setFld s a F.BOOT_DBG_PERM (fld s a F.BOOT_DBG_PERM ||| leAt c 5 1 % 8)
      powerSyncAll (setFld t (Reg.BOOT_STAT 0) F.BOOT_STAT_DEBUG 1) none
    else s

/-- STEWARD_DEBUG_HALT (R407): the debug port halts a steward that runs or waits. -/
def execStewardDebugHalt (d i : Nat) (s : State) : Out :=
  onUnit (d < dieCount s.part && i < 2) <|
    let st := stew s d i
    whenDue s (running s && (!s.fuses.lock || (fld s (Reg.BOOT_DBG 0) F.BOOT_DBG_PERM).testBit 0) && (st.st = .run || st.st = .wait))
      (powerSync (setStew s d i { st with st := .debug, core := { st.core with brk := none } }) d)

/-- Two byte strings with their bits joined, as blown fuses are. -/
def orBytes : List Byte → List Byte → List Byte
  | [], ys => ys
  | xs, [] => xs
  | x :: xs, y :: ys => (x ||| y) :: orBytes xs ys

/-- The fuses after they are programmed. -/
def fuseProgram (f : Fuses) (o : FuseOp) : Fuses :=
  match o with
  | .keySlot i dg =>
    if i < 4 then
      { f with digests := (List.range 4).map fun j =>
          if j = i then orBytes (f.digests.getD j []) (dg.take 48) else f.digests.getD j [] }
    else f
  | .imageKey k => { f with key := f.key ||| k % 2 ^ 256 }
  | .lock => { f with lock := true }

/-- DEBUG_FUSE_PROGRAM (R385): only before LOCK is blown. -/
def execDebugFuseProgram (o : FuseOp) (s : State) : Out :=
  whenDue s (!s.fuses.lock) { s with fuses := fuseProgram s.fuses o }

end Sys2Proof.Machine
end

