-- ==== Sys2Proof/Machine/CspTarget.lean ====
section
/-! DEFINITION. The clocked serial port of die 0 as a target (R457–R461). -/
namespace Sys2Proof.Machine

/-- Whether die 0's port is a target that works, with its pads its own (R420). -/
def targetOn (s : State) : Bool := cspOn s 0 && bitF s (Reg.CSP_CFG 0) F.CSP_CFG_ROLE && !padHeld s 0 pdStew

/-- The state with the target transfer set. -/
def setXfer (s : State) (t : Option CspTarget) : State := setCsp s 0 { csp s 0 with tgt := t }

/-- A bit of CSP_STAT set. -/
def cspFlag (s : State) (f : Fld) : State := setFld s (Reg.CSP_STAT 0) f 1

/-- The package address that a target access reaches (R457). -/
def targetAddr (s : State) (addr : Nat) : Nat := fld s (Reg.CSP_TWIN 0) F.CSP_TWIN_BASE * 2 ^ 32 + addr

/-- The address after a word (R459), and whether it wrapped. -/
def nextAddr (auto : Bool) (width addr : Nat) : Nat × Bool :=
  if !auto then (addr, false)
  else if (addr + width) / 4096 = addr / 4096 then (addr + width, false)
  else (addr / 4096 * 4096, true)

/-- A read issued for a transfer: the word in hand; an error sets TERR and its word is 0 (R459). -/
def issueRead (s : State) (auto : Bool) (width addr count : Nat) : State :=
  let t := busRead (cspAccess 0) (targetAddr s addr) width s
  let u := if respOk t then t else cspFlag t F.CSP_STAT_TERR
  setXfer u (some (.xfer true auto width addr (respWord t).toNat count))

/-- The read of the word after the one in hand (R459, R460). -/
def issueNext (s : State) (auto : Bool) (width addr count : Nat) : State :=
  let n := nextAddr auto width addr
  issueRead (if n.2 then cspFlag s F.CSP_STAT_WRAP else s) auto width n.1 count

/-- CSP_TARGET_SELECT (R457): SEL3_N becomes active. -/
def execCspTargetSelect (s : State) : Out :=
  fromPads s 0 pdStew <| whenDue s (targetOn s && (csp s 0).tgt.isNone) (setXfer s (some .command))

/-- CSP_TARGET_COMMAND (R457, R458): the command byte and the address; a read transfer issues its first read. -/
def execCspTargetCommand (cmd addr : Nat) (s : State) : Out :=
  let width := 2 ^ (cmd / 16 % 4)
  let rd := (cmd / 128 % 2 = 1 : Bool)
  let auto := (cmd / 64 % 2 = 1 : Bool)
  let start := addr % 2 ^ 32 / width * width
  fromPads s 0 pdStew <| whenDue s (targetOn s && (csp s 0).tgt = some .command) <|
    if cmd / 16 % 4 = 3 || cmd % 16 ≠ 0 then setXfer (cspFlag s F.CSP_STAT_TERR) (some .ignored)
    else if rd then issueRead s auto width start 0
    else setXfer s (some (.xfer false auto width start 0 0))

/-- CSP_TARGET_READ_WORD (R458–R460): the word in hand has been sent, or with `late` 0xFF in every byte; the next read is
issued. -/
def execCspTargetReadWord (late : Bool) (s : State) : Out :=
  fromPads s 0 pdStew <| match (csp s 0).tgt with
  | some (.xfer true auto width addr word count) =>
    whenDue s (targetOn s) <|
      let t := setCsp s 0 { csp s 0 with sent := if late then 2 ^ (8 * width) - 1 else word }
      issueNext (if late then cspFlag t F.CSP_STAT_TLATE else t) auto width addr (count + 1)
  | _ => .next s

/-- A target word written on the bus (R457, R459): address, size, value. -/
def targetWord (e : Nat × Nat × Nat) (s : State) : State :=
  let t := busWrite (cspAccess 0) (targetAddr s e.1) e.2.1 e.2.2 s
  if respOk t then t else cspFlag t F.CSP_STAT_TERR

/-- The words of the write buffer written on the bus in their order (R460). -/
def drainWords (s : State) : State :=
  each (csp s 0).wbuf targetWord (setCsp s 0 { csp s 0 with wbuf := [] })

/-- CSP_TARGET_WRITE_WORD (R459, R460): a word has been taken and is issued as a bus write, after those of the buffer. While the bus
is `stalled` it waits in the buffer of 16 words, and one that finds that full is dropped. -/
def execCspTargetWriteWord (v : Nat) (stalled : Bool) (s : State) : Out :=
  fromPads s 0 pdStew <| match (csp s 0).tgt with
  | some (.xfer false auto width addr _ count) =>
    whenDue s (targetOn s) <|
      let e := (addr, width, v % 2 ^ (8 * width))
      let x := csp s 0
      let t :=
        if !stalled then targetWord e (drainWords s)
        else if x.wbuf.length < 16 then setCsp s 0 { x with wbuf := x.wbuf ++ [e] }
        else cspFlag s F.CSP_STAT_TOVF
      let n := nextAddr auto width addr
      setXfer (if n.2 then cspFlag t F.CSP_STAT_WRAP else t) (some (.xfer false auto width n.1 0 (count + 1)))
  | _ => .next s

/-- CSP_TARGET_RELEASE (R458, R460, R461): SEL3_N becomes inactive, with `mid` inside a command, an address or a word, which says
whether the read word that has begun to leave came late. A word of which a bit has left had the read after it issued, unless
NOAHEAD is 1; the words of the write buffer are written. -/
def execCspTargetRelease (mid : Option Bool) (s : State) : Out :=
  fromPads s 0 pdStew <| whenDue s (targetOn s) <|
    let s := drainWords s
    match (csp s 0).tgt with
    | none => s
    | some .ignored => setXfer s none
    | some .command => setXfer (cspFlag s F.CSP_STAT_PARTIAL) none
    | some (.xfer rd auto width addr _ count) =>
      let t := if rd && mid = some true then cspFlag s F.CSP_STAT_TLATE else s
      let t := if rd && mid.isSome && !bitF s (Reg.CSP_TCFG 0) F.CSP_TCFG_NOAHEAD then issueNext t auto width addr count else t
      setXfer (if mid.isSome || count = 0 then cspFlag t F.CSP_STAT_PARTIAL else t) none

end Sys2Proof.Machine
end

