-- ==== Sys2Proof/Machine/Operands.lean ====
section
/-! DEFINITION. Every operand form of Cyilo on a core: pointers and circular addressing (R72, R73, R88), register codes
(R92), the bit space (R77, R93, R346), memory operands on kernels and stewards (R61, R63, R89, R135, R345), and the
32-bit store of an accumulator (R70). -/
namespace Sys2Proof.Machine

/-! ### Pointers -/

/-- The width of a core's pointer registers (R67, R345). -/
def ptrBits (c : CoreRef) : Nat := if c.stew then 30 else 18

/-- The value a pointer takes when it is updated by an increment (R72). -/
def ptrUpdate (bits p b l : Nat) (inc : Int) : Nat :=
  if l = 0 then (((p : Int) + inc) % (2 ^ bits : Nat)).toNat
  else (((b : Int) + ((p : Int) - b + inc) % (l : Int)) % (2 ^ bits : Nat)).toNat

/-- The increment that an addressing mode selects, for an M register's signed value (R88). -/
def amInc (am : AM) (m : Int) : Int :=
  match am with
  | .keep => 0
  | .inc => 1
  | .dec => -1
  | .addM => m
  | .subM => -m
  | .add2 => 2
  | .sub2 => -2
  | .imm i => i

/-- The registers with D`n` set. -/
def setD (r : Regs) (n : Nat) (w : Word) : Regs := { r with d := rfSet r.d n w }

/-- The signed value of M`n`. -/
def mSigned (c : CoreRef) (r : Regs) (n : Nat) : Int := toSigned (rf r.m n).toNat (ptrBits c)

/-- The registers after pointer `n` is post-modified by an addressing mode (R72, R88). -/
def postMod (c : CoreRef) (r : Regs) (m : MemOp) : Regs :=
  { r with p := rfSet r.p m.ptr (BitVec.ofNat 32 (ptrUpdate (ptrBits c) (rf r.p m.ptr).toNat (rf r.b m.ptr).toNat
      (rf r.l m.ptr).toNat (amInc m.am (mSigned c r m.ptr)))) }

/-! ### The mode of a core -/

/-- Whether a step of this Pulse that comes before step 0 of a kernel is still to come: a meter's capture or a swap that is due on
any die (R18), or a takeover of its own. -/
def stepOwed (s : State) (d k : Nat) : Bool := metersOwed s || !(dueSwaps s).isEmpty || takeOwed s d k

/-- In which mode a core can run its next slot now: a kernel in RUN or SHADOW that started this tick and has not
reached END or a slipface wait, a kernel in TEST that is not suspended, or a steward in RUN. A kernel of a pod whose domain does
not run executes nothing (R409). -/
def coreMode (s : State) (c : CoreRef) : Option Mode :=
  if c.stew then (if (stew s c.die c.idx).st = .run then some .steward else none)
  else
    let k := kern s c.die c.idx
    match k.st with
    | .run | .shadow => if k.active && !k.ended && k.wait.isNone && !stepOwed s c.die c.idx
        && domLive s c.die (pdPod (c.idx / 18)) then some .sample else none
    | .test => if k.suspended || !domLive s c.die (pdPod (c.idx / 18)) then none else some .test
    | _ => none

/-- Whether a core runs in sample mode. -/
def inSample (s : State) (c : CoreRef) : Bool := coreMode s c = some .sample

/-! ### Registers by code (R92) -/

/-- The width of LS and LE: 12 bits on a kernel; a steward's hold its 29-bit program addresses (assumption log 8). -/
def loopBits (c : CoreRef) : Nat := if c.stew then 29 else 12

/-- The value that a read of a register code returns (R92): M is sign-extended, every other one zero-extended. -/
def readCode (c : CoreRef) (k : Core) (code : Nat) : Word :=
  let r := k.r
  let n := code % 16
  match code / 16 with
  | 0 => rf r.d n
  | 1 => rf r.p n
  | 2 => rf r.b n
  | 3 => rf r.l n
  | 4 => BitVec.ofInt 32 (mSigned c r n)
  | _ =>
    if code < 0x54 then rf r.e (code - 0x50)
    else if code = 0x54 then r.rpc
    else if code < 0x58 then rf r.ls (code - 0x55)
    else if code < 0x5B then rf r.le (code - 0x58)
    else if code < 0x5E then rf r.lc (code - 0x5B)
    else match code with
      | 0x5E => r.ix
      | 0x5F => BitVec.ofNat 32 r.flg.toNat
      | 0x60 => BitVec.ofNat 32 r.kmode.toNat
      | 0x68 => k.free.ra
      | 0x69 => k.free.epc
      | 0x6A => k.free.eflg
      | 0x6B => k.free.ivb
      | 0x6C => k.free.icause
      | _ => k.free.ipl

/-- KMODE after a write (R75, R345): in sample mode HOARD stays, on a steward it reads 0. -/
def kmodeWrite (m : Mode) (old : BitVec 3) (v : Word) : BitVec 3 :=
  match m with
  | .sample => BitVec.ofNat 3 (v.toNat % 2 + 2 * (old.toNat / 2 % 2) + 4 * (v.toNat / 4 % 2))
  | .test => BitVec.ofNat 3 v.toNat
  | .steward => BitVec.ofNat 3 (v.toNat % 2 + 4 * (v.toNat / 4 % 2))

/-- IPL as a write of it holds it: LEVEL written 5–7 acts as 4 (IPL layout), and reads 4 from then on; an RTI from an EFLG that holds 5–7
keeps that value, which acts as 4 (DESIGN CHOICE, assumption log 140: the layout does not say what LEVEL reads). -/
def iplWrite (v : Word) : Word :=
  BitVec.ofNat 32 (v.toNat / 8 % 4 * 8 + min 4 (v.toNat % 8))

/-- A write to RPC by the word under repeat detaches RPC from the repeat (R149). -/
def detach (r : Repeat) : Repeat :=
  match r with
  | .run n _ => .run n true
  | x => x

/-- The core after a write of `v` to a register code (R92, R129, R160). -/
def writeCode (c : CoreRef) (m : Mode) (k : Core) (code : Nat) (v : Word) : Core :=
  let r := k.r
  let n := code % 16
  match code / 16 with
  | 0 => { k with r := { r with d := rfSet r.d n v } }
  | 1 => { k with r := { r with p := rfSet r.p n (lowBits v (ptrBits c)) } }
  | 2 => { k with r := { r with b := rfSet r.b n (lowBits v (ptrBits c)) } }
  | 3 => { k with r := { r with l := rfSet r.l n (lowBits v (ptrBits c)) } }
  | 4 => { k with r := { r with m := rfSet r.m n (lowBits v (ptrBits c)) } }
  | _ =>
    if code < 0x54 then { k with r := { r with e := rfSet r.e (code - 0x50) v } }
    else if code = 0x54 then { k with r := { r with rpc := clampCount v }, rep := detach k.rep }
    else if code < 0x58 then { k with r := { r with ls := rfSet r.ls (code - 0x55) (lowBits v (loopBits c)) } }
    else if code < 0x5B then { k with r := { r with le := rfSet r.le (code - 0x58) (lowBits v (loopBits c)) } }
    else if code < 0x5E then { k with r := { r with lc := rfSet r.lc (code - 0x5B) (clampCount v) } }
    else match code with
      | 0x5E => { k with r := { r with ix := v } }
      | 0x5F => { k with r := { r with flg := BitVec.ofNat 7 v.toNat } }
      | 0x60 => { k with r := { r with kmode := kmodeWrite m r.kmode v } }
      | 0x68 => { k with free := { k.free with ra := lowBits v 29 } }
      | 0x69 => { k with free := { k.free with epc := lowBits v 29 } }
      | 0x6A => { k with free := { k.free with eflg := lowBits v 16 } }
      | 0x6B => { k with free := { k.free with ivb := BitVec.ofNat 32 (v.toNat % 2 ^ 29 / 512 * 512) } }
      | 0x6D => { k with free := { k.free with ipl := iplWrite v } }
      | _ => k

/-- KMODE.SATMODE (R74). -/
def satMode (r : Regs) : Bool := r.kmode.getLsbD 0

/-- KMODE.HOARD (R74). -/
def hoardMode (r : Regs) : Bool := r.kmode.getLsbD 1

/-- KMODE.RESCAP (R74). -/
def rescap (r : Regs) : Bool := r.kmode.getLsbD 2

/-! ### The bit space -/

/-- A bit of a core's bit space as an instruction reads it (R77, R346). -/
def readBit (s : State) (c : CoreRef) (a : Nat) : Bool :=
  let k := coreOf s c
  if 0x10 ≤ a && a ≤ 0x16 then k.r.flg.getLsbD (a - 0x10)
  else if 0x100 ≤ a then smGet (fun _ => false) k.bits a
  else if c.stew then
    if 0x20 ≤ a && a < 0x40 then (irqPending s c.die c.idx).getLsbD (a - 0x20)
    else if a = 0x40 then (pulseLow s).getLsbD 0
    else if a = 0x41 then c.idx = 1
    else false
  else if a < 0x80 then (captOf s c.die c.idx).getLsbD a
  else false

/-- FLG with one flag written through its mirror (R77). -/
def flgBit (f : Flg) (i : Nat) (b : Bool) : Flg :=
  BitVec.ofNat 7 (f.toNat - (f.getLsbD i).toNat * 2 ^ i + b.toNat * 2 ^ i)

/-- A core after a write to a bit-space address: the FLG mirror and the program bits take it, every other bit ignores
it (R77, R93). -/
def writeBit (k : Core) (a : Nat) (b : Bool) : Core :=
  if 0x10 ≤ a && a ≤ 0x16 then { k with r := { k.r with flg := flgBit k.r.flg (a - 0x10) b } }
  else if 0x100 ≤ a && a < 0x1000 then { k with bits := smSet (fun _ => false) a b k.bits }
  else k

/-- A bit operand's value (R93). -/
def readBitOp (s : State) (c : CoreRef) (o : BitOp) : Bool :=
  match o with
  | .space a => readBit s c a
  | .dreg n b => (rf (coreOf s c).r.d n).getLsbD b

/-- A core after a bit operand is written (R93, R136). -/
def writeBitOp (k : Core) (o : BitOp) (b : Bool) : Core :=
  match o with
  | .space a => writeBit k a b
  | .dreg n i => { k with r := setD k.r n (wPut (rf k.r.d n) i i b.toNat) }

/-! ### Memory operands -/

/-- The outcome of an operand access. -/
inductive Got (α : Type) where
  | ok (v : α) (s : State)
  /-- a bus error response on a steward's access (vector 0x03) -/
  | busErr (s : State)
  /-- an uncorrectable memory error (FCODE 0x2, vector 0x04) -/
  | unc (s : State)
  /-- a Hoard access in sample mode to a bank the kernel does not own (FCODE 0x3) -/
  | unowned (s : State)
  /-- a shadow whose target has not made the access yet -/
  | later
deriving DecidableEq, Repr

/-- Sequencing of operand accesses: the first that fails ends the instruction. -/
def Got.andThen {α β : Type} (g : Got α) (f : α → State → Got β) : Got β :=
  match g with
  | .ok v s => f v s
  | .busErr s => .busErr s
  | .unc s => .unc s
  | .unowned s => .unowned s
  | .later => .later

/-- A word of a kernel's own memory through ECC (R63). -/
def readKernelWord (s : State) (d k mem : Nat) (bankB : Bool) (w a : Nat) : Got Word :=
  match eccAt s a with
  | .clean => .ok (loadW s a) s
  | .single => .ok (loadW s a) (kernelCorrected s d k mem bankB w a)
  | .double => .unc s

/-- A word of a pod's Hoard through ECC (R177). -/
def readHoardWord (s : State) (d p w : Nat) : Got Word :=
  match eccAt s (hoardA d p w) with
  | .clean => .ok (loadW s (hoardA d p w)) s
  | .single => .ok (loadW s (hoardA d p w)) (hoardCorrected s d p w)
  | .double => .unc (hoardUncorrectable s d p w)

/-- The Hoard banks that a slot owns with the program bank it has active (R172). -/
def ownedBanks (s : State) (d k : Nat) (bankB : Bool) : Nat :=
  fld s (Reg.POD_HOWN d (k / 18) (k % 18)) (if bankB then F.POD_HOWN_BANKB else F.POD_HOWN_BANKA)

/-- Whether a kernel owns the bank of a Hoard word. -/
def ownsWord (s : State) (d k w : Nat) : Bool :=
  (ownedBanks s d k (kern s d k).pbank).testBit (w / 2 ^ 14)

/-- A Hoard value that a kernel read, kept for its shadow (R174). -/
def noteHoardRead (s : State) (d k : Nat) (v : Word) : State :=
  setKern s d k { kern s d k with hoardIn := (kern s d k).hoardIn ++ [v] }

/-- A kernel's read of Hoard word `w` (R135, R172, R174, R176): a shadow gets the value of its active kernel's access. -/
def readHoardOp (s : State) (c : CoreRef) (w : Nat) : Got Word :=
  let kn := kern s c.die c.idx
  match kn.st with
  | .shadow =>
    match (kern s c.die (shadowTarget s c.die c.idx)).hoardIn[kn.hoardIn.length]? with
    | some v => .ok v (noteHoardRead s c.die c.idx v)
    | none => .later
  | .test => readHoardWord s c.die (c.idx / 18) w
  | _ =>
    if ownsWord s c.die c.idx w then
      (readHoardWord s c.die (c.idx / 18) w).andThen fun v t => .ok v (noteHoardRead t c.die c.idx v)
    else .unowned s

/-- A kernel's write of Hoard word `w`: a shadow's is compared and never performed (R174). -/
def writeHoardOp (s : State) (c : CoreRef) (w : Nat) (v : Word) : Got Unit :=
  let kn := kern s c.die c.idx
  let noted : State := setKern s c.die c.idx { kn with outs := kn.outs ++ [.hoard w v] }
  let a := hoardA c.die (c.idx / 18) w
  match kn.st with
  | .shadow => .ok () noted
  | .test => .ok () (setEcc (storeW s a v) a .clean)
  | _ =>
    if ownsWord s c.die c.idx w then .ok () (setEcc (storeW noted a v) a .clean) else .unowned s

/-- The bus identity of a steward. -/
def stewAccess (c : CoreRef) : Access := ⟨c.idx, c.die⟩

/-- A steward's read of the word at word address `w` (R345, R353). -/
def stewRead (s : State) (c : CoreRef) (w : Nat) : Got Word :=
  let t := busRead (stewAccess c) (stewAddr s c.die (4 * w)) 4 s
  match t.resp with
  | .ok v => .ok (BitVec.ofNat 32 v.toNat) t
  | _ => .busErr t

/-- A steward's write of the word at word address `w`. -/
def stewWrite (s : State) (c : CoreRef) (w : Nat) (v : Word) : Got Unit :=
  let t := busWrite (stewAccess c) (stewAddr s c.die (4 * w)) 4 v.toNat s
  match t.resp with
  | .ok _ => .ok () t
  | _ => .busErr t

/-- The word that pointer `ptr` with value `p` reaches (R89, R345). -/
def readMem (s : State) (c : CoreRef) (ptr p : Nat) : Got Word :=
  if c.stew then stewRead s c p
  else
    let kn := kern s c.die c.idx
    if ptr < 8 then readKernelWord s c.die c.idx 2 false (p % 4096) (xA c.die c.idx (p % 4096))
    else if 12 ≤ ptr && hoardMode kn.core.r then readHoardOp s c p
    else readKernelWord s c.die c.idx 3 kn.ybank (p % 4096) (yA c.die c.idx kn.ybank (p % 4096))

/-- A write of an X or Y word by a kernel: it takes effect in the step, sets fresh ECC, is noted for lockstep and is mirrored: in
every slot that a load phase copies into, and in lockstep in the standby (R128, R434, R435). -/
def writeKernelWord (s : State) (c : CoreRef) (off : Nat) (v : Word) : State :=
  let kn := kern s c.die c.idx
  let t := setEcc (storeW s (kernWin c.die c.idx + off) v) (kernWin c.die c.idx + off) .clean
  let u := setKern t c.die c.idx { kn with outs := kn.outs ++ [.mem off v] }
  let others := copiesOf s c.die c.idx ++ (standbyOf s c.die c.idx).toList
  if kn.st = .run then
    each others (fun j t => setEcc (storeW t (kernWin c.die j + off) v) (kernWin c.die j + off) .clean) u
  else u

/-- The word that pointer `ptr` with value `p` reaches, written. -/
def writeMem (s : State) (c : CoreRef) (ptr p : Nat) (v : Word) : Got Unit :=
  if c.stew then stewWrite s c p v
  else
    let kn := kern s c.die c.idx
    if ptr < 8 then .ok () (writeKernelWord s c (0x1_0000 + 4 * (p % 4096)) v)
    else if 12 ≤ ptr && hoardMode kn.core.r then writeHoardOp s c p v
    else .ok () (writeKernelWord s c ((if kn.ybank then 0x1_8000 else 0x1_4000) + 4 * (p % 4096)) v)

/-- A real S1 or S2 operand (R90). -/
def readDual (s : State) (c : CoreRef) (o : DualOp) : Got Word :=
  match o with
  | .reg n => .ok (rf (coreOf s c).r.d n) s
  | .mem m => readMem s c m.ptr (rf (coreOf s c).r.p m.ptr).toNat

/-- A complex S1 or S2 operand: a register pair, or the words at the address with bit 0 cleared and the next (R61). -/
def readPair (s : State) (c : CoreRef) (o : DualOp) : Got (Word × Word) :=
  match o with
  | .reg n => .ok (rf (coreOf s c).r.d n, rf (coreOf s c).r.d (n + 1)) s
  | .mem m =>
    let p := (rf (coreOf s c).r.p m.ptr).toNat / 2 * 2
    (readMem s c m.ptr p).andThen fun re t => (readMem t c m.ptr (p + 1)).andThen fun im u => .ok (re, im) u

/-- The pointer update of an S1 or S2 operand. -/
def postDual (c : CoreRef) (r : Regs) (o : DualOp) : Regs :=
  match o with
  | .mem m => postMod c r m
  | .reg _ => r

/-- The registers after the residue of a 32-bit store of A`n` is captured (R70). -/
def captureRes (r : Regs) (n : Nat) (st : StoreRes) : Regs := if rescap r then { r with e := rfSet r.e n st.res } else r

/-- The second operand of a 32-bit binary operation. -/
def src2 (r : Regs) (o : Src2) : Word :=
  match o with
  | .reg n => rf r.d n
  | .imm w => w

/-- The second operand of an accumulator operation (R94, R114). -/
def asrc2 (r : Regs) (o : ASrc2) : Acc :=
  match o with
  | .acc n => accOf r n
  | .reg n => q31 (rf r.d n)
  | .imm w => q31 w

/-- The low 8 bits of a word as a signed count (R94, R115). -/
def count8 (w : Word) : Int := toSigned (w.toNat % 256) 8

/-- The count of an accumulator shift. -/
def asrcCount (r : Regs) (o : ASrc2) : Int :=
  match o with
  | .acc _ => 0
  | .reg n => count8 (rf r.d n)
  | .imm w => count8 w

end Sys2Proof.Machine
end

