-- ==== Sys2Proof/Machine/Exec.lean ====
section
/-! DEFINITION. How a core takes its next slot: fetch and legality, conditions and annulment (R83–R85, R145), costs
(R109), repeats and block repeats (R148–R155), delay slots (R141, R142), exception and interrupt entry and return
(R161–R167), kernel faults (R158), and the waits of slipface reads (R36). Every Cyilo row runs through here. -/
namespace Sys2Proof.Machine

/-! ### The next address -/

/-- The address after `pc`: program addresses have 29 bits (R144). A kernel leaves its own 4,096 words long before. -/
def pcAfter (pc : Nat) : Nat := (pc + 1) % 2 ^ 29

/-- The innermost active level whose LE is `pc` (R152, R153). BRPT gives no two active levels one LE; where a program has written LE
so, the lowest-numbered of them acts (DESIGN CHOICE, assumption log 136: the rules do not say). -/
def levelAt (k : Core) (pc : Nat) : Option Nat :=
  [0, 1, 2].find? fun j => k.lact.getLsbD j && (rf k.r.le j).toNat = pc

/-- LACT with one level's bit written. -/
def setLevel (a : BitVec 3) (j : Nat) (b : Bool) : BitVec 3 :=
  BitVec.ofNat 3 (a.toNat - (a.getLsbD j).toNat * 2 ^ j + b.toNat * 2 ^ j)

/-- Control after the slot at `pc` has completed with no branch outstanding: a block repeat returns to LS or ends at
its LE (R152), otherwise the next address; an annulled block's weight ends at its LE (R145). -/
def nextSlot (k : Core) (pc : Nat) : Core :=
  let k := { k with annulMul := k.annulMul.filter fun e => e.1 ≠ pc }
  let k := if k.annulTo = some (pcAfter pc) then { k with annulTo := none } else k
  match levelAt k pc with
  | none => { k with r := { k.r with pc := pcAfter pc }, iterEnd := false }
  | some j =>
    let lc := (rf k.r.lc j).toNat
    if 1 < lc then
      { k with r := { k.r with lc := rfSet k.r.lc j (BitVec.ofNat 32 (lc - 1)), pc := (rf k.r.ls j).toNat },
               iterEnd := true }
    else
      { k with r := { k.r with lc := rfSet k.r.lc j 0, pc := pcAfter pc }, lact := setLevel k.lact j false, iterEnd := true }

/-! ### Faults, exceptions and interrupts -/

/-- The kernel stopped in FAULTED with its staged writes discarded, FAULT and FCODE set, and the event posted (R158). -/
def faultKernel (s : State) (d k fcode : Nat) : State :=
  let kn := kern s d k
  let t := setKern s d k
    { kn with st := .faulted, fcode := fcode, staged := [], passed := [], wait := none, active := false, stop := false,
              core := { kn.core with img := kn.core.r, rep := .idle, dly := none, annulTo := none, annulMul := [] } }
  postEvent (setFld t (Reg.KERNEL_STAT d k) F.KERNEL_STAT_FAULT 1) d k 2 fcode 0

/-- A kernel fault in sample mode (R158): it is also a trigger for the spares logic (R437, cause 4). A shadow that faults is
FAULTED and so no longer one of the pod's spares (R8, R434; assumption log 9). -/
def kernelFault (s : State) (d k fcode : Nat) : State :=
  let st := (kern s d k).st
  let t := faultKernel s d k fcode
  if st = .run then spareTrigger t d k 4
  else if st = .shadow then dropSpare t d (k / 18) (k % 18) else t

/-- IPL's fields (R160). -/
def iplExc (f : FreeRegs) : Bool := f.ipl.getLsbD 4
def iplIE (f : FreeRegs) : Bool := f.ipl.getLsbD 3
def iplLevel (f : FreeRegs) : Nat := f.ipl.toNat % 8

/-- IPL from its fields. -/
def mkIpl (exc ie : Bool) (level : Nat) : Word := BitVec.ofNat 32 (exc.toNat * 16 + ie.toNat * 8 + level % 8)

/-- EFLG as entry saves it (R160, R162). -/
def mkEflg (k : Core) (rpt : Bool) : Word :=
  BitVec.ofNat 32 (rpt.toNat * 2 ^ 15 + (iplExc k.free).toNat * 2 ^ 14 + iplLevel k.free % 8 * 2 ^ 11
    + (iplIE k.free).toNat * 2 ^ 10 + k.lact.toNat * 2 ^ 7 + k.r.flg.toNat)

/-- Entry to vector `vec` (R162): EPC, EFLG, level and enable, loops inactive, ICAUSE, and fetch from the vector. `prio`
is the priority of an interrupt, `none` for an exception; entry takes 3 steps. -/
def enterVector (k : Core) (vec code epc : Nat) (ds rpt : Bool) (prio : Option Nat) : Core :=
  let lvl := match prio with | some p => p + 1 | none => iplLevel k.free
  let exc := match prio with | some _ => iplExc k.free | none => true
  { k with
    free := { k.free with
      epc := BitVec.ofNat 32 (epc % 2 ^ 29)
      eflg := mkEflg k rpt
      ipl := mkIpl exc false lvl
      icause := BitVec.ofNat 32 (code * 2 ^ 16 + prio.isSome.toNat * 2 ^ 15 + ds.toNat * 2 ^ 14 + vec) }
    lact := 0
    rep := .idle
    dly := none
    iterEnd := false
    steps := k.steps + 3
    r := { k.r with pc := (k.free.ivb.toNat + 8 * vec) % 2 ^ 29 } }

/-- A pc as a core uses it: bits [11:0] only on a kernel in TEST (R160). -/
def wrapPc (c : CoreRef) (pc : Nat) : Nat := if c.stew then pc % 2 ^ 29 else pc % 4096

/-- An exception while IPL.EXC is 1 (R164): a steward halts with HPC recorded, a TEST kernel becomes FAULTED. -/
def doubleException (s : State) (c : CoreRef) (vec : Nat) : State :=
  if c.stew then
    let st := stew s c.die c.idx
    let t := setStew s c.die c.idx { st with st := .halted }
    setFld t (Reg.STEWARD_HPC c.die c.idx) F.STEWARD_HPC_ADDR st.core.r.pc
  else faultKernel s c.die c.idx (if vec = 4 then 2 else 1)

/-- An exception raised by the word at the pc (R161–R164). TRAP and BRK (vectors 1 and 2) have completed, so EPC is the
next address, which is LS where they stand at the LE of a level with iterations to go (R152, R166; assumption log 81); for the
others the word wrote nothing, EPC is its own address, or the branch's in a delay slot, and a
repeat stops with RPC holding the runs not completed. -/
def raiseException (s : State) (c : CoreRef) (vec code : Nat) : State :=
  let k := coreOf s c
  if iplExc k.free then doubleException s c vec
  else if vec = 1 || vec = 2 then
    let k := nextSlot k k.r.pc
    setCore s c (let k' := enterVector k vec code k.r.pc false false none
                 { k' with r := { k'.r with pc := wrapPc c k'.r.pc } })
  else
    let (rpt, rpc) := match k.rep with
      | .run n _ => (true, BitVec.ofNat 32 n)
      | _ => (false, k.r.rpc)
    let (epc, ds) := match k.dly with
      | some dl => (dl.own, true)
      | none => (k.r.pc, false)
    let k0 := { k with r := { k.r with rpc := rpc } }
    let k' := enterVector k0 vec code epc ds rpt none
    setCore s c { k' with r := { k'.r with pc := wrapPc c k'.r.pc } }

/-- The two-bit priority of an interrupt source of a steward (R349). -/
def irqPrio (s : State) (d i src : Nat) : Nat :=
  let w := if src < 16 then reg s (Reg.STEWARD_IPRI0 d i) else reg s (Reg.STEWARD_IPRI1 d i)
  w.toNat / 2 ^ (2 * (src % 16)) % 4

/-- The pending source taken first: highest priority, then lowest number (R165). -/
def irqPick (s : State) (d i : Nat) : Option Nat :=
  let p := irqPending s d i
  let cands := (List.range 32).filter fun n => p.getLsbD n
  [3, 2, 1, 0].findSome? fun pr => cands.find? fun n => irqPrio s d i n = pr

/-- The source that a steward accepts now under R165, if any. -/
def irqAccepted (s : State) (d i : Nat) : Option Nat :=
  let f := (stew s d i).core.free
  match irqPick s d i with
  | some n => if iplIE f && !iplExc f && decide (iplLevel f < irqPrio s d i n + 1) then some n else none
  | none => none

/-- A steward's entry to interrupt source `n` (R162). -/
def takeInterrupt (s : State) (d i n : Nat) : State :=
  let st := stew s d i
  setStew s d i { st with
    st := .run, core := enterVector st.core (0x20 + n) 0 st.core.r.pc false false (some (irqPrio s d i n)) }

/-! ### Costs and control after a slot -/

/-- How many runs an annulled slot stands for: the runs of an annulled repeat and of every annulled block repeat around
it (R145). -/
def annulWeight (k : Core) : Nat :=
  (match k.rep with | .annul n => n | _ => 1) * (k.annulMul.map (·.2)).foldl (· * ·) 1

/-- The core charged `n` steps, and a half-step where the slot takes a Hoard operand in sample mode (R35, R109). -/
def charge (k : Core) (n : Nat) (hoard : Bool) : Core :=
  { k with steps := k.steps + n * annulWeight k, halves := k.halves + hoard.toNat * annulWeight k }

/-- Where level `j` ends, beside its LS: a steward's body past the top address goes on at 0 (R144). -/
def levelEnd (c : CoreRef) (k : Core) (j : Nat) : Nat :=
  let ls := (rf k.r.ls j).toNat
  let le := (rf k.r.le j).toNat
  if c.stew && le < ls then le + 2 ^ 29 else le

/-- Whether address `t` lies outside LS–LE of level `j` (R144, R155). -/
def outsideLevel (c : CoreRef) (k : Core) (t j : Nat) : Bool :=
  let ls := (rf k.r.ls j).toNat
  let le := (rf k.r.le j).toNat
  if c.stew && le < ls then decide (le < t) && decide (t < ls) else decide (t < ls) || decide (le < t)

/-- The levels that a jump to `t` leaves become inactive, and with each the levels nested in it, whose end lies before its own
(R153, R155). -/
def leaveLevels (c : CoreRef) (k : Core) (t : Nat) : Core :=
  let out := [0, 1, 2].filter fun j => k.lact.getLsbD j && outsideLevel c k t j
  let gone := [0, 1, 2].filter fun i =>
    k.lact.getLsbD i && out.any fun j => decide (levelEnd c k i ≤ levelEnd c k j)
  { k with lact := gone.foldl (fun a j => setLevel a j false) k.lact }

/-- Control after a slot: the second delay slot of a taken branch leads to the target, at once in free mode and through
annulled slots in sample mode (R141, R145, R155). In sample mode, where control moves only forward, a taken branch to its own
address + 1 or + 2 goes on after its slots and does not run them again, as one to + 3 does (DESIGN CHOICE, assumption log
77); a block that ends at the second slot goes through its iterations (R146, R152). In free mode a taken branch whose second
slot is at an active LE goes to its target, and the level's LC is left as it is (DESIGN CHOICE, assumption log 78: R141
against R152). -/
def afterSlot (c : CoreRef) (m : Mode) (k : Core) (pc : Nat) : Core :=
  match k.dly with
  | none => nextSlot k pc
  | some dl =>
    if 1 < dl.left then
      { k with dly := some { dl with left := dl.left - 1 }, r := { k.r with pc := pcAfter pc }, iterEnd := false }
    else
      let k := { k with dly := none }
      match dl.target with
      | none => nextSlot k pc
      | some t =>
        match m with
        | .sample =>
          if pc + 1 < t then { k with annulTo := some t, r := { k.r with pc := pcAfter pc }, iterEnd := false }
          else nextSlot k pc
        | _ =>
          let k := if dl.leaves then leaveLevels c k t else k
          { k with r := { k.r with pc := wrapPc c t }, iterEnd := false }

/-- Control after one run of a slot: a repeat runs its word again until its count is done (R148, R149). -/
def advance (c : CoreRef) (m : Mode) (k : Core) : Core :=
  let pc := k.r.pc
  match k.rep with
  | .run n det =>
    let k := if det then k else { k with r := { k.r with rpc := BitVec.ofNat 32 (n - 1) } }
    if 1 < n then { k with rep := .run (n - 1) det }
    else afterSlot c m { k with rep := .idle } pc
  | .annul _ => afterSlot c m { k with rep := .idle } pc
  | .idle => afterSlot c m k pc

/-! ### Fetch and legality -/

/-- The word at the core's pc: a kernel's through the ECC of its active program bank, a steward's through the bus. -/
def fetchWord (s : State) (c : CoreRef) : Got IWord :=
  let pc := (coreOf s c).r.pc
  if c.stew then
    let t := busRead (stewAccess c) (stewAddr s c.die (8 * pc)) 8 s
    match t.resp with
    | .ok v => .ok v t
    | _ => .busErr t
  else
    let kn := kern s c.die c.idx
    let a := progA c.die c.idx kn.pbank pc
    match eccAt s a with
    | .clean => .ok (BitVec.ofNat 64 (loadBytes s a 8)) s
    | .single => .ok (BitVec.ofNat 64 (loadBytes s a 8)) (kernelCorrected s c.die c.idx 1 kn.pbank pc a)
    | .double => .unc s

/-- A branch's target address from a displacement, modulo the 29 bits of a program address: the spec does not say where a target
below 0 lies (DESIGN CHOICE, assumption log 103). -/
def dispTarget (pc : Nat) (disp : Int) : Nat := (((pc : Int) + disp) % (2 ^ 29 : Nat)).toNat

/-- The target that a word names, if it is a branch with one. -/
def targetOf (k : Core) (op : Op) : Option Nat :=
  match op with
  | .bra d => some (dispTarget k.r.pc d)
  | .bsr d => some (dispTarget k.r.pc d)
  | .jmpImm a => some a
  | .jmpReg d => some ((rf k.r.d d).toNat % 2 ^ 29)
  | _ => none

/-- Whether a BRPT keeps the rules of R153 in the state it is reached in, a steward's body past the top address going on at 0
(R144): against every active level, also in a subroutine called from a body, outside LS–LE (DESIGN CHOICE, assumption log 79: R153
speaks of a BRPT inside the body). -/
def brptOk (c : CoreRef) (k : Core) (op : Op) : Bool :=
  match op with
  | .brpt j _ len =>
    let le := k.r.pc + len
    let ends (i : Nat) : Nat :=
      let ls := (rf k.r.ls i).toNat
      let e := (rf k.r.le i).toNat
      if e < ls && ls ≤ k.r.pc then e + 2 ^ 29 else e
    !k.lact.getLsbD j && (c.stew || le < 4096) && [0, 1, 2].all fun i => !k.lact.getLsbD i || decide (le < ends i)
  | _ => true

/-- Whether a decoded slot is legal where it is reached (R96, R105–R107, R142, R148, R155). An NV word always is. A flow
word that a REP of free mode would repeat is illegal at its own address, with the repeat stopped there; a register count of 0
annuls it instead (DESIGN CHOICE, assumption log 80: R150 and R156 name the refusal of admission only). -/
def legalHere (c : CoreRef) (m : Mode) (k : Core) (sl : Slot) : Bool :=
  sl.cond = .nv ||
    (legalOn m sl.op
      && (c.stew || match targetOf k sl.op with | some t => decide (t < 4096) | none => true)
      && (m = .sample ||
          (!(k.dly.isSome && isFlow sl.op)
            && !((match k.rep with | .run _ _ => true | _ => false) && isFlowClass sl.op)
            && brptOk c k sl.op)))

/-- The slot at the core's pc: `none` is an illegal instruction there, as is any address at or above 4,096 on a kernel
(R144). -/
def fetchSlot (s : State) (c : CoreRef) (m : Mode) : Got (Option Slot) :=
  if !c.stew && 4096 ≤ (coreOf s c).r.pc then .ok none s
  else (fetchWord s c).andThen fun w t =>
    match decodeWord w with
    | some sl => .ok (if legalHere c m (coreOf s c) sl then some sl else none) t
    | none => .ok none t

/-! ### Slipface lines -/

/-- Whether a kernel's active bank produces slipface line `n` (R132). -/
def producesSlip (s : State) (d k n : Nat) : Bool :=
  (bankSlots s d k (kern s d k).pbank 4096 0).any fun e =>
    match e.2 with
    | some sl => slotStores sl = some (.slip n)
    | none => false

/-- Whether a kernel has already stored slipface line `n` in this tick. -/
def ownSlip (kn : Kern) (n : Nat) : Option Word :=
  kn.outs.reverse.findSome? fun o => match o with | .slip l v => if l = n then some v else none | _ => none

/-- Whether an LDL of slipface line `n` must wait (R36, R132, R187): a kernel of the pod that runs this tick produces it
and has not completed its last run. Its own STL is never waited for, and a shadow does not wait for its target's (R189). -/
def slipWaits (s : State) (c : CoreRef) (n : Nat) : Bool :=
  let p := c.idx / 18
  !(slipLine s c.die p n).done && (ownSlip (kern s c.die c.idx) n).isNone &&
    (List.range 18).any fun i =>
      let j := p * 18 + i
      j ≠ c.idx && j ≠ inputKernel s c.die c.idx && (kern s c.die j).st = .run && (kern s c.die j).active
        && producesSlip s c.die j n

/-- What the next LDL of slipface line `n` in this tick reads (R132, R133, R187): the line. A shadow reads what its target read at the same
access (R189), and comes to it no earlier than its target: `none`. Where the target makes no such read any more, because the
two have parted, it reads its own last STL or the line (DESIGN CHOICE, assumption log 135). -/
def slipRead (s : State) (c : CoreRef) (n : Nat) : Option Word :=
  let kn := kern s c.die c.idx
  let v := (slipLine s c.die (c.idx / 18) n).val
  if kn.st ≠ .shadow then some v
  else
    let to_ := kern s c.die (shadowTarget s c.die c.idx)
    match to_.slipIn[kn.slipIn.length]? with
    | some w => some w
    | none => if to_.st = .run && to_.active && !to_.ended then none else some ((ownSlip kn n).getD v)

/-- The state with the slipface value of a slot of sample mode noted, executed or annulled, in the kernel that comes to it; any
other slot leaves the state. `none`: a shadow is there before its target. -/
def noteSlip (s : State) (c : CoreRef) (m : Mode) (sl : Slot) : Option State :=
  match m, slotLoads sl with
  | .sample, some (.slip n) => (slipRead s c n).map fun v =>
      setKern s c.die c.idx { kern s c.die c.idx with slipIn := (kern s c.die c.idx).slipIn ++ [v] }
  | _, _ => some s

/-- What an LDL returns (R130, R132–R134, R189). -/
def ldlValue (s : State) (c : CoreRef) (l : LineOp) : Word :=
  match l with
  | .wadi n => kernelLine s c.die (inputKernel s c.die c.idx) n
  | .slip n =>
    let kn := kern s c.die c.idx
    if kn.st = .shadow then kn.slipIn.getLast?.getD 0 else (slipLine s c.die (c.idx / 18) n).val

/-- Whether this run of a slot is its last in the tick: no repeat run and no block-repeat iteration to come (R132). -/
def lastRun (k : Core) : Bool :=
  (match k.rep with | .run n _ => decide (n ≤ 1) | _ => true) &&
    [0, 1, 2].all fun j => !k.lact.getLsbD j || decide ((rf k.r.lc j).toNat ≤ 1)

/-- An STL (R131–R134): staged on a Wadi line; on a slipface line made available at once, its handshake complete at the
last run; a shadow's is only compared, a TEST kernel's discarded. -/
def storeLine (s : State) (c : CoreRef) (l : LineOp) (v : Word) : State :=
  let kn := kern s c.die c.idx
  match kn.st with
  | .run | .shadow =>
    match l with
    | .wadi n => setKern s c.die c.idx { kn with staged := alPut n v kn.staged, outs := kn.outs ++ [.line n v] }
    | .slip n =>
      let t := setKern s c.die c.idx { kn with outs := kn.outs ++ [.slip n v] }
      if kn.st = .run then setSlip t c.die (c.idx / 18) n ⟨v, lastRun kn.core⟩ else t
  | _ => s

/-- An annulled STL (R131, R133): the line is noted as one the kernel produces, a slipface handshake still completes. -/
def passStore (s : State) (c : CoreRef) (l : LineOp) : State :=
  let kn := kern s c.die c.idx
  match kn.st with
  | .run | .shadow =>
    match l with
    | .wadi n => setKern s c.die c.idx { kn with passed := if kn.passed.contains n then kn.passed else n :: kn.passed }
    | .slip n =>
      if kn.st = .run && lastRun kn.core then
        setSlip s c.die (c.idx / 18) n { slipLine s c.die (c.idx / 18) n with done := true }
      else s
  | _ => s

end Sys2Proof.Machine
end

