-- ==== Sys2Proof/Machine/Slots.lean ====
section
/-! DEFINITION. One slot of a core as one indivisible step: what an operation's body answers, how the row's meaning
runs it at the pc, and how an annulled slot passes. -/
namespace Sys2Proof.Machine

/-- What the body of an operation answers. -/
inductive Eff where
  /-- the operation took effect; control moves past the slot -/
  | done (s : State)
  /-- the operation took effect and set the control state itself; `n` steps are charged -/
  | jump (s : State)
  /-- an exception of free mode; the state holds only what the accesses left -/
  | exc (vec code : Nat) (s : State)
  /-- a fault of a kernel in sample mode -/
  | fault (fcode : Nat) (s : State)
  /-- the step does not come now: a shadow waits for its target's access, or the deadline comes first -/
  | later

/-- A body from an operand access that can fail (R158, R161). -/
def Got.toEff {α : Type} (g : Got α) (m : Mode) (f : α → State → Eff) : Eff :=
  match g with
  | .ok v s => f v s
  | .busErr s => .exc 3 0 s
  | .unc s => if m = .sample then .fault 2 s else .exc 4 0 s
  | .unowned s => .fault 3 s
  | .later => .later

/-- A body that only changes registers. -/
def regsEff (c : CoreRef) (s : State) (f : Regs → Regs) : Eff := .done (updRegs s c f)

/-- The condition of a slot in the core's state (R83). -/
def slotCond (s : State) (c : CoreRef) (sl : Slot) : Bool :=
  condHolds sl.cond (coreOf s c).r.flg (readBit s c sl.cbit)

/-- Whether an operation is a branch, whose false condition only leaves it untaken (R84). -/
def isBranch (op : Op) : Bool :=
  match op with
  | .bra _ | .jmpImm _ | .jmpReg _ | .bsr _ | .rts => true
  | _ => false

/-- Whether the slot at the pc is annulled: it lies in the range a taken forward branch skips, or its condition is
false and it is no branch (R84, R145). An annulled word of a zero-count REP is annulled too (R150). -/
def slotAnnulled (s : State) (c : CoreRef) (sl : Slot) : Bool :=
  let k := coreOf s c
  k.annulTo.isSome || (match k.rep with | .annul _ => true | _ => false) || (!isBranch sl.op && !slotCond s c sl)

/-- The core after an annulled slot: its full cost, the expansion of an annulled REP or BRPT as weight on the slots it
covers (R145). -/
def passCore (c : CoreRef) (m : Mode) (k : Core) (sl : Slot) : Core :=
  let k := charge k (slotCost c.stew sl) (m = .sample && takesHoard (hoardMode k.r) sl)
  match sl.op, k.annulTo with
  | .rep (.imm n), some _ => { k with rep := .annul n.toNat, r := { k.r with pc := pcAfter k.r.pc } }
  | .brpt _ (.imm n) len, some _ =>
    { k with annulMul := (k.r.pc + len, n.toNat) :: k.annulMul, r := { k.r with pc := pcAfter k.r.pc } }
  | _, _ => advance c m k

/-- The state after a slot: a steward whose RUN is 0 may be held here (R347). -/
def settle (c : CoreRef) (s : State) : State := if c.stew then settleHold s c.die c.idx else s

/-- The state after an annulled slot: nothing written but what R133 completes. -/
def passSlot (s : State) (c : CoreRef) (m : Mode) (sl : Slot) : State :=
  let t := match slotStores sl with | some l => passStore s c l | none => s
  settle c (setCore t c (passCore c m (coreOf t c) sl))

/-- The state after a slot of `s` whose body answered. -/
def finishSlot (s : State) (c : CoreRef) (m : Mode) (sl : Slot) (e : Eff) : Out :=
  let cost (t : State) : Core :=
    charge (coreOf t c) (slotCost c.stew sl) (m = .sample && takesHoard (hoardMode (coreOf t c).r) sl)
  match e with
  | .done t => .next (settle c (setCore t c (advance c m (cost t))))
  | .jump t => .next (settle c (setCore t c (cost t)))
  | .exc vec code t => .next (settle c (raiseException (setCore t c (cost t)) c vec code))
  | .fault f t => .next (kernelFault t c.die c.idx f)
  | .later => .next s

/-- The state with a core waiting on a slipface line (R36). -/
def waitSlip (s : State) (c : CoreRef) (n : Nat) : State :=
  setKern s c.die c.idx { kern s c.die c.idx with wait := some n }

/-- The slipface line that a slot must wait for now (R36): only in sample mode, executed and annulled alike. -/
def slipToWait (s : State) (c : CoreRef) (m : Mode) (sl : Slot) : Option Nat :=
  match m, slotLoads sl with
  | .sample, some (.slip n) => if slipWaits s c n then some n else none
  | _, _ => none

/-- The next slot of a core, when it is one that the row `want`s and is not an NV word: annulled, waiting, or run through `body`,
which gets the truth of its condition, once a slipface value that it reads is noted (R189). Where the core's next step is another
one, the row has no effect (assumption log 4). -/
def runSlot (c : CoreRef) (want : Op → Bool) (body : Op → Mode → Bool → State → Eff) (s : State) : Out :=
  onUnit (hasCore s c) <|
    match coreMode s c with
    | none => .next s
    | some m =>
      match fetchSlot s c m with
      | .ok (some sl) t =>
        if sl.cond = .nv || !want sl.op then .next s
        else match slipToWait t c m sl, noteSlip t c m sl with
          | some n, _ => .next (waitSlip t c n)
          | none, none => .next s
          | none, some u =>
            if slotAnnulled u c sl then .next (passSlot u c m sl)
            else finishSlot s c m sl (body sl.op m (slotCond u c sl) u)
      | _ => .next s

end Sys2Proof.Machine
end

