-- ==== Sys2Proof/Machine/CyiloAlu.lean ====
section
/-! DEFINITION. The ALU and bit operations of Cyilo, opcodes 0x10–0x1F (R112–R120, R136): one body per layout, and one
meaning per row. -/
namespace Sys2Proof.Machine

/-- A binary operation at either width (R112, R114); `n` is the count of a shift. CMP and TST give their first operand
back, which their rows do not write. -/
def binRes {w : Nat} (f : BinFn) (sat : Bool) (flg : Flg) (x y : BitVec w) (n : Int) : Res w :=
  match f with
  | .add => addRes flg x y false
  | .addc => addRes flg x y (flagC flg)
  | .sub => subRes flg x y true
  | .subc => subRes flg x y (flagC flg)
  | .and => logicRes flg (x &&& y)
  | .or => logicRes flg (x ||| y)
  | .xor => logicRes flg (x ^^^ y)
  | .cmp => ⟨x, (subRes flg x y true).flg⟩
  | .tst => ⟨x, tstFlags flg x⟩
  | .min => minRes flg x y
  | .max => maxRes flg x y
  | .ash => ashRes flg sat x n
  | .lsh => lshRes flg x n

/-- Whether a binary operation writes its destination (R98). -/
def writesDest (f : BinFn) : Bool :=
  match f with
  | .cmp | .tst => false
  | _ => true

/-- The registers after a 32-bit binary operation. -/
def binD (f : BinFn) (dd ds1 : Nat) (s2 : Src2) (r : Regs) : Regs :=
  let y := src2 r s2
  let o := binRes f (satMode r) r.flg (rf r.d ds1) y (count8 y)
  let r := { r with flg := o.flg }
  if writesDest f then setD r dd o.val else r

/-- The registers after an accumulator operation. -/
def binA (f : BinFn) (ad as1 : Nat) (s2 : ASrc2) (r : Regs) : Regs :=
  let o := binRes f (satMode r) r.flg (accOf r as1) (asrc2 r s2) (asrcCount r s2)
  let r := { r with flg := o.flg }
  if writesDest f then setAcc r ad o.val else r

/-- The body of opcodes 0x10–0x1C. -/
def binBody (c : CoreRef) (op : Op) (_ : Mode) (_ : Bool) (s : State) : Eff :=
  match op with
  | .binD f dd ds1 s2 => regsEff c s (binD f dd ds1 s2)
  | .binA f ad as1 s2 => regsEff c s (binA f ad as1 s2)
  | _ => .done s

/-- Whether an operation is the binary function `f`, at either width. -/
def isBin (f : BinFn) (op : Op) : Bool :=
  match op with
  | .binD g _ _ _ => g = f
  | .binA g _ _ _ => g = f
  | _ => false

/-- A one-operand function at either width, SAT's clamp given (R116, R117); NORM has a register result of its own. -/
def unD (f : UnFn) (dd ds : Nat) (r : Regs) : Regs :=
  let x := rf r.d ds
  let o := match f with
    | .neg => negRes r.flg x
    | .abs => absRes r.flg x
    | .not => logicRes r.flg (~~~x)
    | .sat => satRes32 r.flg x
    | .norm => normRes r.flg x 0
  setD { r with flg := o.flg } dd o.val

/-- The accumulator forms of NEG, ABS and SAT. -/
def unA (f : UnFn) (ad as : Nat) (r : Regs) : Regs :=
  let x := accOf r as
  let o := match f with
    | .neg => negRes r.flg x
    | .abs => absRes r.flg x
    | .sat => satRes72 r.flg x
    | _ => ⟨x, r.flg⟩
  setAcc { r with flg := o.flg } ad o.val

/-- The accumulator form of NORM: a D register takes the count (R118). -/
def normA (dd as : Nat) (r : Regs) : Regs :=
  let o := normRes r.flg (accOf r as) 8
  setD { r with flg := o.flg } dd o.val

/-- The registers after DIV (R119). -/
def divD (frac : Bool) (dd ds1 ds2 : Nat) (r : Regs) : Regs :=
  let o := divRes r.flg frac (rf r.d ds1) (rf r.d ds2)
  setD { r with flg := o.flg } dd o.val

/-- The body of opcodes 0x1D and 0x1E. -/
def unBody (c : CoreRef) (op : Op) (_ : Mode) (_ : Bool) (s : State) : Eff :=
  match op with
  | .unD f dd ds => regsEff c s (unD f dd ds)
  | .unA f ad as => regsEff c s (unA f ad as)
  | .normA dd as => regsEff c s (normA dd as)
  | .div frac dd ds1 ds2 => regsEff c s (divD frac dd ds1 ds2)
  | _ => .done s

/-- Whether an operation is the one-operand function `f`. -/
def isUn (f : UnFn) (op : Op) : Bool :=
  match op with
  | .unD g _ _ => g = f
  | .unA g _ _ => g = f
  | .normA _ _ => f = .norm
  | _ => false

/-- Whether an operation is DIV. -/
def isDiv (op : Op) : Bool :=
  match op with
  | .div _ _ _ _ => true
  | _ => false

/-- The value that a bit operation gives its destination (R136). -/
def bitRes (f : BitFn) (bd bs : Bool) : Bool :=
  match f with
  | .bset => true
  | .bclr => false
  | .bnot => !bd
  | .btst => bd
  | .band => bd && bs
  | .bor => bd || bs
  | .bxor => bd ^^ bs
  | .bmov => bs

/-- The body of opcode 0x1F: BTST sets C and Z, the others write the bit operand (R136). -/
def bitBody (c : CoreRef) (op : Op) (_ : Mode) (_ : Bool) (s : State) : Eff :=
  match op with
  | .bit f bd bs =>
    let k := coreOf s c
    let d := readBitOp s c bd
    match f with
    | .btst => .done (setCore s c { k with r := { k.r with
        flg := setC (setZN k.r.flg (!d) (flagN k.r.flg)) d } })
    | _ => .done (setCore s c (writeBitOp k bd (bitRes f d (readBitOp s c bs))))
  | _ => .done s

/-- Whether an operation is the bit function `f`. -/
def isBit (f : BitFn) (op : Op) : Bool :=
  match op with
  | .bit g _ _ => g = f
  | _ => false

/-- ADD (R112, R114). -/
def execAdd (c : CoreRef) (s : State) : Out := runSlot c (isBin .add) (binBody c) s
/-- ADDC (R112, R113). -/
def execAddc (c : CoreRef) (s : State) : Out := runSlot c (isBin .addc) (binBody c) s
/-- SUB (R112, R114). -/
def execSub (c : CoreRef) (s : State) : Out := runSlot c (isBin .sub) (binBody c) s
/-- SUBC (R112, R113). -/
def execSubc (c : CoreRef) (s : State) : Out := runSlot c (isBin .subc) (binBody c) s
/-- AND (R112). -/
def execAnd (c : CoreRef) (s : State) : Out := runSlot c (isBin .and) (binBody c) s
/-- OR (R112). -/
def execOr (c : CoreRef) (s : State) : Out := runSlot c (isBin .or) (binBody c) s
/-- XOR (R112). -/
def execXor (c : CoreRef) (s : State) : Out := runSlot c (isBin .xor) (binBody c) s
/-- CMP (R112, R114). -/
def execCmp (c : CoreRef) (s : State) : Out := runSlot c (isBin .cmp) (binBody c) s
/-- TST (R112, R114). -/
def execTst (c : CoreRef) (s : State) : Out := runSlot c (isBin .tst) (binBody c) s
/-- MIN (R112, R114). -/
def execMin (c : CoreRef) (s : State) : Out := runSlot c (isBin .min) (binBody c) s
/-- MAX (R112, R114). -/
def execMax (c : CoreRef) (s : State) : Out := runSlot c (isBin .max) (binBody c) s
/-- ASH (R115). -/
def execAsh (c : CoreRef) (s : State) : Out := runSlot c (isBin .ash) (binBody c) s
/-- LSH (R115). -/
def execLsh (c : CoreRef) (s : State) : Out := runSlot c (isBin .lsh) (binBody c) s
/-- NEG (R116). -/
def execNeg (c : CoreRef) (s : State) : Out := runSlot c (isUn .neg) (unBody c) s
/-- ABS (R116). -/
def execAbs (c : CoreRef) (s : State) : Out := runSlot c (isUn .abs) (unBody c) s
/-- NOT (R112). -/
def execNot (c : CoreRef) (s : State) : Out := runSlot c (isUn .not) (unBody c) s
/-- SAT (R117). -/
def execSat (c : CoreRef) (s : State) : Out := runSlot c (isUn .sat) (unBody c) s
/-- NORM (R118). -/
def execNorm (c : CoreRef) (s : State) : Out := runSlot c (isUn .norm) (unBody c) s
/-- DIV (R119, R120). -/
def execDiv (c : CoreRef) (s : State) : Out := runSlot c isDiv (unBody c) s
/-- BSET (R136). -/
def execBset (c : CoreRef) (s : State) : Out := runSlot c (isBit .bset) (bitBody c) s
/-- BCLR (R136). -/
def execBclr (c : CoreRef) (s : State) : Out := runSlot c (isBit .bclr) (bitBody c) s
/-- BNOT (R136). -/
def execBnot (c : CoreRef) (s : State) : Out := runSlot c (isBit .bnot) (bitBody c) s
/-- BTST (R136). -/
def execBtst (c : CoreRef) (s : State) : Out := runSlot c (isBit .btst) (bitBody c) s
/-- BAND (R136). -/
def execBand (c : CoreRef) (s : State) : Out := runSlot c (isBit .band) (bitBody c) s
/-- BOR (R136). -/
def execBor (c : CoreRef) (s : State) : Out := runSlot c (isBit .bor) (bitBody c) s
/-- BXOR (R136). -/
def execBxor (c : CoreRef) (s : State) : Out := runSlot c (isBit .bxor) (bitBody c) s
/-- BMOV (R136). -/
def execBmov (c : CoreRef) (s : State) : Out := runSlot c (isBit .bmov) (bitBody c) s

end Sys2Proof.Machine
end

