-- ==== Sys2Proof/Machine/CyiloMul.lean ====
section
/-! DEFINITION. The multiply class of Cyilo, opcodes 0x20–0x2F, with its parallel moves (R102, R111), and STA, FTAP
(R121–R127, R137, R138). -/
namespace Sys2Proof.Machine

/-- The flags when a main operation and a storing parallel move both bear on V (R111): V is 1 when either sets it, 0
when neither sets it and one clears it. `old` is FLG before the word, `f` after the main operation. -/
def mergeStore (f : Flg) (mainV : Bool) (st : StoreRes) : Flg :=
  addSAT (setV f ((mainV && flagV f) || st.v)) st.sat

/-- The parallel move's effect: its sources come from the registers `r0` before the word, `mainV` says whether the main
operation writes V. The state already holds the main operation's writes (R87, R102, R111). -/
def movePM (c : CoreRef) (r0 : Regs) (mainV : Bool) (pm : PMove) (ldv : Word) (s : State) : State :=
  match pm with
  | .none => s
  | .ldl _ d => updRegs s c fun r => setD r d ldv
  | .stlD l d => storeLine s c l (rf r0.d d)
  | .stlA l a =>
    let st := store32 (satMode r0) (accOf r0 a)
    storeLine (updRegs s c fun r => captureRes { r with flg := mergeStore r.flg mainV st } a st) c l st.val
  | .mov dd ds => updRegs s c fun r => setD r dd (rf r0.d ds)
  | .sta dd a =>
    let st := store32 (satMode r0) (accOf r0 a)
    updRegs s c fun r => setD (captureRes { r with flg := mergeStore r.flg mainV st } a st) dd st.val

/-- The value that the parallel move's LDL reads before any write of the word. -/
def pmLoad (s : State) (c : CoreRef) (pm : PMove) : Word :=
  match pm with
  | .ldl l _ => ldlValue s c l
  | _ => 0

/-- A class-10 body: the main operation's registers, then the parallel move. -/
def withPM (c : CoreRef) (mainV : Bool) (pm : PMove) (f : Regs → Regs) (s : State) : Eff :=
  let r0 := (coreOf s c).r
  .done (movePM c r0 mainV pm (pmLoad s c pm) (updRegs s c f))

/-- The registers after a real product `x` × `y` (R121, R122). -/
def mulReal (f : MulFn) (n : Nat) (int : Bool) (x y : Word) (r : Regs) : Regs :=
  let a := (accOf r n).toInt
  let o := match f with
    | .mpyu => accRes r.flg (prodUnsigned int x y)
    | .mac => accRes r.flg (a + prodExact int x y)
    | .msu => accRes r.flg (a - prodExact int x y)
    | _ => accRes r.flg (prodExact int x y)
  let fl := match f with
    | .mpyu => setV (znOf r.flg o.val) false
    | _ => o.flg
  setAcc { r with flg := fl } n o.val

/-- An exact accumulator pair written, with its flags (R110, R123). -/
def setPair (r : Regs) (p : Nat) (re im : Int) : Regs :=
  setAcc (setAcc r p (BitVec.ofInt 72 re)) (p + 1) (BitVec.ofInt 72 im)

/-- Whether either of two exact values leaves the 72-bit range. -/
def pairOver (re im : Int) : Bool := outOfRange 72 re || outOfRange 72 im

/-- The registers after a complex operation on the pairs `x` and `y` (R123, R124). -/
def mulComplex (f : MulFn) (p : Nat) (x y : Word × Word) (r : Regs) : Regs :=
  let a := (accOf r p).toInt
  let b := (accOf r (p + 1)).toInt
  let t := cprod x.1 x.2 y.1 y.2
  let put (re im : Int) : Regs :=
    { setPair r p re im with flg := pairFlags r.flg re im (pairOver re im) }
  match f with
  | .cmac => put (a + t.1) (b + t.2)
  | .cmsu => put (a - t.1) (b - t.2)
  | .cmacj => let j := cprodJ x.1 x.2 y.1 y.2; put (a + j.1) (b + j.2)
  | .bfly =>
    let q := if p = 0 then 2 else 0
    let r' := setPair (setPair r p (a + t.1) (b + t.2)) q (a - t.1) (b - t.2)
    { r' with flg := pairFlags r.flg (a + t.1) (b + t.2) (pairOver (a + t.1) (b + t.2) || pairOver (a - t.1) (b - t.2)) }
  | _ => put t.1 t.2

/-- The body of opcodes 0x20–0x28. -/
def mulBody (c : CoreRef) (op : Op) (m : Mode) (_ : Bool) (s : State) : Eff :=
  match op with
  | .mul f n s1 s2 int pm =>
    let post (r : Regs) : Regs := postDual c (postDual c r s1) s2
    if isComplex f then
      (readPair s c s1).toEff m fun x t => (readPair t c s2).toEff m fun y u =>
        withPM c true pm (fun r => post (mulComplex f n x y r)) u
    else
      (readDual s c s1).toEff m fun x t => (readDual t c s2).toEff m fun y u =>
        withPM c true pm (fun r => post (mulReal f n int x y r)) u
  | _ => .done s

/-- Whether an operation is the multiply function `f`. -/
def isMul (f : MulFn) (op : Op) : Bool :=
  match op with
  | .mul g _ _ _ _ _ => g = f
  | _ => false

/-- The registers after a search step on operand `v`, whose address is `a` when it is in memory (R137). -/
def searchD (f : SearchFn) (dd : Nat) (v : Word) (a : Option Word) (r : Regs) : Regs :=
  let o := searchRes r.flg f (rf r.d dd) v
  let r := setD { r with flg := o.flg } dd o.val
  match a with
  | some w => if o.win then { r with ix := w } else r
  | none => r

/-- The body of opcodes 0x29–0x2B. -/
def searchBody (c : CoreRef) (op : Op) (m : Mode) (_ : Bool) (s : State) : Eff :=
  match op with
  | .search f dd src pm =>
    let addr : Option Word := match src with
      | .mem mo => some (rf (coreOf s c).r.p mo.ptr)
      | .reg _ => none
    (readDual s c src).toEff m fun v t =>
      withPM c true pm (fun r => postDual c (searchD f dd v addr r) src) t
  | _ => .done s

/-- Whether an operation is the search function `f`. -/
def isSearch (f : SearchFn) (op : Op) : Bool :=
  match op with
  | .search g _ _ _ => g = f
  | _ => false

/-- The count of SHACC (R101, R115). -/
def shaccCount (r : Regs) (n : Count) : Int :=
  match n with
  | .imm i => i
  | .reg d => count8 (rf r.d d)

/-- The body of opcodes 0x2C–0x2F (R125, R127). -/
def accBody (c : CoreRef) (op : Op) (_ : Mode) (_ : Bool) (s : State) : Eff :=
  match op with
  | .clra a pm => withPM c false pm (fun r => setAcc r a 0) s
  | .movaA ad as pm => withPM c false pm (fun r => setAcc r ad (accOf r as)) s
  | .movaD ad d pm => withPM c false pm (fun r => setAcc r ad (q31 (rf r.d d))) s
  | .shacc a n pm =>
    withPM c true pm (fun r =>
      let o := ashRes r.flg (satMode r) (accOf r a) (shaccCount r n)
      setAcc { r with flg := o.flg } a o.val) s
  | .resadd a pm =>
    withPM c true pm (fun r =>
      let o := accRes r.flg ((accOf r a).toInt + ((rf r.e a).toNat : Int))
      setAcc { r with flg := o.flg } a o.val) s
  | _ => .done s

def isClra (op : Op) : Bool := match op with | .clra _ _ => true | _ => false
def isMova (op : Op) : Bool := match op with | .movaA _ _ _ | .movaD _ _ _ => true | _ => false
def isShacc (op : Op) : Bool := match op with | .shacc _ _ _ => true | _ => false
def isResadd (op : Op) : Bool := match op with | .resadd _ _ => true | _ => false

/-- The registers after a 32-bit store of A`n`: Z and N of the stored word, V, SAT and the residue (R70, R126). -/
def staRegs (n : Nat) (st : StoreRes) (r : Regs) : Regs :=
  captureRes { r with flg := addSAT (setV (znOf r.flg st.val) st.v) st.sat } n st

/-- Whether a steward's store handed over to the firmware (R376): its core then starts again at ENTRY. -/
def restarted (s t : State) (c : CoreRef) : Bool :=
  c.stew && c.die = 0 && c.idx = 0 && bitF s (Reg.BOOT_STAT 0) F.BOOT_STAT_PRIV
    && !bitF t (Reg.BOOT_STAT 0) F.BOOT_STAT_PRIV

/-- What follows a store from state `s` that left `t`: the registers change by `f`, unless the store restarted the core. -/
def storedEff (c : CoreRef) (s t : State) (f : Regs → Regs) : Eff :=
  if restarted s t c then .jump t else regsEff c t f

/-- The body of STA (R126): to a D register or to memory through a pointer. -/
def staBody (c : CoreRef) (op : Op) (m : Mode) (_ : Bool) (s : State) : Eff :=
  let r := (coreOf s c).r
  match op with
  | .staD n dd =>
    let st := store32 (satMode r) (accOf r n)
    regsEff c s fun r => setD (staRegs n st r) dd st.val
  | .staM n mo =>
    let st := store32 (satMode r) (accOf r n)
    (writeMem s c mo.ptr (rf r.p mo.ptr).toNat st.val).toEff m fun _ t =>
      storedEff c s t fun r => postMod c (staRegs n st r) mo
  | _ => .done s

def isSta (op : Op) : Bool := match op with | .staD _ _ | .staM _ _ => true | _ => false

/-- The body of FTAP (R138): the tap's product as MAC, and the X word written one place up by the rule of R72. -/
def ftapBody (c : CoreRef) (op : Op) (m : Mode) (_ : Bool) (s : State) : Eff :=
  match op with
  | .ftap n mo s2 int =>
    let r := (coreOf s c).r
    let a := (rf r.p mo.ptr).toNat
    let up := ptrUpdate (ptrBits c) a (rf r.b mo.ptr).toNat (rf r.l mo.ptr).toNat 1
    (readMem s c mo.ptr a).toEff m fun t u => (readDual u c s2).toEff m fun y v =>
      (writeMem v c mo.ptr up t).toEff m fun _ w =>
        storedEff c v w fun r => postDual c (postMod c (mulReal .mac n int t y r) mo) s2
  | _ => .done s

def isFtap (op : Op) : Bool := match op with | .ftap _ _ _ _ => true | _ => false

/-- MPY (R121). -/
def execMpy (c : CoreRef) (s : State) : Out := runSlot c (isMul .mpy) (mulBody c) s
/-- MPYU (R122). -/
def execMpyu (c : CoreRef) (s : State) : Out := runSlot c (isMul .mpyu) (mulBody c) s
/-- MAC (R121). -/
def execMac (c : CoreRef) (s : State) : Out := runSlot c (isMul .mac) (mulBody c) s
/-- MSU (R121). -/
def execMsu (c : CoreRef) (s : State) : Out := runSlot c (isMul .msu) (mulBody c) s
/-- CMPY (R123). -/
def execCmpy (c : CoreRef) (s : State) : Out := runSlot c (isMul .cmpy) (mulBody c) s
/-- CMAC (R123). -/
def execCmac (c : CoreRef) (s : State) : Out := runSlot c (isMul .cmac) (mulBody c) s
/-- CMSU (R123). -/
def execCmsu (c : CoreRef) (s : State) : Out := runSlot c (isMul .cmsu) (mulBody c) s
/-- CMACJ (R123). -/
def execCmacj (c : CoreRef) (s : State) : Out := runSlot c (isMul .cmacj) (mulBody c) s
/-- BFLY (R124). -/
def execBfly (c : CoreRef) (s : State) : Out := runSlot c (isMul .bfly) (mulBody c) s
/-- MAXI (R137). -/
def execMaxi (c : CoreRef) (s : State) : Out := runSlot c (isSearch .maxi) (searchBody c) s
/-- MINI (R137). -/
def execMini (c : CoreRef) (s : State) : Out := runSlot c (isSearch .mini) (searchBody c) s
/-- MAXAI (R137). -/
def execMaxai (c : CoreRef) (s : State) : Out := runSlot c (isSearch .maxai) (searchBody c) s
/-- CLRA (R125). -/
def execClra (c : CoreRef) (s : State) : Out := runSlot c isClra (accBody c) s
/-- MOVA (R125). -/
def execMova (c : CoreRef) (s : State) : Out := runSlot c isMova (accBody c) s
/-- SHACC (R115). -/
def execShacc (c : CoreRef) (s : State) : Out := runSlot c isShacc (accBody c) s
/-- RESADD (R127). -/
def execResadd (c : CoreRef) (s : State) : Out := runSlot c isResadd (accBody c) s
/-- STA (R126). -/
def execSta (c : CoreRef) (s : State) : Out := runSlot c isSta (staBody c) s
/-- FTAP (R138). -/
def execFtap (c : CoreRef) (s : State) : Out := runSlot c isFtap (ftapBody c) s

end Sys2Proof.Machine
end

