-- ==== Sys2Proof/Machine/CyiloLoad.lean ====
section
/-! DEFINITION. Loads, stores, moves, lines and the Hoard, opcodes 0x30–0x38 (R128–R135), and the release of a waiting
slipface read (R36). -/
namespace Sys2Proof.Machine

/-- The body of LD, ST and MODP (R128). -/
def loadBody (c : CoreRef) (op : Op) (m : Mode) (_ : Bool) (s : State) : Eff :=
  let r := (coreOf s c).r
  match op with
  | .ld d mo =>
    (readMem s c mo.ptr (rf r.p mo.ptr).toNat).toEff m fun v t => regsEff c t fun r => setD (postMod c r mo) d v
  | .st d mo =>
    (writeMem s c mo.ptr (rf r.p mo.ptr).toNat (rf r.d d)).toEff m fun _ t => storedEff c s t fun r => postMod c r mo
  | .modp mo => regsEff c s fun r => postMod c r mo
  | _ => .done s

/-- The body of LDI and MOV (R129). -/
def moveBody (c : CoreRef) (op : Op) (m : Mode) (_ : Bool) (s : State) : Eff :=
  let k := coreOf s c
  match op with
  | .ldi dst v => .done (setCore s c (writeCode c m k dst v))
  | .mov dst src => .done (setCore s c (writeCode c m k dst (readCode c k src)))
  | _ => .done s

/-- The body of LDL and STL (R130–R134). -/
def lineBody (c : CoreRef) (op : Op) (_ : Mode) (_ : Bool) (s : State) : Eff :=
  match op with
  | .ldl d l => regsEff c s fun r => setD r d (ldlValue s c l)
  | .stl d l => .done (storeLine s c l (rf (coreOf s c).r.d d))
  | _ => .done s

/-- The body of LDH and STH (R135). -/
def hoardBody (c : CoreRef) (op : Op) (m : Mode) (_ : Bool) (s : State) : Eff :=
  let r := (coreOf s c).r
  match op with
  | .ldh d mo =>
    (readHoardOp s c (rf r.p mo.ptr).toNat).toEff m fun v t => regsEff c t fun r => setD (postMod c r mo) d v
  | .sth d mo =>
    (writeHoardOp s c (rf r.p mo.ptr).toNat (rf r.d d)).toEff m fun _ t => regsEff c t fun r => postMod c r mo
  | _ => .done s

def isLd (op : Op) : Bool := match op with | .ld _ _ => true | _ => false
def isSt (op : Op) : Bool := match op with | .st _ _ => true | _ => false
def isModp (op : Op) : Bool := match op with | .modp _ => true | _ => false
def isLdi (op : Op) : Bool := match op with | .ldi _ _ => true | _ => false
def isMov (op : Op) : Bool := match op with | .mov _ _ => true | _ => false
def isLdl (op : Op) : Bool := match op with | .ldl _ _ => true | _ => false
def isStl (op : Op) : Bool := match op with | .stl _ _ => true | _ => false
def isLdh (op : Op) : Bool := match op with | .ldh _ _ => true | _ => false
def isSth (op : Op) : Bool := match op with | .sth _ _ => true | _ => false

/-- The body of any operation that can read a slipface line: LDL and the class-10 operations. -/
def slipBody (c : CoreRef) (op : Op) (m : Mode) (b : Bool) (s : State) : Eff :=
  match op with
  | .ldl _ _ => lineBody c op m b s
  | .mul _ _ _ _ _ _ => mulBody c op m b s
  | .search _ _ _ _ => searchBody c op m b s
  | _ => accBody c op m b s

/-- LD (R128). -/
def execLd (c : CoreRef) (s : State) : Out := runSlot c isLd (loadBody c) s
/-- ST (R128). -/
def execSt (c : CoreRef) (s : State) : Out := runSlot c isSt (loadBody c) s
/-- LDI (R129). -/
def execLdi (c : CoreRef) (s : State) : Out := runSlot c isLdi (moveBody c) s
/-- MOV (R129). -/
def execMov (c : CoreRef) (s : State) : Out := runSlot c isMov (moveBody c) s
/-- LDL (R130, R132–R134). -/
def execLdl (c : CoreRef) (s : State) : Out := runSlot c isLdl (lineBody c) s
/-- STL (R131–R134). -/
def execStl (c : CoreRef) (s : State) : Out := runSlot c isStl (lineBody c) s
/-- LDH (R135). -/
def execLdh (c : CoreRef) (s : State) : Out := runSlot c isLdh (hoardBody c) s
/-- STH (R135). -/
def execSth (c : CoreRef) (s : State) : Out := runSlot c isSth (hoardBody c) s
/-- MODP (R128). -/
def execModp (c : CoreRef) (s : State) : Out := runSlot c isModp (loadBody c) s

/-- The kernel with its wait over. -/
def endWait (s : State) (c : CoreRef) : State :=
  setKern s c.die c.idx { kern s c.die c.idx with wait := none }

/-- SLIPFACE_LDL_RELEASE (R36, R187): the waiting slot completes once its line's handshake is complete or released. -/
def execSlipfaceLdlRelease (c : CoreRef) (s : State) : Out :=
  onUnit (hasCore s c && !c.stew) <|
    match (kern s c.die c.idx).wait with
    | none => .next s
    | some n =>
      if slipWaits s c n then .next s
      else runSlot c (fun _ => true) (slipBody c) (endWait s c)

end Sys2Proof.Machine
end

