-- ==== Sys2Proof/Machine/CyiloFlow.lean ====
section
/-! DEFINITION. Flow and control, opcodes 0x00–0x0D, annulled NV slots, and the entry, exception and wait events of
free mode (R85, R139–R168). -/
namespace Sys2Proof.Machine

/-- Whether a debug session lets BRK halt a core (R161, R407). -/
def debugHalts (s : State) : Bool := (fld s (Reg.BOOT_DBG 0) F.BOOT_DBG_PERM).testBit 0

/-- The core with its pc on the next word. -/
def stepPc (k : Core) : Core := { k with r := { k.r with pc := pcAfter k.r.pc }, iterEnd := false }

/-- The core past a WAIT or BRK that has completed: its block repeat returns or ends as after any slot (R152). -/
def afterPc (k : Core) : Core := nextSlot k k.r.pc

/-- A branch at the pc (R141): two delay slots follow, then its target if it is taken. -/
def startBranch (c : CoreRef) (s : State) (target : Option Nat) (leaves : Bool) (ra : Option Nat) : Eff :=
  let k := coreOf s c
  let k := match ra with
    | some a => { k with free := { k.free with ra := BitVec.ofNat 32 (a % 2 ^ 29) } }
    | none => k
  .jump (setCore s c { stepPc k with dly := some ⟨k.r.pc, 2, target, leaves⟩ })

/-- The body of BRA, JMP, BSR and RTS (R141, R143): `b` is the truth of the condition. -/
def branchBody (c : CoreRef) (op : Op) (_ : Mode) (b : Bool) (s : State) : Eff :=
  let k := coreOf s c
  match op with
  | .rts => startBranch c s (if b then some k.free.ra.toNat else none) false none
  | .bsr _ => startBranch c s (if b then targetOf k op else none) false (if b then some (k.r.pc + 3) else none)
  | _ => startBranch c s (if b then targetOf k op else none) true none

/-- The count of a REP or BRPT: a register value above 4,096 acts as 4,096 (R97). -/
def repeatCount (k : Core) (n : Count) : Nat :=
  match n with
  | .imm i => i.toNat
  | .reg d => min 4096 (rf k.r.d d).toNat

/-- The body of REP (R148, R150): RPC is loaded and the next word repeats; a count of 0 annuls it once. In free mode a body
that breaks R154, such as one with a REP at LE, raises nothing, and its level stays active (DESIGN CHOICE, assumption log
82: R155 names R153 only). -/
def repBody (c : CoreRef) (op : Op) (_ : Mode) (_ : Bool) (s : State) : Eff :=
  match op with
  | .rep n =>
    let k := coreOf s c
    let cnt := repeatCount k n
    let k := { stepPc k with rep := if cnt = 0 then .annul 1 else .run cnt false }
    .jump (setCore s c { k with r := { k.r with rpc := BitVec.ofNat 32 cnt } })
  | _ => .done s

/-- The body of BRPT (R97, R152): LS, LE and LC are loaded and the level becomes active; a count of 0 skips the body, on a
kernel up to address 4,096, where no word is legal (R144). -/
def brptBody (c : CoreRef) (op : Op) (_ : Mode) (_ : Bool) (s : State) : Eff :=
  match op with
  | .brpt j n len =>
    let k := coreOf s c
    let pc := k.r.pc
    let cnt := repeatCount k n
    let k := { k with r := { k.r with
      ls := rfSet k.r.ls j (lowBits (BitVec.ofNat 32 (pc + 1)) (loopBits c))
      le := rfSet k.r.le j (lowBits (BitVec.ofNat 32 (pc + len)) (loopBits c))
      lc := rfSet k.r.lc j (BitVec.ofNat 32 cnt) } }
    let past := pc + len + 1
    if cnt = 0 then .jump (setCore s c
      { k with r := { k.r with pc := if c.stew then past % 2 ^ 29 else past }, iterEnd := false })
    else .jump (setCore s c { stepPc k with lact := setLevel k.lact j true })
  | _ => .done s

/-- A standby takes the registers, pointers and program bits of its target at each END of it (R434). -/
def standbyCopy (s : State) (d k : Nat) : State :=
  match standbyOf s d k with
  | some sb =>
    let from_ := (kern s d k).core
    let to_ := (kern s d sb).core
    setKern s d sb { kern s d sb with core := { to_ with r := from_.r, img := from_.img, bits := from_.bits } }
  | none => s

/-- The body of END (R147): the kernel stops fetching, its image is the registers as they stand, and its margin is the
deadline minus the time of END, `t` tenths of a nanosecond after the Pulse (R42). An END that would come after the deadline
does not come in this tick: the deadline stops the kernel before it (R19). -/
def endBody (t : Nat) (c : CoreRef) (op : Op) (_ : Mode) (_ : Bool) (s : State) : Eff :=
  match op with
  | .end_ =>
    if deadlineTenths s < t then .later else
    let kn := kern s c.die c.idx
    let kn := { kn with ended := true, margin := some ((deadlineTenths s : Int) - t), core := { kn.core with img := kn.core.r } }
    let u := setKern s c.die c.idx kn
    .jump (if kn.st = .run then standbyCopy u c.die c.idx else u)
  | _ => .done s

/-- The body of TRAP (R157, R372): in sample mode an event, a shadow's too, in free mode vector 0x01 with CODE NUMBER. -/
def trapBody (c : CoreRef) (op : Op) (m : Mode) (_ : Bool) (s : State) : Eff :=
  match op with
  | .trap n =>
    if m = .sample then
      .done (postEvent s c.die c.idx 1 0 n)
    else .exc 1 n s
  | _ => .done s

/-- The body of BRK (R95, R161): with a debug session open the core halts for the debugger, to which its CODE is reported: it stands
in `Core.brk` (assumption log 25); otherwise vector 0x02. -/
def brkBody (c : CoreRef) (op : Op) (_ : Mode) (_ : Bool) (s : State) : Eff :=
  match op with
  | .brk code =>
    if debugHalts s then
      let t := setCore s c { afterPc (coreOf s c) with brk := some code }
      .jump (if c.stew then setStew t c.die c.idx { stew t c.die c.idx with st := .debug }
             else setKern t c.die c.idx { kern t c.die c.idx with suspended := true })
    else .exc 2 code s
  | _ => .done s

/-- The body of RTI (R162): FLG, LACT, IE, LEVEL and EXC from EFLG, fetch from EPC, and a stopped repeat resumed. With
EFLG.RPT 1 and RPC 0 the word at EPC is annulled once, as by a REP with count 0; an exception at a word that such a REP annuls
saves RPT 0, so that RTI runs the word as a plain one (DESIGN CHOICE, assumption log 83). -/
def rtiBody (c : CoreRef) (op : Op) (_ : Mode) (_ : Bool) (s : State) : Eff :=
  match op with
  | .rti =>
    let k := coreOf s c
    let e := k.free.eflg
    let cnt := k.r.rpc.toNat
    .jump (setCore s c { k with
      r := { k.r with flg := BitVec.ofNat 7 (wField e 6 0), pc := wrapPc c k.free.epc.toNat }
      lact := BitVec.ofNat 3 (wField e 9 7)
      free := { k.free with ipl := mkIpl (e.getLsbD 14) (e.getLsbD 10) (wField e 13 11) }
      rep := if e.getLsbD 15 then (if cnt = 0 then .annul 1 else .run cnt false) else .idle
      iterEnd := false })
  | _ => .done s

/-- The body of EI and DI (R160). -/
def eidiBody (c : CoreRef) (op : Op) (_ : Mode) (_ : Bool) (s : State) : Eff :=
  let k := coreOf s c
  let ie := match op with | .ei => true | _ => false
  .done (setCore s c { k with free := { k.free with ipl := mkIpl (iplExc k.free) ie (iplLevel k.free) } })

/-- The start-up mode that a WAIT of a steward puts in effect (R417): STATE of PWR_MODE, 3 acting as 0 and 2 as 1 on
dies 1–7; none once VOTEONLY is set. -/
def startupMode (s : State) (d : Nat) : Nat :=
  if bitF s (Reg.PWR_CTL d) F.PWR_CTL_VOTEONLY then 0
  else match fld s (Reg.PWR_MODE d) F.PWR_MODE_STATE with
    | 1 => 1
    | 2 => if d = 0 then 2 else 1
    | _ => 0

/-- The body of WAIT (R167, R168, R417): a steward waits, and a start-up mode takes effect; a kernel in TEST is
suspended. -/
def waitBody (c : CoreRef) (op : Op) (_ : Mode) (_ : Bool) (s : State) : Eff :=
  match op with
  | .wait =>
    let t := setCore s c (afterPc (coreOf s c))
    if c.stew then
      let u := setStew t c.die c.idx { stew t c.die c.idx with st := .wait }
      let md := startupMode u c.die
      .jump (if md = 0 then u else powerSyncAll (setDieX u c.die { dieX u c.die with mode := md }) none)
    else .jump (setKern t c.die c.idx { kern t c.die c.idx with suspended := true })
  | _ => .done s

/-- The body of NOP. -/
def nopBody (_ : Op) (_ : Mode) (_ : Bool) (s : State) : Eff := .done s

def isNop (op : Op) : Bool := match op with | .nop => true | _ => false
def isEnd (op : Op) : Bool := match op with | .end_ => true | _ => false
def isBra (op : Op) : Bool := match op with | .bra _ => true | _ => false
def isJmp (op : Op) : Bool := match op with | .jmpImm _ | .jmpReg _ => true | _ => false
def isBsr (op : Op) : Bool := match op with | .bsr _ => true | _ => false
def isRts (op : Op) : Bool := match op with | .rts => true | _ => false
def isRep (op : Op) : Bool := match op with | .rep _ => true | _ => false
def isBrpt (op : Op) : Bool := match op with | .brpt _ _ _ => true | _ => false
def isTrap (op : Op) : Bool := match op with | .trap _ => true | _ => false
def isBrk (op : Op) : Bool := match op with | .brk _ => true | _ => false
def isRti (op : Op) : Bool := match op with | .rti => true | _ => false
def isEi (op : Op) : Bool := match op with | .ei => true | _ => false
def isDi (op : Op) : Bool := match op with | .di => true | _ => false
def isWait (op : Op) : Bool := match op with | .wait => true | _ => false

/-- NOP (R139). -/
def execNop (c : CoreRef) (s : State) : Out := runSlot c isNop nopBody s
/-- END (R147), completed `t` tenths of a nanosecond after the Pulse. -/
def execEnd (c : CoreRef) (t : Nat) (s : State) : Out := runSlot c isEnd (endBody t c) s
/-- BRA (R141, R145). -/
def execBra (c : CoreRef) (s : State) : Out := runSlot c isBra (branchBody c) s
/-- JMP (R141, R145). -/
def execJmp (c : CoreRef) (s : State) : Out := runSlot c isJmp (branchBody c) s
/-- BSR (R143). -/
def execBsr (c : CoreRef) (s : State) : Out := runSlot c isBsr (branchBody c) s
/-- RTS (R143). -/
def execRts (c : CoreRef) (s : State) : Out := runSlot c isRts (branchBody c) s
/-- REP (R148–R151). -/
def execRep (c : CoreRef) (s : State) : Out := runSlot c isRep (repBody c) s
/-- BRPT (R152–R155). -/
def execBrpt (c : CoreRef) (s : State) : Out := runSlot c isBrpt (brptBody c) s
/-- TRAP (R157, R161). -/
def execTrap (c : CoreRef) (s : State) : Out := runSlot c isTrap (trapBody c) s
/-- BRK (R161). -/
def execBrk (c : CoreRef) (s : State) : Out := runSlot c isBrk (brkBody c) s
/-- RTI (R162). -/
def execRti (c : CoreRef) (s : State) : Out := runSlot c isRti (rtiBody c) s
/-- EI (R160). -/
def execEi (c : CoreRef) (s : State) : Out := runSlot c isEi (eidiBody c) s
/-- DI (R160). -/
def execDi (c : CoreRef) (s : State) : Out := runSlot c isDi (eidiBody c) s
/-- WAIT (R167, R168). -/
def execWait (c : CoreRef) (s : State) : Out := runSlot c isWait (waitBody c) s

/-- NV_SLOT (R85): a word whose COND is NV costs one step and does nothing. -/
def execNvSlot (c : CoreRef) (s : State) : Out :=
  onUnit (hasCore s c) <|
    match coreMode s c with
    | none => .next s
    | some m =>
      match fetchSlot s c m with
      | .ok (some sl) t =>
        if sl.cond = .nv then .next (settle c (setCore t c (passCore c m (coreOf t c) sl))) else .next s
      | _ => .next s

/-- WAIT_RESUME (R167, R413): PD_STEW is ON and a source enabled at its source is pending; the interrupt is taken if R165 accepts it and R166 does
not hold it off, otherwise execution goes on after WAIT. -/
def execWaitResume (c : CoreRef) (s : State) : Out :=
  onUnit (hasCore s c) <|
    if c.stew && (stew s c.die c.idx).st = .wait && domOn s c.die pdStew && irqPending s c.die c.idx ≠ 0 then
      let on := setStew s c.die c.idx { stew s c.die c.idx with st := .run }
      if heldOff (stew s c.die c.idx).core then .next on
      else match irqAccepted s c.die c.idx with
        | some n => .next (takeInterrupt s c.die c.idx n)
        | none => .next on
    else .next s

/-- INTERRUPT_ENTRY (R162, R165, R166). -/
def execInterruptEntry (c : CoreRef) (s : State) : Out :=
  onUnit (hasCore s c) <|
    if c.stew && (stew s c.die c.idx).st = .run && !heldOff (stew s c.die c.idx).core then
      match irqAccepted s c.die c.idx with
      | some n => .next (takeInterrupt s c.die c.idx n)
      | none => .next s
    else .next s

/-- EXCEPTION_ENTRY (R107, R144, R161–R164): the next word of a core in free mode is illegal, or its fetch fails; in
sample mode an uncorrectable word of the program faults the kernel (R63, R158). -/
def execExceptionEntry (c : CoreRef) (s : State) : Out :=
  onUnit (hasCore s c) <|
    match coreMode s c with
    | none => .next s
    | some .sample =>
      match fetchSlot s c .sample with
      | .unc t => .next (kernelFault t c.die c.idx 2)
      | .ok none _ => .fault .illegalInSample
      | _ => .next s
    | some m =>
      match fetchSlot s c m with
      | .ok none t => .next (settle c (raiseException t c 0 0))
      | .busErr t => .next (settle c (raiseException t c 3 0))
      | .unc t => .next (settle c (raiseException t c 4 0))
      | _ => .next s

end Sys2Proof.Machine
end

