-- ==== Sys2Proof/Machine/CyiloSys.lean ====
section
/-! DEFINITION. VOTE and SWAPREQ (R104, R140, R225, R411). -/
namespace Sys2Proof.Machine

/-- The levels that a set of nine bits gives: ON for 1, none for 0 (R411). -/
def voteBits (w : Word) : Nat := natSum ((List.range 9).map fun m => (w.getLsbD m).toNat * 2 * 4 ^ m)

/-- The body of VOTE: the votes of the executing steward's own client on its own die. -/
def voteBody (c : CoreRef) (op : Op) (_ : Mode) (_ : Bool) (s : State) : Eff :=
  let cast (w : Word) : Eff := .done (powerSync (setTab s tVote c.die c.idx w) c.die)
  match op with
  | .voteOne m val => cast (wPut (tab s tVote c.die c.idx) (2 * m + 1) (2 * m) (if val then 2 else 0))
  | .voteSet n => cast (BitVec.ofNat 32 (voteBits (rf (coreOf s c).r.d n)))
  | _ => .done s

/-- The body of SWAPREQ: group and target handed to the swap logic of the die. -/
def swapreqBody (c : CoreRef) (op : Op) (_ : Mode) (_ : Bool) (s : State) : Eff :=
  match op with
  | .swapreq dg dt yonly =>
    let r := (coreOf s c).r
    .done (requestSwap s c.die (rf r.d dg).toNat (rf r.d dt).toNat yonly none)
  | _ => .done s

def isVote (op : Op) : Bool := match op with | .voteOne _ _ | .voteSet _ => true | _ => false
def isSwapreq (op : Op) : Bool := match op with | .swapreq _ _ _ => true | _ => false

/-- VOTE (R140, R411). -/
def execVote (c : CoreRef) (s : State) : Out := runSlot c isVote (voteBody c) s
/-- SWAPREQ (R104, R140). -/
def execSwapreq (c : CoreRef) (s : State) : Out := runSlot c isSwapreq (swapreqBody c) s

end Sys2Proof.Machine
end

