-- ==== Sys2Proof/Machine/LinkPackets.lean ====
section
/-! DEFINITION. Packets of the Roarn link as they reach a die (R319–R330). -/
namespace Sys2Proof.Machine

/-! ### Arrival -/

/-- The packet that a command takes (R319): blocks of an UP port's frame, the first request that waits in its receive buffer,
or the first packet that the device has sent to itself. -/
def arrival (s : State) (d : Nat) : Arrival → Option Packet
  | .blocks k bs => if linkUp s d then readPacket k bs else none
  | .waiting => (linkPort s d).rx.head?
  | .own => (linkPort s d).own.head?

/-- Whether a broadcast is one that the device remembers (R322); `aged` says that it was seen more than 1 ms ago. -/
def repeated (s : State) (p : Packet) (aged : Bool) : Bool := !aged && s.linkDev.seen.contains (p.src, p.tag)

/-- Whether a packet is broken or of a TYPE that is not to be broadcast (R319, R322). -/
def malformed (p : Packet) : Bool :=
  p.bad || p.ty = 0 || 7 < p.ty || 32 < p.words
    || (p.bcast && !(p.ty = pkWrreq || p.ty = pkSwap || p.ty = pkStart || p.ty = pkHost))

/-- The packet that a command takes, if it is of a type and is delivered to the device; a request that waited was accepted on
its arrival. -/
def delivered (s : State) (d : Nat) (a : Arrival) (ty : Nat) (aged : Bool) : Option Packet :=
  (arrival s d a).filter fun p => running s && !malformed p && p.ty = ty
    && (a = .waiting || if p.bcast then !repeated s p aged else p.dst = linkId s)

/-- A broadcast sent on to every UP port but the arrival port, with HOPS one lower (R321, R322). -/
def forwardBcast (s : State) (d : Nat) (p : Packet) : State :=
  each (dies s) (fun e t =>
    let near := fld t (Reg.LINK_PARTNER e) F.LINK_PARTNER_DEVID / 256 = linkId t / 256
    if e ≠ d && linkUp t e && (p.scope || near) && p.hops ≠ 0 then portSend t e { p with hops := p.hops - 1 } false
    else t) (noteSeen s p)

/-- A packet taken: blocks with invalid headers are counted (R310), one that waited or is the device's own leaves its list. -/
def takeArrival (s : State) (d : Nat) : Arrival → State
  | .blocks k bs => if seesBlocks s d then countBlocks s d k bs else s
  | .waiting => setLinkPort s d { linkPort s d with rx := (linkPort s d).rx.tail }
  | .own => setLinkPort s d { linkPort s d with own := (linkPort s d).own.tail }

/-- A packet delivered: a broadcast that arrives is remembered and sent on. -/
def takePacket (s : State) (d : Nat) (a : Arrival) (p : Packet) : State :=
  let t := takeArrival s d a
  if p.bcast && a ≠ .waiting then forwardBcast t d p else t

/-- What a command does with the packet that it takes; what is no packet of its type for this device changes nothing here
(LINK_PACKET_ROUTE takes that). -/
def onPacket (s : State) (d : Nat) (a : Arrival) (ty : Nat) (aged : Bool) (f : State → Packet → State) : Out :=
  onUnit (d < dieCount s.part) <|
    match delivered s d a ty aged with
    | some p => .next (f (takePacket s d a p) p)
    | none => .next s

/-! ### Remote access (R325–R327) -/

/-- The link master of a die (R355). -/
def linkAccess (d : Nat) : Access := ⟨5, d⟩

/-- The STATUS that a failed access gives a response. -/
def errStatus (s : State) : Nat := match s.resp with | .err (some 2) => 2 | _ => 1

/-- Words read from an address up until one fails: the state, the words, the status. -/
def remoteRead (d : Nat) : Nat → Nat → State → State × List Word × Nat
  | 0, _, s => (s, [], 0)
  | n + 1, addr, s =>
    let t := busRead (linkAccess d) addr 4 s
    if respOk t then
      let (u, ws, st) := remoteRead d n (addr + 4) t
      (u, respWord t :: ws, st)
    else (t, [], errStatus t)

/-- Words written from an address up until one fails: the state, how many were written, the status. -/
def remoteWrite (d : Nat) : List Word → Nat → State → State × Nat × Nat
  | [], _, s => (s, 0, 0)
  | w :: ws, addr, s =>
    let t := busWrite (linkAccess d) addr 4 w.toNat s
    if respOk t then
      let (u, n, st) := remoteWrite d ws (addr + 4) t
      (u, n + 1, st)
    else (t, 0, errStatus t)

/-- The response to a request. -/
def responseTo (s : State) (d : Nat) (p : Packet) (status words : Nat) (data : List Word) : Packet :=
  { ty := if p.ty = pkRdreq then pkRdrsp else pkWrack
    bcast := false, scope := false, hops := ownHops s d, words := words, dst := p.src, src := linkId s, tag := p.tag
    addr := p.addr, status := status, data := data, bad := false }

/-- Whether a register is one that answers within 7 ns (R185, R296). -/
def fastRead (addr : Nat) : Bool :=
  let loc := addrLocal addr
  let o := addrOff addr
  0x4000_0000 ≤ loc && loc < 0x5000_0000 &&
    (let q := addrPage addr
     (q = 0x20 && 0x100 ≤ o && o < 0x180) || (0x30 ≤ q && q ≤ 0x33) || (q = 0x38 && 0x200 ≤ o && o < 0x2C0))

/-- Whether a response leaves ahead of the packets queued (R326). -/
def fastResponse (p : Packet) (ahead : Nat) : Bool :=
  ahead = 0 && p.words ≤ 4 && (List.range p.words).all fun i => fastRead (p.addr + 4 * i)

/-- A response sent: a fast one on the arrival port. -/
def respond (s : State) (d : Nat) (r : Packet) (fast : Bool) : State :=
  if fast && r.dst ≠ linkId s then portSend s d r true else deviceSend s d r false

/-- Whether a request can be served now (R204, R323): requests to LPDDR4X wait in the receive buffer for the end of the
critical window, and later ones behind them. `a` is where the request comes from. -/
def servable (s : State) (d : Nat) (a : Arrival) (p : Packet) : Bool :=
  let open_ (x : Nat) : Bool := dmaOpen s (addrDie x) (addrLocal x)
  (a = .waiting || (linkPort s d).rx.isEmpty) && open_ p.addr && open_ (p.addr + 4 * (p.words - 1))

/-- A request taken (R325): refused when 16 stand in the die's queue, kept in the receive buffer while it cannot be served. -/
def serve (t : State) (d : Nat) (a : Arrival) (p : Packet) (ahead : Nat) (f : State → State) : State :=
  if a ≠ .waiting && decide (16 ≤ ahead + (linkPort t d).rx.length) then
    (if p.bcast then t else respond t d (responseTo t d p 5 0 []) false)
  else if servable t d a p then f t
  else
    let x := linkPort t d
    setLinkPort t d { x with rx := if a = .waiting then p :: x.rx else x.rx ++ [p] }

/-- LINK_RDREQ (R325, R326): `ahead` requests stood in the die's queue. -/
def execLinkRdreq (d : Nat) (a : Arrival) (ahead : Nat) (s : State) : Out :=
  onPacket s d a pkRdreq false fun t p => serve t d a p ahead fun t =>
    let (u, ws, st) := remoteRead d p.words p.addr t
    respond u d (responseTo u d p st ws.length ws) (a ≠ .waiting && fastResponse p ahead)

/-- LINK_WRREQ (R322, R325): a broadcast one is not acknowledged. -/
def execLinkWrreq (d : Nat) (a : Arrival) (ahead : Nat) (aged : Bool) (s : State) : Out :=
  onPacket s d a pkWrreq aged fun t p => serve t d a p ahead fun t =>
    let (u, n, st) := remoteWrite d (p.data.take p.words) p.addr t
    if p.bcast then u else respond u d (responseTo u d p st n []) false

/-- LINK_RDRSP (R327): a response that the die's engine does not wait for is discarded. -/
def execLinkRdrsp (d : Nat) (a : Arrival) (s : State) : Out :=
  onPacket s d a pkRdrsp false fun t p =>
    if (linkPort t d).wait = some (p.tag, false) then engineDone t d p.status (p.data.take p.words) else t

/-- LINK_WRACK (R327). -/
def execLinkWrack (d : Nat) (a : Arrival) (s : State) : Out :=
  onPacket s d a pkWrack false fun t p =>
    if (linkPort t d).wait = some (p.tag, true) then engineDone t d p.status [] else t

/-- LINK_REMOTE_TIMEOUT (R327): TMO has passed without a response. -/
def execLinkRemoteTimeout (d : Nat) (s : State) : Out :=
  onUnit (d < dieCount s.part) <| whenDue s (linkPort s d).wait.isSome (engineDone s d 4 [])

/-! ### Swap, start and host messages (R328–R330) -/

/-- Whether a swap packet speaks of a request: its group and the low word of its target (R329). -/
def sameSwap (r : SwapReq) (p : Packet) (g : Nat) : Bool :=
  r.group = g && r.target % 2 ^ 32 = (p.data.getD 1 0).toNat

/-- A report "ready" of a remote device. -/
def swapReadyPacket (s : State) (p : Packet) (g : Nat) : State :=
  match (pendingSwaps s).find? fun r => sameSwap r p g with
  | some r =>
    if !r.committed && r.remotes.contains (p.src, false) then
      noteReady s r { r with remotes := r.remotes.map fun e => if e.1 = p.src then (e.1, true) else e }
    else s
  | none => s

/-- A refusal of a remote device, or after the commit the report of a split there (R226, R229, R232): a refusal is RESULT
0x8 with that device's RESULT as DETAIL, a split keeps its own DETAIL, and WHO names a member outside this package. A report
for a request that has ended already changes nothing: the first one is recorded (R229). Where that device's own result names no
member (RESULT 0x5, 0x7 or 0xA), WHO under 0x8 is 0 (DESIGN CHOICE, assumption log 106). -/
def swapRefusalPacket (s : State) (p : Packet) (g : Nat) : State :=
  let w := p.data.getD 2 0
  let result := wField w 27 24
  let detail := wField w 23 20
  let who := (wPut (p.data.getD 3 0) 15 15 0).toNat
  match s.swaps.reverse.find? fun r => sameSwap r p g && r.remotes.any fun e => e.1 = p.src with
  | some r =>
    if !r.committed then endSwap s r 8 result who
    else if result = 9 then splitSwap s r 9 detail who
    else splitSwap s r 8 result who
  | none => s

/-- A commit from the coordinating device, handed on to the device's own remotes (R225–R227). -/
def swapCommitPacket (s : State) (p : Packet) (g : Nat) : State :=
  match s.swaps.find? fun r => sameSwap r p g && r.origin = some p.src && !r.committed && !r.applied with
  | some r =>
    each r.remotes (fun v u =>
        deviceSend u r.coord (swapPacket u r.coord v.1 4 r.yonly r.group r.target []) false)
      { s with swaps := s.swaps.map fun q => if q = r then { r with committed := true } else q }
  | none => s

/-- LINK_SWAP_PACKET (R225, R226, R329): request, ready, refusal or commit. -/
def execLinkSwapPacket (d : Nat) (a : Arrival) (aged : Bool) (s : State) : Out :=
  onPacket s d a pkSwap aged fun t p =>
    let w := p.data.getD 0 0
    let g := wField w 7 0
    match wField w 31 28 with
    | 1 => requestSwap t d g (p.data.getD 1 0).toNat (w.getLsbD 27) (some p.src)
    | 2 => swapReadyPacket t p g
    | 3 => swapRefusalPacket t p g
    | 4 => swapCommitPacket t p g
    | _ => t

/-- LINK_START_PACKET (R328). -/
def execLinkStartPacket (d : Nat) (a : Arrival) (aged : Bool) (s : State) : Out :=
  onPacket s d a pkStart aged fun t p => startPorts t (wField (p.data.getD 0 0) 3 0) (p.data.getD 1 0).toNat

/-- LINK_HOST_PACKET (R330, R373): the message goes to the link receive queue of the die. -/
def execLinkHostPacket (d : Nat) (a : Arrival) (aged : Bool) (s : State) : Out :=
  onPacket s d a pkHost aged fun t p =>
    queuePush t d 1 (BitVec.ofNat 32 (p.src * 2 ^ 16 + p.words * 2 ^ 8 + p.tag % 256) :: p.data.take p.words)

/-! ### Routing (R319–R323) -/

/-- A unicast packet for another device: routed, or unreachable and dropped, a request with a response of STATUS 3. -/
def routePacket (s : State) (d : Nat) (p : Packet) : State :=
  let port := if p.hops = 0 then none else routePort s p.dst
  match port with
  | some e => routeSend s e { p with hops := p.hops - 1 } false
  | none =>
    let t := countDrop s d
    if p.ty = pkRdreq || p.ty = pkWrreq then deviceSend t d (responseTo t d p 3 0 []) false else t

/-- LINK_PACKET_ROUTE (R310, R311, R319–R322): what arrives in the packet section and is not delivered: blocks that are no
packet, a packet that is malformed, a broadcast seen before, or one for another device. -/
def execLinkPacketRoute (d : Nat) (a : Arrival) (aged : Bool) (s : State) : Out :=
  onUnit (d < dieCount s.part) <|
    whenDue s (running s && a ≠ .waiting) <|
      match arrival s d a with
      | none => takeArrival s d a
      | some p =>
        let t := takeArrival s d a
        if malformed p then incFld t (Reg.LINK_PERR d) F.LINK_PERR_BAD
        else if p.bcast then (if repeated s p aged then t else s)
        else if p.dst ≠ linkId s then routePacket t d p else s

/-- LINK_PACKET_TIMEOUT (R323): packet `i` of a port's queue, and then of those held after a route change, has waited longer
than TMO. -/
def execLinkPacketTimeout (d i : Nat) (s : State) : Out :=
  onUnit (d < dieCount s.part) <|
    let x := linkPort s d
    let n := x.queue.length
    whenDue s (i < n + x.heldPk.length) <|
      countDrop (setLinkPort s d (if i < n then { x with queue := x.queue.eraseIdx i }
        else { x with heldPk := x.heldPk.eraseIdx (i - n) })) d

end Sys2Proof.Machine
end

