-- ==== Sys2Proof/Machine/WriteRows.lean ====
section
/-! DEFINITION. The commands that are bus accesses: memory reads and writes, and the register writes that have a row of
their own. Each is an access of a master over the bus; what it does is in the file of the block, through `regWrite`. -/
namespace Sys2Proof.Machine

/-- Whether a master of the part makes the access (R355). -/
def accessOk (s : State) (a : Access) : Bool := a.master < 18 && a.odie < dieCount s.part

/-- A 32-bit write of a register. -/
def regCmd (a : Access) (r : Nat) (v : Word) (s : State) : Out :=
  onUnit (accessOk s a) (.next (busWrite a r 4 v.toNat s))

/-- The same for unit `n` of `cnt`. -/
def unitCmd (n cnt : Nat) (a : Access) (r : Nat) (v : Word) (s : State) : Out :=
  onUnit (n < cnt) (regCmd a r v s)

/-- A word with one field set. -/
def one (f : Fld) : Word := wSet 0 f 1

/-- A word with one field, as it stands in register `r` or as given. -/
def fieldIs (f : Fld) (v : Nat) : Word := wSet 0 f v
def keepField (s : State) (r : Nat) (f : Fld) : Word := wSet 0 f (fld s r f)

/-! ### Any address -/

/-- REGISTER_WRITE (R12, R351). -/
def execRegisterWrite (a : Access) (addr : Nat) (v : Word) (s : State) : Out := regCmd a addr v s

/-- MEMORY_WRITE (R21, R361): `width` bytes at a package address. -/
def execMemoryWrite (a : Access) (addr width v : Nat) (s : State) : Out :=
  onUnit (accessOk s a) (.next (busWrite a addr width v s))

/-- MEMORY_READ (R360, R361). -/
def execMemoryRead (a : Access) (addr width : Nat) (s : State) : Out :=
  onUnit (accessOk s a) (.next (busRead a addr width s))

/-- PROGRAM_BANK_WRITE (R40, R65). -/
def execProgramBankWrite (a : Access) (d k : Nat) (bankB : Bool) (off width v : Nat) (s : State) : Out :=
  onUnit (accessOk s a && k < 144 && off < 0x8000)
    (.next (busWrite a (progA d k bankB 0 + off) width v s))

/-- KERNEL_IMAGE_WRITE (R66). -/
def execKernelImageWrite (a : Access) (d k off width v : Nat) (s : State) : Out :=
  onUnit (accessOk s a && k < 144 && off < 0x240)
    (.next (busWrite a (kernWin d k + 0x1_E000 + off) width v s))

/-- COUNTER64_LOW_READ (R368). -/
def execCounter64LowRead (a : Access) (d : Nat) (s : State) : Out :=
  onUnit (accessOk s a) (.next (busRead a (Reg.PULSE_COUNT_LO d) 4 s))

/-! ### Boot, Pulse, governor -/

/-- BOOT_CONFIRM (R393). -/
def execBootConfirm (a : Access) (s : State) : Out := regCmd a (Reg.BOOT_CONFIRM 0) 0x5EED s
/-- RECOVERY_GO (R398). -/
def execRecoveryGo (a : Access) (len : Nat) (s : State) : Out :=
  regCmd a (Reg.BOOT_RECOV 0) (0x8000_0000 ||| fieldIs F.BOOT_RECOV_LEN len) s
/-- BOOT_STATUSN_WRITE (R397). -/
def execBootStatusnWrite (a : Access) (drive : Bool) (s : State) : Out :=
  regCmd a (Reg.BOOT_STATUSN 0) (fieldIs F.BOOT_STATUSN_DRIVE drive.toNat) s
/-- PULSE_RUN_SET (R28). -/
def execPulseRunSet (a : Access) (s : State) : Out := regCmd a (Reg.PULSE_CTL 0) (one F.PULSE_CTL_RUN) s
/-- PULSE_RUN_CLEAR (R28). -/
def execPulseRunClear (a : Access) (s : State) : Out := regCmd a (Reg.PULSE_CTL 0) 0 s
/-- PULSE_CONFIG_WRITE (R26, R27). -/
def execPulseConfigWrite (a : Access) (r : PulseReg) (v : Word) (s : State) : Out :=
  regCmd a (match r with
    | .cfg => Reg.PULSE_CFG 0
    | .countLo => Reg.PULSE_COUNT_LO 0
    | .countHi => Reg.PULSE_COUNT_HI 0) v s
/-- GOV_MANUAL_WRITE (R52). -/
def execGovManualWrite (a : Access) (d : Nat) (v : Word) (s : State) : Out := regCmd a (Reg.GOV_MANUAL d) v s
/-- GOV_MARGIN_MIN_CLR (R42). -/
def execGovMarginMinClr (a : Access) (d : Nat) (s : State) : Out :=
  regCmd a (Reg.GOV_MARGIN_MIN d) (one F.GOV_MARGIN_MIN_CLR) s
/-- THERM_MAX_CLR (R445). -/
def execThermMaxClr (a : Access) (d : Nat) (s : State) : Out := regCmd a (Reg.THERM_MAX d) 0x8000_0000 s

/-! ### Bridges, pods, caravans, LPDDR4X -/

/-- BRIDGE_SWAP_WRITE (R196, R233). -/
def execBridgeSwapWrite (a : Access) (d ports : Nat) (s : State) : Out :=
  regCmd a (Reg.BRIDGE_SWAP d) (fieldIs F.BRIDGE_SWAP_PORTS ports) s
/-- POD_ECC_CLEAR (R177): the record of corrections, or with `unc` that of uncorrectable errors. -/
def execPodEccClear (a : Access) (d p : Nat) (unc : Bool) (s : State) : Out :=
  unitCmd p 8 a (if unc then Reg.POD_ECC_UNC d p else Reg.POD_ECC d p) 0x1_0000 s
/-- KERNEL_ECC_CLEAR (R63). -/
def execKernelEccClear (a : Access) (d k : Nat) (s : State) : Out :=
  unitCmd k 144 a (Reg.KERNEL_ECC d k) (one F.KERNEL_ECC_CLR) s
/-- CARAVAN_SWAP_GO (R214, R233). -/
def execCaravanSwapGo (a : Access) (d p : Nat) (s : State) : Out :=
  unitCmd p 8 a (Reg.CARAVAN_SWAP d p) (one F.CARAVAN_SWAP_GO) s
/-- CARAVAN_SHARE_WRITE (R208). -/
def execCaravanShareWrite (a : Access) (d p : Nat) (v : Word) (s : State) : Out :=
  unitCmd p 8 a (Reg.CARAVAN_SHARE d p) v s
/-- DDR_ENABLE (R201). -/
def execDdrEnable (a : Access) (d : Nat) (s : State) : Out := regCmd a (Reg.DDR_CTL d) (one F.DDR_CTL_EN) s
/-- DDR_DISABLE (R201). -/
def execDdrDisable (a : Access) (d : Nat) (s : State) : Out := regCmd a (Reg.DDR_CTL d) 0 s
/-- DDR_RETRAIN (R201). -/
def execDdrRetrain (a : Access) (d : Nat) (s : State) : Out :=
  regCmd a (Reg.DDR_CTL d) (keepField s (Reg.DDR_CTL d) F.DDR_CTL_EN ||| one F.DDR_CTL_RETRAIN) s
/-- DDR_CFG_WRITE (R201). -/
def execDdrCfgWrite (a : Access) (d : Nat) (v : Word) (s : State) : Out := regCmd a (Reg.DDR_CFG d) v s
/-- POD_HOWN_WRITE (R173). -/
def execPodHownWrite (a : Access) (d p i : Nat) (v : Word) (s : State) : Out :=
  onUnit (p < 8) (unitCmd i 18 a (Reg.POD_HOWN d p i) v s)

/-! ### Kernels and stewards -/

/-- KERNEL_BANKMODE_WRITE (R40). -/
def execKernelBankmodeWrite (a : Access) (d k : Nat) (v : Word) (s : State) : Out :=
  unitCmd k 144 a (Reg.KERNEL_BANKMODE d k) v s
/-- What KERNEL_CTL is written with for one of its fields, the other as it reads. -/
def ctlWith (s : State) (d k : Nat) (stop free : Option Bool) : Word :=
  let kn := kern s d k
  fieldIs F.KERNEL_CTL_STOP (stop.getD (ctlStop kn)).toNat ||| fieldIs F.KERNEL_CTL_FREE (free.getD (ctlFree kn)).toNat
/-- KERNEL_STOP_REQUEST (R80). -/
def execKernelStopRequest (a : Access) (d k : Nat) (s : State) : Out :=
  unitCmd k 144 a (Reg.KERNEL_CTL d k) (ctlWith s d k (some true) none) s
/-- KERNEL_STOP_CANCEL (R80). -/
def execKernelStopCancel (a : Access) (d k : Nat) (s : State) : Out :=
  unitCmd k 144 a (Reg.KERNEL_CTL d k) (ctlWith s d k (some false) none) s
/-- KERNEL_REJOIN (R80). -/
def execKernelRejoin (a : Access) (d k : Nat) (s : State) : Out :=
  unitCmd k 144 a (Reg.KERNEL_CTL d k) (ctlWith s d k (some false) none) s
/-- KERNEL_TEST_ENTER (R80). -/
def execKernelTestEnter (a : Access) (d k : Nat) (s : State) : Out :=
  unitCmd k 144 a (Reg.KERNEL_CTL d k) (ctlWith s d k none (some true)) s
/-- KERNEL_TEST_EXIT (R80). -/
def execKernelTestExit (a : Access) (d k : Nat) (s : State) : Out :=
  unitCmd k 144 a (Reg.KERNEL_CTL d k) (ctlWith s d k none (some false)) s
/-- STEWARD_RUN (R347). -/
def execStewardRun (a : Access) (d i : Nat) (s : State) : Out :=
  unitCmd i 2 a (Reg.STEWARD_CTL d i) (one F.STEWARD_CTL_RUN) s
/-- STEWARD_HOLD (R347). -/
def execStewardHold (a : Access) (d i : Nat) (s : State) : Out := unitCmd i 2 a (Reg.STEWARD_CTL d i) 0 s
/-- DOORBELL_SET (R350). -/
def execDoorbellSet (a : Access) (d i : Nat) (v : Word) (s : State) : Out := unitCmd i 2 a (Reg.STEWARD_DBSET d i) v s
/-- DOORBELL_CLEAR (R350). -/
def execDoorbellClear (a : Access) (d i : Nat) (v : Word) (s : State) : Out := unitCmd i 2 a (Reg.STEWARD_DBELL d i) v s

/-! ### The bus, the firewall, queues -/

/-- BUS_WIN_WRITE (R353). -/
def execBusWinWrite (a : Access) (d w : Nat) (v : Word) (s : State) : Out := unitCmd w 8 a (Reg.BUS_WIN d w) v s
/-- BUS_SLICE_WRITE (R359). -/
def execBusSliceWrite (a : Access) (d : Nat) (v : Word) (s : State) : Out := regCmd a (Reg.BUS_SLICE d) v s
/-- BUS_SLICE_APPLY (R359): the last path has taken its new setting. -/
def execBusSliceApply (d : Nat) (s : State) : Out :=
  onUnit (d < dieCount s.part) <|
    whenDue s (bitF s (Reg.BUS_STAT d) F.BUS_STAT_SLICEPEND) (setFld s (Reg.BUS_STAT d) F.BUS_STAT_SLICEPEND 0)
/-- ROMLOCK_SET (R354). -/
def execRomlockSet (a : Access) (d : Nat) (s : State) : Out :=
  regCmd a (Reg.BUS_CTL d) (keepField s (Reg.BUS_CTL d) F.BUS_CTL_REMAP ||| one F.BUS_CTL_ROMLOCK) s
/-- REMAP_WRITE (R354). -/
def execRemapWrite (a : Access) (d : Nat) (remap : Bool) (s : State) : Out :=
  regCmd a (Reg.BUS_CTL d) (fieldIs F.BUS_CTL_REMAP remap.toNat) s
/-- FW_LOCK_SET (R366). -/
def execFwLockSet (a : Access) (d : Nat) (s : State) : Out :=
  regCmd a (Reg.FW_CTL d) (keepField s (Reg.FW_CTL d) F.FW_CTL_EN ||| one F.FW_CTL_LOCK) s
/-- QUEUE_STAGE (R370). -/
def execQueueStage (a : Access) (d q i : Nat) (v : Word) (s : State) : Out :=
  onUnit (q < 48 && 1 ≤ i) (unitCmd i 56 a (Reg.QUEUE_DATA d q i) v s)
/-- QUEUE_PUSH (R370, R371). -/
def execQueuePush (a : Access) (d q : Nat) (v : Word) (s : State) : Out := unitCmd q 48 a (Reg.QUEUE_DATA d q 0) v s
/-- QUEUE_POP (R370). -/
def execQueuePop (a : Access) (d q : Nat) (s : State) : Out :=
  onUnit (accessOk s a && q < 48) (.next (busRead a (Reg.QUEUE_DATA d q 0) 4 s))
/-- QUEUE_CFG_WRITE (R369). -/
def execQueueCfgWrite (a : Access) (d q : Nat) (v : Word) (s : State) : Out := unitCmd q 48 a (Reg.QUEUE_CFG d q) v s

/-! ### Power and spares -/

/-- PWR_VDATA_WRITE (R411). -/
def execPwrVdataWrite (a : Access) (d : Nat) (v : Word) (s : State) : Out := regCmd a (Reg.PWR_VDATA d) v s
/-- PWR_HOLD_WRITE (R412). -/
def execPwrHoldWrite (a : Access) (v : Word) (s : State) : Out := regCmd a (Reg.PWR_HOLD 0) v s
/-- PWR_MODE_WRITE (R417). -/
def execPwrModeWrite (a : Access) (d : Nat) (v : Word) (s : State) : Out := regCmd a (Reg.PWR_MODE d) v s
/-- VOTEONLY_SET (R417). -/
def execVoteonlySet (a : Access) (d : Nat) (s : State) : Out :=
  regCmd a (Reg.PWR_CTL d) (keepField s (Reg.PWR_CTL d) F.PWR_CTL_HUSKEN ||| one F.PWR_CTL_VOTEONLY) s
/-- WAKEREL (R427). -/
def execWakerel (a : Access) (d : Nat) (s : State) : Out :=
  regCmd a (Reg.PWR_CTL d) (keepField s (Reg.PWR_CTL d) F.PWR_CTL_HUSKEN ||| one F.PWR_CTL_WAKEREL) s
/-- PADREL (R420). -/
def execPadrel (a : Access) (d : Nat) (v : Word) (s : State) : Out := regCmd a (Reg.PWR_PADREL d) v s
/-- WAKE_TIMER_WRITE (R425). -/
def execWakeTimerWrite (a : Access) (v : Word) (s : State) : Out := regCmd a (Reg.WAKE_TIMER 0) v s
/-- SPARE_CMD (R437). -/
def execSpareCmd (a : Access) (d k : Nat) (s : State) : Out :=
  regCmd a (Reg.SPARE_CMD d) (fieldIs F.SPARE_CMD_KERNEL k ||| 0x8000_0000) s

/-! ### Serial audio ports, converters, steering -/

/-- SAP_ARM (R260). -/
def execSapArm (a : Access) (d m : Nat) (s : State) : Out :=
  unitCmd m 10 a (Reg.SAP_CTL d m) (keepField s (Reg.SAP_CTL d m) F.SAP_CTL_MUTE ||| one F.SAP_CTL_ARM) s
/-- SAP_DISARM (R260). -/
def execSapDisarm (a : Access) (d m : Nat) (s : State) : Out :=
  unitCmd m 10 a (Reg.SAP_CTL d m) (keepField s (Reg.SAP_CTL d m) F.SAP_CTL_MUTE) s
/-- SAP_STOP (R265). -/
def execSapStop (a : Access) (d m : Nat) (s : State) : Out :=
  unitCmd m 10 a (Reg.SAP_CTL d m) (keepField s (Reg.SAP_CTL d m) F.SAP_CTL_MUTE
    ||| keepField s (Reg.SAP_CTL d m) F.SAP_CTL_ARM ||| one F.SAP_CTL_STOP) s
/-- SAP_MUTE (R264). -/
def execSapMute (a : Access) (d m : Nat) (mute : Bool) (s : State) : Out :=
  unitCmd m 10 a (Reg.SAP_CTL d m)
    (keepField s (Reg.SAP_CTL d m) F.SAP_CTL_ARM ||| fieldIs F.SAP_CTL_MUTE mute.toNat) s
/-- SAP_TRIG (R261). -/
def execSapTrig (a : Access) (d : Nat) (v : Word) (s : State) : Out := regCmd a (Reg.SAP0_TRIG d) v s
/-- SAP_MASK_WRITE (R253). -/
def execSapMaskWrite (a : Access) (d m : Nat) (tx : Bool) (v : Word) (s : State) : Out :=
  unitCmd m 10 a (if tx then Reg.SAP_SLOTMASK_TX d m else Reg.SAP_SLOTMASK_RX d m) v s
/-- CSNEW_RELEASE (R273). -/
def execCsnewRelease (a : Access) (d m : Nat) (s : State) : Out :=
  unitCmd m 4 a (Reg.BIP_STAT d m) (one F.BIP_STAT_CSNEW) s
/-- SRC_ENTRY_WRITE (R282): word 0 of the entry that SRC_CHSEL selects. -/
def execSrcEntryWrite (a : Access) (d e : Nat) (v : Word) (s : State) : Out := unitCmd e 6 a (Reg.SRC_CHDATA d e) v s
/-- CLKSTEER_ENABLE (R286). -/
def execClksteerEnable (a : Access) (v : Word) (s : State) : Out := regCmd a (Reg.CLKSTEER_CTL 0) v s
/-- CLKSTEER_SEL_WRITE (R286). -/
def execClksteerSelWrite (a : Access) (v : Word) (s : State) : Out := regCmd a (Reg.CLKSTEER_SEL 0) v s

/-! ### Measurement -/

/-- METER_CFG_WRITE (R294). -/
def execMeterCfgWrite (a : Access) (d m : Nat) (v : Word) (s : State) : Out := unitCmd m 512 a (Reg.METER_CFG d m) v s
/-- METER_HOLDCLR (R293). -/
def execMeterHoldclr (a : Access) (d m : Nat) (s : State) : Out := unitCmd m 512 a (Reg.METER_CTL d m) 1 s
/-- DETECTOR_WRITE (R297): the word that SILENCE_SEL selects. -/
def execDetectorWrite (a : Access) (d : Nat) (v : Word) (s : State) : Out := regCmd a (Reg.SILENCE_DATA d) v s
/-- PARK_ENTRY_WRITE (R304): CFG of a pod, or DET. -/
def execParkEntryWrite (a : Access) (d p : Nat) (cfg : Bool) (v : Word) (s : State) : Out :=
  unitCmd p 8 a (if cfg then Reg.SILENCE_PARK_CFG d p else Reg.SILENCE_PARK_DET d p) v s
/-- LOOKAHEAD_WRITE (R299, R300). -/
def execLookaheadWrite (a : Access) (d n : Nat) (v : Word) (s : State) : Out := unitCmd n 64 a (Reg.SILENCE_LA d n) v s
/-- GEN_ARM (R308). -/
def execGenArm (a : Access) (d c : Nat) (now : Bool) (s : State) : Out :=
  unitCmd c 8 a (Reg.GEN_CTL d c) (one F.GEN_CTL_ARM ||| fieldIs F.GEN_CTL_NOW now.toNat) s
/-- GEN_STOP (R308). -/
def execGenStop (a : Access) (d c : Nat) (s : State) : Out :=
  unitCmd c 8 a (Reg.GEN_CTL d c) (keepField s (Reg.GEN_CTL d c) F.GEN_CTL_NOW ||| one F.GEN_CTL_STOP) s

/-! ### The link -/

/-- LINK_ENABLE (R331). -/
def execLinkEnable (a : Access) (d : Nat) (s : State) : Out := regCmd a (Reg.LINK_CTL d) (one F.LINK_CTL_EN) s
/-- LINK_RETRAIN (R331). -/
def execLinkRetrain (a : Access) (d : Nat) (s : State) : Out :=
  regCmd a (Reg.LINK_CTL d) (keepField s (Reg.LINK_CTL d) F.LINK_CTL_EN ||| one F.LINK_CTL_RETRAIN) s
/-- LINK_WAKETX (R344). -/
def execLinkWaketx (a : Access) (d : Nat) (s : State) : Out :=
  regCmd a (Reg.LINK_CTL d) (keepField s (Reg.LINK_CTL d) F.LINK_CTL_EN ||| one F.LINK_CTL_WAKETX) s
/-- LINK_REMOTE_GO (R327). -/
def execLinkRemoteGo (a : Access) (d : Nat) (write : Bool) (words : Nat) (s : State) : Out :=
  regCmd a (Reg.LINK_RCMD d)
    (0x8000_0000 ||| fieldIs F.LINK_RCMD_WRITE write.toNat ||| fieldIs F.LINK_RCMD_WORDS words) s
/-- LINK_START_GO (R328). -/
def execLinkStartGo (a : Access) (d num : Nat) (s : State) : Out :=
  regCmd a (Reg.LINK_START d) (0x8000_0000 ||| fieldIs F.LINK_START_NUM num) s
/-- LINK_TSWAP_GO (R318). -/
def execLinkTswapGo (a : Access) (d : Nat) (s : State) : Out := regCmd a (Reg.LINK_TSWAP d) (one F.LINK_TSWAP_GO) s
/-- LINK_RTSWAP_GO (R324). -/
def execLinkRtswapGo (a : Access) (s : State) : Out := regCmd a (Reg.LINK_RTSWAP 0) (one F.LINK_RTSWAP_GO) s
/-- LINK_ID_WRITE (R327). -/
def execLinkIdWrite (a : Access) (v : Word) (s : State) : Out := regCmd a (Reg.LINK_ID 0) v s

/-! ### The clocked serial port -/

/-- CSP_STAGE (R454). -/
def execCspStage (a : Access) (d n : Nat) (v : Word) (s : State) : Out :=
  onUnit (1 ≤ n && n ≤ 5) (regCmd a (Reg.CSP_D d (n - 1)) v s)
/-- CSP_PUSH (R454). -/
def execCspPush (a : Access) (d : Nat) (v : Word) (s : State) : Out := regCmd a (Reg.CSP_D0 d) v s
/-- CSP_ENABLE (R455). -/
def execCspEnable (a : Access) (d : Nat) (en : Bool) (s : State) : Out :=
  regCmd a (Reg.CSP_CTL d) (fieldIs F.CSP_CTL_EN en.toNat) s
/-- CSP_ABORT (R455). -/
def execCspAbort (a : Access) (d : Nat) (s : State) : Out :=
  regCmd a (Reg.CSP_CTL d) (keepField s (Reg.CSP_CTL d) F.CSP_CTL_EN ||| one F.CSP_CTL_ABORT) s
/-- CSP_MODF_CLEAR (R456). -/
def execCspModfClear (a : Access) (d : Nat) (s : State) : Out := regCmd a (Reg.CSP_STAT d) (one F.CSP_STAT_MODF) s
/-- CSP_CFG_WRITE (R457). -/
def execCspCfgWrite (a : Access) (d : Nat) (v : Word) (s : State) : Out := regCmd a (Reg.CSP_CFG d) v s

end Sys2Proof.Machine
end

