-- ==== Sys2Proof/Machine/Dispatch.lean ====
section
/-! DEFINITION. The meaning of every command: one arm for each constructor, in the order of the opcode table. -/
namespace Sys2Proof.Machine

/-- What a command does to everything but the queue of commands. -/
def exec (i : Instr) (s : State) : Host.Outcome State Fault Refusal :=
  match i with
  | .resetNAssert => Sys2Proof.Machine.execResetNAssert s
  | .resetRelease recov ok => Sys2Proof.Machine.execResetRelease recov ok s
  | .bootDirectoryRead p q again => Sys2Proof.Machine.execBootDirectoryRead p q again s
  | .slotCheck j img => Sys2Proof.Machine.execSlotCheck j img s
  | .segmentLoad data => Sys2Proof.Machine.execSegmentLoad data s
  | .bootRetryWaitEnd => Sys2Proof.Machine.execBootRetryWaitEnd s
  | .bootHandoff => Sys2Proof.Machine.execBootHandoff s
  | .bootConfirm a => Sys2Proof.Machine.execBootConfirm a s
  | .trialExpiry => Sys2Proof.Machine.execTrialExpiry s
  | .recoveryGo a len => Sys2Proof.Machine.execRecoveryGo a len s
  | .recoveryCheckDone => Sys2Proof.Machine.execRecoveryCheckDone s
  | .fastWakeLoadDone => Sys2Proof.Machine.execFastWakeLoadDone s
  | .debugCertVerify c => Sys2Proof.Machine.execDebugCertVerify c s
  | .bootStatusnWrite a drive => Sys2Proof.Machine.execBootStatusnWrite a drive s
  | .pulse => Sys2Proof.Machine.execPulse s
  | .deadline => Sys2Proof.Machine.execDeadline s
  | .pulseRunSet a => Sys2Proof.Machine.execPulseRunSet a s
  | .pulseStart => Sys2Proof.Machine.execPulseStart s
  | .pulseRunClear a => Sys2Proof.Machine.execPulseRunClear a s
  | .pulseHalt => Sys2Proof.Machine.execPulseHalt s
  | .pulseConfigWrite a r v => Sys2Proof.Machine.execPulseConfigWrite a r v s
  | .synthLockLoss d => Sys2Proof.Machine.execSynthLockLoss d s
  | .synthRelock d => Sys2Proof.Machine.execSynthRelock d s
  | .admissionDone d rejoin n => Sys2Proof.Machine.execAdmissionDone d rejoin n s
  | .govPrepEnd d => Sys2Proof.Machine.execGovPrepEnd d s
  | .govRaise d => Sys2Proof.Machine.execGovRaise d s
  | .govLower d => Sys2Proof.Machine.execGovLower d s
  | .govManualWrite a d v => Sys2Proof.Machine.execGovManualWrite a d v s
  | .govMarginMinClr a d => Sys2Proof.Machine.execGovMarginMinClr a d s
  | .wearReport d k => Sys2Proof.Machine.execWearReport d k s
  | .thermSample d t1 t2 t3 t4 => Sys2Proof.Machine.execThermSample d t1 t2 t3 t4 s
  | .thermCapStep d => Sys2Proof.Machine.execThermCapStep d s
  | .thermMaxClr a d => Sys2Proof.Machine.execThermMaxClr a d s
  | .nop c => Sys2Proof.Machine.execNop c s
  | .nvSlot c => Sys2Proof.Machine.execNvSlot c s
  | .end_ c t => Sys2Proof.Machine.execEnd c t s
  | .bra c => Sys2Proof.Machine.execBra c s
  | .jmp c => Sys2Proof.Machine.execJmp c s
  | .bsr c => Sys2Proof.Machine.execBsr c s
  | .rts c => Sys2Proof.Machine.execRts c s
  | .rep c => Sys2Proof.Machine.execRep c s
  | .brpt c => Sys2Proof.Machine.execBrpt c s
  | .trap c => Sys2Proof.Machine.execTrap c s
  | .brk c => Sys2Proof.Machine.execBrk c s
  | .rti c => Sys2Proof.Machine.execRti c s
  | .ei c => Sys2Proof.Machine.execEi c s
  | .di c => Sys2Proof.Machine.execDi c s
  | .wait c => Sys2Proof.Machine.execWait c s
  | .waitResume c => Sys2Proof.Machine.execWaitResume c s
  | .interruptEntry c => Sys2Proof.Machine.execInterruptEntry c s
  | .exceptionEntry c => Sys2Proof.Machine.execExceptionEntry c s
  | .add c => Sys2Proof.Machine.execAdd c s
  | .addc c => Sys2Proof.Machine.execAddc c s
  | .sub c => Sys2Proof.Machine.execSub c s
  | .subc c => Sys2Proof.Machine.execSubc c s
  | .and c => Sys2Proof.Machine.execAnd c s
  | .or c => Sys2Proof.Machine.execOr c s
  | .xor c => Sys2Proof.Machine.execXor c s
  | .cmp c => Sys2Proof.Machine.execCmp c s
  | .tst c => Sys2Proof.Machine.execTst c s
  | .min c => Sys2Proof.Machine.execMin c s
  | .max c => Sys2Proof.Machine.execMax c s
  | .ash c => Sys2Proof.Machine.execAsh c s
  | .lsh c => Sys2Proof.Machine.execLsh c s
  | .neg c => Sys2Proof.Machine.execNeg c s
  | .abs c => Sys2Proof.Machine.execAbs c s
  | .not c => Sys2Proof.Machine.execNot c s
  | .sat c => Sys2Proof.Machine.execSat c s
  | .norm c => Sys2Proof.Machine.execNorm c s
  | .div c => Sys2Proof.Machine.execDiv c s
  | .bset c => Sys2Proof.Machine.execBset c s
  | .bclr c => Sys2Proof.Machine.execBclr c s
  | .bnot c => Sys2Proof.Machine.execBnot c s
  | .btst c => Sys2Proof.Machine.execBtst c s
  | .band c => Sys2Proof.Machine.execBand c s
  | .bor c => Sys2Proof.Machine.execBor c s
  | .bxor c => Sys2Proof.Machine.execBxor c s
  | .bmov c => Sys2Proof.Machine.execBmov c s
  | .mpy c => Sys2Proof.Machine.execMpy c s
  | .mpyu c => Sys2Proof.Machine.execMpyu c s
  | .mac c => Sys2Proof.Machine.execMac c s
  | .msu c => Sys2Proof.Machine.execMsu c s
  | .cmpy c => Sys2Proof.Machine.execCmpy c s
  | .cmac c => Sys2Proof.Machine.execCmac c s
  | .cmsu c => Sys2Proof.Machine.execCmsu c s
  | .cmacj c => Sys2Proof.Machine.execCmacj c s
  | .bfly c => Sys2Proof.Machine.execBfly c s
  | .maxi c => Sys2Proof.Machine.execMaxi c s
  | .mini c => Sys2Proof.Machine.execMini c s
  | .maxai c => Sys2Proof.Machine.execMaxai c s
  | .clra c => Sys2Proof.Machine.execClra c s
  | .mova c => Sys2Proof.Machine.execMova c s
  | .shacc c => Sys2Proof.Machine.execShacc c s
  | .resadd c => Sys2Proof.Machine.execResadd c s
  | .ld c => Sys2Proof.Machine.execLd c s
  | .st c => Sys2Proof.Machine.execSt c s
  | .ldi c => Sys2Proof.Machine.execLdi c s
  | .mov c => Sys2Proof.Machine.execMov c s
  | .ldl c => Sys2Proof.Machine.execLdl c s
  | .slipfaceLdlRelease c => Sys2Proof.Machine.execSlipfaceLdlRelease c s
  | .stl c => Sys2Proof.Machine.execStl c s
  | .ldh c => Sys2Proof.Machine.execLdh c s
  | .sth c => Sys2Proof.Machine.execSth c s
  | .modp c => Sys2Proof.Machine.execModp c s
  | .sta c => Sys2Proof.Machine.execSta c s
  | .ftap c => Sys2Proof.Machine.execFtap c s
  | .vote c => Sys2Proof.Machine.execVote c s
  | .swapreq c => Sys2Proof.Machine.execSwapreq c s
  | .swapRequestRx g d => Sys2Proof.Machine.execSwapRequestRx g d s
  | .swapReadyRx g d => Sys2Proof.Machine.execSwapReadyRx g d s
  | .swapRefusalRx g d => Sys2Proof.Machine.execSwapRefusalRx g d s
  | .swapDecision g => Sys2Proof.Machine.execSwapDecision g s
  | .swapCommitRx g d => Sys2Proof.Machine.execSwapCommitRx g d s
  | .swapApply g => Sys2Proof.Machine.execSwapApply g s
  | .faderEnd d e => Sys2Proof.Machine.execFaderEnd d e s
  | .bridgeTransferRx d n => Sys2Proof.Machine.execBridgeTransferRx d n s
  | .bridgeTransferFail d n => Sys2Proof.Machine.execBridgeTransferFail d n s
  | .bridgeHoldExpire d n => Sys2Proof.Machine.execBridgeHoldExpire d n s
  | .bridgeSwapWrite a d ports => Sys2Proof.Machine.execBridgeSwapWrite a d ports s
  | .bridgeTableSwitch d n => Sys2Proof.Machine.execBridgeTableSwitch d n s
  | .rowRepairCopyDone d p => Sys2Proof.Machine.execRowRepairCopyDone d p s
  | .podEccClear a d p unc => Sys2Proof.Machine.execPodEccClear a d p unc s
  | .kernelEccClear a d k => Sys2Proof.Machine.execKernelEccClear a d k s
  | .caravanSwapGo a d p => Sys2Proof.Machine.execCaravanSwapGo a d p s
  | .caravanTableCheckDone d p => Sys2Proof.Machine.execCaravanTableCheckDone d p s
  | .caravanTableSwitch d p => Sys2Proof.Machine.execCaravanTableSwitch d p s
  | .caravanFetchIssue d p e => Sys2Proof.Machine.execCaravanFetchIssue d p e s
  | .caravanFetchStaged d p e => Sys2Proof.Machine.execCaravanFetchStaged d p e s
  | .caravanFetchLate d p e => Sys2Proof.Machine.execCaravanFetchLate d p e s
  | .caravanStoreIssue d p e => Sys2Proof.Machine.execCaravanStoreIssue d p e s
  | .caravanStoreDone d p e => Sys2Proof.Machine.execCaravanStoreDone d p e s
  | .caravanShareWrite a d p v => Sys2Proof.Machine.execCaravanShareWrite a d p v s
  | .ddrEnable a d => Sys2Proof.Machine.execDdrEnable a d s
  | .ddrDisable a d => Sys2Proof.Machine.execDdrDisable a d s
  | .ddrRetrain a d => Sys2Proof.Machine.execDdrRetrain a d s
  | .ddrTrainingDone d ok => Sys2Proof.Machine.execDdrTrainingDone d ok s
  | .ddrCfgWrite a d v => Sys2Proof.Machine.execDdrCfgWrite a d v s
  | .ddrRefreshDue d => Sys2Proof.Machine.execDdrRefreshDue d s
  | .ddrRefreshIssue d => Sys2Proof.Machine.execDdrRefreshIssue d s
  | .ddrWindowOpen d => Sys2Proof.Machine.execDdrWindowOpen d s
  | .ddrWindowClose d => Sys2Proof.Machine.execDdrWindowClose d s
  | .ddrZqCalibration d => Sys2Proof.Machine.execDdrZqCalibration d s
  | .ddrMr4Poll d mul => Sys2Proof.Machine.execDdrMr4Poll d mul s
  | .ddrPowerDown d => Sys2Proof.Machine.execDdrPowerDown d s
  | .memoryWrite a addr width v => Sys2Proof.Machine.execMemoryWrite a addr width v s
  | .memoryRead a addr width => Sys2Proof.Machine.execMemoryRead a addr width s
  | .programBankWrite a d k bankB off width v => Sys2Proof.Machine.execProgramBankWrite a d k bankB off width v s
  | .kernelImageWrite a d k off width v => Sys2Proof.Machine.execKernelImageWrite a d k off width v s
  | .kernelBankmodeWrite a d k v => Sys2Proof.Machine.execKernelBankmodeWrite a d k v s
  | .podHownWrite a d p j v => Sys2Proof.Machine.execPodHownWrite a d p j v s
  | .kernelStopRequest a d k => Sys2Proof.Machine.execKernelStopRequest a d k s
  | .kernelStopCancel a d k => Sys2Proof.Machine.execKernelStopCancel a d k s
  | .kernelRejoin a d k => Sys2Proof.Machine.execKernelRejoin a d k s
  | .kernelTestEnter a d k => Sys2Proof.Machine.execKernelTestEnter a d k s
  | .kernelTestExit a d k => Sys2Proof.Machine.execKernelTestExit a d k s
  | .busWinWrite a d w v => Sys2Proof.Machine.execBusWinWrite a d w v s
  | .busSliceWrite a d v => Sys2Proof.Machine.execBusSliceWrite a d v s
  | .busSliceApply d => Sys2Proof.Machine.execBusSliceApply d s
  | .romlockSet a d => Sys2Proof.Machine.execRomlockSet a d s
  | .remapWrite a d remap => Sys2Proof.Machine.execRemapWrite a d remap s
  | .fwLockSet a d => Sys2Proof.Machine.execFwLockSet a d s
  | .counter64LowRead a d => Sys2Proof.Machine.execCounter64LowRead a d s
  | .queueStage a d q j v => Sys2Proof.Machine.execQueueStage a d q j v s
  | .queuePush a d q v => Sys2Proof.Machine.execQueuePush a d q v s
  | .queuePop a d q => Sys2Proof.Machine.execQueuePop a d q s
  | .queueCfgWrite a d q v => Sys2Proof.Machine.execQueueCfgWrite a d q v s
  | .stewardRun a d j => Sys2Proof.Machine.execStewardRun a d j s
  | .stewardHold a d j => Sys2Proof.Machine.execStewardHold a d j s
  | .doorbellSet a d j v => Sys2Proof.Machine.execDoorbellSet a d j v s
  | .doorbellClear a d j v => Sys2Proof.Machine.execDoorbellClear a d j v s
  | .pwrVdataWrite a d v => Sys2Proof.Machine.execPwrVdataWrite a d v s
  | .pwrHoldWrite a v => Sys2Proof.Machine.execPwrHoldWrite a v s
  | .pwrModeWrite a d v => Sys2Proof.Machine.execPwrModeWrite a d v s
  | .voteonlySet a d => Sys2Proof.Machine.execVoteonlySet a d s
  | .wakerel a d => Sys2Proof.Machine.execWakerel a d s
  | .padrel a d v => Sys2Proof.Machine.execPadrel a d v s
  | .domainEntryStart d m => Sys2Proof.Machine.execDomainEntryStart d m s
  | .padHoldPoint d m => Sys2Proof.Machine.execPadHoldPoint d m s
  | .domainEntryDone d m => Sys2Proof.Machine.execDomainEntryDone d m s
  | .domainExitStart d m => Sys2Proof.Machine.execDomainExitStart d m s
  | .domainExitDone d m => Sys2Proof.Machine.execDomainExitDone d m s
  | .wakePinAccept j high soon => Sys2Proof.Machine.execWakePinAccept j high soon s
  | .wakeTimerWrite a v => Sys2Proof.Machine.execWakeTimerWrite a v s
  | .intervalTimerExpiry => Sys2Proof.Machine.execIntervalTimerExpiry s
  | .linkWakeDetect => Sys2Proof.Machine.execLinkWakeDetect s
  | .huskEntry wake => Sys2Proof.Machine.execHuskEntry wake s
  | .supplyPgRise => Sys2Proof.Machine.execSupplyPgRise s
  | .referenceReady recov ok => Sys2Proof.Machine.execReferenceReady recov ok s
  | .huskExitTimeout => Sys2Proof.Machine.execHuskExitTimeout s
  | .huskExitRetry => Sys2Proof.Machine.execHuskExitRetry s
  | .supplyPgLoss => Sys2Proof.Machine.execSupplyPgLoss s
  | .vddKeepApply => Sys2Proof.Machine.execVddKeepApply s
  | .vddKeepLoss => Sys2Proof.Machine.execVddKeepLoss s
  | .shadowPeriodStart d p => Sys2Proof.Machine.execShadowPeriodStart d p s
  | .shadowLoadDone d p => Sys2Proof.Machine.execShadowLoadDone d p s
  | .spareCmd a d k => Sys2Proof.Machine.execSpareCmd a d k s
  | .spareTakeover d p => Sys2Proof.Machine.execSpareTakeover d p s
  | .displacementRampEnd d p => Sys2Proof.Machine.execDisplacementRampEnd d p s
  | .srcEngineCheck d e ok => Sys2Proof.Machine.execSrcEngineCheck d e ok s
  | .sapArm a d m => Sys2Proof.Machine.execSapArm a d m s
  | .sapDisarm a d m => Sys2Proof.Machine.execSapDisarm a d m s
  | .sapStop a d m => Sys2Proof.Machine.execSapStop a d m s
  | .sapMute a d m mute => Sys2Proof.Machine.execSapMute a d m mute s
  | .sapTrig a d v => Sys2Proof.Machine.execSapTrig a d v s
  | .startPinEdge => Sys2Proof.Machine.execStartPinEdge s
  | .sapTriggerPulse d m => Sys2Proof.Machine.execSapTriggerPulse d m s
  | .sapFrameZero d m fitRx fitTx => Sys2Proof.Machine.execSapFrameZero d m fitRx fitTx s
  | .sapFrame d m own f => Sys2Proof.Machine.execSapFrame d m own f s
  | .sapRingTransfer d m tx => Sys2Proof.Machine.execSapRingTransfer d m tx s
  | .sapMaskWrite a d m tx v => Sys2Proof.Machine.execSapMaskWrite a d m tx v s
  | .sapClockLoss d m cause => Sys2Proof.Machine.execSapClockLoss d m cause s
  | .sapClockRecover d m => Sys2Proof.Machine.execSapClockRecover d m s
  | .biphaseLock d m hz => Sys2Proof.Machine.execBiphaseLock d m hz s
  | .biphaseBlockRx d m complete ws => Sys2Proof.Machine.execBiphaseBlockRx d m complete ws s
  | .biphaseBlockTx d m => Sys2Proof.Machine.execBiphaseBlockTx d m s
  | .csnewRelease a d m => Sys2Proof.Machine.execCsnewRelease a d m s
  | .srcEntryWrite a d e v => Sys2Proof.Machine.execSrcEntryWrite a d e v s
  | .srcRatioLock d m tx r => Sys2Proof.Machine.execSrcRatioLock d m tx r s
  | .srcRelock d m tx => Sys2Proof.Machine.execSrcRelock d m tx s
  | .clksteerEnable a v => Sys2Proof.Machine.execClksteerEnable a v s
  | .clksteerSelWrite a v => Sys2Proof.Machine.execClksteerSelWrite a v s
  | .clksteerLock => Sys2Proof.Machine.execClksteerLock s
  | .meterCfgWrite a d m v => Sys2Proof.Machine.execMeterCfgWrite a d m v s
  | .meterBlockEnd d m => Sys2Proof.Machine.execMeterBlockEnd d m s
  | .meterHoldclr a d m => Sys2Proof.Machine.execMeterHoldclr a d m s
  | .detectorWrite a d v => Sys2Proof.Machine.execDetectorWrite a d v s
  | .parkEntryWrite a d p cfg v => Sys2Proof.Machine.execParkEntryWrite a d p cfg v s
  | .podResume d p => Sys2Proof.Machine.execPodResume d p s
  | .lookaheadWrite a d n v => Sys2Proof.Machine.execLookaheadWrite a d n v s
  | .genArm a d c now => Sys2Proof.Machine.execGenArm a d c now s
  | .genStop a d c => Sys2Proof.Machine.execGenStop a d c s
  | .genTrigger d c => Sys2Proof.Machine.execGenTrigger d c s
  | .genDone d c => Sys2Proof.Machine.execGenDone d c s
  | .linkEnable a d => Sys2Proof.Machine.execLinkEnable a d s
  | .linkRetrain a d => Sys2Proof.Machine.execLinkRetrain a d s
  | .linkTrainStep d ok a b c => Sys2Proof.Machine.execLinkTrainStep d ok a b c s
  | .linkTrainRestart d => Sys2Proof.Machine.execLinkTrainRestart d s
  | .linkWaketx a d => Sys2Proof.Machine.execLinkWaketx a d s
  | .linkFrameRx d bs sp err => Sys2Proof.Machine.execLinkFrameRx d bs sp err s
  | .linkFrameFail d num bs => Sys2Proof.Machine.execLinkFrameFail d num bs s
  | .linkTimeLock => Sys2Proof.Machine.execLinkTimeLock s
  | .linkRdreq d p ahead => Sys2Proof.Machine.execLinkRdreq d p ahead s
  | .linkWrreq d p ahead aged => Sys2Proof.Machine.execLinkWrreq d p ahead aged s
  | .linkRdrsp d p => Sys2Proof.Machine.execLinkRdrsp d p s
  | .linkWrack d p => Sys2Proof.Machine.execLinkWrack d p s
  | .linkSwapPacket d p aged => Sys2Proof.Machine.execLinkSwapPacket d p aged s
  | .linkStartPacket d p aged => Sys2Proof.Machine.execLinkStartPacket d p aged s
  | .linkHostPacket d p aged => Sys2Proof.Machine.execLinkHostPacket d p aged s
  | .linkPacketRoute d p aged => Sys2Proof.Machine.execLinkPacketRoute d p aged s
  | .linkPacketTimeout d j => Sys2Proof.Machine.execLinkPacketTimeout d j s
  | .linkRemoteGo a d write words => Sys2Proof.Machine.execLinkRemoteGo a d write words s
  | .linkRemoteTimeout d => Sys2Proof.Machine.execLinkRemoteTimeout d s
  | .linkStartGo a d num => Sys2Proof.Machine.execLinkStartGo a d num s
  | .linkTswapGo a d => Sys2Proof.Machine.execLinkTswapGo a d s
  | .linkExportSwitch d => Sys2Proof.Machine.execLinkExportSwitch d s
  | .linkRtswapGo a => Sys2Proof.Machine.execLinkRtswapGo a s
  | .linkRouteSwitch => Sys2Proof.Machine.execLinkRouteSwitch s
  | .linkRtholdEnd => Sys2Proof.Machine.execLinkRtholdEnd s
  | .linkDelayMeasure d raw => Sys2Proof.Machine.execLinkDelayMeasure d raw s
  | .linkDelayEcho d turn => Sys2Proof.Machine.execLinkDelayEcho d turn s
  | .linkSpareRequest d lane hs ts => Sys2Proof.Machine.execLinkSpareRequest d lane hs ts s
  | .linkSpareBlock d ack lane f => Sys2Proof.Machine.execLinkSpareBlock d ack lane f s
  | .linkSpareSwitch d tx => Sys2Proof.Machine.execLinkSpareSwitch d tx s
  | .linkLoss d cause => Sys2Proof.Machine.execLinkLoss d cause s
  | .linkIdWrite a v => Sys2Proof.Machine.execLinkIdWrite a v s
  | .cspStage a d n v => Sys2Proof.Machine.execCspStage a d n v s
  | .cspPush a d v => Sys2Proof.Machine.execCspPush a d v s
  | .cspEnable a d en => Sys2Proof.Machine.execCspEnable a d en s
  | .cspAbort a d => Sys2Proof.Machine.execCspAbort a d s
  | .cspEntryStart d => Sys2Proof.Machine.execCspEntryStart d s
  | .cspEntryDone d rx => Sys2Proof.Machine.execCspEntryDone d rx s
  | .cspModf d moved rx => Sys2Proof.Machine.execCspModf d moved rx s
  | .cspModfClear a d => Sys2Proof.Machine.execCspModfClear a d s
  | .cspCfgWrite a d v => Sys2Proof.Machine.execCspCfgWrite a d v s
  | .cspTargetSelect => Sys2Proof.Machine.execCspTargetSelect s
  | .cspTargetCommand cmd addr => Sys2Proof.Machine.execCspTargetCommand cmd addr s
  | .cspTargetReadWord late => Sys2Proof.Machine.execCspTargetReadWord late s
  | .cspTargetWriteWord v full => Sys2Proof.Machine.execCspTargetWriteWord v full s
  | .cspTargetRelease mid => Sys2Proof.Machine.execCspTargetRelease mid s
  | .registerWrite a addr v => Sys2Proof.Machine.execRegisterWrite a addr v s
  | .nominalTickFrame d => Sys2Proof.Machine.execNominalTickFrame d s
  | .huskDeferredExit => Sys2Proof.Machine.execHuskDeferredExit s
  | .stewardDebugHalt d j => Sys2Proof.Machine.execStewardDebugHalt d j s
  | .debugFuseProgram o => Sys2Proof.Machine.execDebugFuseProgram o s

end Sys2Proof.Machine
end

