-- ==== Sys2Proof/Safety.lean ====
section
/-! DEFINITION. What claims mean by a state in canonical form, by a command that runs, by an access that reaches a register,
and by a slot that a core executes. -/
namespace Sys2Proof.Machine

/-- The command takes effect in this state. -/
def Runs (i : Instr) (s : State) : Prop := ∃ t, exec i s = .next t

/-- The commands of this list take effect one after the other without a fault or a refusal. -/
def RunsDry : List Instr → State → Prop
  | [], _ => True
  | i :: is, s => ∃ t, exec i s = .next t ∧ RunsDry is t

/-! ### Canonical form -/

/-- Every register file is in canonical form. -/
def Regs.wf (r : Regs) : Bool :=
  smWf (fun _ => (0 : Acc)) 0 r.a &&
    [r.d, r.e, r.p, r.b, r.l, r.m, r.ls, r.le, r.lc].all fun f => smWf (fun _ => (0 : Word)) 0 f

/-- A core's registers, its image, its snapshot and its program bits are in canonical form. -/
def Core.wf (k : Core) : Bool := k.r.wf && k.img.wf && k.snap.wf && smWf (fun _ => false) 0 k.bits

/-- Every sparse table of the state is in canonical form: keys rise, and no entry equals the table's default. Two states in
this form that read the same everywhere are equal. -/
def State.wf (s : State) : Bool :=
  smWf (resetReg s.part) 0 s.regs && smWf tabReset 0 s.tabs && Memory.wf s.mem
    && smWf (fun _ => EccMark.clean) 0 s.ecc
    && smWf (fun _ => Kern.zero) 0 s.kern && (s.kern.all fun e => e.2.core.wf)
    && smWf Stew.zero 0 s.stew && (s.stew.all fun e => e.2.core.wf)
    && smWf (fun _ => (0 : Byte)) 0 s.shell.cells && smWf (fun _ => (0 : Word)) 0 s.txOld
    && smWf (fun _ => deadLine) 0 s.lines && smWf (fun _ => (0 : Word)) 0 s.lastPub && smWf (fun _ => deadLine) 0 s.pub
    && smWf (fun _ => (⟨0, false⟩ : Slip)) 0 s.slip && smWf (fun _ => (⟨[], [], [], []⟩ : Rows)) 0 s.rows
    && smWf (fun _ => PodX.zero) 0 s.pods && smWf (fun _ => DieX.zero) 0 s.dieX && smWf (fun _ => DomX.zero) 0 s.doms
    && smWf (fun _ => BridgePort.zero) 0 s.bridges && smWf (fun _ => LinkPort.zero) 0 s.link
    && smWf (fun _ => Caravan.zero) 0 s.carav && smWf (fun _ => Ddr.zero) 0 s.ddr
    && smWf (fun _ => (0 : Word)) 0 s.laEff && smWf (fun _ => ([] : List Line)) 0 s.laHist
    && smWf (fun _ => SapPort.zero) 0 s.saps && smWf (fun _ => Meter.zero) 0 s.meters
    && smWf (fun _ => Gen.zero) 0 s.gens && smWf (fun _ => Csp.zero) 0 s.csp

/-! ### Bus accesses -/

/-- A write by master `a` reaches the register at package address `r` (R351, R352, R357, R365, R463): the master and the
way to the die are there, the firewall permits it, and the page's domain is ON. -/
def reachesReg (s : State) (a : Access) (r : Nat) : Bool :=
  s.wf && accessOk s a && running s && masterActs s a && masterReaches a (addrLocal r)
    && canReach s a (addrDie r)
    && fwAllows s (addrDie r) a (addrLocal r) true && pageAnswers s (addrDie r) (addrPage r)

/-- A read or write by master `a` at a die-local address reaches the targets of die `d`. -/
def reachesAt (s : State) (a : Access) (d loc : Nat) (write : Bool) : Bool :=
  s.wf && accessOk s a && running s && masterActs s a && masterReaches a loc && canReach s a d
    && fwAllows s d a loc write

/-- The state after a command that a bus write makes is `t`, and the write is answered without an error. -/
def State.answered (t : State) : State := { t with resp := .ok 0 }

/-- The same for a write that the block refuses: nothing changes but the answer. -/
def State.turnedDown (s : State) : State := { s with resp := .err none }

/-- A register with the bits of `mask` taken from `v`. -/
def maskPut (s : State) (r : Nat) (mask v : Word) : State := setReg s r ((reg s r &&& ~~~mask) ||| (v &&& mask))

/-- A read by master `a` reaches the register at package address `r`. -/
def readsReg (s : State) (a : Access) (r : Nat) : Bool :=
  reachesAt s a (addrDie r) (addrLocal r) false && pageAnswers s (addrDie r) (addrPage r)

/-- The state after a read that answers a word. -/
def State.read (t : State) (w : Word) : State := { t with resp := .ok (w.setWidth 64) }

/-- The state after an access that is answered with an error of a KIND that the record takes (R361). -/
def State.failed (t : State) (k : Nat) : State := { t with resp := .err (some k) }

/-! ### Swap requests -/

/-- The request of group `g` whose refusal or split die `d` has to report. -/
def reportedSwap (s : State) (g d : Nat) : Option SwapReq :=
  s.swaps.find? fun r => r.group = g &&
    (match alGet d r.jobs with | some (.refused _ _ _) => !r.committed | some (.split _ _) => r.applied | _ => false)

/-- The request of group `g` that stands at its target Pulse. -/
def targetSwap (s : State) (g : Nat) : Option SwapReq :=
  s.swaps.find? fun r => r.group = g && !r.applied && decide (r.target ≤ pulseCount s) && pulseRuns s

/-! ### Slots of a core -/

/-- The registers of a core. -/
def regsOf (s : State) (c : CoreRef) : Regs := (coreOf s c).r

/-- The state once a core's next word is fetched: a corrected word is counted, a steward's fetch is a bus access. -/
def slotFetched (s : State) (c : CoreRef) (m : Mode) : State :=
  match fetchSlot s c m with
  | .ok _ t => t
  | _ => s

/-- The state that a core's next slot starts from: its word is fetched, and the slipface value that it reads, if it reads one, is noted
(R189). -/
def slotState (s : State) (c : CoreRef) (m : Mode) : State :=
  match fetchSlot s c m with
  | .ok (some sl) t => (noteSlip t c m sl).getD t
  | .ok none t => t
  | _ => s

/-- The registers that a core's next slot starts from. -/
def slotRegs (s : State) (c : CoreRef) (m : Mode) : Regs := regsOf (slotState s c m) c

/-- The core runs in mode `m`, and its next slot is `sl`, legal there. -/
def slotIs (s : State) (c : CoreRef) (m : Mode) (sl : Slot) : Bool :=
  hasCore s c && decide (coreMode s c = some m) &&
    (match fetchSlot s c m with | .ok (some x) _ => decide (x = sl) | _ => false) && (slotState s c m).wf

/-- The core's next slot is `sl`, and it executes: it is no NV word, it does not wait for a slipface line or, in a shadow, for its
target's read of one, and it is not annulled (R84, R85, R36, R145, R189). -/
def slotRuns (s : State) (c : CoreRef) (m : Mode) (sl : Slot) : Bool :=
  slotIs s c m sl && decide (sl.cond ≠ .nv) && decide (slipToWait (slotFetched s c m) c m sl = none)
    && (noteSlip (slotFetched s c m) c m sl).isSome && !slotAnnulled (slotState s c m) c sl

/-- Whether a write to a bit operand sticks: a bit of a D register, a flag, or a program bit (R77, R93). -/
def bitWritable (o : BitOp) : Bool :=
  match o with
  | .dreg _ b => b < 32
  | .space a => (0x10 ≤ a && a ≤ 0x16) || (0x100 ≤ a && a < 0x1000)

/-- Whether a bit operand is a bit of the bit space that ignores writes (R77). -/
def bitReadOnly (o : BitOp) : Bool :=
  match o with
  | .dreg _ _ => false
  | .space _ => !bitWritable o

/-- The row of a binary ALU function. -/
def binInstr (f : BinFn) (c : CoreRef) : Instr :=
  match f with
  | .add => .add c | .addc => .addc c | .sub => .sub c | .subc => .subc c
  | .and => .and c | .or => .or c | .xor => .xor c | .cmp => .cmp c | .tst => .tst c
  | .min => .min c | .max => .max c | .ash => .ash c | .lsh => .lsh c

/-- The row of a unary ALU function. -/
def unInstr (f : UnFn) (c : CoreRef) : Instr :=
  match f with
  | .neg => .neg c | .abs => .abs c | .not => .not c | .sat => .sat c | .norm => .norm c

/-- The row of a multiply function. -/
def mulInstr (f : MulFn) (c : CoreRef) : Instr :=
  match f with
  | .mpy => .mpy c | .mpyu => .mpyu c | .mac => .mac c | .msu => .msu c
  | .cmpy => .cmpy c | .cmac => .cmac c | .cmsu => .cmsu c | .cmacj => .cmacj c | .bfly => .bfly c

/-- Whether a parallel move stores an accumulator that does not fit 32 bits, which sets V beside any main operation (R70, R111). -/
def moveSetsV (r : Regs) (pm : PMove) : Bool :=
  match pm with
  | .none | .ldl _ _ | .stlD _ _ | .mov _ _ => false
  | .stlA _ a | .sta _ a => (store32 (satMode r) (accOf r a)).v

/-- The row of a search function. -/
def searchInstr (f : SearchFn) (c : CoreRef) : Instr :=
  match f with
  | .maxi => .maxi c | .mini => .mini c | .maxai => .maxai c

/-- The row of a class-10 operation, opcodes 0x20–0x2F. -/
def class10Instr (op : Op) (c : CoreRef) : Option Instr :=
  match op with
  | .mul f _ _ _ _ _ => some (mulInstr f c)
  | .search f _ _ _ => some (searchInstr f c)
  | .clra _ _ => some (.clra c)
  | .movaA _ _ _ | .movaD _ _ _ => some (.mova c)
  | .shacc _ _ _ => some (.shacc c)
  | .resadd _ _ => some (.resadd c)
  | _ => none

/-- The state after a read, `none` where it does not succeed. -/
def gotState {α : Type} (g : Got α) : Option State :=
  match g with
  | .ok _ t => some t
  | _ => none

/-- The state once the memory operands of a class-10 operation are read, S1 before S2; `none` where a read does not succeed. -/
def operandsRead (s : State) (c : CoreRef) (op : Op) : Option State :=
  match op with
  | .mul f _ s1 s2 _ _ =>
    if isComplex f then gotState ((readPair s c s1).andThen fun _ t => readPair t c s2)
    else gotState ((readDual s c s1).andThen fun _ t => readDual t c s2)
  | .search _ _ src _ => gotState (readDual s c src)
  | _ => some s

/-- Everything outside the named core and the answer of the last bus access reads as before: registers, tables, memory,
lines, and every other core. -/
def SameElsewhere (s t : State) (c : CoreRef) : Prop :=
  t.regs = s.regs ∧ t.tabs = s.tabs ∧ t.mem = s.mem ∧ t.lines = s.lines ∧ t.pub = s.pub ∧ t.slip = s.slip ∧
    (∀ e : CoreRef, (e.stew, e.die * (if e.stew then 2 else 144) + e.idx) ≠ (c.stew, c.die * (if c.stew then 2 else 144) + c.idx) →
      coreOf t e = coreOf s e)

/-- No register outside the list reads differently in `t`. -/
def RegsBut (s t : State) (rs : List Nat) : Prop := ∀ a, a ∉ rs → reg t a = reg s a

end Sys2Proof.Machine
end

