-- ==== Sys2Proof/WellFormed.lean ====
section
/-! DEFINITION. Well-formed commands: every operand lies in the range that the spec gives its kind (R2, R7, R319, R355). The
meanings do not assume it: a command for a unit that the part does not have is refused by name. -/
namespace Sys2Proof

/-- A master of the master table on a die that the family has. -/
def accessWf (a : Access) : Bool := decide (a.master < 18) && decide (a.odie < 8)

/-- A kernel 0–143 or a steward 0–1 of a die. -/
def coreWf (c : CoreRef) : Bool := decide (c.die < 8) && decide (c.idx < if c.stew then 2 else 144)

/-- A width of an access in bytes. -/
def widthWf (w : Nat) : Bool := w = 1 || w = 2 || w = 4 || w = 8

/-- Blocks of a packet section lie after the four blocks or more of a frame's line section (R312). -/
def arrivalWf (p : Arrival) : Bool :=
  match p with
  | .blocks k _ => decide (4 ≤ k) && decide (k < 4294)
  | .waiting => true
  | .own => true

/-- A key slot 0–3 with a digest of 48 bytes, a key of 256 bits. -/
def fuseWf (o : FuseOp) : Bool :=
  match o with
  | .keySlot i dg => decide (i < 4) && decide (dg.length = 48)
  | .imageKey k => decide (k < 2 ^ 256)
  | .lock => true

/-- Whether a command is well formed. -/
def Instr.wf (i : Instr) : Bool :=
  match i with
  | .resetNAssert => true
  | .resetRelease _ _ => true
  | .bootDirectoryRead _ _ _ => true
  | .slotCheck i _ => decide (i < 2)
  | .segmentLoad _ => true
  | .bootRetryWaitEnd => true
  | .bootHandoff => true
  | .bootConfirm a => accessWf a
  | .trialExpiry => true
  | .recoveryGo a len => accessWf a && decide (len < 0x400000)
  | .recoveryCheckDone => true
  | .fastWakeLoadDone => true
  | .debugCertVerify _ => true
  | .bootStatusnWrite a _ => accessWf a
  | .pulse => true
  | .deadline => true
  | .pulseRunSet a => accessWf a
  | .pulseStart => true
  | .pulseRunClear a => accessWf a
  | .pulseHalt => true
  | .pulseConfigWrite a _ _ => accessWf a
  | .synthLockLoss d => decide (d < 8)
  | .synthRelock d => decide (d < 8)
  | .admissionDone d _ n => decide (d < 8) && decide (n < 256)
  | .govPrepEnd d => decide (d < 8)
  | .govRaise d => decide (d < 8)
  | .govLower d => decide (d < 8)
  | .govManualWrite a d _ => accessWf a && decide (d < 8)
  | .govMarginMinClr a d => accessWf a && decide (d < 8)
  | .wearReport d k => decide (d < 8) && decide (k < 144)
  | .thermSample d _ _ _ _ => decide (d < 8)
  | .thermCapStep d => decide (d < 8)
  | .thermMaxClr a d => accessWf a && decide (d < 8)
  | .nop c => coreWf c
  | .nvSlot c => coreWf c
  | .end_ c _ => coreWf c
  | .bra c => coreWf c
  | .jmp c => coreWf c
  | .bsr c => coreWf c
  | .rts c => coreWf c
  | .rep c => coreWf c
  | .brpt c => coreWf c
  | .trap c => coreWf c
  | .brk c => coreWf c
  | .rti c => coreWf c
  | .ei c => coreWf c
  | .di c => coreWf c
  | .wait c => coreWf c
  | .waitResume c => coreWf c
  | .interruptEntry c => coreWf c
  | .exceptionEntry c => coreWf c
  | .add c => coreWf c
  | .addc c => coreWf c
  | .sub c => coreWf c
  | .subc c => coreWf c
  | .and c => coreWf c
  | .or c => coreWf c
  | .xor c => coreWf c
  | .cmp c => coreWf c
  | .tst c => coreWf c
  | .min c => coreWf c
  | .max c => coreWf c
  | .ash c => coreWf c
  | .lsh c => coreWf c
  | .neg c => coreWf c
  | .abs c => coreWf c
  | .not c => coreWf c
  | .sat c => coreWf c
  | .norm c => coreWf c
  | .div c => coreWf c
  | .bset c => coreWf c
  | .bclr c => coreWf c
  | .bnot c => coreWf c
  | .btst c => coreWf c
  | .band c => coreWf c
  | .bor c => coreWf c
  | .bxor c => coreWf c
  | .bmov c => coreWf c
  | .mpy c => coreWf c
  | .mpyu c => coreWf c
  | .mac c => coreWf c
  | .msu c => coreWf c
  | .cmpy c => coreWf c
  | .cmac c => coreWf c
  | .cmsu c => coreWf c
  | .cmacj c => coreWf c
  | .bfly c => coreWf c
  | .maxi c => coreWf c
  | .mini c => coreWf c
  | .maxai c => coreWf c
  | .clra c => coreWf c
  | .mova c => coreWf c
  | .shacc c => coreWf c
  | .resadd c => coreWf c
  | .ld c => coreWf c
  | .st c => coreWf c
  | .ldi c => coreWf c
  | .mov c => coreWf c
  | .ldl c => coreWf c
  | .slipfaceLdlRelease c => coreWf c && !c.stew
  | .stl c => coreWf c
  | .ldh c => coreWf c
  | .sth c => coreWf c
  | .modp c => coreWf c
  | .sta c => coreWf c
  | .ftap c => coreWf c
  | .vote c => coreWf c
  | .swapreq c => coreWf c
  | .swapRequestRx g d => decide (g < 256) && decide (d < 8)
  | .swapReadyRx g d => decide (g < 256) && decide (d < 8)
  | .swapRefusalRx g d => decide (g < 256) && decide (d < 8)
  | .swapDecision g => decide (g < 256)
  | .swapCommitRx g d => decide (g < 256) && decide (d < 8)
  | .swapApply g => decide (g < 256)
  | .faderEnd d e => decide (d < 8) && decide (e < 512)
  | .bridgeTransferRx d n => decide (d < 8) && decide (n < 3)
  | .bridgeTransferFail d n => decide (d < 8) && decide (n < 3)
  | .bridgeHoldExpire d n => decide (d < 8) && decide (n < 3)
  | .bridgeSwapWrite a d ports => accessWf a && decide (d < 8) && decide (ports < 8)
  | .bridgeTableSwitch d n => decide (d < 8) && decide (n < 3)
  | .rowRepairCopyDone d p => decide (d < 8) && decide (p < 9)
  | .podEccClear a d p _ => accessWf a && decide (d < 8) && decide (p < 8)
  | .kernelEccClear a d k => accessWf a && decide (d < 8) && decide (k < 144)
  | .caravanSwapGo a d p => accessWf a && decide (d < 8) && decide (p < 8)
  | .caravanTableCheckDone d p => decide (d < 8) && decide (p < 8)
  | .caravanTableSwitch d p => decide (d < 8) && decide (p < 8)
  | .caravanFetchIssue d p e => decide (d < 8) && decide (p < 8) && decide (e < 256)
  | .caravanFetchStaged d p e => decide (d < 8) && decide (p < 8) && decide (e < 256)
  | .caravanFetchLate d p e => decide (d < 8) && decide (p < 8) && decide (e < 256)
  | .caravanStoreIssue d p e => decide (d < 8) && decide (p < 8) && decide (e < 256)
  | .caravanStoreDone d p e => decide (d < 8) && decide (p < 8) && decide (e < 256)
  | .caravanShareWrite a d p _ => accessWf a && decide (d < 8) && decide (p < 8)
  | .ddrEnable a d => accessWf a && decide (d < 8)
  | .ddrDisable a d => accessWf a && decide (d < 8)
  | .ddrRetrain a d => accessWf a && decide (d < 8)
  | .ddrTrainingDone d _ => decide (d < 8)
  | .ddrCfgWrite a d _ => accessWf a && decide (d < 8)
  | .ddrRefreshDue d => decide (d < 8)
  | .ddrRefreshIssue d => decide (d < 8)
  | .ddrWindowOpen d => decide (d < 8)
  | .ddrWindowClose d => decide (d < 8)
  | .ddrZqCalibration d => decide (d < 8)
  | .ddrMr4Poll d _ => decide (d < 8)
  | .ddrPowerDown d => decide (d < 8)
  | .memoryWrite a addr width _ => accessWf a && decide (addr < 0x10000000000) && widthWf width
  | .memoryRead a addr width => accessWf a && decide (addr < 0x10000000000) && widthWf width
  | .programBankWrite a d k _ off width _ => accessWf a && decide (d < 8) && decide (k < 144) && decide (off < 0x8000) && widthWf width
  | .kernelImageWrite a d k off width _ => accessWf a && decide (d < 8) && decide (k < 144) && decide (off < 576) && widthWf width
  | .kernelBankmodeWrite a d k _ => accessWf a && decide (d < 8) && decide (k < 144)
  | .podHownWrite a d p i _ => accessWf a && decide (d < 8) && decide (p < 8) && decide (i < 18)
  | .kernelStopRequest a d k => accessWf a && decide (d < 8) && decide (k < 144)
  | .kernelStopCancel a d k => accessWf a && decide (d < 8) && decide (k < 144)
  | .kernelRejoin a d k => accessWf a && decide (d < 8) && decide (k < 144)
  | .kernelTestEnter a d k => accessWf a && decide (d < 8) && decide (k < 144)
  | .kernelTestExit a d k => accessWf a && decide (d < 8) && decide (k < 144)
  | .busWinWrite a d w _ => accessWf a && decide (d < 8) && decide (w < 8)
  | .busSliceWrite a d _ => accessWf a && decide (d < 8)
  | .busSliceApply d => decide (d < 8)
  | .romlockSet a d => accessWf a && decide (d < 8)
  | .remapWrite a d _ => accessWf a && decide (d < 8)
  | .fwLockSet a d => accessWf a && decide (d < 8)
  | .counter64LowRead a d => accessWf a && decide (d < 8)
  | .queueStage a d q i _ => accessWf a && decide (d < 8) && decide (q < 48) && decide (i < 56)
  | .queuePush a d q _ => accessWf a && decide (d < 8) && decide (q < 48)
  | .queuePop a d q => accessWf a && decide (d < 8) && decide (q < 48)
  | .queueCfgWrite a d q _ => accessWf a && decide (d < 8) && decide (q < 48)
  | .stewardRun a d i => accessWf a && decide (d < 8) && decide (i < 2)
  | .stewardHold a d i => accessWf a && decide (d < 8) && decide (i < 2)
  | .doorbellSet a d i _ => accessWf a && decide (d < 8) && decide (i < 2)
  | .doorbellClear a d i _ => accessWf a && decide (d < 8) && decide (i < 2)
  | .pwrVdataWrite a d _ => accessWf a && decide (d < 8)
  | .pwrHoldWrite a _ => accessWf a
  | .pwrModeWrite a d _ => accessWf a && decide (d < 8)
  | .voteonlySet a d => accessWf a && decide (d < 8)
  | .wakerel a d => accessWf a && decide (d < 8)
  | .padrel a d _ => accessWf a && decide (d < 8)
  | .domainEntryStart d m => decide (d < 8) && decide (m < 9)
  | .padHoldPoint d m => decide (d < 8) && decide (m < 9)
  | .domainEntryDone d m => decide (d < 8) && decide (m < 9)
  | .domainExitStart d m => decide (d < 8) && decide (m < 9)
  | .domainExitDone d m => decide (d < 8) && decide (m < 9)
  | .wakePinAccept i _ _ => decide (i < 8)
  | .wakeTimerWrite a _ => accessWf a
  | .intervalTimerExpiry => true
  | .linkWakeDetect => true
  | .huskEntry _ => true
  | .supplyPgRise => true
  | .referenceReady _ _ => true
  | .huskExitTimeout => true
  | .huskExitRetry => true
  | .supplyPgLoss => true
  | .vddKeepApply => true
  | .vddKeepLoss => true
  | .shadowPeriodStart d p => decide (d < 8) && decide (p < 8)
  | .shadowLoadDone d p => decide (d < 8) && decide (p < 8)
  | .spareCmd a d k => accessWf a && decide (d < 8) && decide (k < 256)
  | .spareTakeover d p => decide (d < 8) && decide (p < 8)
  | .displacementRampEnd d p => decide (d < 8) && decide (p < 8)
  | .srcEngineCheck d e _ => decide (d < 8) && decide (e < 6)
  | .sapArm a d m => accessWf a && decide (d < 8) && decide (m < 10)
  | .sapDisarm a d m => accessWf a && decide (d < 8) && decide (m < 10)
  | .sapStop a d m => accessWf a && decide (d < 8) && decide (m < 10)
  | .sapMute a d m _ => accessWf a && decide (d < 8) && decide (m < 10)
  | .sapTrig a d _ => accessWf a && decide (d < 8)
  | .startPinEdge => true
  | .sapTriggerPulse d m => decide (d < 8) && decide (m < 10)
  | .sapFrameZero d m _ _ => decide (d < 8) && decide (m < 10)
  | .sapFrame d m _ _ => decide (d < 8) && decide (m < 10)
  | .sapRingTransfer d m _ => decide (d < 8) && decide (m < 10)
  | .sapMaskWrite a d m _ _ => accessWf a && decide (d < 8) && decide (m < 10)
  | .sapClockLoss d m _ => decide (d < 8) && decide (m < 10)
  | .sapClockRecover d m => decide (d < 8) && decide (m < 10)
  | .biphaseLock d m _ => decide (d < 8) && decide (m < 4)
  | .biphaseBlockRx d m _ _ => decide (d < 8) && decide (m < 4)
  | .biphaseBlockTx d m => decide (d < 8) && decide (m < 4)
  | .csnewRelease a d m => accessWf a && decide (d < 8) && decide (m < 4)
  | .srcEntryWrite a d e _ => accessWf a && decide (d < 8) && decide (e < 6)
  | .srcRatioLock d m _ _ => decide (d < 8) && decide (m < 10)
  | .srcRelock d m _ => decide (d < 8) && decide (m < 10)
  | .clksteerEnable a _ => accessWf a
  | .clksteerSelWrite a _ => accessWf a
  | .clksteerLock => true
  | .meterCfgWrite a d m _ => accessWf a && decide (d < 8) && decide (m < 512)
  | .meterBlockEnd d m => decide (d < 8) && decide (m < 512)
  | .meterHoldclr a d m => accessWf a && decide (d < 8) && decide (m < 512)
  | .detectorWrite a d _ => accessWf a && decide (d < 8)
  | .parkEntryWrite a d p _ _ => accessWf a && decide (d < 8) && decide (p < 8)
  | .podResume d p => decide (d < 8) && decide (p < 8)
  | .lookaheadWrite a d n _ => accessWf a && decide (d < 8) && decide (n < 64)
  | .genArm a d c _ => accessWf a && decide (d < 8) && decide (c < 8)
  | .genStop a d c => accessWf a && decide (d < 8) && decide (c < 8)
  | .genTrigger d c => decide (d < 8) && decide (c < 8)
  | .genDone d c => decide (d < 8) && decide (c < 8)
  | .linkEnable a d => accessWf a && decide (d < 8)
  | .linkRetrain a d => accessWf a && decide (d < 8)
  | .linkTrainStep d _ _ _ c => decide (d < 8) && c.heads.all fun l => l.all fun h => decide (h < 16) || h = 0x1A
  | .linkTrainRestart d => decide (d < 8)
  | .linkWaketx a d => accessWf a && decide (d < 8)
  | .linkFrameRx d _ _ _ => decide (d < 8)
  | .linkFrameFail d _ _ => decide (d < 8)
  | .linkTimeLock => true
  | .linkRdreq d p _ => decide (d < 8) && arrivalWf p
  | .linkWrreq d p _ _ => decide (d < 8) && arrivalWf p
  | .linkRdrsp d p => decide (d < 8) && arrivalWf p
  | .linkWrack d p => decide (d < 8) && arrivalWf p
  | .linkSwapPacket d p _ => decide (d < 8) && arrivalWf p
  | .linkStartPacket d p _ => decide (d < 8) && arrivalWf p
  | .linkHostPacket d p _ => decide (d < 8) && arrivalWf p
  | .linkPacketRoute d p _ => decide (d < 8) && arrivalWf p
  | .linkPacketTimeout d _ => decide (d < 8)
  | .linkRemoteGo a d _ words => accessWf a && decide (d < 8) && decide (words < 64)
  | .linkRemoteTimeout d => decide (d < 8)
  | .linkStartGo a d num => accessWf a && decide (d < 8) && decide (num < 16)
  | .linkTswapGo a d => accessWf a && decide (d < 8)
  | .linkExportSwitch d => decide (d < 8)
  | .linkRtswapGo a => accessWf a
  | .linkRouteSwitch => true
  | .linkRtholdEnd => true
  | .linkDelayMeasure d _ => decide (d < 8)
  | .linkDelayEcho d _ => decide (d < 8)
  | .linkSpareRequest d lane hs _ => decide (d < 8) && decide (lane < 3) && hs.all fun h => decide (h < 16) || h = 0x1A
  | .linkSpareBlock d _ lane _ => decide (d < 8) && decide (lane < 3)
  | .linkSpareSwitch d _ => decide (d < 8)
  | .linkLoss d _ => decide (d < 8)
  | .linkIdWrite a _ => accessWf a
  | .cspStage a d n _ => accessWf a && decide (d < 8) && decide (n < 6)
  | .cspPush a d _ => accessWf a && decide (d < 8)
  | .cspEnable a d _ => accessWf a && decide (d < 8)
  | .cspAbort a d => accessWf a && decide (d < 8)
  | .cspEntryStart d => decide (d < 8)
  | .cspEntryDone d _ => decide (d < 8)
  | .cspModf d _ _ => decide (d < 8)
  | .cspModfClear a d => accessWf a && decide (d < 8)
  | .cspCfgWrite a d _ => accessWf a && decide (d < 8)
  | .cspTargetSelect => true
  | .cspTargetCommand cmd addr => decide (cmd < 256) && decide (addr < 0x100000000)
  | .cspTargetReadWord _ => true
  | .cspTargetWriteWord _ _ => true
  | .cspTargetRelease _ => true
  | .registerWrite a addr _ => accessWf a && decide (addr < 0x10000000000)
  | .nominalTickFrame d => decide (d < 8)
  | .huskDeferredExit => true
  | .stewardDebugHalt d i => decide (d < 8) && decide (i < 2)
  | .debugFuseProgram o => fuseWf o

end Sys2Proof
end

