-- ==== Sys2Proof/Certificates/Slice0/Obligations.lean ====
section
/-! DEFINITION. The statements for the provers. Where a statement rests on a choice of the model, its docstring names the
entry of the assumption log. -/
open Sys2Proof Sys2Proof.Machine

/-- Where a core executes ADD, ADDC, SUB or SUBC with W = 0, the destination takes the sum or difference modulo 2^32;
CMP writes no register. Z, N, C and V follow the result by the no-borrow convention, V also sets VS, and SAT and DZ
stay. It says where each of these commands completes with its effect: ADD, ADDC, SUB, SUBC, CMP. -/
def Obligations.AluAddAndSubtract : Prop :=
  (∀ (s : State) (c : CoreRef) (m : Mode) (cd : Cond) (cb : Nat) (dd ds1 : Nat) (s2 : Src2),
    let r := slotRegs s c m
    let x := rf r.d ds1
    let y := src2 r s2
    let v : Word := x + y
    let e : Int := x.toInt + y.toInt
    slotRuns s c m ⟨cd, cb, .binD .add dd ds1 s2⟩ = true →
    ∃ u, exec (.add c) s = .next u ∧ rf (regsOf u c).d dd = v ∧
      (regsOf u c).flg = mkFlg (decide (v = 0)) v.msb (decide (2 ^ 32 ≤ x.toNat + y.toNat)) (outOfRange 32 e)
        (flagVS r.flg || outOfRange 32 e) (flagSAT r.flg) (flagDZ r.flg)) ∧
  (∀ (s : State) (c : CoreRef) (m : Mode) (cd : Cond) (cb : Nat) (dd ds1 : Nat) (s2 : Src2),
    let r := slotRegs s c m
    let x := rf r.d ds1
    let y := src2 r s2
    let v : Word := x + y + (BitVec.ofNat 32 (flagC r.flg).toNat)
    let e : Int := x.toInt + y.toInt + ((flagC r.flg).toNat : Int)
    slotRuns s c m ⟨cd, cb, .binD .addc dd ds1 s2⟩ = true →
    ∃ u, exec (.addc c) s = .next u ∧ rf (regsOf u c).d dd = v ∧
      (regsOf u c).flg = mkFlg (decide (v = 0)) v.msb (decide (2 ^ 32 ≤ x.toNat + y.toNat + (flagC r.flg).toNat)) (outOfRange 32 e)
        (flagVS r.flg || outOfRange 32 e) (flagSAT r.flg) (flagDZ r.flg)) ∧
  (∀ (s : State) (c : CoreRef) (m : Mode) (cd : Cond) (cb : Nat) (dd ds1 : Nat) (s2 : Src2),
    let r := slotRegs s c m
    let x := rf r.d ds1
    let y := src2 r s2
    let v : Word := x - y
    let e : Int := x.toInt - y.toInt
    slotRuns s c m ⟨cd, cb, .binD .sub dd ds1 s2⟩ = true →
    ∃ u, exec (.sub c) s = .next u ∧ rf (regsOf u c).d dd = v ∧
      (regsOf u c).flg = mkFlg (decide (v = 0)) v.msb (decide (y.toNat ≤ x.toNat)) (outOfRange 32 e)
        (flagVS r.flg || outOfRange 32 e) (flagSAT r.flg) (flagDZ r.flg)) ∧
  (∀ (s : State) (c : CoreRef) (m : Mode) (cd : Cond) (cb : Nat) (dd ds1 : Nat) (s2 : Src2),
    let r := slotRegs s c m
    let x := rf r.d ds1
    let y := src2 r s2
    let v : Word := x - y - (BitVec.ofNat 32 (!flagC r.flg).toNat)
    let e : Int := x.toInt - y.toInt - ((!flagC r.flg).toNat : Int)
    slotRuns s c m ⟨cd, cb, .binD .subc dd ds1 s2⟩ = true →
    ∃ u, exec (.subc c) s = .next u ∧ rf (regsOf u c).d dd = v ∧
      (regsOf u c).flg = mkFlg (decide (v = 0)) v.msb (decide (y.toNat + (!flagC r.flg).toNat ≤ x.toNat)) (outOfRange 32 e)
        (flagVS r.flg || outOfRange 32 e) (flagSAT r.flg) (flagDZ r.flg)) ∧
  (∀ (s : State) (c : CoreRef) (m : Mode) (cd : Cond) (cb : Nat) (dd ds1 : Nat) (s2 : Src2),
    let r := slotRegs s c m
    let x := rf r.d ds1
    let y := src2 r s2
    let v : Word := x - y
    let e : Int := x.toInt - y.toInt
    slotRuns s c m ⟨cd, cb, .binD .cmp dd ds1 s2⟩ = true →
    ∃ u, exec (.cmp c) s = .next u ∧ (regsOf u c).d = r.d ∧
      (regsOf u c).flg = mkFlg (decide (v = 0)) v.msb (decide (y.toNat ≤ x.toNat)) (outOfRange 32 e)
        (flagVS r.flg || outOfRange 32 e) (flagSAT r.flg) (flagDZ r.flg))

/-- Where a core executes AND, OR, XOR or NOT with W = 0, the destination takes the bitwise result and C stays; TST
writes no register and clears C; MIN and MAX take op2 only where it is strictly less or greater, which C then says. V is
cleared, and VS, SAT and DZ stay. It says where each of these commands completes with its effect: AND, OR, XOR, NOT,
TST, MIN, MAX. -/
def Obligations.AluLogicMinMax : Prop :=
  (∀ (s : State) (c : CoreRef) (m : Mode) (cd : Cond) (cb : Nat) (dd ds1 : Nat) (s2 : Src2),
    let r := slotRegs s c m
    let x := rf r.d ds1
    let y := src2 r s2
    let v : Word := (x &&& y)
    slotRuns s c m ⟨cd, cb, .binD .and dd ds1 s2⟩ = true →
    ∃ u, exec (.and c) s = .next u ∧ rf (regsOf u c).d dd = v ∧
      (regsOf u c).flg = mkFlg (decide (v = 0)) v.msb (flagC r.flg) false (flagVS r.flg) (flagSAT r.flg) (flagDZ r.flg)) ∧
  (∀ (s : State) (c : CoreRef) (m : Mode) (cd : Cond) (cb : Nat) (dd ds1 : Nat) (s2 : Src2),
    let r := slotRegs s c m
    let x := rf r.d ds1
    let y := src2 r s2
    let v : Word := (x ||| y)
    slotRuns s c m ⟨cd, cb, .binD .or dd ds1 s2⟩ = true →
    ∃ u, exec (.or c) s = .next u ∧ rf (regsOf u c).d dd = v ∧
      (regsOf u c).flg = mkFlg (decide (v = 0)) v.msb (flagC r.flg) false (flagVS r.flg) (flagSAT r.flg) (flagDZ r.flg)) ∧
  (∀ (s : State) (c : CoreRef) (m : Mode) (cd : Cond) (cb : Nat) (dd ds1 : Nat) (s2 : Src2),
    let r := slotRegs s c m
    let x := rf r.d ds1
    let y := src2 r s2
    let v : Word := (x ^^^ y)
    slotRuns s c m ⟨cd, cb, .binD .xor dd ds1 s2⟩ = true →
    ∃ u, exec (.xor c) s = .next u ∧ rf (regsOf u c).d dd = v ∧
      (regsOf u c).flg = mkFlg (decide (v = 0)) v.msb (flagC r.flg) false (flagVS r.flg) (flagSAT r.flg) (flagDZ r.flg)) ∧
  (∀ (s : State) (c : CoreRef) (m : Mode) (cd : Cond) (cb dd ds : Nat),
    let r := slotRegs s c m
    let x := rf r.d ds
    let v : Word := (~~~x)
    slotRuns s c m ⟨cd, cb, .unD .not dd ds⟩ = true →
    ∃ u, exec (.not c) s = .next u ∧ rf (regsOf u c).d dd = v ∧
      (regsOf u c).flg = mkFlg (decide (v = 0)) v.msb (flagC r.flg) false (flagVS r.flg) (flagSAT r.flg) (flagDZ r.flg)) ∧
  (∀ (s : State) (c : CoreRef) (m : Mode) (cd : Cond) (cb : Nat) (dd ds1 : Nat) (s2 : Src2),
    let r := slotRegs s c m
    let x := rf r.d ds1
    let v : Word := x
    slotRuns s c m ⟨cd, cb, .binD .tst dd ds1 s2⟩ = true →
    ∃ u, exec (.tst c) s = .next u ∧ (regsOf u c).d = r.d ∧
      (regsOf u c).flg = mkFlg (decide (v = 0)) v.msb (false) false (flagVS r.flg) (flagSAT r.flg) (flagDZ r.flg)) ∧
  (∀ (s : State) (c : CoreRef) (m : Mode) (cd : Cond) (cb : Nat) (dd ds1 : Nat) (s2 : Src2),
    let r := slotRegs s c m
    let x := rf r.d ds1
    let y := src2 r s2
    let v : Word := (if y.toInt < x.toInt then y else x)
    slotRuns s c m ⟨cd, cb, .binD .min dd ds1 s2⟩ = true →
    ∃ u, exec (.min c) s = .next u ∧ rf (regsOf u c).d dd = v ∧
      (regsOf u c).flg = mkFlg (decide (v = 0)) v.msb (decide (y.toInt < x.toInt)) false (flagVS r.flg) (flagSAT r.flg) (flagDZ r.flg)) ∧
  (∀ (s : State) (c : CoreRef) (m : Mode) (cd : Cond) (cb : Nat) (dd ds1 : Nat) (s2 : Src2),
    let r := slotRegs s c m
    let x := rf r.d ds1
    let y := src2 r s2
    let v : Word := (if x.toInt < y.toInt then y else x)
    slotRuns s c m ⟨cd, cb, .binD .max dd ds1 s2⟩ = true →
    ∃ u, exec (.max c) s = .next u ∧ rf (regsOf u c).d dd = v ∧
      (regsOf u c).flg = mkFlg (decide (v = 0)) v.msb (decide (x.toInt < y.toInt)) false (flagVS r.flg) (flagSAT r.flg) (flagDZ r.flg))

/-- ASH shifts by the signed count in op2[7:0], arithmetically, and on the left saturates under SATMODE where the value
leaves the range; LSH shifts in zeros. NEG and ABS send 0x8000_0000 to 0x7FFF_FFFF and set V, VS and SAT whatever
SATMODE holds; ABS leaves C. SAT clamps to the range of a 24-bit sample. NORM counts the redundant sign bits. DIV rounds
its quotient toward zero. A zero divisor gives the most positive value, the most negative value or 0 by the sign of the
dividend, sets DZ and clears V; a quotient outside 32 bits saturates and sets V, VS and SAT. C is unchanged, and the
operation costs 20 steps. It says where each of these commands completes with its effect: ASH, LSH, NEG, ABS, SAT, NORM,
DIV. -/
def Obligations.ShiftsUnaryAndDivide : Prop :=
  (∀ (s : State) (c : CoreRef) (m : Mode) (cd : Cond) (cb : Nat) (dd ds1 : Nat) (s2 : Src2),
    let r := slotRegs s c m
    let x := rf r.d ds1
    let n := count8 (src2 r s2)
    slotRuns s c m ⟨cd, cb, .binD .ash dd ds1 s2⟩ = true →
    ∃ u, exec (.ash c) s = .next u ∧
      ((n = 0 → rf (regsOf u c).d dd = x) ∧
        (n < 0 → rf (regsOf u c).d dd = BitVec.ofInt 32 (x.toInt / (2 ^ (-n).toNat : Nat))) ∧
        (0 < n → rf (regsOf u c).d dd =
          if outOfRange 32 (x.toInt * (2 ^ n.toNat : Nat)) && satMode r then (if x.msb then 0x80000000 else 0x7FFFFFFF)
          else BitVec.ofInt 32 (x.toInt * (2 ^ n.toNat : Nat))) ∧
        (flagV (regsOf u c).flg ↔ 0 < n ∧ outOfRange 32 (x.toInt * (2 ^ n.toNat : Nat)) = true) ∧
        (n = 0 → flagC (regsOf u c).flg = flagC r.flg))) ∧
  (∀ (s : State) (c : CoreRef) (m : Mode) (cd : Cond) (cb : Nat) (dd ds1 : Nat) (s2 : Src2),
    let r := slotRegs s c m
    let x := rf r.d ds1
    let n := count8 (src2 r s2)
    slotRuns s c m ⟨cd, cb, .binD .lsh dd ds1 s2⟩ = true →
    ∃ u, exec (.lsh c) s = .next u ∧
      (rf (regsOf u c).d dd =
          (if n < 0 then BitVec.ofNat 32 (x.toNat / 2 ^ (-n).toNat) else BitVec.ofNat 32 (x.toNat * 2 ^ n.toNat)) ∧
        flagV (regsOf u c).flg = false ∧ (n = 0 → flagC (regsOf u c).flg = flagC r.flg))) ∧
  (∀ (s : State) (c : CoreRef) (m : Mode) (cd : Cond) (cb dd ds : Nat),
    let r := slotRegs s c m
    let x := rf r.d ds
    slotRuns s c m ⟨cd, cb, .unD .neg dd ds⟩ = true →
    ∃ u, exec (.neg c) s = .next u ∧
      (x = 0x80000000 → rf (regsOf u c).d dd = 0x7FFFFFFF ∧ flagV (regsOf u c).flg = true ∧
          flagVS (regsOf u c).flg = true ∧ flagSAT (regsOf u c).flg = true) ∧
      (x ≠ 0x80000000 → rf (regsOf u c).d dd = -x ∧ flagC (regsOf u c).flg = decide (x = 0)) ∧
      flagZ (regsOf u c).flg = decide (rf (regsOf u c).d dd = 0) ∧ flagN (regsOf u c).flg = (rf (regsOf u c).d dd).msb) ∧
  (∀ (s : State) (c : CoreRef) (m : Mode) (cd : Cond) (cb dd ds : Nat),
    let r := slotRegs s c m
    let x := rf r.d ds
    slotRuns s c m ⟨cd, cb, .unD .abs dd ds⟩ = true →
    ∃ u, exec (.abs c) s = .next u ∧
      (x = 0x80000000 → rf (regsOf u c).d dd = 0x7FFFFFFF ∧ flagV (regsOf u c).flg = true ∧
          flagVS (regsOf u c).flg = true ∧ flagSAT (regsOf u c).flg = true) ∧
      (x ≠ 0x80000000 → rf (regsOf u c).d dd = (if x.msb then -x else x)) ∧
      flagC (regsOf u c).flg = flagC r.flg ∧ flagZ (regsOf u c).flg = decide (rf (regsOf u c).d dd = 0) ∧ flagN (regsOf u c).flg = (rf (regsOf u c).d dd).msb) ∧
  (∀ (s : State) (c : CoreRef) (m : Mode) (cd : Cond) (cb dd ds : Nat),
    let r := slotRegs s c m
    let x := rf r.d ds
    slotRuns s c m ⟨cd, cb, .unD .sat dd ds⟩ = true →
    ∃ u, exec (.sat c) s = .next u ∧
      (rf (regsOf u c).d dd).toInt = max (-8388608) (min 8388607 x.toInt) ∧
      (flagV (regsOf u c).flg ↔ x.toInt < -8388608 ∨ 8388607 < x.toInt)) ∧
  (∀ (s : State) (c : CoreRef) (m : Mode) (cd : Cond) (cb dd ds : Nat),
    let r := slotRegs s c m
    let x := rf r.d ds
    slotRuns s c m ⟨cd, cb, .unD .norm dd ds⟩ = true →
    ∃ u, exec (.norm c) s = .next u ∧ rf (regsOf u c).d dd = BitVec.ofNat 32 (signBits x) ∧
      flagZ (regsOf u c).flg = decide (x = 0) ∧ flagC (regsOf u c).flg = flagC r.flg) ∧
  (∀ (s : State) (c : CoreRef) (m : Mode) (cd : Cond) (cb : Nat) (frac : Bool) (dd ds1 ds2 : Nat),
    let r := slotRegs s c m
    let x := rf r.d ds1
    let y := rf r.d ds2
    let q := (if frac then x.toInt * (2 ^ 31 : Nat) else x.toInt).tdiv y.toInt
    slotRuns s c m ⟨cd, cb, .div frac dd ds1 ds2⟩ = true →
    ∃ u, exec (.div c) s = .next u ∧
      (y = 0 → rf (regsOf u c).d dd = (if 0 < x.toInt then 0x7FFFFFFF else if x.toInt < 0 then 0x80000000 else 0) ∧
        flagDZ (regsOf u c).flg = true ∧ flagV (regsOf u c).flg = false) ∧
      (y ≠ 0 → outOfRange 32 q = false → (rf (regsOf u c).d dd).toInt = q ∧ flagV (regsOf u c).flg = false) ∧
      (y ≠ 0 → outOfRange 32 q = true → rf (regsOf u c).d dd = (if q < 0 then 0x80000000 else 0x7FFFFFFF) ∧
        flagV (regsOf u c).flg = true ∧ flagVS (regsOf u c).flg = true ∧ flagSAT (regsOf u c).flg = true) ∧
      flagC (regsOf u c).flg = flagC r.flg ∧
      ((coreOf (slotState s c m) c).annulMul = [] → (coreOf u c).steps = (coreOf (slotState s c m) c).steps + 20))

/-- With W = 1 the ALU works on 72 bits, a D register or immediate standing as Q1.31 in acc[63:32]. ADD, SUB and CMP set
V where the exact result leaves the 72-bit range; TST writes no register; MIN and MAX compare as signed numbers; ASH and
LSH shift by op2[7:0]; NEG and ABS saturate on the most negative value; SAT clamps to what a 32-bit store holds; NORM
counts from bit 63. It says where each of these commands completes with its effect: ADD, SUB, CMP, TST, MIN, MAX, ASH,
LSH, NEG, ABS, SAT, NORM. -/
def Obligations.AluAccumulatorForms : Prop :=
  (∀ (s : State) (c : CoreRef) (m : Mode) (cd : Cond) (cb : Nat) (ad as1 : Nat) (s2 : ASrc2),
    let r := slotRegs s c m
    let x := accOf r as1
    let y := asrc2 r s2
    let v : Acc := x + y
    let e : Int := x.toInt + y.toInt
    slotRuns s c m ⟨cd, cb, .binA .add ad as1 s2⟩ = true →
    ∃ u, exec (.add c) s = .next u ∧ accOf (regsOf u c) ad = v ∧
      flagZ (regsOf u c).flg = decide (v = 0) ∧ flagN (regsOf u c).flg = v.msb ∧
      flagV (regsOf u c).flg = outOfRange 72 e ∧ flagVS (regsOf u c).flg = (flagVS r.flg || outOfRange 72 e) ∧
      flagC (regsOf u c).flg = decide (2 ^ 72 ≤ x.toNat + y.toNat)) ∧
  (∀ (s : State) (c : CoreRef) (m : Mode) (cd : Cond) (cb : Nat) (ad as1 : Nat) (s2 : ASrc2),
    let r := slotRegs s c m
    let x := accOf r as1
    let y := asrc2 r s2
    let v : Acc := x - y
    let e : Int := x.toInt - y.toInt
    slotRuns s c m ⟨cd, cb, .binA .sub ad as1 s2⟩ = true →
    ∃ u, exec (.sub c) s = .next u ∧ accOf (regsOf u c) ad = v ∧
      flagZ (regsOf u c).flg = decide (v = 0) ∧ flagN (regsOf u c).flg = v.msb ∧
      flagV (regsOf u c).flg = outOfRange 72 e ∧ flagVS (regsOf u c).flg = (flagVS r.flg || outOfRange 72 e) ∧
      flagC (regsOf u c).flg = decide (y.toNat ≤ x.toNat)) ∧
  (∀ (s : State) (c : CoreRef) (m : Mode) (cd : Cond) (cb : Nat) (as1 : Nat) (s2 : ASrc2),
    let r := slotRegs s c m
    let x := accOf r as1
    let y := asrc2 r s2
    let v : Acc := x - y
    let e : Int := x.toInt - y.toInt
    slotRuns s c m ⟨cd, cb, .binA .cmp 0 as1 s2⟩ = true →
    ∃ u, exec (.cmp c) s = .next u ∧ (regsOf u c).a = r.a ∧
      flagZ (regsOf u c).flg = decide (v = 0) ∧ flagN (regsOf u c).flg = v.msb ∧
      flagV (regsOf u c).flg = outOfRange 72 e ∧ flagVS (regsOf u c).flg = (flagVS r.flg || outOfRange 72 e) ∧
      flagC (regsOf u c).flg = decide (y.toNat ≤ x.toNat)) ∧
  (∀ (s : State) (c : CoreRef) (m : Mode) (cd : Cond) (cb : Nat) (as1 : Nat) (s2 : ASrc2),
    let r := slotRegs s c m
    let x := accOf r as1
    slotRuns s c m ⟨cd, cb, .binA .tst 0 as1 s2⟩ = true →
    ∃ u, exec (.tst c) s = .next u ∧ (regsOf u c).a = r.a ∧ (regsOf u c).d = r.d ∧
      (regsOf u c).flg = mkFlg (decide (x = 0)) x.msb false false (flagVS r.flg) (flagSAT r.flg) (flagDZ r.flg)) ∧
  (∀ (s : State) (c : CoreRef) (m : Mode) (cd : Cond) (cb : Nat) (ad as1 : Nat) (s2 : ASrc2),
    let r := slotRegs s c m
    let x := accOf r as1
    let y := asrc2 r s2
    slotRuns s c m ⟨cd, cb, .binA .min ad as1 s2⟩ = true →
    ∃ u, exec (.min c) s = .next u ∧ accOf (regsOf u c) ad = (if y.toInt < x.toInt then y else x) ∧
      flagC (regsOf u c).flg = decide (y.toInt < x.toInt)) ∧
  (∀ (s : State) (c : CoreRef) (m : Mode) (cd : Cond) (cb : Nat) (ad as1 : Nat) (s2 : ASrc2),
    let r := slotRegs s c m
    let x := accOf r as1
    let y := asrc2 r s2
    slotRuns s c m ⟨cd, cb, .binA .max ad as1 s2⟩ = true →
    ∃ u, exec (.max c) s = .next u ∧ accOf (regsOf u c) ad = (if x.toInt < y.toInt then y else x) ∧
      flagC (regsOf u c).flg = decide (x.toInt < y.toInt)) ∧
  (∀ (s : State) (c : CoreRef) (m : Mode) (cd : Cond) (cb : Nat) (ad as1 : Nat) (s2 : ASrc2),
    let r := slotRegs s c m
    let x := accOf r as1
    let n := asrcCount r s2
    slotRuns s c m ⟨cd, cb, .binA .ash ad as1 s2⟩ = true →
    ∃ u, exec (.ash c) s = .next u ∧
      (n < 0 → accOf (regsOf u c) ad = BitVec.ofInt 72 (x.toInt / (2 ^ (-n).toNat : Nat))) ∧
      (0 ≤ n → accOf (regsOf u c) ad =
        if outOfRange 72 (x.toInt * (2 ^ n.toNat : Nat)) && satMode r then (if x.msb then minNeg 72 else maxPos 72)
        else BitVec.ofInt 72 (x.toInt * (2 ^ n.toNat : Nat)))) ∧
  (∀ (s : State) (c : CoreRef) (m : Mode) (cd : Cond) (cb : Nat) (ad as1 : Nat) (s2 : ASrc2),
    let r := slotRegs s c m
    let x := accOf r as1
    let n := asrcCount r s2
    slotRuns s c m ⟨cd, cb, .binA .lsh ad as1 s2⟩ = true →
    ∃ u, exec (.lsh c) s = .next u ∧ flagV (regsOf u c).flg = false ∧
      accOf (regsOf u c) ad =
        (if n < 0 then BitVec.ofNat 72 (x.toNat / 2 ^ (-n).toNat) else BitVec.ofNat 72 (x.toNat * 2 ^ n.toNat))) ∧
  (∀ (s : State) (c : CoreRef) (m : Mode) (cd : Cond) (cb ad as1 : Nat),
    let r := slotRegs s c m
    let x := accOf r as1
    slotRuns s c m ⟨cd, cb, .unA .neg ad as1⟩ = true →
    ∃ u, exec (.neg c) s = .next u ∧
      (x = minNeg 72 → accOf (regsOf u c) ad = maxPos 72 ∧ flagV (regsOf u c).flg = true ∧ flagSAT (regsOf u c).flg = true) ∧ (x ≠ minNeg 72 → accOf (regsOf u c) ad = -x)) ∧
  (∀ (s : State) (c : CoreRef) (m : Mode) (cd : Cond) (cb ad as1 : Nat),
    let r := slotRegs s c m
    let x := accOf r as1
    slotRuns s c m ⟨cd, cb, .unA .abs ad as1⟩ = true →
    ∃ u, exec (.abs c) s = .next u ∧
      (x = minNeg 72 → accOf (regsOf u c) ad = maxPos 72 ∧ flagV (regsOf u c).flg = true ∧ flagSAT (regsOf u c).flg = true) ∧
      (x ≠ minNeg 72 → accOf (regsOf u c) ad = if x.msb then -x else x)) ∧
  (∀ (s : State) (c : CoreRef) (m : Mode) (cd : Cond) (cb ad as1 : Nat),
    let r := slotRegs s c m
    let x := accOf r as1
    slotRuns s c m ⟨cd, cb, .unA .sat ad as1⟩ = true →
    ∃ u, exec (.sat c) s = .next u ∧
      (accOf (regsOf u c) ad).toInt = max (-(2 ^ 63)) (min (2 ^ 63 - 1) x.toInt) ∧
      (flagV (regsOf u c).flg ↔ x.toInt < -(2 ^ 63) ∨ 2 ^ 63 ≤ x.toInt)) ∧
  (∀ (s : State) (c : CoreRef) (m : Mode) (cd : Cond) (cb dd as1 : Nat),
    let r := slotRegs s c m
    let x := accOf r as1
    slotRuns s c m ⟨cd, cb, .normA dd as1⟩ = true →
    ∃ u, exec (.norm c) s = .next u ∧
      rf (regsOf u c).d dd = BitVec.ofInt 32 ((signBits x : Int) - 8) ∧ flagZ (regsOf u c).flg = decide (x = 0) ∧
      flagN (regsOf u c).flg = decide (signBits x < 8))

/-- Each bit operation gives its bit operand the value that the rule names; an operand that is read-only is left
unchanged without a fault. BTST writes no operand: C takes the bit and Z its complement. It says where each of these
commands completes with its effect: BSET, BCLR, BNOT, BTST, BAND, BOR, BXOR, BMOV. -/
def Obligations.BitOperations : Prop :=
  (∀ (s : State) (c : CoreRef) (m : Mode) (cd : Cond) (cb : Nat) (bd bs : BitOp),
    slotRuns s c m ⟨cd, cb, .bit .bset bd bs⟩ = true →
    ∃ u, exec (.bset c) s = .next u ∧
      (bitWritable bd = true → readBitOp u c bd = true) ∧
      (bitReadOnly bd = true → (regsOf u c).d = (slotRegs s c m).d ∧
        (regsOf u c).flg = (slotRegs s c m).flg ∧ (coreOf u c).bits = (coreOf (slotState s c m) c).bits)) ∧
  (∀ (s : State) (c : CoreRef) (m : Mode) (cd : Cond) (cb : Nat) (bd bs : BitOp),
    slotRuns s c m ⟨cd, cb, .bit .bclr bd bs⟩ = true →
    ∃ u, exec (.bclr c) s = .next u ∧
      (bitWritable bd = true → readBitOp u c bd = false) ∧
      (bitReadOnly bd = true → (regsOf u c).d = (slotRegs s c m).d ∧
        (regsOf u c).flg = (slotRegs s c m).flg ∧ (coreOf u c).bits = (coreOf (slotState s c m) c).bits)) ∧
  (∀ (s : State) (c : CoreRef) (m : Mode) (cd : Cond) (cb : Nat) (bd bs : BitOp),
    let b := readBitOp (slotState s c m) c bd
    slotRuns s c m ⟨cd, cb, .bit .bnot bd bs⟩ = true →
    ∃ u, exec (.bnot c) s = .next u ∧
      (bitWritable bd = true → readBitOp u c bd = !b) ∧
      (bitReadOnly bd = true → (regsOf u c).d = (slotRegs s c m).d ∧
        (regsOf u c).flg = (slotRegs s c m).flg ∧ (coreOf u c).bits = (coreOf (slotState s c m) c).bits)) ∧
  (∀ (s : State) (c : CoreRef) (m : Mode) (cd : Cond) (cb : Nat) (bd bs : BitOp),
    let b := readBitOp (slotState s c m) c bd
    slotRuns s c m ⟨cd, cb, .bit .btst bd bs⟩ = true →
    ∃ u, exec (.btst c) s = .next u ∧ flagC (regsOf u c).flg = b ∧ flagZ (regsOf u c).flg = !b ∧
      (regsOf u c).d = (slotRegs s c m).d ∧ (coreOf u c).bits = (coreOf (slotState s c m) c).bits) ∧
  (∀ (s : State) (c : CoreRef) (m : Mode) (cd : Cond) (cb : Nat) (bd bs : BitOp),
    let b := readBitOp (slotState s c m) c bd
    let e := readBitOp (slotState s c m) c bs
    slotRuns s c m ⟨cd, cb, .bit .band bd bs⟩ = true →
    ∃ u, exec (.band c) s = .next u ∧
      (bitWritable bd = true → readBitOp u c bd = (b && e)) ∧
      (bitReadOnly bd = true → (regsOf u c).d = (slotRegs s c m).d ∧
        (regsOf u c).flg = (slotRegs s c m).flg ∧ (coreOf u c).bits = (coreOf (slotState s c m) c).bits)) ∧
  (∀ (s : State) (c : CoreRef) (m : Mode) (cd : Cond) (cb : Nat) (bd bs : BitOp),
    let b := readBitOp (slotState s c m) c bd
    let e := readBitOp (slotState s c m) c bs
    slotRuns s c m ⟨cd, cb, .bit .bor bd bs⟩ = true →
    ∃ u, exec (.bor c) s = .next u ∧
      (bitWritable bd = true → readBitOp u c bd = (b || e)) ∧
      (bitReadOnly bd = true → (regsOf u c).d = (slotRegs s c m).d ∧
        (regsOf u c).flg = (slotRegs s c m).flg ∧ (coreOf u c).bits = (coreOf (slotState s c m) c).bits)) ∧
  (∀ (s : State) (c : CoreRef) (m : Mode) (cd : Cond) (cb : Nat) (bd bs : BitOp),
    let b := readBitOp (slotState s c m) c bd
    let e := readBitOp (slotState s c m) c bs
    slotRuns s c m ⟨cd, cb, .bit .bxor bd bs⟩ = true →
    ∃ u, exec (.bxor c) s = .next u ∧
      (bitWritable bd = true → readBitOp u c bd = (b ^^ e)) ∧
      (bitReadOnly bd = true → (regsOf u c).d = (slotRegs s c m).d ∧
        (regsOf u c).flg = (slotRegs s c m).flg ∧ (coreOf u c).bits = (coreOf (slotState s c m) c).bits)) ∧
  (∀ (s : State) (c : CoreRef) (m : Mode) (cd : Cond) (cb : Nat) (bd bs : BitOp),
    let e := readBitOp (slotState s c m) c bs
    slotRuns s c m ⟨cd, cb, .bit .bmov bd bs⟩ = true →
    ∃ u, exec (.bmov c) s = .next u ∧
      (bitWritable bd = true → readBitOp u c bd = e) ∧
      (bitReadOnly bd = true → (regsOf u c).d = (slotRegs s c m).d ∧
        (regsOf u c).flg = (slotRegs s c m).flg ∧ (coreOf u c).bits = (coreOf (slotState s c m) c).bits))

/-- Where both operands are read, the accumulator takes the exact product (doubled in the fractional form; for MPYU
never shifted), added to or subtracted from it for MAC and MSU, modulo 2^72; Z and N follow it. V is set where a
parallel move stores an accumulator that does not fit 32 bits, and for MAC and MSU also where the exact value left the
72-bit range; otherwise V is clear. It says where each of these commands completes with its effect: MPY, MPYU, MAC, MSU.
-/
def Obligations.MultiplyAndAccumulate : Prop :=
  (∀ (s : State) (c : CoreRef) (m : Mode) (cd : Cond) (cb : Nat) (n : Nat) (s1 s2 : DualOp) (int : Bool) (pm : PMove) (x y : Word) (v w : State),
    let r := regsOf w c
    let p : Int := (if int then x.toInt * y.toInt else x.toInt * y.toInt * 2)
    slotRuns s c m ⟨cd, cb, .mul .mpy n s1 s2 int pm⟩ = true → readDual (slotState s c m) c s1 = .ok x v →
    readDual v c s2 = .ok y w → w.wf = true →
    ∃ u, exec (.mpy c) s = .next u ∧ accOf (regsOf u c) n = BitVec.ofInt 72 p ∧
      flagZ (regsOf u c).flg = decide (BitVec.ofInt 72 p = 0) ∧ flagN (regsOf u c).flg = (BitVec.ofInt 72 p).msb ∧
      flagV (regsOf u c).flg = moveSetsV r pm) ∧
  (∀ (s : State) (c : CoreRef) (m : Mode) (cd : Cond) (cb : Nat) (n : Nat) (s1 s2 : DualOp) (int : Bool) (pm : PMove) (x y : Word) (v w : State),
    let r := regsOf w c
    let p : Int := if int then (x.toNat : Int) * y.toNat else x.toInt * y.toNat
    slotRuns s c m ⟨cd, cb, .mul .mpyu n s1 s2 int pm⟩ = true → readDual (slotState s c m) c s1 = .ok x v →
    readDual v c s2 = .ok y w → w.wf = true →
    ∃ u, exec (.mpyu c) s = .next u ∧ accOf (regsOf u c) n = BitVec.ofInt 72 p ∧
      flagZ (regsOf u c).flg = decide (BitVec.ofInt 72 p = 0) ∧ flagN (regsOf u c).flg = (BitVec.ofInt 72 p).msb ∧
      flagV (regsOf u c).flg = moveSetsV r pm) ∧
  (∀ (s : State) (c : CoreRef) (m : Mode) (cd : Cond) (cb : Nat) (n : Nat) (s1 s2 : DualOp) (int : Bool) (pm : PMove) (x y : Word) (v w : State),
    let r := regsOf w c
    let p : Int := (accOf r n).toInt + (if int then x.toInt * y.toInt else x.toInt * y.toInt * 2)
    slotRuns s c m ⟨cd, cb, .mul .mac n s1 s2 int pm⟩ = true → readDual (slotState s c m) c s1 = .ok x v →
    readDual v c s2 = .ok y w → w.wf = true →
    ∃ u, exec (.mac c) s = .next u ∧ accOf (regsOf u c) n = BitVec.ofInt 72 p ∧
      flagZ (regsOf u c).flg = decide (BitVec.ofInt 72 p = 0) ∧ flagN (regsOf u c).flg = (BitVec.ofInt 72 p).msb ∧
      flagV (regsOf u c).flg = (outOfRange 72 p || moveSetsV r pm)) ∧
  (∀ (s : State) (c : CoreRef) (m : Mode) (cd : Cond) (cb : Nat) (n : Nat) (s1 s2 : DualOp) (int : Bool) (pm : PMove) (x y : Word) (v w : State),
    let r := regsOf w c
    let p : Int := (accOf r n).toInt - (if int then x.toInt * y.toInt else x.toInt * y.toInt * 2)
    slotRuns s c m ⟨cd, cb, .mul .msu n s1 s2 int pm⟩ = true → readDual (slotState s c m) c s1 = .ok x v →
    readDual v c s2 = .ok y w → w.wf = true →
    ∃ u, exec (.msu c) s = .next u ∧ accOf (regsOf u c) n = BitVec.ofInt 72 p ∧
      flagZ (regsOf u c).flg = decide (BitVec.ofInt 72 p = 0) ∧ flagN (regsOf u c).flg = (BitVec.ofInt 72 p).msb ∧
      flagV (regsOf u c).flg = (outOfRange 72 p || moveSetsV r pm))

/-- Where both operand pairs are read, the accumulator pair takes the exact complex product of doubled fractional
products, or the pair plus it, minus it, or plus the product with the conjugate of S2; BFLY writes the sum to its own
pair and the difference to the other pair. Z is 1 only when both parts are 0, N follows the real part, and V is set
where an accumulator written overflows or a parallel move stores one that does not fit 32 bits. A search step compares
its operand with the running extreme in Dd as signed numbers, MAXAI by magnitude against Dd as a signed number
(assumption log 23): where the operand wins, Dd takes it and IX the address it was read from (IX stays for a register
operand), and C is 1; otherwise both stay and C is 0. V is set where a parallel move stores an accumulator that does not
fit 32 bits, and by MAXAI for the operand 0x8000_0000; otherwise it is clear. It says where each of these commands
completes with its effect: CMPY, CMAC, CMSU, CMACJ, BFLY, MAXI, MINI, MAXAI. -/
def Obligations.ComplexMultiplyAndSearch : Prop :=
  (∀ (s : State) (c : CoreRef) (m : Mode) (cd : Cond) (cb : Nat) (n : Nat) (s1 s2 : DualOp) (pm : PMove) (x y : Word × Word) (v w : State),
    let r := regsOf w c
    let pr : Int := x.1.toInt * y.1.toInt * 2 - x.2.toInt * y.2.toInt * 2
    let qi : Int := x.1.toInt * y.2.toInt * 2 + x.2.toInt * y.1.toInt * 2
    let re : Int := pr
    let im : Int := qi
    slotRuns s c m ⟨cd, cb, .mul .cmpy n s1 s2 false pm⟩ = true → readPair (slotState s c m) c s1 = .ok x v →
    readPair v c s2 = .ok y w → w.wf = true →
    ∃ u, exec (.cmpy c) s = .next u ∧
      accOf (regsOf u c) n = BitVec.ofInt 72 re ∧ accOf (regsOf u c) (n + 1) = BitVec.ofInt 72 im ∧
      flagZ (regsOf u c).flg = (decide (BitVec.ofInt 72 re = 0) && decide (BitVec.ofInt 72 im = 0)) ∧
      flagN (regsOf u c).flg = (BitVec.ofInt 72 re).msb ∧
      flagV (regsOf u c).flg = (moveSetsV r pm)) ∧
  (∀ (s : State) (c : CoreRef) (m : Mode) (cd : Cond) (cb : Nat) (n : Nat) (s1 s2 : DualOp) (pm : PMove) (x y : Word × Word) (v w : State),
    let r := regsOf w c
    let pr : Int := x.1.toInt * y.1.toInt * 2 - x.2.toInt * y.2.toInt * 2
    let qi : Int := x.1.toInt * y.2.toInt * 2 + x.2.toInt * y.1.toInt * 2
    let re : Int := (accOf r n).toInt + pr
    let im : Int := (accOf r (n + 1)).toInt + qi
    slotRuns s c m ⟨cd, cb, .mul .cmac n s1 s2 false pm⟩ = true → readPair (slotState s c m) c s1 = .ok x v →
    readPair v c s2 = .ok y w → w.wf = true →
    ∃ u, exec (.cmac c) s = .next u ∧
      accOf (regsOf u c) n = BitVec.ofInt 72 re ∧ accOf (regsOf u c) (n + 1) = BitVec.ofInt 72 im ∧
      flagZ (regsOf u c).flg = (decide (BitVec.ofInt 72 re = 0) && decide (BitVec.ofInt 72 im = 0)) ∧
      flagN (regsOf u c).flg = (BitVec.ofInt 72 re).msb ∧
      flagV (regsOf u c).flg = (outOfRange 72 re || outOfRange 72 im || moveSetsV r pm)) ∧
  (∀ (s : State) (c : CoreRef) (m : Mode) (cd : Cond) (cb : Nat) (n : Nat) (s1 s2 : DualOp) (pm : PMove) (x y : Word × Word) (v w : State),
    let r := regsOf w c
    let pr : Int := x.1.toInt * y.1.toInt * 2 - x.2.toInt * y.2.toInt * 2
    let qi : Int := x.1.toInt * y.2.toInt * 2 + x.2.toInt * y.1.toInt * 2
    let re : Int := (accOf r n).toInt - pr
    let im : Int := (accOf r (n + 1)).toInt - qi
    slotRuns s c m ⟨cd, cb, .mul .cmsu n s1 s2 false pm⟩ = true → readPair (slotState s c m) c s1 = .ok x v →
    readPair v c s2 = .ok y w → w.wf = true →
    ∃ u, exec (.cmsu c) s = .next u ∧
      accOf (regsOf u c) n = BitVec.ofInt 72 re ∧ accOf (regsOf u c) (n + 1) = BitVec.ofInt 72 im ∧
      flagZ (regsOf u c).flg = (decide (BitVec.ofInt 72 re = 0) && decide (BitVec.ofInt 72 im = 0)) ∧
      flagN (regsOf u c).flg = (BitVec.ofInt 72 re).msb ∧
      flagV (regsOf u c).flg = (outOfRange 72 re || outOfRange 72 im || moveSetsV r pm)) ∧
  (∀ (s : State) (c : CoreRef) (m : Mode) (cd : Cond) (cb : Nat) (n : Nat) (s1 s2 : DualOp) (pm : PMove) (x y : Word × Word) (v w : State),
    let r := regsOf w c
    let pr : Int := x.1.toInt * y.1.toInt * 2 + x.2.toInt * y.2.toInt * 2
    let qi : Int := x.2.toInt * y.1.toInt * 2 - x.1.toInt * y.2.toInt * 2
    let re : Int := (accOf r n).toInt + pr
    let im : Int := (accOf r (n + 1)).toInt + qi
    slotRuns s c m ⟨cd, cb, .mul .cmacj n s1 s2 false pm⟩ = true → readPair (slotState s c m) c s1 = .ok x v →
    readPair v c s2 = .ok y w → w.wf = true →
    ∃ u, exec (.cmacj c) s = .next u ∧
      accOf (regsOf u c) n = BitVec.ofInt 72 re ∧ accOf (regsOf u c) (n + 1) = BitVec.ofInt 72 im ∧
      flagZ (regsOf u c).flg = (decide (BitVec.ofInt 72 re = 0) && decide (BitVec.ofInt 72 im = 0)) ∧
      flagN (regsOf u c).flg = (BitVec.ofInt 72 re).msb ∧
      flagV (regsOf u c).flg = (outOfRange 72 re || outOfRange 72 im || moveSetsV r pm)) ∧
  (∀ (s : State) (c : CoreRef) (m : Mode) (cd : Cond) (cb : Nat) (n : Nat) (s1 s2 : DualOp) (pm : PMove) (x y : Word × Word) (v w : State),
    let r := regsOf w c
    let pr : Int := x.1.toInt * y.1.toInt * 2 - x.2.toInt * y.2.toInt * 2
    let qi : Int := x.1.toInt * y.2.toInt * 2 + x.2.toInt * y.1.toInt * 2
    let re : Int := (accOf r n).toInt + pr
    let im : Int := (accOf r (n + 1)).toInt + qi
    slotRuns s c m ⟨cd, cb, .mul .bfly n s1 s2 false pm⟩ = true → readPair (slotState s c m) c s1 = .ok x v →
    readPair v c s2 = .ok y w → w.wf = true →
    ∃ u, exec (.bfly c) s = .next u ∧
      accOf (regsOf u c) n = BitVec.ofInt 72 re ∧ accOf (regsOf u c) (n + 1) = BitVec.ofInt 72 im ∧
      flagZ (regsOf u c).flg = (decide (BitVec.ofInt 72 re = 0) && decide (BitVec.ofInt 72 im = 0)) ∧
      flagN (regsOf u c).flg = (BitVec.ofInt 72 re).msb ∧
      accOf (regsOf u c) (2 - n) = BitVec.ofInt 72 ((accOf r n).toInt - pr) ∧
      accOf (regsOf u c) (2 - n + 1) = BitVec.ofInt 72 ((accOf r (n + 1)).toInt - qi) ∧
      flagV (regsOf u c).flg = (outOfRange 72 re || outOfRange 72 im || outOfRange 72 ((accOf r n).toInt - pr) || outOfRange 72 ((accOf r (n + 1)).toInt - qi) || moveSetsV r pm)) ∧
  (∀ (s : State) (c : CoreRef) (m : Mode) (cd : Cond) (cb : Nat) (dd : Nat) (src : DualOp) (pm : PMove) (y : Word) (v : State),
    let r := regsOf v c
    slotRuns s c m ⟨cd, cb, .search .maxi dd src pm⟩ = true → pmDest pm ≠ some dd →
    readDual (slotState s c m) c src = .ok y v → v.wf = true →
    ∃ u, exec (.maxi c) s = .next u ∧
      rf (regsOf u c).d dd = (if (rf r.d dd).toInt < y.toInt then y else rf r.d dd) ∧ flagC (regsOf u c).flg = decide ((rf r.d dd).toInt < y.toInt) ∧
      (regsOf u c).ix = (match src with
        | .mem mo => if (rf r.d dd).toInt < y.toInt then rf r.p mo.ptr else r.ix
        | .reg _ => r.ix) ∧
      flagV (regsOf u c).flg = moveSetsV r pm) ∧
  (∀ (s : State) (c : CoreRef) (m : Mode) (cd : Cond) (cb : Nat) (dd : Nat) (src : DualOp) (pm : PMove) (y : Word) (v : State),
    let r := regsOf v c
    slotRuns s c m ⟨cd, cb, .search .mini dd src pm⟩ = true → pmDest pm ≠ some dd →
    readDual (slotState s c m) c src = .ok y v → v.wf = true →
    ∃ u, exec (.mini c) s = .next u ∧
      rf (regsOf u c).d dd = (if y.toInt < (rf r.d dd).toInt then y else rf r.d dd) ∧ flagC (regsOf u c).flg = decide (y.toInt < (rf r.d dd).toInt) ∧
      (regsOf u c).ix = (match src with
        | .mem mo => if y.toInt < (rf r.d dd).toInt then rf r.p mo.ptr else r.ix
        | .reg _ => r.ix) ∧
      flagV (regsOf u c).flg = moveSetsV r pm) ∧
  (∀ (s : State) (c : CoreRef) (m : Mode) (cd : Cond) (cb : Nat) (dd : Nat) (src : DualOp) (pm : PMove) (y : Word) (v : State),
    let r := regsOf v c
    let g : Word := if y = 0x80000000 then 0x7FFFFFFF else if y.msb then -y else y
    slotRuns s c m ⟨cd, cb, .search .maxai dd src pm⟩ = true → pmDest pm ≠ some dd →
    readDual (slotState s c m) c src = .ok y v → v.wf = true →
    ∃ u, exec (.maxai c) s = .next u ∧
      rf (regsOf u c).d dd = (if (rf r.d dd).toInt < g.toInt then g else rf r.d dd) ∧ flagC (regsOf u c).flg = decide ((rf r.d dd).toInt < g.toInt) ∧
      (regsOf u c).ix = (match src with
        | .mem mo => if (rf r.d dd).toInt < g.toInt then rf r.p mo.ptr else r.ix
        | .reg _ => r.ix) ∧
      flagV (regsOf u c).flg = (decide (y = 0x80000000) || moveSetsV r pm))

/-- CLRA clears an accumulator, and MOVA copies one or places a D register as Q1.31; neither changes a flag. SHACC
shifts in place as ASH does with W = 1, RESADD adds the zero-extended residue, and STA stores the upper word that R70
gives, keeping the residue when RESCAP is 1. LDI and MOV write the register that their code names: D, E and IX take 32
bits, pointers, bases, lengths and modifiers the core's pointer width, RPC and LC at most 4,096, FLG its seven flags at
once (a sticky flag can be cleared so), KMODE in sample mode keeps HOARD, and the free-mode registers their fields. LS
and LE hold 12 bits on a kernel and, as a DEDUCED choice of the model, 29 bits on a steward (assumption log 8). MOV
reads its source zero-extended, a modifier sign-extended. It says where each of these commands completes with its
effect: CLRA, MOVA, SHACC, RESADD, STA, LDI, MOV. -/
def Obligations.AccumulatorAndRegisterMoves : Prop :=
  (∀ (s : State) (c : CoreRef) (m : Mode) (cd : Cond) (cb : Nat) (n : Nat) (pm : PMove),
    slotRuns s c m ⟨cd, cb, .clra n pm⟩ = true →
    ∃ u, exec (.clra c) s = .next u ∧ accOf (regsOf u c) n = 0 ∧
      (pm = .none → (regsOf u c).flg = (slotRegs s c m).flg ∧ (regsOf u c).e = (slotRegs s c m).e)) ∧
  (∀ (s : State) (c : CoreRef) (m : Mode) (cd : Cond) (cb : Nat) (n k : Nat) (pm : PMove),
    slotRuns s c m ⟨cd, cb, .movaA n k pm⟩ = true →
    ∃ u, exec (.mova c) s = .next u ∧
      accOf (regsOf u c) n = accOf (slotRegs s c m) k ∧ (pm = .none → (regsOf u c).flg = (slotRegs s c m).flg)) ∧
  (∀ (s : State) (c : CoreRef) (m : Mode) (cd : Cond) (cb : Nat) (n d : Nat) (pm : PMove),
    slotRuns s c m ⟨cd, cb, .movaD n d pm⟩ = true →
    ∃ u, exec (.mova c) s = .next u ∧
      accOf (regsOf u c) n = BitVec.ofInt 72 ((rf (slotRegs s c m).d d).toInt * 2 ^ 32) ∧
      (pm = .none → (regsOf u c).flg = (slotRegs s c m).flg)) ∧
  (∀ (s : State) (c : CoreRef) (m : Mode) (cd : Cond) (cb : Nat) (n : Nat) (k : Count) (pm : PMove),
    let r := slotRegs s c m
    let x := accOf r n
    let g := shaccCount r k
    slotRuns s c m ⟨cd, cb, .shacc n k pm⟩ = true →
    ∃ u, exec (.shacc c) s = .next u ∧
      (g = 0 → accOf (regsOf u c) n = x) ∧
      (g < 0 → accOf (regsOf u c) n = BitVec.ofInt 72 (x.toInt / (2 ^ (-g).toNat : Nat))) ∧
      (0 < g → accOf (regsOf u c) n =
        if outOfRange 72 (x.toInt * (2 ^ g.toNat : Nat)) && satMode r then (if x.msb then minNeg 72 else maxPos 72)
        else BitVec.ofInt 72 (x.toInt * (2 ^ g.toNat : Nat))) ∧
      flagV (regsOf u c).flg = ((decide (0 < g) && outOfRange 72 (x.toInt * (2 ^ g.toNat : Nat))) || moveSetsV r pm)) ∧
  (∀ (s : State) (c : CoreRef) (m : Mode) (cd : Cond) (cb : Nat) (n : Nat) (pm : PMove),
    let r := slotRegs s c m
    slotRuns s c m ⟨cd, cb, .resadd n pm⟩ = true →
    ∃ u, exec (.resadd c) s = .next u ∧
      accOf (regsOf u c) n = accOf r n + BitVec.ofNat 72 (rf r.e n).toNat ∧
      (pm = .none → (regsOf u c).e = r.e) ∧
      flagV (regsOf u c).flg = (outOfRange 72 ((accOf r n).toInt + ((rf r.e n).toNat : Int)) || moveSetsV r pm)) ∧
  (∀ (s : State) (c : CoreRef) (m : Mode) (cd : Cond) (cb : Nat) (n dd : Nat),
    let r := slotRegs s c m
    let st := store32 (satMode r) (accOf r n)
    slotRuns s c m ⟨cd, cb, .staD n dd⟩ = true →
    ∃ u, exec (.sta c) s = .next u ∧ rf (regsOf u c).d dd = st.val ∧
      flagZ (regsOf u c).flg = decide (st.val = 0) ∧ flagV (regsOf u c).flg = !fits32 (accOf r n) ∧
      (rescap r = true → rf (regsOf u c).e n = st.res)) ∧
  (∀ (s : State) (c : CoreRef) (m : Mode) (cd : Cond) (cb : Nat) (k : Nat) (v : Word),
    let k0 := coreOf (slotState s c m) c
    slotRuns s c m ⟨cd, cb, .ldi k v⟩ = true →
    ∃ u, exec (.ldi c) s = .next u ∧
      (k < 16 → rf (regsOf u c).d k = v) ∧
      (16 ≤ k → k < 32 → rf (regsOf u c).p (k - 16) = lowBits v (ptrBits c)) ∧
      (32 ≤ k → k < 48 → rf (regsOf u c).b (k - 32) = lowBits v (ptrBits c)) ∧
      (48 ≤ k → k < 64 → rf (regsOf u c).l (k - 48) = lowBits v (ptrBits c)) ∧
      (64 ≤ k → k < 80 → rf (regsOf u c).m (k - 64) = lowBits v (ptrBits c)) ∧
      (0x50 ≤ k → k < 0x54 → rf (regsOf u c).e (k - 0x50) = v) ∧
      (k0.rep = .idle → k0.lact = 0 → (k = 0x54 → (regsOf u c).rpc = BitVec.ofNat 32 (min 4096 v.toNat)) ∧
        (0x55 ≤ k → k < 0x58 → rf (regsOf u c).ls (k - 0x55) = lowBits v (loopBits c)) ∧
        (0x58 ≤ k → k < 0x5B → rf (regsOf u c).le (k - 0x58) = lowBits v (loopBits c)) ∧
        (0x5B ≤ k → k < 0x5E → rf (regsOf u c).lc (k - 0x5B) = BitVec.ofNat 32 (min 4096 v.toNat))) ∧
      (k = 0x5E → (regsOf u c).ix = v) ∧ (k = 0x5F → (regsOf u c).flg = BitVec.ofNat 7 v.toNat) ∧
      (k = 0x60 → (regsOf u c).kmode.getLsbD 0 = v.getLsbD 0 ∧ (regsOf u c).kmode.getLsbD 2 = v.getLsbD 2 ∧
        (regsOf u c).kmode.getLsbD 1 = (match m with
          | .sample => k0.r.kmode.getLsbD 1
          | .test => v.getLsbD 1
          | .steward => false)) ∧
      (m ≠ .sample → (k = 0x68 → (coreOf u c).free.ra = lowBits v 29) ∧ (k = 0x69 → (coreOf u c).free.epc = lowBits v 29) ∧
        (k = 0x6A → (coreOf u c).free.eflg = lowBits v 16) ∧ (k = 0x6B → (coreOf u c).free.ivb = lowBits v 29 &&& 0xFFFFFE00) ∧
        (k = 0x6C → (coreOf u c).free.icause = k0.free.icause) ∧
        (k = 0x6D → iplExc (coreOf u c).free = v.getLsbD 4 ∧ iplIE (coreOf u c).free = v.getLsbD 3 ∧
          iplLevel (coreOf u c).free = min 4 (v.toNat % 8)))) ∧
  (∀ (s : State) (c : CoreRef) (m : Mode) (cd : Cond) (cb : Nat) (k j : Nat),
    let k0 := coreOf (slotState s c m) c
    let v := readCode c k0 j
    slotRuns s c m ⟨cd, cb, .mov k j⟩ = true →
    ∃ u, exec (.mov c) s = .next u ∧
      (j < 16 → v = rf k0.r.d j) ∧ (16 ≤ j → j < 32 → v = rf k0.r.p (j - 16)) ∧
      (32 ≤ j → j < 48 → v = rf k0.r.b (j - 32)) ∧ (48 ≤ j → j < 64 → v = rf k0.r.l (j - 48)) ∧
      (64 ≤ j → j < 80 → v = BitVec.ofInt 32 (toSigned (rf k0.r.m (j - 64)).toNat (ptrBits c))) ∧
      (0x50 ≤ j → j < 0x54 → v = rf k0.r.e (j - 0x50)) ∧ (j = 0x54 → v = k0.r.rpc) ∧
      (0x55 ≤ j → j < 0x58 → v = rf k0.r.ls (j - 0x55)) ∧ (0x58 ≤ j → j < 0x5B → v = rf k0.r.le (j - 0x58)) ∧
      (0x5B ≤ j → j < 0x5E → v = rf k0.r.lc (j - 0x5B)) ∧ (j = 0x5E → v = k0.r.ix) ∧
      (j = 0x5F → v = BitVec.ofNat 32 k0.r.flg.toNat) ∧ (j = 0x60 → v = BitVec.ofNat 32 k0.r.kmode.toNat) ∧
      (j = 0x68 → v = k0.free.ra) ∧ (j = 0x69 → v = k0.free.epc) ∧ (j = 0x6A → v = k0.free.eflg) ∧
      (j = 0x6B → v = k0.free.ivb) ∧ (j = 0x6C → v = k0.free.icause) ∧ (j = 0x6D → v = k0.free.ipl) ∧
      (k < 16 → rf (regsOf u c).d k = v) ∧
      (16 ≤ k → k < 32 → rf (regsOf u c).p (k - 16) = lowBits v (ptrBits c)) ∧
      (32 ≤ k → k < 48 → rf (regsOf u c).b (k - 32) = lowBits v (ptrBits c)) ∧
      (48 ≤ k → k < 64 → rf (regsOf u c).l (k - 48) = lowBits v (ptrBits c)) ∧
      (64 ≤ k → k < 80 → rf (regsOf u c).m (k - 64) = lowBits v (ptrBits c)) ∧
      (0x50 ≤ k → k < 0x54 → rf (regsOf u c).e (k - 0x50) = v) ∧
      (k0.rep = .idle → k0.lact = 0 → (k = 0x54 → (regsOf u c).rpc = BitVec.ofNat 32 (min 4096 v.toNat)) ∧
        (0x55 ≤ k → k < 0x58 → rf (regsOf u c).ls (k - 0x55) = lowBits v (loopBits c)) ∧
        (0x58 ≤ k → k < 0x5B → rf (regsOf u c).le (k - 0x58) = lowBits v (loopBits c)) ∧
        (0x5B ≤ k → k < 0x5E → rf (regsOf u c).lc (k - 0x5B) = BitVec.ofNat 32 (min 4096 v.toNat))) ∧
      (k = 0x5E → (regsOf u c).ix = v) ∧ (k = 0x5F → (regsOf u c).flg = BitVec.ofNat 7 v.toNat) ∧
      (k = 0x60 → (regsOf u c).kmode.getLsbD 0 = v.getLsbD 0 ∧ (regsOf u c).kmode.getLsbD 2 = v.getLsbD 2 ∧
        (regsOf u c).kmode.getLsbD 1 = (match m with
          | .sample => k0.r.kmode.getLsbD 1
          | .test => v.getLsbD 1
          | .steward => false)) ∧
      (m ≠ .sample → (k = 0x68 → (coreOf u c).free.ra = lowBits v 29) ∧ (k = 0x69 → (coreOf u c).free.epc = lowBits v 29) ∧
        (k = 0x6A → (coreOf u c).free.eflg = lowBits v 16) ∧ (k = 0x6B → (coreOf u c).free.ivb = lowBits v 29 &&& 0xFFFFFE00) ∧
        (k = 0x6C → (coreOf u c).free.icause = k0.free.icause) ∧
        (k = 0x6D → iplExc (coreOf u c).free = v.getLsbD 4 ∧ iplIE (coreOf u c).free = v.getLsbD 3 ∧
          iplLevel (coreOf u c).free = min 4 (v.toNat % 8))))

/-- Beside the main operation of any word of opcodes 0x20 to 0x2F whose operands can be read, the parallel move loads a
Wadi or slipface line into a D register, stages a D register or a stored accumulator on a Wadi line or makes it
available on a slipface line, copies a D register, or stores an accumulator into one; its sources are the registers
before the word. A move that stores an accumulator captures the residue in its E register where RESCAP is 1 and sets V,
VS and SAT as the store gives; beside CLRA and MOVA, which change no flag, V is what the store gives, and Z, N and C
stay. -/
def Obligations.ParallelMoves : Prop :=
  (∀ (s : State) (c : CoreRef) (m : Mode) (cd : Cond) (cb : Nat) (op : Op) (i : Instr) (w : State) (l d : Nat),
    slotRuns s c m ⟨cd, cb, op⟩ = true → opPM op = .ldl (.wadi l) d → class10Instr op c = some i →
    operandsRead (slotState s c m) c op = some w → w.wf = true →
    ∃ u, exec i s = .next u ∧
      rf (regsOf u c).d d = kernelLine (slotState s c m) c.die (inputKernel (slotState s c m) c.die c.idx) l) ∧
  (∀ (s : State) (c : CoreRef) (m : Mode) (cd : Cond) (cb : Nat) (op : Op) (i : Instr) (w : State) (l d : Nat),
    slotRuns s c m ⟨cd, cb, op⟩ = true → opPM op = .ldl (.slip l) d → class10Instr op c = some i →
    operandsRead (slotState s c m) c op = some w → w.wf = true →
    ∃ u, exec i s = .next u ∧
      (m = .sample → slipRead (slotFetched s c m) c l = some (rf (regsOf u c).d d)) ∧
      ((kern (slotState s c m) c.die c.idx).st ≠ .shadow → rf (regsOf u c).d d = (slipLine (slotState s c m) c.die (c.idx / 18) l).val)) ∧
  (∀ (s : State) (c : CoreRef) (m : Mode) (cd : Cond) (cb : Nat) (op : Op) (i : Instr) (w : State) (l d : Nat),
    let r := regsOf w c
    slotRuns s c m ⟨cd, cb, op⟩ = true → opPM op = .stlD (.wadi l) d → class10Instr op c = some i →
    operandsRead (slotState s c m) c op = some w → w.wf = true → c.stew = false →
    ∃ u, exec i s = .next u ∧
      ((kern (slotState s c m) c.die c.idx).st = .run → alGet l (kern u c.die c.idx).staged = some (rf r.d d))) ∧
  (∀ (s : State) (c : CoreRef) (m : Mode) (cd : Cond) (cb : Nat) (op : Op) (i : Instr) (w : State) (l d : Nat),
    let r := regsOf w c
    slotRuns s c m ⟨cd, cb, op⟩ = true → opPM op = .stlD (.slip l) d → class10Instr op c = some i →
    operandsRead (slotState s c m) c op = some w → w.wf = true → c.stew = false →
    ∃ u, exec i s = .next u ∧
      ((kern (slotState s c m) c.die c.idx).st = .run → (slipLine u c.die (c.idx / 18) l).val = rf r.d d)) ∧
  (∀ (s : State) (c : CoreRef) (m : Mode) (cd : Cond) (cb : Nat) (op : Op) (i : Instr) (w : State) (l a : Nat),
    let r := regsOf w c
    let st := store32 (satMode r) (accOf r a)
    slotRuns s c m ⟨cd, cb, op⟩ = true → opPM op = .stlA (.wadi l) a → class10Instr op c = some i →
    operandsRead (slotState s c m) c op = some w → w.wf = true → c.stew = false →
    ∃ u, exec i s = .next u ∧
      ((kern (slotState s c m) c.die c.idx).st = .run → alGet l (kern u c.die c.idx).staged = some st.val) ∧
      rf (regsOf u c).e a = (if rescap r then st.res else rf r.e a) ∧
      (st.v = true → flagV (regsOf u c).flg = true ∧ flagVS (regsOf u c).flg = true) ∧
      (st.sat = true → flagSAT (regsOf u c).flg = true) ∧
      (isClra op = true ∨ isMova op = true → flagV (regsOf u c).flg = st.v ∧ flagZ (regsOf u c).flg = flagZ r.flg ∧
        flagN (regsOf u c).flg = flagN r.flg ∧ flagC (regsOf u c).flg = flagC r.flg)) ∧
  (∀ (s : State) (c : CoreRef) (m : Mode) (cd : Cond) (cb : Nat) (op : Op) (i : Instr) (w : State) (l a : Nat),
    let r := regsOf w c
    let st := store32 (satMode r) (accOf r a)
    slotRuns s c m ⟨cd, cb, op⟩ = true → opPM op = .stlA (.slip l) a → class10Instr op c = some i →
    operandsRead (slotState s c m) c op = some w → w.wf = true → c.stew = false →
    ∃ u, exec i s = .next u ∧
      ((kern (slotState s c m) c.die c.idx).st = .run → (slipLine u c.die (c.idx / 18) l).val = st.val) ∧
      rf (regsOf u c).e a = (if rescap r then st.res else rf r.e a) ∧
      (st.v = true → flagV (regsOf u c).flg = true ∧ flagVS (regsOf u c).flg = true) ∧
      (st.sat = true → flagSAT (regsOf u c).flg = true) ∧
      (isClra op = true ∨ isMova op = true → flagV (regsOf u c).flg = st.v ∧ flagZ (regsOf u c).flg = flagZ r.flg ∧
        flagN (regsOf u c).flg = flagN r.flg ∧ flagC (regsOf u c).flg = flagC r.flg)) ∧
  (∀ (s : State) (c : CoreRef) (m : Mode) (cd : Cond) (cb : Nat) (op : Op) (i : Instr) (w : State) (dd ds : Nat),
    let r := regsOf w c
    slotRuns s c m ⟨cd, cb, op⟩ = true → opPM op = .mov dd ds → class10Instr op c = some i →
    operandsRead (slotState s c m) c op = some w → w.wf = true →
    ∃ u, exec i s = .next u ∧
      rf (regsOf u c).d dd = rf r.d ds) ∧
  (∀ (s : State) (c : CoreRef) (m : Mode) (cd : Cond) (cb : Nat) (op : Op) (i : Instr) (w : State) (dd a : Nat),
    let r := regsOf w c
    let st := store32 (satMode r) (accOf r a)
    slotRuns s c m ⟨cd, cb, op⟩ = true → opPM op = .sta dd a → class10Instr op c = some i →
    operandsRead (slotState s c m) c op = some w → w.wf = true →
    ∃ u, exec i s = .next u ∧
      rf (regsOf u c).d dd = st.val ∧
      rf (regsOf u c).e a = (if rescap r then st.res else rf r.e a) ∧
      (st.v = true → flagV (regsOf u c).flg = true ∧ flagVS (regsOf u c).flg = true) ∧
      (st.sat = true → flagSAT (regsOf u c).flg = true) ∧
      (isClra op = true ∨ isMova op = true → flagV (regsOf u c).flg = st.v ∧ flagZ (regsOf u c).flg = flagZ r.flg ∧
        flagN (regsOf u c).flg = flagN r.flg ∧ flagC (regsOf u c).flg = flagC r.flg))

/-- LD brings the word that its pointer reaches into a D register and ST writes one there; both then update the pointer
by the addressing mode, circularly where L is not 0. MODP only updates the pointer. STA stores the accumulator by R70
through its pointer: to X memory through P0 to P7, to Y memory through P8 to P15, and, where KMODE.HOARD is 1, through
P12 to P15 to a Hoard word that the kernel owns, which costs half a step; a steward stores over its bus. FTAP multiplies
and accumulates the tap and moves the word it read one place up. It says where each of these commands completes with its
effect: LD, ST, MODP, STA, FTAP. -/
def Obligations.LoadsAndStores : Prop :=
  (∀ (s : State) (c : CoreRef) (m : Mode) (cd : Cond) (cb : Nat) (d : Nat) (mo : MemOp) (v : Word) (w : State),
    let r := regsOf w c
    slotRuns s c m ⟨cd, cb, .ld d mo⟩ = true →
    readMem (slotState s c m) c mo.ptr (rf (slotRegs s c m).p mo.ptr).toNat = .ok v w → w.wf = true →
    ∃ u, exec (.ld c) s = .next u ∧ rf (regsOf u c).d d = v ∧ (regsOf u c).p = (postMod c r mo).p ∧ (regsOf u c).flg = r.flg) ∧
  (∀ (s : State) (c : CoreRef) (m : Mode) (cd : Cond) (cb : Nat) (d : Nat) (mo : MemOp),
    let r := slotRegs s c m
    let a := if mo.ptr < 8 then xA c.die c.idx ((rf r.p mo.ptr).toNat % 4096) else yA c.die c.idx (kern (slotState s c m) c.die c.idx).ybank ((rf r.p mo.ptr).toNat % 4096)
    slotRuns s c m ⟨cd, cb, .st d mo⟩ = true → c.stew = false → (mo.ptr < 8 ∨ mo.ptr < 12 ∨ hoardMode r = false) →
    ∃ u, exec (.st c) s = .next u ∧ loadW u a = rf r.d d ∧ (regsOf u c).p = (postMod c r mo).p ∧
      (∀ b, (b < a ∨ a + 4 ≤ b) → standbyOf (slotState s c m) c.die c.idx = none → copiesOf (slotState s c m) c.die c.idx = [] → loadByte u b = loadByte (slotState s c m) b)) ∧
  (∀ (s : State) (c : CoreRef) (m : Mode) (cd : Cond) (cb : Nat) (mo : MemOp),
    let r := slotRegs s c m
    slotRuns s c m ⟨cd, cb, .modp mo⟩ = true →
    ∃ u, exec (.modp c) s = .next u ∧ rf (regsOf u c).p mo.ptr = BitVec.ofNat 32 (ptrUpdate (ptrBits c) (rf r.p mo.ptr).toNat
        (rf r.b mo.ptr).toNat (rf r.l mo.ptr).toNat (amInc mo.am (mSigned c r mo.ptr))) ∧
      u.mem = (slotState s c m).mem ∧ (regsOf u c).d = r.d) ∧
  (∀ (s : State) (c : CoreRef) (m : Mode) (cd : Cond) (cb : Nat) (n : Nat) (mo : MemOp),
    let r := slotRegs s c m
    let st := store32 (satMode r) (accOf r n)
    slotRuns s c m ⟨cd, cb, .staM n mo⟩ = true → c.stew = false → mo.ptr < 8 →
    ∃ u, exec (.sta c) s = .next u ∧
      loadW u (xA c.die c.idx ((rf r.p mo.ptr).toNat % 4096)) = st.val ∧
      (regsOf u c).p = (postMod c r mo).p ∧ flagZ (regsOf u c).flg = decide (st.val = 0) ∧ flagN (regsOf u c).flg = st.val.msb ∧
      flagV (regsOf u c).flg = !fits32 (accOf r n) ∧ rf (regsOf u c).e n = (if rescap r then st.res else rf r.e n)) ∧
  (∀ (s : State) (c : CoreRef) (m : Mode) (cd : Cond) (cb : Nat) (n : Nat) (mo : MemOp) (s2 : DualOp) (int : Bool) (x y : Word) (v w : State),
    let r := slotRegs s c m
    let up := ptrUpdate (ptrBits c) (rf r.p mo.ptr).toNat (rf r.b mo.ptr).toNat (rf r.l mo.ptr).toNat 1
    slotRuns s c m ⟨cd, cb, .ftap n mo s2 int⟩ = true → c.stew = false → mo.ptr < 8 →
    readMem (slotState s c m) c mo.ptr (rf r.p mo.ptr).toNat = .ok x v → readDual v c s2 = .ok y w → w.wf = true →
    ∃ u, exec (.ftap c) s = .next u ∧ loadW u (xA c.die c.idx (up % 4096)) = x ∧
      accOf (regsOf u c) n = BitVec.ofInt 72 ((accOf r n).toInt + (if int then x.toInt * y.toInt else x.toInt * y.toInt * 2))) ∧
  (∀ (s : State) (c : CoreRef) (m : Mode) (cd : Cond) (cb : Nat) (n : Nat) (mo : MemOp),
    let r := slotRegs s c m
    let st := store32 (satMode r) (accOf r n)
    slotRuns s c m ⟨cd, cb, .staM n mo⟩ = true → c.stew = false → 8 ≤ mo.ptr → (mo.ptr < 12 ∨ hoardMode r = false) →
    ∃ u, exec (.sta c) s = .next u ∧
      loadW u (yA c.die c.idx (kern (slotState s c m) c.die c.idx).ybank ((rf r.p mo.ptr).toNat % 4096)) = st.val ∧
      (regsOf u c).p = (postMod c r mo).p ∧ flagZ (regsOf u c).flg = decide (st.val = 0) ∧ flagN (regsOf u c).flg = st.val.msb ∧
      flagV (regsOf u c).flg = !fits32 (accOf r n) ∧ rf (regsOf u c).e n = (if rescap r then st.res else rf r.e n)) ∧
  (∀ (s : State) (c : CoreRef) (m : Mode) (cd : Cond) (cb : Nat) (n : Nat) (mo : MemOp),
    let r := slotRegs s c m
    let st := store32 (satMode r) (accOf r n)
    slotRuns s c m ⟨cd, cb, .staM n mo⟩ = true → c.stew = false → 12 ≤ mo.ptr → hoardMode r = true →
    (kern (slotState s c m) c.die c.idx).st = .run → ownsWord (slotState s c m) c.die c.idx (rf r.p mo.ptr).toNat = true →
    ∃ u, exec (.sta c) s = .next u ∧
      loadW u (hoardA c.die (c.idx / 18) (rf r.p mo.ptr).toNat) = st.val ∧
      (regsOf u c).p = (postMod c r mo).p ∧ flagZ (regsOf u c).flg = decide (st.val = 0) ∧ flagN (regsOf u c).flg = st.val.msb ∧
      flagV (regsOf u c).flg = !fits32 (accOf r n) ∧ rf (regsOf u c).e n = (if rescap r then st.res else rf r.e n) ∧
      (m = .sample → (coreOf (slotState s c m) c).annulMul = [] →
        (coreOf u c).halves = (coreOf (slotState s c m) c).halves + 1)) ∧
  (∀ (s : State) (c : CoreRef) (m : Mode) (cd : Cond) (cb : Nat) (d : Nat) (mo : MemOp),
    let r := slotRegs s c m
    slotRuns s c m ⟨cd, cb, .st d mo⟩ = true → c.stew = false → 12 ≤ mo.ptr → hoardMode r = true →
    (kern (slotState s c m) c.die c.idx).st = .run → ownsWord (slotState s c m) c.die c.idx (rf r.p mo.ptr).toNat = true →
    ∃ u, exec (.st c) s = .next u ∧ loadW u (hoardA c.die (c.idx / 18) (rf r.p mo.ptr).toNat) = rf r.d d ∧
      (regsOf u c).p = (postMod c r mo).p ∧ (m = .sample → (coreOf (slotState s c m) c).annulMul = [] →
        (coreOf u c).halves = (coreOf (slotState s c m) c).halves + 1)) ∧
  (∀ (s : State) (c : CoreRef) (m : Mode) (cd : Cond) (cb : Nat) (n : Nat) (mo : MemOp) (w : State),
    let r := slotRegs s c m
    let st := store32 (satMode r) (accOf r n)
    slotRuns s c m ⟨cd, cb, .staM n mo⟩ = true →
    writeMem (slotState s c m) c mo.ptr (rf r.p mo.ptr).toNat st.val = .ok () w → restarted (slotState s c m) w c = false →
    w.wf = true →
    ∃ u, exec (.sta c) s = .next u ∧
      u.mem = w.mem ∧
      (regsOf u c).p = (postMod c r mo).p ∧ flagZ (regsOf u c).flg = decide (st.val = 0) ∧ flagN (regsOf u c).flg = st.val.msb ∧
      flagV (regsOf u c).flg = !fits32 (accOf r n) ∧ rf (regsOf u c).e n = (if rescap r then st.res else rf r.e n)) ∧
  (∀ (s : State) (c : CoreRef) (m : Mode) (cd : Cond) (cb : Nat) (n : Nat) (mo : MemOp) (s2 : DualOp) (int : Bool) (x y : Word) (v w z : State),
    let r := slotRegs s c m
    let up := ptrUpdate (ptrBits c) (rf r.p mo.ptr).toNat (rf r.b mo.ptr).toNat (rf r.l mo.ptr).toNat 1
    slotRuns s c m ⟨cd, cb, .ftap n mo s2 int⟩ = true → c.stew = true →
    readMem (slotState s c m) c mo.ptr (rf r.p mo.ptr).toNat = .ok x v → readDual v c s2 = .ok y w →
    writeMem w c mo.ptr up x = .ok () z → restarted w z c = false → z.wf = true →
    ∃ u, exec (.ftap c) s = .next u ∧ u.mem = z.mem ∧
      accOf (regsOf u c) n = BitVec.ofInt 72 ((accOf r n).toInt + (if int then x.toInt * y.toInt else x.toInt * y.toInt * 2)) ∧
      (regsOf u c).p = (postDual c (postMod c r mo) s2).p) ∧
  (∀ (s : State) (c : CoreRef) (m : Mode) (cd : Cond) (cb : Nat) (d : Nat) (mo : MemOp) (w : State),
    let r := slotRegs s c m
    slotRuns s c m ⟨cd, cb, .st d mo⟩ = true →
    writeMem (slotState s c m) c mo.ptr (rf r.p mo.ptr).toNat (rf r.d d) = .ok () w → w.wf = true →
    ∃ u, exec (.st c) s = .next u ∧ u.mem = w.mem ∧
      (restarted (slotState s c m) w c = false → (regsOf u c).p = (postMod c (regsOf w c) mo).p ∧
        (regsOf u c).flg = (regsOf w c).flg))

/-- LDL of a Wadi line brings the value published at the Pulse; STL on a running kernel stages its D register on a Wadi
line (the last one wins) or makes it available at once on a slipface line. A read of a slipface line whose producer has
not stored it waits; the release completes the waiting slot once the line is complete. In sample mode LDH reads the word
of a Hoard bank that the kernel owns and STH writes it in the step that makes it, at the cost of half a step; an access
to a bank that the kernel does not own, through these or through P12 to P15 while KMODE.HOARD is 1, faults the kernel
with code 0x3. It says where each of these commands completes with its effect: LDL, STL, SLIPFACE_LDL_RELEASE, LDH, STH.
-/
def Obligations.LinesSlipfacesAndHoard : Prop :=
  (∀ (s : State) (c : CoreRef) (m : Mode) (cd : Cond) (cb : Nat) (d l : Nat),
    slotRuns s c m ⟨cd, cb, .ldl d (.wadi l)⟩ = true →
    ∃ u, exec (.ldl c) s = .next u ∧
      rf (regsOf u c).d d = kernelLine (slotState s c m) c.die (inputKernel (slotState s c m) c.die c.idx) l ∧
      (regsOf u c).flg = (slotRegs s c m).flg) ∧
  (∀ (s : State) (c : CoreRef) (m : Mode) (cd : Cond) (cb : Nat) (d l : Nat),
    slotRuns s c m ⟨cd, cb, .ldl d (.slip l)⟩ = true → c.stew = false → (kern (slotState s c m) c.die c.idx).st ≠ .shadow →
    ∃ u, exec (.ldl c) s = .next u ∧ rf (regsOf u c).d d = (slipLine (slotState s c m) c.die (c.idx / 18) l).val ∧
      (m = .sample → (kern u c.die c.idx).slipIn = (kern (slotFetched s c m) c.die c.idx).slipIn ++ [rf (regsOf u c).d d])) ∧
  (∀ (s : State) (c : CoreRef) (m : Mode) (cd : Cond) (cb : Nat) (d l : Nat),
    slotRuns s c m ⟨cd, cb, .stl d (.wadi l)⟩ = true → c.stew = false → (kern (slotState s c m) c.die c.idx).st = .run →
    ∃ u, exec (.stl c) s = .next u ∧ alGet l (kern u c.die c.idx).staged = some (rf (slotRegs s c m).d d) ∧
      u.lines = (slotState s c m).lines ∧ u.pub = (slotState s c m).pub ∧ (regsOf u c).flg = (slotRegs s c m).flg) ∧
  (∀ (s : State) (c : CoreRef) (m : Mode) (cd : Cond) (cb : Nat) (d l : Nat),
    slotRuns s c m ⟨cd, cb, .stl d (.slip l)⟩ = true → c.stew = false → (kern (slotState s c m) c.die c.idx).st = .run →
    ∃ u, exec (.stl c) s = .next u ∧
      (slipLine u c.die (c.idx / 18) l).val = rf (slotRegs s c m).d d ∧ u.lines = (slotState s c m).lines) ∧
  (∀ (s : State) (c : CoreRef) (cd : Cond) (cb : Nat) (d l : Nat),
    slotIs s c .sample ⟨cd, cb, .ldl d (.slip l)⟩ = true → cd ≠ .nv → c.stew = false →
    slipWaits (slotFetched s c .sample) c l = true →
    ∃ u, exec (.ldl c) s = .next u ∧ (kern u c.die c.idx).wait = some l ∧ regsOf u c = regsOf (slotFetched s c .sample) c) ∧
  (∀ (s : State) (c : CoreRef) (cd : Cond) (cb d l : Nat),
    c.stew = false → (kern s c.die c.idx).wait = some l → slipWaits s c l = false →
    slotRuns (endWait s c) c .sample ⟨cd, cb, .ldl d (.slip l)⟩ = true →
    (kern (slotState (endWait s c) c .sample) c.die c.idx).st = .run →
    ∃ u, exec (.slipfaceLdlRelease c) s = .next u ∧ (kern u c.die c.idx).wait = none ∧
      rf (regsOf u c).d d = (slipLine (slotState (endWait s c) c .sample) c.die (c.idx / 18) l).val) ∧
  (∀ (s : State) (c : CoreRef) (m : Mode) (cd : Cond) (cb : Nat) (d : Nat) (mo : MemOp) (v : Word) (w : State),
    let r := slotRegs s c m
    slotRuns s c m ⟨cd, cb, .ldh d mo⟩ = true → c.stew = false →
    readHoardOp (slotState s c m) c (rf r.p mo.ptr).toNat = .ok v w → w.wf = true →
    ∃ u, exec (.ldh c) s = .next u ∧ rf (regsOf u c).d d = v ∧ (regsOf u c).p = (postMod c r mo).p ∧
      (m = .sample → (coreOf (slotState s c m) c).annulMul = [] →
        (coreOf u c).halves = (coreOf (slotState s c m) c).halves + 1)) ∧
  (∀ (s : State) (c : CoreRef) (m : Mode) (cd : Cond) (cb : Nat) (d : Nat) (mo : MemOp),
    let r := slotRegs s c m
    slotRuns s c m ⟨cd, cb, .sth d mo⟩ = true → c.stew = false → (kern (slotState s c m) c.die c.idx).st = .run →
    ownsWord (slotState s c m) c.die c.idx (rf r.p mo.ptr).toNat = true →
    ∃ u, exec (.sth c) s = .next u ∧ loadW u (hoardA c.die (c.idx / 18) (rf r.p mo.ptr).toNat) = rf r.d d ∧
      (regsOf u c).p = (postMod c r mo).p ∧ (m = .sample → (coreOf (slotState s c m) c).annulMul = [] →
        (coreOf u c).halves = (coreOf (slotState s c m) c).halves + 1)) ∧
  (∀ (s : State) (c : CoreRef) (m : Mode) (cd : Cond) (cb : Nat) (d : Nat) (mo : MemOp),
    let r := slotRegs s c m
    slotRuns s c m ⟨cd, cb, .sth d mo⟩ = true → m = .sample → (kern (slotState s c m) c.die c.idx).st = .run →
    ownsWord (slotState s c m) c.die c.idx (rf r.p mo.ptr).toNat = false →
    ∃ u, exec (.sth c) s = .next u ∧ (kern u c.die c.idx).st = .faulted ∧ (kern u c.die c.idx).fcode = 3 ∧
      (kern u c.die c.idx).staged = [] ∧ (regsOf u c).d = r.d) ∧
  (∀ (s : State) (c : CoreRef) (m : Mode) (cd : Cond) (cb : Nat) (op : Op) (i : Instr) (d n k : Nat) (mo : MemOp) (int : Bool) (f : MulFn) (g : SearchFn) (pm : PMove),
    let r := slotRegs s c m
    slotRuns s c m ⟨cd, cb, op⟩ = true →
    (op, i) ∈ [(.ldh d mo, .ldh c), (.ld d mo, .ld c), (.st d mo, .st c), (.staM n mo, .sta c), (.search g d (.mem mo) pm, searchInstr g c), (.mul f n (.reg k) (.mem mo) int pm, mulInstr f c)] →
    m = .sample → isComplex f = false → (op = .ldh d mo ∨ (12 ≤ mo.ptr ∧ hoardMode r = true)) →
    (kern (slotState s c m) c.die c.idx).st = .run → ownsWord (slotState s c m) c.die c.idx (rf r.p mo.ptr).toNat = false →
    ∃ u, exec i s = .next u ∧ (kern u c.die c.idx).st = .faulted ∧ (kern u c.die c.idx).fcode = 3 ∧
      (kern u c.die c.idx).staged = [] ∧ (regsOf u c).d = r.d)

/-- A branch that is reached starts its two delay slots; where its condition holds, control then goes to its target: for
BRA and BSR the displacement from its own address (a target below 0 modulo 2^29, which is the model's DESIGN CHOICE,
assumption log 103), for JMP its address or D register, for RTS the address in RA. A taken BSR keeps the address after
its delay slots in RA. NOP and an NV word change nothing but the flow of control: outside repeats, delay slots and the
end of a block, the next slot is the next address and one step is charged; at LE of a block with iterations to go it is
LS, and after the last one the level ends. A word whose condition is false is annulled: it costs its steps and writes no
register. It says where each of these commands completes with its effect: BRA, JMP, BSR, RTS, NOP, NV_SLOT, ADD. -/
def Obligations.BranchesAndControl : Prop :=
  (∀ (s : State) (c : CoreRef) (m : Mode) (cd : Cond) (cb : Nat) (n : Int),
    let k := coreOf (slotState s c m) c
    slotRuns s c m ⟨cd, cb, .bra n⟩ = true →
    ∃ u, exec (.bra c) s = .next u ∧ (coreOf u c).dly = some ⟨k.r.pc, 2, if slotCond (slotState s c m) c ⟨cd, cb, .bra n⟩ then some (dispTarget k.r.pc n) else none, true⟩ ∧
      (regsOf u c).pc = pcAfter k.r.pc ∧ (regsOf u c).d = k.r.d) ∧
  (∀ (s : State) (c : CoreRef) (m : Mode) (cd : Cond) (cb : Nat) (n : Nat),
    let k := coreOf (slotState s c m) c
    slotRuns s c m ⟨cd, cb, .jmpImm n⟩ = true →
    ∃ u, exec (.jmp c) s = .next u ∧ (coreOf u c).dly = some ⟨k.r.pc, 2, if slotCond (slotState s c m) c ⟨cd, cb, .jmpImm n⟩ then some (n) else none, true⟩ ∧
      (regsOf u c).pc = pcAfter k.r.pc ∧ (regsOf u c).d = k.r.d) ∧
  (∀ (s : State) (c : CoreRef) (m : Mode) (cd : Cond) (cb : Nat) (n : Nat),
    let k := coreOf (slotState s c m) c
    slotRuns s c m ⟨cd, cb, .jmpReg n⟩ = true →
    ∃ u, exec (.jmp c) s = .next u ∧ (coreOf u c).dly = some ⟨k.r.pc, 2, if slotCond (slotState s c m) c ⟨cd, cb, .jmpReg n⟩ then some ((rf k.r.d n).toNat % 2 ^ 29) else none, true⟩ ∧
      (regsOf u c).pc = pcAfter k.r.pc ∧ (regsOf u c).d = k.r.d) ∧
  (∀ (s : State) (c : CoreRef) (m : Mode) (cd : Cond) (cb : Nat) (n : Int),
    let k := coreOf (slotState s c m) c
    slotRuns s c m ⟨cd, cb, .bsr n⟩ = true →
    ∃ u, exec (.bsr c) s = .next u ∧ (coreOf u c).dly = some ⟨k.r.pc, 2, if slotCond (slotState s c m) c ⟨cd, cb, .bsr n⟩ then some (dispTarget k.r.pc n) else none, false⟩ ∧
      (regsOf u c).pc = pcAfter k.r.pc ∧ (regsOf u c).d = k.r.d ∧
      (slotCond (slotState s c m) c ⟨cd, cb, .bsr n⟩ = true → (coreOf u c).free.ra = BitVec.ofNat 32 ((k.r.pc + 3) % 2 ^ 29))) ∧
  (∀ (s : State) (c : CoreRef) (m : Mode) (cd : Cond) (cb : Nat),
    let k := coreOf (slotState s c m) c
    slotRuns s c m ⟨cd, cb, .rts⟩ = true →
    ∃ u, exec (.rts c) s = .next u ∧ (coreOf u c).dly = some ⟨k.r.pc, 2, if slotCond (slotState s c m) c ⟨cd, cb, .rts⟩ then some (k.free.ra.toNat) else none, false⟩ ∧
      (regsOf u c).pc = pcAfter k.r.pc ∧ (regsOf u c).d = k.r.d) ∧
  (∀ (s : State) (c : CoreRef) (m : Mode) (cd : Cond) (cb : Nat),
    let k := coreOf (slotState s c m) c
    slotRuns s c m ⟨cd, cb, .nop⟩ = true → (coreOf (slotState s c m) c).rep = .idle →
    (coreOf (slotState s c m) c).dly = none → (coreOf (slotState s c m) c).lact = 0 →
    (coreOf (slotState s c m) c).annulMul = [] →
    ∃ u, exec (.nop c) s = .next u ∧ regsOf u c = { k.r with pc := pcAfter k.r.pc } ∧ (coreOf u c).steps = k.steps + 1) ∧
  (∀ (s : State) (c : CoreRef) (m : Mode) (cd : Cond) (cb : Nat) (j : Nat),
    let k := coreOf (slotState s c m) c
    slotRuns s c m ⟨cd, cb, .nop⟩ = true → (coreOf (slotState s c m) c).rep = .idle →
    (coreOf (slotState s c m) c).dly = none → levelAt k k.r.pc = some j →
    ∃ u, exec (.nop c) s = .next u ∧
      (1 < (rf k.r.lc j).toNat → (regsOf u c).pc = (rf k.r.ls j).toNat ∧ rf (regsOf u c).lc j = rf k.r.lc j - 1 ∧ (coreOf u c).lact = k.lact) ∧
      ((rf k.r.lc j).toNat ≤ 1 → (regsOf u c).pc = pcAfter k.r.pc ∧ (coreOf u c).lact = setLevel k.lact j false)) ∧
  (∀ (s : State) (c : CoreRef) (m : Mode) (cb : Nat),
    let k := coreOf (slotState s c m) c
    slotIs s c m ⟨.nv, cb, .nop⟩ = true → k.rep = .idle → k.dly = none → k.lact = 0 → k.annulMul = [] →
    ∃ u, exec (.nvSlot c) s = .next u ∧ regsOf u c = { k.r with pc := pcAfter k.r.pc } ∧ (coreOf u c).steps = k.steps + 1) ∧
  (∀ (s : State) (c : CoreRef) (m : Mode) (cd : Cond) (cb : Nat) (dd ds1 : Nat) (s2 : Src2),
    let k := coreOf (slotState s c m) c
    slotIs s c m ⟨cd, cb, .binD .add dd ds1 s2⟩ = true → cd ≠ .nv →
    slotCond (slotState s c m) c ⟨cd, cb, .binD .add dd ds1 s2⟩ = false → k.rep = .idle → k.dly = none → k.lact = 0 →
    k.annulMul = [] →
    ∃ u, exec (.add c) s = .next u ∧ regsOf u c = { k.r with pc := pcAfter k.r.pc } ∧ (coreOf u c).steps = k.steps + 1)

/-- REP loads RPC with its count and the next word runs that often; BRPT loads LS with the next address, LE with the
block's last and LC with the count, and its level becomes active. A count of 0 annuls the word, or skips the block. It
says where each of these commands completes with its effect: REP, BRPT. -/
def Obligations.RepeatsAndBlocks : Prop :=
  (∀ (s : State) (c : CoreRef) (m : Mode) (cd : Cond) (cb : Nat) (n : Count),
    let k := coreOf (slotState s c m) c
    slotRuns s c m ⟨cd, cb, .rep n⟩ = true →
    ∃ u, exec (.rep c) s = .next u ∧ (regsOf u c).pc = pcAfter k.r.pc ∧
      (regsOf u c).rpc = BitVec.ofNat 32 (repeatCount k n) ∧
      (coreOf u c).rep = if repeatCount k n = 0 then .annul 1 else .run (repeatCount k n) false) ∧
  (∀ (s : State) (c : CoreRef) (m : Mode) (cd : Cond) (cb : Nat) (j : Nat) (n : Count) (len : Nat),
    let k := coreOf (slotState s c m) c
    slotRuns s c m ⟨cd, cb, .brpt j n len⟩ = true → k.r.pc + len < 4096 → j < 3 →
    ∃ u, exec (.brpt c) s = .next u ∧
      rf (regsOf u c).ls j = BitVec.ofNat 32 (k.r.pc + 1) ∧ rf (regsOf u c).le j = BitVec.ofNat 32 (k.r.pc + len) ∧
      rf (regsOf u c).lc j = BitVec.ofNat 32 (repeatCount k n) ∧
      (repeatCount k n = 0 → (regsOf u c).pc = k.r.pc + len + 1) ∧
      (repeatCount k n ≠ 0 → (coreOf u c).lact.getLsbD j = true ∧ (regsOf u c).pc = k.r.pc + 1))

/-- END ends the kernel's tick: it stops fetching, its image is its registers, and its margin is the deadline less the
time of END. TRAP posts an event with its number to queue 0 in sample mode, which counts it as lost while it is
disabled, and takes vector 0x01 in free mode; BRK halts the core and leaves its CODE for the debugger where a debug
session may halt it, and takes vector 0x02 where none may (assumption log 25). VOTE writes one vote of the steward's own
client, or all nine; SWAPREQ hands group and target to the swap logic of the die. It says where each of these commands
completes with its effect: END, TRAP, BRK, VOTE, SWAPREQ. -/
def Obligations.EndAndEvents : Prop :=
  (∀ (s : State) (c : CoreRef) (m : Mode) (cd : Cond) (cb tm : Nat),
    slotRuns s c m ⟨cd, cb, .end_⟩ = true → c.stew = false → standbyOf (slotState s c m) c.die c.idx = none →
    tm ≤ deadlineTenths (slotState s c m) →
    ∃ u, exec (.end_ c tm) s = .next u ∧ (kern u c.die c.idx).ended = true ∧
      (kern u c.die c.idx).margin = some ((deadlineTenths (slotState s c m) : Int) - tm) ∧
      (kern u c.die c.idx).core.img = slotRegs s c m ∧ regsOf u c = slotRegs s c m) ∧
  (∀ (s : State) (c : CoreRef) (m : Mode) (cd : Cond) (cb : Nat) (n : Nat),
    slotRuns s c m ⟨cd, cb, .trap n⟩ = true → m = .sample →
    bitF (slotState s c m) (Reg.QUEUE_CFG c.die 0) F.QUEUE_CFG_EN = false →
    ∃ u, exec (.trap c) s = .next u ∧
      reg u (Reg.QUEUE_LOST c.die 0) = reg (slotState s c m) (Reg.QUEUE_LOST c.die 0) + 1 ∧
      (regsOf u c).d = (slotRegs s c m).d) ∧
  (∀ (s : State) (c : CoreRef) (m : Mode) (cd : Cond) (cb : Nat) (n : Nat),
    let t := slotState s c m
    let q := queuePush t c.die 0 [BitVec.ofNat 32 (2 ^ 28 + n * 2 ^ 16 + c.idx), pulseLow t]
    slotRuns s c m ⟨cd, cb, .trap n⟩ = true → m = .sample →
    ∃ u, exec (.trap c) s = .next u ∧ u.regs = q.regs ∧ u.mem = q.mem ∧ (regsOf u c).d = (slotRegs s c m).d) ∧
  (∀ (s : State) (c : CoreRef) (m : Mode) (cd : Cond) (cb : Nat) (n : Nat),
    let k := coreOf (slotState s c m) c
    slotRuns s c m ⟨cd, cb, .trap n⟩ = true → m ≠ .sample → iplExc k.free = false → levelAt k k.r.pc = none →
    ∃ u, exec (.trap c) s = .next u ∧ (coreOf u c).free.epc = BitVec.ofNat 32 ((k.r.pc + 1) % 2 ^ 29) ∧
      (regsOf u c).pc = wrapPc c ((k.free.ivb.toNat + 8) % 2 ^ 29) ∧
      (coreOf u c).free.icause = BitVec.ofNat 32 (n * 2 ^ 16 + 1) ∧ iplExc (coreOf u c).free = true) ∧
  (∀ (s : State) (c : CoreRef) (m : Mode) (cd : Cond) (cb : Nat) (n : Nat),
    let k := coreOf (slotState s c m) c
    slotRuns s c m ⟨cd, cb, .brk n⟩ = true → debugHalts (slotState s c m) = false → iplExc k.free = false →
    levelAt k k.r.pc = none →
    ∃ u, exec (.brk c) s = .next u ∧ (coreOf u c).free.epc = BitVec.ofNat 32 ((k.r.pc + 1) % 2 ^ 29) ∧
      (regsOf u c).pc = wrapPc c ((k.free.ivb.toNat + 16) % 2 ^ 29) ∧
      (coreOf u c).free.icause = BitVec.ofNat 32 (n * 2 ^ 16 + 2) ∧ iplExc (coreOf u c).free = true) ∧
  (∀ (s : State) (c : CoreRef) (m : Mode) (cd : Cond) (cb : Nat) (n : Nat),
    let k := coreOf (slotState s c m) c
    slotRuns s c m ⟨cd, cb, .brk n⟩ = true → debugHalts (slotState s c m) = true → levelAt k k.r.pc = none →
    ∃ u, exec (.brk c) s = .next u ∧ (coreOf u c).brk = some n ∧ (regsOf u c).pc = pcAfter k.r.pc ∧
      (c.stew = true → (stew u c.die c.idx).st = .debug) ∧
      (c.stew = false → (kern u c.die c.idx).suspended = true) ∧ (regsOf u c).d = k.r.d) ∧
  (∀ (s : State) (c : CoreRef) (m : Mode) (cd : Cond) (cb : Nat) (n : Nat) (b : Bool),
    slotRuns s c m ⟨cd, cb, .voteOne n b⟩ = true → n < 9 →
    ∃ u, exec (.vote c) s = .next u ∧
      tab u tVote c.die c.idx = wPut (tab (slotState s c m) tVote c.die c.idx) (2 * n + 1) (2 * n) (if b then 2 else 0)) ∧
  (∀ (s : State) (c : CoreRef) (m : Mode) (cd : Cond) (cb : Nat) (n : Nat),
    slotRuns s c m ⟨cd, cb, .voteSet n⟩ = true →
    ∃ u, exec (.vote c) s = .next u ∧
      (∀ i, i < 9 → wField (tab u tVote c.die c.idx) (2 * i + 1) (2 * i) = if (rf (slotRegs s c m).d n).getLsbD i then 2 else 0)) ∧
  (∀ (s : State) (c : CoreRef) (m : Mode) (cd : Cond) (cb : Nat) (dg dt : Nat) (y : Bool),
    let t := slotState s c m
    slotRuns s c m ⟨cd, cb, .swapreq dg dt y⟩ = true →
    ∃ u, exec (.swapreq c) s = .next u ∧
      u.swaps = (requestSwap t c.die (rf (regsOf t c).d dg).toNat (rf (regsOf t c).d dt).toNat y none).swaps ∧
      (regsOf u c).d = (regsOf t c).d)

/-- Entry to a vector saves the address and the flags, sets the level and clears IE, and fetches from IVB; RTI restores
flags, active levels, LEVEL, IE, EXC and address. EI and DI write IE alone. WAIT stops a steward until a pending source
resumes it, and an accepted source is entered at vector 0x20 plus its number. An illegal word in free mode is entered at
vector 0x00 and writes nothing; an uncorrectable program word of a kernel in sample mode faults it with code 0x2. An
illegal word of a kernel in sample mode, which admission has kept out, stops the model with a fault of its own
(assumption log 5). It says where each of these commands completes with its effect: RTI, EI, DI, WAIT, WAIT_RESUME,
INTERRUPT_ENTRY, EXCEPTION_ENTRY. -/
def Obligations.InterruptsAndReturn : Prop :=
  (∀ (s : State) (c : CoreRef) (m : Mode) (cd : Cond) (cb : Nat),
    let k := coreOf (slotState s c m) c
    slotRuns s c m ⟨cd, cb, .rti⟩ = true →
    ∃ u, exec (.rti c) s = .next u ∧ (regsOf u c).pc = wrapPc c k.free.epc.toNat ∧
      (regsOf u c).flg = BitVec.ofNat 7 (wField k.free.eflg 6 0) ∧ (coreOf u c).lact = BitVec.ofNat 3 (wField k.free.eflg 9 7) ∧
      iplLevel (coreOf u c).free = wField k.free.eflg 13 11 ∧ iplIE (coreOf u c).free = k.free.eflg.getLsbD 10 ∧ iplExc (coreOf u c).free = k.free.eflg.getLsbD 14 ∧
      (regsOf u c).d = k.r.d) ∧
  (∀ (s : State) (c : CoreRef) (m : Mode) (cd : Cond) (cb : Nat),
    let k := coreOf (slotState s c m) c
    slotRuns s c m ⟨cd, cb, .ei⟩ = true →
    ∃ u, exec (.ei c) s = .next u ∧ iplIE (coreOf u c).free = true ∧ iplExc (coreOf u c).free = iplExc k.free ∧
      iplLevel (coreOf u c).free = iplLevel k.free ∧ (regsOf u c).d = k.r.d) ∧
  (∀ (s : State) (c : CoreRef) (m : Mode) (cd : Cond) (cb : Nat),
    let k := coreOf (slotState s c m) c
    slotRuns s c m ⟨cd, cb, .di⟩ = true →
    ∃ u, exec (.di c) s = .next u ∧ iplIE (coreOf u c).free = false ∧ iplExc (coreOf u c).free = iplExc k.free ∧
      iplLevel (coreOf u c).free = iplLevel k.free ∧ (regsOf u c).d = k.r.d) ∧
  (∀ (s : State) (c : CoreRef) (m : Mode) (cd : Cond) (cb : Nat),
    let k := coreOf (slotState s c m) c
    slotRuns s c m ⟨cd, cb, .wait⟩ = true → c.stew = true → levelAt k k.r.pc = none →
    ∃ u, exec (.wait c) s = .next u ∧ (stew u c.die c.idx).st ≠ .run ∧ (regsOf u c).pc = pcAfter k.r.pc ∧ (regsOf u c).d = k.r.d) ∧
  (∀ (s : State) (c : CoreRef) (m : Mode) (cd : Cond) (cb : Nat),
    let k := coreOf (slotState s c m) c
    slotRuns s c m ⟨cd, cb, .wait⟩ = true → c.stew = false → levelAt k k.r.pc = none →
    ∃ u, exec (.wait c) s = .next u ∧ (kern u c.die c.idx).suspended = true ∧ (regsOf u c).pc = pcAfter k.r.pc) ∧
  (∀ (s : State) (c : CoreRef),
    s.wf = true → hasCore s c = true → c.stew = true → (stew s c.die c.idx).st = .wait → irqPending s c.die c.idx ≠ 0 →
    (irqAccepted s c.die c.idx = none ∨ heldOff (stew s c.die c.idx).core = true) →
    ∃ u, exec (.waitResume c) s = .next u ∧ (stew u c.die c.idx).st = .run ∧ coreOf u c = coreOf s c) ∧
  (∀ (s : State) (c : CoreRef) (n : Nat),
    s.wf = true → hasCore s c = true → c.stew = true → (stew s c.die c.idx).st = .wait → irqPending s c.die c.idx ≠ 0 →
    heldOff (stew s c.die c.idx).core = false → irqAccepted s c.die c.idx = some n →
    ∃ u, exec (.waitResume c) s = .next u ∧ (stew u c.die c.idx).st = .run ∧
      (regsOf u c).pc = ((coreOf s c).free.ivb.toNat + 8 * (0x20 + n)) % 2 ^ 29) ∧
  (∀ (s : State) (c : CoreRef) (n : Nat),
    s.wf = true → hasCore s c = true → c.stew = true → (stew s c.die c.idx).st = .run →
    heldOff (stew s c.die c.idx).core = false → irqAccepted s c.die c.idx = some n →
    ∃ u, exec (.interruptEntry c) s = .next u ∧ (coreOf u c).free.epc = BitVec.ofNat 32 ((coreOf s c).r.pc % 2 ^ 29) ∧
      (regsOf u c).pc = ((coreOf s c).free.ivb.toNat + 8 * (0x20 + n)) % 2 ^ 29 ∧ iplIE (coreOf u c).free = false ∧
      iplLevel (coreOf u c).free = irqPrio s c.die c.idx n + 1 ∧ (regsOf u c).d = (regsOf s c).d) ∧
  (∀ (s t : State) (c : CoreRef) (m : Mode),
    let k := coreOf t c
    hasCore s c = true → coreMode s c = some m → m ≠ .sample → fetchSlot s c m = .ok none t → t.wf = true →
    iplExc k.free = false → k.dly = none →
    ∃ u, exec (.exceptionEntry c) s = .next u ∧ (coreOf u c).free.epc = BitVec.ofNat 32 (k.r.pc % 2 ^ 29) ∧
      (regsOf u c).pc = wrapPc c (k.free.ivb.toNat % 2 ^ 29) ∧ iplExc (coreOf u c).free = true ∧ (regsOf u c).d = k.r.d) ∧
  (∀ (s t : State) (c : CoreRef),
    hasCore s c = true → coreMode s c = some .sample → fetchSlot s c .sample = .unc t → t.wf = true →
    ∃ u, exec (.exceptionEntry c) s = .next u ∧ (kern u c.die c.idx).st = .faulted ∧ (kern u c.die c.idx).fcode = 2) ∧
  (∀ (s : State) (c : CoreRef) (t : State),
    hasCore s c = true → coreMode s c = some .sample → fetchSlot s c .sample = .ok none t →
    exec (.exceptionEntry c) s = .fault .illegalInSample)

/-- Where a core executes an ALU, unary, DIV, multiply, complex multiply or search row without a parallel move, every
register but its destination, FLG, the registers of control and the pointers that its memory operands update stays (CMP
and TST write none; a search step may write IX), and every other core, register, table entry, line and byte of memory
reads as before the slot's writes. It says where each of these commands completes with its effect: DIV, NORM. -/
def Obligations.AluFrame : Prop :=
  (∀ (s : State) (c : CoreRef) (m : Mode) (cd : Cond) (cb : Nat) (f : BinFn) (dd ds1 : Nat) (s2 : Src2),
    let v := slotState s c m
    slotRuns s c m ⟨cd, cb, .binD f dd ds1 s2⟩ = true →
    ∃ u, exec (binInstr f c) s = .next u ∧ SameElsewhere v u c ∧
      (∀ n, (n ≠ dd ∨ f = .cmp ∨ f = .tst) → rf (regsOf u c).d n = rf (regsOf v c).d n) ∧
      (regsOf u c).a = (regsOf v c).a ∧ (regsOf u c).p = (regsOf v c).p ∧ (regsOf u c).e = (regsOf v c).e ∧ (regsOf u c).b = (regsOf v c).b ∧ (regsOf u c).l = (regsOf v c).l ∧ (regsOf u c).m = (regsOf v c).m ∧ (regsOf u c).ix = (regsOf v c).ix ∧ (regsOf u c).kmode = (regsOf v c).kmode ∧
      (coreOf u c).free = (coreOf v c).free ∧ (coreOf u c).bits = (coreOf v c).bits) ∧
  (∀ (s : State) (c : CoreRef) (m : Mode) (cd : Cond) (cb : Nat) (f : UnFn) (dd ds : Nat),
    let v := slotState s c m
    slotRuns s c m ⟨cd, cb, .unD f dd ds⟩ = true →
    ∃ u, exec (unInstr f c) s = .next u ∧ SameElsewhere v u c ∧
      (∀ n, n ≠ dd → rf (regsOf u c).d n = rf (regsOf v c).d n) ∧
      (regsOf u c).a = (regsOf v c).a ∧ (regsOf u c).p = (regsOf v c).p ∧ (regsOf u c).e = (regsOf v c).e ∧ (regsOf u c).b = (regsOf v c).b ∧ (regsOf u c).l = (regsOf v c).l ∧ (regsOf u c).m = (regsOf v c).m ∧ (regsOf u c).ix = (regsOf v c).ix ∧ (regsOf u c).kmode = (regsOf v c).kmode ∧
      (coreOf u c).free = (coreOf v c).free ∧ (coreOf u c).bits = (coreOf v c).bits) ∧
  (∀ (s : State) (c : CoreRef) (m : Mode) (cd : Cond) (cb : Nat) (frac : Bool) (dd ds1 ds2 : Nat),
    let v := slotState s c m
    slotRuns s c m ⟨cd, cb, .div frac dd ds1 ds2⟩ = true →
    ∃ u, exec (.div c) s = .next u ∧ SameElsewhere v u c ∧
      (∀ n, n ≠ dd → rf (regsOf u c).d n = rf (regsOf v c).d n) ∧
      (regsOf u c).a = (regsOf v c).a ∧ (regsOf u c).p = (regsOf v c).p ∧ (regsOf u c).e = (regsOf v c).e ∧ (regsOf u c).b = (regsOf v c).b ∧ (regsOf u c).l = (regsOf v c).l ∧ (regsOf u c).m = (regsOf v c).m ∧ (regsOf u c).ix = (regsOf v c).ix ∧ (regsOf u c).kmode = (regsOf v c).kmode ∧
      (coreOf u c).free = (coreOf v c).free ∧ (coreOf u c).bits = (coreOf v c).bits) ∧
  (∀ (s : State) (c : CoreRef) (m : Mode) (cd : Cond) (cb : Nat) (f : BinFn) (ad as1 : Nat) (s2 : ASrc2),
    let v := slotState s c m
    slotRuns s c m ⟨cd, cb, .binA f ad as1 s2⟩ = true →
    ∃ u, exec (binInstr f c) s = .next u ∧ SameElsewhere v u c ∧
      (∀ n, (n ≠ ad ∨ f = .cmp ∨ f = .tst) → accOf (regsOf u c) n = accOf (regsOf v c) n) ∧
      (regsOf u c).d = (regsOf v c).d ∧ (regsOf u c).p = (regsOf v c).p ∧ (regsOf u c).e = (regsOf v c).e ∧ (regsOf u c).b = (regsOf v c).b ∧ (regsOf u c).l = (regsOf v c).l ∧ (regsOf u c).m = (regsOf v c).m ∧ (regsOf u c).ix = (regsOf v c).ix ∧ (regsOf u c).kmode = (regsOf v c).kmode ∧
      (coreOf u c).free = (coreOf v c).free ∧ (coreOf u c).bits = (coreOf v c).bits) ∧
  (∀ (s : State) (c : CoreRef) (m : Mode) (cd : Cond) (cb : Nat) (f : UnFn) (ad as1 : Nat),
    let v := slotState s c m
    slotRuns s c m ⟨cd, cb, .unA f ad as1⟩ = true →
    ∃ u, exec (unInstr f c) s = .next u ∧ SameElsewhere v u c ∧
      (∀ n, n ≠ ad → accOf (regsOf u c) n = accOf (regsOf v c) n) ∧
      (regsOf u c).d = (regsOf v c).d ∧ (regsOf u c).p = (regsOf v c).p ∧ (regsOf u c).e = (regsOf v c).e ∧ (regsOf u c).b = (regsOf v c).b ∧ (regsOf u c).l = (regsOf v c).l ∧ (regsOf u c).m = (regsOf v c).m ∧ (regsOf u c).ix = (regsOf v c).ix ∧ (regsOf u c).kmode = (regsOf v c).kmode ∧
      (coreOf u c).free = (coreOf v c).free ∧ (coreOf u c).bits = (coreOf v c).bits) ∧
  (∀ (s : State) (c : CoreRef) (m : Mode) (cd : Cond) (cb : Nat) (dd as1 : Nat),
    let v := slotState s c m
    slotRuns s c m ⟨cd, cb, .normA dd as1⟩ = true →
    ∃ u, exec (.norm c) s = .next u ∧ SameElsewhere v u c ∧
      (∀ n, n ≠ dd → rf (regsOf u c).d n = rf (regsOf v c).d n) ∧
      (regsOf u c).a = (regsOf v c).a ∧ (regsOf u c).p = (regsOf v c).p ∧ (regsOf u c).e = (regsOf v c).e ∧ (regsOf u c).b = (regsOf v c).b ∧ (regsOf u c).l = (regsOf v c).l ∧ (regsOf u c).m = (regsOf v c).m ∧ (regsOf u c).ix = (regsOf v c).ix ∧ (regsOf u c).kmode = (regsOf v c).kmode ∧
      (coreOf u c).free = (coreOf v c).free ∧ (coreOf u c).bits = (coreOf v c).bits) ∧
  (∀ (s : State) (c : CoreRef) (m : Mode) (cd : Cond) (cb : Nat) (f : MulFn) (n : Nat) (s1 s2 : DualOp) (int : Bool) (x y : Word) (w v : State),
    slotRuns s c m ⟨cd, cb, .mul f n s1 s2 int .none⟩ = true → isComplex f = false →
    readDual (slotState s c m) c s1 = .ok x w → readDual w c s2 = .ok y v → v.wf = true →
    ∃ u, exec (mulInstr f c) s = .next u ∧ SameElsewhere v u c ∧
      (∀ i, i ≠ n → accOf (regsOf u c) i = accOf (regsOf v c) i) ∧
      (regsOf u c).p = (postDual c (postDual c (regsOf v c) s1) s2).p ∧
      (regsOf u c).d = (regsOf v c).d ∧ (regsOf u c).e = (regsOf v c).e ∧ (regsOf u c).b = (regsOf v c).b ∧ (regsOf u c).l = (regsOf v c).l ∧ (regsOf u c).m = (regsOf v c).m ∧ (regsOf u c).ix = (regsOf v c).ix ∧ (regsOf u c).kmode = (regsOf v c).kmode ∧
      (coreOf u c).free = (coreOf v c).free ∧ (coreOf u c).bits = (coreOf v c).bits) ∧
  (∀ (s : State) (c : CoreRef) (m : Mode) (cd : Cond) (cb : Nat) (f : MulFn) (n : Nat) (s1 s2 : DualOp) (x y : Word × Word) (w v : State),
    slotRuns s c m ⟨cd, cb, .mul f n s1 s2 false .none⟩ = true → isComplex f = true →
    readPair (slotState s c m) c s1 = .ok x w → readPair w c s2 = .ok y v → v.wf = true →
    ∃ u, exec (mulInstr f c) s = .next u ∧ SameElsewhere v u c ∧
      (f ≠ .bfly → ∀ i, i ≠ n → i ≠ n + 1 → accOf (regsOf u c) i = accOf (regsOf v c) i) ∧
      (regsOf u c).p = (postDual c (postDual c (regsOf v c) s1) s2).p ∧
      (regsOf u c).d = (regsOf v c).d ∧ (regsOf u c).e = (regsOf v c).e ∧ (regsOf u c).b = (regsOf v c).b ∧ (regsOf u c).l = (regsOf v c).l ∧ (regsOf u c).m = (regsOf v c).m ∧ (regsOf u c).ix = (regsOf v c).ix ∧ (regsOf u c).kmode = (regsOf v c).kmode ∧
      (coreOf u c).free = (coreOf v c).free ∧ (coreOf u c).bits = (coreOf v c).bits) ∧
  (∀ (s : State) (c : CoreRef) (m : Mode) (cd : Cond) (cb : Nat) (f : SearchFn) (dd : Nat) (src : DualOp) (y : Word) (v : State),
    slotRuns s c m ⟨cd, cb, .search f dd src .none⟩ = true → readDual (slotState s c m) c src = .ok y v → v.wf = true →
    ∃ u, exec (searchInstr f c) s = .next u ∧ SameElsewhere v u c ∧
      (∀ n, n ≠ dd → rf (regsOf u c).d n = rf (regsOf v c).d n) ∧
      (regsOf u c).p = (postDual c (regsOf v c) src).p ∧
      (regsOf u c).a = (regsOf v c).a ∧ (regsOf u c).e = (regsOf v c).e ∧ (regsOf u c).b = (regsOf v c).b ∧ (regsOf u c).l = (regsOf v c).l ∧ (regsOf u c).m = (regsOf v c).m ∧ (regsOf u c).kmode = (regsOf v c).kmode ∧
      (coreOf u c).free = (coreOf v c).free ∧ (coreOf u c).bits = (coreOf v c).bits)

/-- With command c at the front of the queue and rest behind it, a step is exec of c on the state whose queue is rest.
On an empty queue the block idles; that is the choice of the model (assumption log 20). -/
def Obligations.StepTakesFront : Prop :=
  (∀ (s : State) (c : Instr) (rest : List Instr),
    step { s with pending := c :: rest } = exec c { s with pending := rest }) ∧
  (∀ (s : State),
    s.pending = [] →
    step s = .next s)

/-- For every state in canonical form (every sparse table, memory among them, lists rising keys and no default) and
every step to a next state, the next state is in canonical form, belongs to the same part, and its queue is the old
queue without its front. -/
def Obligations.StepKeepsCanonical : Prop :=
  ∀ (s t : State),
  s.wf = true → step s = .next t →
  t.wf = true ∧ t.part = s.part ∧ t.pending = s.pending.tail

/-- On a part with eight dies every well-formed command but EXCEPTION_ENTRY answers a next state, in every state: none
of them ends in a fault or a refusal. On a smaller part the only other answer is the refusal of a command for a die that
the part does not have. Where the condition of an event does not hold, the command leaves the state as it is; that is
the choice of the model (assumption log 4). -/
def Obligations.EveryCommandCompletes : Prop :=
  (∀ (s : State) (i : Instr),
    dieCount s.part = 8 → i.wf = true → (∀ c, i ≠ .exceptionEntry c) →
    ∃ t, exec i s = .next t) ∧
  (∀ (s : State) (i : Instr),
    i.wf = true → (∀ c, i ≠ .exceptionEntry c) →
    (∃ t, exec i s = .next t) ∨ (exec i s = .refused .noSuchUnit ∧ dieCount s.part < 8))

/-- For every state whose memory is in canonical form (rising addresses, no byte that an unlisted address reads as) and
every step to a next state, the memory of the next state is in canonical form too, and the part stays. -/
def Obligations.StepKeepsMemory : Prop :=
  ∀ (s t : State),
  Memory.wf s.mem = true → step s = .next t →
  Memory.wf t.mem = true ∧ t.part = s.part

/-- The state right after reset is in canonical form, and its queue is empty. -/
def Obligations.ResetIsCanonical : Prop :=
  State.reset.wf = true ∧ State.reset.pending = []

/-- After reset the Pulse is stopped; every kernel is HELD with MODE[0] set and no other register bit set; steward 0 of
die 0 runs from address 0 and every other steward is HELD; no line is valid. Every register reads its reset value, among
them STEWARD_CTL, PULSE_CTL, PULSE_STAT, GOV_MANUAL, BUS_CTL and BOOT_STAT of the dies with the values of their tables.
-/
def Obligations.ResetLeaves : Prop :=
  ∀ (d n : Nat),
  State.reset.phase = .stopped ∧
    (kern State.reset d n).st = .held ∧ (kern State.reset d n).core.r = { Regs.zero with kmode := 1 } ∧
    (stew State.reset d n).st = (if d = 0 ∧ n = 0 then .run else .held) ∧ (stew State.reset 0 0).core.r.pc = 0 ∧
    line State.reset d n = ⟨0, false⟩ ∧
    reg State.reset (Reg.STEWARD_CTL d 0) = (if d = 0 then 1 else 0) ∧ reg State.reset (Reg.STEWARD_CTL d 1) = 0 ∧
    reg State.reset (Reg.PULSE_CTL d) = 0 ∧ reg State.reset (Reg.GOV_MANUAL d) = 0x3C ∧
    (∀ r, reg State.reset r = resetReg State.reset.part r) ∧ reg State.reset (Reg.PULSE_STAT d) = 0x10 ∧
    reg State.reset (Reg.BUS_CTL d) = (if d = 0 then 0 else 3) ∧ bitF State.reset (Reg.BOOT_STAT 0) F.BOOT_STAT_PRIV = true

/-- The word 0x8802_62C6_8041_0000 is MAC A0, (P2)+M2, (P9)+M9 in parallel with STL 0x2010, A1, and
0x0B80_0001_8000_0020 is a conditional branch on bit 0x020 taken when the bit is clear, six words ahead. -/
def Obligations.WordsDecode : Prop :=
  decodeWord 0x8802_62C6_8041_0000 =
    some ⟨.al, 0, .mul .mac 0 (.mem ⟨2, .addM⟩) (.mem ⟨9, .addM⟩) false (.stlA (.wadi 0x2010) 1)⟩ ∧
  decodeWord 0x0B80_0001_8000_0020 = some ⟨.bf, 0x20, .bra 6⟩

/-- RESET_N and an expired trial put the dies into reset: the Pulse stops, kernels and stewards lose their state, every
steward is HELD, every register outside the WAKE page returns to its reset value, and fuses, Shell store and the WAKE
page stay. While the dies are neither in run nor in reset RESET_N changes nothing (assumption log 4). The release
records the cause and starts the Seed: in the error state after a failed self-test, in recovery with RECOV_N low, in a
fast wake from HUSK with a record, otherwise at the directory. It says where each of these commands completes with its
effect: RESET_N_ASSERT, RESET_RELEASE, TRIAL_EXPIRY. -/
def Obligations.PackageReset : Prop :=
  (∀ (s : State),
    s.wf = true → (s.keep.seq = .run ∨ s.keep.seq = .held) →
    ∃ t, exec (.resetNAssert) s = .next t ∧
      t.keep.seq = .held ∧
      t.keep.cause = 1 ∧
      t.phase = .stopped ∧
      t.kern = [] ∧
      t.lines = [] ∧
      t.fuses = s.fuses ∧
      t.shell = s.shell ∧
      (∀ d i, (stew t d i).st = .held) ∧
      (∀ r, reg t r = if keepReg r then reg s r else resetReg s.part r)) ∧
  (∀ (s : State),
    s.keep.seq ≠ .run → s.keep.seq ≠ .held →
    exec (.resetNAssert) s = .next s) ∧
  (∀ (s : State) (recov ok : Bool),
    s.wf = true → s.keep.seq = .held →
    ∃ t, exec (.resetRelease recov ok) s = .next t ∧
      t.keep.seq = .run ∧
      fld t (Reg.BOOT_STAT 0) F.BOOT_STAT_CAUSE = s.keep.cause % 16 ∧
      (ok = false → t.boot.step = .error ∧ t.boot.status = 7) ∧
      (ok = true → recov = true → t.boot.step = .recovery ∧ t.boot.status = 4) ∧
      (ok = true → recov = false → t.boot.step = if s.keep.cause = 4 ∧ fastRecord s then .fastHead else .directory)) ∧
  (∀ (s : State),
    s.wf = true → bitF s (Reg.BOOT_STAT 0) F.BOOT_STAT_TRIAL = true →
    ∃ t, exec (.trialExpiry) s = .next t ∧
      t.keep.seq = .held ∧
      t.keep.cause = 2 ∧
      t.phase = .stopped ∧
      t.kern = [] ∧
      t.lines = [] ∧
      t.fuses = s.fuses ∧
      t.shell = s.shell ∧
      (∀ d i, (stew t d i).st = .held) ∧
      (∀ r, reg t r = if keepReg r then reg s r else resetReg s.part r))

/-- With no valid copy of the directory the attempt fails with STATUS_N code 1; otherwise the Seed checks the slots of
the copy with the higher generation. A checked slot shows its code, the other slot keeps its own, and the choice follows
once both are read. After a failed attempt the Seed starts again. It says where each of these commands completes with
its effect: BOOT_DIRECTORY_READ, SLOT_CHECK, BOOT_RETRY_WAIT_END. -/
def Obligations.BootSelection : Prop :=
  (∀ (s : State) (p q again : List Byte),
    seedRuns s = true → s.boot.step = .directory → dirChoose p q = none →
    exec (.bootDirectoryRead p q again) s = .next (attemptFail { s with boot := { s.boot with reads := dirReads p q } } 1)) ∧
  (∀ (s : State) (p q again c : List Byte),
    seedRuns s = true → s.boot.step = .directory → dirChoose p q = some c →
    ∃ t, exec (.bootDirectoryRead p q again) s = .next t ∧
      t.boot.step = .slots ∧
      t.boot.dir = dirSlots c ∧
      t.boot.flash = flashSetting c again ∧
      t.boot.reads = dirReads p q ∧
      t.boot.images = [] ∧
      t.mem = s.mem ∧
      { t with mem := s.mem, boot := s.boot } = s) ∧
  (∀ (s : State) (i : Nat) (img : Option (List Byte)),
    s.wf = true → seedRuns s = true → s.boot.step = .slots → i < 2 → alGet i s.boot.images = none →
    ∃ t, exec (.slotCheck i img) s = .next t ∧
      slotCodeOf t i = slotCheck s i img ∧
      slotCodeOf t (1 - i) = slotCodeOf s (1 - i) ∧
      (alGet (1 - i) s.boot.images = none → t.boot.step = .slots) ∧
      { t with regs := s.regs, mem := s.mem, boot := s.boot } = s ∧
      RegsBut s t [Reg.BOOT_VERA 0, Reg.BOOT_VERB 0, Reg.BOOT_STAT 0, Reg.BOOT_SLOTA 0, Reg.BOOT_SLOTB 0]) ∧
  (∀ (s : State) (i : Nat) (img : Option (List Byte)),
    seedRuns s = true → s.boot.step = .fastHead → i = s.boot.slot →
    exec (.slotCheck i img) s = .next (fastHeader (noteHeader s (oasis s 8).toNat true (img.getD [])) img)) ∧
  (∀ (s : State),
    seedRuns s = true → s.boot.step = .wait →
    ∃ t, exec (.bootRetryWaitEnd) s = .next t ∧
      t.boot.step = .directory ∧
      t.boot.status = 0 ∧
      t.boot.failed = [] ∧
      { t with boot := s.boot } = s)

/-- A segment streamed while the Seed loads ends in the next one or in the failure of its slot; after handoff the
segments left over load the same way. The handoff clears PRIV, locks the firewall of every die, sets REMAP and ROMLOCK
everywhere, and starts steward 0 of die 0 at the image's entry. A confirmation acts only on an image on trial: TRIAL and
the watchdog are cleared, the confirmed record is written with the image's digest, version and slot, the floor rises to
its version where RAISE is set and it is lower, its key slots are revoked, and the Oasis receives the fast-wake record.
It says where each of these commands completes with its effect: SEGMENT_LOAD, FAST_WAKE_LOAD_DONE, BOOT_HANDOFF,
BOOT_CONFIRM. -/
def Obligations.BootLoading : Prop :=
  (∀ (s : State) (i : Nat) (rest : List Nat) (data : List Byte),
    let h := imageInHand s
    let x := loadSegment (noteSegment s h i) false h i data
    seedRuns s = true → s.boot.step = .load → s.boot.todo = i :: rest → dataFits h i data = true →
    exec (.segmentLoad data) s = .next (if x.2 ≠ 0 then segmentFail x.1 x.2 else checkReady { x.1 with boot := { x.1.boot with todo := rest } })) ∧
  (∀ (s : State) (i : Nat) (rest : List Nat) (data : List Byte),
    let h := imageInHand s
    let x := loadSegment (noteSegment s h i) false h i data
    running s = true → s.boot.step = .done → s.boot.later = i :: rest → dataFits h i data = true →
    exec (.segmentLoad data) s = .next (if x.2 ≠ 0 then segmentFail x.1 x.2 else { x.1 with boot := { x.1.boot with later := rest } })) ∧
  (∀ (s : State),
    s.wf = true → running s = true → s.boot.step = .done → bootMode s = 1 → s.boot.later = [] →
    bitF s (Reg.BOOT_STAT 0) F.BOOT_STAT_LOADED = false →
    ∃ t, exec (.fastWakeLoadDone) s = .next t ∧
      bitF t (Reg.BOOT_STAT 0) F.BOOT_STAT_LOADED = true ∧
      { t with regs := s.regs } = s ∧
      RegsBut s t [Reg.BOOT_STAT 0]) ∧
  (∀ (s : State),
    s.wf = true → seedRuns s = true → s.boot.step = .ready →
    ∃ t, exec (.bootHandoff) s = .next t ∧
      t.boot.step = .done ∧
      bitF t (Reg.BOOT_STAT 0) F.BOOT_STAT_PRIV = false ∧
      (stew t 0 0).st = .run ∧
      (stew t 0 0).core.r.pc = imgEntry (imageInHand s) % 2 ^ 29 ∧
      (∀ d, d < dieCount s.part → bitF t (Reg.FW_CTL d) F.FW_CTL_LOCK = true ∧ wField (reg t (Reg.BUS_CTL d)) 1 0 = 3)) ∧
  (∀ (s : State) (a : Access),
    let r := Reg.BOOT_CONFIRM 0
    reachesReg s a r = true →
    exec (.bootConfirm a) s = .next (if bitF s (Reg.BOOT_STAT 0) F.BOOT_STAT_TRIAL then confirm s else s).answered) ∧
  (∀ (s : State) (a : Access),
    let h := imageInHand s
    let x := writeRecord s.shell 0x100 (imgDigest h ++ toBytes 4 (imgVersion h) ++ toBytes 4 (s.boot.slot % 2))
    reachesReg s a (Reg.BOOT_CONFIRM 0) = true → bitF s (Reg.BOOT_STAT 0) F.BOOT_STAT_TRIAL = true →
    ∃ t, exec (.bootConfirm a) s = .next t ∧
      bitF t (Reg.BOOT_STAT 0) F.BOOT_STAT_TRIAL = false ∧
      reg t (Reg.BOOT_TRIAL 0) = 0 ∧
      t.shell = (if imgRaise h && decide (shellFloor x < imgVersion h) then writeRecord x 0 (toBytes 4 (imgVersion h)) else x) ∧
      t.fuses = { s.fuses with revoked := s.fuses.revoked ||| imgRevoke h % 16 } ∧
      oasis t 0 = 0x0A51_0001 ∧ oasis t 4 = BitVec.ofNat 32 (s.boot.slot % 2) ∧
      oasis t 8 = BitVec.ofNat 32 (slotOff s (s.boot.slot % 2)) ∧ oasis t 0xC = BitVec.ofNat 32 (imgVersion h) ∧
      (∀ i, i < (imgDigest h).length → loadByte t (oasisA + 0x10 + i) = (imgDigest h).getD i 0) ∧
      oasis t 0x40 = 0 ∧
      (∀ b, (b < oasisA ∨ oasisA + 0x44 ≤ b) → loadByte t b = loadByte s b) ∧
      t.resp = .ok 0 ∧
      { t with mem := s.mem, ecc := s.ecc, regs := s.regs, shell := s.shell, fuses := s.fuses, resp := s.resp } = s ∧
      RegsBut s t [Reg.BOOT_STAT 0, Reg.BOOT_TRIAL 0])

/-- In recovery mode GO starts the check of the image in the buffer, whose end clears BUSY, shows its code, and makes
the image ready or lets the Seed wait for another. STATUS_N follows DRIVE once the Seed has handed over. A debug
certificate that is accepted adds its permissions (assumption log 62); the debug port halts a steward before LOCK is
blown or under permission bit 0 (assumption log 25), and programs fuses before LOCK is blown, none after. It says where
each of these commands completes with its effect: RECOVERY_GO, RECOVERY_CHECK_DONE, BOOT_STATUSN_WRITE,
DEBUG_CERT_VERIFY, STEWARD_DEBUG_HALT, DEBUG_FUSE_PROGRAM. -/
def Obligations.BootRecoveryDebug : Prop :=
  (∀ (s : State) (a : Access) (len : Nat),
    let r := Reg.BOOT_RECOV 0
    reachesReg s a r = true → bootMode s = 2 → s.boot.step = .recovery →
    exec (.recoveryGo a len) s = .next ({ setFld (setFld s r F.BOOT_RECOV_LEN len) r F.BOOT_RECOV_BUSY 1 with boot := { s.boot with step := .checking, status := 0 } }).answered) ∧
  (∀ (s : State) (a : Access) (len : Nat),
    let r := Reg.BOOT_RECOV 0
    reachesReg s a r = true → bootMode s ≠ 2 →
    exec (.recoveryGo a len) s = .next (s).answered) ∧
  (∀ (s : State),
    s.wf = true → seedRuns s = true → s.boot.step = .checking →
    ∃ t, exec (.recoveryCheckDone) s = .next t ∧
      bitF t (Reg.BOOT_RECOV 0) F.BOOT_RECOV_BUSY = false ∧
      fld t (Reg.BOOT_RECOV 0) F.BOOT_RECOV_RESULT = (recoverImage s).2 ∧
      t.boot.step = (if (recoverImage s).2 = 0 then .ready else .recovery)) ∧
  (∀ (s : State) (a : Access) (drive : Bool),
    let r := Reg.BOOT_STATUSN 0
    reachesReg s a r = true →
    exec (.bootStatusnWrite a drive) s = .next (if bitF s (Reg.BOOT_STAT 0) F.BOOT_STAT_PRIV then s else setFld s r F.BOOT_STATUSN_DRIVE drive.toNat).answered) ∧
  (∀ (s : State) (c : List Byte),
    let r := Reg.BOOT_DBG 0
    running s = true →
    exec (.debugCertVerify c) s = .next (if certOk s c && decide (s.boot.step ≠ .error) then powerSyncAll (setFld (setFld (zeroize s) r F.BOOT_DBG_PERM (fld s r F.BOOT_DBG_PERM ||| leAt c 5 1 % 8)) (Reg.BOOT_STAT 0) F.BOOT_STAT_DEBUG 1) none else s)) ∧
  (∀ (s : State) (d i : Nat),
    let st := stew s d i
    d < dieCount s.part → i < 2 → running s = true →
    (s.fuses.lock = false ∨ (fld s (Reg.BOOT_DBG 0) F.BOOT_DBG_PERM).testBit 0 = true) → (st.st = .run ∨ st.st = .wait) →
    exec (.stewardDebugHalt d i) s = .next (powerSync (setStew s d i { st with st := .debug, core := { st.core with brk := none } }) d)) ∧
  (∀ (s : State) (o : FuseOp),
    s.fuses.lock = false →
    exec (.debugFuseProgram o) s = .next { s with fuses := fuseProgram s.fuses o }) ∧
  (∀ (s : State) (o : FuseOp),
    s.fuses.lock = true →
    exec (.debugFuseProgram o) s = .next s)

/-- RUN is written through PULSE_CTL of die 0. While the Pulse is stopped PULSE_CFG takes a rate code of 0 to 5 and
PULSE_COUNT takes either word; while it runs, and for a rate code above 5, the write is ignored and PULSE_STAT.CFGREJ is
set. A synthesizer that loses lock clears LOCK and sets LOCKLOSS, and one that locks sets LOCK. It says where each of
these commands completes with its effect: PULSE_RUN_SET, PULSE_RUN_CLEAR, PULSE_CONFIG_WRITE, SYNTH_LOCK_LOSS,
SYNTH_RELOCK. -/
def Obligations.PulseRegisters : Prop :=
  (∀ (s : State) (a : Access),
    let r := Reg.PULSE_CTL 0
    reachesReg s a r = true →
    exec (.pulseRunSet a) s = .next (setFld s r F.PULSE_CTL_RUN 1).answered) ∧
  (∀ (s : State) (a : Access),
    let r := Reg.PULSE_CTL 0
    reachesReg s a r = true →
    exec (.pulseRunClear a) s = .next (setFld s r F.PULSE_CTL_RUN 0).answered) ∧
  (∀ (s : State) (a : Access) (v : Word),
    let r := Reg.PULSE_CFG 0
    reachesReg s a r = true → pulseRuns s = false → wGet v F.PULSE_CFG_RATE < 6 →
    exec (.pulseConfigWrite a .cfg v) s = .next (setFld (setFld s r F.PULSE_CFG_RATE (wGet v F.PULSE_CFG_RATE)) (Reg.PULSE_STAT 0) F.PULSE_STAT_RATE (wGet v F.PULSE_CFG_RATE)).answered) ∧
  (∀ (s : State) (a : Access) (v : Word),
    let r := Reg.PULSE_CFG 0
    reachesReg s a r = true → (pulseRuns s = true ∨ 6 ≤ wGet v F.PULSE_CFG_RATE) →
    exec (.pulseConfigWrite a .cfg v) s = .next (setFld s (Reg.PULSE_STAT 0) F.PULSE_STAT_CFGREJ 1).answered) ∧
  (∀ (s : State) (a : Access) (v : Word),
    let r := Reg.PULSE_COUNT_LO 0
    reachesReg s a r = true →
    exec (.pulseConfigWrite a .countLo v) s = .next (if pulseRuns s then setFld s (Reg.PULSE_STAT 0) F.PULSE_STAT_CFGREJ 1 else setReg s r v).answered) ∧
  (∀ (s : State) (a : Access) (v : Word),
    let r := Reg.PULSE_COUNT_HI 0
    reachesReg s a r = true →
    exec (.pulseConfigWrite a .countHi v) s = .next (if pulseRuns s then setFld s (Reg.PULSE_STAT 0) F.PULSE_STAT_CFGREJ 1 else setReg s r v).answered) ∧
  (∀ (s : State) (d : Nat),
    d < dieCount s.part → bitF s (Reg.PULSE_STAT d) F.PULSE_STAT_LOCK = true →
    exec (.synthLockLoss d) s = .next (setFld (setFld s (Reg.PULSE_STAT d) F.PULSE_STAT_LOCK 0) (Reg.PULSE_STAT d) F.PULSE_STAT_LOCKLOSS 1)) ∧
  (∀ (s : State) (d : Nat),
    d < dieCount s.part → running s = true → bitF s (Reg.PULSE_STAT d) F.PULSE_STAT_LOCK = false →
    exec (.synthRelock d) s = .next (setFld s (Reg.PULSE_STAT d) F.PULSE_STAT_LOCK 1))

/-- While RUN is 1 the end of a commit window is the next Pulse, with the count raised by one; the first Pulse of a run
carries the count held in PULSE_COUNT. The lines then read what was published up to it, and every running kernel whose
pod runs starts at step 0 with its pointer snapshot taken and RPC, LS, LE and LC cleared. A Pulse that tracks an input
comes only after that input's frame, which is the choice of the model (assumption log 16). The deadline of a tick opens
the commit window once everything that the Pulse made due has been done, and changes no line that readers see. With RUN
0 the Pulse stops after the commit window, the lines stay, and no swap request is left waiting. A running kernel that
has not reached END at the deadline has overrun: OVR is set, its overrun counter is raised by one, its staged writes are
discarded and its pointers are back at the snapshot of the tick's start; an overrun raises the counter of its die by
one. A kernel at END publishes, for a line that a kernel may write and that no other kernel of the die commits, holds or
clears, the last value it stored there (scaled where the kernel is displaced or comes back, R441), and holds that value
for later annulled stores. It says where each of these commands completes with its effect: PULSE, DEADLINE, PULSE_START,
PULSE_HALT. -/
def Obligations.PulseAndDeadline : Prop :=
  (∀ (s : State),
    s.wf = true → running s = true → s.phase = .commit → trackOwed s = false →
    bitF s (Reg.PULSE_CTL 0) F.PULSE_CTL_RUN = true →
    ∃ t, exec (.pulse) s = .next t ∧
      t = pulseWork s (pulseCount s + 1) ∧
      t.lines = (pulseGather s (pulseCount s + 1)).pub ∧
      pulseCount t = (pulseCount s + 1) % 2 ^ 64 ∧
      t.phase = .tick) ∧
  (∀ (s : State),
    running s = true → s.phase = .tick → tickOwed s = false →
    ∃ t, exec (.deadline) s = .next t ∧
      t.phase = .commit ∧
      t.lines = s.lines) ∧
  (∀ (s : State),
    s.wf = true → running s = true → s.phase = .stopped → bitF s (Reg.PULSE_CTL 0) F.PULSE_CTL_RUN = true →
    pulseLock s = true →
    ∃ t, exec (.pulseStart) s = .next t ∧
      pulseCount t = pulseCount s ∧
      t.phase = .tick) ∧
  (∀ (s : State),
    running s = true → s.phase = .commit → bitF s (Reg.PULSE_CTL 0) F.PULSE_CTL_RUN = false →
    ∃ t, exec (.pulseHalt) s = .next t ∧
      t.phase = .stopped ∧
      t.lines = s.lines ∧
      (∀ r, r ∈ t.swaps → r.applied = true)) ∧
  (∀ (s : State) (d k : Nat),
    s.wf = true → d < dieCount s.part → k < 144 → trackOwed s = false → running s = true → s.phase = .commit →
    bitF s (Reg.PULSE_CTL 0) F.PULSE_CTL_RUN = true →
    ∃ t, exec (.pulse) s = .next t ∧
      ((kern t d k).st = .run → domLive t d (pdPod (k / 18)) = true → (kern t d k).active = true ∧ (kern t d k).ended = false ∧
        (kern t d k).staged = [] ∧ (kern t d k).core.steps = 0 ∧ (kern t d k).core.halves = 0 ∧ (kern t d k).core.r.pc = 0 ∧ (kern t d k).core.rep = .idle ∧ (kern t d k).core.lact = 0 ∧ (kern t d k).core.r.rpc = 0 ∧ (kern t d k).core.r.ls = [] ∧
        (kern t d k).core.r.le = [] ∧ (kern t d k).core.r.lc = [] ∧ (kern t d k).core.snap.p = (kern t d k).core.r.p ∧ (kern t d k).core.snap.b = (kern t d k).core.r.b ∧ (kern t d k).core.snap.l = (kern t d k).core.r.l ∧ (kern t d k).core.snap.m = (kern t d k).core.r.m)) ∧
  (∀ (s : State),
    trackOwed s = true →
    exec (.pulse) s = .next s) ∧
  (∀ (s : State) (d k : Nat),
    let t := overrun d k s
    s.wf = true →
    (kern t d k).ovr = true ∧ (kern t d k).staged = [] ∧ (kern t d k).active = false ∧
      (kern t d k).core.r.p = (kern s d k).core.snap.p ∧ (kern t d k).core.r.m = (kern s d k).core.snap.m ∧
      (kern t d k).core.r.b = (kern s d k).core.snap.b ∧ (kern t d k).core.r.l = (kern s d k).core.snap.l ∧
      bitF t (Reg.KERNEL_STAT d k) F.KERNEL_STAT_OVR = true ∧
      reg t (Reg.KERNEL_OVR_CNT d k) = reg s (Reg.KERNEL_OVR_CNT d k) + 1 ∧
      reg t (Reg.PULSE_OVR_TOTAL d) = reg s (Reg.PULSE_OVR_TOTAL d) + 1) ∧
  (∀ (s : State) (d k n : Nat) (v : Word),
    s.wf = true → commitList s d k = [(n, v)] → kernelLineOk n = true →
    smGet (fun _ => deadLine) (commitKernel d k s).pub (d * 0x4000 + n) = ⟨rampScale s d k v, true⟩ ∧
      lastPub (commitKernel d k s) d n = v ∧ (commitKernel d k s).lines = s.lines) ∧
  (∀ (s : State) (d k : Nat),
    let kn := kern s d k
    s.wf = true → d < dieCount s.part → k < 144 → running s = true → s.phase = .tick → tickOwed s = false → kn.st = .run →
    kn.active = true → domLive s d (pdPod (k / 18)) = true → kn.ended = false →
    ∃ t, exec (.deadline) s = .next t ∧
      (kern t d k).ovr = true ∧
      (kern t d k).staged = [] ∧ (kern t d k).active = false ∧
      (kern t d k).core.r.p = kn.core.snap.p ∧ (kern t d k).core.r.m = kn.core.snap.m ∧
      (kern t d k).core.r.b = kn.core.snap.b ∧ (kern t d k).core.r.l = kn.core.snap.l ∧
      bitF t (Reg.KERNEL_STAT d k) F.KERNEL_STAT_OVR = true ∧
      reg t (Reg.KERNEL_OVR_CNT d k) = reg s (Reg.KERNEL_OVR_CNT d k) + 1 ∧
      { t with phase := s.phase, regs := s.regs, tabs := s.tabs, kern := s.kern, lastPub := s.lastPub, pub := s.pub, slip := s.slip, pods := s.pods, dieX := s.dieX } = s) ∧
  (∀ (s : State) (d k n : Nat) (v : Word),
    let kn := kern s d k
    s.wf = true → d < dieCount s.part → k < 144 → running s = true → s.phase = .tick → tickOwed s = false → kn.st = .run →
    kn.active = true → domLive s d (pdPod (k / 18)) = true → kn.ended = true →
    (commitList s d k).filter (fun e => decide (e.1 = n)) = [(n, v)] → kernelLineOk n = true →
    ((listed s d).all fun j => decide (j = k) || (!(bankLines s d j).contains n && !((commitList s d j).any fun e => decide (e.1 = n)))) = true →
    ∃ t, exec (.deadline) s = .next t ∧
      smGet (fun _ => deadLine) t.pub (d * 0x4000 + n) = ⟨rampScale s d k v, true⟩ ∧
      lastPub t d n = v ∧
      { t with phase := s.phase, regs := s.regs, tabs := s.tabs, kern := s.kern, lastPub := s.lastPub, pub := s.pub, slip := s.slip, pods := s.pods, dieX := s.dieX } = s)

/-- A due raise takes the VID up by UPSTEP, at most to the ceiling, and the bias to BBFWD, and the next one is SETTLE
ticks away. A due lowering step makes one change: positive bias down by one, then VID down by one above VMIN with zero
bias, then bias one code towards BBREV at VMIN. Preparation ends at the Pulse count it was held to. GOV_MANUAL takes its
ASSIST, BB and VID fields and acts at once. CLR sets the worst margin to 0x7FFF and its kernel to 0. A wear report
carries the drift of a kernel, keeps OVER once it is set, and starts a new average. It says where each of these commands
completes with its effect: GOV_RAISE, GOV_LOWER, GOV_PREP_END, GOV_MANUAL_WRITE, GOV_MARGIN_MIN_CLR, WEAR_REPORT. -/
def Obligations.Governor : Prop :=
  (∀ (s : State) (d : Nat),
    s.wf = true → d < dieCount s.part → govAuto s d = true → (dieX s d).settle = some 0 → dieRetained s d = false →
    ∃ t, exec (.govRaise d) s = .next t ∧
      govVid t d = min (govCeiling s d) (govVid s d + max 1 (fld s (Reg.GOV_CFG d) F.GOV_CFG_UPSTEP)) ∧
      govBias t d = govFwd s d ∧
      (dieX t d).settle = some (max 1 (fld s (Reg.GOV_CFG d) F.GOV_CFG_SETTLE)) ∧
      (dieX t d).window = 0 ∧
      { t with regs := s.regs, stew := s.stew, dieX := s.dieX } = s ∧
      RegsBut s t [Reg.GOV_STAT d]) ∧
  (∀ (s : State) (d : Nat),
    s.wf = true → d < dieCount s.part → govAuto s d = true → govWindow s d ≤ (dieX s d).window → dieRetained s d = false →
    ∃ t, exec (.govLower d) s = .next t ∧
      (0 < govBias s d → govVid t d = govVid s d ∧ govBias t d = govBias s d - 1) ∧
      (govBias s d = 0 → govVmin s d < govVid s d → govVid t d = govVid s d - 1 ∧ govBias t d = 0) ∧
      (govBias s d ≤ 0 → govVid s d ≤ govVmin s d → govRev s d < govBias s d → govVid t d = govVid s d ∧ govBias t d = govBias s d - 1) ∧
      (govBias s d < 0 → govVid s d ≤ govVmin s d → govBias s d < govRev s d → govVid t d = govVid s d ∧ govBias t d = govBias s d + 1) ∧
      (dieX t d).window = 0 ∧
      { t with regs := s.regs, dieX := s.dieX } = s ∧
      RegsBut s t [Reg.GOV_STAT d]) ∧
  (∀ (s : State) (d n : Nat),
    s.wf = true → d < dieCount s.part → (dieX s d).prepTo = some n → n ≤ pulseCount s → podsExiting s d = false →
    ∃ t, exec (.govPrepEnd d) s = .next t ∧
      bitF t (Reg.GOV_STAT d) F.GOV_STAT_PREP = false ∧
      (dieX t d).prepTo = none ∧
      govVid t d = govVid s d ∧ govBias t d = govBias s d ∧
      { t with regs := s.regs, dieX := s.dieX } = s ∧
      RegsBut s t [Reg.GOV_STAT d]) ∧
  (∀ (s : State) (a : Access) (d : Nat) (v : Word),
    let r := Reg.GOV_MANUAL d
    reachesReg s a r = true →
    exec (.govManualWrite a d v) s = .next (govRefresh (maskPut s r 0x031F007F v) d).answered) ∧
  (∀ (s : State) (a : Access) (d : Nat),
    let r := Reg.GOV_MARGIN_MIN d
    reachesReg s a r = true →
    exec (.govMarginMinClr a d) s = .next (setFld (setFld s r F.GOV_MARGIN_MIN_MARGIN 0x7FFF) r F.GOV_MARGIN_MIN_KERNEL 0).answered) ∧
  (∀ (s : State) (d k : Nat),
    s.wf = true → d < dieCount s.part → k < 144 → 65536 ≤ (kern s d k).wear.ticks → (kern s d k).st ≠ .retired →
    ∃ t, exec (.wearReport d k) s = .next t ∧
      (kern t d k).wear = ⟨0, 0, 0, stepTime (kern s d k).wear⟩ ∧
      wField (tab t tWear d k) 15 0 = ofSigned (wearDrift s d k) 16 ∧
      (tab t tWear d k).getLsbD 16 = ((tab s tWear d k).getLsbD 16 || decide ((fld s (Reg.GOV_WEAR_LIM d) F.GOV_WEAR_LIM_LIMIT : Int) < wearDrift s d k)) ∧
      { t with tabs := s.tabs, kern := s.kern, pods := s.pods } = s)

/-- A sample of the four sensors leaves the hottest as TJ and as the maximum where it exceeds it, and sets ALARM at the
alarm temperature. A second reading in a row of 125 °C or more shuts the package down: FAULT_N is driven, SUPPLY_EN
falls, and the package is in HUSK. Each cap step moves the cap down by one at the throttle temperature, up by one 3 °C
below it, and leaves it between. It says where each of these commands completes with its effect: THERM_SAMPLE,
THERM_CAP_STEP, THERM_MAX_CLR. -/
def Obligations.ThermalMonitor : Prop :=
  (∀ (s : State) (d : Nat) (t1 t2 t3 t4 : Int),
    let hot := max (max t1 t2) (max t3 t4)
    s.wf = true → d < dieCount s.part → running s = true → -32768 ≤ hot ∧ hot < 32768 → (hot < 500 ∨ (dieX s d).hot = 0) →
    ∃ t, exec (.thermSample d t1 t2 t3 t4) s = .next t ∧
      dieTemp t d = hot ∧
      (dieX t d).hot = (if 500 ≤ hot then (dieX s d).hot + 1 else 0) ∧
      (bitF t (Reg.THERM_STAT d) F.THERM_STAT_ALARM ↔ bitF s (Reg.THERM_STAT d) F.THERM_STAT_ALARM ∨ (4 * fld s (Reg.THERM_CFG d) F.THERM_CFG_ALARM : Nat) ≤ hot) ∧
      toSigned (fld t (Reg.THERM_MAX d) F.THERM_MAX_TJ) 16 = max (toSigned (fld s (Reg.THERM_MAX d) F.THERM_MAX_TJ) 16) hot ∧
      t.keep = s.keep ∧ t.kern = s.kern ∧ t.mem = s.mem) ∧
  (∀ (s : State) (d : Nat) (t1 t2 t3 t4 : Int),
    let hot := max (max t1 t2) (max t3 t4)
    d < dieCount s.part → running s = true → 500 ≤ hot → 1 ≤ (dieX s d).hot →
    ∃ t, exec (.thermSample d t1 t2 t3 t4) s = .next t ∧
      t.keep.seq = .husk ∧
      t.keep.supplyEn = false ∧
      t.keep.deaf = true ∧
      t.keep.faults = s.keep.faults + 1) ∧
  (∀ (s : State) (d : Nat),
    s.wf = true → d < dieCount s.part → running s = true →
    ∃ t, exec (.thermCapStep d) s = .next t ∧
      thermCap t d = (if throttleAt s d ≤ dieTemp s d then thermCap s d - 1 else if dieTemp s d ≤ throttleAt s d - 12 then min 60 (thermCap s d + 1) else thermCap s d) ∧
      bitF t (Reg.THERM_STAT d) F.THERM_STAT_THROTTLING = decide (thermCap t d < 60) ∧
      { t with regs := s.regs, stew := s.stew, dieX := s.dieX } = s ∧
      RegsBut s t [Reg.THERM_STAT d, Reg.GOV_STAT d]) ∧
  (∀ (s : State) (a : Access) (d : Nat),
    let r := Reg.THERM_MAX d
    reachesReg s a r = true →
    exec (.thermMaxClr a d) s = .next (setFld s r F.THERM_MAX_TJ 0xFF60).answered)

/-- A die that receives a request checks its faders, refuses with result 3 for the first that fails, starts the check of
its kernels and engines, or is ready; the order of faders, kernels and engines is the model's DESIGN CHOICE (assumption
log 108). The end of that check reports ready or a refusal. The coordinator notes a ready report, and a refusal before
the commit ends the request with its result. It says where each of these commands completes with its effect:
SWAP_REQUEST_RX, ADMISSION_DONE, SWAP_READY_RX, SWAP_REFUSAL_RX. -/
def Obligations.SwapReports : Prop :=
  (∀ (s : State) (g d : Nat) (r : SwapReq),
    d < dieCount s.part → pendingGroup s g = some r → alGet d r.jobs = some .sent →
    exec (.swapRequestRx g d) s = .next (setJob s r d (match faderCheck s d g with
      | some (code, e) => .refused 3 code (swapWho s d 3 e)
      | none => if slowCheck s d r then .checking else .ready))) ∧
  (∀ (s : State) (g d : Nat) (r : SwapReq) (t : State),
    d < dieCount s.part → pendingGroup s g = some r → alGet d r.jobs = some .checking → checkDie d r s = (t, none) →
    exec (.admissionDone d false g) s = .next (setJob t r d .ready)) ∧
  (∀ (s : State) (g d : Nat) (r : SwapReq) (t : State) (code detail who : Nat),
    d < dieCount s.part → pendingGroup s g = some r → alGet d r.jobs = some .checking →
    checkDie d r s = (t, some (code, detail, who)) →
    exec (.admissionDone d false g) s = .next (setJob t r d (.refused code detail who))) ∧
  (∀ (s : State) (d n : Nat),
    d < dieCount s.part → n < 144 → (kern s d n).rejoin = true →
    exec (.admissionDone d true n) s = .next (powerSync (admitRejoin d n s) d)) ∧
  (∀ (s : State) (g d : Nat) (r : SwapReq),
    d < dieCount s.part → pendingGroup s g = some r → alGet d r.jobs = some .ready → r.committed = false →
    exec (.swapReadyRx g d) s = .next (noteReady s r { r with jobs := alPut d .heard r.jobs })) ∧
  (∀ (s : State) (g d : Nat) (r : SwapReq) (res detail who : Nat),
    d < dieCount s.part → reportedSwap s g d = some r → alGet d r.jobs = some (.refused res detail who) →
    exec (.swapRefusalRx g d) s = .next (endSwap s r res detail who)) ∧
  (∀ (s : State) (g d : Nat) (r : SwapReq) (detail who : Nat),
    d < dieCount s.part → reportedSwap s g d = some r → alGet d r.jobs = some (.split detail who) → r.origin = none →
    r.split = false →
    ∃ t, exec (.swapRefusalRx g d) s = .next t ∧
      fld t (Reg.PULSE_SWAP_RES r.coord) F.PULSE_SWAP_RES_RESULT = 9 ∧
      { t with regs := s.regs, stew := s.stew, dieX := s.dieX, doms := s.doms, swaps := s.swaps, link := s.link, linkDev := s.linkDev } = s)

/-- At the decision Pulse the coordinator commits a request whose parts have all been heard, and refuses it with result
4 otherwise. A die that receives the commit in time arms the faders of the group. At the target Pulse, once its readings
are captured, a committed request is applied and its result is 0: a kernel member exchanges its Y bank, and with YONLY 0
its program bank, engines and ports make their other table active, and an armed fader begins, or ends at once where its
LEN is 0; a member whose admission was withdrawn keeps its banks. A request of another device that was not committed in
time ends with result 9 and DETAIL 2 (assumption log 38) and changes nothing. A fade ends after LEN ticks: EN, ACTIVE
and ARMED are cleared. It says where each of these commands completes with its effect: SWAP_DECISION, SWAP_COMMIT_RX,
SWAP_APPLY, FADER_END. -/
def Obligations.SwapOutcome : Prop :=
  (∀ (s : State) (g : Nat) (r : SwapReq),
    pendingGroup s g = some r → r.committed = false → r.origin = none → r.target ≤ pulseCount s + swapLead s r.coord →
    allHeard r = true → r.remotes = [] →
    ∃ t, exec (.swapDecision g) s = .next t ∧
      t.swaps = s.swaps.map (fun q => if q = r then { r with committed := true } else q) ∧
      t.regs = s.regs ∧
      { t with regs := s.regs, stew := s.stew, dieX := s.dieX, doms := s.doms, swaps := s.swaps, link := s.link, linkDev := s.linkDev } = s) ∧
  (∀ (s : State) (g : Nat) (r : SwapReq),
    pendingGroup s g = some r → r.committed = false → r.origin = none → r.target ≤ pulseCount s + swapLead s r.coord →
    allHeard r = true →
    exec (.swapDecision g) s = .next (each r.remotes (fun v u => deviceSend u r.coord (swapPacket u r.coord v.1 4 r.yonly r.group r.target []) false)
        { s with swaps := s.swaps.map fun q => if q = r then { r with committed := true } else q })) ∧
  (∀ (s : State) (g : Nat) (r : SwapReq),
    pendingGroup s g = some r → r.committed = false → r.origin = none → r.target ≤ pulseCount s + swapLead s r.coord →
    allHeard r = false →
    exec (.swapDecision g) s = .next (endSwap s r 4 (firstUnheard s r).1 (firstUnheard s r).2)) ∧
  (∀ (s : State) (g d : Nat) (r : SwapReq),
    s.wf = true → d < dieCount s.part →
    s.swaps.find? (fun q => decide (q.group = g) && q.committed && !q.applied) = some r → alGet d r.jobs = some .heard →
    pulseCount s < r.target →
    ∃ t, exec (.swapCommitRx g d) s = .next t ∧
      t.swaps = (setJob s r d .armed).swaps ∧
      (∀ e, e ∈ groupFaders s d g → (fadeWord t d e 2).getLsbD 30 = true) ∧
      { t with tabs := s.tabs, swaps := s.swaps } = s) ∧
  (∀ (s : State) (g : Nat) (r : SwapReq),
    s.wf = true → metersOwed s = false → targetSwap s g = some r → r.committed = true → r.direct = [] → r.split = false →
    ∃ t, exec (.swapApply g) s = .next t ∧
      fld t (Reg.PULSE_SWAP_RES r.coord) F.PULSE_SWAP_RES_RESULT = 0 ∧
      bitF t (Reg.PULSE_SWAP_RES r.coord) F.PULSE_SWAP_RES_VALID = true ∧
      reg t (Reg.PULSE_SWAP_WHO r.coord) = 0 ∧
      { t with regs := s.regs, tabs := s.tabs, kern := s.kern, stew := s.stew, dieX := s.dieX, doms := s.doms, swaps := s.swaps, bridges := s.bridges, link := s.link, linkDev := s.linkDev, carav := s.carav } = s) ∧
  (∀ (s : State) (g d : Nat) (r : SwapReq),
    let armed := (r.jobs.filter fun e => decide (e.2 = .armed)).map (·.1)
    s.wf = true → d < dieCount s.part → metersOwed s = false → targetSwap s g = some r → r.committed = true →
    r.direct = [] → r.split = false → armed.Nodup → d ∈ armed →
    ((List.range 8).all fun p => decide ((podX s d p).phase = .idle)) = true →
    ∃ t, exec (.swapApply g) s = .next t ∧
      (∀ k, k ∈ groupKernels s d g → k ∉ withdrawn s d r → (kern t d k).ybank = !(kern s d k).ybank ∧ (kern t d k).pbank = (if r.yonly then (kern s d k).pbank else !(kern s d k).pbank) ∧ (kern t d k).swapped = true) ∧
      (∀ k, k < 144 → k ∉ groupKernels s d g ∨ k ∈ withdrawn s d r → (kern t d k).ybank = (kern s d k).ybank ∧ (kern t d k).pbank = (kern s d k).pbank) ∧
      (∀ p, p ∈ groupEngines s d g → carActive t d p = 1 - carActive s d p) ∧
      (∀ n, n ∈ groupPorts s d g → (neighbour s d n).isSome = true → bridgeActive t d n = 1 - bridgeActive s d n) ∧
      (∀ e, e ∈ groupFaders s d g → (fadeWord s d e 2).getLsbD 30 = true → (fadeWord t d e 2).getLsbD 31 = decide (0 < fadeLen (fadeWord s d e 0)) ∧ (fadeWord t d e 2).getLsbD 30 = false) ∧
      { t with regs := s.regs, tabs := s.tabs, kern := s.kern, stew := s.stew, dieX := s.dieX, doms := s.doms, swaps := s.swaps, bridges := s.bridges, link := s.link, linkDev := s.linkDev, carav := s.carav } = s) ∧
  (∀ (s : State) (g dev : Nat) (r : SwapReq),
    metersOwed s = false → targetSwap s g = some r → r.committed = false → r.origin = some dev →
    exec (.swapApply g) s = .next (endSwap s r 9 2 (swapWho s r.coord 3 0))) ∧
  (∀ (s : State) (d e : Nat),
    s.wf = true → d < dieCount s.part → e < 512 → (fadeWord s d e 2).getLsbD 31 = true →
    fadeLen (fadeWord s d e 0) ≤ wField (fadeWord s d e 2) 13 0 →
    ∃ t, exec (.faderEnd d e) s = .next t ∧
      (fadeWord t d e 0).getLsbD 31 = false ∧
      (fadeWord t d e 2).getLsbD 31 = false ∧
      (fadeWord t d e 2).getLsbD 30 = false ∧
      { t with tabs := s.tabs } = s)

/-- A transfer that arrives and passes is taken; a failed one is counted. Import lines whose hold is over are noted. A
table change takes effect at its Pulse, and the other table is active from then on. A write of BRIDGE_SWAP leaves the
change of each port that it names, where that port has a neighbour, pending at BRIDGE_TPULSE, in place of any that was
pending, and withdraws the pending change of every other port. A copied row waits for the next Pulse. CLR clears a
record of bit errors. It says where each of these commands completes with its effect: BRIDGE_TRANSFER_RX,
BRIDGE_TRANSFER_FAIL, BRIDGE_HOLD_EXPIRE, BRIDGE_SWAP_WRITE, BRIDGE_TABLE_SWITCH, ROW_REPAIR_COPY_DONE, POD_ECC_CLEAR,
KERNEL_ECC_CLEAR. -/
def Obligations.BridgesAndRepair : Prop :=
  (∀ (s : State) (d n e : Nat),
    d < dieCount s.part → n < 3 → neighbour s d n = some e → transferDue s d n = true → bridgeLock s d n = true →
    isMet (bridge s e (facing n)).change = false → dueSwaps s = [] →
    exec (.bridgeTransferRx d n) s = .next (setBridge s d n { bridge s d n with got := some (bridge s e (facing n)).out })) ∧
  (∀ (s : State) (d n : Nat),
    s.wf = true → d < dieCount s.part → n < 3 → transferDue s d n = true →
    ∃ t, exec (.bridgeTransferFail d n) s = .next t ∧
      (bridge t d n).failed = true ∧
      (bridge t d n).fails = (bridge s d n).fails + 1 ∧
      (bridge t d n).got = none ∧
      reg t (Reg.BRIDGE_ERR d n) = reg s (Reg.BRIDGE_ERR d n) + (if bridgeEn s d n then 1 else 0) ∧
      { t with regs := s.regs, bridges := s.bridges } = s ∧
      RegsBut s t [Reg.BRIDGE_ERR d n]) ∧
  (∀ (s : State) (d n : Nat),
    d < dieCount s.part → n < 3 → holdOver s d n = true → (bridge s d n).expired = false →
    exec (.bridgeHoldExpire d n) s = .next (setBridge s d n { bridge s d n with expired := true })) ∧
  (∀ (s : State) (a : Access) (d ports : Nat),
    let r := Reg.BRIDGE_SWAP d
    reachesReg s a r = true →
    exec (.bridgeSwapWrite a d ports) s = .next (bridgeSwapWrite s d (fieldIs F.BRIDGE_SWAP_PORTS ports)).answered) ∧
  (∀ (s : State) (d n : Nat),
    s.wf = true → d < dieCount s.part → n < 3 → isMet (bridge s d n).change = true →
    ∃ t, exec (.bridgeTableSwitch d n) s = .next t ∧
      bridgeActive t d n = 1 - bridgeActive s d n ∧
      (bridge t d n).change = none ∧
      (bridge t d n).out = buildTransfer t d n ∧
      { t with regs := s.regs, bridges := s.bridges } = s ∧
      RegsBut s t [Reg.BRIDGE_STAT d]) ∧
  (∀ (s : State) (d p row : Nat) (rest : List Nat),
    s.wf = true → d < dieCount s.part → p < 9 → (rowsOf s d p).want = row :: rest →
    domOn s d (if p = 8 then pdStew else pdPod p) = true →
    ∃ t, exec (.rowRepairCopyDone d p) s = .next t ∧
      (rowsOf t d p).want = rest ∧
      (rowsOf t d p).copied = (rowsOf s d p).copied ++ [row] ∧
      { t with regs := s.regs, rows := s.rows } = s ∧
      RegsBut s t [Reg.POD_REPAIR d p]) ∧
  (∀ (s : State) (a : Access) (d p : Nat) (unc : Bool),
    let r := if unc then Reg.POD_ECC_UNC d p else Reg.POD_ECC d p
    reachesReg s a r = true → p < 8 →
    exec (.podEccClear a d p unc) s = .next (setReg s r 0).answered) ∧
  (∀ (s : State) (a : Access) (d k : Nat),
    let r := Reg.KERNEL_ECC d k
    reachesReg s a r = true → k < 144 → (dom s d (pdPod (k / 18))).st ≠ .off →
    exec (.kernelEccClear a d k) s = .next (setReg s r 0).answered) ∧
  (∀ (s : State) (a : Access) (d n ports : Nat),
    s.wf = true → reachesReg s a (Reg.BRIDGE_SWAP d) = true → n < 3 → ports < 8 → (neighbour s d n).isSome = true →
    ∃ t, exec (.bridgeSwapWrite a d ports) s = .next t ∧
      (bridge t d n).change = (if ports.testBit n then some ((reg s (Reg.BRIDGE_TPULSE d)).toNat, false) else none) ∧
      t.resp = .ok 0 ∧
      t.kern = s.kern ∧ t.mem = s.mem ∧ t.lines = s.lines)

/-- A fetch entry that is due issues its block, or is only served while its pod is parked; a block staged in time is
copied into the Hoard, and a late one writes nothing and is counted. A store entry that is due stages its block, is
served without it while its pod is parked, and is late where staging has no room; a stored block is written to LPDDR4X.
The pointers advance and the data are taken at the issue, as the model reads the rules (DEDUCED, assumption logs 37 and
88). It says where each of these commands completes with its effect: CARAVAN_FETCH_ISSUE, CARAVAN_FETCH_STAGED,
CARAVAN_FETCH_LATE, CARAVAN_STORE_ISSUE, CARAVAN_STORE_DONE. -/
def Obligations.CaravanBlocks : Prop :=
  (∀ (s : State) (d p e : Nat) (c : CarEntry),
    hasPod s d p = true → e < 256 → carDue s d p e false = some c →
    exec (.caravanFetchIssue d p e) s = .next (if carParked s d p then carServe s d p e c else carLaunch (carServe s d p e c) d p (carFlight s d p e c))) ∧
  (∀ (s : State) (d p e : Nat) (f : Flight),
    s.wf = true → hasPod s d p = true → e < 256 → fetchFlight s d p e = some f → inTime s f = true → ddrServes s d = true →
    domLive s d (pdPod p) = true → f.hptr + f.words ≤ 0x40000 →
    ∃ t, exec (.caravanFetchStaged d p e) s = .next t ∧
      (∀ i, i < f.words → loadW t (hoardA d p (f.hptr + i)) = f.data.getD i 0 ∧ eccAt t (hoardA d p (f.hptr + i)) = .clean) ∧
      (∀ b, (b < hoardA d p f.hptr ∨ hoardA d p (f.hptr + f.words) ≤ b) → loadByte t b = loadByte s b) ∧
      { t with mem := s.mem, ecc := s.ecc, carav := s.carav, ddr := s.ddr } = s) ∧
  (∀ (s : State) (d p e : Nat) (f : Flight),
    s.wf = true → hasPod s d p = true → e < 256 → fetchFlight s d p e = some f → f.due ≤ pulseCount s + 1 →
    ∃ t, exec (.caravanFetchLate d p e) s = .next t ∧
      reg t (Reg.CARAVAN_LATE_CNT d p) = reg s (Reg.CARAVAN_LATE_CNT d p) + 1 ∧
      (caravan t d p).flight = (caravan s d p).flight.erase f ∧
      { t with regs := s.regs, carav := s.carav } = s ∧
      RegsBut s t [Reg.CARAVAN_LATE_CNT d p, Reg.CARAVAN_LATE_LOG d p]) ∧
  (∀ (s : State) (d p e : Nat) (c : CarEntry),
    hasPod s d p = true → e < 256 → carDue s d p e true = some c →
    (carParked s d p = true ∨ stagedBytes s d p + 4 * c.words ≤ 32768) →
    exec (.caravanStoreIssue d p e) s = .next (if carParked s d p then carServe s d p e c else storeEcc d p (carFlight s d p e c) (carLaunch (carServe s d p e c) d p (carFlight s d p e c)))) ∧
  (∀ (s : State) (d p e : Nat) (c : CarEntry),
    hasPod s d p = true → e < 256 → carDue s d p e true = some c → carParked s d p = false →
    32768 < stagedBytes s d p + 4 * c.words →
    exec (.caravanStoreIssue d p e) s = .next (carLate (carServe s d p e c) d p e true (pulseCount s))) ∧
  (∀ (s : State) (d p e : Nat) (f : Flight),
    s.wf = true → hasPod s d p = true → e < 256 →
    (caravan s d p).flight.find? (fun x => x.store && decide (x.entry = e)) = some f → ddrServes s d = true →
    (ddr s d).window = false → storeWaits s d f = false →
    ∃ t, exec (.caravanStoreDone d p e) s = .next t ∧
      (∀ i, i < f.words → loadW t (pkgA d (0x8_0000_0000 + f.doff + 4 * i)) = f.data.getD i 0) ∧
      (∀ b, (b < pkgA d (0x8_0000_0000 + f.doff) ∨ pkgA d (0x8_0000_0000 + f.doff + 4 * f.words) ≤ b) → loadByte t b = loadByte s b) ∧
      (caravan t d p).flight = (caravan s d p).flight.erase f ∧
      { t with mem := s.mem, carav := s.carav, ddr := s.ddr } = s)

/-- GO leaves a change of table pending at CARAVAN_TPULSE, unchecked, in place of any that was pending, and sets PEND.
The check that ends with code 0 lets the change happen; any other code refuses it, and so does code 4 when its Pulse has
come first. At its Pulse a checked change makes the other table active. A share above the limit of the rate, or that
takes the sum above the budget, is ignored and sets SHAREREJ. It says where each of these commands completes with its
effect: CARAVAN_SWAP_GO, CARAVAN_TABLE_CHECK_DONE, CARAVAN_TABLE_SWITCH, CARAVAN_SHARE_WRITE. -/
def Obligations.CaravanTables : Prop :=
  (∀ (s : State) (a : Access) (d p : Nat),
    let r := Reg.CARAVAN_SWAP d p
    reachesReg s a r = true → p < 8 →
    exec (.caravanSwapGo a d p) s = .next (carSwapGo s d p).answered) ∧
  (∀ (s : State) (d p : Nat),
    hasPod s d p = true → (caravan s d p).change.isSome = true → (caravan s d p).passed = false →
    exec (.caravanTableCheckDone d p) s = .next (if carCheck s d p ≠ 0 then carReject (carDrop s d p) d p (carCheck s d p)
        else if isMet (caravan s d p).change then carReject (carDrop s d p) d p 4
        else setCaravan s d p { caravan s d p with passed := true })) ∧
  (∀ (s : State) (d p : Nat),
    s.wf = true → hasPod s d p = true → isMet (caravan s d p).change = true → (caravan s d p).passed = true →
    ∃ t, exec (.caravanTableSwitch d p) s = .next t ∧
      carActive t d p = 1 - carActive s d p ∧
      (caravan t d p).change = none ∧
      (caravan t d p).served = [] ∧
      bitF t (Reg.CARAVAN_STAT d p) F.CARAVAN_STAT_PEND = false ∧
      { t with regs := s.regs, tabs := s.tabs, carav := s.carav } = s ∧
      RegsBut s t [Reg.CARAVAN_STAT d p]) ∧
  (∀ (s : State) (a : Access) (d p : Nat) (v : Word),
    let r := Reg.CARAVAN_SHARE d p
    let f := wGet v F.CARAVAN_SHARE_FETCH
    let g := wGet v F.CARAVAN_SHARE_STORE
    reachesReg s a r = true → p < 8 → f ≤ (if rateCode s ≤ 3 then 32768 else 16384) → g ≤ 16384 →
    shareSum s d - fetchShare s d p - storeShare s d p + f + g ≤ ddrBudget s d →
    exec (.caravanShareWrite a d p v) s = .next (setReg s r v).answered) ∧
  (∀ (s : State) (a : Access) (d p : Nat) (v : Word),
    let r := Reg.CARAVAN_SHARE d p
    let f := wGet v F.CARAVAN_SHARE_FETCH
    let g := wGet v F.CARAVAN_SHARE_STORE
    reachesReg s a r = true → p < 8 →
    ((if rateCode s ≤ 3 then 32768 else 16384) < f ∨ 16384 < g ∨ ddrBudget s d < shareSum s d - fetchShare s d p - storeShare s d p + f + g) →
    exec (.caravanShareWrite a d p v) s = .next (setFld s (Reg.DDR_STAT d) F.DDR_STAT_SHAREREJ 1).answered) ∧
  (∀ (s : State) (a : Access) (d p : Nat),
    s.wf = true → reachesReg s a (Reg.CARAVAN_SWAP d p) = true → p < 8 →
    ∃ t, exec (.caravanSwapGo a d p) s = .next t ∧
      (caravan t d p).change = some ((reg s (Reg.CARAVAN_TPULSE d p)).toNat, false) ∧
      (caravan t d p).passed = false ∧
      bitF t (Reg.CARAVAN_STAT d p) F.CARAVAN_STAT_PEND = true ∧
      t.resp = .ok 0 ∧
      t.kern = s.kern ∧ t.mem = s.mem ∧ t.lines = s.lines)

/-- EN 0 stops the channel and EN 1 starts training, from the settings of the table and from the reserved codes 5 to 7
of DENS, with which nothing is installed (assumption log 13), but not from two ranks of 12 or 16 Gb, which sets CFGREJ;
a retraining waits for the end of the critical window. Training ends READY or with TRAINFAIL. DDR_CFG is written only
while EN is 0. Refreshes fall due, are issued outside the critical window, and where the debt would exceed 8 one is
issued inside it, which breaks it. The window opens once a tick and closes, starting a retraining that waited. Idle
ticks lead to power-down. It says where each of these commands completes with its effect: DDR_ENABLE, DDR_DISABLE,
DDR_RETRAIN, DDR_TRAINING_DONE, DDR_CFG_WRITE, DDR_REFRESH_DUE, DDR_REFRESH_ISSUE, DDR_WINDOW_OPEN, DDR_WINDOW_CLOSE,
DDR_ZQ_CALIBRATION, DDR_MR4_POLL, DDR_POWER_DOWN. -/
def Obligations.Lpddr : Prop :=
  (∀ (s : State) (a : Access) (d : Nat),
    let r := Reg.DDR_CTL d
    reachesReg s a r = true → bitF s r F.DDR_CTL_EN = false →
    (fld s (Reg.DDR_CFG d) F.DDR_CFG_RANKS = 0 ∨ fld s (Reg.DDR_CFG d) F.DDR_CFG_DENS < 3 ∨ 4 < fld s (Reg.DDR_CFG d) F.DDR_CFG_DENS) →
    exec (.ddrEnable a d) s = .next (startTraining (setFld s r F.DDR_CTL_EN 1) d).answered) ∧
  (∀ (s : State) (a : Access) (d : Nat),
    let r := Reg.DDR_CTL d
    reachesReg s a r = true → bitF s r F.DDR_CTL_EN = false → fld s (Reg.DDR_CFG d) F.DDR_CFG_RANKS = 1 →
    (fld s (Reg.DDR_CFG d) F.DDR_CFG_DENS = 3 ∨ fld s (Reg.DDR_CFG d) F.DDR_CFG_DENS = 4) →
    exec (.ddrEnable a d) s = .next (setFld s (Reg.DDR_STAT d) F.DDR_STAT_CFGREJ 1).answered) ∧
  (∀ (s : State) (a : Access) (d : Nat),
    let r := Reg.DDR_CTL d
    reachesReg s a r = true →
    exec (.ddrDisable a d) s = .next (setDdr (setFld (setFld (setFld s r F.DDR_CTL_EN 0) (Reg.DDR_STAT d) F.DDR_STAT_READY 0) (Reg.DDR_STAT d) F.DDR_STAT_TRAINING 0) d Ddr.zero).answered) ∧
  (∀ (s : State) (a : Access) (d : Nat),
    let r := Reg.DDR_CTL d
    let x := ddr s d
    reachesReg s a r = true → bitF s r F.DDR_CTL_EN = true →
    exec (.ddrRetrain a d) s = .next (if x.window then setDdr (setFld s r F.DDR_CTL_EN 1) d { x with retrain := true } else startTraining (setFld s r F.DDR_CTL_EN 1) d).answered) ∧
  (∀ (s : State) (a : Access) (d : Nat),
    let r := Reg.DDR_CTL d
    reachesReg s a r = true → bitF s r F.DDR_CTL_EN = false →
    exec (.ddrRetrain a d) s = .next (setFld s r F.DDR_CTL_EN 0 |> fun t => setDdr (setFld (setFld t (Reg.DDR_STAT d) F.DDR_STAT_READY 0) (Reg.DDR_STAT d) F.DDR_STAT_TRAINING 0) d Ddr.zero).answered) ∧
  (∀ (s : State) (d : Nat) (ok : Bool),
    let t := setFld s (Reg.DDR_STAT d) F.DDR_STAT_TRAINING 0
    d < dieCount s.part → bitF s (Reg.DDR_STAT d) F.DDR_STAT_TRAINING = true → domLive s d pdDdr = true →
    padHeld s d pdDdr = false →
    exec (.ddrTrainingDone d ok) s = .next (if ok then setFld t (Reg.DDR_STAT d) F.DDR_STAT_READY 1 else setFld t (Reg.DDR_STAT d) F.DDR_STAT_TRAINFAIL 1)) ∧
  (∀ (s : State) (a : Access) (d : Nat) (v : Word),
    let r := Reg.DDR_CFG d
    reachesReg s a r = true →
    exec (.ddrCfgWrite a d v) s = .next (if bitF s (Reg.DDR_CTL d) F.DDR_CTL_EN then setFld s (Reg.DDR_STAT d) F.DDR_STAT_CFGREJ 1 else maskPut s r 0xFFF v).answered) ∧
  (∀ (s : State) (d : Nat),
    let x := ddr s d
    d < dieCount s.part → ddrRuns s d = true →
    exec (.ddrRefreshDue d) s = .next (if x.window ∧ 8 ≤ x.debt then setDdr (setFld (incReg s (Reg.DDR_BRK_CNT d)) (Reg.DDR_STAT d) F.DDR_STAT_BRK 1) d { x with rank := (x.rank + 1) % (1 + fld s (Reg.DDR_CFG d) F.DDR_CFG_RANKS) } else setDdr s d { x with debt := x.debt + 1 })) ∧
  (∀ (s : State) (d : Nat),
    let x := ddr s d
    d < dieCount s.part → ddrRuns s d = true → x.window = false → 0 < x.debt →
    exec (.ddrRefreshIssue d) s = .next (setDdr s d { x with debt := x.debt - 1, rank := (x.rank + 1) % (1 + fld s (Reg.DDR_CFG d) F.DDR_CFG_RANKS) })) ∧
  (∀ (s : State) (d : Nat),
    let x := ddr s d
    d < dieCount s.part → ddrRuns s d = true → pulseRuns s = true → x.opened = false →
    fld s (Reg.DDR_CRIT d) F.DDR_CRIT_LEN ≠ 0 →
    exec (.ddrWindowOpen d) s = .next (setDdr s d { x with window := true, opened := true })) ∧
  (∀ (s : State) (d : Nat),
    let x := ddr s d
    s.wf = true → d < dieCount s.part → x.window = true →
    exec (.ddrWindowClose d) s = .next (if x.retrain then startTraining (setDdr s d { x with window := false }) d else setDdr s d { x with window := false })) ∧
  (∀ (s : State) (d : Nat),
    let x := ddr s d
    d < dieCount s.part → ddrRuns s d = true → x.window = false →
    exec (.ddrZqCalibration d) s = .next s) ∧
  (∀ (s : State) (d mul : Nat),
    let x := ddr s d
    d < dieCount s.part → ddrRuns s d = true → x.window = false →
    exec (.ddrMr4Poll d mul) s = .next (setFld s (Reg.DDR_STAT d) F.DDR_STAT_REFMUL mul)) ∧
  (∀ (s : State) (d : Nat),
    let x := ddr s d
    let n := fld s (Reg.DDR_CFG d) F.DDR_CFG_PDIDLE
    d < dieCount s.part → ddrRuns s d = true → x.window = false → x.down = false → n ≠ 15 → 2 ^ n ≤ x.idle →
    exec (.ddrPowerDown d) s = .next (setDdr s d { x with down := true }))

/-- An aligned write of 1, 2, 4 or 8 bytes to working memory stores exactly those bytes, little-endian (assumption log
21), and a read returns the bytes that stand there while their ECC is clean; so do Hoard words by 32 bits. A program
bank or register image of a kernel takes a write, word by word, except the active bank of a kernel that runs it and the
image of a kernel that is not stopped, whose writes are answered with an error and change nothing. It says where each of
these commands completes with its effect: MEMORY_WRITE, MEMORY_READ, PROGRAM_BANK_WRITE, KERNEL_IMAGE_WRITE. -/
def Obligations.MemoryAccess : Prop :=
  (∀ (s : State) (a : Access) (d loc width v : Nat),
    reachesAt s a d loc true = true → domOn s d pdStew = true → loc + width ≤ 0x40_0000 → widthOk loc width = true →
    ∃ t, exec (.memoryWrite a (pkgA d loc) width v) s = .next t ∧
      t.resp = .ok 0 ∧
      loadBytes t (pkgA d loc) width = v % 2 ^ (8 * width) ∧
      (∀ b, (b < pkgA d loc ∨ pkgA d loc + width ≤ b) → loadByte t b = loadByte s b) ∧
      t.regs = s.regs ∧ t.tabs = s.tabs ∧ t.kern = s.kern ∧ t.lines = s.lines) ∧
  (∀ (s : State) (a : Access) (d loc width : Nat),
    reachesAt s a d loc false = true → domOn s d pdStew = true → loc + width ≤ 0x40_0000 → wmReadOk loc width = true →
    ((List.range 2).all fun i => eccAt s (pkgA d ((loc / 8 + i) * 8)) = .clean) = true →
    ∃ t, exec (.memoryRead a (pkgA d loc) width) s = .next t ∧
      t.resp = .ok (BitVec.ofNat 64 (loadBytes s (pkgA d loc) width)) ∧
      t.mem = s.mem ∧ t.regs = s.regs ∧ t.tabs = s.tabs ∧ t.ecc = s.ecc ∧ t.kern = s.kern) ∧
  (∀ (s : State) (a : Access) (d loc width : Nat),
    reachesAt s a d loc false = true → domOn s d pdStew = true → loc + width ≤ 0x40_0000 → widthOk loc width = true →
    eccAt s (pkgA d (loc / 8 * 8)) = .double →
    ∃ t, exec (.memoryRead a (pkgA d loc) width) s = .next t ∧
      t.resp = .err (some 3) ∧
      t.mem = s.mem ∧ t.kern = s.kern ∧ t.tabs = s.tabs) ∧
  (∀ (s : State) (a : Access) (d p w : Nat) (v : Word),
    reachesAt s a d (0x2000_0000 + p * 0x10_0000 + 4 * w) true = true → p < 8 → w < 0x40000 → domOn s d (pdPod p) = true →
    ∃ t, exec (.memoryWrite a (hoardA d p w) 4 v.toNat) s = .next t ∧
      t.resp = .ok 0 ∧
      loadW t (hoardA d p w) = v ∧
      eccAt t (hoardA d p w) = .clean ∧
      (∀ b, (b < hoardA d p w ∨ hoardA d p w + 4 ≤ b) → loadByte t b = loadByte s b) ∧
      t.regs = s.regs ∧ t.kern = s.kern) ∧
  (∀ (s : State) (a : Access) (d k off : Nat) (bankB : Bool) (v : Word),
    reachesAt s a d (progA 0 k bankB 0 + off) true = true → k < 144 → off < 0x8000 → off % 4 = 0 →
    domOn s d (pdPod (k / 18)) = true → sparesOf s d k = [] → copiesOf s d k = [] →
    winOpen (kern s d k) ((if bankB then 0x8000 else 0) + off) = true →
    ∃ t, exec (.programBankWrite a d k bankB off 4 v.toNat) s = .next t ∧
      t.resp = .ok 0 ∧
      loadW t (progA d k bankB 0 + off) = v ∧
      (∀ b, (b < progA d k bankB 0 + off ∨ progA d k bankB 0 + off + 4 ≤ b) → loadByte t b = loadByte s b) ∧
      (∀ j, (kern t d j).core = (kern s d j).core)) ∧
  (∀ (s : State) (a : Access) (d k off width v : Nat) (bankB : Bool),
    reachesAt s a d (progA 0 k bankB 0 + off) true = true → k < 144 → off < 0x8000 → (width = 4 ∨ width = 8) →
    off % width = 0 → domOn s d (pdPod (k / 18)) = true → bankB = (kern s d k).pbank →
    ((kern s d k).st = .run ∨ (kern s d k).st = .shadow ∨ (kern s d k).st = .standby ∨ (kern s d k).st = .parked) →
    ∃ t, exec (.programBankWrite a d k bankB off width v) s = .next t ∧
      t = s.turnedDown) ∧
  (∀ (s : State) (a : Access) (d k off : Nat) (v : Word),
    reachesAt s a d (0x3000_0000 + k * 0x4_0000 + 0x1_E000 + off) true = true → k < 144 → off < 0x240 → off % 4 = 0 →
    domOn s d (pdPod (k / 18)) = true → imageOpen (kern s d k).st = true →
    ∃ t, exec (.kernelImageWrite a d k off 4 v.toNat) s = .next t ∧
      t.resp = .ok 0 ∧
      kern t d k = { kern s d k with core := { (kern s d k).core with r := imageWrite (kern s d k).core.r off v } } ∧
      t.mem = s.mem ∧ t.regs = s.regs ∧ t.lines = s.lines) ∧
  (∀ (s : State) (a : Access) (d k off width v : Nat),
    reachesAt s a d (0x3000_0000 + k * 0x4_0000 + 0x1_E000 + off) true = true → k < 144 → off < 0x240 →
    (width = 4 ∨ width = 8) → off % width = 0 → off + width ≤ 0x240 → domOn s d (pdPod (k / 18)) = true →
    imageOpen (kern s d k).st = false →
    ∃ t, exec (.kernelImageWrite a d k off width v) s = .next t ∧
      t = s.turnedDown)

/-- An access to an address that nothing answers is answered with an error of KIND 0, one of a width that its target
does not take with KIND 1, one that the firewall refuses with KIND 2. The access changes nothing but the record, which
holds the first such event since VALID was cleared: its address, KIND, direction and master. The same holds at the die
of a master that cannot reach the target (assumption log 64 and 86). The debug port makes no access while LOCK is blown
and no certificate opened it (assumption log 25); such a command leaves the state as it is (assumption log 4). It says
where each of these commands completes with its effect: MEMORY_WRITE, MEMORY_READ. -/
def Obligations.BusErrors : Prop :=
  (∀ (s : State) (a : Access) (addr width v : Nat),
    let d := addrDie addr
    accessOk s a = true → running s = true → domOn s a.odie pdStew = true → masterActs s a = true → canReach s a d = true →
    masterReaches a (addrLocal addr) = true → fwAllows s d a (addrLocal addr) true = false →
    exec (.memoryWrite a addr width v) s = .next ((busError s d 2 addr a true).failed 2)) ∧
  (∀ (s : State) (a : Access) (d loc width v : Nat),
    reachesAt s a d loc true = true → loc < 0x10_0000_0000 → target s d loc width = .default_ →
    exec (.memoryWrite a (pkgA d loc) width v) s = .next ((busError s d 0 (pkgA d loc) a true).failed 0)) ∧
  (∀ (s : State) (a : Access) (d loc width : Nat),
    reachesAt s a d loc false = true → loc < 0x10_0000_0000 → target s d loc width = .default_ →
    exec (.memoryRead a (pkgA d loc) width) s = .next ((busError s d 0 (pkgA d loc) a false).failed 0)) ∧
  (∀ (s : State) (a : Access) (d loc width v : Nat),
    reachesAt s a d loc true = true → domOn s d pdStew = true → loc + width ≤ 0x40_0000 → widthOk loc width = false →
    exec (.memoryWrite a (pkgA d loc) width v) s = .next ((busError s d 1 (pkgA d loc) a true).failed 1)) ∧
  (∀ (s : State) (a : Access) (addr width : Nat),
    accessOk s a = true → running s = true → domOn s a.odie pdStew = true → masterActs s a = true →
    (canReach s a (addrDie addr) = false ∨ masterReaches a (addrLocal addr) = false) →
    exec (.memoryRead a addr width) s = .next ((busError s a.odie 0 addr a false).failed 0)) ∧
  (∀ (s : State) (a : Access) (addr width : Nat),
    accessOk s a = true → running s = true → domOn s a.odie pdStew = true → masterActs s a = false →
    exec (.memoryRead a addr width) s = .next s) ∧
  (∀ (s : State) (d kind addr : Nat) (a : Access) (w : Bool),
    let t := busError s d kind addr a w
    s.wf = true → bitF s (Reg.BUS_ERR_HI d) F.BUS_ERR_HI_VALID = false → a.master < 32 → a.odie < 8 → kind < 4 →
    bitF t (Reg.BUS_ERR_HI d) F.BUS_ERR_HI_VALID = true ∧
      fld t (Reg.BUS_ERR_HI d) F.BUS_ERR_HI_KIND = kind ∧ fld t (Reg.BUS_ERR_HI d) F.BUS_ERR_HI_MASTER = a.master ∧
      reg t (Reg.BUS_ERR_LO d) = BitVec.ofNat 32 addr ∧ busError t d kind addr a w = t ∧ t.mem = s.mem ∧ t.kern = s.kern)

/-- A read of PULSE_COUNT_LO returns the low word and latches the high word for the reading master and its die; that
master's next read of PULSE_COUNT_HI returns the shadow, until it reads the low word again. A master without a shadow
reads the live high word. That PULSE_COUNT is the one counter of this kind is the choice of the model (assumption log
70). It says where each of these commands completes with its effect: COUNTER64_LOW_READ, MEMORY_READ. -/
def Obligations.CounterReads : Prop :=
  (∀ (s : State) (a : Access) (d : Nat),
    readsReg s a (Reg.PULSE_COUNT_LO d) = true →
    ∃ t, exec (.counter64LowRead a d) s = .next t ∧ t.resp = .ok ((reg s (Reg.PULSE_COUNT_LO 0)).setWidth 64) ∧
      t.regs = s.regs ∧ countHighRead t d a = reg s (Reg.PULSE_COUNT_HI 0) ∧
      (∀ u, u.tabs = t.tabs → countHighRead u d a = reg s (Reg.PULSE_COUNT_HI 0)) ∧
      (∀ b, highKey b ≠ highKey a → highKey b < 256 → highKey a < 256 → countHighRead t d b = countHighRead s d b)) ∧
  (∀ (s : State) (a : Access) (d : Nat),
    readsReg s a (Reg.PULSE_COUNT_HI d) = true →
    exec (.memoryRead a (Reg.PULSE_COUNT_HI d) 4) s = .next (s.read (countHighRead s d a)) ∧
      (tab s tHigh d (highKey a + 2 ^ 32) = 0 → countHighRead s d a = reg s (Reg.PULSE_COUNT_HI 0)))

/-- A write that changes the active bank's field of a kernel that runs it is refused, and one that changes the shadow
bank's field withdraws its admission. Hoard ownership is written alike. A stop asked of a kernel in RUN or HELD is
pending until a Pulse, and taking it back cancels it; a stopped kernel rejoins through admission, enters TEST and comes
back from it. A request that the state of the kernel does not allow sets CTLREJ, one that asks for nothing new changes
nothing, and a write to a kernel whose pod is OFF is answered with an error and changes nothing. It says where each of
these commands completes with its effect: KERNEL_BANKMODE_WRITE, POD_HOWN_WRITE, KERNEL_STOP_REQUEST,
KERNEL_STOP_CANCEL, KERNEL_REJOIN, KERNEL_TEST_ENTER, KERNEL_TEST_EXIT. -/
def Obligations.KernelControlAndBanks : Prop :=
  (∀ (s : State) (a : Access) (d k : Nat) (v : Word),
    let r := Reg.KERNEL_BANKMODE d k
    let kn := kern s d k
    let same := fun b : Bool => (reg s r).getLsbD b.toNat == v.getLsbD b.toNat
    reachesReg s a r = true → k < 144 → (dom s d (pdPod (k / 18))).st ≠ .off →
    (kn.st = .run ∨ kn.st = .shadow ∨ kn.st = .standby ∨ kn.st = .parked) → same kn.pbank = false →
    exec (.kernelBankmodeWrite a d k v) s = .next s.turnedDown) ∧
  (∀ (s : State) (a : Access) (d k : Nat) (v : Word),
    let r := Reg.KERNEL_BANKMODE d k
    let kn := kern s d k
    let same := fun b : Bool => (reg s r).getLsbD b.toNat == v.getLsbD b.toNat
    reachesReg s a r = true → k < 144 → (dom s d (pdPod (k / 18))).st ≠ .off →
    (¬(kn.st = .run ∨ kn.st = .shadow ∨ kn.st = .standby ∨ kn.st = .parked) ∨ same kn.pbank = true) →
    exec (.kernelBankmodeWrite a d k v) s = .next (each ([false, true].filter fun b => !same b) (fun b u => withdrawBy u d k b) (setReg s r (v &&& 3))).answered) ∧
  (∀ (s : State) (a : Access) (d p i : Nat) (v : Word),
    let r := Reg.POD_HOWN d p i
    let kn := kern s d (p * 18 + i)
    let part := fun (w : Word) (b : Bool) => if b then wField w 31 16 else wField w 15 0
    reachesReg s a r = true → p < 8 → i < 18 → (kn.st = .run ∨ kn.st = .shadow ∨ kn.st = .standby) →
    part (reg s r) kn.pbank ≠ part v kn.pbank →
    exec (.podHownWrite a d p i v) s = .next s.turnedDown) ∧
  (∀ (s : State) (a : Access) (d p i : Nat) (v : Word),
    let r := Reg.POD_HOWN d p i
    let kn := kern s d (p * 18 + i)
    let part := fun (w : Word) (b : Bool) => if b then wField w 31 16 else wField w 15 0
    reachesReg s a r = true → p < 8 → i < 18 →
    (¬(kn.st = .run ∨ kn.st = .shadow ∨ kn.st = .standby) ∨ part (reg s r) kn.pbank = part v kn.pbank) →
    exec (.podHownWrite a d p i v) s = .next (each ([false, true].filter fun b => decide (part (reg s r) b ≠ part v b)) (fun b u => withdrawBy u d (p * 18 + i) b) (setReg s r v)).answered) ∧
  (∀ (s : State) (a : Access) (d k : Nat),
    let r := Reg.KERNEL_CTL d k
    let kn := kern s d k
    reachesReg s a r = true → k < 144 → (dom s d (pdPod (k / 18))).st ≠ .off → kn.stop = false →
    (kn.st = .run ∨ kn.st = .held) →
    exec (.kernelStopRequest a d k) s = .next (powerSync (setKern s d k { kn with stop := true }) d).answered) ∧
  (∀ (s : State) (a : Access) (d k : Nat),
    let r := Reg.KERNEL_CTL d k
    let kn := kern s d k
    reachesReg s a r = true → k < 144 → (dom s d (pdPod (k / 18))).st ≠ .off →
    (kn.stop = true ∨ ¬(kn.st = .run ∨ kn.st = .held)) →
    exec (.kernelStopRequest a d k) s = .next (if ctlStop kn then s else setFld s (Reg.KERNEL_STAT d k) F.KERNEL_STAT_CTLREJ 1).answered) ∧
  (∀ (s : State) (a : Access) (d k : Nat),
    let r := Reg.KERNEL_CTL d k
    let kn := kern s d k
    reachesReg s a r = true → k < 144 → (dom s d (pdPod (k / 18))).st ≠ .off → kn.stop = true →
    exec (.kernelStopCancel a d k) s = .next (powerSync (setKern s d k { kn with stop := false }) d).answered) ∧
  (∀ (s : State) (a : Access) (d k : Nat),
    let r := Reg.KERNEL_CTL d k
    let kn := kern s d k
    reachesReg s a r = true → k < 144 → (dom s d (pdPod (k / 18))).st ≠ .off → ctlStop kn = false →
    exec (.kernelStopCancel a d k) s = .next (s).answered) ∧
  (∀ (s : State) (a : Access) (d k : Nat),
    let r := Reg.KERNEL_CTL d k
    let kn := kern s d k
    reachesReg s a r = true → k < 144 → (dom s d (pdPod (k / 18))).st ≠ .off → kn.stop = false → kn.st = .stopped →
    exec (.kernelRejoin a d k) s = .next (powerSync (setKern s d k { kn with rejoin := true }) d).answered) ∧
  (∀ (s : State) (a : Access) (d k : Nat),
    let r := Reg.KERNEL_CTL d k
    let kn := kern s d k
    reachesReg s a r = true → k < 144 → (dom s d (pdPod (k / 18))).st ≠ .off → kn.stop = false → kn.st = .test →
    exec (.kernelRejoin a d k) s = .next (setFld s (Reg.KERNEL_STAT d k) F.KERNEL_STAT_CTLREJ 1).answered) ∧
  (∀ (s : State) (a : Access) (d k : Nat),
    let r := Reg.KERNEL_CTL d k
    let kn := kern s d k
    reachesReg s a r = true → k < 144 → (dom s d (pdPod (k / 18))).st ≠ .off → kn.st = .stopped →
    exec (.kernelTestEnter a d k) s = .next (powerSync (setKern s d k (enterTest kn)) d).answered) ∧
  (∀ (s : State) (a : Access) (d k : Nat),
    let r := Reg.KERNEL_CTL d k
    let kn := kern s d k
    reachesReg s a r = true → k < 144 → (dom s d (pdPod (k / 18))).st ≠ .off → kn.st ≠ .stopped →
    exec (.kernelTestEnter a d k) s = .next (if kn.st = .test then s else setFld s (Reg.KERNEL_STAT d k) F.KERNEL_STAT_CTLREJ 1).answered) ∧
  (∀ (s : State) (a : Access) (d k : Nat),
    let r := Reg.KERNEL_CTL d k
    let kn := kern s d k
    reachesReg s a r = true → k < 144 → (dom s d (pdPod (k / 18))).st ≠ .off →
    exec (.kernelTestExit a d k) s = .next (if kn.st = .test then powerSync (setKern s d k (leaveTest kn)) d else s).answered) ∧
  (∀ (s : State) (a : Access) (d k : Nat) (i : Instr),
    reachesReg s a (Reg.KERNEL_CTL d k) = true → k < 144 → (dom s d (pdPod (k / 18))).st = .off →
    i ∈ [.kernelStopRequest a d k, .kernelStopCancel a d k, .kernelRejoin a d k, .kernelTestEnter a d k, .kernelTestExit a d k] →
    exec i s = .next s.turnedDown) ∧
  (∀ (s : State) (a : Access) (d k : Nat) (v : Word),
    let r := Reg.KERNEL_BANKMODE d k
    reachesReg s a r = true → k < 144 → (dom s d (pdPod (k / 18))).st = .off →
    exec (.kernelBankmodeWrite a d k v) s = .next s.turnedDown)

/-- KERNEL_STAT reads the state code of its kernel, a code of the kernel state table, and distinct states have distinct
codes. RESET_N and the release that follows leave every kernel HELD. It says where this command completes with its
effect: MEMORY_READ. -/
def Obligations.KernelStates : Prop :=
  (∀ (s : State) (a : Access) (d k : Nat),
    readsReg s a (Reg.KERNEL_STAT d k) = true → k < 144 → (dom s d (pdPod (k / 18))).st ≠ .off →
    ∃ t, exec (.memoryRead a (Reg.KERNEL_STAT d k) 4) s = .next t ∧ t.resp = .ok ((kernelStat s d k).setWidth 64) ∧
      wField (kernelStat s d k) 31 28 = kstateCode (kern s d k).st ∧ t.kern = s.kern) ∧
  (∀ (s : State) (a : Access) (d k : Nat),
    readsReg s a (Reg.KERNEL_STAT d k) = true → k < 144 → (dom s d (pdPod (k / 18))).st = .off →
    ∃ t, exec (.memoryRead a (Reg.KERNEL_STAT d k) 4) s = .next t ∧ t.resp = .ok 0 ∧ kstateCode .off = 0 ∧ t.kern = s.kern) ∧
  (∀ (x y : KState),
    kstateCode x ≤ 9 ∧ (kstateCode x = kstateCode y → x = y) ∧ kstateCode .off = 0 ∧ kstateCode .run = 1 ∧
      kstateCode .held = 2 ∧ kstateCode .stopped = 3 ∧ kstateCode .parked = 4 ∧ kstateCode .test = 5 ∧ kstateCode .shadow = 6 ∧
      kstateCode .standby = 7 ∧ kstateCode .retired = 8 ∧ kstateCode .faulted = 9) ∧
  (∀ (s t u : State) (recov ok : Bool) (d k : Nat),
    s.keep.seq = .run → exec .resetNAssert s = .next t → exec (.resetRelease recov ok) t = .next u →
    (kern u d k).st = .held)

/-- A window register takes its BASE. A changed BUS_SLICE is pending until it is applied. In boot privilege BUS_CTL
takes REMAP and sets ROMLOCK, which nothing clears, and FW_CTL sets LOCK; without boot privilege, and on a locked FW
page, the write is answered with an error. In the registers PULSE_STAT, PWR_CTL, METER_PEAK, BUS_CTL, WADI_TEST and
SYS_ID a write takes the bits that their access codes let through: RW bits are set, RO and SN bits stay, a 1 clears a
W1C bit of PULSE_STAT and sets VOTEONLY, and BUS_CTL is written in boot privilege only. It says where each of these
commands completes with its effect: BUS_WIN_WRITE, BUS_SLICE_WRITE, BUS_SLICE_APPLY, ROMLOCK_SET, REMAP_WRITE,
FW_LOCK_SET, REGISTER_WRITE. -/
def Obligations.BusRegisters : Prop :=
  (∀ (s : State) (a : Access) (d w : Nat) (v : Word),
    let r := Reg.BUS_WIN d w
    reachesReg s a r = true → w < 8 →
    exec (.busWinWrite a d w v) s = .next (maskPut s r 0xFFF v).answered) ∧
  (∀ (s : State) (a : Access) (d : Nat) (v : Word),
    let r := Reg.BUS_SLICE d
    reachesReg s a r = true →
    exec (.busSliceWrite a d v) s = .next (if v &&& 0x1F = reg s r then s else setFld (setReg s r (v &&& 0x1F)) (Reg.BUS_STAT d) F.BUS_STAT_SLICEPEND 1).answered) ∧
  (∀ (s : State) (d : Nat),
    d < dieCount s.part → bitF s (Reg.BUS_STAT d) F.BUS_STAT_SLICEPEND = true →
    exec (.busSliceApply d) s = .next (setFld s (Reg.BUS_STAT d) F.BUS_STAT_SLICEPEND 0)) ∧
  (∀ (s : State) (a : Access) (d : Nat),
    let r := Reg.BUS_CTL d
    reachesReg s a r = true → bootPriv s a = true →
    exec (.romlockSet a d) s = .next (setReg s r ((reg s r &&& 3) ||| 2)).answered) ∧
  (∀ (s : State) (a : Access) (d : Nat) (remap : Bool),
    let r := Reg.BUS_CTL d
    reachesReg s a r = true → bootPriv s a = true →
    exec (.remapWrite a d remap) s = .next (setReg s r ((if remap then 1 else 0) ||| (reg s r &&& 2))).answered) ∧
  (∀ (s : State) (a : Access) (d : Nat) (remap : Bool),
    let r := Reg.BUS_CTL d
    reachesReg s a r = true → bootPriv s a = false →
    exec (.remapWrite a d remap) s = .next s.turnedDown) ∧
  (∀ (s : State) (a : Access) (d : Nat),
    let r := Reg.FW_CTL d
    reachesReg s a r = true → bootPriv s a = true → bitF s r F.FW_CTL_LOCK = false →
    exec (.fwLockSet a d) s = .next (setReg s r ((reg s r &&& 1) ||| 2)).answered) ∧
  (∀ (s : State) (a : Access) (d : Nat),
    let r := Reg.FW_CTL d
    reachesReg s a r = true → (bootPriv s a = false ∨ bitF s r F.FW_CTL_LOCK = true) →
    exec (.fwLockSet a d) s = .next s.turnedDown) ∧
  (∀ (s : State) (a : Access) (d : Nat) (v : Word),
    let r := Reg.PULSE_STAT d
    reachesReg s a r = true →
    exec (.registerWrite a r v) s = .next (setReg s r (reg s r &&& ~~~(v &&& 0xC))).answered) ∧
  (∀ (s : State) (a : Access) (d : Nat) (v : Word),
    reachesReg s a (Reg.PWR_CTL d) = true →
    ∃ t, exec (.registerWrite a (Reg.PWR_CTL d) v) s = .next t ∧
      bitF t (Reg.PWR_CTL d) F.PWR_CTL_VOTEONLY = (bitF s (Reg.PWR_CTL d) F.PWR_CTL_VOTEONLY || v.getLsbD 2) ∧
      t.resp = .ok 0 ∧
      t.mem = s.mem ∧ t.lines = s.lines) ∧
  (∀ (s : State) (a : Access) (d m : Nat) (v : Word),
    let r := Reg.METER_PEAK d m
    reachesReg s a r = true → m < 512 →
    exec (.registerWrite a r v) s = .next (s).answered) ∧
  (∀ (s : State) (a : Access) (d : Nat) (v : Word),
    let r := Reg.BUS_CTL d
    reachesReg s a r = true → bootPriv s a = true →
    exec (.registerWrite a r v) s = .next (setReg s r ((v &&& 3) ||| (reg s r &&& 2))).answered) ∧
  (∀ (s : State) (a : Access) (d : Nat) (v : Word),
    let r := Reg.BUS_CTL d
    reachesReg s a r = true → bootPriv s a = false →
    exec (.registerWrite a r v) s = .next s.turnedDown) ∧
  (∀ (s : State) (a : Access) (d n : Nat) (v : Word),
    let r := Reg.WADI_TEST d n
    reachesReg s a r = true → n < 64 →
    exec (.registerWrite a r v) s = .next (setReg s r v).answered) ∧
  (∀ (s : State) (a : Access) (d : Nat) (v : Word),
    let r := Reg.SYS_ID d
    reachesReg s a r = true →
    exec (.registerWrite a r v) s = .next (s).answered)

/-- A word staged for a queue is kept for its master; a write of DATA0 pushes it with the staged words and clears them.
A read of DATA0 pops the head entry. CFG is taken while the queue is disabled, empties it when EN is cleared, and is
refused with CFGERR where it would enable a queue that does not fit. A push to a queue with room appends the entry at
TAIL and raises COUNT. A push to a disabled queue, and one to a full queue without OVWR, is dropped and counted in LOST.
A pop returns the head entry's first word and lowers COUNT; of an empty queue it returns 0 and sets UNDER. A pop of an
entry on a line with a double-bit error is answered with KIND 3 (assumption log 87). It says where each of these
commands completes with its effect: QUEUE_STAGE, QUEUE_PUSH, QUEUE_POP, QUEUE_CFG_WRITE. -/
def Obligations.Queues : Prop :=
  (∀ (s : State) (a : Access) (d q i : Nat) (v : Word),
    let r := Reg.QUEUE_DATA d q i
    reachesReg s a r = true → q < 48 → 1 ≤ i → i < 56 →
    exec (.queueStage a d q i v) s = .next (if queueWords s d q ≤ i then s else setTab s tQStage d (queueKey q a i) v).answered) ∧
  (∀ (s : State) (a : Access) (d q : Nat) (v : Word),
    let r := Reg.QUEUE_DATA d q 0
    reachesReg s a r = true → q < 48 →
    exec (.queuePush a d q v) s = .next (if queueWords s d q = 0 then s else queuePushData s d q a v).answered) ∧
  (∀ (s : State) (a : Access) (d q : Nat),
    readsReg s a (Reg.QUEUE_DATA d q 0) = true → q < 48 → queueBroken s d q = false →
    exec (.queuePop a d q) s = .next ((if queueWords s d q = 0 then s else (queuePop s d q a).1).read (if queueWords s d q = 0 then 0 else (queuePop s d q a).2))) ∧
  (∀ (s : State) (a : Access) (d q : Nat),
    readsReg s a (Reg.QUEUE_DATA d q 0) = true → q < 48 → queueBroken s d q = true → 0 < queueWords s d q →
    ∃ t, exec (.queuePop a d q) s = .next t ∧
      t.resp = .err (some 3) ∧
      { t with regs := s.regs, tabs := s.tabs, ecc := s.ecc, rows := s.rows, ddr := s.ddr, resp := s.resp, fresh := s.fresh } = s) ∧
  (∀ (s : State) (a : Access) (d q : Nat) (v : Word),
    let r := Reg.QUEUE_CFG d q
    reachesReg s a r = true → q < 48 → bitF s r F.QUEUE_CFG_EN = true → v.getLsbD 31 = false →
    exec (.queueCfgWrite a d q v) s = .next (queueEmpty (setFld s r F.QUEUE_CFG_EN 0) d q).answered) ∧
  (∀ (s : State) (a : Access) (d q : Nat) (v : Word),
    let r := Reg.QUEUE_CFG d q
    reachesReg s a r = true → q < 48 → bitF s r F.QUEUE_CFG_EN = true → v.getLsbD 31 = true →
    exec (.queueCfgWrite a d q v) s = .next (s).answered) ∧
  (∀ (s : State) (a : Access) (d q : Nat) (v : Word),
    let r := Reg.QUEUE_CFG d q
    let w := if q < 3 then (v &&& 0x80001FFF) ||| (reg s r &&& 0x003F0000) else v &&& 0xC03F1FFF
    reachesReg s a r = true → q < 48 → bitF s r F.QUEUE_CFG_EN = false →
    exec (.queueCfgWrite a d q v) s = .next (if w.getLsbD 31 && !queueFits s d q w then setFld s (Reg.QUEUE_STAT d q) F.QUEUE_STAT_CFGERR 1 else setQueueCount (setReg s r w) d q 0).answered) ∧
  (∀ (s : State) (d q : Nat) (ws : List Word),
    let t := queuePush s d q ws
    let n := fld s (Reg.QUEUE_STAT d q) F.QUEUE_STAT_COUNT
    let tail := fld s (Reg.QUEUE_TAIL d q) F.QUEUE_TAIL_INDEX
    s.wf = true → q < 48 → d < 8 → bitF s (Reg.QUEUE_CFG d q) F.QUEUE_CFG_EN = true →
    n < fld s (Reg.QUEUE_CFG d q) F.QUEUE_CFG_DEPTH → 0 < queueWords s d q →
    fld t (Reg.QUEUE_STAT d q) F.QUEUE_STAT_COUNT = n + 1 ∧
      fld t (Reg.QUEUE_TAIL d q) F.QUEUE_TAIL_INDEX = queueNext s d q tail ∧
      (∀ i, i < queueWords s d q → loadW t (queueAddr s d q tail i) = ws.getD i 0) ∧
      reg t (Reg.QUEUE_LOST d q) = reg s (Reg.QUEUE_LOST d q) ∧ reg t (Reg.QUEUE_HEAD d q) = reg s (Reg.QUEUE_HEAD d q) ∧
      t.kern = s.kern ∧ t.lines = s.lines) ∧
  (∀ (s : State) (d q : Nat) (ws : List Word),
    let t := queuePush s d q ws
    let n := fld s (Reg.QUEUE_STAT d q) F.QUEUE_STAT_COUNT
    s.wf = true → q < 48 → d < 8 →
    (bitF s (Reg.QUEUE_CFG d q) F.QUEUE_CFG_EN = false ∨ (fld s (Reg.QUEUE_CFG d q) F.QUEUE_CFG_DEPTH ≤ n ∧ bitF s (Reg.QUEUE_CFG d q) F.QUEUE_CFG_OVWR = false)) →
    reg t (Reg.QUEUE_LOST d q) = reg s (Reg.QUEUE_LOST d q) + 1 ∧
      fld t (Reg.QUEUE_STAT d q) F.QUEUE_STAT_COUNT = n ∧ t.mem = s.mem ∧ t.kern = s.kern) ∧
  (∀ (s : State) (a : Access) (d q : Nat),
    let t := (queuePop s d q a).1
    let n := fld s (Reg.QUEUE_STAT d q) F.QUEUE_STAT_COUNT
    s.wf = true → q < 48 → d < 8 → bitF s (Reg.QUEUE_CFG d q) F.QUEUE_CFG_EN = true → 0 < n → 0 < queueWords s d q →
    eccAt s (pkgA d (queueLoc s d q (queueHeadIndex s d q) 0 / 8 * 8)) ≠ .double →
    (queuePop s d q a).2 = loadW s (queueAddr s d q (fld s (Reg.QUEUE_HEAD d q) F.QUEUE_HEAD_INDEX) 0) ∧
      fld t (Reg.QUEUE_STAT d q) F.QUEUE_STAT_COUNT = n - 1 ∧ t.mem = s.mem ∧ t.kern = s.kern) ∧
  (∀ (s : State) (a : Access) (d q : Nat),
    fld s (Reg.QUEUE_STAT d q) F.QUEUE_STAT_COUNT = 0 →
    (queuePop s d q a).2 = 0 ∧
      bitF (queuePop s d q a).1 (Reg.QUEUE_STAT d q) F.QUEUE_STAT_UNDER = true ∧ (queuePop s d q a).1.mem = s.mem)

/-- RUN 1 starts a steward that is HELD or halted at its START address with IPL 0 and its registers as they stand
(assumption log 72); RUN 0 holds it at the first point at which it could take an interrupt, at once where it waits.
DBSET sets doorbell bits, whichever permitted master writes it, and DBELL clears the bits written 1. It says where each
of these commands completes with its effect: STEWARD_RUN, STEWARD_HOLD, DOORBELL_SET, DOORBELL_CLEAR. -/
def Obligations.StewardsAndDoorbells : Prop :=
  (∀ (s : State) (a : Access) (d i : Nat),
    let st := stew s d i
    reachesReg s a (Reg.STEWARD_CTL d i) = true → i < 2 → (st.st = .held ∨ st.st = .halted ∨ st.st = .debug) →
    ∃ t, exec (.stewardRun a d i) s = .next t ∧
      (stew t d i).st = .run ∧
      (stew t d i).core.free = { st.core.free with ipl := 0 } ∧
      (stew t d i).core.r = { st.core.r with pc := fld s (Reg.STEWARD_START d i) F.STEWARD_START_ADDR } ∧
      { t with regs := s.regs, stew := s.stew, resp := s.resp } = s ∧
      RegsBut s t [Reg.STEWARD_CTL d i]) ∧
  (∀ (s : State) (a : Access) (d i : Nat),
    let st := stew s d i
    reachesReg s a (Reg.STEWARD_CTL d i) = true → i < 2 → (st.st = .run ∨ st.st = .wait) →
    ∃ t, exec (.stewardRun a d i) s = .next t ∧
      stew t d i = st ∧
      { t with regs := s.regs, stew := s.stew, resp := s.resp } = s ∧
      RegsBut s t [Reg.STEWARD_CTL d i]) ∧
  (∀ (s : State) (a : Access) (d i : Nat),
    let st := stew s d i
    reachesReg s a (Reg.STEWARD_CTL d i) = true → i < 2 →
    ∃ t, exec (.stewardHold a d i) s = .next t ∧
      bitF t (Reg.STEWARD_CTL d i) F.STEWARD_CTL_RUN = false ∧
      (stew t d i).st = (if st.st = .wait ∨ (st.st = .run ∧ heldOff st.core = false) then .held else st.st) ∧
      (stew t d i).core = st.core ∧
      { t with regs := s.regs, stew := s.stew, resp := s.resp } = s ∧
      RegsBut s t [Reg.STEWARD_CTL d i]) ∧
  (∀ (s : State) (a : Access) (d i : Nat) (v : Word),
    let r := Reg.STEWARD_DBSET d i
    reachesReg s a r = true → i < 2 →
    exec (.doorbellSet a d i v) s = .next (setReg s (Reg.STEWARD_DBELL d i) (reg s (Reg.STEWARD_DBELL d i) ||| v)).answered) ∧
  (∀ (s : State) (a : Access) (d i : Nat) (v : Word),
    let r := Reg.STEWARD_DBELL d i
    reachesReg s a r = true → i < 2 →
    exec (.doorbellClear a d i v) s = .next (setReg s r (reg s r &&& ~~~v)).answered)

/-- PWR_VDATA writes the votes of client 2 and of clients 33 to 47 and ignores every other client. PWR_HOLD of die 0
holds the dies of the part. VOTEONLY stays set, puts PWR_MODE at 0 and turns later writes of it into CFGREJ. WAKEREL
withdraws the votes of client 58. PADREL releases the held pads of each domain that it names and that is ON, and no
others. A changed WAKE pin shows in ACTIVE; an enabled pin that becomes active is a wake event, counted instead where it
comes too soon. A wake event sets its bit of WAKE_STAT, clears PWR_MODE.STATE on every die, makes client 58 vote PD_STEW
ON there and sets PWR_EVT.WAKE; in HUSK it starts the exit. The interval timer restarts on a write and is a wake event
when it expires. The wake detector of the link, set to a mode, is a wake event once it has heard what the mode asks for
while PD_LINK of die 0 is not ON: activity for 1 us in total within 10 us (LMODE 1), or the wake word three times after
idle pattern (LMODE 2). It says where each of these commands completes with its effect: PWR_VDATA_WRITE, PWR_HOLD_WRITE,
PWR_MODE_WRITE, VOTEONLY_SET, WAKEREL, PADREL, WAKE_PIN_ACCEPT, WAKE_TIMER_WRITE, INTERVAL_TIMER_EXPIRY,
LINK_WAKE_DETECT. -/
def Obligations.PowerVotesAndWakes : Prop :=
  (∀ (s : State) (a : Access) (d : Nat) (v : Word),
    let r := Reg.PWR_VDATA d
    let c := fld s (Reg.PWR_VSEL d) F.PWR_VSEL_CLIENT
    reachesReg s a r = true →
    exec (.pwrVdataWrite a d v) s = .next (if c = 2 ∨ 33 ≤ c ∧ c ≤ 47 then powerSync (setTab s tVote d c (v &&& 0x3FFFF)) d else s).answered) ∧
  (∀ (s : State) (a : Access) (v : Word),
    let r := Reg.PWR_HOLD 0
    reachesReg s a r = true →
    exec (.pwrHoldWrite a v) s = .next (powerSyncAll (setFld s r F.PWR_HOLD_DIES (v.toNat % 2 ^ dieCount s.part)) none).answered) ∧
  (∀ (s : State) (a : Access) (d : Nat) (v : Word),
    let r := Reg.PWR_MODE d
    reachesReg s a r = true →
    exec (.pwrModeWrite a d v) s = .next (if bitF s (Reg.PWR_CTL d) F.PWR_CTL_VOTEONLY then setFld s (Reg.PWR_EVT d) F.PWR_EVT_CFGREJ 1 else setFld s r F.PWR_MODE_STATE (wGet v F.PWR_MODE_STATE)).answered) ∧
  (∀ (s : State) (a : Access) (d : Nat),
    reachesReg s a (Reg.PWR_CTL d) = true →
    ∃ t, exec (.voteonlySet a d) s = .next t ∧
      bitF t (Reg.PWR_CTL d) F.PWR_CTL_VOTEONLY = true ∧
      fld t (Reg.PWR_MODE d) F.PWR_MODE_STATE = 0 ∧
      t.resp = .ok 0 ∧
      { t with regs := s.regs, resp := s.resp } = s ∧
      RegsBut s t [Reg.PWR_CTL d, Reg.PWR_MODE d]) ∧
  (∀ (s : State) (a : Access) (d : Nat),
    reachesReg s a (Reg.PWR_CTL d) = true →
    ∃ t, exec (.wakerel a d) s = .next t ∧
      tab t tVote d 58 = 0 ∧
      t.resp = .ok 0 ∧
      { t with regs := s.regs, tabs := s.tabs, doms := s.doms, resp := s.resp } = s) ∧
  (∀ (s : State) (a : Access) (d : Nat) (v : Word),
    let r := Reg.PWR_PADREL d
    reachesReg s a r = true →
    exec (.padrel a d v) s = .next (padrelWrite s d v).answered) ∧
  (∀ (s : State) (i : Nat) (high soon : Bool),
    i < 8 → kept s = true →
    exec (.wakePinAccept i high soon) s = .next (pinChange s i high soon)) ∧
  (∀ (s : State) (a : Access) (v : Word),
    let r := Reg.WAKE_TIMER 0
    reachesReg s a r = true →
    exec (.wakeTimerWrite a v) s = .next (powerSyncAll (setReg (setReg s r (v &&& 0xC0FFFFFF)) (Reg.WAKE_TCNT 0) (if v.getLsbD 31 then BitVec.ofNat 32 (max 1 (v.toNat % 2 ^ 24)) else 0)) none).answered) ∧
  (∀ (s : State),
    let per := bitF s (Reg.WAKE_TIMER 0) F.WAKE_TIMER_PERIODIC
    kept s = true → bitF s (Reg.WAKE_TIMER 0) F.WAKE_TIMER_EN = true →
    exec (.intervalTimerExpiry) s = .next (wakeEvent (setReg (if per then s else setFld s (Reg.WAKE_TIMER 0) F.WAKE_TIMER_EN 0) (Reg.WAKE_TCNT 0)
        (if per then BitVec.ofNat 32 (max 1 (fld s (Reg.WAKE_TIMER 0) F.WAKE_TIMER_MS)) else 0)) 8)) ∧
  (∀ (s : State),
    kept s = true → bitF s (Reg.WAKE_CTL 0) F.WAKE_CTL_LINKEN = true →
    ((fld s (Reg.WAKE_CTL 0) F.WAKE_CTL_LMODE = 1 ∧ 10 ≤ ((s.linkDev.heard.take 100).filter (·.isSome)).length) ∨ (fld s (Reg.WAKE_CTL 0) F.WAKE_CTL_LMODE = 2 ∧ wakeEnds s.linkDev.heard = true)) →
    (running s = false ∨ domOn s 0 pdLink = false) →
    exec (.linkWakeDetect) s = .next (wakeEvent { s with linkDev := { s.linkDev with woke := true, heard := [] } } 9)) ∧
  (∀ (s : State) (a : Access) (d m : Nat) (v : Word),
    s.wf = true → reachesReg s a (Reg.PWR_PADREL d) = true → m < 9 →
    ∃ t, exec (.padrel a d v) s = .next t ∧
      (fld t (Reg.PWR_PADSTAT d) F.PWR_PADSTAT_HELD).testBit m = (padHeld s d m && !(v.getLsbD m && domOn s d m)) ∧
      (v.getLsbD m = true → domOn s d m = true → padHeld s d m = true → alGet (d * 16 + m) t.pads = none) ∧
      t.resp = .ok 0 ∧
      t.kern = s.kern ∧ t.mem = s.mem ∧ t.lines = s.lines) ∧
  (∀ (s : State) (i e : Nat) (high soon : Bool),
    s.wf = true → kept s = true → i < 8 → e < dieCount s.part → soon = false →
    bitF s (Reg.WAKE_PIN 0 i) F.WAKE_PIN_EN = true → (high == bitF s (Reg.WAKE_PIN 0 i) F.WAKE_PIN_POL) = true →
    (bitF s (Reg.WAKE_PIN 0 i) F.WAKE_PIN_LEVEL = false ∨ i ∉ s.keep.pinEv) →
    ∃ t, exec (.wakePinAccept i high soon) s = .next t ∧
      (reg t (Reg.WAKE_STAT 0)).getLsbD (i) = true ∧
      fld t (Reg.PWR_MODE e) F.PWR_MODE_STATE = 0 ∧
      tab t tVote e 58 = BitVec.ofNat 32 (2 * 4 ^ pdStew) ∧
      bitF t (Reg.PWR_EVT e) F.PWR_EVT_WAKE = true ∧
      (s.keep.seq = .husk → s.keep.deaf = false → t.keep.seq = .pgWait ∧ t.keep.cause = 4 ∧ t.keep.supplyEn = true) ∧
      (fld t (Reg.WAKE_ACTIVE 0) F.WAKE_ACTIVE_PIN).testBit i = true ∧
      i ∈ t.keep.pinEv ∧
      { t with regs := s.regs, tabs := s.tabs, mem := s.mem, stew := s.stew, dieX := s.dieX, doms := s.doms, keep := s.keep, fresh := s.fresh } = s) ∧
  (∀ (s : State) (i : Nat) (high soon : Bool),
    s.wf = true → kept s = true → i < 8 → soon = true → bitF s (Reg.WAKE_PIN 0 i) F.WAKE_PIN_EN = true →
    (high == bitF s (Reg.WAKE_PIN 0 i) F.WAKE_PIN_POL) = true →
    (bitF s (Reg.WAKE_PIN 0 i) F.WAKE_PIN_LEVEL = false ∨ i ∉ s.keep.pinEv) →
    ∃ t, exec (.wakePinAccept i high soon) s = .next t ∧
      (fld t (Reg.WAKE_ACTIVE 0) F.WAKE_ACTIVE_PIN).testBit i = true ∧
      reg t (Reg.WAKE_COAL 0 i) = reg s (Reg.WAKE_COAL 0 i) + 1 ∧
      reg t (Reg.WAKE_STAT 0) = reg s (Reg.WAKE_STAT 0) ∧
      { t with regs := s.regs, tabs := s.tabs, mem := s.mem, stew := s.stew, dieX := s.dieX, doms := s.doms, keep := s.keep, fresh := s.fresh } = s) ∧
  (∀ (s : State) (i : Nat) (high soon : Bool),
    s.wf = true → kept s = true → i < 8 → (high == bitF s (Reg.WAKE_PIN 0 i) F.WAKE_PIN_POL) = false →
    ∃ t, exec (.wakePinAccept i high soon) s = .next t ∧
      (fld t (Reg.WAKE_ACTIVE 0) F.WAKE_ACTIVE_PIN).testBit i = false ∧
      i ∉ t.keep.pinEv ∧
      reg t (Reg.WAKE_STAT 0) = reg s (Reg.WAKE_STAT 0) ∧
      t.mem = s.mem ∧ t.doms = s.doms ∧
      { t with regs := s.regs, tabs := s.tabs, mem := s.mem, stew := s.stew, dieX := s.dieX, doms := s.doms, keep := s.keep, fresh := s.fresh } = s) ∧
  (∀ (s : State) (e : Nat),
    s.wf = true → kept s = true → e < dieCount s.part → bitF s (Reg.WAKE_TIMER 0) F.WAKE_TIMER_EN = true →
    ∃ t, exec (.intervalTimerExpiry) s = .next t ∧
      (reg t (Reg.WAKE_STAT 0)).getLsbD (8) = true ∧
      fld t (Reg.PWR_MODE e) F.PWR_MODE_STATE = 0 ∧
      tab t tVote e 58 = BitVec.ofNat 32 (2 * 4 ^ pdStew) ∧
      bitF t (Reg.PWR_EVT e) F.PWR_EVT_WAKE = true ∧
      (s.keep.seq = .husk → s.keep.deaf = false → t.keep.seq = .pgWait ∧ t.keep.cause = 4 ∧ t.keep.supplyEn = true) ∧
      { t with regs := s.regs, tabs := s.tabs, mem := s.mem, stew := s.stew, dieX := s.dieX, doms := s.doms, keep := s.keep, fresh := s.fresh } = s) ∧
  (∀ (s : State) (b e : Nat),
    let t := wakeEvent s b
    s.wf = true → b < 10 → e < dieCount s.part →
    (reg t (Reg.WAKE_STAT 0)).getLsbD (b) = true ∧
      fld t (Reg.PWR_MODE e) F.PWR_MODE_STATE = 0 ∧
      tab t tVote e 58 = BitVec.ofNat 32 (2 * 4 ^ pdStew) ∧
      bitF t (Reg.PWR_EVT e) F.PWR_EVT_WAKE = true ∧
      (s.keep.seq = .husk → s.keep.deaf = false → t.keep.seq = .pgWait ∧ t.keep.cause = 4 ∧ t.keep.supplyEn = true) ∧ t.mem = (if s.keep.seq = .husk ∧ t.keep.seq = .pgWait then t.mem else s.mem) ∧ t.kern = s.kern ∧ t.lines = s.lines)

/-- A domain whose target is below its level starts an entry unless a client refuses it; at the pad-hold point the pads
of a domain that has any are held; the entry ends at its level, and a domain at RET or OFF whose target has risen starts
an exit, which ends ON. The pad-hold point comes once nothing is outstanding. The domain is then RET, OFF or ON, unless
a target was queued: one above the level reached starts the exit at once, and one equal to it is dropped. A vote that
raises the target of an entry above its level before the pad-hold point aborts it: the domain is ON and ABORT is set; a
target that changes later in a transition is queued. It says where each of these commands completes with its effect:
DOMAIN_ENTRY_START, PAD_HOLD_POINT, DOMAIN_ENTRY_DONE, DOMAIN_EXIT_START, DOMAIN_EXIT_DONE, PWR_VDATA_WRITE. -/
def Obligations.DomainTransitions : Prop :=
  (∀ (s : State) (d m : Nat),
    s.wf = true → d < dieCount s.part → m < 9 → running s = true → (dom s d m).st = .on → domTarget s d m < 2 →
    entryRefuser s d m = none →
    ∃ t, exec (.domainEntryStart d m) s = .next t ∧
      (dom t d m).st = .entering (domTarget s d m) 2 false ∧
      (dom t d m).tgt = domTarget s d m ∧
      { t with regs := s.regs, doms := s.doms, linkDev := s.linkDev } = s ∧
      RegsBut s t [Reg.WAKE_CTL 0]) ∧
  (∀ (s : State) (d m c : Nat),
    s.wf = true → d < dieCount s.part → m < 9 → running s = true → (dom s d m).st = .on → (dom s d m).refused = false →
    domTarget s d m < 2 → entryRefuser s d m = some c →
    ∃ t, exec (.domainEntryStart d m) s = .next t ∧
      (dom t d m).st = (dom s d m).st ∧
      (dom t d m).refused = true ∧
      bitF t (Reg.PWR_EVT d) F.PWR_EVT_REFUSE = true ∧
      { t with regs := s.regs, doms := s.doms, linkDev := s.linkDev } = s ∧
      RegsBut s t [Reg.PWR_EVT d, Reg.PWR_REFCNT d, Reg.PWR_REFUSE d]) ∧
  (∀ (s : State) (d m lvl from_ : Nat),
    s.wf = true → d < dieCount s.part → m < 9 → (dom s d m).st = .entering lvl from_ false → entryRefuser s d m = none →
    outstanding s d m = false →
    ∃ t, exec (.padHoldPoint d m) s = .next t ∧
      (dom t d m).st = .entering lvl from_ true ∧
      (hasPads m = true → (fld t (Reg.PWR_PADSTAT d) F.PWR_PADSTAT_HELD).testBit m = true) ∧
      { t with regs := s.regs, stew := s.stew, dieX := s.dieX, doms := s.doms, pads := s.pads, fresh := s.fresh } = s ∧
      RegsBut s t [Reg.PWR_PADSTAT d, Reg.PWR_EVT d, Reg.PWR_REFCNT d, Reg.PWR_REFUSE d]) ∧
  (∀ (s : State) (d m lvl from_ : Nat),
    d < dieCount s.part → m < 9 → (dom s d m).st = .entering lvl from_ true →
    exec (.domainEntryDone d m) s = .next (powerSync (govRefresh (endTransition (domainLoss s d m lvl) d m lvl) d) d)) ∧
  (∀ (s : State) (d m : Nat),
    s.wf = true → d < dieCount s.part → m < 9 → running s = true → ((dom s d m).st = .off ∨ (dom s d m).st = .ret) →
    (if (dom s d m).st = .off then 0 else 1) < domTarget s d m →
    ∃ t, exec (.domainExitStart d m) s = .next t ∧
      (dom t d m).st = .exiting (if (dom s d m).st = .off then 0 else 1) ∧
      (dom t d m).tgt = domTarget s d m ∧
      { t with regs := s.regs, stew := s.stew, dieX := s.dieX, doms := s.doms } = s ∧
      RegsBut s t [Reg.GOV_STAT d]) ∧
  (∀ (s : State) (d m from_ : Nat),
    d < dieCount s.part → m < 9 → (dom s d m).st = .exiting from_ →
    exec (.domainExitDone d m) s = .next (powerSync (exitPrep (govRefresh (endTransition (domainWake (setDom s d m { dom s d m with st := .on }) d m from_) d m 2) d) d m) d)) ∧
  (∀ (s : State) (d m lvl from_ : Nat),
    let x := dom s d m
    s.wf = true → d < dieCount s.part → m < 9 → lvl < 2 → x.st = .entering lvl from_ true →
    (x.queued = none ∨ x.queued = some lvl) →
    (m ≠ pdSap ∨ (x.tgt = domTarget s d m ∧ ((List.range 10).all fun i => decide (sapState s d i = sapStopped)) = true)) →
    ∃ t, exec (.domainEntryDone d m) s = .next t ∧
      (dom t d m).st = (if lvl = 0 then .off else .ret) ∧
      { t with regs := s.regs, tabs := s.tabs, mem := s.mem, ecc := s.ecc, kern := s.kern, stew := s.stew, pub := s.pub, slip := s.slip, rows := s.rows, pods := s.pods, dieX := s.dieX, doms := s.doms, keep := s.keep, link := s.link, linkDev := s.linkDev, carav := s.carav, ddr := s.ddr, saps := s.saps, steer := s.steer, meters := s.meters } = s) ∧
  (∀ (s : State) (d m lvl from_ q : Nat),
    let x := dom s d m
    s.wf = true → d < dieCount s.part → m < 9 → x.st = .entering lvl from_ true → x.queued = some q → lvl < q →
    (m ≠ pdSap ∨ (x.tgt = domTarget s d m ∧ ((List.range 10).all fun i => decide (sapState s d i = sapStopped)) = true)) →
    ∃ t, exec (.domainEntryDone d m) s = .next t ∧
      (dom t d m).st = .exiting lvl ∧
      { t with regs := s.regs, tabs := s.tabs, mem := s.mem, ecc := s.ecc, kern := s.kern, stew := s.stew, pub := s.pub, slip := s.slip, rows := s.rows, pods := s.pods, dieX := s.dieX, doms := s.doms, keep := s.keep, link := s.link, linkDev := s.linkDev, carav := s.carav, ddr := s.ddr, saps := s.saps, steer := s.steer, meters := s.meters } = s) ∧
  (∀ (s : State) (d m from_ : Nat),
    let x := dom s d m
    s.wf = true → d < dieCount s.part → m < 9 → x.st = .exiting from_ → (x.queued = none ∨ x.queued = some 2) →
    ∃ t, exec (.domainExitDone d m) s = .next t ∧
      (dom t d m).st = .on ∧
      { t with regs := s.regs, kern := s.kern, stew := s.stew, pub := s.pub, dieX := s.dieX, doms := s.doms, keep := s.keep, bridges := s.bridges, link := s.link, linkDev := s.linkDev, ddr := s.ddr, steer := s.steer, fresh := s.fresh } = s) ∧
  (∀ (s : State) (a : Access) (d m lvl : Nat) (v : Word),
    let x := dom s d m
    let c := fld s (Reg.PWR_VSEL d) F.PWR_VSEL_CLIENT
    let u := setTab s tVote d c (v &&& 0x3FFFF)
    s.wf = true → reachesReg s a (Reg.PWR_VDATA d) = true → (c = 2 ∨ 33 ≤ c ∧ c ≤ 47) → m < 9 →
    x.st = .entering lvl 2 false → domTarget u d m ≠ x.tgt → lvl < domTarget u d m →
    ∃ t, exec (.pwrVdataWrite a d v) s = .next t ∧
      (dom t d m).st = .on ∧
      (dom t d m).queued = none ∧
      bitF t (Reg.PWR_EVT d) F.PWR_EVT_ABORT = true ∧
      t.kern = s.kern ∧ t.mem = s.mem ∧ t.lines = s.lines) ∧
  (∀ (s : State) (a : Access) (d m lvl from_ : Nat) (v : Word),
    let x := dom s d m
    let c := fld s (Reg.PWR_VSEL d) F.PWR_VSEL_CLIENT
    let u := setTab s tVote d c (v &&& 0x3FFFF)
    s.wf = true → reachesReg s a (Reg.PWR_VDATA d) = true → (c = 2 ∨ 33 ≤ c ∧ c ≤ 47) → m < 9 → domTarget u d m ≠ x.tgt →
    (x.st = .entering lvl from_ true ∨ x.st = .exiting from_) →
    ∃ t, exec (.pwrVdataWrite a d v) s = .next t ∧
      (dom t d m).st = x.st ∧
      (dom t d m).queued = some (domTarget u d m) ∧
      (dom t d m).tgt = domTarget u d m ∧
      t.kern = s.kern ∧ t.mem = s.mem ∧ t.lines = s.lines)

/-- With the conditions met the package enters HUSK: SUPPLY_EN falls, and the dies lose their state; a wake event after
the last refusal, from a source that is set, defers the exit. An exit raises SUPPLY_EN, waits for SUPPLY_PG and the
reference, and fails after a timeout with SUPPLY_EN low; a failed attempt is repeated, and the fourth one leaves the
package in HUSK with FAULT_N driven. A lost SUPPLY_PG holds the dies in reset with SUPPLY_EN high, which the model reads
as a reset of the package (DEDUCED, assumption log 57). VDD_KEEP starts and ends the Keep domain. It says where each of
these commands completes with its effect: HUSK_ENTRY, HUSK_DEFERRED_EXIT, SUPPLY_PG_RISE, REFERENCE_READY,
HUSK_EXIT_TIMEOUT, HUSK_EXIT_RETRY, SUPPLY_PG_LOSS, VDD_KEEP_APPLY, VDD_KEEP_LOSS. -/
def Obligations.HuskAndSupplies : Prop :=
  (∀ (s : State),
    huskReady s = true → huskRefuser s = none →
    ∃ t, exec (.huskEntry none) s = .next t ∧
      t.keep.seq = .husk ∧
      t.keep.supplyEn = false ∧
      t.kern = [] ∧
      t.lines = [] ∧
      t.fuses = s.fuses ∧
      t.shell = s.shell) ∧
  (∀ (s : State) (b : Nat),
    s.wf = true → huskReady s = true → huskRefuser s = none →
    ((b < 8 ∧ bitF s (Reg.WAKE_PIN 0 b) F.WAKE_PIN_EN = true ∧ bitF s (Reg.WAKE_PIN 0 b) F.WAKE_PIN_LEVEL = false) ∨ (b = 8 ∧ bitF s (Reg.WAKE_TIMER 0) F.WAKE_TIMER_EN = true)) →
    ∃ t, exec (.huskEntry (some b)) s = .next t ∧
      t.keep.seq = .deferred ∧
      t.keep.supplyEn = false ∧
      t.fuses = s.fuses) ∧
  (∀ (s : State) (b : Nat),
    s.wf = true → huskReady s = true → huskRefuser s = none →
    ((b < 8 ∧ bitF s (Reg.WAKE_PIN 0 b) F.WAKE_PIN_EN = false) ∨ (b = 8 ∧ bitF s (Reg.WAKE_TIMER 0) F.WAKE_TIMER_EN = false) ∨ (8 < b ∧ bitF s (Reg.WAKE_CTL 0) F.WAKE_CTL_LINKEN = false)) →
    ∃ t, exec (.huskEntry (some b)) s = .next t ∧
      t.keep.seq = .husk ∧
      t.keep.supplyEn = false ∧
      t.fuses = s.fuses) ∧
  (∀ (s : State) (w : Option Nat) (c : Nat),
    s.wf = true → huskReady s = true → s.keep.refused = false → huskRefuser s = some c →
    ∃ t, exec (.huskEntry w) s = .next t ∧
      t.keep = { s.keep with refused := true } ∧
      bitF t (Reg.PWR_EVT 0) F.PWR_EVT_REFUSE = true ∧
      t.kern = s.kern ∧ t.mem = s.mem) ∧
  (∀ (s : State),
    s.keep.seq = .deferred →
    ∃ t, exec (.huskDeferredExit) s = .next t ∧
      t.keep.seq = .pgWait ∧
      t.keep.supplyEn = true ∧
      t.keep.attempts = 1 ∧
      t.keep.cause = 4 ∧
      { t with keep := s.keep } = s) ∧
  (∀ (s : State),
    (s.keep.seq = .pgWait ∨ s.keep.seq = .pgLost) →
    exec (.supplyPgRise) s = .next { s with keep := { s.keep with seq := .refWait } }) ∧
  (∀ (s : State) (recov ok : Bool),
    s.wf = true → s.keep.seq = .refWait →
    ∃ t, exec (.referenceReady recov ok) s = .next t ∧
      t.keep.seq = .run ∧
      fld t (Reg.BOOT_STAT 0) F.BOOT_STAT_CAUSE = s.keep.cause % 16) ∧
  (∀ (s : State),
    (s.keep.seq = .pgWait ∨ s.keep.seq = .refWait ∨ s.keep.seq = .pgLost) →
    ∃ t, exec (.huskExitTimeout) s = .next t ∧
      t.keep.seq = (if s.keep.attempts < 4 then .retryWait else .husk) ∧
      t.keep.supplyEn = false ∧
      t.keep.faults = s.keep.faults + (if s.keep.attempts < 4 then 0 else 1)) ∧
  (∀ (s : State),
    s.keep.seq = .retryWait →
    exec (.huskExitRetry) s = .next { s with keep := { s.keep with seq := .pgWait, supplyEn := true, attempts := s.keep.attempts + 1 } }) ∧
  (∀ (s : State),
    (s.keep.seq = .run ∨ s.keep.seq = .held) →
    ∃ t, exec (.supplyPgLoss) s = .next t ∧
      t.keep.seq = .pgLost ∧
      t.keep.supplyEn = s.keep.supplyEn ∧
      t.keep.cause = 0 ∧
      t.keep.faults = s.keep.faults + 1 ∧
      t.kern = [] ∧
      t.fuses = s.fuses) ∧
  (∀ (s : State),
    s.keep.seq = .noKeep →
    ∃ t, exec (.vddKeepApply) s = .next t ∧
      t.keep.seq = .pgWait ∧
      t.keep.supplyEn = true ∧
      t.keep.cause = 0 ∧
      { t with keep := s.keep } = s) ∧
  (∀ (s : State),
    s.keep.seq ≠ .noKeep →
    ∃ t, exec (.vddKeepLoss) s = .next t ∧
      t.keep.seq = .noKeep ∧
      t.keep.supplyEn = false ∧
      t.regs = [] ∧
      t.kern = [] ∧
      t.fuses = s.fuses ∧
      t.shell = s.shell)

/-- A period that a Pulse opens starts with its load phase; the end of the copy leads to lockstep at the next Pulse.
SPARE_CMD asks for the replacement of a kernel that can fail and sets CFGREJ for another. At the takeover Pulse the new
slot runs and the old kernel is RETIRED. The end of a displacement ramp puts the displaced kernel into STANDBY for its
load. The check of the spare engine goes on to the next serving channel; a mismatch is noted, and at the next Pulse the
spare engine takes the entries of that engine, which is retired. It says where each of these commands completes with its
effect: SHADOW_PERIOD_START, SHADOW_LOAD_DONE, SPARE_CMD, SPARE_TAKEOVER, DISPLACEMENT_RAMP_END, SRC_ENGINE_CHECK. -/
def Obligations.SpareSteps : Prop :=
  (∀ (s : State) (d p i : Nat),
    let x := podX s d p
    s.wf = true → d < dieCount s.part → p < 8 → x.due = some i → i < 18 →
    ∃ t, exec (.shadowPeriodStart d p) s = .next t ∧
      (podX t d p).phase = .load ∧
      (podX t d p).due = none ∧
      (podX t d p).copied = false ∧
      (podX t d p).left = ticksPerSecond s ∧
      sparePod t d p F.SPARE_POD_TARGET = i ∧
      { t with regs := s.regs, kern := s.kern, pods := s.pods } = s ∧
      RegsBut s t [Reg.SPARE_POD d p]) ∧
  (∀ (s : State) (d p : Nat),
    let x := podX s d p
    d < dieCount s.part → p < 8 → x.phase = .load → x.copied = false → x.due = none → pulseRuns s = true →
    domOn s d (pdPod p) = true →
    exec (.shadowLoadDone d p) s = .next (loadCopy (setPodX s d p { x with copied := true }) d p)) ∧
  (∀ (s : State) (a : Access) (d k : Nat),
    reachesReg s a (Reg.SPARE_CMD d) = true → k < 256 →
    ∃ t, exec (.spareCmd a d k) s = .next t ∧
      fld t (Reg.SPARE_CMD d) F.SPARE_CMD_KERNEL = k % 256 ∧
      (k < 144 → canFail (kern s d k).st = true → t.kern = s.kern ∧ ((podX t d (k / 18)).trig ++ (podX t d (k / 18)).waits).any (fun e => decide (e.1 = k % 18)) = true) ∧
      ((143 < k ∨ canFail (kern s d k).st = false) → bitF t (Reg.SPARE_STAT d) F.SPARE_STAT_CFGREJ = true) ∧
      t.resp = .ok 0 ∧
      { t with regs := s.regs, pods := s.pods, resp := s.resp } = s) ∧
  (∀ (s : State) (d p : Nat) (x : Takeover),
    s.wf = true → d < dieCount s.part → p < 8 → takeDue s d p = some x → s.phase = .tick → metersOwed s = false →
    x.new < 18 → x.slot < 18 → x.new ≠ x.slot →
    ((spareSlots s d p).filter fun i => decide (i ≠ x.new)).contains x.slot = false →
    ∃ t, exec (.spareTakeover d p) s = .next t ∧
      (kern t d (p * 18 + x.new)).st = .run ∧
      (kern t d (p * 18 + x.slot)).st = .retired ∧
      (podX t d p).take = none ∧
      (podX t d p).phase = .idle ∧
      { t with regs := s.regs, tabs := s.tabs, mem := s.mem, ecc := s.ecc, kern := s.kern, stew := s.stew, pods := s.pods, dieX := s.dieX, doms := s.doms } = s) ∧
  (∀ (s : State) (d p : Nat) (x : DispRamp),
    d < dieCount s.part → p < 8 → (podX s d p).ramp = some x → x.last = true →
    ∃ t, exec (.displacementRampEnd d p) s = .next t ∧
      (kern t d (p * 18 + x.slot)).st = .standby ∧
      (podX t d p).ramp = none ∧
      (podX t d p).take = some ⟨x.fail, 6, x.slot, true, false, false⟩ ∧
      (podX t d p).phase = .load ∧
      { t with kern := s.kern, pods := s.pods } = s) ∧
  (∀ (s : State) (d e i : Nat),
    d < dieCount s.part → e < 6 → fld s (Reg.SPARE_SRC d) F.SPARE_SRC_SPAREENG < 6 → engineServes s d e = true →
    checkedNext s d = some i → i / 64 = e → (dieX s d).srcBad = none → domOn s d pdSrc = true →
    exec (.srcEngineCheck d e true) s = .next (setDieX s d { dieX s d with srcNext := i + 1 })) ∧
  (∀ (s : State) (d e : Nat),
    d < dieCount s.part → e < 6 → fld s (Reg.SPARE_SRC d) F.SPARE_SRC_SPAREENG < 6 → engineServes s d e = true →
    (dieX s d).srcBad = none → domOn s d pdSrc = true →
    ∃ t, exec (.srcEngineCheck d e false) s = .next t ∧
      (dieX t d).srcBad = some e ∧
      { t with dieX := s.dieX } = s) ∧
  (∀ (s : State) (d e : Nat),
    let t := enginePulse s d
    let sp := fld s (Reg.SPARE_SRC d) F.SPARE_SRC_SPAREENG
    s.wf = true → d < 8 → e < 6 → sp < 6 → e ≠ sp → (dieX s d).srcBad = some e → domLive s d pdSrc = true →
    bitF t (Reg.SPARE_SRC d) F.SPARE_SRC_RETV = true ∧ fld t (Reg.SPARE_SRC d) F.SPARE_SRC_RETIRED = e ∧
      fld t (Reg.SPARE_SRC d) F.SPARE_SRC_SPAREENG = 7 ∧ bitF t (Reg.SPARE_STAT d) F.SPARE_STAT_SUBST = true ∧
      (∀ i, i < 64 → tab t tSrc d (sp * 64 + i) = tab s tSrc d (e * 64 + i)) ∧ t.mem = s.mem ∧ t.kern = s.kern)

/-- ARM of a STOPPED port runs the arm check: the port is ARMED with its trigger, or REFUSED with the first failing
reason as CFGERR. Taking ARM back stops a port that is ARMED or STARTING. STOP sends a RUNNING or LOST port to STOPPING,
stops one that has not started, and sets CFGREJ for any other. MUTE takes the value written and leaves the state of the
port. A mask written is pending until a frame takes it. It says where each of these commands completes with its effect:
SAP_ARM, SAP_DISARM, SAP_STOP, SAP_MUTE, SAP_MASK_WRITE. -/
def Obligations.SapControl : Prop :=
  (∀ (s : State) (a : Access) (d m : Nat),
    reachesReg s a (Reg.SAP_CTL d m) = true → m < 10 → sapState s d m = sapStopped →
    bitF s (Reg.SAP_CTL d m) F.SAP_CTL_ARM = false →
    ∃ t, exec (.sapArm a d m) s = .next t ∧
      (armCheck s d m = 0 → sapState t d m = sapArmed ∧ (sap t d m).trig = armTrig s d m) ∧
      (armCheck s d m ≠ 0 → sapState t d m = sapStopped ∧ fld t (Reg.SAP_STAT d m) F.SAP_STAT_CFGERR = armCheck s d m ∧ bitF t (Reg.SAP_STAT d m) F.SAP_STAT_REFUSED = true) ∧
      { t with regs := s.regs, doms := s.doms, saps := s.saps, resp := s.resp } = s ∧
      RegsBut s t [Reg.SAP_STAT d m, Reg.SAP_CTL d m, Reg.PWR_QCNT d, Reg.PWR_EVT d, Reg.PWR_REFCNT d, Reg.PWR_REFUSE d]) ∧
  (∀ (s : State) (a : Access) (d m : Nat),
    reachesReg s a (Reg.SAP_CTL d m) = true → m < 10 → sapState s d m ≠ sapStopped →
    bitF s (Reg.SAP_CTL d m) F.SAP_CTL_ARM = false →
    ∃ t, exec (.sapArm a d m) s = .next t ∧
      sapState t d m = sapState s d m ∧
      bitF t (Reg.SAP_STAT d m) F.SAP_STAT_CFGREJ = true ∧
      { t with regs := s.regs, doms := s.doms, saps := s.saps, resp := s.resp } = s ∧
      RegsBut s t [Reg.SAP_STAT d m, Reg.SAP_CTL d m, Reg.PWR_QCNT d, Reg.PWR_EVT d, Reg.PWR_REFCNT d, Reg.PWR_REFUSE d]) ∧
  (∀ (s : State) (a : Access) (d m : Nat),
    reachesReg s a (Reg.SAP_CTL d m) = true → m < 10 →
    ∃ t, exec (.sapDisarm a d m) s = .next t ∧
      sapState t d m = (if bitF s (Reg.SAP_CTL d m) F.SAP_CTL_ARM then sapStopped else sapState s d m) ∧
      { t with regs := s.regs, doms := s.doms, saps := s.saps, resp := s.resp } = s ∧
      RegsBut s t [Reg.SAP_STAT d m, Reg.SAP_CTL d m, Reg.PWR_QCNT d, Reg.PWR_EVT d, Reg.PWR_REFCNT d, Reg.PWR_REFUSE d, Reg.BIP_STAT d m]) ∧
  (∀ (s : State) (a : Access) (d m : Nat),
    reachesReg s a (Reg.SAP_CTL d m) = true → m < 10 → sapState s d m ≤ 5 →
    ∃ t, exec (.sapStop a d m) s = .next t ∧
      (sapState s d m = sapRunning ∨ sapState s d m = sapLost → sapState t d m = sapStopping) ∧
      (sapState s d m = sapArmed ∨ sapState s d m = sapStarting → sapState t d m = sapStopped) ∧
      (sapState s d m = sapStopped ∨ sapState s d m = sapStopping → sapState t d m = sapState s d m ∧ bitF t (Reg.SAP_STAT d m) F.SAP_STAT_CFGREJ = true) ∧
      { t with regs := s.regs, doms := s.doms, saps := s.saps, resp := s.resp } = s ∧
      RegsBut s t [Reg.SAP_STAT d m, Reg.SAP_CTL d m, Reg.PWR_QCNT d, Reg.PWR_EVT d, Reg.PWR_REFCNT d, Reg.PWR_REFUSE d, Reg.BIP_STAT d m]) ∧
  (∀ (s : State) (a : Access) (d m : Nat) (mute : Bool),
    let r := Reg.SAP_CTL d m
    reachesReg s a r = true → m < 10 →
    exec (.sapMute a d m mute) s = .next (powerSync (setFld s r F.SAP_CTL_MUTE mute.toNat) d).answered) ∧
  (∀ (s : State) (a : Access) (d m : Nat) (tx : Bool) (v : Word),
    let r := if tx then Reg.SAP_SLOTMASK_TX d m else Reg.SAP_SLOTMASK_RX d m
    reachesReg s a r = true → m < 10 →
    exec (.sapMaskWrite a d m tx v) s = .next (powerSync (sapMaskWrite s d m tx v) d).answered)

/-- SAP_TRIG triggers at the next Pulse each ARMED port with TSRC 0 whose bit is set, and an edge of START_N the armed
ports that wait for it. At its trigger Pulse an armed port is STARTING, and with frame 0 it is RUNNING with its frame
counter at 0. Every later frame raises the counter; a STOPPING port whose gain is 0 stops at a frame instead. The frames
that a biphase port sends on its fallback clock are not its own: those that its recovered receiver hears count and stop
it. A ring transfer moves the ring's pointer by one unit, and slots of the frame in progress that wait take their
samples. While the pads are held no frame 0 comes from them. It says where each of these commands completes with its
effect: SAP_TRIG, START_PIN_EDGE, SAP_TRIGGER_PULSE, SAP_FRAME_ZERO, SAP_FRAME, SAP_RING_TRANSFER, PULSE. -/
def Obligations.SapTriggersAndFrames : Prop :=
  (∀ (s : State) (a : Access) (d : Nat) (v : Word),
    let r := Reg.SAP0_TRIG d
    reachesReg s a r = true →
    exec (.sapTrig a d v) s = .next (powerSync (sapTrigWrite s d v) d).answered) ∧
  (∀ (s : State),
    s.wf = true → running s = true →
    ∃ t, exec (.startPinEdge) s = .next t ∧
      (∀ d m, d < dieCount s.part → m < 10 → sapState s d m = sapArmed → sapCfg s d m F.SAP_CFG_TSRC = 1 → (sap s d m).trig = .idle → (sap t d m).trig = .edge) ∧
      { t with saps := s.saps } = s) ∧
  (∀ (s : State) (d m : Nat),
    s.wf = true → d < dieCount s.part → m < 10 → sapState s d m = sapArmed → (sap s d m).trig = .met →
    ∃ t, exec (.sapTriggerPulse d m) s = .next t ∧
      sapState t d m = sapStarting ∧
      (sap t d m).trig = .idle ∧
      { t with regs := s.regs, stew := s.stew, dieX := s.dieX, doms := s.doms, saps := s.saps } = s ∧
      RegsBut s t [Reg.SAP_STAT d m, Reg.SAP_CTL d m, Reg.PWR_QCNT d, Reg.PWR_EVT d, Reg.PWR_REFCNT d, Reg.PWR_REFUSE d]) ∧
  (∀ (s : State) (d m : Nat) (fitRx fitTx : Bool),
    s.wf = true → d < dieCount s.part → m < 10 → sapState s d m = sapStarting → domOn s d pdSap = true →
    isMaster s d m = false → padHeld s d pdSap = false →
    (isBip s d m = false ∨ bitF s (Reg.BIP_STAT d m) F.BIP_STAT_LOCK = true) →
    ∃ t, exec (.sapFrameZero d m fitRx fitTx) s = .next t ∧
      sapState t d m = sapRunning ∧
      bitF t (Reg.SAP_STAT d m) F.SAP_STAT_STARTED = true ∧
      reg t (Reg.SAP_FRAMECNT d m) = 0 ∧
      { t with regs := s.regs, ecc := s.ecc, stew := s.stew, rows := s.rows, dieX := s.dieX, doms := s.doms, ddr := s.ddr, saps := s.saps, fresh := s.fresh } = s) ∧
  (∀ (s : State) (d m : Nat) (fitRx fitTx : Bool),
    s.wf = true → d < dieCount s.part → m < 10 → sapState s d m = sapStarting → domOn s d pdSap = true →
    isMaster s d m = true → s.phase = .tick → (pulseCount s + 1) % sapEpoch s d m = 0 →
    ∃ t, exec (.sapFrameZero d m fitRx fitTx) s = .next t ∧
      sapState t d m = sapRunning ∧
      reg t (Reg.SAP_FRAMECNT d m) = 0 ∧
      { t with regs := s.regs, ecc := s.ecc, stew := s.stew, rows := s.rows, dieX := s.dieX, doms := s.doms, ddr := s.ddr, saps := s.saps, fresh := s.fresh } = s) ∧
  (∀ (s : State) (d m : Nat) (f : SapFrame),
    s.wf = true → d < dieCount s.part → m < 10 → padHeld s d pdSap = false → sapFrameDue s d m = true → f.sync < 3 →
    (f.sync = 0 ∨ (isSlave s d m = true ∧ isBip s d m = false)) → (sap s d m).lost = false → sapState s d m ≠ sapStopping →
    onFallback s d m = false → trackRoom s d m (frameLate s f) = true →
    ∃ t, exec (.sapFrame d m true f) s = .next t ∧
      reg t (Reg.SAP_FRAMECNT d m) = reg s (Reg.SAP_FRAMECNT d m) + 1 ∧
      sapState t d m = sapState s d m ∧
      (f.sync ≠ 0 → bitF t (Reg.SAP_STAT d m) F.SAP_STAT_FSERR = true) ∧
      { t with regs := s.regs, ecc := s.ecc, stew := s.stew, rows := s.rows, dieX := s.dieX, doms := s.doms, ddr := s.ddr, saps := s.saps, fresh := s.fresh } = s) ∧
  (∀ (s : State) (d m : Nat) (f : SapFrame),
    s.wf = true → d < dieCount s.part → m < 10 → padHeld s d pdSap = false → sapFrameDue s d m = true → f.sync = 0 →
    (sap s d m).lost = false → sapState s d m = sapStopping → (sap s d m).gain.j = 0 → (sap s d m).gainRx.j = 0 →
    (sap s d m).lostStopping = false → onFallback s d m = false → trackRoom s d m (frameLate s f) = true →
    ∃ t, exec (.sapFrame d m true f) s = .next t ∧
      sapState t d m = sapStopped ∧
      bitF t (Reg.SAP_STAT d m) F.SAP_STAT_STOPPED = true ∧
      { t with regs := s.regs, ecc := s.ecc, stew := s.stew, rows := s.rows, dieX := s.dieX, doms := s.doms, ddr := s.ddr, saps := s.saps, fresh := s.fresh } = s) ∧
  (∀ (s : State) (d m : Nat) (f : SapFrame),
    s.wf = true → d < dieCount s.part → m < 10 → padHeld s d pdSap = false → bipReceives s d m = true →
    onFallback s d m = false → trackRoom s d m (frameLate s f) = true →
    ∃ t, exec (.sapFrame d m false f) s = .next t ∧
      reg t (Reg.SAP_FRAMECNT d m) = reg s (Reg.SAP_FRAMECNT d m) ∧
      sapState t d m = sapState s d m ∧
      { t with regs := s.regs, ecc := s.ecc, stew := s.stew, rows := s.rows, dieX := s.dieX, doms := s.doms, ddr := s.ddr, saps := s.saps, fresh := s.fresh } = s) ∧
  (∀ (s : State) (d m : Nat) (f : SapFrame),
    s.wf = true → d < dieCount s.part → m < 10 → sapFrameDue s d m = true → f.sync = 0 → onFallback s d m = true →
    trackRoom s d m (frameLate s f) = true →
    ∃ t, exec (.sapFrame d m true f) s = .next t ∧
      reg t (Reg.SAP_FRAMECNT d m) = reg s (Reg.SAP_FRAMECNT d m) ∧
      sapState t d m = sapState s d m ∧
      { t with regs := s.regs, ecc := s.ecc, stew := s.stew, rows := s.rows, dieX := s.dieX, doms := s.doms, ddr := s.ddr, saps := s.saps, fresh := s.fresh } = s) ∧
  (∀ (s : State) (d m : Nat) (f : SapFrame),
    s.wf = true → d < dieCount s.part → m < 10 → padHeld s d pdSap = false → bipReceives s d m = true →
    onFallback s d m = true → sapState s d m = sapRunning → trackRoom s d m (frameLate s f) = true →
    ∃ t, exec (.sapFrame d m false f) s = .next t ∧
      reg t (Reg.SAP_FRAMECNT d m) = reg s (Reg.SAP_FRAMECNT d m) + 1 ∧
      sapState t d m = sapState s d m ∧
      { t with regs := s.regs, ecc := s.ecc, stew := s.stew, rows := s.rows, dieX := s.dieX, doms := s.doms, ddr := s.ddr, saps := s.saps, fresh := s.fresh } = s) ∧
  (∀ (s : State) (d m : Nat) (f : SapFrame),
    s.wf = true → d < dieCount s.part → m < 10 → padHeld s d pdSap = false → bipReceives s d m = true →
    onFallback s d m = true → sapState s d m = sapStopping → (sap s d m).gain.j = 0 → (sap s d m).gainRx.j = 0 →
    (sap s d m).lostStopping = false → trackRoom s d m (frameLate s f) = true →
    ∃ t, exec (.sapFrame d m false f) s = .next t ∧
      sapState t d m = sapStopped ∧
      bitF t (Reg.SAP_STAT d m) F.SAP_STAT_STOPPED = true ∧
      { t with regs := s.regs, ecc := s.ecc, stew := s.stew, rows := s.rows, dieX := s.dieX, doms := s.doms, ddr := s.ddr, saps := s.saps, fresh := s.fresh } = s) ∧
  (∀ (s : State) (d m : Nat),
    let n := ringUnit s d m true
    s.wf = true → d < dieCount s.part → m < 10 → ringSize s d m true ≠ 0 → sapRunning ≤ sapState s d m →
    dmaOpen s d (ringBase s d m true) = true → domOn s d pdSap = true → 0 < n → n ≤ ringUsed s d m true →
    (sap s d m).bufTx.length + n ≤ 2048 → (sap s d m).due = [] →
    ∃ t, exec (.sapRingTransfer d m true) s = .next t ∧
      fld t (ringRptrA d m true) F.SAP_RXR_RPTR_OFFSET = ringNext (ringSize s d m true) (fld s (ringRptrA d m true) F.SAP_RXR_RPTR_OFFSET) n % 2 ^ 28 ∧
      (sap t d m).bufTx.length = (sap s d m).bufTx.length + n ∧
      t.mem = s.mem ∧
      { t with regs := s.regs, mem := s.mem, ecc := s.ecc, rows := s.rows, carav := s.carav, ddr := s.ddr, saps := s.saps, fresh := s.fresh } = s) ∧
  (∀ (s : State) (d m : Nat),
    let n := ringUnit s d m true
    let o := fld s (ringRptrA d m true) F.SAP_RXR_RPTR_OFFSET
    let y := ringRead s d (ringBase s d m true) (ringSize s d m true) o n
    let u := setFld y.1 (ringRptrA d m true) F.SAP_RXR_RPTR_OFFSET (ringNext (ringSize s d m true) o n)
    d < dieCount s.part → m < 10 → ringSize s d m true ≠ 0 → sapRunning ≤ sapState s d m →
    dmaOpen s d (ringBase s d m true) = true → domOn s d pdSap = true → 0 < n → n ≤ ringUsed s d m true →
    (sap s d m).bufTx.length + n ≤ 2048 →
    exec (.sapRingTransfer d m true) s = .next (ringFill (setSap u d m { sap u d m with bufTx := (sap s d m).bufTx ++ y.2 }) d m)) ∧
  (∀ (s : State) (d m : Nat) (bs : List Byte) (rest : List (List Byte)),
    d < dieCount s.part → m < 10 → ringSize s d m false = 0 → (sap s d m).bufRx = bs :: rest →
    exec (.sapRingTransfer d m false) s = .next (ringLost (setSap s d m { sap s d m with bufRx := rest }) d m false)) ∧
  (∀ (s : State) (d m : Nat) (bs : List Byte) (rest : List (List Byte)),
    s.wf = true → d < dieCount s.part → m < 10 → ringSize s d m false ≠ 0 → dmaOpen s d (ringBase s d m false) = true →
    domOn s d pdSap = true → (sap s d m).bufRx = bs :: rest →
    ∃ t, exec (.sapRingTransfer d m false) s = .next t ∧
      fld t (ringWptrA d m false) F.SAP_RXR_WPTR_OFFSET = ringNext (ringSize s d m false) (fld s (ringWptrA d m false) F.SAP_RXR_WPTR_OFFSET) bs.length % 2 ^ 28 ∧
      (sap t d m).bufRx = rest ∧
      { t with regs := s.regs, mem := s.mem, ecc := s.ecc, rows := s.rows, carav := s.carav, ddr := s.ddr, saps := s.saps, fresh := s.fresh } = s) ∧
  (∀ (s : State) (d m : Nat) (fitRx fitTx : Bool),
    d < dieCount s.part → m < 10 → isMaster s d m = false → padHeld s d pdSap = true →
    exec (.sapFrameZero d m fitRx fitTx) s = .next s) ∧
  (∀ (s : State) (a : Access) (d m : Nat) (v : Word),
    s.wf = true → reachesReg s a (Reg.SAP0_TRIG d) = true → m < 10 →
    ∃ t, exec (.sapTrig a d v) s = .next t ∧
      (sap t d m).trig = (if v.getLsbD m && sapState s d m = sapArmed && sapCfg s d m F.SAP_CFG_TSRC = 0 then .next else (sap s d m).trig) ∧
      sapState t d m = sapState s d m ∧
      t.resp = .ok 0 ∧
      t.mem = s.mem ∧ t.kern = s.kern ∧ t.lines = s.lines) ∧
  (∀ (s : State) (d m : Nat),
    s.wf = true → d < dieCount s.part → m < 10 → running s = true → s.phase = .commit → trackOwed s = false →
    bitF s (Reg.PULSE_CTL 0) F.PULSE_CTL_RUN = true → sapState s d m = sapArmed → sapMode s d m ≠ 0 →
    (sap s d m).trig = .next → domLive s d pdStew = true → domLive s d pdSap = true →
    ∃ t, exec (.pulse) s = .next t ∧
      (sap t d m).trig = .met ∧
      sapState t d m = sapArmed)

/-- A lost input clock is counted with its cause and makes a RUNNING port LOST; its recovery makes it RUNNING again. A
biphase receiver locks with the rate it measured. A block of 192 frames, whose C and U bits are those that the frames
brought, replaces the captured channel status where the capture arrays are free, sets CSNEW, and is held off until CSNEW
is written 1; an incomplete block is counted. The bits of a block to be sent are fixed at its start. What held pads
receive is ignored. It says where each of these commands completes with its effect: SAP_CLOCK_LOSS, SAP_CLOCK_RECOVER,
BIPHASE_LOCK, BIPHASE_BLOCK_RX, BIPHASE_BLOCK_TX, CSNEW_RELEASE. -/
def Obligations.ClockLossAndBiphase : Prop :=
  (∀ (s : State) (d m cause : Nat),
    s.wf = true → d < dieCount s.part → m < 10 → lossDue s d m cause = true →
    ∃ t, exec (.sapClockLoss d m cause) s = .next t ∧
      bitF t (Reg.CLKSTEER_LOSS d m) F.CLKSTEER_LOSS_LOST = true ∧
      fld t (Reg.CLKSTEER_LOSS d m) F.CLKSTEER_LOSS_CAUSE = cause ∧
      (sap t d m).lost = true ∧
      sapState t d m = (if sapState s d m = sapRunning then sapLost else sapState s d m) ∧
      { t with regs := s.regs, stew := s.stew, dieX := s.dieX, doms := s.doms, saps := s.saps, steer := s.steer, fresh := s.fresh } = s ∧
      RegsBut s t [Reg.SAP_STAT d m, Reg.SAP_CTL d m, Reg.PWR_QCNT d, Reg.PWR_EVT d, Reg.PWR_REFCNT d, Reg.PWR_REFUSE d, Reg.CLKSTEER_LOSS d m, Reg.BIP_STAT d m, Reg.BIP_ERR1 d m, Reg.CLKSTEER_STAT 0]) ∧
  (∀ (s : State) (d m : Nat),
    s.wf = true → d < dieCount s.part → m < 10 → padHeld s d pdSap = false →
    bitF s (Reg.CLKSTEER_LOSS d m) F.CLKSTEER_LOSS_LOST = true →
    (isBip s d m = false ∨ bitF s (Reg.BIP_STAT d m) F.BIP_STAT_LOCK = true) →
    ∃ t, exec (.sapClockRecover d m) s = .next t ∧
      bitF t (Reg.CLKSTEER_LOSS d m) F.CLKSTEER_LOSS_LOST = false ∧
      ((sap s d m).lost = true → (sap t d m).lost = false ∧ sapState t d m = (if sapState s d m = sapLost then sapRunning else sapState s d m)) ∧
      { t with regs := s.regs, stew := s.stew, dieX := s.dieX, doms := s.doms, saps := s.saps, steer := s.steer } = s ∧
      RegsBut s t [Reg.SAP_STAT d m, Reg.SAP_CTL d m, Reg.PWR_QCNT d, Reg.PWR_EVT d, Reg.PWR_REFCNT d, Reg.PWR_REFUSE d, Reg.CLKSTEER_LOSS d m, Reg.BIP_STAT d m, Reg.CLKSTEER_STAT 0]) ∧
  (∀ (s : State) (d m hz : Nat),
    s.wf = true → d < dieCount s.part → m < 4 → padHeld s d pdSap = false → isBip s d m = true →
    sapArmed ≤ sapState s d m → bitF s (Reg.BIP_STAT d m) F.BIP_STAT_LOCK = false → 28000 ≤ hz ∧ hz ≤ 216000 →
    domOn s d pdSap = true →
    ∃ t, exec (.biphaseLock d m hz) s = .next t ∧
      bitF t (Reg.BIP_STAT d m) F.BIP_STAT_LOCK = true ∧
      (sap t d m).bip.hz = hz ∧
      { t with regs := s.regs, saps := s.saps } = s ∧
      RegsBut s t [Reg.BIP_STAT d m]) ∧
  (∀ (s : State) (d m : Nat) (ws : List Word),
    s.wf = true → d < dieCount s.part → m < 4 → padHeld s d pdSap = false → isBip s d m = true →
    sapArmed ≤ sapState s d m → domOn s d pdSap = true → (sap s d m).bip.bits.length = 192 →
    ws = blockWords (sap s d m).bip.bits → bitF s (Reg.BIP_STAT d m) F.BIP_STAT_LOCK = true →
    (sap s d m).bip.inBlk = true → (sap s d m).bip.chk = false →
    ∃ t, exec (.biphaseBlockRx d m true ws) s = .next t ∧
      bitF t (Reg.BIP_STAT d m) F.BIP_STAT_CSNEW = true ∧
      (bitF s (Reg.BIP_STAT d m) F.BIP_STAT_CSNEW = false → readArray t (Reg.BIP_CSRXA d m 0) = blockPart ws 0 ∧ readArray t (Reg.BIP_CSRXB d m 0) = blockPart ws 1) ∧
      (bitF s (Reg.BIP_STAT d m) F.BIP_STAT_CSNEW = true → readArray t (Reg.BIP_CSRXA d m 0) = readArray s (Reg.BIP_CSRXA d m 0) ∧ readArray t (Reg.BIP_CSRXB d m 0) = readArray s (Reg.BIP_CSRXB d m 0)) ∧
      (sap t d m).bip.blocks = (sap s d m).bip.blocks + 1 ∧
      { t with regs := s.regs, mem := s.mem, ecc := s.ecc, carav := s.carav, ddr := s.ddr, saps := s.saps } = s) ∧
  (∀ (s : State) (d m : Nat) (ws : List Word),
    s.wf = true → d < dieCount s.part → m < 4 → padHeld s d pdSap = false → isBip s d m = true →
    sapArmed ≤ sapState s d m → domOn s d pdSap = true → (sap s d m).bip.inBlk = true →
    ∃ t, exec (.biphaseBlockRx d m false ws) s = .next t ∧
      bitF t (Reg.BIP_STAT d m) F.BIP_STAT_BLKERR = true ∧
      fld t (Reg.BIP_ERR1 d m) F.BIP_ERR1_BLOCK = (fld s (Reg.BIP_ERR1 d m) F.BIP_ERR1_BLOCK + 1) % 2 ^ 16 ∧
      (sap t d m).bip.inBlk = false ∧ (sap t d m).bip.bits = [] ∧
      readArray t (Reg.BIP_CSRXA d m 0) = readArray s (Reg.BIP_CSRXA d m 0) ∧
      t.mem = s.mem ∧
      { t with regs := s.regs, mem := s.mem, ecc := s.ecc, carav := s.carav, ddr := s.ddr, saps := s.saps } = s) ∧
  (∀ (s : State) (d m : Nat),
    s.wf = true → d < dieCount s.part → m < 4 → (sap s d m).bip.blkDue = true → statusOpen s d m = true →
    ∃ t, exec (.biphaseBlockTx d m) s = .next t ∧
      (sap t d m).bip.blkDue = false ∧
      (fld s (Reg.BIP_STXSIZE d m) F.BIP_STXSIZE_SIZE = 0 → bitF s (Reg.BIP_CFG d m) F.BIP_CFG_CRCGEN = false → (sap t d m).bip.blk = readArray s (Reg.BIP_CSTXA d m 0) ++ readArray s (Reg.BIP_CSTXB d m 0) ++ readArray s (Reg.BIP_USTXA d m 0) ++ readArray s (Reg.BIP_USTXB d m 0)) ∧
      { t with regs := s.regs, ecc := s.ecc, rows := s.rows, ddr := s.ddr, saps := s.saps, fresh := s.fresh } = s) ∧
  (∀ (s : State) (a : Access) (d m : Nat),
    let r := Reg.BIP_STAT d m
    reachesReg s a r = true → m < 4 →
    exec (.csnewRelease a d m) s = .next (setReg s r (reg s r &&& ~~~1)).answered) ∧
  (∀ (s : State) (d m : Nat),
    d < dieCount s.part → m < 10 → padHeld s d pdSap = true →
    exec (.sapClockRecover d m) s = .next s) ∧
  (∀ (s : State) (d m hz : Nat),
    d < dieCount s.part → m < 4 → padHeld s d pdSap = true →
    exec (.biphaseLock d m hz) s = .next s) ∧
  (∀ (s : State) (d m : Nat) (complete : Bool) (ws : List Word),
    d < dieCount s.part → m < 4 → padHeld s d pdSap = true →
    exec (.biphaseBlockRx d m complete ws) s = .next s)

/-- An entry written through SRC_CHDATA is taken while the ports that it names, before and after, are STOPPED; any other
write of word 0 changes nothing, sets CFGREJ, and is answered with an error, which is the choice of the model
(assumption log 46); word 1 is read-only. Channels acquire the ratio measured, or take the exact ratio of their master;
a step of the rate makes them relock. The source of the loop is chosen while EN is 0, and the loop locks after 1,024
calm ticks. It says where each of these commands completes with its effect: SRC_ENTRY_WRITE, SRC_RATIO_LOCK, SRC_RELOCK,
CLKSTEER_ENABLE, CLKSTEER_SEL_WRITE, CLKSTEER_LOCK. -/
def Obligations.ConvertersAndSteering : Prop :=
  (∀ (s : State) (a : Access) (d e : Nat) (v : Word),
    let r := Reg.SRC_CHDATA d e
    let w := reg s (Reg.SRC_CHSEL d e)
    let i := wField w 6 1
    let free := fun x : Word => decide (10 ≤ wField x 3 0) || decide (sapState s d (wField x 3 0) = sapStopped)
    reachesReg s a r = true → e < 6 → wField w 0 0 = 0 → free (tab s tSrc d (e * 64 + i)) = true → free v = true →
    exec (.srcEntryWrite a d e v) s = .next (srcMarkDup (setTab s tSrc d (e * 64 + i) (v &&& 0xE0001F0F)) d).answered) ∧
  (∀ (s : State) (a : Access) (d e : Nat) (v : Word),
    let r := Reg.SRC_CHDATA d e
    let w := reg s (Reg.SRC_CHSEL d e)
    reachesReg s a r = true → e < 6 → wField w 0 0 = 1 →
    exec (.srcEntryWrite a d e v) s = .next (s).answered) ∧
  (∀ (s : State) (a : Access) (d e : Nat) (v : Word),
    let r := Reg.SRC_CHDATA d e
    let w := reg s (Reg.SRC_CHSEL d e)
    let i := wField w 6 1
    let free := fun x : Word => decide (10 ≤ wField x 3 0) || decide (sapState s d (wField x 3 0) = sapStopped)
    reachesReg s a r = true → e < 6 → wField w 0 0 = 0 → (free (tab s tSrc d (e * 64 + i)) = false ∨ free v = false) →
    exec (.srcEntryWrite a d e v) s = .next (setFld s (Reg.SRC_STAT d e) F.SRC_STAT_CFGREJ 1).turnedDown) ∧
  (∀ (s : State) (d m r : Nat) (tx : Bool),
    let x := sap s d m
    d < dieCount s.part → m < 10 → relocksExact s d m tx = false → tracksNow s d m tx = true →
    ratioMoves (if tx then x.ratioTx else x.ratioRx) r = true →
    exec (.srcRatioLock d m tx r) s = .next (setSap s d m (if tx then { x with ratioTx := some r, relockTx := false } else { x with ratioRx := some r, relockRx := false, held := false, convRx := if x.relockRx then [] else x.convRx, convAge := if x.relockRx then none else x.convAge, convNew := if x.relockRx then 0 else x.convNew }))) ∧
  (∀ (s : State) (d m r : Nat) (tx : Bool),
    let x := sap s d m
    d < dieCount s.part → m < 10 → relocksExact s d m tx = true →
    exec (.srcRatioLock d m tx r) s = .next (setSap s d m (if tx then { x with ratioTx := some (masterRatio s d m), relockTx := false } else { x with ratioRx := some (masterRatio s d m), relockRx := false, held := false, convRx := if x.relockRx then [] else x.convRx, convAge := if x.relockRx then none else x.convAge, convNew := if x.relockRx then 0 else x.convNew }))) ∧
  (∀ (s : State) (d m : Nat) (tx : Bool),
    s.wf = true → d < dieCount s.part → m < 10 → tracksNow s d m tx = true →
    (if tx then (sap s d m).ratioTx else (sap s d m).ratioRx).isSome = true →
    ∃ t, exec (.srcRelock d m tx) s = .next t ∧
      (if tx then (sap t d m).ratioTx else (sap t d m).ratioRx) = none ∧
      (if tx then (sap t d m).relockTx else (sap t d m).relockRx) = true ∧
      { t with regs := s.regs, saps := s.saps } = s ∧
      RegsBut s t ((List.range 6).map (Reg.SRC_RELOCK_CNT d))) ∧
  (∀ (s : State) (a : Access) (v : Word),
    let r := Reg.CLKSTEER_CTL 0
    reachesReg s a r = true →
    exec (.clksteerEnable a v) s = .next (if wGet v F.CLKSTEER_CTL_EN = fld s r F.CLKSTEER_CTL_EN then setReg s r (v &&& 0x3D) else if wGet v F.CLKSTEER_CTL_EN = 1 then steerEnter (setReg s r (v &&& 0x3D)) else setSteer (setReg s r (v &&& 0x3D)) steerOff).answered) ∧
  (∀ (s : State) (a : Access) (v : Word),
    let r := Reg.CLKSTEER_SEL 0
    reachesReg s a r = true →
    exec (.clksteerSelWrite a v) s = .next (if bitF s (Reg.CLKSTEER_CTL 0) F.CLKSTEER_CTL_EN then setFld s (Reg.CLKSTEER_STAT 0) F.CLKSTEER_STAT_CFGREJ 1 else setReg s r (v &&& 0x7F)).answered) ∧
  (∀ (s : State),
    steerState s = steerAcq → 1024 ≤ s.steer.calm →
    exec (.clksteerLock) s = .next (setSteer s steerLock))

/-- A written meter setting acts from the next Pulse. The readings of a whole block are captured: PEAK, its hold, and
VALID; HOLDCLR clears the hold. A written detector entry takes the fields that its words have, wakes the pods whose
range holds it, and reads COUNT and SILENT 0 from the next Pulse on; a written park entry takes its fields and wakes its
pod, which is then due to run again after the wake delay; a written look-ahead entry takes its fields, acts from the
next Pulse on, and starts its history again where LINE changed. A parked pod whose wake Pulse has come runs again: every
PARKED kernel is in RUN, and PARKED reads 0. ARM of an IDLE channel arms it where its settings fit, and otherwise sets
REFUSED. STOP of an armed or running channel takes effect at the next Pulse. At its trigger a channel is RUNNING, and
when its periods are over it is IDLE with its DONE bit set. It says where each of these commands completes with its
effect: METER_CFG_WRITE, METER_BLOCK_END, METER_HOLDCLR, DETECTOR_WRITE, PARK_ENTRY_WRITE, LOOKAHEAD_WRITE, POD_RESUME,
PULSE, GEN_ARM, GEN_STOP, GEN_TRIGGER, GEN_DONE. -/
def Obligations.MetersSilenceAndGenerators : Prop :=
  (∀ (s : State) (a : Access) (d m : Nat) (v : Word),
    let r := Reg.METER_CFG d m
    reachesReg s a r = true → m < 512 →
    exec (.meterCfgWrite a d m v) s = .next (setMeter (setReg s r (v &&& 0xFFFFDFFF)) d m { meter s d m with changed := true }).answered) ∧
  (∀ (s : State) (d m peak sum tpeak : Nat) (inval : Bool),
    s.wf = true → d < dieCount s.part → m < 512 → (meter s d m).ended = some (peak, sum, inval, true, tpeak) →
    ∃ t, exec (.meterBlockEnd d m) s = .next t ∧
      reg t (Reg.METER_PEAK d m) = BitVec.ofNat 32 peak ∧
      reg t (Reg.METER_TPEAK d m) = BitVec.ofNat 32 (min tpeak (2 ^ 32 - 1)) ∧
      reg t (Reg.METER_PKHOLD d m) = BitVec.ofNat 32 (max (reg s (Reg.METER_PKHOLD d m)).toNat peak) ∧
      bitF t (Reg.METER_STAT d m) F.METER_STAT_VALID = true ∧
      (meter t d m).ended = none ∧
      { t with regs := s.regs, meters := s.meters } = s ∧
      RegsBut s t [Reg.METER_PEAK d m, Reg.METER_TPEAK d m, Reg.METER_RMS d m, Reg.METER_PKHOLD d m, Reg.METER_STAT d m, Reg.SILENCE_ALARM d (m / 32)]) ∧
  (∀ (s : State) (d m peak sum tpeak : Nat) (inval : Bool),
    s.wf = true → d < dieCount s.part → m < 512 → (meter s d m).ended = some (peak, sum, inval, false, tpeak) →
    ∃ t, exec (.meterBlockEnd d m) s = .next t ∧
      reg t (Reg.METER_PEAK d m) = reg s (Reg.METER_PEAK d m) ∧
      reg t (Reg.METER_PKHOLD d m) = reg s (Reg.METER_PKHOLD d m) ∧
      (meter t d m).ended = none ∧
      { t with regs := s.regs, meters := s.meters } = s ∧
      RegsBut s t [Reg.METER_PEAK d m, Reg.METER_TPEAK d m, Reg.METER_RMS d m, Reg.METER_PKHOLD d m, Reg.METER_STAT d m, Reg.SILENCE_ALARM d (m / 32)]) ∧
  (∀ (s : State) (a : Access) (d m : Nat),
    let r := Reg.METER_CTL d m
    reachesReg s a r = true → m < 512 →
    exec (.meterHoldclr a d m) s = .next (setReg s (Reg.METER_PKHOLD d m) 0).answered) ∧
  (∀ (s : State) (a : Access) (d : Nat) (v : Word),
    let r := Reg.SILENCE_DATA d
    let w := (reg s (Reg.SILENCE_SEL d)).toNat % 4096
    reachesReg s a r = true →
    exec (.detectorWrite a d v) s = .next (detWrite s d (w / 4) (w % 4) v).answered) ∧
  (∀ (s : State) (a : Access) (d p : Nat) (cfg : Bool) (v : Word),
    let r := if cfg then Reg.SILENCE_PARK_CFG d p else Reg.SILENCE_PARK_DET d p
    reachesReg s a r = true → p < 8 →
    exec (.parkEntryWrite a d p cfg v) s = .next (kickPod d p (setReg s r (v &&& (if cfg then 0x80FFFFFF else 0x03FF03FF)))).answered) ∧
  (∀ (s : State) (a : Access) (d n : Nat) (v : Word),
    let r := Reg.SILENCE_LA d n
    reachesReg s a r = true → n < 64 →
    exec (.lookaheadWrite a d n v) s = .next (laWrite s d n v).answered) ∧
  (∀ (s : State) (d p : Nat),
    s.wf = true → d < dieCount s.part → p < 8 → (podX s d p).wakeIn = some 0 → s.phase = .tick →
    domOn s d (pdPod p) = true →
    ∃ t, exec (.podResume d p) s = .next t ∧
      (∀ i, i < 18 → (kern s d (p * 18 + i)).st = .parked → (kern t d (p * 18 + i)).st = .run) ∧
      bitF t (Reg.SILENCE_PARK_STAT d p) F.SILENCE_PARK_STAT_PARKED = false ∧
      (podX t d p).wakeIn = none ∧
      { t with phase := s.phase, regs := s.regs, kern := s.kern, stew := s.stew, pods := s.pods, dieX := s.dieX, doms := s.doms } = s ∧
      RegsBut s t [Reg.SILENCE_PARK_STAT d p, Reg.PWR_QCNT d, Reg.PWR_EVT d, Reg.PWR_REFCNT d, Reg.PWR_REFUSE d]) ∧
  (∀ (s : State) (a : Access) (d p : Nat) (v : Word),
    let w := (reg s (Reg.SILENCE_SEL d)).toNat % 4096
    s.wf = true → reachesReg s a (Reg.SILENCE_DATA d) = true → p < 8 →
    ∃ t, exec (.detectorWrite a d v) s = .next t ∧
      (w % 4 < 2 → tab t tDet d (w / 4 * 4 + w % 4) = (if w % 4 = 0 then v &&& 0xC0FF3FFF else v &&& 0x00FFFFFF)) ∧
      (w % 4 < 2 → w / 4 ∈ (dieX t d).detNew) ∧
      (w % 4 < 2 → fld s (Reg.SILENCE_PARK_DET d p) F.SILENCE_PARK_DET_DFIRST ≤ w / 4 → w / 4 ≤ fld s (Reg.SILENCE_PARK_DET d p) F.SILENCE_PARK_DET_DLAST → (podX t d p).woken = true) ∧
      (2 ≤ w % 4 → { t with resp := s.resp } = s) ∧
      t.resp = .ok 0 ∧
      t.kern = s.kern ∧ t.lines = s.lines) ∧
  (∀ (s : State) (a : Access) (d p : Nat) (cfg : Bool) (v : Word),
    s.wf = true → reachesReg s a (if cfg then Reg.SILENCE_PARK_CFG d p else Reg.SILENCE_PARK_DET d p) = true → p < 8 →
    ∃ t, exec (.parkEntryWrite a d p cfg v) s = .next t ∧
      (podX t d p).woken = true ∧
      reg t (if cfg then Reg.SILENCE_PARK_CFG d p else Reg.SILENCE_PARK_DET d p) = v &&& (if cfg then 0x80FFFFFF else 0x03FF03FF) ∧
      t.resp = .ok 0 ∧
      t.kern = s.kern ∧ t.lines = s.lines) ∧
  (∀ (s : State) (d p : Nat),
    s.wf = true → d < dieCount s.part → p < 8 → running s = true → s.phase = .commit → trackOwed s = false →
    bitF s (Reg.PULSE_CTL 0) F.PULSE_CTL_RUN = true → domLive s d pdStew = true →
    bitF s (Reg.SILENCE_PARK_STAT d p) F.SILENCE_PARK_STAT_PARKED = true → (podX s d p).woken = true →
    (podX s d p).wakeIn = none →
    ∃ t, exec (.pulse) s = .next t ∧
      (podX t d p).wakeIn = some (wakeDelay s) ∧
      bitF t (Reg.SILENCE_PARK_STAT d p) F.SILENCE_PARK_STAT_PARKED = true ∧
      (fld t (Reg.SILENCE_EVT d) F.SILENCE_EVT_WAKE).testBit p = true) ∧
  (∀ (s : State) (a : Access) (d n : Nat) (v : Word),
    s.wf = true → reachesReg s a (Reg.SILENCE_LA d n) = true → n < 64 →
    ∃ t, exec (.lookaheadWrite a d n v) s = .next t ∧
      reg t (Reg.SILENCE_LA d n) = v &&& 0xFF003FFF ∧
      laWord t d n = laWord s d n ∧
      (n ∈ (dieX t d).laMoved ↔ n ∈ (dieX s d).laMoved ∨ fld s (Reg.SILENCE_LA d n) F.SILENCE_LA_LINE ≠ wGet v F.SILENCE_LA_LINE) ∧
      t.resp = .ok 0 ∧
      t.kern = s.kern ∧ t.lines = s.lines) ∧
  (∀ (s : State) (d n : Nat),
    s.wf = true → d < dieCount s.part → n < 64 → running s = true → s.phase = .commit → trackOwed s = false →
    bitF s (Reg.PULSE_CTL 0) F.PULSE_CTL_RUN = true → domLive s d pdStew = true →
    ∃ t, exec (.pulse) s = .next t ∧
      laWord t d n = reg s (Reg.SILENCE_LA d n)) ∧
  (∀ (s : State) (a : Access) (d c : Nat) (now : Bool),
    reachesReg s a (Reg.GEN_CTL d c) = true → c < 8 → genState s d c = genIdle →
    ∃ t, exec (.genArm a d c now) s = .next t ∧
      genState t d c = (if genFit s d c then genArmed else genIdle) ∧
      (genFit s d c = true → (gen t d c).trig = if now then .next else .low (reg s (Reg.GEN_TPULSE d c)).toNat) ∧
      (genFit s d c = false → bitF t (Reg.GEN_STATC d c) F.GEN_STATC_REFUSED = true) ∧
      { t with regs := s.regs, gens := s.gens, resp := s.resp } = s ∧
      RegsBut s t [Reg.GEN_STATC d c, Reg.GEN_CTL d c, Reg.GEN_STAT d]) ∧
  (∀ (s : State) (a : Access) (d c : Nat),
    reachesReg s a (Reg.GEN_CTL d c) = true → c < 8 →
    ∃ t, exec (.genStop a d c) s = .next t ∧
      (gen t d c).stop = ((gen s d c).stop || decide (genState s d c ≠ genIdle)) ∧
      genState t d c = genState s d c ∧
      { t with regs := s.regs, gens := s.gens, resp := s.resp } = s ∧
      RegsBut s t [Reg.GEN_STATC d c, Reg.GEN_CTL d c, Reg.GEN_STAT d]) ∧
  (∀ (s : State) (d c : Nat),
    s.wf = true → d < dieCount s.part → c < 8 → genState s d c = genArmed → (gen s d c).trig = .met →
    ∃ t, exec (.genTrigger d c) s = .next t ∧
      genState t d c = genRunning ∧
      (gen t d c).trig = .idle ∧
      { t with regs := s.regs, gens := s.gens } = s ∧
      RegsBut s t [Reg.GEN_STATC d c, Reg.GEN_CTL d c, Reg.GEN_STAT d]) ∧
  (∀ (s : State) (d c : Nat),
    s.wf = true → d < dieCount s.part → c < 8 → genState s d c = genRunning → (gen s d c).ended = true →
    ∃ t, exec (.genDone d c) s = .next t ∧
      genState t d c = genIdle ∧
      (fld t (Reg.GEN_STAT d) F.GEN_STAT_DONE).testBit c = true ∧
      gen t d c = Gen.zero ∧
      { t with regs := s.regs, gens := s.gens } = s ∧
      RegsBut s t [Reg.GEN_STATC d c, Reg.GEN_CTL d c, Reg.GEN_STAT d])

/-- EN starts training, RETRAIN starts it again, and WAKETX sends the wake pattern except from an UP port, where it sets
CFGREJ. Each training state leads to the next; a failed BITLOCK, DESKEW or exchange has its LCODE and waits to restart.
The last step makes the port UP. A loss, like a retraining, leads back to the first state; the hop delay follows its
measurement, half the time with the rest dropped (DESIGN CHOICE, assumption log 17), by 0.1 ns at a time. Each write of
WAKETX puts one wake pattern on the lane (DEDUCED, assumption log 52). Over held pads no condition is met; what lane 0
of die 0 carries then is heard by the wake detector where it is set. BLOCKLOCK has no failure of its own and waits until
two lanes are locked (assumption log 50). It says where each of these commands completes with its effect: LINK_ENABLE,
LINK_RETRAIN, LINK_WAKETX, LINK_TRAIN_STEP, LINK_TRAIN_RESTART, LINK_LOSS, LINK_DELAY_MEASURE, LINK_DELAY_ECHO,
LINK_ID_WRITE. -/
def Obligations.LinkTraining : Prop :=
  (∀ (s : State) (a : Access) (d : Nat),
    let r := Reg.LINK_CTL d
    reachesReg s a r = true →
    exec (.linkEnable a d) s = .next (powerSync (if bitF s r F.LINK_CTL_EN then setFld s r F.LINK_CTL_EN 1 else trainFrom (setFld s r F.LINK_CTL_EN 1) d 1) d).answered) ∧
  (∀ (s : State) (a : Access) (d : Nat),
    reachesReg s a (Reg.LINK_CTL d) = true → bitF s (Reg.LINK_CTL d) F.LINK_CTL_EN = true →
    ∃ t, exec (.linkRetrain a d) s = .next t ∧
      portState t d = 1 ∧
      (linkPort t d).failed = false ∧
      t.resp = .ok 0 ∧
      { t with regs := s.regs, doms := s.doms, link := s.link, linkDev := s.linkDev, steer := s.steer, resp := s.resp } = s) ∧
  (∀ (s : State) (a : Access) (d : Nat),
    reachesReg s a (Reg.LINK_CTL d) = true →
    ∃ t, exec (.linkWaketx a d) s = .next t ∧
      (portState s d = 7 → bitF t (Reg.LINK_STAT d) F.LINK_STAT_CFGREJ = true ∧ (linkPort t d).waketx = (linkPort s d).waketx) ∧
      (portState s d ≠ 7 → (linkPort t d).waketx = wakeBits) ∧
      portState t d = portState s d ∧
      { t with regs := s.regs, doms := s.doms, link := s.link, linkDev := s.linkDev, steer := s.steer, resp := s.resp } = s) ∧
  (∀ (s : State) (d a b : Nat) (ok : Bool) (c : TrainSeen),
    s.wf = true → d < dieCount s.part → domOn s d pdLink = true → (linkPort s d).failed = false →
    (padHeld s d pdLink = false ∨ ok = false) → portState s d = 1 →
    ∃ t, exec (.linkTrainStep d ok a b c) s = .next t ∧
      portState t d = (if ok then 2 else 1) ∧
      (ok = false → fld t (Reg.LINK_STAT d) F.LINK_STAT_LCODE = 1) ∧
      { t with regs := s.regs, keep := s.keep, link := s.link, linkDev := s.linkDev, steer := s.steer } = s) ∧
  (∀ (s : State) (d a b : Nat) (ok : Bool) (c : TrainSeen),
    s.wf = true → d < dieCount s.part → domOn s d pdLink = true → (linkPort s d).failed = false →
    (padHeld s d pdLink = false ∨ ok = false) → portState s d = 2 →
    ∃ t, exec (.linkTrainStep d ok a b c) s = .next t ∧
      portState t d = (if ok then 3 else 2) ∧
      (ok = false → fld t (Reg.LINK_STAT d) F.LINK_STAT_LCODE = 2 ∧ (linkPort t d).failed = true) ∧
      (ok = true → a < 3 → fld t (Reg.LINK_LANE d) F.LINK_LANE_RXSP = a) ∧
      { t with regs := s.regs, keep := s.keep, link := s.link, linkDev := s.linkDev, steer := s.steer } = s) ∧
  (∀ (s : State) (d a b : Nat) (ok : Bool) (c : TrainSeen),
    s.wf = true → d < dieCount s.part → domOn s d pdLink = true → (linkPort s d).failed = false →
    padHeld s d pdLink = false → portState s d = 3 →
    ∃ t, exec (.linkTrainStep d ok a b c) s = .next t ∧
      portState t d = (if 2 ≤ (((List.range 3).map fun n => c.heads.getD n []).filter lockedLane).length then 4 else 3) ∧
      { t with regs := s.regs, keep := s.keep, link := s.link, linkDev := s.linkDev, steer := s.steer } = s) ∧
  (∀ (s : State) (d a b : Nat) (ok : Bool) (c : TrainSeen),
    s.wf = true → d < dieCount s.part → domOn s d pdLink = true → (linkPort s d).failed = false →
    (padHeld s d pdLink = false ∨ ok = false) → portState s d = 4 →
    ∃ t, exec (.linkTrainStep d ok a b c) s = .next t ∧
      portState t d = (if ok then 5 else 4) ∧
      (ok = false → fld t (Reg.LINK_STAT d) F.LINK_STAT_LCODE = 3 ∧ (linkPort t d).failed = true) ∧
      { t with regs := s.regs, keep := s.keep, link := s.link, linkDev := s.linkDev, steer := s.steer } = s) ∧
  (∀ (s : State) (d a b : Nat) (c : TrainSeen),
    s.wf = true → d < dieCount s.part → domOn s d pdLink = true → (linkPort s d).failed = false →
    padHeld s d pdLink = false → portState s d = 5 →
    ∃ t, exec (.linkTrainStep d true a b c) s = .next t ∧
      (c.rate ≠ fld s (Reg.PULSE_CFG 0) F.PULSE_CFG_RATE → fld t (Reg.LINK_STAT d) F.LINK_STAT_LCODE = 4 ∧ (linkPort t d).failed = true) ∧
      (c.rate = fld s (Reg.PULSE_CFG 0) F.PULSE_CFG_RATE → a = linkId s → fld t (Reg.LINK_STAT d) F.LINK_STAT_LCODE = 6 ∧ (linkPort t d).failed = true) ∧
      (c.rate = fld s (Reg.PULSE_CFG 0) F.PULSE_CFG_RATE → a ≠ linkId s → portState t d = 6) ∧
      fld t (Reg.LINK_PARTNER d) F.LINK_PARTNER_DEVID = a % 2 ^ 16 ∧
      { t with regs := s.regs, keep := s.keep, link := s.link, linkDev := s.linkDev, steer := s.steer } = s) ∧
  (∀ (s : State) (d a b : Nat) (c : TrainSeen),
    s.wf = true → d < dieCount s.part → domOn s d pdLink = true → (linkPort s d).failed = false →
    padHeld s d pdLink = false → portState s d = 6 →
    ∃ t, exec (.linkTrainStep d true a b c) s = .next t ∧
      (500000 < hopDelay s d a b → fld t (Reg.LINK_STAT d) F.LINK_STAT_LCODE = 5 ∧ (linkPort t d).failed = true) ∧
      (hopDelay s d a b ≤ 500000 → portState t d = 7 ∧ fld t (Reg.LINK_DELAY d) F.LINK_DELAY_DELAY = hopDelay s d a b ∧ bitF t (Reg.LINK_STAT d) F.LINK_STAT_UPEVT = true) ∧
      { t with regs := s.regs, keep := s.keep, link := s.link, linkDev := s.linkDev, steer := s.steer } = s) ∧
  (∀ (s : State) (d : Nat),
    s.wf = true → d < dieCount s.part → (linkPort s d).failed = true → domOn s d pdLink = true →
    bitF s (Reg.LINK_CTL d) F.LINK_CTL_EN = true →
    ∃ t, exec (.linkTrainRestart d) s = .next t ∧
      portState t d = 1 ∧
      (linkPort t d).failed = false ∧
      { t with regs := s.regs, keep := s.keep, link := s.link, linkDev := s.linkDev, steer := s.steer } = s) ∧
  (∀ (s : State) (d cause : Nat),
    s.wf = true → d < dieCount s.part → linkUp s d = true → (cause < 2 ∨ (cause = 2 ∧ 8 ≤ (linkPort s d).fails)) →
    ∃ t, exec (.linkLoss d cause) s = .next t ∧
      portState t d = 1 ∧
      bitF t (Reg.LINK_STAT d) F.LINK_STAT_DOWN = true ∧
      (linkPort t d).queue = [] ∧
      { t with regs := s.regs, keep := s.keep, link := s.link, linkDev := s.linkDev, steer := s.steer } = s) ∧
  (∀ (s : State) (d : Nat) (raw : Nat × Nat),
    let old := fld s (Reg.LINK_DELAY d) F.LINK_DELAY_DELAY
    s.wf = true → d < dieCount s.part → linkUp s d = true → 4096 ≤ (linkPort s d).frameNo →
    ∃ t, exec (.linkDelayMeasure d raw) s = .next t ∧
      fld t (Reg.LINK_DELAY d) F.LINK_DELAY_DELAY = (if old < hopDelay s d raw.1 raw.2 then (old + 1) % 2 ^ 24 else if hopDelay s d raw.1 raw.2 < old then old - 1 else old) ∧
      (linkPort t d).frameNo = (linkPort s d).frameNo % 4096 ∧
      { t with regs := s.regs, link := s.link } = s ∧
      RegsBut s t [Reg.LINK_DELAY d]) ∧
  (∀ (s : State) (d turn : Nat),
    d < dieCount s.part → domOn s d pdLink = true → (portState s d = 6 ∨ portState s d = 7) →
    exec (.linkDelayEcho d turn) s = .next (sendCtl (setLinkPort s d { linkPort s d with echo := some turn }) d (.echo turn))) ∧
  (∀ (s : State) (a : Access) (v : Word),
    let r := Reg.LINK_ID 0
    reachesReg s a r = true →
    exec (.linkIdWrite a v) s = .next (if (dies s).any fun d => bitF s (Reg.LINK_CTL d) F.LINK_CTL_EN then setFld s (Reg.LINK_STAT 0) F.LINK_STAT_CFGREJ 1 else setFld s r F.LINK_ID_ID (wGet v F.LINK_ID_ID)).answered) ∧
  (∀ (s : State) (d a b : Nat) (c : TrainSeen),
    d < dieCount s.part → padHeld s d pdLink = true →
    exec (.linkTrainStep d true a b c) s = .next (hearLane s d c.line))

/-- A frame that arrives in its window (assumption log 50) is noted with the slots it carries, or as failed where its
rate differs; a failed frame is counted. While the Pulse is stopped a frame is judged as it arrives (assumption log 50).
A port that is UP sends frames without slots while the Pulse is stopped. Export and route table changes act at their
Pulse, a route that changed holds for RTHOLD ticks, or for what remained of an earlier hold if that is longer, and
packets held for it are sent once their ticks are over. The time is locked after 1,024 calm frames. It says where each
of these commands completes with its effect: LINK_FRAME_RX, LINK_FRAME_FAIL, NOMINAL_TICK_FRAME, LINK_TSWAP_GO,
LINK_EXPORT_SWITCH, LINK_RTSWAP_GO, LINK_ROUTE_SWITCH, LINK_RTHOLD_END, LINK_TIME_LOCK. -/
def Obligations.LinkFrames : Prop :=
  (∀ (s : State) (d : Nat) (bs sp : List LinkBlock) (f : Frame) (err : Int),
    s.wf = true → d < dieCount s.part → linkUp s d = true → padHeld s d pdLink = false → pulseRuns s = true →
    readHead bs = some f → frameFits s f.num = true → alGet f.num (linkPort s d).frames = none →
    ∃ t, exec (.linkFrameRx d bs sp err) s = .next t ∧
      (linkPort t d).credit = min 512 f.credit ∧
      (f.rate = rateCode s → alGet f.num (linkPort t d).frames = some (readLines bs (slotsLimit f.rate f.slots))) ∧
      (f.rate ≠ rateCode s → alGet f.num (linkPort t d).frames = some none) ∧
      ((f.rate ≠ rateCode s ∨ readLines bs (slotsLimit f.rate f.slots) = none) → bitF t (Reg.LINK_STAT d) F.LINK_STAT_FFAIL = true) ∧
      { t with regs := s.regs, keep := s.keep, link := s.link, linkDev := s.linkDev, steer := s.steer } = s) ∧
  (∀ (s : State) (d : Nat) (bs sp : List LinkBlock) (f : Frame) (err : Int),
    s.wf = true → d < dieCount s.part → linkUp s d = true → padHeld s d pdLink = false → pulseRuns s = false →
    readHead bs = some f →
    ∃ t, exec (.linkFrameRx d bs sp err) s = .next t ∧
      ((linkPort t d).frameOk = decide (f.rate = rateCode s ∧ (readLines bs (slotsLimit f.rate f.slots)).isSome = true)) ∧
      (linkPort t d).fails = (if (linkPort t d).frameOk then 0 else (linkPort s d).fails + 1) ∧
      { t with regs := s.regs, keep := s.keep, link := s.link, linkDev := s.linkDev, steer := s.steer } = s) ∧
  (∀ (s : State) (d num : Nat) (bs : List LinkBlock),
    s.wf = true → d < dieCount s.part → linkUp s d = true → padHeld s d pdLink = false → pulseRuns s = true →
    frameFits s num = true → alGet num (linkPort s d).frames = none →
    ∃ t, exec (.linkFrameFail d num bs) s = .next t ∧
      alGet num (linkPort t d).frames = some none ∧
      reg t (Reg.LINK_FERR d) = reg s (Reg.LINK_FERR d) + 1 ∧
      bitF t (Reg.LINK_STAT d) F.LINK_STAT_FFAIL = true ∧
      { t with regs := s.regs, link := s.link } = s ∧
      RegsBut s t [Reg.LINK_STAT d, Reg.LINK_FERR d, Reg.LINK_LERR d 0, Reg.LINK_LERR d 1, Reg.LINK_LERR d 2]) ∧
  (∀ (s : State) (d : Nat),
    s.wf = true → d < dieCount s.part → pulseRuns s = false → linkUp s d = true → running s = true →
    ∃ t, exec (.nominalTickFrame d) s = .next t ∧
      (linkPort t d).out.map (fun f => f.slots) = some 0 ∧
      (linkPort t d).frameNo = (linkPort s d).frameNo + 1 ∧
      { t with regs := s.regs, ecc := s.ecc, rows := s.rows, link := s.link, linkDev := s.linkDev, fresh := s.fresh } = s) ∧
  (∀ (s : State) (a : Access) (d : Nat),
    let r := Reg.LINK_TSWAP d
    reachesReg s a r = true →
    exec (.linkTswapGo a d) s = .next (setLinkPort s d { linkPort s d with change := some ((reg s (Reg.LINK_TPULSE d)).toNat, false) }).answered) ∧
  (∀ (s : State) (d : Nat),
    d < dieCount s.part → isMet (linkPort s d).change = true →
    exec (.linkExportSwitch d) s = .next (setFld (setLinkPort s d { linkPort s d with change := none }) (Reg.LINK_STAT d) F.LINK_STAT_ACTIVE (1 - exportActive s d))) ∧
  (∀ (s : State) (a : Access),
    let r := Reg.LINK_RTSWAP 0
    reachesReg s a r = true →
    exec (.linkRtswapGo a) s = .next ({ s with linkDev := { s.linkDev with change := some ((reg s (Reg.LINK_RTTPULSE 0)).toNat, false) } }).answered) ∧
  (∀ (s : State),
    s.wf = true → isMet s.linkDev.change = true →
    ∃ t, exec (.linkRouteSwitch) s = .next t ∧
      routeCopy t = 1 - routeCopy s ∧
      t.linkDev.change = none ∧
      (∀ k, k ∈ routesMoved s → alGet k t.linkDev.moved = some (max (fld s (Reg.LINK_RTCFG 0) F.LINK_RTCFG_RTHOLD) ((alGet k s.linkDev.moved).getD 0))) ∧
      (∀ k, k ∉ routesMoved s → alGet k t.linkDev.moved = alGet k s.linkDev.moved) ∧
      { t with regs := s.regs, linkDev := s.linkDev } = s ∧
      RegsBut s t [Reg.LINK_RTCFG 0]) ∧
  (∀ (s : State),
    s.wf = true → ((dies s).any fun d => (linkPort s d).heldPk.any (mayLeave s)) = true →
    ∃ t, exec (.linkRtholdEnd) s = .next t ∧
      (∀ d, d < dieCount s.part → (linkPort t d).heldPk = (linkPort s d).heldPk.filter (fun e => !mayLeave s e)) ∧
      (∀ d, d < dieCount s.part → ∀ e, e ∈ (linkPort s d).heldPk → mayLeave s e = true → e.1 ∈ (linkPort t d).queue) ∧
      { t with link := s.link } = s) ∧
  (∀ (s : State),
    timeState s = tAcq → 1024 ≤ s.linkDev.calm →
    exec (.linkTimeLock) s = .next (steerSync (setFld s (Reg.LINK_GMSTAT 0) F.LINK_GMSTAT_TSTATE tLock)))

/-- At the end of its window a receive lane with more invalid headers than THR asks for the spare eight frames ahead, or
sets NOSPARE where there is none; the window of the spare lane says whether it had an error. The partner's block is an
acknowledgement of that request, or a request for a transmit lane. At the frame agreed on the spare replaces the lane at
both ends; a request without acknowledgement lapses two frames before, and is repeated at the end of the lane's next
window whatever that counted (assumption log 144). It says where each of these commands completes with its effect:
LINK_SPARE_REQUEST, LINK_SPARE_BLOCK, LINK_SPARE_SWITCH. -/
def Obligations.LinkLanes : Prop :=
  (∀ (s : State) (d lane : Nat) (hs : List Nat) (ts : List (LinkBlock × Nat)),
    let u := windowEnd s d lane hs ts
    let x := linkPort u d
    let n := x.lerr.getD lane 0
    let y : LinkPort := { x with lerr := (List.range 3).map fun l => if l = lane then 0 else x.lerr.getD l 0 }
    let r := Reg.LINK_LANE d
    d < dieCount s.part → linkUp s d = true → fld u r F.LINK_LANE_RXSP ≠ lane →
    (fld u r F.LINK_LANE_RXL0 = lane ∨ fld u r F.LINK_LANE_RXL1 = lane) →
    (fld u r F.LINK_LANE_THR < n ∨ x.spareAgain = some lane) → fld u r F.LINK_LANE_RXSP ≠ 3 → x.spareBad = false →
    x.spare = none →
    exec (.linkSpareRequest d lane hs ts) s = .next (sendCtl (setLinkPort u d { y with spare := some (lane, (currentFrame u + 8) % 2 ^ 32, false), spareAgain := none }) d (.request lane ((currentFrame u + 8) % 2 ^ 32)))) ∧
  (∀ (s : State) (d lane : Nat) (hs : List Nat) (ts : List (LinkBlock × Nat)),
    let u := windowEnd s d lane hs ts
    let x := linkPort u d
    let n := x.lerr.getD lane 0
    let y : LinkPort := { x with lerr := (List.range 3).map fun l => if l = lane then 0 else x.lerr.getD l 0 }
    let r := Reg.LINK_LANE d
    d < dieCount s.part → linkUp s d = true → lane < 3 →
    (fld u r F.LINK_LANE_RXL0 = lane ∨ fld u r F.LINK_LANE_RXL1 = lane) → fld u r F.LINK_LANE_THR < n →
    fld u r F.LINK_LANE_RXSP = 3 →
    exec (.linkSpareRequest d lane hs ts) s = .next (setFld (setLinkPort u d y) (Reg.LINK_STAT d) F.LINK_STAT_NOSPARE 1)) ∧
  (∀ (s : State) (d lane : Nat) (hs : List Nat) (ts : List (LinkBlock × Nat)),
    let u := windowEnd s d lane hs ts
    let x := linkPort u d
    let n := x.lerr.getD lane 0
    let y : LinkPort := { x with lerr := (List.range 3).map fun l => if l = lane then 0 else x.lerr.getD l 0 }
    let r := Reg.LINK_LANE d
    d < dieCount s.part → linkUp s d = true → fld u r F.LINK_LANE_RXSP = lane →
    exec (.linkSpareRequest d lane hs ts) s = .next (setLinkPort u d { y with spareBad := x.trainBad || decide (n ≠ 0), trainBad := false })) ∧
  (∀ (s : State) (d lane f : Nat),
    let x := linkPort s d
    d < dieCount s.part → linkUp s d = true → x.spare = some (lane, f, false) →
    exec (.linkSpareBlock d true lane f) s = .next (setLinkPort s d { x with spare := some (lane, f, true) })) ∧
  (∀ (s : State) (d lane f : Nat),
    let x := linkPort s d
    let r := Reg.LINK_LANE d
    d < dieCount s.part → linkUp s d = true → fld s r F.LINK_LANE_TXSP ≠ 3 → x.txSpare = none →
    (fld s r F.LINK_LANE_TXL0 = lane ∨ fld s r F.LINK_LANE_TXL1 = lane) →
    exec (.linkSpareBlock d false lane f) s = .next (sendCtl (setLinkPort s d { x with txSpare := some (lane, f % 2 ^ 32) }) d (.accept lane (f % 2 ^ 32)))) ∧
  (∀ (s : State) (d lane f : Nat),
    let x := linkPort s d
    d < dieCount s.part → x.txSpare = some (lane, f) → frameReached s f = true →
    exec (.linkSpareSwitch d true) s = .next (replaceLane (setLinkPort s d { x with txSpare := none }) d lane F.LINK_LANE_TXL0 F.LINK_LANE_TXL1 F.LINK_LANE_TXSP)) ∧
  (∀ (s : State) (d lane f : Nat),
    let x := linkPort s d
    d < dieCount s.part → x.spare = some (lane, f, true) → frameReached s f = true →
    exec (.linkSpareSwitch d false) s = .next (replaceLane (setLinkPort s d { x with spare := none }) d lane F.LINK_LANE_RXL0 F.LINK_LANE_RXL1 F.LINK_LANE_RXSP)) ∧
  (∀ (s : State) (d lane f : Nat),
    let x := linkPort s d
    d < dieCount s.part → x.spare = some (lane, f, false) → frameReached s (f + 2 ^ 32 - 2) = true →
    exec (.linkSpareSwitch d false) s = .next (setLinkPort s d { x with spare := none, spareAgain := some lane }))

/-- A read or write request is carried out on the die and answered, with status 5 where 16 requests stand before it
(assumption log 66); one that cannot be served in the critical window waits in the receive buffer; a broadcast write is
not answered, and is dropped where the buffer is full (assumption log 66). A response that the engine of the die it
arrives at waits for ends its request (assumption log 63); any other is discarded. HOST messages go to the link receive
queue, START messages to the ports that wait for their number. A malformed packet is counted, a repeated broadcast
dropped, and one for another device forwarded. GO of LINK_RCMD sends a request of the words asked for, placed in the
queue of the port that its route names, with BUSY set until its response; it ends at once with status 3 where there is
no route, and a broadcast write with status 0. GO is refused with CFGREJ while a request is outstanding. A request
without a response in time ends with status 4, DONE set and BUSY clear. GO of LINK_START sends a START message to every
device, on every UP port, and triggers every armed port that waits for its number here. It says where each of these
commands completes with its effect: LINK_RDREQ, LINK_WRREQ, LINK_RDRSP, LINK_WRACK, LINK_SWAP_PACKET, LINK_START_PACKET,
LINK_HOST_PACKET, LINK_PACKET_ROUTE, LINK_PACKET_TIMEOUT, LINK_REMOTE_GO, LINK_REMOTE_TIMEOUT, LINK_START_GO. -/
def Obligations.LinkPackets : Prop :=
  (∀ (s : State) (d ahead : Nat) (a : Arrival) (p : Packet),
    let t0 := takePacket s d a p
    let x := remoteRead d p.words p.addr t0
    d < dieCount s.part → delivered s d a pkRdreq false = some p →
    exec (.linkRdreq d a ahead) s = .next (if a ≠ .waiting ∧ 16 ≤ ahead + (linkPort t0 d).rx.length then respond t0 d (responseTo t0 d p 5 0 []) false
        else if servable t0 d a p = true then respond x.1 d (responseTo x.1 d p x.2.2 x.2.1.length x.2.1) (decide (a ≠ .waiting) && fastResponse p ahead)
        else setLinkPort t0 d { linkPort t0 d with rx := if a = .waiting then p :: (linkPort t0 d).rx else (linkPort t0 d).rx ++ [p] })) ∧
  (∀ (s : State) (d ahead : Nat) (a : Arrival) (p : Packet) (aged : Bool),
    let t0 := takePacket s d a p
    let x := remoteWrite d (p.data.take p.words) p.addr t0
    d < dieCount s.part → delivered s d a pkWrreq aged = some p →
    exec (.linkWrreq d a ahead aged) s = .next (if a ≠ .waiting ∧ 16 ≤ ahead + (linkPort t0 d).rx.length then (if p.bcast then t0 else respond t0 d (responseTo t0 d p 5 0 []) false)
        else if servable t0 d a p = true then (if p.bcast then x.1 else respond x.1 d (responseTo x.1 d p x.2.2 x.2.1 []) false)
        else setLinkPort t0 d { linkPort t0 d with rx := if a = .waiting then p :: (linkPort t0 d).rx else (linkPort t0 d).rx ++ [p] })) ∧
  (∀ (s : State) (d : Nat) (a : Arrival) (p : Packet),
    let t0 := takePacket s d a p
    d < dieCount s.part → delivered s d a pkRdrsp false = some p →
    exec (.linkRdrsp d a) s = .next (if (linkPort t0 d).wait = some (p.tag, false) then engineDone t0 d p.status (p.data.take p.words) else t0)) ∧
  (∀ (s : State) (d : Nat) (a : Arrival) (p : Packet),
    let t0 := takePacket s d a p
    d < dieCount s.part → delivered s d a pkWrack false = some p →
    exec (.linkWrack d a) s = .next (if (linkPort t0 d).wait = some (p.tag, true) then engineDone t0 d p.status [] else t0)) ∧
  (∀ (s : State) (d : Nat) (a : Arrival) (p : Packet) (aged : Bool),
    let t0 := takePacket s d a p
    d < dieCount s.part → delivered s d a pkSwap aged = some p → wField (p.data.getD 0 0) 31 28 = 1 →
    exec (.linkSwapPacket d a aged) s = .next (requestSwap t0 d (wField (p.data.getD 0 0) 7 0) (p.data.getD 1 0).toNat ((p.data.getD 0 0).getLsbD 27) (some p.src))) ∧
  (∀ (s : State) (d : Nat) (a : Arrival) (p : Packet) (aged : Bool),
    let t0 := takePacket s d a p
    d < dieCount s.part → delivered s d a pkSwap aged = some p → wField (p.data.getD 0 0) 31 28 ≠ 1 →
    exec (.linkSwapPacket d a aged) s = .next (match wField (p.data.getD 0 0) 31 28 with
      | 2 => swapReadyPacket t0 p (wField (p.data.getD 0 0) 7 0)
      | 3 => swapRefusalPacket t0 p (wField (p.data.getD 0 0) 7 0)
      | 4 => swapCommitPacket t0 p (wField (p.data.getD 0 0) 7 0)
      | _ => t0)) ∧
  (∀ (s : State) (d : Nat) (a : Arrival) (p : Packet) (aged : Bool),
    let t0 := takePacket s d a p
    d < dieCount s.part → delivered s d a pkStart aged = some p →
    exec (.linkStartPacket d a aged) s = .next (startPorts t0 (wField (p.data.getD 0 0) 3 0) (p.data.getD 1 0).toNat)) ∧
  (∀ (s : State) (d : Nat) (a : Arrival) (p : Packet) (aged : Bool),
    let t0 := takePacket s d a p
    d < dieCount s.part → delivered s d a pkHost aged = some p →
    exec (.linkHostPacket d a aged) s = .next (queuePush t0 d 1 (BitVec.ofNat 32 (p.src * 2 ^ 16 + p.words * 2 ^ 8 + p.tag % 256) :: p.data.take p.words))) ∧
  (∀ (s : State) (d : Nat) (a : Arrival) (p : Packet) (aged : Bool),
    let t0 := takeArrival s d a
    d < dieCount s.part → running s = true → a ≠ .waiting → arrival s d a = some p →
    (malformed p = true ∨ (if p.bcast then repeated s p aged = true else p.dst ≠ linkId s)) →
    exec (.linkPacketRoute d a aged) s = .next (if malformed p then incFld t0 (Reg.LINK_PERR d) F.LINK_PERR_BAD else if p.bcast then t0 else routePacket t0 d p)) ∧
  (∀ (s : State) (d : Nat) (a : Arrival) (aged : Bool),
    d < dieCount s.part → running s = true → a ≠ .waiting → arrival s d a = none →
    exec (.linkPacketRoute d a aged) s = .next (takeArrival s d a)) ∧
  (∀ (s : State) (d i : Nat),
    let x := linkPort s d
    d < dieCount s.part → i < x.queue.length →
    exec (.linkPacketTimeout d i) s = .next (countDrop (setLinkPort s d { x with queue := x.queue.eraseIdx i }) d)) ∧
  (∀ (s : State) (d i : Nat),
    let x := linkPort s d
    d < dieCount s.part → x.queue.length ≤ i → i < x.queue.length + x.heldPk.length →
    exec (.linkPacketTimeout d i) s = .next (countDrop (setLinkPort s d { x with heldPk := x.heldPk.eraseIdx (i - x.queue.length) }) d)) ∧
  (∀ (s : State) (a : Access) (d words : Nat) (write : Bool),
    let r := Reg.LINK_RCMD d
    reachesReg s a r = true →
    exec (.linkRemoteGo a d write words) s = .next (remoteCmdWrite s d (0x80000000 ||| fieldIs F.LINK_RCMD_WRITE write.toNat ||| fieldIs F.LINK_RCMD_WORDS words)).answered) ∧
  (∀ (s : State) (a : Access) (d words e : Nat) (write : Bool),
    let v : Word := 0x80000000 ||| fieldIs F.LINK_RCMD_WRITE write.toNat ||| fieldIs F.LINK_RCMD_WORDS words
    let p := remotePacket s d v
    reachesReg s a (Reg.LINK_RCMD d) = true → (linkPort s d).wait = none →
    bitF s (Reg.LINK_RDST d) F.LINK_RDST_BCAST = false → p.dst ≠ linkId s → routePort s p.dst = some e →
    holdTicks s e p = 0 → ((linkPort s e).heldPk.any fun q => q.1.src = p.src && q.1.dst = p.dst) = false →
    ∃ t, exec (.linkRemoteGo a d write words) s = .next t ∧
      (linkPort t d).tag = ((linkPort s d).tag + 1) % 256 ∧
      t.resp = .ok 0 ∧
      bitF t (Reg.LINK_RSTAT d) F.LINK_RSTAT_BUSY = true ∧
      (linkPort t d).wait = some (p.tag, write) ∧
      (linkPort t e).queue = (linkPort s e).queue ++ [p] ∧
      { t with regs := s.regs, link := s.link, resp := s.resp } = s ∧
      RegsBut s t [Reg.LINK_RCMD d, Reg.LINK_RSTAT d]) ∧
  (∀ (s : State) (a : Access) (d words : Nat) (write : Bool),
    let v : Word := 0x80000000 ||| fieldIs F.LINK_RCMD_WRITE write.toNat ||| fieldIs F.LINK_RCMD_WORDS words
    let p := remotePacket s d v
    reachesReg s a (Reg.LINK_RCMD d) = true → (linkPort s d).wait = none →
    bitF s (Reg.LINK_RDST d) F.LINK_RDST_BCAST = false → p.dst = linkId s →
    ∃ t, exec (.linkRemoteGo a d write words) s = .next t ∧
      (linkPort t d).tag = ((linkPort s d).tag + 1) % 256 ∧
      t.resp = .ok 0 ∧
      bitF t (Reg.LINK_RSTAT d) F.LINK_RSTAT_BUSY = true ∧
      (linkPort t d).wait = some (p.tag, write) ∧
      (linkPort t d).own = (linkPort s d).own ++ [p] ∧
      { t with regs := s.regs, link := s.link, resp := s.resp } = s ∧
      RegsBut s t [Reg.LINK_RCMD d, Reg.LINK_RSTAT d]) ∧
  (∀ (s : State) (a : Access) (d words : Nat) (write : Bool),
    let v : Word := 0x80000000 ||| fieldIs F.LINK_RCMD_WRITE write.toNat ||| fieldIs F.LINK_RCMD_WORDS words
    let p := remotePacket s d v
    reachesReg s a (Reg.LINK_RCMD d) = true → (linkPort s d).wait = none →
    bitF s (Reg.LINK_RDST d) F.LINK_RDST_BCAST = false → p.dst ≠ linkId s → routePort s p.dst = none →
    ∃ t, exec (.linkRemoteGo a d write words) s = .next t ∧
      (linkPort t d).tag = ((linkPort s d).tag + 1) % 256 ∧
      t.resp = .ok 0 ∧
      bitF t (Reg.LINK_RSTAT d) F.LINK_RSTAT_BUSY = false ∧
      bitF t (Reg.LINK_RSTAT d) F.LINK_RSTAT_DONE = true ∧
      fld t (Reg.LINK_RSTAT d) F.LINK_RSTAT_STATUS = 3 ∧
      (linkPort t d).wait = none ∧
      fld t (Reg.LINK_PERR d) F.LINK_PERR_DROP = (fld s (Reg.LINK_PERR d) F.LINK_PERR_DROP + 1) % 2 ^ 16 ∧
      { t with regs := s.regs, link := s.link, resp := s.resp } = s ∧
      RegsBut s t [Reg.LINK_RCMD d, Reg.LINK_RSTAT d, Reg.LINK_PERR d]) ∧
  (∀ (s : State) (a : Access) (d words : Nat),
    let v : Word := 0x80000000 ||| fieldIs F.LINK_RCMD_WRITE 1 ||| fieldIs F.LINK_RCMD_WORDS words
    let p := remotePacket s d v
    reachesReg s a (Reg.LINK_RCMD d) = true → (linkPort s d).wait = none →
    bitF s (Reg.LINK_RDST d) F.LINK_RDST_BCAST = true →
    ∃ t, exec (.linkRemoteGo a d true words) s = .next t ∧
      (linkPort t d).tag = ((linkPort s d).tag + 1) % 256 ∧
      t.resp = .ok 0 ∧
      bitF t (Reg.LINK_RSTAT d) F.LINK_RSTAT_BUSY = false ∧
      bitF t (Reg.LINK_RSTAT d) F.LINK_RSTAT_DONE = true ∧
      fld t (Reg.LINK_RSTAT d) F.LINK_RSTAT_STATUS = 0 ∧
      (linkPort t d).wait = none ∧
      (∀ e, e < dieCount s.part → linkUp s e = true → p.scope = true → (linkPort t e).queue = (linkPort s e).queue ++ [p]) ∧
      { t with regs := s.regs, link := s.link, linkDev := s.linkDev, resp := s.resp } = s ∧
      RegsBut s t [Reg.LINK_RCMD d, Reg.LINK_RSTAT d]) ∧
  (∀ (s : State) (a : Access) (d words : Nat) (write : Bool),
    let r := Reg.LINK_RCMD d
    reachesReg s a r = true → (linkPort s d).wait.isSome = true →
    exec (.linkRemoteGo a d write words) s = .next (setFld s (Reg.LINK_STAT d) F.LINK_STAT_CFGREJ 1).answered) ∧
  (∀ (s : State) (d : Nat),
    d < dieCount s.part → (linkPort s d).wait.isSome = true →
    exec (.linkRemoteTimeout d) s = .next (engineDone s d 4 [])) ∧
  (∀ (s : State) (d : Nat),
    s.wf = true → d < dieCount s.part → (linkPort s d).wait.isSome = true →
    ∃ t, exec (.linkRemoteTimeout d) s = .next t ∧
      bitF t (Reg.LINK_RSTAT d) F.LINK_RSTAT_BUSY = false ∧
      bitF t (Reg.LINK_RSTAT d) F.LINK_RSTAT_DONE = true ∧
      fld t (Reg.LINK_RSTAT d) F.LINK_RSTAT_STATUS = 4 ∧
      (linkPort t d).wait = none ∧
      { t with regs := s.regs, link := s.link } = s ∧
      RegsBut s t [Reg.LINK_RSTAT d] ∧
      { t with regs := s.regs, link := s.link } = s) ∧
  (∀ (s : State) (a : Access) (d num : Nat),
    let r := Reg.LINK_START d
    reachesReg s a r = true →
    exec (.linkStartGo a d num) s = .next (startWrite s d (0x80000000 ||| fieldIs F.LINK_START_NUM num)).answered) ∧
  (∀ (s : State) (a : Access) (d num : Nat),
    reachesReg s a (Reg.LINK_START d) = true → num < 16 →
    ∃ t, exec (.linkStartGo a d num) s = .next t ∧
      fld t (Reg.LINK_START d) F.LINK_START_NUM = num ∧
      (∀ e, e < dieCount s.part → linkUp s e = true → ∃ p : Packet, (linkPort t e).queue = (linkPort s e).queue.takeWhile urgent ++ [p] ++ (linkPort s e).queue.dropWhile urgent ∧
        p.ty = pkStart ∧ p.bcast = true ∧ p.scope = true ∧ p.src = linkId s ∧ p.data = [BitVec.ofNat 32 num, reg s (Reg.LINK_START_TP d)]) ∧
      (∀ e m, e < dieCount s.part → m < 10 → sapState s e m = sapArmed → sapCfg s e m F.SAP_CFG_TSRC = 3 → sapCfg s e m F.SAP_CFG_STARTID = num → (sap s e m).trig = .idle →
        (sap t e m).trig = .at (startTarget s (reg s (Reg.LINK_START_TP d)).toNat)) ∧
      t.resp = .ok 0 ∧
      { t with regs := s.regs, link := s.link, linkDev := s.linkDev, saps := s.saps, fresh := s.fresh, resp := s.resp } = s ∧
      RegsBut s t [Reg.LINK_START d])

/-- Words are staged for a master and pushed as one entry, which is queued or rejected with its QERR. EN is taken unless
MODF is set; ABORT empties the queue. The next entry starts where nothing hinders it, and its end stores what was
received, counts it, and keeps the select only with CONT and EN. A foreign select in multi-master mode sets MODF and
clears EN, unless held pads hide it. CSP_CFG is written only while EN is 0 and nothing is queued. It says where each of
these commands completes with its effect: CSP_STAGE, CSP_PUSH, CSP_ENABLE, CSP_ABORT, CSP_ENTRY_START, CSP_ENTRY_DONE,
CSP_MODF, CSP_MODF_CLEAR, CSP_CFG_WRITE. -/
def Obligations.CspController : Prop :=
  (∀ (s : State) (a : Access) (d n : Nat) (v : Word),
    let r := Reg.CSP_D d (n - 1)
    reachesReg s a r = true → 1 ≤ n → n ≤ 5 →
    exec (.cspStage a d n v) s = .next (setTab s tCsp d (cspKey a n) v).answered) ∧
  (∀ (s : State) (a : Access) (d : Nat) (v : Word),
    let x := csp s d
    let e := v :: (List.range 5).map fun i => tab s tCsp d (cspKey a (i + 1))
    reachesReg s a (Reg.CSP_D0 d) = true →
    ∃ t, exec (.cspPush a d v) s = .next t ∧
      (cspRefuse s d e = none → (csp t d).queue = x.queue ++ [e]) ∧
      (∀ q, cspRefuse s d e = some q → (csp t d).queue = x.queue ∧ bitF t (Reg.CSP_STAT d) F.CSP_STAT_QREJ = true ∧ fld t (Reg.CSP_STAT d) F.CSP_STAT_QERR = q) ∧
      { t with regs := s.regs, tabs := s.tabs, csp := s.csp, resp := s.resp } = s) ∧
  (∀ (s : State) (a : Access) (d : Nat) (en : Bool),
    let r := Reg.CSP_CTL d
    let x := csp s d
    reachesReg s a r = true →
    exec (.cspEnable a d en) s = .next (if bitF s (Reg.CSP_STAT d) F.CSP_STAT_MODF then setFld s (Reg.CSP_STAT d) F.CSP_STAT_CFGREJ 1 else if en then setFld s r F.CSP_CTL_EN 1 else setCsp (setFld s r F.CSP_CTL_EN 0) d { x with held := none }).answered) ∧
  (∀ (s : State) (a : Access) (d : Nat),
    reachesReg s a (Reg.CSP_CTL d) = true →
    ∃ t, exec (.cspAbort a d) s = .next t ∧
      (csp t d).queue = [] ∧
      (csp t d).busy = none ∧
      { t with regs := s.regs, mem := s.mem, ecc := s.ecc, ddr := s.ddr, csp := s.csp, resp := s.resp, fresh := s.fresh } = s) ∧
  (∀ (s : State) (d : Nat) (e : List Word) (rest : List (List Word)),
    let x := csp s d
    s.wf = true → d < dieCount s.part → x.queue = e :: rest → cspOn s d = true →
    bitF s (Reg.CSP_CTL d) F.CSP_CTL_EN = true → x.busy = none → bitF s (Reg.CSP_STAT d) F.CSP_STAT_MODF = false →
    bitF s (Reg.CSP_CFG d) F.CSP_CFG_ROLE = false → cspOpen s d (cspTxAddr e) (bitBytes (cspTxBits e)) = true →
    ∃ t, exec (.cspEntryStart d) s = .next t ∧
      (csp t d).queue = rest ∧
      (csp t d).busy = some e ∧
      (csp t d).held = none ∧
      (csp t d).joined = decide (x.held = some (cspSel e)) ∧
      (csp t d).pulses = cspPulses e (decide (x.held = some (cspSel e))) ∧
      (csp t d).scfg = reg s (Reg.CSP_SCFG d (cspSel e)) ∧
      { t with regs := s.regs, ecc := s.ecc, rows := s.rows, ddr := s.ddr, csp := s.csp, fresh := s.fresh } = s) ∧
  (∀ (s : State) (d : Nat) (e : List Word) (rx : List (List Bool)),
    let x := csp s d
    s.wf = true → d < dieCount s.part → padHeld s d pdStew = false → x.busy = some e → cspOn s d = true →
    cspOpen s d (cspRxAddr e) (bitBytes (cspRxBits e)) = true →
    ∃ t, exec (.cspEntryDone d rx) s = .next t ∧
      (csp t d).busy = none ∧
      (csp t d).held = (if cspCont e && bitF s (Reg.CSP_CTL d) F.CSP_CTL_EN then some (cspSel e) else none) ∧
      reg t (Reg.CSP_DONECNT d) = reg s (Reg.CSP_DONECNT d) + 1 ∧
      { t with regs := s.regs, mem := s.mem, ecc := s.ecc, keep := s.keep, carav := s.carav, ddr := s.ddr, csp := s.csp, fresh := s.fresh } = s) ∧
  (∀ (s : State) (d : Nat) (e : List Word) (rx : List (List Bool)),
    let x := csp s d
    let u := setCsp (cspStore s d e (cspRxBits e) rx) d { x with busy := none, held := if cspCont e && bitF s (Reg.CSP_CTL d) F.CSP_CTL_EN then some (cspSel e) else none }
    let t := incReg (cspLast u d (cspTotal e) false) (Reg.CSP_DONECNT d)
    s.wf = true → d < dieCount s.part → padHeld s d pdStew = false → x.busy = some e → cspOn s d = true →
    cspOpen s d (cspRxAddr e) (bitBytes (cspRxBits e)) = true →
    exec (.cspEntryDone d rx) s = .next (if cspIrq e then setFld t (Reg.CSP_STAT d) F.CSP_STAT_DONE 1 else t)) ∧
  (∀ (s : State) (d moved : Nat) (rx : List (List Bool)),
    let x := csp s d
    s.wf = true → d < dieCount s.part → padHeld s d pdStew = false → cspOn s d = true →
    bitF s (Reg.CSP_CFG d) F.CSP_CFG_MMEN = true → bitF s (Reg.CSP_CFG d) F.CSP_CFG_ROLE = false →
    (x.busy.isSome = true ∨ x.held.isSome = true) →
    ∃ t, exec (.cspModf d moved rx) s = .next t ∧
      bitF t (Reg.CSP_STAT d) F.CSP_STAT_MODF = true ∧
      bitF t (Reg.CSP_CTL d) F.CSP_CTL_EN = false ∧
      (csp t d).busy = none ∧
      { t with regs := s.regs, mem := s.mem, ecc := s.ecc, carav := s.carav, ddr := s.ddr, csp := s.csp } = s) ∧
  (∀ (s : State) (a : Access) (d : Nat),
    let r := Reg.CSP_STAT d
    reachesReg s a r = true →
    exec (.cspModfClear a d) s = .next (setReg s r (reg s r &&& ~~~(wSet 0 F.CSP_STAT_MODF 1))).answered) ∧
  (∀ (s : State) (a : Access) (d : Nat) (v : Word),
    let r := Reg.CSP_CFG d
    let x := csp s d
    reachesReg s a r = true → bitF s (Reg.CSP_CTL d) F.CSP_CTL_EN = false → x.queue = [] → (v.getLsbD 0 = false ∨ d = 0) →
    exec (.cspCfgWrite a d v) s = .next (if v.getLsbD 0 then setReg s r (v &&& 3) else setCsp (setReg s r (v &&& 3)) d { x with tgt := none }).answered) ∧
  (∀ (s : State) (a : Access) (d : Nat) (v : Word),
    let r := Reg.CSP_CFG d
    let x := csp s d
    reachesReg s a r = true → (bitF s (Reg.CSP_CTL d) F.CSP_CTL_EN = true ∨ x.queue ≠ [] ∨ (v.getLsbD 0 = true ∧ d ≠ 0)) →
    exec (.cspCfgWrite a d v) s = .next (setFld s (Reg.CSP_STAT d) F.CSP_STAT_CFGREJ 1).answered) ∧
  (∀ (s : State) (d moved : Nat) (rx : List (List Bool)),
    d < dieCount s.part → padHeld s d pdStew = true →
    exec (.cspModf d moved rx) s = .next s)

/-- A selected target awaits its command; an invalid command sets TERR and is ignored until release, a read issues its
first read, a write awaits its words. Each word sent leads to the next read, each word taken to a bus write after those
that wait, or to the buffer of 16 words while the bus is stalled; late words and a full buffer set their flags. The
release ends the transfer, with PARTIAL where it comes inside a word or before the first; inside a read word the next
read has been issued unless NOAHEAD is 1, and an ignored transfer gives no PARTIAL (assumption log 68). What held pads
receive is ignored. It says where each of these commands completes with its effect: CSP_TARGET_SELECT,
CSP_TARGET_COMMAND, CSP_TARGET_READ_WORD, CSP_TARGET_WRITE_WORD, CSP_TARGET_RELEASE. -/
def Obligations.CspTarget : Prop :=
  (∀ (s : State),
    targetOn s = true → (csp s 0).tgt = none →
    exec (.cspTargetSelect) s = .next (setXfer s (some .command))) ∧
  (∀ (s : State) (cmd addr : Nat),
    targetOn s = true → (csp s 0).tgt = some .command → (cmd / 16 % 4 = 3 ∨ cmd % 16 ≠ 0) →
    exec (.cspTargetCommand cmd addr) s = .next (setXfer (cspFlag s F.CSP_STAT_TERR) (some .ignored))) ∧
  (∀ (s : State) (cmd addr : Nat),
    let w := 2 ^ (cmd / 16 % 4)
    targetOn s = true → (csp s 0).tgt = some .command → cmd / 16 % 4 ≠ 3 → cmd % 16 = 0 →
    exec (.cspTargetCommand cmd addr) s = .next (if cmd / 128 % 2 = 1 then issueRead s (decide (cmd / 64 % 2 = 1)) w (addr % 2 ^ 32 / w * w) 0 else setXfer s (some (.xfer false (decide (cmd / 64 % 2 = 1)) w (addr % 2 ^ 32 / w * w) 0 0)))) ∧
  (∀ (s : State) (auto late : Bool) (width addr word count : Nat),
    let t := setCsp s 0 { csp s 0 with sent := if late then 2 ^ (8 * width) - 1 else word }
    targetOn s = true → (csp s 0).tgt = some (.xfer true auto width addr word count) →
    exec (.cspTargetReadWord late) s = .next (issueNext (if late then cspFlag t F.CSP_STAT_TLATE else t) auto width addr (count + 1))) ∧
  (∀ (s : State) (auto stalled : Bool) (v width addr word count : Nat),
    let e := (addr, width, v % 2 ^ (8 * width))
    let x := csp s 0
    let t := if stalled = false then targetWord e (drainWords s) else if x.wbuf.length < 16 then setCsp s 0 { x with wbuf := x.wbuf ++ [e] } else cspFlag s F.CSP_STAT_TOVF
    targetOn s = true → (csp s 0).tgt = some (.xfer false auto width addr word count) →
    exec (.cspTargetWriteWord v stalled) s = .next (setXfer (if (nextAddr auto width addr).2 then cspFlag t F.CSP_STAT_WRAP else t) (some (.xfer false auto width (nextAddr auto width addr).1 0 (count + 1))))) ∧
  (∀ (s : State) (e : Nat × Nat × Nat),
    (csp s 0).wbuf = [e] →
    drainWords s = targetWord e (setCsp s 0 { csp s 0 with wbuf := [] }) ∧
      targetWord e s = (if respOk (busWrite (cspAccess 0) (targetAddr s e.1) e.2.1 e.2.2 s) then busWrite (cspAccess 0) (targetAddr s e.1) e.2.1 e.2.2 s
        else cspFlag (busWrite (cspAccess 0) (targetAddr s e.1) e.2.1 e.2.2 s) F.CSP_STAT_TERR)) ∧
  (∀ (s : State) (mid : Option Bool),
    targetOn s = true → (csp (drainWords s) 0).tgt = some .command →
    exec (.cspTargetRelease mid) s = .next (setXfer (cspFlag (drainWords s) F.CSP_STAT_PARTIAL) none)) ∧
  (∀ (s : State) (mid : Option Bool),
    targetOn s = true → (csp (drainWords s) 0).tgt = some .ignored →
    exec (.cspTargetRelease mid) s = .next (setXfer (drainWords s) none)) ∧
  (∀ (s : State) (mid : Option Bool) (rd auto : Bool) (width addr word count : Nat),
    let u := drainWords s
    let w := if rd && decide (mid = some true) then cspFlag u F.CSP_STAT_TLATE else u
    let t := if rd && mid.isSome && !bitF u (Reg.CSP_TCFG 0) F.CSP_TCFG_NOAHEAD then issueNext w auto width addr count else w
    targetOn s = true → (csp u 0).tgt = some (.xfer rd auto width addr word count) →
    exec (.cspTargetRelease mid) s = .next (setXfer (if mid.isSome || decide (count = 0) then cspFlag t F.CSP_STAT_PARTIAL else t) none)) ∧
  (∀ (s : State) (cmd addr v : Nat) (late stalled : Bool) (mid : Option Bool) (i : Instr),
    padHeld s 0 pdStew = true →
    i ∈ [.cspTargetSelect, .cspTargetCommand cmd addr, .cspTargetReadWord late, .cspTargetWriteWord v stalled, .cspTargetRelease mid] →
    exec i s = .next s)
end

