-- ==== Sys2Proof/Laws/Sparse.lean ====
section
/-! SUPPORT. Sparse tables: what a read returns after a write, and that writes and filters keep the canonical form. -/
namespace Sys2Proof.Machine

variable {α : Type} [DecidableEq α] {d : Nat → α}

/-- Canonical form from a lower bound holds from every smaller bound. -/
theorem smWf_mono {lo lo' : Nat} {m : List (Nat × α)} (h : smWf d lo m = true) (hl : lo' ≤ lo) : smWf d lo' m = true := by
  cases m with
  | nil => rfl
  | cons e m =>
    obtain ⟨k, v⟩ := e
    simp only [smWf, Bool.and_eq_true, decide_eq_true_eq] at h ⊢
    exact ⟨⟨Nat.le_trans hl h.1.1, h.1.2⟩, h.2⟩

/-- A key below the bound of a canonical table reads its default. -/
theorem smGet_below {lo k : Nat} {m : List (Nat × α)} (h : smWf d lo m = true) (hk : k < lo) : smGet d m k = d k := by
  cases m with
  | nil => rfl
  | cons e m =>
    obtain ⟨k', v⟩ := e
    simp only [smWf, Bool.and_eq_true, decide_eq_true_eq] at h
    have : k < k' := Nat.lt_of_lt_of_le hk h.1.1
    simp [smGet, this]

/-- A key that was written reads what was written. -/
theorem smGet_smSet_same {lo : Nat} {m : List (Nat × α)} (h : smWf d lo m = true) (k : Nat) (v : α) :
    smGet d (smSet d k v m) k = v := by
  induction m generalizing lo with
  | nil => by_cases hv : v = d k <;> simp [smSet, smGet, hv]
  | cons e m ih =>
    obtain ⟨k', v'⟩ := e
    simp only [smWf, Bool.and_eq_true, decide_eq_true_eq] at h
    by_cases h1 : k < k'
    · by_cases hv : v = d k <;> simp [smSet, smGet, h1, hv]
    · by_cases h2 : k = k'
      · subst h2
        by_cases hv : v = d k
        · have := smGet_below h.2 (Nat.lt_succ_self k)
          simp [smSet, hv, this]
        · simp [smSet, smGet, hv]
      · simp [smSet, smGet, h1, h2, ih h.2]

/-- Every other key reads what it read before. -/
theorem smGet_smSet_ne {lo : Nat} {m : List (Nat × α)} (h : smWf d lo m = true) {k j : Nat} (hkj : j ≠ k) (v : α) :
    smGet d (smSet d k v m) j = smGet d m j := by
  induction m generalizing lo with
  | nil =>
    by_cases hv : v = d k
    · simp [smSet, hv]
    · by_cases hj : j < k <;> simp [smSet, smGet, hv, hkj, hj]
  | cons e m ih =>
    obtain ⟨k', v'⟩ := e
    simp only [smWf, Bool.and_eq_true, decide_eq_true_eq] at h
    by_cases h1 : k < k'
    · by_cases hv : v = d k
      · simp [smSet, h1, hv]
      · by_cases hj : j < k
        · have : j < k' := Nat.lt_trans hj h1
          simp [smSet, smGet, h1, hv, hj, this]
        · simp [smSet, smGet, h1, hv, hj, hkj]
    · by_cases h2 : k = k'
      · subst h2
        by_cases hj : j < k
        · by_cases hv : v = d k
          · have := smGet_below h.2 (Nat.lt_succ_of_lt hj)
            simp [smSet, smGet, hv, hj, this]
          · simp [smSet, smGet, hv, hj]
        · by_cases hv : v = d k <;> simp [smSet, smGet, hv, hj, hkj]
      · by_cases hj : j < k'
        · simp [smSet, smGet, h1, h2, hj]
        · by_cases hj2 : j = k'
          · simp [smSet, smGet, h1, h2, hj2]
          · simp [smSet, smGet, h1, h2, hj, hj2, ih h.2]

/-- What any key reads after a write. -/
theorem smGet_smSet {lo : Nat} {m : List (Nat × α)} (h : smWf d lo m = true) (k j : Nat) (v : α) :
    smGet d (smSet d k v m) j = if j = k then v else smGet d m j := by
  split
  · next e => subst e; exact smGet_smSet_same h j v
  · next e => exact smGet_smSet_ne h e v

/-- A write keeps the canonical form. -/
theorem smWf_smSet {lo : Nat} {m : List (Nat × α)} (h : smWf d lo m = true) {k : Nat} (hk : lo ≤ k) (v : α) :
    smWf d lo (smSet d k v m) = true := by
  induction m generalizing lo with
  | nil => by_cases hv : v = d k <;> simp [smSet, smWf, hv, hk]
  | cons e m ih =>
    obtain ⟨k', v'⟩ := e
    have hw := h
    simp only [smWf, Bool.and_eq_true, decide_eq_true_eq] at h
    by_cases h1 : k < k'
    · by_cases hv : v = d k
      · simpa [smSet, h1, hv] using hw
      · have h3 : k + 1 ≤ k' := h1
        have h4 : ¬ v' = d k' := by simpa using h.1.2
        simp [smSet, smWf, h1, hv, hk, h.2, h3, h4]
    · by_cases h2 : k = k'
      · subst h2
        by_cases hv : v = d k
        · simpa [smSet, hv] using smWf_mono h.2 (Nat.le_succ_of_le h.1.1)
        · simp [smSet, smWf, hv, hk, h.2]
      · have hlt : k' + 1 ≤ k := by omega
        have h4 : ¬ v' = d k' := by simpa using h.1.2
        simp [smSet, smWf, h1, h2, ih h.2 hlt, h.1.1, h4]

/-- Leaving entries out keeps the canonical form. -/
theorem smWf_filter {lo : Nat} {m : List (Nat × α)} (h : smWf d lo m = true) (p : Nat × α → Bool) :
    smWf d lo (m.filter p) = true := by
  induction m generalizing lo with
  | nil => rfl
  | cons e m ih =>
    obtain ⟨k, v⟩ := e
    have hw := h
    simp only [smWf, Bool.and_eq_true, decide_eq_true_eq] at h
    by_cases hp : p (k, v)
    · have h4 : ¬ v = d k := by simpa using h.1.2
      simp [List.filter, hp, smWf, ih h.2, h.1.1, h4]
    · have h5 := ih (smWf_mono h.2 (Nat.le_succ_of_le h.1.1))
      simp [List.filter, hp, h5]

/-- Dropping keys keeps the canonical form. -/
theorem smWf_smDrop {lo : Nat} {m : List (Nat × α)} (h : smWf d lo m = true) (p : Nat → Bool) :
    smWf d lo (smDrop p m) = true := smWf_filter h _

/-- What a key reads once the keys of `p` are dropped. -/
theorem smGet_smDrop {lo : Nat} {m : List (Nat × α)} (h : smWf d lo m = true) (p : Nat → Bool) (k : Nat) :
    smGet d (smDrop p m) k = if p k then d k else smGet d m k := by
  induction m generalizing lo with
  | nil => simp [smDrop, smGet]
  | cons e m ih =>
    obtain ⟨k', v⟩ := e
    simp only [smWf, Bool.and_eq_true, decide_eq_true_eq] at h
    have ihm := ih h.2
    unfold smDrop at ihm ⊢
    by_cases hp : p k'
    · simp only [List.filter, hp, Bool.not_true]
      rw [ihm]
      by_cases hk : p k
      · simp [hk]
      · have hne : k ≠ k' := fun e => hk (e ▸ hp)
        by_cases hlt : k < k'
        · simp [hk, smGet, hlt, smGet_below h.2 (Nat.lt_succ_of_lt hlt)]
        · simp [hk, smGet, hlt, hne]
    · simp only [List.filter, hp, Bool.not_false, smGet]
      rw [ihm]
      by_cases hlt : k < k'
      · simp [hlt]
      · by_cases he : k = k'
        · subst he; simp [hp]
        · simp [hlt, he]

/-- Two canonical tables that read the same everywhere are equal. -/
theorem smWf_ext {lo : Nat} {m n : List (Nat × α)} (hm : smWf d lo m = true) (hn : smWf d lo n = true)
    (h : ∀ k, smGet d m k = smGet d n k) : m = n := by
  induction m generalizing lo n with
  | nil =>
    cases n with
    | nil => rfl
    | cons e n =>
      obtain ⟨k, v⟩ := e
      simp only [smWf, Bool.and_eq_true, decide_eq_true_eq] at hn
      have := h k
      simp [smGet] at this
      exact absurd this.symm hn.1.2
  | cons e m ih =>
    obtain ⟨k, v⟩ := e
    simp only [smWf, Bool.and_eq_true, decide_eq_true_eq] at hm
    cases n with
    | nil =>
      have := h k
      simp [smGet] at this
      exact absurd this hm.1.2
    | cons e' n =>
      obtain ⟨k', v'⟩ := e'
      simp only [smWf, Bool.and_eq_true, decide_eq_true_eq] at hn
      rcases Nat.lt_trichotomy k k' with hlt | heq | hgt
      · have := h k
        simp [smGet, hlt] at this
        exact absurd this hm.1.2
      · subst heq
        have hv := h k
        simp [smGet] at hv
        subst hv
        rw [ih hm.2 hn.2]
        intro j
        by_cases hj : j ≤ k
        · rw [smGet_below hm.2 (Nat.lt_succ_of_le hj), smGet_below hn.2 (Nat.lt_succ_of_le hj)]
        · have := h j
          have h1 : ¬ j < k := by omega
          have h2 : j ≠ k := by omega
          simpa [smGet, h1, h2] using this
      · have := h k'
        simp [smGet, hgt] at this
        exact absurd this.symm hn.1.2

end Sys2Proof.Machine
end

