-- ==== Sys2Proof/Laws/State.lean ====
section
/-! SUPPORT. Each update of the state changes one field: what every other field, and every reader of one, gives after it. -/
namespace Sys2Proof.Machine

variable (s : State)

/-! ### `setReg` -/

@[simp] theorem setReg_part (a : Nat) (w : Word) : (setReg s a w).part = s.part := rfl
@[simp] theorem setReg_pending (a : Nat) (w : Word) : (setReg s a w).pending = s.pending := rfl
@[simp] theorem setReg_phase (a : Nat) (w : Word) : (setReg s a w).phase = s.phase := rfl
@[simp] theorem setReg_tabs (a : Nat) (w : Word) : (setReg s a w).tabs = s.tabs := rfl
@[simp] theorem setReg_mem (a : Nat) (w : Word) : (setReg s a w).mem = s.mem := rfl
@[simp] theorem setReg_ecc (a : Nat) (w : Word) : (setReg s a w).ecc = s.ecc := rfl
@[simp] theorem setReg_kern (a : Nat) (w : Word) : (setReg s a w).kern = s.kern := rfl
@[simp] theorem setReg_stew (a : Nat) (w : Word) : (setReg s a w).stew = s.stew := rfl
@[simp] theorem setReg_lines (a : Nat) (w : Word) : (setReg s a w).lines = s.lines := rfl
@[simp] theorem setReg_lastPub (a : Nat) (w : Word) : (setReg s a w).lastPub = s.lastPub := rfl
@[simp] theorem setReg_pub (a : Nat) (w : Word) : (setReg s a w).pub = s.pub := rfl
@[simp] theorem setReg_slip (a : Nat) (w : Word) : (setReg s a w).slip = s.slip := rfl
@[simp] theorem setReg_rows (a : Nat) (w : Word) : (setReg s a w).rows = s.rows := rfl
@[simp] theorem setReg_pods (a : Nat) (w : Word) : (setReg s a w).pods = s.pods := rfl
@[simp] theorem setReg_dieX (a : Nat) (w : Word) : (setReg s a w).dieX = s.dieX := rfl
@[simp] theorem setReg_doms (a : Nat) (w : Word) : (setReg s a w).doms = s.doms := rfl
@[simp] theorem setReg_keep (a : Nat) (w : Word) : (setReg s a w).keep = s.keep := rfl
@[simp] theorem setReg_swaps (a : Nat) (w : Word) : (setReg s a w).swaps = s.swaps := rfl
@[simp] theorem setReg_bridges (a : Nat) (w : Word) : (setReg s a w).bridges = s.bridges := rfl
@[simp] theorem setReg_link (a : Nat) (w : Word) : (setReg s a w).link = s.link := rfl
@[simp] theorem setReg_linkDev (a : Nat) (w : Word) : (setReg s a w).linkDev = s.linkDev := rfl
@[simp] theorem setReg_carav (a : Nat) (w : Word) : (setReg s a w).carav = s.carav := rfl
@[simp] theorem setReg_ddr (a : Nat) (w : Word) : (setReg s a w).ddr = s.ddr := rfl
@[simp] theorem setReg_laEff (a : Nat) (w : Word) : (setReg s a w).laEff = s.laEff := rfl
@[simp] theorem setReg_laHist (a : Nat) (w : Word) : (setReg s a w).laHist = s.laHist := rfl
@[simp] theorem setReg_saps (a : Nat) (w : Word) : (setReg s a w).saps = s.saps := rfl
@[simp] theorem setReg_steer (a : Nat) (w : Word) : (setReg s a w).steer = s.steer := rfl
@[simp] theorem setReg_meters (a : Nat) (w : Word) : (setReg s a w).meters = s.meters := rfl
@[simp] theorem setReg_gens (a : Nat) (w : Word) : (setReg s a w).gens = s.gens := rfl
@[simp] theorem setReg_csp (a : Nat) (w : Word) : (setReg s a w).csp = s.csp := rfl
@[simp] theorem setReg_pads (a : Nat) (w : Word) : (setReg s a w).pads = s.pads := rfl
@[simp] theorem setReg_txOld (a : Nat) (w : Word) : (setReg s a w).txOld = s.txOld := rfl
@[simp] theorem setReg_fuses (a : Nat) (w : Word) : (setReg s a w).fuses = s.fuses := rfl
@[simp] theorem setReg_shell (a : Nat) (w : Word) : (setReg s a w).shell = s.shell := rfl
@[simp] theorem setReg_boot (a : Nat) (w : Word) : (setReg s a w).boot = s.boot := rfl
@[simp] theorem setReg_resp (a : Nat) (w : Word) : (setReg s a w).resp = s.resp := rfl
@[simp] theorem setReg_fresh (a : Nat) (w : Word) : (setReg s a w).fresh = s.fresh := rfl
@[simp] theorem tab_setReg (a : Nat) (w : Word) (u e j : Nat) : tab (setReg s a w) u e j = tab s u e j := rfl
@[simp] theorem loadByte_setReg (a : Nat) (w : Word) (b : Nat) : loadByte (setReg s a w) b = loadByte s b := rfl
@[simp] theorem eccAt_setReg (a : Nat) (w : Word) (b : Nat) : eccAt (setReg s a w) b = eccAt s b := rfl
@[simp] theorem line_setReg (a : Nat) (w : Word) (e j : Nat) : line (setReg s a w) e j = line s e j := rfl
@[simp] theorem lastPub_setReg (a : Nat) (w : Word) (e j : Nat) : lastPub (setReg s a w) e j = lastPub s e j := rfl
@[simp] theorem slipLine_setReg (a : Nat) (w : Word) (e q j : Nat) : slipLine (setReg s a w) e q j = slipLine s e q j := rfl
@[simp] theorem kern_setReg (a : Nat) (w : Word) (e j : Nat) : Machine.kern (setReg s a w) e j = Machine.kern s e j := rfl
@[simp] theorem stew_setReg (a : Nat) (w : Word) (e j : Nat) : Machine.stew (setReg s a w) e j = Machine.stew s e j := rfl
@[simp] theorem podX_setReg (a : Nat) (w : Word) (e j : Nat) : podX (setReg s a w) e j = podX s e j := rfl
@[simp] theorem dieX_setReg (a : Nat) (w : Word) (e : Nat) : Machine.dieX (setReg s a w) e = Machine.dieX s e := rfl
@[simp] theorem dom_setReg (a : Nat) (w : Word) (e j : Nat) : dom (setReg s a w) e j = dom s e j := rfl
@[simp] theorem rowsOf_setReg (a : Nat) (w : Word) (e j : Nat) : rowsOf (setReg s a w) e j = rowsOf s e j := rfl
@[simp] theorem bridge_setReg (a : Nat) (w : Word) (e j : Nat) : bridge (setReg s a w) e j = bridge s e j := rfl
@[simp] theorem linkPort_setReg (a : Nat) (w : Word) (e : Nat) : linkPort (setReg s a w) e = linkPort s e := rfl
@[simp] theorem caravan_setReg (a : Nat) (w : Word) (e j : Nat) : caravan (setReg s a w) e j = caravan s e j := rfl
@[simp] theorem ddr_setReg (a : Nat) (w : Word) (e : Nat) : Machine.ddr (setReg s a w) e = Machine.ddr s e := rfl
@[simp] theorem sap_setReg (a : Nat) (w : Word) (e j : Nat) : sap (setReg s a w) e j = sap s e j := rfl
@[simp] theorem meter_setReg (a : Nat) (w : Word) (e j : Nat) : meter (setReg s a w) e j = meter s e j := rfl
@[simp] theorem gen_setReg (a : Nat) (w : Word) (e j : Nat) : gen (setReg s a w) e j = gen s e j := rfl
@[simp] theorem csp_setReg (a : Nat) (w : Word) (e : Nat) : Machine.csp (setReg s a w) e = Machine.csp s e := rfl

/-! ### `setFld` -/

@[simp] theorem setFld_part (a : Nat) (f : Fld) (v : Nat) : (setFld s a f v).part = s.part := rfl
@[simp] theorem setFld_pending (a : Nat) (f : Fld) (v : Nat) : (setFld s a f v).pending = s.pending := rfl
@[simp] theorem setFld_phase (a : Nat) (f : Fld) (v : Nat) : (setFld s a f v).phase = s.phase := rfl
@[simp] theorem setFld_tabs (a : Nat) (f : Fld) (v : Nat) : (setFld s a f v).tabs = s.tabs := rfl
@[simp] theorem setFld_mem (a : Nat) (f : Fld) (v : Nat) : (setFld s a f v).mem = s.mem := rfl
@[simp] theorem setFld_ecc (a : Nat) (f : Fld) (v : Nat) : (setFld s a f v).ecc = s.ecc := rfl
@[simp] theorem setFld_kern (a : Nat) (f : Fld) (v : Nat) : (setFld s a f v).kern = s.kern := rfl
@[simp] theorem setFld_stew (a : Nat) (f : Fld) (v : Nat) : (setFld s a f v).stew = s.stew := rfl
@[simp] theorem setFld_lines (a : Nat) (f : Fld) (v : Nat) : (setFld s a f v).lines = s.lines := rfl
@[simp] theorem setFld_lastPub (a : Nat) (f : Fld) (v : Nat) : (setFld s a f v).lastPub = s.lastPub := rfl
@[simp] theorem setFld_pub (a : Nat) (f : Fld) (v : Nat) : (setFld s a f v).pub = s.pub := rfl
@[simp] theorem setFld_slip (a : Nat) (f : Fld) (v : Nat) : (setFld s a f v).slip = s.slip := rfl
@[simp] theorem setFld_rows (a : Nat) (f : Fld) (v : Nat) : (setFld s a f v).rows = s.rows := rfl
@[simp] theorem setFld_pods (a : Nat) (f : Fld) (v : Nat) : (setFld s a f v).pods = s.pods := rfl
@[simp] theorem setFld_dieX (a : Nat) (f : Fld) (v : Nat) : (setFld s a f v).dieX = s.dieX := rfl
@[simp] theorem setFld_doms (a : Nat) (f : Fld) (v : Nat) : (setFld s a f v).doms = s.doms := rfl
@[simp] theorem setFld_keep (a : Nat) (f : Fld) (v : Nat) : (setFld s a f v).keep = s.keep := rfl
@[simp] theorem setFld_swaps (a : Nat) (f : Fld) (v : Nat) : (setFld s a f v).swaps = s.swaps := rfl
@[simp] theorem setFld_bridges (a : Nat) (f : Fld) (v : Nat) : (setFld s a f v).bridges = s.bridges := rfl
@[simp] theorem setFld_link (a : Nat) (f : Fld) (v : Nat) : (setFld s a f v).link = s.link := rfl
@[simp] theorem setFld_linkDev (a : Nat) (f : Fld) (v : Nat) : (setFld s a f v).linkDev = s.linkDev := rfl
@[simp] theorem setFld_carav (a : Nat) (f : Fld) (v : Nat) : (setFld s a f v).carav = s.carav := rfl
@[simp] theorem setFld_ddr (a : Nat) (f : Fld) (v : Nat) : (setFld s a f v).ddr = s.ddr := rfl
@[simp] theorem setFld_laEff (a : Nat) (f : Fld) (v : Nat) : (setFld s a f v).laEff = s.laEff := rfl
@[simp] theorem setFld_laHist (a : Nat) (f : Fld) (v : Nat) : (setFld s a f v).laHist = s.laHist := rfl
@[simp] theorem setFld_saps (a : Nat) (f : Fld) (v : Nat) : (setFld s a f v).saps = s.saps := rfl
@[simp] theorem setFld_steer (a : Nat) (f : Fld) (v : Nat) : (setFld s a f v).steer = s.steer := rfl
@[simp] theorem setFld_meters (a : Nat) (f : Fld) (v : Nat) : (setFld s a f v).meters = s.meters := rfl
@[simp] theorem setFld_gens (a : Nat) (f : Fld) (v : Nat) : (setFld s a f v).gens = s.gens := rfl
@[simp] theorem setFld_csp (a : Nat) (f : Fld) (v : Nat) : (setFld s a f v).csp = s.csp := rfl
@[simp] theorem setFld_pads (a : Nat) (f : Fld) (v : Nat) : (setFld s a f v).pads = s.pads := rfl
@[simp] theorem setFld_txOld (a : Nat) (f : Fld) (v : Nat) : (setFld s a f v).txOld = s.txOld := rfl
@[simp] theorem setFld_fuses (a : Nat) (f : Fld) (v : Nat) : (setFld s a f v).fuses = s.fuses := rfl
@[simp] theorem setFld_shell (a : Nat) (f : Fld) (v : Nat) : (setFld s a f v).shell = s.shell := rfl
@[simp] theorem setFld_boot (a : Nat) (f : Fld) (v : Nat) : (setFld s a f v).boot = s.boot := rfl
@[simp] theorem setFld_resp (a : Nat) (f : Fld) (v : Nat) : (setFld s a f v).resp = s.resp := rfl
@[simp] theorem setFld_fresh (a : Nat) (f : Fld) (v : Nat) : (setFld s a f v).fresh = s.fresh := rfl
@[simp] theorem tab_setFld (a : Nat) (f : Fld) (v : Nat) (u e j : Nat) : tab (setFld s a f v) u e j = tab s u e j := rfl
@[simp] theorem loadByte_setFld (a : Nat) (f : Fld) (v : Nat) (b : Nat) : loadByte (setFld s a f v) b = loadByte s b := rfl
@[simp] theorem eccAt_setFld (a : Nat) (f : Fld) (v : Nat) (b : Nat) : eccAt (setFld s a f v) b = eccAt s b := rfl
@[simp] theorem line_setFld (a : Nat) (f : Fld) (v : Nat) (e j : Nat) : line (setFld s a f v) e j = line s e j := rfl
@[simp] theorem lastPub_setFld (a : Nat) (f : Fld) (v : Nat) (e j : Nat) : lastPub (setFld s a f v) e j = lastPub s e j := rfl
@[simp] theorem slipLine_setFld (a : Nat) (f : Fld) (v : Nat) (e q j : Nat) : slipLine (setFld s a f v) e q j = slipLine s e q j := rfl
@[simp] theorem kern_setFld (a : Nat) (f : Fld) (v : Nat) (e j : Nat) : Machine.kern (setFld s a f v) e j = Machine.kern s e j := rfl
@[simp] theorem stew_setFld (a : Nat) (f : Fld) (v : Nat) (e j : Nat) : Machine.stew (setFld s a f v) e j = Machine.stew s e j := rfl
@[simp] theorem podX_setFld (a : Nat) (f : Fld) (v : Nat) (e j : Nat) : podX (setFld s a f v) e j = podX s e j := rfl
@[simp] theorem dieX_setFld (a : Nat) (f : Fld) (v : Nat) (e : Nat) : Machine.dieX (setFld s a f v) e = Machine.dieX s e := rfl
@[simp] theorem dom_setFld (a : Nat) (f : Fld) (v : Nat) (e j : Nat) : dom (setFld s a f v) e j = dom s e j := rfl
@[simp] theorem rowsOf_setFld (a : Nat) (f : Fld) (v : Nat) (e j : Nat) : rowsOf (setFld s a f v) e j = rowsOf s e j := rfl
@[simp] theorem bridge_setFld (a : Nat) (f : Fld) (v : Nat) (e j : Nat) : bridge (setFld s a f v) e j = bridge s e j := rfl
@[simp] theorem linkPort_setFld (a : Nat) (f : Fld) (v : Nat) (e : Nat) : linkPort (setFld s a f v) e = linkPort s e := rfl
@[simp] theorem caravan_setFld (a : Nat) (f : Fld) (v : Nat) (e j : Nat) : caravan (setFld s a f v) e j = caravan s e j := rfl
@[simp] theorem ddr_setFld (a : Nat) (f : Fld) (v : Nat) (e : Nat) : Machine.ddr (setFld s a f v) e = Machine.ddr s e := rfl
@[simp] theorem sap_setFld (a : Nat) (f : Fld) (v : Nat) (e j : Nat) : sap (setFld s a f v) e j = sap s e j := rfl
@[simp] theorem meter_setFld (a : Nat) (f : Fld) (v : Nat) (e j : Nat) : meter (setFld s a f v) e j = meter s e j := rfl
@[simp] theorem gen_setFld (a : Nat) (f : Fld) (v : Nat) (e j : Nat) : gen (setFld s a f v) e j = gen s e j := rfl
@[simp] theorem csp_setFld (a : Nat) (f : Fld) (v : Nat) (e : Nat) : Machine.csp (setFld s a f v) e = Machine.csp s e := rfl

/-! ### `setTab` -/

@[simp] theorem setTab_part (t d i : Nat) (w : Word) : (setTab s t d i w).part = s.part := rfl
@[simp] theorem setTab_pending (t d i : Nat) (w : Word) : (setTab s t d i w).pending = s.pending := rfl
@[simp] theorem setTab_phase (t d i : Nat) (w : Word) : (setTab s t d i w).phase = s.phase := rfl
@[simp] theorem setTab_regs (t d i : Nat) (w : Word) : (setTab s t d i w).regs = s.regs := rfl
@[simp] theorem setTab_mem (t d i : Nat) (w : Word) : (setTab s t d i w).mem = s.mem := rfl
@[simp] theorem setTab_ecc (t d i : Nat) (w : Word) : (setTab s t d i w).ecc = s.ecc := rfl
@[simp] theorem setTab_kern (t d i : Nat) (w : Word) : (setTab s t d i w).kern = s.kern := rfl
@[simp] theorem setTab_stew (t d i : Nat) (w : Word) : (setTab s t d i w).stew = s.stew := rfl
@[simp] theorem setTab_lines (t d i : Nat) (w : Word) : (setTab s t d i w).lines = s.lines := rfl
@[simp] theorem setTab_lastPub (t d i : Nat) (w : Word) : (setTab s t d i w).lastPub = s.lastPub := rfl
@[simp] theorem setTab_pub (t d i : Nat) (w : Word) : (setTab s t d i w).pub = s.pub := rfl
@[simp] theorem setTab_slip (t d i : Nat) (w : Word) : (setTab s t d i w).slip = s.slip := rfl
@[simp] theorem setTab_rows (t d i : Nat) (w : Word) : (setTab s t d i w).rows = s.rows := rfl
@[simp] theorem setTab_pods (t d i : Nat) (w : Word) : (setTab s t d i w).pods = s.pods := rfl
@[simp] theorem setTab_dieX (t d i : Nat) (w : Word) : (setTab s t d i w).dieX = s.dieX := rfl
@[simp] theorem setTab_doms (t d i : Nat) (w : Word) : (setTab s t d i w).doms = s.doms := rfl
@[simp] theorem setTab_keep (t d i : Nat) (w : Word) : (setTab s t d i w).keep = s.keep := rfl
@[simp] theorem setTab_swaps (t d i : Nat) (w : Word) : (setTab s t d i w).swaps = s.swaps := rfl
@[simp] theorem setTab_bridges (t d i : Nat) (w : Word) : (setTab s t d i w).bridges = s.bridges := rfl
@[simp] theorem setTab_link (t d i : Nat) (w : Word) : (setTab s t d i w).link = s.link := rfl
@[simp] theorem setTab_linkDev (t d i : Nat) (w : Word) : (setTab s t d i w).linkDev = s.linkDev := rfl
@[simp] theorem setTab_carav (t d i : Nat) (w : Word) : (setTab s t d i w).carav = s.carav := rfl
@[simp] theorem setTab_ddr (t d i : Nat) (w : Word) : (setTab s t d i w).ddr = s.ddr := rfl
@[simp] theorem setTab_laEff (t d i : Nat) (w : Word) : (setTab s t d i w).laEff = s.laEff := rfl
@[simp] theorem setTab_laHist (t d i : Nat) (w : Word) : (setTab s t d i w).laHist = s.laHist := rfl
@[simp] theorem setTab_saps (t d i : Nat) (w : Word) : (setTab s t d i w).saps = s.saps := rfl
@[simp] theorem setTab_steer (t d i : Nat) (w : Word) : (setTab s t d i w).steer = s.steer := rfl
@[simp] theorem setTab_meters (t d i : Nat) (w : Word) : (setTab s t d i w).meters = s.meters := rfl
@[simp] theorem setTab_gens (t d i : Nat) (w : Word) : (setTab s t d i w).gens = s.gens := rfl
@[simp] theorem setTab_csp (t d i : Nat) (w : Word) : (setTab s t d i w).csp = s.csp := rfl
@[simp] theorem setTab_pads (t d i : Nat) (w : Word) : (setTab s t d i w).pads = s.pads := rfl
@[simp] theorem setTab_txOld (t d i : Nat) (w : Word) : (setTab s t d i w).txOld = s.txOld := rfl
@[simp] theorem setTab_fuses (t d i : Nat) (w : Word) : (setTab s t d i w).fuses = s.fuses := rfl
@[simp] theorem setTab_shell (t d i : Nat) (w : Word) : (setTab s t d i w).shell = s.shell := rfl
@[simp] theorem setTab_boot (t d i : Nat) (w : Word) : (setTab s t d i w).boot = s.boot := rfl
@[simp] theorem setTab_resp (t d i : Nat) (w : Word) : (setTab s t d i w).resp = s.resp := rfl
@[simp] theorem setTab_fresh (t d i : Nat) (w : Word) : (setTab s t d i w).fresh = s.fresh := rfl
@[simp] theorem reg_setTab (t d i : Nat) (w : Word) (b : Nat) : reg (setTab s t d i w) b = reg s b := rfl
@[simp] theorem loadByte_setTab (t d i : Nat) (w : Word) (b : Nat) : loadByte (setTab s t d i w) b = loadByte s b := rfl
@[simp] theorem eccAt_setTab (t d i : Nat) (w : Word) (b : Nat) : eccAt (setTab s t d i w) b = eccAt s b := rfl
@[simp] theorem line_setTab (t d i : Nat) (w : Word) (e j : Nat) : line (setTab s t d i w) e j = line s e j := rfl
@[simp] theorem lastPub_setTab (t d i : Nat) (w : Word) (e j : Nat) : lastPub (setTab s t d i w) e j = lastPub s e j := rfl
@[simp] theorem slipLine_setTab (t d i : Nat) (w : Word) (e q j : Nat) : slipLine (setTab s t d i w) e q j = slipLine s e q j := rfl
@[simp] theorem kern_setTab (t d i : Nat) (w : Word) (e j : Nat) : Machine.kern (setTab s t d i w) e j = Machine.kern s e j := rfl
@[simp] theorem stew_setTab (t d i : Nat) (w : Word) (e j : Nat) : Machine.stew (setTab s t d i w) e j = Machine.stew s e j := rfl
@[simp] theorem podX_setTab (t d i : Nat) (w : Word) (e j : Nat) : podX (setTab s t d i w) e j = podX s e j := rfl
@[simp] theorem dieX_setTab (t d i : Nat) (w : Word) (e : Nat) : Machine.dieX (setTab s t d i w) e = Machine.dieX s e := rfl
@[simp] theorem dom_setTab (t d i : Nat) (w : Word) (e j : Nat) : dom (setTab s t d i w) e j = dom s e j := rfl
@[simp] theorem rowsOf_setTab (t d i : Nat) (w : Word) (e j : Nat) : rowsOf (setTab s t d i w) e j = rowsOf s e j := rfl
@[simp] theorem bridge_setTab (t d i : Nat) (w : Word) (e j : Nat) : bridge (setTab s t d i w) e j = bridge s e j := rfl
@[simp] theorem linkPort_setTab (t d i : Nat) (w : Word) (e : Nat) : linkPort (setTab s t d i w) e = linkPort s e := rfl
@[simp] theorem caravan_setTab (t d i : Nat) (w : Word) (e j : Nat) : caravan (setTab s t d i w) e j = caravan s e j := rfl
@[simp] theorem ddr_setTab (t d i : Nat) (w : Word) (e : Nat) : Machine.ddr (setTab s t d i w) e = Machine.ddr s e := rfl
@[simp] theorem sap_setTab (t d i : Nat) (w : Word) (e j : Nat) : sap (setTab s t d i w) e j = sap s e j := rfl
@[simp] theorem meter_setTab (t d i : Nat) (w : Word) (e j : Nat) : meter (setTab s t d i w) e j = meter s e j := rfl
@[simp] theorem gen_setTab (t d i : Nat) (w : Word) (e j : Nat) : gen (setTab s t d i w) e j = gen s e j := rfl
@[simp] theorem csp_setTab (t d i : Nat) (w : Word) (e : Nat) : Machine.csp (setTab s t d i w) e = Machine.csp s e := rfl

/-! ### `storeByte` -/

@[simp] theorem storeByte_part (a : Nat) (v : Byte) : (storeByte s a v).part = s.part := rfl
@[simp] theorem storeByte_pending (a : Nat) (v : Byte) : (storeByte s a v).pending = s.pending := rfl
@[simp] theorem storeByte_phase (a : Nat) (v : Byte) : (storeByte s a v).phase = s.phase := rfl
@[simp] theorem storeByte_regs (a : Nat) (v : Byte) : (storeByte s a v).regs = s.regs := rfl
@[simp] theorem storeByte_tabs (a : Nat) (v : Byte) : (storeByte s a v).tabs = s.tabs := rfl
@[simp] theorem storeByte_ecc (a : Nat) (v : Byte) : (storeByte s a v).ecc = s.ecc := rfl
@[simp] theorem storeByte_kern (a : Nat) (v : Byte) : (storeByte s a v).kern = s.kern := rfl
@[simp] theorem storeByte_stew (a : Nat) (v : Byte) : (storeByte s a v).stew = s.stew := rfl
@[simp] theorem storeByte_lines (a : Nat) (v : Byte) : (storeByte s a v).lines = s.lines := rfl
@[simp] theorem storeByte_lastPub (a : Nat) (v : Byte) : (storeByte s a v).lastPub = s.lastPub := rfl
@[simp] theorem storeByte_pub (a : Nat) (v : Byte) : (storeByte s a v).pub = s.pub := rfl
@[simp] theorem storeByte_slip (a : Nat) (v : Byte) : (storeByte s a v).slip = s.slip := rfl
@[simp] theorem storeByte_rows (a : Nat) (v : Byte) : (storeByte s a v).rows = s.rows := rfl
@[simp] theorem storeByte_pods (a : Nat) (v : Byte) : (storeByte s a v).pods = s.pods := rfl
@[simp] theorem storeByte_dieX (a : Nat) (v : Byte) : (storeByte s a v).dieX = s.dieX := rfl
@[simp] theorem storeByte_doms (a : Nat) (v : Byte) : (storeByte s a v).doms = s.doms := rfl
@[simp] theorem storeByte_keep (a : Nat) (v : Byte) : (storeByte s a v).keep = s.keep := rfl
@[simp] theorem storeByte_swaps (a : Nat) (v : Byte) : (storeByte s a v).swaps = s.swaps := rfl
@[simp] theorem storeByte_bridges (a : Nat) (v : Byte) : (storeByte s a v).bridges = s.bridges := rfl
@[simp] theorem storeByte_link (a : Nat) (v : Byte) : (storeByte s a v).link = s.link := rfl
@[simp] theorem storeByte_linkDev (a : Nat) (v : Byte) : (storeByte s a v).linkDev = s.linkDev := rfl
@[simp] theorem storeByte_carav (a : Nat) (v : Byte) : (storeByte s a v).carav = s.carav := rfl
@[simp] theorem storeByte_ddr (a : Nat) (v : Byte) : (storeByte s a v).ddr = s.ddr := rfl
@[simp] theorem storeByte_laEff (a : Nat) (v : Byte) : (storeByte s a v).laEff = s.laEff := rfl
@[simp] theorem storeByte_laHist (a : Nat) (v : Byte) : (storeByte s a v).laHist = s.laHist := rfl
@[simp] theorem storeByte_saps (a : Nat) (v : Byte) : (storeByte s a v).saps = s.saps := rfl
@[simp] theorem storeByte_steer (a : Nat) (v : Byte) : (storeByte s a v).steer = s.steer := rfl
@[simp] theorem storeByte_meters (a : Nat) (v : Byte) : (storeByte s a v).meters = s.meters := rfl
@[simp] theorem storeByte_gens (a : Nat) (v : Byte) : (storeByte s a v).gens = s.gens := rfl
@[simp] theorem storeByte_csp (a : Nat) (v : Byte) : (storeByte s a v).csp = s.csp := rfl
@[simp] theorem storeByte_pads (a : Nat) (v : Byte) : (storeByte s a v).pads = s.pads := rfl
@[simp] theorem storeByte_txOld (a : Nat) (v : Byte) : (storeByte s a v).txOld = s.txOld := rfl
@[simp] theorem storeByte_fuses (a : Nat) (v : Byte) : (storeByte s a v).fuses = s.fuses := rfl
@[simp] theorem storeByte_shell (a : Nat) (v : Byte) : (storeByte s a v).shell = s.shell := rfl
@[simp] theorem storeByte_boot (a : Nat) (v : Byte) : (storeByte s a v).boot = s.boot := rfl
@[simp] theorem storeByte_resp (a : Nat) (v : Byte) : (storeByte s a v).resp = s.resp := rfl
@[simp] theorem storeByte_fresh (a : Nat) (v : Byte) : (storeByte s a v).fresh = s.fresh := rfl
@[simp] theorem reg_storeByte (a : Nat) (v : Byte) (b : Nat) : reg (storeByte s a v) b = reg s b := rfl
@[simp] theorem tab_storeByte (a : Nat) (v : Byte) (u e j : Nat) : tab (storeByte s a v) u e j = tab s u e j := rfl
@[simp] theorem eccAt_storeByte (a : Nat) (v : Byte) (b : Nat) : eccAt (storeByte s a v) b = eccAt s b := rfl
@[simp] theorem line_storeByte (a : Nat) (v : Byte) (e j : Nat) : line (storeByte s a v) e j = line s e j := rfl
@[simp] theorem lastPub_storeByte (a : Nat) (v : Byte) (e j : Nat) : lastPub (storeByte s a v) e j = lastPub s e j := rfl
@[simp] theorem slipLine_storeByte (a : Nat) (v : Byte) (e q j : Nat) : slipLine (storeByte s a v) e q j = slipLine s e q j := rfl
@[simp] theorem kern_storeByte (a : Nat) (v : Byte) (e j : Nat) : Machine.kern (storeByte s a v) e j = Machine.kern s e j := rfl
@[simp] theorem stew_storeByte (a : Nat) (v : Byte) (e j : Nat) : Machine.stew (storeByte s a v) e j = Machine.stew s e j := rfl
@[simp] theorem podX_storeByte (a : Nat) (v : Byte) (e j : Nat) : podX (storeByte s a v) e j = podX s e j := rfl
@[simp] theorem dieX_storeByte (a : Nat) (v : Byte) (e : Nat) : Machine.dieX (storeByte s a v) e = Machine.dieX s e := rfl
@[simp] theorem dom_storeByte (a : Nat) (v : Byte) (e j : Nat) : dom (storeByte s a v) e j = dom s e j := rfl
@[simp] theorem rowsOf_storeByte (a : Nat) (v : Byte) (e j : Nat) : rowsOf (storeByte s a v) e j = rowsOf s e j := rfl
@[simp] theorem bridge_storeByte (a : Nat) (v : Byte) (e j : Nat) : bridge (storeByte s a v) e j = bridge s e j := rfl
@[simp] theorem linkPort_storeByte (a : Nat) (v : Byte) (e : Nat) : linkPort (storeByte s a v) e = linkPort s e := rfl
@[simp] theorem caravan_storeByte (a : Nat) (v : Byte) (e j : Nat) : caravan (storeByte s a v) e j = caravan s e j := rfl
@[simp] theorem ddr_storeByte (a : Nat) (v : Byte) (e : Nat) : Machine.ddr (storeByte s a v) e = Machine.ddr s e := rfl
@[simp] theorem sap_storeByte (a : Nat) (v : Byte) (e j : Nat) : sap (storeByte s a v) e j = sap s e j := rfl
@[simp] theorem meter_storeByte (a : Nat) (v : Byte) (e j : Nat) : meter (storeByte s a v) e j = meter s e j := rfl
@[simp] theorem gen_storeByte (a : Nat) (v : Byte) (e j : Nat) : gen (storeByte s a v) e j = gen s e j := rfl
@[simp] theorem csp_storeByte (a : Nat) (v : Byte) (e : Nat) : Machine.csp (storeByte s a v) e = Machine.csp s e := rfl

/-! ### `setEcc` -/

@[simp] theorem setEcc_part (a : Nat) (x : EccMark) : (setEcc s a x).part = s.part := rfl
@[simp] theorem setEcc_pending (a : Nat) (x : EccMark) : (setEcc s a x).pending = s.pending := rfl
@[simp] theorem setEcc_phase (a : Nat) (x : EccMark) : (setEcc s a x).phase = s.phase := rfl
@[simp] theorem setEcc_regs (a : Nat) (x : EccMark) : (setEcc s a x).regs = s.regs := rfl
@[simp] theorem setEcc_tabs (a : Nat) (x : EccMark) : (setEcc s a x).tabs = s.tabs := rfl
@[simp] theorem setEcc_mem (a : Nat) (x : EccMark) : (setEcc s a x).mem = s.mem := rfl
@[simp] theorem setEcc_kern (a : Nat) (x : EccMark) : (setEcc s a x).kern = s.kern := rfl
@[simp] theorem setEcc_stew (a : Nat) (x : EccMark) : (setEcc s a x).stew = s.stew := rfl
@[simp] theorem setEcc_lines (a : Nat) (x : EccMark) : (setEcc s a x).lines = s.lines := rfl
@[simp] theorem setEcc_lastPub (a : Nat) (x : EccMark) : (setEcc s a x).lastPub = s.lastPub := rfl
@[simp] theorem setEcc_pub (a : Nat) (x : EccMark) : (setEcc s a x).pub = s.pub := rfl
@[simp] theorem setEcc_slip (a : Nat) (x : EccMark) : (setEcc s a x).slip = s.slip := rfl
@[simp] theorem setEcc_rows (a : Nat) (x : EccMark) : (setEcc s a x).rows = s.rows := rfl
@[simp] theorem setEcc_pods (a : Nat) (x : EccMark) : (setEcc s a x).pods = s.pods := rfl
@[simp] theorem setEcc_dieX (a : Nat) (x : EccMark) : (setEcc s a x).dieX = s.dieX := rfl
@[simp] theorem setEcc_doms (a : Nat) (x : EccMark) : (setEcc s a x).doms = s.doms := rfl
@[simp] theorem setEcc_keep (a : Nat) (x : EccMark) : (setEcc s a x).keep = s.keep := rfl
@[simp] theorem setEcc_swaps (a : Nat) (x : EccMark) : (setEcc s a x).swaps = s.swaps := rfl
@[simp] theorem setEcc_bridges (a : Nat) (x : EccMark) : (setEcc s a x).bridges = s.bridges := rfl
@[simp] theorem setEcc_link (a : Nat) (x : EccMark) : (setEcc s a x).link = s.link := rfl
@[simp] theorem setEcc_linkDev (a : Nat) (x : EccMark) : (setEcc s a x).linkDev = s.linkDev := rfl
@[simp] theorem setEcc_carav (a : Nat) (x : EccMark) : (setEcc s a x).carav = s.carav := rfl
@[simp] theorem setEcc_ddr (a : Nat) (x : EccMark) : (setEcc s a x).ddr = s.ddr := rfl
@[simp] theorem setEcc_laEff (a : Nat) (x : EccMark) : (setEcc s a x).laEff = s.laEff := rfl
@[simp] theorem setEcc_laHist (a : Nat) (x : EccMark) : (setEcc s a x).laHist = s.laHist := rfl
@[simp] theorem setEcc_saps (a : Nat) (x : EccMark) : (setEcc s a x).saps = s.saps := rfl
@[simp] theorem setEcc_steer (a : Nat) (x : EccMark) : (setEcc s a x).steer = s.steer := rfl
@[simp] theorem setEcc_meters (a : Nat) (x : EccMark) : (setEcc s a x).meters = s.meters := rfl
@[simp] theorem setEcc_gens (a : Nat) (x : EccMark) : (setEcc s a x).gens = s.gens := rfl
@[simp] theorem setEcc_csp (a : Nat) (x : EccMark) : (setEcc s a x).csp = s.csp := rfl
@[simp] theorem setEcc_pads (a : Nat) (x : EccMark) : (setEcc s a x).pads = s.pads := rfl
@[simp] theorem setEcc_txOld (a : Nat) (x : EccMark) : (setEcc s a x).txOld = s.txOld := rfl
@[simp] theorem setEcc_fuses (a : Nat) (x : EccMark) : (setEcc s a x).fuses = s.fuses := rfl
@[simp] theorem setEcc_shell (a : Nat) (x : EccMark) : (setEcc s a x).shell = s.shell := rfl
@[simp] theorem setEcc_boot (a : Nat) (x : EccMark) : (setEcc s a x).boot = s.boot := rfl
@[simp] theorem setEcc_resp (a : Nat) (x : EccMark) : (setEcc s a x).resp = s.resp := rfl
@[simp] theorem setEcc_fresh (a : Nat) (x : EccMark) : (setEcc s a x).fresh = s.fresh := rfl
@[simp] theorem reg_setEcc (a : Nat) (x : EccMark) (b : Nat) : reg (setEcc s a x) b = reg s b := rfl
@[simp] theorem tab_setEcc (a : Nat) (x : EccMark) (u e j : Nat) : tab (setEcc s a x) u e j = tab s u e j := rfl
@[simp] theorem loadByte_setEcc (a : Nat) (x : EccMark) (b : Nat) : loadByte (setEcc s a x) b = loadByte s b := rfl
@[simp] theorem line_setEcc (a : Nat) (x : EccMark) (e j : Nat) : line (setEcc s a x) e j = line s e j := rfl
@[simp] theorem lastPub_setEcc (a : Nat) (x : EccMark) (e j : Nat) : lastPub (setEcc s a x) e j = lastPub s e j := rfl
@[simp] theorem slipLine_setEcc (a : Nat) (x : EccMark) (e q j : Nat) : slipLine (setEcc s a x) e q j = slipLine s e q j := rfl
@[simp] theorem kern_setEcc (a : Nat) (x : EccMark) (e j : Nat) : Machine.kern (setEcc s a x) e j = Machine.kern s e j := rfl
@[simp] theorem stew_setEcc (a : Nat) (x : EccMark) (e j : Nat) : Machine.stew (setEcc s a x) e j = Machine.stew s e j := rfl
@[simp] theorem podX_setEcc (a : Nat) (x : EccMark) (e j : Nat) : podX (setEcc s a x) e j = podX s e j := rfl
@[simp] theorem dieX_setEcc (a : Nat) (x : EccMark) (e : Nat) : Machine.dieX (setEcc s a x) e = Machine.dieX s e := rfl
@[simp] theorem dom_setEcc (a : Nat) (x : EccMark) (e j : Nat) : dom (setEcc s a x) e j = dom s e j := rfl
@[simp] theorem rowsOf_setEcc (a : Nat) (x : EccMark) (e j : Nat) : rowsOf (setEcc s a x) e j = rowsOf s e j := rfl
@[simp] theorem bridge_setEcc (a : Nat) (x : EccMark) (e j : Nat) : bridge (setEcc s a x) e j = bridge s e j := rfl
@[simp] theorem linkPort_setEcc (a : Nat) (x : EccMark) (e : Nat) : linkPort (setEcc s a x) e = linkPort s e := rfl
@[simp] theorem caravan_setEcc (a : Nat) (x : EccMark) (e j : Nat) : caravan (setEcc s a x) e j = caravan s e j := rfl
@[simp] theorem ddr_setEcc (a : Nat) (x : EccMark) (e : Nat) : Machine.ddr (setEcc s a x) e = Machine.ddr s e := rfl
@[simp] theorem sap_setEcc (a : Nat) (x : EccMark) (e j : Nat) : sap (setEcc s a x) e j = sap s e j := rfl
@[simp] theorem meter_setEcc (a : Nat) (x : EccMark) (e j : Nat) : meter (setEcc s a x) e j = meter s e j := rfl
@[simp] theorem gen_setEcc (a : Nat) (x : EccMark) (e j : Nat) : gen (setEcc s a x) e j = gen s e j := rfl
@[simp] theorem csp_setEcc (a : Nat) (x : EccMark) (e : Nat) : Machine.csp (setEcc s a x) e = Machine.csp s e := rfl

/-! ### `publish` -/

@[simp] theorem publish_part (d n : Nat) (v : Word) (ok : Bool) : (publish s d n v ok).part = s.part := rfl
@[simp] theorem publish_pending (d n : Nat) (v : Word) (ok : Bool) : (publish s d n v ok).pending = s.pending := rfl
@[simp] theorem publish_phase (d n : Nat) (v : Word) (ok : Bool) : (publish s d n v ok).phase = s.phase := rfl
@[simp] theorem publish_regs (d n : Nat) (v : Word) (ok : Bool) : (publish s d n v ok).regs = s.regs := rfl
@[simp] theorem publish_tabs (d n : Nat) (v : Word) (ok : Bool) : (publish s d n v ok).tabs = s.tabs := rfl
@[simp] theorem publish_mem (d n : Nat) (v : Word) (ok : Bool) : (publish s d n v ok).mem = s.mem := rfl
@[simp] theorem publish_ecc (d n : Nat) (v : Word) (ok : Bool) : (publish s d n v ok).ecc = s.ecc := rfl
@[simp] theorem publish_kern (d n : Nat) (v : Word) (ok : Bool) : (publish s d n v ok).kern = s.kern := rfl
@[simp] theorem publish_stew (d n : Nat) (v : Word) (ok : Bool) : (publish s d n v ok).stew = s.stew := rfl
@[simp] theorem publish_lines (d n : Nat) (v : Word) (ok : Bool) : (publish s d n v ok).lines = s.lines := rfl
@[simp] theorem publish_lastPub (d n : Nat) (v : Word) (ok : Bool) : (publish s d n v ok).lastPub = s.lastPub := rfl
@[simp] theorem publish_slip (d n : Nat) (v : Word) (ok : Bool) : (publish s d n v ok).slip = s.slip := rfl
@[simp] theorem publish_rows (d n : Nat) (v : Word) (ok : Bool) : (publish s d n v ok).rows = s.rows := rfl
@[simp] theorem publish_pods (d n : Nat) (v : Word) (ok : Bool) : (publish s d n v ok).pods = s.pods := rfl
@[simp] theorem publish_dieX (d n : Nat) (v : Word) (ok : Bool) : (publish s d n v ok).dieX = s.dieX := rfl
@[simp] theorem publish_doms (d n : Nat) (v : Word) (ok : Bool) : (publish s d n v ok).doms = s.doms := rfl
@[simp] theorem publish_keep (d n : Nat) (v : Word) (ok : Bool) : (publish s d n v ok).keep = s.keep := rfl
@[simp] theorem publish_swaps (d n : Nat) (v : Word) (ok : Bool) : (publish s d n v ok).swaps = s.swaps := rfl
@[simp] theorem publish_bridges (d n : Nat) (v : Word) (ok : Bool) : (publish s d n v ok).bridges = s.bridges := rfl
@[simp] theorem publish_link (d n : Nat) (v : Word) (ok : Bool) : (publish s d n v ok).link = s.link := rfl
@[simp] theorem publish_linkDev (d n : Nat) (v : Word) (ok : Bool) : (publish s d n v ok).linkDev = s.linkDev := rfl
@[simp] theorem publish_carav (d n : Nat) (v : Word) (ok : Bool) : (publish s d n v ok).carav = s.carav := rfl
@[simp] theorem publish_ddr (d n : Nat) (v : Word) (ok : Bool) : (publish s d n v ok).ddr = s.ddr := rfl
@[simp] theorem publish_laEff (d n : Nat) (v : Word) (ok : Bool) : (publish s d n v ok).laEff = s.laEff := rfl
@[simp] theorem publish_laHist (d n : Nat) (v : Word) (ok : Bool) : (publish s d n v ok).laHist = s.laHist := rfl
@[simp] theorem publish_saps (d n : Nat) (v : Word) (ok : Bool) : (publish s d n v ok).saps = s.saps := rfl
@[simp] theorem publish_steer (d n : Nat) (v : Word) (ok : Bool) : (publish s d n v ok).steer = s.steer := rfl
@[simp] theorem publish_meters (d n : Nat) (v : Word) (ok : Bool) : (publish s d n v ok).meters = s.meters := rfl
@[simp] theorem publish_gens (d n : Nat) (v : Word) (ok : Bool) : (publish s d n v ok).gens = s.gens := rfl
@[simp] theorem publish_csp (d n : Nat) (v : Word) (ok : Bool) : (publish s d n v ok).csp = s.csp := rfl
@[simp] theorem publish_pads (d n : Nat) (v : Word) (ok : Bool) : (publish s d n v ok).pads = s.pads := rfl
@[simp] theorem publish_txOld (d n : Nat) (v : Word) (ok : Bool) : (publish s d n v ok).txOld = s.txOld := rfl
@[simp] theorem publish_fuses (d n : Nat) (v : Word) (ok : Bool) : (publish s d n v ok).fuses = s.fuses := rfl
@[simp] theorem publish_shell (d n : Nat) (v : Word) (ok : Bool) : (publish s d n v ok).shell = s.shell := rfl
@[simp] theorem publish_boot (d n : Nat) (v : Word) (ok : Bool) : (publish s d n v ok).boot = s.boot := rfl
@[simp] theorem publish_resp (d n : Nat) (v : Word) (ok : Bool) : (publish s d n v ok).resp = s.resp := rfl
@[simp] theorem publish_fresh (d n : Nat) (v : Word) (ok : Bool) : (publish s d n v ok).fresh = s.fresh := rfl
@[simp] theorem reg_publish (d n : Nat) (v : Word) (ok : Bool) (b : Nat) : reg (publish s d n v ok) b = reg s b := rfl
@[simp] theorem tab_publish (d n : Nat) (v : Word) (ok : Bool) (u e j : Nat) : tab (publish s d n v ok) u e j = tab s u e j := rfl
@[simp] theorem loadByte_publish (d n : Nat) (v : Word) (ok : Bool) (b : Nat) : loadByte (publish s d n v ok) b = loadByte s b := rfl
@[simp] theorem eccAt_publish (d n : Nat) (v : Word) (ok : Bool) (b : Nat) : eccAt (publish s d n v ok) b = eccAt s b := rfl
@[simp] theorem line_publish (d n : Nat) (v : Word) (ok : Bool) (e j : Nat) : line (publish s d n v ok) e j = line s e j := rfl
@[simp] theorem lastPub_publish (d n : Nat) (v : Word) (ok : Bool) (e j : Nat) : lastPub (publish s d n v ok) e j = lastPub s e j := rfl
@[simp] theorem slipLine_publish (d n : Nat) (v : Word) (ok : Bool) (e q j : Nat) : slipLine (publish s d n v ok) e q j = slipLine s e q j := rfl
@[simp] theorem kern_publish (d n : Nat) (v : Word) (ok : Bool) (e j : Nat) : Machine.kern (publish s d n v ok) e j = Machine.kern s e j := rfl
@[simp] theorem stew_publish (d n : Nat) (v : Word) (ok : Bool) (e j : Nat) : Machine.stew (publish s d n v ok) e j = Machine.stew s e j := rfl
@[simp] theorem podX_publish (d n : Nat) (v : Word) (ok : Bool) (e j : Nat) : podX (publish s d n v ok) e j = podX s e j := rfl
@[simp] theorem dieX_publish (d n : Nat) (v : Word) (ok : Bool) (e : Nat) : Machine.dieX (publish s d n v ok) e = Machine.dieX s e := rfl
@[simp] theorem dom_publish (d n : Nat) (v : Word) (ok : Bool) (e j : Nat) : dom (publish s d n v ok) e j = dom s e j := rfl
@[simp] theorem rowsOf_publish (d n : Nat) (v : Word) (ok : Bool) (e j : Nat) : rowsOf (publish s d n v ok) e j = rowsOf s e j := rfl
@[simp] theorem bridge_publish (d n : Nat) (v : Word) (ok : Bool) (e j : Nat) : bridge (publish s d n v ok) e j = bridge s e j := rfl
@[simp] theorem linkPort_publish (d n : Nat) (v : Word) (ok : Bool) (e : Nat) : linkPort (publish s d n v ok) e = linkPort s e := rfl
@[simp] theorem caravan_publish (d n : Nat) (v : Word) (ok : Bool) (e j : Nat) : caravan (publish s d n v ok) e j = caravan s e j := rfl
@[simp] theorem ddr_publish (d n : Nat) (v : Word) (ok : Bool) (e : Nat) : Machine.ddr (publish s d n v ok) e = Machine.ddr s e := rfl
@[simp] theorem sap_publish (d n : Nat) (v : Word) (ok : Bool) (e j : Nat) : sap (publish s d n v ok) e j = sap s e j := rfl
@[simp] theorem meter_publish (d n : Nat) (v : Word) (ok : Bool) (e j : Nat) : meter (publish s d n v ok) e j = meter s e j := rfl
@[simp] theorem gen_publish (d n : Nat) (v : Word) (ok : Bool) (e j : Nat) : gen (publish s d n v ok) e j = gen s e j := rfl
@[simp] theorem csp_publish (d n : Nat) (v : Word) (ok : Bool) (e : Nat) : Machine.csp (publish s d n v ok) e = Machine.csp s e := rfl

/-! ### `setLastPub` -/

@[simp] theorem setLastPub_part (d n : Nat) (v : Word) : (setLastPub s d n v).part = s.part := rfl
@[simp] theorem setLastPub_pending (d n : Nat) (v : Word) : (setLastPub s d n v).pending = s.pending := rfl
@[simp] theorem setLastPub_phase (d n : Nat) (v : Word) : (setLastPub s d n v).phase = s.phase := rfl
@[simp] theorem setLastPub_regs (d n : Nat) (v : Word) : (setLastPub s d n v).regs = s.regs := rfl
@[simp] theorem setLastPub_tabs (d n : Nat) (v : Word) : (setLastPub s d n v).tabs = s.tabs := rfl
@[simp] theorem setLastPub_mem (d n : Nat) (v : Word) : (setLastPub s d n v).mem = s.mem := rfl
@[simp] theorem setLastPub_ecc (d n : Nat) (v : Word) : (setLastPub s d n v).ecc = s.ecc := rfl
@[simp] theorem setLastPub_kern (d n : Nat) (v : Word) : (setLastPub s d n v).kern = s.kern := rfl
@[simp] theorem setLastPub_stew (d n : Nat) (v : Word) : (setLastPub s d n v).stew = s.stew := rfl
@[simp] theorem setLastPub_lines (d n : Nat) (v : Word) : (setLastPub s d n v).lines = s.lines := rfl
@[simp] theorem setLastPub_pub (d n : Nat) (v : Word) : (setLastPub s d n v).pub = s.pub := rfl
@[simp] theorem setLastPub_slip (d n : Nat) (v : Word) : (setLastPub s d n v).slip = s.slip := rfl
@[simp] theorem setLastPub_rows (d n : Nat) (v : Word) : (setLastPub s d n v).rows = s.rows := rfl
@[simp] theorem setLastPub_pods (d n : Nat) (v : Word) : (setLastPub s d n v).pods = s.pods := rfl
@[simp] theorem setLastPub_dieX (d n : Nat) (v : Word) : (setLastPub s d n v).dieX = s.dieX := rfl
@[simp] theorem setLastPub_doms (d n : Nat) (v : Word) : (setLastPub s d n v).doms = s.doms := rfl
@[simp] theorem setLastPub_keep (d n : Nat) (v : Word) : (setLastPub s d n v).keep = s.keep := rfl
@[simp] theorem setLastPub_swaps (d n : Nat) (v : Word) : (setLastPub s d n v).swaps = s.swaps := rfl
@[simp] theorem setLastPub_bridges (d n : Nat) (v : Word) : (setLastPub s d n v).bridges = s.bridges := rfl
@[simp] theorem setLastPub_link (d n : Nat) (v : Word) : (setLastPub s d n v).link = s.link := rfl
@[simp] theorem setLastPub_linkDev (d n : Nat) (v : Word) : (setLastPub s d n v).linkDev = s.linkDev := rfl
@[simp] theorem setLastPub_carav (d n : Nat) (v : Word) : (setLastPub s d n v).carav = s.carav := rfl
@[simp] theorem setLastPub_ddr (d n : Nat) (v : Word) : (setLastPub s d n v).ddr = s.ddr := rfl
@[simp] theorem setLastPub_laEff (d n : Nat) (v : Word) : (setLastPub s d n v).laEff = s.laEff := rfl
@[simp] theorem setLastPub_laHist (d n : Nat) (v : Word) : (setLastPub s d n v).laHist = s.laHist := rfl
@[simp] theorem setLastPub_saps (d n : Nat) (v : Word) : (setLastPub s d n v).saps = s.saps := rfl
@[simp] theorem setLastPub_steer (d n : Nat) (v : Word) : (setLastPub s d n v).steer = s.steer := rfl
@[simp] theorem setLastPub_meters (d n : Nat) (v : Word) : (setLastPub s d n v).meters = s.meters := rfl
@[simp] theorem setLastPub_gens (d n : Nat) (v : Word) : (setLastPub s d n v).gens = s.gens := rfl
@[simp] theorem setLastPub_csp (d n : Nat) (v : Word) : (setLastPub s d n v).csp = s.csp := rfl
@[simp] theorem setLastPub_pads (d n : Nat) (v : Word) : (setLastPub s d n v).pads = s.pads := rfl
@[simp] theorem setLastPub_txOld (d n : Nat) (v : Word) : (setLastPub s d n v).txOld = s.txOld := rfl
@[simp] theorem setLastPub_fuses (d n : Nat) (v : Word) : (setLastPub s d n v).fuses = s.fuses := rfl
@[simp] theorem setLastPub_shell (d n : Nat) (v : Word) : (setLastPub s d n v).shell = s.shell := rfl
@[simp] theorem setLastPub_boot (d n : Nat) (v : Word) : (setLastPub s d n v).boot = s.boot := rfl
@[simp] theorem setLastPub_resp (d n : Nat) (v : Word) : (setLastPub s d n v).resp = s.resp := rfl
@[simp] theorem setLastPub_fresh (d n : Nat) (v : Word) : (setLastPub s d n v).fresh = s.fresh := rfl
@[simp] theorem reg_setLastPub (d n : Nat) (v : Word) (b : Nat) : reg (setLastPub s d n v) b = reg s b := rfl
@[simp] theorem tab_setLastPub (d n : Nat) (v : Word) (u e j : Nat) : tab (setLastPub s d n v) u e j = tab s u e j := rfl
@[simp] theorem loadByte_setLastPub (d n : Nat) (v : Word) (b : Nat) : loadByte (setLastPub s d n v) b = loadByte s b := rfl
@[simp] theorem eccAt_setLastPub (d n : Nat) (v : Word) (b : Nat) : eccAt (setLastPub s d n v) b = eccAt s b := rfl
@[simp] theorem line_setLastPub (d n : Nat) (v : Word) (e j : Nat) : line (setLastPub s d n v) e j = line s e j := rfl
@[simp] theorem slipLine_setLastPub (d n : Nat) (v : Word) (e q j : Nat) : slipLine (setLastPub s d n v) e q j = slipLine s e q j := rfl
@[simp] theorem kern_setLastPub (d n : Nat) (v : Word) (e j : Nat) : Machine.kern (setLastPub s d n v) e j = Machine.kern s e j := rfl
@[simp] theorem stew_setLastPub (d n : Nat) (v : Word) (e j : Nat) : Machine.stew (setLastPub s d n v) e j = Machine.stew s e j := rfl
@[simp] theorem podX_setLastPub (d n : Nat) (v : Word) (e j : Nat) : podX (setLastPub s d n v) e j = podX s e j := rfl
@[simp] theorem dieX_setLastPub (d n : Nat) (v : Word) (e : Nat) : Machine.dieX (setLastPub s d n v) e = Machine.dieX s e := rfl
@[simp] theorem dom_setLastPub (d n : Nat) (v : Word) (e j : Nat) : dom (setLastPub s d n v) e j = dom s e j := rfl
@[simp] theorem rowsOf_setLastPub (d n : Nat) (v : Word) (e j : Nat) : rowsOf (setLastPub s d n v) e j = rowsOf s e j := rfl
@[simp] theorem bridge_setLastPub (d n : Nat) (v : Word) (e j : Nat) : bridge (setLastPub s d n v) e j = bridge s e j := rfl
@[simp] theorem linkPort_setLastPub (d n : Nat) (v : Word) (e : Nat) : linkPort (setLastPub s d n v) e = linkPort s e := rfl
@[simp] theorem caravan_setLastPub (d n : Nat) (v : Word) (e j : Nat) : caravan (setLastPub s d n v) e j = caravan s e j := rfl
@[simp] theorem ddr_setLastPub (d n : Nat) (v : Word) (e : Nat) : Machine.ddr (setLastPub s d n v) e = Machine.ddr s e := rfl
@[simp] theorem sap_setLastPub (d n : Nat) (v : Word) (e j : Nat) : sap (setLastPub s d n v) e j = sap s e j := rfl
@[simp] theorem meter_setLastPub (d n : Nat) (v : Word) (e j : Nat) : meter (setLastPub s d n v) e j = meter s e j := rfl
@[simp] theorem gen_setLastPub (d n : Nat) (v : Word) (e j : Nat) : gen (setLastPub s d n v) e j = gen s e j := rfl
@[simp] theorem csp_setLastPub (d n : Nat) (v : Word) (e : Nat) : Machine.csp (setLastPub s d n v) e = Machine.csp s e := rfl

/-! ### `setSlip` -/

@[simp] theorem setSlip_part (d p n : Nat) (v : Slip) : (setSlip s d p n v).part = s.part := rfl
@[simp] theorem setSlip_pending (d p n : Nat) (v : Slip) : (setSlip s d p n v).pending = s.pending := rfl
@[simp] theorem setSlip_phase (d p n : Nat) (v : Slip) : (setSlip s d p n v).phase = s.phase := rfl
@[simp] theorem setSlip_regs (d p n : Nat) (v : Slip) : (setSlip s d p n v).regs = s.regs := rfl
@[simp] theorem setSlip_tabs (d p n : Nat) (v : Slip) : (setSlip s d p n v).tabs = s.tabs := rfl
@[simp] theorem setSlip_mem (d p n : Nat) (v : Slip) : (setSlip s d p n v).mem = s.mem := rfl
@[simp] theorem setSlip_ecc (d p n : Nat) (v : Slip) : (setSlip s d p n v).ecc = s.ecc := rfl
@[simp] theorem setSlip_kern (d p n : Nat) (v : Slip) : (setSlip s d p n v).kern = s.kern := rfl
@[simp] theorem setSlip_stew (d p n : Nat) (v : Slip) : (setSlip s d p n v).stew = s.stew := rfl
@[simp] theorem setSlip_lines (d p n : Nat) (v : Slip) : (setSlip s d p n v).lines = s.lines := rfl
@[simp] theorem setSlip_lastPub (d p n : Nat) (v : Slip) : (setSlip s d p n v).lastPub = s.lastPub := rfl
@[simp] theorem setSlip_pub (d p n : Nat) (v : Slip) : (setSlip s d p n v).pub = s.pub := rfl
@[simp] theorem setSlip_rows (d p n : Nat) (v : Slip) : (setSlip s d p n v).rows = s.rows := rfl
@[simp] theorem setSlip_pods (d p n : Nat) (v : Slip) : (setSlip s d p n v).pods = s.pods := rfl
@[simp] theorem setSlip_dieX (d p n : Nat) (v : Slip) : (setSlip s d p n v).dieX = s.dieX := rfl
@[simp] theorem setSlip_doms (d p n : Nat) (v : Slip) : (setSlip s d p n v).doms = s.doms := rfl
@[simp] theorem setSlip_keep (d p n : Nat) (v : Slip) : (setSlip s d p n v).keep = s.keep := rfl
@[simp] theorem setSlip_swaps (d p n : Nat) (v : Slip) : (setSlip s d p n v).swaps = s.swaps := rfl
@[simp] theorem setSlip_bridges (d p n : Nat) (v : Slip) : (setSlip s d p n v).bridges = s.bridges := rfl
@[simp] theorem setSlip_link (d p n : Nat) (v : Slip) : (setSlip s d p n v).link = s.link := rfl
@[simp] theorem setSlip_linkDev (d p n : Nat) (v : Slip) : (setSlip s d p n v).linkDev = s.linkDev := rfl
@[simp] theorem setSlip_carav (d p n : Nat) (v : Slip) : (setSlip s d p n v).carav = s.carav := rfl
@[simp] theorem setSlip_ddr (d p n : Nat) (v : Slip) : (setSlip s d p n v).ddr = s.ddr := rfl
@[simp] theorem setSlip_laEff (d p n : Nat) (v : Slip) : (setSlip s d p n v).laEff = s.laEff := rfl
@[simp] theorem setSlip_laHist (d p n : Nat) (v : Slip) : (setSlip s d p n v).laHist = s.laHist := rfl
@[simp] theorem setSlip_saps (d p n : Nat) (v : Slip) : (setSlip s d p n v).saps = s.saps := rfl
@[simp] theorem setSlip_steer (d p n : Nat) (v : Slip) : (setSlip s d p n v).steer = s.steer := rfl
@[simp] theorem setSlip_meters (d p n : Nat) (v : Slip) : (setSlip s d p n v).meters = s.meters := rfl
@[simp] theorem setSlip_gens (d p n : Nat) (v : Slip) : (setSlip s d p n v).gens = s.gens := rfl
@[simp] theorem setSlip_csp (d p n : Nat) (v : Slip) : (setSlip s d p n v).csp = s.csp := rfl
@[simp] theorem setSlip_pads (d p n : Nat) (v : Slip) : (setSlip s d p n v).pads = s.pads := rfl
@[simp] theorem setSlip_txOld (d p n : Nat) (v : Slip) : (setSlip s d p n v).txOld = s.txOld := rfl
@[simp] theorem setSlip_fuses (d p n : Nat) (v : Slip) : (setSlip s d p n v).fuses = s.fuses := rfl
@[simp] theorem setSlip_shell (d p n : Nat) (v : Slip) : (setSlip s d p n v).shell = s.shell := rfl
@[simp] theorem setSlip_boot (d p n : Nat) (v : Slip) : (setSlip s d p n v).boot = s.boot := rfl
@[simp] theorem setSlip_resp (d p n : Nat) (v : Slip) : (setSlip s d p n v).resp = s.resp := rfl
@[simp] theorem setSlip_fresh (d p n : Nat) (v : Slip) : (setSlip s d p n v).fresh = s.fresh := rfl
@[simp] theorem reg_setSlip (d p n : Nat) (v : Slip) (b : Nat) : reg (setSlip s d p n v) b = reg s b := rfl
@[simp] theorem tab_setSlip (d p n : Nat) (v : Slip) (u e j : Nat) : tab (setSlip s d p n v) u e j = tab s u e j := rfl
@[simp] theorem loadByte_setSlip (d p n : Nat) (v : Slip) (b : Nat) : loadByte (setSlip s d p n v) b = loadByte s b := rfl
@[simp] theorem eccAt_setSlip (d p n : Nat) (v : Slip) (b : Nat) : eccAt (setSlip s d p n v) b = eccAt s b := rfl
@[simp] theorem line_setSlip (d p n : Nat) (v : Slip) (e j : Nat) : line (setSlip s d p n v) e j = line s e j := rfl
@[simp] theorem lastPub_setSlip (d p n : Nat) (v : Slip) (e j : Nat) : lastPub (setSlip s d p n v) e j = lastPub s e j := rfl
@[simp] theorem kern_setSlip (d p n : Nat) (v : Slip) (e j : Nat) : Machine.kern (setSlip s d p n v) e j = Machine.kern s e j := rfl
@[simp] theorem stew_setSlip (d p n : Nat) (v : Slip) (e j : Nat) : Machine.stew (setSlip s d p n v) e j = Machine.stew s e j := rfl
@[simp] theorem podX_setSlip (d p n : Nat) (v : Slip) (e j : Nat) : podX (setSlip s d p n v) e j = podX s e j := rfl
@[simp] theorem dieX_setSlip (d p n : Nat) (v : Slip) (e : Nat) : Machine.dieX (setSlip s d p n v) e = Machine.dieX s e := rfl
@[simp] theorem dom_setSlip (d p n : Nat) (v : Slip) (e j : Nat) : dom (setSlip s d p n v) e j = dom s e j := rfl
@[simp] theorem rowsOf_setSlip (d p n : Nat) (v : Slip) (e j : Nat) : rowsOf (setSlip s d p n v) e j = rowsOf s e j := rfl
@[simp] theorem bridge_setSlip (d p n : Nat) (v : Slip) (e j : Nat) : bridge (setSlip s d p n v) e j = bridge s e j := rfl
@[simp] theorem linkPort_setSlip (d p n : Nat) (v : Slip) (e : Nat) : linkPort (setSlip s d p n v) e = linkPort s e := rfl
@[simp] theorem caravan_setSlip (d p n : Nat) (v : Slip) (e j : Nat) : caravan (setSlip s d p n v) e j = caravan s e j := rfl
@[simp] theorem ddr_setSlip (d p n : Nat) (v : Slip) (e : Nat) : Machine.ddr (setSlip s d p n v) e = Machine.ddr s e := rfl
@[simp] theorem sap_setSlip (d p n : Nat) (v : Slip) (e j : Nat) : sap (setSlip s d p n v) e j = sap s e j := rfl
@[simp] theorem meter_setSlip (d p n : Nat) (v : Slip) (e j : Nat) : meter (setSlip s d p n v) e j = meter s e j := rfl
@[simp] theorem gen_setSlip (d p n : Nat) (v : Slip) (e j : Nat) : gen (setSlip s d p n v) e j = gen s e j := rfl
@[simp] theorem csp_setSlip (d p n : Nat) (v : Slip) (e : Nat) : Machine.csp (setSlip s d p n v) e = Machine.csp s e := rfl

/-! ### `setKern` -/

@[simp] theorem setKern_part (d k : Nat) (v : Kern) : (setKern s d k v).part = s.part := rfl
@[simp] theorem setKern_pending (d k : Nat) (v : Kern) : (setKern s d k v).pending = s.pending := rfl
@[simp] theorem setKern_phase (d k : Nat) (v : Kern) : (setKern s d k v).phase = s.phase := rfl
@[simp] theorem setKern_regs (d k : Nat) (v : Kern) : (setKern s d k v).regs = s.regs := rfl
@[simp] theorem setKern_tabs (d k : Nat) (v : Kern) : (setKern s d k v).tabs = s.tabs := rfl
@[simp] theorem setKern_mem (d k : Nat) (v : Kern) : (setKern s d k v).mem = s.mem := rfl
@[simp] theorem setKern_ecc (d k : Nat) (v : Kern) : (setKern s d k v).ecc = s.ecc := rfl
@[simp] theorem setKern_stew (d k : Nat) (v : Kern) : (setKern s d k v).stew = s.stew := rfl
@[simp] theorem setKern_lines (d k : Nat) (v : Kern) : (setKern s d k v).lines = s.lines := rfl
@[simp] theorem setKern_lastPub (d k : Nat) (v : Kern) : (setKern s d k v).lastPub = s.lastPub := rfl
@[simp] theorem setKern_pub (d k : Nat) (v : Kern) : (setKern s d k v).pub = s.pub := rfl
@[simp] theorem setKern_slip (d k : Nat) (v : Kern) : (setKern s d k v).slip = s.slip := rfl
@[simp] theorem setKern_rows (d k : Nat) (v : Kern) : (setKern s d k v).rows = s.rows := rfl
@[simp] theorem setKern_pods (d k : Nat) (v : Kern) : (setKern s d k v).pods = s.pods := rfl
@[simp] theorem setKern_dieX (d k : Nat) (v : Kern) : (setKern s d k v).dieX = s.dieX := rfl
@[simp] theorem setKern_doms (d k : Nat) (v : Kern) : (setKern s d k v).doms = s.doms := rfl
@[simp] theorem setKern_keep (d k : Nat) (v : Kern) : (setKern s d k v).keep = s.keep := rfl
@[simp] theorem setKern_swaps (d k : Nat) (v : Kern) : (setKern s d k v).swaps = s.swaps := rfl
@[simp] theorem setKern_bridges (d k : Nat) (v : Kern) : (setKern s d k v).bridges = s.bridges := rfl
@[simp] theorem setKern_link (d k : Nat) (v : Kern) : (setKern s d k v).link = s.link := rfl
@[simp] theorem setKern_linkDev (d k : Nat) (v : Kern) : (setKern s d k v).linkDev = s.linkDev := rfl
@[simp] theorem setKern_carav (d k : Nat) (v : Kern) : (setKern s d k v).carav = s.carav := rfl
@[simp] theorem setKern_ddr (d k : Nat) (v : Kern) : (setKern s d k v).ddr = s.ddr := rfl
@[simp] theorem setKern_laEff (d k : Nat) (v : Kern) : (setKern s d k v).laEff = s.laEff := rfl
@[simp] theorem setKern_laHist (d k : Nat) (v : Kern) : (setKern s d k v).laHist = s.laHist := rfl
@[simp] theorem setKern_saps (d k : Nat) (v : Kern) : (setKern s d k v).saps = s.saps := rfl
@[simp] theorem setKern_steer (d k : Nat) (v : Kern) : (setKern s d k v).steer = s.steer := rfl
@[simp] theorem setKern_meters (d k : Nat) (v : Kern) : (setKern s d k v).meters = s.meters := rfl
@[simp] theorem setKern_gens (d k : Nat) (v : Kern) : (setKern s d k v).gens = s.gens := rfl
@[simp] theorem setKern_csp (d k : Nat) (v : Kern) : (setKern s d k v).csp = s.csp := rfl
@[simp] theorem setKern_pads (d k : Nat) (v : Kern) : (setKern s d k v).pads = s.pads := rfl
@[simp] theorem setKern_txOld (d k : Nat) (v : Kern) : (setKern s d k v).txOld = s.txOld := rfl
@[simp] theorem setKern_fuses (d k : Nat) (v : Kern) : (setKern s d k v).fuses = s.fuses := rfl
@[simp] theorem setKern_shell (d k : Nat) (v : Kern) : (setKern s d k v).shell = s.shell := rfl
@[simp] theorem setKern_boot (d k : Nat) (v : Kern) : (setKern s d k v).boot = s.boot := rfl
@[simp] theorem setKern_resp (d k : Nat) (v : Kern) : (setKern s d k v).resp = s.resp := rfl
@[simp] theorem setKern_fresh (d k : Nat) (v : Kern) : (setKern s d k v).fresh = s.fresh := rfl
@[simp] theorem reg_setKern (d k : Nat) (v : Kern) (b : Nat) : reg (setKern s d k v) b = reg s b := rfl
@[simp] theorem tab_setKern (d k : Nat) (v : Kern) (u e j : Nat) : tab (setKern s d k v) u e j = tab s u e j := rfl
@[simp] theorem loadByte_setKern (d k : Nat) (v : Kern) (b : Nat) : loadByte (setKern s d k v) b = loadByte s b := rfl
@[simp] theorem eccAt_setKern (d k : Nat) (v : Kern) (b : Nat) : eccAt (setKern s d k v) b = eccAt s b := rfl
@[simp] theorem line_setKern (d k : Nat) (v : Kern) (e j : Nat) : line (setKern s d k v) e j = line s e j := rfl
@[simp] theorem lastPub_setKern (d k : Nat) (v : Kern) (e j : Nat) : lastPub (setKern s d k v) e j = lastPub s e j := rfl
@[simp] theorem slipLine_setKern (d k : Nat) (v : Kern) (e q j : Nat) : slipLine (setKern s d k v) e q j = slipLine s e q j := rfl
@[simp] theorem stew_setKern (d k : Nat) (v : Kern) (e j : Nat) : Machine.stew (setKern s d k v) e j = Machine.stew s e j := rfl
@[simp] theorem podX_setKern (d k : Nat) (v : Kern) (e j : Nat) : podX (setKern s d k v) e j = podX s e j := rfl
@[simp] theorem dieX_setKern (d k : Nat) (v : Kern) (e : Nat) : Machine.dieX (setKern s d k v) e = Machine.dieX s e := rfl
@[simp] theorem dom_setKern (d k : Nat) (v : Kern) (e j : Nat) : dom (setKern s d k v) e j = dom s e j := rfl
@[simp] theorem rowsOf_setKern (d k : Nat) (v : Kern) (e j : Nat) : rowsOf (setKern s d k v) e j = rowsOf s e j := rfl
@[simp] theorem bridge_setKern (d k : Nat) (v : Kern) (e j : Nat) : bridge (setKern s d k v) e j = bridge s e j := rfl
@[simp] theorem linkPort_setKern (d k : Nat) (v : Kern) (e : Nat) : linkPort (setKern s d k v) e = linkPort s e := rfl
@[simp] theorem caravan_setKern (d k : Nat) (v : Kern) (e j : Nat) : caravan (setKern s d k v) e j = caravan s e j := rfl
@[simp] theorem ddr_setKern (d k : Nat) (v : Kern) (e : Nat) : Machine.ddr (setKern s d k v) e = Machine.ddr s e := rfl
@[simp] theorem sap_setKern (d k : Nat) (v : Kern) (e j : Nat) : sap (setKern s d k v) e j = sap s e j := rfl
@[simp] theorem meter_setKern (d k : Nat) (v : Kern) (e j : Nat) : meter (setKern s d k v) e j = meter s e j := rfl
@[simp] theorem gen_setKern (d k : Nat) (v : Kern) (e j : Nat) : gen (setKern s d k v) e j = gen s e j := rfl
@[simp] theorem csp_setKern (d k : Nat) (v : Kern) (e : Nat) : Machine.csp (setKern s d k v) e = Machine.csp s e := rfl

/-! ### `setStew` -/

@[simp] theorem setStew_part (d i : Nat) (v : Stew) : (setStew s d i v).part = s.part := rfl
@[simp] theorem setStew_pending (d i : Nat) (v : Stew) : (setStew s d i v).pending = s.pending := rfl
@[simp] theorem setStew_phase (d i : Nat) (v : Stew) : (setStew s d i v).phase = s.phase := rfl
@[simp] theorem setStew_regs (d i : Nat) (v : Stew) : (setStew s d i v).regs = s.regs := rfl
@[simp] theorem setStew_tabs (d i : Nat) (v : Stew) : (setStew s d i v).tabs = s.tabs := rfl
@[simp] theorem setStew_mem (d i : Nat) (v : Stew) : (setStew s d i v).mem = s.mem := rfl
@[simp] theorem setStew_ecc (d i : Nat) (v : Stew) : (setStew s d i v).ecc = s.ecc := rfl
@[simp] theorem setStew_kern (d i : Nat) (v : Stew) : (setStew s d i v).kern = s.kern := rfl
@[simp] theorem setStew_lines (d i : Nat) (v : Stew) : (setStew s d i v).lines = s.lines := rfl
@[simp] theorem setStew_lastPub (d i : Nat) (v : Stew) : (setStew s d i v).lastPub = s.lastPub := rfl
@[simp] theorem setStew_pub (d i : Nat) (v : Stew) : (setStew s d i v).pub = s.pub := rfl
@[simp] theorem setStew_slip (d i : Nat) (v : Stew) : (setStew s d i v).slip = s.slip := rfl
@[simp] theorem setStew_rows (d i : Nat) (v : Stew) : (setStew s d i v).rows = s.rows := rfl
@[simp] theorem setStew_pods (d i : Nat) (v : Stew) : (setStew s d i v).pods = s.pods := rfl
@[simp] theorem setStew_dieX (d i : Nat) (v : Stew) : (setStew s d i v).dieX = s.dieX := rfl
@[simp] theorem setStew_doms (d i : Nat) (v : Stew) : (setStew s d i v).doms = s.doms := rfl
@[simp] theorem setStew_keep (d i : Nat) (v : Stew) : (setStew s d i v).keep = s.keep := rfl
@[simp] theorem setStew_swaps (d i : Nat) (v : Stew) : (setStew s d i v).swaps = s.swaps := rfl
@[simp] theorem setStew_bridges (d i : Nat) (v : Stew) : (setStew s d i v).bridges = s.bridges := rfl
@[simp] theorem setStew_link (d i : Nat) (v : Stew) : (setStew s d i v).link = s.link := rfl
@[simp] theorem setStew_linkDev (d i : Nat) (v : Stew) : (setStew s d i v).linkDev = s.linkDev := rfl
@[simp] theorem setStew_carav (d i : Nat) (v : Stew) : (setStew s d i v).carav = s.carav := rfl
@[simp] theorem setStew_ddr (d i : Nat) (v : Stew) : (setStew s d i v).ddr = s.ddr := rfl
@[simp] theorem setStew_laEff (d i : Nat) (v : Stew) : (setStew s d i v).laEff = s.laEff := rfl
@[simp] theorem setStew_laHist (d i : Nat) (v : Stew) : (setStew s d i v).laHist = s.laHist := rfl
@[simp] theorem setStew_saps (d i : Nat) (v : Stew) : (setStew s d i v).saps = s.saps := rfl
@[simp] theorem setStew_steer (d i : Nat) (v : Stew) : (setStew s d i v).steer = s.steer := rfl
@[simp] theorem setStew_meters (d i : Nat) (v : Stew) : (setStew s d i v).meters = s.meters := rfl
@[simp] theorem setStew_gens (d i : Nat) (v : Stew) : (setStew s d i v).gens = s.gens := rfl
@[simp] theorem setStew_csp (d i : Nat) (v : Stew) : (setStew s d i v).csp = s.csp := rfl
@[simp] theorem setStew_pads (d i : Nat) (v : Stew) : (setStew s d i v).pads = s.pads := rfl
@[simp] theorem setStew_txOld (d i : Nat) (v : Stew) : (setStew s d i v).txOld = s.txOld := rfl
@[simp] theorem setStew_fuses (d i : Nat) (v : Stew) : (setStew s d i v).fuses = s.fuses := rfl
@[simp] theorem setStew_shell (d i : Nat) (v : Stew) : (setStew s d i v).shell = s.shell := rfl
@[simp] theorem setStew_boot (d i : Nat) (v : Stew) : (setStew s d i v).boot = s.boot := rfl
@[simp] theorem setStew_resp (d i : Nat) (v : Stew) : (setStew s d i v).resp = s.resp := rfl
@[simp] theorem setStew_fresh (d i : Nat) (v : Stew) : (setStew s d i v).fresh = s.fresh := rfl
@[simp] theorem reg_setStew (d i : Nat) (v : Stew) (b : Nat) : reg (setStew s d i v) b = reg s b := rfl
@[simp] theorem tab_setStew (d i : Nat) (v : Stew) (u e j : Nat) : tab (setStew s d i v) u e j = tab s u e j := rfl
@[simp] theorem loadByte_setStew (d i : Nat) (v : Stew) (b : Nat) : loadByte (setStew s d i v) b = loadByte s b := rfl
@[simp] theorem eccAt_setStew (d i : Nat) (v : Stew) (b : Nat) : eccAt (setStew s d i v) b = eccAt s b := rfl
@[simp] theorem line_setStew (d i : Nat) (v : Stew) (e j : Nat) : line (setStew s d i v) e j = line s e j := rfl
@[simp] theorem lastPub_setStew (d i : Nat) (v : Stew) (e j : Nat) : lastPub (setStew s d i v) e j = lastPub s e j := rfl
@[simp] theorem slipLine_setStew (d i : Nat) (v : Stew) (e q j : Nat) : slipLine (setStew s d i v) e q j = slipLine s e q j := rfl
@[simp] theorem kern_setStew (d i : Nat) (v : Stew) (e j : Nat) : Machine.kern (setStew s d i v) e j = Machine.kern s e j := rfl
@[simp] theorem podX_setStew (d i : Nat) (v : Stew) (e j : Nat) : podX (setStew s d i v) e j = podX s e j := rfl
@[simp] theorem dieX_setStew (d i : Nat) (v : Stew) (e : Nat) : Machine.dieX (setStew s d i v) e = Machine.dieX s e := rfl
@[simp] theorem dom_setStew (d i : Nat) (v : Stew) (e j : Nat) : dom (setStew s d i v) e j = dom s e j := rfl
@[simp] theorem rowsOf_setStew (d i : Nat) (v : Stew) (e j : Nat) : rowsOf (setStew s d i v) e j = rowsOf s e j := rfl
@[simp] theorem bridge_setStew (d i : Nat) (v : Stew) (e j : Nat) : bridge (setStew s d i v) e j = bridge s e j := rfl
@[simp] theorem linkPort_setStew (d i : Nat) (v : Stew) (e : Nat) : linkPort (setStew s d i v) e = linkPort s e := rfl
@[simp] theorem caravan_setStew (d i : Nat) (v : Stew) (e j : Nat) : caravan (setStew s d i v) e j = caravan s e j := rfl
@[simp] theorem ddr_setStew (d i : Nat) (v : Stew) (e : Nat) : Machine.ddr (setStew s d i v) e = Machine.ddr s e := rfl
@[simp] theorem sap_setStew (d i : Nat) (v : Stew) (e j : Nat) : sap (setStew s d i v) e j = sap s e j := rfl
@[simp] theorem meter_setStew (d i : Nat) (v : Stew) (e j : Nat) : meter (setStew s d i v) e j = meter s e j := rfl
@[simp] theorem gen_setStew (d i : Nat) (v : Stew) (e j : Nat) : gen (setStew s d i v) e j = gen s e j := rfl
@[simp] theorem csp_setStew (d i : Nat) (v : Stew) (e : Nat) : Machine.csp (setStew s d i v) e = Machine.csp s e := rfl

/-! ### `setPodX` -/

@[simp] theorem setPodX_part (d p : Nat) (v : PodX) : (setPodX s d p v).part = s.part := rfl
@[simp] theorem setPodX_pending (d p : Nat) (v : PodX) : (setPodX s d p v).pending = s.pending := rfl
@[simp] theorem setPodX_phase (d p : Nat) (v : PodX) : (setPodX s d p v).phase = s.phase := rfl
@[simp] theorem setPodX_regs (d p : Nat) (v : PodX) : (setPodX s d p v).regs = s.regs := rfl
@[simp] theorem setPodX_tabs (d p : Nat) (v : PodX) : (setPodX s d p v).tabs = s.tabs := rfl
@[simp] theorem setPodX_mem (d p : Nat) (v : PodX) : (setPodX s d p v).mem = s.mem := rfl
@[simp] theorem setPodX_ecc (d p : Nat) (v : PodX) : (setPodX s d p v).ecc = s.ecc := rfl
@[simp] theorem setPodX_kern (d p : Nat) (v : PodX) : (setPodX s d p v).kern = s.kern := rfl
@[simp] theorem setPodX_stew (d p : Nat) (v : PodX) : (setPodX s d p v).stew = s.stew := rfl
@[simp] theorem setPodX_lines (d p : Nat) (v : PodX) : (setPodX s d p v).lines = s.lines := rfl
@[simp] theorem setPodX_lastPub (d p : Nat) (v : PodX) : (setPodX s d p v).lastPub = s.lastPub := rfl
@[simp] theorem setPodX_pub (d p : Nat) (v : PodX) : (setPodX s d p v).pub = s.pub := rfl
@[simp] theorem setPodX_slip (d p : Nat) (v : PodX) : (setPodX s d p v).slip = s.slip := rfl
@[simp] theorem setPodX_rows (d p : Nat) (v : PodX) : (setPodX s d p v).rows = s.rows := rfl
@[simp] theorem setPodX_dieX (d p : Nat) (v : PodX) : (setPodX s d p v).dieX = s.dieX := rfl
@[simp] theorem setPodX_doms (d p : Nat) (v : PodX) : (setPodX s d p v).doms = s.doms := rfl
@[simp] theorem setPodX_keep (d p : Nat) (v : PodX) : (setPodX s d p v).keep = s.keep := rfl
@[simp] theorem setPodX_swaps (d p : Nat) (v : PodX) : (setPodX s d p v).swaps = s.swaps := rfl
@[simp] theorem setPodX_bridges (d p : Nat) (v : PodX) : (setPodX s d p v).bridges = s.bridges := rfl
@[simp] theorem setPodX_link (d p : Nat) (v : PodX) : (setPodX s d p v).link = s.link := rfl
@[simp] theorem setPodX_linkDev (d p : Nat) (v : PodX) : (setPodX s d p v).linkDev = s.linkDev := rfl
@[simp] theorem setPodX_carav (d p : Nat) (v : PodX) : (setPodX s d p v).carav = s.carav := rfl
@[simp] theorem setPodX_ddr (d p : Nat) (v : PodX) : (setPodX s d p v).ddr = s.ddr := rfl
@[simp] theorem setPodX_laEff (d p : Nat) (v : PodX) : (setPodX s d p v).laEff = s.laEff := rfl
@[simp] theorem setPodX_laHist (d p : Nat) (v : PodX) : (setPodX s d p v).laHist = s.laHist := rfl
@[simp] theorem setPodX_saps (d p : Nat) (v : PodX) : (setPodX s d p v).saps = s.saps := rfl
@[simp] theorem setPodX_steer (d p : Nat) (v : PodX) : (setPodX s d p v).steer = s.steer := rfl
@[simp] theorem setPodX_meters (d p : Nat) (v : PodX) : (setPodX s d p v).meters = s.meters := rfl
@[simp] theorem setPodX_gens (d p : Nat) (v : PodX) : (setPodX s d p v).gens = s.gens := rfl
@[simp] theorem setPodX_csp (d p : Nat) (v : PodX) : (setPodX s d p v).csp = s.csp := rfl
@[simp] theorem setPodX_pads (d p : Nat) (v : PodX) : (setPodX s d p v).pads = s.pads := rfl
@[simp] theorem setPodX_txOld (d p : Nat) (v : PodX) : (setPodX s d p v).txOld = s.txOld := rfl
@[simp] theorem setPodX_fuses (d p : Nat) (v : PodX) : (setPodX s d p v).fuses = s.fuses := rfl
@[simp] theorem setPodX_shell (d p : Nat) (v : PodX) : (setPodX s d p v).shell = s.shell := rfl
@[simp] theorem setPodX_boot (d p : Nat) (v : PodX) : (setPodX s d p v).boot = s.boot := rfl
@[simp] theorem setPodX_resp (d p : Nat) (v : PodX) : (setPodX s d p v).resp = s.resp := rfl
@[simp] theorem setPodX_fresh (d p : Nat) (v : PodX) : (setPodX s d p v).fresh = s.fresh := rfl
@[simp] theorem reg_setPodX (d p : Nat) (v : PodX) (b : Nat) : reg (setPodX s d p v) b = reg s b := rfl
@[simp] theorem tab_setPodX (d p : Nat) (v : PodX) (u e j : Nat) : tab (setPodX s d p v) u e j = tab s u e j := rfl
@[simp] theorem loadByte_setPodX (d p : Nat) (v : PodX) (b : Nat) : loadByte (setPodX s d p v) b = loadByte s b := rfl
@[simp] theorem eccAt_setPodX (d p : Nat) (v : PodX) (b : Nat) : eccAt (setPodX s d p v) b = eccAt s b := rfl
@[simp] theorem line_setPodX (d p : Nat) (v : PodX) (e j : Nat) : line (setPodX s d p v) e j = line s e j := rfl
@[simp] theorem lastPub_setPodX (d p : Nat) (v : PodX) (e j : Nat) : lastPub (setPodX s d p v) e j = lastPub s e j := rfl
@[simp] theorem slipLine_setPodX (d p : Nat) (v : PodX) (e q j : Nat) : slipLine (setPodX s d p v) e q j = slipLine s e q j := rfl
@[simp] theorem kern_setPodX (d p : Nat) (v : PodX) (e j : Nat) : Machine.kern (setPodX s d p v) e j = Machine.kern s e j := rfl
@[simp] theorem stew_setPodX (d p : Nat) (v : PodX) (e j : Nat) : Machine.stew (setPodX s d p v) e j = Machine.stew s e j := rfl
@[simp] theorem dieX_setPodX (d p : Nat) (v : PodX) (e : Nat) : Machine.dieX (setPodX s d p v) e = Machine.dieX s e := rfl
@[simp] theorem dom_setPodX (d p : Nat) (v : PodX) (e j : Nat) : dom (setPodX s d p v) e j = dom s e j := rfl
@[simp] theorem rowsOf_setPodX (d p : Nat) (v : PodX) (e j : Nat) : rowsOf (setPodX s d p v) e j = rowsOf s e j := rfl
@[simp] theorem bridge_setPodX (d p : Nat) (v : PodX) (e j : Nat) : bridge (setPodX s d p v) e j = bridge s e j := rfl
@[simp] theorem linkPort_setPodX (d p : Nat) (v : PodX) (e : Nat) : linkPort (setPodX s d p v) e = linkPort s e := rfl
@[simp] theorem caravan_setPodX (d p : Nat) (v : PodX) (e j : Nat) : caravan (setPodX s d p v) e j = caravan s e j := rfl
@[simp] theorem ddr_setPodX (d p : Nat) (v : PodX) (e : Nat) : Machine.ddr (setPodX s d p v) e = Machine.ddr s e := rfl
@[simp] theorem sap_setPodX (d p : Nat) (v : PodX) (e j : Nat) : sap (setPodX s d p v) e j = sap s e j := rfl
@[simp] theorem meter_setPodX (d p : Nat) (v : PodX) (e j : Nat) : meter (setPodX s d p v) e j = meter s e j := rfl
@[simp] theorem gen_setPodX (d p : Nat) (v : PodX) (e j : Nat) : gen (setPodX s d p v) e j = gen s e j := rfl
@[simp] theorem csp_setPodX (d p : Nat) (v : PodX) (e : Nat) : Machine.csp (setPodX s d p v) e = Machine.csp s e := rfl

/-! ### `setDieX` -/

@[simp] theorem setDieX_part (d : Nat) (v : DieX) : (setDieX s d v).part = s.part := rfl
@[simp] theorem setDieX_pending (d : Nat) (v : DieX) : (setDieX s d v).pending = s.pending := rfl
@[simp] theorem setDieX_phase (d : Nat) (v : DieX) : (setDieX s d v).phase = s.phase := rfl
@[simp] theorem setDieX_regs (d : Nat) (v : DieX) : (setDieX s d v).regs = s.regs := rfl
@[simp] theorem setDieX_tabs (d : Nat) (v : DieX) : (setDieX s d v).tabs = s.tabs := rfl
@[simp] theorem setDieX_mem (d : Nat) (v : DieX) : (setDieX s d v).mem = s.mem := rfl
@[simp] theorem setDieX_ecc (d : Nat) (v : DieX) : (setDieX s d v).ecc = s.ecc := rfl
@[simp] theorem setDieX_kern (d : Nat) (v : DieX) : (setDieX s d v).kern = s.kern := rfl
@[simp] theorem setDieX_stew (d : Nat) (v : DieX) : (setDieX s d v).stew = s.stew := rfl
@[simp] theorem setDieX_lines (d : Nat) (v : DieX) : (setDieX s d v).lines = s.lines := rfl
@[simp] theorem setDieX_lastPub (d : Nat) (v : DieX) : (setDieX s d v).lastPub = s.lastPub := rfl
@[simp] theorem setDieX_pub (d : Nat) (v : DieX) : (setDieX s d v).pub = s.pub := rfl
@[simp] theorem setDieX_slip (d : Nat) (v : DieX) : (setDieX s d v).slip = s.slip := rfl
@[simp] theorem setDieX_rows (d : Nat) (v : DieX) : (setDieX s d v).rows = s.rows := rfl
@[simp] theorem setDieX_pods (d : Nat) (v : DieX) : (setDieX s d v).pods = s.pods := rfl
@[simp] theorem setDieX_doms (d : Nat) (v : DieX) : (setDieX s d v).doms = s.doms := rfl
@[simp] theorem setDieX_keep (d : Nat) (v : DieX) : (setDieX s d v).keep = s.keep := rfl
@[simp] theorem setDieX_swaps (d : Nat) (v : DieX) : (setDieX s d v).swaps = s.swaps := rfl
@[simp] theorem setDieX_bridges (d : Nat) (v : DieX) : (setDieX s d v).bridges = s.bridges := rfl
@[simp] theorem setDieX_link (d : Nat) (v : DieX) : (setDieX s d v).link = s.link := rfl
@[simp] theorem setDieX_linkDev (d : Nat) (v : DieX) : (setDieX s d v).linkDev = s.linkDev := rfl
@[simp] theorem setDieX_carav (d : Nat) (v : DieX) : (setDieX s d v).carav = s.carav := rfl
@[simp] theorem setDieX_ddr (d : Nat) (v : DieX) : (setDieX s d v).ddr = s.ddr := rfl
@[simp] theorem setDieX_laEff (d : Nat) (v : DieX) : (setDieX s d v).laEff = s.laEff := rfl
@[simp] theorem setDieX_laHist (d : Nat) (v : DieX) : (setDieX s d v).laHist = s.laHist := rfl
@[simp] theorem setDieX_saps (d : Nat) (v : DieX) : (setDieX s d v).saps = s.saps := rfl
@[simp] theorem setDieX_steer (d : Nat) (v : DieX) : (setDieX s d v).steer = s.steer := rfl
@[simp] theorem setDieX_meters (d : Nat) (v : DieX) : (setDieX s d v).meters = s.meters := rfl
@[simp] theorem setDieX_gens (d : Nat) (v : DieX) : (setDieX s d v).gens = s.gens := rfl
@[simp] theorem setDieX_csp (d : Nat) (v : DieX) : (setDieX s d v).csp = s.csp := rfl
@[simp] theorem setDieX_pads (d : Nat) (v : DieX) : (setDieX s d v).pads = s.pads := rfl
@[simp] theorem setDieX_txOld (d : Nat) (v : DieX) : (setDieX s d v).txOld = s.txOld := rfl
@[simp] theorem setDieX_fuses (d : Nat) (v : DieX) : (setDieX s d v).fuses = s.fuses := rfl
@[simp] theorem setDieX_shell (d : Nat) (v : DieX) : (setDieX s d v).shell = s.shell := rfl
@[simp] theorem setDieX_boot (d : Nat) (v : DieX) : (setDieX s d v).boot = s.boot := rfl
@[simp] theorem setDieX_resp (d : Nat) (v : DieX) : (setDieX s d v).resp = s.resp := rfl
@[simp] theorem setDieX_fresh (d : Nat) (v : DieX) : (setDieX s d v).fresh = s.fresh := rfl
@[simp] theorem reg_setDieX (d : Nat) (v : DieX) (b : Nat) : reg (setDieX s d v) b = reg s b := rfl
@[simp] theorem tab_setDieX (d : Nat) (v : DieX) (u e j : Nat) : tab (setDieX s d v) u e j = tab s u e j := rfl
@[simp] theorem loadByte_setDieX (d : Nat) (v : DieX) (b : Nat) : loadByte (setDieX s d v) b = loadByte s b := rfl
@[simp] theorem eccAt_setDieX (d : Nat) (v : DieX) (b : Nat) : eccAt (setDieX s d v) b = eccAt s b := rfl
@[simp] theorem line_setDieX (d : Nat) (v : DieX) (e j : Nat) : line (setDieX s d v) e j = line s e j := rfl
@[simp] theorem lastPub_setDieX (d : Nat) (v : DieX) (e j : Nat) : lastPub (setDieX s d v) e j = lastPub s e j := rfl
@[simp] theorem slipLine_setDieX (d : Nat) (v : DieX) (e q j : Nat) : slipLine (setDieX s d v) e q j = slipLine s e q j := rfl
@[simp] theorem kern_setDieX (d : Nat) (v : DieX) (e j : Nat) : Machine.kern (setDieX s d v) e j = Machine.kern s e j := rfl
@[simp] theorem stew_setDieX (d : Nat) (v : DieX) (e j : Nat) : Machine.stew (setDieX s d v) e j = Machine.stew s e j := rfl
@[simp] theorem podX_setDieX (d : Nat) (v : DieX) (e j : Nat) : podX (setDieX s d v) e j = podX s e j := rfl
@[simp] theorem dom_setDieX (d : Nat) (v : DieX) (e j : Nat) : dom (setDieX s d v) e j = dom s e j := rfl
@[simp] theorem rowsOf_setDieX (d : Nat) (v : DieX) (e j : Nat) : rowsOf (setDieX s d v) e j = rowsOf s e j := rfl
@[simp] theorem bridge_setDieX (d : Nat) (v : DieX) (e j : Nat) : bridge (setDieX s d v) e j = bridge s e j := rfl
@[simp] theorem linkPort_setDieX (d : Nat) (v : DieX) (e : Nat) : linkPort (setDieX s d v) e = linkPort s e := rfl
@[simp] theorem caravan_setDieX (d : Nat) (v : DieX) (e j : Nat) : caravan (setDieX s d v) e j = caravan s e j := rfl
@[simp] theorem ddr_setDieX (d : Nat) (v : DieX) (e : Nat) : Machine.ddr (setDieX s d v) e = Machine.ddr s e := rfl
@[simp] theorem sap_setDieX (d : Nat) (v : DieX) (e j : Nat) : sap (setDieX s d v) e j = sap s e j := rfl
@[simp] theorem meter_setDieX (d : Nat) (v : DieX) (e j : Nat) : meter (setDieX s d v) e j = meter s e j := rfl
@[simp] theorem gen_setDieX (d : Nat) (v : DieX) (e j : Nat) : gen (setDieX s d v) e j = gen s e j := rfl
@[simp] theorem csp_setDieX (d : Nat) (v : DieX) (e : Nat) : Machine.csp (setDieX s d v) e = Machine.csp s e := rfl

/-! ### `setDom` -/

@[simp] theorem setDom_part (d m : Nat) (v : DomX) : (setDom s d m v).part = s.part := rfl
@[simp] theorem setDom_pending (d m : Nat) (v : DomX) : (setDom s d m v).pending = s.pending := rfl
@[simp] theorem setDom_phase (d m : Nat) (v : DomX) : (setDom s d m v).phase = s.phase := rfl
@[simp] theorem setDom_regs (d m : Nat) (v : DomX) : (setDom s d m v).regs = s.regs := rfl
@[simp] theorem setDom_tabs (d m : Nat) (v : DomX) : (setDom s d m v).tabs = s.tabs := rfl
@[simp] theorem setDom_mem (d m : Nat) (v : DomX) : (setDom s d m v).mem = s.mem := rfl
@[simp] theorem setDom_ecc (d m : Nat) (v : DomX) : (setDom s d m v).ecc = s.ecc := rfl
@[simp] theorem setDom_kern (d m : Nat) (v : DomX) : (setDom s d m v).kern = s.kern := rfl
@[simp] theorem setDom_stew (d m : Nat) (v : DomX) : (setDom s d m v).stew = s.stew := rfl
@[simp] theorem setDom_lines (d m : Nat) (v : DomX) : (setDom s d m v).lines = s.lines := rfl
@[simp] theorem setDom_lastPub (d m : Nat) (v : DomX) : (setDom s d m v).lastPub = s.lastPub := rfl
@[simp] theorem setDom_pub (d m : Nat) (v : DomX) : (setDom s d m v).pub = s.pub := rfl
@[simp] theorem setDom_slip (d m : Nat) (v : DomX) : (setDom s d m v).slip = s.slip := rfl
@[simp] theorem setDom_rows (d m : Nat) (v : DomX) : (setDom s d m v).rows = s.rows := rfl
@[simp] theorem setDom_pods (d m : Nat) (v : DomX) : (setDom s d m v).pods = s.pods := rfl
@[simp] theorem setDom_dieX (d m : Nat) (v : DomX) : (setDom s d m v).dieX = s.dieX := rfl
@[simp] theorem setDom_keep (d m : Nat) (v : DomX) : (setDom s d m v).keep = s.keep := rfl
@[simp] theorem setDom_swaps (d m : Nat) (v : DomX) : (setDom s d m v).swaps = s.swaps := rfl
@[simp] theorem setDom_bridges (d m : Nat) (v : DomX) : (setDom s d m v).bridges = s.bridges := rfl
@[simp] theorem setDom_link (d m : Nat) (v : DomX) : (setDom s d m v).link = s.link := rfl
@[simp] theorem setDom_linkDev (d m : Nat) (v : DomX) : (setDom s d m v).linkDev = s.linkDev := rfl
@[simp] theorem setDom_carav (d m : Nat) (v : DomX) : (setDom s d m v).carav = s.carav := rfl
@[simp] theorem setDom_ddr (d m : Nat) (v : DomX) : (setDom s d m v).ddr = s.ddr := rfl
@[simp] theorem setDom_laEff (d m : Nat) (v : DomX) : (setDom s d m v).laEff = s.laEff := rfl
@[simp] theorem setDom_laHist (d m : Nat) (v : DomX) : (setDom s d m v).laHist = s.laHist := rfl
@[simp] theorem setDom_saps (d m : Nat) (v : DomX) : (setDom s d m v).saps = s.saps := rfl
@[simp] theorem setDom_steer (d m : Nat) (v : DomX) : (setDom s d m v).steer = s.steer := rfl
@[simp] theorem setDom_meters (d m : Nat) (v : DomX) : (setDom s d m v).meters = s.meters := rfl
@[simp] theorem setDom_gens (d m : Nat) (v : DomX) : (setDom s d m v).gens = s.gens := rfl
@[simp] theorem setDom_csp (d m : Nat) (v : DomX) : (setDom s d m v).csp = s.csp := rfl
@[simp] theorem setDom_pads (d m : Nat) (v : DomX) : (setDom s d m v).pads = s.pads := rfl
@[simp] theorem setDom_txOld (d m : Nat) (v : DomX) : (setDom s d m v).txOld = s.txOld := rfl
@[simp] theorem setDom_fuses (d m : Nat) (v : DomX) : (setDom s d m v).fuses = s.fuses := rfl
@[simp] theorem setDom_shell (d m : Nat) (v : DomX) : (setDom s d m v).shell = s.shell := rfl
@[simp] theorem setDom_boot (d m : Nat) (v : DomX) : (setDom s d m v).boot = s.boot := rfl
@[simp] theorem setDom_resp (d m : Nat) (v : DomX) : (setDom s d m v).resp = s.resp := rfl
@[simp] theorem setDom_fresh (d m : Nat) (v : DomX) : (setDom s d m v).fresh = s.fresh := rfl
@[simp] theorem reg_setDom (d m : Nat) (v : DomX) (b : Nat) : reg (setDom s d m v) b = reg s b := rfl
@[simp] theorem tab_setDom (d m : Nat) (v : DomX) (u e j : Nat) : tab (setDom s d m v) u e j = tab s u e j := rfl
@[simp] theorem loadByte_setDom (d m : Nat) (v : DomX) (b : Nat) : loadByte (setDom s d m v) b = loadByte s b := rfl
@[simp] theorem eccAt_setDom (d m : Nat) (v : DomX) (b : Nat) : eccAt (setDom s d m v) b = eccAt s b := rfl
@[simp] theorem line_setDom (d m : Nat) (v : DomX) (e j : Nat) : line (setDom s d m v) e j = line s e j := rfl
@[simp] theorem lastPub_setDom (d m : Nat) (v : DomX) (e j : Nat) : lastPub (setDom s d m v) e j = lastPub s e j := rfl
@[simp] theorem slipLine_setDom (d m : Nat) (v : DomX) (e q j : Nat) : slipLine (setDom s d m v) e q j = slipLine s e q j := rfl
@[simp] theorem kern_setDom (d m : Nat) (v : DomX) (e j : Nat) : Machine.kern (setDom s d m v) e j = Machine.kern s e j := rfl
@[simp] theorem stew_setDom (d m : Nat) (v : DomX) (e j : Nat) : Machine.stew (setDom s d m v) e j = Machine.stew s e j := rfl
@[simp] theorem podX_setDom (d m : Nat) (v : DomX) (e j : Nat) : podX (setDom s d m v) e j = podX s e j := rfl
@[simp] theorem dieX_setDom (d m : Nat) (v : DomX) (e : Nat) : Machine.dieX (setDom s d m v) e = Machine.dieX s e := rfl
@[simp] theorem rowsOf_setDom (d m : Nat) (v : DomX) (e j : Nat) : rowsOf (setDom s d m v) e j = rowsOf s e j := rfl
@[simp] theorem bridge_setDom (d m : Nat) (v : DomX) (e j : Nat) : bridge (setDom s d m v) e j = bridge s e j := rfl
@[simp] theorem linkPort_setDom (d m : Nat) (v : DomX) (e : Nat) : linkPort (setDom s d m v) e = linkPort s e := rfl
@[simp] theorem caravan_setDom (d m : Nat) (v : DomX) (e j : Nat) : caravan (setDom s d m v) e j = caravan s e j := rfl
@[simp] theorem ddr_setDom (d m : Nat) (v : DomX) (e : Nat) : Machine.ddr (setDom s d m v) e = Machine.ddr s e := rfl
@[simp] theorem sap_setDom (d m : Nat) (v : DomX) (e j : Nat) : sap (setDom s d m v) e j = sap s e j := rfl
@[simp] theorem meter_setDom (d m : Nat) (v : DomX) (e j : Nat) : meter (setDom s d m v) e j = meter s e j := rfl
@[simp] theorem gen_setDom (d m : Nat) (v : DomX) (e j : Nat) : gen (setDom s d m v) e j = gen s e j := rfl
@[simp] theorem csp_setDom (d m : Nat) (v : DomX) (e : Nat) : Machine.csp (setDom s d m v) e = Machine.csp s e := rfl

/-! ### `setRows` -/

@[simp] theorem setRows_part (d p : Nat) (v : Rows) : (setRows s d p v).part = s.part := rfl
@[simp] theorem setRows_pending (d p : Nat) (v : Rows) : (setRows s d p v).pending = s.pending := rfl
@[simp] theorem setRows_phase (d p : Nat) (v : Rows) : (setRows s d p v).phase = s.phase := rfl
@[simp] theorem setRows_regs (d p : Nat) (v : Rows) : (setRows s d p v).regs = s.regs := rfl
@[simp] theorem setRows_tabs (d p : Nat) (v : Rows) : (setRows s d p v).tabs = s.tabs := rfl
@[simp] theorem setRows_mem (d p : Nat) (v : Rows) : (setRows s d p v).mem = s.mem := rfl
@[simp] theorem setRows_ecc (d p : Nat) (v : Rows) : (setRows s d p v).ecc = s.ecc := rfl
@[simp] theorem setRows_kern (d p : Nat) (v : Rows) : (setRows s d p v).kern = s.kern := rfl
@[simp] theorem setRows_stew (d p : Nat) (v : Rows) : (setRows s d p v).stew = s.stew := rfl
@[simp] theorem setRows_lines (d p : Nat) (v : Rows) : (setRows s d p v).lines = s.lines := rfl
@[simp] theorem setRows_lastPub (d p : Nat) (v : Rows) : (setRows s d p v).lastPub = s.lastPub := rfl
@[simp] theorem setRows_pub (d p : Nat) (v : Rows) : (setRows s d p v).pub = s.pub := rfl
@[simp] theorem setRows_slip (d p : Nat) (v : Rows) : (setRows s d p v).slip = s.slip := rfl
@[simp] theorem setRows_pods (d p : Nat) (v : Rows) : (setRows s d p v).pods = s.pods := rfl
@[simp] theorem setRows_dieX (d p : Nat) (v : Rows) : (setRows s d p v).dieX = s.dieX := rfl
@[simp] theorem setRows_doms (d p : Nat) (v : Rows) : (setRows s d p v).doms = s.doms := rfl
@[simp] theorem setRows_keep (d p : Nat) (v : Rows) : (setRows s d p v).keep = s.keep := rfl
@[simp] theorem setRows_swaps (d p : Nat) (v : Rows) : (setRows s d p v).swaps = s.swaps := rfl
@[simp] theorem setRows_bridges (d p : Nat) (v : Rows) : (setRows s d p v).bridges = s.bridges := rfl
@[simp] theorem setRows_link (d p : Nat) (v : Rows) : (setRows s d p v).link = s.link := rfl
@[simp] theorem setRows_linkDev (d p : Nat) (v : Rows) : (setRows s d p v).linkDev = s.linkDev := rfl
@[simp] theorem setRows_carav (d p : Nat) (v : Rows) : (setRows s d p v).carav = s.carav := rfl
@[simp] theorem setRows_ddr (d p : Nat) (v : Rows) : (setRows s d p v).ddr = s.ddr := rfl
@[simp] theorem setRows_laEff (d p : Nat) (v : Rows) : (setRows s d p v).laEff = s.laEff := rfl
@[simp] theorem setRows_laHist (d p : Nat) (v : Rows) : (setRows s d p v).laHist = s.laHist := rfl
@[simp] theorem setRows_saps (d p : Nat) (v : Rows) : (setRows s d p v).saps = s.saps := rfl
@[simp] theorem setRows_steer (d p : Nat) (v : Rows) : (setRows s d p v).steer = s.steer := rfl
@[simp] theorem setRows_meters (d p : Nat) (v : Rows) : (setRows s d p v).meters = s.meters := rfl
@[simp] theorem setRows_gens (d p : Nat) (v : Rows) : (setRows s d p v).gens = s.gens := rfl
@[simp] theorem setRows_csp (d p : Nat) (v : Rows) : (setRows s d p v).csp = s.csp := rfl
@[simp] theorem setRows_pads (d p : Nat) (v : Rows) : (setRows s d p v).pads = s.pads := rfl
@[simp] theorem setRows_txOld (d p : Nat) (v : Rows) : (setRows s d p v).txOld = s.txOld := rfl
@[simp] theorem setRows_fuses (d p : Nat) (v : Rows) : (setRows s d p v).fuses = s.fuses := rfl
@[simp] theorem setRows_shell (d p : Nat) (v : Rows) : (setRows s d p v).shell = s.shell := rfl
@[simp] theorem setRows_boot (d p : Nat) (v : Rows) : (setRows s d p v).boot = s.boot := rfl
@[simp] theorem setRows_resp (d p : Nat) (v : Rows) : (setRows s d p v).resp = s.resp := rfl
@[simp] theorem setRows_fresh (d p : Nat) (v : Rows) : (setRows s d p v).fresh = s.fresh := rfl
@[simp] theorem reg_setRows (d p : Nat) (v : Rows) (b : Nat) : reg (setRows s d p v) b = reg s b := rfl
@[simp] theorem tab_setRows (d p : Nat) (v : Rows) (u e j : Nat) : tab (setRows s d p v) u e j = tab s u e j := rfl
@[simp] theorem loadByte_setRows (d p : Nat) (v : Rows) (b : Nat) : loadByte (setRows s d p v) b = loadByte s b := rfl
@[simp] theorem eccAt_setRows (d p : Nat) (v : Rows) (b : Nat) : eccAt (setRows s d p v) b = eccAt s b := rfl
@[simp] theorem line_setRows (d p : Nat) (v : Rows) (e j : Nat) : line (setRows s d p v) e j = line s e j := rfl
@[simp] theorem lastPub_setRows (d p : Nat) (v : Rows) (e j : Nat) : lastPub (setRows s d p v) e j = lastPub s e j := rfl
@[simp] theorem slipLine_setRows (d p : Nat) (v : Rows) (e q j : Nat) : slipLine (setRows s d p v) e q j = slipLine s e q j := rfl
@[simp] theorem kern_setRows (d p : Nat) (v : Rows) (e j : Nat) : Machine.kern (setRows s d p v) e j = Machine.kern s e j := rfl
@[simp] theorem stew_setRows (d p : Nat) (v : Rows) (e j : Nat) : Machine.stew (setRows s d p v) e j = Machine.stew s e j := rfl
@[simp] theorem podX_setRows (d p : Nat) (v : Rows) (e j : Nat) : podX (setRows s d p v) e j = podX s e j := rfl
@[simp] theorem dieX_setRows (d p : Nat) (v : Rows) (e : Nat) : Machine.dieX (setRows s d p v) e = Machine.dieX s e := rfl
@[simp] theorem dom_setRows (d p : Nat) (v : Rows) (e j : Nat) : dom (setRows s d p v) e j = dom s e j := rfl
@[simp] theorem bridge_setRows (d p : Nat) (v : Rows) (e j : Nat) : bridge (setRows s d p v) e j = bridge s e j := rfl
@[simp] theorem linkPort_setRows (d p : Nat) (v : Rows) (e : Nat) : linkPort (setRows s d p v) e = linkPort s e := rfl
@[simp] theorem caravan_setRows (d p : Nat) (v : Rows) (e j : Nat) : caravan (setRows s d p v) e j = caravan s e j := rfl
@[simp] theorem ddr_setRows (d p : Nat) (v : Rows) (e : Nat) : Machine.ddr (setRows s d p v) e = Machine.ddr s e := rfl
@[simp] theorem sap_setRows (d p : Nat) (v : Rows) (e j : Nat) : sap (setRows s d p v) e j = sap s e j := rfl
@[simp] theorem meter_setRows (d p : Nat) (v : Rows) (e j : Nat) : meter (setRows s d p v) e j = meter s e j := rfl
@[simp] theorem gen_setRows (d p : Nat) (v : Rows) (e j : Nat) : gen (setRows s d p v) e j = gen s e j := rfl
@[simp] theorem csp_setRows (d p : Nat) (v : Rows) (e : Nat) : Machine.csp (setRows s d p v) e = Machine.csp s e := rfl

/-! ### `setBridge` -/

@[simp] theorem setBridge_part (d n : Nat) (v : BridgePort) : (setBridge s d n v).part = s.part := rfl
@[simp] theorem setBridge_pending (d n : Nat) (v : BridgePort) : (setBridge s d n v).pending = s.pending := rfl
@[simp] theorem setBridge_phase (d n : Nat) (v : BridgePort) : (setBridge s d n v).phase = s.phase := rfl
@[simp] theorem setBridge_regs (d n : Nat) (v : BridgePort) : (setBridge s d n v).regs = s.regs := rfl
@[simp] theorem setBridge_tabs (d n : Nat) (v : BridgePort) : (setBridge s d n v).tabs = s.tabs := rfl
@[simp] theorem setBridge_mem (d n : Nat) (v : BridgePort) : (setBridge s d n v).mem = s.mem := rfl
@[simp] theorem setBridge_ecc (d n : Nat) (v : BridgePort) : (setBridge s d n v).ecc = s.ecc := rfl
@[simp] theorem setBridge_kern (d n : Nat) (v : BridgePort) : (setBridge s d n v).kern = s.kern := rfl
@[simp] theorem setBridge_stew (d n : Nat) (v : BridgePort) : (setBridge s d n v).stew = s.stew := rfl
@[simp] theorem setBridge_lines (d n : Nat) (v : BridgePort) : (setBridge s d n v).lines = s.lines := rfl
@[simp] theorem setBridge_lastPub (d n : Nat) (v : BridgePort) : (setBridge s d n v).lastPub = s.lastPub := rfl
@[simp] theorem setBridge_pub (d n : Nat) (v : BridgePort) : (setBridge s d n v).pub = s.pub := rfl
@[simp] theorem setBridge_slip (d n : Nat) (v : BridgePort) : (setBridge s d n v).slip = s.slip := rfl
@[simp] theorem setBridge_rows (d n : Nat) (v : BridgePort) : (setBridge s d n v).rows = s.rows := rfl
@[simp] theorem setBridge_pods (d n : Nat) (v : BridgePort) : (setBridge s d n v).pods = s.pods := rfl
@[simp] theorem setBridge_dieX (d n : Nat) (v : BridgePort) : (setBridge s d n v).dieX = s.dieX := rfl
@[simp] theorem setBridge_doms (d n : Nat) (v : BridgePort) : (setBridge s d n v).doms = s.doms := rfl
@[simp] theorem setBridge_keep (d n : Nat) (v : BridgePort) : (setBridge s d n v).keep = s.keep := rfl
@[simp] theorem setBridge_swaps (d n : Nat) (v : BridgePort) : (setBridge s d n v).swaps = s.swaps := rfl
@[simp] theorem setBridge_link (d n : Nat) (v : BridgePort) : (setBridge s d n v).link = s.link := rfl
@[simp] theorem setBridge_linkDev (d n : Nat) (v : BridgePort) : (setBridge s d n v).linkDev = s.linkDev := rfl
@[simp] theorem setBridge_carav (d n : Nat) (v : BridgePort) : (setBridge s d n v).carav = s.carav := rfl
@[simp] theorem setBridge_ddr (d n : Nat) (v : BridgePort) : (setBridge s d n v).ddr = s.ddr := rfl
@[simp] theorem setBridge_laEff (d n : Nat) (v : BridgePort) : (setBridge s d n v).laEff = s.laEff := rfl
@[simp] theorem setBridge_laHist (d n : Nat) (v : BridgePort) : (setBridge s d n v).laHist = s.laHist := rfl
@[simp] theorem setBridge_saps (d n : Nat) (v : BridgePort) : (setBridge s d n v).saps = s.saps := rfl
@[simp] theorem setBridge_steer (d n : Nat) (v : BridgePort) : (setBridge s d n v).steer = s.steer := rfl
@[simp] theorem setBridge_meters (d n : Nat) (v : BridgePort) : (setBridge s d n v).meters = s.meters := rfl
@[simp] theorem setBridge_gens (d n : Nat) (v : BridgePort) : (setBridge s d n v).gens = s.gens := rfl
@[simp] theorem setBridge_csp (d n : Nat) (v : BridgePort) : (setBridge s d n v).csp = s.csp := rfl
@[simp] theorem setBridge_pads (d n : Nat) (v : BridgePort) : (setBridge s d n v).pads = s.pads := rfl
@[simp] theorem setBridge_txOld (d n : Nat) (v : BridgePort) : (setBridge s d n v).txOld = s.txOld := rfl
@[simp] theorem setBridge_fuses (d n : Nat) (v : BridgePort) : (setBridge s d n v).fuses = s.fuses := rfl
@[simp] theorem setBridge_shell (d n : Nat) (v : BridgePort) : (setBridge s d n v).shell = s.shell := rfl
@[simp] theorem setBridge_boot (d n : Nat) (v : BridgePort) : (setBridge s d n v).boot = s.boot := rfl
@[simp] theorem setBridge_resp (d n : Nat) (v : BridgePort) : (setBridge s d n v).resp = s.resp := rfl
@[simp] theorem setBridge_fresh (d n : Nat) (v : BridgePort) : (setBridge s d n v).fresh = s.fresh := rfl
@[simp] theorem reg_setBridge (d n : Nat) (v : BridgePort) (b : Nat) : reg (setBridge s d n v) b = reg s b := rfl
@[simp] theorem tab_setBridge (d n : Nat) (v : BridgePort) (u e j : Nat) : tab (setBridge s d n v) u e j = tab s u e j := rfl
@[simp] theorem loadByte_setBridge (d n : Nat) (v : BridgePort) (b : Nat) : loadByte (setBridge s d n v) b = loadByte s b := rfl
@[simp] theorem eccAt_setBridge (d n : Nat) (v : BridgePort) (b : Nat) : eccAt (setBridge s d n v) b = eccAt s b := rfl
@[simp] theorem line_setBridge (d n : Nat) (v : BridgePort) (e j : Nat) : line (setBridge s d n v) e j = line s e j := rfl
@[simp] theorem lastPub_setBridge (d n : Nat) (v : BridgePort) (e j : Nat) : lastPub (setBridge s d n v) e j = lastPub s e j := rfl
@[simp] theorem slipLine_setBridge (d n : Nat) (v : BridgePort) (e q j : Nat) : slipLine (setBridge s d n v) e q j = slipLine s e q j := rfl
@[simp] theorem kern_setBridge (d n : Nat) (v : BridgePort) (e j : Nat) : Machine.kern (setBridge s d n v) e j = Machine.kern s e j := rfl
@[simp] theorem stew_setBridge (d n : Nat) (v : BridgePort) (e j : Nat) : Machine.stew (setBridge s d n v) e j = Machine.stew s e j := rfl
@[simp] theorem podX_setBridge (d n : Nat) (v : BridgePort) (e j : Nat) : podX (setBridge s d n v) e j = podX s e j := rfl
@[simp] theorem dieX_setBridge (d n : Nat) (v : BridgePort) (e : Nat) : Machine.dieX (setBridge s d n v) e = Machine.dieX s e := rfl
@[simp] theorem dom_setBridge (d n : Nat) (v : BridgePort) (e j : Nat) : dom (setBridge s d n v) e j = dom s e j := rfl
@[simp] theorem rowsOf_setBridge (d n : Nat) (v : BridgePort) (e j : Nat) : rowsOf (setBridge s d n v) e j = rowsOf s e j := rfl
@[simp] theorem linkPort_setBridge (d n : Nat) (v : BridgePort) (e : Nat) : linkPort (setBridge s d n v) e = linkPort s e := rfl
@[simp] theorem caravan_setBridge (d n : Nat) (v : BridgePort) (e j : Nat) : caravan (setBridge s d n v) e j = caravan s e j := rfl
@[simp] theorem ddr_setBridge (d n : Nat) (v : BridgePort) (e : Nat) : Machine.ddr (setBridge s d n v) e = Machine.ddr s e := rfl
@[simp] theorem sap_setBridge (d n : Nat) (v : BridgePort) (e j : Nat) : sap (setBridge s d n v) e j = sap s e j := rfl
@[simp] theorem meter_setBridge (d n : Nat) (v : BridgePort) (e j : Nat) : meter (setBridge s d n v) e j = meter s e j := rfl
@[simp] theorem gen_setBridge (d n : Nat) (v : BridgePort) (e j : Nat) : gen (setBridge s d n v) e j = gen s e j := rfl
@[simp] theorem csp_setBridge (d n : Nat) (v : BridgePort) (e : Nat) : Machine.csp (setBridge s d n v) e = Machine.csp s e := rfl

/-! ### `setLinkPort` -/

@[simp] theorem setLinkPort_part (d : Nat) (v : LinkPort) : (setLinkPort s d v).part = s.part := rfl
@[simp] theorem setLinkPort_pending (d : Nat) (v : LinkPort) : (setLinkPort s d v).pending = s.pending := rfl
@[simp] theorem setLinkPort_phase (d : Nat) (v : LinkPort) : (setLinkPort s d v).phase = s.phase := rfl
@[simp] theorem setLinkPort_regs (d : Nat) (v : LinkPort) : (setLinkPort s d v).regs = s.regs := rfl
@[simp] theorem setLinkPort_tabs (d : Nat) (v : LinkPort) : (setLinkPort s d v).tabs = s.tabs := rfl
@[simp] theorem setLinkPort_mem (d : Nat) (v : LinkPort) : (setLinkPort s d v).mem = s.mem := rfl
@[simp] theorem setLinkPort_ecc (d : Nat) (v : LinkPort) : (setLinkPort s d v).ecc = s.ecc := rfl
@[simp] theorem setLinkPort_kern (d : Nat) (v : LinkPort) : (setLinkPort s d v).kern = s.kern := rfl
@[simp] theorem setLinkPort_stew (d : Nat) (v : LinkPort) : (setLinkPort s d v).stew = s.stew := rfl
@[simp] theorem setLinkPort_lines (d : Nat) (v : LinkPort) : (setLinkPort s d v).lines = s.lines := rfl
@[simp] theorem setLinkPort_lastPub (d : Nat) (v : LinkPort) : (setLinkPort s d v).lastPub = s.lastPub := rfl
@[simp] theorem setLinkPort_pub (d : Nat) (v : LinkPort) : (setLinkPort s d v).pub = s.pub := rfl
@[simp] theorem setLinkPort_slip (d : Nat) (v : LinkPort) : (setLinkPort s d v).slip = s.slip := rfl
@[simp] theorem setLinkPort_rows (d : Nat) (v : LinkPort) : (setLinkPort s d v).rows = s.rows := rfl
@[simp] theorem setLinkPort_pods (d : Nat) (v : LinkPort) : (setLinkPort s d v).pods = s.pods := rfl
@[simp] theorem setLinkPort_dieX (d : Nat) (v : LinkPort) : (setLinkPort s d v).dieX = s.dieX := rfl
@[simp] theorem setLinkPort_doms (d : Nat) (v : LinkPort) : (setLinkPort s d v).doms = s.doms := rfl
@[simp] theorem setLinkPort_keep (d : Nat) (v : LinkPort) : (setLinkPort s d v).keep = s.keep := rfl
@[simp] theorem setLinkPort_swaps (d : Nat) (v : LinkPort) : (setLinkPort s d v).swaps = s.swaps := rfl
@[simp] theorem setLinkPort_bridges (d : Nat) (v : LinkPort) : (setLinkPort s d v).bridges = s.bridges := rfl
@[simp] theorem setLinkPort_linkDev (d : Nat) (v : LinkPort) : (setLinkPort s d v).linkDev = s.linkDev := rfl
@[simp] theorem setLinkPort_carav (d : Nat) (v : LinkPort) : (setLinkPort s d v).carav = s.carav := rfl
@[simp] theorem setLinkPort_ddr (d : Nat) (v : LinkPort) : (setLinkPort s d v).ddr = s.ddr := rfl
@[simp] theorem setLinkPort_laEff (d : Nat) (v : LinkPort) : (setLinkPort s d v).laEff = s.laEff := rfl
@[simp] theorem setLinkPort_laHist (d : Nat) (v : LinkPort) : (setLinkPort s d v).laHist = s.laHist := rfl
@[simp] theorem setLinkPort_saps (d : Nat) (v : LinkPort) : (setLinkPort s d v).saps = s.saps := rfl
@[simp] theorem setLinkPort_steer (d : Nat) (v : LinkPort) : (setLinkPort s d v).steer = s.steer := rfl
@[simp] theorem setLinkPort_meters (d : Nat) (v : LinkPort) : (setLinkPort s d v).meters = s.meters := rfl
@[simp] theorem setLinkPort_gens (d : Nat) (v : LinkPort) : (setLinkPort s d v).gens = s.gens := rfl
@[simp] theorem setLinkPort_csp (d : Nat) (v : LinkPort) : (setLinkPort s d v).csp = s.csp := rfl
@[simp] theorem setLinkPort_pads (d : Nat) (v : LinkPort) : (setLinkPort s d v).pads = s.pads := rfl
@[simp] theorem setLinkPort_txOld (d : Nat) (v : LinkPort) : (setLinkPort s d v).txOld = s.txOld := rfl
@[simp] theorem setLinkPort_fuses (d : Nat) (v : LinkPort) : (setLinkPort s d v).fuses = s.fuses := rfl
@[simp] theorem setLinkPort_shell (d : Nat) (v : LinkPort) : (setLinkPort s d v).shell = s.shell := rfl
@[simp] theorem setLinkPort_boot (d : Nat) (v : LinkPort) : (setLinkPort s d v).boot = s.boot := rfl
@[simp] theorem setLinkPort_resp (d : Nat) (v : LinkPort) : (setLinkPort s d v).resp = s.resp := rfl
@[simp] theorem setLinkPort_fresh (d : Nat) (v : LinkPort) : (setLinkPort s d v).fresh = s.fresh := rfl
@[simp] theorem reg_setLinkPort (d : Nat) (v : LinkPort) (b : Nat) : reg (setLinkPort s d v) b = reg s b := rfl
@[simp] theorem tab_setLinkPort (d : Nat) (v : LinkPort) (u e j : Nat) : tab (setLinkPort s d v) u e j = tab s u e j := rfl
@[simp] theorem loadByte_setLinkPort (d : Nat) (v : LinkPort) (b : Nat) : loadByte (setLinkPort s d v) b = loadByte s b := rfl
@[simp] theorem eccAt_setLinkPort (d : Nat) (v : LinkPort) (b : Nat) : eccAt (setLinkPort s d v) b = eccAt s b := rfl
@[simp] theorem line_setLinkPort (d : Nat) (v : LinkPort) (e j : Nat) : line (setLinkPort s d v) e j = line s e j := rfl
@[simp] theorem lastPub_setLinkPort (d : Nat) (v : LinkPort) (e j : Nat) : lastPub (setLinkPort s d v) e j = lastPub s e j := rfl
@[simp] theorem slipLine_setLinkPort (d : Nat) (v : LinkPort) (e q j : Nat) : slipLine (setLinkPort s d v) e q j = slipLine s e q j := rfl
@[simp] theorem kern_setLinkPort (d : Nat) (v : LinkPort) (e j : Nat) : Machine.kern (setLinkPort s d v) e j = Machine.kern s e j := rfl
@[simp] theorem stew_setLinkPort (d : Nat) (v : LinkPort) (e j : Nat) : Machine.stew (setLinkPort s d v) e j = Machine.stew s e j := rfl
@[simp] theorem podX_setLinkPort (d : Nat) (v : LinkPort) (e j : Nat) : podX (setLinkPort s d v) e j = podX s e j := rfl
@[simp] theorem dieX_setLinkPort (d : Nat) (v : LinkPort) (e : Nat) : Machine.dieX (setLinkPort s d v) e = Machine.dieX s e := rfl
@[simp] theorem dom_setLinkPort (d : Nat) (v : LinkPort) (e j : Nat) : dom (setLinkPort s d v) e j = dom s e j := rfl
@[simp] theorem rowsOf_setLinkPort (d : Nat) (v : LinkPort) (e j : Nat) : rowsOf (setLinkPort s d v) e j = rowsOf s e j := rfl
@[simp] theorem bridge_setLinkPort (d : Nat) (v : LinkPort) (e j : Nat) : bridge (setLinkPort s d v) e j = bridge s e j := rfl
@[simp] theorem caravan_setLinkPort (d : Nat) (v : LinkPort) (e j : Nat) : caravan (setLinkPort s d v) e j = caravan s e j := rfl
@[simp] theorem ddr_setLinkPort (d : Nat) (v : LinkPort) (e : Nat) : Machine.ddr (setLinkPort s d v) e = Machine.ddr s e := rfl
@[simp] theorem sap_setLinkPort (d : Nat) (v : LinkPort) (e j : Nat) : sap (setLinkPort s d v) e j = sap s e j := rfl
@[simp] theorem meter_setLinkPort (d : Nat) (v : LinkPort) (e j : Nat) : meter (setLinkPort s d v) e j = meter s e j := rfl
@[simp] theorem gen_setLinkPort (d : Nat) (v : LinkPort) (e j : Nat) : gen (setLinkPort s d v) e j = gen s e j := rfl
@[simp] theorem csp_setLinkPort (d : Nat) (v : LinkPort) (e : Nat) : Machine.csp (setLinkPort s d v) e = Machine.csp s e := rfl

/-! ### `setCaravan` -/

@[simp] theorem setCaravan_part (d p : Nat) (v : Caravan) : (setCaravan s d p v).part = s.part := rfl
@[simp] theorem setCaravan_pending (d p : Nat) (v : Caravan) : (setCaravan s d p v).pending = s.pending := rfl
@[simp] theorem setCaravan_phase (d p : Nat) (v : Caravan) : (setCaravan s d p v).phase = s.phase := rfl
@[simp] theorem setCaravan_regs (d p : Nat) (v : Caravan) : (setCaravan s d p v).regs = s.regs := rfl
@[simp] theorem setCaravan_tabs (d p : Nat) (v : Caravan) : (setCaravan s d p v).tabs = s.tabs := rfl
@[simp] theorem setCaravan_mem (d p : Nat) (v : Caravan) : (setCaravan s d p v).mem = s.mem := rfl
@[simp] theorem setCaravan_ecc (d p : Nat) (v : Caravan) : (setCaravan s d p v).ecc = s.ecc := rfl
@[simp] theorem setCaravan_kern (d p : Nat) (v : Caravan) : (setCaravan s d p v).kern = s.kern := rfl
@[simp] theorem setCaravan_stew (d p : Nat) (v : Caravan) : (setCaravan s d p v).stew = s.stew := rfl
@[simp] theorem setCaravan_lines (d p : Nat) (v : Caravan) : (setCaravan s d p v).lines = s.lines := rfl
@[simp] theorem setCaravan_lastPub (d p : Nat) (v : Caravan) : (setCaravan s d p v).lastPub = s.lastPub := rfl
@[simp] theorem setCaravan_pub (d p : Nat) (v : Caravan) : (setCaravan s d p v).pub = s.pub := rfl
@[simp] theorem setCaravan_slip (d p : Nat) (v : Caravan) : (setCaravan s d p v).slip = s.slip := rfl
@[simp] theorem setCaravan_rows (d p : Nat) (v : Caravan) : (setCaravan s d p v).rows = s.rows := rfl
@[simp] theorem setCaravan_pods (d p : Nat) (v : Caravan) : (setCaravan s d p v).pods = s.pods := rfl
@[simp] theorem setCaravan_dieX (d p : Nat) (v : Caravan) : (setCaravan s d p v).dieX = s.dieX := rfl
@[simp] theorem setCaravan_doms (d p : Nat) (v : Caravan) : (setCaravan s d p v).doms = s.doms := rfl
@[simp] theorem setCaravan_keep (d p : Nat) (v : Caravan) : (setCaravan s d p v).keep = s.keep := rfl
@[simp] theorem setCaravan_swaps (d p : Nat) (v : Caravan) : (setCaravan s d p v).swaps = s.swaps := rfl
@[simp] theorem setCaravan_bridges (d p : Nat) (v : Caravan) : (setCaravan s d p v).bridges = s.bridges := rfl
@[simp] theorem setCaravan_link (d p : Nat) (v : Caravan) : (setCaravan s d p v).link = s.link := rfl
@[simp] theorem setCaravan_linkDev (d p : Nat) (v : Caravan) : (setCaravan s d p v).linkDev = s.linkDev := rfl
@[simp] theorem setCaravan_ddr (d p : Nat) (v : Caravan) : (setCaravan s d p v).ddr = s.ddr := rfl
@[simp] theorem setCaravan_laEff (d p : Nat) (v : Caravan) : (setCaravan s d p v).laEff = s.laEff := rfl
@[simp] theorem setCaravan_laHist (d p : Nat) (v : Caravan) : (setCaravan s d p v).laHist = s.laHist := rfl
@[simp] theorem setCaravan_saps (d p : Nat) (v : Caravan) : (setCaravan s d p v).saps = s.saps := rfl
@[simp] theorem setCaravan_steer (d p : Nat) (v : Caravan) : (setCaravan s d p v).steer = s.steer := rfl
@[simp] theorem setCaravan_meters (d p : Nat) (v : Caravan) : (setCaravan s d p v).meters = s.meters := rfl
@[simp] theorem setCaravan_gens (d p : Nat) (v : Caravan) : (setCaravan s d p v).gens = s.gens := rfl
@[simp] theorem setCaravan_csp (d p : Nat) (v : Caravan) : (setCaravan s d p v).csp = s.csp := rfl
@[simp] theorem setCaravan_pads (d p : Nat) (v : Caravan) : (setCaravan s d p v).pads = s.pads := rfl
@[simp] theorem setCaravan_txOld (d p : Nat) (v : Caravan) : (setCaravan s d p v).txOld = s.txOld := rfl
@[simp] theorem setCaravan_fuses (d p : Nat) (v : Caravan) : (setCaravan s d p v).fuses = s.fuses := rfl
@[simp] theorem setCaravan_shell (d p : Nat) (v : Caravan) : (setCaravan s d p v).shell = s.shell := rfl
@[simp] theorem setCaravan_boot (d p : Nat) (v : Caravan) : (setCaravan s d p v).boot = s.boot := rfl
@[simp] theorem setCaravan_resp (d p : Nat) (v : Caravan) : (setCaravan s d p v).resp = s.resp := rfl
@[simp] theorem setCaravan_fresh (d p : Nat) (v : Caravan) : (setCaravan s d p v).fresh = s.fresh := rfl
@[simp] theorem reg_setCaravan (d p : Nat) (v : Caravan) (b : Nat) : reg (setCaravan s d p v) b = reg s b := rfl
@[simp] theorem tab_setCaravan (d p : Nat) (v : Caravan) (u e j : Nat) : tab (setCaravan s d p v) u e j = tab s u e j := rfl
@[simp] theorem loadByte_setCaravan (d p : Nat) (v : Caravan) (b : Nat) : loadByte (setCaravan s d p v) b = loadByte s b := rfl
@[simp] theorem eccAt_setCaravan (d p : Nat) (v : Caravan) (b : Nat) : eccAt (setCaravan s d p v) b = eccAt s b := rfl
@[simp] theorem line_setCaravan (d p : Nat) (v : Caravan) (e j : Nat) : line (setCaravan s d p v) e j = line s e j := rfl
@[simp] theorem lastPub_setCaravan (d p : Nat) (v : Caravan) (e j : Nat) : lastPub (setCaravan s d p v) e j = lastPub s e j := rfl
@[simp] theorem slipLine_setCaravan (d p : Nat) (v : Caravan) (e q j : Nat) : slipLine (setCaravan s d p v) e q j = slipLine s e q j := rfl
@[simp] theorem kern_setCaravan (d p : Nat) (v : Caravan) (e j : Nat) : Machine.kern (setCaravan s d p v) e j = Machine.kern s e j := rfl
@[simp] theorem stew_setCaravan (d p : Nat) (v : Caravan) (e j : Nat) : Machine.stew (setCaravan s d p v) e j = Machine.stew s e j := rfl
@[simp] theorem podX_setCaravan (d p : Nat) (v : Caravan) (e j : Nat) : podX (setCaravan s d p v) e j = podX s e j := rfl
@[simp] theorem dieX_setCaravan (d p : Nat) (v : Caravan) (e : Nat) : Machine.dieX (setCaravan s d p v) e = Machine.dieX s e := rfl
@[simp] theorem dom_setCaravan (d p : Nat) (v : Caravan) (e j : Nat) : dom (setCaravan s d p v) e j = dom s e j := rfl
@[simp] theorem rowsOf_setCaravan (d p : Nat) (v : Caravan) (e j : Nat) : rowsOf (setCaravan s d p v) e j = rowsOf s e j := rfl
@[simp] theorem bridge_setCaravan (d p : Nat) (v : Caravan) (e j : Nat) : bridge (setCaravan s d p v) e j = bridge s e j := rfl
@[simp] theorem linkPort_setCaravan (d p : Nat) (v : Caravan) (e : Nat) : linkPort (setCaravan s d p v) e = linkPort s e := rfl
@[simp] theorem ddr_setCaravan (d p : Nat) (v : Caravan) (e : Nat) : Machine.ddr (setCaravan s d p v) e = Machine.ddr s e := rfl
@[simp] theorem sap_setCaravan (d p : Nat) (v : Caravan) (e j : Nat) : sap (setCaravan s d p v) e j = sap s e j := rfl
@[simp] theorem meter_setCaravan (d p : Nat) (v : Caravan) (e j : Nat) : meter (setCaravan s d p v) e j = meter s e j := rfl
@[simp] theorem gen_setCaravan (d p : Nat) (v : Caravan) (e j : Nat) : gen (setCaravan s d p v) e j = gen s e j := rfl
@[simp] theorem csp_setCaravan (d p : Nat) (v : Caravan) (e : Nat) : Machine.csp (setCaravan s d p v) e = Machine.csp s e := rfl

/-! ### `setDdr` -/

@[simp] theorem setDdr_part (d : Nat) (v : Ddr) : (setDdr s d v).part = s.part := rfl
@[simp] theorem setDdr_pending (d : Nat) (v : Ddr) : (setDdr s d v).pending = s.pending := rfl
@[simp] theorem setDdr_phase (d : Nat) (v : Ddr) : (setDdr s d v).phase = s.phase := rfl
@[simp] theorem setDdr_regs (d : Nat) (v : Ddr) : (setDdr s d v).regs = s.regs := rfl
@[simp] theorem setDdr_tabs (d : Nat) (v : Ddr) : (setDdr s d v).tabs = s.tabs := rfl
@[simp] theorem setDdr_mem (d : Nat) (v : Ddr) : (setDdr s d v).mem = s.mem := rfl
@[simp] theorem setDdr_ecc (d : Nat) (v : Ddr) : (setDdr s d v).ecc = s.ecc := rfl
@[simp] theorem setDdr_kern (d : Nat) (v : Ddr) : (setDdr s d v).kern = s.kern := rfl
@[simp] theorem setDdr_stew (d : Nat) (v : Ddr) : (setDdr s d v).stew = s.stew := rfl
@[simp] theorem setDdr_lines (d : Nat) (v : Ddr) : (setDdr s d v).lines = s.lines := rfl
@[simp] theorem setDdr_lastPub (d : Nat) (v : Ddr) : (setDdr s d v).lastPub = s.lastPub := rfl
@[simp] theorem setDdr_pub (d : Nat) (v : Ddr) : (setDdr s d v).pub = s.pub := rfl
@[simp] theorem setDdr_slip (d : Nat) (v : Ddr) : (setDdr s d v).slip = s.slip := rfl
@[simp] theorem setDdr_rows (d : Nat) (v : Ddr) : (setDdr s d v).rows = s.rows := rfl
@[simp] theorem setDdr_pods (d : Nat) (v : Ddr) : (setDdr s d v).pods = s.pods := rfl
@[simp] theorem setDdr_dieX (d : Nat) (v : Ddr) : (setDdr s d v).dieX = s.dieX := rfl
@[simp] theorem setDdr_doms (d : Nat) (v : Ddr) : (setDdr s d v).doms = s.doms := rfl
@[simp] theorem setDdr_keep (d : Nat) (v : Ddr) : (setDdr s d v).keep = s.keep := rfl
@[simp] theorem setDdr_swaps (d : Nat) (v : Ddr) : (setDdr s d v).swaps = s.swaps := rfl
@[simp] theorem setDdr_bridges (d : Nat) (v : Ddr) : (setDdr s d v).bridges = s.bridges := rfl
@[simp] theorem setDdr_link (d : Nat) (v : Ddr) : (setDdr s d v).link = s.link := rfl
@[simp] theorem setDdr_linkDev (d : Nat) (v : Ddr) : (setDdr s d v).linkDev = s.linkDev := rfl
@[simp] theorem setDdr_carav (d : Nat) (v : Ddr) : (setDdr s d v).carav = s.carav := rfl
@[simp] theorem setDdr_laEff (d : Nat) (v : Ddr) : (setDdr s d v).laEff = s.laEff := rfl
@[simp] theorem setDdr_laHist (d : Nat) (v : Ddr) : (setDdr s d v).laHist = s.laHist := rfl
@[simp] theorem setDdr_saps (d : Nat) (v : Ddr) : (setDdr s d v).saps = s.saps := rfl
@[simp] theorem setDdr_steer (d : Nat) (v : Ddr) : (setDdr s d v).steer = s.steer := rfl
@[simp] theorem setDdr_meters (d : Nat) (v : Ddr) : (setDdr s d v).meters = s.meters := rfl
@[simp] theorem setDdr_gens (d : Nat) (v : Ddr) : (setDdr s d v).gens = s.gens := rfl
@[simp] theorem setDdr_csp (d : Nat) (v : Ddr) : (setDdr s d v).csp = s.csp := rfl
@[simp] theorem setDdr_pads (d : Nat) (v : Ddr) : (setDdr s d v).pads = s.pads := rfl
@[simp] theorem setDdr_txOld (d : Nat) (v : Ddr) : (setDdr s d v).txOld = s.txOld := rfl
@[simp] theorem setDdr_fuses (d : Nat) (v : Ddr) : (setDdr s d v).fuses = s.fuses := rfl
@[simp] theorem setDdr_shell (d : Nat) (v : Ddr) : (setDdr s d v).shell = s.shell := rfl
@[simp] theorem setDdr_boot (d : Nat) (v : Ddr) : (setDdr s d v).boot = s.boot := rfl
@[simp] theorem setDdr_resp (d : Nat) (v : Ddr) : (setDdr s d v).resp = s.resp := rfl
@[simp] theorem setDdr_fresh (d : Nat) (v : Ddr) : (setDdr s d v).fresh = s.fresh := rfl
@[simp] theorem reg_setDdr (d : Nat) (v : Ddr) (b : Nat) : reg (setDdr s d v) b = reg s b := rfl
@[simp] theorem tab_setDdr (d : Nat) (v : Ddr) (u e j : Nat) : tab (setDdr s d v) u e j = tab s u e j := rfl
@[simp] theorem loadByte_setDdr (d : Nat) (v : Ddr) (b : Nat) : loadByte (setDdr s d v) b = loadByte s b := rfl
@[simp] theorem eccAt_setDdr (d : Nat) (v : Ddr) (b : Nat) : eccAt (setDdr s d v) b = eccAt s b := rfl
@[simp] theorem line_setDdr (d : Nat) (v : Ddr) (e j : Nat) : line (setDdr s d v) e j = line s e j := rfl
@[simp] theorem lastPub_setDdr (d : Nat) (v : Ddr) (e j : Nat) : lastPub (setDdr s d v) e j = lastPub s e j := rfl
@[simp] theorem slipLine_setDdr (d : Nat) (v : Ddr) (e q j : Nat) : slipLine (setDdr s d v) e q j = slipLine s e q j := rfl
@[simp] theorem kern_setDdr (d : Nat) (v : Ddr) (e j : Nat) : Machine.kern (setDdr s d v) e j = Machine.kern s e j := rfl
@[simp] theorem stew_setDdr (d : Nat) (v : Ddr) (e j : Nat) : Machine.stew (setDdr s d v) e j = Machine.stew s e j := rfl
@[simp] theorem podX_setDdr (d : Nat) (v : Ddr) (e j : Nat) : podX (setDdr s d v) e j = podX s e j := rfl
@[simp] theorem dieX_setDdr (d : Nat) (v : Ddr) (e : Nat) : Machine.dieX (setDdr s d v) e = Machine.dieX s e := rfl
@[simp] theorem dom_setDdr (d : Nat) (v : Ddr) (e j : Nat) : dom (setDdr s d v) e j = dom s e j := rfl
@[simp] theorem rowsOf_setDdr (d : Nat) (v : Ddr) (e j : Nat) : rowsOf (setDdr s d v) e j = rowsOf s e j := rfl
@[simp] theorem bridge_setDdr (d : Nat) (v : Ddr) (e j : Nat) : bridge (setDdr s d v) e j = bridge s e j := rfl
@[simp] theorem linkPort_setDdr (d : Nat) (v : Ddr) (e : Nat) : linkPort (setDdr s d v) e = linkPort s e := rfl
@[simp] theorem caravan_setDdr (d : Nat) (v : Ddr) (e j : Nat) : caravan (setDdr s d v) e j = caravan s e j := rfl
@[simp] theorem sap_setDdr (d : Nat) (v : Ddr) (e j : Nat) : sap (setDdr s d v) e j = sap s e j := rfl
@[simp] theorem meter_setDdr (d : Nat) (v : Ddr) (e j : Nat) : meter (setDdr s d v) e j = meter s e j := rfl
@[simp] theorem gen_setDdr (d : Nat) (v : Ddr) (e j : Nat) : gen (setDdr s d v) e j = gen s e j := rfl
@[simp] theorem csp_setDdr (d : Nat) (v : Ddr) (e : Nat) : Machine.csp (setDdr s d v) e = Machine.csp s e := rfl

/-! ### `setSap` -/

@[simp] theorem setSap_part (d m : Nat) (v : SapPort) : (setSap s d m v).part = s.part := rfl
@[simp] theorem setSap_pending (d m : Nat) (v : SapPort) : (setSap s d m v).pending = s.pending := rfl
@[simp] theorem setSap_phase (d m : Nat) (v : SapPort) : (setSap s d m v).phase = s.phase := rfl
@[simp] theorem setSap_regs (d m : Nat) (v : SapPort) : (setSap s d m v).regs = s.regs := rfl
@[simp] theorem setSap_tabs (d m : Nat) (v : SapPort) : (setSap s d m v).tabs = s.tabs := rfl
@[simp] theorem setSap_mem (d m : Nat) (v : SapPort) : (setSap s d m v).mem = s.mem := rfl
@[simp] theorem setSap_ecc (d m : Nat) (v : SapPort) : (setSap s d m v).ecc = s.ecc := rfl
@[simp] theorem setSap_kern (d m : Nat) (v : SapPort) : (setSap s d m v).kern = s.kern := rfl
@[simp] theorem setSap_stew (d m : Nat) (v : SapPort) : (setSap s d m v).stew = s.stew := rfl
@[simp] theorem setSap_lines (d m : Nat) (v : SapPort) : (setSap s d m v).lines = s.lines := rfl
@[simp] theorem setSap_lastPub (d m : Nat) (v : SapPort) : (setSap s d m v).lastPub = s.lastPub := rfl
@[simp] theorem setSap_pub (d m : Nat) (v : SapPort) : (setSap s d m v).pub = s.pub := rfl
@[simp] theorem setSap_slip (d m : Nat) (v : SapPort) : (setSap s d m v).slip = s.slip := rfl
@[simp] theorem setSap_rows (d m : Nat) (v : SapPort) : (setSap s d m v).rows = s.rows := rfl
@[simp] theorem setSap_pods (d m : Nat) (v : SapPort) : (setSap s d m v).pods = s.pods := rfl
@[simp] theorem setSap_dieX (d m : Nat) (v : SapPort) : (setSap s d m v).dieX = s.dieX := rfl
@[simp] theorem setSap_doms (d m : Nat) (v : SapPort) : (setSap s d m v).doms = s.doms := rfl
@[simp] theorem setSap_keep (d m : Nat) (v : SapPort) : (setSap s d m v).keep = s.keep := rfl
@[simp] theorem setSap_swaps (d m : Nat) (v : SapPort) : (setSap s d m v).swaps = s.swaps := rfl
@[simp] theorem setSap_bridges (d m : Nat) (v : SapPort) : (setSap s d m v).bridges = s.bridges := rfl
@[simp] theorem setSap_link (d m : Nat) (v : SapPort) : (setSap s d m v).link = s.link := rfl
@[simp] theorem setSap_linkDev (d m : Nat) (v : SapPort) : (setSap s d m v).linkDev = s.linkDev := rfl
@[simp] theorem setSap_carav (d m : Nat) (v : SapPort) : (setSap s d m v).carav = s.carav := rfl
@[simp] theorem setSap_ddr (d m : Nat) (v : SapPort) : (setSap s d m v).ddr = s.ddr := rfl
@[simp] theorem setSap_laEff (d m : Nat) (v : SapPort) : (setSap s d m v).laEff = s.laEff := rfl
@[simp] theorem setSap_laHist (d m : Nat) (v : SapPort) : (setSap s d m v).laHist = s.laHist := rfl
@[simp] theorem setSap_steer (d m : Nat) (v : SapPort) : (setSap s d m v).steer = s.steer := rfl
@[simp] theorem setSap_meters (d m : Nat) (v : SapPort) : (setSap s d m v).meters = s.meters := rfl
@[simp] theorem setSap_gens (d m : Nat) (v : SapPort) : (setSap s d m v).gens = s.gens := rfl
@[simp] theorem setSap_csp (d m : Nat) (v : SapPort) : (setSap s d m v).csp = s.csp := rfl
@[simp] theorem setSap_pads (d m : Nat) (v : SapPort) : (setSap s d m v).pads = s.pads := rfl
@[simp] theorem setSap_txOld (d m : Nat) (v : SapPort) : (setSap s d m v).txOld = s.txOld := rfl
@[simp] theorem setSap_fuses (d m : Nat) (v : SapPort) : (setSap s d m v).fuses = s.fuses := rfl
@[simp] theorem setSap_shell (d m : Nat) (v : SapPort) : (setSap s d m v).shell = s.shell := rfl
@[simp] theorem setSap_boot (d m : Nat) (v : SapPort) : (setSap s d m v).boot = s.boot := rfl
@[simp] theorem setSap_resp (d m : Nat) (v : SapPort) : (setSap s d m v).resp = s.resp := rfl
@[simp] theorem setSap_fresh (d m : Nat) (v : SapPort) : (setSap s d m v).fresh = s.fresh := rfl
@[simp] theorem reg_setSap (d m : Nat) (v : SapPort) (b : Nat) : reg (setSap s d m v) b = reg s b := rfl
@[simp] theorem tab_setSap (d m : Nat) (v : SapPort) (u e j : Nat) : tab (setSap s d m v) u e j = tab s u e j := rfl
@[simp] theorem loadByte_setSap (d m : Nat) (v : SapPort) (b : Nat) : loadByte (setSap s d m v) b = loadByte s b := rfl
@[simp] theorem eccAt_setSap (d m : Nat) (v : SapPort) (b : Nat) : eccAt (setSap s d m v) b = eccAt s b := rfl
@[simp] theorem line_setSap (d m : Nat) (v : SapPort) (e j : Nat) : line (setSap s d m v) e j = line s e j := rfl
@[simp] theorem lastPub_setSap (d m : Nat) (v : SapPort) (e j : Nat) : lastPub (setSap s d m v) e j = lastPub s e j := rfl
@[simp] theorem slipLine_setSap (d m : Nat) (v : SapPort) (e q j : Nat) : slipLine (setSap s d m v) e q j = slipLine s e q j := rfl
@[simp] theorem kern_setSap (d m : Nat) (v : SapPort) (e j : Nat) : Machine.kern (setSap s d m v) e j = Machine.kern s e j := rfl
@[simp] theorem stew_setSap (d m : Nat) (v : SapPort) (e j : Nat) : Machine.stew (setSap s d m v) e j = Machine.stew s e j := rfl
@[simp] theorem podX_setSap (d m : Nat) (v : SapPort) (e j : Nat) : podX (setSap s d m v) e j = podX s e j := rfl
@[simp] theorem dieX_setSap (d m : Nat) (v : SapPort) (e : Nat) : Machine.dieX (setSap s d m v) e = Machine.dieX s e := rfl
@[simp] theorem dom_setSap (d m : Nat) (v : SapPort) (e j : Nat) : dom (setSap s d m v) e j = dom s e j := rfl
@[simp] theorem rowsOf_setSap (d m : Nat) (v : SapPort) (e j : Nat) : rowsOf (setSap s d m v) e j = rowsOf s e j := rfl
@[simp] theorem bridge_setSap (d m : Nat) (v : SapPort) (e j : Nat) : bridge (setSap s d m v) e j = bridge s e j := rfl
@[simp] theorem linkPort_setSap (d m : Nat) (v : SapPort) (e : Nat) : linkPort (setSap s d m v) e = linkPort s e := rfl
@[simp] theorem caravan_setSap (d m : Nat) (v : SapPort) (e j : Nat) : caravan (setSap s d m v) e j = caravan s e j := rfl
@[simp] theorem ddr_setSap (d m : Nat) (v : SapPort) (e : Nat) : Machine.ddr (setSap s d m v) e = Machine.ddr s e := rfl
@[simp] theorem meter_setSap (d m : Nat) (v : SapPort) (e j : Nat) : meter (setSap s d m v) e j = meter s e j := rfl
@[simp] theorem gen_setSap (d m : Nat) (v : SapPort) (e j : Nat) : gen (setSap s d m v) e j = gen s e j := rfl
@[simp] theorem csp_setSap (d m : Nat) (v : SapPort) (e : Nat) : Machine.csp (setSap s d m v) e = Machine.csp s e := rfl

/-! ### `setMeter` -/

@[simp] theorem setMeter_part (d m : Nat) (v : Meter) : (setMeter s d m v).part = s.part := rfl
@[simp] theorem setMeter_pending (d m : Nat) (v : Meter) : (setMeter s d m v).pending = s.pending := rfl
@[simp] theorem setMeter_phase (d m : Nat) (v : Meter) : (setMeter s d m v).phase = s.phase := rfl
@[simp] theorem setMeter_regs (d m : Nat) (v : Meter) : (setMeter s d m v).regs = s.regs := rfl
@[simp] theorem setMeter_tabs (d m : Nat) (v : Meter) : (setMeter s d m v).tabs = s.tabs := rfl
@[simp] theorem setMeter_mem (d m : Nat) (v : Meter) : (setMeter s d m v).mem = s.mem := rfl
@[simp] theorem setMeter_ecc (d m : Nat) (v : Meter) : (setMeter s d m v).ecc = s.ecc := rfl
@[simp] theorem setMeter_kern (d m : Nat) (v : Meter) : (setMeter s d m v).kern = s.kern := rfl
@[simp] theorem setMeter_stew (d m : Nat) (v : Meter) : (setMeter s d m v).stew = s.stew := rfl
@[simp] theorem setMeter_lines (d m : Nat) (v : Meter) : (setMeter s d m v).lines = s.lines := rfl
@[simp] theorem setMeter_lastPub (d m : Nat) (v : Meter) : (setMeter s d m v).lastPub = s.lastPub := rfl
@[simp] theorem setMeter_pub (d m : Nat) (v : Meter) : (setMeter s d m v).pub = s.pub := rfl
@[simp] theorem setMeter_slip (d m : Nat) (v : Meter) : (setMeter s d m v).slip = s.slip := rfl
@[simp] theorem setMeter_rows (d m : Nat) (v : Meter) : (setMeter s d m v).rows = s.rows := rfl
@[simp] theorem setMeter_pods (d m : Nat) (v : Meter) : (setMeter s d m v).pods = s.pods := rfl
@[simp] theorem setMeter_dieX (d m : Nat) (v : Meter) : (setMeter s d m v).dieX = s.dieX := rfl
@[simp] theorem setMeter_doms (d m : Nat) (v : Meter) : (setMeter s d m v).doms = s.doms := rfl
@[simp] theorem setMeter_keep (d m : Nat) (v : Meter) : (setMeter s d m v).keep = s.keep := rfl
@[simp] theorem setMeter_swaps (d m : Nat) (v : Meter) : (setMeter s d m v).swaps = s.swaps := rfl
@[simp] theorem setMeter_bridges (d m : Nat) (v : Meter) : (setMeter s d m v).bridges = s.bridges := rfl
@[simp] theorem setMeter_link (d m : Nat) (v : Meter) : (setMeter s d m v).link = s.link := rfl
@[simp] theorem setMeter_linkDev (d m : Nat) (v : Meter) : (setMeter s d m v).linkDev = s.linkDev := rfl
@[simp] theorem setMeter_carav (d m : Nat) (v : Meter) : (setMeter s d m v).carav = s.carav := rfl
@[simp] theorem setMeter_ddr (d m : Nat) (v : Meter) : (setMeter s d m v).ddr = s.ddr := rfl
@[simp] theorem setMeter_laEff (d m : Nat) (v : Meter) : (setMeter s d m v).laEff = s.laEff := rfl
@[simp] theorem setMeter_laHist (d m : Nat) (v : Meter) : (setMeter s d m v).laHist = s.laHist := rfl
@[simp] theorem setMeter_saps (d m : Nat) (v : Meter) : (setMeter s d m v).saps = s.saps := rfl
@[simp] theorem setMeter_steer (d m : Nat) (v : Meter) : (setMeter s d m v).steer = s.steer := rfl
@[simp] theorem setMeter_gens (d m : Nat) (v : Meter) : (setMeter s d m v).gens = s.gens := rfl
@[simp] theorem setMeter_csp (d m : Nat) (v : Meter) : (setMeter s d m v).csp = s.csp := rfl
@[simp] theorem setMeter_pads (d m : Nat) (v : Meter) : (setMeter s d m v).pads = s.pads := rfl
@[simp] theorem setMeter_txOld (d m : Nat) (v : Meter) : (setMeter s d m v).txOld = s.txOld := rfl
@[simp] theorem setMeter_fuses (d m : Nat) (v : Meter) : (setMeter s d m v).fuses = s.fuses := rfl
@[simp] theorem setMeter_shell (d m : Nat) (v : Meter) : (setMeter s d m v).shell = s.shell := rfl
@[simp] theorem setMeter_boot (d m : Nat) (v : Meter) : (setMeter s d m v).boot = s.boot := rfl
@[simp] theorem setMeter_resp (d m : Nat) (v : Meter) : (setMeter s d m v).resp = s.resp := rfl
@[simp] theorem setMeter_fresh (d m : Nat) (v : Meter) : (setMeter s d m v).fresh = s.fresh := rfl
@[simp] theorem reg_setMeter (d m : Nat) (v : Meter) (b : Nat) : reg (setMeter s d m v) b = reg s b := rfl
@[simp] theorem tab_setMeter (d m : Nat) (v : Meter) (u e j : Nat) : tab (setMeter s d m v) u e j = tab s u e j := rfl
@[simp] theorem loadByte_setMeter (d m : Nat) (v : Meter) (b : Nat) : loadByte (setMeter s d m v) b = loadByte s b := rfl
@[simp] theorem eccAt_setMeter (d m : Nat) (v : Meter) (b : Nat) : eccAt (setMeter s d m v) b = eccAt s b := rfl
@[simp] theorem line_setMeter (d m : Nat) (v : Meter) (e j : Nat) : line (setMeter s d m v) e j = line s e j := rfl
@[simp] theorem lastPub_setMeter (d m : Nat) (v : Meter) (e j : Nat) : lastPub (setMeter s d m v) e j = lastPub s e j := rfl
@[simp] theorem slipLine_setMeter (d m : Nat) (v : Meter) (e q j : Nat) : slipLine (setMeter s d m v) e q j = slipLine s e q j := rfl
@[simp] theorem kern_setMeter (d m : Nat) (v : Meter) (e j : Nat) : Machine.kern (setMeter s d m v) e j = Machine.kern s e j := rfl
@[simp] theorem stew_setMeter (d m : Nat) (v : Meter) (e j : Nat) : Machine.stew (setMeter s d m v) e j = Machine.stew s e j := rfl
@[simp] theorem podX_setMeter (d m : Nat) (v : Meter) (e j : Nat) : podX (setMeter s d m v) e j = podX s e j := rfl
@[simp] theorem dieX_setMeter (d m : Nat) (v : Meter) (e : Nat) : Machine.dieX (setMeter s d m v) e = Machine.dieX s e := rfl
@[simp] theorem dom_setMeter (d m : Nat) (v : Meter) (e j : Nat) : dom (setMeter s d m v) e j = dom s e j := rfl
@[simp] theorem rowsOf_setMeter (d m : Nat) (v : Meter) (e j : Nat) : rowsOf (setMeter s d m v) e j = rowsOf s e j := rfl
@[simp] theorem bridge_setMeter (d m : Nat) (v : Meter) (e j : Nat) : bridge (setMeter s d m v) e j = bridge s e j := rfl
@[simp] theorem linkPort_setMeter (d m : Nat) (v : Meter) (e : Nat) : linkPort (setMeter s d m v) e = linkPort s e := rfl
@[simp] theorem caravan_setMeter (d m : Nat) (v : Meter) (e j : Nat) : caravan (setMeter s d m v) e j = caravan s e j := rfl
@[simp] theorem ddr_setMeter (d m : Nat) (v : Meter) (e : Nat) : Machine.ddr (setMeter s d m v) e = Machine.ddr s e := rfl
@[simp] theorem sap_setMeter (d m : Nat) (v : Meter) (e j : Nat) : sap (setMeter s d m v) e j = sap s e j := rfl
@[simp] theorem gen_setMeter (d m : Nat) (v : Meter) (e j : Nat) : gen (setMeter s d m v) e j = gen s e j := rfl
@[simp] theorem csp_setMeter (d m : Nat) (v : Meter) (e : Nat) : Machine.csp (setMeter s d m v) e = Machine.csp s e := rfl

/-! ### `setGen` -/

@[simp] theorem setGen_part (d c : Nat) (v : Gen) : (setGen s d c v).part = s.part := rfl
@[simp] theorem setGen_pending (d c : Nat) (v : Gen) : (setGen s d c v).pending = s.pending := rfl
@[simp] theorem setGen_phase (d c : Nat) (v : Gen) : (setGen s d c v).phase = s.phase := rfl
@[simp] theorem setGen_regs (d c : Nat) (v : Gen) : (setGen s d c v).regs = s.regs := rfl
@[simp] theorem setGen_tabs (d c : Nat) (v : Gen) : (setGen s d c v).tabs = s.tabs := rfl
@[simp] theorem setGen_mem (d c : Nat) (v : Gen) : (setGen s d c v).mem = s.mem := rfl
@[simp] theorem setGen_ecc (d c : Nat) (v : Gen) : (setGen s d c v).ecc = s.ecc := rfl
@[simp] theorem setGen_kern (d c : Nat) (v : Gen) : (setGen s d c v).kern = s.kern := rfl
@[simp] theorem setGen_stew (d c : Nat) (v : Gen) : (setGen s d c v).stew = s.stew := rfl
@[simp] theorem setGen_lines (d c : Nat) (v : Gen) : (setGen s d c v).lines = s.lines := rfl
@[simp] theorem setGen_lastPub (d c : Nat) (v : Gen) : (setGen s d c v).lastPub = s.lastPub := rfl
@[simp] theorem setGen_pub (d c : Nat) (v : Gen) : (setGen s d c v).pub = s.pub := rfl
@[simp] theorem setGen_slip (d c : Nat) (v : Gen) : (setGen s d c v).slip = s.slip := rfl
@[simp] theorem setGen_rows (d c : Nat) (v : Gen) : (setGen s d c v).rows = s.rows := rfl
@[simp] theorem setGen_pods (d c : Nat) (v : Gen) : (setGen s d c v).pods = s.pods := rfl
@[simp] theorem setGen_dieX (d c : Nat) (v : Gen) : (setGen s d c v).dieX = s.dieX := rfl
@[simp] theorem setGen_doms (d c : Nat) (v : Gen) : (setGen s d c v).doms = s.doms := rfl
@[simp] theorem setGen_keep (d c : Nat) (v : Gen) : (setGen s d c v).keep = s.keep := rfl
@[simp] theorem setGen_swaps (d c : Nat) (v : Gen) : (setGen s d c v).swaps = s.swaps := rfl
@[simp] theorem setGen_bridges (d c : Nat) (v : Gen) : (setGen s d c v).bridges = s.bridges := rfl
@[simp] theorem setGen_link (d c : Nat) (v : Gen) : (setGen s d c v).link = s.link := rfl
@[simp] theorem setGen_linkDev (d c : Nat) (v : Gen) : (setGen s d c v).linkDev = s.linkDev := rfl
@[simp] theorem setGen_carav (d c : Nat) (v : Gen) : (setGen s d c v).carav = s.carav := rfl
@[simp] theorem setGen_ddr (d c : Nat) (v : Gen) : (setGen s d c v).ddr = s.ddr := rfl
@[simp] theorem setGen_laEff (d c : Nat) (v : Gen) : (setGen s d c v).laEff = s.laEff := rfl
@[simp] theorem setGen_laHist (d c : Nat) (v : Gen) : (setGen s d c v).laHist = s.laHist := rfl
@[simp] theorem setGen_saps (d c : Nat) (v : Gen) : (setGen s d c v).saps = s.saps := rfl
@[simp] theorem setGen_steer (d c : Nat) (v : Gen) : (setGen s d c v).steer = s.steer := rfl
@[simp] theorem setGen_meters (d c : Nat) (v : Gen) : (setGen s d c v).meters = s.meters := rfl
@[simp] theorem setGen_csp (d c : Nat) (v : Gen) : (setGen s d c v).csp = s.csp := rfl
@[simp] theorem setGen_pads (d c : Nat) (v : Gen) : (setGen s d c v).pads = s.pads := rfl
@[simp] theorem setGen_txOld (d c : Nat) (v : Gen) : (setGen s d c v).txOld = s.txOld := rfl
@[simp] theorem setGen_fuses (d c : Nat) (v : Gen) : (setGen s d c v).fuses = s.fuses := rfl
@[simp] theorem setGen_shell (d c : Nat) (v : Gen) : (setGen s d c v).shell = s.shell := rfl
@[simp] theorem setGen_boot (d c : Nat) (v : Gen) : (setGen s d c v).boot = s.boot := rfl
@[simp] theorem setGen_resp (d c : Nat) (v : Gen) : (setGen s d c v).resp = s.resp := rfl
@[simp] theorem setGen_fresh (d c : Nat) (v : Gen) : (setGen s d c v).fresh = s.fresh := rfl
@[simp] theorem reg_setGen (d c : Nat) (v : Gen) (b : Nat) : reg (setGen s d c v) b = reg s b := rfl
@[simp] theorem tab_setGen (d c : Nat) (v : Gen) (u e j : Nat) : tab (setGen s d c v) u e j = tab s u e j := rfl
@[simp] theorem loadByte_setGen (d c : Nat) (v : Gen) (b : Nat) : loadByte (setGen s d c v) b = loadByte s b := rfl
@[simp] theorem eccAt_setGen (d c : Nat) (v : Gen) (b : Nat) : eccAt (setGen s d c v) b = eccAt s b := rfl
@[simp] theorem line_setGen (d c : Nat) (v : Gen) (e j : Nat) : line (setGen s d c v) e j = line s e j := rfl
@[simp] theorem lastPub_setGen (d c : Nat) (v : Gen) (e j : Nat) : lastPub (setGen s d c v) e j = lastPub s e j := rfl
@[simp] theorem slipLine_setGen (d c : Nat) (v : Gen) (e q j : Nat) : slipLine (setGen s d c v) e q j = slipLine s e q j := rfl
@[simp] theorem kern_setGen (d c : Nat) (v : Gen) (e j : Nat) : Machine.kern (setGen s d c v) e j = Machine.kern s e j := rfl
@[simp] theorem stew_setGen (d c : Nat) (v : Gen) (e j : Nat) : Machine.stew (setGen s d c v) e j = Machine.stew s e j := rfl
@[simp] theorem podX_setGen (d c : Nat) (v : Gen) (e j : Nat) : podX (setGen s d c v) e j = podX s e j := rfl
@[simp] theorem dieX_setGen (d c : Nat) (v : Gen) (e : Nat) : Machine.dieX (setGen s d c v) e = Machine.dieX s e := rfl
@[simp] theorem dom_setGen (d c : Nat) (v : Gen) (e j : Nat) : dom (setGen s d c v) e j = dom s e j := rfl
@[simp] theorem rowsOf_setGen (d c : Nat) (v : Gen) (e j : Nat) : rowsOf (setGen s d c v) e j = rowsOf s e j := rfl
@[simp] theorem bridge_setGen (d c : Nat) (v : Gen) (e j : Nat) : bridge (setGen s d c v) e j = bridge s e j := rfl
@[simp] theorem linkPort_setGen (d c : Nat) (v : Gen) (e : Nat) : linkPort (setGen s d c v) e = linkPort s e := rfl
@[simp] theorem caravan_setGen (d c : Nat) (v : Gen) (e j : Nat) : caravan (setGen s d c v) e j = caravan s e j := rfl
@[simp] theorem ddr_setGen (d c : Nat) (v : Gen) (e : Nat) : Machine.ddr (setGen s d c v) e = Machine.ddr s e := rfl
@[simp] theorem sap_setGen (d c : Nat) (v : Gen) (e j : Nat) : sap (setGen s d c v) e j = sap s e j := rfl
@[simp] theorem meter_setGen (d c : Nat) (v : Gen) (e j : Nat) : meter (setGen s d c v) e j = meter s e j := rfl
@[simp] theorem csp_setGen (d c : Nat) (v : Gen) (e : Nat) : Machine.csp (setGen s d c v) e = Machine.csp s e := rfl

/-! ### `setCsp` -/

@[simp] theorem setCsp_part (d : Nat) (v : Csp) : (setCsp s d v).part = s.part := rfl
@[simp] theorem setCsp_pending (d : Nat) (v : Csp) : (setCsp s d v).pending = s.pending := rfl
@[simp] theorem setCsp_phase (d : Nat) (v : Csp) : (setCsp s d v).phase = s.phase := rfl
@[simp] theorem setCsp_regs (d : Nat) (v : Csp) : (setCsp s d v).regs = s.regs := rfl
@[simp] theorem setCsp_tabs (d : Nat) (v : Csp) : (setCsp s d v).tabs = s.tabs := rfl
@[simp] theorem setCsp_mem (d : Nat) (v : Csp) : (setCsp s d v).mem = s.mem := rfl
@[simp] theorem setCsp_ecc (d : Nat) (v : Csp) : (setCsp s d v).ecc = s.ecc := rfl
@[simp] theorem setCsp_kern (d : Nat) (v : Csp) : (setCsp s d v).kern = s.kern := rfl
@[simp] theorem setCsp_stew (d : Nat) (v : Csp) : (setCsp s d v).stew = s.stew := rfl
@[simp] theorem setCsp_lines (d : Nat) (v : Csp) : (setCsp s d v).lines = s.lines := rfl
@[simp] theorem setCsp_lastPub (d : Nat) (v : Csp) : (setCsp s d v).lastPub = s.lastPub := rfl
@[simp] theorem setCsp_pub (d : Nat) (v : Csp) : (setCsp s d v).pub = s.pub := rfl
@[simp] theorem setCsp_slip (d : Nat) (v : Csp) : (setCsp s d v).slip = s.slip := rfl
@[simp] theorem setCsp_rows (d : Nat) (v : Csp) : (setCsp s d v).rows = s.rows := rfl
@[simp] theorem setCsp_pods (d : Nat) (v : Csp) : (setCsp s d v).pods = s.pods := rfl
@[simp] theorem setCsp_dieX (d : Nat) (v : Csp) : (setCsp s d v).dieX = s.dieX := rfl
@[simp] theorem setCsp_doms (d : Nat) (v : Csp) : (setCsp s d v).doms = s.doms := rfl
@[simp] theorem setCsp_keep (d : Nat) (v : Csp) : (setCsp s d v).keep = s.keep := rfl
@[simp] theorem setCsp_swaps (d : Nat) (v : Csp) : (setCsp s d v).swaps = s.swaps := rfl
@[simp] theorem setCsp_bridges (d : Nat) (v : Csp) : (setCsp s d v).bridges = s.bridges := rfl
@[simp] theorem setCsp_link (d : Nat) (v : Csp) : (setCsp s d v).link = s.link := rfl
@[simp] theorem setCsp_linkDev (d : Nat) (v : Csp) : (setCsp s d v).linkDev = s.linkDev := rfl
@[simp] theorem setCsp_carav (d : Nat) (v : Csp) : (setCsp s d v).carav = s.carav := rfl
@[simp] theorem setCsp_ddr (d : Nat) (v : Csp) : (setCsp s d v).ddr = s.ddr := rfl
@[simp] theorem setCsp_laEff (d : Nat) (v : Csp) : (setCsp s d v).laEff = s.laEff := rfl
@[simp] theorem setCsp_laHist (d : Nat) (v : Csp) : (setCsp s d v).laHist = s.laHist := rfl
@[simp] theorem setCsp_saps (d : Nat) (v : Csp) : (setCsp s d v).saps = s.saps := rfl
@[simp] theorem setCsp_steer (d : Nat) (v : Csp) : (setCsp s d v).steer = s.steer := rfl
@[simp] theorem setCsp_meters (d : Nat) (v : Csp) : (setCsp s d v).meters = s.meters := rfl
@[simp] theorem setCsp_gens (d : Nat) (v : Csp) : (setCsp s d v).gens = s.gens := rfl
@[simp] theorem setCsp_pads (d : Nat) (v : Csp) : (setCsp s d v).pads = s.pads := rfl
@[simp] theorem setCsp_txOld (d : Nat) (v : Csp) : (setCsp s d v).txOld = s.txOld := rfl
@[simp] theorem setCsp_fuses (d : Nat) (v : Csp) : (setCsp s d v).fuses = s.fuses := rfl
@[simp] theorem setCsp_shell (d : Nat) (v : Csp) : (setCsp s d v).shell = s.shell := rfl
@[simp] theorem setCsp_boot (d : Nat) (v : Csp) : (setCsp s d v).boot = s.boot := rfl
@[simp] theorem setCsp_resp (d : Nat) (v : Csp) : (setCsp s d v).resp = s.resp := rfl
@[simp] theorem setCsp_fresh (d : Nat) (v : Csp) : (setCsp s d v).fresh = s.fresh := rfl
@[simp] theorem reg_setCsp (d : Nat) (v : Csp) (b : Nat) : reg (setCsp s d v) b = reg s b := rfl
@[simp] theorem tab_setCsp (d : Nat) (v : Csp) (u e j : Nat) : tab (setCsp s d v) u e j = tab s u e j := rfl
@[simp] theorem loadByte_setCsp (d : Nat) (v : Csp) (b : Nat) : loadByte (setCsp s d v) b = loadByte s b := rfl
@[simp] theorem eccAt_setCsp (d : Nat) (v : Csp) (b : Nat) : eccAt (setCsp s d v) b = eccAt s b := rfl
@[simp] theorem line_setCsp (d : Nat) (v : Csp) (e j : Nat) : line (setCsp s d v) e j = line s e j := rfl
@[simp] theorem lastPub_setCsp (d : Nat) (v : Csp) (e j : Nat) : lastPub (setCsp s d v) e j = lastPub s e j := rfl
@[simp] theorem slipLine_setCsp (d : Nat) (v : Csp) (e q j : Nat) : slipLine (setCsp s d v) e q j = slipLine s e q j := rfl
@[simp] theorem kern_setCsp (d : Nat) (v : Csp) (e j : Nat) : Machine.kern (setCsp s d v) e j = Machine.kern s e j := rfl
@[simp] theorem stew_setCsp (d : Nat) (v : Csp) (e j : Nat) : Machine.stew (setCsp s d v) e j = Machine.stew s e j := rfl
@[simp] theorem podX_setCsp (d : Nat) (v : Csp) (e j : Nat) : podX (setCsp s d v) e j = podX s e j := rfl
@[simp] theorem dieX_setCsp (d : Nat) (v : Csp) (e : Nat) : Machine.dieX (setCsp s d v) e = Machine.dieX s e := rfl
@[simp] theorem dom_setCsp (d : Nat) (v : Csp) (e j : Nat) : dom (setCsp s d v) e j = dom s e j := rfl
@[simp] theorem rowsOf_setCsp (d : Nat) (v : Csp) (e j : Nat) : rowsOf (setCsp s d v) e j = rowsOf s e j := rfl
@[simp] theorem bridge_setCsp (d : Nat) (v : Csp) (e j : Nat) : bridge (setCsp s d v) e j = bridge s e j := rfl
@[simp] theorem linkPort_setCsp (d : Nat) (v : Csp) (e : Nat) : linkPort (setCsp s d v) e = linkPort s e := rfl
@[simp] theorem caravan_setCsp (d : Nat) (v : Csp) (e j : Nat) : caravan (setCsp s d v) e j = caravan s e j := rfl
@[simp] theorem ddr_setCsp (d : Nat) (v : Csp) (e : Nat) : Machine.ddr (setCsp s d v) e = Machine.ddr s e := rfl
@[simp] theorem sap_setCsp (d : Nat) (v : Csp) (e j : Nat) : sap (setCsp s d v) e j = sap s e j := rfl
@[simp] theorem meter_setCsp (d : Nat) (v : Csp) (e j : Nat) : meter (setCsp s d v) e j = meter s e j := rfl
@[simp] theorem gen_setCsp (d : Nat) (v : Csp) (e j : Nat) : gen (setCsp s d v) e j = gen s e j := rfl

end Sys2Proof.Machine
end

