-- ==== Sys2Proof/Laws/Tables.lean ====
section
/-! SUPPORT. The canonical form table by table: what it says of each, what a reader gives after a write to its own table, and
that every update keeps it. -/
namespace Sys2Proof.Machine

variable {s : State}

theorem State.wf_regs (h : s.wf = true) : smWf (resetReg s.part) 0 s.regs = true := by
  simp only [State.wf, Bool.and_eq_true] at h; simp_all only
theorem State.wf_tabs (h : s.wf = true) : smWf tabReset 0 s.tabs = true := by
  simp only [State.wf, Bool.and_eq_true] at h; simp_all only
theorem State.wf_mem (h : s.wf = true) : Memory.wf s.mem = true := by
  simp only [State.wf, Bool.and_eq_true] at h; simp_all only
theorem State.wf_ecc (h : s.wf = true) : smWf (fun _ => EccMark.clean) 0 s.ecc = true := by
  simp only [State.wf, Bool.and_eq_true] at h; simp_all only
theorem State.wf_kern (h : s.wf = true) : smWf (fun _ => Kern.zero) 0 s.kern = true := by
  simp only [State.wf, Bool.and_eq_true] at h; simp_all only
theorem State.wf_stew (h : s.wf = true) : smWf Stew.zero 0 s.stew = true := by
  simp only [State.wf, Bool.and_eq_true] at h; simp_all only
theorem State.wf_lines (h : s.wf = true) : smWf (fun _ => deadLine) 0 s.lines = true := by
  simp only [State.wf, Bool.and_eq_true] at h; simp_all only
theorem State.wf_lastPub (h : s.wf = true) : smWf (fun _ => (0 : Word)) 0 s.lastPub = true := by
  simp only [State.wf, Bool.and_eq_true] at h; simp_all only
theorem State.wf_pub (h : s.wf = true) : smWf (fun _ => deadLine) 0 s.pub = true := by
  simp only [State.wf, Bool.and_eq_true] at h; simp_all only
theorem State.wf_slip (h : s.wf = true) : smWf (fun _ => (⟨0, false⟩ : Slip)) 0 s.slip = true := by
  simp only [State.wf, Bool.and_eq_true] at h; simp_all only
theorem State.wf_rows (h : s.wf = true) : smWf (fun _ => (⟨[], [], [], []⟩ : Rows)) 0 s.rows = true := by
  simp only [State.wf, Bool.and_eq_true] at h; simp_all only
theorem State.wf_pods (h : s.wf = true) : smWf (fun _ => PodX.zero) 0 s.pods = true := by
  simp only [State.wf, Bool.and_eq_true] at h; simp_all only
theorem State.wf_dieX (h : s.wf = true) : smWf (fun _ => DieX.zero) 0 s.dieX = true := by
  simp only [State.wf, Bool.and_eq_true] at h; simp_all only
theorem State.wf_doms (h : s.wf = true) : smWf (fun _ => DomX.zero) 0 s.doms = true := by
  simp only [State.wf, Bool.and_eq_true] at h; simp_all only
theorem State.wf_bridges (h : s.wf = true) : smWf (fun _ => BridgePort.zero) 0 s.bridges = true := by
  simp only [State.wf, Bool.and_eq_true] at h; simp_all only
theorem State.wf_link (h : s.wf = true) : smWf (fun _ => LinkPort.zero) 0 s.link = true := by
  simp only [State.wf, Bool.and_eq_true] at h; simp_all only
theorem State.wf_carav (h : s.wf = true) : smWf (fun _ => Caravan.zero) 0 s.carav = true := by
  simp only [State.wf, Bool.and_eq_true] at h; simp_all only
theorem State.wf_ddr (h : s.wf = true) : smWf (fun _ => Ddr.zero) 0 s.ddr = true := by
  simp only [State.wf, Bool.and_eq_true] at h; simp_all only
theorem State.wf_laEff (h : s.wf = true) : smWf (fun _ => (0 : Word)) 0 s.laEff = true := by
  simp only [State.wf, Bool.and_eq_true] at h; simp_all only
theorem State.wf_laHist (h : s.wf = true) : smWf (fun _ => ([] : List Line)) 0 s.laHist = true := by
  simp only [State.wf, Bool.and_eq_true] at h; simp_all only
theorem State.wf_saps (h : s.wf = true) : smWf (fun _ => SapPort.zero) 0 s.saps = true := by
  simp only [State.wf, Bool.and_eq_true] at h; simp_all only
theorem State.wf_meters (h : s.wf = true) : smWf (fun _ => Meter.zero) 0 s.meters = true := by
  simp only [State.wf, Bool.and_eq_true] at h; simp_all only
theorem State.wf_gens (h : s.wf = true) : smWf (fun _ => Gen.zero) 0 s.gens = true := by
  simp only [State.wf, Bool.and_eq_true] at h; simp_all only
theorem State.wf_csp (h : s.wf = true) : smWf (fun _ => Csp.zero) 0 s.csp = true := by
  simp only [State.wf, Bool.and_eq_true] at h; simp_all only
theorem State.wf_kernCore (h : s.wf = true) : (s.kern.all fun e => e.2.core.wf) = true := by
  simp only [State.wf, Bool.and_eq_true] at h; simp_all only
theorem State.wf_stewCore (h : s.wf = true) : (s.stew.all fun e => e.2.core.wf) = true := by
  simp only [State.wf, Bool.and_eq_true] at h; simp_all only

theorem reg_setReg (h : s.wf = true) (a : Nat) (w : Word) (b : Nat) :
    reg (setReg s a w) b = if b = a then w else reg s b :=
  smGet_smSet (State.wf_regs h) _ _ _
@[simp] theorem reg_setReg_same (h : s.wf = true) (a : Nat) (w : Word) : reg (setReg s a w) a = w :=
  smGet_smSet_same (State.wf_regs h) _ _

theorem tab_setTab (h : s.wf = true) (t d i : Nat) (w : Word) (u e j : Nat) :
    tab (setTab s t d i w) u e j = if tabKey u e j = tabKey t d i then w else tab s u e j :=
  smGet_smSet (State.wf_tabs h) _ _ _
@[simp] theorem tab_setTab_same (h : s.wf = true) (t d i : Nat) (w : Word) : tab (setTab s t d i w) t d i = w :=
  smGet_smSet_same (State.wf_tabs h) _ _

theorem loadByte_storeByte (h : s.wf = true) (a : Nat) (v : Byte) (b : Nat) :
    loadByte (storeByte s a v) b = if b = a then v else loadByte s b :=
  smGet_smSet (State.wf_mem h) _ _ _
@[simp] theorem loadByte_storeByte_same (h : s.wf = true) (a : Nat) (v : Byte) : loadByte (storeByte s a v) a = v :=
  smGet_smSet_same (State.wf_mem h) _ _

theorem eccAt_setEcc (h : s.wf = true) (a : Nat) (x : EccMark) (b : Nat) :
    eccAt (setEcc s a x) b = if b = a then x else eccAt s b :=
  smGet_smSet (State.wf_ecc h) _ _ _
@[simp] theorem eccAt_setEcc_same (h : s.wf = true) (a : Nat) (x : EccMark) : eccAt (setEcc s a x) a = x :=
  smGet_smSet_same (State.wf_ecc h) _ _

theorem lastPub_setLastPub (h : s.wf = true) (d n : Nat) (v : Word) (e j : Nat) :
    lastPub (setLastPub s d n v) e j = if e * 0x4000 + j = d * 0x4000 + n then v else lastPub s e j :=
  smGet_smSet (State.wf_lastPub h) _ _ _
@[simp] theorem lastPub_setLastPub_same (h : s.wf = true) (d n : Nat) (v : Word) : lastPub (setLastPub s d n v) d n = v :=
  smGet_smSet_same (State.wf_lastPub h) _ _

theorem slipLine_setSlip (h : s.wf = true) (d p n : Nat) (v : Slip) (e q j : Nat) :
    slipLine (setSlip s d p n v) e q j = if (e * 8 + q) * 256 + j = (d * 8 + p) * 256 + n then v else slipLine s e q j :=
  smGet_smSet (State.wf_slip h) _ _ _
@[simp] theorem slipLine_setSlip_same (h : s.wf = true) (d p n : Nat) (v : Slip) : slipLine (setSlip s d p n v) d p n = v :=
  smGet_smSet_same (State.wf_slip h) _ _

theorem kern_setKern (h : s.wf = true) (d k : Nat) (v : Kern) (e j : Nat) :
    Machine.kern (setKern s d k v) e j = if e * 144 + j = d * 144 + k then v else Machine.kern s e j :=
  smGet_smSet (State.wf_kern h) _ _ _
@[simp] theorem kern_setKern_same (h : s.wf = true) (d k : Nat) (v : Kern) : Machine.kern (setKern s d k v) d k = v :=
  smGet_smSet_same (State.wf_kern h) _ _

theorem stew_setStew (h : s.wf = true) (d i : Nat) (v : Stew) (e j : Nat) :
    Machine.stew (setStew s d i v) e j = if e * 2 + j = d * 2 + i then v else Machine.stew s e j :=
  smGet_smSet (State.wf_stew h) _ _ _
@[simp] theorem stew_setStew_same (h : s.wf = true) (d i : Nat) (v : Stew) : Machine.stew (setStew s d i v) d i = v :=
  smGet_smSet_same (State.wf_stew h) _ _

theorem podX_setPodX (h : s.wf = true) (d p : Nat) (v : PodX) (e j : Nat) :
    podX (setPodX s d p v) e j = if e * 8 + j = d * 8 + p then v else podX s e j :=
  smGet_smSet (State.wf_pods h) _ _ _
@[simp] theorem podX_setPodX_same (h : s.wf = true) (d p : Nat) (v : PodX) : podX (setPodX s d p v) d p = v :=
  smGet_smSet_same (State.wf_pods h) _ _

theorem dieX_setDieX (h : s.wf = true) (d : Nat) (v : DieX) (e : Nat) :
    Machine.dieX (setDieX s d v) e = if e = d then v else Machine.dieX s e :=
  smGet_smSet (State.wf_dieX h) _ _ _
@[simp] theorem dieX_setDieX_same (h : s.wf = true) (d : Nat) (v : DieX) : Machine.dieX (setDieX s d v) d = v :=
  smGet_smSet_same (State.wf_dieX h) _ _

theorem dom_setDom (h : s.wf = true) (d m : Nat) (v : DomX) (e j : Nat) :
    dom (setDom s d m v) e j = if e * 9 + j = d * 9 + m then v else dom s e j :=
  smGet_smSet (State.wf_doms h) _ _ _
@[simp] theorem dom_setDom_same (h : s.wf = true) (d m : Nat) (v : DomX) : dom (setDom s d m v) d m = v :=
  smGet_smSet_same (State.wf_doms h) _ _

theorem rowsOf_setRows (h : s.wf = true) (d p : Nat) (v : Rows) (e j : Nat) :
    rowsOf (setRows s d p v) e j = if e * 9 + j = d * 9 + p then v else rowsOf s e j :=
  smGet_smSet (State.wf_rows h) _ _ _
@[simp] theorem rowsOf_setRows_same (h : s.wf = true) (d p : Nat) (v : Rows) : rowsOf (setRows s d p v) d p = v :=
  smGet_smSet_same (State.wf_rows h) _ _

theorem bridge_setBridge (h : s.wf = true) (d n : Nat) (v : BridgePort) (e j : Nat) :
    bridge (setBridge s d n v) e j = if e * 3 + j = d * 3 + n then v else bridge s e j :=
  smGet_smSet (State.wf_bridges h) _ _ _
@[simp] theorem bridge_setBridge_same (h : s.wf = true) (d n : Nat) (v : BridgePort) : bridge (setBridge s d n v) d n = v :=
  smGet_smSet_same (State.wf_bridges h) _ _

theorem linkPort_setLinkPort (h : s.wf = true) (d : Nat) (v : LinkPort) (e : Nat) :
    linkPort (setLinkPort s d v) e = if e = d then v else linkPort s e :=
  smGet_smSet (State.wf_link h) _ _ _
@[simp] theorem linkPort_setLinkPort_same (h : s.wf = true) (d : Nat) (v : LinkPort) : linkPort (setLinkPort s d v) d = v :=
  smGet_smSet_same (State.wf_link h) _ _

theorem caravan_setCaravan (h : s.wf = true) (d p : Nat) (v : Caravan) (e j : Nat) :
    caravan (setCaravan s d p v) e j = if e * 8 + j = d * 8 + p then v else caravan s e j :=
  smGet_smSet (State.wf_carav h) _ _ _
@[simp] theorem caravan_setCaravan_same (h : s.wf = true) (d p : Nat) (v : Caravan) : caravan (setCaravan s d p v) d p = v :=
  smGet_smSet_same (State.wf_carav h) _ _

theorem ddr_setDdr (h : s.wf = true) (d : Nat) (v : Ddr) (e : Nat) :
    Machine.ddr (setDdr s d v) e = if e = d then v else Machine.ddr s e :=
  smGet_smSet (State.wf_ddr h) _ _ _
@[simp] theorem ddr_setDdr_same (h : s.wf = true) (d : Nat) (v : Ddr) : Machine.ddr (setDdr s d v) d = v :=
  smGet_smSet_same (State.wf_ddr h) _ _

theorem sap_setSap (h : s.wf = true) (d m : Nat) (v : SapPort) (e j : Nat) :
    sap (setSap s d m v) e j = if e * 10 + j = d * 10 + m then v else sap s e j :=
  smGet_smSet (State.wf_saps h) _ _ _
@[simp] theorem sap_setSap_same (h : s.wf = true) (d m : Nat) (v : SapPort) : sap (setSap s d m v) d m = v :=
  smGet_smSet_same (State.wf_saps h) _ _

theorem meter_setMeter (h : s.wf = true) (d m : Nat) (v : Meter) (e j : Nat) :
    meter (setMeter s d m v) e j = if e * 512 + j = d * 512 + m then v else meter s e j :=
  smGet_smSet (State.wf_meters h) _ _ _
@[simp] theorem meter_setMeter_same (h : s.wf = true) (d m : Nat) (v : Meter) : meter (setMeter s d m v) d m = v :=
  smGet_smSet_same (State.wf_meters h) _ _

theorem gen_setGen (h : s.wf = true) (d c : Nat) (v : Gen) (e j : Nat) :
    gen (setGen s d c v) e j = if e * 8 + j = d * 8 + c then v else gen s e j :=
  smGet_smSet (State.wf_gens h) _ _ _
@[simp] theorem gen_setGen_same (h : s.wf = true) (d c : Nat) (v : Gen) : gen (setGen s d c v) d c = v :=
  smGet_smSet_same (State.wf_gens h) _ _

theorem csp_setCsp (h : s.wf = true) (d : Nat) (v : Csp) (e : Nat) :
    Machine.csp (setCsp s d v) e = if e = d then v else Machine.csp s e :=
  smGet_smSet (State.wf_csp h) _ _ _
@[simp] theorem csp_setCsp_same (h : s.wf = true) (d : Nat) (v : Csp) : Machine.csp (setCsp s d v) d = v :=
  smGet_smSet_same (State.wf_csp h) _ _

/-! ### Every update keeps the canonical form -/

/-- The entries of a table after a write are the old ones and the one written. -/
theorem smSet_all {α : Type} [DecidableEq α] {d : Nat → α} {p : Nat × α → Bool} {m : List (Nat × α)}
    (h : m.all p = true) {k : Nat} {v : α} (hv : v ≠ d k → p (k, v) = true) : (smSet d k v m).all p = true := by
  induction m with
  | nil =>
    by_cases e : v = d k
    · simp [smSet, e]
    · simp [smSet, e, hv e]
  | cons e m ih =>
    obtain ⟨k', v'⟩ := e
    simp only [List.all_cons, Bool.and_eq_true] at h
    have ihm := ih h.2
    by_cases e1 : k < k'
    · by_cases e : v = d k
      · simp only [smSet, e1, e, if_true, List.all_cons, h.1, h.2, Bool.and_self]
      · simp only [smSet, e1, e, if_true, if_false, List.all_cons, h.1, h.2, hv e, Bool.and_self]
    · by_cases e2 : k = k'
      · subst e2
        by_cases e : v = d k
        · simp only [smSet, e1, e, if_true, if_false, h.2]
        · simp only [smSet, e1, e, if_true, if_false, List.all_cons, h.2, hv e, Bool.and_self]
      · simp only [smSet, e1, e2, if_false, List.all_cons, h.1, ihm, Bool.and_self]

theorem State.wf_setReg (h : s.wf = true) (a : Nat) (w : Word) : (setReg s a w).wf = true := by
  have h1 := h
  simp only [State.wf, Bool.and_eq_true, setReg] at h1 ⊢
  have h2 := smWf_smSet (State.wf_regs h) (Nat.zero_le (a)) w
  simp_all only [and_self]
theorem State.wf_setTab (h : s.wf = true) (t d i : Nat) (w : Word) : (setTab s t d i w).wf = true := by
  have h1 := h
  simp only [State.wf, Bool.and_eq_true, setTab] at h1 ⊢
  have h2 := smWf_smSet (State.wf_tabs h) (Nat.zero_le (tabKey t d i)) w
  simp_all only [and_self]
theorem State.wf_storeByte (h : s.wf = true) (a : Nat) (v : Byte) : (storeByte s a v).wf = true := by
  have h1 := h
  simp only [State.wf, Bool.and_eq_true, storeByte] at h1 ⊢
  have h2 := smWf_smSet (State.wf_mem h) (Nat.zero_le (a)) v
  simp_all only [and_self]
theorem State.wf_setEcc (h : s.wf = true) (a : Nat) (x : EccMark) : (setEcc s a x).wf = true := by
  have h1 := h
  simp only [State.wf, Bool.and_eq_true, setEcc] at h1 ⊢
  have h2 := smWf_smSet (State.wf_ecc h) (Nat.zero_le (a)) x
  simp_all only [and_self]
theorem State.wf_publish (h : s.wf = true) (d n : Nat) (v : Word) (ok : Bool) : (publish s d n v ok).wf = true := by
  have h1 := h
  simp only [State.wf, Bool.and_eq_true, publish] at h1 ⊢
  have h2 := smWf_smSet (State.wf_pub h) (Nat.zero_le (d * 0x4000 + n)) ⟨v, ok⟩
  simp_all only [and_self]
theorem State.wf_setLastPub (h : s.wf = true) (d n : Nat) (v : Word) : (setLastPub s d n v).wf = true := by
  have h1 := h
  simp only [State.wf, Bool.and_eq_true, setLastPub] at h1 ⊢
  have h2 := smWf_smSet (State.wf_lastPub h) (Nat.zero_le (d * 0x4000 + n)) v
  simp_all only [and_self]
theorem State.wf_setSlip (h : s.wf = true) (d p n : Nat) (v : Slip) : (setSlip s d p n v).wf = true := by
  have h1 := h
  simp only [State.wf, Bool.and_eq_true, setSlip] at h1 ⊢
  have h2 := smWf_smSet (State.wf_slip h) (Nat.zero_le ((d * 8 + p) * 256 + n)) v
  simp_all only [and_self]
theorem State.wf_setKern (h : s.wf = true) (d k : Nat) (v : Kern) (hv : v.core.wf = true) : (setKern s d k v).wf = true := by
  have h1 := h
  simp only [State.wf, Bool.and_eq_true, setKern] at h1 ⊢
  have h2 := smWf_smSet (State.wf_kern h) (Nat.zero_le (d * 144 + k)) v
  have h3 := smSet_all (d := fun _ => Kern.zero) (k := d * 144 + k) (State.wf_kernCore h) (v := v) (fun _ => hv)
  simp_all only [and_self]
theorem State.wf_setStew (h : s.wf = true) (d i : Nat) (v : Stew) (hv : v.core.wf = true) : (setStew s d i v).wf = true := by
  have h1 := h
  simp only [State.wf, Bool.and_eq_true, setStew] at h1 ⊢
  have h2 := smWf_smSet (State.wf_stew h) (Nat.zero_le (d * 2 + i)) v
  have h3 := smSet_all (d := Stew.zero) (k := d * 2 + i) (State.wf_stewCore h) (v := v) (fun _ => hv)
  simp_all only [and_self]
theorem State.wf_setPodX (h : s.wf = true) (d p : Nat) (v : PodX) : (setPodX s d p v).wf = true := by
  have h1 := h
  simp only [State.wf, Bool.and_eq_true, setPodX] at h1 ⊢
  have h2 := smWf_smSet (State.wf_pods h) (Nat.zero_le (d * 8 + p)) v
  simp_all only [and_self]
theorem State.wf_setDieX (h : s.wf = true) (d : Nat) (v : DieX) : (setDieX s d v).wf = true := by
  have h1 := h
  simp only [State.wf, Bool.and_eq_true, setDieX] at h1 ⊢
  have h2 := smWf_smSet (State.wf_dieX h) (Nat.zero_le (d)) v
  simp_all only [and_self]
theorem State.wf_setDom (h : s.wf = true) (d m : Nat) (v : DomX) : (setDom s d m v).wf = true := by
  have h1 := h
  simp only [State.wf, Bool.and_eq_true, setDom] at h1 ⊢
  have h2 := smWf_smSet (State.wf_doms h) (Nat.zero_le (d * 9 + m)) v
  simp_all only [and_self]
theorem State.wf_setRows (h : s.wf = true) (d p : Nat) (v : Rows) : (setRows s d p v).wf = true := by
  have h1 := h
  simp only [State.wf, Bool.and_eq_true, setRows] at h1 ⊢
  have h2 := smWf_smSet (State.wf_rows h) (Nat.zero_le (d * 9 + p)) v
  simp_all only [and_self]
theorem State.wf_setBridge (h : s.wf = true) (d n : Nat) (v : BridgePort) : (setBridge s d n v).wf = true := by
  have h1 := h
  simp only [State.wf, Bool.and_eq_true, setBridge] at h1 ⊢
  have h2 := smWf_smSet (State.wf_bridges h) (Nat.zero_le (d * 3 + n)) v
  simp_all only [and_self]
theorem State.wf_setLinkPort (h : s.wf = true) (d : Nat) (v : LinkPort) : (setLinkPort s d v).wf = true := by
  have h1 := h
  simp only [State.wf, Bool.and_eq_true, setLinkPort] at h1 ⊢
  have h2 := smWf_smSet (State.wf_link h) (Nat.zero_le (d)) v
  simp_all only [and_self]
theorem State.wf_setCaravan (h : s.wf = true) (d p : Nat) (v : Caravan) : (setCaravan s d p v).wf = true := by
  have h1 := h
  simp only [State.wf, Bool.and_eq_true, setCaravan] at h1 ⊢
  have h2 := smWf_smSet (State.wf_carav h) (Nat.zero_le (d * 8 + p)) v
  simp_all only [and_self]
theorem State.wf_setDdr (h : s.wf = true) (d : Nat) (v : Ddr) : (setDdr s d v).wf = true := by
  have h1 := h
  simp only [State.wf, Bool.and_eq_true, setDdr] at h1 ⊢
  have h2 := smWf_smSet (State.wf_ddr h) (Nat.zero_le (d)) v
  simp_all only [and_self]
theorem State.wf_setSap (h : s.wf = true) (d m : Nat) (v : SapPort) : (setSap s d m v).wf = true := by
  have h1 := h
  simp only [State.wf, Bool.and_eq_true, setSap] at h1 ⊢
  have h2 := smWf_smSet (State.wf_saps h) (Nat.zero_le (d * 10 + m)) v
  simp_all only [and_self]
theorem State.wf_setMeter (h : s.wf = true) (d m : Nat) (v : Meter) : (setMeter s d m v).wf = true := by
  have h1 := h
  simp only [State.wf, Bool.and_eq_true, setMeter] at h1 ⊢
  have h2 := smWf_smSet (State.wf_meters h) (Nat.zero_le (d * 512 + m)) v
  simp_all only [and_self]
theorem State.wf_setGen (h : s.wf = true) (d c : Nat) (v : Gen) : (setGen s d c v).wf = true := by
  have h1 := h
  simp only [State.wf, Bool.and_eq_true, setGen] at h1 ⊢
  have h2 := smWf_smSet (State.wf_gens h) (Nat.zero_le (d * 8 + c)) v
  simp_all only [and_self]
theorem State.wf_setCsp (h : s.wf = true) (d : Nat) (v : Csp) : (setCsp s d v).wf = true := by
  have h1 := h
  simp only [State.wf, Bool.and_eq_true, setCsp] at h1 ⊢
  have h2 := smWf_smSet (State.wf_csp h) (Nat.zero_le (d)) v
  simp_all only [and_self]

theorem State.wf_setFld (h : s.wf = true) (a : Nat) (f : Fld) (v : Nat) : (setFld s a f v).wf = true :=
  State.wf_setReg h a _

theorem State.wf_incReg (h : s.wf = true) (a : Nat) : (incReg s a).wf = true := State.wf_setReg h a _

theorem State.wf_incFld (h : s.wf = true) (a : Nat) (f : Fld) : (incFld s a f).wf = true := State.wf_setFld h a f _

theorem State.wf_satFld (h : s.wf = true) (a : Nat) (f : Fld) : (satFld s a f).wf = true := by
  unfold satFld; split
  · exact State.wf_incFld h a f
  · exact h

/-- What a fold keeps: an invariant of every step of it. -/
theorem each_keeps {β : Type} {P : State → Prop} (xs : List β) (f : β → State → State)
    (hf : ∀ x ∈ xs, ∀ t, P t → P (f x t)) (h : P s) : P (each xs f s) := by
  unfold each
  induction xs generalizing s with
  | nil => exact h
  | cons x xs ih =>
    exact ih (fun y hy t => hf y (List.mem_cons_of_mem _ hy) t) (hf x List.mem_cons_self s h)

theorem State.wf_each {β : Type} (xs : List β) (f : β → State → State)
    (hf : ∀ x ∈ xs, ∀ t, t.wf = true → (f x t).wf = true) (h : s.wf = true) : (each xs f s).wf = true :=
  each_keeps xs f hf h

end Sys2Proof.Machine
end

