-- ==== Sys2Proof/Laws/Commands.lean ====
section
/-! SUPPORT. What the operations that every row shares answer: guards, the bus, register writes. -/
namespace Sys2Proof.Machine

variable {s t : State}

/-! ### Guards -/

/-- An event has its effect where its condition holds, and otherwise none. -/
theorem whenDue_next {b : Bool} {u : State} : whenDue s b u = .next t ↔ (b = true ∧ t = u) ∨ (b = false ∧ t = s) := by
  cases b <;> simp [whenDue, eq_comm]

theorem whenDue_true {b : Bool} {u : State} (h : b = true) : whenDue s b u = .next u := by simp [whenDue, h]

/-- It answers a next state in every case. -/
theorem whenDue_answers {b : Bool} {u : State} : ∃ t, whenDue s b u = .next t := ⟨_, rfl⟩

/-- A command for a unit that the part has answers a next state where the command does. -/
theorem onUnit_answers {b : Bool} {k : Out} (h : b = true) (hk : ∃ t, k = .next t) : ∃ t, onUnit b k = .next t := by
  simpa [onUnit, h] using hk

/-- A command for a unit answers a next state exactly where the part has the unit and the command does. -/
theorem onUnit_next {b : Bool} {k : Out} : onUnit b k = .next t ↔ b = true ∧ k = .next t := by
  cases b <;> simp [onUnit]

theorem onUnit_true {b : Bool} {k : Out} (h : b = true) : onUnit b k = k := by simp [onUnit, h]

/-! ### Register addresses -/

theorem addrDie_regA {d q o : Nat} (hq : q < 0x10000) (ho : o < 0x1000) : addrDie (regA d q o) = d := by
  unfold addrDie regA; omega

theorem addrLocal_regA {d q o : Nat} (hq : q < 0x10000) (ho : o < 0x1000) :
    addrLocal (regA d q o) = 0x4000_0000 + q * 0x1000 + o := by
  unfold addrLocal regA; omega

theorem addrPage_regA {d q o : Nat} (hq : q < 0x10000) (ho : o < 0x1000) : addrPage (regA d q o) = q := by
  unfold addrPage; rw [addrLocal_regA hq ho]; omega

theorem addrOff_regA {d q o : Nat} (hq : q < 0x10000) (ho : o < 0x1000) : addrOff (regA d q o) = o := by
  unfold addrOff; rw [addrLocal_regA hq ho]; omega

/-! ### The bus -/

/-- What the bus adds to its target's answer: the response, and a record of an error that R361 names. -/
theorem answer_cases (d addr : Nat) (a : Access) (write : Bool) (x : Ans) :
    (∃ k, x.2 = .err (some k) ∧ answer d addr a write x = { busError x.1 d k addr a write with resp := x.2 }) ∨
    ((∀ k, x.2 ≠ .err (some k)) ∧ answer d addr a write x = { x.1 with resp := x.2 }) := by
  unfold answer
  split
  · next k hk => exact Or.inl ⟨k, hk, by rw [hk]⟩
  · next hk => exact Or.inr ⟨hk, rfl⟩

/-- An answer without an error leaves the target's state but for the response. -/
theorem answer_ok (d addr : Nat) (a : Access) (write : Bool) (x : State) (v : BitVec 64) :
    answer d addr a write (x, .ok v) = { x with resp := .ok v } := rfl

/-- So does a refusal. -/
theorem answer_refused (d addr : Nat) (a : Access) (write : Bool) (x : State) :
    answer d addr a write (x, .err none) = { x with resp := .err none } := rfl

/-- A write that reaches a register is the register's own write, answered. -/
theorem regCmd_reaches {a : Access} {d q o : Nat} (h : reachesReg s a (regA d q o) = true) (hq : q < 0x10000)
    (ho : o < 0x1000) (h4 : o % 4 = 0) (hp : (pageRows q).isEmpty = false) (v : Word) :
    regCmd a (regA d q o) v s = .next (answer d (regA d q o) a true (regWrite s d q o a v)) := by
  unfold reachesReg at h
  rw [addrDie_regA hq ho, addrPage_regA hq ho, addrLocal_regA hq ho] at h
  simp only [Bool.and_eq_true] at h
  obtain ⟨⟨⟨⟨⟨⟨⟨-, ha⟩, hr⟩, hm⟩, hreach⟩, hc⟩, hf⟩, hg⟩ := h
  have hloc : ¬ (0x4000_0000 + q * 0x1000 + o + 4 ≤ 0x40_0000) := by omega
  have h1 : ¬ (0x4000_0000 + q * 0x1000 + o < 0x1001_0000) := by omega
  have h2 : ¬ (0x4000_0000 + q * 0x1000 + o < 0x2080_0000) := by omega
  have h3 : ¬ (0x4000_0000 + q * 0x1000 + o < 0x3240_0000) := by omega
  have h5 : 0x4000_0000 ≤ 0x4000_0000 + q * 0x1000 + o := by omega
  have h6 : 0x4000_0000 + q * 0x1000 + o < 0x5000_0000 := by omega
  have h7 : (0x4000_0000 + q * 0x1000 + o - 0x4000_0000) / 0x1000 = q := by omega
  have h8 : (0x4000_0000 + q * 0x1000 + o) % 0x1000 = o := by omega
  have ht : target s d (0x4000_0000 + q * 0x1000 + o) 4 = .page q o := by
    unfold target
    simp only [hloc, h1, h2, h3, h5, h6, h7, h8, hp, if_false, if_true, decide_false, decide_true, Bool.and_false,
      Bool.and_true, Bool.false_eq_true]
  have hw : targetWrite s d (0x4000_0000 + q * 0x1000 + o) 4 a v.toNat = regWrite s d q o a v := by
    unfold targetWrite
    rw [ht]
    simp [targetAnswers, hg, h4]
  unfold regCmd busWrite busAccess
  rw [onUnit_true ha, addrDie_regA hq ho, addrLocal_regA hq ho]
  simp only [hr, hm, hreach, hc, hf, hw, Bool.not_true, Bool.and_self, Bool.false_eq_true, if_false]

end Sys2Proof.Machine
end

