-- ==== Sys2Proof/Laws/Memory.lean ====
section
/-! SUPPORT. Memory: every operation on it keeps the canonical form, a byte that was written reads what was written, and every
other byte reads as before. -/
namespace Sys2Proof.Machine

variable {s : State}

/-! ### The canonical form -/

/-- Reset memory lists nothing. -/
theorem reset_mem_wf : Memory.wf State.reset.mem = true := rfl

/-- A byte written keeps the canonical form. -/
theorem mem_wf_storeByte (h : Memory.wf s.mem = true) (a : Nat) (v : Byte) : Memory.wf (storeByte s a v).mem = true :=
  smWf_smSet h (Nat.zero_le a) v

/-- Bytes written one after the other keep it. -/
theorem mem_wf_storeBytes (h : Memory.wf s.mem = true) (a v n : Nat) : Memory.wf (storeBytes s a v n).mem = true := by
  induction n generalizing s a v with
  | zero => exact h
  | succ n ih => exact ih (mem_wf_storeByte h a _) (a + 1) (v / 256)

/-- A word written keeps it. -/
theorem mem_wf_storeW (h : Memory.wf s.mem = true) (a : Nat) (w : Word) : Memory.wf (storeW s a w).mem = true :=
  mem_wf_storeBytes h a _ 4

/-- A list of bytes written keeps it. -/
theorem mem_wf_storeList (h : Memory.wf s.mem = true) (a : Nat) (bs : List Byte) : Memory.wf (storeList s a bs).mem = true := by
  unfold storeList
  induction bs generalizing s a with
  | nil => exact h
  | cons b bs ih => exact ih (mem_wf_storeByte h a b) (a + 1)

/-- Memory whose cells are left out in part keeps it. -/
theorem mem_wf_filter {m : List Host.Cell} (h : Memory.wf m = true) (p : Host.Cell → Bool) : Memory.wf (m.filter p) = true :=
  smWf_filter h p

/-- A range cleared keeps it. -/
theorem mem_wf_clearMem (h : Memory.wf s.mem = true) (lo hi : Nat) : Memory.wf (clearMem s lo hi).mem = true :=
  mem_wf_filter h _

/-- Canonical tables joined, the first below a bound and the second from it up. -/
theorem smWf_append {α : Type} [DecidableEq α] {d : Nat → α} {lo mid : Nat} {m n : List (Nat × α)} (hm : smWf d lo m = true)
    (hl : lo ≤ mid) (hb : ∀ e ∈ m, e.1 < mid) (hn : smWf d mid n = true) : smWf d lo (m ++ n) = true := by
  induction m generalizing lo with
  | nil => exact smWf_mono hn hl
  | cons e m ih =>
    obtain ⟨k, v⟩ := e
    have hk : k < mid := hb (k, v) List.mem_cons_self
    simp only [smWf, Bool.and_eq_true, decide_eq_true_eq] at hm
    have h1 := ih hm.2 hk (fun e he => hb e (List.mem_cons_of_mem _ he))
    simp only [List.cons_append, smWf, Bool.and_eq_true, decide_eq_true_eq]
    exact ⟨hm.1, h1⟩

/-- A canonical table whose keys are at least `mid` is canonical from there. -/
theorem smWf_from {α : Type} [DecidableEq α] {d : Nat → α} {lo mid : Nat} {m : List (Nat × α)} (h : smWf d lo m = true)
    (hb : ∀ e ∈ m, mid ≤ e.1) : smWf d mid m = true := by
  cases m with
  | nil => rfl
  | cons e m =>
    obtain ⟨k, v⟩ := e
    have hk : mid ≤ k := hb (k, v) List.mem_cons_self
    simp only [smWf, Bool.and_eq_true, decide_eq_true_eq] at h ⊢
    exact ⟨⟨hk, h.1.2⟩, h.2⟩

/-- Cells moved up or down by one distance stay canonical. -/
theorem mem_wf_shift {lo src dst : Nat} {m : List Host.Cell} (h : smWf memDefault lo m = true) (hs : src ≤ lo) :
    smWf memDefault (lo - src + dst) (m.map fun e => (e.1 - src + dst, e.2)) = true := by
  induction m generalizing lo with
  | nil => rfl
  | cons e m ih =>
    obtain ⟨k, v⟩ := e
    simp only [smWf, Bool.and_eq_true, decide_eq_true_eq] at h
    have h1 := ih h.2 (by omega)
    have h2 : k + 1 - src + dst = k - src + dst + 1 := by omega
    rw [h2] at h1
    have h3 : lo - src + dst ≤ k - src + dst := by omega
    simp only [List.map_cons, smWf, Bool.and_eq_true, decide_eq_true_eq]
    exact ⟨⟨h3, h.1.2⟩, h1⟩

/-- A field that counts up to its largest value is a register's. -/
@[simp] theorem satFld_mem (a : Nat) (f : Fld) : (satFld s a f).mem = s.mem := by
  unfold satFld; split
  · exact setFld_mem s a f _
  · rfl

/-- A corrected word of a kernel changes no memory. -/
@[simp] theorem kernelCorrected_mem (d k mem : Nat) (b : Bool) (w a : Nat) : (kernelCorrected s d k mem b w a).mem = s.mem := by
  unfold kernelCorrected
  simp only [setEcc_mem, setFld_mem, satFld_mem]

/-- A copy's or a check's correction of words changes no memory. -/
@[simp] theorem scrubKernel_mem (d k lo hi : Nat) : (scrubKernel s d k lo hi).mem = s.mem := by
  unfold scrubKernel
  exact each_keeps (P := fun t => t.mem = s.mem) _ _ (fun _ _ t ht => (kernelCorrected_mem ..).trans ht) rfl

/-- A kernel's memories copied to another's keep the canonical form. -/
theorem mem_wf_copyMem (h : Memory.wf s.mem = true) (d j k : Nat) : Memory.wf (copyMem s d j k).mem = true := by
  have hb := smWf_filter h (fun e => decide (e.1 < kernWin d k))
  have hs := smWf_filter h (fun e => decide (kernWin d j ≤ e.1) && decide (e.1 < kernWin d j + 0x2_0000))
  have ha := smWf_filter h (fun e => decide (kernWin d k + 0x2_0000 ≤ e.1))
  have hs1 := smWf_from (mid := kernWin d j) hs (fun e he => by
    simp only [List.mem_filter, Bool.and_eq_true, decide_eq_true_eq] at he; exact he.2.1)
  have hm := mem_wf_shift (src := kernWin d j) (dst := kernWin d k) hs1 (Nat.le_refl _)
  rw [Nat.sub_self, Nat.zero_add] at hm
  have ha1 := smWf_from (mid := kernWin d k + 0x2_0000) ha (fun e he => by
    simp only [List.mem_filter, decide_eq_true_eq] at he; exact he.2)
  have hmid := smWf_append hm (Nat.le_add_right _ _) (fun e he => by
    simp only [List.mem_map, List.mem_filter, Bool.and_eq_true, decide_eq_true_eq] at he
    obtain ⟨x, hx, rfl⟩ := he
    simp only
    omega) ha1
  have hall := smWf_append hb (Nat.zero_le _) (fun e he => by
    simp only [List.mem_filter, decide_eq_true_eq] at he; exact he.2) hmid
  rw [← List.append_assoc] at hall
  unfold copyMem
  simp only [scrubKernel_mem]
  exact hall

/-! ### State.wf -/

theorem State.wf_storeBytes (h : s.wf = true) (a v n : Nat) : (storeBytes s a v n).wf = true := by
  induction n generalizing s a v with
  | zero => exact h
  | succ n ih => exact ih (State.wf_storeByte h a _) (a + 1) (v / 256)

theorem State.wf_storeW (h : s.wf = true) (a : Nat) (w : Word) : (storeW s a w).wf = true := State.wf_storeBytes h a _ 4

theorem State.wf_storeList (h : s.wf = true) (a : Nat) (bs : List Byte) : (storeList s a bs).wf = true := by
  unfold storeList
  induction bs generalizing s a with
  | nil => exact h
  | cons b bs ih => exact ih (State.wf_storeByte h a b) (a + 1)

/-! ### What reads give -/

/-- A byte outside the bytes written reads as before. -/
theorem loadByte_storeBytes_ne (h : Memory.wf s.mem = true) (a v n b : Nat) (hb : b < a ∨ a + n ≤ b) :
    loadByte (storeBytes s a v n) b = loadByte s b := by
  induction n generalizing s a v with
  | zero => rfl
  | succ n ih =>
    have h1 := ih (mem_wf_storeByte h a (BitVec.ofNat 8 v)) (a + 1) (v / 256) (by omega)
    have h2 : loadByte (storeByte s a (BitVec.ofNat 8 v)) b = loadByte s b :=
      smGet_smSet_ne h (show b ≠ a by omega) _
    exact h1.trans h2

/-- Bytes that were written read what was written. -/
theorem loadBytes_storeBytes (h : Memory.wf s.mem = true) (a v n : Nat) :
    loadBytes (storeBytes s a v n) a n = v % 256 ^ n := by
  induction n generalizing s a v with
  | zero => simp [loadBytes, Nat.mod_one]
  | succ n ih =>
    have hw := mem_wf_storeByte h a (BitVec.ofNat 8 v)
    have h1 : loadByte (storeBytes (storeByte s a (BitVec.ofNat 8 v)) (a + 1) (v / 256) n) a = BitVec.ofNat 8 v :=
      (loadByte_storeBytes_ne hw _ _ _ _ (Or.inl (Nat.lt_succ_self a))).trans (smGet_smSet_same h a _)
    have h2 := ih hw (a + 1) (v / 256)
    simp only [loadBytes, storeBytes]
    have h3 : 256 ^ (n + 1) = 256 * 256 ^ n := by rw [Nat.pow_succ, Nat.mul_comm]
    rw [h1, h2, BitVec.toNat_ofNat, h3, Nat.mod_mul]

/-- A word that was written reads back. -/
theorem loadW_storeW (h : Memory.wf s.mem = true) (a : Nat) (w : Word) : loadW (storeW s a w) a = w := by
  unfold loadW storeW
  rw [loadBytes_storeBytes h, Nat.mod_eq_of_lt (Nat.lt_of_lt_of_le w.isLt (by decide)), BitVec.ofNat_toNat, BitVec.setWidth_eq]

/-- Other words read as before. -/
theorem loadBytes_storeBytes_ne (h : Memory.wf s.mem = true) (a v n b k : Nat) (hb : b + k ≤ a ∨ a + n ≤ b) :
    loadBytes (storeBytes s a v n) b k = loadBytes s b k := by
  induction k generalizing b with
  | zero => rfl
  | succ k ih =>
    simp only [loadBytes]
    rw [loadByte_storeBytes_ne h a v n b (by omega), ih (b + 1) (by omega)]

/-- Storing bytes changes memory alone. -/
theorem storeBytes_eq (s : State) (a v n : Nat) : storeBytes s a v n = { s with mem := (storeBytes s a v n).mem } := by
  induction n generalizing s a v with
  | zero => rfl
  | succ n ih =>
    have h := ih (storeByte s a (BitVec.ofNat 8 v)) (a + 1) (v / 256)
    simp only [storeBytes]
    rw [h]
    rfl

end Sys2Proof.Machine
end

