-- ==== Sys2Proof/Laws/Slots.lean ====
section
/-! SUPPORT. One slot of a core: what a row whose slot runs answers, that control after a slot touches only the registers of
control, and that the written registers read back. -/
namespace Sys2Proof.Machine

variable {s t : State} {c : CoreRef} {m : Mode}

/-! ### The core of a reference -/

/-- The tables of kernels and stewards in canonical form. -/
def CoresWf (s : State) : Prop := smWf (fun _ => Kern.zero) 0 s.kern = true ∧ smWf Stew.zero 0 s.stew = true

theorem State.coresWf (h : s.wf = true) : CoresWf s := ⟨State.wf_kern h, State.wf_stew h⟩

/-- A core that was set reads back. -/
theorem coreOf_setCore (h : CoresWf s) (v : Core) : coreOf (setCore s c v) c = v := by
  unfold coreOf setCore
  cases c.stew with
  | true =>
    simp only [if_true]
    exact congrArg Stew.core (smGet_smSet_same h.2 _ _)
  | false =>
    simp only [Bool.false_eq_true, if_false]
    exact congrArg Kern.core (smGet_smSet_same h.1 _ _)

/-- Setting a core keeps the tables canonical. -/
theorem CoresWf.setCore (h : CoresWf s) (v : Core) : CoresWf (setCore s c v) := by
  unfold Machine.setCore
  split
  · exact ⟨h.1, smWf_smSet h.2 (Nat.zero_le _) _⟩
  · exact ⟨smWf_smSet h.1 (Nat.zero_le _) _, h.2⟩

/-- Holding a steward leaves its core. -/
theorem coreOf_settle (h : CoresWf s) : coreOf (settle c s) c = coreOf s c := by
  unfold settle settleHold
  by_cases hc : c.stew = true
  · simp only [hc, if_true, coreOf]
    split
    · unfold stew setStew
      rw [smGet_smSet_same h.2]
    · rfl
  · simp [hc]

/-! ### Control after a slot -/

/-- The registers that control never touches. -/
def SameData (r q : Regs) : Prop :=
  q.d = r.d ∧ q.a = r.a ∧ q.e = r.e ∧ q.p = r.p ∧ q.b = r.b ∧ q.l = r.l ∧ q.m = r.m ∧ q.ix = r.ix ∧ q.flg = r.flg ∧
    q.kmode = r.kmode

theorem SameData.refl (r : Regs) : SameData r r := ⟨rfl, rfl, rfl, rfl, rfl, rfl, rfl, rfl, rfl, rfl⟩

theorem SameData.trans {r q u : Regs} (h : SameData r q) (g : SameData q u) : SameData r u := by
  obtain ⟨h1, h2, h3, h4, h5, h6, h7, h8, h9, h10⟩ := h
  obtain ⟨g1, g2, g3, g4, g5, g6, g7, g8, g9, g10⟩ := g
  exact ⟨g1.trans h1, g2.trans h2, g3.trans h3, g4.trans h4, g5.trans h5, g6.trans h6, g7.trans h7, g8.trans h8,
    g9.trans h9, g10.trans h10⟩

/-- A core whose data registers, free-mode registers and bits are another's. -/
def SameCore (k j : Core) : Prop := SameData k.r j.r ∧ j.free = k.free ∧ j.bits = k.bits

theorem SameCore.refl (k : Core) : SameCore k k := ⟨SameData.refl _, rfl, rfl⟩

theorem SameCore.trans {k j i : Core} (h : SameCore k j) (g : SameCore j i) : SameCore k i :=
  ⟨h.1.trans g.1, g.2.1.trans h.2.1, g.2.2.trans h.2.2⟩

theorem sameCore_charge (k : Core) (n : Nat) (b : Bool) : SameCore k (charge k n b) := SameCore.refl _

theorem sameCore_nextSlot (k : Core) (pc : Nat) : SameCore k (nextSlot k pc) := by
  unfold nextSlot
  dsimp only
  split <;> split
  all_goals (try split)
  all_goals exact ⟨SameData.refl _, rfl, rfl⟩

theorem sameCore_leaveLevels (k : Core) (n : Nat) : SameCore k (leaveLevels c k n) := SameCore.refl _

theorem sameCore_afterSlot (k : Core) (pc : Nat) : SameCore k (afterSlot c m k pc) := by
  unfold afterSlot
  split
  · exact sameCore_nextSlot k pc
  · split
    · exact ⟨SameData.refl _, rfl, rfl⟩
    · dsimp only
      split
      · exact (show SameCore k { k with dly := none } from ⟨SameData.refl _, rfl, rfl⟩).trans (sameCore_nextSlot _ pc)
      · split
        · split
          · exact ⟨SameData.refl _, rfl, rfl⟩
          · exact (show SameCore k { k with dly := none } from ⟨SameData.refl _, rfl, rfl⟩).trans (sameCore_nextSlot _ pc)
        · split <;> exact ⟨SameData.refl _, rfl, rfl⟩

/-- Control after one run of a slot touches no data register, flag, free-mode register or bit. -/
theorem sameCore_advance (k : Core) : SameCore k (advance c m k) := by
  unfold advance
  generalize hrep : k.rep = rp
  cases rp with
  | idle => exact sameCore_afterSlot k _
  | annul n =>
    refine SameCore.trans ?_ (sameCore_afterSlot _ _)
    exact ⟨⟨rfl, rfl, rfl, rfl, rfl, rfl, rfl, rfl, rfl, rfl⟩, rfl, rfl⟩
  | run n det =>
    cases det
    all_goals
      simp only [Bool.false_eq_true, if_false, if_true]
      split
      · exact ⟨⟨rfl, rfl, rfl, rfl, rfl, rfl, rfl, rfl, rfl, rfl⟩, rfl, rfl⟩
      · refine SameCore.trans ?_ (sameCore_afterSlot _ _)
        exact ⟨⟨rfl, rfl, rfl, rfl, rfl, rfl, rfl, rfl, rfl, rfl⟩, rfl, rfl⟩

/-! ### Slipface values -/

/-- A slot that reads no slipface line notes nothing. -/
theorem noteSlip_other {sl : Slot} (h : ∀ n, slotLoads sl ≠ some (.slip n)) : noteSlip s c m sl = some s := by
  unfold noteSlip
  split
  · next n hn => exact absurd hn (h n)
  · rfl

/-- Outside sample mode nothing is noted. -/
theorem noteSlip_free {sl : Slot} (h : m ≠ .sample) : noteSlip s c m sl = some s := by
  unfold noteSlip
  split
  · exact absurd rfl h
  · rfl

/-- What noting a slipface value can do: nothing, or one value more in the kernel's record. -/
theorem noteSlip_cases {sl : Slot} (h : noteSlip s c m sl = some t) :
    t = s ∨ ∃ n v, slotLoads sl = some (.slip n) ∧ slipRead s c n = some v ∧
      t = setKern s c.die c.idx { kern s c.die c.idx with slipIn := (kern s c.die c.idx).slipIn ++ [v] } := by
  unfold noteSlip at h
  split at h
  · next n hn =>
    obtain ⟨v, hv, rfl⟩ := Option.map_eq_some_iff.mp h
    exact Or.inr ⟨n, v, hn, hv, rfl⟩
  · exact Or.inl (Option.some.inj h).symm

/-- It leaves the core's registers, flags and bits. -/
theorem coreOf_noteSlip {sl : Slot} (hw : CoresWf s) (h : noteSlip s c m sl = some t) : coreOf t c = coreOf s c := by
  rcases noteSlip_cases h with rfl | ⟨n, v, -, -, rfl⟩
  · rfl
  · unfold coreOf setKern kern stew
    cases c.stew with
    | true => rfl
    | false =>
      simp only [Bool.false_eq_true, if_false]
      rw [smGet_smSet_same hw.1]

/-! ### A slot that runs -/

/-- What `slotRuns` says of the fetch. -/
theorem slotRuns_fetch {sl : Slot} (h : slotRuns s c m sl = true) :
    hasCore s c = true ∧ coreMode s c = some m ∧ fetchSlot s c m = .ok (some sl) (slotFetched s c m) ∧
      noteSlip (slotFetched s c m) c m sl = some (slotState s c m) ∧ (slotState s c m).wf = true ∧ sl.cond ≠ .nv ∧
      slipToWait (slotFetched s c m) c m sl = none ∧ slotAnnulled (slotState s c m) c sl = false := by
  unfold slotRuns slotIs at h
  simp only [Bool.and_eq_true, decide_eq_true_eq, Bool.not_eq_true'] at h
  obtain ⟨⟨⟨⟨⟨⟨⟨h1, h2⟩, h3⟩, h4⟩, h5⟩, h6⟩, h8⟩, h7⟩ := h
  have hf : fetchSlot s c m = .ok (some sl) (slotFetched s c m) := by
    unfold slotFetched
    split at h3
    · next x u hx =>
      have hxs : x = sl := by simpa using h3
      rw [hx, hxs]
    · exact absurd h3 (by simp)
  refine ⟨h1, h2, hf, ?_, h4, h5, h6, h7⟩
  obtain ⟨t, ht⟩ := Option.isSome_iff_exists.mp h8
  unfold slotState
  rw [hf]
  simp only [ht, Option.getD_some]

/-- A row whose slot runs answers what its body's effect comes to. -/
theorem runSlot_runs {sl : Slot} (h : slotRuns s c m sl = true) {want : Op → Bool} (hw : want sl.op = true)
    (body : Op → Mode → Bool → State → Eff) :
    runSlot c want body s =
      finishSlot s c m sl (body sl.op m (slotCond (slotState s c m) c sl) (slotState s c m)) := by
  obtain ⟨h1, h2, h3, h8, -, h5, h6, h7⟩ := slotRuns_fetch h
  unfold runSlot
  rw [onUnit_true h1, h2]
  simp only [h3, h5, hw, h6, h8, h7, Bool.not_true, decide_false, Bool.or_self, Bool.false_eq_true, if_false]

/-- A completed body: the core it left, charged and moved past the slot. -/
theorem finishSlot_done {sl : Slot} (h : CoresWf t) :
    ∃ u, finishSlot s c m sl (.done t) = .next u ∧ SameCore (coreOf t c) (coreOf u c) := by
  refine ⟨_, rfl, ?_⟩
  rw [coreOf_settle (h.setCore _), coreOf_setCore h]
  exact (sameCore_charge _ _ _).trans (sameCore_advance _)

/-- A row whose body only changes registers leaves those registers, its free-mode registers and its bits so. -/
theorem runSlot_regs {sl : Slot} (h : slotRuns s c m sl = true) {want : Op → Bool} (hw : want sl.op = true)
    {body : Op → Mode → Bool → State → Eff} {f : Regs → Regs}
    (hb : body sl.op m (slotCond (slotState s c m) c sl) (slotState s c m) = regsEff c (slotState s c m) f) :
    ∃ u, runSlot c want body s = .next u ∧ SameData (f (slotRegs s c m)) (regsOf u c) ∧
      (coreOf u c).free = (coreOf (slotState s c m) c).free ∧ (coreOf u c).bits = (coreOf (slotState s c m) c).bits := by
  have hwf := State.coresWf (slotRuns_fetch h).2.2.2.2.1
  rw [runSlot_runs h hw, hb]
  unfold regsEff updRegs
  obtain ⟨u, hu, hd, hf, hbits⟩ := finishSlot_done (s := s) (sl := sl) (m := m) (c := c)
    (hwf.setCore (c := c) { coreOf (slotState s c m) c with r := f (coreOf (slotState s c m) c).r })
  rw [coreOf_setCore hwf] at hd hf hbits
  exact ⟨u, hu, hd, hf, hbits⟩

end Sys2Proof.Machine
end

