-- ==== Sys2Proof/Machine/Figures.lean ====
section
/-! DEFINITION. The figures of the filters whose coefficients the spec leaves open (R252, R285), as properties of those coefficients:
a claim about signals takes them as its hypotheses (assumption logs 3, 89). -/
namespace Sys2Proof.Figures

/-- A gain in dB as a factor. -/
def IsDb (db g : ℝ) : Prop := g = (10 : ℝ) ^ (db / 20)

/-- The square of the magnitude of a filter's response at `w` radians per sample: the first `n` samples of its impulse response. -/
def GainSq (h : Nat → ℝ) (n : Nat) (w g : ℝ) : Prop :=
  g = (∑ i ∈ Finset.range n, h i * Real.cos (w * i)) ^ 2 + (∑ i ∈ Finset.range n, h i * Real.sin (w * i)) ^ 2

/-- The square of the magnitude of the decimation chain of R252 at a frequency `v` in units of the PCM rate: four running sums of
DECIM ÷ 4 bits and the two half-band stages. -/
def PdmGainSq (decim : Nat) (v g : ℝ) : Prop :=
  ∃ c p q : ℝ, GainSq (fun _ => 1 / (decim / 4 : Nat)) (decim / 4) (2 * Real.pi * v / decim) c
    ∧ GainSq (fun i => Config.halfBand decim 1 i / 2 ^ 23) 256 (2 * Real.pi * v / 4) p
    ∧ GainSq (fun i => Config.halfBand decim 2 i / 2 ^ 23) 128 (2 * Real.pi * v / 2) q
    ∧ g = c ^ 4 * p * q

/-- The delay of a filter for slow signals, in its samples. -/
def SlowDelay (h : Nat → ℝ) (n : Nat) (x : ℝ) : Prop :=
  ∑ i ∈ Finset.range n, i * h i = x * ∑ i ∈ Finset.range n, h i

/-- The chain of R252: ±0.1 dB to 0.42 of the PCM rate, 90 dB from 0.58 of it up, and a group delay of 3.5 PCM periods, half a period of
which is the CIC decimator's. Within 0.58 of a multiple of 4 PCM rates, where both half-band stages repeat their pass band, R252's
structure leaves the attenuation to the CIC decimator alone, which no coefficient changes: the 90 dB are asked of the rest (DEDUCED,
assumption log 89). -/
def PdmFits (decim : Nat) : Prop :=
  (∀ v g lo hi : ℝ, 0 ≤ v → v ≤ 0.42 → IsDb (-0.1) lo → IsDb 0.1 hi → PdmGainSq decim v g → lo ^ 2 ≤ g ∧ g ≤ hi ^ 2)
    ∧ (∀ (k : Nat) (v g lim : ℝ), 4 * k + 0.58 ≤ v → v ≤ 4 * k + 3.42 → v ≤ decim / 2 → IsDb (-90) lim → PdmGainSq decim v g →
        g ≤ lim ^ 2)
    ∧ ∃ p q : ℝ, SlowDelay (fun i => Config.halfBand decim 1 i) 256 p ∧ SlowDelay (fun i => Config.halfBand decim 2 i) 128 q
        ∧ p / 4 + q / 2 = 3

/-- What the spec says of the stages of an implementation's PDM decimators (R252), for every decimation. -/
def Meets : Prop := ∀ decim ∈ [32, 48, 64, 96, 128], PdmFits decim

/-! ### Converter channels

Each figure of R285 is a property of its own, and a claim takes those that it needs: `Machine.convOut` spans the filter's latency on
either side of its centre, which linear phase and R284 ask for, and by the usual estimate of a filter's length no response so short
has the pass band, the transition and the attenuation of R285 all at once (assumption log 145). -/

/-- The response of a converter channel at `v` cycles per tick (R285), in either direction: its impulse response is symmetric, so it is
real, and spans the filter's latency on either side of its centre. -/
def ConvGain (low : Bool) (ratio : Nat) (v g : ℝ) : Prop :=
  let half : Nat := Machine.convLatency low * Machine.convTick
  let term (k : Nat) : ℝ := Config.convTap low ratio k * Real.cos (2 * Real.pi * v * k / Machine.convTick)
  g = (term 0 + 2 * ∑ k ∈ Finset.range half, term (k + 1)) / 2 ^ 55

/-- The lower rate of a ratio, in units of the internal rate. -/
def IsLower (ratio : Nat) (r : ℝ) : Prop := r = min 1 ((ratio : ℝ) / 2 ^ 24)

/-- The passband ripple of R285. -/
def ConvPass (low : Bool) (ratio : Nat) : Prop :=
  ∀ r v g lo hi : ℝ, IsLower ratio r → 0 ≤ v → v ≤ (if low then 0.43 else 0.454) * r →
    IsDb (if low then -0.01 else -0.001) lo → IsDb (if low then 0.01 else 0.001) hi → ConvGain low ratio v g → lo ≤ g ∧ g ≤ hi

/-- The stopband attenuation of R285. -/
def ConvStop (low : Bool) (ratio : Nat) : Prop :=
  ∀ r v g lim : ℝ, IsLower ratio r → (if low then 0.57 else 0.546) * r ≤ v → v ≤ 2 ^ 23 → IsDb (if low then -120 else -140) lim →
    ConvGain low ratio v g → |g| ≤ lim

/-- The samples of a tone of amplitude `a` (full scale is 2^31) at `f` cycles per tick, by their time in 2^-24 tick, as 32-bit data. -/
def IsTone (x : Int → Word) (a f p : ℝ) : Prop :=
  ∀ t : Int, |((x t).toInt : ℝ) - a * Real.cos (2 * Real.pi * f * t / Machine.convTick + p)| ≤ 1 / 2

/-- The outputs of a channel at instants `grid` apart, from samples `step` apart: `age` gives how old the newest of them is at each. -/
def IsOutput (low : Bool) (ratio step latency grid : Nat) (x : Int → Word) (age : Nat → Nat) (y : Nat → Word) : Prop :=
  ∀ i, y i = Machine.convOut low ratio (age i) step latency
    ((List.range Machine.convSpanRx).map fun j => x ((i * grid : Nat) - (age i : Int) - (j * step : Nat)))

/-- What remains of an output beside the best tone of its frequency stays below `lim` of full scale, as its root mean square from one
second on: `f` cycles per instant. -/
def Residue (y : Nat → Word) (second : Nat) (f lim : ℝ) : Prop :=
  ∃ g q : ℝ, ∀ n, second ≤ n →
    ∑ i ∈ Finset.range n, (((y i).toInt : ℝ) - g * Real.cos (2 * Real.pi * f * i + q)) ^ 2 ≤ n * ((lim * 2 ^ 31) ^ 2 / 2)

/-- THD+N and dynamic range of R285 for a channel of either direction at `second` ticks a second: a 1 kHz tone at −1 dBFS leaves a residue
135 dB (low-latency 125 dB) below it, and one at −60 dBFS a residue 140 dB below full scale. The residue is taken over the whole
band, of which 20 Hz to 20 kHz is a part. -/
def ConvTones (low tx : Bool) (ratio second : Nat) : Prop :=
  let frame := 2 ^ 48 / ratio
  let (step, grid, more) := if tx then (Machine.convTick, frame, 2) else (frame, Machine.convTick, 0)
  ∀ (level below : ℝ), (level = -1 ∧ below = (if low then -126 else -136)) ∨ (level = -60 ∧ below = -140) →
    ∀ (a p lim : ℝ) (x : Int → Word) (age : Nat → Nat) (y : Nat → Word), IsDb level a → IsDb below lim →
      IsTone x (a * 2 ^ 31) (1000 / second) p → (∀ i, age i ≤ frame + Machine.convTick) →
      IsOutput low ratio step ((Machine.convLatency low + more) * Machine.convTick) grid x age y →
      Residue y second (1000 / second * grid / Machine.convTick) lim

/-- The tracking loop of R283 and R285: a linear response `c` of the ratio, tick by tick, to the frame rate, of unit gain for slow changes and
3 dB down for a jitter of 3 Hz. -/
def TracksAt3Hz (c : Nat → ℝ) (n second : Nat) : Prop :=
  ∑ i ∈ Finset.range n, c i = 1 ∧ GainSq c n (2 * Real.pi * 3 / second) (1 / 2)

/-- Ratios that a tracked port's SRC_RATIO_LOCK commands bring, one per tick, as the loop answers the frame rates `rate`: what a claim about
jitter assumes of the commands. -/
def TrackedRatios (rate ratio : Nat → ℝ) (n second : Nat) : Prop :=
  ∃ c, TracksAt3Hz c n second ∧ ∀ k, n ≤ k → ratio k = ∑ i ∈ Finset.range n, c i * rate (k - i)

end Sys2Proof.Figures
end

