-- ==== Sys2Proof/Tests/Slice0.lean ====
section
/-! SUPPORT. Tests of the model on small states: ill-formed commands, words written out from the spec's encodings, single steps
whose results the spec gives, and for each hypothesis of a statement a state that meets it. -/
open Sys2Proof Sys2Proof.Machine
namespace Sys2Proof.Tests
set_option Elab.async false

/-! ### Small states -/

/-- Kernel 0 of die 0 runs in a tick with the word at its pc 0 and these registers. -/
def W.kernel (w : Nat) (f : Regs → Regs) : State :=
  setKern (storeBytes { State.reset with phase := .tick } (progA 0 0 false 0) w 8) 0 0
    { Kern.zero with st := .run, active := true, core := { Core.zero with r := f Regs.zero } }

/-- The same kernel in TEST. -/
def W.test (w : Nat) (f : Regs → Regs) : State :=
  let s := W.kernel w f
  setKern s 0 0 { kern s 0 0 with st := .test, active := false }

/-- Steward 0 of die 0 runs the word at address 0 of working memory. -/
def W.steward (w : Nat) (f : Regs → Regs) : State :=
  let s := storeBytes (setReg State.reset (Reg.BUS_CTL 0) 1) 0 w 8
  setStew s 0 0 { core := { Core.zero with r := f Regs.zero }, st := .run }

/-- X word `j` of kernel 0 set. -/
def W.x (j : Nat) (v : Word) (s : State) : State := storeW s (xA 0 0 j) v

/-- Kernel 0 at an LDL of slipface line 2 into D3, and kernel 1 running a program that stores the line, complete or not. -/
def W.slip (complete : Bool) : State :=
  let s := W.kernel (0x34 * 2 ^ 58 + 3 * 2 ^ 50 + 0x4002 * 2 ^ 35) (fun r => r)
  let s := storeBytes s (progA 0 1 false 0) (0x35 * 2 ^ 58 + 3 * 2 ^ 50 + 0x4002 * 2 ^ 35) 8
  let s := setKern s 0 1 { Kern.zero with st := .run, active := true }
  if complete then
    setKern (setSlip s 0 0 2 ⟨7, true⟩) 0 0 { kern s 0 0 with wait := some 2 }
  else s

/-- Kernel 0 at an LDH or STH of D3 through P12, whose Hoard address is `w`; it owns bank 0 and Hoard word 0 holds 0x66. -/
def W.hoard (opcode w : Nat) : State :=
  let s := W.kernel (opcode * 2 ^ 58 + 3 * 2 ^ 50 + 1 * 2 ^ 45) (fun r => { r with p := rfSet [] 12 (BitVec.ofNat 32 w) })
  storeW (setReg s (Reg.POD_HOWN 0 0 0) 1) (hoardA 0 0 0) 0x66

/-- Steward 0 of die 0 with source 1 enabled and pending, at priority 2, and interrupts enabled or not. -/
def W.irq (st : SState) (ie : Bool) : State :=
  let s := W.steward 0 (fun r => r)
  let s := setReg (setReg s (Reg.PULSE_SWAP_RES 0) 0x80000000) (Reg.STEWARD_IE 0 0) 2
  let k := (stew s 0 0).core
  setStew s 0 0 { core := { k with r := { k.r with pc := 5 }, free := { k.free with ipl := if ie then 8 else 0 } }, st := st }

/-- The state after a steward's store of a word. -/
def W.written (s : State) (c : CoreRef) (w : Nat) (v : Word) : State :=
  match stewWrite s c w v with
  | .ok _ t => t
  | _ => s

/-- The state after a steward's load of a word. -/
def W.loaded (s : State) (c : CoreRef) (w : Nat) : State :=
  match stewRead s c w with
  | .ok _ t => t
  | _ => s

/-- The state after a command that answers one. -/
def W.after (i : Instr) (s : State) : State :=
  match exec i s with
  | .next t => t
  | _ => s

/-- A directory copy with empty slots. -/
def W.dir : List Byte :=
  let bs : List Byte := [0x44, 0x52, 0x4C, 0x44, 1, 0] ++ List.replicate 54 0
  bs ++ toBytes 4 (crc32c bs)

/-- A package whose conditions for HUSK hold: PD_STEW of every die in RET, every other domain OFF, no votes, HUSKEN 1. -/
def W.huskReady : State :=
  let s := setFld (setReg State.reset (Reg.PWR_HOLD 0) 0) (Reg.PWR_CTL 0) F.PWR_CTL_HUSKEN 1
  (List.range 8).foldl (fun t d => (List.range 9).foldl (fun u m =>
    setDom u d m { DomX.zero with st := if m = pdStew then .ret else .off, tgt := 0 }) t) s

/-- A running slave port 0 through the converters, with a channel of engine 0 that serves its slot 0. -/
def W.converter : State :=
  let s := setFld (setFld (setFld State.reset (Reg.SAP_CFG 0 0) F.SAP_CFG_MODE 1) (Reg.SAP_CFG 0 0) F.SAP_CFG_PATH 1)
    (Reg.SAP_STAT 0 0) F.SAP_STAT_STATE 3
  let s := setFld (setFld s (Reg.SPARE_SRC 0) F.SPARE_SRC_SPAREENG 5) (Reg.SAP_CFG 0 0) F.SAP_CFG_SLOTS 1
  setTab (setSap s 0 0 { SapPort.zero with maskRx := 3, ratioRx := some (2 ^ 24), ratioTx := some (2 ^ 24) }) tSrc 0 0 0x80000000

/-- The headers of three lanes, two of which have 64 valid ones in a row. -/
def W.lanes : List (List Nat) := [0x3 :: List.replicate 64 0x5, List.replicate 64 0xA, [0x3]]

/-- The blocks of a frame of number 0xFFFFFFFF without slots, as the lanes carry them. -/
def W.blocks : List LinkBlock :=
  let bs := frameBlocks ⟨0, 0, 16, 5, 0, 0xFFFFFFFF, 0, 0, 0, false, 0, 0, []⟩
  (List.range bs.length).map fun k => sendBlock k (bs.getD k (false, 0))

/-- A running slave port 0 whose rings lie in working memory: a whole unit waits to be sent, and one to be stored. -/
def W.ring : State :=
  let s := setFld (setFld (setFld State.reset (Reg.SAP_CFG 0 0) F.SAP_CFG_MODE 1) (Reg.SAP_CFG 0 0) F.SAP_CFG_SLOTS 1)
    (Reg.SAP_STAT 0 0) F.SAP_STAT_STATE 3
  let s := setFld (setFld s (Reg.SAP_TXR_SIZE 0 0) F.SAP_TXR_SIZE_SIZE 64) (Reg.SAP_RXR_SIZE 0 0) F.SAP_RXR_SIZE_SIZE 64
  let s := setFld (setReg s (Reg.SAP_TXR_MASK 0 0) 3) (Reg.SAP_TXR_WPTR 0 0) F.SAP_TXR_WPTR_OFFSET 16
  setSap s 0 0 { SapPort.zero with maskTx := 3, bufRx := [[1, 2, 3, 4]] }
/-! ### Ill-formed commands are refused by the check -/

/-- A master that the table does not have (R355), and a die above 7. -/
theorem test_wf_access : ([.bootConfirm ⟨18, 0⟩,
    .bootConfirm ⟨0, 8⟩] : List Instr).any Instr.wf = false := by decide

/-- Kernel 144 of a die, steward 2, a die above 7 (R2), and a slipface line of a steward (R36). -/
theorem test_wf_core : ([.nop ⟨0, false, 144⟩,
    .nop ⟨0, true, 2⟩,
    .nop ⟨8, false, 0⟩,
    .slipfaceLdlRelease ⟨0, true, 0⟩] : List Instr).any Instr.wf = false := by decide

/-- Die 8, and the first unit of each kind that no die has. -/
theorem test_wf_die_and_units : ([.govRaise 8,
    .wearReport 0 144,
    .slotCheck 2 none,
    .faderEnd 0 512,
    .bridgeTransferFail 0 3,
    .rowRepairCopyDone 0 9,
    .caravanFetchLate 0 8 0,
    .caravanFetchLate 0 0 256,
    .domainExitDone 0 9,
    .wakePinAccept 8 true true,
    .srcEngineCheck 0 6 true,
    .sapTriggerPulse 0 10,
    .biphaseLock 0 4 48000,
    .meterBlockEnd 0 512,
    .genDone 0 8,
    .linkSpareBlock 0 true 3 0,
    .stewardDebugHalt 0 2,
    .swapDecision 256] : List Instr).any Instr.wf = false := by decide

/-- Operands of register commands that their fields cannot hold. -/
theorem test_wf_operands : ([.recoveryGo ⟨0, 0⟩ 0x400000,
    .bridgeSwapWrite ⟨0, 0⟩ 0 8,
    .podHownWrite ⟨0, 0⟩ 0 0 18 0,
    .busWinWrite ⟨0, 0⟩ 0 8 0,
    .queueStage ⟨0, 0⟩ 0 0 56 0,
    .queuePush ⟨0, 0⟩ 0 48 0,
    .lookaheadWrite ⟨0, 0⟩ 0 64 0,
    .spareCmd ⟨0, 0⟩ 0 256,
    .linkRemoteGo ⟨0, 0⟩ 0 true 64,
    .linkStartGo ⟨0, 0⟩ 0 16,
    .cspStage ⟨0, 0⟩ 0 6 0,
    .admissionDone 0 false 256,
    .cspTargetCommand 256 0,
    .cspTargetCommand 0 0x100000000] : List Instr).any Instr.wf = false := by decide

/-- Addresses outside 40 bits, offsets outside a window, and a width of three bytes (R352). -/
theorem test_wf_addresses : ([.memoryRead ⟨0, 0⟩ 0x10000000000 4,
    .memoryRead ⟨0, 0⟩ 0 3,
    .programBankWrite ⟨0, 0⟩ 0 0 false 0x8000 4 0,
    .kernelImageWrite ⟨0, 0⟩ 0 0 576 4 0,
    .registerWrite ⟨0, 0⟩ 0x10000000000 0] : List Instr).any Instr.wf = false := by decide

/-- Packet blocks at a place that no packet section has, and a header of five bits (R310, R312). -/
theorem test_wf_blocks : ([.linkRdrsp 0 (.blocks 3 []),
    .linkRdrsp 0 (.blocks 4294 []),
    .linkTrainStep 0 true 0 0 ⟨0, [[16]], []⟩] : List Instr).any Instr.wf = false := by decide

/-- Key slot 4, a digest of 47 bytes and a key of 257 bits (R385). -/
theorem test_wf_fuse : ([.debugFuseProgram (.keySlot 4 (List.replicate 48 0)),
    .debugFuseProgram (.keySlot 0 (List.replicate 47 0)),
    .debugFuseProgram (.imageKey (2 ^ 256))] : List Instr).any Instr.wf = false := by decide

/-- Commands with operands at the ends of their ranges pass it. -/
theorem test_wf_passes : ([.bootConfirm ⟨17, 7⟩, .nop ⟨7, false, 143⟩, .nop ⟨7, true, 1⟩, .meterBlockEnd 7 511,
    .memoryRead ⟨0, 0⟩ 0xFFFFFFFFFF 8, .debugFuseProgram .lock] : List Instr).all Instr.wf = true := by decide

/-! ### Words of Cyilo, written out field by field from the encoding tables of chapter 4 -/

/-- END: OPCODE 0x01. -/
theorem test_decode_end : decodeWord 0x0400000000000000 = some ⟨.al, 0, .end_⟩ := by decide +kernel

/-- ADD D3, D1, D2: OPCODE 0x10, Dd [52:49] 3, Ds1 [48:45] 1, Ds2 [43:40] 2. -/
theorem test_decode_add : decodeWord 0x4006220000000000 = some ⟨.al, 0, .binD .add 3 1 (.reg 2)⟩ := by decide +kernel

/-- The example of chapter 4, MAC A0, (P2)+M2, (P9)+M9 with STL 0x2010, A1 and its NV-patched form. -/
theorem test_decode_mac : decodeWord 0x880262C680410000 = some ⟨.al, 0, .mul .mac 0 (.mem ⟨2, .addM⟩) (.mem ⟨9, .addM⟩) false (.stlA (.wadi 0x2010) 1)⟩ := by decide +kernel

/-- The same word with reserved bit 12 set is illegal; with COND NV it is a slot without effect (R85, R107). -/
theorem test_decode_nv : decodeWord 0x8BC262C680411000 = some ⟨.nv, 0, .nop⟩ := by decide +kernel

/-- Reserved bits of PM make a word illegal (R107). -/
theorem test_decode_illegal : decodeWord 0x880262C680411000 = none := by decide +kernel

/-- BRA.BF(0x020) +6: OPCODE 0x02, COND 0xE, DISP 6, CBIT 0x020. -/
theorem test_decode_bra : decodeWord 0x0B80000180000020 = some ⟨.bf, 0x20, .bra 6⟩ := by decide +kernel

/-- CMAC A0, (P2)+2, (P9)+2: OPCODE 0x25, S1 K 0 pointer 2 AM 0b101, S2 pointer value 1 AM 0b101. -/
theorem test_decode_cmac : decodeWord 0x9402A34000000000 = some ⟨.al, 0, .mul .cmac 0 (.mem ⟨2, .add2⟩) (.mem ⟨9, .add2⟩) false .none⟩ := by decide +kernel

/-- LD D3, (P0)+: OPCODE 0x30, Dd [53:50], pointer [49:46], AM [45:43] 0b001. -/
theorem test_decode_ld : decodeWord 0xC00C080000000000 = some ⟨.al, 0, .ld 3 ⟨0, .inc⟩⟩ := by decide +kernel

/-- LDI KMODE, 0xFFFFFFFF: OPCODE 0x32, register code [53:47] 0x60, IMM32 [46:15]. -/
theorem test_decode_ldi : decodeWord 0xC8307FFFFFFF8000 = some ⟨.al, 0, .ldi 0x60 0xFFFFFFFF⟩ := by decide +kernel

/-- LDL D3, S:2: OPCODE 0x34, line [49:35] with bit 14 set (R91). -/
theorem test_decode_ldl : decodeWord 0xD00E001000000000 = some ⟨.al, 0, .ldl 3 (.slip 2)⟩ := by decide +kernel

/-- MAXAI D4, (P3)+: OPCODE 0x2B, Dd [53:50] 4, S1-form operand [49:43]. -/
theorem test_decode_maxai : decodeWord 0xAC10C80000000000 = some ⟨.al, 0, .search .maxai 4 (.mem ⟨3, .inc⟩) .none⟩ := by decide +kernel

/-- Opcode 0x3F is reserved (R82). -/
theorem test_decode_reserved : decodeWord 0xFC00000000000000 = none := by decide +kernel

/-! ### Worked examples of the spec -/

/-- Kernel 0 of die 0. -/
def W.k : CoreRef := ⟨0, false, 0⟩

/-- The registers of kernel 0 after a command. -/
def W.regs (i : Instr) (s : State) : Regs := regsOf (W.after i s) W.k

/-- R118's example: NORM of the accumulator value gives 0. -/
theorem test_norm_half :
    rf (W.regs (.norm W.k) (W.kernel 0x7430D00000000000 (fun r => { r with a := [(1, 0x004000000000000000)] }))).d 3 = BitVec.ofInt 32 (0) := by decide +kernel

/-- R118's example: NORM of the accumulator value gives -1. -/
theorem test_norm_one :
    rf (W.regs (.norm W.k) (W.kernel 0x7430D00000000000 (fun r => { r with a := [(1, 0x008000000000000000)] }))).d 3 = BitVec.ofInt 32 (-1) := by decide +kernel

/-- R118's example: NORM of the accumulator value gives 1. -/
theorem test_norm_minus_half :
    rf (W.regs (.norm W.k) (W.kernel 0x7430D00000000000 (fun r => { r with a := [(1, 0xFFC000000000000000)] }))).d 3 = BitVec.ofInt 32 (1) := by decide +kernel

/-- The example of R123: (0.5 − 0.5j)(0.25 + 0.75j) = 0.5 + 0.25j, pointers advanced by 2. -/
theorem test_cmac :
    let r := W.regs (.cmac W.k) (storeW (storeW (W.x 0x100 0x40000000 (W.x 0x101 0xC0000000 (W.kernel 0x9402A34000000000
      (fun r => { r with p := [(2, 0x100), (9, 0x40)] })))) (yA 0 0 false 0x40) 0x20000000) (yA 0 0 false 0x41) 0x60000000);
    accOf r 0 = 0x004000000000000000 ∧ accOf r 1 = 0x002000000000000000 ∧ rf r.p 2 = 0x102 ∧ rf r.p 9 = 0x42 := by decide +kernel

/-- The same operands under CMACJ: −0.25 − 0.5j, N = 1. -/
theorem test_cmacj :
    let r := W.regs (.cmacj W.k) (storeW (storeW (W.x 0x100 0x40000000 (W.x 0x101 0xC0000000 (W.kernel 0x9C02A34000000000
      (fun r => { r with p := [(2, 0x100), (9, 0x40)] })))) (yA 0 0 false 0x40) 0x20000000) (yA 0 0 false 0x41) 0x60000000);
    accOf r 0 = 0xFFE000000000000000 ∧ accOf r 1 = 0xFFC000000000000000 ∧ flagN r.flg = true := by decide +kernel

/-- The second row of the MAXAI example: 0xFA00_0000 has magnitude 0x0600_0000. -/
theorem test_maxai :
    let r := W.regs (.maxai W.k) (W.x 0x301 0xFA000000 (W.kernel 0xAC10C80000000000
      (fun r => { r with p := [(3, 0x301)], d := [(4, 0x01000000)] })));
    rf r.d 4 = 0x06000000 ∧ r.ix = 0x301 ∧ flagC r.flg = true ∧ rf r.p 3 = 0x302 := by decide +kernel

/-- The example of R111: the move finds +1.0 in A1, so the line receives 0x7FFF_FFFF and V, VS and SAT are set. -/
theorem test_mac_stl :
    let s := W.after (.mac W.k) (W.kernel 0x880262C680410000
      (fun r => { r with a := [(1, 0x008000000000000000)], kmode := 1 }));
    (kern s 0 0).staged = [(0x2010, 0x7FFFFFFF)] ∧ flagV (regsOf s W.k).flg = true ∧ flagVS (regsOf s W.k).flg = true ∧
      flagSAT (regsOf s W.k).flg = true := by decide +kernel

/-- The table of circular updates of P2 with B2 = 0x0200 and L2 = 48 (R73). -/
theorem test_circular :
    ptrUpdate 18 0x22E 0x200 48 1 = 0x22F ∧ ptrUpdate 18 0x22F 0x200 48 1 = 0x200 ∧ ptrUpdate 18 0x201 0x200 48 (-3) = 0x22E ∧ ptrUpdate 18 0x210 0x200 48 50 = 0x212 ∧ ptrUpdate 18 0x300 0x200 48 1 = 0x211 := by decide +kernel

/-- Chapter 18's example: command byte 0xA0 reads METER5_RMS with one word of 32 bits. -/
theorem test_target_command :
    targetAddr State.reset 0x400300AC = Reg.METER_RMS 0 5 := by decide +kernel

/-- A frame of 128 slots and its blocks on the wire: what is sent is what is read (R310–R312). -/
theorem test_frame_blocks :
    let f : Frame := ⟨5, 0, 512, 0xBEEF, 3, 0xFFFFFFFE, 7, 0x1234, 62, true, 77, 0x1122334455667788, []⟩
    let bs := (List.range 4).map fun k => sendBlock k ((frameBlocks f).getD k (false, 0));
    readHead bs = some f ∧ readLines bs 0 = some [] := by decide +kernel

/-- A packet and its blocks; with a bit of its data word flipped it is bad, and a header block with a wrong header cannot be
used (R310, R319). -/
theorem test_packet_blocks :
    let p : Packet := ⟨2, false, true, 63, 1, 0xFFFF, 9, 0xAB, 0xFFFFFFFFFF, 0, [0x89ABCDEF], false⟩
    let bs := (List.range 2).map fun j => sendBlock (112 + j) ((packetCode p).getD j (false, 0))
    let flip := bs.mapIdx fun j b => if j = 1 then b ^^^ (BitVec.ofNat 132 (2 ^ 100)) else b
    let header := bs.mapIdx fun j b => if j = 0 then b ^^^ (BitVec.ofNat 132 (2 ^ 128)) else b
    readPacket 112 bs = some p ∧ (readPacket 112 flip).map (·.bad) = some true ∧ readPacket 112 header = none := by decide +kernel

/-- After reset no line is valid and PULSE_CTL.RUN is 0. -/
theorem test_line_dies_at_reset :
    line State.reset 0 0 = deadLine ∧ bitF State.reset (Reg.PULSE_CTL 0) F.PULSE_CTL_RUN = false := by decide +kernel

/-- What WAKETX sends is what the wake detector waits for, and a flipped bit of it is not (R343, R344). -/
theorem test_wake_pattern :
    let sent := (wakeBits.map some).reverse
    wakeEnds sent = true ∧ wakeEnds (sent.set 50 (some (!(wakeBits.reverse.getD 50 false)))) = false := by decide +kernel

/-! ### States that meet the hypotheses of the statements -/

theorem witness_AluAddAndSubtract_1 :
    let s : State := W.kernel 0x4006220000000000 (fun r => { r with d := [(1, 0xFFFFFFFF), (2, 0x80000000)] })
    let c : CoreRef := ⟨0, false, 0⟩
    let m : Mode := .sample
    let cd : Cond := .al
    let cb : Nat := 0
    let dd : Nat := 3
    let ds1 : Nat := 1
    let s2 : Src2 := .reg 2
    slotRuns s c m ⟨cd, cb, .binD .add dd ds1 s2⟩ = true := by decide +kernel
theorem witness_AluAddAndSubtract_2 :
    let s : State := W.kernel 0x4406220000000000 (fun r => { r with d := [(1, 0xFFFFFFFF), (2, 0x80000000)] })
    let c : CoreRef := ⟨0, false, 0⟩
    let m : Mode := .sample
    let cd : Cond := .al
    let cb : Nat := 0
    let dd : Nat := 3
    let ds1 : Nat := 1
    let s2 : Src2 := .reg 2
    slotRuns s c m ⟨cd, cb, .binD .addc dd ds1 s2⟩ = true := by decide +kernel
theorem witness_AluAddAndSubtract_3 :
    let s : State := W.kernel 0x4806220000000000 (fun r => { r with d := [(1, 0xFFFFFFFF), (2, 0x80000000)] })
    let c : CoreRef := ⟨0, false, 0⟩
    let m : Mode := .sample
    let cd : Cond := .al
    let cb : Nat := 0
    let dd : Nat := 3
    let ds1 : Nat := 1
    let s2 : Src2 := .reg 2
    slotRuns s c m ⟨cd, cb, .binD .sub dd ds1 s2⟩ = true := by decide +kernel
theorem witness_AluAddAndSubtract_4 :
    let s : State := W.kernel 0x4C06220000000000 (fun r => { r with d := [(1, 0xFFFFFFFF), (2, 0x80000000)] })
    let c : CoreRef := ⟨0, false, 0⟩
    let m : Mode := .sample
    let cd : Cond := .al
    let cb : Nat := 0
    let dd : Nat := 3
    let ds1 : Nat := 1
    let s2 : Src2 := .reg 2
    slotRuns s c m ⟨cd, cb, .binD .subc dd ds1 s2⟩ = true := by decide +kernel
theorem witness_AluAddAndSubtract_5 :
    let s : State := W.kernel 0x5C00220000000000 (fun r => { r with d := [(1, 0xFFFFFFFF), (2, 0x80000000)] })
    let c : CoreRef := ⟨0, false, 0⟩
    let m : Mode := .sample
    let cd : Cond := .al
    let cb : Nat := 0
    let dd : Nat := 0
    let ds1 : Nat := 1
    let s2 : Src2 := .reg 2
    slotRuns s c m ⟨cd, cb, .binD .cmp dd ds1 s2⟩ = true := by decide +kernel
theorem witness_AluLogicMinMax_1 :
    let s : State := W.kernel 0x5006220000000000 (fun r => { r with d := [(1, 0xFFFFFFFF), (2, 0x80000000)] })
    let c : CoreRef := ⟨0, false, 0⟩
    let m : Mode := .sample
    let cd : Cond := .al
    let cb : Nat := 0
    let dd : Nat := 3
    let ds1 : Nat := 1
    let s2 : Src2 := .reg 2
    slotRuns s c m ⟨cd, cb, .binD .and dd ds1 s2⟩ = true := by decide +kernel
theorem witness_AluLogicMinMax_2 :
    let s : State := W.kernel 0x5406220000000000 (fun r => { r with d := [(1, 0xFFFFFFFF), (2, 0x80000000)] })
    let c : CoreRef := ⟨0, false, 0⟩
    let m : Mode := .sample
    let cd : Cond := .al
    let cb : Nat := 0
    let dd : Nat := 3
    let ds1 : Nat := 1
    let s2 : Src2 := .reg 2
    slotRuns s c m ⟨cd, cb, .binD .or dd ds1 s2⟩ = true := by decide +kernel
theorem witness_AluLogicMinMax_3 :
    let s : State := W.kernel 0x5806220000000000 (fun r => { r with d := [(1, 0xFFFFFFFF), (2, 0x80000000)] })
    let c : CoreRef := ⟨0, false, 0⟩
    let m : Mode := .sample
    let cd : Cond := .al
    let cb : Nat := 0
    let dd : Nat := 3
    let ds1 : Nat := 1
    let s2 : Src2 := .reg 2
    slotRuns s c m ⟨cd, cb, .binD .xor dd ds1 s2⟩ = true := by decide +kernel
theorem witness_AluLogicMinMax_4 :
    let s : State := W.kernel 0x7408C40000000000 (fun r => { r with d := [(1, 0x80000000)] })
    let c : CoreRef := ⟨0, false, 0⟩
    let m : Mode := .sample
    let cd : Cond := .al
    let cb : Nat := 0
    let dd : Nat := 3
    let ds : Nat := 1
    slotRuns s c m ⟨cd, cb, .unD .not dd ds⟩ = true := by decide +kernel
theorem witness_AluLogicMinMax_5 :
    let s : State := W.kernel 0x6000200000000000 (fun r => { r with d := [(1, 0xFFFFFFFF), (2, 0x80000000)] })
    let c : CoreRef := ⟨0, false, 0⟩
    let m : Mode := .sample
    let cd : Cond := .al
    let cb : Nat := 0
    let dd : Nat := 0
    let ds1 : Nat := 1
    let s2 : Src2 := .reg 0
    slotRuns s c m ⟨cd, cb, .binD .tst dd ds1 s2⟩ = true := by decide +kernel
theorem witness_AluLogicMinMax_6 :
    let s : State := W.kernel 0x6406220000000000 (fun r => { r with d := [(1, 0xFFFFFFFF), (2, 0x80000000)] })
    let c : CoreRef := ⟨0, false, 0⟩
    let m : Mode := .sample
    let cd : Cond := .al
    let cb : Nat := 0
    let dd : Nat := 3
    let ds1 : Nat := 1
    let s2 : Src2 := .reg 2
    slotRuns s c m ⟨cd, cb, .binD .min dd ds1 s2⟩ = true := by decide +kernel
theorem witness_AluLogicMinMax_7 :
    let s : State := W.kernel 0x6806220000000000 (fun r => { r with d := [(1, 0xFFFFFFFF), (2, 0x80000000)] })
    let c : CoreRef := ⟨0, false, 0⟩
    let m : Mode := .sample
    let cd : Cond := .al
    let cb : Nat := 0
    let dd : Nat := 3
    let ds1 : Nat := 1
    let s2 : Src2 := .reg 2
    slotRuns s c m ⟨cd, cb, .binD .max dd ds1 s2⟩ = true := by decide +kernel
theorem witness_ShiftsUnaryAndDivide_1 :
    let s : State := W.kernel 0x6C06220000000000 (fun r => { r with d := [(1, 0x80000001), (2, 0xE0)] })
    let c : CoreRef := ⟨0, false, 0⟩
    let m : Mode := .sample
    let cd : Cond := .al
    let cb : Nat := 0
    let dd : Nat := 3
    let ds1 : Nat := 1
    let s2 : Src2 := .reg 2
    slotRuns s c m ⟨cd, cb, .binD .ash dd ds1 s2⟩ = true := by decide +kernel
theorem witness_ShiftsUnaryAndDivide_2 :
    let s : State := W.kernel 0x7006220000000000 (fun r => { r with d := [(1, 0x80000001), (2, 0xE0)] })
    let c : CoreRef := ⟨0, false, 0⟩
    let m : Mode := .sample
    let cd : Cond := .al
    let cb : Nat := 0
    let dd : Nat := 3
    let ds1 : Nat := 1
    let s2 : Src2 := .reg 2
    slotRuns s c m ⟨cd, cb, .binD .lsh dd ds1 s2⟩ = true := by decide +kernel
theorem witness_ShiftsUnaryAndDivide_3 :
    let s : State := W.kernel 0x7400C40000000000 (fun r => { r with d := [(1, 0x80000000)] })
    let c : CoreRef := ⟨0, false, 0⟩
    let m : Mode := .sample
    let cd : Cond := .al
    let cb : Nat := 0
    let dd : Nat := 3
    let ds : Nat := 1
    slotRuns s c m ⟨cd, cb, .unD .neg dd ds⟩ = true := by decide +kernel
theorem witness_ShiftsUnaryAndDivide_4 :
    let s : State := W.kernel 0x7404C40000000000 (fun r => { r with d := [(1, 0x80000000)] })
    let c : CoreRef := ⟨0, false, 0⟩
    let m : Mode := .sample
    let cd : Cond := .al
    let cb : Nat := 0
    let dd : Nat := 3
    let ds : Nat := 1
    slotRuns s c m ⟨cd, cb, .unD .abs dd ds⟩ = true := by decide +kernel
theorem witness_ShiftsUnaryAndDivide_5 :
    let s : State := W.kernel 0x740CC40000000000 (fun r => { r with d := [(1, 0x80000000)] })
    let c : CoreRef := ⟨0, false, 0⟩
    let m : Mode := .sample
    let cd : Cond := .al
    let cb : Nat := 0
    let dd : Nat := 3
    let ds : Nat := 1
    slotRuns s c m ⟨cd, cb, .unD .sat dd ds⟩ = true := by decide +kernel
theorem witness_ShiftsUnaryAndDivide_6 :
    let s : State := W.kernel 0x7410C40000000000 (fun r => { r with d := [(1, 0x80000000)] })
    let c : CoreRef := ⟨0, false, 0⟩
    let m : Mode := .sample
    let cd : Cond := .al
    let cb : Nat := 0
    let dd : Nat := 3
    let ds : Nat := 1
    slotRuns s c m ⟨cd, cb, .unD .norm dd ds⟩ = true := by decide +kernel
theorem witness_ShiftsUnaryAndDivide_7 :
    let s : State := W.kernel 0x7806240000000000 (fun r => { r with d := [(1, 0x80000000), (2, 0xFFFFFFFF)] })
    let c : CoreRef := ⟨0, false, 0⟩
    let m : Mode := .sample
    let cd : Cond := .al
    let cb : Nat := 0
    let frac : Bool := false
    let dd : Nat := 3
    let ds1 : Nat := 1
    let ds2 : Nat := 2
    slotRuns s c m ⟨cd, cb, .div frac dd ds1 ds2⟩ = true := by decide +kernel
theorem witness_AluAccumulatorForms_1 :
    let s : State := W.kernel 0x4028900000000000 (fun r => { r with d := [(2, 0x80000000)], a := [(0, 0x7FFFFFFFFFFFFFFFFF)] })
    let c : CoreRef := ⟨0, false, 0⟩
    let m : Mode := .sample
    let cd : Cond := .al
    let cb : Nat := 0
    let ad : Nat := 1
    let as1 : Nat := 0
    let s2 : ASrc2 := .reg 2
    slotRuns s c m ⟨cd, cb, .binA .add ad as1 s2⟩ = true := by decide +kernel
theorem witness_AluAccumulatorForms_2 :
    let s : State := W.kernel 0x4828900000000000 (fun r => { r with d := [(2, 0x80000000)], a := [(0, 0x7FFFFFFFFFFFFFFFFF)] })
    let c : CoreRef := ⟨0, false, 0⟩
    let m : Mode := .sample
    let cd : Cond := .al
    let cb : Nat := 0
    let ad : Nat := 1
    let as1 : Nat := 0
    let s2 : ASrc2 := .reg 2
    slotRuns s c m ⟨cd, cb, .binA .sub ad as1 s2⟩ = true := by decide +kernel
theorem witness_AluAccumulatorForms_3 :
    let s : State := W.kernel 0x5C22400000000000 (fun r => { r with a := [(1, 5)] })
    let c : CoreRef := ⟨0, false, 0⟩
    let m : Mode := .sample
    let cd : Cond := .al
    let cb : Nat := 0
    let as1 : Nat := 1
    let s2 : ASrc2 := .acc 2
    slotRuns s c m ⟨cd, cb, .binA .cmp 0 as1 s2⟩ = true := by decide +kernel
theorem witness_AluAccumulatorForms_4 :
    let s : State := W.kernel 0x6022000000000000 (fun r => { r with a := [(1, 5)] })
    let c : CoreRef := ⟨0, false, 0⟩
    let m : Mode := .sample
    let cd : Cond := .al
    let cb : Nat := 0
    let as1 : Nat := 1
    let s2 : ASrc2 := .acc 0
    slotRuns s c m ⟨cd, cb, .binA .tst 0 as1 s2⟩ = true := by decide +kernel
theorem witness_AluAccumulatorForms_5 :
    let s : State := W.kernel 0x6428900000000000 (fun r => { r with d := [(2, 0x80000000)], a := [(0, 0x7FFFFFFFFFFFFFFFFF)] })
    let c : CoreRef := ⟨0, false, 0⟩
    let m : Mode := .sample
    let cd : Cond := .al
    let cb : Nat := 0
    let ad : Nat := 1
    let as1 : Nat := 0
    let s2 : ASrc2 := .reg 2
    slotRuns s c m ⟨cd, cb, .binA .min ad as1 s2⟩ = true := by decide +kernel
theorem witness_AluAccumulatorForms_6 :
    let s : State := W.kernel 0x6828900000000000 (fun r => { r with d := [(2, 0x80000000)], a := [(0, 0x7FFFFFFFFFFFFFFFFF)] })
    let c : CoreRef := ⟨0, false, 0⟩
    let m : Mode := .sample
    let cd : Cond := .al
    let cb : Nat := 0
    let ad : Nat := 1
    let as1 : Nat := 0
    let s2 : ASrc2 := .reg 2
    slotRuns s c m ⟨cd, cb, .binA .max ad as1 s2⟩ = true := by decide +kernel
theorem witness_AluAccumulatorForms_7 :
    let s : State := W.kernel 0x6C28900000000000 (fun r => { r with d := [(2, 0xFC)], a := [(0, 0x800000000000000011)] })
    let c : CoreRef := ⟨0, false, 0⟩
    let m : Mode := .sample
    let cd : Cond := .al
    let cb : Nat := 0
    let ad : Nat := 1
    let as1 : Nat := 0
    let s2 : ASrc2 := .reg 2
    slotRuns s c m ⟨cd, cb, .binA .ash ad as1 s2⟩ = true := by decide +kernel
theorem witness_AluAccumulatorForms_8 :
    let s : State := W.kernel 0x7028900000000000 (fun r => { r with d := [(2, 0xFC)], a := [(0, 0x800000000000000011)] })
    let c : CoreRef := ⟨0, false, 0⟩
    let m : Mode := .sample
    let cd : Cond := .al
    let cb : Nat := 0
    let ad : Nat := 1
    let as1 : Nat := 0
    let s2 : ASrc2 := .reg 2
    slotRuns s c m ⟨cd, cb, .binA .lsh ad as1 s2⟩ = true := by decide +kernel
theorem witness_AluAccumulatorForms_9 :
    let s : State := W.kernel 0x7421000000000000 (fun r => { r with a := [(0, 0x800000000000000000)] })
    let c : CoreRef := ⟨0, false, 0⟩
    let m : Mode := .sample
    let cd : Cond := .al
    let cb : Nat := 0
    let ad : Nat := 1
    let as1 : Nat := 0
    slotRuns s c m ⟨cd, cb, .unA .neg ad as1⟩ = true := by decide +kernel
theorem witness_AluAccumulatorForms_10 :
    let s : State := W.kernel 0x7425000000000000 (fun r => { r with a := [(0, 0x800000000000000000)] })
    let c : CoreRef := ⟨0, false, 0⟩
    let m : Mode := .sample
    let cd : Cond := .al
    let cb : Nat := 0
    let ad : Nat := 1
    let as1 : Nat := 0
    slotRuns s c m ⟨cd, cb, .unA .abs ad as1⟩ = true := by decide +kernel
theorem witness_AluAccumulatorForms_11 :
    let s : State := W.kernel 0x742D000000000000 (fun r => { r with a := [(0, 0x800000000000000000)] })
    let c : CoreRef := ⟨0, false, 0⟩
    let m : Mode := .sample
    let cd : Cond := .al
    let cb : Nat := 0
    let ad : Nat := 1
    let as1 : Nat := 0
    slotRuns s c m ⟨cd, cb, .unA .sat ad as1⟩ = true := by decide +kernel
theorem witness_AluAccumulatorForms_12 :
    let s : State := W.kernel 0x7430D00000000000 (fun r => { r with a := [(1, 0x010000000000000000)] })
    let c : CoreRef := ⟨0, false, 0⟩
    let m : Mode := .sample
    let cd : Cond := .al
    let cb : Nat := 0
    let dd : Nat := 3
    let as1 : Nat := 1
    slotRuns s c m ⟨cd, cb, .normA dd as1⟩ = true := by decide +kernel
theorem witness_BitOperations_1 :
    let s : State := W.kernel 0x7C04090000000000 (fun r => { r with d := [(1, 0x10), (2, 1)] })
    let c : CoreRef := ⟨0, false, 0⟩
    let m : Mode := .sample
    let cd : Cond := .al
    let cb : Nat := 0
    let bd : BitOp := .dreg 1 4
    let bs : BitOp := .space 0
    slotRuns s c m ⟨cd, cb, .bit .bset bd bs⟩ = true := by decide +kernel
theorem witness_BitOperations_2 :
    let s : State := W.kernel 0x7C0C090000000000 (fun r => { r with d := [(1, 0x10), (2, 1)] })
    let c : CoreRef := ⟨0, false, 0⟩
    let m : Mode := .sample
    let cd : Cond := .al
    let cb : Nat := 0
    let bd : BitOp := .dreg 1 4
    let bs : BitOp := .space 0
    slotRuns s c m ⟨cd, cb, .bit .bclr bd bs⟩ = true := by decide +kernel
theorem witness_BitOperations_3 :
    let s : State := W.kernel 0x7C14090000000000 (fun r => { r with d := [(1, 0x10), (2, 1)] })
    let c : CoreRef := ⟨0, false, 0⟩
    let m : Mode := .sample
    let cd : Cond := .al
    let cb : Nat := 0
    let bd : BitOp := .dreg 1 4
    let bs : BitOp := .space 0
    slotRuns s c m ⟨cd, cb, .bit .bnot bd bs⟩ = true := by decide +kernel
theorem witness_BitOperations_4 :
    let s : State := W.kernel 0x7C1C090000000000 (fun r => { r with d := [(1, 0x10), (2, 1)] })
    let c : CoreRef := ⟨0, false, 0⟩
    let m : Mode := .sample
    let cd : Cond := .al
    let cb : Nat := 0
    let bd : BitOp := .dreg 1 4
    let bs : BitOp := .space 0
    slotRuns s c m ⟨cd, cb, .bit .btst bd bs⟩ = true := by decide +kernel
theorem witness_BitOperations_5 :
    let s : State := W.kernel 0x7C24092080000000 (fun r => { r with d := [(1, 0x10), (2, 1)] })
    let c : CoreRef := ⟨0, false, 0⟩
    let m : Mode := .sample
    let cd : Cond := .al
    let cb : Nat := 0
    let bd : BitOp := .dreg 1 4
    let bs : BitOp := .dreg 2 0
    slotRuns s c m ⟨cd, cb, .bit .band bd bs⟩ = true := by decide +kernel
theorem witness_BitOperations_6 :
    let s : State := W.kernel 0x7C2C092080000000 (fun r => { r with d := [(1, 0x10), (2, 1)] })
    let c : CoreRef := ⟨0, false, 0⟩
    let m : Mode := .sample
    let cd : Cond := .al
    let cb : Nat := 0
    let bd : BitOp := .dreg 1 4
    let bs : BitOp := .dreg 2 0
    slotRuns s c m ⟨cd, cb, .bit .bor bd bs⟩ = true := by decide +kernel
theorem witness_BitOperations_7 :
    let s : State := W.kernel 0x7C34092080000000 (fun r => { r with d := [(1, 0x10), (2, 1)] })
    let c : CoreRef := ⟨0, false, 0⟩
    let m : Mode := .sample
    let cd : Cond := .al
    let cb : Nat := 0
    let bd : BitOp := .dreg 1 4
    let bs : BitOp := .dreg 2 0
    slotRuns s c m ⟨cd, cb, .bit .bxor bd bs⟩ = true := by decide +kernel
theorem witness_BitOperations_8 :
    let s : State := W.kernel 0x7C3C092080000000 (fun r => { r with d := [(1, 0x10), (2, 1)] })
    let c : CoreRef := ⟨0, false, 0⟩
    let m : Mode := .sample
    let cd : Cond := .al
    let cb : Nat := 0
    let bd : BitOp := .dreg 1 4
    let bs : BitOp := .dreg 2 0
    slotRuns s c m ⟨cd, cb, .bit .bmov bd bs⟩ = true := by decide +kernel
theorem witness_MultiplyAndAccumulate_1 :
    let s : State := W.kernel 0x8018920A00050000 (fun r => { r with d := [(1, 0x80000000), (2, 0x80000000)], a := [(1, 0x7FFFFFFFFFFFFFFFFF)] })
    let c : CoreRef := ⟨0, false, 0⟩
    let m : Mode := .sample
    let cd : Cond := .al
    let cb : Nat := 0
    let n : Nat := 1
    let s1 : DualOp := .reg 1
    let s2 : DualOp := .reg 2
    let int : Bool := false
    let pm : PMove := .sta 4 1
    let x : Word := 0x80000000
    let y : Word := 0x80000000
    let v : State := W.kernel 0x8018920A00050000 (fun r => { r with d := [(1, 0x80000000), (2, 0x80000000)], a := [(1, 0x7FFFFFFFFFFFFFFFFF)] })
    let w : State := W.kernel 0x8018920A00050000 (fun r => { r with d := [(1, 0x80000000), (2, 0x80000000)], a := [(1, 0x7FFFFFFFFFFFFFFFFF)] })
    (slotRuns s c m ⟨cd, cb, .mul .mpy n s1 s2 int pm⟩ = true) ∧ (readDual (slotState s c m) c s1 = .ok x v) ∧
    (readDual v c s2 = .ok y w) ∧ (w.wf = true) := by decide +kernel
theorem witness_MultiplyAndAccumulate_2 :
    let s : State := W.kernel 0x8418920A00050000 (fun r => { r with d := [(1, 0x80000000), (2, 0x80000000)], a := [(1, 0x7FFFFFFFFFFFFFFFFF)] })
    let c : CoreRef := ⟨0, false, 0⟩
    let m : Mode := .sample
    let cd : Cond := .al
    let cb : Nat := 0
    let n : Nat := 1
    let s1 : DualOp := .reg 1
    let s2 : DualOp := .reg 2
    let int : Bool := false
    let pm : PMove := .sta 4 1
    let x : Word := 0x80000000
    let y : Word := 0x80000000
    let v : State := W.kernel 0x8418920A00050000 (fun r => { r with d := [(1, 0x80000000), (2, 0x80000000)], a := [(1, 0x7FFFFFFFFFFFFFFFFF)] })
    let w : State := W.kernel 0x8418920A00050000 (fun r => { r with d := [(1, 0x80000000), (2, 0x80000000)], a := [(1, 0x7FFFFFFFFFFFFFFFFF)] })
    (slotRuns s c m ⟨cd, cb, .mul .mpyu n s1 s2 int pm⟩ = true) ∧ (readDual (slotState s c m) c s1 = .ok x v) ∧
    (readDual v c s2 = .ok y w) ∧ (w.wf = true) := by decide +kernel
theorem witness_MultiplyAndAccumulate_3 :
    let s : State := W.kernel 0x8818920A00050000 (fun r => { r with d := [(1, 0x80000000), (2, 0x80000000)], a := [(1, 0x7FFFFFFFFFFFFFFFFF)] })
    let c : CoreRef := ⟨0, false, 0⟩
    let m : Mode := .sample
    let cd : Cond := .al
    let cb : Nat := 0
    let n : Nat := 1
    let s1 : DualOp := .reg 1
    let s2 : DualOp := .reg 2
    let int : Bool := false
    let pm : PMove := .sta 4 1
    let x : Word := 0x80000000
    let y : Word := 0x80000000
    let v : State := W.kernel 0x8818920A00050000 (fun r => { r with d := [(1, 0x80000000), (2, 0x80000000)], a := [(1, 0x7FFFFFFFFFFFFFFFFF)] })
    let w : State := W.kernel 0x8818920A00050000 (fun r => { r with d := [(1, 0x80000000), (2, 0x80000000)], a := [(1, 0x7FFFFFFFFFFFFFFFFF)] })
    (slotRuns s c m ⟨cd, cb, .mul .mac n s1 s2 int pm⟩ = true) ∧ (readDual (slotState s c m) c s1 = .ok x v) ∧
    (readDual v c s2 = .ok y w) ∧ (w.wf = true) := by decide +kernel
theorem witness_MultiplyAndAccumulate_4 :
    let s : State := W.kernel 0x8C18920A00050000 (fun r => { r with d := [(1, 0x80000000), (2, 0x80000000)], a := [(1, 0x7FFFFFFFFFFFFFFFFF)] })
    let c : CoreRef := ⟨0, false, 0⟩
    let m : Mode := .sample
    let cd : Cond := .al
    let cb : Nat := 0
    let n : Nat := 1
    let s1 : DualOp := .reg 1
    let s2 : DualOp := .reg 2
    let int : Bool := false
    let pm : PMove := .sta 4 1
    let x : Word := 0x80000000
    let y : Word := 0x80000000
    let v : State := W.kernel 0x8C18920A00050000 (fun r => { r with d := [(1, 0x80000000), (2, 0x80000000)], a := [(1, 0x7FFFFFFFFFFFFFFFFF)] })
    let w : State := W.kernel 0x8C18920A00050000 (fun r => { r with d := [(1, 0x80000000), (2, 0x80000000)], a := [(1, 0x7FFFFFFFFFFFFFFFFF)] })
    (slotRuns s c m ⟨cd, cb, .mul .msu n s1 s2 int pm⟩ = true) ∧ (readDual (slotState s c m) c s1 = .ok x v) ∧
    (readDual v c s2 = .ok y w) ∧ (w.wf = true) := by decide +kernel
theorem witness_ComplexMultiplyAndSearch_1 :
    let s : State := W.kernel 0x9009140000000000 (fun r => { r with d := [(2, 0x40000000), (3, 0x20000000), (4, 0x80000000), (5, 1)], a := [(0, 5)] })
    let c : CoreRef := ⟨0, false, 0⟩
    let m : Mode := .sample
    let cd : Cond := .al
    let cb : Nat := 0
    let n : Nat := 0
    let s1 : DualOp := .reg 2
    let s2 : DualOp := .reg 4
    let pm : PMove := .none
    let x : Word × Word := (0x40000000, 0x20000000)
    let y : Word × Word := (0x80000000, 1)
    let v : State := W.kernel 0x9009140000000000 (fun r => { r with d := [(2, 0x40000000), (3, 0x20000000), (4, 0x80000000), (5, 1)], a := [(0, 5)] })
    let w : State := W.kernel 0x9009140000000000 (fun r => { r with d := [(2, 0x40000000), (3, 0x20000000), (4, 0x80000000), (5, 1)], a := [(0, 5)] })
    (slotRuns s c m ⟨cd, cb, .mul .cmpy n s1 s2 false pm⟩ = true) ∧ (readPair (slotState s c m) c s1 = .ok x v) ∧
    (readPair v c s2 = .ok y w) ∧ (w.wf = true) := by decide +kernel
theorem witness_ComplexMultiplyAndSearch_2 :
    let s : State := W.kernel 0x9409140000000000 (fun r => { r with d := [(2, 0x40000000), (3, 0x20000000), (4, 0x80000000), (5, 1)], a := [(0, 5)] })
    let c : CoreRef := ⟨0, false, 0⟩
    let m : Mode := .sample
    let cd : Cond := .al
    let cb : Nat := 0
    let n : Nat := 0
    let s1 : DualOp := .reg 2
    let s2 : DualOp := .reg 4
    let pm : PMove := .none
    let x : Word × Word := (0x40000000, 0x20000000)
    let y : Word × Word := (0x80000000, 1)
    let v : State := W.kernel 0x9409140000000000 (fun r => { r with d := [(2, 0x40000000), (3, 0x20000000), (4, 0x80000000), (5, 1)], a := [(0, 5)] })
    let w : State := W.kernel 0x9409140000000000 (fun r => { r with d := [(2, 0x40000000), (3, 0x20000000), (4, 0x80000000), (5, 1)], a := [(0, 5)] })
    (slotRuns s c m ⟨cd, cb, .mul .cmac n s1 s2 false pm⟩ = true) ∧ (readPair (slotState s c m) c s1 = .ok x v) ∧
    (readPair v c s2 = .ok y w) ∧ (w.wf = true) := by decide +kernel
theorem witness_ComplexMultiplyAndSearch_3 :
    let s : State := W.kernel 0x9809140000000000 (fun r => { r with d := [(2, 0x40000000), (3, 0x20000000), (4, 0x80000000), (5, 1)], a := [(0, 5)] })
    let c : CoreRef := ⟨0, false, 0⟩
    let m : Mode := .sample
    let cd : Cond := .al
    let cb : Nat := 0
    let n : Nat := 0
    let s1 : DualOp := .reg 2
    let s2 : DualOp := .reg 4
    let pm : PMove := .none
    let x : Word × Word := (0x40000000, 0x20000000)
    let y : Word × Word := (0x80000000, 1)
    let v : State := W.kernel 0x9809140000000000 (fun r => { r with d := [(2, 0x40000000), (3, 0x20000000), (4, 0x80000000), (5, 1)], a := [(0, 5)] })
    let w : State := W.kernel 0x9809140000000000 (fun r => { r with d := [(2, 0x40000000), (3, 0x20000000), (4, 0x80000000), (5, 1)], a := [(0, 5)] })
    (slotRuns s c m ⟨cd, cb, .mul .cmsu n s1 s2 false pm⟩ = true) ∧ (readPair (slotState s c m) c s1 = .ok x v) ∧
    (readPair v c s2 = .ok y w) ∧ (w.wf = true) := by decide +kernel
theorem witness_ComplexMultiplyAndSearch_4 :
    let s : State := W.kernel 0x9C09140000000000 (fun r => { r with d := [(2, 0x40000000), (3, 0x20000000), (4, 0x80000000), (5, 1)], a := [(0, 5)] })
    let c : CoreRef := ⟨0, false, 0⟩
    let m : Mode := .sample
    let cd : Cond := .al
    let cb : Nat := 0
    let n : Nat := 0
    let s1 : DualOp := .reg 2
    let s2 : DualOp := .reg 4
    let pm : PMove := .none
    let x : Word × Word := (0x40000000, 0x20000000)
    let y : Word × Word := (0x80000000, 1)
    let v : State := W.kernel 0x9C09140000000000 (fun r => { r with d := [(2, 0x40000000), (3, 0x20000000), (4, 0x80000000), (5, 1)], a := [(0, 5)] })
    let w : State := W.kernel 0x9C09140000000000 (fun r => { r with d := [(2, 0x40000000), (3, 0x20000000), (4, 0x80000000), (5, 1)], a := [(0, 5)] })
    (slotRuns s c m ⟨cd, cb, .mul .cmacj n s1 s2 false pm⟩ = true) ∧ (readPair (slotState s c m) c s1 = .ok x v) ∧
    (readPair v c s2 = .ok y w) ∧ (w.wf = true) := by decide +kernel
theorem witness_ComplexMultiplyAndSearch_5 :
    let s : State := W.kernel 0xA009140000000000 (fun r => { r with d := [(2, 0x40000000), (3, 0x20000000), (4, 0x80000000), (5, 1)], a := [(0, 5)] })
    let c : CoreRef := ⟨0, false, 0⟩
    let m : Mode := .sample
    let cd : Cond := .al
    let cb : Nat := 0
    let n : Nat := 0
    let s1 : DualOp := .reg 2
    let s2 : DualOp := .reg 4
    let pm : PMove := .none
    let x : Word × Word := (0x40000000, 0x20000000)
    let y : Word × Word := (0x80000000, 1)
    let v : State := W.kernel 0xA009140000000000 (fun r => { r with d := [(2, 0x40000000), (3, 0x20000000), (4, 0x80000000), (5, 1)], a := [(0, 5)] })
    let w : State := W.kernel 0xA009140000000000 (fun r => { r with d := [(2, 0x40000000), (3, 0x20000000), (4, 0x80000000), (5, 1)], a := [(0, 5)] })
    (slotRuns s c m ⟨cd, cb, .mul .bfly n s1 s2 false pm⟩ = true) ∧ (readPair (slotState s c m) c s1 = .ok x v) ∧
    (readPair v c s2 = .ok y w) ∧ (w.wf = true) := by decide +kernel
theorem witness_ComplexMultiplyAndSearch_6 :
    let s : State := W.kernel 0xA40E200000000000 (fun r => { r with d := [(1, 0x80000000), (3, 5)] })
    let c : CoreRef := ⟨0, false, 0⟩
    let m : Mode := .sample
    let cd : Cond := .al
    let cb : Nat := 0
    let dd : Nat := 3
    let src : DualOp := .reg 1
    let pm : PMove := .none
    let y : Word := 0x80000000
    let v : State := W.kernel 0xA40E200000000000 (fun r => { r with d := [(1, 0x80000000), (3, 5)] })
    (slotRuns s c m ⟨cd, cb, .search .maxi dd src pm⟩ = true) ∧ pmDest pm ≠ some dd ∧
    (readDual (slotState s c m) c src = .ok y v) ∧ (v.wf = true) := by decide +kernel
theorem witness_ComplexMultiplyAndSearch_7 :
    let s : State := W.kernel 0xA80E200000000000 (fun r => { r with d := [(1, 0x80000000), (3, 5)] })
    let c : CoreRef := ⟨0, false, 0⟩
    let m : Mode := .sample
    let cd : Cond := .al
    let cb : Nat := 0
    let dd : Nat := 3
    let src : DualOp := .reg 1
    let pm : PMove := .none
    let y : Word := 0x80000000
    let v : State := W.kernel 0xA80E200000000000 (fun r => { r with d := [(1, 0x80000000), (3, 5)] })
    (slotRuns s c m ⟨cd, cb, .search .mini dd src pm⟩ = true) ∧ pmDest pm ≠ some dd ∧
    (readDual (slotState s c m) c src = .ok y v) ∧ (v.wf = true) := by decide +kernel
theorem witness_ComplexMultiplyAndSearch_8 :
    let s : State := W.kernel 0xAC0E200000000000 (fun r => { r with d := [(1, 0x80000000), (3, 5)] })
    let c : CoreRef := ⟨0, false, 0⟩
    let m : Mode := .sample
    let cd : Cond := .al
    let cb : Nat := 0
    let dd : Nat := 3
    let src : DualOp := .reg 1
    let pm : PMove := .none
    let y : Word := 0x80000000
    let v : State := W.kernel 0xAC0E200000000000 (fun r => { r with d := [(1, 0x80000000), (3, 5)] })
    (slotRuns s c m ⟨cd, cb, .search .maxai dd src pm⟩ = true) ∧ pmDest pm ≠ some dd ∧
    (readDual (slotState s c m) c src = .ok y v) ∧ (v.wf = true) := by decide +kernel
theorem witness_AccumulatorAndRegisterMoves_1 :
    let s : State := W.kernel 0xB020000000000000 (fun r => { r with a := [(2, 7)] })
    let c : CoreRef := ⟨0, false, 0⟩
    let m : Mode := .sample
    let cd : Cond := .al
    let cb : Nat := 0
    let n : Nat := 2
    let pm : PMove := .none
    slotRuns s c m ⟨cd, cb, .clra n pm⟩ = true := by decide +kernel
theorem witness_AccumulatorAndRegisterMoves_2 :
    let s : State := W.kernel 0xB412000000000000 (fun r => { r with a := [(2, 7)] })
    let c : CoreRef := ⟨0, false, 0⟩
    let m : Mode := .sample
    let cd : Cond := .al
    let cb : Nat := 0
    let n : Nat := 1
    let k : Nat := 2
    let pm : PMove := .none
    slotRuns s c m ⟨cd, cb, .movaA n k pm⟩ = true := by decide +kernel
theorem witness_AccumulatorAndRegisterMoves_3 :
    let s : State := W.kernel 0xB414800000000000 (fun r => { r with d := [(2, 0x80000000)] })
    let c : CoreRef := ⟨0, false, 0⟩
    let m : Mode := .sample
    let cd : Cond := .al
    let cb : Nat := 0
    let n : Nat := 1
    let d : Nat := 2
    let pm : PMove := .none
    slotRuns s c m ⟨cd, cb, .movaD n d pm⟩ = true := by decide +kernel
theorem witness_AccumulatorAndRegisterMoves_4 :
    let s : State := W.kernel 0xB814000000000000 (fun r => { r with a := [(1, 7)] })
    let c : CoreRef := ⟨0, false, 0⟩
    let m : Mode := .sample
    let cd : Cond := .al
    let cb : Nat := 0
    let n : Nat := 1
    let k : Count := .imm (-128)
    let pm : PMove := .none
    slotRuns s c m ⟨cd, cb, .shacc n k pm⟩ = true := by decide +kernel
theorem witness_AccumulatorAndRegisterMoves_5 :
    let s : State := W.kernel 0xBC30000000000000 (fun r => { r with a := [(3, 0x7FFFFFFFFFFFFFFFFF)], e := [(3, 0xFFFFFFFF)] })
    let c : CoreRef := ⟨0, false, 0⟩
    let m : Mode := .sample
    let cd : Cond := .al
    let cb : Nat := 0
    let n : Nat := 3
    let pm : PMove := .none
    slotRuns s c m ⟨cd, cb, .resadd n pm⟩ = true := by decide +kernel
theorem witness_AccumulatorAndRegisterMoves_6 :
    let s : State := W.kernel 0xE411000000000000 (fun r => { r with a := [(1, 0x7FFFFFFFFFFFFFFFFF)] })
    let c : CoreRef := ⟨0, false, 0⟩
    let m : Mode := .sample
    let cd : Cond := .al
    let cb : Nat := 0
    let n : Nat := 1
    let dd : Nat := 2
    slotRuns s c m ⟨cd, cb, .staD n dd⟩ = true := by decide +kernel
theorem witness_AccumulatorAndRegisterMoves_7 :
    let s : State := W.kernel 0xC8307FFFFFFF8000 (fun r => r)
    let c : CoreRef := ⟨0, false, 0⟩
    let m : Mode := .sample
    let cd : Cond := .al
    let cb : Nat := 0
    let k : Nat := 0x60
    let v : Word := 0xFFFFFFFF
    slotRuns s c m ⟨cd, cb, .ldi k v⟩ = true := by decide +kernel
theorem witness_AccumulatorAndRegisterMoves_8 :
    let s : State := W.kernel 0xCC01C10000000000 (fun r => { r with m := [(1, 0x3FFFF)] })
    let c : CoreRef := ⟨0, false, 0⟩
    let m : Mode := .sample
    let cd : Cond := .al
    let cb : Nat := 0
    let k : Nat := 3
    let j : Nat := 0x41
    slotRuns s c m ⟨cd, cb, .mov k j⟩ = true := by decide +kernel
theorem witness_ParallelMoves_1 :
    let s : State := W.kernel 0x881892020F010000 (fun r => { r with a := [(2, 7)] })
    let c : CoreRef := ⟨0, false, 0⟩
    let m : Mode := .sample
    let cd : Cond := .al
    let cb : Nat := 0
    let op : Op := .mul .mac 1 (.reg 1) (.reg 2) false (.ldl (.wadi 0x3C0) 4)
    let i : Instr := .mac ⟨0, false, 0⟩
    let w : State := slotState (W.kernel 0x881892020F010000 (fun r => { r with a := [(2, 7)] })) ⟨0, false, 0⟩ .sample
    let l : Nat := 0x3C0
    let d : Nat := 4
    (slotRuns s c m ⟨cd, cb, op⟩ = true) ∧ (opPM op = .ldl (.wadi l) d) ∧ (class10Instr op c = some i) ∧
    (operandsRead (slotState s c m) c op = some w) ∧ (w.wf = true) := by decide +kernel
theorem witness_ParallelMoves_2 :
    let s : State := W.kernel 0xA40E200300090000 (fun r => { r with a := [(2, 7)] })
    let c : CoreRef := ⟨0, false, 0⟩
    let m : Mode := .sample
    let cd : Cond := .al
    let cb : Nat := 0
    let op : Op := .search .maxi 3 (.reg 1) (.ldl (.slip 2) 4)
    let i : Instr := .maxi ⟨0, false, 0⟩
    let w : State := slotState (W.kernel 0xA40E200300090000 (fun r => { r with a := [(2, 7)] })) ⟨0, false, 0⟩ .sample
    let l : Nat := 2
    let d : Nat := 4
    (slotRuns s c m ⟨cd, cb, op⟩ = true) ∧ (opPM op = .ldl (.slip l) d) ∧ (class10Instr op c = some i) ∧
    (operandsRead (slotState s c m) c op = some w) ∧ (w.wf = true) := by decide +kernel
theorem witness_ParallelMoves_3 :
    let s : State := W.kernel 0xB412000480010000 (fun r => { r with d := [(4, 0x1234)] })
    let c : CoreRef := ⟨0, false, 0⟩
    let m : Mode := .sample
    let cd : Cond := .al
    let cb : Nat := 0
    let op : Op := .movaA 1 2 (.stlD (.wadi 0x2000) 4)
    let i : Instr := .mova ⟨0, false, 0⟩
    let w : State := slotState (W.kernel 0xB412000480010000 (fun r => { r with d := [(4, 0x1234)] })) ⟨0, false, 0⟩ .sample
    let l : Nat := 0x2000
    let d : Nat := 4
    (slotRuns s c m ⟨cd, cb, op⟩ = true) ∧ (opPM op = .stlD (.wadi l) d) ∧ (class10Instr op c = some i) ∧
    (operandsRead (slotState s c m) c op = some w) ∧ (w.wf = true) ∧ (c.stew = false) := by decide +kernel
theorem witness_ParallelMoves_4 :
    let s : State := W.kernel 0xB814000500090000 (fun r => { r with d := [(4, 0x1234)] })
    let c : CoreRef := ⟨0, false, 0⟩
    let m : Mode := .sample
    let cd : Cond := .al
    let cb : Nat := 0
    let op : Op := .shacc 1 (.imm (-128)) (.stlD (.slip 2) 4)
    let i : Instr := .shacc ⟨0, false, 0⟩
    let w : State := slotState (W.kernel 0xB814000500090000 (fun r => { r with d := [(4, 0x1234)] })) ⟨0, false, 0⟩ .sample
    let l : Nat := 2
    let d : Nat := 4
    (slotRuns s c m ⟨cd, cb, op⟩ = true) ∧ (opPM op = .stlD (.slip l) d) ∧ (class10Instr op c = some i) ∧
    (operandsRead (slotState s c m) c op = some w) ∧ (w.wf = true) ∧ (c.stew = false) := by decide +kernel
theorem witness_ParallelMoves_5 :
    let s : State := W.kernel 0x8818920680020000 (fun r => { r with kmode := 5, a := [(2, 0x7FFFFFFFFFFFFFFFFF)] })
    let c : CoreRef := ⟨0, false, 0⟩
    let m : Mode := .sample
    let cd : Cond := .al
    let cb : Nat := 0
    let op : Op := .mul .mac 1 (.reg 1) (.reg 2) false (.stlA (.wadi 0x2000) 2)
    let i : Instr := .mac ⟨0, false, 0⟩
    let w : State := slotState (W.kernel 0x8818920680020000 (fun r => { r with kmode := 5, a := [(2, 0x7FFFFFFFFFFFFFFFFF)] })) ⟨0, false, 0⟩ .sample
    let l : Nat := 0x2000
    let a : Nat := 2
    (slotRuns s c m ⟨cd, cb, op⟩ = true) ∧ (opPM op = .stlA (.wadi l) a) ∧ (class10Instr op c = some i) ∧
    (operandsRead (slotState s c m) c op = some w) ∧ (w.wf = true) ∧ (c.stew = false) := by decide +kernel
theorem witness_ParallelMoves_6 :
    let s : State := W.kernel 0xB0200007000A0000 (fun r => { r with a := [(2, 0x7FFFFFFFFFFFFFFFFF)] })
    let c : CoreRef := ⟨0, false, 0⟩
    let m : Mode := .sample
    let cd : Cond := .al
    let cb : Nat := 0
    let op : Op := .clra 2 (.stlA (.slip 2) 2)
    let i : Instr := .clra ⟨0, false, 0⟩
    let w : State := slotState (W.kernel 0xB0200007000A0000 (fun r => { r with a := [(2, 0x7FFFFFFFFFFFFFFFFF)] })) ⟨0, false, 0⟩ .sample
    let l : Nat := 2
    let a : Nat := 2
    (slotRuns s c m ⟨cd, cb, op⟩ = true) ∧ (opPM op = .stlA (.slip l) a) ∧ (class10Instr op c = some i) ∧
    (operandsRead (slotState s c m) c op = some w) ∧ (w.wf = true) ∧ (c.stew = false) := by decide +kernel
theorem witness_ParallelMoves_7 :
    let s : State := W.kernel 0x9009140800150000 (fun r => { r with d := [(5, 9)] })
    let c : CoreRef := ⟨0, false, 0⟩
    let m : Mode := .sample
    let cd : Cond := .al
    let cb : Nat := 0
    let op : Op := .mul .cmpy 0 (.reg 2) (.reg 4) false (.mov 4 5)
    let i : Instr := .cmpy ⟨0, false, 0⟩
    let w : State := slotState (W.kernel 0x9009140800150000 (fun r => { r with d := [(5, 9)] })) ⟨0, false, 0⟩ .sample
    let dd : Nat := 4
    let ds : Nat := 5
    (slotRuns s c m ⟨cd, cb, op⟩ = true) ∧ (opPM op = .mov dd ds) ∧ (class10Instr op c = some i) ∧
    (operandsRead (slotState s c m) c op = some w) ∧ (w.wf = true) := by decide +kernel
theorem witness_ParallelMoves_8 :
    let s : State := W.kernel 0xBC30000A00090000 (fun r => { r with a := [(2, 0x0100000000)] })
    let c : CoreRef := ⟨0, false, 0⟩
    let m : Mode := .sample
    let cd : Cond := .al
    let cb : Nat := 0
    let op : Op := .resadd 3 (.sta 4 2)
    let i : Instr := .resadd ⟨0, false, 0⟩
    let w : State := slotState (W.kernel 0xBC30000A00090000 (fun r => { r with a := [(2, 0x0100000000)] })) ⟨0, false, 0⟩ .sample
    let dd : Nat := 4
    let a : Nat := 2
    (slotRuns s c m ⟨cd, cb, op⟩ = true) ∧ (opPM op = .sta dd a) ∧ (class10Instr op c = some i) ∧
    (operandsRead (slotState s c m) c op = some w) ∧ (w.wf = true) := by decide +kernel
theorem witness_LoadsAndStores_1 :
    let s : State := W.x 1 0xABCD (W.kernel 0xC00C080000000000 (fun r => { r with p := [(0, 1)] }))
    let c : CoreRef := ⟨0, false, 0⟩
    let m : Mode := .sample
    let cd : Cond := .al
    let cb : Nat := 0
    let d : Nat := 3
    let mo : MemOp := ⟨0, .inc⟩
    let v : Word := 0xABCD
    let w : State := W.x 1 0xABCD (W.kernel 0xC00C080000000000 (fun r => { r with p := [(0, 1)] }))
    (slotRuns s c m ⟨cd, cb, .ld d mo⟩ = true) ∧
    (readMem (slotState s c m) c mo.ptr (rf (slotRegs s c m).p mo.ptr).toNat = .ok v w) ∧ (w.wf = true) := by decide +kernel
theorem witness_LoadsAndStores_2 :
    let s : State := W.kernel 0xC40E100000000000 (fun r => { r with p := [(8, 4095)], d := [(3, 0x55)] })
    let c : CoreRef := ⟨0, false, 0⟩
    let m : Mode := .sample
    let cd : Cond := .al
    let cb : Nat := 0
    let d : Nat := 3
    let mo : MemOp := ⟨8, .dec⟩
    let r := slotRegs s c m
    (slotRuns s c m ⟨cd, cb, .st d mo⟩ = true) ∧ (c.stew = false) ∧ (mo.ptr < 8 ∨ mo.ptr < 12 ∨ hoardMode r = false) := by decide +kernel
theorem witness_LoadsAndStores_3 :
    let s : State := W.kernel 0xE008800000000000 (fun r => { r with p := [(2, 7)], b := [(2, 4)], l := [(2, 4)] })
    let c : CoreRef := ⟨0, false, 0⟩
    let m : Mode := .sample
    let cd : Cond := .al
    let cb : Nat := 0
    let mo : MemOp := ⟨2, .inc⟩
    slotRuns s c m ⟨cd, cb, .modp mo⟩ = true := by decide +kernel
theorem witness_LoadsAndStores_4 :
    let s : State := W.kernel 0xE418100000000000 (fun r => { r with a := [(1, 0x0100000000)] })
    let c : CoreRef := ⟨0, false, 0⟩
    let m : Mode := .sample
    let cd : Cond := .al
    let cb : Nat := 0
    let n : Nat := 1
    let mo : MemOp := ⟨0, .inc⟩
    (slotRuns s c m ⟨cd, cb, .staM n mo⟩ = true) ∧ (c.stew = false) ∧ (mo.ptr < 8) := by decide +kernel
theorem witness_LoadsAndStores_5 :
    let s : State := W.x 4 3 (W.kernel 0xE800510000000000 (fun r => { r with p := [(0, 4)], d := [(1, 5)] }))
    let c : CoreRef := ⟨0, false, 0⟩
    let m : Mode := .sample
    let cd : Cond := .al
    let cb : Nat := 0
    let n : Nat := 0
    let mo : MemOp := ⟨0, .dec⟩
    let s2 : DualOp := .reg 1
    let int : Bool := false
    let x : Word := 3
    let y : Word := 5
    let v : State := W.x 4 3 (W.kernel 0xE800510000000000 (fun r => { r with p := [(0, 4)], d := [(1, 5)] }))
    let w : State := W.x 4 3 (W.kernel 0xE800510000000000 (fun r => { r with p := [(0, 4)], d := [(1, 5)] }))
    let r := slotRegs s c m
    (slotRuns s c m ⟨cd, cb, .ftap n mo s2 int⟩ = true) ∧ (c.stew = false) ∧ (mo.ptr < 8) ∧
    (readMem (slotState s c m) c mo.ptr (rf r.p mo.ptr).toNat = .ok x v) ∧ (readDual v c s2 = .ok y w) ∧ (w.wf = true) := by decide +kernel
theorem witness_LoadsAndStores_6 :
    let s : State := W.kernel 0xE41E900000000000 (fun r => { r with a := [(1, 0x0100000000)] })
    let c : CoreRef := ⟨0, false, 0⟩
    let m : Mode := .sample
    let cd : Cond := .al
    let cb : Nat := 0
    let n : Nat := 1
    let mo : MemOp := ⟨13, .inc⟩
    let r := slotRegs s c m
    (slotRuns s c m ⟨cd, cb, .staM n mo⟩ = true) ∧ (c.stew = false) ∧ (8 ≤ mo.ptr) ∧ (mo.ptr < 12 ∨ hoardMode r = false) := by decide +kernel
theorem witness_LoadsAndStores_7 :
    let s : State := storeW (setReg (W.kernel 0xE41E100000000000 (fun r => { r with kmode := 2, p := rfSet [] 12 0x3FFF, a := [(1, 0x0100000000)] })) (Reg.POD_HOWN 0 0 0) 1) (hoardA 0 0 0) 0x66
    let c : CoreRef := ⟨0, false, 0⟩
    let m : Mode := .sample
    let cd : Cond := .al
    let cb : Nat := 0
    let n : Nat := 1
    let mo : MemOp := ⟨12, .inc⟩
    let r := slotRegs s c m
    (slotRuns s c m ⟨cd, cb, .staM n mo⟩ = true) ∧ (c.stew = false) ∧ (12 ≤ mo.ptr) ∧ (hoardMode r = true) ∧
    ((kern (slotState s c m) c.die c.idx).st = .run) ∧ (ownsWord (slotState s c m) c.die c.idx (rf r.p mo.ptr).toNat = true) := by decide +kernel
theorem witness_LoadsAndStores_8 :
    let s : State := storeW (setReg (W.kernel 0xC40F080000000000 (fun r => { r with kmode := 2, p := rfSet [] 12 0x3FFF, d := [(3, 9)] })) (Reg.POD_HOWN 0 0 0) 1) (hoardA 0 0 0) 0x66
    let c : CoreRef := ⟨0, false, 0⟩
    let m : Mode := .sample
    let cd : Cond := .al
    let cb : Nat := 0
    let d : Nat := 3
    let mo : MemOp := ⟨12, .inc⟩
    let r := slotRegs s c m
    (slotRuns s c m ⟨cd, cb, .st d mo⟩ = true) ∧ (c.stew = false) ∧ (12 ≤ mo.ptr) ∧ (hoardMode r = true) ∧
    ((kern (slotState s c m) c.die c.idx).st = .run) ∧ (ownsWord (slotState s c m) c.die c.idx (rf r.p mo.ptr).toNat = true) := by decide +kernel
theorem witness_LoadsAndStores_9 :
    let s : State := W.steward 0xE418000000000000 (fun r => { r with p := [(0, 0x800)], a := [(1, 0x7700000000)] })
    let c : CoreRef := ⟨0, true, 0⟩
    let m : Mode := .steward
    let cd : Cond := .al
    let cb : Nat := 0
    let n : Nat := 1
    let mo : MemOp := ⟨0, .keep⟩
    let w : State := W.written (slotState (W.steward 0xE418000000000000 (fun r => { r with p := [(0, 0x800)], a := [(1, 0x7700000000)] })) ⟨0, true, 0⟩ .steward) ⟨0, true, 0⟩ 0x800 0x77
    let r := slotRegs s c m
    let st := store32 (satMode r) (accOf r n)
    (slotRuns s c m ⟨cd, cb, .staM n mo⟩ = true) ∧
    (writeMem (slotState s c m) c mo.ptr (rf r.p mo.ptr).toNat st.val = .ok () w) ∧
    (restarted (slotState s c m) w c = false) ∧ (w.wf = true) := by decide +kernel
theorem witness_LoadsAndStores_10 :
    let s : State := storeBytes (W.steward 0xE800510000000000 (fun r => { r with p := [(0, 0x800)], d := [(1, 5)] })) 0x2000 9 4
    let c : CoreRef := ⟨0, true, 0⟩
    let m : Mode := .steward
    let cd : Cond := .al
    let cb : Nat := 0
    let n : Nat := 0
    let mo : MemOp := ⟨0, .dec⟩
    let s2 : DualOp := .reg 1
    let int : Bool := false
    let x : Word := 9
    let y : Word := 5
    let v : State := (W.loaded (slotState (storeBytes (W.steward 0xE800510000000000 (fun r => { r with p := [(0, 0x800)], d := [(1, 5)] })) 0x2000 9 4) ⟨0, true, 0⟩ .steward) ⟨0, true, 0⟩ 0x800)
    let w : State := (W.loaded (slotState (storeBytes (W.steward 0xE800510000000000 (fun r => { r with p := [(0, 0x800)], d := [(1, 5)] })) 0x2000 9 4) ⟨0, true, 0⟩ .steward) ⟨0, true, 0⟩ 0x800)
    let z : State := W.written (W.loaded (slotState (storeBytes (W.steward 0xE800510000000000 (fun r => { r with p := [(0, 0x800)], d := [(1, 5)] })) 0x2000 9 4) ⟨0, true, 0⟩ .steward) ⟨0, true, 0⟩ 0x800) ⟨0, true, 0⟩ 0x801 9
    let r := slotRegs s c m
    let up := ptrUpdate (ptrBits c) (rf r.p mo.ptr).toNat (rf r.b mo.ptr).toNat (rf r.l mo.ptr).toNat 1
    (slotRuns s c m ⟨cd, cb, .ftap n mo s2 int⟩ = true) ∧ (c.stew = true) ∧
    (readMem (slotState s c m) c mo.ptr (rf r.p mo.ptr).toNat = .ok x v) ∧ (readDual v c s2 = .ok y w) ∧
    (writeMem w c mo.ptr up x = .ok () z) ∧ (restarted w z c = false) ∧ (z.wf = true) := by decide +kernel
theorem witness_LoadsAndStores_11 :
    let s : State := W.steward 0xC40C000000000000 (fun r => { r with p := [(0, 0x800)], d := [(3, 0x77)] })
    let c : CoreRef := ⟨0, true, 0⟩
    let m : Mode := .steward
    let cd : Cond := .al
    let cb : Nat := 0
    let d : Nat := 3
    let mo : MemOp := ⟨0, .keep⟩
    let w : State := W.written (slotState (W.steward 0xC40C000000000000 (fun r => { r with p := [(0, 0x800)], d := [(3, 0x77)] })) ⟨0, true, 0⟩ .steward) ⟨0, true, 0⟩ 0x800 0x77
    let r := slotRegs s c m
    (slotRuns s c m ⟨cd, cb, .st d mo⟩ = true) ∧
    (writeMem (slotState s c m) c mo.ptr (rf r.p mo.ptr).toNat (rf r.d d) = .ok () w) ∧ (w.wf = true) := by decide +kernel
theorem witness_LinesSlipfacesAndHoard_1 :
    let s : State := { W.kernel 0xD00C1E0000000000 (fun r => r) with lines := [(0x3C0, ⟨7, true⟩)] }
    let c : CoreRef := ⟨0, false, 0⟩
    let m : Mode := .sample
    let cd : Cond := .al
    let cb : Nat := 0
    let d : Nat := 3
    let l : Nat := 0x3C0
    slotRuns s c m ⟨cd, cb, .ldl d (.wadi l)⟩ = true := by decide +kernel
theorem witness_LinesSlipfacesAndHoard_2 :
    let s : State := { W.kernel 0xD00E001000000000 (fun r => r) with slip := [(2, ⟨7, true⟩)] }
    let c : CoreRef := ⟨0, false, 0⟩
    let m : Mode := .sample
    let cd : Cond := .al
    let cb : Nat := 0
    let d : Nat := 3
    let l : Nat := 2
    (slotRuns s c m ⟨cd, cb, .ldl d (.slip l)⟩ = true) ∧ (c.stew = false) ∧
    (kern (slotState s c m) c.die c.idx).st ≠ .shadow := by decide +kernel
theorem witness_LinesSlipfacesAndHoard_3 :
    let s : State := W.kernel 0xD40D000000000000 (fun r => { r with d := [(3, 0x99)] })
    let c : CoreRef := ⟨0, false, 0⟩
    let m : Mode := .sample
    let cd : Cond := .al
    let cb : Nat := 0
    let d : Nat := 3
    let l : Nat := 0x2000
    (slotRuns s c m ⟨cd, cb, .stl d (.wadi l)⟩ = true) ∧ (c.stew = false) ∧ ((kern (slotState s c m) c.die c.idx).st = .run) := by decide +kernel
theorem witness_LinesSlipfacesAndHoard_4 :
    let s : State := W.kernel 0xD40E001000000000 (fun r => { r with d := [(3, 0x99)] })
    let c : CoreRef := ⟨0, false, 0⟩
    let m : Mode := .sample
    let cd : Cond := .al
    let cb : Nat := 0
    let d : Nat := 3
    let l : Nat := 2
    (slotRuns s c m ⟨cd, cb, .stl d (.slip l)⟩ = true) ∧ (c.stew = false) ∧ ((kern (slotState s c m) c.die c.idx).st = .run) := by decide +kernel
theorem witness_LinesSlipfacesAndHoard_5 :
    let s : State := W.slip false
    let c : CoreRef := ⟨0, false, 0⟩
    let cd : Cond := .al
    let cb : Nat := 0
    let d : Nat := 3
    let l : Nat := 2
    (slotIs s c .sample ⟨cd, cb, .ldl d (.slip l)⟩ = true) ∧ cd ≠ .nv ∧ (c.stew = false) ∧
    (slipWaits (slotFetched s c .sample) c l = true) := by decide +kernel
theorem witness_LinesSlipfacesAndHoard_6 :
    let s : State := W.slip true
    let c : CoreRef := ⟨0, false, 0⟩
    let cd : Cond := .al
    let cb : Nat := 0
    let d : Nat := 3
    let l : Nat := 2
    (c.stew = false) ∧ ((kern s c.die c.idx).wait = some l) ∧ (slipWaits s c l = false) ∧
    (slotRuns (endWait s c) c .sample ⟨cd, cb, .ldl d (.slip l)⟩ = true) ∧
    ((kern (slotState (endWait s c) c .sample) c.die c.idx).st = .run) := by decide +kernel
theorem witness_LinesSlipfacesAndHoard_7 :
    let s : State := W.hoard 0x36 0
    let c : CoreRef := ⟨0, false, 0⟩
    let m : Mode := .sample
    let cd : Cond := .al
    let cb : Nat := 0
    let d : Nat := 3
    let mo : MemOp := ⟨12, .inc⟩
    let v : Word := 0x66
    let w : State := noteHoardRead (W.hoard 0x36 0) 0 0 0x66
    let r := slotRegs s c m
    (slotRuns s c m ⟨cd, cb, .ldh d mo⟩ = true) ∧ (c.stew = false) ∧
    (readHoardOp (slotState s c m) c (rf r.p mo.ptr).toNat = .ok v w) ∧ (w.wf = true) := by decide +kernel
theorem witness_LinesSlipfacesAndHoard_8 :
    let s : State := W.hoard 0x37 0
    let c : CoreRef := ⟨0, false, 0⟩
    let m : Mode := .sample
    let cd : Cond := .al
    let cb : Nat := 0
    let d : Nat := 3
    let mo : MemOp := ⟨12, .inc⟩
    let r := slotRegs s c m
    (slotRuns s c m ⟨cd, cb, .sth d mo⟩ = true) ∧ (c.stew = false) ∧ ((kern (slotState s c m) c.die c.idx).st = .run) ∧
    (ownsWord (slotState s c m) c.die c.idx (rf r.p mo.ptr).toNat = true) := by decide +kernel
theorem witness_LinesSlipfacesAndHoard_9 :
    let s : State := W.hoard 0x37 0x4000
    let c : CoreRef := ⟨0, false, 0⟩
    let m : Mode := .sample
    let cd : Cond := .al
    let cb : Nat := 0
    let d : Nat := 3
    let mo : MemOp := ⟨12, .inc⟩
    let r := slotRegs s c m
    (slotRuns s c m ⟨cd, cb, .sth d mo⟩ = true) ∧ (m = .sample) ∧ ((kern (slotState s c m) c.die c.idx).st = .run) ∧
    (ownsWord (slotState s c m) c.die c.idx (rf r.p mo.ptr).toNat = false) := by decide +kernel
theorem witness_LinesSlipfacesAndHoard_10 :
    let s : State := W.hoard 0x36 0x4000
    let c : CoreRef := ⟨0, false, 0⟩
    let m : Mode := .sample
    let cd : Cond := .al
    let cb : Nat := 0
    let op : Op := .ldh 3 ⟨12, .inc⟩
    let i : Instr := .ldh ⟨0, false, 0⟩
    let d : Nat := 3
    let n : Nat := 0
    let k : Nat := 0
    let mo : MemOp := ⟨12, .inc⟩
    let int : Bool := false
    let f : MulFn := .mpy
    let g : SearchFn := .maxi
    let pm : PMove := .none
    let r := slotRegs s c m
    (slotRuns s c m ⟨cd, cb, op⟩ = true) ∧
    (op, i) ∈ [(.ldh d mo, .ldh c), (.ld d mo, .ld c), (.st d mo, .st c), (.staM n mo, .sta c), (.search g d (.mem mo) pm, searchInstr g c), (.mul f n (.reg k) (.mem mo) int pm, mulInstr f c)] ∧
    (m = .sample) ∧ (isComplex f = false) ∧ (op = .ldh d mo ∨ (12 ≤ mo.ptr ∧ hoardMode r = true)) ∧
    ((kern (slotState s c m) c.die c.idx).st = .run) ∧
    (ownsWord (slotState s c m) c.die c.idx (rf r.p mo.ptr).toNat = false) := by decide +kernel
theorem witness_BranchesAndControl_1 :
    let s : State := W.kernel 0x800000180000000 (fun r => r)
    let c : CoreRef := ⟨0, false, 0⟩
    let m : Mode := .sample
    let cd : Cond := .al
    let cb : Nat := 0
    let n : Int := 6
    slotRuns s c m ⟨cd, cb, .bra n⟩ = true := by decide +kernel
theorem witness_BranchesAndControl_2 :
    let s : State := W.kernel 0xC00000008000000 (fun r => r)
    let c : CoreRef := ⟨0, false, 0⟩
    let m : Mode := .sample
    let cd : Cond := .al
    let cb : Nat := 0
    let n : Nat := 8
    slotRuns s c m ⟨cd, cb, .jmpImm n⟩ = true := by decide +kernel
theorem witness_BranchesAndControl_3 :
    let s : State := W.test 0xC24000000000000 (fun r => { r with d := [(2, 64)] })
    let c : CoreRef := ⟨0, false, 0⟩
    let m : Mode := .test
    let cd : Cond := .al
    let cb : Nat := 0
    let n : Nat := 2
    slotRuns s c m ⟨cd, cb, .jmpReg n⟩ = true := by decide +kernel
theorem witness_BranchesAndControl_4 :
    let s : State := W.test 0x1000000180000000 (fun r => r)
    let c : CoreRef := ⟨0, false, 0⟩
    let m : Mode := .test
    let cd : Cond := .al
    let cb : Nat := 0
    let n : Int := 6
    slotRuns s c m ⟨cd, cb, .bsr n⟩ = true := by decide +kernel
theorem witness_BranchesAndControl_5 :
    let s : State := W.test 0x1400000000000000 (fun r => r)
    let c : CoreRef := ⟨0, false, 0⟩
    let m : Mode := .test
    let cd : Cond := .al
    let cb : Nat := 0
    slotRuns s c m ⟨cd, cb, .rts⟩ = true := by decide +kernel
theorem witness_BranchesAndControl_6 :
    let s : State := W.kernel 0x0 (fun r => r)
    let c : CoreRef := ⟨0, false, 0⟩
    let m : Mode := .sample
    let cd : Cond := .al
    let cb : Nat := 0
    (slotRuns s c m ⟨cd, cb, .nop⟩ = true) ∧ ((coreOf (slotState s c m) c).rep = .idle) ∧
    ((coreOf (slotState s c m) c).dly = none) ∧ ((coreOf (slotState s c m) c).lact = 0) ∧
    ((coreOf (slotState s c m) c).annulMul = []) := by decide +kernel
theorem witness_BranchesAndControl_7 :
    let s : State := (let s := W.kernel 0x0 (fun r => { r with lc := [(1, 3)] }); setKern s 0 0 { kern s 0 0 with core := { (kern s 0 0).core with lact := 2 } })
    let c : CoreRef := ⟨0, false, 0⟩
    let m : Mode := .sample
    let cd : Cond := .al
    let cb : Nat := 0
    let j : Nat := 1
    let k := coreOf (slotState s c m) c
    (slotRuns s c m ⟨cd, cb, .nop⟩ = true) ∧ ((coreOf (slotState s c m) c).rep = .idle) ∧
    ((coreOf (slotState s c m) c).dly = none) ∧ (levelAt k k.r.pc = some j) := by decide +kernel
theorem witness_BranchesAndControl_8 :
    let s : State := W.kernel 0x43C0000000000000 (fun r => r)
    let c : CoreRef := ⟨0, false, 0⟩
    let m : Mode := .sample
    let cb : Nat := 0
    let k := coreOf (slotState s c m) c
    (slotIs s c m ⟨.nv, cb, .nop⟩ = true) ∧ (k.rep = .idle) ∧ (k.dly = none) ∧ (k.lact = 0) ∧ (k.annulMul = []) := by decide +kernel
theorem witness_BranchesAndControl_9 :
    let s : State := W.kernel 0x4046220000000000 (fun r => r)
    let c : CoreRef := ⟨0, false, 0⟩
    let m : Mode := .sample
    let cd : Cond := .eq
    let cb : Nat := 0
    let dd : Nat := 3
    let ds1 : Nat := 1
    let s2 : Src2 := .reg 2
    let k := coreOf (slotState s c m) c
    (slotIs s c m ⟨cd, cb, .binD .add dd ds1 s2⟩ = true) ∧ cd ≠ .nv ∧
    (slotCond (slotState s c m) c ⟨cd, cb, .binD .add dd ds1 s2⟩ = false) ∧ (k.rep = .idle) ∧ (k.dly = none) ∧
    (k.lact = 0) ∧ (k.annulMul = []) := by decide +kernel
theorem witness_RepeatsAndBlocks_1 :
    let s : State := W.kernel 0x1800030000000000 (fun r => r)
    let c : CoreRef := ⟨0, false, 0⟩
    let m : Mode := .sample
    let cd : Cond := .al
    let cb : Nat := 0
    let n : Count := .imm 3
    slotRuns s c m ⟨cd, cb, .rep n⟩ = true := by decide +kernel
theorem witness_RepeatsAndBlocks_2 :
    let s : State := W.kernel 0x1C1000C008000000 (fun r => r)
    let c : CoreRef := ⟨0, false, 0⟩
    let m : Mode := .sample
    let cd : Cond := .al
    let cb : Nat := 0
    let j : Nat := 1
    let n : Count := .imm 3
    let len : Nat := 2
    let k := coreOf (slotState s c m) c
    (slotRuns s c m ⟨cd, cb, .brpt j n len⟩ = true) ∧ (k.r.pc + len < 4096) ∧ (j < 3) := by decide +kernel
theorem witness_EndAndEvents_1 :
    let s : State := W.kernel 0x400000000000000 (fun r => r)
    let c : CoreRef := ⟨0, false, 0⟩
    let m : Mode := .sample
    let cd : Cond := .al
    let cb : Nat := 0
    let tm : Nat := 12345
    (slotRuns s c m ⟨cd, cb, .end_⟩ = true) ∧ (c.stew = false) ∧ (standbyOf (slotState s c m) c.die c.idx = none) ∧
    (tm ≤ deadlineTenths (slotState s c m)) := by decide +kernel
theorem witness_EndAndEvents_2 :
    let s : State := W.kernel 0x2002400000000000 (fun r => r)
    let c : CoreRef := ⟨0, false, 0⟩
    let m : Mode := .sample
    let cd : Cond := .al
    let cb : Nat := 0
    let n : Nat := 9
    (slotRuns s c m ⟨cd, cb, .trap n⟩ = true) ∧ (m = .sample) ∧
    (bitF (slotState s c m) (Reg.QUEUE_CFG c.die 0) F.QUEUE_CFG_EN = false) := by decide +kernel
theorem witness_EndAndEvents_3 :
    let s : State := (let s := W.kernel 0x2002400000000000 (fun r => r); setFld (setFld (setFld s (Reg.QUEUE_CFG 0 0) F.QUEUE_CFG_EN 1) (Reg.QUEUE_CFG 0 0) F.QUEUE_CFG_DEPTH 4) (Reg.QUEUE_CFG 0 0) F.QUEUE_CFG_EWORDS 2)
    let c : CoreRef := ⟨0, false, 0⟩
    let m : Mode := .sample
    let cd : Cond := .al
    let cb : Nat := 0
    let n : Nat := 9
    (slotRuns s c m ⟨cd, cb, .trap n⟩ = true) ∧ (m = .sample) := by decide +kernel
theorem witness_EndAndEvents_4 :
    let s : State := W.test 0x2002400000000000 (fun r => r)
    let c : CoreRef := ⟨0, false, 0⟩
    let m : Mode := .test
    let cd : Cond := .al
    let cb : Nat := 0
    let n : Nat := 9
    let k := coreOf (slotState s c m) c
    (slotRuns s c m ⟨cd, cb, .trap n⟩ = true) ∧ m ≠ .sample ∧ (iplExc k.free = false) ∧ (levelAt k k.r.pc = none) := by decide +kernel
theorem witness_EndAndEvents_5 :
    let s : State := W.steward 0x24048D0000000000 (fun r => r)
    let c : CoreRef := ⟨0, true, 0⟩
    let m : Mode := .steward
    let cd : Cond := .al
    let cb : Nat := 0
    let n : Nat := 0x1234
    let k := coreOf (slotState s c m) c
    (slotRuns s c m ⟨cd, cb, .brk n⟩ = true) ∧ (debugHalts (slotState s c m) = false) ∧ (iplExc k.free = false) ∧
    (levelAt k k.r.pc = none) := by decide +kernel
theorem witness_EndAndEvents_6 :
    let s : State := setFld (W.steward 0x24048D0000000000 (fun r => r)) (Reg.BOOT_DBG 0) F.BOOT_DBG_PERM 1
    let c : CoreRef := ⟨0, true, 0⟩
    let m : Mode := .steward
    let cd : Cond := .al
    let cb : Nat := 0
    let n : Nat := 0x1234
    let k := coreOf (slotState s c m) c
    (slotRuns s c m ⟨cd, cb, .brk n⟩ = true) ∧ (debugHalts (slotState s c m) = true) ∧ (levelAt k k.r.pc = none) := by decide +kernel
theorem witness_EndAndEvents_7 :
    let s : State := W.steward 0xEC0D000000000000 (fun r => r)
    let c : CoreRef := ⟨0, true, 0⟩
    let m : Mode := .steward
    let cd : Cond := .al
    let cb : Nat := 0
    let n : Nat := 6
    let b : Bool := true
    (slotRuns s c m ⟨cd, cb, .voteOne n b⟩ = true) ∧ (n < 9) := by decide +kernel
theorem witness_EndAndEvents_8 :
    let s : State := W.steward 0xEC2C000000000000 (fun r => { r with d := [(6, 0x1A5)] })
    let c : CoreRef := ⟨0, true, 0⟩
    let m : Mode := .steward
    let cd : Cond := .al
    let cb : Nat := 0
    let n : Nat := 6
    slotRuns s c m ⟨cd, cb, .voteSet n⟩ = true := by decide +kernel
theorem witness_EndAndEvents_9 :
    let s : State := W.steward 0xF004800000000000 (fun r => r)
    let c : CoreRef := ⟨0, true, 0⟩
    let m : Mode := .steward
    let cd : Cond := .al
    let cb : Nat := 0
    let dg : Nat := 1
    let dt : Nat := 2
    let y : Bool := false
    slotRuns s c m ⟨cd, cb, .swapreq dg dt y⟩ = true := by decide +kernel
theorem witness_InterruptsAndReturn_1 :
    let s : State := W.steward 0x2800000000000000 (fun r => r)
    let c : CoreRef := ⟨0, true, 0⟩
    let m : Mode := .steward
    let cd : Cond := .al
    let cb : Nat := 0
    slotRuns s c m ⟨cd, cb, .rti⟩ = true := by decide +kernel
theorem witness_InterruptsAndReturn_2 :
    let s : State := W.steward 0x2C00000000000000 (fun r => r)
    let c : CoreRef := ⟨0, true, 0⟩
    let m : Mode := .steward
    let cd : Cond := .al
    let cb : Nat := 0
    slotRuns s c m ⟨cd, cb, .ei⟩ = true := by decide +kernel
theorem witness_InterruptsAndReturn_3 :
    let s : State := W.steward 0x3000000000000000 (fun r => r)
    let c : CoreRef := ⟨0, true, 0⟩
    let m : Mode := .steward
    let cd : Cond := .al
    let cb : Nat := 0
    slotRuns s c m ⟨cd, cb, .di⟩ = true := by decide +kernel
theorem witness_InterruptsAndReturn_4 :
    let s : State := W.steward 0x3400000000000000 (fun r => r)
    let c : CoreRef := ⟨0, true, 0⟩
    let m : Mode := .steward
    let cd : Cond := .al
    let cb : Nat := 0
    let k := coreOf (slotState s c m) c
    (slotRuns s c m ⟨cd, cb, .wait⟩ = true) ∧ (c.stew = true) ∧ (levelAt k k.r.pc = none) := by decide +kernel
theorem witness_InterruptsAndReturn_5 :
    let s : State := W.test 0x3400000000000000 (fun r => r)
    let c : CoreRef := ⟨0, false, 0⟩
    let m : Mode := .test
    let cd : Cond := .al
    let cb : Nat := 0
    let k := coreOf (slotState s c m) c
    (slotRuns s c m ⟨cd, cb, .wait⟩ = true) ∧ (c.stew = false) ∧ (levelAt k k.r.pc = none) := by decide +kernel
theorem witness_InterruptsAndReturn_6 :
    let s : State := W.irq .wait false
    let c : CoreRef := ⟨0, true, 0⟩
    (s.wf = true) ∧ (hasCore s c = true) ∧ (c.stew = true) ∧ ((stew s c.die c.idx).st = .wait) ∧
    irqPending s c.die c.idx ≠ 0 ∧ (irqAccepted s c.die c.idx = none ∨ heldOff (stew s c.die c.idx).core = true) := by decide +kernel
theorem witness_InterruptsAndReturn_7 :
    let s : State := W.irq .wait true
    let c : CoreRef := ⟨0, true, 0⟩
    let n : Nat := 1
    (s.wf = true) ∧ (hasCore s c = true) ∧ (c.stew = true) ∧ ((stew s c.die c.idx).st = .wait) ∧
    irqPending s c.die c.idx ≠ 0 ∧ (heldOff (stew s c.die c.idx).core = false) ∧ (irqAccepted s c.die c.idx = some n) := by decide +kernel
theorem witness_InterruptsAndReturn_8 :
    let s : State := W.irq .run true
    let c : CoreRef := ⟨0, true, 0⟩
    let n : Nat := 1
    (s.wf = true) ∧ (hasCore s c = true) ∧ (c.stew = true) ∧ ((stew s c.die c.idx).st = .run) ∧
    (heldOff (stew s c.die c.idx).core = false) ∧ (irqAccepted s c.die c.idx = some n) := by decide +kernel
theorem witness_InterruptsAndReturn_9 :
    let s : State := W.test 0x3800000000000000 (fun r => r)
    let t : State := W.test 0x3800000000000000 (fun r => r)
    let c : CoreRef := ⟨0, false, 0⟩
    let m : Mode := .test
    let k := coreOf t c
    (hasCore s c = true) ∧ (coreMode s c = some m) ∧ m ≠ .sample ∧ (fetchSlot s c m = .ok none t) ∧ (t.wf = true) ∧
    (iplExc k.free = false) ∧ (k.dly = none) := by decide +kernel
theorem witness_InterruptsAndReturn_10 :
    let s : State := setEcc (W.kernel 0x0 (fun r => r)) (progA 0 0 false 0) .double
    let t : State := setEcc (W.kernel 0x0 (fun r => r)) (progA 0 0 false 0) .double
    let c : CoreRef := ⟨0, false, 0⟩
    (hasCore s c = true) ∧ (coreMode s c = some .sample) ∧ (fetchSlot s c .sample = .unc t) ∧ (t.wf = true) := by decide +kernel
theorem witness_InterruptsAndReturn_11 :
    let s : State := W.kernel 0x3800000000000000 (fun r => r)
    let c : CoreRef := ⟨0, false, 0⟩
    let t : State := W.kernel 0x3800000000000000 (fun r => r)
    (hasCore s c = true) ∧ (coreMode s c = some .sample) ∧ (fetchSlot s c .sample = .ok none t) := by decide +kernel
theorem witness_AluFrame_1 :
    let s : State := W.kernel 0x4006220000000000 (fun r => r)
    let c : CoreRef := ⟨0, false, 0⟩
    let m : Mode := .sample
    let cd : Cond := .al
    let cb : Nat := 0
    let f : BinFn := .add
    let dd : Nat := 3
    let ds1 : Nat := 1
    let s2 : Src2 := .reg 2
    slotRuns s c m ⟨cd, cb, .binD f dd ds1 s2⟩ = true := by decide +kernel
theorem witness_AluFrame_2 :
    let s : State := W.kernel 0x7400C40000000000 (fun r => r)
    let c : CoreRef := ⟨0, false, 0⟩
    let m : Mode := .sample
    let cd : Cond := .al
    let cb : Nat := 0
    let f : UnFn := .neg
    let dd : Nat := 3
    let ds : Nat := 1
    slotRuns s c m ⟨cd, cb, .unD f dd ds⟩ = true := by decide +kernel
theorem witness_AluFrame_3 :
    let s : State := W.kernel 0x7806240000000000 (fun r => r)
    let c : CoreRef := ⟨0, false, 0⟩
    let m : Mode := .sample
    let cd : Cond := .al
    let cb : Nat := 0
    let frac : Bool := false
    let dd : Nat := 3
    let ds1 : Nat := 1
    let ds2 : Nat := 2
    slotRuns s c m ⟨cd, cb, .div frac dd ds1 ds2⟩ = true := by decide +kernel
theorem witness_AluFrame_4 :
    let s : State := W.kernel 0x4028900000000000 (fun r => r)
    let c : CoreRef := ⟨0, false, 0⟩
    let m : Mode := .sample
    let cd : Cond := .al
    let cb : Nat := 0
    let f : BinFn := .add
    let ad : Nat := 1
    let as1 : Nat := 0
    let s2 : ASrc2 := .reg 2
    slotRuns s c m ⟨cd, cb, .binA f ad as1 s2⟩ = true := by decide +kernel
theorem witness_AluFrame_5 :
    let s : State := W.kernel 0x7421000000000000 (fun r => r)
    let c : CoreRef := ⟨0, false, 0⟩
    let m : Mode := .sample
    let cd : Cond := .al
    let cb : Nat := 0
    let f : UnFn := .neg
    let ad : Nat := 1
    let as1 : Nat := 0
    slotRuns s c m ⟨cd, cb, .unA f ad as1⟩ = true := by decide +kernel
theorem witness_AluFrame_6 :
    let s : State := W.kernel 0x7430D00000000000 (fun r => r)
    let c : CoreRef := ⟨0, false, 0⟩
    let m : Mode := .sample
    let cd : Cond := .al
    let cb : Nat := 0
    let dd : Nat := 3
    let as1 : Nat := 1
    slotRuns s c m ⟨cd, cb, .normA dd as1⟩ = true := by decide +kernel
theorem witness_AluFrame_7 :
    let s : State := W.kernel 0x8009140000000000 (fun r => r)
    let c : CoreRef := ⟨0, false, 0⟩
    let m : Mode := .sample
    let cd : Cond := .al
    let cb : Nat := 0
    let f : MulFn := .mpy
    let n : Nat := 0
    let s1 : DualOp := .reg 2
    let s2 : DualOp := .reg 4
    let int : Bool := false
    let x : Word := 0
    let y : Word := 0
    let w : State := W.kernel 0x8009140000000000 (fun r => r)
    let v : State := W.kernel 0x8009140000000000 (fun r => r)
    (slotRuns s c m ⟨cd, cb, .mul f n s1 s2 int .none⟩ = true) ∧ (isComplex f = false) ∧
    (readDual (slotState s c m) c s1 = .ok x w) ∧ (readDual w c s2 = .ok y v) ∧ (v.wf = true) := by decide +kernel
theorem witness_AluFrame_8 :
    let s : State := W.kernel 0x9009140000000000 (fun r => r)
    let c : CoreRef := ⟨0, false, 0⟩
    let m : Mode := .sample
    let cd : Cond := .al
    let cb : Nat := 0
    let f : MulFn := .cmpy
    let n : Nat := 0
    let s1 : DualOp := .reg 2
    let s2 : DualOp := .reg 4
    let x : Word × Word := (0, 0)
    let y : Word × Word := (0, 0)
    let w : State := W.kernel 0x9009140000000000 (fun r => r)
    let v : State := W.kernel 0x9009140000000000 (fun r => r)
    (slotRuns s c m ⟨cd, cb, .mul f n s1 s2 false .none⟩ = true) ∧ (isComplex f = true) ∧
    (readPair (slotState s c m) c s1 = .ok x w) ∧ (readPair w c s2 = .ok y v) ∧ (v.wf = true) := by decide +kernel
theorem witness_AluFrame_9 :
    let s : State := W.kernel 0xA40E200000000000 (fun r => r)
    let c : CoreRef := ⟨0, false, 0⟩
    let m : Mode := .sample
    let cd : Cond := .al
    let cb : Nat := 0
    let f : SearchFn := .maxi
    let dd : Nat := 3
    let src : DualOp := .reg 1
    let y : Word := 0
    let v : State := W.kernel 0xA40E200000000000 (fun r => r)
    (slotRuns s c m ⟨cd, cb, .search f dd src .none⟩ = true) ∧ (readDual (slotState s c m) c src = .ok y v) ∧ (v.wf = true) := by decide +kernel
theorem witness_StepTakesFront_2 :
    let s : State := State.reset
    s.pending = [] := by decide +kernel
theorem witness_StepKeepsCanonical :
    let s : State := { State.reset with pending := [.resetNAssert] }
    let t : State := W.after .resetNAssert State.reset
    (s.wf = true) ∧ (step s = .next t) := ⟨by decide +kernel, rfl⟩
theorem witness_EveryCommandCompletes_1 :
    let s : State := State.reset
    let i : Instr := .pulse
    (dieCount s.part = 8) ∧ (i.wf = true) ∧ ∀ c, i ≠ .exceptionEntry c := ⟨by decide, by decide, fun _ h => by cases h⟩
theorem witness_EveryCommandCompletes_2 :
    let i : Instr := .pulse
    (i.wf = true) ∧ ∀ c, i ≠ .exceptionEntry c := ⟨by decide, fun _ h => by cases h⟩
theorem witness_StepKeepsMemory :
    let s : State := { State.reset with pending := [.resetNAssert] }
    let t : State := W.after .resetNAssert State.reset
    (Memory.wf s.mem = true) ∧ (step s = .next t) := ⟨by decide +kernel, rfl⟩
theorem witness_PackageReset_1 :
    let s : State := State.reset
    (s.wf = true) ∧ (s.keep.seq = .run ∨ s.keep.seq = .held) := by decide +kernel
theorem witness_PackageReset_2 :
    let s : State := { State.reset with keep := { State.reset.keep with seq := .husk } }
    s.keep.seq ≠ .run ∧ s.keep.seq ≠ .held := by decide +kernel
theorem witness_PackageReset_3 :
    let s : State := W.after .resetNAssert State.reset
    (s.wf = true) ∧ (s.keep.seq = .held) := by decide +kernel
theorem witness_PackageReset_4 :
    let s : State := setFld State.reset (Reg.BOOT_STAT 0) F.BOOT_STAT_TRIAL 1
    (s.wf = true) ∧ (bitF s (Reg.BOOT_STAT 0) F.BOOT_STAT_TRIAL = true) := by decide +kernel
theorem witness_BootSelection_1 :
    let s : State := State.reset
    let p : List Byte := []
    let q : List Byte := []
    (seedRuns s = true) ∧ (s.boot.step = .directory) ∧ (dirChoose p q = none) := by decide +kernel
theorem witness_BootSelection_2 :
    let s : State := State.reset
    let p : List Byte := W.dir
    let q : List Byte := []
    let c : List Byte := W.dir
    (seedRuns s = true) ∧ (s.boot.step = .directory) ∧ (dirChoose p q = some c) := by decide +kernel
theorem witness_BootSelection_3 :
    let s : State := { State.reset with boot := { State.reset.boot with step := .slots, dir := [(0, 0, 0), (0, 0, 0)] } }
    let i : Nat := 1
    (s.wf = true) ∧ (seedRuns s = true) ∧ (s.boot.step = .slots) ∧ (i < 2) ∧ (alGet i s.boot.images = none) := by decide +kernel
theorem witness_BootSelection_4 :
    let s : State := { State.reset with boot := { State.reset.boot with step := .fastHead } }
    let i : Nat := 0
    (seedRuns s = true) ∧ (s.boot.step = .fastHead) ∧ (i = s.boot.slot) := by decide +kernel
theorem witness_BootSelection_5 :
    let s : State := attemptFail State.reset 1
    (seedRuns s = true) ∧ (s.boot.step = .wait) := by decide +kernel
theorem witness_BootLoading_1 :
    let s : State := { State.reset with boot := { State.reset.boot with step := .load, todo := [0] } }
    let i : Nat := 0
    let rest : List Nat := []
    let data : List Byte := []
    let h := imageInHand s
    (seedRuns s = true) ∧ (s.boot.step = .load) ∧ (s.boot.todo = i :: rest) ∧ (dataFits h i data = true) := by decide +kernel
theorem witness_BootLoading_2 :
    let s : State := { State.reset with boot := { State.reset.boot with step := .done, later := [0] } }
    let i : Nat := 0
    let rest : List Nat := []
    let data : List Byte := []
    let h := imageInHand s
    (running s = true) ∧ (s.boot.step = .done) ∧ (s.boot.later = i :: rest) ∧ (dataFits h i data = true) := by decide +kernel
theorem witness_BootLoading_3 :
    let s : State := setFld { State.reset with boot := { State.reset.boot with step := .done } } (Reg.BOOT_STAT 0) F.BOOT_STAT_MODE 1
    (s.wf = true) ∧ (running s = true) ∧ (s.boot.step = .done) ∧ (bootMode s = 1) ∧ (s.boot.later = []) ∧
    (bitF s (Reg.BOOT_STAT 0) F.BOOT_STAT_LOADED = false) := by decide +kernel
theorem witness_BootLoading_4 :
    let s : State := { State.reset with boot := { State.reset.boot with step := .ready } }
    (s.wf = true) ∧ (seedRuns s = true) ∧ (s.boot.step = .ready) := by decide +kernel
theorem witness_BootLoading_5 :
    let s : State := State.reset
    let a : Access := ⟨0, 0⟩
    let r := Reg.BOOT_CONFIRM 0
    reachesReg s a r = true := by decide +kernel
theorem witness_BootLoading_6 :
    let s : State := setFld State.reset (Reg.BOOT_STAT 0) F.BOOT_STAT_TRIAL 1
    let a : Access := ⟨0, 0⟩
    (reachesReg s a (Reg.BOOT_CONFIRM 0) = true) ∧ (bitF s (Reg.BOOT_STAT 0) F.BOOT_STAT_TRIAL = true) := by decide +kernel
theorem witness_BootRecoveryDebug_1 :
    let s : State := setFld { State.reset with boot := { State.reset.boot with step := .recovery, status := 4 } } (Reg.BOOT_STAT 0) F.BOOT_STAT_MODE 2
    let a : Access := ⟨0, 0⟩
    let r := Reg.BOOT_RECOV 0
    (reachesReg s a r = true) ∧ (bootMode s = 2) ∧ (s.boot.step = .recovery) := by decide +kernel
theorem witness_BootRecoveryDebug_2 :
    let s : State := State.reset
    let a : Access := ⟨0, 0⟩
    let r := Reg.BOOT_RECOV 0
    (reachesReg s a r = true) ∧ bootMode s ≠ 2 := by decide +kernel
theorem witness_BootRecoveryDebug_3 :
    let s : State := { State.reset with boot := { State.reset.boot with step := .checking } }
    (s.wf = true) ∧ (seedRuns s = true) ∧ (s.boot.step = .checking) := by decide +kernel
theorem witness_BootRecoveryDebug_4 :
    let s : State := State.reset
    let a : Access := ⟨0, 0⟩
    let r := Reg.BOOT_STATUSN 0
    reachesReg s a r = true := by decide +kernel
theorem witness_BootRecoveryDebug_5 :
    let s : State := State.reset
    running s = true := by decide +kernel
theorem witness_BootRecoveryDebug_6 :
    let s : State := setFld State.reset (Reg.BOOT_DBG 0) F.BOOT_DBG_PERM 1
    let d : Nat := 0
    let i : Nat := 0
    let st := stew s d i
    (d < dieCount s.part) ∧ (i < 2) ∧ (running s = true) ∧
    (s.fuses.lock = false ∨ (fld s (Reg.BOOT_DBG 0) F.BOOT_DBG_PERM).testBit 0 = true) ∧ (st.st = .run ∨ st.st = .wait) := by decide +kernel
theorem witness_BootRecoveryDebug_7 :
    let s : State := State.reset
    s.fuses.lock = false := by decide +kernel
theorem witness_BootRecoveryDebug_8 :
    let s : State := { State.reset with fuses := { State.reset.fuses with lock := true } }
    s.fuses.lock = true := by decide +kernel
theorem witness_PulseRegisters_1 :
    let s : State := State.reset
    let a : Access := ⟨0, 0⟩
    let r := Reg.PULSE_CTL 0
    reachesReg s a r = true := by decide +kernel
theorem witness_PulseRegisters_2 :
    let s : State := State.reset
    let a : Access := ⟨0, 0⟩
    let r := Reg.PULSE_CTL 0
    reachesReg s a r = true := by decide +kernel
theorem witness_PulseRegisters_3 :
    let s : State := State.reset
    let a : Access := ⟨0, 0⟩
    let v : Word := 5
    let r := Reg.PULSE_CFG 0
    (reachesReg s a r = true) ∧ (pulseRuns s = false) ∧ (wGet v F.PULSE_CFG_RATE < 6) := by decide +kernel
theorem witness_PulseRegisters_4 :
    let s : State := State.reset
    let a : Access := ⟨0, 0⟩
    let v : Word := 6
    let r := Reg.PULSE_CFG 0
    (reachesReg s a r = true) ∧ (pulseRuns s = true ∨ 6 ≤ wGet v F.PULSE_CFG_RATE) := by decide +kernel
theorem witness_PulseRegisters_5 :
    let s : State := State.reset
    let a : Access := ⟨0, 0⟩
    let r := Reg.PULSE_COUNT_LO 0
    reachesReg s a r = true := by decide +kernel
theorem witness_PulseRegisters_6 :
    let s : State := State.reset
    let a : Access := ⟨0, 0⟩
    let r := Reg.PULSE_COUNT_HI 0
    reachesReg s a r = true := by decide +kernel
theorem witness_PulseRegisters_7 :
    let s : State := setFld State.reset (Reg.PULSE_STAT 0) F.PULSE_STAT_LOCK 1
    let d : Nat := 0
    (d < dieCount s.part) ∧ (bitF s (Reg.PULSE_STAT d) F.PULSE_STAT_LOCK = true) := by decide +kernel
theorem witness_PulseRegisters_8 :
    let s : State := setFld State.reset (Reg.PULSE_STAT 0) F.PULSE_STAT_LOCK 0
    let d : Nat := 0
    (d < dieCount s.part) ∧ (running s = true) ∧ (bitF s (Reg.PULSE_STAT d) F.PULSE_STAT_LOCK = false) := by decide +kernel
theorem witness_PulseAndDeadline_1 :
    let s : State := setFld { State.reset with phase := .commit } (Reg.PULSE_CTL 0) F.PULSE_CTL_RUN 1
    (s.wf = true) ∧ (running s = true) ∧ (s.phase = .commit) ∧ (trackOwed s = false) ∧
    (bitF s (Reg.PULSE_CTL 0) F.PULSE_CTL_RUN = true) := by decide +kernel
theorem witness_PulseAndDeadline_2 :
    let s : State := { State.reset with phase := .tick }
    (running s = true) ∧ (s.phase = .tick) ∧ (tickOwed s = false) := by decide +kernel
theorem witness_PulseAndDeadline_3 :
    let s : State := setFld (setFld State.reset (Reg.PULSE_STAT 0) F.PULSE_STAT_LOCK 1) (Reg.PULSE_CTL 0) F.PULSE_CTL_RUN 1
    (s.wf = true) ∧ (running s = true) ∧ (s.phase = .stopped) ∧ (bitF s (Reg.PULSE_CTL 0) F.PULSE_CTL_RUN = true) ∧
    (pulseLock s = true) := by decide +kernel
theorem witness_PulseAndDeadline_4 :
    let s : State := { State.reset with phase := .commit }
    (running s = true) ∧ (s.phase = .commit) ∧ (bitF s (Reg.PULSE_CTL 0) F.PULSE_CTL_RUN = false) := by decide +kernel
theorem witness_PulseAndDeadline_5 :
    let s : State := setKern (setFld { State.reset with phase := .commit } (Reg.PULSE_CTL 0) F.PULSE_CTL_RUN 1) 0 143 { Kern.zero with st := .run, core := { Core.zero with steps := 9, r := { Regs.zero with pc := 9, rpc := 3, p := [(0, 7)], lc := [(0, 2)] } } }
    let d : Nat := 0
    let k : Nat := 143
    (s.wf = true) ∧ (d < dieCount s.part) ∧ (k < 144) ∧ (trackOwed s = false) ∧ (running s = true) ∧ (s.phase = .commit) ∧
    (bitF s (Reg.PULSE_CTL 0) F.PULSE_CTL_RUN = true) := by decide +kernel
theorem witness_PulseAndDeadline_6 :
    let s : State := setSap (setFld (setFld (setFld (setFld (setFld (setFld State.reset (Reg.CLKSTEER_CTL 0) F.CLKSTEER_CTL_EN 1) (Reg.CLKSTEER_STAT 0) F.CLKSTEER_STAT_STATE steerLock) (Reg.SAP_CFG 0 0) F.SAP_CFG_MODE 1) (Reg.SAP_CFG 0 0) F.SAP_CFG_SLOTS 1) (Reg.SAP_STAT 0 0) F.SAP_STAT_STATE 3) (Reg.PULSE_CTL 0) F.PULSE_CTL_RUN 1) 0 0 SapPort.zero
    trackOwed s = true := by decide +kernel
theorem witness_PulseAndDeadline_7 :
    let s : State := State.reset
    s.wf = true := by decide +kernel
theorem witness_PulseAndDeadline_8 :
    let s : State := setKern State.reset 0 3 { Kern.zero with st := .run, staged := [(0x800, 7)] }
    let d : Nat := 0
    let k : Nat := 3
    let n : Nat := 0x800
    let v : Word := 7
    (s.wf = true) ∧ (commitList s d k = [(n, v)]) ∧ (kernelLineOk n = true) := by decide +kernel
theorem witness_PulseAndDeadline_9 :
    let s : State := setKern { State.reset with phase := .tick } 0 3 { Kern.zero with st := .run, active := true, ended := false, staged := [(0x800, 7)], core := { Core.zero with snap := { Regs.zero with p := [(0, 7)] } } }
    let d : Nat := 0
    let k : Nat := 3
    let kn := kern s d k
    (s.wf = true) ∧ (d < dieCount s.part) ∧ (k < 144) ∧ (running s = true) ∧ (s.phase = .tick) ∧ (tickOwed s = false) ∧
    (kn.st = .run) ∧ (kn.active = true) ∧ (domLive s d (pdPod (k / 18)) = true) ∧ (kn.ended = false) := by decide +kernel
theorem witness_PulseAndDeadline_10 :
    let s : State := setKern { State.reset with phase := .tick } 0 3 { Kern.zero with st := .run, active := true, ended := true, staged := [(0x800, 7)] }
    let d : Nat := 0
    let k : Nat := 3
    let n : Nat := 0x800
    let v : Word := 7
    let kn := kern s d k
    (s.wf = true) ∧ (d < dieCount s.part) ∧ (k < 144) ∧ (running s = true) ∧ (s.phase = .tick) ∧ (tickOwed s = false) ∧
    (kn.st = .run) ∧ (kn.active = true) ∧ (domLive s d (pdPod (k / 18)) = true) ∧ (kn.ended = true) ∧
    ((commitList s d k).filter (fun e => decide (e.1 = n)) = [(n, v)]) ∧ (kernelLineOk n = true) ∧
    (((listed s d).all fun j => decide (j = k) || (!(bankLines s d j).contains n && !((commitList s d j).any fun e => decide (e.1 = n)))) = true) := by decide +kernel
theorem witness_Governor_1 :
    let s : State := setDieX (setFld (setFld State.reset (Reg.GOV_CTL 0) F.GOV_CTL_EN 1) (Reg.GOV_STAT 0) F.GOV_STAT_VID 40) 0 { DieX.zero with settle := some 0 }
    let d : Nat := 0
    (s.wf = true) ∧ (d < dieCount s.part) ∧ (govAuto s d = true) ∧ ((dieX s d).settle = some 0) ∧ (dieRetained s d = false) := by decide +kernel
theorem witness_Governor_2 :
    let s : State := setDieX (setFld (setFld State.reset (Reg.GOV_CTL 0) F.GOV_CTL_EN 1) (Reg.GOV_STAT 0) F.GOV_STAT_VID 40) 0 { DieX.zero with window := 100000 }
    let d : Nat := 0
    (s.wf = true) ∧ (d < dieCount s.part) ∧ (govAuto s d = true) ∧ (govWindow s d ≤ (dieX s d).window) ∧
    (dieRetained s d = false) := by decide +kernel
theorem witness_Governor_3 :
    let s : State := setDieX State.reset 0 { DieX.zero with prepTo := some 0 }
    let d : Nat := 0
    let n : Nat := 0
    (s.wf = true) ∧ (d < dieCount s.part) ∧ ((dieX s d).prepTo = some n) ∧ (n ≤ pulseCount s) ∧ (podsExiting s d = false) := by decide +kernel
theorem witness_Governor_4 :
    let s : State := State.reset
    let a : Access := ⟨0, 0⟩
    let d : Nat := 0
    let r := Reg.GOV_MANUAL d
    reachesReg s a r = true := by decide +kernel
theorem witness_Governor_5 :
    let s : State := State.reset
    let a : Access := ⟨0, 0⟩
    let d : Nat := 0
    let r := Reg.GOV_MARGIN_MIN d
    reachesReg s a r = true := by decide +kernel
theorem witness_Governor_6 :
    let s : State := setKern State.reset 0 3 { Kern.zero with st := .run, wear := ⟨65536, 1, 1, 0⟩ }
    let d : Nat := 0
    let k : Nat := 3
    (s.wf = true) ∧ (d < dieCount s.part) ∧ (k < 144) ∧ (65536 ≤ (kern s d k).wear.ticks) ∧ (kern s d k).st ≠ .retired := by decide +kernel
theorem witness_ThermalMonitor_1 :
    let s : State := State.reset
    let d : Nat := 0
    let t1 : Int := 100
    let t2 : Int := -20
    let t3 : Int := 400
    let t4 : Int := 0
    let hot := max (max t1 t2) (max t3 t4)
    (s.wf = true) ∧ (d < dieCount s.part) ∧ (running s = true) ∧ (-32768 ≤ hot ∧ hot < 32768) ∧
    (hot < 500 ∨ (dieX s d).hot = 0) := by decide +kernel
theorem witness_ThermalMonitor_2 :
    let s : State := setDieX State.reset 0 { DieX.zero with hot := 1 }
    let d : Nat := 0
    let t1 : Int := 100
    let t2 : Int := 500
    let t3 : Int := 400
    let t4 : Int := 0
    let hot := max (max t1 t2) (max t3 t4)
    (d < dieCount s.part) ∧ (running s = true) ∧ (500 ≤ hot) ∧ (1 ≤ (dieX s d).hot) := by decide +kernel
theorem witness_ThermalMonitor_3 :
    let s : State := setFld State.reset (Reg.THERM_TEMP 0) F.THERM_TEMP_TJ 500
    let d : Nat := 0
    (s.wf = true) ∧ (d < dieCount s.part) ∧ (running s = true) := by decide +kernel
theorem witness_ThermalMonitor_4 :
    let s : State := State.reset
    let a : Access := ⟨0, 0⟩
    let d : Nat := 0
    let r := Reg.THERM_MAX d
    reachesReg s a r = true := by decide +kernel
theorem witness_SwapReports_1 :
    let s : State := { State.reset with swaps := [⟨0, 100, false, 0, none, 0, [(0, .sent), (1, .sent)], [], false, false, [], false⟩] }
    let g : Nat := 0
    let d : Nat := 0
    let r : SwapReq := ⟨0, 100, false, 0, none, 0, [(0, .sent), (1, .sent)], [], false, false, [], false⟩
    (d < dieCount s.part) ∧ (pendingGroup s g = some r) ∧ (alGet d r.jobs = some .sent) := by decide +kernel
theorem witness_SwapReports_2 :
    let s : State := { State.reset with swaps := [⟨0, 100, false, 0, none, 0, [(0, .checking)], [], false, false, [], false⟩] }
    let g : Nat := 0
    let d : Nat := 0
    let r : SwapReq := ⟨0, 100, false, 0, none, 0, [(0, .checking)], [], false, false, [], false⟩
    let t : State := { State.reset with swaps := [⟨0, 100, false, 0, none, 0, [(0, .checking)], [], false, false, [], false⟩] }
    (d < dieCount s.part) ∧ (pendingGroup s g = some r) ∧ (alGet d r.jobs = some .checking) ∧ (checkDie d r s = (t, none)) := by decide +kernel
theorem witness_SwapReports_3 :
    let s : State := setTab (setTab ({ State.reset with swaps := [⟨0, 100, false, 0, none, 0, [(0, .checking)], [], false, false, [], false⟩] }) tSgrp 0 5 1) tCar 0 2048 0x8F000000
    let g : Nat := 0
    let d : Nat := 0
    let r : SwapReq := ⟨0, 100, false, 0, none, 0, [(0, .checking)], [], false, false, [], false⟩
    let t : State := carReject (setTab (setTab ({ State.reset with swaps := [⟨0, 100, false, 0, none, 0, [(0, .checking)], [], false, false, [], false⟩] }) tSgrp 0 5 1) tCar 0 2048 0x8F000000) 0 0 1
    let code : Nat := 2
    let detail : Nat := 1
    let who : Nat := 0x8400
    (d < dieCount s.part) ∧ (pendingGroup s g = some r) ∧ (alGet d r.jobs = some .checking) ∧
    (checkDie d r s = (t, some (code, detail, who))) := by decide +kernel
theorem witness_SwapReports_4 :
    let s : State := setKern State.reset 0 3 { Kern.zero with st := .stopped, rejoin := true }
    let d : Nat := 0
    let n : Nat := 3
    (d < dieCount s.part) ∧ (n < 144) ∧ ((kern s d n).rejoin = true) := by decide +kernel
theorem witness_SwapReports_5 :
    let s : State := { State.reset with swaps := [⟨0, 100, false, 0, none, 0, [(0, .ready)], [], false, false, [], false⟩] }
    let g : Nat := 0
    let d : Nat := 0
    let r : SwapReq := ⟨0, 100, false, 0, none, 0, [(0, .ready)], [], false, false, [], false⟩
    (d < dieCount s.part) ∧ (pendingGroup s g = some r) ∧ (alGet d r.jobs = some .ready) ∧ (r.committed = false) := by decide +kernel
theorem witness_SwapReports_6 :
    let s : State := { State.reset with swaps := [⟨0, 100, false, 0, none, 0, [(0, .refused 3 1 7)], [], false, false, [], false⟩] }
    let g : Nat := 0
    let d : Nat := 0
    let r : SwapReq := ⟨0, 100, false, 0, none, 0, [(0, .refused 3 1 7)], [], false, false, [], false⟩
    let res : Nat := 3
    let detail : Nat := 1
    let who : Nat := 7
    (d < dieCount s.part) ∧ (reportedSwap s g d = some r) ∧ (alGet d r.jobs = some (.refused res detail who)) := by decide +kernel
theorem witness_SwapReports_7 :
    let s : State := { State.reset with swaps := [{ (⟨0, 100, false, 0, none, 0, [(0, .split 1 7)], [], true, false, [], false⟩ : SwapReq) with applied := true }] }
    let g : Nat := 0
    let d : Nat := 0
    let r : SwapReq := { (⟨0, 100, false, 0, none, 0, [(0, .split 1 7)], [], true, false, [], false⟩ : SwapReq) with applied := true }
    let detail : Nat := 1
    let who : Nat := 7
    (d < dieCount s.part) ∧ (reportedSwap s g d = some r) ∧ (alGet d r.jobs = some (.split detail who)) ∧
    (r.origin = none) ∧ (r.split = false) := by decide +kernel
theorem witness_SwapOutcome_1 :
    let s : State := setReg { State.reset with swaps := [⟨0, 100, false, 0, none, 0, [(0, .heard)], [], false, false, [], false⟩], phase := .tick } (Reg.PULSE_COUNT_LO 0) 95
    let g : Nat := 0
    let r : SwapReq := ⟨0, 100, false, 0, none, 0, [(0, .heard)], [], false, false, [], false⟩
    (pendingGroup s g = some r) ∧ (r.committed = false) ∧ (r.origin = none) ∧
    (r.target ≤ pulseCount s + swapLead s r.coord) ∧ (allHeard r = true) ∧ (r.remotes = []) := by decide +kernel
theorem witness_SwapOutcome_2 :
    let s : State := setReg { State.reset with swaps := [⟨0, 100, false, 0, none, 0, [(0, .heard)], [], false, false, [], false⟩], phase := .tick } (Reg.PULSE_COUNT_LO 0) 95
    let g : Nat := 0
    let r : SwapReq := ⟨0, 100, false, 0, none, 0, [(0, .heard)], [], false, false, [], false⟩
    (pendingGroup s g = some r) ∧ (r.committed = false) ∧ (r.origin = none) ∧
    (r.target ≤ pulseCount s + swapLead s r.coord) ∧ (allHeard r = true) := by decide +kernel
theorem witness_SwapOutcome_3 :
    let s : State := setReg { State.reset with swaps := [⟨0, 100, false, 0, none, 0, [(0, .heard), (1, .ready)], [], false, false, [], false⟩], phase := .tick } (Reg.PULSE_COUNT_LO 0) 95
    let g : Nat := 0
    let r : SwapReq := ⟨0, 100, false, 0, none, 0, [(0, .heard), (1, .ready)], [], false, false, [], false⟩
    (pendingGroup s g = some r) ∧ (r.committed = false) ∧ (r.origin = none) ∧
    (r.target ≤ pulseCount s + swapLead s r.coord) ∧ (allHeard r = false) := by decide +kernel
theorem witness_SwapOutcome_4 :
    let s : State := setReg { State.reset with swaps := [⟨0, 100, false, 0, none, 0, [(0, .heard)], [], true, false, [], false⟩], phase := .tick } (Reg.PULSE_COUNT_LO 0) 95
    let g : Nat := 0
    let d : Nat := 0
    let r : SwapReq := ⟨0, 100, false, 0, none, 0, [(0, .heard)], [], true, false, [], false⟩
    (s.wf = true) ∧ (d < dieCount s.part) ∧
    (s.swaps.find? (fun q => decide (q.group = g) && q.committed && !q.applied) = some r) ∧
    (alGet d r.jobs = some .heard) ∧ (pulseCount s < r.target) := by decide +kernel
theorem witness_SwapOutcome_5 :
    let s : State := setReg { State.reset with swaps := [⟨0, 100, false, 0, none, 0, [(0, .armed)], [], true, false, [], false⟩], phase := .tick } (Reg.PULSE_COUNT_LO 0) 100
    let g : Nat := 0
    let r : SwapReq := ⟨0, 100, false, 0, none, 0, [(0, .armed)], [], true, false, [], false⟩
    (s.wf = true) ∧ (metersOwed s = false) ∧ (targetSwap s g = some r) ∧ (r.committed = true) ∧ (r.direct = []) ∧
    (r.split = false) := by decide +kernel
theorem witness_SwapOutcome_6 :
    let s : State := (let s := setTab (setTab (setTab (setReg { State.reset with swaps := [⟨0, 100, false, 0, none, 0, [(0, .armed)], [], true, false, [], false⟩], phase := .tick } (Reg.PULSE_COUNT_LO 0) 100) tSgrp 0 0 8) tSgrp 0 5 0x201) tFade 0 4 0x80030000; let s := setTab s tFade 0 6 0x40000000; setFld (setKern s 0 3 { Kern.zero with st := .run }) (Reg.KERNEL_STEPS 0 3) F.KERNEL_STEPS_SHADOW 9)
    let g : Nat := 0
    let d : Nat := 0
    let r : SwapReq := ⟨0, 100, false, 0, none, 0, [(0, .armed)], [], true, false, [], false⟩
    let armed := (r.jobs.filter fun e => decide (e.2 = .armed)).map (·.1)
    (s.wf = true) ∧ (d < dieCount s.part) ∧ (metersOwed s = false) ∧ (targetSwap s g = some r) ∧ (r.committed = true) ∧
    (r.direct = []) ∧ (r.split = false) ∧ armed.Nodup ∧ d ∈ armed ∧
    (((List.range 8).all fun p => decide ((podX s d p).phase = .idle)) = true) := by decide +kernel
theorem witness_SwapOutcome_7 :
    let s : State := setReg { State.reset with phase := .tick, swaps := [⟨0, 100, false, 0, some 5, 0, [(0, .heard)], [], false, false, [], false⟩] } (Reg.PULSE_COUNT_LO 0) 100
    let g : Nat := 0
    let dev : Nat := 5
    let r : SwapReq := ⟨0, 100, false, 0, some 5, 0, [(0, .heard)], [], false, false, [], false⟩
    (metersOwed s = false) ∧ (targetSwap s g = some r) ∧ (r.committed = false) ∧ (r.origin = some dev) := by decide +kernel
theorem witness_SwapOutcome_8 :
    let s : State := setTab (setTab State.reset tFade 0 4 0x80000000) tFade 0 6 0x80000010
    let d : Nat := 0
    let e : Nat := 1
    (s.wf = true) ∧ (d < dieCount s.part) ∧ (e < 512) ∧ ((fadeWord s d e 2).getLsbD 31 = true) ∧
    (fadeLen (fadeWord s d e 0) ≤ wField (fadeWord s d e 2) 13 0) := by decide +kernel
theorem witness_BridgesAndRepair_1 :
    let s : State := setFld { State.reset with phase := .tick } (Reg.PULSE_STAT 1) F.PULSE_STAT_LOCK 1
    let d : Nat := 0
    let n : Nat := 1
    let e : Nat := 1
    (d < dieCount s.part) ∧ (n < 3) ∧ (neighbour s d n = some e) ∧ (transferDue s d n = true) ∧ (bridgeLock s d n = true) ∧
    (isMet (bridge s e (facing n)).change = false) ∧ (dueSwaps s = []) := by decide +kernel
theorem witness_BridgesAndRepair_2 :
    let s : State := setReg { State.reset with phase := .tick } (Reg.BRIDGE_CTL 0) 2
    let d : Nat := 0
    let n : Nat := 1
    (s.wf = true) ∧ (d < dieCount s.part) ∧ (n < 3) ∧ (transferDue s d n = true) := by decide +kernel
theorem witness_BridgesAndRepair_3 :
    let s : State := setBridge State.reset 0 1 { BridgePort.zero with fails := 1000 }
    let d : Nat := 0
    let n : Nat := 1
    (d < dieCount s.part) ∧ (n < 3) ∧ (holdOver s d n = true) ∧ ((bridge s d n).expired = false) := by decide +kernel
theorem witness_BridgesAndRepair_4 :
    let s : State := State.reset
    let a : Access := ⟨0, 0⟩
    let d : Nat := 0
    let r := Reg.BRIDGE_SWAP d
    reachesReg s a r = true := by decide +kernel
theorem witness_BridgesAndRepair_5 :
    let s : State := setBridge State.reset 0 1 { BridgePort.zero with change := some (5, true) }
    let d : Nat := 0
    let n : Nat := 1
    (s.wf = true) ∧ (d < dieCount s.part) ∧ (n < 3) ∧ (isMet (bridge s d n).change = true) := by decide +kernel
theorem witness_BridgesAndRepair_6 :
    let s : State := setRows State.reset 0 3 ⟨[], [7], [], []⟩
    let d : Nat := 0
    let p : Nat := 3
    let row : Nat := 7
    let rest : List Nat := []
    (s.wf = true) ∧ (d < dieCount s.part) ∧ (p < 9) ∧ ((rowsOf s d p).want = row :: rest) ∧
    (domOn s d (if p = 8 then pdStew else pdPod p) = true) := by decide +kernel
theorem witness_BridgesAndRepair_7 :
    let s : State := State.reset
    let a : Access := ⟨0, 0⟩
    let d : Nat := 0
    let p : Nat := 7
    let unc : Bool := true
    let r := if unc then Reg.POD_ECC_UNC d p else Reg.POD_ECC d p
    (reachesReg s a r = true) ∧ (p < 8) := by decide +kernel
theorem witness_BridgesAndRepair_8 :
    let s : State := State.reset
    let a : Access := ⟨0, 0⟩
    let d : Nat := 0
    let k : Nat := 143
    let r := Reg.KERNEL_ECC d k
    (reachesReg s a r = true) ∧ (k < 144) ∧ (dom s d (pdPod (k / 18))).st ≠ .off := by decide +kernel
theorem witness_BridgesAndRepair_9 :
    let s : State := setReg State.reset (Reg.BRIDGE_TPULSE 0) 77
    let a : Access := ⟨0, 0⟩
    let d : Nat := 0
    let n : Nat := 1
    let ports : Nat := 2
    (s.wf = true) ∧ (reachesReg s a (Reg.BRIDGE_SWAP d) = true) ∧ (n < 3) ∧ (ports < 8) ∧ ((neighbour s d n).isSome = true) := by decide +kernel
theorem witness_CaravanBlocks_1 :
    let s : State := setTab (setTab (setTab (setTab (setFld { (setFld (setFld State.reset (Reg.DDR_CTL 0) F.DDR_CTL_EN 1) (Reg.DDR_STAT 0) F.DDR_STAT_READY 1) with phase := .tick } (Reg.CARAVAN_CTL 0 0) F.CARAVAN_CTL_EN 1) tCar 0 0 0x80000000) tCar 0 2 32) tCar 0 4 64) tCar 0 5 0x80000000
    let d : Nat := 0
    let p : Nat := 0
    let e : Nat := 0
    let c : CarEntry := ⟨false, false, 0, 0, 0, 16, 0, 32, 0, 64⟩
    (hasPod s d p = true) ∧ (e < 256) ∧ (carDue s d p e false = some c) := by decide +kernel
theorem witness_CaravanBlocks_2 :
    let s : State := setCaravan (setFld (setFld State.reset (Reg.DDR_CTL 0) F.DDR_CTL_EN 1) (Reg.DDR_STAT 0) F.DDR_STAT_READY 1) 0 0 { Caravan.zero with flight := [⟨1, false, 1, 9, 4, 64, 16, [5], 0⟩] }
    let d : Nat := 0
    let p : Nat := 0
    let e : Nat := 1
    let f : Flight := ⟨1, false, 1, 9, 4, 64, 16, [5], 0⟩
    (s.wf = true) ∧ (hasPod s d p = true) ∧ (e < 256) ∧ (fetchFlight s d p e = some f) ∧ (inTime s f = true) ∧
    (ddrServes s d = true) ∧ (domLive s d (pdPod p) = true) ∧ (f.hptr + f.words ≤ 0x40000) := by decide +kernel
theorem witness_CaravanBlocks_3 :
    let s : State := setCaravan (setFld (setFld State.reset (Reg.DDR_CTL 0) F.DDR_CTL_EN 1) (Reg.DDR_STAT 0) F.DDR_STAT_READY 1) 0 0 { Caravan.zero with flight := [⟨1, false, 1, 1, 4, 64, 16, [5], 0⟩] }
    let d : Nat := 0
    let p : Nat := 0
    let e : Nat := 1
    let f : Flight := ⟨1, false, 1, 1, 4, 64, 16, [5], 0⟩
    (s.wf = true) ∧ (hasPod s d p = true) ∧ (e < 256) ∧ (fetchFlight s d p e = some f) ∧ (f.due ≤ pulseCount s + 1) := by decide +kernel
theorem witness_CaravanBlocks_4 :
    let s : State := setTab (setTab (setTab (setTab (setFld { (setFld (setFld State.reset (Reg.DDR_CTL 0) F.DDR_CTL_EN 1) (Reg.DDR_STAT 0) F.DDR_STAT_READY 1) with phase := .tick } (Reg.CARAVAN_CTL 0 0) F.CARAVAN_CTL_EN 1) tCar 0 0 0xC0000000) tCar 0 2 32) tCar 0 4 64) tCar 0 5 0x80000000
    let d : Nat := 0
    let p : Nat := 0
    let e : Nat := 0
    let c : CarEntry := ⟨true, false, 0, 0, 0, 16, 0, 32, 0, 64⟩
    (hasPod s d p = true) ∧ (e < 256) ∧ (carDue s d p e true = some c) ∧
    (carParked s d p = true ∨ stagedBytes s d p + 4 * c.words ≤ 32768) := by decide +kernel
theorem witness_CaravanBlocks_5 :
    let s : State := setCaravan (setTab (setTab (setTab (setTab (setFld { (setFld (setFld State.reset (Reg.DDR_CTL 0) F.DDR_CTL_EN 1) (Reg.DDR_STAT 0) F.DDR_STAT_READY 1) with phase := .tick } (Reg.CARAVAN_CTL 0 0) F.CARAVAN_CTL_EN 1) tCar 0 0 0xC0000000) tCar 0 2 32) tCar 0 4 64) tCar 0 5 0x80000000) 0 0 { Caravan.zero with flight := [⟨1, true, 1, 2, 0, 0, 8190, [], 0⟩] }
    let d : Nat := 0
    let p : Nat := 0
    let e : Nat := 0
    let c : CarEntry := ⟨true, false, 0, 0, 0, 16, 0, 32, 0, 64⟩
    (hasPod s d p = true) ∧ (e < 256) ∧ (carDue s d p e true = some c) ∧ (carParked s d p = false) ∧
    (32768 < stagedBytes s d p + 4 * c.words) := by decide +kernel
theorem witness_CaravanBlocks_6 :
    let s : State := setCaravan (setFld (setFld State.reset (Reg.DDR_CTL 0) F.DDR_CTL_EN 1) (Reg.DDR_STAT 0) F.DDR_STAT_READY 1) 0 0 { Caravan.zero with flight := [⟨1, true, 1, 9, 4, 64, 16, [5], 0⟩] }
    let d : Nat := 0
    let p : Nat := 0
    let e : Nat := 1
    let f : Flight := ⟨1, true, 1, 9, 4, 64, 16, [5], 0⟩
    (s.wf = true) ∧ (hasPod s d p = true) ∧ (e < 256) ∧
    ((caravan s d p).flight.find? (fun x => x.store && decide (x.entry = e)) = some f) ∧ (ddrServes s d = true) ∧
    ((ddr s d).window = false) ∧ (storeWaits s d f = false) := by decide +kernel
theorem witness_CaravanTables_1 :
    let s : State := State.reset
    let a : Access := ⟨0, 0⟩
    let d : Nat := 0
    let p : Nat := 7
    let r := Reg.CARAVAN_SWAP d p
    (reachesReg s a r = true) ∧ (p < 8) := by decide +kernel
theorem witness_CaravanTables_2 :
    let s : State := setCaravan State.reset 0 7 { Caravan.zero with change := some (5, false) }
    let d : Nat := 0
    let p : Nat := 7
    (hasPod s d p = true) ∧ ((caravan s d p).change.isSome = true) ∧ ((caravan s d p).passed = false) := by decide +kernel
theorem witness_CaravanTables_3 :
    let s : State := setCaravan State.reset 0 7 { Caravan.zero with change := some (5, true), passed := true }
    let d : Nat := 0
    let p : Nat := 7
    (s.wf = true) ∧ (hasPod s d p = true) ∧ (isMet (caravan s d p).change = true) ∧ ((caravan s d p).passed = true) := by decide +kernel
theorem witness_CaravanTables_4 :
    let s : State := setFld (setFld State.reset (Reg.DDR_CTL 0) F.DDR_CTL_EN 1) (Reg.DDR_STAT 0) F.DDR_STAT_READY 1
    let a : Access := ⟨0, 0⟩
    let d : Nat := 0
    let p : Nat := 7
    let v : Word := 0x00400040
    let r := Reg.CARAVAN_SHARE d p
    let f := wGet v F.CARAVAN_SHARE_FETCH
    let g := wGet v F.CARAVAN_SHARE_STORE
    (reachesReg s a r = true) ∧ (p < 8) ∧ (f ≤ (if rateCode s ≤ 3 then 32768 else 16384)) ∧ (g ≤ 16384) ∧
    (shareSum s d - fetchShare s d p - storeShare s d p + f + g ≤ ddrBudget s d) := by decide +kernel
theorem witness_CaravanTables_5 :
    let s : State := State.reset
    let a : Access := ⟨0, 0⟩
    let d : Nat := 0
    let p : Nat := 7
    let v : Word := 0x00400040
    let r := Reg.CARAVAN_SHARE d p
    let f := wGet v F.CARAVAN_SHARE_FETCH
    let g := wGet v F.CARAVAN_SHARE_STORE
    (reachesReg s a r = true) ∧ (p < 8) ∧
    ((if rateCode s ≤ 3 then 32768 else 16384) < f ∨ 16384 < g ∨ ddrBudget s d < shareSum s d - fetchShare s d p - storeShare s d p + f + g) := by decide +kernel
theorem witness_CaravanTables_6 :
    let s : State := setReg State.reset (Reg.CARAVAN_TPULSE 0 7) 77
    let a : Access := ⟨0, 0⟩
    let d : Nat := 0
    let p : Nat := 7
    (s.wf = true) ∧ (reachesReg s a (Reg.CARAVAN_SWAP d p) = true) ∧ (p < 8) := by decide +kernel
theorem witness_Lpddr_1 :
    let s : State := State.reset
    let a : Access := ⟨0, 0⟩
    let d : Nat := 0
    let r := Reg.DDR_CTL d
    (reachesReg s a r = true) ∧ (bitF s r F.DDR_CTL_EN = false) ∧
    (fld s (Reg.DDR_CFG d) F.DDR_CFG_RANKS = 0 ∨ fld s (Reg.DDR_CFG d) F.DDR_CFG_DENS < 3 ∨ 4 < fld s (Reg.DDR_CFG d) F.DDR_CFG_DENS) := by decide +kernel
theorem witness_Lpddr_2 :
    let s : State := setFld (setFld State.reset (Reg.DDR_CFG 0) F.DDR_CFG_RANKS 1) (Reg.DDR_CFG 0) F.DDR_CFG_DENS 4
    let a : Access := ⟨0, 0⟩
    let d : Nat := 0
    let r := Reg.DDR_CTL d
    (reachesReg s a r = true) ∧ (bitF s r F.DDR_CTL_EN = false) ∧ (fld s (Reg.DDR_CFG d) F.DDR_CFG_RANKS = 1) ∧
    (fld s (Reg.DDR_CFG d) F.DDR_CFG_DENS = 3 ∨ fld s (Reg.DDR_CFG d) F.DDR_CFG_DENS = 4) := by decide +kernel
theorem witness_Lpddr_3 :
    let s : State := State.reset
    let a : Access := ⟨0, 0⟩
    let d : Nat := 0
    let r := Reg.DDR_CTL d
    reachesReg s a r = true := by decide +kernel
theorem witness_Lpddr_4 :
    let s : State := setFld (setFld State.reset (Reg.DDR_CTL 0) F.DDR_CTL_EN 1) (Reg.DDR_STAT 0) F.DDR_STAT_READY 1
    let a : Access := ⟨0, 0⟩
    let d : Nat := 0
    let r := Reg.DDR_CTL d
    (reachesReg s a r = true) ∧ (bitF s r F.DDR_CTL_EN = true) := by decide +kernel
theorem witness_Lpddr_5 :
    let s : State := State.reset
    let a : Access := ⟨0, 0⟩
    let d : Nat := 0
    let r := Reg.DDR_CTL d
    (reachesReg s a r = true) ∧ (bitF s r F.DDR_CTL_EN = false) := by decide +kernel
theorem witness_Lpddr_6 :
    let s : State := setFld State.reset (Reg.DDR_STAT 0) F.DDR_STAT_TRAINING 1
    let d : Nat := 0
    (d < dieCount s.part) ∧ (bitF s (Reg.DDR_STAT d) F.DDR_STAT_TRAINING = true) ∧ (domLive s d pdDdr = true) ∧
    (padHeld s d pdDdr = false) := by decide +kernel
theorem witness_Lpddr_7 :
    let s : State := State.reset
    let a : Access := ⟨0, 0⟩
    let d : Nat := 0
    let r := Reg.DDR_CFG d
    reachesReg s a r = true := by decide +kernel
theorem witness_Lpddr_8 :
    let s : State := setFld (setFld State.reset (Reg.DDR_CTL 0) F.DDR_CTL_EN 1) (Reg.DDR_STAT 0) F.DDR_STAT_READY 1
    let d : Nat := 0
    (d < dieCount s.part) ∧ (ddrRuns s d = true) := by decide +kernel
theorem witness_Lpddr_9 :
    let s : State := setDdr (setFld (setFld State.reset (Reg.DDR_CTL 0) F.DDR_CTL_EN 1) (Reg.DDR_STAT 0) F.DDR_STAT_READY 1) 0 { Ddr.zero with debt := 1 }
    let d : Nat := 0
    let x := ddr s d
    (d < dieCount s.part) ∧ (ddrRuns s d = true) ∧ (x.window = false) ∧ (0 < x.debt) := by decide +kernel
theorem witness_Lpddr_10 :
    let s : State := setFld { (setFld (setFld State.reset (Reg.DDR_CTL 0) F.DDR_CTL_EN 1) (Reg.DDR_STAT 0) F.DDR_STAT_READY 1) with phase := .tick } (Reg.DDR_CRIT 0) F.DDR_CRIT_LEN 5
    let d : Nat := 0
    let x := ddr s d
    (d < dieCount s.part) ∧ (ddrRuns s d = true) ∧ (pulseRuns s = true) ∧ (x.opened = false) ∧
    fld s (Reg.DDR_CRIT d) F.DDR_CRIT_LEN ≠ 0 := by decide +kernel
theorem witness_Lpddr_11 :
    let s : State := setDdr State.reset 0 { Ddr.zero with window := true }
    let d : Nat := 0
    let x := ddr s d
    (s.wf = true) ∧ (d < dieCount s.part) ∧ (x.window = true) := by decide +kernel
theorem witness_Lpddr_12 :
    let s : State := setFld (setFld State.reset (Reg.DDR_CTL 0) F.DDR_CTL_EN 1) (Reg.DDR_STAT 0) F.DDR_STAT_READY 1
    let d : Nat := 0
    let x := ddr s d
    (d < dieCount s.part) ∧ (ddrRuns s d = true) ∧ (x.window = false) := by decide +kernel
theorem witness_Lpddr_13 :
    let s : State := setFld (setFld State.reset (Reg.DDR_CTL 0) F.DDR_CTL_EN 1) (Reg.DDR_STAT 0) F.DDR_STAT_READY 1
    let d : Nat := 0
    let x := ddr s d
    (d < dieCount s.part) ∧ (ddrRuns s d = true) ∧ (x.window = false) := by decide +kernel
theorem witness_Lpddr_14 :
    let s : State := setDdr (setFld (setFld State.reset (Reg.DDR_CTL 0) F.DDR_CTL_EN 1) (Reg.DDR_STAT 0) F.DDR_STAT_READY 1) 0 { Ddr.zero with idle := 40000 }
    let d : Nat := 0
    let x := ddr s d
    let n := fld s (Reg.DDR_CFG d) F.DDR_CFG_PDIDLE
    (d < dieCount s.part) ∧ (ddrRuns s d = true) ∧ (x.window = false) ∧ (x.down = false) ∧ n ≠ 15 ∧ (2 ^ n ≤ x.idle) := by decide +kernel
theorem witness_MemoryAccess_1 :
    let s : State := State.reset
    let a : Access := ⟨0, 0⟩
    let d : Nat := 0
    let loc : Nat := 0x3FFFF8
    let width : Nat := 8
    (reachesAt s a d loc true = true) ∧ (domOn s d pdStew = true) ∧ (loc + width ≤ 0x40_0000) ∧ (widthOk loc width = true) := by decide +kernel
theorem witness_MemoryAccess_2 :
    let s : State := State.reset
    let a : Access := ⟨0, 0⟩
    let d : Nat := 0
    let loc : Nat := 0x3FFFF8
    let width : Nat := 8
    (reachesAt s a d loc false = true) ∧ (domOn s d pdStew = true) ∧ (loc + width ≤ 0x40_0000) ∧
    (wmReadOk loc width = true) ∧ (((List.range 2).all fun i => eccAt s (pkgA d ((loc / 8 + i) * 8)) = .clean) = true) := by decide +kernel
theorem witness_MemoryAccess_3 :
    let s : State := setEcc State.reset 0x3FFFF8 .double
    let a : Access := ⟨0, 0⟩
    let d : Nat := 0
    let loc : Nat := 0x3FFFFC
    let width : Nat := 4
    (reachesAt s a d loc false = true) ∧ (domOn s d pdStew = true) ∧ (loc + width ≤ 0x40_0000) ∧
    (widthOk loc width = true) ∧ (eccAt s (pkgA d (loc / 8 * 8)) = .double) := by decide +kernel
theorem witness_MemoryAccess_4 :
    let s : State := State.reset
    let a : Access := ⟨0, 0⟩
    let d : Nat := 0
    let p : Nat := 7
    let w : Nat := 0x3FFFF
    (reachesAt s a d (0x2000_0000 + p * 0x10_0000 + 4 * w) true = true) ∧ (p < 8) ∧ (w < 0x40000) ∧
    (domOn s d (pdPod p) = true) := by decide +kernel
theorem witness_MemoryAccess_5 :
    let s : State := State.reset
    let a : Access := ⟨0, 0⟩
    let d : Nat := 0
    let k : Nat := 143
    let off : Nat := 0x7FFC
    let bankB : Bool := true
    (reachesAt s a d (progA 0 k bankB 0 + off) true = true) ∧ (k < 144) ∧ (off < 0x8000) ∧ (off % 4 = 0) ∧
    (domOn s d (pdPod (k / 18)) = true) ∧ (sparesOf s d k = []) ∧ (copiesOf s d k = []) ∧
    (winOpen (kern s d k) ((if bankB then 0x8000 else 0) + off) = true) := by decide +kernel
theorem witness_MemoryAccess_6 :
    let s : State := setKern State.reset 0 143 { Kern.zero with st := .parked }
    let a : Access := ⟨0, 0⟩
    let d : Nat := 0
    let k : Nat := 143
    let off : Nat := 0x7FF8
    let width : Nat := 8
    let bankB : Bool := false
    (reachesAt s a d (progA 0 k bankB 0 + off) true = true) ∧ (k < 144) ∧ (off < 0x8000) ∧ (width = 4 ∨ width = 8) ∧
    (off % width = 0) ∧ (domOn s d (pdPod (k / 18)) = true) ∧ (bankB = (kern s d k).pbank) ∧
    ((kern s d k).st = .run ∨ (kern s d k).st = .shadow ∨ (kern s d k).st = .standby ∨ (kern s d k).st = .parked) := by decide +kernel
theorem witness_MemoryAccess_7 :
    let s : State := State.reset
    let a : Access := ⟨0, 0⟩
    let d : Nat := 0
    let k : Nat := 143
    let off : Nat := 0x23C
    (reachesAt s a d (0x3000_0000 + k * 0x4_0000 + 0x1_E000 + off) true = true) ∧ (k < 144) ∧ (off < 0x240) ∧
    (off % 4 = 0) ∧ (domOn s d (pdPod (k / 18)) = true) ∧ (imageOpen (kern s d k).st = true) := by decide +kernel
theorem witness_MemoryAccess_8 :
    let s : State := setKern State.reset 0 143 { Kern.zero with st := .test }
    let a : Access := ⟨0, 0⟩
    let d : Nat := 0
    let k : Nat := 143
    let off : Nat := 0x238
    let width : Nat := 8
    (reachesAt s a d (0x3000_0000 + k * 0x4_0000 + 0x1_E000 + off) true = true) ∧ (k < 144) ∧ (off < 0x240) ∧
    (width = 4 ∨ width = 8) ∧ (off % width = 0) ∧ (off + width ≤ 0x240) ∧ (domOn s d (pdPod (k / 18)) = true) ∧
    (imageOpen (kern s d k).st = false) := by decide +kernel
theorem witness_BusErrors_1 :
    let s : State := setReg (setFld State.reset (Reg.BOOT_STAT 0) F.BOOT_STAT_PRIV 0) (Reg.FW_CTL 1) 1
    let a : Access := ⟨0, 0⟩
    let addr : Nat := 0x1040001000
    let d := addrDie addr
    (accessOk s a = true) ∧ (running s = true) ∧ (domOn s a.odie pdStew = true) ∧ (masterActs s a = true) ∧
    (canReach s a d = true) ∧ (masterReaches a (addrLocal addr) = true) ∧ (fwAllows s d a (addrLocal addr) true = false) := by decide +kernel
theorem witness_BusErrors_2 :
    let s : State := State.reset
    let a : Access := ⟨0, 0⟩
    let d : Nat := 0
    let loc : Nat := 0x400000
    let width : Nat := 4
    (reachesAt s a d loc true = true) ∧ (loc < 0x10_0000_0000) ∧ (target s d loc width = .default_) := by decide +kernel
theorem witness_BusErrors_3 :
    let s : State := State.reset
    let a : Access := ⟨0, 0⟩
    let d : Nat := 0
    let loc : Nat := 0x400000
    let width : Nat := 4
    (reachesAt s a d loc false = true) ∧ (loc < 0x10_0000_0000) ∧ (target s d loc width = .default_) := by decide +kernel
theorem witness_BusErrors_4 :
    let s : State := State.reset
    let a : Access := ⟨0, 0⟩
    let d : Nat := 0
    let loc : Nat := 0x3FFFF9
    let width : Nat := 4
    (reachesAt s a d loc true = true) ∧ (domOn s d pdStew = true) ∧ (loc + width ≤ 0x40_0000) ∧ (widthOk loc width = false) := by decide +kernel
theorem witness_BusErrors_5 :
    let s : State := State.reset
    let a : Access := ⟨0, 0⟩
    let addr : Nat := 0x8000000000
    (accessOk s a = true) ∧ (running s = true) ∧ (domOn s a.odie pdStew = true) ∧ (masterActs s a = true) ∧
    (canReach s a (addrDie addr) = false ∨ masterReaches a (addrLocal addr) = false) := by decide +kernel
theorem witness_BusErrors_6 :
    let s : State := { State.reset with fuses := { State.reset.fuses with lock := true } }
    let a : Access := ⟨9, 0⟩
    (accessOk s a = true) ∧ (running s = true) ∧ (domOn s a.odie pdStew = true) ∧ (masterActs s a = false) := by decide +kernel
theorem witness_BusErrors_7 :
    let s : State := State.reset
    let d : Nat := 0
    let kind : Nat := 2
    let a : Access := ⟨0, 0⟩
    (s.wf = true) ∧ (bitF s (Reg.BUS_ERR_HI d) F.BUS_ERR_HI_VALID = false) ∧ (a.master < 32) ∧ (a.odie < 8) ∧ (kind < 4) := by decide +kernel
theorem witness_CounterReads_1 :
    let s : State := State.reset
    let a : Access := ⟨0, 0⟩
    let d : Nat := 0
    readsReg s a (Reg.PULSE_COUNT_LO d) = true := by decide +kernel
theorem witness_CounterReads_2 :
    let s : State := State.reset
    let a : Access := ⟨0, 0⟩
    let d : Nat := 0
    readsReg s a (Reg.PULSE_COUNT_HI d) = true := by decide +kernel
theorem witness_KernelControlAndBanks_1 :
    let s : State := setKern State.reset 0 143 { Kern.zero with st := .parked }
    let a : Access := ⟨0, 0⟩
    let d : Nat := 0
    let k : Nat := 143
    let v : Word := 1
    let r := Reg.KERNEL_BANKMODE d k
    let kn := kern s d k
    let same := fun b : Bool => (reg s r).getLsbD b.toNat == v.getLsbD b.toNat
    (reachesReg s a r = true) ∧ (k < 144) ∧ (dom s d (pdPod (k / 18))).st ≠ .off ∧
    (kn.st = .run ∨ kn.st = .shadow ∨ kn.st = .standby ∨ kn.st = .parked) ∧ (same kn.pbank = false) := by decide +kernel
theorem witness_KernelControlAndBanks_2 :
    let s : State := setKern State.reset 0 143 { Kern.zero with st := .run }
    let a : Access := ⟨0, 0⟩
    let d : Nat := 0
    let k : Nat := 143
    let v : Word := 2
    let r := Reg.KERNEL_BANKMODE d k
    let kn := kern s d k
    let same := fun b : Bool => (reg s r).getLsbD b.toNat == v.getLsbD b.toNat
    (reachesReg s a r = true) ∧ (k < 144) ∧ (dom s d (pdPod (k / 18))).st ≠ .off ∧
    (¬(kn.st = .run ∨ kn.st = .shadow ∨ kn.st = .standby ∨ kn.st = .parked) ∨ same kn.pbank = true) := by decide +kernel
theorem witness_KernelControlAndBanks_3 :
    let s : State := setKern State.reset 0 143 { Kern.zero with st := .run }
    let a : Access := ⟨0, 0⟩
    let d : Nat := 0
    let p : Nat := 7
    let i : Nat := 17
    let v : Word := 1
    let r := Reg.POD_HOWN d p i
    let kn := kern s d (p * 18 + i)
    let part := fun (w : Word) (b : Bool) => if b then wField w 31 16 else wField w 15 0
    (reachesReg s a r = true) ∧ (p < 8) ∧ (i < 18) ∧ (kn.st = .run ∨ kn.st = .shadow ∨ kn.st = .standby) ∧
    part (reg s r) kn.pbank ≠ part v kn.pbank := by decide +kernel
theorem witness_KernelControlAndBanks_4 :
    let s : State := setKern State.reset 0 143 { Kern.zero with st := .run }
    let a : Access := ⟨0, 0⟩
    let d : Nat := 0
    let p : Nat := 7
    let i : Nat := 17
    let v : Word := 0x10000
    let r := Reg.POD_HOWN d p i
    let kn := kern s d (p * 18 + i)
    let part := fun (w : Word) (b : Bool) => if b then wField w 31 16 else wField w 15 0
    (reachesReg s a r = true) ∧ (p < 8) ∧ (i < 18) ∧
    (¬(kn.st = .run ∨ kn.st = .shadow ∨ kn.st = .standby) ∨ part (reg s r) kn.pbank = part v kn.pbank) := by decide +kernel
theorem witness_KernelControlAndBanks_5 :
    let s : State := setKern State.reset 0 143 { Kern.zero with st := .run }
    let a : Access := ⟨0, 0⟩
    let d : Nat := 0
    let k : Nat := 143
    let r := Reg.KERNEL_CTL d k
    let kn := kern s d k
    (reachesReg s a r = true) ∧ (k < 144) ∧ (dom s d (pdPod (k / 18))).st ≠ .off ∧ (kn.stop = false) ∧
    (kn.st = .run ∨ kn.st = .held) := by decide +kernel
theorem witness_KernelControlAndBanks_6 :
    let s : State := setKern State.reset 0 143 { Kern.zero with st := .parked }
    let a : Access := ⟨0, 0⟩
    let d : Nat := 0
    let k : Nat := 143
    let r := Reg.KERNEL_CTL d k
    let kn := kern s d k
    (reachesReg s a r = true) ∧ (k < 144) ∧ (dom s d (pdPod (k / 18))).st ≠ .off ∧
    (kn.stop = true ∨ ¬(kn.st = .run ∨ kn.st = .held)) := by decide +kernel
theorem witness_KernelControlAndBanks_7 :
    let s : State := setKern State.reset 0 143 { Kern.zero with st := .run, stop := true }
    let a : Access := ⟨0, 0⟩
    let d : Nat := 0
    let k : Nat := 143
    let r := Reg.KERNEL_CTL d k
    let kn := kern s d k
    (reachesReg s a r = true) ∧ (k < 144) ∧ (dom s d (pdPod (k / 18))).st ≠ .off ∧ (kn.stop = true) := by decide +kernel
theorem witness_KernelControlAndBanks_8 :
    let s : State := setKern State.reset 0 143 { Kern.zero with st := .run }
    let a : Access := ⟨0, 0⟩
    let d : Nat := 0
    let k : Nat := 143
    let r := Reg.KERNEL_CTL d k
    let kn := kern s d k
    (reachesReg s a r = true) ∧ (k < 144) ∧ (dom s d (pdPod (k / 18))).st ≠ .off ∧ (ctlStop kn = false) := by decide +kernel
theorem witness_KernelControlAndBanks_9 :
    let s : State := setKern State.reset 0 143 { Kern.zero with st := .stopped }
    let a : Access := ⟨0, 0⟩
    let d : Nat := 0
    let k : Nat := 143
    let r := Reg.KERNEL_CTL d k
    let kn := kern s d k
    (reachesReg s a r = true) ∧ (k < 144) ∧ (dom s d (pdPod (k / 18))).st ≠ .off ∧ (kn.stop = false) ∧ (kn.st = .stopped) := by decide +kernel
theorem witness_KernelControlAndBanks_10 :
    let s : State := setKern State.reset 0 143 { Kern.zero with st := .test }
    let a : Access := ⟨0, 0⟩
    let d : Nat := 0
    let k : Nat := 143
    let r := Reg.KERNEL_CTL d k
    let kn := kern s d k
    (reachesReg s a r = true) ∧ (k < 144) ∧ (dom s d (pdPod (k / 18))).st ≠ .off ∧ (kn.stop = false) ∧ (kn.st = .test) := by decide +kernel
theorem witness_KernelControlAndBanks_11 :
    let s : State := setKern State.reset 0 143 { Kern.zero with st := .stopped }
    let a : Access := ⟨0, 0⟩
    let d : Nat := 0
    let k : Nat := 143
    let r := Reg.KERNEL_CTL d k
    let kn := kern s d k
    (reachesReg s a r = true) ∧ (k < 144) ∧ (dom s d (pdPod (k / 18))).st ≠ .off ∧ (kn.st = .stopped) := by decide +kernel
theorem witness_KernelControlAndBanks_12 :
    let s : State := setKern State.reset 0 143 { Kern.zero with st := .run }
    let a : Access := ⟨0, 0⟩
    let d : Nat := 0
    let k : Nat := 143
    let r := Reg.KERNEL_CTL d k
    let kn := kern s d k
    (reachesReg s a r = true) ∧ (k < 144) ∧ (dom s d (pdPod (k / 18))).st ≠ .off ∧ kn.st ≠ .stopped := by decide +kernel
theorem witness_KernelControlAndBanks_13 :
    let s : State := setKern State.reset 0 143 { Kern.zero with st := .test }
    let a : Access := ⟨0, 0⟩
    let d : Nat := 0
    let k : Nat := 143
    let r := Reg.KERNEL_CTL d k
    (reachesReg s a r = true) ∧ (k < 144) ∧ (dom s d (pdPod (k / 18))).st ≠ .off := by decide +kernel
theorem witness_KernelControlAndBanks_14 :
    let s : State := setDom State.reset 0 6 { DomX.zero with st := .off }
    let a : Access := ⟨0, 0⟩
    let d : Nat := 0
    let k : Nat := 143
    let i : Instr := .kernelTestExit ⟨0, 0⟩ 0 143
    (reachesReg s a (Reg.KERNEL_CTL d k) = true) ∧ (k < 144) ∧ ((dom s d (pdPod (k / 18))).st = .off) ∧
    i ∈ [.kernelStopRequest a d k, .kernelStopCancel a d k, .kernelRejoin a d k, .kernelTestEnter a d k, .kernelTestExit a d k] := by decide +kernel
theorem witness_KernelControlAndBanks_15 :
    let s : State := setDom State.reset 0 6 { DomX.zero with st := .off }
    let a : Access := ⟨0, 0⟩
    let d : Nat := 0
    let k : Nat := 143
    let r := Reg.KERNEL_BANKMODE d k
    (reachesReg s a r = true) ∧ (k < 144) ∧ ((dom s d (pdPod (k / 18))).st = .off) := by decide +kernel
theorem witness_KernelStates_1 :
    let s : State := State.reset
    let a : Access := ⟨0, 0⟩
    let d : Nat := 0
    let k : Nat := 143
    (readsReg s a (Reg.KERNEL_STAT d k) = true) ∧ (k < 144) ∧ (dom s d (pdPod (k / 18))).st ≠ .off := by decide +kernel
theorem witness_KernelStates_2 :
    let s : State := setDom State.reset 0 6 { DomX.zero with st := .off }
    let a : Access := ⟨0, 0⟩
    let d : Nat := 0
    let k : Nat := 143
    (readsReg s a (Reg.KERNEL_STAT d k) = true) ∧ (k < 144) ∧ ((dom s d (pdPod (k / 18))).st = .off) := by decide +kernel
theorem witness_KernelStates_4 :
    let s : State := State.reset
    let t : State := W.after .resetNAssert State.reset
    let u : State := W.after (.resetRelease false true) (W.after .resetNAssert State.reset)
    let recov : Bool := false
    let ok : Bool := true
    (s.keep.seq = .run) ∧ (exec .resetNAssert s = .next t) ∧ (exec (.resetRelease recov ok) t = .next u) := ⟨by decide +kernel, rfl, rfl⟩
theorem witness_BusRegisters_1 :
    let s : State := State.reset
    let a : Access := ⟨0, 0⟩
    let d : Nat := 0
    let w : Nat := 7
    let r := Reg.BUS_WIN d w
    (reachesReg s a r = true) ∧ (w < 8) := by decide +kernel
theorem witness_BusRegisters_2 :
    let s : State := State.reset
    let a : Access := ⟨0, 0⟩
    let d : Nat := 0
    let r := Reg.BUS_SLICE d
    reachesReg s a r = true := by decide +kernel
theorem witness_BusRegisters_3 :
    let s : State := setFld State.reset (Reg.BUS_STAT 0) F.BUS_STAT_SLICEPEND 1
    let d : Nat := 0
    (d < dieCount s.part) ∧ (bitF s (Reg.BUS_STAT d) F.BUS_STAT_SLICEPEND = true) := by decide +kernel
theorem witness_BusRegisters_4 :
    let s : State := State.reset
    let a : Access := ⟨0, 0⟩
    let d : Nat := 0
    let r := Reg.BUS_CTL d
    (reachesReg s a r = true) ∧ (bootPriv s a = true) := by decide +kernel
theorem witness_BusRegisters_5 :
    let s : State := State.reset
    let a : Access := ⟨0, 0⟩
    let d : Nat := 0
    let r := Reg.BUS_CTL d
    (reachesReg s a r = true) ∧ (bootPriv s a = true) := by decide +kernel
theorem witness_BusRegisters_6 :
    let s : State := State.reset
    let a : Access := ⟨1, 0⟩
    let d : Nat := 0
    let r := Reg.BUS_CTL d
    (reachesReg s a r = true) ∧ (bootPriv s a = false) := by decide +kernel
theorem witness_BusRegisters_7 :
    let s : State := State.reset
    let a : Access := ⟨0, 0⟩
    let d : Nat := 0
    let r := Reg.FW_CTL d
    (reachesReg s a r = true) ∧ (bootPriv s a = true) ∧ (bitF s r F.FW_CTL_LOCK = false) := by decide +kernel
theorem witness_BusRegisters_8 :
    let s : State := State.reset
    let a : Access := ⟨1, 0⟩
    let d : Nat := 0
    let r := Reg.FW_CTL d
    (reachesReg s a r = true) ∧ (bootPriv s a = false ∨ bitF s r F.FW_CTL_LOCK = true) := by decide +kernel
theorem witness_BusRegisters_9 :
    let s : State := setReg State.reset (Reg.PULSE_STAT 0) 0xC
    let a : Access := ⟨0, 0⟩
    let d : Nat := 0
    let r := Reg.PULSE_STAT d
    reachesReg s a r = true := by decide +kernel
theorem witness_BusRegisters_10 :
    let s : State := State.reset
    let a : Access := ⟨0, 0⟩
    let d : Nat := 0
    reachesReg s a (Reg.PWR_CTL d) = true := by decide +kernel
theorem witness_BusRegisters_11 :
    let s : State := State.reset
    let a : Access := ⟨0, 0⟩
    let d : Nat := 0
    let m : Nat := 511
    let r := Reg.METER_PEAK d m
    (reachesReg s a r = true) ∧ (m < 512) := by decide +kernel
theorem witness_BusRegisters_12 :
    let s : State := State.reset
    let a : Access := ⟨0, 0⟩
    let d : Nat := 0
    let r := Reg.BUS_CTL d
    (reachesReg s a r = true) ∧ (bootPriv s a = true) := by decide +kernel
theorem witness_BusRegisters_13 :
    let s : State := State.reset
    let a : Access := ⟨1, 0⟩
    let d : Nat := 0
    let r := Reg.BUS_CTL d
    (reachesReg s a r = true) ∧ (bootPriv s a = false) := by decide +kernel
theorem witness_BusRegisters_14 :
    let s : State := State.reset
    let a : Access := ⟨0, 0⟩
    let d : Nat := 0
    let n : Nat := 63
    let r := Reg.WADI_TEST d n
    (reachesReg s a r = true) ∧ (n < 64) := by decide +kernel
theorem witness_BusRegisters_15 :
    let s : State := State.reset
    let a : Access := ⟨0, 0⟩
    let d : Nat := 0
    let r := Reg.SYS_ID d
    reachesReg s a r = true := by decide +kernel
theorem witness_Queues_1 :
    let s : State := State.reset
    let a : Access := ⟨0, 0⟩
    let d : Nat := 0
    let q : Nat := 47
    let i : Nat := 55
    let r := Reg.QUEUE_DATA d q i
    (reachesReg s a r = true) ∧ (q < 48) ∧ (1 ≤ i) ∧ (i < 56) := by decide +kernel
theorem witness_Queues_2 :
    let s : State := State.reset
    let a : Access := ⟨0, 0⟩
    let d : Nat := 0
    let q : Nat := 47
    let r := Reg.QUEUE_DATA d q 0
    (reachesReg s a r = true) ∧ (q < 48) := by decide +kernel
theorem witness_Queues_3 :
    let s : State := State.reset
    let a : Access := ⟨0, 0⟩
    let d : Nat := 0
    let q : Nat := 47
    (readsReg s a (Reg.QUEUE_DATA d q 0) = true) ∧ (q < 48) ∧ (queueBroken s d q = false) := by decide +kernel
theorem witness_Queues_4 :
    let s : State := setEcc (setFld (setFld (setFld (setFld (State.reset) (Reg.QUEUE_CFG 0 5) F.QUEUE_CFG_EN 1) (Reg.QUEUE_CFG 0 5) F.QUEUE_CFG_DEPTH 4) (Reg.QUEUE_CFG 0 5) F.QUEUE_CFG_EWORDS 2) (Reg.QUEUE_STAT 0 5) F.QUEUE_STAT_COUNT 2) 0 .double
    let a : Access := ⟨0, 0⟩
    let d : Nat := 0
    let q : Nat := 5
    (readsReg s a (Reg.QUEUE_DATA d q 0) = true) ∧ (q < 48) ∧ (queueBroken s d q = true) ∧ (0 < queueWords s d q) := by decide +kernel
theorem witness_Queues_5 :
    let s : State := setFld (setFld (setFld (State.reset) (Reg.QUEUE_CFG 0 5) F.QUEUE_CFG_EN 1) (Reg.QUEUE_CFG 0 5) F.QUEUE_CFG_DEPTH 4) (Reg.QUEUE_CFG 0 5) F.QUEUE_CFG_EWORDS 2
    let a : Access := ⟨0, 0⟩
    let d : Nat := 0
    let q : Nat := 5
    let v : Word := 0
    let r := Reg.QUEUE_CFG d q
    (reachesReg s a r = true) ∧ (q < 48) ∧ (bitF s r F.QUEUE_CFG_EN = true) ∧ (v.getLsbD 31 = false) := by decide +kernel
theorem witness_Queues_6 :
    let s : State := setFld (setFld (setFld (State.reset) (Reg.QUEUE_CFG 0 5) F.QUEUE_CFG_EN 1) (Reg.QUEUE_CFG 0 5) F.QUEUE_CFG_DEPTH 4) (Reg.QUEUE_CFG 0 5) F.QUEUE_CFG_EWORDS 2
    let a : Access := ⟨0, 0⟩
    let d : Nat := 0
    let q : Nat := 5
    let v : Word := 0x80000000
    let r := Reg.QUEUE_CFG d q
    (reachesReg s a r = true) ∧ (q < 48) ∧ (bitF s r F.QUEUE_CFG_EN = true) ∧ (v.getLsbD 31 = true) := by decide +kernel
theorem witness_Queues_7 :
    let s : State := State.reset
    let a : Access := ⟨0, 0⟩
    let d : Nat := 0
    let q : Nat := 47
    let r := Reg.QUEUE_CFG d q
    (reachesReg s a r = true) ∧ (q < 48) ∧ (bitF s r F.QUEUE_CFG_EN = false) := by decide +kernel
theorem witness_Queues_8 :
    let s : State := setFld (setFld (setFld (State.reset) (Reg.QUEUE_CFG 0 5) F.QUEUE_CFG_EN 1) (Reg.QUEUE_CFG 0 5) F.QUEUE_CFG_DEPTH 4) (Reg.QUEUE_CFG 0 5) F.QUEUE_CFG_EWORDS 2
    let d : Nat := 0
    let q : Nat := 5
    let n := fld s (Reg.QUEUE_STAT d q) F.QUEUE_STAT_COUNT
    (s.wf = true) ∧ (q < 48) ∧ (d < 8) ∧ (bitF s (Reg.QUEUE_CFG d q) F.QUEUE_CFG_EN = true) ∧
    (n < fld s (Reg.QUEUE_CFG d q) F.QUEUE_CFG_DEPTH) ∧ (0 < queueWords s d q) := by decide +kernel
theorem witness_Queues_9 :
    let s : State := State.reset
    let d : Nat := 0
    let q : Nat := 5
    let n := fld s (Reg.QUEUE_STAT d q) F.QUEUE_STAT_COUNT
    (s.wf = true) ∧ (q < 48) ∧ (d < 8) ∧
    (bitF s (Reg.QUEUE_CFG d q) F.QUEUE_CFG_EN = false ∨ (fld s (Reg.QUEUE_CFG d q) F.QUEUE_CFG_DEPTH ≤ n ∧ bitF s (Reg.QUEUE_CFG d q) F.QUEUE_CFG_OVWR = false)) := by decide +kernel
theorem witness_Queues_10 :
    let s : State := setFld (setFld (setFld (setFld State.reset (Reg.QUEUE_STAT 0 5) F.QUEUE_STAT_COUNT 2) (Reg.QUEUE_CFG 0 5) F.QUEUE_CFG_EN 1) (Reg.QUEUE_CFG 0 5) F.QUEUE_CFG_DEPTH 4) (Reg.QUEUE_CFG 0 5) F.QUEUE_CFG_EWORDS 2
    let d : Nat := 0
    let q : Nat := 5
    let n := fld s (Reg.QUEUE_STAT d q) F.QUEUE_STAT_COUNT
    (s.wf = true) ∧ (q < 48) ∧ (d < 8) ∧ (bitF s (Reg.QUEUE_CFG d q) F.QUEUE_CFG_EN = true) ∧ (0 < n) ∧
    (0 < queueWords s d q) ∧ eccAt s (pkgA d (queueLoc s d q (queueHeadIndex s d q) 0 / 8 * 8)) ≠ .double := by decide +kernel
theorem witness_Queues_11 :
    let s : State := State.reset
    let d : Nat := 0
    let q : Nat := 5
    fld s (Reg.QUEUE_STAT d q) F.QUEUE_STAT_COUNT = 0 := by decide +kernel
theorem witness_StewardsAndDoorbells_1 :
    let s : State := State.reset
    let a : Access := ⟨0, 0⟩
    let d : Nat := 0
    let i : Nat := 1
    let st := stew s d i
    (reachesReg s a (Reg.STEWARD_CTL d i) = true) ∧ (i < 2) ∧ (st.st = .held ∨ st.st = .halted ∨ st.st = .debug) := by decide +kernel
theorem witness_StewardsAndDoorbells_2 :
    let s : State := State.reset
    let a : Access := ⟨0, 0⟩
    let d : Nat := 0
    let i : Nat := 0
    let st := stew s d i
    (reachesReg s a (Reg.STEWARD_CTL d i) = true) ∧ (i < 2) ∧ (st.st = .run ∨ st.st = .wait) := by decide +kernel
theorem witness_StewardsAndDoorbells_3 :
    let s : State := State.reset
    let a : Access := ⟨0, 0⟩
    let d : Nat := 0
    let i : Nat := 0
    (reachesReg s a (Reg.STEWARD_CTL d i) = true) ∧ (i < 2) := by decide +kernel
theorem witness_StewardsAndDoorbells_4 :
    let s : State := State.reset
    let a : Access := ⟨7, 3⟩
    let d : Nat := 0
    let i : Nat := 1
    let r := Reg.STEWARD_DBSET d i
    (reachesReg s a r = true) ∧ (i < 2) := by decide +kernel
theorem witness_StewardsAndDoorbells_5 :
    let s : State := setReg State.reset (Reg.STEWARD_DBELL 0 1) 7
    let a : Access := ⟨0, 0⟩
    let d : Nat := 0
    let i : Nat := 1
    let r := Reg.STEWARD_DBELL d i
    (reachesReg s a r = true) ∧ (i < 2) := by decide +kernel
theorem witness_PowerVotesAndWakes_1 :
    let s : State := setFld State.reset (Reg.PWR_VSEL 0) F.PWR_VSEL_CLIENT 47
    let a : Access := ⟨0, 0⟩
    let d : Nat := 0
    let r := Reg.PWR_VDATA d
    reachesReg s a r = true := by decide +kernel
theorem witness_PowerVotesAndWakes_2 :
    let s : State := State.reset
    let a : Access := ⟨0, 0⟩
    let r := Reg.PWR_HOLD 0
    reachesReg s a r = true := by decide +kernel
theorem witness_PowerVotesAndWakes_3 :
    let s : State := State.reset
    let a : Access := ⟨0, 0⟩
    let d : Nat := 0
    let r := Reg.PWR_MODE d
    reachesReg s a r = true := by decide +kernel
theorem witness_PowerVotesAndWakes_4 :
    let s : State := State.reset
    let a : Access := ⟨0, 0⟩
    let d : Nat := 0
    reachesReg s a (Reg.PWR_CTL d) = true := by decide +kernel
theorem witness_PowerVotesAndWakes_5 :
    let s : State := setTab State.reset tVote 0 58 2
    let a : Access := ⟨0, 0⟩
    let d : Nat := 0
    reachesReg s a (Reg.PWR_CTL d) = true := by decide +kernel
theorem witness_PowerVotesAndWakes_6 :
    let s : State := State.reset
    let a : Access := ⟨0, 0⟩
    let d : Nat := 0
    let r := Reg.PWR_PADREL d
    reachesReg s a r = true := by decide +kernel
theorem witness_PowerVotesAndWakes_7 :
    let s : State := State.reset
    let i : Nat := 7
    (i < 8) ∧ (kept s = true) := by decide +kernel
theorem witness_PowerVotesAndWakes_8 :
    let s : State := State.reset
    let a : Access := ⟨0, 0⟩
    let r := Reg.WAKE_TIMER 0
    reachesReg s a r = true := by decide +kernel
theorem witness_PowerVotesAndWakes_9 :
    let s : State := setFld State.reset (Reg.WAKE_TIMER 0) F.WAKE_TIMER_EN 1
    (kept s = true) ∧ (bitF s (Reg.WAKE_TIMER 0) F.WAKE_TIMER_EN = true) := by decide +kernel
theorem witness_PowerVotesAndWakes_10 :
    let s : State := (let s := State.reset; { setFld (setFld (setDom State.reset 0 pdLink { DomX.zero with st := .off }) (Reg.WAKE_CTL 0) F.WAKE_CTL_LINKEN 1) (Reg.WAKE_CTL 0) F.WAKE_CTL_LMODE 2 with linkDev := { s.linkDev with heard := (wakeBits.map some).reverse.take 736 } })
    (kept s = true) ∧ (bitF s (Reg.WAKE_CTL 0) F.WAKE_CTL_LINKEN = true) ∧
    ((fld s (Reg.WAKE_CTL 0) F.WAKE_CTL_LMODE = 1 ∧ 10 ≤ ((s.linkDev.heard.take 100).filter (·.isSome)).length) ∨ (fld s (Reg.WAKE_CTL 0) F.WAKE_CTL_LMODE = 2 ∧ wakeEnds s.linkDev.heard = true)) ∧
    (running s = false ∨ domOn s 0 pdLink = false) := by decide +kernel
theorem witness_PowerVotesAndWakes_11 :
    let s : State := setFld State.reset (Reg.PWR_PADSTAT 0) F.PWR_PADSTAT_HELD 129
    let a : Access := ⟨0, 0⟩
    let d : Nat := 0
    let m : Nat := 7
    (s.wf = true) ∧ (reachesReg s a (Reg.PWR_PADREL d) = true) ∧ (m < 9) := by decide +kernel
theorem witness_PowerVotesAndWakes_12 :
    let s : State := setFld (setFld (setReg State.reset (Reg.WAKE_PIN 0 7) 0) (Reg.WAKE_PIN 0 7) F.WAKE_PIN_EN 1) (Reg.PWR_MODE 1) F.PWR_MODE_STATE 1
    let i : Nat := 7
    let e : Nat := 1
    let high : Bool := false
    let soon : Bool := false
    (s.wf = true) ∧ (kept s = true) ∧ (i < 8) ∧ (e < dieCount s.part) ∧ (soon = false) ∧
    (bitF s (Reg.WAKE_PIN 0 i) F.WAKE_PIN_EN = true) ∧ ((high == bitF s (Reg.WAKE_PIN 0 i) F.WAKE_PIN_POL) = true) ∧
    (bitF s (Reg.WAKE_PIN 0 i) F.WAKE_PIN_LEVEL = false ∨ i ∉ s.keep.pinEv) := by decide +kernel
theorem witness_PowerVotesAndWakes_13 :
    let s : State := setFld (setReg State.reset (Reg.WAKE_PIN 0 7) 0) (Reg.WAKE_PIN 0 7) F.WAKE_PIN_EN 1
    let i : Nat := 7
    let high : Bool := false
    let soon : Bool := true
    (s.wf = true) ∧ (kept s = true) ∧ (i < 8) ∧ (soon = true) ∧ (bitF s (Reg.WAKE_PIN 0 i) F.WAKE_PIN_EN = true) ∧
    ((high == bitF s (Reg.WAKE_PIN 0 i) F.WAKE_PIN_POL) = true) ∧
    (bitF s (Reg.WAKE_PIN 0 i) F.WAKE_PIN_LEVEL = false ∨ i ∉ s.keep.pinEv) := by decide +kernel
theorem witness_PowerVotesAndWakes_14 :
    let s : State := setFld (setReg State.reset (Reg.WAKE_PIN 0 7) 0) (Reg.WAKE_PIN 0 7) F.WAKE_PIN_EN 1
    let i : Nat := 7
    let high : Bool := true
    (s.wf = true) ∧ (kept s = true) ∧ (i < 8) ∧ ((high == bitF s (Reg.WAKE_PIN 0 i) F.WAKE_PIN_POL) = false) := by decide +kernel
theorem witness_PowerVotesAndWakes_15 :
    let s : State := setFld State.reset (Reg.WAKE_TIMER 0) F.WAKE_TIMER_EN 1
    let e : Nat := 7
    (s.wf = true) ∧ (kept s = true) ∧ (e < dieCount s.part) ∧ (bitF s (Reg.WAKE_TIMER 0) F.WAKE_TIMER_EN = true) := by decide +kernel
theorem witness_PowerVotesAndWakes_16 :
    let s : State := { State.reset with keep := { State.reset.keep with seq := .husk } }
    let b : Nat := 9
    let e : Nat := 7
    (s.wf = true) ∧ (b < 10) ∧ (e < dieCount s.part) := by decide +kernel
theorem witness_DomainTransitions_1 :
    let s : State := setReg State.reset (Reg.PWR_HOLD 0) 0xFE
    let d : Nat := 0
    let m : Nat := 6
    (s.wf = true) ∧ (d < dieCount s.part) ∧ (m < 9) ∧ (running s = true) ∧ ((dom s d m).st = .on) ∧ (domTarget s d m < 2) ∧
    (entryRefuser s d m = none) := by decide +kernel
theorem witness_DomainTransitions_2 :
    let s : State := setReg State.reset (Reg.PWR_HOLD 0) 0xFE
    let d : Nat := 0
    let m : Nat := pdStew
    let c : Nat := 0
    (s.wf = true) ∧ (d < dieCount s.part) ∧ (m < 9) ∧ (running s = true) ∧ ((dom s d m).st = .on) ∧
    ((dom s d m).refused = false) ∧ (domTarget s d m < 2) ∧ (entryRefuser s d m = some c) := by decide +kernel
theorem witness_DomainTransitions_3 :
    let s : State := setDom State.reset 0 pdSap { DomX.zero with st := .entering 0 2 false }
    let d : Nat := 0
    let m : Nat := pdSap
    let lvl : Nat := 0
    let from_ : Nat := 2
    (s.wf = true) ∧ (d < dieCount s.part) ∧ (m < 9) ∧ ((dom s d m).st = .entering lvl from_ false) ∧
    (entryRefuser s d m = none) ∧ (outstanding s d m = false) := by decide +kernel
theorem witness_DomainTransitions_4 :
    let s : State := setReg (setDom State.reset 0 6 { DomX.zero with st := .entering 0 2 true, tgt := 0 }) (Reg.PWR_HOLD 0) 0xFE
    let d : Nat := 0
    let m : Nat := 6
    let lvl : Nat := 0
    let from_ : Nat := 2
    (d < dieCount s.part) ∧ (m < 9) ∧ ((dom s d m).st = .entering lvl from_ true) := by decide +kernel
theorem witness_DomainTransitions_5 :
    let s : State := setDom State.reset 0 6 { DomX.zero with st := .off, tgt := 0 }
    let d : Nat := 0
    let m : Nat := 6
    (s.wf = true) ∧ (d < dieCount s.part) ∧ (m < 9) ∧ (running s = true) ∧
    ((dom s d m).st = .off ∨ (dom s d m).st = .ret) ∧ ((if (dom s d m).st = .off then 0 else 1) < domTarget s d m) := by decide +kernel
theorem witness_DomainTransitions_6 :
    let s : State := setReg (setDom State.reset 0 6 { DomX.zero with st := .exiting 0, tgt := 2 }) (Reg.PWR_HOLD 0) 0xFF
    let d : Nat := 0
    let m : Nat := 6
    let from_ : Nat := 0
    (d < dieCount s.part) ∧ (m < 9) ∧ ((dom s d m).st = .exiting from_) := by decide +kernel
theorem witness_DomainTransitions_7 :
    let s : State := setReg (setDom State.reset 0 6 { DomX.zero with st := .entering 0 2 true, tgt := 0 }) (Reg.PWR_HOLD 0) 0xFE
    let d : Nat := 0
    let m : Nat := 6
    let lvl : Nat := 0
    let from_ : Nat := 2
    let x := dom s d m
    (s.wf = true) ∧ (d < dieCount s.part) ∧ (m < 9) ∧ (lvl < 2) ∧ (x.st = .entering lvl from_ true) ∧
    (x.queued = none ∨ x.queued = some lvl) ∧
    (m ≠ pdSap ∨ (x.tgt = domTarget s d m ∧ ((List.range 10).all fun i => decide (sapState s d i = sapStopped)) = true)) := by decide +kernel
theorem witness_DomainTransitions_8 :
    let s : State := setReg (setDom State.reset 0 6 { DomX.zero with st := .entering 0 2 true, tgt := 2, queued := some 2 }) (Reg.PWR_HOLD 0) 0xFE
    let d : Nat := 0
    let m : Nat := 6
    let lvl : Nat := 0
    let from_ : Nat := 2
    let q : Nat := 2
    let x := dom s d m
    (s.wf = true) ∧ (d < dieCount s.part) ∧ (m < 9) ∧ (x.st = .entering lvl from_ true) ∧ (x.queued = some q) ∧ (lvl < q) ∧
    (m ≠ pdSap ∨ (x.tgt = domTarget s d m ∧ ((List.range 10).all fun i => decide (sapState s d i = sapStopped)) = true)) := by decide +kernel
theorem witness_DomainTransitions_9 :
    let s : State := setReg (setDom State.reset 0 6 { DomX.zero with st := .exiting 0, tgt := 2 }) (Reg.PWR_HOLD 0) 0xFF
    let d : Nat := 0
    let m : Nat := 6
    let from_ : Nat := 0
    let x := dom s d m
    (s.wf = true) ∧ (d < dieCount s.part) ∧ (m < 9) ∧ (x.st = .exiting from_) ∧ (x.queued = none ∨ x.queued = some 2) := by decide +kernel
theorem witness_DomainTransitions_10 :
    let s : State := setFld (setReg (setDom State.reset 0 6 { DomX.zero with st := .entering 0 2 false, tgt := 0 }) (Reg.PWR_HOLD 0) 0xFE) (Reg.PWR_VSEL 0) F.PWR_VSEL_CLIENT 47
    let a : Access := ⟨0, 0⟩
    let d : Nat := 0
    let m : Nat := 6
    let lvl : Nat := 0
    let v : Word := 0x3FFFF
    let x := dom s d m
    let c := fld s (Reg.PWR_VSEL d) F.PWR_VSEL_CLIENT
    let u := setTab s tVote d c (v &&& 0x3FFFF)
    (s.wf = true) ∧ (reachesReg s a (Reg.PWR_VDATA d) = true) ∧ (c = 2 ∨ 33 ≤ c ∧ c ≤ 47) ∧ (m < 9) ∧
    (x.st = .entering lvl 2 false) ∧ domTarget u d m ≠ x.tgt ∧ (lvl < domTarget u d m) := by decide +kernel
theorem witness_DomainTransitions_11 :
    let s : State := setFld (setReg (setDom State.reset 0 6 { DomX.zero with st := .entering 0 2 true, tgt := 0 }) (Reg.PWR_HOLD 0) 0xFE) (Reg.PWR_VSEL 0) F.PWR_VSEL_CLIENT 47
    let a : Access := ⟨0, 0⟩
    let d : Nat := 0
    let m : Nat := 6
    let lvl : Nat := 0
    let from_ : Nat := 2
    let v : Word := 0x3FFFF
    let x := dom s d m
    let c := fld s (Reg.PWR_VSEL d) F.PWR_VSEL_CLIENT
    let u := setTab s tVote d c (v &&& 0x3FFFF)
    (s.wf = true) ∧ (reachesReg s a (Reg.PWR_VDATA d) = true) ∧ (c = 2 ∨ 33 ≤ c ∧ c ≤ 47) ∧ (m < 9) ∧
    domTarget u d m ≠ x.tgt ∧ (x.st = .entering lvl from_ true ∨ x.st = .exiting from_) := by decide +kernel
theorem witness_HuskAndSupplies_1 :
    let s : State := W.huskReady
    (huskReady s = true) ∧ (huskRefuser s = none) := by decide +kernel
theorem witness_HuskAndSupplies_2 :
    let s : State := setFld W.huskReady (Reg.WAKE_TIMER 0) F.WAKE_TIMER_EN 1
    let b : Nat := 8
    (s.wf = true) ∧ (huskReady s = true) ∧ (huskRefuser s = none) ∧
    ((b < 8 ∧ bitF s (Reg.WAKE_PIN 0 b) F.WAKE_PIN_EN = true ∧ bitF s (Reg.WAKE_PIN 0 b) F.WAKE_PIN_LEVEL = false) ∨ (b = 8 ∧ bitF s (Reg.WAKE_TIMER 0) F.WAKE_TIMER_EN = true)) := by decide +kernel
theorem witness_HuskAndSupplies_3 :
    let s : State := W.huskReady
    let b : Nat := 7
    (s.wf = true) ∧ (huskReady s = true) ∧ (huskRefuser s = none) ∧
    ((b < 8 ∧ bitF s (Reg.WAKE_PIN 0 b) F.WAKE_PIN_EN = false) ∨ (b = 8 ∧ bitF s (Reg.WAKE_TIMER 0) F.WAKE_TIMER_EN = false) ∨ (8 < b ∧ bitF s (Reg.WAKE_CTL 0) F.WAKE_CTL_LINKEN = false)) := by decide +kernel
theorem witness_HuskAndSupplies_4 :
    let s : State := setFld W.huskReady (Reg.BOOT_STAT 0) F.BOOT_STAT_TRIAL 1
    let c : Nat := 59
    (s.wf = true) ∧ (huskReady s = true) ∧ (s.keep.refused = false) ∧ (huskRefuser s = some c) := by decide +kernel
theorem witness_HuskAndSupplies_5 :
    let s : State := { State.reset with keep := { State.reset.keep with seq := .deferred } }
    s.keep.seq = .deferred := by decide +kernel
theorem witness_HuskAndSupplies_6 :
    let s : State := { State.reset with keep := { State.reset.keep with seq := .pgWait } }
    s.keep.seq = .pgWait ∨ s.keep.seq = .pgLost := by decide +kernel
theorem witness_HuskAndSupplies_7 :
    let s : State := { State.reset with keep := { State.reset.keep with seq := .refWait } }
    (s.wf = true) ∧ (s.keep.seq = .refWait) := by decide +kernel
theorem witness_HuskAndSupplies_8 :
    let s : State := { State.reset with keep := { State.reset.keep with seq := .refWait, attempts := 4 } }
    s.keep.seq = .pgWait ∨ s.keep.seq = .refWait ∨ s.keep.seq = .pgLost := by decide +kernel
theorem witness_HuskAndSupplies_9 :
    let s : State := { State.reset with keep := { State.reset.keep with seq := .retryWait } }
    s.keep.seq = .retryWait := by decide +kernel
theorem witness_HuskAndSupplies_10 :
    let s : State := State.reset
    s.keep.seq = .run ∨ s.keep.seq = .held := by decide +kernel
theorem witness_HuskAndSupplies_11 :
    let s : State := { State.reset with keep := { State.reset.keep with seq := .noKeep } }
    s.keep.seq = .noKeep := by decide +kernel
theorem witness_HuskAndSupplies_12 :
    let s : State := State.reset
    s.keep.seq ≠ .noKeep := by decide +kernel
theorem witness_SpareSteps_1 :
    let s : State := setPodX State.reset 0 7 { PodX.zero with due := some 3 }
    let d : Nat := 0
    let p : Nat := 7
    let i : Nat := 3
    let x := podX s d p
    (s.wf = true) ∧ (d < dieCount s.part) ∧ (p < 8) ∧ (x.due = some i) ∧ (i < 18) := by decide +kernel
theorem witness_SpareSteps_2 :
    let s : State := setPodX { State.reset with phase := .tick } 0 7 { PodX.zero with phase := .load }
    let d : Nat := 0
    let p : Nat := 7
    let x := podX s d p
    (d < dieCount s.part) ∧ (p < 8) ∧ (x.phase = .load) ∧ (x.copied = false) ∧ (x.due = none) ∧ (pulseRuns s = true) ∧
    (domOn s d (pdPod p) = true) := by decide +kernel
theorem witness_SpareSteps_3 :
    let s : State := setKern State.reset 0 143 { Kern.zero with st := .run }
    let a : Access := ⟨0, 0⟩
    let d : Nat := 0
    let k : Nat := 143
    (reachesReg s a (Reg.SPARE_CMD d) = true) ∧ (k < 256) := by decide +kernel
theorem witness_SpareSteps_4 :
    let s : State := setKern (setPodX { State.reset with phase := .tick } 0 7 { PodX.zero with take := some ⟨3, 2, 16, false, true, true⟩ }) 0 129 { Kern.zero with st := .run }
    let d : Nat := 0
    let p : Nat := 7
    let x : Takeover := ⟨3, 2, 16, false, true, true⟩
    (s.wf = true) ∧ (d < dieCount s.part) ∧ (p < 8) ∧ (takeDue s d p = some x) ∧ (s.phase = .tick) ∧
    (metersOwed s = false) ∧ (x.new < 18) ∧ (x.slot < 18) ∧ x.new ≠ x.slot ∧
    (((spareSlots s d p).filter fun i => decide (i ≠ x.new)).contains x.slot = false) := by decide +kernel
theorem witness_SpareSteps_5 :
    let s : State := setPodX State.reset 0 7 { PodX.zero with ramp := some ⟨3, 5, 0, 8, true⟩ }
    let d : Nat := 0
    let p : Nat := 7
    let x : DispRamp := ⟨3, 5, 0, 8, true⟩
    (d < dieCount s.part) ∧ (p < 8) ∧ ((podX s d p).ramp = some x) ∧ (x.last = true) := by decide +kernel
theorem witness_SpareSteps_6 :
    let s : State := W.converter
    let d : Nat := 0
    let e : Nat := 0
    let i : Nat := 0
    (d < dieCount s.part) ∧ (e < 6) ∧ (fld s (Reg.SPARE_SRC d) F.SPARE_SRC_SPAREENG < 6) ∧ (engineServes s d e = true) ∧
    (checkedNext s d = some i) ∧ (i / 64 = e) ∧ ((dieX s d).srcBad = none) ∧ (domOn s d pdSrc = true) := by decide +kernel
theorem witness_SpareSteps_7 :
    let s : State := setFld State.reset (Reg.SPARE_SRC 0) F.SPARE_SRC_SPAREENG 5
    let d : Nat := 0
    let e : Nat := 0
    (d < dieCount s.part) ∧ (e < 6) ∧ (fld s (Reg.SPARE_SRC d) F.SPARE_SRC_SPAREENG < 6) ∧ (engineServes s d e = true) ∧
    ((dieX s d).srcBad = none) ∧ (domOn s d pdSrc = true) := by decide +kernel
theorem witness_SpareSteps_8 :
    let s : State := setFld (setDieX State.reset 0 { DieX.zero with srcBad := some 0 }) (Reg.SPARE_SRC 0) F.SPARE_SRC_SPAREENG 5
    let d : Nat := 0
    let e : Nat := 0
    let sp := fld s (Reg.SPARE_SRC d) F.SPARE_SRC_SPAREENG
    (s.wf = true) ∧ (d < 8) ∧ (e < 6) ∧ (sp < 6) ∧ e ≠ sp ∧ ((dieX s d).srcBad = some e) ∧ (domLive s d pdSrc = true) := by decide +kernel
theorem witness_SapControl_1 :
    let s : State := setFld (setFld ({ State.reset with phase := .tick }) (Reg.SAP_CFG 0 0) F.SAP_CFG_MODE 1) (Reg.SAP_CFG 0 0) F.SAP_CFG_SLOTS 1
    let a : Access := ⟨0, 0⟩
    let d : Nat := 0
    let m : Nat := 0
    (reachesReg s a (Reg.SAP_CTL d m) = true) ∧ (m < 10) ∧ (sapState s d m = sapStopped) ∧
    (bitF s (Reg.SAP_CTL d m) F.SAP_CTL_ARM = false) := by decide +kernel
theorem witness_SapControl_2 :
    let s : State := setFld (State.reset) (Reg.SAP_STAT 0 0) F.SAP_STAT_STATE 3
    let a : Access := ⟨0, 0⟩
    let d : Nat := 0
    let m : Nat := 0
    (reachesReg s a (Reg.SAP_CTL d m) = true) ∧ (m < 10) ∧ sapState s d m ≠ sapStopped ∧
    (bitF s (Reg.SAP_CTL d m) F.SAP_CTL_ARM = false) := by decide +kernel
theorem witness_SapControl_3 :
    let s : State := setFld (setFld (State.reset) (Reg.SAP_STAT 0 0) F.SAP_STAT_STATE 1) (Reg.SAP_CTL 0 0) F.SAP_CTL_ARM 1
    let a : Access := ⟨0, 0⟩
    let d : Nat := 0
    let m : Nat := 0
    (reachesReg s a (Reg.SAP_CTL d m) = true) ∧ (m < 10) := by decide +kernel
theorem witness_SapControl_4 :
    let s : State := setFld (State.reset) (Reg.SAP_STAT 0 0) F.SAP_STAT_STATE 5
    let a : Access := ⟨0, 0⟩
    let d : Nat := 0
    let m : Nat := 0
    (reachesReg s a (Reg.SAP_CTL d m) = true) ∧ (m < 10) ∧ (sapState s d m ≤ 5) := by decide +kernel
theorem witness_SapControl_5 :
    let s : State := State.reset
    let a : Access := ⟨0, 0⟩
    let d : Nat := 0
    let m : Nat := 9
    let r := Reg.SAP_CTL d m
    (reachesReg s a r = true) ∧ (m < 10) := by decide +kernel
theorem witness_SapControl_6 :
    let s : State := State.reset
    let a : Access := ⟨0, 0⟩
    let d : Nat := 0
    let m : Nat := 9
    let tx : Bool := true
    let r := if tx then Reg.SAP_SLOTMASK_TX d m else Reg.SAP_SLOTMASK_RX d m
    (reachesReg s a r = true) ∧ (m < 10) := by decide +kernel
theorem witness_SapTriggersAndFrames_1 :
    let s : State := State.reset
    let a : Access := ⟨0, 0⟩
    let d : Nat := 0
    let r := Reg.SAP0_TRIG d
    reachesReg s a r = true := by decide +kernel
theorem witness_SapTriggersAndFrames_2 :
    let s : State := State.reset
    (s.wf = true) ∧ (running s = true) := by decide +kernel
theorem witness_SapTriggersAndFrames_3 :
    let s : State := setSap (setFld (State.reset) (Reg.SAP_STAT 0 0) F.SAP_STAT_STATE 1) 0 0 { SapPort.zero with trig := .met }
    let d : Nat := 0
    let m : Nat := 0
    (s.wf = true) ∧ (d < dieCount s.part) ∧ (m < 10) ∧ (sapState s d m = sapArmed) ∧ ((sap s d m).trig = .met) := by decide +kernel
theorem witness_SapTriggersAndFrames_4 :
    let s : State := setFld (setFld (setFld (State.reset) (Reg.SAP_CFG 0 0) F.SAP_CFG_MODE 1) (Reg.SAP_STAT 0 0) F.SAP_STAT_STATE 2) (Reg.SAP_CFG 0 0) F.SAP_CFG_SLOTS 1
    let d : Nat := 0
    let m : Nat := 0
    (s.wf = true) ∧ (d < dieCount s.part) ∧ (m < 10) ∧ (sapState s d m = sapStarting) ∧ (domOn s d pdSap = true) ∧
    (isMaster s d m = false) ∧ (padHeld s d pdSap = false) ∧
    (isBip s d m = false ∨ bitF s (Reg.BIP_STAT d m) F.BIP_STAT_LOCK = true) := by decide +kernel
theorem witness_SapTriggersAndFrames_5 :
    let s : State := setFld (setFld (setReg (setFld (setFld (setFld ({ State.reset with phase := .tick }) (Reg.SAP_CFG 0 0) F.SAP_CFG_MODE 1) (Reg.SAP_STAT 0 0) F.SAP_STAT_STATE 2) (Reg.SAP_CFG 0 0) F.SAP_CFG_SLOTS 1) (Reg.PULSE_COUNT_LO 0) 2147483647) (Reg.SAP_CLK 0 0) F.SAP_CLK_BDIV 8) (Reg.SAP_CFG 0 0) F.SAP_CFG_MS 1
    let d : Nat := 0
    let m : Nat := 0
    (s.wf = true) ∧ (d < dieCount s.part) ∧ (m < 10) ∧ (sapState s d m = sapStarting) ∧ (domOn s d pdSap = true) ∧
    (isMaster s d m = true) ∧ (s.phase = .tick) ∧ ((pulseCount s + 1) % sapEpoch s d m = 0) := by decide +kernel
theorem witness_SapTriggersAndFrames_6 :
    let s : State := setFld (setFld (setFld (State.reset) (Reg.SAP_CFG 0 0) F.SAP_CFG_MODE 1) (Reg.SAP_STAT 0 0) F.SAP_STAT_STATE 3) (Reg.SAP_CFG 0 0) F.SAP_CFG_SLOTS 1
    let d : Nat := 0
    let m : Nat := 0
    let f : SapFrame := ⟨1, true, true, false, [], false, [], [], 0⟩
    (s.wf = true) ∧ (d < dieCount s.part) ∧ (m < 10) ∧ (padHeld s d pdSap = false) ∧ (sapFrameDue s d m = true) ∧
    (f.sync < 3) ∧ (f.sync = 0 ∨ (isSlave s d m = true ∧ isBip s d m = false)) ∧ ((sap s d m).lost = false) ∧
    sapState s d m ≠ sapStopping ∧ (onFallback s d m = false) ∧ (trackRoom s d m (frameLate s f) = true) := by decide +kernel
theorem witness_SapTriggersAndFrames_7 :
    let s : State := setFld (setFld (setFld (State.reset) (Reg.SAP_CFG 0 0) F.SAP_CFG_MODE 1) (Reg.SAP_STAT 0 0) F.SAP_STAT_STATE 4) (Reg.SAP_CFG 0 0) F.SAP_CFG_SLOTS 1
    let d : Nat := 0
    let m : Nat := 0
    let f : SapFrame := ⟨0, true, true, false, [], false, [], [], 0⟩
    (s.wf = true) ∧ (d < dieCount s.part) ∧ (m < 10) ∧ (padHeld s d pdSap = false) ∧ (sapFrameDue s d m = true) ∧
    (f.sync = 0) ∧ ((sap s d m).lost = false) ∧ (sapState s d m = sapStopping) ∧ ((sap s d m).gain.j = 0) ∧
    ((sap s d m).gainRx.j = 0) ∧ ((sap s d m).lostStopping = false) ∧ (onFallback s d m = false) ∧
    (trackRoom s d m (frameLate s f) = true) := by decide +kernel
theorem witness_SapTriggersAndFrames_8 :
    let s : State := setFld (setFld (setFld (setFld (State.reset) (Reg.SAP_CFG 0 0) F.SAP_CFG_MODE 5) (Reg.SAP_STAT 0 0) F.SAP_STAT_STATE 3) (Reg.SAP_CFG 0 0) F.SAP_CFG_MS 1) (Reg.BIP_STAT 0 0) F.BIP_STAT_LOCK 1
    let d : Nat := 0
    let m : Nat := 0
    let f : SapFrame := ⟨0, true, true, false, [], false, [1, 2], [false, false], 0⟩
    (s.wf = true) ∧ (d < dieCount s.part) ∧ (m < 10) ∧ (padHeld s d pdSap = false) ∧ (bipReceives s d m = true) ∧
    (onFallback s d m = false) ∧ (trackRoom s d m (frameLate s f) = true) := by decide +kernel
theorem witness_SapTriggersAndFrames_9 :
    let s : State := setFld (setFld (setFld (State.reset) (Reg.SAP_CFG 0 0) F.SAP_CFG_MODE 5) (Reg.SAP_STAT 0 0) F.SAP_STAT_STATE 3) (Reg.BIP_STAT 0 0) F.BIP_STAT_FALLBACK 1
    let d : Nat := 0
    let m : Nat := 0
    let f : SapFrame := ⟨0, true, true, false, [], false, [1, 2], [false, false], 0⟩
    (s.wf = true) ∧ (d < dieCount s.part) ∧ (m < 10) ∧ (sapFrameDue s d m = true) ∧ (f.sync = 0) ∧
    (onFallback s d m = true) ∧ (trackRoom s d m (frameLate s f) = true) := by decide +kernel
theorem witness_SapTriggersAndFrames_10 :
    let s : State := setFld (setFld (setFld (setFld (State.reset) (Reg.SAP_CFG 0 0) F.SAP_CFG_MODE 5) (Reg.SAP_STAT 0 0) F.SAP_STAT_STATE 3) (Reg.BIP_STAT 0 0) F.BIP_STAT_FALLBACK 1) (Reg.BIP_STAT 0 0) F.BIP_STAT_LOCK 1
    let d : Nat := 0
    let m : Nat := 0
    let f : SapFrame := ⟨0, true, true, false, [], false, [1, 2], [false, false], 0⟩
    (s.wf = true) ∧ (d < dieCount s.part) ∧ (m < 10) ∧ (padHeld s d pdSap = false) ∧ (bipReceives s d m = true) ∧
    (onFallback s d m = true) ∧ (sapState s d m = sapRunning) ∧ (trackRoom s d m (frameLate s f) = true) := by decide +kernel
theorem witness_SapTriggersAndFrames_11 :
    let s : State := setFld (setFld (setFld (setFld (State.reset) (Reg.SAP_CFG 0 0) F.SAP_CFG_MODE 5) (Reg.SAP_STAT 0 0) F.SAP_STAT_STATE 4) (Reg.BIP_STAT 0 0) F.BIP_STAT_FALLBACK 1) (Reg.BIP_STAT 0 0) F.BIP_STAT_LOCK 1
    let d : Nat := 0
    let m : Nat := 0
    let f : SapFrame := ⟨0, true, true, false, [], false, [1, 2], [false, false], 0⟩
    (s.wf = true) ∧ (d < dieCount s.part) ∧ (m < 10) ∧ (padHeld s d pdSap = false) ∧ (bipReceives s d m = true) ∧
    (onFallback s d m = true) ∧ (sapState s d m = sapStopping) ∧ ((sap s d m).gain.j = 0) ∧ ((sap s d m).gainRx.j = 0) ∧
    ((sap s d m).lostStopping = false) ∧ (trackRoom s d m (frameLate s f) = true) := by decide +kernel
theorem witness_SapTriggersAndFrames_12 :
    let s : State := W.ring
    let d : Nat := 0
    let m : Nat := 0
    let n := ringUnit s d m true
    (s.wf = true) ∧ (d < dieCount s.part) ∧ (m < 10) ∧ ringSize s d m true ≠ 0 ∧ (sapRunning ≤ sapState s d m) ∧
    (dmaOpen s d (ringBase s d m true) = true) ∧ (domOn s d pdSap = true) ∧ (0 < n) ∧ (n ≤ ringUsed s d m true) ∧
    ((sap s d m).bufTx.length + n ≤ 2048) ∧ ((sap s d m).due = []) := by decide +kernel
theorem witness_SapTriggersAndFrames_13 :
    let s : State := W.ring
    let d : Nat := 0
    let m : Nat := 0
    let n := ringUnit s d m true
    (d < dieCount s.part) ∧ (m < 10) ∧ ringSize s d m true ≠ 0 ∧ (sapRunning ≤ sapState s d m) ∧
    (dmaOpen s d (ringBase s d m true) = true) ∧ (domOn s d pdSap = true) ∧ (0 < n) ∧ (n ≤ ringUsed s d m true) ∧
    ((sap s d m).bufTx.length + n ≤ 2048) := by decide +kernel
theorem witness_SapTriggersAndFrames_14 :
    let s : State := setSap State.reset 0 9 { SapPort.zero with bufRx := [[1, 2, 3, 4]] }
    let d : Nat := 0
    let m : Nat := 9
    let bs : List Byte := [1, 2, 3, 4]
    let rest : List (List Byte) := []
    (d < dieCount s.part) ∧ (m < 10) ∧ (ringSize s d m false = 0) ∧ ((sap s d m).bufRx = bs :: rest) := by decide +kernel
theorem witness_SapTriggersAndFrames_15 :
    let s : State := W.ring
    let d : Nat := 0
    let m : Nat := 0
    let bs : List Byte := [1, 2, 3, 4]
    let rest : List (List Byte) := []
    (s.wf = true) ∧ (d < dieCount s.part) ∧ (m < 10) ∧ ringSize s d m false ≠ 0 ∧
    (dmaOpen s d (ringBase s d m false) = true) ∧ (domOn s d pdSap = true) ∧ ((sap s d m).bufRx = bs :: rest) := by decide +kernel
theorem witness_SapTriggersAndFrames_16 :
    let s : State := setFld State.reset (Reg.PWR_PADSTAT 0) F.PWR_PADSTAT_HELD 1
    let d : Nat := 0
    let m : Nat := 9
    (d < dieCount s.part) ∧ (m < 10) ∧ (isMaster s d m = false) ∧ (padHeld s d pdSap = true) := by decide +kernel
theorem witness_SapTriggersAndFrames_17 :
    let s : State := setFld (setFld (State.reset) (Reg.SAP_CFG 0 0) F.SAP_CFG_MODE 1) (Reg.SAP_STAT 0 0) F.SAP_STAT_STATE 1
    let a : Access := ⟨0, 0⟩
    let d : Nat := 0
    let m : Nat := 0
    (s.wf = true) ∧ (reachesReg s a (Reg.SAP0_TRIG d) = true) ∧ (m < 10) := by decide +kernel
theorem witness_SapTriggersAndFrames_18 :
    let s : State := setSap (setFld (setFld (setFld ({ State.reset with phase := .commit }) (Reg.SAP_CFG 0 0) F.SAP_CFG_MODE 1) (Reg.SAP_STAT 0 0) F.SAP_STAT_STATE 1) (Reg.PULSE_CTL 0) F.PULSE_CTL_RUN 1) 0 0 { SapPort.zero with trig := .next }
    let d : Nat := 0
    let m : Nat := 0
    (s.wf = true) ∧ (d < dieCount s.part) ∧ (m < 10) ∧ (running s = true) ∧ (s.phase = .commit) ∧ (trackOwed s = false) ∧
    (bitF s (Reg.PULSE_CTL 0) F.PULSE_CTL_RUN = true) ∧ (sapState s d m = sapArmed) ∧ sapMode s d m ≠ 0 ∧
    ((sap s d m).trig = .next) ∧ (domLive s d pdStew = true) ∧ (domLive s d pdSap = true) := by decide +kernel
theorem witness_ClockLossAndBiphase_1 :
    let s : State := setFld (setFld (State.reset) (Reg.SAP_CFG 0 0) F.SAP_CFG_MODE 1) (Reg.SAP_STAT 0 0) F.SAP_STAT_STATE 3
    let d : Nat := 0
    let m : Nat := 0
    let cause : Nat := 1
    (s.wf = true) ∧ (d < dieCount s.part) ∧ (m < 10) ∧ (lossDue s d m cause = true) := by decide +kernel
theorem witness_ClockLossAndBiphase_2 :
    let s : State := W.after (.sapClockLoss 0 0 1) (setFld (setFld (State.reset) (Reg.SAP_CFG 0 0) F.SAP_CFG_MODE 1) (Reg.SAP_STAT 0 0) F.SAP_STAT_STATE 3)
    let d : Nat := 0
    let m : Nat := 0
    (s.wf = true) ∧ (d < dieCount s.part) ∧ (m < 10) ∧ (padHeld s d pdSap = false) ∧
    (bitF s (Reg.CLKSTEER_LOSS d m) F.CLKSTEER_LOSS_LOST = true) ∧
    (isBip s d m = false ∨ bitF s (Reg.BIP_STAT d m) F.BIP_STAT_LOCK = true) := by decide +kernel
theorem witness_ClockLossAndBiphase_3 :
    let s : State := setFld (setFld (State.reset) (Reg.SAP_CFG 0 0) F.SAP_CFG_MODE 5) (Reg.SAP_STAT 0 0) F.SAP_STAT_STATE 1
    let d : Nat := 0
    let m : Nat := 0
    let hz : Nat := 216000
    (s.wf = true) ∧ (d < dieCount s.part) ∧ (m < 4) ∧ (padHeld s d pdSap = false) ∧ (isBip s d m = true) ∧
    (sapArmed ≤ sapState s d m) ∧ (bitF s (Reg.BIP_STAT d m) F.BIP_STAT_LOCK = false) ∧ (28000 ≤ hz ∧ hz ≤ 216000) ∧
    (domOn s d pdSap = true) := by decide +kernel
theorem witness_ClockLossAndBiphase_4 :
    let s : State := setSap (setFld (setFld (setFld (State.reset) (Reg.SAP_CFG 0 0) F.SAP_CFG_MODE 5) (Reg.SAP_STAT 0 0) F.SAP_STAT_STATE 3) (Reg.BIP_STAT 0 0) F.BIP_STAT_LOCK 1) 0 0 { SapPort.zero with bip := { SapPort.zero.bip with inBlk := true, bits := List.replicate 192 5 } }
    let d : Nat := 0
    let m : Nat := 0
    let ws : List Word := blockWords (List.replicate 192 5)
    (s.wf = true) ∧ (d < dieCount s.part) ∧ (m < 4) ∧ (padHeld s d pdSap = false) ∧ (isBip s d m = true) ∧
    (sapArmed ≤ sapState s d m) ∧ (domOn s d pdSap = true) ∧ ((sap s d m).bip.bits.length = 192) ∧
    (ws = blockWords (sap s d m).bip.bits) ∧ (bitF s (Reg.BIP_STAT d m) F.BIP_STAT_LOCK = true) ∧
    ((sap s d m).bip.inBlk = true) ∧ ((sap s d m).bip.chk = false) := by decide +kernel
theorem witness_ClockLossAndBiphase_5 :
    let s : State := setSap (setFld (setFld (setFld (State.reset) (Reg.SAP_CFG 0 0) F.SAP_CFG_MODE 5) (Reg.SAP_STAT 0 0) F.SAP_STAT_STATE 3) (Reg.BIP_STAT 0 0) F.BIP_STAT_LOCK 1) 0 0 { SapPort.zero with bip := { SapPort.zero.bip with inBlk := true } }
    let d : Nat := 0
    let m : Nat := 0
    (s.wf = true) ∧ (d < dieCount s.part) ∧ (m < 4) ∧ (padHeld s d pdSap = false) ∧ (isBip s d m = true) ∧
    (sapArmed ≤ sapState s d m) ∧ (domOn s d pdSap = true) ∧ ((sap s d m).bip.inBlk = true) := by decide +kernel
theorem witness_ClockLossAndBiphase_6 :
    let s : State := setSap (setReg State.reset (Reg.BIP_CSTXA 0 0 1) 5) 0 0 { SapPort.zero with bip := { SapPort.zero.bip with blkDue := true } }
    let d : Nat := 0
    let m : Nat := 0
    (s.wf = true) ∧ (d < dieCount s.part) ∧ (m < 4) ∧ ((sap s d m).bip.blkDue = true) ∧ (statusOpen s d m = true) := by decide +kernel
theorem witness_ClockLossAndBiphase_7 :
    let s : State := setFld State.reset (Reg.BIP_STAT 0 3) F.BIP_STAT_CSNEW 1
    let a : Access := ⟨0, 0⟩
    let d : Nat := 0
    let m : Nat := 3
    let r := Reg.BIP_STAT d m
    (reachesReg s a r = true) ∧ (m < 4) := by decide +kernel
theorem witness_ClockLossAndBiphase_8 :
    let s : State := setFld State.reset (Reg.PWR_PADSTAT 0) F.PWR_PADSTAT_HELD 1
    let d : Nat := 0
    let m : Nat := 9
    (d < dieCount s.part) ∧ (m < 10) ∧ (padHeld s d pdSap = true) := by decide +kernel
theorem witness_ClockLossAndBiphase_9 :
    let s : State := setFld State.reset (Reg.PWR_PADSTAT 0) F.PWR_PADSTAT_HELD 1
    let d : Nat := 0
    let m : Nat := 3
    (d < dieCount s.part) ∧ (m < 4) ∧ (padHeld s d pdSap = true) := by decide +kernel
theorem witness_ClockLossAndBiphase_10 :
    let s : State := setFld State.reset (Reg.PWR_PADSTAT 0) F.PWR_PADSTAT_HELD 1
    let d : Nat := 0
    let m : Nat := 3
    (d < dieCount s.part) ∧ (m < 4) ∧ (padHeld s d pdSap = true) := by decide +kernel
theorem witness_ConvertersAndSteering_1 :
    let s : State := State.reset
    let a : Access := ⟨0, 0⟩
    let d : Nat := 0
    let e : Nat := 5
    let v : Word := 0x80000000
    let r := Reg.SRC_CHDATA d e
    let w := reg s (Reg.SRC_CHSEL d e)
    let i := wField w 6 1
    let free := fun x : Word => decide (10 ≤ wField x 3 0) || decide (sapState s d (wField x 3 0) = sapStopped)
    (reachesReg s a r = true) ∧ (e < 6) ∧ (wField w 0 0 = 0) ∧ (free (tab s tSrc d (e * 64 + i)) = true) ∧ (free v = true) := by decide +kernel
theorem witness_ConvertersAndSteering_2 :
    let s : State := setReg State.reset (Reg.SRC_CHSEL 0 5) 1
    let a : Access := ⟨0, 0⟩
    let d : Nat := 0
    let e : Nat := 5
    let r := Reg.SRC_CHDATA d e
    let w := reg s (Reg.SRC_CHSEL d e)
    (reachesReg s a r = true) ∧ (e < 6) ∧ (wField w 0 0 = 1) := by decide +kernel
theorem witness_ConvertersAndSteering_3 :
    let s : State := setFld (State.reset) (Reg.SAP_STAT 0 0) F.SAP_STAT_STATE 1
    let a : Access := ⟨0, 0⟩
    let d : Nat := 0
    let e : Nat := 5
    let v : Word := 0x80000000
    let r := Reg.SRC_CHDATA d e
    let w := reg s (Reg.SRC_CHSEL d e)
    let i := wField w 6 1
    let free := fun x : Word => decide (10 ≤ wField x 3 0) || decide (sapState s d (wField x 3 0) = sapStopped)
    (reachesReg s a r = true) ∧ (e < 6) ∧ (wField w 0 0 = 0) ∧ (free (tab s tSrc d (e * 64 + i)) = false ∨ free v = false) := by decide +kernel
theorem witness_ConvertersAndSteering_4 :
    let s : State := setFld (setFld (setFld (State.reset) (Reg.SAP_CFG 0 0) F.SAP_CFG_MODE 1) (Reg.SAP_STAT 0 0) F.SAP_STAT_STATE 3) (Reg.SAP_CFG 0 0) F.SAP_CFG_PATH 1
    let d : Nat := 0
    let m : Nat := 0
    let r : Nat := 5
    let tx : Bool := true
    let x := sap s d m
    (d < dieCount s.part) ∧ (m < 10) ∧ (relocksExact s d m tx = false) ∧ (tracksNow s d m tx = true) ∧
    (ratioMoves (if tx then x.ratioTx else x.ratioRx) r = true) := by decide +kernel
theorem witness_ConvertersAndSteering_5 :
    let s : State := setSap (setFld (setFld (setFld (setFld (State.reset) (Reg.SAP_CFG 0 0) F.SAP_CFG_MODE 1) (Reg.SAP_STAT 0 0) F.SAP_STAT_STATE 3) (Reg.SAP_CFG 0 0) F.SAP_CFG_PATH 1) (Reg.SAP_CFG 0 0) F.SAP_CFG_MS 1) 0 0 { SapPort.zero with relockTx := true }
    let d : Nat := 0
    let m : Nat := 0
    let tx : Bool := true
    (d < dieCount s.part) ∧ (m < 10) ∧ (relocksExact s d m tx = true) := by decide +kernel
theorem witness_ConvertersAndSteering_6 :
    let s : State := W.converter
    let d : Nat := 0
    let m : Nat := 0
    let tx : Bool := true
    (s.wf = true) ∧ (d < dieCount s.part) ∧ (m < 10) ∧ (tracksNow s d m tx = true) ∧
    ((if tx then (sap s d m).ratioTx else (sap s d m).ratioRx).isSome = true) := by decide +kernel
theorem witness_ConvertersAndSteering_7 :
    let s : State := State.reset
    let a : Access := ⟨0, 0⟩
    let r := Reg.CLKSTEER_CTL 0
    reachesReg s a r = true := by decide +kernel
theorem witness_ConvertersAndSteering_8 :
    let s : State := State.reset
    let a : Access := ⟨0, 0⟩
    let r := Reg.CLKSTEER_SEL 0
    reachesReg s a r = true := by decide +kernel
theorem witness_ConvertersAndSteering_9 :
    let s : State := { setFld State.reset (Reg.CLKSTEER_STAT 0) F.CLKSTEER_STAT_STATE steerAcq with steer := ⟨1024, [], 0, 0, 0⟩ }
    (steerState s = steerAcq) ∧ (1024 ≤ s.steer.calm) := by decide +kernel
theorem witness_MetersSilenceAndGenerators_1 :
    let s : State := State.reset
    let a : Access := ⟨0, 0⟩
    let d : Nat := 0
    let m : Nat := 511
    let r := Reg.METER_CFG d m
    (reachesReg s a r = true) ∧ (m < 512) := by decide +kernel
theorem witness_MetersSilenceAndGenerators_2 :
    let s : State := setMeter State.reset 0 511 { Meter.zero with ended := some (5, 25, false, true, 6) }
    let d : Nat := 0
    let m : Nat := 511
    let peak : Nat := 5
    let sum : Nat := 25
    let tpeak : Nat := 6
    let inval : Bool := false
    (s.wf = true) ∧ (d < dieCount s.part) ∧ (m < 512) ∧ ((meter s d m).ended = some (peak, sum, inval, true, tpeak)) := by decide +kernel
theorem witness_MetersSilenceAndGenerators_3 :
    let s : State := setMeter State.reset 0 511 { Meter.zero with ended := some (5, 25, false, false, 6) }
    let d : Nat := 0
    let m : Nat := 511
    let peak : Nat := 5
    let sum : Nat := 25
    let tpeak : Nat := 6
    let inval : Bool := false
    (s.wf = true) ∧ (d < dieCount s.part) ∧ (m < 512) ∧ ((meter s d m).ended = some (peak, sum, inval, false, tpeak)) := by decide +kernel
theorem witness_MetersSilenceAndGenerators_4 :
    let s : State := State.reset
    let a : Access := ⟨0, 0⟩
    let d : Nat := 0
    let m : Nat := 511
    let r := Reg.METER_CTL d m
    (reachesReg s a r = true) ∧ (m < 512) := by decide +kernel
theorem witness_MetersSilenceAndGenerators_5 :
    let s : State := State.reset
    let a : Access := ⟨0, 0⟩
    let d : Nat := 0
    let r := Reg.SILENCE_DATA d
    reachesReg s a r = true := by decide +kernel
theorem witness_MetersSilenceAndGenerators_6 :
    let s : State := State.reset
    let a : Access := ⟨0, 0⟩
    let d : Nat := 0
    let p : Nat := 7
    let cfg : Bool := true
    let r := if cfg then Reg.SILENCE_PARK_CFG d p else Reg.SILENCE_PARK_DET d p
    (reachesReg s a r = true) ∧ (p < 8) := by decide +kernel
theorem witness_MetersSilenceAndGenerators_7 :
    let s : State := State.reset
    let a : Access := ⟨0, 0⟩
    let d : Nat := 0
    let n : Nat := 63
    let r := Reg.SILENCE_LA d n
    (reachesReg s a r = true) ∧ (n < 64) := by decide +kernel
theorem witness_MetersSilenceAndGenerators_8 :
    let s : State := setKern (setPodX { State.reset with phase := .tick } 0 7 { PodX.zero with wakeIn := some 0 }) 0 143 { Kern.zero with st := .parked }
    let d : Nat := 0
    let p : Nat := 7
    (s.wf = true) ∧ (d < dieCount s.part) ∧ (p < 8) ∧ ((podX s d p).wakeIn = some 0) ∧ (s.phase = .tick) ∧
    (domOn s d (pdPod p) = true) := by decide +kernel
theorem witness_MetersSilenceAndGenerators_9 :
    let s : State := setReg (setReg State.reset (Reg.SILENCE_SEL 0) 41) (Reg.SILENCE_PARK_DET 0 7) 0x000F0003
    let a : Access := ⟨0, 0⟩
    let d : Nat := 0
    let p : Nat := 7
    (s.wf = true) ∧ (reachesReg s a (Reg.SILENCE_DATA d) = true) ∧ (p < 8) := by decide +kernel
theorem witness_MetersSilenceAndGenerators_10 :
    let s : State := State.reset
    let a : Access := ⟨0, 0⟩
    let d : Nat := 0
    let p : Nat := 7
    let cfg : Bool := false
    (s.wf = true) ∧ (reachesReg s a (if cfg then Reg.SILENCE_PARK_CFG d p else Reg.SILENCE_PARK_DET d p) = true) ∧ (p < 8) := by decide +kernel
theorem witness_MetersSilenceAndGenerators_11 :
    let s : State := setPodX (setFld (setFld { State.reset with phase := .commit } (Reg.PULSE_CTL 0) F.PULSE_CTL_RUN 1) (Reg.SILENCE_PARK_STAT 0 7) F.SILENCE_PARK_STAT_PARKED 1) 0 7 { PodX.zero with woken := true }
    let d : Nat := 0
    let p : Nat := 7
    (s.wf = true) ∧ (d < dieCount s.part) ∧ (p < 8) ∧ (running s = true) ∧ (s.phase = .commit) ∧ (trackOwed s = false) ∧
    (bitF s (Reg.PULSE_CTL 0) F.PULSE_CTL_RUN = true) ∧ (domLive s d pdStew = true) ∧
    (bitF s (Reg.SILENCE_PARK_STAT d p) F.SILENCE_PARK_STAT_PARKED = true) ∧ ((podX s d p).woken = true) ∧
    ((podX s d p).wakeIn = none) := by decide +kernel
theorem witness_MetersSilenceAndGenerators_12 :
    let s : State := State.reset
    let a : Access := ⟨0, 0⟩
    let d : Nat := 0
    let n : Nat := 63
    (s.wf = true) ∧ (reachesReg s a (Reg.SILENCE_LA d n) = true) ∧ (n < 64) := by decide +kernel
theorem witness_MetersSilenceAndGenerators_13 :
    let s : State := setReg (setFld { State.reset with phase := .commit } (Reg.PULSE_CTL 0) F.PULSE_CTL_RUN 1) (Reg.SILENCE_LA 0 63) 0x80000005
    let d : Nat := 0
    let n : Nat := 63
    (s.wf = true) ∧ (d < dieCount s.part) ∧ (n < 64) ∧ (running s = true) ∧ (s.phase = .commit) ∧ (trackOwed s = false) ∧
    (bitF s (Reg.PULSE_CTL 0) F.PULSE_CTL_RUN = true) ∧ (domLive s d pdStew = true) := by decide +kernel
theorem witness_MetersSilenceAndGenerators_14 :
    let s : State := setFld (setFld { State.reset with phase := .tick } (Reg.GEN_CFG 0 7) F.GEN_CFG_MODE 1) (Reg.GEN_FREQ1 0 7) F.GEN_FREQ1_FREQ 5
    let a : Access := ⟨0, 0⟩
    let d : Nat := 0
    let c : Nat := 7
    (reachesReg s a (Reg.GEN_CTL d c) = true) ∧ (c < 8) ∧ (genState s d c = genIdle) := by decide +kernel
theorem witness_MetersSilenceAndGenerators_15 :
    let s : State := setFld State.reset (Reg.GEN_STATC 0 7) F.GEN_STATC_STATE genRunning
    let a : Access := ⟨0, 0⟩
    let d : Nat := 0
    let c : Nat := 7
    (reachesReg s a (Reg.GEN_CTL d c) = true) ∧ (c < 8) := by decide +kernel
theorem witness_MetersSilenceAndGenerators_16 :
    let s : State := setGen (setFld State.reset (Reg.GEN_STATC 0 7) F.GEN_STATC_STATE genArmed) 0 7 { Gen.zero with trig := .met }
    let d : Nat := 0
    let c : Nat := 7
    (s.wf = true) ∧ (d < dieCount s.part) ∧ (c < 8) ∧ (genState s d c = genArmed) ∧ ((gen s d c).trig = .met) := by decide +kernel
theorem witness_MetersSilenceAndGenerators_17 :
    let s : State := setGen (setFld State.reset (Reg.GEN_STATC 0 7) F.GEN_STATC_STATE genRunning) 0 7 { Gen.zero with ended := true }
    let d : Nat := 0
    let c : Nat := 7
    (s.wf = true) ∧ (d < dieCount s.part) ∧ (c < 8) ∧ (genState s d c = genRunning) ∧ ((gen s d c).ended = true) := by decide +kernel
theorem witness_LinkTraining_1 :
    let s : State := State.reset
    let a : Access := ⟨0, 0⟩
    let d : Nat := 0
    let r := Reg.LINK_CTL d
    reachesReg s a r = true := by decide +kernel
theorem witness_LinkTraining_2 :
    let s : State := setFld (setFld (State.reset) (Reg.LINK_STAT 0) F.LINK_STAT_STATE 7) (Reg.LINK_CTL 0) F.LINK_CTL_EN 1
    let a : Access := ⟨0, 0⟩
    let d : Nat := 0
    (reachesReg s a (Reg.LINK_CTL d) = true) ∧ (bitF s (Reg.LINK_CTL d) F.LINK_CTL_EN = true) := by decide +kernel
theorem witness_LinkTraining_3 :
    let s : State := State.reset
    let a : Access := ⟨0, 0⟩
    let d : Nat := 0
    reachesReg s a (Reg.LINK_CTL d) = true := by decide +kernel
theorem witness_LinkTraining_4 :
    let s : State := setFld (State.reset) (Reg.LINK_STAT 0) F.LINK_STAT_STATE 1
    let d : Nat := 0
    let ok : Bool := false
    (s.wf = true) ∧ (d < dieCount s.part) ∧ (domOn s d pdLink = true) ∧ ((linkPort s d).failed = false) ∧
    (padHeld s d pdLink = false ∨ ok = false) ∧ (portState s d = 1) := by decide +kernel
theorem witness_LinkTraining_5 :
    let s : State := setFld (State.reset) (Reg.LINK_STAT 0) F.LINK_STAT_STATE 2
    let d : Nat := 0
    let ok : Bool := true
    (s.wf = true) ∧ (d < dieCount s.part) ∧ (domOn s d pdLink = true) ∧ ((linkPort s d).failed = false) ∧
    (padHeld s d pdLink = false ∨ ok = false) ∧ (portState s d = 2) := by decide +kernel
theorem witness_LinkTraining_6 :
    let s : State := setFld (State.reset) (Reg.LINK_STAT 0) F.LINK_STAT_STATE 3
    let d : Nat := 0
    (s.wf = true) ∧ (d < dieCount s.part) ∧ (domOn s d pdLink = true) ∧ ((linkPort s d).failed = false) ∧
    (padHeld s d pdLink = false) ∧ (portState s d = 3) := by decide +kernel
theorem witness_LinkTraining_7 :
    let s : State := setFld (State.reset) (Reg.LINK_STAT 0) F.LINK_STAT_STATE 4
    let d : Nat := 0
    let ok : Bool := false
    (s.wf = true) ∧ (d < dieCount s.part) ∧ (domOn s d pdLink = true) ∧ ((linkPort s d).failed = false) ∧
    (padHeld s d pdLink = false ∨ ok = false) ∧ (portState s d = 4) := by decide +kernel
theorem witness_LinkTraining_8 :
    let s : State := setFld (State.reset) (Reg.LINK_STAT 0) F.LINK_STAT_STATE 5
    let d : Nat := 0
    (s.wf = true) ∧ (d < dieCount s.part) ∧ (domOn s d pdLink = true) ∧ ((linkPort s d).failed = false) ∧
    (padHeld s d pdLink = false) ∧ (portState s d = 5) := by decide +kernel
theorem witness_LinkTraining_9 :
    let s : State := setFld (State.reset) (Reg.LINK_STAT 0) F.LINK_STAT_STATE 6
    let d : Nat := 0
    (s.wf = true) ∧ (d < dieCount s.part) ∧ (domOn s d pdLink = true) ∧ ((linkPort s d).failed = false) ∧
    (padHeld s d pdLink = false) ∧ (portState s d = 6) := by decide +kernel
theorem witness_LinkTraining_10 :
    let s : State := setFld (setLinkPort (setFld (State.reset) (Reg.LINK_STAT 0) F.LINK_STAT_STATE 2) 0 { LinkPort.zero with failed := true }) (Reg.LINK_CTL 0) F.LINK_CTL_EN 1
    let d : Nat := 0
    (s.wf = true) ∧ (d < dieCount s.part) ∧ ((linkPort s d).failed = true) ∧ (domOn s d pdLink = true) ∧
    (bitF s (Reg.LINK_CTL d) F.LINK_CTL_EN = true) := by decide +kernel
theorem witness_LinkTraining_11 :
    let s : State := setFld (State.reset) (Reg.LINK_STAT 0) F.LINK_STAT_STATE 7
    let d : Nat := 0
    let cause : Nat := 1
    (s.wf = true) ∧ (d < dieCount s.part) ∧ (linkUp s d = true) ∧ (cause < 2 ∨ (cause = 2 ∧ 8 ≤ (linkPort s d).fails)) := by decide +kernel
theorem witness_LinkTraining_12 :
    let s : State := setLinkPort (setFld (State.reset) (Reg.LINK_STAT 0) F.LINK_STAT_STATE 7) 0 { LinkPort.zero with frameNo := 4097 }
    let d : Nat := 0
    (s.wf = true) ∧ (d < dieCount s.part) ∧ (linkUp s d = true) ∧ (4096 ≤ (linkPort s d).frameNo) := by decide +kernel
theorem witness_LinkTraining_13 :
    let s : State := setFld (State.reset) (Reg.LINK_STAT 0) F.LINK_STAT_STATE 7
    let d : Nat := 0
    (d < dieCount s.part) ∧ (domOn s d pdLink = true) ∧ (portState s d = 6 ∨ portState s d = 7) := by decide +kernel
theorem witness_LinkTraining_14 :
    let s : State := State.reset
    let a : Access := ⟨0, 0⟩
    let r := Reg.LINK_ID 0
    reachesReg s a r = true := by decide +kernel
theorem witness_LinkTraining_15 :
    let s : State := setFld State.reset (Reg.PWR_PADSTAT 0) F.PWR_PADSTAT_HELD 4
    let d : Nat := 0
    (d < dieCount s.part) ∧ (padHeld s d pdLink = true) := by decide +kernel
theorem witness_LinkFrames_1 :
    let s : State := { (setFld (State.reset) (Reg.LINK_STAT 0) F.LINK_STAT_STATE 7) with phase := .tick }
    let d : Nat := 0
    let bs : List LinkBlock := W.blocks
    let f : Frame := ⟨0, 0, 16, 5, 0, 0xFFFFFFFF, 0, 0, 0, false, 0, 0, []⟩
    (s.wf = true) ∧ (d < dieCount s.part) ∧ (linkUp s d = true) ∧ (padHeld s d pdLink = false) ∧ (pulseRuns s = true) ∧
    (readHead bs = some f) ∧ (frameFits s f.num = true) ∧ (alGet f.num (linkPort s d).frames = none) := by decide +kernel
theorem witness_LinkFrames_2 :
    let s : State := setFld (State.reset) (Reg.LINK_STAT 0) F.LINK_STAT_STATE 7
    let d : Nat := 0
    let bs : List LinkBlock := W.blocks
    let f : Frame := ⟨0, 0, 16, 5, 0, 0xFFFFFFFF, 0, 0, 0, false, 0, 0, []⟩
    (s.wf = true) ∧ (d < dieCount s.part) ∧ (linkUp s d = true) ∧ (padHeld s d pdLink = false) ∧ (pulseRuns s = false) ∧
    (readHead bs = some f) := by decide +kernel
theorem witness_LinkFrames_3 :
    let s : State := { (setFld (State.reset) (Reg.LINK_STAT 0) F.LINK_STAT_STATE 7) with phase := .tick }
    let d : Nat := 0
    let num : Nat := 0xFFFFFFFF
    (s.wf = true) ∧ (d < dieCount s.part) ∧ (linkUp s d = true) ∧ (padHeld s d pdLink = false) ∧ (pulseRuns s = true) ∧
    (frameFits s num = true) ∧ (alGet num (linkPort s d).frames = none) := by decide +kernel
theorem witness_LinkFrames_4 :
    let s : State := setFld (State.reset) (Reg.LINK_STAT 0) F.LINK_STAT_STATE 7
    let d : Nat := 0
    (s.wf = true) ∧ (d < dieCount s.part) ∧ (pulseRuns s = false) ∧ (linkUp s d = true) ∧ (running s = true) := by decide +kernel
theorem witness_LinkFrames_5 :
    let s : State := State.reset
    let a : Access := ⟨0, 0⟩
    let d : Nat := 0
    let r := Reg.LINK_TSWAP d
    reachesReg s a r = true := by decide +kernel
theorem witness_LinkFrames_6 :
    let s : State := setLinkPort State.reset 0 { LinkPort.zero with change := some (5, true) }
    let d : Nat := 0
    (d < dieCount s.part) ∧ (isMet (linkPort s d).change = true) := by decide +kernel
theorem witness_LinkFrames_7 :
    let s : State := State.reset
    let a : Access := ⟨0, 0⟩
    let r := Reg.LINK_RTSWAP 0
    reachesReg s a r = true := by decide +kernel
theorem witness_LinkFrames_8 :
    let s : State := { State.reset with linkDev := { State.reset.linkDev with change := some (5, true) } }
    (s.wf = true) ∧ (isMet s.linkDev.change = true) := by decide +kernel
theorem witness_LinkFrames_9 :
    let s : State := setLinkPort State.reset 0 { LinkPort.zero with heldPk := [(⟨7, false, false, 1, 0, 9, 5, 0, 0, 0, [], false⟩, 0)] }
    (s.wf = true) ∧ (((dies s).any fun d => (linkPort s d).heldPk.any (mayLeave s)) = true) := by decide +kernel
theorem witness_LinkFrames_10 :
    let s : State := { setFld State.reset (Reg.LINK_GMSTAT 0) F.LINK_GMSTAT_TSTATE tAcq with linkDev := { State.reset.linkDev with calm := 1024 } }
    (timeState s = tAcq) ∧ (1024 ≤ s.linkDev.calm) := by decide +kernel
theorem witness_LinkLanes_1 :
    let s : State := setLinkPort (setFld (State.reset) (Reg.LINK_STAT 0) F.LINK_STAT_STATE 7) 0 { LinkPort.zero with lerr := [0, 300, 0] }
    let d : Nat := 0
    let lane : Nat := 1
    let hs : List Nat := []
    let ts : List (LinkBlock × Nat) := []
    let u := windowEnd s d lane hs ts
    let x := linkPort u d
    let n := x.lerr.getD lane 0
    let r := Reg.LINK_LANE d
    (d < dieCount s.part) ∧ (linkUp s d = true) ∧ fld u r F.LINK_LANE_RXSP ≠ lane ∧
    (fld u r F.LINK_LANE_RXL0 = lane ∨ fld u r F.LINK_LANE_RXL1 = lane) ∧
    (fld u r F.LINK_LANE_THR < n ∨ x.spareAgain = some lane) ∧ fld u r F.LINK_LANE_RXSP ≠ 3 ∧ (x.spareBad = false) ∧
    (x.spare = none) := by decide +kernel
theorem witness_LinkLanes_2 :
    let s : State := setFld (setLinkPort (setFld (State.reset) (Reg.LINK_STAT 0) F.LINK_STAT_STATE 7) 0 { LinkPort.zero with lerr := [0, 300, 0] }) (Reg.LINK_LANE 0) F.LINK_LANE_RXSP 3
    let d : Nat := 0
    let lane : Nat := 1
    let hs : List Nat := []
    let ts : List (LinkBlock × Nat) := []
    let u := windowEnd s d lane hs ts
    let x := linkPort u d
    let n := x.lerr.getD lane 0
    let r := Reg.LINK_LANE d
    (d < dieCount s.part) ∧ (linkUp s d = true) ∧ (lane < 3) ∧
    (fld u r F.LINK_LANE_RXL0 = lane ∨ fld u r F.LINK_LANE_RXL1 = lane) ∧ (fld u r F.LINK_LANE_THR < n) ∧
    (fld u r F.LINK_LANE_RXSP = 3) := by decide +kernel
theorem witness_LinkLanes_3 :
    let s : State := setLinkPort (setFld (State.reset) (Reg.LINK_STAT 0) F.LINK_STAT_STATE 7) 0 { LinkPort.zero with lerr := [0, 300, 0] }
    let d : Nat := 0
    let lane : Nat := 2
    let hs : List Nat := []
    let ts : List (LinkBlock × Nat) := []
    let u := windowEnd s d lane hs ts
    let r := Reg.LINK_LANE d
    (d < dieCount s.part) ∧ (linkUp s d = true) ∧ (fld u r F.LINK_LANE_RXSP = lane) := by decide +kernel
theorem witness_LinkLanes_4 :
    let s : State := setLinkPort (setFld (State.reset) (Reg.LINK_STAT 0) F.LINK_STAT_STATE 7) 0 { LinkPort.zero with spare := some (1, 8, false) }
    let d : Nat := 0
    let lane : Nat := 1
    let f : Nat := 8
    let x := linkPort s d
    (d < dieCount s.part) ∧ (linkUp s d = true) ∧ (x.spare = some (lane, f, false)) := by decide +kernel
theorem witness_LinkLanes_5 :
    let s : State := setFld (State.reset) (Reg.LINK_STAT 0) F.LINK_STAT_STATE 7
    let d : Nat := 0
    let lane : Nat := 1
    let x := linkPort s d
    let r := Reg.LINK_LANE d
    (d < dieCount s.part) ∧ (linkUp s d = true) ∧ fld s r F.LINK_LANE_TXSP ≠ 3 ∧ (x.txSpare = none) ∧
    (fld s r F.LINK_LANE_TXL0 = lane ∨ fld s r F.LINK_LANE_TXL1 = lane) := by decide +kernel
theorem witness_LinkLanes_6 :
    let s : State := setReg (setLinkPort State.reset 0 { LinkPort.zero with txSpare := some (1, 8) }) (Reg.PULSE_COUNT_LO 0) 9
    let d : Nat := 0
    let lane : Nat := 1
    let f : Nat := 8
    let x := linkPort s d
    (d < dieCount s.part) ∧ (x.txSpare = some (lane, f)) ∧ (frameReached s f = true) := by decide +kernel
theorem witness_LinkLanes_7 :
    let s : State := setReg (setLinkPort State.reset 0 { LinkPort.zero with spare := some (1, 8, true) }) (Reg.PULSE_COUNT_LO 0) 9
    let d : Nat := 0
    let lane : Nat := 1
    let f : Nat := 8
    let x := linkPort s d
    (d < dieCount s.part) ∧ (x.spare = some (lane, f, true)) ∧ (frameReached s f = true) := by decide +kernel
theorem witness_LinkLanes_8 :
    let s : State := setReg (setLinkPort State.reset 0 { LinkPort.zero with spare := some (1, 8, false) }) (Reg.PULSE_COUNT_LO 0) 7
    let d : Nat := 0
    let lane : Nat := 1
    let f : Nat := 8
    let x := linkPort s d
    (d < dieCount s.part) ∧ (x.spare = some (lane, f, false)) ∧ (frameReached s (f + 2 ^ 32 - 2) = true) := by decide +kernel
theorem witness_LinkPackets_1 :
    let s : State := setLinkPort (setFld (State.reset) (Reg.LINK_STAT 0) F.LINK_STAT_STATE 7) 0 { LinkPort.zero with own := [⟨1, false, false, 4, 1, 0, 9, 3, 0x1000, 0, [], false⟩] }
    let d : Nat := 0
    let a : Arrival := .own
    let p : Packet := ⟨1, false, false, 4, 1, 0, 9, 3, 0x1000, 0, [], false⟩
    (d < dieCount s.part) ∧ (delivered s d a pkRdreq false = some p) := by decide +kernel
theorem witness_LinkPackets_2 :
    let s : State := setLinkPort (setFld (State.reset) (Reg.LINK_STAT 0) F.LINK_STAT_STATE 7) 0 { LinkPort.zero with own := [⟨2, false, false, 4, 1, 0, 9, 3, 0x1000, 0, [7], false⟩] }
    let d : Nat := 0
    let a : Arrival := .own
    let p : Packet := ⟨2, false, false, 4, 1, 0, 9, 3, 0x1000, 0, [7], false⟩
    let aged : Bool := false
    (d < dieCount s.part) ∧ (delivered s d a pkWrreq aged = some p) := by decide +kernel
theorem witness_LinkPackets_3 :
    let s : State := setLinkPort (setFld (State.reset) (Reg.LINK_STAT 0) F.LINK_STAT_STATE 7) 0 { LinkPort.zero with own := [⟨3, false, false, 4, 1, 0, 9, 3, 0x1000, 0, [7], false⟩], tag := 4, wait := some (3, false) }
    let d : Nat := 0
    let a : Arrival := .own
    let p : Packet := ⟨3, false, false, 4, 1, 0, 9, 3, 0x1000, 0, [7], false⟩
    (d < dieCount s.part) ∧ (delivered s d a pkRdrsp false = some p) := by decide +kernel
theorem witness_LinkPackets_4 :
    let s : State := setLinkPort (setFld (State.reset) (Reg.LINK_STAT 0) F.LINK_STAT_STATE 7) 0 { LinkPort.zero with own := [⟨4, false, false, 4, 1, 0, 9, 3, 0x1000, 0, [], false⟩], tag := 4, wait := some (3, true) }
    let d : Nat := 0
    let a : Arrival := .own
    let p : Packet := ⟨4, false, false, 4, 1, 0, 9, 3, 0x1000, 0, [], false⟩
    (d < dieCount s.part) ∧ (delivered s d a pkWrack false = some p) := by decide +kernel
theorem witness_LinkPackets_5 :
    let s : State := setLinkPort (setFld (State.reset) (Reg.LINK_STAT 0) F.LINK_STAT_STATE 7) 0 { LinkPort.zero with own := [⟨5, false, false, 4, 2, 0, 9, 3, 0x1000, 0, [0x10000000, 500], false⟩] }
    let d : Nat := 0
    let a : Arrival := .own
    let p : Packet := ⟨5, false, false, 4, 2, 0, 9, 3, 0x1000, 0, [0x10000000, 500], false⟩
    let aged : Bool := false
    (d < dieCount s.part) ∧ (delivered s d a pkSwap aged = some p) ∧ (wField (p.data.getD 0 0) 31 28 = 1) := by decide +kernel
theorem witness_LinkPackets_6 :
    let s : State := setLinkPort (setFld (State.reset) (Reg.LINK_STAT 0) F.LINK_STAT_STATE 7) 0 { LinkPort.zero with own := [⟨5, false, false, 4, 2, 0, 9, 3, 0x1000, 0, [0x40000000, 500], false⟩] }
    let d : Nat := 0
    let a : Arrival := .own
    let p : Packet := ⟨5, false, false, 4, 2, 0, 9, 3, 0x1000, 0, [0x40000000, 500], false⟩
    let aged : Bool := false
    (d < dieCount s.part) ∧ (delivered s d a pkSwap aged = some p) ∧ wField (p.data.getD 0 0) 31 28 ≠ 1 := by decide +kernel
theorem witness_LinkPackets_7 :
    let s : State := setLinkPort (setFld (State.reset) (Reg.LINK_STAT 0) F.LINK_STAT_STATE 7) 0 { LinkPort.zero with own := [⟨6, false, false, 4, 2, 0, 9, 3, 0x1000, 0, [3, 500], false⟩] }
    let d : Nat := 0
    let a : Arrival := .own
    let p : Packet := ⟨6, false, false, 4, 2, 0, 9, 3, 0x1000, 0, [3, 500], false⟩
    let aged : Bool := false
    (d < dieCount s.part) ∧ (delivered s d a pkStart aged = some p) := by decide +kernel
theorem witness_LinkPackets_8 :
    let s : State := setLinkPort (setFld (State.reset) (Reg.LINK_STAT 0) F.LINK_STAT_STATE 7) 0 { LinkPort.zero with own := [⟨7, false, false, 4, 1, 0, 9, 3, 0x1000, 0, [3], false⟩] }
    let d : Nat := 0
    let a : Arrival := .own
    let p : Packet := ⟨7, false, false, 4, 1, 0, 9, 3, 0x1000, 0, [3], false⟩
    let aged : Bool := false
    (d < dieCount s.part) ∧ (delivered s d a pkHost aged = some p) := by decide +kernel
theorem witness_LinkPackets_9 :
    let s : State := setLinkPort (setFld (State.reset) (Reg.LINK_STAT 0) F.LINK_STAT_STATE 7) 0 { LinkPort.zero with own := [⟨7, false, false, 4, 1, 12, 9, 3, 0x1000, 0, [3], false⟩] }
    let d : Nat := 0
    let a : Arrival := .own
    let p : Packet := ⟨7, false, false, 4, 1, 12, 9, 3, 0x1000, 0, [3], false⟩
    let aged : Bool := false
    (d < dieCount s.part) ∧ (running s = true) ∧ a ≠ .waiting ∧ (arrival s d a = some p) ∧
    (malformed p = true ∨ (if p.bcast then repeated s p aged = true else p.dst ≠ linkId s)) := by decide +kernel
theorem witness_LinkPackets_10 :
    let s : State := setFld (State.reset) (Reg.LINK_STAT 0) F.LINK_STAT_STATE 7
    let d : Nat := 0
    let a : Arrival := .blocks 112 [0]
    (d < dieCount s.part) ∧ (running s = true) ∧ a ≠ .waiting ∧ (arrival s d a = none) := by decide +kernel
theorem witness_LinkPackets_11 :
    let s : State := setLinkPort State.reset 0 { LinkPort.zero with queue := [⟨7, false, false, 4, 1, 12, 9, 3, 0x1000, 0, [3], false⟩] }
    let d : Nat := 0
    let i : Nat := 0
    let x := linkPort s d
    (d < dieCount s.part) ∧ (i < x.queue.length) := by decide +kernel
theorem witness_LinkPackets_12 :
    let s : State := setLinkPort State.reset 0 { LinkPort.zero with heldPk := [(⟨7, false, false, 4, 1, 12, 9, 3, 0x1000, 0, [3], false⟩, 0)] }
    let d : Nat := 0
    let i : Nat := 0
    let x := linkPort s d
    (d < dieCount s.part) ∧ (x.queue.length ≤ i) ∧ (i < x.queue.length + x.heldPk.length) := by decide +kernel
theorem witness_LinkPackets_13 :
    let s : State := State.reset
    let a : Access := ⟨0, 0⟩
    let d : Nat := 0
    let r := Reg.LINK_RCMD d
    reachesReg s a r = true := by decide +kernel
theorem witness_LinkPackets_14 :
    let s : State := setTab (setFld (setFld (State.reset) (Reg.LINK_STAT 0) F.LINK_STAT_STATE 7) (Reg.LINK_RDST 0) F.LINK_RDST_DST 77) tRoute 0 333 0x80000000
    let a : Access := ⟨0, 0⟩
    let d : Nat := 0
    let words : Nat := 32
    let e : Nat := 0
    let write : Bool := true
    let v : Word := 0x80000000 ||| fieldIs F.LINK_RCMD_WRITE write.toNat ||| fieldIs F.LINK_RCMD_WORDS words
    let p := remotePacket s d v
    (reachesReg s a (Reg.LINK_RCMD d) = true) ∧ ((linkPort s d).wait = none) ∧
    (bitF s (Reg.LINK_RDST d) F.LINK_RDST_BCAST = false) ∧ p.dst ≠ linkId s ∧ (routePort s p.dst = some e) ∧
    (holdTicks s e p = 0) ∧ (((linkPort s e).heldPk.any fun q => q.1.src = p.src && q.1.dst = p.dst) = false) := by decide +kernel
theorem witness_LinkPackets_15 :
    let s : State := State.reset
    let a : Access := ⟨0, 0⟩
    let d : Nat := 0
    let words : Nat := 32
    let write : Bool := false
    let v : Word := 0x80000000 ||| fieldIs F.LINK_RCMD_WRITE write.toNat ||| fieldIs F.LINK_RCMD_WORDS words
    let p := remotePacket s d v
    (reachesReg s a (Reg.LINK_RCMD d) = true) ∧ ((linkPort s d).wait = none) ∧
    (bitF s (Reg.LINK_RDST d) F.LINK_RDST_BCAST = false) ∧ (p.dst = linkId s) := by decide +kernel
theorem witness_LinkPackets_16 :
    let s : State := setFld State.reset (Reg.LINK_RDST 0) F.LINK_RDST_DST 77
    let a : Access := ⟨0, 0⟩
    let d : Nat := 0
    let words : Nat := 0
    let write : Bool := false
    let v : Word := 0x80000000 ||| fieldIs F.LINK_RCMD_WRITE write.toNat ||| fieldIs F.LINK_RCMD_WORDS words
    let p := remotePacket s d v
    (reachesReg s a (Reg.LINK_RCMD d) = true) ∧ ((linkPort s d).wait = none) ∧
    (bitF s (Reg.LINK_RDST d) F.LINK_RDST_BCAST = false) ∧ p.dst ≠ linkId s ∧ (routePort s p.dst = none) := by decide +kernel
theorem witness_LinkPackets_17 :
    let s : State := setFld (setFld (setFld (State.reset) (Reg.LINK_STAT 0) F.LINK_STAT_STATE 7) (Reg.LINK_RDST 0) F.LINK_RDST_BCAST 1) (Reg.LINK_RDST 0) F.LINK_RDST_SCOPE 1
    let a : Access := ⟨0, 0⟩
    let d : Nat := 0
    (reachesReg s a (Reg.LINK_RCMD d) = true) ∧ ((linkPort s d).wait = none) ∧
    (bitF s (Reg.LINK_RDST d) F.LINK_RDST_BCAST = true) := by decide +kernel
theorem witness_LinkPackets_18 :
    let s : State := setLinkPort State.reset 0 { LinkPort.zero with wait := some (3, false) }
    let a : Access := ⟨0, 0⟩
    let d : Nat := 0
    let r := Reg.LINK_RCMD d
    (reachesReg s a r = true) ∧ ((linkPort s d).wait.isSome = true) := by decide +kernel
theorem witness_LinkPackets_19 :
    let s : State := setLinkPort State.reset 0 { LinkPort.zero with wait := some (3, false) }
    let d : Nat := 0
    (d < dieCount s.part) ∧ ((linkPort s d).wait.isSome = true) := by decide +kernel
theorem witness_LinkPackets_20 :
    let s : State := setLinkPort State.reset 0 { LinkPort.zero with wait := some (3, false) }
    let d : Nat := 0
    (s.wf = true) ∧ (d < dieCount s.part) ∧ ((linkPort s d).wait.isSome = true) := by decide +kernel
theorem witness_LinkPackets_21 :
    let s : State := State.reset
    let a : Access := ⟨0, 0⟩
    let d : Nat := 0
    let r := Reg.LINK_START d
    reachesReg s a r = true := by decide +kernel
theorem witness_LinkPackets_22 :
    let s : State := setFld (State.reset) (Reg.LINK_STAT 0) F.LINK_STAT_STATE 7
    let a : Access := ⟨0, 0⟩
    let d : Nat := 0
    let num : Nat := 15
    (reachesReg s a (Reg.LINK_START d) = true) ∧ (num < 16) := by decide +kernel
theorem witness_CspController_1 :
    let s : State := State.reset
    let a : Access := ⟨0, 0⟩
    let d : Nat := 0
    let n : Nat := 5
    let r := Reg.CSP_D d (n - 1)
    (reachesReg s a r = true) ∧ (1 ≤ n) ∧ (n ≤ 5) := by decide +kernel
theorem witness_CspController_2 :
    let s : State := State.reset
    let a : Access := ⟨0, 0⟩
    let d : Nat := 0
    reachesReg s a (Reg.CSP_D0 d) = true := by decide +kernel
theorem witness_CspController_3 :
    let s : State := State.reset
    let a : Access := ⟨0, 0⟩
    let d : Nat := 0
    let r := Reg.CSP_CTL d
    reachesReg s a r = true := by decide +kernel
theorem witness_CspController_4 :
    let s : State := setCsp State.reset 0 { Csp.zero with queue := [[0x10000008, 0, 0, 0, 0, 0]] }
    let a : Access := ⟨0, 0⟩
    let d : Nat := 0
    reachesReg s a (Reg.CSP_CTL d) = true := by decide +kernel
theorem witness_CspController_5 :
    let s : State := setFld (setCsp State.reset 0 { Csp.zero with queue := [[0x10000008, 0, 0, 0, 0, 0]] }) (Reg.CSP_CTL 0) F.CSP_CTL_EN 1
    let d : Nat := 0
    let e : List Word := [0x10000008, 0, 0, 0, 0, 0]
    let rest : List (List Word) := []
    let x := csp s d
    (s.wf = true) ∧ (d < dieCount s.part) ∧ (x.queue = e :: rest) ∧ (cspOn s d = true) ∧
    (bitF s (Reg.CSP_CTL d) F.CSP_CTL_EN = true) ∧ (x.busy = none) ∧ (bitF s (Reg.CSP_STAT d) F.CSP_STAT_MODF = false) ∧
    (bitF s (Reg.CSP_CFG d) F.CSP_CFG_ROLE = false) ∧ (cspOpen s d (cspTxAddr e) (bitBytes (cspTxBits e)) = true) := by decide +kernel
theorem witness_CspController_6 :
    let s : State := setCsp State.reset 0 { Csp.zero with busy := some [0x10000008, 0, 0, 0, 0, 0] }
    let d : Nat := 0
    let e : List Word := [0x10000008, 0, 0, 0, 0, 0]
    let x := csp s d
    (s.wf = true) ∧ (d < dieCount s.part) ∧ (padHeld s d pdStew = false) ∧ (x.busy = some e) ∧ (cspOn s d = true) ∧
    (cspOpen s d (cspRxAddr e) (bitBytes (cspRxBits e)) = true) := by decide +kernel
theorem witness_CspController_7 :
    let s : State := setCsp State.reset 0 { Csp.zero with busy := some [0x10000008, 0, 0, 0, 0, 0] }
    let d : Nat := 0
    let e : List Word := [0x10000008, 0, 0, 0, 0, 0]
    let x := csp s d
    (s.wf = true) ∧ (d < dieCount s.part) ∧ (padHeld s d pdStew = false) ∧ (x.busy = some e) ∧ (cspOn s d = true) ∧
    (cspOpen s d (cspRxAddr e) (bitBytes (cspRxBits e)) = true) := by decide +kernel
theorem witness_CspController_8 :
    let s : State := setFld (setCsp State.reset 0 { Csp.zero with busy := some [0x10000008, 0, 0, 0, 0, 0] }) (Reg.CSP_CFG 0) F.CSP_CFG_MMEN 1
    let d : Nat := 0
    let x := csp s d
    (s.wf = true) ∧ (d < dieCount s.part) ∧ (padHeld s d pdStew = false) ∧ (cspOn s d = true) ∧
    (bitF s (Reg.CSP_CFG d) F.CSP_CFG_MMEN = true) ∧ (bitF s (Reg.CSP_CFG d) F.CSP_CFG_ROLE = false) ∧
    (x.busy.isSome = true ∨ x.held.isSome = true) := by decide +kernel
theorem witness_CspController_9 :
    let s : State := setFld State.reset (Reg.CSP_STAT 0) F.CSP_STAT_MODF 1
    let a : Access := ⟨0, 0⟩
    let d : Nat := 0
    let r := Reg.CSP_STAT d
    reachesReg s a r = true := by decide +kernel
theorem witness_CspController_10 :
    let s : State := State.reset
    let a : Access := ⟨0, 0⟩
    let d : Nat := 0
    let v : Word := 3
    let r := Reg.CSP_CFG d
    let x := csp s d
    (reachesReg s a r = true) ∧ (bitF s (Reg.CSP_CTL d) F.CSP_CTL_EN = false) ∧ (x.queue = []) ∧
    (v.getLsbD 0 = false ∨ d = 0) := by decide +kernel
theorem witness_CspController_11 :
    let s : State := State.reset
    let a : Access := ⟨0, 0⟩
    let d : Nat := 1
    let v : Word := 3
    let r := Reg.CSP_CFG d
    let x := csp s d
    (reachesReg s a r = true) ∧ (bitF s (Reg.CSP_CTL d) F.CSP_CTL_EN = true ∨ x.queue ≠ [] ∨ (v.getLsbD 0 = true ∧ d ≠ 0)) := by decide +kernel
theorem witness_CspController_12 :
    let s : State := setFld State.reset (Reg.PWR_PADSTAT 0) F.PWR_PADSTAT_HELD 128
    let d : Nat := 0
    (d < dieCount s.part) ∧ (padHeld s d pdStew = true) := by decide +kernel
theorem witness_CspTarget_1 :
    let s : State := setFld (setCsp (State.reset) 0 { Csp.zero with tgt := none }) (Reg.CSP_CFG 0) F.CSP_CFG_ROLE 1
    (targetOn s = true) ∧ ((csp s 0).tgt = none) := by decide +kernel
theorem witness_CspTarget_2 :
    let s : State := setFld (setCsp (State.reset) 0 { Csp.zero with tgt := some .command }) (Reg.CSP_CFG 0) F.CSP_CFG_ROLE 1
    let cmd : Nat := 0x30
    (targetOn s = true) ∧ ((csp s 0).tgt = some .command) ∧ (cmd / 16 % 4 = 3 ∨ cmd % 16 ≠ 0) := by decide +kernel
theorem witness_CspTarget_3 :
    let s : State := setFld (setCsp (State.reset) 0 { Csp.zero with tgt := some .command }) (Reg.CSP_CFG 0) F.CSP_CFG_ROLE 1
    let cmd : Nat := 0xE0
    (targetOn s = true) ∧ ((csp s 0).tgt = some .command) ∧ cmd / 16 % 4 ≠ 3 ∧ (cmd % 16 = 0) := by decide +kernel
theorem witness_CspTarget_4 :
    let s : State := setFld (setCsp (State.reset) 0 { Csp.zero with tgt := (some (.xfer true true 4 0x100 7 2)) }) (Reg.CSP_CFG 0) F.CSP_CFG_ROLE 1
    let auto : Bool := true
    let width : Nat := 4
    let addr : Nat := 0x100
    let word : Nat := 7
    let count : Nat := 2
    (targetOn s = true) ∧ ((csp s 0).tgt = some (.xfer true auto width addr word count)) := by decide +kernel
theorem witness_CspTarget_5 :
    let s : State := setFld (setCsp (State.reset) 0 { Csp.zero with tgt := (some (.xfer false true 4 0x100 7 2)) }) (Reg.CSP_CFG 0) F.CSP_CFG_ROLE 1
    let auto : Bool := true
    let width : Nat := 4
    let addr : Nat := 0x100
    let word : Nat := 7
    let count : Nat := 2
    (targetOn s = true) ∧ ((csp s 0).tgt = some (.xfer false auto width addr word count)) := by decide +kernel
theorem witness_CspTarget_6 :
    let s : State := setCsp State.reset 0 { Csp.zero with wbuf := [(0x100, 4, 9)] }
    let e : Nat × Nat × Nat := (0x100, 4, 9)
    (csp s 0).wbuf = [e] := by decide +kernel
theorem witness_CspTarget_7 :
    let s : State := setFld (setCsp (State.reset) 0 { Csp.zero with tgt := some .command }) (Reg.CSP_CFG 0) F.CSP_CFG_ROLE 1
    (targetOn s = true) ∧ ((csp (drainWords s) 0).tgt = some .command) := by decide +kernel
theorem witness_CspTarget_8 :
    let s : State := setFld (setCsp (State.reset) 0 { Csp.zero with tgt := some .ignored }) (Reg.CSP_CFG 0) F.CSP_CFG_ROLE 1
    (targetOn s = true) ∧ ((csp (drainWords s) 0).tgt = some .ignored) := by decide +kernel
theorem witness_CspTarget_9 :
    let s : State := setFld (setCsp (State.reset) 0 { Csp.zero with tgt := (some (.xfer true true 4 0x100 7 2)) }) (Reg.CSP_CFG 0) F.CSP_CFG_ROLE 1
    let rd : Bool := true
    let auto : Bool := true
    let width : Nat := 4
    let addr : Nat := 0x100
    let word : Nat := 7
    let count : Nat := 2
    let u := drainWords s
    (targetOn s = true) ∧ ((csp u 0).tgt = some (.xfer rd auto width addr word count)) := by decide +kernel
theorem witness_CspTarget_10 :
    let s : State := setFld State.reset (Reg.PWR_PADSTAT 0) F.PWR_PADSTAT_HELD 128
    let cmd : Nat := 0xE0
    let addr : Nat := 0x103
    let v : Nat := 7
    let late : Bool := true
    let stalled : Bool := false
    let mid : Option Bool := some true
    let i : Instr := .cspTargetSelect
    (padHeld s 0 pdStew = true) ∧
    i ∈ [.cspTargetSelect, .cspTargetCommand cmd addr, .cspTargetReadWord late, .cspTargetWriteWord v stalled, .cspTargetRelease mid] := by decide +kernel

end Sys2Proof.Tests
end

section
/-! PROOFS. Reset (R14, R374, R375): the state that it leaves, the registers that it keeps, and what RESET_N does to the link wake
detector's mode in the WAKE page. -/
namespace Sys2Proof.Machine

variable {s : State}

/-! ### Reset values -/

/-- The row of a register depends on its page and offset alone. -/
theorem regRow_regA {d q o : Nat} (hq : q < 0x10000) (ho : o < 0x1000) :
    regRow (regA d q o) = (pageRows q).find? fun r => rowAt r o := by
  unfold regRow
  rw [addrPage_regA hq ho, addrOff_regA hq ho]

/-- But for the windows of the BUS page, a reset value depends on the die only by whether it is die 0. -/
theorem resetReg_regA_die (p : Part) {d q o : Nat} (hq : q < 0x10000) (ho : o < 0x1000) (hw : q ≠ 8 ∨ o < 0x40) :
    resetReg p (regA d q o) = resetReg p (regA (min d 1) q o) := by
  have hwin : (q = 8 && 0x40 ≤ o && o < 0x60 && o % 4 = 0) = false := by
    simp only [Bool.and_eq_false_iff, decide_eq_false_iff_not]; omega
  have hd : min d 1 = 0 ↔ d = 0 := by omega
  unfold resetReg
  simp only [addrDie_regA hq ho, addrPage_regA hq ho, addrOff_regA hq ho, regRow_regA hq ho, hwin, hd,
    Bool.false_eq_true, if_false]

/-- A value that the register of die 0 resets to, and one that those of the other dies reset to. -/
theorem reg_reset_regA {d q o : Nat} {w0 w1 : Word} (hq : q < 0x10000) (ho : o < 0x1000) (hw : q ≠ 8 ∨ o < 0x40)
    (h0 : resetReg .drl8 (regA 0 q o) = w0) (h1 : resetReg .drl8 (regA 1 q o) = w1) :
    reg State.reset (regA d q o) = if d = 0 then w0 else w1 := by
  change resetReg .drl8 (regA d q o) = _
  rw [resetReg_regA_die _ hq ho hw]
  rcases Nat.eq_zero_or_pos d with rfl | hd
  · exact h0
  · rw [if_neg (by omega), Nat.min_eq_right hd]; exact h1

/-- A value that the register resets to on every die. -/
theorem reg_reset_everyDie {d q o : Nat} {w : Word} (hq : q < 0x10000) (ho : o < 0x1000) (hw : q ≠ 8 ∨ o < 0x40)
    (h0 : resetReg .drl8 (regA 0 q o) = w) (h1 : resetReg .drl8 (regA 1 q o) = w) : reg State.reset (regA d q o) = w :=
  (reg_reset_regA hq ho hw h0 h1).trans (ite_self w)

/-- Steward 0 of die 0 runs after reset, and every other steward is HELD. -/
theorem stew_reset_st (d n : Nat) : (stew State.reset d n).st = if d = 0 ∧ n = 0 then .run else .held := by
  have hkey : d * 2 + n = 0 ↔ d = 0 ∧ n = 0 := by omega
  change (if d * 2 + n = 0 then SState.run else .held) = _
  simp only [hkey]

/-- Settles O21: every table of the reset state is empty. -/
theorem resetIsCanonical : Obligations.ResetIsCanonical := ⟨rfl, rfl⟩

/-- Settles O22: with empty tables every reader gives its default, and a register's default is the value of its table. -/
theorem resetLeaves : Obligations.ResetLeaves := by
  intro d n
  refine ⟨rfl, rfl, rfl, stew_reset_st d n, rfl, rfl, ?stewardCtl0, ?stewardCtl1, ?pulseCtl, ?govManual, fun _ => rfl,
    ?pulseStat, ?busCtl, by decide⟩
  case stewardCtl0 => exact reg_reset_regA (by decide) (by decide) (by decide) (by decide) (by decide)
  case stewardCtl1 => exact reg_reset_everyDie (by decide) (by decide) (by decide) (by decide) (by decide)
  case pulseCtl => exact reg_reset_everyDie (by decide) (by decide) (by decide) (by decide) (by decide)
  case govManual => exact reg_reset_everyDie (by decide) (by decide) (by decide) (by decide) (by decide)
  case pulseStat => exact reg_reset_everyDie (by decide) (by decide) (by decide) (by decide) (by decide)
  case busCtl => exact reg_reset_regA (by decide) (by decide) (by decide) (by decide) (by decide)

/-! ### The registers that a reset keeps -/

/-- The Keep domain's part of a reset keeps the canonical form. -/
theorem wf_keepOver (h : s.wf = true) : (keepOver s).wf = true := by
  unfold keepOver copyLmode
  split
  · exact State.wf_setFld (s := { s with linkDev := { s.linkDev with heard := [] } }) h _ _ _
  · exact h

/-- It is for the same part. -/
theorem keepOver_part (s : State) : (keepOver s).part = s.part := by
  unfold keepOver copyLmode
  split <;> rfl

/-- A reset of the dies keeps the registers of the WAKE page as the Keep domain's part of it leaves them, and returns every other
register to its reset value (R375). -/
theorem reg_assertReset (h : s.wf = true) (c r : Nat) :
    reg (assertReset s c) r = if keepReg r then reg (keepOver s) r else resetReg s.part r := by
  have hf : (assertReset s c).regs = smDrop (fun a => !keepReg a) (keepOver s).regs := by
    simp [assertReset, resetDies, smDrop]
  have hp : (assertReset s c).part = (keepOver s).part := rfl
  unfold reg
  rw [hp, hf, smGet_smDrop (State.wf_regs (wf_keepOver h)), keepOver_part]
  cases keepReg r <;> simp

/-- A reset that finds PD_LINK of die 0 ON copies the wake mode of the link port into WAKE_CTL (R426). -/
theorem reg_wakeCtl_assertReset (h : s.wf = true) (hrun : running s = true) (hon : domOn s 0 pdLink = true) (c : Nat) :
    reg (assertReset s c) (Reg.WAKE_CTL 0) =
      wSet (reg s (Reg.WAKE_CTL 0)) F.WAKE_CTL_LMODE (fld s (Reg.LINK_WAKE 0) F.LINK_WAKE_MODE) := by
  rw [reg_assertReset h, if_pos (by decide)]
  unfold keepOver copyLmode
  rw [hrun, hon]
  exact reg_setReg_same (s := { s with linkDev := { s.linkDev with heard := [] } }) h _ _

/-- The reset state with MODE of LINK_WAKE of die 0 set to 1, as a write of the link's firmware sets it. -/
def linkModeSet : State := setFld State.reset (Reg.LINK_WAKE 0) F.LINK_WAKE_MODE 1

/-- Refutes O24: not all of the WAKE page stays. In `linkModeSet` PD_LINK of die 0 is ON and LINK_WAKE.MODE is 1 while
WAKE_CTL.LMODE is 0; RESET_N takes the domain out of ON, and the copy that R426 asks for then sets LMODE to 1 (assumption
log 130), where the first clause has WAKE_CTL keep its value. -/
theorem not_packageReset : ¬ Obligations.PackageReset := by
  unfold Obligations.PackageReset
  rintro ⟨hassert, -⟩
  have hwf : linkModeSet.wf = true := State.wf_setFld rfl _ _ _
  obtain ⟨t, ht, -, -, -, -, -, -, -, -, hreg⟩ := hassert linkModeSet hwf (.inl rfl)
  obtain rfl : assertReset linkModeSet 1 = t := Host.Outcome.next.inj ht
  have hkept : reg (assertReset linkModeSet 1) (Reg.WAKE_CTL 0) = reg linkModeSet (Reg.WAKE_CTL 0) :=
    (hreg _).trans (if_pos (by decide))
  have hcopied := reg_wakeCtl_assertReset hwf rfl rfl 1
  exact absurd (hkept.symm.trans hcopied) (by decide)

end Sys2Proof.Machine
end

section
/-! PROOFS. The power domains brought in line with the votes (R411, R416, R421–R423): what that leaves as it was. -/
namespace Sys2Proof.Machine

variable {s t : State} {d : Nat}

/-- The registers of die `d` that a change of votes or targets can write: the records of refused and aborted entries, the
counts of queued targets, and the governor's point, which the start of an exit prepares. -/
def syncRegs (d : Nat) : List Nat :=
  [Reg.PWR_REFCNT d, Reg.PWR_EVT d, Reg.PWR_REFUSE d, Reg.PWR_QCNT d, Reg.GOV_STAT d]

/-- `t` is in canonical form and differs from `s` at most in those registers of die `d`, in its domains and in the hidden
records of its dies. -/
structure SyncFrame (d : Nat) (s t : State) : Prop where
  wf : t.wf = true
  regs : RegsBut s t (syncRegs d)
  rest : { t with regs := s.regs, doms := s.doms, dieX := s.dieX } = s

namespace SyncFrame

theorem refl (h : s.wf = true) : SyncFrame d s s := ⟨h, fun _ _ => rfl, rfl⟩

theorem setReg (h : SyncFrame d s t) {r : Nat} (hr : r ∈ syncRegs d) (w : Word) : SyncFrame d s (setReg t r w) := by
  obtain ⟨hwf, hregs, hrest⟩ := h
  refine ⟨State.wf_setReg hwf r w, fun b hb => ?_, hrest⟩
  rw [reg_setReg hwf, if_neg (ne_of_mem_of_not_mem hr hb).symm, hregs b hb]

theorem setFld (h : SyncFrame d s t) {r : Nat} (hr : r ∈ syncRegs d) (f : Fld) (v : Nat) : SyncFrame d s (setFld t r f v) :=
  h.setReg hr _

theorem satFld (h : SyncFrame d s t) {r : Nat} (hr : r ∈ syncRegs d) (f : Fld) : SyncFrame d s (satFld t r f) := by
  unfold Machine.satFld
  split
  · exact h.setFld hr f _
  · exact h

theorem setDom (h : SyncFrame d s t) (m : Nat) (x : DomX) : SyncFrame d s (setDom t d m x) := by
  obtain ⟨hwf, hregs, hrest⟩ := h
  exact ⟨State.wf_setDom hwf d m x, fun b hb => hregs b hb, hrest⟩

theorem setDieX (h : SyncFrame d s t) (x : DieX) : SyncFrame d s (setDieX t d x) := by
  obtain ⟨hwf, hregs, hrest⟩ := h
  exact ⟨State.wf_setDieX hwf d x, fun b hb => hregs b hb, hrest⟩

theorem noteEntry (h : SyncFrame d s t) (abort : Bool) (c m : Nat) : SyncFrame d s (noteEntry t d abort c m) := by
  have hnoted := (h.satFld (r := Reg.PWR_REFCNT d) (by simp [syncRegs])
    (if abort then F.PWR_REFCNT_ABORTED else F.PWR_REFCNT_REFUSED)).setFld (r := Reg.PWR_EVT d) (by simp [syncRegs])
    (if abort then F.PWR_EVT_ABORT else F.PWR_EVT_REFUSE) 1
  unfold Machine.noteEntry
  dsimp only
  split
  · exact hnoted
  · exact hnoted.setReg (by simp [syncRegs]) _

theorem setPoint (h : SyncFrame d s t) (vid : Nat) (bb : Int) : SyncFrame d s (setPoint t d vid bb) := by
  have hr : Reg.GOV_STAT d ∈ syncRegs d := by simp [syncRegs]
  exact ((h.setFld hr _ _).setFld hr _ _).setFld hr _ _

theorem govPrep (h : SyncFrame d s t) (target : Nat) : SyncFrame d s (govPrep t d target) := by
  unfold Machine.govPrep
  split
  · exact ((h.setPoint _ _).setFld (by simp [syncRegs]) _ _).setDieX _
  · exact h

theorem moveDom (h : SyncFrame d s t) (m : Nat) (x : DomX) : SyncFrame d s (moveDom t d m x) := by
  unfold Machine.moveDom exitPrep
  split
  · split
    · exact (h.setDom m x).govPrep _
    · exact h.setDom m x
  · exact h.setDom m x

theorem refuseEntry (h : SyncFrame d s t) (m c : Nat) : SyncFrame d s (refuseEntry t d m c) := by
  unfold Machine.refuseEntry
  dsimp only
  split
  · exact h
  · exact (h.setDom m _).noteEntry _ _ _

theorem recheckEntry (h : SyncFrame d s t) (m : Nat) : SyncFrame d s (recheckEntry d m t) := by
  unfold Machine.recheckEntry
  dsimp only
  split
  · exact (h.moveDom m _).refuseEntry _ _
  · exact h

theorem retarget (h : SyncFrame d s t) (wake : Option Nat) (m : Nat) : SyncFrame d s (retarget wake d m t) := by
  have hqueue (f : Fld) (x : DomX) : SyncFrame d s (Machine.setDom (Machine.satFld t (Reg.PWR_QCNT d) f) d m x) :=
    (h.satFld (by simp [syncRegs]) f).setDom m x
  unfold Machine.retarget
  dsimp only
  split
  · exact h
  · split
    · split
      · exact (h.moveDom m _).noteEntry _ _ _
      · exact hqueue _ _
    · exact hqueue _ _
    · exact hqueue _ _
    · exact h.setDom m _

/-- Bringing the domains of a die in line with the votes keeps the rest of the state. -/
theorem powerSync (h : SyncFrame d s t) : SyncFrame d s (powerSync t d) :=
  each_keeps _ _ (fun m _ _ ht => (ht.retarget none m).recheckEntry m) h

theorem mem_eq (h : SyncFrame d s t) : t.mem = s.mem := (congrArg State.mem h.rest :)

theorem lines_eq (h : SyncFrame d s t) : t.lines = s.lines := (congrArg State.lines h.rest :)

end SyncFrame

end Sys2Proof.Machine
end

section
/-! PROOFS. The registers of the bus (R12, R353, R354, R359, R366): what a write by the access codes leaves, the answer of a write that
reaches its register, and the bits of a word that a field set keeps. -/
namespace Sys2Proof.Machine

variable {s t : State} {a : Access} {d q o : Nat}

/-! ### Bits of words -/

/-- Setting bits [hi:lo] of a number, split into the part below them, the bits themselves and the part above. -/
theorem setBits_split (lo n w x : Nat) :
    w - (w >>> lo) % n * 2 ^ lo + x * 2 ^ lo = 2 ^ lo * (n * (w / 2 ^ lo / n) + x) + w % 2 ^ lo := by
  have hw := Nat.div_add_mod w (2 ^ lo)
  have hm := Nat.div_add_mod (w / 2 ^ lo) n
  rw [Nat.shiftRight_eq_div_pow]
  have : w = 2 ^ lo * (n * (w / 2 ^ lo / n)) + 2 ^ lo * (w / 2 ^ lo % n) + w % 2 ^ lo := by
    rw [← Nat.mul_add, hm, hw]
  rw [Nat.mul_comm (w / 2 ^ lo % n), Nat.mul_comm x, Nat.mul_add]
  omega

/-- A bit of a word with a field set: the field's own bits come from the value, the others stay. -/
theorem getLsbD_wPut (w : Word) {hi lo : Nat} (hl : lo ≤ hi) (hh : hi < 32) (v i : Nat) :
    (wPut w hi lo v).getLsbD i = if lo ≤ i ∧ i ≤ hi then v.testBit (i - lo) else w.getLsbD i := by
  have hx : v % 2 ^ (hi + 1 - lo) < 2 ^ (hi + 1 - lo) := Nat.mod_lt _ (by positivity)
  unfold wPut wField
  simp only
  rw [setBits_split, BitVec.getLsbD_ofNat, Nat.testBit_two_pow_mul_add _ (Nat.mod_lt _ (by positivity))]
  rcases Nat.lt_or_ge i lo with h1 | h1
  · rw [if_pos h1, if_neg (by omega), Nat.testBit_mod_two_pow, BitVec.getLsbD]
    simp [h1, show i < 32 by omega]
  · rw [if_neg (by omega), Nat.testBit_two_pow_mul_add _ hx]
    rcases Nat.lt_or_ge hi i with h2 | h2
    · rw [if_neg (by omega), if_neg (by omega), Nat.testBit_div_two_pow, Nat.testBit_div_two_pow,
        show i - lo - (hi + 1 - lo) + (hi + 1 - lo) + lo = i by omega]
      rcases Nat.lt_or_ge i 32 with h3 | h3
      · simp [h3, BitVec.getLsbD]
      · simp [BitVec.getLsbD_of_ge w i h3, Nat.not_lt.mpr h3]
    · rw [if_pos (by omega), if_pos ⟨h1, h2⟩, Nat.testBit_mod_two_pow]
      simp [show i < 32 by omega, show i - lo < hi + 1 - lo by omega]

/-- A one-bit field is 1 exactly where its bit is set. -/
theorem wGet_bit (w : Word) (i : Nat) : decide (wGet w ⟨i, i⟩ = 1) = w.getLsbD i := by
  unfold wGet wField
  rw [BitVec.getLsbD, Nat.testBit_eq_decide_div_mod_eq, Nat.shiftRight_eq_div_pow]
  simp

theorem bitF_bit (s : State) (r i : Nat) : bitF s r ⟨i, i⟩ = (reg s r).getLsbD i := wGet_bit _ i

/-- Bit 0 of a register alone. -/
theorem keepField_bit0 (s : State) (r : Nat) : keepField s r ⟨0, 0⟩ = reg s r &&& 1 := by
  apply BitVec.eq_of_toNat_eq
  have hlt : (reg s r).toNat % 2 < 2 ^ 32 := by omega
  simpa [keepField, wSet, wPut, fld, wGet, wField] using hlt

/-- An all-ones mask keeps a word. -/
theorem Word.and_ones (w : Word) : w &&& 0xFFFF_FFFF#32 = w := BitVec.and_allOnes

/-- A word of bit 0 and a 1 in bit 1 lies within the low two bits. -/
theorem Word.lowPair (w : Word) : (w &&& 1 ||| 2) &&& 3 = w &&& 1 ||| 2 := by
  rw [BitVec.and_or_distrib_right, BitVec.and_assoc]
  rfl

/-! ### Registers -/

/-- A register set to the value that it has. -/
theorem setReg_self (h : s.wf = true) (r : Nat) : setReg s r (reg s r) = s := by
  have hregs : smSet (resetReg s.part) r (reg s r) s.regs = s.regs := by
    refine smWf_ext (smWf_smSet (State.wf_regs h) (Nat.zero_le r) _) (State.wf_regs h) fun k => ?_
    rw [smGet_smSet (State.wf_regs h)]
    split
    · next e => rw [e]; rfl
    · rfl
  unfold setReg
  rw [hregs]

/-- Registers of a die at different places have different addresses. -/
theorem regA_ne {q' o' : Nat} (ho : o < 0x1000) (ho' : o' < 0x1000) (h : q ≠ q' ∨ o ≠ o') : regA d q o ≠ regA d q' o' := by
  unfold regA; omega

/-- A bit of a register after one of its fields is set. -/
theorem getLsbD_setFld (h : s.wf = true) (r : Nat) {f : Fld} (hl : f.lo ≤ f.hi) (hh : f.hi < 32) (v i : Nat) :
    (reg (setFld s r f v) r).getLsbD i =
      if f.lo ≤ i ∧ i ≤ f.hi then v.testBit (i - f.lo) else (reg s r).getLsbD i := by
  unfold setFld
  rw [reg_setReg_same h]
  exact getLsbD_wPut _ hl hh v i

/-- A write by the access codes of the row that the register has. The match of `plainWrite` is opened as a function's: at
an address the kernel would compute the row before it compares. -/
theorem plainWrite_row {r : RegRow} (hq : q < 0x10000) (ho : o < 0x1000)
    (hr : (pageRows q).find? (fun r => rowAt r o) = some r) (v : Word) :
    plainWrite s d q o a v = setReg s (regA d q o) (maskWrite r (reg s (regA d q o)) v (bootPriv s a)) := by
  have hrow := (regRow_regA (d := d) hq ho).trans hr
  generalize hf : plainWrite = f
  delta plainWrite at hf
  subst hf
  simp only [hrow]

/-- Access codes that let no bit through leave the register as it is. -/
theorem maskWrite_readOnly {r : RegRow} (hrw : r.rw = 0) (h1c : r.w1c = 0) (h1s : r.w1s = 0) (hbp : r.bp = 0)
    (old v : Word) (bp : Bool) : maskWrite r old v bp = old := by
  simp [maskWrite, hrw, h1c, h1s, hbp, Word.and_ones]

/-- Access codes with RW bits alone take those bits. -/
theorem maskWrite_rw {r : RegRow} (h1c : r.w1c = 0) (h1s : r.w1s = 0) (hbp : r.bp = 0) (old v : Word) (bp : Bool) :
    maskWrite r old v bp = (old &&& ~~~BitVec.ofNat 32 r.rw) ||| (v &&& BitVec.ofNat 32 r.rw) := by
  simp [maskWrite, h1c, h1s, hbp, Word.and_ones]

/-- Access codes with W1C bits alone clear those that are written as 1. -/
theorem maskWrite_w1c {r : RegRow} (hrw : r.rw = 0) (h1s : r.w1s = 0) (hbp : r.bp = 0) (old v : Word) (bp : Bool) :
    maskWrite r old v bp = old &&& ~~~(v &&& BitVec.ofNat 32 r.w1c) := by
  simp [maskWrite, hrw, h1s, hbp, Word.and_ones, BitVec.and_comm]

/-- A plain write of a register without a writable bit changes nothing. -/
theorem plainWrite_readOnly {r : RegRow} (h : s.wf = true) (hq : q < 0x10000) (ho : o < 0x1000)
    (hr : (pageRows q).find? (fun r => rowAt r o) = some r)
    (hrw : r.rw = 0) (h1c : r.w1c = 0) (h1s : r.w1s = 0) (hbp : r.bp = 0) (v : Word) : plainWrite s d q o a v = s := by
  rw [plainWrite_row hq ho hr, maskWrite_readOnly hrw h1c h1s hbp, setReg_self h]

/-! ### Writes that reach their register -/

/-- A write reaches its register in a state in canonical form only. -/
theorem reachesReg_wf {r : Nat} (h : reachesReg s a r = true) : s.wf = true := by
  unfold reachesReg at h
  simp only [Bool.and_eq_true] at h
  obtain ⟨⟨⟨⟨⟨⟨⟨hwf, -⟩, -⟩, -⟩, -⟩, -⟩, -⟩, -⟩ := h
  exact hwf

/-- A write that its block takes. -/
theorem regCmd_taken (h : reachesReg s a (regA d q o) = true) (hq : q < 0x10000) (ho : o < 0x1000) (h4 : o % 4 = 0)
    (hp : (pageRows q).isEmpty = false) {v : Word} (hw : regWrite s d q o a v = done t) :
    regCmd a (regA d q o) v s = .next t.answered := by
  rw [regCmd_reaches h hq ho h4 hp, hw]; rfl

/-- A write that its block refuses. -/
theorem regCmd_refused (h : reachesReg s a (regA d q o) = true) (hq : q < 0x10000) (ho : o < 0x1000) (h4 : o % 4 = 0)
    (hp : (pageRows q).isEmpty = false) {v : Word} (hw : regWrite s d q o a v = refuse s) :
    regCmd a (regA d q o) v s = .next s.turnedDown := by
  rw [regCmd_reaches h hq ho h4 hp, hw]; rfl

/-! ### Windows and slices -/

theorem regWrite_bus (s : State) (d o : Nat) (a : Access) (v : Word) : regWrite s d 8 o a v = writeBus s d o a v := rfl

/-- The row of a window register. -/
theorem busWin_row {w : Nat} (hw : w < 8) :
    (pageRows 8).find? (fun r => rowAt r (0x40 + 4 * w)) = some ⟨0x40, 4, 8, 0, 1, 0, 0xfff, 0, 0, 0⟩ := by
  revert w; decide

/-- The windows of the BUS page have no action of their own. -/
theorem writeBus_win (s : State) (d w : Nat) (a : Access) (v : Word) :
    writeBus s d (0x40 + 4 * w) a v = done (plainWrite s d 8 (0x40 + 4 * w) a v) := by
  unfold writeBus
  split
  case h_5 => rfl
  all_goals omega

/-- A window register takes its BASE (R353). -/
theorem busWinWrite_effect {w : Nat} (h : reachesReg s a (Reg.BUS_WIN d w) = true) (hw : w < 8) (v : Word) :
    exec (.busWinWrite a d w v) s = .next (maskPut s (Reg.BUS_WIN d w) 0xFFF v).answered := by
  have hwrite : regWrite s d 8 (0x40 + 4 * w) a v = done (maskPut s (Reg.BUS_WIN d w) 0xFFF v) := by
    rw [regWrite_bus, writeBus_win, plainWrite_row (by decide) (by omega) (busWin_row hw), maskWrite_rw rfl rfl rfl]
    rfl
  change onUnit (w < 8) (regCmd a (Reg.BUS_WIN d w) v s) = _
  rw [onUnit_true (by simpa using hw)]
  exact regCmd_taken h (by decide) (by omega) (by omega) rfl hwrite

/-- A changed slice setting is pending until it is applied (R359). -/
theorem busSliceWrite_effect (h : reachesReg s a (Reg.BUS_SLICE d) = true) (v : Word) :
    exec (.busSliceWrite a d v) s = .next
      (if v &&& 0x1F = reg s (Reg.BUS_SLICE d) then s
       else setFld (setReg s (Reg.BUS_SLICE d) (v &&& 0x1F)) (Reg.BUS_STAT d) F.BUS_STAT_SLICEPEND 1).answered :=
  regCmd_taken h (by decide) (by decide) rfl rfl rfl

/-! ### The Seed ROM and the firewall lock -/

/-- BUS_CTL as a write in boot privilege leaves it: ROMLOCK is only ever set (R354). -/
theorem regCmd_busCtl (h : reachesReg s a (Reg.BUS_CTL d) = true) (hb : bootPriv s a = true) (v : Word) :
    regCmd a (Reg.BUS_CTL d) v s =
      .next (setReg s (Reg.BUS_CTL d) ((v &&& 3) ||| (reg s (Reg.BUS_CTL d) &&& 2))).answered :=
  regCmd_taken h (by decide) (by decide) rfl rfl (by rw [regWrite_bus]; simp only [writeBus, hb, if_true])

/-- Without boot privilege the write is refused. -/
theorem regCmd_busCtl_unprivileged (h : reachesReg s a (Reg.BUS_CTL d) = true) (hb : bootPriv s a = false) (v : Word) :
    regCmd a (Reg.BUS_CTL d) v s = .next s.turnedDown :=
  regCmd_refused h (by decide) (by decide) rfl rfl
    (by rw [regWrite_bus]; simp only [writeBus, hb, Bool.false_eq_true, if_false])

theorem regWrite_fw (s : State) (d o : Nat) (a : Access) (v : Word) : regWrite s d 7 o a v = writeFw s d o a v := rfl

/-- FW_CTL as a write in boot privilege leaves it while it is not locked (R366). -/
theorem regCmd_fwCtl (h : reachesReg s a (Reg.FW_CTL d) = true) (hb : bootPriv s a = true)
    (hl : bitF s (Reg.FW_CTL d) F.FW_CTL_LOCK = false) (v : Word) :
    regCmd a (Reg.FW_CTL d) v s =
      .next (setReg s (Reg.FW_CTL d) ((v &&& 3) ||| (reg s (Reg.FW_CTL d) &&& 2))).answered :=
  regCmd_taken h (by decide) (by decide) rfl rfl (by rw [regWrite_fw]; simp [writeFw, hb, hl])

/-- Without boot privilege, or once the page is locked, the write is refused. -/
theorem regCmd_fwCtl_refused (h : reachesReg s a (Reg.FW_CTL d) = true)
    (hb : bootPriv s a = false ∨ bitF s (Reg.FW_CTL d) F.FW_CTL_LOCK = true) (v : Word) :
    regCmd a (Reg.FW_CTL d) v s = .next s.turnedDown := by
  refine regCmd_refused h (by decide) (by decide) rfl rfl ?_
  rw [regWrite_fw]
  unfold writeFw
  dsimp only
  rcases hb with hb | hl
  · simp [hb]
  · rw [if_pos hl]

/-- ROMLOCK_SET writes REMAP as it stands and ROMLOCK as 1 (R354). -/
theorem romlockSet_effect (h : reachesReg s a (Reg.BUS_CTL d) = true) (hb : bootPriv s a = true) :
    exec (.romlockSet a d) s = .next (setReg s (Reg.BUS_CTL d) ((reg s (Reg.BUS_CTL d) &&& 3) ||| 2)).answered := by
  have hlow (w : Word) : w &&& 1 ||| 2 ||| w &&& 2 = w &&& 3 ||| 2 := by
    rw [BitVec.or_assoc, BitVec.or_comm 2, ← BitVec.or_assoc, ← BitVec.and_or_distrib_left]
    rfl
  have hkept : keepField s (Reg.BUS_CTL d) F.BUS_CTL_REMAP ||| one F.BUS_CTL_ROMLOCK = reg s (Reg.BUS_CTL d) &&& 1 ||| 2 :=
    congrArg (· ||| 2) (keepField_bit0 s _)
  refine (regCmd_busCtl h hb _).trans ?_
  rw [hkept, Word.lowPair, hlow]

/-- REMAP_WRITE writes REMAP alone, and ROMLOCK stays (R354). -/
theorem remapWrite_effect (h : reachesReg s a (Reg.BUS_CTL d) = true) (hb : bootPriv s a = true) (remap : Bool) :
    exec (.remapWrite a d remap) s =
      .next (setReg s (Reg.BUS_CTL d) ((if remap then 1 else 0) ||| (reg s (Reg.BUS_CTL d) &&& 2))).answered := by
  have hfield : fieldIs F.BUS_CTL_REMAP remap.toNat &&& 3 = if remap then 1 else 0 := by cases remap <;> decide
  refine (regCmd_busCtl h hb _).trans ?_
  rw [hfield]

/-- FW_LOCK_SET writes EN as it stands and LOCK as 1 (R366). -/
theorem fwLockSet_effect (h : reachesReg s a (Reg.FW_CTL d) = true) (hb : bootPriv s a = true)
    (hl : bitF s (Reg.FW_CTL d) F.FW_CTL_LOCK = false) :
    exec (.fwLockSet a d) s = .next (setReg s (Reg.FW_CTL d) ((reg s (Reg.FW_CTL d) &&& 1) ||| 2)).answered := by
  have hlow : reg s (Reg.FW_CTL d) &&& 2 = 0 := by
    have hbit : (reg s (Reg.FW_CTL d)).getLsbD 1 = false := (bitF_bit s _ 1).symm.trans hl
    exact (BitVec.and_twoPow (reg s (Reg.FW_CTL d)) 1).trans (if_neg (Bool.eq_false_iff.mp hbit))
  have hkept : keepField s (Reg.FW_CTL d) F.FW_CTL_EN ||| one F.FW_CTL_LOCK = reg s (Reg.FW_CTL d) &&& 1 ||| 2 :=
    congrArg (· ||| 2) (keepField_bit0 s _)
  refine (regCmd_fwCtl h hb hl _).trans ?_
  rw [hkept, Word.lowPair, hlow]
  exact congrArg (fun w => Host.Outcome.next (setReg s (Reg.FW_CTL d) w).answered) BitVec.or_zero

/-! ### Registers without an action -/

/-- The row of the TEST words. -/
theorem wadiTest_row {n : Nat} (hn : n < 64) :
    (pageRows 0x20).find? (fun r => rowAt r (0x200 + 4 * n)) = some ⟨0x200, 4, 64, 0, 1, 0, 0xffffffff, 0, 0, 0⟩ := by
  revert n; decide

/-- A TEST word of the WADI page is RW. -/
theorem regCmd_wadiTest {n : Nat} (h : reachesReg s a (Reg.WADI_TEST d n) = true) (hn : n < 64) (v : Word) :
    regCmd a (Reg.WADI_TEST d n) v s = .next (setReg s (Reg.WADI_TEST d n) v).answered := by
  have hwrite : regWrite s d 0x20 (0x200 + 4 * n) a v = done (setReg s (Reg.WADI_TEST d n) v) := by
    change writeWadi s d (0x200 + 4 * n) a v = _
    rw [writeWadi, plainWrite_row (by decide) (by omega) (wadiTest_row hn), maskWrite_rw rfl rfl rfl]
    simp [Word.and_ones, Reg.WADI_TEST]
  exact regCmd_taken h (by decide) (by omega) (by omega) rfl hwrite

/-- The four METER pages have one layout. -/
theorem pageRows_meter (hlo : 0x30 ≤ q) (hhi : q ≤ 0x33) : pageRows q = meterRows := by
  obtain rfl | rfl | rfl | rfl : q = 0x30 ∨ q = 0x31 ∨ q = 0x32 ∨ q = 0x33 := by omega
  all_goals rfl

theorem regWrite_meter (hlo : 0x30 ≤ q) (hhi : q ≤ 0x33) (s : State) (d o : Nat) (a : Access) (v : Word) :
    regWrite s d q o a v = writeMeter s d q o a v := by
  obtain rfl | rfl | rfl | rfl : q = 0x30 ∨ q = 0x31 ∨ q = 0x32 ∨ q = 0x33 := by omega
  all_goals rfl

/-- The row of the peak readings. -/
theorem meterPeak_row {j : Nat} (hj : j < 128) :
    meterRows.find? (fun r => rowAt r (8 + 0x20 * j)) = some ⟨8, 32, 128, 0, 1, 0, 0, 0, 0, 0⟩ := by
  revert j; decide

/-- A peak reading is RO. -/
theorem regCmd_meterPeak {m : Nat} (h : reachesReg s a (Reg.METER_PEAK d m) = true) (hm : m < 512) (v : Word) :
    regCmd a (Reg.METER_PEAK d m) v s = .next s.answered := by
  have hj : m % 128 < 128 := Nat.mod_lt _ (by decide)
  have hlo : 0x30 ≤ 0x30 + m / 128 := by omega
  have hhi : 0x30 + m / 128 ≤ 0x33 := by omega
  have hrow := (congrArg (List.find? _) (pageRows_meter hlo hhi)).trans (meterPeak_row hj)
  have hoff : (8 + 0x20 * (m % 128)) % 0x20 = 8 := by omega
  have hwrite : regWrite s d (0x30 + m / 128) (8 + 0x20 * (m % 128)) a v = done s := by
    rw [regWrite_meter hlo hhi]
    simp only [writeMeter, hoff]
    rw [plainWrite_readOnly (reachesReg_wf h) (by omega) (by omega) hrow rfl rfl rfl rfl]
  exact regCmd_taken h (by omega) (by omega) (by omega) (by rw [pageRows_meter hlo hhi]; rfl) hwrite

/-- SYS_ID is RO. -/
theorem regCmd_sysId (h : reachesReg s a (Reg.SYS_ID d) = true) (v : Word) :
    regCmd a (Reg.SYS_ID d) v s = .next s.answered :=
  regCmd_taken h (by decide) (by decide) rfl rfl <| by
    change done (plainWrite s d 0 0 a v) = _
    rw [plainWrite_readOnly (reachesReg_wf h) (by decide) (by decide) (by rfl) rfl rfl rfl rfl]

/-- A 1 clears a W1C bit of PULSE_STAT, and its other bits stay. -/
theorem regCmd_pulseStat (h : reachesReg s a (Reg.PULSE_STAT d) = true) (v : Word) :
    regCmd a (Reg.PULSE_STAT d) v s =
      .next (setReg s (Reg.PULSE_STAT d) (reg s (Reg.PULSE_STAT d) &&& ~~~(v &&& 0xC))).answered :=
  regCmd_taken h (by decide) (by decide) rfl rfl <| by
    change done (plainWrite s d 1 8 a v) = _
    rw [plainWrite_row (by decide) (by decide) (by rfl), maskWrite_w1c rfl rfl rfl]
    rfl

/-! ### PWR_CTL -/

/-- The state after a write to PWR_CTL has set HUSKEN, which die 0 alone has. -/
def setHusken (s : State) (d : Nat) (v : Word) : State :=
  if d = 0 then setFld s (Reg.PWR_CTL d) F.PWR_CTL_HUSKEN (wGet v F.PWR_CTL_HUSKEN) else s

/-- The state after it has set VOTEONLY, which ends a start-up mode. -/
def setVoteOnly (s : State) (d : Nat) (v : Word) : State :=
  if wGet v F.PWR_CTL_VOTEONLY = 1 then
    setFld (setFld s (Reg.PWR_CTL d) F.PWR_CTL_VOTEONLY 1) (Reg.PWR_MODE d) F.PWR_MODE_STATE 0
  else s

/-- A write to PWR_CTL sets both, and with WAKEREL it takes the wake logic's votes back. -/
theorem pwrCtlWrite_eq (s : State) (d : Nat) (v : Word) :
    pwrCtlWrite s d v =
      if wGet v F.PWR_CTL_WAKEREL = 1 then powerSync (setTab (setVoteOnly (setHusken s d v) d v) tVote d 58 0) d
      else setVoteOnly (setHusken s d v) d v := rfl

theorem wf_setHusken (h : s.wf = true) (d : Nat) (v : Word) : (setHusken s d v).wf = true := by
  unfold setHusken
  split
  · exact State.wf_setFld h _ _ _
  · exact h

theorem wf_setVoteOnly (h : s.wf = true) (d : Nat) (v : Word) : (setVoteOnly s d v).wf = true := by
  unfold setVoteOnly
  split
  · exact State.wf_setFld (State.wf_setFld h _ _ _) _ _ _
  · exact h

/-- HUSKEN is not VOTEONLY. -/
theorem voteOnly_setHusken (h : s.wf = true) (d : Nat) (v : Word) :
    bitF (setHusken s d v) (Reg.PWR_CTL d) F.PWR_CTL_VOTEONLY = bitF s (Reg.PWR_CTL d) F.PWR_CTL_VOTEONLY := by
  unfold setHusken
  split
  · rw [F.PWR_CTL_VOTEONLY, bitF_bit, bitF_bit, getLsbD_setFld h _ (by decide) (by decide), if_neg (by decide)]
  · rfl

/-- A 1 sets VOTEONLY, and nothing clears it (R417). -/
theorem voteOnly_setVoteOnly (h : s.wf = true) (d : Nat) (v : Word) :
    bitF (setVoteOnly s d v) (Reg.PWR_CTL d) F.PWR_CTL_VOTEONLY =
      (bitF s (Reg.PWR_CTL d) F.PWR_CTL_VOTEONLY || v.getLsbD 2) := by
  have hbit : decide (wGet v F.PWR_CTL_VOTEONLY = 1) = v.getLsbD 2 := wGet_bit v 2
  unfold setVoteOnly
  split
  · next hv =>
    have hmode : bitF (setFld (setFld s (Reg.PWR_CTL d) F.PWR_CTL_VOTEONLY 1) (Reg.PWR_MODE d) F.PWR_MODE_STATE 0)
        (Reg.PWR_CTL d) F.PWR_CTL_VOTEONLY = bitF (setFld s (Reg.PWR_CTL d) F.PWR_CTL_VOTEONLY 1) (Reg.PWR_CTL d)
        F.PWR_CTL_VOTEONLY := by
      unfold bitF fld
      have hne : Reg.PWR_CTL d ≠ Reg.PWR_MODE d := regA_ne (by decide) (by decide) (by decide)
      rw [setFld, reg_setReg (State.wf_setFld h _ _ _), if_neg hne]
    rw [hmode, ← hbit, decide_eq_true hv, Bool.or_true, F.PWR_CTL_VOTEONLY, bitF_bit,
      getLsbD_setFld h _ (by decide) (by decide), if_pos (by decide)]
    rfl
  · next hv => rw [← hbit, decide_eq_false hv, Bool.or_false]

/-- No change of votes writes PWR_CTL. -/
theorem pwrCtl_notMem_syncRegs (d : Nat) : Reg.PWR_CTL d ∉ syncRegs d := by
  simp only [syncRegs, List.mem_cons, List.not_mem_nil, or_false, not_or]
  refine ⟨?_, ?_, ?_, ?_, ?_⟩
  all_goals exact regA_ne (by decide) (by decide) (by decide)

/-- What a write to PWR_CTL leaves of VOTEONLY, the memory and the lines. -/
theorem pwrCtlWrite_effect (h : s.wf = true) (d : Nat) (v : Word) :
    bitF (pwrCtlWrite s d v) (Reg.PWR_CTL d) F.PWR_CTL_VOTEONLY =
        (bitF s (Reg.PWR_CTL d) F.PWR_CTL_VOTEONLY || v.getLsbD 2) ∧
      (pwrCtlWrite s d v).mem = s.mem ∧ (pwrCtlWrite s d v).lines = s.lines := by
  have hwf := wf_setVoteOnly (wf_setHusken h d v) d v
  have hbit : bitF (setVoteOnly (setHusken s d v) d v) (Reg.PWR_CTL d) F.PWR_CTL_VOTEONLY =
      (bitF s (Reg.PWR_CTL d) F.PWR_CTL_VOTEONLY || v.getLsbD 2) := by
    rw [voteOnly_setVoteOnly (wf_setHusken h d v), voteOnly_setHusken h]
  have hmem : (setVoteOnly (setHusken s d v) d v).mem = s.mem := by
    unfold setVoteOnly setHusken; split <;> split <;> rfl
  have hlines : (setVoteOnly (setHusken s d v) d v).lines = s.lines := by
    unfold setVoteOnly setHusken; split <;> split <;> rfl
  rw [pwrCtlWrite_eq]
  split
  · have hsync := (SyncFrame.refl (d := d) (State.wf_setTab hwf tVote d 58 0)).powerSync
    refine ⟨?_, hsync.mem_eq.trans hmem, hsync.lines_eq.trans hlines⟩
    unfold bitF fld
    rw [hsync.regs _ (pwrCtl_notMem_syncRegs d)]
    exact hbit
  · exact ⟨hbit, hmem, hlines⟩

/-- A write to PWR_CTL is taken. -/
theorem regCmd_pwrCtl (h : reachesReg s a (Reg.PWR_CTL d) = true) (v : Word) :
    regCmd a (Reg.PWR_CTL d) v s = .next (pwrCtlWrite s d v).answered :=
  regCmd_taken h (by decide) (by decide) rfl rfl rfl

/-- Settles O43: each command is a register write that reaches its page, and each clause says what that page does with it. -/
theorem busRegisters : Obligations.BusRegisters := by
  refine ⟨?win, ?slice, ?apply, ?romlock, ?remap, ?remapRefused, ?fwLock, ?fwRefused, ?pulseStat, ?pwrCtl, ?meterPeak, ?busCtl,
    ?busCtlRefused, ?wadiTest, ?sysId⟩
  case win => exact fun s a d w v h hw => busWinWrite_effect h hw v
  case slice => exact fun s a d v h => busSliceWrite_effect h v
  case apply => exact fun s d hd hp => (onUnit_true (by simpa using hd)).trans (whenDue_true hp)
  case romlock => exact fun s a d h hb => romlockSet_effect h hb
  case remap => exact fun s a d remap h hb => remapWrite_effect h hb remap
  case remapRefused => exact fun s a d remap h hb => regCmd_busCtl_unprivileged h hb _
  case fwLock => exact fun s a d h hb hl => fwLockSet_effect h hb hl
  case fwRefused => exact fun s a d h hb => regCmd_fwCtl_refused h hb _
  case pulseStat => exact fun s a d v h => regCmd_pulseStat h v
  case pwrCtl =>
    intro s a d v h
    obtain ⟨hvote, hmem, hlines⟩ := pwrCtlWrite_effect (reachesReg_wf h) d v
    exact ⟨_, regCmd_pwrCtl h v, hvote, rfl, hmem, hlines⟩
  case meterPeak => exact fun s a d m v h hm => regCmd_meterPeak h hm v
  case busCtl => exact fun s a d v h hb => regCmd_busCtl h hb v
  case busCtlRefused => exact fun s a d v h hb => regCmd_busCtl_unprivileged h hb v
  case wadiTest => exact fun s a d n v h hn => regCmd_wadiTest h hn v
  case sysId => exact fun s a d v h => regCmd_sysId h v

end Sys2Proof.Machine
end

section
/-! PROOFS. One slot of a kernel (R35, R109, R158): the state that a completed or a faulted slot leaves, field by field. -/
namespace Sys2Proof.Machine

variable {s t : State} {c : CoreRef} {m : Mode}

/-! ### Tables -/

/-- An entry that differs from its default reads back from any table. -/
theorem smGet_smSet_changed {α : Type} [DecidableEq α] {d : Nat → α} {k : Nat} {v : α} (hv : v ≠ d k)
    (xs : List (Nat × α)) : smGet d (smSet d k v xs) k = v := by
  induction xs with
  | nil => simp [smSet, smGet, hv]
  | cons e xs ih =>
    obtain ⟨j, w⟩ := e
    rcases Nat.lt_trichotomy k j with h | rfl | h
    · simp [smSet, smGet, h, hv]
    · simp [smSet, smGet, hv]
    · have h1 : ¬ k < j := by omega
      have h2 : k ≠ j := by omega
      simp [smSet, smGet, h1, h2, ih]

/-- What holds of the default and of every entry listed holds of the entry read. -/
theorem smGet_of_all {α : Type} {d : Nat → α} {p : α → Prop} {k : Nat} {xs : List (Nat × α)} (hd : p (d k))
    (h : ∀ e ∈ xs, p e.2) : p (smGet d xs k) := by
  induction xs with
  | nil => exact hd
  | cons e xs ih =>
    obtain ⟨j, w⟩ := e
    have htail := ih fun e he => h e (List.mem_cons_of_mem _ he)
    unfold smGet
    split
    · exact hd
    · split
      · exact h (j, w) List.mem_cons_self
      · exact htail

/-- The value put into an association list is found there. -/
theorem alGet_alPut {α : Type} (k : Nat) (v : α) (xs : List (Nat × α)) : alGet k (alPut k v xs) = some v := by
  induction xs with
  | nil => simp [alPut, alGet]
  | cons e xs ih =>
    obtain ⟨j, w⟩ := e
    unfold alPut
    split
    · simp [alGet]
    · split
      · simp [alGet]
      · next h => simp [alGet, h, ih]

/-- The cores of a canonical state are canonical. -/
theorem coreOf_wf (h : s.wf = true) (c : CoreRef) : (coreOf s c).wf = true := by
  unfold coreOf
  split
  · exact smGet_of_all (p := fun x : Stew => x.core.wf = true) rfl (List.all_eq_true.mp (State.wf_stewCore h))
  · exact smGet_of_all (p := fun x : Kern => x.core.wf = true) rfl (List.all_eq_true.mp (State.wf_kernCore h))

/-- So are their D registers. -/
theorem regsOf_d_wf (h : s.wf = true) (c : CoreRef) : smWf (fun _ => (0 : Word)) 0 (regsOf s c).d = true := by
  have hc := coreOf_wf h c
  simp only [Core.wf, Regs.wf, List.all_cons, Bool.and_eq_true] at hc
  exact hc.1.1.1.2.1

theorem rf_setD {r : Regs} (h : smWf (fun _ => (0 : Word)) 0 r.d = true) (n : Nat) (w : Word) : rf (setD r n w).d n = w :=
  smGet_smSet_same h n w

/-- A word depends on memory alone. -/
theorem loadW_congr (h : t.mem = s.mem) (a : Nat) : loadW t a = loadW s a := by
  simp only [loadW, loadBytes, loadByte, h]

/-! ### A kernel's core -/

theorem coreOf_kernel (hc : c.stew = false) (s : State) : coreOf s c = (kern s c.die c.idx).core := by
  simp [coreOf, hc]

theorem setCore_kernel (hc : c.stew = false) (s : State) (k : Core) :
    setCore s c k = setKern s c.die c.idx { kern s c.die c.idx with core := k } := by
  simp [setCore, hc]

/-- The kernel whose core was set. -/
theorem kern_setCore (hc : c.stew = false) (h : CoresWf s) (k : Core) :
    kern (setCore s c k) c.die c.idx = { kern s c.die c.idx with core := k } := by
  rw [setCore_kernel hc]
  exact smGet_smSet_same h.1 _ _

/-- Only a kernel runs in sample mode, and only one that does not wait. -/
theorem coreMode_sample (h : coreMode s c = some .sample) : c.stew = false ∧ (kern s c.die c.idx).wait = none := by
  unfold coreMode at h
  cases hc : c.stew with
  | true => simp [hc] at h
  | false =>
    refine ⟨rfl, ?_⟩
    simp only [hc, Bool.false_eq_true, if_false] at h
    split at h
    all_goals simp_all

theorem satFld_kern (s : State) (a : Nat) (f : Fld) : (satFld s a f).kern = s.kern := by
  unfold satFld
  split <;> rfl

theorem kernelCorrected_kern (s : State) (d k mem : Nat) (b : Bool) (w a : Nat) :
    (kernelCorrected s d k mem b w a).kern = s.kern := satFld_kern s _ _

/-- A kernel's fetch changes no kernel. -/
theorem fetchSlot_kern (hc : c.stew = false) {x : Option Slot} (h : fetchSlot s c m = .ok x t) : t.kern = s.kern := by
  have hword : ∀ w u, fetchWord s c = .ok w u → u.kern = s.kern := by
    intro w u hu
    unfold fetchWord at hu
    simp only [hc, Bool.false_eq_true, if_false] at hu
    split at hu
    · cases hu; rfl
    · cases hu; exact kernelCorrected_kern s ..
    · cases hu
  unfold fetchSlot at h
  split at h
  · cases h; rfl
  · cases hf : fetchWord s c with
    | ok w u =>
      rw [hf] at h
      simp only [Got.andThen] at h
      split at h
      all_goals
        cases h
        exact hword w _ hf
    | _ => rw [hf] at h; cases h

theorem slotFetched_kern (hc : c.stew = false) (s : State) (m : Mode) : (slotFetched s c m).kern = s.kern := by
  unfold slotFetched
  split
  · next h => exact fetchSlot_kern hc h
  · rfl

/-! ### What a slot of a kernel leaves -/

theorem nextSlot_halves (k : Core) (pc : Nat) : (nextSlot k pc).halves = k.halves := by
  unfold nextSlot
  dsimp only
  split <;> split
  all_goals (try split)
  all_goals rfl

theorem afterSlot_halves (k : Core) (pc : Nat) : (afterSlot c m k pc).halves = k.halves := by
  unfold afterSlot
  split
  · exact nextSlot_halves k pc
  · split
    · rfl
    · dsimp only
      split
      · exact nextSlot_halves _ pc
      · split
        · split
          · rfl
          · exact nextSlot_halves _ pc
        · split <;> rfl

/-- Control after a slot charges nothing more. -/
theorem advance_halves (k : Core) : (advance c m k).halves = k.halves := by
  unfold advance
  dsimp only
  split
  · split
    · split <;> rfl
    · rw [afterSlot_halves]
      split <;> rfl
  · exact afterSlot_halves _ _
  · exact afterSlot_halves _ _

/-- A slot of a kernel whose body completed in `t` changes the core of `t` alone: its data stands, and it is charged a half-step where it
takes a Hoard operand in sample mode. -/
theorem runSlot_done (hc : c.stew = false) {sl : Slot} (h : slotRuns s c m sl = true) {want : Op → Bool}
    (hw : want sl.op = true) {body : Op → Mode → Bool → State → Eff}
    (hb : body sl.op m (slotCond (slotState s c m) c sl) (slotState s c m) = .done t) :
    ∃ k, runSlot c want body s = .next (setCore t c k) ∧ SameCore (coreOf t c) k ∧
      k.halves = (coreOf t c).halves +
        (decide (m = .sample) && takesHoard (hoardMode (coreOf t c).r) sl).toNat * annulWeight (coreOf t c) := by
  refine ⟨advance c m (charge (coreOf t c) (slotCost c.stew sl) _), ?_, (sameCore_charge _ _ _).trans (sameCore_advance _),
    advance_halves _⟩
  rw [runSlot_runs h hw, hb]
  unfold finishSlot settle
  rw [hc]
  rfl

/-- A slot of a kernel whose body faults stops it in FAULTED (R158). -/
theorem runSlot_fault {sl : Slot} (h : slotRuns s c m sl = true) {want : Op → Bool} (hw : want sl.op = true)
    {body : Op → Mode → Bool → State → Eff} {f : Nat}
    (hb : body sl.op m (slotCond (slotState s c m) c sl) (slotState s c m) = .fault f t) :
    runSlot c want body s = .next (kernelFault t c.die c.idx f) := by
  rw [runSlot_runs h hw, hb]
  rfl

/-- An annulled repeat or block weighs on no slot that executes. -/
theorem annulWeight_one {k : Core} (hr : ∀ n, k.rep ≠ .annul n) (hm : k.annulMul = []) : annulWeight k = 1 := by
  unfold annulWeight
  rw [hm]
  split
  · next n hn => exact absurd hn (hr n)
  · rfl

theorem slotRuns_notAnnul {sl : Slot} (h : slotRuns s c m sl = true) (n : Nat) :
    (coreOf (slotState s c m) c).rep ≠ .annul n := by
  obtain ⟨-, -, -, -, -, -, -, hann⟩ := slotRuns_fetch h
  intro hn
  simp [slotAnnulled, hn] at hann

/-! ### Faults -/

/-- An event pushed to a queue changes no kernel. -/
theorem queuePush_kern (s : State) (d q : Nat) (ws : List Word) : (queuePush s d q ws).kern = s.kern := by
  have hcount (t : State) (n : Nat) : (setQueueCount t d q n).kern = t.kern := rfl
  have hbytes (t : State) (a v n : Nat) : (storeBytes t a v n).kern = t.kern := by rw [storeBytes_eq]
  have hentry (t : State) (e : Nat) : (storeEntry t d q e ws).kern = t.kern := by
    unfold storeEntry wmFresh
    refine each_keeps (P := fun u => u.kern = t.kern) _ _ (fun _ _ _ hu => hu) ?_
    exact each_keeps (P := fun u => u.kern = t.kern) _ _ (fun _ _ u hu => (hbytes u _ _ 4).trans hu) rfl
  have happend (t : State) : (queueAppend t d q ws).kern = t.kern := (hcount _ _).trans (hentry t _)
  unfold queuePush
  dsimp only
  split
  · rfl
  · split
    · exact happend s
    · split
      · exact (happend _).trans (hcount _ _)
      · rfl

/-- What a fault of a running kernel leaves of it (R158). -/
theorem kern_kernelFault (h : CoresWf s) {d k : Nat} (hst : (kern s d k).st = .run) (f : Nat) :
    (kern (kernelFault s d k f) d k).st = .faulted ∧ (kern (kernelFault s d k f) d k).fcode = f ∧
      (kern (kernelFault s d k f) d k).staged = [] ∧ (kern (kernelFault s d k f) d k).core.r = (kern s d k).core.r := by
  have hread : kern (kernelFault s d k f) d k =
      { kern s d k with
        st := .faulted, fcode := f, staged := [], passed := [], wait := none, active := false, stop := false
        core := { (kern s d k).core with
          img := (kern s d k).core.r, rep := .idle, dly := none, annulTo := none, annulMul := [] } } := by
    unfold kernelFault
    rw [hst]
    unfold kern faultKernel spareTrigger postEvent setPodX
    simp only [if_true, queuePush_kern]
    exact smGet_smSet_same h.1 _ _
  rw [hread]
  exact ⟨rfl, rfl, rfl, rfl⟩

/-- A slot that faults with code `f` leaves its kernel FAULTED with its staged writes discarded and its D registers as they were. -/
theorem runSlot_faults (hc : c.stew = false) {sl : Slot} (h : slotRuns s c m sl = true) {want : Op → Bool}
    (hw : want sl.op = true) {body : Op → Mode → Bool → State → Eff} {f : Nat}
    (hst : (kern (slotState s c m) c.die c.idx).st = .run)
    (hb : body sl.op m (slotCond (slotState s c m) c sl) (slotState s c m) = .fault f (slotState s c m)) :
    ∃ u, runSlot c want body s = .next u ∧ (kern u c.die c.idx).st = .faulted ∧ (kern u c.die c.idx).fcode = f ∧
      (kern u c.die c.idx).staged = [] ∧ (regsOf u c).d = (slotRegs s c m).d := by
  obtain ⟨-, -, -, -, hwf, -, -, -⟩ := slotRuns_fetch h
  obtain ⟨hfaulted, hcode, hstaged, hregs⟩ := kern_kernelFault (State.coresWf hwf) hst f
  refine ⟨_, runSlot_fault h hw hb, hfaulted, hcode, hstaged, ?_⟩
  unfold slotRegs regsOf
  rw [coreOf_kernel hc, coreOf_kernel hc, hregs]

end Sys2Proof.Machine
end

section
/-! PROOFS. Lines, slipface lines and the Hoard (R36, R130–R135, R158, R172): what LDL, STL, LDH and STH do on a kernel. -/
namespace Sys2Proof.Machine

variable {s t : State} {c : CoreRef} {m : Mode}

/-! ### Lines and slipface lines -/

/-- Of a slot that executes, the state that it starts from is canonical. -/
theorem slotRuns_wf {sl : Slot} (h : slotRuns s c m sl = true) : (slotState s c m).wf = true := by
  obtain ⟨-, -, -, -, hwf, -, -, -⟩ := slotRuns_fetch h
  exact hwf

theorem CoresWf.updRegs (h : CoresWf s) (f : Regs → Regs) : CoresWf (updRegs s c f) := h.setCore _

theorem coreOf_updRegs (h : CoresWf s) (f : Regs → Regs) :
    coreOf (updRegs s c f) c = { coreOf s c with r := f (regsOf s c) } := coreOf_setCore h _

/-- The line that a slot of LDL loads. -/
theorem slotLoads_ldl {cd : Cond} (hcd : cd ≠ .nv) (cb d : Nat) (l : LineOp) : slotLoads ⟨cd, cb, .ldl d l⟩ = some l :=
  if_neg hcd

/-- LDL brings the value of its line and leaves the flags (R130, R132). -/
theorem ldl_effect {cd : Cond} {cb d : Nat} {l : LineOp} (h : slotRuns s c m ⟨cd, cb, .ldl d l⟩ = true) :
    ∃ u, exec (.ldl c) s = .next u ∧ rf (regsOf u c).d d = ldlValue (slotState s c m) c l ∧
      (regsOf u c).flg = (slotRegs s c m).flg := by
  obtain ⟨u, hu, hdata, -, -⟩ := runSlot_regs h (want := isLdl) rfl (body := lineBody c)
    (f := fun r => setD r d (ldlValue (slotState s c m) c l)) rfl
  obtain ⟨hd, -, -, -, -, -, -, -, hflg, -⟩ := hdata
  exact ⟨u, hu, by rw [hd]; exact rf_setD (regsOf_d_wf (slotRuns_wf h) c) _ _, hflg⟩

/-- Outside a shadow a slipface read brings the line's value. -/
theorem ldlValue_slip (hst : (kern s c.die c.idx).st ≠ .shadow) (l : Nat) :
    ldlValue s c (.slip l) = (slipLine s c.die (c.idx / 18) l).val := by
  simp [ldlValue, hst]

/-- What a kernel outside a shadow notes of a slipface read: the line's value. -/
theorem kern_noteSlip {cd : Cond} {cb d l : Nat} (hcd : cd ≠ .nv) (hst : (kern t c.die c.idx).st ≠ .shadow)
    (h : noteSlip s c .sample ⟨cd, cb, .ldl d (.slip l)⟩ = some t) :
    kern t c.die c.idx = { kern s c.die c.idx with
      slipIn := (kern s c.die c.idx).slipIn ++ [(slipLine t c.die (c.idx / 18) l).val] } := by
  have hread (v : Word) : kern (setKern s c.die c.idx
      { kern s c.die c.idx with slipIn := (kern s c.die c.idx).slipIn ++ [v] }) c.die c.idx =
      { kern s c.die c.idx with slipIn := (kern s c.die c.idx).slipIn ++ [v] } :=
    smGet_smSet_changed (fun h0 => by simpa [Kern.zero] using congrArg Kern.slipIn h0) _
  simp only [noteSlip, slotLoads_ldl hcd] at h
  obtain ⟨v, hv, rfl⟩ := Option.map_eq_some_iff.mp h
  rw [hread] at hst ⊢
  have hval : (slipLine s c.die (c.idx / 18) l).val = v := by simpa [slipRead, hst] using hv
  rw [← hval]
  rfl

/-- A slot of LDL from a slipface line that executes brings the line's value and changes no more of its kernel than the core. -/
theorem ldl_slip_effect {cd : Cond} {cb d l : Nat} (h : slotRuns s c m ⟨cd, cb, .ldl d (.slip l)⟩ = true)
    (hc : c.stew = false) (hst : (kern (slotState s c m) c.die c.idx).st ≠ .shadow) {want : Op → Bool}
    (hw : want (.ldl d (.slip l)) = true) {body : Op → Mode → Bool → State → Eff}
    (hb : body (.ldl d (.slip l)) = lineBody c (.ldl d (.slip l))) :
    ∃ u k, runSlot c want body s = .next u ∧
      rf (regsOf u c).d d = (slipLine (slotState s c m) c.die (c.idx / 18) l).val ∧
      kern u c.die c.idx = { kern (slotState s c m) c.die c.idx with core := k } := by
  have hwf := slotRuns_wf h
  have hcw := State.coresWf hwf
  obtain ⟨k, hu, ⟨⟨hd, -⟩, -⟩, -⟩ := runSlot_done hc h hw (body := body)
    (t := updRegs (slotState s c m) c fun r => setD r d (ldlValue (slotState s c m) c (.slip l))) (by rw [hb]; rfl)
  refine ⟨_, k, hu, ?_, ?_⟩
  · rw [coreOf_updRegs hcw] at hd
    rw [regsOf, coreOf_setCore (hcw.updRegs _), hd, ← ldlValue_slip hst]
    exact rf_setD (regsOf_d_wf hwf c) _ _
  · rw [kern_setCore hc (hcw.updRegs _), updRegs, kern_setCore hc hcw]

/-- A kernel with the value of an STL to a Wadi line staged and noted (R131, R435). -/
def stageLine (kn : Kern) (l : Nat) (v : Word) : Kern :=
  { kn with staged := alPut l v kn.staged, outs := kn.outs ++ [.line l v] }

theorem storeLine_wadi (hst : (kern s c.die c.idx).st = .run) (l : Nat) (v : Word) :
    storeLine s c (.wadi l) v = setKern s c.die c.idx (stageLine (kern s c.die c.idx) l v) := by
  simp only [storeLine, hst, stageLine]

theorem CoresWf.setKern (h : CoresWf s) (d k : Nat) (v : Kern) : CoresWf (setKern s d k v) :=
  ⟨smWf_smSet h.1 (Nat.zero_le _) _, h.2⟩

theorem kern_stageLine (h : CoresWf s) {d k l : Nat} {v : Word} :
    kern (Machine.setKern s d k (stageLine (kern s d k) l v)) d k = stageLine (kern s d k) l v :=
  smGet_smSet_same h.1 _ _

/-- STL on a running kernel stages its register on a Wadi line (R131). -/
theorem stl_wadi_effect {cd : Cond} {cb d l : Nat} (h : slotRuns s c m ⟨cd, cb, .stl d (.wadi l)⟩ = true)
    (hc : c.stew = false) (hst : (kern (slotState s c m) c.die c.idx).st = .run) :
    ∃ u, exec (.stl c) s = .next u ∧ alGet l (kern u c.die c.idx).staged = some (rf (slotRegs s c m).d d) ∧
      u.lines = (slotState s c m).lines ∧ u.pub = (slotState s c m).pub ∧ (regsOf u c).flg = (slotRegs s c m).flg := by
  have hwf := State.coresWf (slotRuns_wf h)
  have hstore := storeLine_wadi hst l (rf (slotRegs s c m).d d)
  obtain ⟨k, hu, ⟨hsame, -⟩, -⟩ := runSlot_done hc h (want := isStl) rfl (body := lineBody c) (congrArg Eff.done hstore)
  obtain ⟨-, -, -, -, -, -, -, -, hflg, -⟩ := hsame
  refine ⟨_, hu, ?_, by rw [setCore_kernel hc]; rfl, by rw [setCore_kernel hc]; rfl, ?_⟩
  · rw [kern_setCore hc (hwf.setKern _ _ _), kern_stageLine hwf]
    exact alGet_alPut _ _ _
  · rw [regsOf, coreOf_setCore (hwf.setKern _ _ _), hflg, coreOf_kernel hc, kern_stageLine hwf, slotRegs, regsOf,
      coreOf_kernel hc]
    rfl

/-- On a slipface line it makes the value available at once (R132). -/
theorem stl_slip_effect {cd : Cond} {cb d l : Nat} (h : slotRuns s c m ⟨cd, cb, .stl d (.slip l)⟩ = true)
    (hc : c.stew = false) (hst : (kern (slotState s c m) c.die c.idx).st = .run) :
    ∃ u, exec (.stl c) s = .next u ∧ (slipLine u c.die (c.idx / 18) l).val = rf (slotRegs s c m).d d ∧
      u.lines = (slotState s c m).lines := by
  have hstore : storeLine (slotState s c m) c (.slip l) (rf (slotRegs s c m).d d) =
      setSlip (setKern (slotState s c m) c.die c.idx { kern (slotState s c m) c.die c.idx with
          outs := (kern (slotState s c m) c.die c.idx).outs ++ [.slip l (rf (slotRegs s c m).d d)] })
        c.die (c.idx / 18) l ⟨rf (slotRegs s c m).d d, lastRun (kern (slotState s c m) c.die c.idx).core⟩ := by
    simp only [storeLine, hst, if_true]
  obtain ⟨k, hu, -, -⟩ := runSlot_done hc h (want := isStl) rfl (body := lineBody c) (congrArg Eff.done hstore)
  refine ⟨_, hu, ?_, by rw [setCore_kernel hc]; rfl⟩
  rw [setCore_kernel hc, slipLine_setKern]
  exact congrArg Slip.val (smGet_smSet_same (State.wf_slip (slotRuns_wf h)) _ _)

/-- A slipface read whose line must be waited for stops the kernel there (R36). -/
theorem ldl_waits {cd : Cond} {cb d l : Nat} (h : slotIs s c .sample ⟨cd, cb, .ldl d (.slip l)⟩ = true) (hcd : cd ≠ .nv)
    (hwait : slipWaits (slotFetched s c .sample) c l = true) :
    exec (.ldl c) s = .next (waitSlip (slotFetched s c .sample) c l) ∧
      kern (waitSlip (slotFetched s c .sample) c l) c.die c.idx =
        { kern (slotFetched s c .sample) c.die c.idx with wait := some l } := by
  unfold slotIs at h
  simp only [Bool.and_eq_true, decide_eq_true_eq] at h
  obtain ⟨⟨⟨hcore, hmode⟩, hfetch⟩, -⟩ := h
  have hf : fetchSlot s c .sample = .ok (some ⟨cd, cb, .ldl d (.slip l)⟩) (slotFetched s c .sample) := by
    unfold slotFetched
    split at hfetch
    · next x u hx => rw [hx, of_decide_eq_true hfetch]
    · exact absurd hfetch (by decide)
  have hslip : slipToWait (slotFetched s c .sample) c .sample ⟨cd, cb, .ldl d (.slip l)⟩ = some l := by
    simp [slipToWait, slotLoads_ldl hcd, hwait]
  constructor
  · change runSlot c isLdl (lineBody c) s = _
    unfold runSlot
    rw [onUnit_true hcore, hmode]
    simp [hf, hcd, isLdl, hslip]
  · exact smGet_smSet_changed (fun h0 => by simpa [Kern.zero] using congrArg Kern.wait h0) _

/-- Once the line is complete the waiting slot runs (R36). -/
theorem slipRelease_runs {sl : Slot} {l : Nat} (hc : c.stew = false) (hwait : (kern s c.die c.idx).wait = some l)
    (hdone : slipWaits s c l = false) (h : slotRuns (endWait s c) c m sl = true) :
    exec (.slipfaceLdlRelease c) s = runSlot c (fun _ => true) (slipBody c) (endWait s c) := by
  obtain ⟨hcore, -⟩ := slotRuns_fetch h
  have hunit : (hasCore s c && !c.stew) = true := by
    rw [hc]
    exact (Bool.and_true _).trans hcore
  change onUnit (hasCore s c && !c.stew) _ = _
  rw [onUnit_true hunit, hwait]
  simp only [hdone, Bool.false_eq_true, if_false]

/-! ### The Hoard -/

theorem orderRepair_kern (s : State) (d p row : Nat) : (orderRepair s d p row).kern = s.kern := by
  unfold orderRepair
  dsimp only
  split
  · rfl
  · split
    · rfl
    · split <;> rfl

/-- A corrected Hoard word changes no kernel. -/
theorem hoardCorrected_kern (s : State) (d p w : Nat) : (hoardCorrected s d p w).kern = s.kern := by
  unfold hoardCorrected tallyRow
  dsimp only
  split
  · exact (orderRepair_kern _ _ _ _).trans (satFld_kern s _ _)
  · exact satFld_kern s _ _

theorem readHoardWord_kern {d p w : Nat} {v : Word} (h : readHoardWord s d p w = .ok v t) : t.kern = s.kern := by
  unfold readHoardWord at h
  split at h
  · cases h; rfl
  · cases h; exact hoardCorrected_kern s _ _ _
  · cases h

theorem coreOf_noteHoardRead (hc : c.stew = false) (h : CoresWf s) (v : Word) :
    coreOf (noteHoardRead s c.die c.idx v) c = coreOf s c := by
  rw [coreOf_kernel hc, coreOf_kernel hc]
  exact (congrArg Kern.core (smGet_smSet_same h.1 _ _) :)

theorem coreOf_congr (hc : c.stew = false) (h : t.kern = s.kern) : coreOf t c = coreOf s c := by
  rw [coreOf_kernel hc, coreOf_kernel hc]
  exact congrArg Kern.core (congrArg (fun m => smGet (fun _ => Kern.zero) m _) h)

/-- A read of the Hoard leaves the core (R135, R174). -/
theorem readHoardOp_core (hc : c.stew = false) (h : s.wf = true) {w : Nat} {v : Word}
    (hread : readHoardOp s c w = .ok v t) : coreOf t c = coreOf s c := by
  unfold readHoardOp at hread
  dsimp only at hread
  split at hread
  · split at hread
    · cases hread
      exact coreOf_noteHoardRead hc (State.coresWf h) _
    · cases hread
  · exact coreOf_congr hc (readHoardWord_kern hread)
  · split at hread
    · cases hword : readHoardWord s c.die (c.idx / 18) w with
      | ok x u =>
        rw [hword] at hread
        cases hread
        have hkern := readHoardWord_kern hword
        have hu : coreOf (noteHoardRead u c.die c.idx v) c = coreOf u c := by
          rw [coreOf_kernel hc, coreOf_kernel hc]
          exact (congrArg Kern.core (smGet_smSet_same (hkern ▸ State.wf_kern h) _ _) :)
        exact hu.trans (coreOf_congr hc hkern)
      | _ => rw [hword] at hread; cases hread
    · cases hread

/-- A kernel's write of Hoard word `w` noted for lockstep (R435). -/
def noteHoardWrite (s : State) (c : CoreRef) (w : Nat) (v : Word) : State :=
  Machine.setKern s c.die c.idx { kern s c.die c.idx with outs := (kern s c.die c.idx).outs ++ [.hoard w v] }

/-- The state once a running kernel's write of Hoard word `w` has taken effect (R135). -/
def storeHoard (s : State) (c : CoreRef) (w : Nat) (v : Word) : State :=
  setEcc (storeW (noteHoardWrite s c w v) (hoardA c.die (c.idx / 18) w) v) (hoardA c.die (c.idx / 18) w) .clean

/-- A running kernel's write of a Hoard word that it owns takes effect in the step (R135, R172). -/
theorem writeHoardOp_owned {w : Nat} (v : Word) (hst : (kern s c.die c.idx).st = .run)
    (hown : ownsWord s c.die c.idx w = true) : writeHoardOp s c w v = .ok () (storeHoard s c w v) := by
  simp only [writeHoardOp, storeHoard, noteHoardWrite, hst, hown, if_true]

/-- It changes no core but for that note, which is none of the core's. -/
theorem storeHoard_core (hc : c.stew = false) (h : CoresWf s) (w : Nat) (v : Word) :
    CoresWf (storeHoard s c w v) ∧ coreOf (storeHoard s c w v) c = coreOf s c := by
  have hkern : (storeHoard s c w v).kern = (noteHoardWrite s c w v).kern := by
    unfold storeHoard storeW
    rw [storeBytes_eq]
    rfl
  have hstew : (storeHoard s c w v).stew = s.stew := by
    unfold storeHoard storeW
    rw [storeBytes_eq]
    rfl
  refine ⟨⟨hkern ▸ (h.setKern _ _ _).1, hstew ▸ h.2⟩, (coreOf_congr hc hkern).trans ?_⟩
  rw [coreOf_kernel hc, coreOf_kernel hc]
  exact (congrArg Kern.core (smGet_smSet_same h.1 _ _) :)

theorem loadW_storeHoard (h : s.wf = true) (w : Nat) (v : Word) :
    loadW (storeHoard s c w v) (hoardA c.die (c.idx / 18) w) = v := by
  have hmem : Memory.wf (noteHoardWrite s c w v).mem = true := (State.wf_mem h :)
  exact (loadW_congr (setEcc_mem _ _ _) _).trans (loadW_storeW hmem _ v)

theorem writeHoardOp_unowned {w : Nat} (v : Word) (hst : (kern s c.die c.idx).st = .run)
    (hown : ownsWord s c.die c.idx w = false) : writeHoardOp s c w v = .unowned s := by
  simp only [writeHoardOp, hst, hown, Bool.false_eq_true, if_false]

theorem readHoardOp_unowned {w : Nat} (hst : (kern s c.die c.idx).st = .run)
    (hown : ownsWord s c.die c.idx w = false) : readHoardOp s c w = .unowned s := by
  simp only [readHoardOp, hst, hown, Bool.false_eq_true, if_false]

/-- A Hoard operand costs one half-step in sample mode (R35, R109). -/
theorem runSlot_halfStep (hc : c.stew = false) {sl : Slot} (h : slotRuns s c m sl = true) {want : Op → Bool}
    (hw : want sl.op = true) {body : Op → Mode → Bool → State → Eff} {f : Regs → Regs}
    (hb : body sl.op m (slotCond (slotState s c m) c sl) (slotState s c m) = regsEff c t f)
    (ht : CoresWf t) (hcore : coreOf t c = coreOf (slotState s c m) c)
    (hhoard : ∀ b, takesHoard b sl = true) :
    ∃ u, runSlot c want body s = .next u ∧ u.mem = t.mem ∧ SameData (f (slotRegs s c m)) (regsOf u c) ∧
      (m = .sample → (coreOf (slotState s c m) c).annulMul = [] →
        (coreOf u c).halves = (coreOf (slotState s c m) c).halves + 1) := by
  obtain ⟨k, hu, ⟨hdata, -, -⟩, hhalves⟩ := runSlot_done hc h hw hb
  have hread : coreOf (updRegs t c f) c = { coreOf (slotState s c m) c with r := f (slotRegs s c m) } := by
    rw [coreOf_updRegs ht, regsOf, hcore, slotRegs, regsOf]
  refine ⟨_, hu, by rw [setCore_kernel hc, updRegs, setCore_kernel hc]; rfl, ?_, fun hm hmul => ?_⟩
  · rw [regsOf, coreOf_setCore (ht.updRegs _)]
    rw [hread] at hdata
    exact hdata
  · have hweight : annulWeight (coreOf (updRegs t c f) c) = 1 := by
      rw [hread]
      exact annulWeight_one (slotRuns_notAnnul h) hmul
    rw [coreOf_setCore (ht.updRegs _), hhalves, hweight, hread, hhoard, hm]
    rfl

/-- LDH brings the word that the kernel's read of the Hoard gives (R135). -/
theorem ldh_effect {cd : Cond} {cb d : Nat} {mo : MemOp} {v : Word} (h : slotRuns s c m ⟨cd, cb, .ldh d mo⟩ = true)
    (hc : c.stew = false) (hread : readHoardOp (slotState s c m) c (rf (slotRegs s c m).p mo.ptr).toNat = .ok v t)
    (ht : t.wf = true) :
    ∃ u, exec (.ldh c) s = .next u ∧ rf (regsOf u c).d d = v ∧ (regsOf u c).p = (postMod c (slotRegs s c m) mo).p ∧
      (m = .sample → (coreOf (slotState s c m) c).annulMul = [] →
        (coreOf u c).halves = (coreOf (slotState s c m) c).halves + 1) := by
  have hwf := slotRuns_wf h
  obtain ⟨-, -, -, -, -, hcd, -, -⟩ := slotRuns_fetch h
  obtain ⟨u, hu, -, ⟨hd, -, -, hp, -⟩, hhalves⟩ := runSlot_halfStep hc h (want := isLdh) rfl (body := hoardBody c)
    (f := fun r => setD (postMod c r mo) d v)
    (congrArg (fun g : Got Word => g.toEff m fun v t => regsEff c t fun r => setD (postMod c r mo) d v) hread)
    (State.coresWf ht) (readHoardOp_core hc hwf hread) (fun _ => if_neg hcd)
  exact ⟨u, hu, by rw [hd]; exact rf_setD (regsOf_d_wf hwf c) _ _, hp, hhalves⟩

/-- STH writes the word of a bank that the kernel owns in its step (R135, R172). -/
theorem sth_effect {cd : Cond} {cb d : Nat} {mo : MemOp} (h : slotRuns s c m ⟨cd, cb, .sth d mo⟩ = true)
    (hc : c.stew = false) (hst : (kern (slotState s c m) c.die c.idx).st = .run)
    (hown : ownsWord (slotState s c m) c.die c.idx (rf (slotRegs s c m).p mo.ptr).toNat = true) :
    ∃ u, exec (.sth c) s = .next u ∧
      loadW u (hoardA c.die (c.idx / 18) (rf (slotRegs s c m).p mo.ptr).toNat) = rf (slotRegs s c m).d d ∧
      (regsOf u c).p = (postMod c (slotRegs s c m) mo).p ∧
      (m = .sample → (coreOf (slotState s c m) c).annulMul = [] →
        (coreOf u c).halves = (coreOf (slotState s c m) c).halves + 1) := by
  have hwf := slotRuns_wf h
  obtain ⟨-, -, -, -, -, hcd, -, -⟩ := slotRuns_fetch h
  have hwrite := writeHoardOp_owned (rf (slotRegs s c m).d d) hst hown
  obtain ⟨hcw, hcore⟩ := storeHoard_core hc (State.coresWf hwf) (rf (slotRegs s c m).p mo.ptr).toNat (rf (slotRegs s c m).d d)
  obtain ⟨u, hu, hmem, ⟨-, -, -, hp, -⟩, hhalves⟩ := runSlot_halfStep hc h (want := isSth) rfl (body := hoardBody c)
    (f := fun r => postMod c r mo)
    (congrArg (fun g : Got Unit => g.toEff m fun _ t => regsEff c t fun r => postMod c r mo) hwrite)
    hcw hcore (fun _ => if_neg hcd)
  exact ⟨u, hu, (loadW_congr hmem _).trans (loadW_storeHoard hwf _ _), hp, hhalves⟩

/-- A slot that accesses a Hoard bank which its kernel does not own faults with code 0x3 (R158, R172). -/
theorem runSlot_unowned (hc : c.stew = false) {sl : Slot} (h : slotRuns s c m sl = true) {want : Op → Bool}
    (hw : want sl.op = true) {body : Op → Mode → Bool → State → Eff} {α : Type} {g : Got α} {k : α → State → Eff}
    (hst : (kern (slotState s c m) c.die c.idx).st = .run)
    (hb : body sl.op m (slotCond (slotState s c m) c sl) (slotState s c m) = g.toEff m k)
    (hg : g = .unowned (slotState s c m)) :
    ∃ u, runSlot c want body s = .next u ∧ (kern u c.die c.idx).st = .faulted ∧ (kern u c.die c.idx).fcode = 3 ∧
      (kern u c.die c.idx).staged = [] ∧ (regsOf u c).d = (slotRegs s c m).d :=
  runSlot_faults hc h hw hst (by rw [hb, hg]; rfl)

/-- A real product of a register and a word of memory, once that word is read. -/
theorem mulBody_regMem {f : MulFn} (hf : isComplex f = false) {n k : Nat} {mo : MemOp} {int b : Bool} {pm : PMove} :
    mulBody c (.mul f n (.reg k) (.mem mo) int pm) m b s =
      (readMem s c mo.ptr (rf (regsOf s c).p mo.ptr).toNat).toEff m fun y u =>
        withPM c true pm (fun r => postMod c (mulReal f n int (rf (regsOf s c).d k) y r) mo) u :=
  if_neg (Bool.eq_false_iff.mp hf)

/-- The row of a multiply function runs the body of the multiply class. -/
theorem exec_mulInstr (f : MulFn) (c : CoreRef) (s : State) :
    exec (mulInstr f c) s = runSlot c (isMul f) (mulBody c) s := by cases f <;> rfl

/-- The row of a search function runs the body of the search steps. -/
theorem exec_searchInstr (f : SearchFn) (c : CoreRef) (s : State) :
    exec (searchInstr f c) s = runSlot c (isSearch f) (searchBody c) s := by cases f <;> rfl

/-- A sample-mode access through P12 to P15 is a Hoard access while KMODE.HOARD is 1 (R135). -/
theorem readMem_hoard (hc : c.stew = false) {ptr : Nat} (hptr : 12 ≤ ptr) (hmode : hoardMode (regsOf s c) = true) (p : Nat) :
    readMem s c ptr p = readHoardOp s c p := by
  rw [regsOf, coreOf_kernel hc] at hmode
  have hx : ¬ ptr < 8 := by omega
  simp [readMem, hc, hx, hptr, hmode]

theorem writeMem_hoard (hc : c.stew = false) {ptr : Nat} (hptr : 12 ≤ ptr) (hmode : hoardMode (regsOf s c) = true) (p : Nat)
    (v : Word) : writeMem s c ptr p v = writeHoardOp s c p v := by
  rw [regsOf, coreOf_kernel hc] at hmode
  have hx : ¬ ptr < 8 := by omega
  simp [writeMem, hc, hx, hptr, hmode]

/-- Settles O11: each clause is the effect of one slot of a kernel, and the last two are its fault on a bank that it does not own. -/
theorem linesSlipfacesAndHoard : Obligations.LinesSlipfacesAndHoard := by
  refine ⟨?ldlWadi, ?ldlSlip, ?stlWadi, ?stlSlip, ?waits, ?release, ?ldh, ?sth, ?sthUnowned, ?unowned⟩
  case ldlWadi => exact fun s c m cd cb d l h => ldl_effect h
  case ldlSlip =>
    intro s c m cd cb d l h hc hst
    obtain ⟨-, -, -, hnote, -, hcd, -, -⟩ := slotRuns_fetch h
    obtain ⟨u, k, hu, hval, hkern⟩ := ldl_slip_effect h hc hst (want := isLdl) rfl rfl
    refine ⟨u, hu, hval, ?_⟩
    rintro rfl
    rw [hkern, hval, kern_noteSlip hcd hst hnote]
  case stlWadi => exact fun s c m cd cb d l h hc hst => stl_wadi_effect h hc hst
  case stlSlip => exact fun s c m cd cb d l h hc hst => stl_slip_effect h hc hst
  case waits =>
    intro s c cd cb d l h hcd hc hwait
    obtain ⟨hu, hkern⟩ := ldl_waits h hcd hwait
    refine ⟨_, hu, by rw [hkern], ?_⟩
    rw [regsOf, regsOf, coreOf_kernel hc, coreOf_kernel hc, hkern]
  case release =>
    intro s c cd cb d l hc hwait hdone h hst
    obtain ⟨-, hmode, -, hnote, -, hcd, -, -⟩ := slotRuns_fetch h
    have hrun : (kern (slotState (endWait s c) c .sample) c.die c.idx).st ≠ .shadow := by rw [hst]; decide
    obtain ⟨u, k, hu, hval, hkern⟩ := ldl_slip_effect h hc hrun (want := fun _ => true) rfl (body := slipBody c) rfl
    refine ⟨u, (slipRelease_runs hc hwait hdone h).trans hu, ?_, hval⟩
    rw [hkern, kern_noteSlip hcd hrun hnote]
    unfold kern
    rw [slotFetched_kern hc]
    exact (coreMode_sample hmode).2
  case ldh => exact fun s c m cd cb d mo v w h hc hread hw => ldh_effect h hc hread hw
  case sth => exact fun s c m cd cb d mo h hc hst hown => sth_effect h hc hst hown
  case sthUnowned =>
    rintro s c m cd cb d mo r h rfl hst hown
    obtain ⟨-, hmode, -⟩ := slotRuns_fetch h
    exact runSlot_unowned (coreMode_sample hmode).1 h (want := isSth) rfl (body := hoardBody c) hst rfl
      (writeHoardOp_unowned _ hst hown)
  case unowned =>
    rintro s c m cd cb op i d n k mo int f g pm r h hi rfl hf hop hst hown
    obtain ⟨-, hmode, -⟩ := slotRuns_fetch h
    have hc := (coreMode_sample hmode).1
    have hread := readHoardOp_unowned hst hown
    have hload (hptr : 12 ≤ mo.ptr ∧ hoardMode r = true) :=
      (readMem_hoard hc hptr.1 hptr.2 (rf r.p mo.ptr).toNat).trans hread
    have hstore (hptr : 12 ≤ mo.ptr ∧ hoardMode r = true) (v : Word) :=
      (writeMem_hoard hc hptr.1 hptr.2 (rf r.p mo.ptr).toNat v).trans (writeHoardOp_unowned v hst hown)
    simp only [List.mem_cons, Prod.mk.injEq, List.not_mem_nil, or_false] at hi
    obtain ⟨rfl, rfl⟩ | ⟨rfl, rfl⟩ | ⟨rfl, rfl⟩ | ⟨rfl, rfl⟩ | ⟨rfl, rfl⟩ | ⟨rfl, rfl⟩ := hi
    · exact runSlot_unowned hc h (want := isLdh) rfl (body := hoardBody c) hst rfl hread
    · exact runSlot_unowned hc h (want := isLd) rfl (body := loadBody c) hst rfl (hload (hop.resolve_left nofun))
    · exact runSlot_unowned hc h (want := isSt) rfl (body := loadBody c) hst rfl (hstore (hop.resolve_left nofun) _)
    · exact runSlot_unowned hc h (want := isSta) rfl (body := staBody c) hst rfl (hstore (hop.resolve_left nofun) _)
    · rw [exec_searchInstr]
      exact runSlot_unowned hc h (decide_eq_true rfl) (body := searchBody c) hst rfl (hload (hop.resolve_left nofun))
    · rw [exec_mulInstr]
      exact runSlot_unowned hc h (decide_eq_true rfl) (body := mulBody c) hst (mulBody_regMem hf)
        (hload (hop.resolve_left nofun))

end Sys2Proof.Machine
end

section
/-! PROOFS. What the blocks of a die do at a Pulse keeps the part, the phase, the lines that readers see, the swap requests and the
Pulse count (R17, R18): the frame, and its rules for the operations on the state, the governor, the power domains and the spares. -/
namespace Sys2Proof.Machine

variable {s t : State}

/-! ### The registers of the Pulse count -/

/-- An address that is neither word of the package's Pulse count (R26). -/
def NotCount (a : Nat) : Prop := a ≠ Reg.PULSE_COUNT_LO 0 ∧ a ≠ Reg.PULSE_COUNT_HI 0

/-- The pages above PULSE hold none of it. -/
theorem notCount_regA {d q o : Nat} (hq : 2 ≤ q) : NotCount (regA d q o) := by
  unfold NotCount Reg.PULSE_COUNT_LO Reg.PULSE_COUNT_HI regA
  omega

/-- Nor do the other offsets of PULSE. -/
theorem notCount_pulse {d o : Nat} (ho : o < 0x1000) (hlo : o ≠ 0x10) (hhi : o ≠ 0x14) : NotCount (regA d 1 o) := by
  unfold NotCount Reg.PULSE_COUNT_LO Reg.PULSE_COUNT_HI regA
  omega

/-! ### The frame of what the blocks do at a Pulse -/

/-- `t` keeps the part, the phase, the lines that readers see and the swap requests of `s`; with its registers canonical it keeps the
Pulse count, and its kernels and domains stay canonical. -/
structure TickFrame (s t : State) : Prop where
  part : t.part = s.part
  phase : t.phase = s.phase
  lines : t.lines = s.lines
  swaps : t.swaps = s.swaps
  count : smWf (resetReg s.part) 0 s.regs = true → smWf (resetReg s.part) 0 t.regs = true ∧
    reg t (Reg.PULSE_COUNT_LO 0) = reg s (Reg.PULSE_COUNT_LO 0) ∧ reg t (Reg.PULSE_COUNT_HI 0) = reg s (Reg.PULSE_COUNT_HI 0)
  kern : smWf (fun _ => Kern.zero) 0 s.kern = true → smWf (fun _ => Kern.zero) 0 t.kern = true
  doms : smWf (fun _ => DomX.zero) 0 s.doms = true → smWf (fun _ => DomX.zero) 0 t.doms = true

namespace TickFrame

theorem refl (s : State) : TickFrame s s := ⟨rfl, rfl, rfl, rfl, fun h => ⟨h, rfl, rfl⟩, id, id⟩

theorem trans {u : State} (h : TickFrame s t) (hu : TickFrame t u) : TickFrame s u where
  part := hu.part.trans h.part
  phase := hu.phase.trans h.phase
  lines := hu.lines.trans h.lines
  swaps := hu.swaps.trans h.swaps
  count hw := by
    obtain ⟨ht, hlo, hhi⟩ := h.count hw
    rw [← h.part] at ht ⊢
    obtain ⟨hu', hlo', hhi'⟩ := hu.count ht
    exact ⟨hu', hlo'.trans hlo, hhi'.trans hhi⟩
  kern := hu.kern ∘ h.kern
  doms := hu.doms ∘ h.doms

theorem pulseCount_eq (h : TickFrame s t) (hr : smWf (resetReg s.part) 0 s.regs = true) : pulseCount t = pulseCount s := by
  obtain ⟨-, hlo, hhi⟩ := h.count hr
  unfold pulseCount
  rw [hlo, hhi]

theorem setRegAt (h : TickFrame s t) {a : Nat} {w : Word} (ha : NotCount a) : TickFrame s (setReg t a w) where
  part := h.part
  phase := h.phase
  lines := h.lines
  swaps := h.swaps
  count hw := by
    obtain ⟨ht, hlo, hhi⟩ := h.count hw
    rw [← h.part] at ht ⊢
    have hne (b : Nat) (hb : b ≠ a) : reg (Machine.setReg t a w) b = reg t b := smGet_smSet_ne ht hb w
    exact ⟨smWf_smSet ht (Nat.zero_le _) w, (hne _ ha.1.symm).trans hlo, (hne _ ha.2.symm).trans hhi⟩
  kern := h.kern
  doms := h.doms

theorem setFldAt (h : TickFrame s t) {a : Nat} {f : Fld} {v : Nat} (ha : NotCount a) : TickFrame s (setFld t a f v) := h.setRegAt ha

theorem incRegAt (h : TickFrame s t) {a : Nat} (ha : NotCount a) : TickFrame s (incReg t a) := h.setRegAt ha

theorem ite {c : Prop} [Decidable c] {u : State} (ht : TickFrame s t) (hu : TickFrame s u) :
    TickFrame s (if c then t else u) := by
  split
  · exact ht
  · exact hu

theorem satFldAt (h : TickFrame s t) {a : Nat} {f : Fld} (ha : NotCount a) : TickFrame s (satFld t a f) := by
  unfold satFld
  exact .ite (h.setRegAt ha) h

/-! Registers of a page above PULSE. -/

theorem setReg (h : TickFrame s t) {d q o : Nat} {w : Word} : TickFrame s (setReg t (regA d (q + 2) o) w) :=
  h.setRegAt (notCount_regA (by omega))

theorem setFld (h : TickFrame s t) {d q o v : Nat} {f : Fld} : TickFrame s (setFld t (regA d (q + 2) o) f v) :=
  h.setFldAt (notCount_regA (by omega))

theorem incReg (h : TickFrame s t) {d q o : Nat} : TickFrame s (incReg t (regA d (q + 2) o)) := h.incRegAt (notCount_regA (by omega))

theorem incFld (h : TickFrame s t) {d q o : Nat} {f : Fld} : TickFrame s (incFld t (regA d (q + 2) o) f) :=
  h.setFldAt (notCount_regA (by omega))

theorem satFld (h : TickFrame s t) {d q o : Nat} {f : Fld} : TickFrame s (satFld t (regA d (q + 2) o) f) :=
  h.satFldAt (notCount_regA (by omega))

/-! Registers of the pages that units of one kind have in a row. -/

theorem setRegOf (h : TickFrame s t) {d q i o : Nat} {w : Word} : TickFrame s (Machine.setReg t (regA d (q + 2 + i) o) w) :=
  h.setRegAt (notCount_regA (by omega))

theorem setFldOf (h : TickFrame s t) {d q i o v : Nat} {f : Fld} : TickFrame s (Machine.setFld t (regA d (q + 2 + i) o) f v) :=
  h.setFldAt (notCount_regA (by omega))

theorem incRegOf (h : TickFrame s t) {d q i o : Nat} : TickFrame s (Machine.incReg t (regA d (q + 2 + i) o)) :=
  h.incRegAt (notCount_regA (by omega))

theorem satFldOf (h : TickFrame s t) {d q i o : Nat} {f : Fld} : TickFrame s (Machine.satFld t (regA d (q + 2 + i) o) f) :=
  h.satFldAt (notCount_regA (by omega))

theorem setKern (h : TickFrame s t) {d k : Nat} {v : Kern} : TickFrame s (setKern t d k v) where
  part := h.part
  phase := h.phase
  lines := h.lines
  swaps := h.swaps
  count := h.count
  kern hw := smWf_smSet (h.kern hw) (Nat.zero_le _) v
  doms := h.doms

theorem setDom (h : TickFrame s t) {d m : Nat} {x : DomX} : TickFrame s (setDom t d m x) where
  part := h.part
  phase := h.phase
  lines := h.lines
  swaps := h.swaps
  count := h.count
  kern := h.kern
  doms hw := smWf_smSet (h.doms hw) (Nat.zero_le _) x

theorem each {α : Type} {xs : List α} {f : α → State → State} (h : TickFrame s t)
    (hf : ∀ x u, TickFrame s u → TickFrame s (f x u)) : TickFrame s (each xs f t) :=
  each_keeps xs f (fun x _ u hu => hf x u hu) h

theorem setFresh (h : TickFrame s t) {n : Nat} : TickFrame s { t with fresh := n } := { h with }
theorem setLinkDev (h : TickFrame s t) {x : LinkDev} : TickFrame s { t with linkDev := x } := { h with }
theorem setTab (h : TickFrame s t) {u d i : Nat} {w : Word} : TickFrame s (setTab t u d i w) := { h with }
theorem setEcc (h : TickFrame s t) {a : Nat} {e : EccMark} : TickFrame s (setEcc t a e) := { h with }
theorem storeByte (h : TickFrame s t) {a : Nat} {v : Byte} : TickFrame s (storeByte t a v) := { h with }
theorem publish (h : TickFrame s t) {d n : Nat} {v : Word} {ok : Bool} : TickFrame s (publish t d n v ok) := { h with }
theorem setPodX (h : TickFrame s t) {d p : Nat} {x : PodX} : TickFrame s (setPodX t d p x) := { h with }
theorem setDieX (h : TickFrame s t) {d : Nat} {x : DieX} : TickFrame s (setDieX t d x) := { h with }
theorem setRows (h : TickFrame s t) {d p : Nat} {r : Rows} : TickFrame s (setRows t d p r) := { h with }
theorem setBridge (h : TickFrame s t) {d n : Nat} {b : BridgePort} : TickFrame s (setBridge t d n b) := { h with }
theorem setLinkPort (h : TickFrame s t) {d : Nat} {p : LinkPort} : TickFrame s (setLinkPort t d p) := { h with }
theorem setCaravan (h : TickFrame s t) {d p : Nat} {x : Caravan} : TickFrame s (setCaravan t d p x) := { h with }
theorem setDdr (h : TickFrame s t) {d : Nat} {x : Ddr} : TickFrame s (setDdr t d x) := { h with }
theorem setSap (h : TickFrame s t) {d m : Nat} {x : SapPort} : TickFrame s (setSap t d m x) := { h with }
theorem setMeter (h : TickFrame s t) {d m : Nat} {x : Meter} : TickFrame s (setMeter t d m x) := { h with }
theorem setGen (h : TickFrame s t) {d c : Nat} {x : Gen} : TickFrame s (setGen t d c x) := { h with }

theorem storeBytes (h : TickFrame s t) {a v n : Nat} : TickFrame s (storeBytes t a v n) := by
  rw [storeBytes_eq]
  exact { h with }

/-! ### The governor and the power domains (R42–R53, R411–R423) -/

theorem setPoint (h : TickFrame s t) {d vid : Nat} {bb : Int} : TickFrame s (setPoint t d vid bb) :=
  .setFld (.setFld (.setFld h))

theorem govPrep (h : TickFrame s t) {d n : Nat} : TickFrame s (govPrep t d n) :=
  .ite (.setDieX (.setFld (.setPoint h))) h

theorem govCapture (h : TickFrame s t) {d : Nat} {w : Option (Nat × Int)} : TickFrame s (govCapture t d w) := by
  cases w with
  | none => exact .setFld (.setFld h)
  | some x => exact .ite (.setFld (.setFld (.setFld (.setFld h)))) (.setFld (.setFld h))

theorem govClamp (h : TickFrame s t) {d : Nat} : TickFrame s (govClamp t d) :=
  .ite (.ite h (.setPoint h)) h

theorem govPulse (h : TickFrame s t) {d : Nat} {w : Option (Nat × Int)} : TickFrame s (govPulse t d w) := by
  have hclamp : TickFrame s (Machine.govClamp (Machine.govCapture t d w) d) := .govClamp (.govCapture h)
  cases w with
  | none => exact .setFld hclamp
  | some x => exact .ite (.setDieX (.setFld hclamp)) (.ite (.setDieX (.setFld hclamp)) (.setDieX (.setFld hclamp)))

theorem noteEntry (h : TickFrame s t) {d c m : Nat} {abort : Bool} : TickFrame s (noteEntry t d abort c m) :=
  .ite (.setFld (.satFld h)) (.setReg (.setFld (.satFld h)))

theorem moveDom (h : TickFrame s t) {d m : Nat} {x : DomX} : TickFrame s (moveDom t d m x) := by
  unfold Machine.moveDom
  split
  · exact .ite (.govPrep (.setDom h)) (.setDom h)
  · exact .setDom h

theorem refuseEntry (h : TickFrame s t) {d m c : Nat} : TickFrame s (refuseEntry t d m c) :=
  .ite h (.noteEntry (.setDom h))

theorem syncDomain (h : TickFrame s t) {wake : Option Nat} {d m : Nat} : TickFrame s (syncDomain wake d m t) := by
  have hre : TickFrame s (retarget wake d m t) := by
    unfold retarget
    dsimp only
    split
    · exact h
    · split
      · exact .ite (.noteEntry (.moveDom h)) (.setDom (.satFld h))
      · exact .setDom (.satFld h)
      · exact .setDom (.satFld h)
      · exact .setDom h
  unfold Machine.syncDomain recheckEntry
  dsimp only
  split
  · exact .refuseEntry (.moveDom hre)
  · exact hre

theorem powerSync (h : TickFrame s t) {d : Nat} : TickFrame s (powerSync t d) := .each h fun _ _ hu => .syncDomain hu

theorem powerSyncAll (h : TickFrame s t) {wake : Option Nat} : TickFrame s (powerSyncAll t wake) :=
  .each h fun _ _ hu => .each hu fun _ _ hv => .syncDomain hv

/-! ### Spares, rows and refusals (R433–R442) -/

theorem spareLog (h : TickFrame s t) {d ty a b c : Nat} : TickFrame s (spareLog t d ty a b c) :=
  .incReg (.setTab (.setTab (.each h fun _ _ hu => .setTab (.setTab hu))))

theorem setSpares (h : TickFrame s t) {d p : Nat} {xs : List Nat} : TickFrame s (setSpares t d p xs) :=
  .setFld (.setFld (.setFld (.setFld h)))

theorem setTarget (h : TickFrame s t) {d p i : Nat} : TickFrame s (setTarget t d p i) := .setFld h

theorem spareRoles (h : TickFrame s t) {d p : Nat} : TickFrame s (spareRoles t d p) :=
  .each h fun _ _ hu => .ite (.setKern hu) hu

theorem startSpares (h : TickFrame s t) {d p : Nat} : TickFrame s (startSpares t d p) :=
  .spareRoles (.setPodX (.setTarget (.setSpares (.each h fun _ _ hu => .setKern hu))))

theorem kernelCorrected (h : TickFrame s t) {d k m w a : Nat} {b : Bool} : TickFrame s (kernelCorrected t d k m b w a) :=
  .setEcc (.setFldOf (.setFldOf (.setFldOf (.satFldOf h))))

theorem scrubKernel (h : TickFrame s t) {d k lo hi : Nat} : TickFrame s (scrubKernel t d k lo hi) :=
  .each h fun _ _ hu => .kernelCorrected hu

theorem copyMem (h : TickFrame s t) {d j k : Nat} : TickFrame s (copyMem t d j k) :=
  { h.scrubKernel (d := d) (k := j) (lo := 0) (hi := 0x2_0000) with }

theorem loadCopy (h : TickFrame s t) {d p : Nat} : TickFrame s (loadCopy t d p) :=
  .each h fun _ _ hu => .setKern (.copyMem hu)

theorem orderRepair (h : TickFrame s t) {d p row : Nat} : TickFrame s (orderRepair t d p row) :=
  .ite h (.ite (.setFld (.setRows h)) (.ite (.setRows h) (.setFldOf (.setRows h))))

theorem tallyRow (h : TickFrame s t) {d p row : Nat} : TickFrame s (tallyRow t d p row) :=
  .ite (.orderRepair (.setRows h)) (.setRows h)

theorem switchRows (h : TickFrame s t) {d : Nat} : TickFrame s (switchRows t d) := by
  have hmark (p row : Nat) (u : State) (hu : TickFrame s u) : TickFrame s (Machine.each (rowAddrs d p row) (fun a u =>
      match eccAt u a with
      | .double => Machine.setEcc (Machine.storeBytes u a 0 (if p = 8 then 8 else 4)) a .clean
      | _ => Machine.setEcc u a .clean) u) := by
    refine .each hu fun a v hv => ?_
    split
    · exact .setEcc (.storeBytes hv)
    · exact .setEcc hv
  exact .each h fun p u hu => .setRows (.each hu fun row v hv =>
    .ite (.spareLog (.setFld (.setFld (.setFld (hmark p row v hv))))) (.spareLog (.setFldOf (.setFldOf (.setFld (hmark p row v hv))))))

theorem logRefusal (h : TickFrame s t) {d k code a : Nat} {b : Bool} : TickFrame s (logRefusal t d k b code a) := by
  have hcnt : TickFrame s (Machine.incReg t (Reg.PULSE_ADMIT_CNT d)) :=
    .incRegAt h (notCount_pulse (by decide) (by decide) (by decide))
  exact .ite hcnt (.setRegAt hcnt (notCount_pulse (by decide) (by decide) (by decide)))

end TickFrame
end Sys2Proof.Machine
end

section
/-! PROOFS. The frame of a Pulse, continued: working memory and the queues, packets and frames, time. -/
namespace Sys2Proof.Machine

variable {s t : State}

namespace TickFrame

/-- A fold that carries the state beside another value. -/
theorem foldl {α β : Type} {f : State × β → α → State × β} (hf : ∀ acc x, TickFrame s acc.1 → TickFrame s (f acc x).1)
    (xs : List α) {acc : State × β} (h : TickFrame s acc.1) : TickFrame s (xs.foldl f acc).1 := by
  induction xs generalizing acc with
  | nil => exact h
  | cons x xs ih => exact ih (hf acc x h)

/-! ### Working memory and the queues (R364, R370) -/

theorem wmLine (h : TickFrame s t) {d n : Nat} : TickFrame s (wmLine t d n).1 := by
  unfold Machine.wmLine
  dsimp only
  split
  · exact h
  · exact .tallyRow (.satFld (.setEcc h))
  · exact .orderRepair (.satFld h)

theorem wmLines (h : TickFrame s t) {d loc n : Nat} : TickFrame s (wmLines t d loc n).1 := by
  unfold Machine.wmLines
  refine foldl (fun acc i hacc => ?_) _ (acc := (t, true)) h
  exact hacc.wmLine

theorem wmFresh (h : TickFrame s t) {d loc n : Nat} : TickFrame s (wmFresh t d loc n) := .each h fun _ _ hu => .setEcc hu

theorem setQueueCount (h : TickFrame s t) {d q n : Nat} : TickFrame s (setQueueCount t d q n) := .setFldOf (.setFldOf (.setFldOf h))

theorem queueDrop (h : TickFrame s t) {d q : Nat} : TickFrame s (queueDrop t d q) := .setQueueCount (.setFldOf h)

theorem queueTake (h : TickFrame s t) {d q : Nat} : TickFrame s (queueTake t d q).1 := by
  have hl : TickFrame s (queueLines t d q).1 := .wmLines h
  unfold Machine.queueTake
  exact .queueDrop (.ite hl hl.setFresh)

/-! ### Packets and frames (R317–R340) -/

theorem countDrop (h : TickFrame s t) {d : Nat} : TickFrame s (countDrop t d) := .incFld h

theorem portSend (h : TickFrame s t) {d : Nat} {p : Packet} {fast : Bool} : TickFrame s (portSend t d p fast) := .setLinkPort h

theorem routeSend (h : TickFrame s t) {d : Nat} {p : Packet} {fast : Bool} : TickFrame s (routeSend t d p fast) :=
  .ite (.setLinkPort h) (.portSend h)

theorem noteSeen (h : TickFrame s t) {p : Packet} : TickFrame s (noteSeen t p) := { h with }

theorem deviceSend (h : TickFrame s t) {d : Nat} {p : Packet} {fast : Bool} : TickFrame s (deviceSend t d p fast) := by
  unfold Machine.deviceSend
  split
  · exact .each h.noteSeen fun _ _ hu => .ite (.portSend hu) hu
  · split
    · exact .setLinkPort h
    · split
      · exact .routeSend h
      · exact .countDrop h

theorem sendFrame (h : TickFrame s t) {d : Nat} {f : Frame} : TickFrame s (sendFrame t d f) := { h with }

theorem countFail (h : TickFrame s t) {d : Nat} : TickFrame s (countFail t d) := .setFld (.incReg h)

theorem linkDue (h : TickFrame s t) {n d : Nat} : TickFrame s (linkDue t n d) := by
  unfold Machine.linkDue
  dsimp only
  refine .ite (.setLinkPort h) (.ite (.setLinkPort h) ?_)
  split
  · exact .ite (.setLinkPort (.countFail h)) (.setLinkPort h)
  · exact .setLinkPort h
  · exact .ite (.setLinkPort (.countFail h)) (.setLinkPort h)

theorem publishLink (h : TickFrame s t) {d : Nat} : TickFrame s (publishLink t d) := .ite h (.each h fun _ _ hu => .publish hu)

theorem startLink (h : TickFrame s t) {d : Nat} : TickFrame s (startLink t d) := .setLinkPort h

theorem holdTick (h : TickFrame s t) : TickFrame s (holdTick t) :=
  { TickFrame.each h fun _ _ hu => .setLinkPort hu with }

theorem drainHost (h : TickFrame s t) (d n : Nat) : TickFrame s (drainHost d n t) := by
  induction n generalizing t with
  | zero => exact h
  | succ n ih => exact .ite h (ih (.deviceSend h.queueTake))

theorem drainDie (h : TickFrame s t) {d : Nat} : TickFrame s (drainDie d t) := .ite (.drainHost h d _) h

theorem pulseFrame (h : TickFrame s t) {n d : Nat} : TickFrame s (pulseFrame t n d) := .ite (.sendFrame h.drainDie) h.drainDie

/-! ### Time and clock steering (R282–R288, R334–R338) -/

theorem setSteer (h : TickFrame s t) {st : Nat} : TickFrame s (setSteer t st) := by
  have hf : TickFrame s (Machine.setFld t (Reg.CLKSTEER_STAT 0) F.CLKSTEER_STAT_STATE st) := .setFld h
  have hsteer (x : Steer) : TickFrame s { Machine.setFld t (Reg.CLKSTEER_STAT 0) F.CLKSTEER_STAT_STATE st with steer := x } := { hf with }
  exact .ite h (.ite (hsteer _) (hsteer _))

theorem steerSync (h : TickFrame s t) : TickFrame s (steerSync t) := .ite (.setSteer h) (.ite (.setSteer h) h)

theorem setTime (h : TickFrame s t) {st g n u : Nat} : TickFrame s (setTime t st g n u) :=
  .steerSync (.setFld (.setFld (.setFld (.setFld h))))

theorem elect (h : TickFrame s t) : TickFrame s (elect t) := by
  unfold Machine.elect
  dsimp only
  refine .ite h (.ite (.ite h (.setTime h)) ?_)
  split
  · exact .ite (.ite h (.setTime h)) (.ite (.setFld h) (.setTime h.setLinkDev))
  · exact .ite (.ite h (.setTime h)) (.ite h (.setTime h))

theorem timeCapture (h : TickFrame s t) : TickFrame s (timeCapture t) := .setReg h

theorem steerNear (h : TickFrame s t) : TickFrame s (steerNear t).1 := by
  unfold Machine.steerNear
  dsimp only
  split
  · exact h
  · exact { h with }

theorem steerMeasure (h : TickFrame s t) : TickFrame s (steerMeasure t) := .ite h (.setReg h.setFresh)

end TickFrame
end Sys2Proof.Machine
end

section
/-! PROOFS. The frame of a Pulse, continued: clock steering, bridges, ports and the memory behind the die. -/
namespace Sys2Proof.Machine

variable {s t : State}

namespace TickFrame

theorem steerPulse (h : TickFrame s t) : TickFrame s (steerPulse t) := by
  unfold Machine.steerPulse
  refine .ite h ?_
  extract_lets st fillA freqA show_
  have hshow (u : State) (hu : TickFrame s u) : TickFrame s (show_ u) := .setReg hu
  have hnear : TickFrame s (if st = steerAcq || st = steerLock then Machine.steerNear t else (t, true)).1 := by
    split
    · exact h.steerNear
    · exact h
  split
  next u near hsplit =>
    rw [hsplit] at hnear
    extract_lets st' w fill err sum raw
    have hw : TickFrame s w := .ite hnear (.setSteer hnear)
    refine .ite (hshow _ (.setReg hw)) ?_
    split
    · exact hshow _ hw
    · have hv (x : Steer) : TickFrame s { w with steer := x } := { hw with }
      exact hshow _ (.ite (.setSteer (hv _)) (hv _))

/-! ### Bridges (R190–R209) -/

theorem failPort (h : TickFrame s t) {d n : Nat} : TickFrame s (failPort t d n) := .ite (.incReg (.setBridge h)) (.setBridge h)

theorem publishImport (d : Nat) {acc : State × List Nat} (h : TickFrame s acc.1) (e : Nat × Line) :
    TickFrame s (publishImport d acc e).1 := by
  unfold Machine.publishImport
  exact .publish (.ite (.ite h (.setFld (.setFld h))) h)

theorem publishImports (h : TickFrame s t) {d : Nat} : TickFrame s (publishImports t d) := by
  unfold Machine.publishImports
  refine foldl (fun acc n hacc => ?_) _ (acc := (t, [])) h
  dsimp only
  split
  · exact hacc
  · split
    · exact foldl (fun acc e hacc => publishImport d hacc e) _ hacc.setBridge
    · split
      · exact .each hacc fun _ _ hu => .publish hu
      · exact .each (.ite hacc hacc.failPort) fun _ _ hu => .publish hu

theorem sendTransfers (h : TickFrame s t) {d : Nat} : TickFrame s (sendTransfers t d) := .each h fun _ _ hu => .setBridge hu

/-! ### Ports and their converters (R243–R280) -/

theorem sapGainStat (h : TickFrame s t) {d m : Nat} : TickFrame s (sapGainStat t d m) := .setFldOf (.setFldOf h)

theorem setSapState (h : TickFrame s t) {d m st : Nat} : TickFrame s (setSapState t d m st) :=
  .powerSync (.sapGainStat (.setFldOf (.setFldOf h)))

theorem sapFlag (h : TickFrame s t) {d m : Nat} {f : Fld} : TickFrame s (sapFlag t d m f) := .setFldOf h

theorem sapStop (h : TickFrame s t) {d m : Nat} {b : Bool} : TickFrame s (sapStop t d m b) := by
  have hs : TickFrame s (Machine.setSapState (if m < 4 then
      Machine.setFld (Machine.setFld (Machine.setSap t d m (sap t d m).rest) (Reg.BIP_STAT d m) F.BIP_STAT_FALLBACK 0)
        (Reg.BIP_STAT d m) F.BIP_STAT_LOCK 0
    else Machine.setSap t d m (sap t d m).rest) d m sapStopped) :=
    .setSapState (.ite (.setFld (.setFld (.setSap h))) (.setSap h))
  exact .ite hs.sapFlag hs

theorem sapSlip (h : TickFrame s t) {d m : Nat} : TickFrame s (sapSlip t d m) := .ite h (.sapFlag (.incRegOf h))

theorem convAgePulse (h : TickFrame s t) {d m : Nat} : TickFrame s (convAgePulse t d m) :=
  .ite h (.ite (.setSap h.setFresh) (.setSap h))

theorem sapPublish (h : TickFrame s t) {d m : Nat} {r : List (Nat × Word)} {b : Bool} : TickFrame s (sapPublish t d m r b) :=
  .each h fun _ _ hu => .publish hu

theorem rxStepDown (h : TickFrame s t) {d m : Nat} : TickFrame s (rxStepDown t d m) := .sapGainStat (.setSap h)

theorem convLines (h : TickFrame s t) {d m : Nat} : TickFrame s (convLines t d m) :=
  .ite (.setFld h.convAgePulse) (.ite (.sapPublish h.convAgePulse) (.ite (.sapPublish h.convAgePulse) h.convAgePulse))

theorem sapPulseRx (h : TickFrame s t) {d m : Nat} : TickFrame s (sapPulseRx t d m) := by
  unfold Machine.sapPulseRx
  dsimp only
  refine .ite h (.ite h.sapStop ?_)
  have hr : TickFrame s (if rxLost t d m then Machine.rxStepDown t d m else t) := .ite h.rxStepDown h
  generalize (if rxLost t d m then Machine.rxStepDown t d m else t) = u at hr ⊢
  refine .ite hr.convLines ?_
  split
  · split
    · exact .setSap hr.sapPublish
    · exact hr
  · split
    · split
      · exact hr.sapPublish
      · exact hr
    · split
      · exact .setSap hr.sapPublish
      · exact hr.setSap
      · exact .setSap (.ite hr.sapPublish (.sapPublish hr.sapSlip))

theorem sapPulseTx (h : TickFrame s t) {d m : Nat} : TickFrame s (sapPulseTx t d m) :=
  .ite h (.ite (.ite (.sapSlip (.setSap h)) (.setSap h)) (.setSap h))

theorem bipCapture (h : TickFrame s t) {d : Nat} : TickFrame s (bipCapture t d) := .each h fun _ _ hu => .setFld hu

/-! ### Memory behind the die: LPDDR4X and the rings of biphase ports (R259, R380–R395) -/

theorem ddrTouch (h : TickFrame s t) {d : Nat} : TickFrame s (ddrTouch t d) := .setDdr h

theorem startTraining (h : TickFrame s t) {d : Nat} : TickFrame s (startTraining t d) := .setDdr (.setFld (.setFld h))

theorem closeWindow (h : TickFrame s t) {d : Nat} : TickFrame s (closeWindow t d) := .ite (.startTraining (.setDdr h)) (.setDdr h)

theorem ddrPulse (h : TickFrame s t) {d : Nat} : TickFrame s (ddrPulse t d) :=
  .each (.setDdr (.ite h.closeWindow h)) fun _ _ hu => .setCaravan hu

theorem storeRun (bs : List Byte) {acc : State × Nat} (h : TickFrame s acc.1) :
    TickFrame s (bs.foldl (fun (acc : State × Nat) b => (Machine.storeByte acc.1 acc.2 b, acc.2 + 1)) acc).1 :=
  foldl (fun _ _ hacc => hacc.storeByte) bs h

theorem ddrWrite (h : TickFrame s t) {d loc : Nat} {bs : List Byte} : TickFrame s (ddrWrite t d loc bs) :=
  .ddrTouch (.each (storeRun bs (acc := (t, pkgA d loc)) h) fun _ _ hu => .setCaravan hu)

theorem busError (h : TickFrame s t) {d kind addr : Nat} {a : Access} {w : Bool} : TickFrame s (busError t d kind addr a w) :=
  .ite h (.setReg (.setReg h))

theorem dmaWritePage (h : TickFrame s t) {d loc : Nat} {bs : List Byte} {a : Access} : TickFrame s (dmaWritePage t d loc bs a) := by
  unfold Machine.dmaWritePage
  split
  · exact h.busError
  · exact .ite (.wmFresh (storeRun bs (acc := (t, pkgA d loc)) h)) h.ddrWrite

theorem dmaWrite (h : TickFrame s t) {d loc : Nat} {bs : List Byte} {a : Access} : TickFrame s (dmaWrite t d loc bs a) :=
  .ite h.dmaWritePage h.dmaWritePage.dmaWritePage

theorem ringWrite (h : TickFrame s t) {d base size o : Nat} {bs : List Byte} : TickFrame s (ringWrite t d base size o bs) :=
  foldl (fun _ _ hacc => hacc.dmaWrite) _ (acc := (t, bs)) h

theorem statusWrite (h : TickFrame s t) {d m : Nat} {bs : List Byte} : TickFrame s (statusWrite d m bs t) :=
  .ite (.setFld (.incFld h)) (.setFld h.ringWrite)

theorem statusDrain (h : TickFrame s t) {d m : Nat} : TickFrame s (statusDrain t d m) :=
  .ite h (.each (.setSap h) fun _ _ hu => hu.statusWrite)

end TickFrame
end Sys2Proof.Machine
end

section
/-! PROOFS. The frame of a Pulse, continued: meters, detectors, generators, captures and spares; a die at a Pulse and at a start. -/
namespace Sys2Proof.Machine

variable {s t : State}

namespace TickFrame

/-! ### Meters, detectors, look-ahead, generators and faders (R289–R306) -/

theorem fadePulse (h : TickFrame s t) {d : Nat} : TickFrame s (fadePulse t d) := .each h fun _ _ hu => .ite (.setTab hu) hu

theorem meterAlarm (h : TickFrame s t) {d m : Nat} : TickFrame s (meterAlarm t d m) :=
  .ite h (.ite (.setReg (.setFldOf h)) (.setFldOf h))

theorem meterTake (h : TickFrame s t) {d m : Nat} : TickFrame s (meterTake d m t) := .ite (.setFldOf h) h

theorem meterPublish (h : TickFrame s t) {d m : Nat} : TickFrame s (meterPublish d m t) := by
  unfold Machine.meterPublish
  dsimp only
  split
  · exact .ite (.publish h) h
  · exact h

theorem meterPulse (h : TickFrame s t) {d m : Nat} : TickFrame s (meterPulse d m t) := by
  unfold Machine.meterPulse
  extract_lets old w n edge x
  exact .ite (.setMeter h) (.setMeter (.ite (.ite (.meterAlarm (.setRegOf h)) (.setRegOf h)) h))

theorem detSet (h : TickFrame s t) {d n c : Nat} {b : Bool} : TickFrame s (detSet t d n b c) := .setTab h

theorem detPulse (h : TickFrame s t) {d n : Nat} : TickFrame s (detPulse d n t) := .detSet h

theorem detectors (h : TickFrame s t) {d : Nat} : TickFrame s (detectors t d) :=
  .setDieX (.each (.each (.each h fun _ _ hu => .detSet hu) fun _ _ hu => .detPulse hu) fun _ _ hu => .setReg hu)

theorem mapPublish (h : TickFrame s t) {d : Nat} : TickFrame s (mapPublish t d) := .each h fun _ _ hu => .publish hu

theorem laPulse (h : TickFrame s t) {d n : Nat} : TickFrame s (laPulse d n t) := { h with }

theorem lookaheads (h : TickFrame s t) {d : Nat} : TickFrame s (lookaheads t d) := .setDieX (.each h fun _ _ hu => .laPulse hu)

theorem setGenState (h : TickFrame s t) {d c st : Nat} : TickFrame s (setGenState t d c st) := .setFld (.setFld (.setFld h))

theorem genPublish (h : TickFrame s t) {d c : Nat} : TickFrame s (genPublish t d c) := .publish h

theorem genPulse (h : TickFrame s t) {d c : Nat} : TickFrame s (genPulse d c t) :=
  .ite h (.ite (.setFld (.setGenState (.setGen h)))
    (.ite (.ite (.setFld (.genPublish (.setGen h))) (.setGen h)) (.ite (.setFld (.setGen h)) (.setFld (.genPublish (.setGen h))))))

/-! ### Parking, captures and latencies (R185, R242, R302–R304) -/

theorem silenceEvt (h : TickFrame s t) {d p : Nat} {f : Fld} : TickFrame s (silenceEvt t d p f) := .ite h (.setFld h)

theorem podMove (h : TickFrame s t) {d p : Nat} {a b : KState} : TickFrame s (podMove t d p a b) :=
  .each h fun _ _ hu => .ite (.setKern hu) hu

theorem parkPulse (h : TickFrame s t) {d p : Nat} : TickFrame s (parkPulse t d p) := by
  unfold Machine.parkPulse
  extract_lets a err t1 t2 quiet x u
  have ht2 : TickFrame s t2 := .setFld (.ite h.silenceEvt h)
  have hu : TickFrame s u := ht2.setPodX
  split
  · split
    · exact ht2.setPodX
    · exact .ite (.silenceEvt ht2.setPodX) hu
  · exact .ite (.satFld (.silenceEvt (.setFld hu.podMove))) hu

theorem peekCapture (h : TickFrame s t) {d : Nat} : TickFrame s (peekCapture t d) := .each h fun _ _ hu => .setFld (.setReg hu)

theorem convTerm (h : TickFrame s t) {d m slot plain std low : Nat} {tx : Bool} : TickFrame s (convTerm t d m slot tx plain std low).1 := by
  unfold Machine.convTerm
  split
  · exact h
  · split
    · exact h
    · exact { h with }

theorem latCapture (h : TickFrame s t) {d i : Nat} : TickFrame s (latCapture d i t) := by
  unfold Machine.latCapture
  extract_lets w0 w1 src snk sd
  have hin : TickFrame s (if src < 0x140 then Machine.convTerm t sd (src / 32) (src % 32) false 1 20 8 else (t, 0)).1 := by
    split
    · exact h.convTerm
    · exact h
  split
  next u inT hsplit =>
    rw [hsplit] at hin
    have hout : TickFrame s (if 0x140 ≤ snk && snk < 0x280 then
        Machine.convTerm u d ((snk - 0x140) / 32) ((snk - 0x140) % 32) true 2 22 10 else (u, 0)).1 := by
      split
      · exact hin.convTerm
      · exact hin
    split
    next v outT hsplit' =>
      rw [hsplit'] at hout
      exact .setTab hout.setTab

theorem latencies (h : TickFrame s t) {d : Nat} : TickFrame s (latencies t d) := .each h fun _ _ hu => .latCapture hu

theorem recapture (h : TickFrame s t) {d k : Nat} : TickFrame s (recapture t d k) := .setKern h

theorem captureDie (h : TickFrame s t) {d : Nat} : TickFrame s (captureDie d t) := .each (.setDieX h) fun _ _ hu => .recapture hu

/-! ### The spares at a Pulse (R433–R443) -/

theorem moveTab (h : TickFrame s t) {u d a b n : Nat} : TickFrame s (moveTab t u d a b n) := .each { h with } fun _ _ hu => .setTab hu

theorem enginePulse (h : TickFrame s t) {d : Nat} : TickFrame s (enginePulse t d) := by
  unfold Machine.enginePulse
  refine .ite h ?_
  split
  · exact h
  · extract_lets a sp moved ports x t1 t2 t3 t4 t5 t6
    have ht1 : TickFrame s t1 := .setDieX h.moveTab
    have ht2 : TickFrame s t2 := ht1.setRegOf
    have ht3 : TickFrame s t3 := ht2.setFld.setFld.setFld
    have ht4 : TickFrame s t4 := ht3.setFld
    have ht5 : TickFrame s t5 := ht4.spareLog
    have ht6 : TickFrame s t6 := .each ht5 fun _ _ hu => .setSap hu
    exact .ite ht6 ht6.incRegOf

theorem decideTrigger (h : TickFrame s t) {d p : Nat} {tr : Nat × Nat} : TickFrame s (decideTrigger t d p tr) := by
  unfold Machine.decideTrigger
  obtain ⟨slot, cause⟩ := tr
  extract_lets x sp u len
  have ht : TickFrame s u := .ite (.setFld h) h
  refine .ite ht.spareLog (.ite ht ?_)
  split
  · split
    · exact ht.setPodX
    · exact ht.spareLog
  · exact .ite ht.setPodX ht.setPodX

theorem rampPulse (h : TickFrame s t) {d p : Nat} : TickFrame s (rampPulse t d p) := by
  unfold Machine.rampPulse
  dsimp only
  split
  · exact h
  · exact .ite h.setPodX h.setPodX

theorem backsPulse (h : TickFrame s t) {d p : Nat} : TickFrame s (backsPulse t d p) := .setPodX h

theorem dropTake (h : TickFrame s t) {d p : Nat} {k : Takeover} : TickFrame s (dropTake t d p k) :=
  .spareRoles (.setTarget (.ite (.setSpares h.setPodX) h.setPodX))

theorem takePulse (h : TickFrame s t) {d p : Nat} : TickFrame s (takePulse t d p) := by
  unfold Machine.takePulse
  dsimp only
  split
  · exact h
  · exact .ite h.dropTake (.ite h (.setPodX (.ite h h.loadCopy)))

theorem takeTriggers (h : TickFrame s t) (d p n : Nat) : TickFrame s (takeTriggers d p n t) := by
  induction n generalizing t with
  | zero => exact h
  | succ n ih =>
    unfold Machine.takeTriggers
    dsimp only
    split
    · exact h
    · exact .ite h (ih (.decideTrigger h.setPodX))

theorem freezePeriod (h : TickFrame s t) {d p : Nat} : TickFrame s (freezePeriod t d p) := .setPodX h

theorem periodPulse (h : TickFrame s t) {d p : Nat} : TickFrame s (periodPulse t d p) := by
  unfold Machine.periodPulse
  extract_lets x
  split
  · exact .ite h.freezePeriod h
  · refine .ite (.spareRoles (.setTarget h.setPodX)) (.ite h.freezePeriod ?_)
    exact .ite (.ite (.spareRoles (.setPodX h.loadCopy)) h.setPodX) (.ite (.spareRoles (.setTarget h.setPodX)) h.setPodX)

theorem sparesPulse (h : TickFrame s t) {d p : Nat} : TickFrame s (sparesPulse t d p) :=
  .ite h.setPodX (.periodPulse (.backsPulse (.takeTriggers h.setPodX.rampPulse.takePulse d p _)))

/-! ### A die at a Pulse (R18) -/

theorem kernelPulse (h : TickFrame s t) {d k : Nat} : TickFrame s (kernelPulse d k t) := .setKern (.ite h.logRefusal h)

theorem kernelStart (h : TickFrame s t) {d k : Nat} : TickFrame s (kernelStart d k t) := .ite (.setKern h) h

theorem openSlips (h : TickFrame s t) : TickFrame s (openSlips t) := { h with }

theorem clearLines (h : TickFrame s t) {d : Nat} {f : Nat → Bool} : TickFrame s (clearLines t d f) :=
  .each h fun _ _ hu => .publish hu

theorem testLines (h : TickFrame s t) {d : Nat} : TickFrame s (testLines t d) := .ite (.each h fun _ _ hu => .publish hu) h

theorem blocksPublish (h : TickFrame s t) {d : Nat} : TickFrame s (blocksPublish d t) :=
  .each (.publishImports (.each (.mapPublish (.each (.each h fun _ _ hu => .meterTake hu) fun _ _ hu => .meterPublish hu))
    fun _ _ hu => .genPulse hu)) fun _ _ hu => .sapPulseRx hu

theorem diePulse (h : TickFrame s t) {d : Nat} : TickFrame s (diePulse d t) := by
  have hk : TickFrame s (Machine.detectors (Machine.each (listed (Machine.govPulse t d (worstMargin t d)) d) (Machine.kernelPulse d)
    (Machine.govPulse t d (worstMargin t d))) d) := .detectors (.each h.govPulse fun _ _ hu => .kernelPulse hu)
  exact .each (.enginePulse (.switchRows (.each (.fadePulse (.each (.each (.peekCapture (.each hk fun _ _ hu => .parkPulse hu))
    fun _ _ hu => .sapPulseTx hu) fun _ _ hu => .meterPulse hu)) fun _ _ hu => .setBridge hu))) fun _ _ hu => .sparesPulse hu

theorem baseCapture (h : TickFrame s t) {d : Nat} : TickFrame s (baseCapture d t) := .each h.govPulse fun _ _ hu => .setKern hu

theorem packageCapture (h : TickFrame s t) : TickFrame s (packageCapture t) :=
  .each (.each (.each h fun _ _ hu => .lookaheads hu) fun _ _ hu => .latencies hu) fun _ _ hu => .bipCapture hu

/-! ### The start of the Pulse (R29, R434) -/

theorem scrubBank (h : TickFrame s t) {d k : Nat} {b : Bool} : TickFrame s (scrubBank t d k b) := .ite h h.scrubKernel

theorem loadHoardMode (h : TickFrame s t) {d k j : Nat} : TickFrame s (loadHoardMode t d k j) := .setKern h

theorem startKernel (h : TickFrame s t) {d : Nat} {res : Refusals × List (Nat × Nat)} {c : Cand} :
    TickFrame s (startKernel d res c t) := by
  unfold Machine.startKernel
  extract_lets kn0 kn u
  have hu : TickFrame s u := .ite (.setFldOf h) h
  split
  · exact .logRefusal hu.setKern
  · exact hu.setKern

theorem admitStart (h : TickFrame s t) {d p : Nat} : TickFrame s (admitStart d p t) := by
  unfold Machine.admitStart
  extract_lets t1 t2 cs
  have ht2 : TickFrame s t2 := .each (.each h fun _ _ hu => .loadHoardMode hu) fun _ _ hu => .scrubBank hu
  exact .ite (.each ht2 fun _ _ hu => .startKernel hu) (.each ht2 fun _ _ hu => .startKernel hu)

theorem startDie (h : TickFrame s t) {d : Nat} : TickFrame s (startDie d t) :=
  .testLines (.govPrep (.clearLines (.setDieX (.each (.setFldAt (.each h fun _ _ hu => .admitStart hu)
    (notCount_pulse (by decide) (by decide) (by decide))) fun _ _ hu => .startSpares hu))))

end TickFrame
end Sys2Proof.Machine
end

section
/-! PROOFS. The Pulse as its stages (R17, R18): the lines it shows, the count it carries, the kernels it starts; the end of a run. -/
namespace Sys2Proof.Machine

variable {s t : State}

/-! ### The Pulse count -/

/-- The state with the Pulse count set (R26). -/
def withCount (s : State) (n : Nat) : State :=
  setReg (setReg s (Reg.PULSE_COUNT_LO 0) (BitVec.ofNat 32 n)) (Reg.PULSE_COUNT_HI 0) (BitVec.ofNat 32 (n / 2 ^ 32))

theorem smWf_regs_setReg (hr : smWf (resetReg s.part) 0 s.regs = true) (a : Nat) (w : Word) :
    smWf (resetReg (setReg s a w).part) 0 (setReg s a w).regs = true := smWf_smSet hr (Nat.zero_le _) w

theorem smWf_regs_withCount (hr : smWf (resetReg s.part) 0 s.regs = true) (n : Nat) :
    smWf (resetReg (withCount s n).part) 0 (withCount s n).regs = true := smWf_regs_setReg (smWf_regs_setReg hr _ _) _ _

theorem pulseCount_withCount (hr : smWf (resetReg s.part) 0 s.regs = true) (n : Nat) : pulseCount (withCount s n) = n % 2 ^ 64 := by
  have hlo : reg (withCount s n) (Reg.PULSE_COUNT_LO 0) = BitVec.ofNat 32 n :=
    (smGet_smSet_ne (smWf_regs_setReg hr _ _) (by decide) _).trans (smGet_smSet_same hr _ _)
  have hhi : reg (withCount s n) (Reg.PULSE_COUNT_HI 0) = BitVec.ofNat 32 (n / 2 ^ 32) :=
    smGet_smSet_same (smWf_regs_setReg hr _ _) _ _
  unfold pulseCount
  rw [hlo, hhi]
  simp only [BitVec.toNat_ofNat]
  omega

theorem pulseCount_lt (s : State) : pulseCount s < 2 ^ 64 := by
  unfold pulseCount
  omega

/-! ### The stages of a Pulse -/

theorem TickFrame.pulseGather (s : State) (n : Nat) : TickFrame (withCount s n) (pulseGather s n) := by
  unfold Machine.pulseGather
  extract_lets t0 ds live t1 t2 t3 t4 t5 t6
  have h1 : TickFrame (withCount s n) t1 := .steerMeasure { TickFrame.refl (withCount s n) with }
  have h2 : TickFrame (withCount s n) t2 := .each h1 fun _ _ hu => .publishLink hu
  have h3 : TickFrame (withCount s n) t3 := .holdTick (.each h2 fun _ _ hu => .linkDue hu)
  have h5 : TickFrame (withCount s n) t5 := .each (.elect h3) fun _ _ hu => .pulseFrame hu
  have h6 : TickFrame (withCount s n) t6 := .each h5 fun _ _ hu => .blocksPublish hu
  exact .each h6 fun _ _ hu => .ite hu.clearLines hu

/-- The kernels of the dies `ds` started (R18 steps 4 and 5). -/
def startAll (ds : List Nat) (s : State) : State := each ds (fun d u => each (listed u d) (kernelStart d) u) s

theorem TickFrame.startAll (h : TickFrame s t) {ds : List Nat} : TickFrame s (startAll ds t) :=
  .each h fun _ _ hu => .each hu fun _ _ hv => .kernelStart hv

/-- The lines of a Pulse visible, before the dies take it up. -/
def showLines (s : State) : State := { s with lines := s.pub, pub := [] }

/-- A Pulse is what it gathers, made visible; what the dies do with it; the start of the kernels; and the power domains brought in line
with the votes. -/
theorem pulseWork_stages (s : State) (n : Nat) :
    ∃ w, TickFrame (showLines (pulseGather s n)) w ∧
      pulseWork s n = powerSyncAll { startAll (dies (pulseGather s n)) w with phase := .tick } none := by
  refine ⟨_, ?_, rfl⟩
  have hcap : TickFrame (showLines (pulseGather s n)) (packageCapture (steerPulse (timeCapture
      { showLines (pulseGather s n) with linkDev :=
          { (showLines (pulseGather s n)).linkDev with change := markMet (n % 2 ^ 32) (showLines (pulseGather s n)).linkDev.change } }))) :=
    .packageCapture (.steerPulse (.timeCapture { TickFrame.refl _ with }))
  exact .each (.openSlips (.each (.each (.each (.each hcap fun _ _ hu => .ite hu.diePulse hu.baseCapture)
    fun _ _ hu => .setLinkPort hu) fun _ _ hu => .each hu.ddrPulse fun _ _ hv => .statusDrain hv) fun _ _ hu => .sendTransfers hu))
    fun _ _ hu => .captureDie hu

theorem lines_pulseWork (s : State) (n : Nat) : (pulseWork s n).lines = (pulseGather s n).pub := by
  obtain ⟨w, hw, heq⟩ := pulseWork_stages s n
  rw [heq, (TickFrame.powerSyncAll (TickFrame.refl _)).lines]
  exact hw.startAll.lines

theorem phase_pulseWork (s : State) (n : Nat) : (pulseWork s n).phase = .tick := by
  obtain ⟨w, -, heq⟩ := pulseWork_stages s n
  rw [heq, (TickFrame.powerSyncAll (TickFrame.refl _)).phase]

theorem pulseCount_pulseWork (hr : smWf (resetReg s.part) 0 s.regs = true) (n : Nat) : pulseCount (pulseWork s n) = n % 2 ^ 64 := by
  obtain ⟨w, hw, heq⟩ := pulseWork_stages s n
  have hg := TickFrame.pulseGather s n
  obtain ⟨hgr, -⟩ := hg.count (smWf_regs_withCount hr n)
  rw [← hg.part] at hgr
  obtain ⟨hwr, -⟩ := hw.startAll.count (t := startAll (dies (pulseGather s n)) w) hgr
  rw [heq]
  calc pulseCount (powerSyncAll { startAll (dies (pulseGather s n)) w with phase := .tick } none)
      = pulseCount (startAll (dies (pulseGather s n)) w) :=
        (TickFrame.powerSyncAll (TickFrame.refl _)).pulseCount_eq (by rw [← hw.startAll.part] at hwr; exact hwr)
    _ = pulseCount (pulseGather s n) := hw.startAll.pulseCount_eq hgr
    _ = pulseCount (withCount s n) := hg.pulseCount_eq (smWf_regs_withCount hr n)
    _ = n % 2 ^ 64 := pulseCount_withCount hr n

/-! ### A running kernel starts at step 0 -/

/-- A kernel at step 0 of a tick, with its pointer snapshot taken and its loop registers cleared (R18, R68). -/
def AtStepZero (kn : Kern) : Prop :=
  kn.active = true ∧ kn.ended = false ∧ kn.staged = [] ∧ kn.core.steps = 0 ∧ kn.core.halves = 0 ∧ kn.core.r.pc = 0 ∧
    kn.core.rep = .idle ∧ kn.core.lact = 0 ∧ kn.core.r.rpc = 0 ∧ kn.core.r.ls = [] ∧ kn.core.r.le = [] ∧ kn.core.r.lc = [] ∧
    kn.core.snap.p = kn.core.r.p ∧ kn.core.snap.b = kn.core.r.b ∧ kn.core.snap.l = kn.core.r.l ∧ kn.core.snap.m = kn.core.r.m

theorem startKern_atStepZero (kn : Kern) : AtStepZero (startKern kn) := by
  simp [AtStepZero, startKern, startTick]

/-- Kernel `k` of die `d`, where it runs in a pod that runs, is at step 0. -/
def Started (d k : Nat) (s : State) : Prop :=
  (kern s d k).st = .run → domLive s d (pdPod (k / 18)) = true → AtStepZero (kern s d k)

theorem kern_setKern_of_wf (hk : smWf (fun _ => Kern.zero) 0 s.kern = true) (d k : Nat) (v : Kern) (e j : Nat) :
    kern (setKern s d k v) e j = if e * 144 + j = d * 144 + k then v else kern s e j := smGet_smSet hk _ _ _

theorem kernelStart_started (hk : smWf (fun _ => Kern.zero) 0 s.kern = true) (d k : Nat) : Started d k (kernelStart d k s) := by
  unfold kernelStart
  split
  next hnow =>
    intro _ _
    rw [kern_setKern_of_wf hk, if_pos rfl]
    exact startKern_atStepZero _
  next hnow =>
    intro hrun hlive
    simp [startsNow, hrun, hlive] at hnow

theorem Started.kernelStart {d k : Nat} (h : Started d k s) (hk : smWf (fun _ => Kern.zero) 0 s.kern = true) (e j : Nat) :
    Started d k (kernelStart e j s) := by
  unfold Machine.kernelStart
  split
  · intro hrun hlive
    rw [kern_setKern_of_wf hk] at hrun ⊢
    by_cases hkey : d * 144 + k = e * 144 + j
    · rw [if_pos hkey]
      exact startKern_atStepZero _
    · rw [if_neg hkey] at hrun ⊢
      exact h hrun hlive
  · exact h

/-- A key without an entry reads as its default. -/
theorem smGet_of_no_key {α : Type} {d : Nat → α} {k : Nat} {xs : List (Nat × α)} (h : ∀ e ∈ xs, e.1 ≠ k) : smGet d xs k = d k := by
  induction xs with
  | nil => rfl
  | cons e xs ih =>
    obtain ⟨j, w⟩ := e
    have hne : k ≠ j := (h (j, w) List.mem_cons_self).symm
    simp [smGet, hne, ih fun e he => h e (List.mem_cons_of_mem _ he)]

/-- A kernel that the die does not list is at its default, in which it is held. -/
theorem kern_of_not_listed {d k : Nat} (hk : k < 144) (h : k ∉ listed s d) : kern s d k = Kern.zero :=
  smGet_of_no_key fun e he hkey => h <|
    List.mem_map.mpr ⟨e, List.mem_filter.mpr ⟨he, by simpa using (by omega : e.1 / 144 = d)⟩, by omega⟩

theorem started_of_not_listed {d k : Nat} (hk : k < 144) (h : k ∉ listed s d) : Started d k s := by
  intro hrun
  rw [kern_of_not_listed hk h] at hrun
  exact absurd hrun (by decide)

/-- Over a list that holds `x`, what the step of `x` establishes and every step keeps holds at the end. -/
theorem each_establishes {β : Type} {P Q : State → Prop} {xs : List β} {x : β} {f : β → State → State} (hx : x ∈ xs)
    (hP : ∀ y u, P u → P (f y u)) (hQ : ∀ u, P u → Q (f x u)) (hkeep : ∀ y u, P u → Q u → Q (f y u)) (h : P s) :
    Q (each xs f s) := by
  obtain ⟨as, bs, rfl⟩ := List.append_of_mem hx
  have hfront : P (each as f s) := each_keeps as f (fun y _ u hu => hP y u hu) h
  have hback : P (each bs f (f x (each as f s))) ∧ Q (each bs f (f x (each as f s))) :=
    each_keeps (P := fun u => P u ∧ Q u) bs f (fun y _ u hu => ⟨hP y u hu.1, hkeep y u hu.1 hu.2⟩) ⟨hP _ _ hfront, hQ _ hfront⟩
  have heq : each (as ++ x :: bs) f s = each bs f (f x (each as f s)) := by simp [each]
  rw [heq]
  exact hback.2

/-- What holds of the kernels of a die once they have been started. -/
theorem startDieKernels_started (hk : smWf (fun _ => Kern.zero) 0 s.kern = true) {d k : Nat} (hlt : k < 144) :
    Started d k (each (listed s d) (kernelStart d) s) := by
  by_cases hin : k ∈ listed s d
  · exact each_establishes (P := fun u => smWf (fun _ => Kern.zero) 0 u.kern = true) hin
      (fun j u hu => (TickFrame.refl u).kernelStart.kern hu) (fun u hu => kernelStart_started hu d k)
      (fun j u hu hst => hst.kernelStart hu d j) hk
  · exact (each_keeps (P := fun u => smWf (fun _ => Kern.zero) 0 u.kern = true ∧ Started d k u) _ _
      (fun j _ u hu => ⟨(TickFrame.refl u).kernelStart.kern hu.1, hu.2.kernelStart hu.1 d j⟩) ⟨hk, started_of_not_listed hlt hin⟩).2

theorem startAll_started (hk : smWf (fun _ => Kern.zero) 0 s.kern = true) {ds : List Nat} {d k : Nat} (hd : d ∈ ds) (hlt : k < 144) :
    Started d k (startAll ds s) :=
  each_establishes (P := fun u => smWf (fun _ => Kern.zero) 0 u.kern = true) hd
    (fun _ u hu => (TickFrame.each (TickFrame.refl u) fun _ _ hv => .kernelStart hv).kern hu)
    (fun _ hu => startDieKernels_started hu hlt)
    (fun e _ hu hst => (each_keeps (P := fun v => smWf (fun _ => Kern.zero) 0 v.kern = true ∧ Started d k v) _ _
      (fun j _ v hv => ⟨(TickFrame.refl v).kernelStart.kern hv.1, hv.2.kernelStart hv.1 e j⟩) ⟨hu, hst⟩).2) hk

/-! ### The power domains after a Pulse -/

/-- Whether the blocks of a domain in this state run (R418, R422). -/
def liveSt : DomSt → Bool
  | .on => true
  | .entering _ from_ held => from_ = 2 && !held
  | _ => false

theorem domLive_eq (s : State) (d m : Nat) : domLive s d m = liveSt (dom s d m).st := by
  unfold domLive
  cases (dom s d m).st <;> rfl

/-- `t` keeps the kernels of `s`, and none of its domains runs that does not run in `s`. -/
structure LiveFrame (s t : State) : Prop where
  kern : t.kern = s.kern
  wf : smWf (fun _ => DomX.zero) 0 t.doms = true
  live (d m : Nat) : domLive t d m = true → domLive s d m = true

namespace LiveFrame

theorem setDom (h : LiveFrame s t) {d m : Nat} {x : DomX} (hx : liveSt x.st = true → domLive t d m = true) :
    LiveFrame s (setDom t d m x) where
  kern := h.kern
  wf := smWf_smSet h.wf (Nat.zero_le _) x
  live e j hu := by
    rw [domLive_eq] at hu
    have hdom : dom (Machine.setDom t d m x) e j = if e * 9 + j = d * 9 + m then x else dom t e j := smGet_smSet h.wf _ _ _
    rw [hdom] at hu
    split at hu
    next hkey =>
      have hsame : domLive t e j = domLive t d m := by unfold domLive dom; rw [hkey]
      exact h.live e j (hsame.trans (hx hu))
    next => exact h.live e j ((domLive_eq t e j).trans hu)

theorem satFld (h : LiveFrame s t) {a : Nat} {f : Fld} : LiveFrame s (satFld t a f) := by
  unfold Machine.satFld
  split
  · exact { h with }
  · exact h

theorem noteEntry (h : LiveFrame s t) {d c m : Nat} {abort : Bool} : LiveFrame s (noteEntry t d abort c m) := by
  unfold Machine.noteEntry
  dsimp only
  split
  · exact { h.satFld with }
  · exact { h.satFld with }

theorem exitPrep (h : LiveFrame s t) {d m : Nat} : LiveFrame s (exitPrep t d m) := by
  unfold Machine.exitPrep govPrep
  split
  · split
    · exact { h with }
    · exact h
  · exact h

theorem moveDom (h : LiveFrame s t) {d m : Nat} {x : DomX} (hx : liveSt x.st = true → domLive t d m = true) :
    LiveFrame s (moveDom t d m x) := by
  unfold Machine.moveDom
  split
  · exact (h.setDom hx).exitPrep
  · exact h.setDom hx

theorem entryUndone_live {d m lvl n : Nat} (hx : (dom t d m).st = .entering lvl n false) :
    liveSt (entryUndone n) = true → domLive t d m = true := by
  rw [domLive_eq, hx]
  unfold entryUndone
  split <;> simp_all [liveSt]

theorem refuseEntry (h : LiveFrame s t) {d m c : Nat} : LiveFrame s (refuseEntry t d m c) := by
  unfold Machine.refuseEntry
  dsimp only
  split
  · exact h
  · exact (h.setDom (x := { dom t d m with refused := true }) (domLive_eq t d m).trans).noteEntry

theorem retarget (h : LiveFrame s t) {wake : Option Nat} {d m : Nat} : LiveFrame s (retarget wake d m t) := by
  have hqueue (f : Fld) (q : Option Nat) (n : Nat) : LiveFrame s (Machine.setDom (Machine.satFld t (Reg.PWR_QCNT d) f) d m
      { dom t d m with tgt := n, refused := false, queued := q }) := by
    refine h.satFld.setDom fun hx => ?_
    rw [domLive_eq]
    unfold Machine.satFld
    split <;> exact hx
  unfold Machine.retarget
  dsimp only
  split
  · exact h
  · split
    next lvl n hst =>
      split
      · exact (h.moveDom (entryUndone_live hst)).noteEntry
      · exact hqueue _ _ _
    · exact hqueue _ _ _
    · exact hqueue _ _ _
    · exact h.setDom (domLive_eq t d m).trans

theorem recheckEntry (h : LiveFrame s t) {d m : Nat} : LiveFrame s (recheckEntry d m t) := by
  unfold Machine.recheckEntry
  dsimp only
  split
  next hst _ => exact (h.moveDom (entryUndone_live hst)).refuseEntry
  next => exact h

theorem powerSyncAll (hw : smWf (fun _ => DomX.zero) 0 s.doms = true) (wake : Option Nat) : LiveFrame s (powerSyncAll s wake) :=
  each_keeps (P := LiveFrame s) _ _ (fun _ _ _ hu => each_keeps (P := LiveFrame s) _ _ (fun _ _ _ hv => hv.retarget.recheckEntry) hu)
    ⟨rfl, hw, fun _ _ hlive => hlive⟩

end LiveFrame

/-- After a Pulse every running kernel of a running pod is at step 0. -/
theorem pulseWork_started (hw : s.wf = true) {d k : Nat} (hd : d < dieCount s.part) (hk : k < 144) (n : Nat) :
    Started d k (pulseWork s n) := by
  obtain ⟨w, hwork, heq⟩ := pulseWork_stages s n
  have hg := TickFrame.pulseGather s n
  have hkern : smWf (fun _ => Kern.zero) 0 w.kern = true := hwork.kern (hg.kern (s := withCount s n) (State.wf_kern hw :))
  have hdoms : smWf (fun _ => DomX.zero) 0 (startAll (dies (pulseGather s n)) w).doms = true :=
    hwork.startAll.doms (hg.doms (s := withCount s n) (State.wf_doms hw :))
  have hmem : d ∈ dies (pulseGather s n) := by
    unfold dies
    rw [hg.part]
    exact List.mem_range.mpr hd
  have hall : Started d k (startAll (dies (pulseGather s n)) w) := startAll_started hkern hmem hk
  have hsync := LiveFrame.powerSyncAll (s := { startAll (dies (pulseGather s n)) w with phase := .tick }) hdoms none
  rw [heq]
  intro hrun hlive
  unfold kern at hrun ⊢
  rw [hsync.kern] at hrun ⊢
  exact hall hrun (hsync.live _ _ hlive)

/-! ### The end of a run (R28, R231) -/

theorem TickFrame.recordSwap (h : TickFrame s t) {d g n r x w : Nat} : TickFrame s (recordSwap t d g n r x w) := by
  have hres : NotCount (Reg.PULSE_SWAP_RES d) := notCount_pulse (by decide) (by decide) (by decide)
  have hwho : NotCount (Reg.PULSE_SWAP_WHO d) := notCount_pulse (by decide) (by decide) (by decide)
  have htgt : NotCount (Reg.PULSE_SWAP_TGT d) := notCount_pulse (by decide) (by decide) (by decide)
  have hcnt : NotCount (Reg.PULSE_SWAP_CNT d) := notCount_pulse (by decide) (by decide) (by decide)
  unfold Machine.recordSwap
  exact .satFldAt (.setRegAt (.setRegAt (.setFldAt (.setFldAt (.setFldAt (.setFldAt h hres) hres) hres) hres) hwho) htgt) hcnt

theorem TickFrame.reportSwap (h : TickFrame s t) {q : SwapReq} {r x w : Nat} : TickFrame s (reportSwap t q r x w) := by
  unfold Machine.reportSwap
  split
  · exact .ite h.recordSwap h.recordSwap.deviceSend
  · exact h.recordSwap

theorem lines_endSwap (s : State) (q : SwapReq) (r x w : Nat) : (endSwap s q r x w).lines = s.lines := by
  unfold endSwap dropSwap
  exact (TickFrame.reportSwap (TickFrame.powerSyncAll (TickFrame.refl _))).lines

theorem lines_stopWaiting (s : State) : (stopWaiting s).lines = s.lines := by
  have hend : ((pendingSwaps s).foldl (fun u r => endSwap u r 0xA r.committed.toNat 0) s).lines = s.lines :=
    List.foldlRecOn (motive := fun u => u.lines = s.lines) _ _ rfl fun u hu r _ => (lines_endSwap u r _ _ _).trans hu
  unfold stopWaiting
  refine (TickFrame.each (.refl _) fun d v hv => ?_).lines.trans hend
  exact .setLinkPort (.each (.each (.each hv fun e x hx => .ite (.setTab (.setTab (.setTab hx))) (.setTab hx))
    fun _ _ hx => .setBridge hx) fun _ _ hx => .ite (.setCaravan (.setFldOf hx)) hx)

theorem stopWaiting_applied (s : State) : ∀ r ∈ (stopWaiting s).swaps, r.applied = true :=
  fun _ hr => (List.mem_filter.mp hr).2

end Sys2Proof.Machine
end

section
/-! PROOFS. What a deadline can change (R19): the frame, with the kernels and the lines that may differ, and its rules for what a
die does in its commit window. -/
namespace Sys2Proof.Machine

variable {s t : State}

/-! ### What a deadline can change -/

/-- The tables that a deadline writes are in canonical form. -/
structure Canon (s : State) : Prop where
  regs : smWf (resetReg s.part) 0 s.regs = true
  kern : smWf (fun _ => Kern.zero) 0 s.kern = true
  pods : smWf (fun _ => PodX.zero) 0 s.pods = true
  pub : smWf (fun _ => deadLine) 0 s.pub = true
  lastPub : smWf (fun _ => (0 : Word)) 0 s.lastPub = true

theorem State.wf_canon (h : s.wf = true) : Canon s :=
  ⟨State.wf_regs h, State.wf_kern h, State.wf_pods h, State.wf_pub h, State.wf_lastPub h⟩

/-- `b` is kernel `a` as a deadline may leave it: the bank stands, a state other than RETIRED is the old one, and the stores to come
are the old ones or none. -/
structure Ends (a b : Kern) : Prop where
  pbank : b.pbank = a.pbank
  st : b.st = .retired ∨ b.st = a.st
  stores : (b.staged = [] ∧ b.passed = []) ∨ (b.staged = a.staged ∧ b.passed = a.passed)

theorem Ends.refl (a : Kern) : Ends a a := ⟨rfl, .inr rfl, .inr ⟨rfl, rfl⟩⟩

theorem Ends.trans {a b c : Kern} (h : Ends a b) (h' : Ends b c) : Ends a c where
  pbank := h'.pbank.trans h.pbank
  st := h'.st.elim .inl fun hc => h.st.elim (fun hb => .inl (hc.trans hb)) fun hb => .inr (hc.trans hb)
  stores := h'.stores.elim .inl fun ⟨hs, hp⟩ => h.stores.elim (fun ⟨hs', hp'⟩ => .inl ⟨hs.trans hs', hp.trans hp'⟩)
    fun ⟨hs', hp'⟩ => .inr ⟨hs.trans hs', hp.trans hp'⟩

theorem Ends.st_eq {a b : Kern} (h : Ends a b) (hb : b.st ≠ .retired) : b.st = a.st := h.st.resolve_left hb

theorem stopLate_ends (kn : Kern) : Ends kn (stopLate kn) := ⟨rfl, .inr rfl, .inl ⟨rfl, rfl⟩⟩

/-- What `t` keeps of `s`: kernels but those of the keys `K`, with their registers; published and held values of lines but those of the
keys `L`; the ramps of displaced kernels. -/
structure DeadFacts (K L : Nat → Prop) (s t : State) : Prop where
  canon : Canon t
  ends (d k : Nat) : Ends (kern s d k) (kern t d k)
  kern (d k : Nat) : ¬ K (d * 144 + k) → kern t d k = kern s d k
  regs (d k o : Nat) : k < 144 → o < 0x1000 → ¬ K (d * 144 + k) → reg t (regA d (0x100 + k) o) = reg s (regA d (0x100 + k) o)
  pub (i : Nat) : ¬ L i → smGet (fun _ => deadLine) t.pub i = smGet (fun _ => deadLine) s.pub i
  lastPub (i : Nat) : ¬ L i → smGet (fun _ => (0 : Word)) t.lastPub i = smGet (fun _ => (0 : Word)) s.lastPub i
  ramp (d p : Nat) : (podX t d p).ramp = (podX s d p).ramp
  backs (d p : Nat) : (podX t d p).backs = (podX s d p).backs

/-- `t` differs from `s` as a deadline may change it: with canonical tables, at most in the kernels of the keys `K` and the lines of the
keys `L`. -/
structure DeadFrame (K L : Nat → Prop) (s t : State) : Prop where
  rest : { t with phase := s.phase, regs := s.regs, tabs := s.tabs, kern := s.kern, lastPub := s.lastPub, pub := s.pub,
                  slip := s.slip, pods := s.pods, dieX := s.dieX } = s
  facts : Canon s → DeadFacts K L s t

/-- An address below the kernel pages of its die (R12). -/
def BelowKernels (a : Nat) : Prop := a % 0x10_0000_0000 < 0x4010_0000

theorem belowKernels_regA {d q o : Nat} (h : q * 0x1000 + o < 0x10_0000) : BelowKernels (regA d q o) := by
  unfold BelowKernels regA
  omega

theorem ne_of_belowKernels {a d k o : Nat} (ha : BelowKernels a) (hk : k < 144) (ho : o < 0x1000) : regA d (0x100 + k) o ≠ a := by
  unfold BelowKernels at ha
  unfold regA
  omega

namespace DeadFrame

variable {K L : Nat → Prop}

theorem refl (s : State) : DeadFrame K L s s where
  rest := rfl
  facts hc := ⟨hc, fun _ _ => .refl _, fun _ _ _ => rfl, fun _ _ _ _ _ _ => rfl, fun _ _ => rfl, fun _ _ => rfl, fun _ _ => rfl,
    fun _ _ => rfl⟩

theorem mem_eq (h : DeadFrame K L s t) : t.mem = s.mem := (congrArg State.mem h.rest :)
theorem lines_eq (h : DeadFrame K L s t) : t.lines = s.lines := (congrArg State.lines h.rest :)
theorem doms_eq (h : DeadFrame K L s t) : t.doms = s.doms := (congrArg State.doms h.rest :)

theorem ite {c : Prop} [Decidable c] {u : State} (ht : DeadFrame K L s t) (hu : DeadFrame K L s u) :
    DeadFrame K L s (if c then t else u) := by
  split
  · exact ht
  · exact hu

theorem each {α : Type} {xs : List α} {f : α → State → State} (h : DeadFrame K L s t)
    (hf : ∀ x ∈ xs, ∀ u, DeadFrame K L s u → DeadFrame K L s (f x u)) : DeadFrame K L s (each xs f t) := each_keeps xs f hf h

/-- A change to the tables, the slipfaces or the hidden records of the dies. -/
theorem other (h : DeadFrame K L s t) {tabs : List (Nat × Word)} {slip : List (Nat × Slip)} {dieX : List (Nat × DieX)} :
    DeadFrame K L s { t with tabs := tabs, slip := slip, dieX := dieX } where
  rest := h.rest
  facts hc :=
    have hf := h.facts hc
    ⟨⟨hf.canon.regs, hf.canon.kern, hf.canon.pods, hf.canon.pub, hf.canon.lastPub⟩, hf.ends, hf.kern, hf.regs, hf.pub, hf.lastPub,
      hf.ramp, hf.backs⟩

theorem setReg (h : DeadFrame K L s t) {a : Nat} {w : Word} (ha : BelowKernels a) : DeadFrame K L s (setReg t a w) where
  rest := h.rest
  facts hc :=
    have hf := h.facts hc
    { hf with
      canon := { hf.canon with regs := smWf_smSet hf.canon.regs (Nat.zero_le _) w }
      regs := fun d k o hk ho hK =>
        (smGet_smSet_ne hf.canon.regs (ne_of_belowKernels ha hk ho) w).trans (hf.regs d k o hk ho hK) }

/-- A register of the page of a kernel that may change. -/
theorem setKernReg (h : DeadFrame K L s t) {d k o : Nat} {w : Word} (hk : k < 144) (ho : o < 0x1000) (hK : Canon s → K (d * 144 + k)) :
    DeadFrame K L s (Machine.setReg t (regA d (0x100 + k) o) w) where
  rest := h.rest
  facts hc :=
    have hf := h.facts hc
    { hf with
      canon := { hf.canon with regs := smWf_smSet hf.canon.regs (Nat.zero_le _) w }
      regs := fun e j o' hj ho' hne => by
        have hkey : e * 144 + j ≠ d * 144 + k := fun heq => hne (heq ▸ hK hc)
        have haddr : regA e (0x100 + j) o' ≠ regA d (0x100 + k) o := by unfold regA; omega
        exact (smGet_smSet_ne hf.canon.regs haddr w).trans (hf.regs e j o' hj ho' hne) }

theorem setFld (h : DeadFrame K L s t) {a : Nat} {f : Fld} {v : Nat} (ha : BelowKernels a) : DeadFrame K L s (setFld t a f v) :=
  h.setReg ha

theorem incReg (h : DeadFrame K L s t) {a : Nat} (ha : BelowKernels a) : DeadFrame K L s (incReg t a) := h.setReg ha

theorem satFld (h : DeadFrame K L s t) {a : Nat} {f : Fld} (ha : BelowKernels a) : DeadFrame K L s (satFld t a f) := by
  unfold Machine.satFld
  exact .ite (h.setReg ha) h

theorem setTab (h : DeadFrame K L s t) {u d i : Nat} {w : Word} : DeadFrame K L s (setTab t u d i w) := h.other
theorem setSlip (h : DeadFrame K L s t) {d p n : Nat} {v : Slip} : DeadFrame K L s (setSlip t d p n v) := h.other
theorem setDieX (h : DeadFrame K L s t) {d : Nat} {x : DieX} : DeadFrame K L s (setDieX t d x) := h.other

theorem setKern (h : DeadFrame K L s t) {d k : Nat} {v : Kern} (hv : Ends (kern t d k) v) (hK : Canon s → K (d * 144 + k)) :
    DeadFrame K L s (setKern t d k v) where
  rest := h.rest
  facts hc := by
    have hf := h.facts hc
    have hset (e j : Nat) := kern_setKern_of_wf hf.canon.kern d k v e j
    refine { hf with
      canon := { hf.canon with kern := smWf_smSet hf.canon.kern (Nat.zero_le _) v }
      ends := fun e j => ?_
      kern := fun e j hne => ?_ }
    · rw [hset]
      split
      next heq =>
        have hsame (u : State) : kern u e j = kern u d k := by unfold kern; rw [heq]
        rw [hsame]
        exact (hf.ends d k).trans hv
      next => exact hf.ends e j
    · have hkey : e * 144 + j ≠ d * 144 + k := fun heq => hne (heq ▸ hK hc)
      rw [hset, if_neg hkey]
      exact hf.kern e j hne

theorem publish (h : DeadFrame K L s t) {d n : Nat} {v : Word} {ok : Bool} (hL : Canon s → L (d * 0x4000 + n)) :
    DeadFrame K L s (publish t d n v ok) where
  rest := h.rest
  facts hc :=
    have hf := h.facts hc
    { hf with
      canon := { hf.canon with pub := smWf_smSet hf.canon.pub (Nat.zero_le _) _ }
      pub := fun i hi =>
        have hne : i ≠ d * 0x4000 + n := fun heq => hi (heq ▸ hL hc)
        (smGet_smSet_ne hf.canon.pub hne _).trans (hf.pub i hi) }

theorem setLastPub (h : DeadFrame K L s t) {d n : Nat} {v : Word} (hL : Canon s → L (d * 0x4000 + n)) :
    DeadFrame K L s (setLastPub t d n v) where
  rest := h.rest
  facts hc :=
    have hf := h.facts hc
    { hf with
      canon := { hf.canon with lastPub := smWf_smSet hf.canon.lastPub (Nat.zero_le _) _ }
      lastPub := fun i hi =>
        have hne : i ≠ d * 0x4000 + n := fun heq => hi (heq ▸ hL hc)
        (smGet_smSet_ne hf.canon.lastPub hne _).trans (hf.lastPub i hi) }

/-- A pod's record, with the ramps that it had. -/
theorem setPodX (h : DeadFrame K L s t) {d p : Nat} {x : PodX} (hramp : x.ramp = (podX t d p).ramp)
    (hbacks : x.backs = (podX t d p).backs) : DeadFrame K L s (setPodX t d p x) where
  rest := h.rest
  facts hc := by
    have hf := h.facts hc
    have hset (e q : Nat) : podX (Machine.setPodX t d p x) e q = if e * 8 + q = d * 8 + p then x else podX t e q :=
      smGet_smSet hf.canon.pods _ _ _
    have hsame {e q : Nat} (heq : e * 8 + q = d * 8 + p) : podX t e q = podX t d p := by unfold podX; rw [heq]
    refine { hf with
      canon := { hf.canon with pods := smWf_smSet hf.canon.pods (Nat.zero_le _) x }
      ramp := fun e q => ?_
      backs := fun e q => ?_ }
    · rw [hset, ← hf.ramp]
      split
      next heq => rw [hsame heq, hramp]
      next => rfl
    · rw [hset, ← hf.backs]
      split
      next heq => rw [hsame heq, hbacks]
      next => rfl

/-! ### Lockstep at the deadline (R435, R436) -/

theorem spareLog (h : DeadFrame K L s t) {d ty a b c : Nat} : DeadFrame K L s (spareLog t d ty a b c) :=
  .incReg (.setTab (.setTab (.each h fun _ _ _ hu => .setTab (.setTab hu)))) (belowKernels_regA (by decide))

theorem spareTrigger (h : DeadFrame K L s t) {d k c : Nat} : DeadFrame K L s (spareTrigger t d k c) := .setPodX h rfl rfl

theorem setSpares (h : DeadFrame K L s t) {d p : Nat} {xs : List Nat} (hp : p < 8) : DeadFrame K L s (setSpares t d p xs) := by
  have hpod : BelowKernels (Reg.SPARE_POD d p) := belowKernels_regA (by omega)
  exact .setFld (.setFld (.setFld (.setFld h hpod) hpod) hpod) (belowKernels_regA (by decide))

theorem dropSpare (h : DeadFrame K L s t) {d p i : Nat} (hp : p < 8) : DeadFrame K L s (dropSpare t d p i) :=
  .setPodX (.setSpares h hp) rfl rfl

/-- A spare that misses is in SHADOW; it is the only kernel that a mismatch can change, and becomes RETIRED. -/
theorem mismatch (h : DeadFrame K L s t) {d p : Nat} (hp : p < 8)
    (hK : Canon s → K (d * 144 + (p * 18 + sparePod t d p F.SPARE_POD_SHADOWSL))) : DeadFrame K L s (mismatch t d p) := by
  have hflag : DeadFrame K L s (Machine.setFld t (Reg.SPARE_STAT d) F.SPARE_STAT_MISMATCH 1) := .setFld h (belowKernels_regA (by decide))
  have hretire : DeadFrame K L s (setSlotState (Machine.setFld t (Reg.SPARE_STAT d) F.SPARE_STAT_MISMATCH 1) d p
      (sparePod t d p F.SPARE_POD_SHADOWSL) .retired) := hflag.setKern ⟨rfl, .inl rfl, .inr ⟨rfl, rfl⟩⟩ hK
  have hpod : podX (setSlotState (Machine.setFld t (Reg.SPARE_STAT d) F.SPARE_STAT_MISMATCH 1) d p
      (sparePod t d p F.SPARE_POD_SHADOWSL) .retired) d p = podX t d p := by
    unfold setSlotState
    rw [podX_setKern, podX_setFld]
  unfold Machine.mismatch
  dsimp only
  refine .ite (.spareLog (.dropSpare (.setPodX hretire ?_ ?_) hp))
    (.ite (.spareTrigger (.setPodX hflag ?_ ?_)) (.setPodX hflag ?_ ?_))
  · rw [hpod]
  · rw [hpod]
  · rw [podX_setFld]
  · rw [podX_setFld]
  · rw [podX_setFld]
  · rw [podX_setFld]

theorem lockstepCheck (h : DeadFrame K L s t) {d : Nat} (hK : Canon s → ∀ j < 144, (kern s d j).st = .shadow → K (d * 144 + j)) :
    DeadFrame K L s (lockstepCheck t d) := by
  refine .each h fun p hp u hu => ?_
  have hp8 : p < 8 := List.mem_range.mp hp
  split
  next hmiss =>
    obtain ⟨⟨⟨⟨⟨-, hslot⟩, hshadow⟩, -⟩, -⟩, -⟩ : ((((( (podX u d p).phase = .lock ∧ sparePod u d p F.SPARE_POD_SHADOWSL < 18) ∧
        (slotKern u d p (sparePod u d p F.SPARE_POD_SHADOWSL)).st = .shadow) ∧ _) ∧ _) ∧ _) := by
      simpa only [misses, Bool.and_eq_true, decide_eq_true_eq] using hmiss
    refine hu.mismatch hp8 fun hc => hK hc _ (by omega) ?_
    have hends := (hu.facts hc).ends d (p * 18 + sparePod u d p F.SPARE_POD_SHADOWSL)
    unfold slotKern at hshadow
    rw [← hends.st_eq (by rw [hshadow]; decide), hshadow]
  next => exact hu

/-! ### Overruns, parked kernels and commits (R54–R57, R131, R303) -/

theorem setPoint (h : DeadFrame K L s t) {d vid : Nat} {bb : Int} : DeadFrame K L s (setPoint t d vid bb) :=
  have hgov : BelowKernels (Reg.GOV_STAT d) := belowKernels_regA (by decide)
  .setFld (.setFld (.setFld h hgov) hgov) hgov

theorem escalate (h : DeadFrame K L s t) {d k : Nat} (hK : Canon s → K (d * 144 + k)) : DeadFrame K L s (escalate t d k) := by
  have hset (xs : List (Nat × Nat)) : DeadFrame K L s (Machine.setKern t d k { kern t d k with ovrs := xs }) :=
    h.setKern ⟨rfl, .inr rfl, .inr ⟨rfl, rfl⟩⟩ hK
  have hcnt : BelowKernels (Reg.GOV_ESC_CNT d) := belowKernels_regA (by decide)
  unfold Machine.escalate
  dsimp only
  exact .ite (hset _) (.ite (hset _) (.ite (.setDieX (.satFld (.setPoint (hset _)) hcnt)) (.spareTrigger (.satFld (hset _) hcnt))))

theorem overrun (h : DeadFrame K L s t) {d k : Nat} (hk : k < 144) (hK : Canon s → K (d * 144 + k))
    (hL : Canon s → ∀ n ∈ bankLines t d k, L (d * 0x4000 + n)) : DeadFrame K L s (overrun d k t) := by
  unfold Machine.overrun
  extract_lets kn late stopped t1 t2 t3 t4 t5
  have ht1 : DeadFrame K L s t1 := h.setKern ⟨rfl, .inr rfl, .inl ⟨rfl, rfl⟩⟩ hK
  have ht2 : DeadFrame K L s t2 := ht1.setKernReg hk (by decide) hK
  have ht3 : DeadFrame K L s t3 :=
    .incReg (ht2.setKernReg hk (by decide) hK) (belowKernels_regA (by decide))
  have ht4 : DeadFrame K L s t4 := .ite ht3 (.setReg (.setReg ht3 (belowKernels_regA (by decide))) (belowKernels_regA (by decide)))
  have ht5 : DeadFrame K L s t5 := .each ht4 fun n hn _ hu => hu.publish fun hc => hL hc n hn
  exact ht5.escalate hK

theorem parkedLines (h : DeadFrame K L s t) {d k : Nat} (hL : Canon s → ∀ n ∈ bankLines t d k, L (d * 0x4000 + n)) :
    DeadFrame K L s (parkedLines d k t) :=
  .each (.each h fun n hn _ hu => hu.publish fun hc => hL hc n hn) fun _ _ _ hu => hu.setSlip

theorem noteShared (h : DeadFrame K L s t) {d : Nat} {ks : List Nat} : DeadFrame K L s (noteShared t d ks) := by
  unfold Machine.noteShared
  split
  · exact .ite h (.setReg (.setFld h (belowKernels_regA (by decide))) (belowKernels_regA (by decide)))
  · exact h

theorem commitKernel (h : DeadFrame K L s t) {d k : Nat}
    (hL : Canon s → ∀ e ∈ commitList t d k, kernelLineOk e.1 = true → L (d * 0x4000 + e.1)) : DeadFrame K L s (commitKernel d k t) := by
  refine .each h fun e he u hu => ?_
  split
  next hok => exact (hu.publish fun hc => hL hc e he hok).setLastPub fun hc => hL hc e he hok
  next => exact .setFld (.incReg hu (belowKernels_regA (by decide))) (belowKernels_regA (by decide))

theorem wearTick (h : DeadFrame K L s t) {d k : Nat} (hK : Canon s → K (d * 144 + k)) : DeadFrame K L s (wearTick t d k) := by
  unfold Machine.wearTick
  dsimp only
  split
  · exact h.setKern ⟨rfl, .inr rfl, .inr ⟨rfl, rfl⟩⟩ hK
  · exact h

theorem testLines (h : DeadFrame K L s t) {d : Nat} (hL : ∀ n < 64, L (d * 0x4000 + (0x3C0 + n))) : DeadFrame K L s (testLines t d) :=
  .ite (.each h fun n hn _ hu => hu.publish fun _ => hL n (List.mem_range.mp hn)) h

end DeadFrame
end Sys2Proof.Machine
end

section
/-! PROOFS. One overrun (R54–R57): the kernel, and the registers that count it. -/
namespace Sys2Proof.Machine

variable {s t : State}

/-! ### Registers beside those of a list -/

/-- `t` keeps every register of `s` beside those of `rs`, in a canonical table. -/
structure KeepsRegs (rs : List Nat) (s t : State) : Prop where
  part : t.part = s.part
  wf : smWf (resetReg t.part) 0 t.regs = true
  regs : RegsBut s t rs

namespace KeepsRegs

variable {rs : List Nat}

theorem setReg (h : KeepsRegs rs s t) {a : Nat} (ha : a ∈ rs) {w : Word} : KeepsRegs rs s (setReg t a w) where
  part := h.part
  wf := smWf_smSet h.wf (Nat.zero_le _) w
  regs b hb :=
    have hne : b ≠ a := fun heq => hb (heq ▸ ha)
    (smGet_smSet_ne h.wf hne w).trans (h.regs b hb)

theorem satFld (h : KeepsRegs rs s t) {a : Nat} (ha : a ∈ rs) {f : Fld} : KeepsRegs rs s (satFld t a f) := by
  unfold Machine.satFld
  split
  · exact h.setReg ha
  · exact h

theorem setPoint (h : KeepsRegs rs s t) {d vid : Nat} {bb : Int} (hpt : Reg.GOV_STAT d ∈ rs) : KeepsRegs rs s (setPoint t d vid bb) :=
  ((h.setReg hpt).setReg hpt).setReg hpt

theorem setKern (h : KeepsRegs rs s t) {d k : Nat} {v : Kern} : KeepsRegs rs s (setKern t d k v) := { h with }
theorem setDieX (h : KeepsRegs rs s t) {d : Nat} {x : DieX} : KeepsRegs rs s (setDieX t d x) := { h with }
theorem spareTrigger (h : KeepsRegs rs s t) {d k c : Nat} : KeepsRegs rs s (spareTrigger t d k c) := { h with }
theorem publish (h : KeepsRegs rs s t) {d n : Nat} {v : Word} {ok : Bool} : KeepsRegs rs s (publish t d n v ok) := { h with }

/-- Escalation writes the governor's registers alone (R57). -/
theorem escalate (h : KeepsRegs rs s t) {d k : Nat} (hpt : Reg.GOV_STAT d ∈ rs) (hcnt : Reg.GOV_ESC_CNT d ∈ rs) :
    KeepsRegs rs s (escalate t d k) := by
  unfold Machine.escalate
  dsimp only
  split
  · exact h.setKern
  · split
    · exact h.setKern
    · split
      · exact ((h.setKern.setPoint hpt).satFld hcnt).setDieX
      · exact (h.setKern.satFld hcnt).spareTrigger

end KeepsRegs

theorem reg_setReg_of_wf (hr : smWf (resetReg s.part) 0 s.regs = true) (a : Nat) (w : Word) (b : Nat) :
    reg (setReg s a w) b = if b = a then w else reg s b := smGet_smSet hr _ _ _

/-! ### One overrun (R54–R57) -/

/-- Of its kernel, escalation changes the record of the last overruns alone. -/
theorem kern_escalate (hk : smWf (fun _ => Kern.zero) 0 s.kern = true) (d k : Nat) :
    ∃ xs, kern (escalate s d k) d k = { kern s d k with ovrs := xs } := by
  have hset (xs : List (Nat × Nat)) : kern (setKern s d k { kern s d k with ovrs := xs }) d k = { kern s d k with ovrs := xs } :=
    (kern_setKern_of_wf hk _ _ _ _ _).trans (if_pos rfl)
  have hsat (u : State) (a : Nat) (f : Fld) : (satFld u a f).kern = u.kern := by
    unfold satFld
    split <;> rfl
  unfold escalate
  dsimp only
  split
  · exact ⟨_, hset _⟩
  · split
    · exact ⟨_, hset _⟩
    · refine ⟨[], ?_⟩
      split
      · refine Eq.trans ?_ (hset [])
        unfold kern setDieX
        rw [hsat]
        rfl
      · refine Eq.trans ?_ (hset [])
        unfold kern spareTrigger setPodX
        rw [hsat]

/-- A kernel after an overrun: stopped as at the deadline, with OVR set. -/
theorem kern_overrun (hk : smWf (fun _ => Kern.zero) 0 s.kern = true) (d k : Nat) :
    ∃ m xs, kern (overrun d k s) d k = { stopLate (kern s d k) with ovr := true, margin := m, ovrs := xs } := by
  unfold overrun
  extract_lets kn late stopped t1 t2 t3 t4 t5
  have h4 : t4.kern = t1.kern := by
    unfold t4
    split <;> rfl
  have h5 : t5.kern = t1.kern := each_keeps (P := fun u => u.kern = t1.kern) _ _ (fun _ _ _ hu => hu) h4
  have h1 : kern t5 d k = { stopLate (kern s d k) with ovr := true, margin := some overrunMargin } := by
    unfold kern
    rw [h5]
    exact (kern_setKern_of_wf hk d k _ d k).trans (if_pos rfl)
  obtain ⟨xs, hxs⟩ := kern_escalate (s := t5) (h5 ▸ smWf_smSet hk (Nat.zero_le _) _) d k
  exact ⟨some overrunMargin, xs, hxs.trans (by rw [h1])⟩

/-- A register written and two others counted up. -/
theorem reg_setReg_incReg_incReg (hr : smWf (resetReg s.part) 0 s.regs = true) {a b c : Nat} (hab : a ≠ b) (hac : a ≠ c) (hbc : b ≠ c)
    (w : Word) :
    let u := incReg (incReg (setReg s a w) b) c
    smWf (resetReg u.part) 0 u.regs = true ∧ reg u a = w ∧ reg u b = reg s b + 1 ∧ reg u c = reg s c + 1 := by
  have h1 := smWf_regs_setReg hr a w
  have h2 (v : Word) := smWf_regs_setReg h1 b v
  refine ⟨smWf_regs_setReg (h2 _) _ _, ?_⟩
  simp [incReg, reg_setReg_of_wf (h2 _), reg_setReg_of_wf h1, reg_setReg_of_wf hr, hab, hac, hbc, hab.symm, hac.symm, hbc.symm]

/-- What an overrun does to the counting registers of its kernel and die. -/
theorem regs_overrun (hr : smWf (resetReg s.part) 0 s.regs = true) (d k : Nat) :
    bitF (overrun d k s) (Reg.KERNEL_STAT d k) F.KERNEL_STAT_OVR = true ∧
      reg (overrun d k s) (Reg.KERNEL_OVR_CNT d k) = reg s (Reg.KERNEL_OVR_CNT d k) + 1 ∧
      reg (overrun d k s) (Reg.PULSE_OVR_TOTAL d) = reg s (Reg.PULSE_OVR_TOTAL d) + 1 := by
  unfold overrun
  extract_lets kn late stopped t1 t2 t3 t4 t5
  obtain ⟨hwf, hstat, hcnt, htot⟩ : smWf (resetReg t3.part) 0 t3.regs = true ∧
      reg t3 (Reg.KERNEL_STAT d k) = wSet (reg s (Reg.KERNEL_STAT d k)) F.KERNEL_STAT_OVR 1 ∧
      reg t3 (Reg.KERNEL_OVR_CNT d k) = reg s (Reg.KERNEL_OVR_CNT d k) + 1 ∧
      reg t3 (Reg.PULSE_OVR_TOTAL d) = reg s (Reg.PULSE_OVR_TOTAL d) + 1 :=
    reg_setReg_incReg_incReg (s := t1) hr (by unfold Reg.KERNEL_STAT Reg.KERNEL_OVR_CNT regA; omega)
      (by unfold Reg.KERNEL_STAT Reg.PULSE_OVR_TOTAL regA; omega) (by unfold Reg.KERNEL_OVR_CNT Reg.PULSE_OVR_TOTAL regA; omega) _
  have h4 : KeepsRegs [Reg.PULSE_OVR_LOG d, Reg.PULSE_OVR_STEP d, Reg.GOV_STAT d, Reg.GOV_ESC_CNT d] t3 t4 := by
    have h3 : KeepsRegs [Reg.PULSE_OVR_LOG d, Reg.PULSE_OVR_STEP d, Reg.GOV_STAT d, Reg.GOV_ESC_CNT d] t3 t3 :=
      ⟨rfl, hwf, fun _ _ => rfl⟩
    unfold t4
    split
    · exact h3
    · exact (h3.setReg (by simp)).setReg (by simp)
  have h5 : KeepsRegs [Reg.PULSE_OVR_LOG d, Reg.PULSE_OVR_STEP d, Reg.GOV_STAT d, Reg.GOV_ESC_CNT d] t3 t5 :=
    each_keeps _ _ (fun _ _ _ hu => hu.publish) h4
  have hkeep := (h5.escalate (d := d) (k := k) (by simp) (by simp)).regs
  refine ⟨?_, (hkeep _ ?_).trans hcnt, (hkeep _ ?_).trans htot⟩
  · have hbit : bitF t3 (Reg.KERNEL_STAT d k) F.KERNEL_STAT_OVR = true := by
      rw [F.KERNEL_STAT_OVR, bitF_bit, hstat, wSet, getLsbD_wPut _ (by decide) (by decide)]
      rfl
    unfold bitF fld at hbit ⊢
    rwa [hkeep _ ?_]
    simp only [List.mem_cons, List.not_mem_nil, or_false, Reg.KERNEL_STAT, Reg.PULSE_OVR_LOG, Reg.PULSE_OVR_STEP, Reg.GOV_STAT,
      Reg.GOV_ESC_CNT, regA]
    omega
  · simp only [List.mem_cons, List.not_mem_nil, or_false, Reg.KERNEL_OVR_CNT, Reg.PULSE_OVR_LOG, Reg.PULSE_OVR_STEP, Reg.GOV_STAT,
      Reg.GOV_ESC_CNT, regA]
    omega
  · simp only [List.mem_cons, List.not_mem_nil, or_false, Reg.PULSE_OVR_TOTAL, Reg.PULSE_OVR_LOG, Reg.PULSE_OVR_STEP, Reg.GOV_STAT,
      Reg.GOV_ESC_CNT, regA]
    omega

end Sys2Proof.Machine
end

section
/-! PROOFS. What a kernel publishes (R131, R180), the kernels that a die lists, and the frame of a die's deadline. -/
namespace Sys2Proof.Machine

variable {s t : State}

/-! ### What a kernel publishes (R131) -/

theorem bankSlots_congr (h : t.mem = s.mem) (d k : Nat) (b : Bool) (fuel i : Nat) :
    bankSlots t d k b fuel i = bankSlots s d k b fuel i := by
  induction fuel generalizing i with
  | zero => rfl
  | succ fuel ih => simp only [bankSlots, loadBytes, loadByte, h, ih]

theorem bankLines_congr (h : t.mem = s.mem) {d k : Nat} (hb : (kern t d k).pbank = (kern s d k).pbank) :
    bankLines t d k = bankLines s d k := by
  unfold bankLines
  rw [hb]
  simp only [bankSlots_congr h]

theorem kernelLineOk_lt {n : Nat} (h : kernelLineOk n = true) : n < 0x4000 ∧ (n < 0x3C0 ∨ 0x400 ≤ n) := by
  simp only [kernelLineOk, Bool.or_eq_true, Bool.and_eq_true, decide_eq_true_eq] at h
  omega

theorem kernelLineOk_of_bankLines {d k n : Nat} (h : n ∈ bankLines s d k) : kernelLineOk n = true := (List.mem_filter.mp h).2

/-- A kernel that has neither stored to a line nor passed an annulled store to it. -/
def Quiet (n : Nat) (kn : Kern) : Prop := (∀ e ∈ kn.staged, e.1 ≠ n) ∧ n ∉ kn.passed

theorem Quiet.ends {n : Nat} {a b : Kern} (h : Quiet n a) (he : Ends a b) : Quiet n b := by
  unfold Quiet
  obtain ⟨hs, hp⟩ | ⟨hs, hp⟩ := he.stores
  · rw [hs, hp]
    simp
  · rw [hs, hp]
    exact h

theorem alGet_eq_none {α : Type} {k : Nat} {xs : List (Nat × α)} (h : ∀ e ∈ xs, e.1 ≠ k) : alGet k xs = none := by
  induction xs with
  | nil => rfl
  | cons e xs ih =>
    obtain ⟨j, v⟩ := e
    have hne : k ≠ j := (h (j, v) List.mem_cons_self).symm
    simp [alGet, hne, ih fun e he => h e (List.mem_cons_of_mem _ he)]

/-- A kernel whose commit does not name a line is quiet on it, and one that is quiet does not name it. -/
theorem quiet_of_commitList {d j n : Nat} (hok : kernelLineOk n = true) (h : ∀ e ∈ commitList s d j, e.1 ≠ n) : Quiet n (kern s d j) := by
  have hstaged : ∀ e ∈ (kern s d j).staged, e.1 ≠ n := fun e he => h e (List.mem_append_left _ he)
  refine ⟨hstaged, fun hp => h (n, lastPub s d n) (List.mem_append_right _ (List.mem_map.mpr ⟨n, List.mem_filter.mpr ⟨hp, ?_⟩, rfl⟩)) rfl⟩
  simp [hok, alGet_eq_none hstaged]

theorem commitList_ne_of_quiet {d j n : Nat} (h : Quiet n (kern s d j)) : ∀ e ∈ commitList s d j, e.1 ≠ n := by
  intro e he heq
  rcases List.mem_append.mp he with hs | hp
  · exact h.1 e hs heq
  · obtain ⟨m, hm, rfl⟩ := List.mem_map.mp hp
    exact h.2 (heq ▸ (List.mem_filter.mp hm).1)

/-- What a commit says of a line rests on the kernel and on the value that the line holds. -/
theorem commitList_filter_congr {d k n : Nat} (hk : kern t d k = kern s d k) (hl : lastPub t d n = lastPub s d n) :
    (commitList t d k).filter (fun e => decide (e.1 = n)) = (commitList s d k).filter (fun e => decide (e.1 = n)) := by
  simp only [commitList, hk, List.filter_append, List.filter_map]
  congr 1
  refine List.map_congr_left fun m hm => ?_
  have hmn : m = n := by simpa using (List.mem_filter.mp hm).2
  rw [hmn, hl]

theorem rampScale_congr {d k : Nat} (hr : (podX t d (k / 18)).ramp = (podX s d (k / 18)).ramp)
    (hb : (podX t d (k / 18)).backs = (podX s d (k / 18)).backs) (v : Word) : rampScale t d k v = rampScale s d k v := by
  simp only [rampScale, hr, hb]

/-- One entry of a commit published. -/
def commitEntry (d k : Nat) (e : Nat × Word) (s : State) : State :=
  if kernelLineOk e.1 then setLastPub (publish s d e.1 (rampScale s d k e.2) true) d e.1 e.2
  else setFld (incReg s (Reg.WADI_STRAY_CNT d)) (Reg.WADI_STAT d) F.WADI_STAT_STRAY 1

theorem commitKernel_eq (d k : Nat) (s : State) : commitKernel d k s = each (commitList s d k) (commitEntry d k) s := rfl

theorem DeadFrame.commitEntry {K L : Nat → Prop} (h : DeadFrame K L s t) {d k : Nat} {e : Nat × Word}
    (hL : Canon s → kernelLineOk e.1 = true → L (d * 0x4000 + e.1)) : DeadFrame K L s (commitEntry d k e t) := by
  unfold Machine.commitEntry
  split
  next hok => exact (h.publish fun hc => hL hc hok).setLastPub fun hc => hL hc hok
  next => exact .setFld (.incReg h (belowKernels_regA (by decide))) (belowKernels_regA (by decide))

/-- A line published with a value, which is held for later annulled stores. -/
structure Published (d n : Nat) (l : Line) (v : Word) (s : State) : Prop where
  canon : Canon s
  pub : smGet (fun _ => deadLine) s.pub (d * 0x4000 + n) = l
  lastPub : Machine.lastPub s d n = v

theorem Published.keep {d n : Nat} {l : Line} {v : Word} (h : Published d n l v s) {K L : Nat → Prop} (hf : DeadFrame K L s t)
    (hL : ¬ L (d * 0x4000 + n)) : Published d n l v t :=
  have hfacts := hf.facts h.canon
  ⟨hfacts.canon, (hfacts.pub _ hL).trans h.pub, (hfacts.lastPub _ hL).trans h.lastPub⟩

theorem commitEntry_published (hc : Canon s) {d k n : Nat} (hok : kernelLineOk n = true) (v : Word) :
    Published d n ⟨rampScale s d k v, true⟩ v (commitEntry d k (n, v) s) := by
  have hframe : DeadFrame (fun _ => True) (fun _ => True) s (commitEntry d k (n, v) s) :=
    (DeadFrame.refl s).commitEntry fun _ _ => trivial
  refine ⟨(hframe.facts hc).canon, ?_, ?_⟩
  · simp only [commitEntry, hok, if_true]
    exact smGet_smSet_same hc.pub _ _
  · simp only [commitEntry, hok, if_true]
    exact smGet_smSet_same hc.lastPub _ _

theorem commitKernel_published (hc : Canon s) {d k n : Nat} {v : Word} (hok : kernelLineOk n = true)
    (hlist : (commitList s d k).filter (fun e => decide (e.1 = n)) = [(n, v)]) :
    Published d n ⟨rampScale s d k v, true⟩ v (commitKernel d k s) := by
  obtain ⟨as, bs, heq, has, -, hbs⟩ := List.filter_eq_cons_iff.mp hlist
  have hne {xs : List (Nat × Word)} (hx : ∀ e ∈ xs, ¬ decide (e.1 = n) = true) (u : State) :
      DeadFrame (fun _ => False) (· ≠ d * 0x4000 + n) u (each xs (commitEntry d k) u) :=
    (DeadFrame.refl u).each fun e he w hw => hw.commitEntry fun _ _ => by have := hx e he; simp at this; omega
  have hfront := (hne has s).facts hc
  have hsplit : commitKernel d k s = each bs (commitEntry d k) (commitEntry d k (n, v) (each as (commitEntry d k) s)) := by
    rw [commitKernel_eq, heq]
    simp [each]
  rw [hsplit, ← rampScale_congr (hfront.ramp d (k / 18)) (hfront.backs d (k / 18)) v]
  exact (commitEntry_published hfront.canon hok v).keep (hne (List.filter_eq_nil_iff.mp hbs) _) (by simp)

/-! ### The kernels that a die lists -/

theorem lt_of_mem_listed {d k : Nat} (h : k ∈ listed s d) : k < 144 := by
  obtain ⟨e, -, rfl⟩ := List.mem_map.mp h
  exact Nat.mod_lt _ (by decide)

theorem mem_listed_of_st {d k : Nat} (hk : k < 144) (h : (kern s d k).st ≠ .held) : k ∈ listed s d := by
  by_contra hnot
  rw [kern_of_not_listed hk hnot] at h
  exact h rfl

theorem smWf_pairwise {α : Type} [DecidableEq α] {d : Nat → α} {lo : Nat} {m : List (Nat × α)} (h : smWf d lo m = true) :
    m.Pairwise (fun a b => a.1 < b.1) ∧ ∀ e ∈ m, lo ≤ e.1 := by
  induction m generalizing lo with
  | nil => simp
  | cons e m ih =>
    obtain ⟨k, v⟩ := e
    simp only [smWf, Bool.and_eq_true, decide_eq_true_eq] at h
    obtain ⟨hp, hlo⟩ := ih h.2
    refine ⟨List.pairwise_cons.mpr ⟨fun e he => hlo e he, hp⟩, fun e he => ?_⟩
    rcases List.mem_cons.mp he with rfl | he
    · exact h.1.1
    · exact Nat.le_trans h.1.1 (Nat.le_of_succ_le (hlo e he))

theorem listed_nodup (hk : smWf (fun _ => Kern.zero) 0 s.kern = true) (d : Nat) : (listed s d).Nodup := by
  refine List.pairwise_map.mpr (((smWf_pairwise hk).1.filter _).imp_of_mem fun {a b} ha hb hlt => ?_)
  have had : a.1 / 144 = d := by simpa using (List.mem_filter.mp ha).2
  have hbd : b.1 / 144 = d := by simpa using (List.mem_filter.mp hb).2
  omega

/-! ### The deadline of a die -/

/-- Over a list that holds `x` once, what the step of `x` establishes and the other steps keep holds at the end. -/
theorem each_once {β : Type} {P Q : State → Prop} {xs : List β} {x : β} {f : β → State → State} (hn : xs.Nodup) (hx : x ∈ xs)
    (hP : ∀ y ∈ xs, y ≠ x → ∀ u, P u → P (f y u)) (hQ : ∀ u, P u → Q (f x u)) (hkeep : ∀ y ∈ xs, y ≠ x → ∀ u, Q u → Q (f y u))
    (h : P s) : Q (each xs f s) := by
  obtain ⟨as, bs, rfl⟩ := List.append_of_mem hx
  obtain ⟨-, hxbs, hdisj⟩ := List.nodup_append.mp hn
  have has (y : β) (hy : y ∈ as) : y ≠ x := hdisj y hy x List.mem_cons_self
  have hbs (y : β) (hy : y ∈ bs) : y ≠ x := fun heq => (List.nodup_cons.mp hxbs).1 (heq ▸ hy)
  have hfront : P (each as f s) := each_keeps as f (fun y hy u hu => hP y (List.mem_append_left _ hy) (has y hy) u hu) h
  have heq : each (as ++ x :: bs) f s = each bs f (f x (each as f s)) := by simp [each]
  rw [heq]
  exact each_keeps bs f (fun y hy u hu => hkeep y (List.mem_append_right _ (List.mem_cons_of_mem _ hy)) (hbs y hy) u hu) (hQ _ hfront)

theorem DeadFrame.dieDeadline {K L : Nat → Prop} (h : DeadFrame K L s t) {d : Nat} (hK : ∀ j < 144, K (d * 144 + j))
    (hL : ∀ n < 0x4000, L (d * 0x4000 + n)) : DeadFrame K L s (dieDeadline d t) := by
  unfold Machine.dieDeadline
  extract_lets t1 ks late t2 t3 parked t4 done t5 t6 t7
  have hks (j : Nat) (hj : j ∈ ks) : j < 144 := lt_of_mem_listed (List.mem_filter.mp hj).1
  have hlate (j : Nat) (hj : j ∈ late) : j < 144 := hks j (List.mem_filter.mp hj).1
  have hbank {u : State} {j n : Nat} (hn : n ∈ bankLines u d j) : L (d * 0x4000 + n) :=
    hL n (kernelLineOk_lt (kernelLineOk_of_bankLines hn)).1
  have h1 : DeadFrame K L s t1 := h.lockstepCheck fun _ j hj _ => hK j hj
  have h2 : DeadFrame K L s t2 := h1.each fun j hj u hu =>
    have hj' := hlate j (List.mem_filter.mp hj).1
    hu.overrun hj' (fun _ => hK j hj') fun _ _ hn => hbank hn
  have h3 : DeadFrame K L s t3 := h2.each fun j hj u hu =>
    hu.setKern (stopLate_ends _) fun _ => hK j (hlate j (List.mem_filter.mp hj).1)
  have h4 : DeadFrame K L s t4 := h3.each fun j _ u hu => hu.parkedLines fun _ _ hn => hbank hn
  have h6 : DeadFrame K L s t6 := h4.noteShared.each fun j _ u hu => hu.commitKernel fun _ e _ hok => hL _ (kernelLineOk_lt hok).1
  have h7 : DeadFrame K L s t7 := h6.each fun j hj u hu => hu.wearTick fun _ => hK j (hks j (List.mem_filter.mp hj).1)
  exact h7.testLines fun n hn => hL _ (by omega)

end Sys2Proof.Machine
end

section
/-! PROOFS. One kernel and one line through the deadline: a late kernel overruns once, a kernel at END publishes (R54, R131). -/
namespace Sys2Proof.Machine

variable {s t : State}

/-! ### A late kernel -/

/-- Kernel `k` of die `d` of `s` has overrun in `t`, once (R54–R56). -/
structure Overran (d k : Nat) (s t : State) : Prop where
  canon : Canon t
  kern : ∃ m xs, kern t d k = { stopLate (kern s d k) with ovr := true, margin := m, ovrs := xs }
  stat : bitF t (Reg.KERNEL_STAT d k) F.KERNEL_STAT_OVR = true
  count : reg t (Reg.KERNEL_OVR_CNT d k) = reg s (Reg.KERNEL_OVR_CNT d k) + 1

theorem DeadFacts.reg_stat {K L : Nat → Prop} (h : DeadFacts K L s t) {d k : Nat} (hk : k < 144) (hK : ¬ K (d * 144 + k)) :
    reg t (Reg.KERNEL_STAT d k) = reg s (Reg.KERNEL_STAT d k) := h.regs d k 0 hk (by decide) hK

theorem DeadFacts.reg_count {K L : Nat → Prop} (h : DeadFacts K L s t) {d k : Nat} (hk : k < 144) (hK : ¬ K (d * 144 + k)) :
    reg t (Reg.KERNEL_OVR_CNT d k) = reg s (Reg.KERNEL_OVR_CNT d k) := h.regs d k 0xc hk (by decide) hK

theorem Overran.keep {d k : Nat} {u : State} (h : Overran d k s t) (hk : k < 144) {K L : Nat → Prop} (hf : DeadFrame K L t u)
    (hK : ¬ K (d * 144 + k)) : Overran d k s u where
  canon := (hf.facts h.canon).canon
  kern := by
    rw [(hf.facts h.canon).kern d k hK]
    exact h.kern
  stat := by
    have hreg := DeadFacts.reg_stat (hf.facts h.canon) hk hK
    unfold bitF fld
    rw [hreg]
    exact h.stat
  count := (DeadFacts.reg_count (hf.facts h.canon) hk hK).trans h.count

/-- An overrun of a kernel that has kept its state and its count so far. -/
theorem overran_overrun (hc : Canon t) {d k : Nat} (hk : k < 144) (hkern : kern t d k = kern s d k)
    (hcnt : reg t (Reg.KERNEL_OVR_CNT d k) = reg s (Reg.KERNEL_OVR_CNT d k)) : Overran d k s (overrun d k t) := by
  have hframe : DeadFrame (fun _ => True) (fun _ => True) t (overrun d k t) :=
    (DeadFrame.refl t).overrun hk (fun _ => trivial) fun _ _ _ => trivial
  obtain ⟨hstat, hcount, -⟩ := regs_overrun hc.regs d k
  refine ⟨(hframe.facts hc).canon, ?_, hstat, hcount.trans (by rw [hcnt])⟩
  rw [← hkern]
  exact kern_overrun hc.kern d k

theorem Overran.st_ended {d k : Nat} (h : Overran d k s t) : (Machine.kern t d k).st = (Machine.kern s d k).st ∧
    (Machine.kern t d k).ended = (Machine.kern s d k).ended := by
  obtain ⟨m, xs, hkern⟩ := h.kern
  rw [hkern]
  exact ⟨rfl, rfl⟩

/-- A running kernel of a running pod takes part in the deadline of its die, which the check of lockstep before it does not touch. -/
structure TakesPart (d k : Nat) (s : State) : Prop where
  lt : k < 144
  run : (kern s d k).st = .run
  active : (kern s d k).active = true
  live : domLive s d (pdPod (k / 18)) = true

theorem lockstepCheck_other {d k : Nat} {L : Nat → Prop} (h : TakesPart d k s) :
    DeadFrame (· ≠ d * 144 + k) L s (lockstepCheck s d) := by
  refine (DeadFrame.refl s).lockstepCheck fun _ j hj hst heq => ?_
  have hjk : j = k := by omega
  rw [hjk, h.run] at hst
  exact absurd hst (by decide)

theorem kern_lockstepCheck (hc : Canon s) {d k : Nat} (h : TakesPart d k s) : kern (lockstepCheck s d) d k = kern s d k :=
  ((lockstepCheck_other (L := fun _ => True) h).facts hc).kern d k (by simp)

/-- The kernels that take part in the deadline of a die (R409). -/
theorem mem_deadlineKernels (hc : Canon s) {d k : Nat} (h : TakesPart d k s) :
    k ∈ (listed (lockstepCheck s d) d).filter fun j =>
      domLive (lockstepCheck s d) d (pdPod (j / 18)) || (kern (lockstepCheck s d) d j).st = .parked := by
  have hlive : domLive (lockstepCheck s d) d (pdPod (k / 18)) = true := by
    have hdoms := (lockstepCheck_other (L := fun _ => True) h).doms_eq
    have hl := h.live
    unfold domLive dom at hl ⊢
    rwa [hdoms]
  refine List.mem_filter.mpr ⟨mem_listed_of_st h.lt ?_, by simp [hlive]⟩
  rw [kern_lockstepCheck hc h, h.run]
  decide

/-- The deadline of its die makes a running kernel that has not reached END overrun, once. -/
theorem dieDeadline_overran (hc : Canon s) {d k : Nat} (h : TakesPart d k s) (hend : (kern s d k).ended = false) :
    Overran d k s (dieDeadline d s) := by
  have h1 : DeadFrame (· ≠ d * 144 + k) (fun _ => True) s (lockstepCheck s d) := lockstepCheck_other h
  have hks := mem_deadlineKernels hc h
  have hkern := kern_lockstepCheck hc h
  have hcanon := (h1.facts hc).canon
  have hnodup := listed_nodup hcanon.kern d
  unfold dieDeadline
  extract_lets t1 ks late t2 t3 parked t4 done t5 t6 t7
  have hlt (j : Nat) (hj : j ∈ ks) : j < 144 := lt_of_mem_listed (List.mem_filter.mp hj).1
  have hlate (j : Nat) (hj : j ∈ late) : j < 144 := hlt j (List.mem_filter.mp hj).1
  have hkey {j : Nat} (hj : j ≠ k) : d * 144 + j ≠ d * 144 + k := by omega
  have hmem : k ∈ late.filter fun j => (kern t1 d j).st = .run := by
    refine List.mem_filter.mpr ⟨List.mem_filter.mpr ⟨hks, ?_⟩, ?_⟩
    · simp [t1, hkern, h.active, hend]
    · simp [t1, hkern, h.run]
  have h2 : Overran d k s t2 := by
    refine each_once (P := DeadFrame (· ≠ d * 144 + k) (fun _ => True) s) (((hnodup.filter _).filter _).filter _) hmem
      (fun j hj hne u hu => hu.overrun (hlate j (List.mem_filter.mp hj).1) (fun _ => hkey hne) fun _ _ _ => trivial) (fun u hu => ?_)
      (fun j hj hne u hu => ?_) h1
    · have hf := hu.facts hc
      exact overran_overrun hf.canon h.lt (hf.kern d k (by simp)) (DeadFacts.reg_count hf h.lt (by simp))
    · exact hu.keep h.lt (K := (· ≠ d * 144 + k)) (L := fun _ => True)
        ((DeadFrame.refl u).overrun (hlate j (List.mem_filter.mp hj).1) (fun _ => hkey hne) fun _ _ _ => trivial) (by simp)
  have h3 : Overran d k s t3 := by
    refine each_keeps _ _ (fun j hj u hu => ?_) h2
    have hne : j ≠ k := by
      rintro rfl
      have hst : (kern t2 d j).st = .shadow := by simpa using (List.mem_filter.mp hj).2
      rw [h2.st_ended.1, h.run] at hst
      exact absurd hst (by decide)
    exact hu.keep h.lt (K := (· ≠ d * 144 + k)) (L := fun _ => True)
      ((DeadFrame.refl u).setKern (stopLate_ends _) fun _ => hkey hne) (by simp)
  have hplain {u v : State} (hu : Overran d k s u) (hf : DeadFrame (fun _ => False) (fun _ => True) u v) : Overran d k s v :=
    hu.keep h.lt hf id
  have h4 : Overran d k s t4 := each_keeps _ _ (fun j _ u hu => hplain hu ((DeadFrame.refl u).parkedLines fun _ _ _ => trivial)) h3
  have h5 : Overran d k s t5 := hplain h4 (DeadFrame.refl t4).noteShared
  have h6 : Overran d k s t6 :=
    each_keeps _ _ (fun j _ u hu => hplain hu ((DeadFrame.refl u).commitKernel fun _ _ _ _ => trivial)) h5
  have h7 : Overran d k s t7 := by
    refine each_keeps _ _ (fun j hj u hu => ?_) h6
    have hne : j ≠ k := by
      rintro rfl
      have hended : (kern t4 d j).ended = true := by simpa using (Bool.and_eq_true_iff.mp (List.mem_filter.mp hj).2).2
      rw [h4.st_ended.2, hend] at hended
      exact absurd hended (by decide)
    exact hu.keep h.lt (K := (· ≠ d * 144 + k)) (L := fun _ => True) ((DeadFrame.refl u).wearTick fun _ => hkey hne) (by simp)
  exact hplain h7 ((DeadFrame.refl t7).testLines fun _ _ => trivial)

/-! ### A kernel at END -/

/-- No other kernel of the die that runs or is parked commits, holds or clears the line. -/
def Alone (d k n : Nat) (s : State) : Prop :=
  ∀ j < 144, j ≠ k → ((kern s d j).st = .run ∨ (kern s d j).st = .parked) → n ∉ bankLines s d j ∧ Quiet n (kern s d j)

theorem Alone.keep (hc : Canon s) {d k n : Nat} (h : Alone d k n s) {K L : Nat → Prop} (hf : DeadFrame K L s t) : Alone d k n t := by
  intro j hj hne hst
  have hends := (hf.facts hc).ends d j
  have heq : (kern t d j).st = (kern s d j).st := hends.st_eq (by rcases hst with hst | hst <;> rw [hst] <;> decide)
  rw [heq] at hst
  obtain ⟨hbank, hquiet⟩ := h j hj hne hst
  rw [bankLines_congr hf.mem_eq hends.pbank]
  exact ⟨hbank, hquiet.ends hends⟩

theorem DeadFacts.commitList_eq {K L : Nat → Prop} (h : DeadFacts K L s t) {d k n : Nat} (hK : ¬ K (d * 144 + k))
    (hL : ¬ L (d * 0x4000 + n)) :
    (commitList t d k).filter (fun e => decide (e.1 = n)) = (commitList s d k).filter (fun e => decide (e.1 = n)) :=
  commitList_filter_congr (h.kern d k hK) (h.lastPub _ hL)

theorem DeadFacts.rampScale_eq {K L : Nat → Prop} (h : DeadFacts K L s t) (d k : Nat) (v : Word) :
    rampScale t d k v = rampScale s d k v := rampScale_congr (h.ramp d (k / 18)) (h.backs d (k / 18)) v

/-- The deadline of its die publishes for a kernel at END what it stored last to a line that no other kernel touches. -/
theorem dieDeadline_published (hc : Canon s) {d k n : Nat} {v : Word} (h : TakesPart d k s) (hend : (kern s d k).ended = true)
    (hlist : (commitList s d k).filter (fun e => decide (e.1 = n)) = [(n, v)]) (hok : kernelLineOk n = true)
    (halone : Alone d k n s) : Published d n ⟨rampScale s d k v, true⟩ v (dieDeadline d s) := by
  have h1 : DeadFrame (· ≠ d * 144 + k) (· ≠ d * 0x4000 + n) s (lockstepCheck s d) := lockstepCheck_other h
  have hks := mem_deadlineKernels hc h
  have hnodup := listed_nodup (h1.facts hc).canon.kern d
  have hkey {j : Nat} (hj : j ≠ k) : d * 144 + j ≠ d * 144 + k := by omega
  have hline {i : Nat} (hi : i ≠ n) : d * 0x4000 + i ≠ d * 0x4000 + n := by omega
  have hbank {u : State} {j : Nat} (hu : DeadFrame (· ≠ d * 144 + k) (· ≠ d * 0x4000 + n) s u) (hj : j < 144) (hne : j ≠ k)
      (hst : (kern u d j).st = .run ∨ (kern u d j).st = .parked) {w : State}
      (hw : DeadFrame (· ≠ d * 144 + k) (· ≠ d * 0x4000 + n) s w) : ∀ i ∈ bankLines w d j, d * 0x4000 + i ≠ d * 0x4000 + n := by
    intro i hi
    rw [bankLines_congr (t := w) (s := u) (hw.mem_eq.trans hu.mem_eq.symm)
      (((hw.facts hc).ends d j).pbank.trans ((hu.facts hc).ends d j).pbank.symm)] at hi
    exact hline fun heq => (halone.keep hc hu j hj hne hst).1 (heq ▸ hi)
  unfold dieDeadline
  extract_lets t1 ks late t2 t3 parked t4 done t5 t6 t7
  have hlt (j : Nat) (hj : j ∈ ks) : j < 144 := lt_of_mem_listed (List.mem_filter.mp hj).1
  have hlate (j : Nat) (hj : j ∈ late) : j < 144 ∧ j ≠ k := by
    obtain ⟨hjks, hnot⟩ := List.mem_filter.mp hj
    refine ⟨hlt j hjks, ?_⟩
    rintro rfl
    simp [t1, kern_lockstepCheck hc h, hend] at hnot
  have h2 : DeadFrame (· ≠ d * 144 + k) (· ≠ d * 0x4000 + n) s t2 := by
    refine h1.each fun j hj u hu => ?_
    obtain ⟨hj', hrun⟩ := List.mem_filter.mp hj
    obtain ⟨hj144, hne⟩ := hlate j hj'
    have hrun' : (kern t1 d j).st = .run := by simpa using hrun
    exact hu.overrun hj144 (fun _ => hkey hne) fun _ => hbank h1 hj144 hne (.inl hrun') hu
  have h3 : DeadFrame (· ≠ d * 144 + k) (· ≠ d * 0x4000 + n) s t3 := h2.each fun j hj u hu =>
    hu.setKern (stopLate_ends _) fun _ => hkey (hlate j (List.mem_filter.mp hj).1).2
  have hk3 : kern t3 d k = kern s d k := (h3.facts hc).kern d k (by simp)
  have h4 : DeadFrame (· ≠ d * 144 + k) (· ≠ d * 0x4000 + n) s t4 := by
    refine h3.each fun j hj u hu => ?_
    obtain ⟨hj', hpark⟩ := List.mem_filter.mp hj
    have hpark' : (kern t3 d j).st = .parked := by simpa using hpark
    have hne : j ≠ k := by
      rintro rfl
      rw [hk3, h.run] at hpark'
      exact absurd hpark' (by decide)
    exact hu.parkedLines fun _ => hbank h3 (hlt j hj') hne (.inr hpark') hu
  have hk4 : kern t4 d k = kern s d k := (h4.facts hc).kern d k (by simp)
  have hdone : k ∈ done := List.mem_filter.mpr ⟨hks, by simp [hk4, h.run, hend]⟩
  have hf4 := h4.facts hc
  have hc4 := hf4.canon
  have h5 : DeadFrame (· ≠ d * 144 + k) (· ≠ d * 0x4000 + n) t4 t5 := (DeadFrame.refl t4).noteShared
  have hquiet {u : State} {j : Nat} (hj : j ∈ done) (hne : j ≠ k) (hu : ∀ e i, Ends (kern t4 e i) (kern u e i)) :
      ∀ e ∈ commitList u d j, d * 0x4000 + e.1 ≠ d * 0x4000 + n := by
    obtain ⟨hjks, hrun⟩ := List.mem_filter.mp hj
    have hrun' : (kern t4 d j).st = .run := by simpa using (Bool.and_eq_true_iff.mp hrun).1
    have hq := (halone.keep hc h4 j (hlt j hjks) hne (.inl hrun')).2
    exact fun e he => hline (commitList_ne_of_quiet (hq.ends (hu d j)) e he)
  have h6 : Published d n ⟨rampScale s d k v, true⟩ v t6 ∧ ∀ e i, Ends (kern t4 e i) (kern t6 e i) := by
    refine each_once (P := DeadFrame (· ≠ d * 144 + k) (· ≠ d * 0x4000 + n) t4)
      (Q := fun u => Published d n ⟨rampScale s d k v, true⟩ v u ∧ ∀ e i, Ends (kern t4 e i) (kern u e i))
      ((hnodup.filter _).filter _) hdone (fun j hj hne u hu => ?_) (fun u hu => ?_) (fun j hj hne u hu => ?_) h5
    · exact hu.commitKernel fun _ e he _ => hquiet hj hne (hu.facts hc4).ends e he
    · have hf := hu.facts hc4
      have hcommit : DeadFrame (fun _ => False) (fun _ => True) u (commitKernel d k u) :=
        (DeadFrame.refl u).commitKernel fun _ _ _ _ => trivial
      rw [← hf4.rampScale_eq d k v, ← hf.rampScale_eq d k v]
      exact ⟨commitKernel_published hf.canon hok ((hf.commitList_eq (by simp) (by simp)).trans
          ((hf4.commitList_eq (by simp) (by simp)).trans hlist)),
        fun e i => (hf.ends e i).trans ((hcommit.facts hf.canon).ends e i)⟩
    · obtain ⟨hpub, hends⟩ := hu
      have hcommit : DeadFrame (fun _ => False) (· ≠ d * 0x4000 + n) u (commitKernel d j u) :=
        (DeadFrame.refl u).commitKernel fun _ e he _ => hquiet hj hne hends e he
      exact ⟨hpub.keep hcommit (by simp), fun e i => (hends e i).trans ((hcommit.facts hpub.canon).ends e i)⟩
  have h7 : Published d n ⟨rampScale s d k v, true⟩ v t7 := each_keeps _ _ (fun _ _ u hu =>
    hu.keep (K := fun _ => True) (L := fun _ => False) ((DeadFrame.refl u).wearTick fun _ => trivial) id) h6.1
  exact h7.keep (K := fun _ => False) (L := (· ≠ d * 0x4000 + n)) ((DeadFrame.refl t7).testLines fun i hi => hline (by
    have hrange := (kernelLineOk_lt hok).2
    omega)) (by simp)

/-! ### The deadline of the package -/

theorem DeadFrame.deadline (s : State) : DeadFrame (fun _ => True) (fun _ => True) s (Machine.each (dies s) Machine.dieDeadline s) :=
  (DeadFrame.refl s).each fun _ _ _ hu => hu.dieDeadline (fun _ _ => trivial) fun _ _ => trivial

/-- What the deadline of die `d` establishes for its kernel `k`, the deadlines of the other dies keeping it, holds after all of them. -/
theorem deadline_of_die {Q : State → Prop} {d k n : Nat} (hd : d < dieCount s.part) (hk : k < 144) (hn : n < 0x4000)
    (hQ : ∀ u, DeadFrame (· ≠ d * 144 + k) (· ≠ d * 0x4000 + n) s u → Q (dieDeadline d u))
    (hkeep : ∀ u v, DeadFrame (· ≠ d * 144 + k) (· ≠ d * 0x4000 + n) u v → Q u → Q v) : Q (each (dies s) dieDeadline s) := by
  have hkey {e j : Nat} (he : e ≠ d) (hj : j < 144) : e * 144 + j ≠ d * 144 + k := by omega
  have hline {e i : Nat} (he : e ≠ d) (hi : i < 0x4000) : e * 0x4000 + i ≠ d * 0x4000 + n := by omega
  exact each_once (P := DeadFrame (· ≠ d * 144 + k) (· ≠ d * 0x4000 + n) s) List.nodup_range (List.mem_range.mpr hd)
    (fun e _ he u hu => hu.dieDeadline (fun _ => hkey he) fun _ => hline he) hQ
    (fun e _ he u hu => hkeep u _ ((DeadFrame.refl u).dieDeadline (fun _ => hkey he) fun _ => hline he) hu) (DeadFrame.refl s)

/-- What takes part in the deadline of a die is not touched by the deadlines of other dies. -/
theorem TakesPart.keep {K L : Nat → Prop} {d k : Nat} (h : TakesPart d k s) (hf : DeadFrame K L s t) (hk : kern t d k = kern s d k) :
    TakesPart d k t := by
  refine ⟨h.lt, by rw [hk]; exact h.run, by rw [hk]; exact h.active, ?_⟩
  have hl := h.live
  have hdoms := hf.doms_eq
  unfold domLive dom at hl ⊢
  rwa [hdoms]

theorem deadline_overran (hc : Canon s) {d k : Nat} (hd : d < dieCount s.part) (h : TakesPart d k s) (hend : (kern s d k).ended = false) :
    Overran d k s (each (dies s) dieDeadline s) := by
  refine deadline_of_die (n := 0) hd h.lt (by decide) (fun u hu => ?_) fun u v hf hu => hu.keep h.lt hf (by simp)
  have hf := hu.facts hc
  have hkern : kern u d k = kern s d k := hf.kern d k (by simp)
  have hover := dieDeadline_overran hf.canon (h.keep hu hkern) (by rw [hkern]; exact hend)
  refine ⟨hover.canon, ?_, hover.stat, hover.count.trans (by rw [DeadFacts.reg_count hf h.lt (by simp)])⟩
  rw [← hkern]
  exact hover.kern

theorem deadline_published (hc : Canon s) {d k n : Nat} {v : Word} (hd : d < dieCount s.part) (h : TakesPart d k s)
    (hend : (kern s d k).ended = true) (hlist : (commitList s d k).filter (fun e => decide (e.1 = n)) = [(n, v)])
    (hok : kernelLineOk n = true) (halone : Alone d k n s) :
    Published d n ⟨rampScale s d k v, true⟩ v (each (dies s) dieDeadline s) := by
  refine deadline_of_die hd h.lt (kernelLineOk_lt hok).1 (fun u hu => ?_) fun u v hf hu => hu.keep hf (by simp)
  have hf := hu.facts hc
  have hkern : kern u d k = kern s d k := hf.kern d k (by simp)
  rw [← hf.rampScale_eq d k v]
  exact dieDeadline_published hf.canon (h.keep hu hkern) (by rw [hkern]; exact hend)
    ((hf.commitList_eq (by simp) (by simp)).trans hlist) hok (halone.keep hc hu)

end Sys2Proof.Machine
end

section
/-! PROOFS. The commands PULSE, DEADLINE, PULSE_START and PULSE_HALT, and obligation O29. -/
namespace Sys2Proof.Machine

variable {s : State}

/-! ### The commands of the tick -/

theorem pulse_next (hrun : running s = true) (hphase : s.phase = .commit) (htrack : trackOwed s = false)
    (hctl : bitF s (Reg.PULSE_CTL 0) F.PULSE_CTL_RUN = true) : exec .pulse s = .next (pulseWork s (pulseCount s + 1)) :=
  whenDue_true (by simp [hrun, hphase, htrack, hctl])

theorem deadline_next (hrun : running s = true) (hphase : s.phase = .tick) (howed : tickOwed s = false) :
    exec .deadline s = .next { each (dies s) dieDeadline s with phase := .commit } :=
  whenDue_true (by simp [hrun, hphase, howed])

/-- The first Pulse of a run carries the count held (R28). -/
theorem pulseStart_counts (hw : s.wf = true) (hrun : running s = true) (hphase : s.phase = .stopped)
    (hctl : bitF s (Reg.PULSE_CTL 0) F.PULSE_CTL_RUN = true) (hlock : pulseLock s = true) :
    ∃ t, exec .pulseStart s = .next t ∧ pulseCount t = pulseCount s ∧ t.phase = .tick := by
  have hstart : TickFrame s (each (dies (each (dies s) startDie s)) (fun d u => startLink u d) (each (dies s) startDie s)) :=
    .each (.each (.refl s) fun _ _ hu => .startDie hu) fun _ _ hu => .startLink hu
  obtain ⟨hregs, -⟩ := hstart.count (State.wf_regs hw)
  rw [← hstart.part] at hregs
  refine ⟨_, whenDue_true (by simp [hrun, hphase, hctl, hlock]), ?_, phase_pulseWork _ _⟩
  rw [pulseCount_pulseWork hregs, Nat.mod_eq_of_lt (pulseCount_lt _)]
  exact hstart.pulseCount_eq (State.wf_regs hw)

/-- After a halt the Pulse is stopped, the lines stand, and of the swap requests only applied ones are left (R28, R231). -/
theorem pulseHalt_stops (hrun : running s = true) (hphase : s.phase = .commit) (hctl : bitF s (Reg.PULSE_CTL 0) F.PULSE_CTL_RUN = false) :
    ∃ t, exec .pulseHalt s = .next t ∧ t.phase = .stopped ∧ t.lines = s.lines ∧ ∀ r, r ∈ t.swaps → r.applied = true := by
  have hframe : TickFrame { stopWaiting s with phase := .stopped }
      (powerSyncAll (elect { stopWaiting s with phase := .stopped }) none) := .powerSyncAll (.elect (.refl _))
  refine ⟨_, whenDue_true (by simp [hrun, hphase, hctl]), hframe.phase, hframe.lines.trans (lines_stopWaiting s), fun r hr => ?_⟩
  rw [hframe.swaps] at hr
  exact stopWaiting_applied s r hr

/-- The registers and pointers of a kernel that has overrun (R54). -/
theorem Overran.pointers {t : State} {d k : Nat} (h : Overran d k s t) :
    (Machine.kern t d k).ovr = true ∧ (Machine.kern t d k).staged = [] ∧ (Machine.kern t d k).active = false ∧
      (Machine.kern t d k).core.r.p = (Machine.kern s d k).core.snap.p ∧ (Machine.kern t d k).core.r.m = (Machine.kern s d k).core.snap.m ∧
      (Machine.kern t d k).core.r.b = (Machine.kern s d k).core.snap.b ∧
      (Machine.kern t d k).core.r.l = (Machine.kern s d k).core.snap.l := by
  obtain ⟨m, xs, hkern⟩ := h.kern
  rw [hkern]
  exact ⟨rfl, rfl, rfl, rfl, rfl, rfl, rfl⟩

/-- A die whose other listed kernels do not name a line leaves it to the one. -/
theorem alone_of_listed {d k n : Nat} (hok : kernelLineOk n = true)
    (h : ((listed s d).all fun j =>
      decide (j = k) || (!(bankLines s d j).contains n && !((commitList s d j).any fun e => decide (e.1 = n)))) = true) :
    Alone d k n s := by
  intro j hj hne hst
  have hmem : j ∈ listed s d := mem_listed_of_st hj (by rcases hst with hst | hst <;> rw [hst] <;> decide)
  have hthis := List.all_eq_true.mp h j hmem
  simp only [hne, decide_false, Bool.false_or, Bool.and_eq_true, Bool.not_eq_true', List.any_eq_false] at hthis
  obtain ⟨hbank, hcommit⟩ := hthis
  exact ⟨by simpa using hbank, quiet_of_commitList hok (by simpa using hcommit)⟩

end Sys2Proof.Machine
end
section
namespace Sys2Proof.Machine

/-- Settles O29. What the blocks do at a Pulse keeps the count, the phase and the lines (`TickFrame`), so that a Pulse is its stages
(`pulseWork_stages`); a deadline is followed per die for one kernel and one line (`DeadFrame`): the kernel overruns or commits once,
and nothing before or after it in the deadline touches what it leaves. -/
theorem pulseAndDeadline : Obligations.PulseAndDeadline := by
  unfold Obligations.PulseAndDeadline
  refine ⟨?_, ?_, ?_, ?_, ?_, ?_, ?_, ?_, ?_, ?_⟩
  · intro s hw hrun hphase htrack hctl
    exact ⟨_, pulse_next hrun hphase htrack hctl, rfl, lines_pulseWork _ _, pulseCount_pulseWork (State.wf_regs hw) _, phase_pulseWork _ _⟩
  · intro s hrun hphase howed
    exact ⟨_, deadline_next hrun hphase howed, rfl, (DeadFrame.deadline s).lines_eq⟩
  · intro s hw hrun hphase hctl hlock
    exact pulseStart_counts hw hrun hphase hctl hlock
  · intro s hrun hphase hctl
    exact pulseHalt_stops hrun hphase hctl
  · intro s d k hw hd hk htrack hrun hphase hctl
    exact ⟨_, pulse_next hrun hphase htrack hctl, pulseWork_started hw hd hk _⟩
  · intro s htrack
    show execPulse s = .next s
    simp [execPulse, whenDue, htrack]
  · intro s d k t hw
    obtain ⟨hstat, hcount, htotal⟩ := regs_overrun (State.wf_regs hw) d k
    obtain ⟨m, xs, hkern⟩ := kern_overrun (State.wf_kern hw) d k
    rw [show kern t d k = _ from hkern]
    exact ⟨rfl, rfl, rfl, rfl, rfl, rfl, rfl, hstat, hcount, htotal⟩
  · intro s d k n v hw hlist hok
    have hpub := commitKernel_published (State.wf_canon hw) (d := d) (k := k) (n := n) (v := v) hok (by simp [hlist])
    have hframe : DeadFrame (fun _ => False) (fun _ => True) s (commitKernel d k s) :=
      (DeadFrame.refl s).commitKernel fun _ _ _ _ => trivial
    exact ⟨hpub.pub, hpub.lastPub, hframe.lines_eq⟩
  · intro s d k kn hw hd hk hrun hphase howed hst hact hlive hend
    have hover := deadline_overran (State.wf_canon hw) hd ⟨hk, hst, hact, hlive⟩ hend
    obtain ⟨hovr, hstaged, hactive, hp, hm, hb, hl⟩ := hover.pointers
    exact ⟨_, deadline_next hrun hphase howed, hovr, hstaged, hactive, hp, hm, hb, hl, hover.stat, hover.count, (DeadFrame.deadline s).rest⟩
  · intro s d k n v kn hw hd hk hrun hphase howed hst hact hlive hend hlist hok hothers
    have hpub := deadline_published (State.wf_canon hw) hd ⟨hk, hst, hact, hlive⟩ hend hlist hok (alone_of_listed hok hothers)
    exact ⟨_, deadline_next hrun hphase howed, hpub.pub, hpub.lastPub, (DeadFrame.deadline s).rest⟩

end Sys2Proof.Machine
end

section
/-! PROOFS. The registers of the Pulse (R27, R28, R30): RUN, the rate, the count, and the lock of a synthesizer. -/
namespace Sys2Proof.Machine

variable {s : State} {a : Access}

theorem regWrite_pulse (s : State) (d o : Nat) (a : Access) (v : Word) : regWrite s d 1 o a v = writePulse s d o a v := rfl

/-- A write to PULSE_CTL of die 0 sets RUN alone (R28). -/
theorem regCmd_pulseCtl (h : reachesReg s a (Reg.PULSE_CTL 0) = true) (v : Word) :
    regCmd a (Reg.PULSE_CTL 0) v s =
      .next (setFld s (Reg.PULSE_CTL 0) F.PULSE_CTL_RUN (wGet v F.PULSE_CTL_RUN)).answered :=
  regCmd_taken h (by decide) (by decide) rfl rfl (regWrite_pulse s 0 _ a v)

/-- A write to PULSE_CFG of die 0 is taken by the rule of R27. -/
theorem pulseCfg_effect (h : reachesReg s a (Reg.PULSE_CFG 0) = true) (v : Word) :
    exec (.pulseConfigWrite a .cfg v) s = .next (pulseCfgWrite s v).answered :=
  regCmd_taken h (by decide) (by decide) rfl rfl (regWrite_pulse s 0 _ a v)

/-- While the Pulse is stopped a rate code of 0 to 5 is taken (R26, R27). -/
theorem pulseCfgWrite_taken {v : Word} (hstop : pulseRuns s = false) (hrate : wGet v F.PULSE_CFG_RATE < 6) :
    pulseCfgWrite s v = setFld (setFld s (Reg.PULSE_CFG 0) F.PULSE_CFG_RATE (wGet v F.PULSE_CFG_RATE))
      (Reg.PULSE_STAT 0) F.PULSE_STAT_RATE (wGet v F.PULSE_CFG_RATE) := by
  simp [pulseCfgWrite, hstop, Nat.not_le.mpr hrate]

/-- While it runs, and for any other rate code, the write sets CFGREJ alone (R27). -/
theorem pulseCfgWrite_ignored {v : Word} (h : pulseRuns s = true ∨ 6 ≤ wGet v F.PULSE_CFG_RATE) :
    pulseCfgWrite s v = setFld s (Reg.PULSE_STAT 0) F.PULSE_STAT_CFGREJ 1 := by
  rcases h with hrun | hrate
  · simp [pulseCfgWrite, hrun]
  · simp [pulseCfgWrite, hrate]

/-- Settles O28: the writes are register writes that reach page PULSE of die 0, and the two events of a synthesizer are due. -/
theorem pulseRegisters : Obligations.PulseRegisters := by
  refine ⟨?run, ?clear, ?rate, ?rateIgnored, ?countLo, ?countHi, ?loss, ?relock⟩
  case run => exact fun s a h => regCmd_pulseCtl h _
  case clear => exact fun s a h => regCmd_pulseCtl h _
  case rate => exact fun s a v h hstop hrate => (pulseCfg_effect h v).trans (by rw [pulseCfgWrite_taken hstop hrate])
  case rateIgnored => exact fun s a v h hign => (pulseCfg_effect h v).trans (by rw [pulseCfgWrite_ignored hign])
  case countLo => exact fun s a v h => regCmd_taken h (by decide) (by decide) rfl rfl rfl
  case countHi => exact fun s a v h => regCmd_taken h (by decide) (by decide) rfl rfl rfl
  case loss => exact fun s d hd hlock => (onUnit_true (by simpa using hd)).trans (whenDue_true hlock)
  case relock =>
    exact fun s d hd hrun hlock => (onUnit_true (by simpa using hd)).trans (whenDue_true (by rw [hrun, hlock]; rfl))

end Sys2Proof.Machine
end

section
/-! PROOFS. KERNEL_CTL (R80): what a rejoin leaves of its kernel. -/
namespace Sys2Proof.Machine

variable {s : State} {a : Access} {d k : Nat}

/-- Power domains brought in line with the votes leave every kernel. -/
theorem SyncFrame.kern_eq {t : State} (h : SyncFrame d s t) : t.kern = s.kern := (congrArg State.kern h.rest :)

/-- Every KERNEL page takes registers. -/
theorem pageRows_kernel (hk : k < 144) : (pageRows (0x100 + k)).isEmpty = false := by
  revert k; decide

theorem regWrite_kernel (hk : k < 144) (s : State) (d o : Nat) (a : Access) (v : Word) :
    regWrite s d (0x100 + k) o a v = writeKernel s d k o a v := by
  have hhi : 0x100 + k ≤ 0x18F := by omega
  have hne (n : Nat) (hn : n < 0x100) : 0x100 + k ≠ n := by omega
  have hgt (n : Nat) (hn : n < 0x100) : ¬ 0x100 + k ≤ n := by omega
  simp [regWrite, hhi, hne, hgt]

/-- A write to KERNEL_CTL of a kernel whose pod is not OFF is taken (R464). -/
theorem regCmd_kernelCtl (h : reachesReg s a (Reg.KERNEL_CTL d k) = true) (hk : k < 144)
    (hpod : (dom s d (pdPod (k / 18))).st ≠ .off) (v : Word) :
    unitCmd k 144 a (Reg.KERNEL_CTL d k) v s = .next (kernelCtlWrite s d k v).answered := by
  have hwrite : regWrite s d (0x100 + k) 4 a v = done (kernelCtlWrite s d k v) := by
    rw [regWrite_kernel hk, writeKernel, if_neg hpod]
  unfold unitCmd
  rw [onUnit_true (by simpa using hk)]
  exact regCmd_taken h (by omega) (by decide) rfl (pageRows_kernel hk) hwrite

/-- STOP taken back from a stopped kernel asks for its admission anew (R80): an earlier one, granted or spoilt, no longer counts. -/
theorem kernelRejoin_stopped (h : reachesReg s a (Reg.KERNEL_CTL d k) = true) (hk : k < 144)
    (hpod : (dom s d (pdPod (k / 18))).st ≠ .off) (hstop : (kern s d k).stop = false) (hst : (kern s d k).st = .stopped) :
    exec (.kernelRejoin a d k) s = .next (powerSync (setKern s d k
      { kern s d k with rejoin := true, enter := false, spoilt := false }) d).answered := by
  have hctl : ctlStop (kern s d k) = true := by simp [ctlStop, hst]
  have hfree : ctlFree (kern s d k) = false := by simp [ctlFree, hst]
  have hword : ctlWith s d k (some false) none = 0 := by
    rw [ctlWith, hfree]
    change fieldIs F.KERNEL_CTL_STOP 0 ||| fieldIs F.KERNEL_CTL_FREE 0 = 0
    decide
  refine (regCmd_kernelCtl h hk hpod _).trans ?_
  rw [hword]
  simp [kernelCtlWrite, hctl, hfree, hstop, hst]

theorem kern_congr {t : State} (h : t.kern = s.kern) (d k : Nat) : kern t d k = kern s d k := by unfold kern; rw [h]

theorem answered_kern (s : State) : s.answered.kern = s.kern := rfl

/-- The kernel that a command of KERNEL_CTL has changed, once the power domains are in line with it. -/
theorem kern_synced (h : s.wf = true) (v : Kern) (hv : v.core.wf = true) :
    kern (powerSync (setKern s d k v) d).answered d k = v := by
  have hsync := (SyncFrame.refl (d := d) (State.wf_setKern h d k v hv)).powerSync.kern_eq
  rw [kern_congr (answered_kern _), kern_congr hsync, kern_setKern_same h]

/-- A kernel that the admission of its rejoin has let in: it stays STOPPED until the Pulse at which it enters RUN. -/
def admittedKernel : Kern := { Kern.zero with st := .stopped, enter := true }

/-- The reset state with kernel 0 of die 0 so. -/
def rejoinAdmitted : State := setKern State.reset 0 0 admittedKernel

/-- Refutes O41: KERNEL_REJOIN does more than start an admission. In `rejoinAdmitted` the kernel is due to enter RUN at the next Pulse;
STOP still reads 1, so a second KERNEL_REJOIN asks for its admission anew and takes that entry back, where the clause of a stopped
kernel has every field but `rejoin` stay. -/
theorem not_kernelControlAndBanks : ¬ Obligations.KernelControlAndBanks := by
  unfold Obligations.KernelControlAndBanks
  rintro ⟨-, -, -, -, -, -, -, -, hrejoin, -⟩
  have hwf : rejoinAdmitted.wf = true := State.wf_setKern rfl 0 0 _ rfl
  have hreach : reachesReg rejoinAdmitted ⟨0, 0⟩ (Reg.KERNEL_CTL 0 0) = true := by decide +kernel
  have hclaim := hrejoin rejoinAdmitted ⟨0, 0⟩ 0 0 hreach (by decide) (by decide) rfl rfl
  have hfact := kernelRejoin_stopped hreach (by decide) (by decide) rfl rfl
  have hsame := Host.Outcome.next.inj (hfact.symm.trans hclaim)
  have henter := congrArg (fun t => (kern t 0 0).enter) hsame
  dsimp only at henter
  rw [kern_synced hwf, kern_synced hwf] at henter
  · exact absurd henter (by decide)
  all_goals rfl

end Sys2Proof.Machine
end

section
/-! PROOFS. The slack governor (R42–R53): the operating point read back, the raise, the lowering step, the end of
preparation, the manual point, and the wear report. -/
namespace Sys2Proof.Machine

variable {s : State}

/-! ### Fields read back -/

/-- The bits of a field. -/
theorem testBit_wField (w : Word) (hi lo i : Nat) :
    (wField w hi lo).testBit i = (decide (i < hi + 1 - lo) && w.getLsbD (lo + i)) := by
  simp [wField, Nat.testBit_mod_two_pow, Nat.testBit_shiftRight, BitVec.getLsbD]

/-- A field set reads back as the value's low bits. -/
theorem wGet_wSet_same (w : Word) {f : Fld} (hl : f.lo ≤ f.hi) (hh : f.hi < 32) (v : Nat) :
    wGet (wSet w f v) f = v % 2 ^ (f.hi + 1 - f.lo) := by
  refine Nat.eq_of_testBit_eq fun i => ?_
  unfold wGet wSet
  rw [testBit_wField, getLsbD_wPut w hl hh, Nat.testBit_mod_two_pow]
  by_cases hi : i < f.hi + 1 - f.lo
  · rw [if_pos (by omega), Nat.add_sub_cancel_left]
  · simp [hi]

/-- A field set leaves the fields above and below it. -/
theorem wGet_wSet_ne (w : Word) {f g : Fld} (hl : f.lo ≤ f.hi) (hh : f.hi < 32) (hne : g.hi < f.lo ∨ f.hi < g.lo)
    (v : Nat) : wGet (wSet w f v) g = wGet w g := by
  refine Nat.eq_of_testBit_eq fun i => ?_
  unfold wGet wSet
  rw [testBit_wField, testBit_wField, getLsbD_wPut w hl hh]
  by_cases hi : i < g.hi + 1 - g.lo
  · rw [if_neg (by omega)]
  · simp [hi]

theorem wGet_lt (w : Word) (f : Fld) : wGet w f < 2 ^ (f.hi + 1 - f.lo) := Nat.mod_lt _ (by positivity)

theorem fld_setFld_same (h : s.wf = true) (r : Nat) {f : Fld} (hl : f.lo ≤ f.hi) (hh : f.hi < 32) (v : Nat) :
    fld (setFld s r f v) r f = v % 2 ^ (f.hi + 1 - f.lo) := by
  unfold fld setFld
  rw [reg_setReg_same h]
  exact wGet_wSet_same _ hl hh v

theorem fld_setFld_ne (h : s.wf = true) (r : Nat) {f g : Fld} (hl : f.lo ≤ f.hi) (hh : f.hi < 32)
    (hne : g.hi < f.lo ∨ f.hi < g.lo) (v : Nat) : fld (setFld s r f v) r g = fld s r g := by
  unfold fld setFld
  rw [reg_setReg_same h]
  exact wGet_wSet_ne _ hl hh hne v

/-! ### Signed codes of five bits -/

theorem toSigned_ofSigned_5 {i : Int} (hlo : -16 ≤ i) (hhi : i < 16) : toSigned (ofSigned i 5) 5 = i := by
  unfold toSigned ofSigned
  norm_num
  split <;> omega

theorem ofSigned_5_lt (i : Int) : ofSigned i 5 < 32 := by
  unfold ofSigned
  norm_num
  omega

theorem toSigned_5_bounds {n : Nat} (h : n < 32) : -16 ≤ toSigned n 5 ∧ toSigned n 5 < 16 := by
  unfold toSigned
  norm_num
  split <;> omega

theorem bbCode_bounds (n : Nat) : -12 ≤ bbCode n ∧ bbCode n ≤ 12 := by unfold bbCode; omega

theorem govVid_lt (s : State) (d : Nat) : govVid s d < 128 := wGet_lt _ _
theorem govBias_bounds (s : State) (d : Nat) : -16 ≤ govBias s d ∧ govBias s d < 16 := toSigned_5_bounds (wGet_lt _ _)
theorem govCeiling_le (s : State) (d : Nat) : govCeiling s d ≤ 60 := by unfold govCeiling govVmax; omega

/-! ### The operating point -/

/-- The VID set is the VID in effect. -/
theorem govVid_setPoint (h : s.wf = true) (d : Nat) {vid : Nat} (hv : vid < 128) (bb : Int) :
    govVid (setPoint s d vid bb) d = vid := by
  have h1 := State.wf_setFld h (Reg.GOV_STAT d) F.GOV_STAT_VID vid
  have h2 := State.wf_setFld h1 (Reg.GOV_STAT d) F.GOV_STAT_BB (ofSigned bb 5)
  unfold govVid setPoint
  rw [fld_setFld_ne h2 _ (by decide) (by decide) (by decide), fld_setFld_ne h1 _ (by decide) (by decide) (by decide),
    fld_setFld_same h _ (by decide) (by decide)]
  exact Nat.mod_eq_of_lt hv

/-- The bias set is the bias in effect. -/
theorem govBias_setPoint (h : s.wf = true) (d vid : Nat) {bb : Int} (hlo : -16 ≤ bb) (hhi : bb < 16) :
    govBias (setPoint s d vid bb) d = bb := by
  have h1 := State.wf_setFld h (Reg.GOV_STAT d) F.GOV_STAT_VID vid
  have h2 := State.wf_setFld h1 (Reg.GOV_STAT d) F.GOV_STAT_BB (ofSigned bb 5)
  unfold govBias setPoint
  rw [fld_setFld_ne h2 _ (by decide) (by decide) (by decide), fld_setFld_same h1 _ (by decide) (by decide)]
  change toSigned (ofSigned bb 5 % 32) 5 = bb
  rw [Nat.mod_eq_of_lt (ofSigned_5_lt bb), toSigned_ofSigned_5 hlo hhi]

theorem setPoint_keepsRegs (h : s.wf = true) (d vid : Nat) (bb : Int) : KeepsRegs [Reg.GOV_STAT d] s (setPoint s d vid bb) :=
  KeepsRegs.setPoint ⟨rfl, State.wf_regs h, fun _ _ => rfl⟩ (by simp)

theorem setFld_frame (s : State) (a : Nat) (f : Fld) (v : Nat) (r : List (Nat × Word)) :
    { setFld s a f v with regs := r } = { s with regs := r } := rfl

/-- A point set changes registers alone. -/
theorem setPoint_frame (s : State) (d vid : Nat) (bb : Int) (r : List (Nat × Word)) :
    { setPoint s d vid bb with regs := r } = { s with regs := r } := by
  unfold setPoint
  extract_lets a man
  rw [setFld_frame, setFld_frame, setFld_frame]

/-- With a die's record set besides, nothing else changes. -/
theorem regsDieX_frame {t : State} (ht : { t with regs := s.regs } = s) (d : Nat) (x : DieX) :
    { setDieX t d x with regs := s.regs, dieX := s.dieX } = s :=
  congrArg (fun u : State => { u with dieX := s.dieX }) ht

theorem setPoint_dieX (s : State) (d vid : Nat) (bb : Int) : (setPoint s d vid bb).dieX = s.dieX := rfl

/-- The record of a die that is set reads back. -/
theorem dieX_setDieX_ofSame {t : State} (ht : t.dieX = s.dieX) (h : s.wf = true) {d : Nat} (x : DieX) : dieX (setDieX t d x) d = x := by
  unfold dieX setDieX
  rw [ht]
  exact smGet_smSet_same (State.wf_dieX h) _ _

/-! ### Lowering steps (R48) -/

/-- A lowering step sets a point or changes nothing. -/
theorem lowerPoint_cases (s : State) (d : Nat) : lowerPoint s d = s ∨ ∃ vid bb, lowerPoint s d = setPoint s d vid bb := by
  unfold lowerPoint
  dsimp only
  split
  · exact .inr ⟨_, _, rfl⟩
  · split
    · exact .inr ⟨_, _, rfl⟩
    · split
      · split
        · exact .inr ⟨_, _, rfl⟩
        · split
          · exact .inr ⟨_, _, rfl⟩
          · exact .inl rfl
      · exact .inl rfl

theorem lowerPoint_keepsRegs (h : s.wf = true) (d : Nat) : KeepsRegs [Reg.GOV_STAT d] s (lowerPoint s d) := by
  obtain heq | ⟨vid, bb, heq⟩ := lowerPoint_cases s d
  · rw [heq]
    exact ⟨rfl, State.wf_regs h, fun _ _ => rfl⟩
  · rw [heq]
    exact setPoint_keepsRegs h d vid bb

theorem lowerPoint_frame (s : State) (d : Nat) : { lowerPoint s d with regs := s.regs } = s := by
  obtain heq | ⟨vid, bb, heq⟩ := lowerPoint_cases s d
  · rw [heq]
  · rw [heq, setPoint_frame]

theorem lowerPoint_dieX (s : State) (d : Nat) : (lowerPoint s d).dieX = s.dieX :=
  (congrArg State.dieX (lowerPoint_frame s d) :)

theorem lowerPoint_ofBias {d : Nat} (hb : 0 < govBias s d) : lowerPoint s d = setPoint s d (govVid s d) (govBias s d - 1) :=
  if_pos hb

theorem lowerPoint_ofVid {d : Nat} (hb : govBias s d = 0) (hv : govVmin s d < govVid s d) :
    lowerPoint s d = setPoint s d (govVid s d - 1) 0 := by
  simp [lowerPoint, hb, hv]

theorem lowerPoint_atVmin {d : Nat} (hb : govBias s d ≤ 0) (hv : govVid s d ≤ govVmin s d) :
    lowerPoint s d = if govRev s d < govBias s d then setPoint s d (govVid s d) (govBias s d - 1)
      else if govBias s d < govRev s d then setPoint s d (govVid s d) (govBias s d + 1) else s := by
  simp [lowerPoint, Int.not_lt.mpr hb, Nat.not_lt.mpr hv, hv]

/-- The point that a step sets is the one in effect. -/
theorem point_setPoint (h : s.wf = true) (d : Nat) {vid : Nat} (hv : vid < 128) {bb : Int} (hlo : -16 ≤ bb) (hhi : bb < 16) :
    govVid (setPoint s d vid bb) d = vid ∧ govBias (setPoint s d vid bb) d = bb :=
  ⟨govVid_setPoint h d hv bb, govBias_setPoint h d vid hlo hhi⟩

/-! ### Preparation (R50) -/

/-- Another field of GOV_STAT leaves the point in effect. -/
theorem point_clearPrep (h : s.wf = true) (d : Nat) :
    govVid (setFld s (Reg.GOV_STAT d) F.GOV_STAT_PREP 0) d = govVid s d ∧
      govBias (setFld s (Reg.GOV_STAT d) F.GOV_STAT_PREP 0) d = govBias s d := by
  unfold govVid govBias
  rw [fld_setFld_ne h _ (by decide) (by decide) (by decide), fld_setFld_ne h _ (by decide) (by decide) (by decide)]
  exact ⟨rfl, rfl⟩

theorem clearPrep_keepsRegs (h : s.wf = true) (d : Nat) :
    KeepsRegs [Reg.GOV_STAT d] s (setFld s (Reg.GOV_STAT d) F.GOV_STAT_PREP 0) :=
  KeepsRegs.setReg ⟨rfl, State.wf_regs h, fun _ _ => rfl⟩ (by simp)

theorem bitF_setFld_zero (h : s.wf = true) (r : Nat) {f : Fld} (hl : f.lo ≤ f.hi) (hh : f.hi < 32) :
    bitF (setFld s r f 0) r f = false := by
  simp [bitF, fld_setFld_same h r hl hh]

/-! ### Registers of the GOV page -/

theorem regWrite_gov (s : State) (d o : Nat) (a : Access) (v : Word) : regWrite s d 2 o a v = writeGov s d o a v := rfl

variable {a : Access}

/-- GOV_MANUAL takes its fields and the governor acts on them at once (R52). -/
theorem regCmd_govManual {d : Nat} (h : reachesReg s a (Reg.GOV_MANUAL d) = true) (v : Word) :
    regCmd a (Reg.GOV_MANUAL d) v s = .next (govRefresh (maskPut s (Reg.GOV_MANUAL d) 0x031F007F v) d).answered := by
  refine regCmd_taken h (by decide) (by decide) rfl rfl ?_
  rw [regWrite_gov]
  change done (govRefresh (plainWrite s d 2 _ a v) d) = _
  rw [plainWrite_row (by decide) (by decide) rfl, maskWrite_rw rfl rfl rfl]
  rfl

/-- CLR sets the worst margin to its largest value (R42). -/
theorem regCmd_govMarginMin {d : Nat} (h : reachesReg s a (Reg.GOV_MARGIN_MIN d) = true) :
    regCmd a (Reg.GOV_MARGIN_MIN d) (one F.GOV_MARGIN_MIN_CLR) s = .next (setFld (setFld s (Reg.GOV_MARGIN_MIN d) F.GOV_MARGIN_MIN_MARGIN 0x7FFF)
      (Reg.GOV_MARGIN_MIN d) F.GOV_MARGIN_MIN_KERNEL 0).answered :=
  regCmd_taken h (by decide) (by decide) rfl rfl rfl

/-! ### Wear (R53) -/

/-- The word of a wear report: the drift below, OVER above it. -/
theorem wearWord (past : Bool) {n : Nat} (hn : n < 65536) :
    wField (BitVec.ofNat 32 (past.toNat * 2 ^ 16 + n)) 15 0 = n ∧
      (BitVec.ofNat 32 (past.toNat * 2 ^ 16 + n)).getLsbD 16 = past := by
  have hb : past.toNat ≤ 1 := Bool.toNat_le past
  constructor
  · simp [wField]
    omega
  · rw [BitVec.getLsbD_ofNat, Nat.testBit_eq_decide_div_mod_eq]
    cases past
    all_goals simp; omega

theorem ofSigned_16_lt (i : Int) : ofSigned i 16 < 65536 := by
  unfold ofSigned
  norm_num
  omega

/-- A trigger for the spares logic, given or not, leaves all but the pods. -/
theorem spareTriggerIf_frame (b : Bool) (s : State) (d k c : Nat) :
    ∃ x, (if b then spareTrigger s d k c else s) = { s with pods := x } := by
  cases b
  · exact ⟨s.pods, rfl⟩
  · exact ⟨_, rfl⟩

/-- A kernel and its wear word set. -/
theorem wearWord_set (h : s.wf = true) (d k : Nat) (v : Kern) (w : Word) :
    kern (setTab (setKern s d k v) tWear d k w) d k = v ∧ tab (setTab (setKern s d k v) tWear d k w) tWear d k = w :=
  ⟨kern_setKern_same h d k v, smGet_smSet_same (State.wf_tabs h) _ _⟩

/-- The report clears the average and leaves the drift in the kernel's wear word, with OVER kept once set. -/
theorem wearReport_effect {d k : Nat} (h : s.wf = true) (hd : d < dieCount s.part) (hk : k < 144)
    (hn : 65536 ≤ (kern s d k).wear.ticks) (hst : (kern s d k).st ≠ .retired) :
    ∃ t, exec (.wearReport d k) s = .next t ∧
      (kern t d k).wear = ⟨0, 0, 0, stepTime (kern s d k).wear⟩ ∧
      wField (tab t tWear d k) 15 0 = ofSigned (wearDrift s d k) 16 ∧
      (tab t tWear d k).getLsbD 16 = ((tab s tWear d k).getLsbD 16 || decide ((fld s (Reg.GOV_WEAR_LIM d) F.GOV_WEAR_LIM_LIMIT : Int) < wearDrift s d k)) ∧
      { t with tabs := s.tabs, kern := s.kern, pods := s.pods } = s := by
  refine ⟨_, (onUnit_true (by simp [hd, hk])).trans (whenDue_true (by simp [hn, hst])), ?_⟩
  extract_lets dr was past w t
  obtain ⟨hlow, hover⟩ : wField w 15 0 = ofSigned dr 16 ∧ w.getLsbD 16 = past := wearWord past (ofSigned_16_lt dr)
  obtain ⟨hkern, htab⟩ : kern t d k = { kern s d k with wear := ⟨0, 0, 0, stepTime (kern s d k).wear⟩ } ∧ tab t tWear d k = w :=
    wearWord_set h d k _ w
  obtain ⟨x, hx⟩ := spareTriggerIf_frame (past && !was) t d k 3
  rw [hx]
  refine ⟨congrArg Kern.wear hkern, (congrArg (wField · 15 0) htab).trans hlow, (congrArg (·.getLsbD 16) htab).trans hover, rfl⟩

theorem govVid_setDieX (t : State) (d e : Nat) (x : DieX) : govVid (setDieX t e x) d = govVid t d := rfl
theorem govBias_setDieX (t : State) (d e : Nat) (x : DieX) : govBias (setDieX t e x) d = govBias t d := rfl

theorem govRaise_effect {d : Nat} (hd : d < dieCount s.part) (hauto : govAuto s d = true)
    (hsettle : (dieX s d).settle = some 0) (hret : dieRetained s d = false) :
    exec (.govRaise d) s = .next (setDieX
      (setPoint s d (min (govCeiling s d) (govVid s d + max 1 (fld s (Reg.GOV_CFG d) F.GOV_CFG_UPSTEP))) (govFwd s d)) d
      { dieX s d with settle := some (max 1 (fld s (Reg.GOV_CFG d) F.GOV_CFG_SETTLE)), window := 0 }) :=
  (onUnit_true (by simpa using hd)).trans (whenDue_true (by simp [hauto, hsettle, hret]))

theorem govLower_effect {d : Nat} (hd : d < dieCount s.part) (hauto : govAuto s d = true)
    (hwin : govWindow s d ≤ (dieX s d).window) (hret : dieRetained s d = false) :
    exec (.govLower d) s = .next (setDieX (lowerPoint s d) d { dieX s d with window := 0 }) :=
  (onUnit_true (by simpa using hd)).trans (whenDue_true (by simp [hauto, hwin, hret]))

theorem govPrepEnd_effect {d n : Nat} (hd : d < dieCount s.part) (hto : (dieX s d).prepTo = some n) (hn : n ≤ pulseCount s)
    (hex : podsExiting s d = false) :
    exec (.govPrepEnd d) s = .next (setDieX (setFld s (Reg.GOV_STAT d) F.GOV_STAT_PREP 0) d { dieX s d with prepTo := none }) := by
  refine (onUnit_true (by simpa using hd)).trans ?_
  rw [hto]
  exact whenDue_true (by simp [hn, hex])

/-- Settles O30: each step sets its operating point in GOV_STAT, where it reads back. -/
theorem governor : Obligations.Governor := by
  refine ⟨?raise, ?lower, ?prepEnd, ?manual, ?marginClear, ?wear⟩
  case raise =>
    intro s d h hd hauto hsettle hret
    have hle := govCeiling_le s d
    have hfwd : -12 ≤ govFwd s d ∧ govFwd s d ≤ 12 := bbCode_bounds _
    have hkeep := setPoint_keepsRegs h d (min (govCeiling s d) (govVid s d + max 1 (fld s (Reg.GOV_CFG d) F.GOV_CFG_UPSTEP))) (govFwd s d)
    refine ⟨_, govRaise_effect hd hauto hsettle hret, ?vid, ?bias, ?settle, ?window, ?frame, hkeep.setDieX.regs⟩
    case vid => exact (govVid_setDieX _ _ _ _).trans (govVid_setPoint h d (by omega) _)
    case bias => exact (govBias_setDieX _ _ _ _).trans (govBias_setPoint h d _ (by omega) (by omega))
    case settle => exact congrArg DieX.settle (dieX_setDieX_ofSame (setPoint_dieX s d _ _) h _)
    case window => exact congrArg DieX.window (dieX_setDieX_ofSame (setPoint_dieX s d _ _) h _)
    case frame => exact regsDieX_frame (setPoint_frame s d _ _ s.regs) _ _
  case lower =>
    intro s d h hd hauto hwin hret
    have hvid := govVid_lt s d
    have hbias := govBias_bounds s d
    have hrev : -12 ≤ govRev s d ∧ govRev s d ≤ 12 := bbCode_bounds _
    refine ⟨_, govLower_effect hd hauto hwin hret, ?bias, ?vid, ?down, ?up, ?window,
      regsDieX_frame (lowerPoint_frame s d) _ _, (lowerPoint_keepsRegs h d).setDieX.regs⟩
    case bias =>
      intro hb
      rw [govVid_setDieX, govBias_setDieX, lowerPoint_ofBias hb]
      exact point_setPoint h d hvid (by omega) (by omega)
    case vid =>
      intro hb hv
      rw [govVid_setDieX, govBias_setDieX, lowerPoint_ofVid hb hv]
      exact point_setPoint h d (by omega) (by omega) (by omega)
    case down =>
      intro hb hv hr
      rw [govVid_setDieX, govBias_setDieX, lowerPoint_atVmin hb hv, if_pos hr]
      exact point_setPoint h d hvid (by omega) (by omega)
    case up =>
      intro hb hv hr
      rw [govVid_setDieX, govBias_setDieX, lowerPoint_atVmin hb.le hv, if_neg (by omega), if_pos hr]
      exact point_setPoint h d hvid (by omega) (by omega)
    case window => exact congrArg DieX.window (dieX_setDieX_ofSame (lowerPoint_dieX s d) h _)
  case prepEnd =>
    intro s d n h hd hto hn hex
    obtain ⟨hvid, hbias⟩ := point_clearPrep h d
    exact ⟨_, govPrepEnd_effect hd hto hn hex, bitF_setFld_zero h _ (by decide) (by decide),
      congrArg DieX.prepTo (dieX_setDieX_ofSame rfl h _), hvid, hbias, regsDieX_frame (setFld_frame s _ _ _ s.regs) _ _,
      (clearPrep_keepsRegs h d).setDieX.regs⟩
  case manual => exact fun s a d v h => regCmd_govManual h v
  case marginClear => exact fun s a d h => regCmd_govMarginMin h
  case wear => exact fun s d k h hd hk hn hst => wearReport_effect h hd hk hn hst

end Sys2Proof.Machine
end

section
/-! PROOFS. Memory over the bus (R40, R64–R66, R171, R361–R363): how an access that reaches its target is answered, working
memory by bytes and by lines, Hoard words, and the words of a kernel's window. -/
namespace Sys2Proof.Machine

variable {s t : State} {a : Access} {d k loc width v : Nat}

/-! ### Accesses that reach their target -/

theorem addrDie_pkgA (h : loc < 0x10_0000_0000) : addrDie (pkgA d loc) = d := by
  unfold addrDie pkgA; omega

theorem addrLocal_pkgA (h : loc < 0x10_0000_0000) : addrLocal (pkgA d loc) = loc := by
  unfold addrLocal pkgA; omega

/-- An access that reaches a die is the target's own, answered. -/
theorem busAccess_reaches {w : Bool} (h : reachesAt s a d loc w = true) (hloc : loc < 0x10_0000_0000) (go : Nat → Nat → Ans) :
    busAccess a (pkgA d loc) w go s = answer d (pkgA d loc) a w (go d loc) := by
  unfold reachesAt at h
  simp only [Bool.and_eq_true] at h
  obtain ⟨⟨⟨⟨⟨⟨-, -⟩, hr⟩, hm⟩, hreach⟩, hc⟩, hf⟩ := h
  unfold busAccess
  rw [addrDie_pkgA hloc, addrLocal_pkgA hloc]
  simp only [hr, hm, hreach, hc, hf, Bool.not_true, Bool.and_self, Bool.false_eq_true, if_false]

theorem reachesAt_wf {w : Bool} (h : reachesAt s a d loc w = true) : s.wf = true := by
  unfold reachesAt at h
  simp only [Bool.and_eq_true] at h
  obtain ⟨⟨⟨⟨⟨⟨hwf, -⟩, -⟩, -⟩, -⟩, -⟩, -⟩ := h
  exact hwf

theorem reachesAt_access {w : Bool} (h : reachesAt s a d loc w = true) : accessOk s a = true := by
  unfold reachesAt at h
  simp only [Bool.and_eq_true] at h
  obtain ⟨⟨⟨⟨⟨⟨-, ha⟩, -⟩, -⟩, -⟩, -⟩, -⟩ := h
  exact ha

theorem memoryWrite_reaches (h : reachesAt s a d loc true = true) (hloc : loc < 0x10_0000_0000) (width v : Nat) :
    exec (.memoryWrite a (pkgA d loc) width v) s = .next (answer d (pkgA d loc) a true (targetWrite s d loc width a v)) :=
  (onUnit_true (reachesAt_access h)).trans (congrArg _ (busAccess_reaches h hloc _))

theorem memoryRead_reaches (h : reachesAt s a d loc false = true) (hloc : loc < 0x10_0000_0000) (width : Nat) :
    exec (.memoryRead a (pkgA d loc) width) s = .next (answer d (pkgA d loc) a false (targetRead s d loc width a)) :=
  (onUnit_true (reachesAt_access h)).trans (congrArg _ (busAccess_reaches h hloc _))

/-! ### Working memory -/

theorem target_memory (s : State) (d : Nat) (h : loc + width ≤ 0x40_0000) : target s d loc width = .memory := if_pos h

/-- A write to working memory stores its bytes and marks the lines that it covers (R361). -/
theorem targetWrite_memory (hdom : domOn s d pdStew = true) (h : loc + width ≤ 0x40_0000) (hw : widthOk loc width = true)
    (a : Access) (v : Nat) :
    targetWrite s d loc width a v = done (wmFresh (storeBytes s (pkgA d loc) v width) d loc width) := by
  unfold targetWrite
  rw [target_memory s d h]
  simp [targetAnswers, hdom, hw]

/-- A read of working memory (R363, R364). -/
theorem targetRead_memory (hdom : domOn s d pdStew = true) (h : loc + width ≤ 0x40_0000) (hw : wmReadOk loc width = true)
    (a : Access) :
    targetRead s d loc width a =
      if (wmLines s d loc width).2 then okBytes (wmLines s d loc width).1 (pkgA d loc) width
      else errK (wmLines s d loc width).1 3 := by
  unfold targetRead
  rw [target_memory s d h]
  simp [targetAnswers, hdom, hw]

/-- Lines marked change the marks alone. -/
theorem wmFresh_frame (s : State) (d loc n : Nat) : ∃ e, wmFresh s d loc n = { s with ecc := e } := by
  refine each_keeps (P := fun t => ∃ e, t = { s with ecc := e }) _ _ (fun key _ t ht => ?_) ⟨s.ecc, rfl⟩
  obtain ⟨e, rfl⟩ := ht
  exact ⟨_, rfl⟩

theorem loadBytes_congr (h : t.mem = s.mem) (at_ n : Nat) : loadBytes t at_ n = loadBytes s at_ n := by
  induction n generalizing at_ with
  | zero => rfl
  | succ n ih => simp only [loadBytes, loadByte, h, ih]

theorem loadByte_congr (h : t.mem = s.mem) (b : Nat) : loadByte t b = loadByte s b := by
  simp only [loadByte, h]

/-- A line without a bit error reads and changes nothing. -/
theorem wmLine_clean {line : Nat} (h : eccAt s (pkgA d (line * 8)) = .clean) : wmLine s d line = (s, true) := by
  simp only [wmLine, h]

/-- Lines without a bit error read and change nothing. -/
theorem wmLines_clean (h : ∀ i, i < (loc + width + 7) / 8 - loc / 8 → eccAt s (pkgA d ((loc / 8 + i) * 8)) = .clean) :
    wmLines s d loc width = (s, true) := by
  unfold wmLines
  generalize (loc + width + 7) / 8 - loc / 8 = n at h
  induction n with
  | zero => rfl
  | succ n ih =>
    rw [List.range_succ, List.foldl_append, ih fun i hi => h i (by omega)]
    simp only [List.foldl_cons, List.foldl_nil, wmLine_clean (h n (by omega)), Bool.and_self]

theorem widthOk_cases (h : widthOk loc width = true) : (width = 1 ∨ width = 2 ∨ width = 4 ∨ width = 8) ∧ loc % width = 0 := by
  simpa [widthOk, or_assoc] using h

theorem wmReadOk_le (h : wmReadOk loc width = true) : width ≤ 8 := by
  simp only [wmReadOk, widthOk, Bool.or_eq_true, Bool.and_eq_true, decide_eq_true_eq] at h
  omega

/-- An aligned read touches one line. -/
theorem widthOk_oneLine (h : widthOk loc width = true) : (loc + width + 7) / 8 - loc / 8 = 1 := by
  obtain ⟨rfl | rfl | rfl | rfl, hal⟩ := widthOk_cases h
  all_goals omega

/-- A repair order changes registers and row records alone. -/
theorem orderRepair_frame (s : State) (d p row : Nat) : ∃ r x, orderRepair s d p row = { s with regs := r, rows := x } := by
  unfold orderRepair
  dsimp only
  split
  · exact ⟨s.regs, s.rows, rfl⟩
  · split
    · exact ⟨_, _, rfl⟩
    · split
      · exact ⟨s.regs, _, rfl⟩
      · exact ⟨_, _, rfl⟩

theorem satFld_frame (s : State) (r : Nat) (f : Fld) : ∃ x, satFld s r f = { s with regs := x } := by
  unfold satFld
  split
  · exact ⟨_, rfl⟩
  · exact ⟨s.regs, rfl⟩

/-- An aligned read of a line with a double-bit error fails; registers and row records alone change. -/
theorem wmLines_double (hw : widthOk loc width = true) (h : eccAt s (pkgA d (loc / 8 * 8)) = .double) :
    ∃ r x, wmLines s d loc width = ({ s with regs := r, rows := x }, false) := by
  unfold wmLines
  rw [widthOk_oneLine hw]
  obtain ⟨r₁, h₁⟩ := satFld_frame s (Reg.BUS_WMECC d) F.BUS_WMECC_UNC
  obtain ⟨r, x, hx⟩ := orderRepair_frame { s with regs := r₁ } d 8 (loc / 8 / 128)
  refine ⟨r, x, ?_⟩
  simp only [List.range_one, List.foldl_cons, List.foldl_nil, Nat.add_zero, wmLine, h, h₁, hx]
  rfl

/-- A bus error recorded changes registers alone. -/
theorem busError_frame (s : State) (d kind addr : Nat) (a : Access) (w : Bool) :
    ∃ r, busError s d kind addr a w = { s with regs := r } := by
  unfold busError
  dsimp only
  split
  · exact ⟨s.regs, rfl⟩
  · exact ⟨_, rfl⟩

/-- Bytes stored, and lines marked, change memory and marks alone. -/
theorem storeFresh_frame (s : State) (d loc width v : Nat) :
    ∃ m e, m = (storeBytes s (pkgA d loc) v width).mem ∧
      wmFresh (storeBytes s (pkgA d loc) v width) d loc width = { s with mem := m, ecc := e } := by
  rw [storeBytes_eq]
  obtain ⟨e, he⟩ := wmFresh_frame { s with mem := (storeBytes s (pkgA d loc) v width).mem } d loc width
  exact ⟨_, e, rfl, he⟩

theorem memoryWrite_effect (h : reachesAt s a d loc true = true) (hdom : domOn s d pdStew = true) (hend : loc + width ≤ 0x40_0000)
    (hw : widthOk loc width = true) (v : Nat) :
    exec (.memoryWrite a (pkgA d loc) width v) s =
      .next (wmFresh (storeBytes s (pkgA d loc) v width) d loc width).answered := by
  rw [memoryWrite_reaches h (by omega), targetWrite_memory hdom hend hw]
  rfl

theorem memoryRead_clean (h : reachesAt s a d loc false = true) (hdom : domOn s d pdStew = true) (hend : loc + width ≤ 0x40_0000)
    (hw : wmReadOk loc width = true) (hecc : wmLines s d loc width = (s, true)) :
    exec (.memoryRead a (pkgA d loc) width) s =
      .next { s with resp := .ok (BitVec.ofNat 64 (loadBytes s (pkgA d loc) width)) } := by
  rw [memoryRead_reaches h (by omega), targetRead_memory hdom hend hw, hecc]
  rfl

/-- A read that meets a double-bit error is answered with KIND 3; registers and row records alone change (R361, R364). -/
theorem memoryRead_double (h : reachesAt s a d loc false = true) (hdom : domOn s d pdStew = true) (hend : loc + width ≤ 0x40_0000)
    (hw : widthOk loc width = true) (hecc : eccAt s (pkgA d (loc / 8 * 8)) = .double) :
    ∃ r x, exec (.memoryRead a (pkgA d loc) width) s = .next { s with regs := r, rows := x, resp := .err (some 3) } := by
  obtain ⟨r, x, hlines⟩ := wmLines_double hw hecc
  obtain ⟨r', herr⟩ := busError_frame { s with regs := r, rows := x } d 3 (pkgA d loc) a false
  refine ⟨r', x, ?_⟩
  rw [memoryRead_reaches h (by omega), targetRead_memory hdom hend (by simp [wmReadOk, hw]), hlines]
  simp only [Bool.false_eq_true, if_false, answer, errK, herr]

/-! ### Hoard words -/

theorem target_hoard (s : State) {d p w : Nat} (hp : p < 8) (hw : w < 0x40000) :
    target s d (0x2000_0000 + p * 0x10_0000 + 4 * w) 4 = .hoard p (4 * w) := by
  have h1 : (0x2000_0000 + p * 0x10_0000 + 4 * w - 0x2000_0000) / 0x10_0000 = p := by omega
  have h2 : (0x2000_0000 + p * 0x10_0000 + 4 * w - 0x2000_0000) % 0x10_0000 = 4 * w := by omega
  unfold target
  rw [if_neg (by omega), if_neg (by simp; omega), if_pos (by simp; omega), h1, h2]

/-- A Hoard word written over the bus has fresh ECC (R171, R177). -/
theorem targetWrite_hoard {p w : Nat} (hp : p < 8) (hw : w < 0x40000) (hdom : domOn s d (pdPod p) = true) (a : Access) (v : Word) :
    targetWrite s d (0x2000_0000 + p * 0x10_0000 + 4 * w) 4 a v.toNat =
      done (setEcc (storeW s (hoardA d p w) v) (hoardA d p w) .clean) := by
  unfold targetWrite
  rw [target_hoard s hp hw]
  simp [targetAnswers, hoardWrite, hdom, show 4 * w / 4 = w by omega]

/-- A word stored with fresh ECC changes memory and marks alone. -/
theorem storeClean_frame (h : s.wf = true) (key : Nat) (v : Word) :
    ∃ m e, m = (storeW s key v).mem ∧ smGet (fun _ => EccMark.clean) e key = .clean ∧
      setEcc (storeW s key v) key .clean = { s with mem := m, ecc := e } := by
  have hecc := smGet_smSet_same (State.wf_ecc h) key EccMark.clean
  unfold storeW
  rw [storeBytes_eq]
  exact ⟨_, _, rfl, hecc, rfl⟩

/-- A write of a Hoard word over the bus. -/
theorem memoryWrite_hoard {p w : Nat} (h : reachesAt s a d (0x2000_0000 + p * 0x10_0000 + 4 * w) true = true) (hp : p < 8)
    (hw : w < 0x40000) (hdom : domOn s d (pdPod p) = true) (v : Word) :
    exec (.memoryWrite a (hoardA d p w) 4 v.toNat) s =
      .next (setEcc (storeW s (hoardA d p w) v) (hoardA d p w) .clean).answered := by
  refine (memoryWrite_reaches h (by omega) 4 v.toNat).trans ?_
  rw [targetWrite_hoard hp hw hdom]
  rfl

/-! ### Words of a window -/

theorem target_window (s : State) {d k off width : Nat} (hk : k < 144) (ho : off < 0x4_0000) :
    target s d (0x3000_0000 + k * 0x4_0000 + off) width = .window k off := by
  have h1 : (0x3000_0000 + k * 0x4_0000 + off - 0x3000_0000) / 0x4_0000 = k := by omega
  have h2 : (0x3000_0000 + k * 0x4_0000 + off - 0x3000_0000) % 0x4_0000 = off := by omega
  unfold target
  rw [if_neg (by omega), if_neg (by simp; omega), if_neg (by simp; omega), if_pos (by simp; omega), h1, h2]

theorem targetWrite_window {off : Nat} (hk : k < 144) (ho : off < 0x4_0000) (a : Access) (width v : Nat) :
    targetWrite s d (0x3000_0000 + k * 0x4_0000 + off) width a v = winWrite s d k off width v := by
  unfold targetWrite
  rw [target_window s hk ho]
  simp [targetAnswers]

/-- An aligned word of a program bank that the window takes (R40, R65). -/
theorem winWrite_prog {off : Nat} {b : Bool} (hdom : domOn s d (pdPod (k / 18)) = true) (hal : off % 4 = 0)
    (hpart : winPart off = .prog b) (hopen : winOpen (kern s d k) off = true) (v : Word) :
    winWrite s d k off 4 v.toNat = done (withdrawBy (winStore s d k off v) d k b) := by
  simp [winWrite, hdom, hal, hpart, hopen]

/-- An aligned word of the register image that the window takes (R66). -/
theorem winWrite_image {off : Nat} (hdom : domOn s d (pdPod (k / 18)) = true) (hal : off % 4 = 0)
    (hpart : winPart off = .image) (hopen : winOpen (kern s d k) off = true) (v : Word) :
    winWrite s d k off 4 v.toNat = done (winStore s d k off v) := by
  simp [winWrite, hdom, hal, hpart, hopen]

/-- An aligned access of 4 or 8 bytes that the window refuses (R65, R66). -/
theorem winWrite_closed {off : Nat} (hdom : domOn s d (pdPod (k / 18)) = true) (hw : width = 4 ∨ width = 8) (hal : off % width = 0)
    (hpart : winPart off ≠ .none_) (hclosed : winOpen (kern s d k) off = false) (v : Nat) :
    winWrite s d k off width v = refuse s := by
  unfold winWrite
  obtain rfl | rfl := hw
  all_goals simp [hdom, hal, hpart, hclosed]

theorem winPart_prog (bankB : Bool) {off : Nat} (ho : off < 0x8000) :
    winPart ((if bankB then 0x8000 else 0) + off) = .prog bankB := by
  unfold winPart
  cases bankB
  · simp [ho]
  · simp [show 0x8000 + off < 0x1_0000 by omega]

theorem winPart_image {off : Nat} (ho : off < 0x240) : winPart (0x1_E000 + off) = .image := by
  unfold winPart
  rw [if_neg (by omega), if_neg (by omega), if_neg (by omega), if_neg (by omega), if_pos (by simp; omega)]

theorem setEcc_frame (s : State) (key : Nat) (e : EccMark) : ∃ x, setEcc s key e = { s with ecc := x } := ⟨_, rfl⟩

theorem progA_off (d k : Nat) (bankB : Bool) (off : Nat) :
    kernWin d k + ((if bankB then 0x8000 else 0) + off) = progA d k bankB 0 + off := by
  unfold progA; omega

/-- The program bank of a kernel without spares takes a word with fresh ECC (R63). -/
theorem winStore_prog (bankB : Bool) {off : Nat} (ho : off < 0x8000) (hsp : sparesOf s d k = []) (hcp : copiesOf s d k = []) (v : Word) :
    ∃ m e, m = (storeW s (progA d k bankB 0 + off) v).mem ∧
      winStore s d k ((if bankB then 0x8000 else 0) + off) v = { s with mem := m, ecc := e } := by
  simp only [winStore, winPart_prog bankB ho, storeKernel, hsp, hcp, List.append_nil, each, List.foldl_cons, List.foldl_nil,
    progA_off]
  unfold storeW
  rw [storeBytes_eq]
  exact ⟨_, _, rfl, rfl⟩

theorem winStore_image {off : Nat} (ho : off < 0x240) (v : Word) :
    winStore s d k (0x1_E000 + off) v =
      setKern s d k { kern s d k with core := { (kern s d k).core with r := imageWrite (kern s d k).core.r off v } } := by
  simp only [winStore, winPart_image ho, Nat.add_sub_cancel_left]

/-! ### The withdrawal of an admission (R40) -/

theorem logRefusal_frame (s : State) (d k : Nat) (b : Bool) (code n : Nat) : ∃ r, logRefusal s d k b code n = { s with regs := r } := by
  unfold logRefusal
  dsimp only
  split
  · exact ⟨_, rfl⟩
  · exact ⟨_, rfl⟩

theorem withdrawBank_frame (s : State) (d k : Nat) : ∃ r x, withdrawBank s d k = { s with regs := r, swaps := x } := by
  unfold withdrawBank
  split
  · exact ⟨s.regs, s.swaps, rfl⟩
  · extract_lets t
    split
    case h_1 r hr =>
      generalize hj : setJob t r d _ = u
      obtain ⟨x, hx⟩ := logRefusal_frame u d k (!(kern t d k).pbank) 0xC 0
      refine ⟨x, u.swaps, ?_⟩
      rw [hx, ← hj]
      rfl
    case h_2 => exact ⟨_, s.swaps, rfl⟩

/-- A withdrawal leaves memory and every core. -/
theorem withdrawBy_keeps (h : smWf (fun _ => Kern.zero) 0 s.kern = true) (d k : Nat) (b : Bool) :
    (withdrawBy s d k b).mem = s.mem ∧ ∀ j, (kern (withdrawBy s d k b) d j).core = (kern s d j).core := by
  unfold withdrawBy
  split
  · unfold withdrawActive
    split
    · refine ⟨rfl, fun j => ?_⟩
      rw [kern_setKern_of_wf h]
      split
      · next heq => rw [show j = k by omega]
      · rfl
    · exact ⟨rfl, fun _ => rfl⟩
  · obtain ⟨r, x, hx⟩ := withdrawBank_frame s d k
    rw [hx]
    exact ⟨rfl, fun _ => rfl⟩

/-! ### Commands on a window -/

/-- The die-local address of an offset of a window. -/
theorem progA_local (k : Nat) (bankB : Bool) (off : Nat) :
    progA 0 k bankB 0 + off = 0x3000_0000 + k * 0x4_0000 + ((if bankB then 0x8000 else 0) + off) := by
  unfold progA kernWin pkgA; omega

theorem progA_pkgA (d k : Nat) (bankB : Bool) (off : Nat) : progA d k bankB 0 + off = pkgA d (progA 0 k bankB 0 + off) := by
  unfold progA kernWin pkgA; omega

theorem bankOff_lt (bankB : Bool) {off : Nat} (ho : off < 0x8000) : (if bankB then 0x8000 else 0) + off < 0x1_0000 := by
  split <;> omega

/-- A write of a program bank is a write of the kernel's window (R65). -/
theorem programBankWrite_reaches {off : Nat} {bankB : Bool} (h : reachesAt s a d (progA 0 k bankB 0 + off) true = true)
    (hk : k < 144) (ho : off < 0x8000) (width v : Nat) :
    exec (.programBankWrite a d k bankB off width v) s = .next (answer d (progA d k bankB 0 + off) a true
      (winWrite s d k ((if bankB then 0x8000 else 0) + off) width v)) := by
  have hoff := bankOff_lt bankB ho
  refine (onUnit_true (by simp [reachesAt_access h, hk, ho])).trans (congrArg _ ?_)
  rw [progA_pkgA]
  refine (busAccess_reaches h (by rw [progA_local]; omega) _).trans (congrArg _ ?_)
  rw [progA_local]
  exact targetWrite_window hk (by omega) a width v

/-- A write of a register image is a write of the kernel's window (R66). -/
theorem kernelImageWrite_reaches {off : Nat} (h : reachesAt s a d (0x3000_0000 + k * 0x4_0000 + 0x1_E000 + off) true = true)
    (hk : k < 144) (ho : off < 0x240) (width v : Nat) :
    exec (.kernelImageWrite a d k off width v) s = .next (answer d (kernWin d k + 0x1_E000 + off) a true
      (winWrite s d k (0x1_E000 + off) width v)) := by
  refine (onUnit_true (by simp [reachesAt_access h, hk, ho])).trans (congrArg _ ?_)
  rw [show kernWin d k + 0x1_E000 + off = pkgA d (0x3000_0000 + k * 0x4_0000 + 0x1_E000 + off) by unfold kernWin pkgA; omega]
  refine (busAccess_reaches h (by omega) _).trans (congrArg _ ?_)
  rw [Nat.add_assoc _ 0x1_E000 off]
  exact targetWrite_window hk (by omega) a width v

/-- The bank that a kernel runs is closed (R65). -/
theorem winOpen_activeBank {kn : Kern} {bankB : Bool} {off : Nat} (ho : off < 0x8000) (hbank : bankB = kn.pbank)
    (hst : kn.st = .run ∨ kn.st = .shadow ∨ kn.st = .standby ∨ kn.st = .parked) :
    winOpen kn ((if bankB then 0x8000 else 0) + off) = false := by
  simp only [winOpen, winPart_prog bankB ho]
  rcases hst with hst | hst | hst | hst
  all_goals simp [hbank, hst]

/-- Settles O38: each access reaches its target, whose own effect the clause names. -/
theorem memoryAccess : Obligations.MemoryAccess := by
  refine ⟨?write, ?read, ?readDouble, ?hoard, ?bank, ?activeBank, ?image, ?closedImage⟩
  case write =>
    intro s a d loc width v h hdom hend hw
    have hwf := State.wf_mem (reachesAt_wf h)
    obtain ⟨m, e, hm, hx⟩ := storeFresh_frame s d loc width v
    refine ⟨_, memoryWrite_effect h hdom hend hw v, rfl, ?_⟩
    rw [hx]
    refine ⟨?value, fun b hb => (loadByte_congr hm b).trans (loadByte_storeBytes_ne hwf _ _ _ b hb), rfl, rfl, rfl, rfl⟩
    rw [Nat.pow_mul]
    exact (loadBytes_congr hm _ _).trans (loadBytes_storeBytes hwf _ _ _)
  case read =>
    intro s a d loc width h hdom hend hw hecc
    have hle := wmReadOk_le hw
    have hclean (i : Nat) (hi : i < (loc + width + 7) / 8 - loc / 8) : eccAt s (pkgA d ((loc / 8 + i) * 8)) = .clean := by
      simpa using List.all_eq_true.mp hecc i (List.mem_range.mpr (by omega))
    exact ⟨_, memoryRead_clean h hdom hend hw (wmLines_clean hclean), rfl, rfl, rfl, rfl, rfl, rfl⟩
  case readDouble =>
    intro s a d loc width h hdom hend hw hecc
    obtain ⟨r, x, hx⟩ := memoryRead_double h hdom hend hw hecc
    exact ⟨_, hx, rfl, rfl, rfl, rfl⟩
  case hoard =>
    intro s a d p w v h hp hw hdom
    have hwf := reachesAt_wf h
    have hmem := State.wf_mem hwf
    obtain ⟨m, e, hm, hclean, hx⟩ := storeClean_frame hwf (hoardA d p w) v
    refine ⟨_, memoryWrite_hoard h hp hw hdom v, rfl, ?_⟩
    rw [hx]
    exact ⟨(loadW_congr hm _).trans (loadW_storeW hmem _ v), hclean,
      fun b hb => (loadByte_congr hm b).trans (loadByte_storeBytes_ne hmem _ _ _ b hb), rfl, rfl⟩
  case bank =>
    intro s a d k off bankB v h hk ho hal hdom hsp hcp hopen
    have hwf := reachesAt_wf h
    have hmem := State.wf_mem hwf
    have hal' : ((if bankB then 0x8000 else 0) + off) % 4 = 0 := by split <;> omega
    obtain ⟨m, e, hm, hx⟩ := winStore_prog (d := d) bankB ho hsp hcp v
    obtain ⟨hkeep, hcore⟩ := withdrawBy_keeps (s := { s with mem := m, ecc := e }) (State.wf_kern hwf :) d k bankB
    refine ⟨_, programBankWrite_reaches h hk ho 4 v.toNat, ?_⟩
    rw [winWrite_prog hdom hal' (winPart_prog bankB ho) hopen, hx]
    exact ⟨rfl, (loadW_congr (hkeep.trans hm) _).trans (loadW_storeW hmem _ v),
      fun b hb => (loadByte_congr (hkeep.trans hm) b).trans (loadByte_storeBytes_ne hmem _ _ _ b hb), hcore⟩
  case activeBank =>
    intro s a d k off width v bankB h hk ho hw hal hdom hbank hst
    have hal' : ((if bankB then 0x8000 else 0) + off) % width = 0 := by
      obtain rfl | rfl := hw
      all_goals split <;> omega
    refine ⟨_, programBankWrite_reaches h hk ho width v, ?_⟩
    rw [winWrite_closed hdom hw hal' (by simp [winPart_prog bankB ho]) (winOpen_activeBank ho hbank hst)]
    rfl
  case image =>
    intro s a d k off v h hk ho hal hdom hopen
    have hopen' : winOpen (kern s d k) (0x1_E000 + off) = true := by simpa only [winOpen, winPart_image ho] using hopen
    refine ⟨_, kernelImageWrite_reaches h hk ho 4 v.toNat, ?_⟩
    rw [winWrite_image hdom (by omega) (winPart_image ho) hopen', winStore_image ho]
    exact ⟨rfl, kern_setKern_same (reachesAt_wf h) d k _, rfl, rfl, rfl⟩
  case closedImage =>
    intro s a d k off width v h hk ho hw hal hend hdom hclosed
    have hclosed' : winOpen (kern s d k) (0x1_E000 + off) = false := by simpa only [winOpen, winPart_image ho] using hclosed
    have hal' : (0x1_E000 + off) % width = 0 := by
      obtain rfl | rfl := hw
      all_goals omega
    refine ⟨_, kernelImageWrite_reaches h hk ho width v, ?_⟩
    rw [winWrite_closed hdom hw hal' (by simp [winPart_image ho]) hclosed']
    rfl

end Sys2Proof.Machine
end

section
/-! PROOFS. What the stewards keep over the bus: an access leaves every steward as it is, in canonical registers, but for the handoff
to the firmware (R376) and a write of a steward's own control (R347). Here: the frame, and the shared operations. -/
namespace Sys2Proof.Machine

variable {s t : State}

/-- A write by the access codes sets its register, where there is one. The match of `plainWrite` is opened as a function's: at
an address the kernel would compute the row. -/
theorem plainWrite_cases (s : State) (d q o : Nat) (a : Access) (v : Word) :
    plainWrite s d q o a v = s ∨ ∃ w, plainWrite s d q o a v = setReg s (regA d q o) w := by
  generalize hf : plainWrite = f
  delta plainWrite at hf
  subst hf
  cases hrow : regRow (regA d q o) with
  | none => exact .inl (by simp only [hrow])
  | some r => exact .inr ⟨_, by simp only [hrow]; rfl⟩

/-- `t` keeps the part and the stewards of `s`, and its registers stay canonical. -/
structure StewFrame (s t : State) : Prop where
  part : t.part = s.part
  stew : t.stew = s.stew
  regs : smWf (resetReg s.part) 0 s.regs = true → smWf (resetReg s.part) 0 t.regs = true

namespace StewFrame

theorem refl (s : State) : StewFrame s s := ⟨rfl, rfl, id⟩

theorem trans {u : State} (h : StewFrame s t) (hu : StewFrame t u) : StewFrame s u where
  part := hu.part.trans h.part
  stew := hu.stew.trans h.stew
  regs hr := h.part ▸ hu.regs (h.part.symm ▸ h.regs hr)

theorem steward (h : StewFrame s t) (d i : Nat) : Machine.stew t d i = Machine.stew s d i :=
  congrArg (fun x => smGet Stew.zero x (d * 2 + i)) h.stew

theorem ite {c : Prop} [Decidable c] {u : State} (ht : StewFrame s t) (hu : StewFrame s u) :
    StewFrame s (if c then t else u) := by
  split
  · exact ht
  · exact hu

/-- The same for a state beside another value. -/
theorem ite' {β : Type} {c : Prop} [Decidable c] {x y : State × β} (hx : StewFrame s x.1) (hy : StewFrame s y.1) :
    StewFrame s (if c then x else y).1 := by
  split
  · exact hx
  · exact hy

theorem each {α : Type} {xs : List α} {f : α → State → State} (h : StewFrame s t)
    (hf : ∀ x u, StewFrame s u → StewFrame s (f x u)) : StewFrame s (each xs f t) :=
  each_keeps xs f (fun x _ u hu => hf x u hu) h

/-- A fold that carries the state beside another value. -/
theorem foldl {α β : Type} {f : State × β → α → State × β} (hf : ∀ acc x, StewFrame s acc.1 → StewFrame s (f acc x).1)
    (xs : List α) {acc : State × β} (h : StewFrame s acc.1) : StewFrame s (xs.foldl f acc).1 := by
  induction xs generalizing acc with
  | nil => exact h
  | cons x xs ih => exact ih (hf acc x h)

theorem takeOr {x : State × Bool} (h : StewFrame s x.1) : StewFrame s (Machine.takeOr x).1 := .ite' h h

/-! ### The accessors of the state -/

theorem setReg (h : StewFrame s t) {a : Nat} {w : Word} : StewFrame s (setReg t a w) where
  part := h.part
  stew := h.stew
  regs hr := by
    have ht := h.regs hr
    rw [← h.part] at ht ⊢
    exact smWf_smSet ht (Nat.zero_le _) w

theorem setFld (h : StewFrame s t) {a v : Nat} {f : Fld} : StewFrame s (setFld t a f v) := .setReg h
theorem incFld (h : StewFrame s t) {a : Nat} {f : Fld} : StewFrame s (incFld t a f) := .setReg h
theorem incReg (h : StewFrame s t) {a : Nat} : StewFrame s (incReg t a) := .setReg h
theorem satFld (h : StewFrame s t) {a : Nat} {f : Fld} : StewFrame s (satFld t a f) := .ite (.incFld h) h

theorem setFresh (h : StewFrame s t) {n : Nat} : StewFrame s { t with fresh := n } := { h with }
theorem setLinkDev (h : StewFrame s t) {x : LinkDev} : StewFrame s { t with linkDev := x } := { h with }
theorem setSwaps (h : StewFrame s t) {x : List SwapReq} : StewFrame s { t with swaps := x } := { h with }
theorem setShell (h : StewFrame s t) {x : Shell} : StewFrame s { t with shell := x } := { h with }
theorem setTab (h : StewFrame s t) {u d i : Nat} {w : Word} : StewFrame s (setTab t u d i w) := { h with }
theorem setEcc (h : StewFrame s t) {a : Nat} {e : EccMark} : StewFrame s (setEcc t a e) := { h with }
theorem setKern (h : StewFrame s t) {d k : Nat} {v : Kern} : StewFrame s (setKern t d k v) := { h with }
theorem setDom (h : StewFrame s t) {d m : Nat} {x : DomX} : StewFrame s (setDom t d m x) := { h with }
theorem setPodX (h : StewFrame s t) {d p : Nat} {x : PodX} : StewFrame s (setPodX t d p x) := { h with }
theorem setDieX (h : StewFrame s t) {d : Nat} {x : DieX} : StewFrame s (setDieX t d x) := { h with }
theorem setRows (h : StewFrame s t) {d p : Nat} {r : Rows} : StewFrame s (setRows t d p r) := { h with }
theorem setBridge (h : StewFrame s t) {d n : Nat} {b : BridgePort} : StewFrame s (setBridge t d n b) := { h with }
theorem setLinkPort (h : StewFrame s t) {d : Nat} {p : LinkPort} : StewFrame s (setLinkPort t d p) := { h with }
theorem setCaravan (h : StewFrame s t) {d p : Nat} {x : Caravan} : StewFrame s (setCaravan t d p x) := { h with }
theorem setDdr (h : StewFrame s t) {d : Nat} {x : Ddr} : StewFrame s (setDdr t d x) := { h with }
theorem setSap (h : StewFrame s t) {d m : Nat} {x : SapPort} : StewFrame s (setSap t d m x) := { h with }
theorem setMeter (h : StewFrame s t) {d m : Nat} {x : Meter} : StewFrame s (setMeter t d m x) := { h with }
theorem setGen (h : StewFrame s t) {d c : Nat} {x : Gen} : StewFrame s (setGen t d c x) := { h with }
theorem setCsp (h : StewFrame s t) {d : Nat} {x : Csp} : StewFrame s (setCsp t d x) := { h with }
theorem storeByte (h : StewFrame s t) {a : Nat} {v : Byte} : StewFrame s (storeByte t a v) := { h with }
theorem setJob (h : StewFrame s t) {r : SwapReq} {d : Nat} {j : Job} : StewFrame s (setJob t r d j) := { h with }
theorem noteSeen (h : StewFrame s t) {p : Packet} : StewFrame s (noteSeen t p) := { h with }
theorem freePads (h : StewFrame s t) {d m : Nat} : StewFrame s (freePads t d m) := { h with }

theorem storeBytes (h : StewFrame s t) {a v n : Nat} : StewFrame s (storeBytes t a v n) := by
  rw [storeBytes_eq]
  exact { h with }

theorem storeW (h : StewFrame s t) {a : Nat} {w : Word} : StewFrame s (storeW t a w) := .storeBytes h

/-- Bytes stored one after the other. -/
theorem storeFold (h : StewFrame s t) {bs : List Byte} {a : Nat} :
    StewFrame s (bs.foldl (fun (acc : State × Nat) b => (Machine.storeByte acc.1 acc.2 b, acc.2 + 1)) (t, a)).1 :=
  .foldl (fun _ _ hacc => .storeByte hacc) bs h

theorem setQueueCount (h : StewFrame s t) {d q n : Nat} : StewFrame s (setQueueCount t d q n) := .setFld (.setFld (.setFld h))

theorem plainWrite (h : StewFrame s t) {d q o : Nat} {a : Access} {v : Word} : StewFrame s (plainWrite t d q o a v) := by
  obtain heq | ⟨w, heq⟩ := plainWrite_cases t d q o a v
  · rw [heq]
    exact h
  · rw [heq]
    exact h.setReg

theorem clearValid (h : StewFrame s t) {a : Nat} {v : Word} : StewFrame s (clearValid t a v) := .ite (.setReg h) h
theorem eccClear (h : StewFrame s t) {a bit : Nat} {v : Word} : StewFrame s (eccClear t a bit v) := .ite (.setReg h) h

theorem busError (h : StewFrame s t) {d k addr : Nat} {a : Access} {w : Bool} : StewFrame s (busError t d k addr a w) :=
  .ite h (.setReg (.setReg h))

/-! ### The governor and the power domains (R42–R53, R411–R423) -/

theorem setPoint (h : StewFrame s t) {d vid : Nat} {bb : Int} : StewFrame s (setPoint t d vid bb) := .setFld (.setFld (.setFld h))

theorem govPrep (h : StewFrame s t) {d n : Nat} : StewFrame s (govPrep t d n) := .ite (.setDieX (.setFld (.setPoint h))) h

theorem capPoint (h : StewFrame s t) {d : Nat} : StewFrame s (capPoint t d) :=
  .ite (.setFld (.setFld (.setFld h))) (.ite (.setPoint h) (.ite (.setPoint h) (.ite (.setFld (.setFld h)) h)))

theorem govRefresh (h : StewFrame s t) {d : Nat} : StewFrame s (govRefresh t d) :=
  have hcap : StewFrame s _ := .setFld (.setFld (.setFld (.capPoint h)))
  .ite hcap (.setDieX (.setFld hcap))

theorem noteEntry (h : StewFrame s t) {d c m : Nat} {abort : Bool} : StewFrame s (noteEntry t d abort c m) :=
  .ite (.setFld (.satFld h)) (.setReg (.setFld (.satFld h)))

theorem moveDom (h : StewFrame s t) {d m : Nat} {x : DomX} : StewFrame s (moveDom t d m x) := by
  unfold Machine.moveDom
  split
  · exact .ite (.govPrep (.setDom h)) (.setDom h)
  · exact .setDom h

theorem refuseEntry (h : StewFrame s t) {d m c : Nat} : StewFrame s (refuseEntry t d m c) := .ite h (.noteEntry (.setDom h))

theorem recheckEntry (h : StewFrame s t) {d m : Nat} : StewFrame s (recheckEntry d m t) := by
  unfold Machine.recheckEntry
  dsimp only
  split
  · exact .refuseEntry (.moveDom h)
  · exact h

theorem retarget (h : StewFrame s t) {wake : Option Nat} {d m : Nat} : StewFrame s (retarget wake d m t) := by
  unfold Machine.retarget
  dsimp only
  split
  · exact h
  · split
    · exact .ite (.noteEntry (.moveDom h)) (.setDom (.satFld h))
    · exact .setDom (.satFld h)
    · exact .setDom (.satFld h)
    · exact .setDom h

theorem powerSync (h : StewFrame s t) {d : Nat} : StewFrame s (powerSync t d) :=
  .each h fun _ _ hu => .recheckEntry (.retarget hu)

theorem powerSyncAll (h : StewFrame s t) {wake : Option Nat} : StewFrame s (powerSyncAll t wake) :=
  .each h fun _ _ hu => .each hu fun _ _ hv => .recheckEntry (.retarget hv)

/-! ### Bit errors and working memory (R63, R177, R364, R442) -/

theorem orderRepair (h : StewFrame s t) {d p row : Nat} : StewFrame s (orderRepair t d p row) :=
  .ite h (.ite (.setFld (.setRows h)) (.ite (.setRows h) (.setFld (.setRows h))))

theorem tallyRow (h : StewFrame s t) {d p row : Nat} : StewFrame s (tallyRow t d p row) :=
  .ite (.orderRepair (.setRows h)) (.setRows h)

theorem kernelCorrected (h : StewFrame s t) {d k m w a : Nat} {b : Bool} : StewFrame s (kernelCorrected t d k m b w a) :=
  .setEcc (.setFld (.setFld (.setFld (.satFld h))))

theorem wmLine (h : StewFrame s t) {d line : Nat} : StewFrame s (wmLine t d line).1 := by
  unfold Machine.wmLine
  dsimp only
  split
  · exact h
  · exact .tallyRow (.satFld (.setEcc h))
  · exact .orderRepair (.satFld h)

theorem wmLines (h : StewFrame s t) {d loc n : Nat} : StewFrame s (wmLines t d loc n).1 := by
  unfold Machine.wmLines
  refine .foldl (fun acc i hacc => ?_) _ h
  exact .wmLine hacc

theorem wmFresh (h : StewFrame s t) {d loc n : Nat} : StewFrame s (wmFresh t d loc n) := .each h fun _ _ hu => .setEcc hu

theorem ddrTouch (h : StewFrame s t) {d : Nat} : StewFrame s (ddrTouch t d) := .setDdr h

theorem ddrWrite (h : StewFrame s t) {d loc : Nat} {bs : List Byte} : StewFrame s (ddrWrite t d loc bs) :=
  .ddrTouch (.each (.storeFold h) fun _ _ hu => .setCaravan hu)

theorem dmaReadPage (h : StewFrame s t) {d loc n : Nat} {a : Access} : StewFrame s (dmaReadPage t d loc n a).1 := by
  unfold Machine.dmaReadPage
  dsimp only
  split
  · exact .setFresh (.busError h)
  · exact .ite' (.ite' (.wmLines h) (.setFresh (.busError (.wmLines h)))) (.ddrTouch h)

theorem dmaRead (h : StewFrame s t) {d loc n : Nat} {a : Access} : StewFrame s (dmaRead t d loc n a).1 :=
  .ite' (.dmaReadPage h) (.dmaReadPage (.dmaReadPage h))

theorem dmaWritePage (h : StewFrame s t) {d loc : Nat} {bs : List Byte} {a : Access} : StewFrame s (dmaWritePage t d loc bs a) := by
  unfold Machine.dmaWritePage
  split
  · exact .busError h
  · exact .ite (.wmFresh (.storeFold h)) (.ddrWrite h)

theorem dmaWrite (h : StewFrame s t) {d loc : Nat} {bs : List Byte} {a : Access} : StewFrame s (dmaWrite t d loc bs a) :=
  .ite (.dmaWritePage h) (.dmaWritePage (.dmaWritePage h))

/-! ### The queues (R369–R371) -/

theorem storeEntry (h : StewFrame s t) {d q e : Nat} {ws : List Word} : StewFrame s (storeEntry t d q e ws) :=
  .wmFresh (.each h fun _ _ hu => .storeW hu)

theorem queueAppend (h : StewFrame s t) {d q : Nat} {ws : List Word} : StewFrame s (queueAppend t d q ws) :=
  .setQueueCount (.setFld (.storeEntry h))

theorem queueDrop (h : StewFrame s t) {d q : Nat} : StewFrame s (queueDrop t d q) := .setQueueCount (.setFld h)

theorem queuePush (h : StewFrame s t) {d q : Nat} {ws : List Word} : StewFrame s (queuePush t d q ws) :=
  .ite (.incReg h) (.ite (.queueAppend h) (.ite (.queueAppend (.queueDrop (.setFld (.incReg h)))) (.setFld (.incReg h))))

/-! ### Packets and swap requests (R222–R239, R319–R330) -/

theorem portSend (h : StewFrame s t) {d : Nat} {p : Packet} {fast : Bool} : StewFrame s (portSend t d p fast) := .setLinkPort h

theorem routeSend (h : StewFrame s t) {d : Nat} {p : Packet} {fast : Bool} : StewFrame s (routeSend t d p fast) :=
  .ite (.setLinkPort h) (.portSend h)

theorem deviceSend (h : StewFrame s t) {d : Nat} {p : Packet} {fast : Bool} : StewFrame s (deviceSend t d p fast) := by
  unfold Machine.deviceSend
  split
  · exact .each (.noteSeen h) fun _ _ hu => .ite (.portSend hu) hu
  · split
    · exact .setLinkPort h
    · split
      · exact .routeSend h
      · exact .incFld h

theorem recordSwap (h : StewFrame s t) {d g tgt r det w : Nat} : StewFrame s (recordSwap t d g tgt r det w) :=
  .satFld (.setReg (.setReg (.setFld (.setFld (.setFld (.setFld h))))))

theorem reportSwap (h : StewFrame s t) {r : SwapReq} {res det w : Nat} : StewFrame s (reportSwap t r res det w) := by
  unfold Machine.reportSwap
  dsimp only
  split
  · exact .ite (.recordSwap h) (.deviceSend (.recordSwap h))
  · exact .recordSwap h

theorem splitSwap (h : StewFrame s t) {r : SwapReq} {res det w : Nat} : StewFrame s (splitSwap t r res det w) :=
  .ite h (.reportSwap (.setSwaps h))

theorem endSwap (h : StewFrame s t) {r : SwapReq} {res det w : Nat} : StewFrame s (endSwap t r res det w) :=
  .reportSwap (.powerSyncAll (.setSwaps h))

theorem swapDirect (h : StewFrame s t) {d kind unit : Nat} : StewFrame s (swapDirect t d kind unit) := by
  unfold Machine.swapDirect
  dsimp only
  split
  · exact h
  · exact .ite (.splitSwap (.setSwaps h)) (.endSwap h)

theorem logRefusal (h : StewFrame s t) {d k code n : Nat} {b : Bool} : StewFrame s (logRefusal t d k b code n) :=
  .ite (.incReg h) (.setReg (.incReg h))

theorem withdrawBy (h : StewFrame s t) {d k : Nat} {b : Bool} : StewFrame s (withdrawBy t d k b) := by
  refine .ite (.ite (.setKern h) h) ?_
  unfold withdrawBank
  split
  · exact h
  · dsimp only
    split
    · exact .logRefusal (.setJob (.setFld h))
    · exact .setFld h

end StewFrame
end Sys2Proof.Machine
end

section
/-! PROOFS. What the stewards keep over the bus, continued: kernel windows and the register pages of the Pulse, the governor, power,
the firewall, spares, queues, lines, bridges, meters, silence and generators. -/
namespace Sys2Proof.Machine

variable {s t : State}

namespace StewFrame

/-! ### Kernel windows and Hoard words (R64–R66, R171) -/

theorem hoardWrite (h : StewFrame s t) {d p off width v : Nat} : StewFrame s (hoardWrite t d p off width v).1 :=
  .ite' h (.ite' h (.ite (.setEcc (.storeW h)) (.setEcc (.storeW (.setEcc (.storeW h))))))

theorem winStore (h : StewFrame s t) {d k off : Nat} {v : Word} : StewFrame s (winStore t d k off v) := by
  unfold Machine.winStore
  dsimp only
  split
  · exact .each h fun _ _ hu => .setEcc (.storeW hu)
  · exact .each h fun _ _ hu => .setEcc (.storeW hu)
  · exact .each h fun _ _ hu => .setKern hu
  · exact .setKern h
  · exact h

theorem winWrite (h : StewFrame s t) {d k off width v : Nat} : StewFrame s (winWrite t d k off width v).1 := by
  refine .ite' h (.ite' h (.ite' h (.ite' h ?_)))
  have hstore : StewFrame s (if width = 4 then Machine.winStore t d k off (BitVec.ofNat 32 v)
      else Machine.winStore (Machine.winStore t d k off (BitVec.ofNat 32 v)) d k (off + 4) (BitVec.ofNat 32 (v / 2 ^ 32))) :=
    .ite (.winStore h) (.winStore (.winStore h))
  dsimp only [done]
  split
  · exact .withdrawBy hstore
  · exact hstore

/-! ### PULSE, GOV, PWR and WAKE -/

theorem sgrpWrite (h : StewFrame s t) {d : Nat} {v : Word} : StewFrame s (sgrpWrite t d v).1 := .ite' h (.setTab h)

theorem fadeWrite (h : StewFrame s t) {d : Nat} {v : Word} : StewFrame s (fadeWrite t d v).1 := by
  refine .ite' h ?_
  split
  · exact .setTab h
  · exact .setTab h
  · exact h

theorem latWrite (h : StewFrame s t) {d : Nat} {v : Word} : StewFrame s (latWrite t d v) := by
  unfold Machine.latWrite
  dsimp only
  split
  · exact .setTab h
  · exact .setTab h
  · exact h

theorem writePulse (h : StewFrame s t) {d o : Nat} {a : Access} {v : Word} : StewFrame s (writePulse t d o a v).1 := by
  unfold Machine.writePulse
  split
  · exact .ite (.setFld h) h
  · exact .ite (.ite (.setFld h) (.setFld (.setFld h))) h
  · exact .ite (.ite (.setFld h) (.setReg h)) h
  · exact .ite (.ite (.setFld h) (.setReg h)) h
  · exact .clearValid h
  · exact .ite (.setReg (.setReg h)) h
  · exact .ite (.setReg (.setReg h)) h
  · exact .sgrpWrite h
  · exact .fadeWrite h
  · exact .latWrite h
  · exact .plainWrite h

theorem writeGov (h : StewFrame s t) {d o : Nat} {a : Access} {v : Word} : StewFrame s (writeGov t d o a v).1 := by
  unfold Machine.writeGov
  split
  iterate 4 exact .govRefresh (.plainWrite h)
  · exact .ite (.setFld (.setFld h)) h
  · exact .plainWrite h

theorem pwrCtlWrite (h : StewFrame s t) {d : Nat} {v : Word} : StewFrame s (pwrCtlWrite t d v) := by
  unfold Machine.pwrCtlWrite
  extract_lets a t1 t2
  have h1 : StewFrame s t1 := .ite (.setFld h) h
  have h2 : StewFrame s t2 := .ite (.setFld (.setFld h1)) h1
  exact .ite (.powerSync (.setTab h2)) h2

theorem padrelWrite (h : StewFrame s t) {d : Nat} {v : Word} : StewFrame s (padrelWrite t d v) :=
  .each h fun _ _ hu => .ite (.freePads (.setFld hu)) hu

theorem writePwr (h : StewFrame s t) {d o : Nat} {a : Access} {v : Word} : StewFrame s (writePwr t d o a v).1 := by
  unfold Machine.writePwr
  split
  · exact .pwrCtlWrite h
  · exact .ite (.setFld h) (.setFld h)
  · exact .ite (.powerSyncAll (.setFld h)) h
  · exact .ite (.powerSync (.setTab h)) h
  · exact .clearValid h
  · exact .padrelWrite h
  · exact .plainWrite h

theorem writeWake (h : StewFrame s t) {o : Nat} {a : Access} {v : Word} : StewFrame s (writeWake t o a v).1 :=
  .powerSyncAll (.ite (.setReg (.setReg h)) (.plainWrite h))

/-! ### BOOT but for the handoff -/

theorem setOasis (h : StewFrame s t) {o : Nat} {w : Word} : StewFrame s (setOasis t o w) := .storeW h

theorem storeList (h : StewFrame s t) {a : Nat} {bs : List Byte} : StewFrame s (storeList t a bs) := .storeFold h

theorem writeFast (h : StewFrame s t) {hd : List Byte} : StewFrame s (writeFast t hd) :=
  .storeList (.setOasis (.setOasis (.setOasis (.setOasis h))))

theorem confirm (h : StewFrame s t) : StewFrame s (confirm t) := by
  unfold Machine.confirm
  extract_lets hd t1 x1 x2 fu t2
  have h1 : StewFrame s t1 := .setReg (.setFld h)
  have h2 : StewFrame s t2 := { h1 with }
  exact .writeFast (.setOasis h2)

theorem recovWrite (h : StewFrame s t) {v : Word} : StewFrame s (recovWrite t v) := by
  have hlen : StewFrame s (Machine.setFld (Machine.setFld t (Reg.BOOT_RECOV 0) F.BOOT_RECOV_LEN (wGet v F.BOOT_RECOV_LEN))
      (Reg.BOOT_RECOV 0) F.BOOT_RECOV_BUSY 1) := .setFld (.setFld h)
  exact .ite h (.ite { hlen with } (.setFld h))

/-- Every write to the BOOT page but the handoff. -/
theorem writeBoot (h : StewFrame s t) {o : Nat} {a : Access} {v : Word} (ho : o ≠ 0x20) : StewFrame s (writeBoot t o a v).1 := by
  unfold Machine.writeBoot
  split
  · exact .ite (.confirm h) h
  · exact absurd rfl ho
  · exact .ite h (.setFld h)
  · exact .recovWrite h
  · exact .plainWrite h

/-! ### FW, BUS, SPARE, THERM and QUEUE -/

theorem writeFw (h : StewFrame s t) {d o : Nat} {a : Access} {v : Word} : StewFrame s (writeFw t d o a v).1 :=
  .ite' h (.ite' h (.ite' h (.ite' (.setReg h) (.ite' (.setTab h) (.plainWrite h)))))

theorem writeBus (h : StewFrame s t) {d o : Nat} {a : Access} {v : Word} : StewFrame s (writeBus t d o a v).1 := by
  unfold Machine.writeBus
  split
  · exact .ite' (.setReg h) h
  · exact .ite h (.setFld (.setReg h))
  · exact .ite (.setReg (.setReg h)) h
  · exact .setReg h
  · exact .plainWrite h

theorem spareTrigger (h : StewFrame s t) {d k c : Nat} : StewFrame s (spareTrigger t d k c) := .setPodX h

theorem spareCmdWrite (h : StewFrame s t) {d : Nat} {v : Word} : StewFrame s (spareCmdWrite t d v) :=
  .ite (.setFld h) (.ite (.spareTrigger (.setFld h)) (.setFld (.setFld h)))

theorem queuePushData (h : StewFrame s t) {d q : Nat} {a : Access} {w : Word} : StewFrame s (queuePushData t d q a w) :=
  .each (.queuePush h) fun _ _ hu => .setTab hu

theorem queueCfgWrite (h : StewFrame s t) {d q : Nat} {v : Word} : StewFrame s (queueCfgWrite t d q v) :=
  .ite (.ite h (.setQueueCount (.setReg (.setReg (.setFld h))))) (.ite (.setFld h) (.setQueueCount (.setReg h)))

theorem writeQueue (h : StewFrame s t) {d q o : Nat} {a : Access} {v : Word} : StewFrame s (writeQueue t d q o a v).1 :=
  .ite' (.ite' h (.ite' (.queuePushData h) (.setTab h))) (.ite' (.queueCfgWrite h) (.ite' h (.plainWrite h)))

/-! ### WADI, BRIDGE, METER, SILENCE and GEN -/

theorem writeWadi (h : StewFrame s t) {d o : Nat} {a : Access} {v : Word} : StewFrame s (writeWadi t d o a v).1 :=
  .ite (.setReg (.plainWrite h)) (.plainWrite h)

theorem bridgeSwapWrite (h : StewFrame s t) {d : Nat} {v : Word} : StewFrame s (bridgeSwapWrite t d v) :=
  .each h fun _ _ hu => .ite hu (.ite (.swapDirect (.setBridge hu)) (.setBridge hu))

theorem bridgeDataWrite (h : StewFrame s t) {d : Nat} {v : Word} : StewFrame s (bridgeDataWrite t d v).1 :=
  .ite' h (.ite' h (.setTab h))

theorem writeBridge (h : StewFrame s t) {d o : Nat} {a : Access} {v : Word} : StewFrame s (writeBridge t d o a v).1 := by
  unfold Machine.writeBridge
  split
  · exact .plainWrite h
  · exact .ite (.setFld (.plainWrite h)) (.plainWrite h)
  · exact .bridgeSwapWrite h
  · exact .bridgeDataWrite h
  · exact .plainWrite h

theorem writeMeter (h : StewFrame s t) {d q o : Nat} {a : Access} {v : Word} : StewFrame s (writeMeter t d q o a v).1 := by
  unfold Machine.writeMeter
  dsimp only
  split
  · exact .setMeter (.setReg h)
  · exact .ite (.setReg h) h
  · exact .plainWrite h

theorem kickPod (h : StewFrame s t) {d p : Nat} : StewFrame s (kickPod d p t) := .setPodX h

theorem detWrite (h : StewFrame s t) {d n w : Nat} {v : Word} : StewFrame s (detWrite t d n w v) := by
  unfold Machine.detWrite
  split
  · exact h
  · extract_lets t1 t2 x t3
    have h2 : StewFrame s t2 := .ite (.setTab h) (.setTab (.setTab h))
    have h3 : StewFrame s t3 := .setDieX h2
    exact .each h3 fun _ _ hu => .kickPod hu

theorem slistWrite (h : StewFrame s t) {d : Nat} {v : Word} : StewFrame s (slistWrite t d v).1 := .ite' h (.ite' h (.setTab h))

theorem parkWrite (h : StewFrame s t) {d p : Nat} {cfg : Bool} {v : Word} : StewFrame s (parkWrite t d p cfg v) :=
  .kickPod (.ite (.ite (.setReg h) (.setFld (.setReg h))) (.setReg h))

theorem laWrite (h : StewFrame s t) {d n : Nat} {v : Word} : StewFrame s (laWrite t d n v) := .setDieX (.setReg h)

theorem writeSilence (h : StewFrame s t) {d o : Nat} {a : Access} {v : Word} : StewFrame s (writeSilence t d o a v).1 :=
  .ite' (.detWrite h) (.ite' (.takeOr (.slistWrite h)) (.ite' (.parkWrite h) (.ite' (.laWrite h) (.plainWrite h))))

theorem setGenState (h : StewFrame s t) {d c st : Nat} : StewFrame s (setGenState t d c st) := .setFld (.setFld (.setFld h))

theorem genCtlWrite (h : StewFrame s t) {d c : Nat} {v : Word} : StewFrame s (genCtlWrite t d c v) :=
  have hnow : StewFrame s _ := .setFld h
  .ite (.ite (.setGen hnow) hnow) (.ite hnow (.ite (.setGenState (.setGen hnow)) (.setFld hnow)))

theorem writeGen (h : StewFrame s t) {d o : Nat} {a : Access} {v : Word} : StewFrame s (writeGen t d o a v).1 :=
  .ite' (.ite' (.setFld h) (.ite' (.genCtlWrite h) (.plainWrite h))) (.plainWrite h)

end StewFrame
end Sys2Proof.Machine
end

section
/-! PROOFS. What the stewards keep over the bus, continued: the register pages of the ports, sources, steering, the serial port, the
link, LPDDR4X, caravans, pods and kernels. -/
namespace Sys2Proof.Machine

variable {s t : State}

namespace StewFrame

/-- A write that its block takes. -/
theorem done (h : StewFrame s t) : StewFrame s (Machine.done t).1 := h

/-! ### SAP -/

theorem sapFlag (h : StewFrame s t) {d m : Nat} {f : Fld} : StewFrame s (sapFlag t d m f) := .setFld h

theorem setSapState (h : StewFrame s t) {d m st : Nat} : StewFrame s (setSapState t d m st) :=
  .powerSync (.setFld (.setFld (.setFld (.setFld h))))

theorem sapStop (h : StewFrame s t) {d m : Nat} {flag : Bool} : StewFrame s (sapStop t d m flag) := by
  unfold Machine.sapStop
  extract_lets t1 t2 t3
  have h2 : StewFrame s t2 := .ite (.setFld (.setFld (.setSap h))) (.setSap h)
  have h3 : StewFrame s t3 := .setSapState h2
  exact .ite (.sapFlag h3) h3

theorem sapArm (h : StewFrame s t) {d m : Nat} : StewFrame s (sapArm t d m) :=
  .ite (.setFld (.sapFlag h)) (.setSapState (.setSap h))

theorem sapCtlWrite (h : StewFrame s t) {d m : Nat} {v : Word} : StewFrame s (sapCtlWrite t d m v) :=
  have hmute : StewFrame s (Machine.setFld t (Reg.SAP_CTL d m) F.SAP_CTL_MUTE (wGet v F.SAP_CTL_MUTE)) := .setFld h
  .ite (.ite (.setSapState hmute) (.ite (.sapStop hmute) (.sapFlag hmute)))
    (.ite hmute (.ite (.sapStop hmute) (.ite (.sapArm hmute) (.sapFlag hmute))))

theorem sapMaskWrite (h : StewFrame s t) {d m : Nat} {tx : Bool} {v : Word} : StewFrame s (sapMaskWrite t d m tx v) :=
  .setSap (.setFld (.setReg h))

theorem sapTrigWrite (h : StewFrame s t) {d : Nat} {v : Word} : StewFrame s (sapTrigWrite t d v) :=
  .each h fun _ _ hu => .ite (.setSap hu) hu

theorem ringLost (h : StewFrame s t) {d m : Nat} {tx : Bool} : StewFrame s (ringLost t d m tx) := .sapFlag (.incReg h)

theorem ringRun (h : StewFrame s t) {d m i : Nat} {tx lost : Bool} : StewFrame s (ringRun t d m tx i lost) :=
  .ite h (.ite (.setSap h) (.sapFlag (.setSap h)))

theorem sampleLost (h : StewFrame s t) {d m i n : Nat} {tx : Bool} : StewFrame s (sampleLost t d m tx i n) :=
  .setFld (.ringRun (.ringLost h))

theorem rxJudgeSome (h : StewFrame s t) {d m : Nat} : StewFrame s (rxJudgeSome t d m) := by
  have hjudge (n : Nat) (u : State) (hu : StewFrame s u) : StewFrame s (rxJudge u d m n) := .setSap (.ite (.ringRun hu) (.sampleLost hu))
  have hframe (u : State) (hu : StewFrame s u) : StewFrame s (rxJudgeFrame u d m) := .setSap (.ite hu (.ringLost hu))
  exact .ite h (.ite (.ite (hframe _ (.setFresh h)) (.setFresh h)) (.each (.setFresh h) fun _ _ hu => hjudge _ _ hu))

theorem ringRotFit (h : StewFrame s t) {d m : Nat} {tx : Bool} : StewFrame s (ringRotFit t d m tx) := .ite h (.setFld h)

theorem ringRead (h : StewFrame s t) {d base size o n : Nat} : StewFrame s (ringRead t d base size o n).1 := by
  unfold Machine.ringRead
  refine .foldl (fun acc p hacc => ?_) _ h
  exact .dmaRead hacc

theorem ringTake {d m n : Nat} {u : State} {bs : List Byte} (h : StewFrame s t) (htake : ringTake t d m n = some (u, bs)) :
    StewFrame s u := by
  unfold Machine.ringTake at htake
  dsimp only at htake
  split at htake
  · cases htake
    exact .setSap h
  · split at htake
    · cases htake
      exact .setSap (.setFld (.ringRead h))
    · cases htake

theorem ringFillFrame (h : StewFrame s t) {d m : Nat} : StewFrame s (ringFillFrame t d m) := by
  unfold Machine.ringFillFrame
  dsimp only
  split
  · exact .ringLost (.setSap (.setFresh h))
  · split
    · next htake => exact .each (.setSap (.ringTake (.setFresh h) htake)) fun _ _ hu => .setSap hu
    · exact .setFresh h

theorem ringFillPacked (h : StewFrame s t) {d m : Nat} : StewFrame s (ringFillPacked t d m) := by
  unfold Machine.ringFillPacked
  extract_lets due gone t1
  have h1 : StewFrame s t1 := .each (.setFresh h) fun _ _ hu => .sampleLost hu
  refine .each (.setSap h1) fun e u hu => .ite hu ?_
  split
  · next htake => exact .ringRun (.setSap (.ringTake hu htake))
  · exact hu

theorem writeSap (h : StewFrame s t) {d m o : Nat} {a : Access} {v : Word} : StewFrame s (writeSap t d m o a v).1 := by
  have hfill (u : State) (hu : StewFrame s u) : StewFrame s (ringFill u d m) :=
    .ite hu (.ite (.ringFillFrame hu) (.ringFillPacked hu))
  unfold Machine.writeSap
  extract_lets s' u t'
  have hs : StewFrame s s' := .ite (.rxJudgeSome h) h
  have hu : StewFrame s u := .ringRotFit (.ringRotFit (.plainWrite hs))
  have ht : StewFrame s t' := .ite (.sapCtlWrite h) (.ite (.sapMaskWrite h) (.ite (.sapMaskWrite h) (.ite (.sapTrigWrite h)
    (.ite (.sapFlag h) (.ite (hfill _ hu) hu)))))
  exact .done (.powerSync ht)

/-! ### SRC, CLKSTEER and CSP -/

theorem srcEntryWrite (h : StewFrame s t) {d e i : Nat} {v : Word} : StewFrame s (srcEntryWrite t d e i v).1 :=
  .ite' (.each (.setTab h) fun _ _ hu => .ite (.setFld hu) hu) (.setFld h)

theorem writeSrc (h : StewFrame s t) {d e o : Nat} {a : Access} {v : Word} : StewFrame s (writeSrc t d e o a v).1 :=
  .ite' (.ite' h (.takeOr (.srcEntryWrite h))) (.plainWrite h)

theorem setSteer (h : StewFrame s t) {st : Nat} : StewFrame s (setSteer t st) := by
  have hstat : StewFrame s (Machine.setFld t (Reg.CLKSTEER_STAT 0) F.CLKSTEER_STAT_STATE st) := .setFld h
  exact .ite h (.ite { hstat with } { hstat with })

theorem steerNear (h : StewFrame s t) : StewFrame s (steerNear t).1 := .ite' h (.setFresh h)

theorem steerCtlWrite (h : StewFrame s t) {v : Word} : StewFrame s (steerCtlWrite t v) := by
  have henter (u : State) (hu : StewFrame s u) : StewFrame s (steerEnter u) :=
    .ite (.setSteer (.steerNear hu)) (.ite (.setSteer (.steerNear hu)) (.setSteer (.steerNear hu)))
  exact .ite (.setReg h) (.ite (henter _ (.setReg h)) (.setSteer (.setReg h)))

theorem writeSteer (h : StewFrame s t) {d o : Nat} {a : Access} {v : Word} : StewFrame s (writeSteer t d o a v).1 :=
  .ite' (.ite' h (.ite' (.steerCtlWrite h) (.ite' (.ite (.setFld h) (.setReg h)) (.plainWrite h)))) (.ite' (.sapFlag h) (.plainWrite h))

theorem cspStore (h : StewFrame s t) {d bits : Nat} {e : List Word} {rx : List (List Bool)} : StewFrame s (cspStore t d e bits rx) :=
  .ite h (.dmaWrite h)

theorem cspCut (h : StewFrame s t) {d moved : Nat} {rx : List (List Bool)} : StewFrame s (cspCut t d moved rx) := by
  refine .setCsp ?_
  split
  · exact .setReg (.cspStore h)
  · exact h

theorem cspAbort (h : StewFrame s t) {d : Nat} : StewFrame s (cspAbort t d) := by
  refine .setCsp ?_
  split
  · exact .cspCut (.setFresh (.setFresh h))
  · exact .setReg (.setCsp (.setFresh h))

theorem cspCtlWrite (h : StewFrame s t) {d : Nat} {v : Word} : StewFrame s (cspCtlWrite t d v) :=
  have habort : StewFrame s (if v.getLsbD 1 then Machine.cspAbort t d else t) := .ite (.cspAbort h) h
  .ite (.setFld habort) (.ite (.setFld habort) (.setCsp (.setFld habort)))

theorem cspCfgWrite (h : StewFrame s t) {d : Nat} {v : Word} : StewFrame s (cspCfgWrite t d v) :=
  .ite (.setFld h) (.ite (.setReg h) (.setCsp (.setReg h)))

theorem cspPush (h : StewFrame s t) {d : Nat} {a : Access} {v : Word} : StewFrame s (cspPush t d a v) := by
  unfold Machine.cspPush
  extract_lets e t1
  have h1 : StewFrame s t1 := .each h fun _ _ hu => .setTab hu
  split
  · exact .setFld (.setFld h1)
  · exact .setCsp h1

theorem writeCsp (h : StewFrame s t) {d o : Nat} {a : Access} {v : Word} : StewFrame s (writeCsp t d o a v).1 :=
  .ite' (.cspCtlWrite h) (.ite' (.cspCfgWrite h) (.ite' (.cspPush h) (.ite' (.setTab h) (.plainWrite h))))

/-! ### LINK -/

theorem steerSync (h : StewFrame s t) : StewFrame s (steerSync t) := .ite (.setSteer h) (.ite (.setSteer h) h)

theorem setTime (h : StewFrame s t) {st gmid hops up : Nat} : StewFrame s (setTime t st gmid hops up) :=
  .steerSync (.setFld (.setFld (.setFld (.setFld h))))

theorem elect (h : StewFrame s t) : StewFrame s (elect t) := by
  have hself : StewFrame s (if timeState t = tGm then t else Machine.setTime t tGm (linkId t) 0 0) := .ite h (.setTime h)
  refine .ite h (.ite (.ite h (.setTime h)) ?_)
  split
  · exact .ite hself (.ite (.setFld h) (.setTime (.setLinkDev h)))
  · exact .ite hself (.ite h (.setTime h))

theorem portDown (h : StewFrame s t) {d : Nat} : StewFrame s (portDown t d) := by
  refine .ite h ?_
  refine .ite (.setTime (.setLinkDev (.setLinkPort (.setFld (.setFld h))))) (.setLinkPort (.setFld (.setFld h)))

theorem trainFrom (h : StewFrame s t) {d st : Nat} : StewFrame s (trainFrom t d st) :=
  have hport : StewFrame s _ := .setLinkPort (.setFld (.setReg (.portDown h)))
  .steerSync (.ite hport (.elect hport))

theorem linkCtlWrite (h : StewFrame s t) {d : Nat} {v : Word} : StewFrame s (linkCtlWrite t d v) := by
  unfold Machine.linkCtlWrite
  extract_lets a was en t1 t2 x t3
  have h2 : StewFrame s t2 := .ite (.trainFrom (.setFld h)) (.ite (.trainFrom (.setFld h)) (.setFld h))
  have h3 : StewFrame s t3 := .ite h2 (.ite (.setFld h2) (.setLinkPort h2))
  exact .powerSync h3

theorem startWrite (h : StewFrame s t) {d : Nat} {v : Word} : StewFrame s (startWrite t d v) :=
  .ite (.setFld h) (.each (.deviceSend (.setFresh (.setFld h))) fun _ _ hu => .each hu fun _ _ hv => .ite (.setSap hv) hv)

theorem engineDone (h : StewFrame s t) {d st : Nat} {ws : List Word} : StewFrame s (engineDone t d st ws) :=
  .each (.setFld (.setFld (.setFld (.setLinkPort h)))) fun _ _ hu => .setReg hu

theorem remoteCmdWrite (h : StewFrame s t) {d : Nat} {v : Word} : StewFrame s (remoteCmdWrite t d v) := by
  refine .ite (.setReg h) (.ite (.setFld h) ?_)
  extract_lets t1 p x t2 t3 u
  have hu : StewFrame s u := .deviceSend (.setFld (.setLinkPort (.setReg h)))
  exact .ite (.ite (.engineDone hu) hu) (.ite (.engineDone hu) hu)

theorem writeLink (h : StewFrame s t) {d o : Nat} {a : Access} {v : Word} : StewFrame s (writeLink t d o a v).1 := by
  refine .ite' h ?_
  split
  · exact .ite (.setFld h) (.setFld h)
  · exact .elect (.plainWrite h)
  · exact .takeOr (.ite' h (.setTab h))
  · exact .ite (.setLinkDev h) h
  · exact .done (.linkCtlWrite h)
  · exact .takeOr (.ite' h (.setTab h))
  · exact .ite (.setLinkPort h) h
  · exact .startWrite h
  · exact .remoteCmdWrite h
  · exact .plainWrite h

/-! ### DDR, CARAVAN, POD and KERNEL -/

theorem startTraining (h : StewFrame s t) {d : Nat} : StewFrame s (startTraining t d) := .setDdr (.setFld (.setFld h))

theorem ddrCtlWrite (h : StewFrame s t) {d : Nat} {v : Word} : StewFrame s (ddrCtlWrite t d v) := by
  unfold Machine.ddrCtlWrite
  extract_lets a was en big t1
  refine .ite (.setFld h) ?_
  have h1 : StewFrame s t1 := .setFld h
  exact .ite (.setDdr (.setFld (.setFld h1))) (.ite (.startTraining h1) (.ite (.ite (.setDdr h1) (.startTraining h1)) h1))

theorem ddrCfgWrite (h : StewFrame s t) {d : Nat} {v : Word} : StewFrame s (ddrCfgWrite t d v) := by
  refine .ite (.setFld h) ?_
  split
  · exact .setReg h
  · exact h

theorem writeDdr (h : StewFrame s t) {d o : Nat} {a : Access} {v : Word} : StewFrame s (writeDdr t d o a v).1 := by
  unfold Machine.writeDdr
  split
  · exact .ddrCtlWrite h
  · exact .ddrCfgWrite h
  · exact .plainWrite h

theorem carDataWrite (h : StewFrame s t) {d p : Nat} {v : Word} : StewFrame s (carDataWrite t d p v).1 := .ite' h (.ite' h (.setTab h))

theorem writeCaravan (h : StewFrame s t) {d p o : Nat} {a : Access} {v : Word} : StewFrame s (writeCaravan t d p o a v).1 := by
  unfold Machine.writeCaravan
  split
  · exact .done (.powerSync (.plainWrite h))
  · exact .ite (.setFld h) (.setReg h)
  · exact .ite (.swapDirect (.setFld (.setCaravan h))) h
  · exact .carDataWrite h
  · exact .clearValid h
  · exact .plainWrite h

theorem ltabWrite (h : StewFrame s t) {d p : Nat} {v : Word} : StewFrame s (ltabWrite t d p v).1 := by
  unfold Machine.ltabWrite
  split
  · exact h
  · exact .ite' h (.setTab h)

theorem withdrawMoved (h : StewFrame s t) {d k : Nat} {xs : List Bool} : StewFrame s (Machine.each xs (fun b u => Machine.withdrawBy u d k b) t) :=
  .each h fun _ _ hu => .withdrawBy hu

theorem writePod (h : StewFrame s t) {d p o : Nat} {a : Access} {v : Word} : StewFrame s (writePod t d p o a v).1 :=
  .ite' (.ltabWrite h) (.ite' (.eccClear h) (.ite' (.eccClear h) (.ite' (.ite' h (.withdrawMoved (.setReg h))) (.plainWrite h))))

theorem kernelCtlWrite (h : StewFrame s t) {d k : Nat} {v : Word} : StewFrame s (kernelCtlWrite t d k v) := by
  have hrej : StewFrame s (Machine.setFld t (Reg.KERNEL_STAT d k) F.KERNEL_STAT_CTLREJ 1) := .setFld h
  have hput (x : Kern) : StewFrame s (Machine.powerSync (Machine.setKern t d k x) d) := .powerSync (.setKern h)
  unfold Machine.kernelCtlWrite
  dsimp only
  split
  · exact h
  · exact hrej
  · refine .ite (hput _) ?_
    split
    · exact hput _
    · exact hput _
    · exact hput _
    · exact hrej
  · split
    · exact hput _
    · exact hput _
    · exact hrej

theorem writeKernel (h : StewFrame s t) {d k o : Nat} {a : Access} {v : Word} : StewFrame s (writeKernel t d k o a v).1 := by
  refine .ite' h ?_
  split
  · exact .kernelCtlWrite h
  · exact .ite' h (.withdrawMoved (.setReg h))
  · exact .eccClear h
  · exact .plainWrite h

end StewFrame
end Sys2Proof.Machine
end

section
/-! PROOFS. What the stewards keep over the bus, concluded: reads, the dispatch of a write to its page, the handoff and the stewards'
own control, and a steward's read or write of a word. -/
namespace Sys2Proof.Machine

variable {s t : State} {c : CoreRef}

namespace StewFrame

/-! ### Reads -/

/-- A case split whose cases use the condition. -/
theorem iteOf {β : Type} {c : Prop} [Decidable c] {x y : State × β} (hx : c → StewFrame s x.1) (hy : ¬ c → StewFrame s y.1) :
    StewFrame s (if c then x else y).1 := by
  split
  · next hc => exact hx hc
  · next hc => exact hy hc

/-- The state of a pair. -/
theorem ofPair {β : Type} {x : State × β} {b : β} (heq : x = (t, b)) (h : StewFrame s x.1) : StewFrame s t := by
  rw [heq] at h
  exact h

theorem hoardBusWord (h : StewFrame s t) {d p w : Nat} : StewFrame s (hoardBusWord t d p w).1 := by
  unfold Machine.hoardBusWord
  split
  · exact h
  · exact .tallyRow (.setEcc (.setFld (.setFld (.satFld h))))
  · exact .orderRepair (.setFld (.setFld (.satFld h)))

theorem hoardRead (h : StewFrame s t) {d p off width : Nat} : StewFrame s (hoardRead t d p off width).1 := by
  refine .ite' h (.ite' h ?_)
  have hlo : StewFrame s (Machine.hoardBusWord t d p (off / 4)).1 := .hoardBusWord h
  split
  · next heq => exact .ofPair heq hlo
  · next u lo heq =>
    have hu : StewFrame s u := .ofPair heq hlo
    have hhi : StewFrame s (Machine.hoardBusWord u d p (off / 4 + 1)).1 := .hoardBusWord hu
    refine .ite' hu ?_
    split
    · next heq' => exact .ofPair heq' hhi
    · next heq' => exact .ofPair heq' hhi

theorem winWord (h : StewFrame s t) {d k off : Nat} : StewFrame s (winWord t d k off).1 := by
  unfold Machine.winWord
  dsimp only
  split
  · split
    · exact h
    · exact .kernelCorrected h
    · exact h
  · split
    · exact h
    · exact .kernelCorrected h
    · exact h
  · exact h
  · exact h
  · exact h

theorem winRead (h : StewFrame s t) {d k off width : Nat} : StewFrame s (winRead t d k off width).1 := by
  refine .ite' h (.ite' h (.ite' h ?_))
  have hlo : StewFrame s (Machine.winWord t d k off).1 := .winWord h
  split
  · next heq => exact .ofPair heq hlo
  · next u lo heq =>
    have hu : StewFrame s u := .ofPair heq hlo
    have hhi : StewFrame s (Machine.winWord u d k (off + 4)).1 := .winWord hu
    refine .ite' hu ?_
    split
    · next heq' => exact .ofPair heq' hhi
    · next heq' => exact .ofPair heq' hhi

theorem readPulse (h : StewFrame s t) {d o : Nat} {a : Access} : StewFrame s (readPulse t d o a).1 := by
  unfold Machine.readPulse
  split
  case h_5 => exact .setTab (.setTab h)
  all_goals exact h

theorem timeLeft (h : StewFrame s t) {a : Nat} : StewFrame s (timeLeft t a).1 := .setReg (.setFresh h)

theorem readWake (h : StewFrame s t) {o : Nat} : StewFrame s (readWake t o).1 := by
  unfold Machine.readWake
  split
  · exact .ite' (.timeLeft h) h
  · exact h
  · exact h

theorem readBoot (h : StewFrame s t) {o : Nat} : StewFrame s (readBoot t o).1 := by
  unfold Machine.readBoot
  split
  case h_2 => exact .ite' (.timeLeft h) h
  all_goals exact h

theorem queuePop (h : StewFrame s t) {d q : Nat} {a : Access} : StewFrame s (queuePop t d q a).1 := by
  have hlines : StewFrame s (queueLines t d q).1 := .wmLines h
  have htake : StewFrame s (queueTake t d q).1 := .queueDrop (.ite hlines (.setFresh hlines))
  exact .ite' (.each htake fun _ _ hu => .setTab hu) (.each (.setFld h) fun _ _ hu => .setTab hu)

theorem readQueue (h : StewFrame s t) {d q o : Nat} {a : Access} : StewFrame s (readQueue t d q o a).1 :=
  .ite' (.ite' h (.ite' (.queuePop h) h)) h

/-- A register that is read. -/
theorem regRead (h : StewFrame s t) {d q o : Nat} {a : Access} : StewFrame s (regRead t d q o a).1 := by
  refine .ite' (.readPulse h) (.ite' h (.ite' h (.ite' (.ite' h (.ite' (.readWake h) (.ite' (.readBoot h) h))) (.ite' h (.ite' h
    (.ite' (.readQueue h) ?_))))))
  iterate 12 refine .ite' h ?_
  exact h

/-- An access that is read from its target. -/
theorem targetRead (h : StewFrame s t) {d loc width : Nat} {a : Access} : StewFrame s (targetRead t d loc width a).1 := by
  refine .ite' h ?_
  split
  · exact h
  · exact .ite' (.ite' (.wmLines h) (.wmLines h)) h
  · exact .hoardRead h
  · exact .winRead h
  · exact .ite' h (.ite' (.regRead h) (.regRead h))
  · exact .ite' h h
  · exact .ite' h h
  · exact .ite' h h
  · exact .ite' (.ddrTouch h) h

/-! ### Writes -/

/-- Every write of a steward's page but of its control. -/
theorem writeSteward (h : StewFrame s t) {d i o : Nat} {a : Access} {v : Word} (ho : o ≠ 0) :
    StewFrame s (writeSteward t d i o a v).1 := by
  unfold Machine.writeSteward
  split
  · exact absurd rfl ho
  · exact .setReg h
  · exact .plainWrite h

/-- A register that is written, but for the handoff and the control of a steward. -/
theorem regWrite (h : StewFrame s t) {d q o : Nat} {a : Access} {v : Word} (hboot : ¬ (q = 5 ∧ o = 0x20))
    (hctl : ¬ (0x200 ≤ q ∧ q ≤ 0x201 ∧ o = 0)) : StewFrame s (regWrite t d q o a v).1 := by
  refine .ite' (.writePulse h) (.ite' (.writeGov h) (.ite' (.writePwr h) (.iteOf (fun _ => .ite' h (.ite' (.writeWake h) (.iteOf ?boot
    fun _ => h))) fun _ => .ite' (.writeFw h) (.ite' (.writeBus h) (.ite' (.done (.spareCmdWrite h)) (.ite' (.ite (.setFld h) h)
    (.ite' (.writeQueue h) (.ite' (.writeWadi h) (.ite' (.writeBridge h) (.ite' (.writeMeter h) (.ite' (.writeSilence h)
    (.ite' (.writeGen h) (.ite' (.writeSap h) (.ite' (.writeSrc h) (.ite' (.writeSteer h) (.ite' (.writeCsp h) (.ite' (.writeLink h)
    (.ite' (.writeDdr h) (.ite' (.writeCaravan h) (.ite' (.writePod h) (.ite' (.writeKernel h) (.iteOf ?ctl fun _ => .plainWrite h))))))))))))))))))))))
  case boot => exact fun hq => .writeBoot h fun ho => hboot ⟨hq, ho⟩
  case ctl =>
    intro hq
    obtain ⟨hlo, hhi⟩ : 0x200 ≤ q ∧ q ≤ 0x201 := by simpa using hq
    exact .writeSteward h fun ho => hctl ⟨hlo, hhi, ho⟩

/-- An answer. -/
theorem answer {x : Ans} (h : StewFrame s x.1) {d addr : Nat} {a : Access} {w : Bool} : StewFrame s (answer d addr a w x) := by
  unfold Machine.answer
  split
  · exact { h.busError (d := d) (k := _) (addr := addr) (a := a) (w := w) with }
  · exact { h with }

/-- A read over the bus. -/
theorem busRead (h : StewFrame s t) {a : Access} {addr width : Nat} : StewFrame s (busRead a addr width t) :=
  .ite { h with } (.ite h (.ite (.answer h) (.ite (.answer h) (.answer (.targetRead h)))))

end StewFrame

/-! ### The two writes that reach a steward -/

theorem bitF_setReg_of_wf (hr : smWf (resetReg s.part) 0 s.regs = true) (r : Nat) (w : Word) (b i : Nat) :
    bitF (setReg s r w) b ⟨i, i⟩ = if b = r then w.getLsbD i else bitF s b ⟨i, i⟩ := by
  rw [bitF_bit, bitF_bit, reg_setReg_of_wf hr]
  split
  · rfl
  · rfl

/-- Boot privilege is off, in canonical registers. -/
structure PrivOff (s : State) : Prop where
  regs : smWf (resetReg s.part) 0 s.regs = true
  off : bitF s (Reg.BOOT_STAT 0) F.BOOT_STAT_PRIV = false

namespace PrivOff

theorem setReg_ne (h : PrivOff s) {r : Nat} (hr : Reg.BOOT_STAT 0 ≠ r) (w : Word) : PrivOff (setReg s r w) where
  regs := smWf_smSet h.regs (Nat.zero_le _) w
  off := (bitF_setReg_of_wf h.regs r w _ 31).trans ((if_neg hr).trans h.off)

/-- Another field of BOOT_STAT. -/
theorem setFld_below (h : PrivOff s) {f : Fld} (hl : f.lo ≤ f.hi) (hh : f.hi < 31) (v : Nat) : PrivOff (setFld s (Reg.BOOT_STAT 0) f v) where
  regs := smWf_smSet h.regs (Nat.zero_le _) _
  off := by
    refine (bitF_setReg_of_wf h.regs _ _ _ 31).trans ((if_pos rfl).trans ?_)
    refine (getLsbD_wPut _ hl (by omega) v 31).trans ((if_neg (by omega)).trans ?_)
    exact (bitF_bit s _ 31).symm.trans h.off

/-- What leaves the registers leaves the privilege. -/
theorem congr (h : PrivOff s) (hp : t.part = s.part) (hr : t.regs = s.regs) : PrivOff t where
  regs := by rw [hp, hr]; exact h.regs
  off := by
    unfold bitF fld reg
    rw [hp, hr]
    exact h.off

end PrivOff

/-- PRIV cleared. -/
theorem privOff_clear (hr : smWf (resetReg s.part) 0 s.regs = true) : PrivOff (setFld s (Reg.BOOT_STAT 0) F.BOOT_STAT_PRIV 0) where
  regs := smWf_smSet hr (Nat.zero_le _) _
  off := by
    refine (bitF_setReg_of_wf hr _ _ _ 31).trans ((if_pos rfl).trans ?_)
    refine (getLsbD_wPut _ (by decide) (by decide) 0 31).trans ((if_pos (by decide)).trans ?_)
    exact Nat.zero_testBit _

end Sys2Proof.Machine
end

section
/-! PROOFS. A running steward's accesses: its core stays as it is under every read, and under every write that does not restart it by
the handoff (R345, R347, R376). -/
namespace Sys2Proof.Machine

variable {s t : State} {c : CoreRef}

/-! ### The handoff (R376) -/

namespace PrivOff

theorem ite {c : Prop} [Decidable c] {u : State} (ht : PrivOff t) (hu : PrivOff u) : PrivOff (if c then t else u) := by
  split
  · exact ht
  · exact hu

theorem storeBytes (h : PrivOff s) {a v n : Nat} : PrivOff (storeBytes s a v n) := by
  rw [storeBytes_eq]
  exact h.congr rfl rfl

theorem storeList (h : PrivOff s) {a : Nat} {bs : List Byte} : PrivOff (storeList s a bs) := by
  unfold Machine.storeList
  induction bs generalizing s a with
  | nil => exact h
  | cons b bs ih => exact ih (h.congr (t := Machine.storeByte s a b) rfl rfl)

theorem startTrial (h : PrivOff s) {hd : List Byte} : PrivOff (startTrial s hd) :=
  .storeList (.storeBytes ((h.setFld_below (f := F.BOOT_STAT_TRIAL) (by decide) (by decide) 1).setReg_ne (by decide) _))

end PrivOff

theorem StewFrame.regsWf (h : StewFrame s t) (hr : smWf (resetReg s.part) 0 s.regs = true) :
    smWf (resetReg t.part) 0 t.regs = true := by
  rw [h.part]
  exact h.regs hr

theorem StewFrame.startTrial (h : StewFrame s t) {hd : List Byte} : StewFrame s (startTrial t hd) :=
  .storeList (.setOasis (.setReg (.setFld h)))

/-- The handoff leaves boot privilege off and sets steward 0 of die 0 alone. -/
theorem handoff_effect (hr : smWf (resetReg s.part) 0 s.regs = true) (entry : Nat) :
    PrivOff (handoff s entry) ∧ ∃ u v, StewFrame s u ∧ handoff s entry = setStew u 0 0 v := by
  unfold handoff
  extract_lets hd s' t1 a t2 t3 t4 t5 b t6
  have hs : StewFrame s s' := ⟨rfl, rfl, id⟩
  have h1 : StewFrame s t1 := .each hs fun _ _ hu => .setReg hu
  have h4 : StewFrame s t4 := .setReg (.setFld (.setFld h1))
  have h5 : StewFrame s t5 := .ite (.startTrial h4) h4
  have p2 : PrivOff t2 := privOff_clear (h1.regsWf hr)
  have p4 : PrivOff t4 := (p2.setFld_below (by decide) (by decide) _).setReg_ne (by decide) _
  have p5 : PrivOff t5 := .ite p4.startTrial p4
  exact ⟨p5.congr rfl rfl, t6, _, { h5 with }, rfl⟩

/-! ### A running steward -/

theorem stew_setStew_of_wf (hw : smWf Stew.zero 0 s.stew = true) (d i : Nat) (v : Stew) (e j : Nat) :
    stew (setStew s d i v) e j = if e * 2 + j = d * 2 + i then v else stew s e j := smGet_smSet hw _ _ _

theorem stew_congr {d i e j : Nat} (h : e * 2 + j = d * 2 + i) : stew s e j = stew s d i := by
  unfold stew
  rw [h]

/-- The control of a steward restarts none that runs (R347). -/
theorem stewardCtlWrite_core (hw : smWf Stew.zero 0 s.stew = true) (d i : Nat) (v : Word) {e j : Nat} (hrun : (stew s e j).st = .run) :
    (stew (stewardCtlWrite s d i v) e j).core = (stew s e j).core := by
  unfold stewardCtlWrite
  extract_lets run t1 st
  have hw1 : smWf Stew.zero 0 t1.stew = true := hw
  split
  · unfold settleHold
    dsimp only
    split
    · rw [stew_setStew_of_wf hw1]
      split
      · next heq => exact (congrArg Stew.core (stew_congr (s := s) heq) :).symm
      · rfl
    · rfl
  · have hrestart (x : Stew) (hst : st.st ≠ .run) : (stew (setStew t1 d i x) e j).core = (stew s e j).core := by
      rw [stew_setStew_of_wf hw1, if_neg fun heq => hst ((congrArg Stew.st (stew_congr (s := s) heq)).symm.trans hrun)]
      rfl
    split
    · next hst => exact hrestart _ (by simp [hst])
    · next hst => exact hrestart _ (by simp [hst])
    · next hst => exact hrestart _ (by simp [hst])
    · rfl

/-- What a write of steward `c` leaves: its core as it was, unless boot privilege ended under steward 0 of die 0. -/
def CoreKept (c : CoreRef) (s t : State) : Prop :=
  restarted s t c = false → (stew t c.die c.idx).core = (stew s c.die c.idx).core

theorem StewFrame.coreKept (h : StewFrame s t) : CoreKept c s t := fun _ => congrArg Stew.core (h.steward _ _)

/-- The handoff restarts steward 0 of die 0 and leaves every other (R376). -/
theorem handoffWrite_coreKept (hc : c.stew = true) (hw : smWf Stew.zero 0 s.stew = true) (hr : smWf (resetReg s.part) 0 s.regs = true)
    (a : Access) (v : Word) : CoreKept c s (handoffWrite s a v) := by
  unfold handoffWrite
  split
  · next hpriv =>
    obtain ⟨hoff, u, x, hu, heq⟩ := handoff_effect hr (v.toNat % 2 ^ 29)
    intro hres
    by_cases hkey : c.die * 2 + c.idx = 0
    · have hon : bitF s (Reg.BOOT_STAT 0) F.BOOT_STAT_PRIV = true := by
        simp only [bootPriv, Bool.and_eq_true] at hpriv
        exact hpriv.1.2
      have hre : restarted s (handoff s (v.toNat % 2 ^ 29)) c = true := by
        unfold restarted
        rw [hc, hon, hoff.off, show c.die = 0 by omega, show c.idx = 0 by omega]
        rfl
      exact absurd (hre.symm.trans hres) (by decide)
    · rw [heq, stew_setStew_of_wf (hu.stew ▸ hw), if_neg (by simpa using hkey), hu.steward]
  · exact fun _ => rfl

/-- What a target of a steward's write answers: the stewards stay as they are, or the write is taken and leaves the core. -/
def WriteKept (c : CoreRef) (s : State) (x : Ans) : Prop := StewFrame s x.1 ∨ ∃ u, x = done u ∧ CoreKept c s u

/-- A register that a steward writes. -/
theorem regWrite_kept (hc : c.stew = true) (hw : smWf Stew.zero 0 s.stew = true) (hr : smWf (resetReg s.part) 0 s.regs = true)
    (hrun : (stew s c.die c.idx).st = .run) (d q o : Nat) (a : Access) (v : Word) : WriteKept c s (regWrite s d q o a v) := by
  by_cases hboot : q = 5 ∧ o = 0x20
  · obtain ⟨rfl, rfl⟩ := hboot
    have heq : regWrite s d 5 0x20 a v = if d ≠ 0 then done s else if bootPriv s a then done (handoffWrite s a v) else refuse s := rfl
    rw [heq]
    split
    · exact .inl (.refl s)
    · split
      · exact .inr ⟨_, rfl, handoffWrite_coreKept hc hw hr a v⟩
      · exact .inl (.refl s)
  · by_cases hctl : 0x200 ≤ q ∧ q ≤ 0x201 ∧ o = 0
    · obtain ⟨hlo, hhi, rfl⟩ := hctl
      have heq : regWrite s d q 0 a v = done (stewardCtlWrite s d (q - 0x200) v) := by
        obtain rfl | rfl : q = 0x200 ∨ q = 0x201 := by omega
        all_goals rfl
      exact .inr ⟨_, heq, fun _ => stewardCtlWrite_core hw _ _ v hrun⟩
    · exact .inl (.regWrite (.refl s) hboot hctl)

/-- A target that a steward writes. -/
theorem targetWrite_kept (hc : c.stew = true) (hw : smWf Stew.zero 0 s.stew = true) (hr : smWf (resetReg s.part) 0 s.regs = true)
    (hrun : (stew s c.die c.idx).st = .run) (d loc width : Nat) (a : Access) (v : Nat) : WriteKept c s (targetWrite s d loc width a v) := by
  have h := StewFrame.refl s
  unfold targetWrite
  split
  · exact .inl h
  · split
    · exact .inl h
    · exact .inl (.ite' (.wmFresh (.storeBytes h)) h)
    · exact .inl (.hoardWrite h)
    · exact .inl (.winWrite h)
    · split
      · exact .inl h
      · exact regWrite_kept hc hw hr hrun _ _ _ _ _
    · exact .inl h
    · exact .inl (.ite' h (.ite' h (.ite' (.setShell h) h)))
    · exact .inl (.ite' h (.ite' (.storeBytes h) h))
    · exact .inl (.ite' (.ddrWrite h) h)

/-- A running steward's write over the bus. -/
theorem busWrite_coreKept (hc : c.stew = true) (hw : smWf Stew.zero 0 s.stew = true) (hr : smWf (resetReg s.part) 0 s.regs = true)
    (hrun : (stew s c.die c.idx).st = .run) (a : Access) (addr width v : Nat) : CoreKept c s (busWrite a addr width v s) := by
  have h := StewFrame.refl s
  unfold busWrite busAccess
  dsimp only
  split
  · exact fun _ => rfl
  · split
    · exact fun _ => rfl
    · split
      · exact (StewFrame.answer (x := errK s 0) h).coreKept
      · split
        · exact (StewFrame.answer (x := errK s 2) h).coreKept
        · obtain hframe | ⟨u, heq, hkept⟩ := targetWrite_kept hc hw hr hrun (addrDie addr) (addrLocal addr) width a v
          · exact hframe.answer.coreKept
          · rw [heq]
            exact hkept

/-- A running steward's store of a word leaves its core, unless it restarts it (R345, R376). -/
theorem stewWrite_core (hc : c.stew = true) (hw : smWf Stew.zero 0 s.stew = true) (hr : smWf (resetReg s.part) 0 s.regs = true)
    (hrun : (stew s c.die c.idx).st = .run) {w : Nat} {v : Word} (h : stewWrite s c w v = .ok () t)
    (hres : restarted s t c = false) : coreOf t c = coreOf s c := by
  unfold stewWrite at h
  dsimp only at h
  split at h
  · cases h
    simp only [coreOf, hc, if_true]
    exact busWrite_coreKept hc hw hr hrun _ _ _ _ hres
  · cases h

/-- A steward's read of a word leaves the stewards (R345). -/
theorem stewRead_frame {w : Nat} {v : Word} (h : stewRead s c w = .ok v t) : StewFrame s t := by
  unfold stewRead at h
  dsimp only at h
  split at h
  · cases h
    exact .busRead (.refl s)
  · cases h

end Sys2Proof.Machine
end

section
/-! PROOFS. Loads and stores (R70, R72, R88, R126, R128, R138): what a memory operand leaves of its core and of memory, the registers
after a store of an accumulator, and the slots of LD, ST, MODP, STA and FTAP. -/
namespace Sys2Proof.Machine

variable {s t : State} {c : CoreRef} {m : Mode}

/-! ### Flags and registers after a store -/

theorem flags_mkFlg (z n c v vs sat dz : Bool) :
    flagZ (mkFlg z n c v vs sat dz) = z ∧ flagN (mkFlg z n c v vs sat dz) = n ∧ flagV (mkFlg z n c v vs sat dz) = v := by
  revert z n c v vs sat dz
  decide

theorem regsOf_wf (h : s.wf = true) (c : CoreRef) : (regsOf s c).wf = true := by
  have hc := coreOf_wf h c
  simp only [Core.wf, Bool.and_eq_true] at hc
  exact hc.1.1.1

/-- The register files that loads and stores set are canonical. -/
theorem regsOf_files_wf (h : s.wf = true) (c : CoreRef) :
    smWf (fun _ => (0 : Acc)) 0 (regsOf s c).a = true ∧ smWf (fun _ => (0 : Word)) 0 (regsOf s c).e = true ∧
      smWf (fun _ => (0 : Word)) 0 (regsOf s c).p = true := by
  have hc := regsOf_wf h c
  simp only [Regs.wf, List.all_cons, Bool.and_eq_true] at hc
  obtain ⟨ha, -, he, hp, -⟩ := hc
  exact ⟨ha, he, hp⟩

/-- The capture of a residue leaves all but the E registers. -/
theorem captureRes_frame (r : Regs) (n : Nat) (st : StoreRes) : ∃ e, captureRes r n st = { r with e := e } := by
  unfold captureRes
  split
  · exact ⟨_, rfl⟩
  · exact ⟨r.e, rfl⟩

/-- Z and N after a store of A`n` are those of the stored word, V says that the accumulator did not fit (R70, R126). -/
theorem staRegs_flags (n : Nat) (st : StoreRes) (r : Regs) :
    flagZ (staRegs n st r).flg = decide (st.val = 0) ∧ flagN (staRegs n st r).flg = st.val.msb ∧ flagV (staRegs n st r).flg = st.v := by
  have hflg : (staRegs n st r).flg = addSAT (setV (znOf r.flg st.val) st.v) st.sat := by
    obtain ⟨e, he⟩ := captureRes_frame { r with flg := addSAT (setV (znOf r.flg st.val) st.v) st.sat } n st
    exact congrArg Regs.flg he
  have hzero : decide (st.val.toNat = 0) = decide (st.val = 0) := by simp [← BitVec.toNat_inj]
  rw [hflg]
  simp only [addSAT, setV, znOf, setZN, flags_mkFlg, hzero, and_self]

theorem store32_v (sat : Bool) (a : Acc) : (store32 sat a).v = !fits32 a := by
  unfold store32
  dsimp only
  split
  · next h => simp [h]
  · next h =>
    split
    · simp [h]
    · simp [h]

/-- The residue is kept where RESCAP is 1 (R70). -/
theorem captureRes_e {r : Regs} (he : smWf (fun _ => (0 : Word)) 0 r.e = true) (n : Nat) (st : StoreRes) :
    rf (captureRes r n st).e n = if rescap r then st.res else rf r.e n := by
  unfold captureRes
  split
  · exact smGet_smSet_same he _ _
  · rfl

/-- A store of an accumulator leaves all registers but FLG and the E registers. -/
theorem staRegs_frame (n : Nat) (st : StoreRes) (r : Regs) : ∃ f e, staRegs n st r = { r with flg := f, e := e } := by
  obtain ⟨e, he⟩ := captureRes_frame { r with flg := addSAT (setV (znOf r.flg st.val) st.v) st.sat } n st
  exact ⟨_, e, he⟩

theorem staRegs_e {r : Regs} (he : smWf (fun _ => (0 : Word)) 0 r.e = true) (n : Nat) (st : StoreRes) :
    rf (staRegs n st r).e n = if rescap r then st.res else rf r.e n :=
  captureRes_e (r := { r with flg := addSAT (setV (znOf r.flg st.val) st.v) st.sat }) he n st

theorem staRegs_postMod (n : Nat) (st : StoreRes) (r : Regs) (mo : MemOp) : (postMod c (staRegs n st r) mo).p = (postMod c r mo).p := by
  obtain ⟨f, e, h⟩ := staRegs_frame n st r
  rw [h]
  rfl

/-- What a slot of STA leaves of its registers (R70, R72, R126). -/
theorem staRegs_effect {r q : Regs} (he : smWf (fun _ => (0 : Word)) 0 r.e = true) (n : Nat) (mo : MemOp)
    (h : SameData (postMod c (staRegs n (store32 (satMode r) (accOf r n)) r) mo) q) :
    q.p = (postMod c r mo).p ∧ flagZ q.flg = decide ((store32 (satMode r) (accOf r n)).val = 0) ∧
      flagN q.flg = (store32 (satMode r) (accOf r n)).val.msb ∧ flagV q.flg = !fits32 (accOf r n) ∧
      rf q.e n = if rescap r then (store32 (satMode r) (accOf r n)).res else rf r.e n := by
  obtain ⟨-, -, hqe, hqp, -, -, -, -, hqf, -⟩ := h
  obtain ⟨hz, hn, hv⟩ := staRegs_flags n (store32 (satMode r) (accOf r n)) r
  rw [hqp, hqf, hqe]
  exact ⟨staRegs_postMod n _ r mo, hz, hn, hv.trans (store32_v _ _), staRegs_e he n _⟩

/-! ### Slots that store -/

theorem settle_mem (c : CoreRef) (s : State) : (settle c s).mem = s.mem := by
  unfold settle settleHold
  dsimp only
  split
  · split
    · rfl
    · rfl
  · rfl

theorem setCore_mem (s : State) (c : CoreRef) (v : Core) : (setCore s c v).mem = s.mem := by
  unfold setCore
  split
  · rfl
  · rfl

/-- A slot whose body leaves a state and changes registers there: memory is that state's, and control touches no data register. -/
theorem runSlot_effect {sl : Slot} (h : slotRuns s c m sl = true) {want : Op → Bool} (hw : want sl.op = true)
    {body : Op → Mode → Bool → State → Eff} {f : Regs → Regs}
    (hb : body sl.op m (slotCond (slotState s c m) c sl) (slotState s c m) = regsEff c t f) (ht : CoresWf t) :
    ∃ u, runSlot c want body s = .next u ∧ u.mem = t.mem ∧ SameData (f (regsOf t c)) (regsOf u c) := by
  obtain ⟨u, hu, ⟨hdata, -, -⟩⟩ := finishSlot_done (s := s) (sl := sl) (m := m) (c := c) (ht.updRegs (c := c) f)
  refine ⟨u, ?_, ?_, ?_⟩
  · rw [runSlot_runs h hw, hb]
    exact hu
  · cases hu
    rw [settle_mem, setCore_mem]
    exact setCore_mem _ _ _
  · rw [coreOf_updRegs ht] at hdata
    exact hdata

/-- A slot whose body jumps: memory is that of the state it left. -/
theorem runSlot_jump {sl : Slot} (h : slotRuns s c m sl = true) {want : Op → Bool} (hw : want sl.op = true)
    {body : Op → Mode → Bool → State → Eff}
    (hb : body sl.op m (slotCond (slotState s c m) c sl) (slotState s c m) = .jump t) :
    ∃ u, runSlot c want body s = .next u ∧ u.mem = t.mem :=
  ⟨_, (runSlot_runs h hw body).trans (by rw [hb]; rfl), (settle_mem _ _).trans (setCore_mem _ _ _)⟩

/-! ### Operands of a kernel's own memory -/

theorem readKernelWord_kern {d k n w a : Nat} {b : Bool} {v : Word} (h : readKernelWord s d k n b w a = .ok v t) : t.kern = s.kern := by
  unfold readKernelWord at h
  split at h
  · cases h; rfl
  · cases h; exact kernelCorrected_kern s _ _ _ _ _ _
  · cases h

/-- A read of a memory operand leaves its core, on a kernel and on a steward. -/
theorem readMem_core (hw : s.wf = true) {ptr p : Nat} {v : Word} (h : readMem s c ptr p = .ok v t) : coreOf t c = coreOf s c := by
  unfold readMem at h
  split at h
  · next hc =>
    simp only [coreOf, hc, if_true]
    exact congrArg Stew.core ((stewRead_frame h).steward _ _)
  · next hc =>
    have hk : c.stew = false := by simpa using hc
    dsimp only at h
    split at h
    · exact coreOf_congr hk (readKernelWord_kern h)
    · split at h
      · exact readHoardOp_core hk hw h
      · exact coreOf_congr hk (readKernelWord_kern h)

/-- The offset in its window of the word of X or Y memory that a kernel's pointer reaches (R89). -/
def ownOff (s : State) (c : CoreRef) (ptr p : Nat) : Nat :=
  if ptr < 8 then 0x1_0000 + 4 * (p % 4096)
  else (if (kern s c.die c.idx).ybank then 0x1_8000 else 0x1_4000) + 4 * (p % 4096)

theorem kernWin_ownOff (s : State) (c : CoreRef) (ptr p : Nat) :
    kernWin c.die c.idx + ownOff s c ptr p =
      if ptr < 8 then xA c.die c.idx (p % 4096) else yA c.die c.idx (kern s c.die c.idx).ybank (p % 4096) := by
  unfold ownOff xA yA
  split
  · omega
  · omega

/-- A kernel's write through a pointer that reaches no Hoard word. -/
theorem writeMem_own (hc : c.stew = false) {ptr : Nat} (hown : ptr < 8 ∨ ptr < 12 ∨ hoardMode (regsOf s c) = false) (p : Nat) (v : Word) :
    writeMem s c ptr p v = .ok () (writeKernelWord s c (ownOff s c ptr p) v) := by
  rw [regsOf, coreOf_kernel hc] at hown
  unfold writeMem ownOff
  rw [if_neg (by simp [hc])]
  dsimp only
  split
  · rfl
  · next hx =>
    have hhoard : ¬ (decide (12 ≤ ptr) && hoardMode (kern s c.die c.idx).core.r) = true := by
      simp only [Bool.and_eq_true, decide_eq_true_eq]
      rintro ⟨hy, hmode⟩
      obtain hlow | hlow | hlow := hown
      · exact hx hlow
      · omega
      · exact absurd (hlow.symm.trans hmode) (by decide)
    rw [if_neg hhoard]

/-- Mirrored words at the same offset of the windows of a die coincide or lie apart. -/
theorem loadW_mirror (h : Memory.wf s.mem = true) {d k j off : Nat} {v : Word}
    (hv : loadW s (kernWin d k + off) = v) : loadW (storeW s (kernWin d j + off) v) (kernWin d k + off) = v := by
  by_cases hjk : j = k
  · rw [hjk]
    exact loadW_storeW h _ v
  · have hapart : kernWin d k + off + 4 ≤ kernWin d j + off ∨ kernWin d j + off + 4 ≤ kernWin d k + off := by
      unfold kernWin pkgA
      omega
    exact (congrArg (BitVec.ofNat 32) (loadBytes_storeBytes_ne h _ _ _ _ 4 hapart)).trans hv

/-- What a word mirrored into another window keeps: kernels, stewards, and the word itself. -/
structure Mirrored (s : State) (c : CoreRef) (off : Nat) (v : Word) (t : State) : Prop where
  kern : t.kern = s.kern
  stew : t.stew = s.stew
  mem : Memory.wf t.mem = true
  word : loadW t (kernWin c.die c.idx + off) = v

/-- A word stored with fresh ECC leaves kernels and stewards. -/
theorem storeClean_keeps (s : State) (key : Nat) (v : Word) :
    (setEcc (storeW s key v) key .clean).kern = s.kern ∧ (setEcc (storeW s key v) key .clean).stew = s.stew ∧
      (setEcc (storeW s key v) key .clean).mem = (storeW s key v).mem := by
  unfold storeW
  rw [storeBytes_eq]
  exact ⟨rfl, rfl, rfl⟩

theorem Mirrored.store {off : Nat} {v : Word} (h : Mirrored s c off v t) (j : Nat) :
    Mirrored s c off v (setEcc (storeW t (kernWin c.die j + off) v) (kernWin c.die j + off) .clean) := by
  obtain ⟨hkern, hstew, hmem⟩ := storeClean_keeps t (kernWin c.die j + off) v
  exact ⟨hkern.trans h.kern, hstew.trans h.stew, hmem ▸ mem_wf_storeW h.mem _ v,
    (loadW_congr hmem _).trans (loadW_mirror h.mem h.word)⟩

/-- A write of its own memory leaves a kernel's core and stores the word; where no slot mirrors the kernel, nothing else of memory
changes (R128, R434, R435). -/
theorem writeKernelWord_effect (hw : s.wf = true) (hc : c.stew = false) (off : Nat) (v : Word) :
    CoresWf (writeKernelWord s c off v) ∧ coreOf (writeKernelWord s c off v) c = coreOf s c ∧
      loadW (writeKernelWord s c off v) (kernWin c.die c.idx + off) = v ∧
      (standbyOf s c.die c.idx = none → copiesOf s c.die c.idx = [] →
        (writeKernelWord s c off v).mem = (storeW s (kernWin c.die c.idx + off) v).mem) := by
  obtain ⟨hkern, hstew, hmem⟩ := storeClean_keeps s (kernWin c.die c.idx + off) v
  have hwmem : Memory.wf (setEcc (storeW s (kernWin c.die c.idx + off) v) (kernWin c.die c.idx + off) .clean).mem = true := by
    rw [hmem]
    exact mem_wf_storeW (State.wf_mem hw) _ v
  have hword := (loadW_congr hmem _).trans (loadW_storeW (State.wf_mem hw) (kernWin c.die c.idx + off) v)
  have hstored : CoresWf (setEcc (storeW s (kernWin c.die c.idx + off) v) (kernWin c.die c.idx + off) .clean) :=
    ⟨by rw [hkern]; exact State.wf_kern hw, by rw [hstew]; exact State.wf_stew hw⟩
  unfold writeKernelWord
  extract_lets kn t u others
  have hu : Mirrored u c off v u := ⟨rfl, rfl, hwmem, (loadW_congr (t := u) (s := t) rfl _).trans hword⟩
  have hcores : CoresWf u := hstored.setKern _ _ _
  have hcore : coreOf u c = coreOf s c := by
    rw [coreOf_kernel hc, coreOf_kernel hc]
    exact (congrArg Kern.core (smGet_smSet_same hstored.1 _ _) :)
  have hall : Mirrored u c off v (each others (fun j t => setEcc (storeW t (kernWin c.die j + off) v) (kernWin c.die j + off) .clean) u) :=
    each_keeps _ _ (fun j _ x hx => hx.store j) hu
  split
  · refine ⟨⟨by rw [hall.kern]; exact hcores.1, by rw [hall.stew]; exact hcores.2⟩, (coreOf_congr hc hall.kern).trans hcore, hall.word, fun hsb hcp => ?_⟩
    rw [show others = [] by simp [others, hsb, hcp]]
    exact hmem
  · exact ⟨hcores, hcore, hu.word, fun _ _ => hmem⟩

end Sys2Proof.Machine
end

section
/-! PROOFS. Loads and stores, concluded: the core that a running slot's operand leaves, and the slots of LD, ST, MODP, STA and FTAP. -/
namespace Sys2Proof.Machine

variable {s t : State} {c : CoreRef} {m : Mode}

/-! ### Operands of a running slot -/

/-- A write of the Hoard leaves a kernel's core (R135, R174). -/
theorem writeHoardOp_core (hc : c.stew = false) (hw : s.wf = true) {w : Nat} {v : Word} (h : writeHoardOp s c w v = .ok () t) :
    coreOf t c = coreOf s c := by
  have hnoted : coreOf (noteHoardWrite s c w v) c = coreOf s c := by
    rw [coreOf_kernel hc, coreOf_kernel hc]
    exact (congrArg Kern.core (smGet_smSet_same (State.wf_kern hw) _ _) :)
  unfold writeHoardOp at h
  dsimp only at h
  split at h
  · cases h
    exact hnoted
  · cases h
    exact coreOf_congr hc (storeClean_keeps _ _ _).1
  · split at h
    · cases h
      exact (storeHoard_core hc (State.coresWf hw) w v).2
    · cases h

/-- A kernel's write of a word leaves its core. -/
theorem writeMem_kernel_core (hc : c.stew = false) (hw : s.wf = true) {ptr p : Nat} {v : Word} (h : writeMem s c ptr p v = .ok () t) :
    coreOf t c = coreOf s c := by
  by_cases hown : ptr < 8 ∨ ptr < 12 ∨ hoardMode (regsOf s c) = false
  · rw [writeMem_own hc hown] at h
    cases h
    exact (writeKernelWord_effect hw hc _ _).2.1
  · simp only [not_or, Nat.not_lt, Bool.not_eq_false] at hown
    obtain ⟨-, hptr, hmode⟩ := hown
    rw [writeMem_hoard hc hptr hmode] at h
    exact writeHoardOp_core hc hw h

/-- The fetch leaves the stewards. -/
theorem slotState_steward {sl : Slot} (h : slotRuns s c m sl = true) (hc : c.stew = true) (d i : Nat) :
    stew (slotState s c m) d i = stew s d i := by
  obtain ⟨-, -, hfetch, hnote, -, -, -, -⟩ := slotRuns_fetch h
  have hfetched : StewFrame s (slotFetched s c m) := by
    unfold fetchSlot at hfetch
    simp only [hc, Bool.not_true, Bool.false_and, Bool.false_eq_true, if_false] at hfetch
    cases hword : fetchWord s c with
    | ok w t =>
      rw [hword] at hfetch
      have ht : StewFrame s t := by
        unfold fetchWord at hword
        simp only [hc, if_true] at hword
        split at hword
        · cases hword
          exact .busRead (.refl s)
        · cases hword
      simp only [Got.andThen] at hfetch
      split at hfetch
      · injection hfetch with _ heq
        rw [← heq]
        exact ht
      · cases hfetch
    | _ => rw [hword] at hfetch; cases hfetch
  obtain heq | ⟨n, v, -, -, heq⟩ := noteSlip_cases hnote
  · rw [heq]
    exact hfetched.steward d i
  · rw [heq]
    exact hfetched.steward d i

/-- A steward whose slot runs is in RUN. -/
theorem slotState_running {sl : Slot} (h : slotRuns s c m sl = true) (hc : c.stew = true) :
    (stew (slotState s c m) c.die c.idx).st = .run := by
  obtain ⟨-, hmode, -, -, -, -, -, -⟩ := slotRuns_fetch h
  rw [slotState_steward h hc]
  unfold coreMode at hmode
  rw [if_pos hc] at hmode
  split at hmode
  · assumption
  · cases hmode

/-- A running slot's write of a word leaves its core, unless it restarts a steward. -/
theorem writeMem_core {sl : Slot} (h : slotRuns s c m sl = true) {ptr p : Nat} {v : Word}
    (hwrite : writeMem (slotState s c m) c ptr p v = .ok () t) (hres : restarted (slotState s c m) t c = false) :
    coreOf t c = coreOf (slotState s c m) c := by
  have hwf := slotRuns_wf h
  cases hc : c.stew with
  | false => exact writeMem_kernel_core hc hwf hwrite
  | true =>
    rw [writeMem, if_pos hc] at hwrite
    exact stewWrite_core hc (State.wf_stew hwf) (State.wf_regs hwf) (slotState_running h hc) hwrite hres

theorem restarted_kernel (hc : c.stew = false) (s t : State) : restarted s t c = false := by simp [restarted, hc]

/-! ### Slots that store -/

/-- A slot whose store left `t` without a restart. -/
theorem runSlot_stored {x : State} {sl : Slot} (h : slotRuns s c m sl = true) {want : Op → Bool} (hw : want sl.op = true)
    {body : Op → Mode → Bool → State → Eff} {f : Regs → Regs}
    (hb : body sl.op m (slotCond (slotState s c m) c sl) (slotState s c m) = storedEff c x t f) (hres : restarted x t c = false)
    (ht : CoresWf t) : ∃ u, runSlot c want body s = .next u ∧ u.mem = t.mem ∧ SameData (f (regsOf t c)) (regsOf u c) :=
  runSlot_effect h hw (hb.trans (if_neg (by simp [hres]))) ht

/-- A slot whose op goes through P12 to P15 takes the Hoard where KMODE.HOARD is 1 (R35). -/
theorem takesHoard_ptr {sl : Slot} (hcd : sl.cond ≠ .nv) (hptr : (opPtrs sl.op).any (12 ≤ ·) = true) (b : Bool) :
    takesHoard b sl = b := by
  unfold takesHoard
  rw [if_neg hcd]
  split
  case h_1 _ _ hop => rw [hop] at hptr; cases hptr
  case h_2 _ _ hop => rw [hop] at hptr; cases hptr
  case h_3 => rw [hptr, Bool.and_true]

/-- A slot of a kernel that stores to the Hoard costs one half-step in sample mode (R35, R109). -/
theorem runSlot_hoardCost {u : State} (hc : c.stew = false) {sl : Slot} (h : slotRuns s c m sl = true) {want : Op → Bool}
    (hw : want sl.op = true) {body : Op → Mode → Bool → State → Eff} {f : Regs → Regs}
    (hb : body sl.op m (slotCond (slotState s c m) c sl) (slotState s c m) = regsEff c t f)
    (ht : CoresWf t) (hcore : coreOf t c = coreOf (slotState s c m) c)
    (hhoard : takesHoard (hoardMode (f (slotRegs s c m))) sl = true) (hu : runSlot c want body s = .next u)
    (hm : m = .sample) (hmul : (coreOf (slotState s c m) c).annulMul = []) :
    (coreOf u c).halves = (coreOf (slotState s c m) c).halves + 1 := by
  obtain ⟨k, hk, -, hhalves⟩ := runSlot_done hc h hw hb
  have hread : coreOf (updRegs t c f) c = { coreOf (slotState s c m) c with r := f (slotRegs s c m) } := by
    rw [coreOf_updRegs ht, regsOf, hcore, slotRegs, regsOf]
  have hweight : annulWeight (coreOf (updRegs t c f) c) = 1 := by
    rw [hread]
    exact annulWeight_one (slotRuns_notAnnul h) hmul
  cases hu.symm.trans hk
  rw [coreOf_setCore (ht.updRegs _), hhalves, hweight, hread, hhoard, hm]
  rfl

/-- LD brings the word that its pointer reaches (R128). -/
theorem ld_effect {cd : Cond} {cb d : Nat} {mo : MemOp} {v : Word} (h : slotRuns s c m ⟨cd, cb, .ld d mo⟩ = true)
    (hread : readMem (slotState s c m) c mo.ptr (rf (slotRegs s c m).p mo.ptr).toNat = .ok v t) (ht : t.wf = true) :
    ∃ u, exec (.ld c) s = .next u ∧ rf (regsOf u c).d d = v ∧ (regsOf u c).p = (postMod c (regsOf t c) mo).p ∧
      (regsOf u c).flg = (regsOf t c).flg := by
  obtain ⟨u, hu, -, hd, -, -, hp, -, -, -, -, hflg, -⟩ := runSlot_effect h (want := isLd) rfl (body := loadBody c)
    (f := fun r => setD (postMod c r mo) d v)
    (congrArg (fun g : Got Word => g.toEff m fun v t => regsEff c t fun r => setD (postMod c r mo) d v) hread) (State.coresWf ht)
  exact ⟨u, hu, by rw [hd]; exact rf_setD (regsOf_d_wf ht c) _ _, hp, hflg⟩

/-- MODP updates its pointer alone (R128). -/
theorem modp_effect {cd : Cond} {cb : Nat} {mo : MemOp} (h : slotRuns s c m ⟨cd, cb, .modp mo⟩ = true) :
    ∃ u, exec (.modp c) s = .next u ∧ u.mem = (slotState s c m).mem ∧ SameData (postMod c (slotRegs s c m) mo) (regsOf u c) :=
  runSlot_effect h (want := isModp) rfl (body := loadBody c) rfl (State.coresWf (slotRuns_wf h))

theorem rf_postMod {r : Regs} (hp : smWf (fun _ => (0 : Word)) 0 r.p = true) (mo : MemOp) :
    rf (postMod c r mo).p mo.ptr = BitVec.ofNat 32 (ptrUpdate (ptrBits c) (rf r.p mo.ptr).toNat (rf r.b mo.ptr).toNat
      (rf r.l mo.ptr).toNat (amInc mo.am (mSigned c r mo.ptr))) := smGet_smSet_same hp _ _

/-- The body of ST once its word is written. -/
theorem stBody_stored {d : Nat} {mo : MemOp} (b : Bool)
    (hwrite : writeMem s c mo.ptr (rf (regsOf s c).p mo.ptr).toNat (rf (regsOf s c).d d) = .ok () t) :
    loadBody c (.st d mo) m b s = storedEff c s t fun r => postMod c r mo :=
  congrArg (fun g : Got Unit => g.toEff m fun _ t => storedEff c s t fun r => postMod c r mo) hwrite

/-- The body of STA once its word is written. -/
theorem staBody_stored {n : Nat} {mo : MemOp} (b : Bool)
    (hwrite : writeMem s c mo.ptr (rf (regsOf s c).p mo.ptr).toNat (store32 (satMode (regsOf s c)) (accOf (regsOf s c) n)).val = .ok () t) :
    staBody c (.staM n mo) m b s =
      storedEff c s t fun r => postMod c (staRegs n (store32 (satMode (regsOf s c)) (accOf (regsOf s c) n)) r) mo :=
  congrArg (fun g : Got Unit => g.toEff m fun _ t =>
    storedEff c s t fun r => postMod c (staRegs n (store32 (satMode (regsOf s c)) (accOf (regsOf s c) n)) r) mo) hwrite

/-- ST writes its D register and updates its pointer (R72, R128). -/
theorem st_effect {cd : Cond} {cb d : Nat} {mo : MemOp} (h : slotRuns s c m ⟨cd, cb, .st d mo⟩ = true)
    (hwrite : writeMem (slotState s c m) c mo.ptr (rf (slotRegs s c m).p mo.ptr).toNat (rf (slotRegs s c m).d d) = .ok () t)
    (hres : restarted (slotState s c m) t c = false) (ht : CoresWf t) :
    ∃ u, exec (.st c) s = .next u ∧ u.mem = t.mem ∧ SameData (postMod c (regsOf t c) mo) (regsOf u c) :=
  runSlot_stored h (want := isSt) rfl (body := loadBody c) (stBody_stored _ hwrite) hres ht

/-- STA stores its accumulator and updates its pointer (R70, R72, R126). -/
theorem sta_effect {cd : Cond} {cb n : Nat} {mo : MemOp} (h : slotRuns s c m ⟨cd, cb, .staM n mo⟩ = true)
    (hwrite : writeMem (slotState s c m) c mo.ptr (rf (slotRegs s c m).p mo.ptr).toNat
      (store32 (satMode (slotRegs s c m)) (accOf (slotRegs s c m) n)).val = .ok () t)
    (hres : restarted (slotState s c m) t c = false) (ht : CoresWf t) :
    ∃ u, exec (.sta c) s = .next u ∧ u.mem = t.mem ∧
      SameData (postMod c (staRegs n (store32 (satMode (slotRegs s c m)) (accOf (slotRegs s c m) n)) (slotRegs s c m)) mo) (regsOf u c) := by
  have hregs : regsOf t c = slotRegs s c m := congrArg Core.r (writeMem_core h hwrite hres)
  obtain ⟨u, hu, hmem, hdata⟩ := runSlot_stored h (want := isSta) rfl (body := staBody c) (staBody_stored _ hwrite) hres ht
  rw [hregs] at hdata
  exact ⟨u, hu, hmem, hdata⟩

/-- What a slot of STA leaves of its registers. -/
theorem sta_registers {cd : Cond} {cb n : Nat} {mo : MemOp} {u : State} (h : slotRuns s c m ⟨cd, cb, .staM n mo⟩ = true)
    (hdata : SameData (postMod c (staRegs n (store32 (satMode (slotRegs s c m)) (accOf (slotRegs s c m) n)) (slotRegs s c m)) mo) (regsOf u c)) :
    let r := slotRegs s c m
    let st := store32 (satMode r) (accOf r n)
    (regsOf u c).p = (postMod c r mo).p ∧ flagZ (regsOf u c).flg = decide (st.val = 0) ∧ flagN (regsOf u c).flg = st.val.msb ∧
      flagV (regsOf u c).flg = !fits32 (accOf r n) ∧ rf (regsOf u c).e n = (if rescap r then st.res else rf r.e n) :=
  staRegs_effect (regsOf_files_wf (slotRuns_wf h) c).2.1 n mo hdata

/-- STA of a kernel to its own X or Y memory. -/
theorem sta_own {cd : Cond} {cb n : Nat} {mo : MemOp} (h : slotRuns s c m ⟨cd, cb, .staM n mo⟩ = true) (hc : c.stew = false)
    (hown : mo.ptr < 8 ∨ mo.ptr < 12 ∨ hoardMode (slotRegs s c m) = false) :
    let r := slotRegs s c m
    let st := store32 (satMode r) (accOf r n)
    ∃ u, exec (.sta c) s = .next u ∧
      loadW u (kernWin c.die c.idx + ownOff (slotState s c m) c mo.ptr (rf r.p mo.ptr).toNat) = st.val ∧
      (regsOf u c).p = (postMod c r mo).p ∧ flagZ (regsOf u c).flg = decide (st.val = 0) ∧ flagN (regsOf u c).flg = st.val.msb ∧
      flagV (regsOf u c).flg = !fits32 (accOf r n) ∧ rf (regsOf u c).e n = (if rescap r then st.res else rf r.e n) := by
  obtain ⟨hcores, -, hword, -⟩ := writeKernelWord_effect (slotRuns_wf h) hc
    (ownOff (slotState s c m) c mo.ptr (rf (slotRegs s c m).p mo.ptr).toNat) (store32 (satMode (slotRegs s c m)) (accOf (slotRegs s c m) n)).val
  obtain ⟨u, hu, hmem, hdata⟩ := sta_effect h (writeMem_own hc hown _ _) (restarted_kernel hc _ _) hcores
  exact ⟨u, hu, (loadW_congr hmem _).trans hword, sta_registers h hdata⟩

/-- ST of a kernel to its own X or Y memory. -/
theorem st_own {cd : Cond} {cb d : Nat} {mo : MemOp} (h : slotRuns s c m ⟨cd, cb, .st d mo⟩ = true) (hc : c.stew = false)
    (hown : mo.ptr < 8 ∨ mo.ptr < 12 ∨ hoardMode (slotRegs s c m) = false) :
    let r := slotRegs s c m
    let a := kernWin c.die c.idx + ownOff (slotState s c m) c mo.ptr (rf r.p mo.ptr).toNat
    ∃ u, exec (.st c) s = .next u ∧ loadW u a = rf r.d d ∧ (regsOf u c).p = (postMod c r mo).p ∧
      (∀ b, (b < a ∨ a + 4 ≤ b) → standbyOf (slotState s c m) c.die c.idx = none → copiesOf (slotState s c m) c.die c.idx = [] →
        loadByte u b = loadByte (slotState s c m) b) := by
  have hwf := slotRuns_wf h
  obtain ⟨hcores, hcore, hword, halone⟩ := writeKernelWord_effect hwf hc
    (ownOff (slotState s c m) c mo.ptr (rf (slotRegs s c m).p mo.ptr).toNat) (rf (slotRegs s c m).d d)
  obtain ⟨u, hu, hmem, -, -, -, hp, -⟩ := st_effect h (writeMem_own hc hown _ _) (restarted_kernel hc _ _) hcores
  refine ⟨u, hu, (loadW_congr hmem _).trans hword, hp.trans ?_, fun b hb hsb hcp => ?_⟩
  · rw [regsOf, hcore]
    rfl
  · exact (loadByte_congr (hmem.trans (halone hsb hcp)) b).trans (loadByte_storeBytes_ne (State.wf_mem hwf) _ _ 4 b hb)

/-! ### Stores to the Hoard -/

/-- A running kernel's write of a Hoard word that it owns. -/
theorem writeMem_ownedHoard (hc : c.stew = false) {ptr : Nat} (hptr : 12 ≤ ptr) (hmode : hoardMode (regsOf s c) = true)
    (hst : (kern s c.die c.idx).st = .run) {w : Nat} (hown : ownsWord s c.die c.idx w = true) (v : Word) :
    writeMem s c ptr w v = .ok () (storeHoard s c w v) :=
  (writeMem_hoard hc hptr hmode w v).trans (writeHoardOp_owned v hst hown)

/-- STA of a kernel to a Hoard word that it owns (R35, R126, R172). -/
theorem sta_hoard {cd : Cond} {cb n : Nat} {mo : MemOp} (h : slotRuns s c m ⟨cd, cb, .staM n mo⟩ = true) (hc : c.stew = false)
    (hptr : 12 ≤ mo.ptr) (hmode : hoardMode (slotRegs s c m) = true) (hst : (kern (slotState s c m) c.die c.idx).st = .run)
    (hown : ownsWord (slotState s c m) c.die c.idx (rf (slotRegs s c m).p mo.ptr).toNat = true) :
    let r := slotRegs s c m
    let st := store32 (satMode r) (accOf r n)
    ∃ u, exec (.sta c) s = .next u ∧
      loadW u (hoardA c.die (c.idx / 18) (rf r.p mo.ptr).toNat) = st.val ∧
      (regsOf u c).p = (postMod c r mo).p ∧ flagZ (regsOf u c).flg = decide (st.val = 0) ∧ flagN (regsOf u c).flg = st.val.msb ∧
      flagV (regsOf u c).flg = !fits32 (accOf r n) ∧ rf (regsOf u c).e n = (if rescap r then st.res else rf r.e n) ∧
      (m = .sample → (coreOf (slotState s c m) c).annulMul = [] →
        (coreOf u c).halves = (coreOf (slotState s c m) c).halves + 1) := by
  have hwf := slotRuns_wf h
  obtain ⟨-, -, -, -, -, hcd, -, -⟩ := slotRuns_fetch h
  have hwrite := writeMem_ownedHoard hc hptr hmode hst hown (store32 (satMode (slotRegs s c m)) (accOf (slotRegs s c m) n)).val
  obtain ⟨hcores, hcore⟩ := storeHoard_core hc (State.coresWf hwf) (rf (slotRegs s c m).p mo.ptr).toNat
    (store32 (satMode (slotRegs s c m)) (accOf (slotRegs s c m) n)).val
  obtain ⟨u, hu, hmem, hdata⟩ := sta_effect h hwrite (restarted_kernel hc _ _) hcores
  obtain ⟨hp, hz, hn, hv, he⟩ := sta_registers h hdata
  refine ⟨u, hu, (loadW_congr hmem _).trans (loadW_storeHoard hwf _ _), hp, hz, hn, hv, he, fun hm hmul => ?_⟩
  refine runSlot_hoardCost hc h (want := isSta) rfl (body := staBody c)
    ((staBody_stored _ hwrite).trans (if_neg (by simp [restarted_kernel hc]))) hcores hcore ?_ hu hm hmul
  obtain ⟨f, e, hfr⟩ := staRegs_frame n (store32 (satMode (slotRegs s c m)) (accOf (slotRegs s c m) n)) (slotRegs s c m)
  have hkeep : hoardMode (postMod c (staRegs n (store32 (satMode (slotRegs s c m)) (accOf (slotRegs s c m) n)) (slotRegs s c m)) mo) = true := by
    rw [hfr]
    exact hmode
  exact (takesHoard_ptr hcd (by simp [opPtrs, hptr]) _).trans hkeep

/-- ST of a kernel to a Hoard word that it owns (R35, R128, R172). -/
theorem st_hoard {cd : Cond} {cb d : Nat} {mo : MemOp} (h : slotRuns s c m ⟨cd, cb, .st d mo⟩ = true) (hc : c.stew = false)
    (hptr : 12 ≤ mo.ptr) (hmode : hoardMode (slotRegs s c m) = true) (hst : (kern (slotState s c m) c.die c.idx).st = .run)
    (hown : ownsWord (slotState s c m) c.die c.idx (rf (slotRegs s c m).p mo.ptr).toNat = true) :
    let r := slotRegs s c m
    ∃ u, exec (.st c) s = .next u ∧ loadW u (hoardA c.die (c.idx / 18) (rf r.p mo.ptr).toNat) = rf r.d d ∧
      (regsOf u c).p = (postMod c r mo).p ∧ (m = .sample → (coreOf (slotState s c m) c).annulMul = [] →
        (coreOf u c).halves = (coreOf (slotState s c m) c).halves + 1) := by
  have hwf := slotRuns_wf h
  obtain ⟨-, -, -, -, -, hcd, -, -⟩ := slotRuns_fetch h
  have hwrite := writeMem_ownedHoard hc hptr hmode hst hown (rf (slotRegs s c m).d d)
  obtain ⟨hcores, hcore⟩ := storeHoard_core hc (State.coresWf hwf) (rf (slotRegs s c m).p mo.ptr).toNat (rf (slotRegs s c m).d d)
  obtain ⟨u, hu, hmem, -, -, -, hp, -⟩ := st_effect h hwrite (restarted_kernel hc _ _) hcores
  refine ⟨u, hu, (loadW_congr hmem _).trans (loadW_storeHoard hwf _ _), hp.trans ?_, fun hm hmul => ?_⟩
  · rw [regsOf, hcore]
    rfl
  · refine runSlot_hoardCost hc h (want := isSt) rfl (body := loadBody c)
      ((stBody_stored _ hwrite).trans (if_neg (by simp [restarted_kernel hc]))) hcores hcore ?_ hu hm hmul
    exact (takesHoard_ptr hcd (by simp [opPtrs, hptr]) _).trans hmode

/-! ### FTAP (R138) -/

/-- The registers after a tap: the product is accumulated and both pointers move on. -/
def tapRegs (c : CoreRef) (n : Nat) (int : Bool) (x y : Word) (mo : MemOp) (s2 : DualOp) (r : Regs) : Regs :=
  postDual c (postMod c (mulReal .mac n int x y r) mo) s2

theorem tapRegs_p (n : Nat) (int : Bool) (x y : Word) (mo : MemOp) (s2 : DualOp) (r : Regs) :
    (tapRegs c n int x y mo s2 r).p = (postDual c (postMod c r mo) s2).p := by
  cases s2 with
  | mem m => rfl
  | reg d => rfl

theorem accOf_tapRegs {r : Regs} (ha : smWf (fun _ => (0 : Acc)) 0 r.a = true) (n : Nat) (int : Bool) (x y : Word) (mo : MemOp) (s2 : DualOp) :
    accOf (tapRegs c n int x y mo s2 r) n =
      BitVec.ofInt 72 ((accOf r n).toInt + (if int then x.toInt * y.toInt else x.toInt * y.toInt * 2)) := by
  have hmul : accOf (mulReal .mac n int x y r) n = BitVec.ofInt 72 ((accOf r n).toInt + prodExact int x y) :=
    smGet_smSet_same ha _ _
  cases s2 with
  | mem m => exact hmul
  | reg d => exact hmul

/-- The body of FTAP once its words are read and the tap's word is written one place up. -/
theorem ftapBody_stored {n : Nat} {mo : MemOp} {s2 : DualOp} {int : Bool} {x y : Word} {v w z : State} (b : Bool)
    (hx : readMem s c mo.ptr (rf (regsOf s c).p mo.ptr).toNat = .ok x v) (hy : readDual v c s2 = .ok y w)
    (hz : writeMem w c mo.ptr (ptrUpdate (ptrBits c) (rf (regsOf s c).p mo.ptr).toNat (rf (regsOf s c).b mo.ptr).toNat
      (rf (regsOf s c).l mo.ptr).toNat 1) x = .ok () z) :
    ftapBody c (.ftap n mo s2 int) m b s = storedEff c w z (tapRegs c n int x y mo s2) := by
  unfold regsOf at hx hz
  simp only [ftapBody, hx, hy, hz, Got.toEff]
  rfl

/-- FTAP of a core whose registers its operands and its store leave. -/
theorem ftap_effect {cd : Cond} {cb n : Nat} {mo : MemOp} {s2 : DualOp} {int : Bool} {x y : Word} {v w z : State}
    (h : slotRuns s c m ⟨cd, cb, .ftap n mo s2 int⟩ = true)
    (hx : readMem (slotState s c m) c mo.ptr (rf (slotRegs s c m).p mo.ptr).toNat = .ok x v) (hy : readDual v c s2 = .ok y w)
    (hz : writeMem w c mo.ptr (ptrUpdate (ptrBits c) (rf (slotRegs s c m).p mo.ptr).toNat (rf (slotRegs s c m).b mo.ptr).toNat
      (rf (slotRegs s c m).l mo.ptr).toNat 1) x = .ok () z)
    (hres : restarted w z c = false) (hcores : CoresWf z) (hcore : coreOf z c = coreOf (slotState s c m) c) :
    ∃ u, exec (.ftap c) s = .next u ∧ u.mem = z.mem ∧
      accOf (regsOf u c) n = BitVec.ofInt 72 ((accOf (slotRegs s c m) n).toInt + (if int then x.toInt * y.toInt else x.toInt * y.toInt * 2)) ∧
      (regsOf u c).p = (postDual c (postMod c (slotRegs s c m) mo) s2).p := by
  obtain ⟨u, hu, hmem, -, ha, -, hp, -⟩ := runSlot_stored h (want := isFtap) rfl (body := ftapBody c)
    (ftapBody_stored _ hx hy hz) hres hcores
  have hregs : regsOf z c = slotRegs s c m := congrArg Core.r hcore
  rw [hregs] at ha hp
  refine ⟨u, hu, hmem, ?_, hp.trans (tapRegs_p n int x y mo s2 _)⟩
  exact (congrArg (fun q => smGet (fun _ => (0 : Acc)) q n) ha).trans
    (accOf_tapRegs (regsOf_files_wf (slotRuns_wf h) c).1 n int x y mo s2)

theorem readKernelWord_wf (hw : s.wf = true) {d k n w a : Nat} {b : Bool} {v : Word} (h : readKernelWord s d k n b w a = .ok v t) :
    t.wf = true := by
  unfold readKernelWord at h
  split at h
  · cases h; exact hw
  · cases h
    exact State.wf_setEcc (State.wf_setFld (State.wf_setFld (State.wf_setFld (State.wf_satFld hw _ _) _ _ _) _ _ _) _ _ _) _ _
  · cases h

/-- A real second operand leaves its core. -/
theorem readDual_core (hw : s.wf = true) {o : DualOp} {v : Word} (h : readDual s c o = .ok v t) : coreOf t c = coreOf s c := by
  cases o with
  | reg n => cases h; rfl
  | mem mo => exact readMem_core hw h

/-- FTAP of a kernel on its X memory. -/
theorem ftap_kernel {cd : Cond} {cb n : Nat} {mo : MemOp} {s2 : DualOp} {int : Bool} {x y : Word} {v w : State}
    (h : slotRuns s c m ⟨cd, cb, .ftap n mo s2 int⟩ = true) (hc : c.stew = false) (hptr : mo.ptr < 8)
    (hx : readMem (slotState s c m) c mo.ptr (rf (slotRegs s c m).p mo.ptr).toNat = .ok x v) (hy : readDual v c s2 = .ok y w)
    (hw : w.wf = true) :
    let r := slotRegs s c m
    let up := ptrUpdate (ptrBits c) (rf r.p mo.ptr).toNat (rf r.b mo.ptr).toNat (rf r.l mo.ptr).toNat 1
    ∃ u, exec (.ftap c) s = .next u ∧ loadW u (xA c.die c.idx (up % 4096)) = x ∧
      accOf (regsOf u c) n = BitVec.ofInt 72 ((accOf r n).toInt + (if int then x.toInt * y.toInt else x.toInt * y.toInt * 2)) := by
  have hwf := slotRuns_wf h
  have hxw : readKernelWord (slotState s c m) c.die c.idx 2 false ((rf (slotRegs s c m).p mo.ptr).toNat % 4096)
      (xA c.die c.idx ((rf (slotRegs s c m).p mo.ptr).toNat % 4096)) = .ok x v := by
    simpa only [readMem, hc, hptr, Bool.false_eq_true, if_false, if_true] using hx
  have hvw := readKernelWord_wf hwf hxw
  extract_lets r up
  obtain ⟨hcores, hcore, hword, -⟩ := writeKernelWord_effect hw hc (ownOff w c mo.ptr up) x
  obtain ⟨u, hu, hmem, hacc, -⟩ := ftap_effect h hx hy (writeMem_own hc (.inl hptr) up x) (restarted_kernel hc _ _) hcores
    (hcore.trans ((readDual_core hvw hy).trans (readMem_core hwf hx)))
  rw [kernWin_ownOff, if_pos hptr] at hword
  exact ⟨u, hu, (loadW_congr hmem _).trans hword, hacc⟩

/-- A steward's operands leave the stewards. -/
theorem readMem_frame (hc : c.stew = true) {ptr p : Nat} {v : Word} (h : readMem s c ptr p = .ok v t) : StewFrame s t := by
  rw [readMem, if_pos hc] at h
  exact stewRead_frame h

theorem readDual_frame (hc : c.stew = true) {o : DualOp} {v : Word} (h : readDual s c o = .ok v t) : StewFrame s t := by
  cases o with
  | reg n => cases h; exact .refl s
  | mem mo => exact readMem_frame hc h

/-- FTAP of a steward, whose operands and store go over its bus. -/
theorem ftap_steward {cd : Cond} {cb n : Nat} {mo : MemOp} {s2 : DualOp} {int : Bool} {x y : Word} {v w z : State}
    (h : slotRuns s c m ⟨cd, cb, .ftap n mo s2 int⟩ = true) (hc : c.stew = true)
    (hx : readMem (slotState s c m) c mo.ptr (rf (slotRegs s c m).p mo.ptr).toNat = .ok x v) (hy : readDual v c s2 = .ok y w)
    (hz : writeMem w c mo.ptr (ptrUpdate (ptrBits c) (rf (slotRegs s c m).p mo.ptr).toNat (rf (slotRegs s c m).b mo.ptr).toNat
      (rf (slotRegs s c m).l mo.ptr).toNat 1) x = .ok () z)
    (hres : restarted w z c = false) (hwz : z.wf = true) :
    ∃ u, exec (.ftap c) s = .next u ∧ u.mem = z.mem ∧
      accOf (regsOf u c) n = BitVec.ofInt 72 ((accOf (slotRegs s c m) n).toInt + (if int then x.toInt * y.toInt else x.toInt * y.toInt * 2)) ∧
      (regsOf u c).p = (postDual c (postMod c (slotRegs s c m) mo) s2).p := by
  have hwf := slotRuns_wf h
  have hread : StewFrame (slotState s c m) w := (readMem_frame hc hx).trans (readDual_frame hc hy)
  have hstore := hz
  rw [writeMem, if_pos hc] at hstore
  have hcore : coreOf z c = coreOf w c := by
    refine stewWrite_core hc ?_ (hread.regsWf (State.wf_regs hwf)) ?_ hstore hres
    · rw [hread.stew]
      exact State.wf_stew hwf
    · rw [hread.steward]
      exact slotState_running h hc
  have hcore' : coreOf w c = coreOf (slotState s c m) c := by
    simp only [coreOf, hc, if_true, hread.steward]
  exact ftap_effect h hx hy hz hres (State.coresWf hwz) (hcore.trans hcore')

/-- Settles O10: each slot's body is its operand access followed by a change of registers, and an access leaves its core. -/
theorem loadsAndStores : Obligations.LoadsAndStores := by
  refine ⟨?ld, ?st, ?modp, ?staX, ?ftap, ?staY, ?staHoard, ?stHoard, ?sta, ?ftapSteward, ?stAny⟩
  case ld => exact fun s c m cd cb d mo v w h hread hw => ld_effect h hread hw
  case st =>
    intro s c m cd cb d mo r a h hc hown
    have ha : kernWin c.die c.idx + ownOff (slotState s c m) c mo.ptr (rf r.p mo.ptr).toNat = a := kernWin_ownOff _ _ _ _
    rw [← ha]
    exact st_own h hc hown
  case modp =>
    intro s c m cd cb mo r h
    obtain ⟨u, hu, hmem, hd, -, -, hp, -⟩ := modp_effect h
    refine ⟨u, hu, ?_, hmem, hd⟩
    rw [hp]
    exact rf_postMod (regsOf_files_wf (slotRuns_wf h) c).2.2 mo
  case staX =>
    intro s c m cd cb n mo r st h hc hptr
    have ha := kernWin_ownOff (slotState s c m) c mo.ptr (rf r.p mo.ptr).toNat
    rw [if_pos hptr] at ha
    rw [← ha]
    exact sta_own h hc (.inl hptr)
  case ftap => exact fun s c m cd cb n mo s2 int x y v w h hc hptr hx hy hw => ftap_kernel h hc hptr hx hy hw
  case staY =>
    intro s c m cd cb n mo r st h hc hptr hown
    have ha := kernWin_ownOff (slotState s c m) c mo.ptr (rf r.p mo.ptr).toNat
    rw [if_neg (by omega)] at ha
    rw [← ha]
    exact sta_own h hc (.inr hown)
  case staHoard => exact fun s c m cd cb n mo h hc hptr hmode hst hown => sta_hoard h hc hptr hmode hst hown
  case stHoard => exact fun s c m cd cb d mo h hc hptr hmode hst hown => st_hoard h hc hptr hmode hst hown
  case sta =>
    intro s c m cd cb n mo w r st h hwrite hres hw
    obtain ⟨u, hu, hmem, hdata⟩ := sta_effect h hwrite hres (State.coresWf hw)
    exact ⟨u, hu, hmem, sta_registers h hdata⟩
  case ftapSteward => exact fun s c m cd cb n mo s2 int x y v w z h hc hx hy hz hres hwz => ftap_steward h hc hx hy hz hres hwz
  case stAny =>
    intro s c m cd cb d mo w r h hwrite hw
    cases hres : restarted (slotState s c m) w c with
    | false =>
      obtain ⟨u, hu, hmem, -, -, -, hp, -, -, -, -, hflg, -⟩ := st_effect h hwrite hres (State.coresWf hw)
      exact ⟨u, hu, hmem, fun _ => ⟨hp, hflg⟩⟩
    | true =>
      obtain ⟨u, hu, hmem⟩ := runSlot_jump h (want := isSt) rfl (body := loadBody c) ((stBody_stored _ hwrite).trans (if_pos hres))
      exact ⟨u, hu, hmem, nofun⟩

end Sys2Proof.Machine
end

section
/-! PROOFS. KERNEL_STAT (R79, R158): the register packs a state code above a fault code, which the canonical form does not bound. -/
namespace Sys2Proof.Machine

/-- The reset state with a fault code in kernel 0 of die 0 that is wider than KERNEL_STAT.FCODE. -/
def wideFcode : State := setKern State.reset 0 0 { Kern.zero with fcode := 16 }

/-- Refutes O42: the first clause asks of every canonical state that STATE reads the state's code, but a fault code of 16 carries into
it. In `wideFcode`, a canonical state, kernel 0 is HELD (code 2) and KERNEL_STAT reads code 3. -/
theorem not_kernelStates : ¬ Obligations.KernelStates := by
  unfold Obligations.KernelStates
  rintro ⟨hread, -⟩
  obtain ⟨-, -, -, hcode, -⟩ := hread wideFcode ⟨0, 0⟩ 0 0 (by decide) (by decide) (by decide)
  exact absurd hcode (by decide)

end Sys2Proof.Machine
end

section
/-! PROOFS. Moves by register code (R92, R129): what a core reads and writes by code, and the loop registers that control leaves alone. -/
namespace Sys2Proof.Machine

variable {s t : State} {c : CoreRef} {m : Mode}

/-! ### Control outside repeats and blocks -/

/-- The registers of repeats and blocks are the same. -/
def SameLoops (r q : Regs) : Prop := q.rpc = r.rpc ∧ q.ls = r.ls ∧ q.le = r.le ∧ q.lc = r.lc

theorem levelAt_inactive {k : Core} (h : k.lact = 0) (pc : Nat) : levelAt k pc = none := by simp [levelAt, h]

theorem nextSlot_loops {k : Core} (h : k.lact = 0) (pc : Nat) : SameLoops k.r (nextSlot k pc).r := by
  unfold nextSlot
  extract_lets k₁ k₂
  have hkept : k₂.r = k.r ∧ k₂.lact = 0 := by
    unfold k₂
    split <;> exact ⟨rfl, h⟩
  obtain ⟨hr, hlact⟩ := hkept
  simp only [levelAt_inactive hlact]
  rw [← hr]
  exact ⟨rfl, rfl, rfl, rfl⟩

theorem afterSlot_loops {k : Core} (h : k.lact = 0) (pc : Nat) : SameLoops k.r (afterSlot c m k pc).r := by
  unfold afterSlot
  split
  · exact nextSlot_loops h pc
  · split
    · exact ⟨rfl, rfl, rfl, rfl⟩
    · dsimp only
      split
      · exact nextSlot_loops (k := { k with dly := none }) h pc
      · split
        · split
          · exact ⟨rfl, rfl, rfl, rfl⟩
          · exact nextSlot_loops (k := { k with dly := none }) h pc
        · split <;> exact ⟨rfl, rfl, rfl, rfl⟩

/-- Outside repeats and blocks control leaves their registers (R148, R152). -/
theorem advance_loops {k : Core} (hrep : k.rep = .idle) (h : k.lact = 0) : SameLoops k.r (advance c m k).r := by
  unfold advance
  rw [hrep]
  exact afterSlot_loops h _

/-- A slot whose body completed in `t`: its core is that of `t`, charged and moved past the slot. -/
theorem runSlot_core {sl : Slot} (h : slotRuns s c m sl = true) {want : Op → Bool} (hw : want sl.op = true)
    {body : Op → Mode → Bool → State → Eff}
    (hb : body sl.op m (slotCond (slotState s c m) c sl) (slotState s c m) = .done t) (ht : CoresWf t) :
    ∃ u n b, runSlot c want body s = .next u ∧ coreOf u c = advance c m (charge (coreOf t c) n b) := by
  refine ⟨_, slotCost c.stew sl, m = .sample && takesHoard (hoardMode (coreOf t c).r) sl,
    (runSlot_runs h hw body).trans (by rw [hb]; rfl), ?_⟩
  rw [coreOf_settle (ht.setCore _), coreOf_setCore ht]

/-! ### Reads by code -/

section Read
variable (c : CoreRef) (k : Core) {j : Nat}

theorem readCode_d (h : j < 16) : readCode c k j = rf k.r.d j := by
  simp [readCode, show j / 16 = 0 by omega, Nat.mod_eq_of_lt h]

theorem readCode_p (h : 16 ≤ j) (h' : j < 32) : readCode c k j = rf k.r.p (j - 16) := by
  simp [readCode, show j / 16 = 1 by omega, show j % 16 = j - 16 by omega]

theorem readCode_b (h : 32 ≤ j) (h' : j < 48) : readCode c k j = rf k.r.b (j - 32) := by
  simp [readCode, show j / 16 = 2 by omega, show j % 16 = j - 32 by omega]

theorem readCode_l (h : 48 ≤ j) (h' : j < 64) : readCode c k j = rf k.r.l (j - 48) := by
  simp [readCode, show j / 16 = 3 by omega, show j % 16 = j - 48 by omega]

/-- A modifier is read sign-extended. -/
theorem readCode_m (h : 64 ≤ j) (h' : j < 80) :
    readCode c k j = BitVec.ofInt 32 (toSigned (rf k.r.m (j - 64)).toNat (ptrBits c)) := by
  simp [readCode, mSigned, show j / 16 = 4 by omega, show j % 16 = j - 64 by omega]

theorem readCode_e (h : 0x50 ≤ j) (h' : j < 0x54) : readCode c k j = rf k.r.e (j - 0x50) := by
  simp [readCode, show j / 16 = 5 by omega, h']

theorem readCode_ls (h : 0x55 ≤ j) (h' : j < 0x58) : readCode c k j = rf k.r.ls (j - 0x55) := by
  simp [readCode, show j / 16 = 5 by omega, show ¬ j < 0x54 by omega, show j ≠ 0x54 by omega, h']

theorem readCode_le (h : 0x58 ≤ j) (h' : j < 0x5B) : readCode c k j = rf k.r.le (j - 0x58) := by
  simp [readCode, show j / 16 = 5 by omega, show ¬ j < 0x54 by omega, show j ≠ 0x54 by omega, show ¬ j < 0x58 by omega, h']

theorem readCode_lc (h : 0x5B ≤ j) (h' : j < 0x5E) : readCode c k j = rf k.r.lc (j - 0x5B) := by
  simp [readCode, show j / 16 = 5 by omega, show ¬ j < 0x54 by omega, show j ≠ 0x54 by omega, show ¬ j < 0x58 by omega,
    show ¬ j < 0x5B by omega, h']

end Read

/-! ### Writes by code -/

section Write
variable (c : CoreRef) (m : Mode) (k : Core) (v : Word) {j : Nat}

theorem writeCode_d (h : j < 16) : writeCode c m k j v = { k with r := setD k.r j v } := by
  simp [writeCode, setD, show j / 16 = 0 by omega, Nat.mod_eq_of_lt h]

theorem writeCode_p (h : 16 ≤ j) (h' : j < 32) :
    writeCode c m k j v = { k with r := { k.r with p := rfSet k.r.p (j - 16) (lowBits v (ptrBits c)) } } := by
  simp [writeCode, show j / 16 = 1 by omega, show j % 16 = j - 16 by omega]

theorem writeCode_b (h : 32 ≤ j) (h' : j < 48) :
    writeCode c m k j v = { k with r := { k.r with b := rfSet k.r.b (j - 32) (lowBits v (ptrBits c)) } } := by
  simp [writeCode, show j / 16 = 2 by omega, show j % 16 = j - 32 by omega]

theorem writeCode_l (h : 48 ≤ j) (h' : j < 64) :
    writeCode c m k j v = { k with r := { k.r with l := rfSet k.r.l (j - 48) (lowBits v (ptrBits c)) } } := by
  simp [writeCode, show j / 16 = 3 by omega, show j % 16 = j - 48 by omega]

theorem writeCode_m (h : 64 ≤ j) (h' : j < 80) :
    writeCode c m k j v = { k with r := { k.r with m := rfSet k.r.m (j - 64) (lowBits v (ptrBits c)) } } := by
  simp [writeCode, show j / 16 = 4 by omega, show j % 16 = j - 64 by omega]

theorem writeCode_e (h : 0x50 ≤ j) (h' : j < 0x54) :
    writeCode c m k j v = { k with r := { k.r with e := rfSet k.r.e (j - 0x50) v } } := by
  simp [writeCode, show j / 16 = 5 by omega, h']

theorem writeCode_ls (h : 0x55 ≤ j) (h' : j < 0x58) :
    writeCode c m k j v = { k with r := { k.r with ls := rfSet k.r.ls (j - 0x55) (lowBits v (loopBits c)) } } := by
  simp [writeCode, show j / 16 = 5 by omega, show ¬ j < 0x54 by omega, show j ≠ 0x54 by omega, h']

theorem writeCode_le (h : 0x58 ≤ j) (h' : j < 0x5B) :
    writeCode c m k j v = { k with r := { k.r with le := rfSet k.r.le (j - 0x58) (lowBits v (loopBits c)) } } := by
  simp [writeCode, show j / 16 = 5 by omega, show ¬ j < 0x54 by omega, show j ≠ 0x54 by omega, show ¬ j < 0x58 by omega, h']

theorem writeCode_lc (h : 0x5B ≤ j) (h' : j < 0x5E) :
    writeCode c m k j v = { k with r := { k.r with lc := rfSet k.r.lc (j - 0x5B) (clampCount v) } } := by
  simp [writeCode, show j / 16 = 5 by omega, show ¬ j < 0x54 by omega, show j ≠ 0x54 by omega, show ¬ j < 0x58 by omega,
    show ¬ j < 0x5B by omega, h']

/-- No code reaches the record of active levels, and a core outside repeats stays outside. -/
theorem writeCode_control (hrep : k.rep = .idle) (j : Nat) : (writeCode c m k j v).rep = .idle ∧ (writeCode c m k j v).lact = k.lact := by
  unfold writeCode
  dsimp only
  repeat' split
  all_goals exact ⟨by simp [hrep, detach], rfl⟩

end Write

theorem rf_rfSet {f : List (Nat × Word)} (h : smWf (fun _ => (0 : Word)) 0 f = true) (n : Nat) (w : Word) : rf (rfSet f n w) n = w :=
  smGet_smSet_same h n w

/-- KMODE after a write by code (R75, R345): HOARD stays in sample mode and is 0 on a steward. -/
theorem kmodeWrite_bits (m : Mode) (old : BitVec 3) (v : Word) :
    (kmodeWrite m old v).getLsbD 0 = v.getLsbD 0 ∧ (kmodeWrite m old v).getLsbD 2 = v.getLsbD 2 ∧
      (kmodeWrite m old v).getLsbD 1 =
        match m with | .sample => old.getLsbD 1 | .test => v.getLsbD 1 | .steward => false := by
  have hbit (n i : Nat) : n.testBit i = decide (n / 2 ^ i % 2 = 1) := Nat.testBit_eq_decide_div_mod_eq
  cases m
  all_goals
    simp [kmodeWrite, BitVec.getLsbD, hbit]
    omega

/-- IPL after a write by code (R160): LEVEL is at most 4. -/
theorem iplWrite_fields (f : FreeRegs) (v : Word) :
    iplExc { f with ipl := iplWrite v } = v.getLsbD 4 ∧ iplIE { f with ipl := iplWrite v } = v.getLsbD 3 ∧
      iplLevel { f with ipl := iplWrite v } = min 4 (v.toNat % 8) := by
  have hbit (n i : Nat) : n.testBit i = decide (n / 2 ^ i % 2 = 1) := Nat.testBit_eq_decide_div_mod_eq
  simp [iplExc, iplIE, iplLevel, iplWrite, BitVec.getLsbD, hbit]
  omega

/-- IVB holds an address of a multiple of 512. -/
theorem ivb_mask (v : Word) : BitVec.ofNat 32 (v.toNat % 2 ^ 29 / 512 * 512) = lowBits v 29 &&& 0xFFFFFE00 := by
  have hmask : ∀ i < 32, (0xFFFFFE00 : Word).getLsbD i = decide (9 ≤ i) := by decide
  refine BitVec.eq_of_getLsbD_eq fun i hi => ?_
  rw [BitVec.getLsbD_and, hmask i hi, lowBits, BitVec.getLsbD_ofNat, BitVec.getLsbD_ofNat,
    show (512 : Nat) = 2 ^ 9 by rfl, Nat.testBit_mul_two_pow, Nat.testBit_div_two_pow]
  by_cases h : 9 ≤ i
  · rw [Nat.sub_add_cancel h]
    simp [h]
  · simp [h]

theorem clampCount_min (v : Word) : clampCount v = BitVec.ofNat 32 (min 4096 v.toNat) := by
  unfold clampCount
  split
  · rw [Nat.min_eq_left (by omega)]
    rfl
  · rw [Nat.min_eq_right (by omega), BitVec.ofNat_toNat, BitVec.setWidth_eq]

/-- What a write of `v` to a register code leaves of a core that held `k0`, outside repeats and blocks also of their registers. -/
def CodeWritten (c : CoreRef) (m : Mode) (k0 : Core) (k : Nat) (v : Word) (x : Core) : Prop :=
  (k < 16 → rf x.r.d k = v) ∧
  (16 ≤ k → k < 32 → rf x.r.p (k - 16) = lowBits v (ptrBits c)) ∧
  (32 ≤ k → k < 48 → rf x.r.b (k - 32) = lowBits v (ptrBits c)) ∧
  (48 ≤ k → k < 64 → rf x.r.l (k - 48) = lowBits v (ptrBits c)) ∧
  (64 ≤ k → k < 80 → rf x.r.m (k - 64) = lowBits v (ptrBits c)) ∧
  (0x50 ≤ k → k < 0x54 → rf x.r.e (k - 0x50) = v) ∧
  (k0.rep = .idle → k0.lact = 0 → (k = 0x54 → x.r.rpc = BitVec.ofNat 32 (min 4096 v.toNat)) ∧
    (0x55 ≤ k → k < 0x58 → rf x.r.ls (k - 0x55) = lowBits v (loopBits c)) ∧
    (0x58 ≤ k → k < 0x5B → rf x.r.le (k - 0x58) = lowBits v (loopBits c)) ∧
    (0x5B ≤ k → k < 0x5E → rf x.r.lc (k - 0x5B) = BitVec.ofNat 32 (min 4096 v.toNat))) ∧
  (k = 0x5E → x.r.ix = v) ∧ (k = 0x5F → x.r.flg = BitVec.ofNat 7 v.toNat) ∧
  (k = 0x60 → x.r.kmode.getLsbD 0 = v.getLsbD 0 ∧ x.r.kmode.getLsbD 2 = v.getLsbD 2 ∧
    x.r.kmode.getLsbD 1 = match m with | .sample => k0.r.kmode.getLsbD 1 | .test => v.getLsbD 1 | .steward => false) ∧
  (m ≠ .sample → (k = 0x68 → x.free.ra = lowBits v 29) ∧ (k = 0x69 → x.free.epc = lowBits v 29) ∧
    (k = 0x6A → x.free.eflg = lowBits v 16) ∧ (k = 0x6B → x.free.ivb = lowBits v 29 &&& 0xFFFFFE00) ∧
    (k = 0x6C → x.free.icause = k0.free.icause) ∧
    (k = 0x6D → iplExc x.free = v.getLsbD 4 ∧ iplIE x.free = v.getLsbD 3 ∧ iplLevel x.free = min 4 (v.toNat % 8)))

/-- A core that control took past a write by code (R92, R129, R160). -/
theorem codeWritten_advance {k0 x : Core} (hw : k0.r.wf = true) (k : Nat) (v : Word) (n : Nat) (b : Bool)
    (hx : x = advance c m (charge (writeCode c m k0 k v) n b)) : CodeWritten c m k0 k v x := by
  have hwf := hw
  simp only [Regs.wf, List.all_cons, List.all_nil, Bool.and_eq_true, Bool.and_true] at hwf
  obtain ⟨-, hd, he, hp, hb, hl, hm, hls, hle, hlc⟩ := hwf
  obtain ⟨⟨xd, -, xe, xp, xb, xl, xm, xix, xflg, xkmode⟩, xfree, -⟩ : SameCore (writeCode c m k0 k v) x := by
    rw [hx]
    exact (sameCore_charge _ n b).trans (sameCore_advance _)
  have hloops (hrep : k0.rep = .idle) (hlact : k0.lact = 0) : SameLoops (writeCode c m k0 k v).r x.r := by
    obtain ⟨hrep', hlact'⟩ := writeCode_control c m k0 v hrep k
    rw [hx]
    exact advance_loops (k := charge (writeCode c m k0 k v) n b) hrep' (hlact'.trans hlact)
  refine ⟨?d, ?p, ?b, ?l, ?m, ?e, ?loops, ?ix, ?flg, ?kmode, ?free⟩
  case d => exact fun h => by rw [xd, writeCode_d _ _ _ _ h]; exact rf_rfSet hd _ _
  case p => exact fun h h' => by rw [xp, writeCode_p _ _ _ _ h h']; exact rf_rfSet hp _ _
  case b => exact fun h h' => by rw [xb, writeCode_b _ _ _ _ h h']; exact rf_rfSet hb _ _
  case l => exact fun h h' => by rw [xl, writeCode_l _ _ _ _ h h']; exact rf_rfSet hl _ _
  case m => exact fun h h' => by rw [xm, writeCode_m _ _ _ _ h h']; exact rf_rfSet hm _ _
  case e => exact fun h h' => by rw [xe, writeCode_e _ _ _ _ h h']; exact rf_rfSet he _ _
  case loops =>
    intro hrep hlact
    obtain ⟨xrpc, xls, xle, xlc⟩ := hloops hrep hlact
    refine ⟨?rpc, ?ls, ?le, ?lc⟩
    case rpc => rintro rfl; exact xrpc.trans (clampCount_min v)
    case ls => exact fun h h' => by rw [xls, writeCode_ls _ _ _ _ h h']; exact rf_rfSet hls _ _
    case le => exact fun h h' => by rw [xle, writeCode_le _ _ _ _ h h']; exact rf_rfSet hle _ _
    case lc =>
      intro h h'
      rw [xlc, writeCode_lc _ _ _ _ h h', ← clampCount_min]
      exact rf_rfSet hlc _ _
  case ix => rintro rfl; exact xix
  case flg => rintro rfl; exact xflg
  case kmode => rintro rfl; rw [xkmode]; exact kmodeWrite_bits m k0.r.kmode v
  case free =>
    rw [xfree]
    refine fun _ => ⟨?ra, ?epc, ?eflg, ?ivb, ?icause, ?ipl⟩
    case ra => rintro rfl; rfl
    case epc => rintro rfl; rfl
    case eflg => rintro rfl; rfl
    case ivb => rintro rfl; exact ivb_mask v
    case icause => rintro rfl; rfl
    case ipl => rintro rfl; exact iplWrite_fields k0.free v

/-- LDI writes the register that its code names (R92, R129). -/
theorem ldi_effect {cd : Cond} {cb k : Nat} {v : Word} (h : slotRuns s c m ⟨cd, cb, .ldi k v⟩ = true) :
    ∃ u, exec (.ldi c) s = .next u ∧ CodeWritten c m (coreOf (slotState s c m) c) k v (coreOf u c) := by
  have hwf := slotRuns_wf h
  obtain ⟨u, n, b, hu, hcore⟩ := runSlot_core h (want := isLdi) rfl (body := moveBody c) rfl ((State.coresWf hwf).setCore _)
  rw [coreOf_setCore (State.coresWf hwf)] at hcore
  exact ⟨u, hu, codeWritten_advance (regsOf_wf hwf c) k v n b hcore⟩

/-- MOV writes what it reads by its source's code (R92, R129). -/
theorem mov_effect {cd : Cond} {cb k j : Nat} (h : slotRuns s c m ⟨cd, cb, .mov k j⟩ = true) :
    ∃ u, exec (.mov c) s = .next u ∧
      CodeWritten c m (coreOf (slotState s c m) c) k (readCode c (coreOf (slotState s c m) c) j) (coreOf u c) := by
  have hwf := slotRuns_wf h
  obtain ⟨u, n, b, hu, hcore⟩ := runSlot_core h (want := isMov) rfl (body := moveBody c) rfl ((State.coresWf hwf).setCore _)
  rw [coreOf_setCore (State.coresWf hwf)] at hcore
  exact ⟨u, hu, codeWritten_advance (regsOf_wf hwf c) k _ n b hcore⟩

end Sys2Proof.Machine
end

section
/-! PROOFS. The parallel move (R87, R102, R111): the registers that it leaves of its core, and the accumulator instructions beside it. -/
namespace Sys2Proof.Machine

variable {s t : State} {c : CoreRef} {m : Mode}

/-! ### Flags -/

theorem flags_mkFlg_rest (z n c v vs sat dz : Bool) :
    flagC (mkFlg z n c v vs sat dz) = c ∧ flagVS (mkFlg z n c v vs sat dz) = vs ∧ flagSAT (mkFlg z n c v vs sat dz) = sat := by
  revert z n c v vs sat dz
  decide

/-- V after a flag set or cleared it. -/
theorem flagV_setV (f : Flg) (v : Bool) : flagV (setV f v) = v := (flags_mkFlg _ _ _ _ _ _ _).2.2

theorem flagV_addSAT (f : Flg) (b : Bool) : flagV (addSAT f b) = flagV f := (flags_mkFlg _ _ _ _ _ _ _).2.2

/-- A move that stores an accumulator sets V, VS and SAT as the store gives and leaves Z, N and C (R111). -/
theorem mergeStore_flags (f : Flg) (mainV : Bool) (st : StoreRes) :
    flagV (mergeStore f mainV st) = ((mainV && flagV f) || st.v) ∧
      flagVS (mergeStore f mainV st) = (flagVS f || ((mainV && flagV f) || st.v)) ∧
      flagSAT (mergeStore f mainV st) = (flagSAT f || st.sat) ∧ flagZ (mergeStore f mainV st) = flagZ f ∧
      flagN (mergeStore f mainV st) = flagN f ∧ flagC (mergeStore f mainV st) = flagC f := by
  simp only [mergeStore, addSAT, setV, flags_mkFlg, flags_mkFlg_rest, and_self]

/-! ### The registers after a parallel move -/

/-- The registers after a parallel move stored A`a` of `r0`: the flags merged with the main operation's, the residue captured. -/
def storeRegs (r0 : Regs) (mainV : Bool) (a : Nat) (r : Regs) : Regs :=
  captureRes { r with flg := mergeStore r.flg mainV (store32 (satMode r0) (accOf r0 a)) } a (store32 (satMode r0) (accOf r0 a))

/-- The registers that a parallel move leaves where the main operation left `r`: its sources are those of `r0`. -/
def moveRegs (r0 : Regs) (mainV : Bool) (pm : PMove) (ldv : Word) (r : Regs) : Regs :=
  match pm with
  | .none | .stlD _ _ => r
  | .ldl _ d => setD r d ldv
  | .stlA _ a => storeRegs r0 mainV a r
  | .mov dd ds => setD r dd (rf r0.d ds)
  | .sta dd a => setD (storeRegs r0 mainV a r) dd (store32 (satMode r0) (accOf r0 a)).val

theorem storeRegs_frame (r0 : Regs) (mainV : Bool) (a : Nat) (r : Regs) :
    ∃ e, storeRegs r0 mainV a r = { r with flg := mergeStore r.flg mainV (store32 (satMode r0) (accOf r0 a)), e := e } :=
  captureRes_frame _ _ _

/-- No parallel move writes an accumulator. -/
theorem moveRegs_a (r0 : Regs) (mainV : Bool) (pm : PMove) (ldv : Word) (r : Regs) : (moveRegs r0 mainV pm ldv r).a = r.a := by
  cases pm with
  | none | ldl | stlD | mov => rfl
  | stlA l a | sta l a =>
    obtain ⟨e, he⟩ := storeRegs_frame r0 mainV a r
    simp only [moveRegs, setD, he]

/-- V beside a main operation that writes it (R111). -/
theorem moveRegs_flagV (r0 : Regs) (pm : PMove) (ldv : Word) (r : Regs) :
    flagV (moveRegs r0 true pm ldv r).flg = (flagV r.flg || moveSetsV r0 pm) := by
  cases pm with
  | none | ldl | stlD | mov => exact (Bool.or_false _).symm
  | stlA l a | sta l a =>
    obtain ⟨e, he⟩ := storeRegs_frame r0 true a r
    simp only [moveRegs, setD, he, moveSetsV, (mergeStore_flags _ _ _).1, Bool.true_and]

/-! ### The state after a parallel move -/

/-- A kernel set with the core that it has. -/
theorem coreOf_setKern_same (h : CoresWf s) {x : Kern} (hx : x.core = (kern s c.die c.idx).core) :
    coreOf (Machine.setKern s c.die c.idx x) c = coreOf s c := by
  unfold coreOf
  split
  · rfl
  · exact (congrArg Kern.core (smGet_smSet_same h.1 _ _)).trans hx

/-- A store to a line changes at most the slipface lines and, but for its core, the kernel. -/
theorem storeLine_cases (s : State) (c : CoreRef) (l : LineOp) (v : Word) :
    storeLine s c l v = s ∨ ∃ x y, storeLine s c l v = { Machine.setKern s c.die c.idx x with slip := y } ∧
      x.core = (kern s c.die c.idx).core := by
  unfold storeLine
  dsimp only
  split
  case h_3 => exact .inl rfl
  all_goals
    split
    · exact .inr ⟨_, _, rfl, rfl⟩
    · split <;> exact .inr ⟨_, _, rfl, rfl⟩

/-- It leaves its core. -/
theorem storeLine_core (h : CoresWf s) (l : LineOp) (v : Word) :
    CoresWf (storeLine s c l v) ∧ coreOf (storeLine s c l v) c = coreOf s c := by
  obtain heq | ⟨x, y, heq, hx⟩ := storeLine_cases s c l v
  · rw [heq]
    exact ⟨h, rfl⟩
  · rw [heq]
    exact ⟨h.setKern c.die c.idx x, coreOf_setKern_same h hx⟩

/-- The core after a parallel move. -/
theorem movePM_core (h : CoresWf s) (r0 : Regs) (mainV : Bool) (pm : PMove) (ldv : Word) :
    CoresWf (movePM c r0 mainV pm ldv s) ∧
      coreOf (movePM c r0 mainV pm ldv s) c = { coreOf s c with r := moveRegs r0 mainV pm ldv (regsOf s c) } := by
  cases pm with
  | none => exact ⟨h, rfl⟩
  | ldl l d => exact ⟨h.updRegs _, coreOf_updRegs h _⟩
  | stlD l d => exact storeLine_core h l _
  | stlA l a =>
    obtain ⟨hw, hcore⟩ := storeLine_core (h.updRegs (c := c) (storeRegs r0 mainV a)) l (store32 (satMode r0) (accOf r0 a)).val
    exact ⟨hw, hcore.trans (coreOf_updRegs h _)⟩
  | mov dd ds => exact ⟨h.updRegs _, coreOf_updRegs h _⟩
  | sta dd a => exact ⟨h.updRegs _, coreOf_updRegs h _⟩

/-- What a slot of the multiply class leaves whose operands were read in `w` and whose main operation changes registers by `f`: the
registers of its core, and on a kernel all else as the parallel move left it. -/
theorem runSlot_withPM {w : State} {sl : Slot} (h : slotRuns s c m sl = true) {want : Op → Bool} (hwant : want sl.op = true)
    {body : Op → Mode → Bool → State → Eff} {mainV : Bool} {pm : PMove} {f : Regs → Regs}
    (hb : body sl.op m (slotCond (slotState s c m) c sl) (slotState s c m) = withPM c mainV pm f w) (hw : CoresWf w) :
    ∃ u, runSlot c want body s = .next u ∧
      SameData (moveRegs (regsOf w c) mainV pm (pmLoad w c pm) (f (regsOf w c))) (regsOf u c) ∧
      (c.stew = false → ∃ k, u = setCore (movePM c (regsOf w c) mainV pm (pmLoad w c pm) (updRegs w c f)) c k) := by
  obtain ⟨hcores, hcore⟩ := movePM_core (c := c) (hw.updRegs (c := c) f) (regsOf w c) mainV pm (pmLoad w c pm)
  obtain ⟨u, hu, ⟨hdata, -, -⟩⟩ := finishSlot_done (s := s) (sl := sl) (m := m) (c := c) hcores
  have hrun := (runSlot_runs h hwant body).trans ((congrArg (finishSlot s c m sl) hb).trans hu)
  refine ⟨u, hrun, ?_, fun hc => ?_⟩
  · rw [hcore] at hdata
    simpa only [regsOf, coreOf_updRegs hw] using hdata
  · obtain ⟨k, hk, -, -⟩ := runSlot_done hc h hwant hb
    exact ⟨k, Host.Outcome.next.inj (hrun.symm.trans hk)⟩

/-! ### Accumulator instructions (R115, R125–R127) -/

theorem accOf_setAcc {r : Regs} (ha : smWf (fun _ => (0 : Acc)) 0 r.a = true) (n : Nat) (v : Acc) : accOf (setAcc r n v) n = v :=
  smGet_smSet_same ha n v

/-- An instruction on accumulators: the accumulators are those of the main operation, and so are V, unless the parallel move sets it, and,
beside no parallel move, FLG and the E registers. -/
theorem acc_effect {cd : Cond} {cb : Nat} {op : Op} {pm : PMove} {mainV : Bool} {f : Regs → Regs} {want : Op → Bool}
    (h : slotRuns s c m ⟨cd, cb, op⟩ = true) (hwant : want op = true)
    (hb : accBody c op m (slotCond (slotState s c m) c ⟨cd, cb, op⟩) (slotState s c m) = withPM c mainV pm f (slotState s c m)) :
    let r := slotRegs s c m
    ∃ u, runSlot c want (accBody c) s = .next u ∧ (∀ n, accOf (regsOf u c) n = accOf (f r) n) ∧
      (pm = .none → (regsOf u c).flg = (f r).flg ∧ (regsOf u c).e = (f r).e) ∧
      (mainV = true → flagV (regsOf u c).flg = (flagV (f r).flg || moveSetsV r pm)) := by
  obtain ⟨u, hu, ⟨-, ha, he, -, -, -, -, -, hflg, -⟩, -⟩ := runSlot_withPM h hwant hb (State.coresWf (slotRuns_wf h))
  refine ⟨u, hu, fun n => ?_, ?_, ?_⟩
  · rw [accOf, ha, moveRegs_a]
    rfl
  · rintro rfl
    exact ⟨hflg, he⟩
  · rintro rfl
    rw [hflg, moveRegs_flagV]
    rfl

/-- The shift of ASH and SHACC by the sign of its count (R115). -/
theorem ashRes_cases {w : Nat} (f : Flg) (sat : Bool) (x : BitVec w) (g : Int) :
    let y := x.toInt * (2 ^ g.toNat : Nat)
    (g = 0 → (ashRes f sat x g).val = x) ∧
      (g < 0 → (ashRes f sat x g).val = BitVec.ofInt w (x.toInt / (2 ^ (-g).toNat : Nat))) ∧
      (0 < g → (ashRes f sat x g).val =
        if outOfRange w y && sat then (if x.msb then minNeg w else maxPos w) else BitVec.ofInt w y) ∧
      flagV (ashRes f sat x g).flg = (decide (0 < g) && outOfRange w y) := by
  extract_lets y
  obtain hg | rfl | hg := Int.lt_trichotomy g 0
  · have hne : g ≠ 0 := by omega
    have hle : ¬ 0 < g := by omega
    simp [ashRes, hne, hg, hle, flagV_setV]
  · simp [ashRes, flagV_setV]
  · have hne : g ≠ 0 := by omega
    have hge : ¬ g < 0 := by omega
    simp [ashRes, hne, hge, hg, flagV_setV, flagV_addSAT, y]

/-- The exact sum of an accumulator and a residue, reduced. -/
theorem accRes_add (f : Flg) (x : Acc) (e : Word) :
    (accRes f (x.toInt + (e.toNat : Int))).val = x + BitVec.ofNat 72 e.toNat := by
  simp only [accRes, BitVec.ofInt_add, BitVec.ofInt_toInt, BitVec.ofInt_natCast]

/-- STA to a D register (R70, R126). -/
theorem sta_register {cd : Cond} {cb n dd : Nat} (h : slotRuns s c m ⟨cd, cb, .staD n dd⟩ = true) :
    let r := slotRegs s c m
    let st := store32 (satMode r) (accOf r n)
    ∃ u, exec (.sta c) s = .next u ∧ rf (regsOf u c).d dd = st.val ∧ flagZ (regsOf u c).flg = decide (st.val = 0) ∧
      flagV (regsOf u c).flg = !fits32 (accOf r n) ∧ rf (regsOf u c).e n = if rescap r then st.res else rf r.e n := by
  intro r st
  have hwf := slotRuns_wf h
  obtain ⟨u, hu, ⟨hd, -, he, -, -, -, -, -, hflg, -⟩, -⟩ := runSlot_regs h (want := isSta) rfl (body := staBody c)
    (f := fun q => setD (staRegs n st q) dd st.val) rfl
  obtain ⟨f, e, hframe⟩ := staRegs_frame n st r
  have hfile : smWf (fun _ => (0 : Word)) 0 (staRegs n st r).d = true := by
    rw [hframe]
    exact regsOf_d_wf hwf c
  obtain ⟨hz, -, hv⟩ := staRegs_flags n st r
  refine ⟨u, hu, ?_, ?_, ?_, ?_⟩
  · rw [hd]
    exact rf_setD hfile dd _
  · rw [hflg]
    exact hz
  · rw [hflg]
    exact hv.trans (store32_v _ _)
  · rw [he]
    exact staRegs_e (regsOf_files_wf hwf c).2.1 n st

/-- Settles O8: CLRA, MOVA, SHACC and RESADD by what the multiply class leaves of the accumulators, LDI and MOV by what a write by
code leaves of the core. -/
theorem accumulatorAndRegisterMoves : Obligations.AccumulatorAndRegisterMoves := by
  refine ⟨?clra, ?movaA, ?movaD, ?shacc, ?resadd, ?sta, ?ldi, ?mov⟩
  case clra =>
    intro s c m cd cb n pm h
    obtain ⟨u, hu, hacc, hnone, -⟩ := acc_effect h (want := isClra) rfl rfl
    exact ⟨u, hu, (hacc n).trans (accOf_setAcc (regsOf_files_wf (slotRuns_wf h) c).1 _ _), hnone⟩
  case movaA =>
    intro s c m cd cb n k pm h
    obtain ⟨u, hu, hacc, hnone, -⟩ := acc_effect h (want := isMova) rfl rfl
    exact ⟨u, hu, (hacc n).trans (accOf_setAcc (regsOf_files_wf (slotRuns_wf h) c).1 _ _), fun hpm => (hnone hpm).1⟩
  case movaD =>
    intro s c m cd cb n d pm h
    obtain ⟨u, hu, hacc, hnone, -⟩ := acc_effect h (want := isMova) rfl rfl
    exact ⟨u, hu, (hacc n).trans (accOf_setAcc (regsOf_files_wf (slotRuns_wf h) c).1 _ _), fun hpm => (hnone hpm).1⟩
  case shacc =>
    intro s c m cd cb n k pm r x g h
    obtain ⟨u, hu, hacc, -, hv⟩ := acc_effect h (want := isShacc) rfl rfl
    have hval := (hacc n).trans (accOf_setAcc (regsOf_files_wf (slotRuns_wf h) c).1 _ _)
    obtain ⟨hzero, hneg, hpos, hflagV⟩ := ashRes_cases r.flg (satMode r) x g
    exact ⟨u, hu, fun hg => hval.trans (hzero hg), fun hg => hval.trans (hneg hg), fun hg => hval.trans (hpos hg),
      (hv rfl).trans (congrArg (· || moveSetsV r pm) hflagV)⟩
  case resadd =>
    intro s c m cd cb n pm r h
    obtain ⟨u, hu, hacc, hnone, hv⟩ := acc_effect h (want := isResadd) rfl rfl
    have hval := (hacc n).trans (accOf_setAcc (regsOf_files_wf (slotRuns_wf h) c).1 _ _)
    exact ⟨u, hu, hval.trans (accRes_add r.flg _ _), fun hpm => (hnone hpm).2,
      (hv rfl).trans (congrArg (· || moveSetsV r pm) (flagV_setV _ _))⟩
  case sta =>
    intro s c m cd cb n dd r st h
    obtain ⟨u, hu, hval, hz, hv, he⟩ := sta_register h
    exact ⟨u, hu, hval, hz, hv, fun hcap => he.trans (if_pos hcap)⟩
  case ldi => exact fun s c m cd cb k v h => ldi_effect h
  case mov =>
    intro s c m cd cb k j k0 v h
    obtain ⟨u, hu, hwritten⟩ := mov_effect h
    have hcode (n : Nat) (hj : j = n) : v = readCode c k0 n := congrArg (readCode c k0) hj
    exact ⟨u, hu, readCode_d c k0, readCode_p c k0, readCode_b c k0, readCode_l c k0, readCode_m c k0, readCode_e c k0, hcode 0x54,
      readCode_ls c k0, readCode_le c k0, readCode_lc c k0, hcode 0x5E, hcode 0x5F, hcode 0x60, hcode 0x68, hcode 0x69, hcode 0x6A,
      hcode 0x6B, hcode 0x6C, hcode 0x6D, hwritten⟩

end Sys2Proof.Machine
end

section
/-! PROOFS. Operands of the multiply class: what a kernel's reads of S1 and S2 leave of its state (R61, R63, R135, R174, R177). -/
namespace Sys2Proof.Machine

variable {s t : State} {c : CoreRef} {m : Mode}

/-- The registers that a kernel's operands can write: the records of corrected words and of row repair. -/
def operandRegs (c : CoreRef) : List Nat :=
  [Reg.KERNEL_ECC c.die c.idx, Reg.POD_ECC c.die (c.idx / 18), Reg.POD_REPAIR c.die (c.idx / 18), Reg.SPARE_STAT c.die]

/-- `t` is canonical and differs from `s` at most in those registers, in ECC marks, in rows, and in the Hoard values that the kernel
has noted. -/
structure OperandFrame (c : CoreRef) (s t : State) : Prop where
  wf : t.wf = true
  regs : RegsBut s t (operandRegs c)
  kern : ∃ xs, kern t c.die c.idx = { kern s c.die c.idx with hoardIn := xs }
  rest : { t with regs := s.regs, kern := s.kern, ecc := s.ecc, rows := s.rows } = s

namespace OperandFrame

theorem refl (h : s.wf = true) : OperandFrame c s s := ⟨h, fun _ _ => rfl, ⟨_, rfl⟩, rfl⟩

theorem setFld (h : OperandFrame c s t) {r : Nat} (hr : r ∈ operandRegs c) (f : Fld) (v : Nat) : OperandFrame c s (setFld t r f v) := by
  obtain ⟨hwf, hregs, hkern, hrest⟩ := h
  refine ⟨State.wf_setFld hwf r f v, fun b hb => ?_, hkern, hrest⟩
  rw [Machine.setFld, reg_setReg hwf, if_neg (ne_of_mem_of_not_mem hr hb).symm, hregs b hb]

theorem satFld (h : OperandFrame c s t) {r : Nat} (hr : r ∈ operandRegs c) (f : Fld) : OperandFrame c s (satFld t r f) := by
  unfold Machine.satFld
  split
  · exact h.setFld hr f _
  · exact h

theorem setEcc (h : OperandFrame c s t) (a : Nat) (x : EccMark) : OperandFrame c s (setEcc t a x) := by
  obtain ⟨hwf, hregs, hkern, hrest⟩ := h
  exact ⟨State.wf_setEcc hwf a x, fun b hb => hregs b hb, hkern, hrest⟩

theorem setRows (h : OperandFrame c s t) (d p : Nat) (x : Rows) : OperandFrame c s (setRows t d p x) := by
  obtain ⟨hwf, hregs, hkern, hrest⟩ := h
  exact ⟨State.wf_setRows hwf d p x, fun b hb => hregs b hb, hkern, hrest⟩

theorem noteHoardRead (h : OperandFrame c s t) (hc : c.stew = false) (v : Word) :
    OperandFrame c s (noteHoardRead t c.die c.idx v) := by
  obtain ⟨hwf, hregs, ⟨xs, hkern⟩, hrest⟩ := h
  have hcore := coreOf_wf hwf c
  rw [coreOf_kernel hc] at hcore
  refine ⟨State.wf_setKern hwf _ _ _ hcore, fun b hb => hregs b hb, ⟨xs ++ [v], ?_⟩, hrest⟩
  refine (smGet_smSet_same (State.wf_kern hwf) _ _).trans ?_
  rw [hkern]

theorem kernelCorrected (h : OperandFrame c s t) (n w a : Nat) (b : Bool) :
    OperandFrame c s (kernelCorrected t c.die c.idx n b w a) := by
  have hr : Reg.KERNEL_ECC c.die c.idx ∈ operandRegs c := by simp [operandRegs]
  exact ((((h.satFld hr _).setFld hr _ _).setFld hr _ _).setFld hr _ _).setEcc a _

theorem orderRepair (h : OperandFrame c s t) (row : Nat) : OperandFrame c s (orderRepair t c.die (c.idx / 18) row) := by
  unfold Machine.orderRepair
  dsimp only
  split
  · exact h
  · split
    · exact (h.setRows _ _ _).setFld (by simp [operandRegs]) _ _
    · split
      · exact h.setRows _ _ _
      · exact (h.setRows _ _ _).setFld (by simp [operandRegs]) _ _

theorem hoardCorrected (h : OperandFrame c s t) (w : Nat) : OperandFrame c s (hoardCorrected t c.die (c.idx / 18) w) := by
  have hr : Reg.POD_ECC c.die (c.idx / 18) ∈ operandRegs c := by simp [operandRegs]
  have hmarked := ((((h.satFld hr F.POD_ECC_CORR).setFld hr F.POD_ECC_BANK (w / 2 ^ 14)).setFld hr F.POD_ECC_ROW
    (w / 64 % 256)).setEcc (hoardA c.die (c.idx / 18) w) .clean)
  unfold Machine.hoardCorrected tallyRow
  dsimp only
  split
  · exact (hmarked.setRows _ _ _).orderRepair _
  · exact hmarked.setRows _ _ _

/-! ### Reads -/

variable {u : State}

theorem readKernelWord (h : OperandFrame c s t) {n w a : Nat} {b : Bool} {v : Word}
    (hread : readKernelWord t c.die c.idx n b w a = .ok v u) : OperandFrame c s u := by
  unfold Machine.readKernelWord at hread
  split at hread
  · cases hread; exact h
  · cases hread; exact h.kernelCorrected _ _ _ _
  · cases hread

theorem readHoardWord (h : OperandFrame c s t) {w : Nat} {v : Word} (hread : readHoardWord t c.die (c.idx / 18) w = .ok v u) :
    OperandFrame c s u := by
  unfold Machine.readHoardWord at hread
  split at hread
  · cases hread; exact h
  · cases hread; exact h.hoardCorrected _
  · cases hread

theorem readHoardOp (h : OperandFrame c s t) (hc : c.stew = false) {w : Nat} {v : Word} (hread : readHoardOp t c w = .ok v u) :
    OperandFrame c s u := by
  unfold Machine.readHoardOp at hread
  dsimp only at hread
  split at hread
  · split at hread
    · cases hread; exact h.noteHoardRead hc _
    · cases hread
  · exact h.readHoardWord hread
  · split at hread
    · cases hword : Machine.readHoardWord t c.die (c.idx / 18) w with
      | ok x y =>
        rw [hword] at hread
        cases hread
        exact (h.readHoardWord hword).noteHoardRead hc _
      | _ => rw [hword] at hread; cases hread
    · cases hread

theorem readMem (h : OperandFrame c s t) (hc : c.stew = false) {ptr p : Nat} {v : Word} (hread : readMem t c ptr p = .ok v u) :
    OperandFrame c s u := by
  unfold Machine.readMem at hread
  rw [if_neg (by simp [hc])] at hread
  dsimp only at hread
  split at hread
  · exact h.readKernelWord hread
  · split at hread
    · exact h.readHoardOp hc hread
    · exact h.readKernelWord hread

theorem readDual (h : OperandFrame c s t) (hc : c.stew = false) {o : DualOp} {v : Word} (hread : readDual t c o = .ok v u) :
    OperandFrame c s u := by
  cases o with
  | reg n => cases hread; exact h
  | mem mo => exact h.readMem hc hread

end OperandFrame

/-! ### Accesses in turn -/

theorem gotState_some {α : Type} {g : Got α} (h : gotState g = some t) : ∃ v, g = .ok v t := by
  cases g with
  | ok v u => exact ⟨v, congrArg (Got.ok v) (Option.some.inj h)⟩
  | _ => cases h

theorem Got.andThen_ok {α β : Type} {g : Got α} {f : α → State → Got β} {v : β} (h : g.andThen f = .ok v t) :
    ∃ x u, g = .ok x u ∧ f x u = .ok v t := by
  cases g with
  | ok x u => exact ⟨x, u, rfl, h⟩
  | _ => cases h

theorem OperandFrame.readPair {u : State} (h : OperandFrame c s t) (hc : c.stew = false) {o : DualOp} {v : Word × Word}
    (hread : readPair t c o = .ok v u) : OperandFrame c s u := by
  cases o with
  | reg n => cases hread; exact h
  | mem mo =>
    obtain ⟨re, x, hre, him⟩ := Got.andThen_ok hread
    obtain ⟨im, y, him, heq⟩ := Got.andThen_ok him
    cases heq
    exact (h.readMem hc hre).readMem hc him

/-- The state in which a kernel's operands are read. -/
theorem operandsRead_frame {w : State} {op : Op} (hc : c.stew = false) (hwf : s.wf = true) (h : operandsRead s c op = some w) :
    OperandFrame c s w := by
  have hrefl : OperandFrame c s s := .refl hwf
  cases op with
  | mul f n s1 s2 int pm =>
    unfold operandsRead at h
    dsimp only at h
    split at h
    · obtain ⟨y, hy⟩ := gotState_some h
      obtain ⟨x, t, hx, hy⟩ := Got.andThen_ok hy
      exact (hrefl.readPair hc hx).readPair hc hy
    · obtain ⟨y, hy⟩ := gotState_some h
      obtain ⟨x, t, hx, hy⟩ := Got.andThen_ok hy
      exact (hrefl.readDual hc hx).readDual hc hy
  | search f dd src pm =>
    obtain ⟨x, hx⟩ := gotState_some h
    exact hrefl.readDual hc hx
  | _ =>
    cases h
    exact hrefl

/-! ### What a line reads -/

/-- A line reads the same in states with the same lines, look-ahead and internal rate (R179, R299). -/
theorem readLine_congr (hlines : t.lines = s.lines) (heff : t.laEff = s.laEff) (hhist : t.laHist = s.laHist)
    (hrate : reg t (Reg.PULSE_STAT 0) = reg s (Reg.PULSE_STAT 0)) : readLine t = readLine s := by
  have hline : line t = line s := by funext d n; rw [line, hlines]; rfl
  have hword : laWord t = laWord s := by funext d n; rw [laWord, heff]; rfl
  have hpast : laPast t = laPast s := by funext d n; rw [laPast, hhist]; rfl
  have hlen : laLen t = laLen s := by funext w; simp only [laLen, minLookahead, byRate, rateCode, fld, hrate]
  funext d n
  unfold readLine laEntry
  rw [hline, hword, hpast, hlen]

/-- So does it through the faders of its kernel (R236). -/
theorem kernelLine_congr (hread : readLine t = readLine s) (htabs : t.tabs = s.tabs) : kernelLine t = kernelLine s := by
  have hfade : fadeWord t = fadeWord s := by funext d e w; rw [fadeWord, tab, htabs]; rfl
  have hactive : activeFader t = activeFader s := by
    funext d k n
    unfold activeFader tabRange
    rw [hfade, htabs]
  funext d k n
  unfold kernelLine
  rw [hactive, hfade, hread]

/-- A kernel's operands write neither the target of its pod's spares nor the state of the Pulse. -/
theorem notMem_operandRegs (c : CoreRef) :
    Reg.SPARE_POD c.die (c.idx / 18) ∉ operandRegs c ∧ Reg.PULSE_STAT 0 ∉ operandRegs c := by
  simp only [operandRegs, Reg.KERNEL_ECC, Reg.POD_ECC, Reg.POD_REPAIR, Reg.SPARE_STAT, Reg.SPARE_POD, Reg.PULSE_STAT, regA,
    List.mem_cons, List.not_mem_nil, or_false]
  omega

/-- They leave the value that an LDL of its kernel brings (R36, R130, R189, R236). -/
theorem OperandFrame.ldlValue (h : OperandFrame c s t) (l : LineOp) : ldlValue t c l = ldlValue s c l := by
  obtain ⟨-, hregs, ⟨xs, hkern⟩, hrest⟩ := h
  obtain ⟨htarget, hrate⟩ := notMem_operandRegs c
  cases l with
  | wadi n =>
    have hinput : inputKernel t c.die c.idx = inputKernel s c.die c.idx := by
      simp only [inputKernel, shadowTarget, fld, hkern, hregs _ htarget]
    have hread : readLine t = readLine s :=
      readLine_congr (congrArg State.lines hrest :) (congrArg State.laEff hrest :) (congrArg State.laHist hrest :) (hregs _ hrate)
    simp only [Machine.ldlValue, hinput, kernelLine_congr hread (congrArg State.tabs hrest :)]
  | slip n =>
    have hslip : t.slip = s.slip := (congrArg State.slip hrest :)
    simp only [Machine.ldlValue, slipLine, hkern, hslip]

end Sys2Proof.Machine
end

section
/-! PROOFS. The parallel move of any word of the multiply class (R87, R102, R111, R130–R132). -/
namespace Sys2Proof.Machine

variable {s t w : State} {c : CoreRef} {m : Mode}

/-! ### The main operation -/

/-- What a main operation leaves for a store beside it: the E registers, KMODE, and D registers in canonical form. -/
def SourcesKept (r q : Regs) : Prop :=
  q.e = r.e ∧ q.kmode = r.kmode ∧ (smWf (fun _ => (0 : Word)) 0 r.d = true → smWf (fun _ => (0 : Word)) 0 q.d = true)

theorem SourcesKept.trans {r q u : Regs} (h : SourcesKept r q) (g : SourcesKept q u) : SourcesKept r u := by
  obtain ⟨he, hk, hd⟩ := h
  obtain ⟨ge, gk, gd⟩ := g
  exact ⟨ge.trans he, gk.trans hk, gd ∘ hd⟩

theorem postDual_kept (r : Regs) (o : DualOp) : SourcesKept r (postDual c r o) := by
  cases o with
  | mem mo => exact ⟨rfl, rfl, id⟩
  | reg n => exact ⟨rfl, rfl, id⟩

theorem mulComplex_kept (f : MulFn) (n : Nat) (x y : Word × Word) (r : Regs) : SourcesKept r (mulComplex f n x y r) := by
  cases f
  all_goals exact ⟨rfl, rfl, id⟩

theorem searchD_kept (f : SearchFn) (d : Nat) (v : Word) (a : Option Word) (r : Regs) : SourcesKept r (searchD f d v a r) := by
  have hd (h : smWf (fun _ => (0 : Word)) 0 r.d = true) (x : Word) : smWf (fun _ => (0 : Word)) 0 (rfSet r.d d x) = true :=
    smWf_smSet h (Nat.zero_le _) x
  unfold searchD
  dsimp only
  split
  · split
    · exact ⟨rfl, rfl, fun h => hd h _⟩
    · exact ⟨rfl, rfl, fun h => hd h _⟩
  · exact ⟨rfl, rfl, fun h => hd h _⟩

/-- `f` is what the main operation of a word of the multiply class does to the registers, `mainV` whether it writes V: CLRA and MOVA
write no flag. -/
structure MainOp (op : Op) (mainV : Bool) (f : Regs → Regs) : Prop where
  kept (r : Regs) : SourcesKept r (f r)
  flags : isClra op = true ∨ isMova op = true → mainV = false ∧ ∀ r, (f r).flg = r.flg

theorem mulBody_read {f : MulFn} {n : Nat} {s1 s2 : DualOp} {int : Bool} {pm : PMove}
    (h : operandsRead s c (.mul f n s1 s2 int pm) = some w) :
    ∃ g, (∀ b, mulBody c (.mul f n s1 s2 int pm) m b s = withPM c true pm g w) ∧ ∀ r, SourcesKept r (g r) := by
  unfold operandsRead at h
  dsimp only at h
  split at h
  · next hf =>
    obtain ⟨y, hy⟩ := gotState_some h
    obtain ⟨x, t, hx, hy⟩ := Got.andThen_ok hy
    refine ⟨fun r => postDual c (postDual c (mulComplex f n x y r) s1) s2, fun b => ?_, fun r => ?_⟩
    · simp only [mulBody, hf, if_true, hx, hy, Got.toEff]
    · exact ((mulComplex_kept f n x y r).trans (postDual_kept _ s1)).trans (postDual_kept _ s2)
  · next hf =>
    obtain ⟨y, hy⟩ := gotState_some h
    obtain ⟨x, t, hx, hy⟩ := Got.andThen_ok hy
    have hmul (r : Regs) : SourcesKept r (mulReal f n int x y r) := ⟨rfl, rfl, id⟩
    refine ⟨fun r => postDual c (postDual c (mulReal f n int x y r) s1) s2, fun b => ?_, fun r => ?_⟩
    · simp only [mulBody, hf, hx, hy, Got.toEff]
      rfl
    · exact ((hmul r).trans (postDual_kept _ s1)).trans (postDual_kept _ s2)

theorem searchBody_read {f : SearchFn} {d : Nat} {src : DualOp} {pm : PMove} (h : operandsRead s c (.search f d src pm) = some w) :
    ∃ g, (∀ b, searchBody c (.search f d src pm) m b s = withPM c true pm g w) ∧ ∀ r, SourcesKept r (g r) := by
  obtain ⟨v, hv⟩ := gotState_some h
  obtain ⟨a, ha⟩ : ∃ a, ∀ b, searchBody c (.search f d src pm) m b s =
      (readDual s c src).toEff m fun v t => withPM c true pm (fun r => postDual c (searchD f d v a r) src) t := ⟨_, fun _ => rfl⟩
  refine ⟨fun r => postDual c (searchD f d v a r) src, fun b => ?_, fun r => ?_⟩
  · rw [ha, hv]
    rfl
  · exact (searchD_kept f d v a r).trans (postDual_kept _ src)

/-- The row of a word of the multiply class, once its operands are read: the main operation, then the parallel move. -/
theorem class10_body {op : Op} {i : Instr} (hi : class10Instr op c = some i) (h : operandsRead s c op = some w) :
    ∃ want body mainV f, (∀ x, exec i x = runSlot c want body x) ∧ want op = true ∧
      (∀ b, body op m b s = withPM c mainV (opPM op) f w) ∧ MainOp op mainV f := by
  have hsame (r : Regs) (x : List (Nat × Acc)) (f : Flg) : SourcesKept r { r with a := x, flg := f } := ⟨rfl, rfl, id⟩
  cases op with
  | mul f n s1 s2 int pm =>
    cases hi
    obtain ⟨g, hbody, hkept⟩ := mulBody_read (m := m) h
    exact ⟨_, _, true, g, exec_mulInstr f c, decide_eq_true rfl, hbody, hkept, nofun⟩
  | search f d src pm =>
    cases hi
    obtain ⟨g, hbody, hkept⟩ := searchBody_read (m := m) h
    exact ⟨_, _, true, g, exec_searchInstr f c, decide_eq_true rfl, hbody, hkept, nofun⟩
  | clra n pm =>
    cases hi; cases h
    exact ⟨isClra, accBody c, false, _, fun _ => rfl, rfl, fun _ => rfl, fun r => hsame r _ _, fun _ => ⟨rfl, fun _ => rfl⟩⟩
  | movaA n k pm =>
    cases hi; cases h
    exact ⟨isMova, accBody c, false, _, fun _ => rfl, rfl, fun _ => rfl, fun r => hsame r _ _, fun _ => ⟨rfl, fun _ => rfl⟩⟩
  | movaD n d pm =>
    cases hi; cases h
    exact ⟨isMova, accBody c, false, _, fun _ => rfl, rfl, fun _ => rfl, fun r => hsame r _ _, fun _ => ⟨rfl, fun _ => rfl⟩⟩
  | shacc n k pm =>
    cases hi; cases h
    exact ⟨isShacc, accBody c, true, _, fun _ => rfl, rfl, fun _ => rfl, fun r => hsame r _ _, nofun⟩
  | resadd n pm =>
    cases hi; cases h
    exact ⟨isResadd, accBody c, true, _, fun _ => rfl, rfl, fun _ => rfl, fun r => hsame r _ _, nofun⟩
  | _ => cases hi

/-- A word of the multiply class whose operands were read in `w`: the registers of its core, and on a kernel all else. -/
theorem class10_effect {cd : Cond} {cb : Nat} {op : Op} {i : Instr} (h : slotRuns s c m ⟨cd, cb, op⟩ = true)
    (hi : class10Instr op c = some i) (hread : operandsRead (slotState s c m) c op = some w) (hw : w.wf = true) :
    ∃ u mainV f, exec i s = .next u ∧ MainOp op mainV f ∧
      SameData (moveRegs (regsOf w c) mainV (opPM op) (pmLoad w c (opPM op)) (f (regsOf w c))) (regsOf u c) ∧
      (c.stew = false → ∃ k, u =
        setCore (movePM c (regsOf w c) mainV (opPM op) (pmLoad w c (opPM op)) (updRegs w c f)) c k) := by
  obtain ⟨want, body, mainV, f, hexec, hwant, hbody, hmain⟩ := class10_body (m := m) hi hread
  obtain ⟨u, hu, hdata, hrest⟩ := runSlot_withPM h hwant (hbody _) (State.coresWf hw)
  exact ⟨u, mainV, f, (hexec s).trans hu, hmain, hdata, hrest⟩

/-! ### Moves that load or copy -/

/-- A slot that is fetched is legal where it is reached. -/
theorem fetchSlot_legal {sl : Slot} (h : fetchSlot s c m = .ok (some sl) t) : legalHere c m (coreOf s c) sl = true := by
  unfold fetchSlot at h
  split at h
  · cases h
  · obtain ⟨v, u, -, hdecode⟩ := Got.andThen_ok h
    split at hdecode
    · split at hdecode
      · next hlegal =>
        cases hdecode
        exact hlegal
      · cases hdecode
    · cases hdecode

/-- A steward's word carries no move of a line (R105, R106). -/
theorem pmLine_kernel {cd : Cond} {cb : Nat} {op : Op} (h : slotRuns s c m ⟨cd, cb, op⟩ = true) (hpm : pmLine (opPM op) = true) :
    c.stew = false := by
  obtain ⟨-, hmode, hfetch, -, -, hcd, -, -⟩ := slotRuns_fetch h
  have hlegal : legalOn m op = true := by
    have hhere : legalHere c m (coreOf s c) ⟨cd, cb, op⟩ = true := fetchSlot_legal hfetch
    simp only [legalHere, Bool.or_eq_true, Bool.and_eq_true, decide_eq_true_eq] at hhere
    obtain hnv | ⟨⟨hon, -⟩, -⟩ := hhere
    · exact absurd hnv hcd
    · exact hon
  by_contra hc
  have hm : m = .steward := by
    rw [coreMode, if_pos (by simpa using hc)] at hmode
    split at hmode
    · exact (Option.some.inj hmode).symm
    · cases hmode
  subst hm
  simp [legalOn, hpm] at hlegal

/-- A move that loads a line brings its value into a D register (R102, R130, R132). -/
theorem pmove_ldl {cd : Cond} {cb d : Nat} {op : Op} {i : Instr} {l : LineOp} (h : slotRuns s c m ⟨cd, cb, op⟩ = true)
    (hop : opPM op = .ldl l d) (hi : class10Instr op c = some i) (hread : operandsRead (slotState s c m) c op = some w)
    (hw : w.wf = true) : ∃ u, exec i s = .next u ∧ rf (regsOf u c).d d = ldlValue (slotState s c m) c l := by
  have hc := pmLine_kernel h (by rw [hop]; rfl)
  obtain ⟨u, mainV, f, hu, hmain, ⟨hd, -⟩, -⟩ := class10_effect h hi hread hw
  obtain ⟨-, -, hfile⟩ := hmain.kept (regsOf w c)
  refine ⟨u, hu, ?_⟩
  rw [hd, hop, ← (operandsRead_frame hc (slotRuns_wf h) hread).ldlValue]
  exact rf_setD (hfile (regsOf_d_wf hw c)) d _

/-- The line that a word of the multiply class loads is its move's. -/
theorem slotLoads_move {cd : Cond} {cb d : Nat} {op : Op} {i : Instr} {l : LineOp} (hcd : cd ≠ .nv) (hop : opPM op = .ldl l d)
    (hi : class10Instr op c = some i) : slotLoads ⟨cd, cb, op⟩ = some l := by
  unfold slotLoads
  rw [if_neg hcd]
  dsimp only
  split
  · cases hi
  · rw [hop]

/-- A kernel with a slipface value noted (R189). -/
def notedSlip (kn : Kern) (v : Word) : Kern := { kn with slipIn := kn.slipIn ++ [v] }

/-- In sample mode the value noted of a slipface line is the one that an LDL of it then brings (R36, R189). -/
theorem noteSlip_read {sl : Slot} {n : Nat} (hl : slotLoads sl = some (.slip n)) (h : noteSlip s c .sample sl = some t) :
    slipRead s c n = some (ldlValue t c (.slip n)) := by
  simp only [noteSlip, hl] at h
  obtain ⟨v, hv, ht⟩ := Option.map_eq_some_iff.mp h
  have hkern : kern t c.die c.idx = notedSlip (kern s c.die c.idx) v := by
    rw [← ht]
    exact smGet_smSet_changed (fun h0 => by simpa [Kern.zero] using congrArg Kern.slipIn h0) _
  have hline : slipLine t c.die (c.idx / 18) n = slipLine s c.die (c.idx / 18) n := by rw [← ht]; rfl
  by_cases hst : (kern s c.die c.idx).st = .shadow
  · simp [hv, ldlValue, hkern, notedSlip, hst]
  · simp [slipRead, ldlValue, hkern, notedSlip, hst, hline]

/-- A move that copies a D register takes it as it was before the word (R87, R102). -/
theorem pmove_mov {cd : Cond} {cb dd ds : Nat} {op : Op} {i : Instr} (h : slotRuns s c m ⟨cd, cb, op⟩ = true)
    (hop : opPM op = .mov dd ds) (hi : class10Instr op c = some i) (hread : operandsRead (slotState s c m) c op = some w)
    (hw : w.wf = true) : ∃ u, exec i s = .next u ∧ rf (regsOf u c).d dd = rf (regsOf w c).d ds := by
  obtain ⟨u, mainV, f, hu, hmain, ⟨hd, -⟩, -⟩ := class10_effect h hi hread hw
  obtain ⟨-, -, hfile⟩ := hmain.kept (regsOf w c)
  refine ⟨u, hu, ?_⟩
  rw [hd, hop]
  exact rf_setD (hfile (regsOf_d_wf hw c)) dd _

/-! ### Moves that store an accumulator -/

/-- What a stored accumulator A`a` leaves beside a main operation `op`, in `q` where the registers before the word were `r` (R70, R111). -/
def StoreMerged (op : Op) (r : Regs) (a : Nat) (q : Regs) : Prop :=
  let st := store32 (satMode r) (accOf r a)
  rf q.e a = (if rescap r then st.res else rf r.e a) ∧
  (st.v = true → flagV q.flg = true ∧ flagVS q.flg = true) ∧
  (st.sat = true → flagSAT q.flg = true) ∧
  (isClra op = true ∨ isMova op = true → flagV q.flg = st.v ∧ flagZ q.flg = flagZ r.flg ∧
    flagN q.flg = flagN r.flg ∧ flagC q.flg = flagC r.flg)

theorem MainOp.storeMerged {op : Op} {mainV : Bool} {f : Regs → Regs} (hmain : MainOp op mainV f) {r q : Regs} {a : Nat}
    (he : smWf (fun _ => (0 : Word)) 0 r.e = true) (hqe : q.e = (storeRegs r mainV a (f r)).e)
    (hqf : q.flg = (storeRegs r mainV a (f r)).flg) : StoreMerged op r a q := by
  obtain ⟨hfe, hfk, -⟩ := hmain.kept r
  obtain ⟨e, hframe⟩ := storeRegs_frame r mainV a (f r)
  obtain ⟨hv, hvs, hsat, hz, hn, hc⟩ := mergeStore_flags (f r).flg mainV (store32 (satMode r) (accOf r a))
  have hres : rf q.e a = if rescap (f r) then (store32 (satMode r) (accOf r a)).res else rf (f r).e a := by
    rw [hqe]
    exact captureRes_e (r := { f r with flg := _ }) (by rw [hfe]; exact he) a _
  rw [hframe] at hqf
  refine ⟨?_, fun hst => ?_, fun hst => ?_, fun hop => ?_⟩
  · rw [hres, rescap, hfk, hfe]
    rfl
  · rw [hqf, hv, hvs, hst]
    simp
  · rw [hqf, hsat, hst, Bool.or_true]
  · obtain ⟨rfl, hflg⟩ := hmain.flags hop
    rw [hqf, hv, hz, hn, hc, hflg]
    exact ⟨rfl, rfl, rfl, rfl⟩

/-- A move that stores an accumulator into a D register (R70, R102). -/
theorem pmove_sta {cd : Cond} {cb dd a : Nat} {op : Op} {i : Instr} (h : slotRuns s c m ⟨cd, cb, op⟩ = true)
    (hop : opPM op = .sta dd a) (hi : class10Instr op c = some i) (hread : operandsRead (slotState s c m) c op = some w)
    (hw : w.wf = true) :
    ∃ u, exec i s = .next u ∧ rf (regsOf u c).d dd = (store32 (satMode (regsOf w c)) (accOf (regsOf w c) a)).val ∧
      StoreMerged op (regsOf w c) a (regsOf u c) := by
  obtain ⟨u, mainV, f, hu, hmain, ⟨hd, -, he, -, -, -, -, -, hflg, -⟩, -⟩ := class10_effect h hi hread hw
  rw [hop] at hd he hflg
  obtain ⟨-, -, hfile⟩ := hmain.kept (regsOf w c)
  obtain ⟨e, hframe⟩ := storeRegs_frame (regsOf w c) mainV a (f (regsOf w c))
  refine ⟨u, hu, ?_, hmain.storeMerged (regsOf_files_wf hw c).2.1 he hflg⟩
  rw [hd]
  refine rf_setD ?_ dd _
  rw [hframe]
  exact hfile (regsOf_d_wf hw c)

/-! ### Moves that store to a line -/

/-- `v` is staged on a Wadi line, or available on a slipface line (R131, R132). -/
def LineStored (u : State) (c : CoreRef) (l : LineOp) (v : Word) : Prop :=
  match l with
  | .wadi n => alGet n (kern u c.die c.idx).staged = some v
  | .slip n => (slipLine u c.die (c.idx / 18) n).val = v

/-- The kernel runs, and its stores reach canonical tables. -/
structure StoreReady (s : State) (c : CoreRef) : Prop where
  cores : CoresWf s
  slip : smWf (fun _ => (⟨0, false⟩ : Slip)) 0 s.slip = true
  run : (kern s c.die c.idx).st = .run

theorem StoreReady.updRegs (h : StoreReady s c) (hc : c.stew = false) (f : Regs → Regs) : StoreReady (updRegs s c f) c where
  cores := h.cores.updRegs f
  slip := by
    rw [Machine.updRegs, setCore_kernel hc]
    exact h.slip
  run := by
    rw [Machine.updRegs, kern_setCore hc h.cores]
    exact h.run

/-- A store of a running kernel, once control is past the word. -/
theorem StoreReady.stored (h : StoreReady s c) (hc : c.stew = false) (l : LineOp) (v : Word) (k : Core) :
    LineStored (setCore (storeLine s c l v) c k) c l v := by
  cases l with
  | wadi n =>
    unfold LineStored
    simp only
    rw [storeLine_wadi h.run, kern_setCore hc (h.cores.setKern _ _ _), kern_stageLine h.cores]
    exact alGet_alPut _ _ _
  | slip n =>
    unfold LineStored
    simp only [setCore_kernel hc, slipLine_setKern, storeLine, h.run, if_true]
    exact congrArg Slip.val (smGet_smSet_same h.slip _ _)

/-- The operands of a running kernel leave it ready. -/
theorem storeReady_operands {op : Op} (hc : c.stew = false) (hwf : s.wf = true) (hread : operandsRead s c op = some w)
    (hst : (kern s c.die c.idx).st = .run) : StoreReady w c := by
  obtain ⟨hw, -, ⟨xs, hkern⟩, -⟩ := operandsRead_frame hc hwf hread
  exact ⟨State.coresWf hw, State.wf_slip hw, by rw [hkern]; exact hst⟩

/-- A move that stores a D register to a line (R102, R131, R132). -/
theorem pmove_stlD {cd : Cond} {cb d : Nat} {op : Op} {i : Instr} {l : LineOp} (h : slotRuns s c m ⟨cd, cb, op⟩ = true)
    (hop : opPM op = .stlD l d) (hi : class10Instr op c = some i) (hread : operandsRead (slotState s c m) c op = some w)
    (hw : w.wf = true) (hc : c.stew = false) :
    ∃ u, exec i s = .next u ∧ ((kern (slotState s c m) c.die c.idx).st = .run → LineStored u c l (rf (regsOf w c).d d)) := by
  obtain ⟨u, mainV, f, hu, -, -, hrest⟩ := class10_effect h hi hread hw
  obtain ⟨k, rfl⟩ := hrest hc
  refine ⟨_, hu, fun hst => ?_⟩
  rw [hop]
  exact ((storeReady_operands hc (slotRuns_wf h) hread hst).updRegs hc f).stored hc l _ k

/-- A move that stores an accumulator to a line (R70, R102, R111, R131, R132). -/
theorem pmove_stlA {cd : Cond} {cb a : Nat} {op : Op} {i : Instr} {l : LineOp} (h : slotRuns s c m ⟨cd, cb, op⟩ = true)
    (hop : opPM op = .stlA l a) (hi : class10Instr op c = some i) (hread : operandsRead (slotState s c m) c op = some w)
    (hw : w.wf = true) (hc : c.stew = false) :
    ∃ u, exec i s = .next u ∧
      ((kern (slotState s c m) c.die c.idx).st = .run →
        LineStored u c l (store32 (satMode (regsOf w c)) (accOf (regsOf w c) a)).val) ∧
      StoreMerged op (regsOf w c) a (regsOf u c) := by
  obtain ⟨u, mainV, f, hu, hmain, ⟨-, -, he, -, -, -, -, -, hflg, -⟩, hrest⟩ := class10_effect h hi hread hw
  rw [hop] at he hflg
  refine ⟨u, hu, fun hst => ?_, hmain.storeMerged (regsOf_files_wf hw c).2.1 he hflg⟩
  obtain ⟨k, rfl⟩ := hrest hc
  rw [hop]
  exact (((storeReady_operands hc (slotRuns_wf h) hread hst).updRegs hc f).updRegs hc _).stored hc l _ k

/-- Settles O9: each clause is one kind of move, on a Wadi line, on a slipface line, or between registers. -/
theorem parallelMoves : Obligations.ParallelMoves := by
  refine ⟨?ldlWadi, ?ldlSlip, ?stlDWadi, ?stlDSlip, ?stlAWadi, ?stlASlip, ?mov, ?sta⟩
  case ldlWadi => exact fun s c m cd cb op i w l d h hop hi hread hw => pmove_ldl h hop hi hread hw
  case ldlSlip =>
    intro s c m cd cb op i w l d h hop hi hread hw
    obtain ⟨u, hu, hval⟩ := pmove_ldl h hop hi hread hw
    obtain ⟨-, -, -, hnote, -, hcd, -, -⟩ := slotRuns_fetch h
    refine ⟨u, hu, ?_, fun hst => hval.trans (ldlValue_slip hst l)⟩
    rintro rfl
    rw [hval]
    exact noteSlip_read (slotLoads_move hcd hop hi) hnote
  case stlDWadi => exact fun s c m cd cb op i w l d h hop hi hread hw hc => pmove_stlD h hop hi hread hw hc
  case stlDSlip => exact fun s c m cd cb op i w l d h hop hi hread hw hc => pmove_stlD h hop hi hread hw hc
  case stlAWadi => exact fun s c m cd cb op i w l a h hop hi hread hw hc => pmove_stlA h hop hi hread hw hc
  case stlASlip => exact fun s c m cd cb op i w l a h hop hi hread hw hc => pmove_stlA h hop hi hread hw hc
  case mov => exact fun s c m cd cb op i w dd ds h hop hi hread hw => pmove_mov h hop hi hread hw
  case sta => exact fun s c m cd cb op i w dd a h hop hi hread hw => pmove_sta h hop hi hread hw

end Sys2Proof.Machine
end

section
/-! PROOFS. Bridges and row repair (R63, R177, R178, R190–R197, R442): transfers, changes of table, copied rows and records of bit
errors. -/
namespace Sys2Proof.Machine

variable {s t u : State} {a : Access} {d n p : Nat}

/-! ### Failed transfers (R195) -/

/-- A failed tick writes its port and the port's error counter. -/
theorem failPort_rest (s : State) (d n : Nat) : { failPort s d n with regs := s.regs, bridges := s.bridges } = s := by
  unfold failPort
  dsimp only
  split <;> rfl

/-- The port after a failed tick, and its error counter, which counts while the port is enabled. -/
theorem failPort_effect (hw : s.wf = true) (d n : Nat) :
    bridge (failPort s d n) d n = { bridge s d n with got := none, failed := true, fails := (bridge s d n).fails + 1 } ∧
      reg (failPort s d n) (Reg.BRIDGE_ERR d n) = reg s (Reg.BRIDGE_ERR d n) + (if bridgeEn s d n then 1 else 0) ∧
      RegsBut s (failPort s d n) [Reg.BRIDGE_ERR d n] := by
  unfold failPort
  extract_lets b t
  have hwt : t.wf = true := State.wf_setBridge hw _ _ _
  have hb : bridge t d n = { b with got := none, failed := true, fails := b.fails + 1 } := bridge_setBridge_same hw _ _ _
  split
  · refine ⟨hb, reg_setReg_same hwt _ _, fun r hr => ?_⟩
    rw [incReg, reg_setReg hwt, if_neg (by simpa using hr)]
    rfl
  · exact ⟨hb, (BitVec.add_zero _).symm, fun _ _ => rfl⟩

/-! ### Changes of table (R196) -/

/-- Setting bit `n` of a three-bit number to `b`. -/
theorem testBit_putBit : ∀ v < 8, ∀ n < 3, ∀ b : Bool, ((v - (v.testBit n).toNat * 2 ^ n + b.toNat * 2 ^ n) % 8).testBit n = b := by
  decide

/-- The bit of a port reads what it was set to. -/
theorem portBit_setPortBit (hw : s.wf = true) (r : Nat) (hn : n < 3) (b : Bool) :
    portBit (setPortBit s r F.BRIDGE_STAT_ACTIVE n b) r F.BRIDGE_STAT_ACTIVE n = b := by
  unfold portBit setPortBit
  rw [fld_setFld_same hw r (by decide) (by decide)]
  exact testBit_putBit _ (wGet_lt _ F.BRIDGE_STAT_ACTIVE) n hn b

/-- Switching a port's table makes the other one active and builds this tick's transfer from it. -/
theorem switchTable_effect (hw : s.wf = true) (d : Nat) (hn : n < 3) :
    bridgeActive (switchTable s d n) d n = 1 - bridgeActive s d n ∧
      bridge (switchTable s d n) d n = { bridge s d n with out := buildTransfer (switchTable s d n) d n } ∧
      RegsBut s (switchTable s d n) [Reg.BRIDGE_STAT d] := by
  unfold switchTable
  extract_lets t
  have hwt : t.wf = true := State.wf_setFld hw _ _ _
  refine ⟨?_, bridge_setBridge_same hwt _ _ _, fun r hr => ?_⟩
  · have hbit : portBit t (Reg.BRIDGE_STAT d) F.BRIDGE_STAT_ACTIVE n = decide (bridgeActive s d n = 0) := portBit_setPortBit hw _ hn _
    change (portBit t (Reg.BRIDGE_STAT d) F.BRIDGE_STAT_ACTIVE n).toNat = _
    rw [hbit]
    unfold bridgeActive
    cases portBit s (Reg.BRIDGE_STAT d) F.BRIDGE_STAT_ACTIVE n <;> rfl
  · exact (reg_setReg hw _ _ _).trans (if_neg (by simpa using hr))

/-! ### Copied rows (R178) -/

/-- A domain that is ON runs. -/
theorem domLive_of_domOn {m : Nat} (h : domOn s d m = true) : domLive s d m = true := by
  unfold domOn at h
  unfold domLive
  rw [of_decide_eq_true h]

/-- The row at the head of the list waits for the next Pulse; the list that runs out ends the pod's repair. -/
theorem exec_rowRepairCopyDone (hw : s.wf = true) (hd : d < dieCount s.part) (hp : p < 9) {row : Nat} {rest : List Nat}
    (hwant : (rowsOf s d p).want = row :: rest) (hon : domOn s d (if p = 8 then pdStew else pdPod p) = true) :
    ∃ t, exec (.rowRepairCopyDone d p) s = .next t ∧ (rowsOf t d p).want = rest ∧
      (rowsOf t d p).copied = (rowsOf s d p).copied ++ [row] ∧ { t with regs := s.regs, rows := s.rows } = s ∧
      RegsBut s t [Reg.POD_REPAIR d p] := by
  change ∃ t, execRowRepairCopyDone d p s = .next t ∧ _
  unfold execRowRepairCopyDone
  rw [onUnit_true (by simp [hd, hp]), hwant]
  have hrows := rowsOf_setRows_same hw d p { rowsOf s d p with want := rest, copied := (rowsOf s d p).copied ++ [row] }
  refine ⟨_, whenDue_true (domLive_of_domOn hon), ?_⟩
  split
  · refine ⟨congrArg Rows.want hrows, congrArg Rows.copied hrows, rfl, fun r hr => ?_⟩
    exact (reg_setReg (State.wf_setRows hw _ _ _) _ _ _).trans (if_neg (by simpa using hr))
  · exact ⟨congrArg Rows.want hrows, congrArg Rows.copied hrows, rfl, fun _ _ => rfl⟩

/-! ### Records of bit errors (R63, R177) -/

/-- Every POD page takes registers. -/
theorem pageRows_pod (hp : p < 8) : (pageRows (0x80 + p)).isEmpty = false := by
  revert p; decide

theorem regWrite_pod (hp : p < 8) (s : State) (d o : Nat) (a : Access) (v : Word) :
    regWrite s d (0x80 + p) o a v = writePod s d p o a v := by
  have hhi : 0x80 + p ≤ 0x87 := by omega
  have hne (n : Nat) (hn : n < 0x80) : 0x80 + p ≠ n := by omega
  have hgt (n : Nat) (hn : n < 0x80) : ¬ 0x80 + p ≤ n := by omega
  simp [regWrite, hhi, hne, hgt]

/-- A write with CLR set clears the record. -/
theorem eccClear_set {bit : Nat} {v : Word} (hv : v.getLsbD bit = true) (s : State) (r : Nat) : eccClear s r bit v = setReg s r 0 :=
  if_pos hv

/-- A write to a POD page that its block takes. -/
theorem unitCmd_pod {o : Nat} (h : reachesReg s a (regA d (0x80 + p) o) = true) (hp : p < 8) (ho : o < 0x1000) (h4 : o % 4 = 0) {v : Word}
    (hwrite : writePod s d p o a v = done t) : unitCmd p 8 a (regA d (0x80 + p) o) v s = .next t.answered := by
  unfold unitCmd
  rw [onUnit_true (by simpa using hp)]
  exact regCmd_taken h (by omega) ho h4 (pageRows_pod hp) ((regWrite_pod hp s d o a v).trans hwrite)

/-- CLR of either record of a pod. -/
theorem exec_podEccClear (unc : Bool) (h : reachesReg s a (if unc then Reg.POD_ECC_UNC d p else Reg.POD_ECC d p) = true) (hp : p < 8) :
    exec (.podEccClear a d p unc) s = .next (setReg s (if unc then Reg.POD_ECC_UNC d p else Reg.POD_ECC d p) 0).answered := by
  have hset (r : Nat) : done (eccClear s r 16 0x1_0000) = done (setReg s r 0) := congrArg done (eccClear_set (by decide) s r)
  cases unc with
  | false => exact unitCmd_pod h hp (by decide) rfl (hset _)
  | true => exact unitCmd_pod h hp (by decide) rfl (hset _)

/-- CLR of a kernel's record. -/
theorem exec_kernelEccClear {k : Nat} (h : reachesReg s a (Reg.KERNEL_ECC d k) = true) (hk : k < 144)
    (hpod : (dom s d (pdPod (k / 18))).st ≠ .off) :
    exec (.kernelEccClear a d k) s = .next (setReg s (Reg.KERNEL_ECC d k) 0).answered := by
  change unitCmd k 144 a (Reg.KERNEL_ECC d k) (one F.KERNEL_ECC_CLR) s = _
  unfold unitCmd
  rw [onUnit_true (by simpa using hk)]
  refine regCmd_taken h (by omega) (by decide) rfl (pageRows_kernel hk) ?_
  rw [regWrite_kernel hk, writeKernel, if_neg hpod, ← eccClear_set (v := one F.KERNEL_ECC_CLR) (bit := 28) (by decide)]

end Sys2Proof.Machine
end

section
/-! PROOFS. A write of BRIDGE_SWAP (R196, R233): the changes of table that it leaves pending, and what the swap requests that it ends
leave unchanged. -/
namespace Sys2Proof.Machine

variable {s t u : State} {a : Access} {d n : Nat}

/-! ### What the end of a swap request changes (R225–R233) -/

/-- A register of another page is not BRIDGE_TPULSE. -/
theorem tpulse_ne_regA (d : Nat) {e q o : Nat} (hq : q < 0x10000) (hne : q ≠ 0x21) (ho : o < 0x1000) :
    Reg.BRIDGE_TPULSE d ≠ regA e q o := by
  unfold Reg.BRIDGE_TPULSE regA
  omega

/-- `t` is in canonical form, keeps BRIDGE_TPULSE of die `d` and differs from `s` at most in other registers, the power domains, the
hidden records of the dies, the swap requests and the links. -/
structure SwapFrame (d : Nat) (s t : State) : Prop where
  wf : t.wf = true
  tpulse : reg t (Reg.BRIDGE_TPULSE d) = reg s (Reg.BRIDGE_TPULSE d)
  rest : { t with regs := s.regs, doms := s.doms, dieX := s.dieX, swaps := s.swaps, link := s.link, linkDev := s.linkDev } = s

namespace SwapFrame

theorem refl (h : s.wf = true) : SwapFrame d s s := ⟨h, rfl, rfl⟩

theorem ite {c : Prop} [Decidable c] (ht : SwapFrame d s t) (hu : SwapFrame d s u) : SwapFrame d s (if c then t else u) := by
  split
  · exact ht
  · exact hu

theorem each {α : Type} {xs : List α} {f : α → State → State} (h : SwapFrame d s t)
    (hf : ∀ x u, SwapFrame d s u → SwapFrame d s (f x u)) : SwapFrame d s (each xs f t) :=
  each_keeps xs f (fun x _ u hu => hf x u hu) h

theorem setReg (h : SwapFrame d s t) {r : Nat} (hr : Reg.BRIDGE_TPULSE d ≠ r) {w : Word} : SwapFrame d s (setReg t r w) :=
  ⟨State.wf_setReg h.wf r w, ((reg_setReg h.wf _ _ _).trans (if_neg hr)).trans h.tpulse, h.rest⟩

theorem setFld (h : SwapFrame d s t) {r v : Nat} {f : Fld} (hr : Reg.BRIDGE_TPULSE d ≠ r) : SwapFrame d s (setFld t r f v) := h.setReg hr
theorem incFld (h : SwapFrame d s t) {r : Nat} {f : Fld} (hr : Reg.BRIDGE_TPULSE d ≠ r) : SwapFrame d s (incFld t r f) := h.setReg hr
theorem satFld (h : SwapFrame d s t) {r : Nat} {f : Fld} (hr : Reg.BRIDGE_TPULSE d ≠ r) : SwapFrame d s (satFld t r f) :=
  .ite (.incFld h hr) h

theorem setSwaps (h : SwapFrame d s t) {x : List SwapReq} : SwapFrame d s { t with swaps := x } := ⟨h.wf, h.tpulse, h.rest⟩
theorem noteSeen (h : SwapFrame d s t) {p : Packet} : SwapFrame d s (noteSeen t p) := ⟨h.wf, h.tpulse, h.rest⟩
theorem setLinkPort (h : SwapFrame d s t) {e : Nat} {x : LinkPort} : SwapFrame d s (setLinkPort t e x) :=
  ⟨State.wf_setLinkPort h.wf e x, h.tpulse, h.rest⟩

/-- After it, power domains brought in line with the votes. -/
theorem sync (h : SwapFrame d s t) {e : Nat} (hu : SyncFrame e t u) : SwapFrame d s u := by
  obtain ⟨hwf, hregs, hrest⟩ := hu
  have hmem : Reg.BRIDGE_TPULSE d ∉ syncRegs e := by
    simp only [syncRegs, List.mem_cons, List.not_mem_nil, or_false, not_or]
    refine ⟨?_, ?_, ?_, ?_, ?_⟩ <;> exact tpulse_ne_regA d (by decide) (by decide) (by decide)
  refine ⟨hwf, (hregs _ hmem).trans h.tpulse, Eq.trans ?_ h.rest⟩
  exact (congrArg (fun x => { x with regs := s.regs, doms := s.doms, dieX := s.dieX, swaps := s.swaps, link := s.link,
                                     linkDev := s.linkDev }) hrest :)

theorem powerSyncAll (h : SwapFrame d s t) : SwapFrame d s (powerSyncAll t none) :=
  .each h fun _ _ hu => hu.sync (SyncFrame.refl hu.wf).powerSync

theorem portSend (h : SwapFrame d s t) {e : Nat} {p : Packet} {fast : Bool} : SwapFrame d s (portSend t e p fast) := .setLinkPort h

theorem routeSend (h : SwapFrame d s t) {e : Nat} {p : Packet} {fast : Bool} : SwapFrame d s (routeSend t e p fast) :=
  .ite (.setLinkPort h) (.portSend h)

theorem deviceSend (h : SwapFrame d s t) {e : Nat} {p : Packet} {fast : Bool} : SwapFrame d s (deviceSend t e p fast) := by
  unfold Machine.deviceSend
  split
  · exact .each (.noteSeen h) fun _ _ hu => .ite (.portSend hu) hu
  · split
    · exact .setLinkPort h
    · split
      · exact .routeSend h
      · exact .incFld h (tpulse_ne_regA d (by decide) (by decide) (by decide))

theorem recordSwap (h : SwapFrame d s t) {e g tgt r det w : Nat} : SwapFrame d s (recordSwap t e g tgt r det w) := by
  have hpulse {o : Nat} (ho : o < 0x1000) : Reg.BRIDGE_TPULSE d ≠ regA e 1 o := tpulse_ne_regA d (by decide) (by decide) ho
  have hres : Reg.BRIDGE_TPULSE d ≠ Reg.PULSE_SWAP_RES e := hpulse (by decide)
  exact .satFld (.setReg (.setReg (.setFld (.setFld (.setFld (.setFld h hres) hres) hres) hres) (hpulse (by decide))) (hpulse (by decide)))
    (hpulse (by decide))

theorem reportSwap (h : SwapFrame d s t) {r : SwapReq} {res det w : Nat} : SwapFrame d s (reportSwap t r res det w) := by
  unfold Machine.reportSwap
  dsimp only
  split
  · exact .ite (.recordSwap h) (.deviceSend (.recordSwap h))
  · exact .recordSwap h

theorem splitSwap (h : SwapFrame d s t) {r : SwapReq} {res det w : Nat} : SwapFrame d s (splitSwap t r res det w) :=
  .ite h (.reportSwap (.setSwaps h))

theorem endSwap (h : SwapFrame d s t) {r : SwapReq} {res det w : Nat} : SwapFrame d s (endSwap t r res det w) :=
  .reportSwap (.powerSyncAll (.setSwaps h))

/-- A table written directly (R233). -/
theorem swapDirect (h : SwapFrame d s t) {e kind unit : Nat} : SwapFrame d s (swapDirect t e kind unit) := by
  unfold Machine.swapDirect
  dsimp only
  split
  · exact h
  · exact .ite (.splitSwap (.setSwaps h)) (.endSwap h)

theorem bridge_eq (h : SwapFrame d s t) (e n : Nat) : bridge t e n = bridge s e n := (congrArg (fun x => bridge x e n) h.rest :)

end SwapFrame

/-! ### The ports in turn (R196) -/

/-- `t` differs from `s` in its bridge ports, and beside them as `SwapFrame` says. -/
def PortFrame (d : Nat) (s t : State) : Prop := ∃ b, SwapFrame d { s with bridges := b } t

namespace PortFrame

theorem refl (h : s.wf = true) : PortFrame d s s := ⟨s.bridges, .refl h⟩

theorem setBridge (h : PortFrame d s t) {e n : Nat} {b : BridgePort} : PortFrame d s (setBridge t e n b) := by
  obtain ⟨_, hwf, htp, hrest⟩ := h
  refine ⟨(Machine.setBridge t e n b).bridges, State.wf_setBridge hwf e n b, htp, ?_⟩
  exact congrArg (fun x => { x with bridges := (Machine.setBridge t e n b).bridges }) hrest

theorem swapDirect (h : PortFrame d s t) {e kind unit : Nat} : PortFrame d s (swapDirect t e kind unit) := by
  obtain ⟨b, hb⟩ := h
  exact ⟨b, hb.swapDirect⟩

theorem wf (h : PortFrame d s t) : t.wf = true := by
  obtain ⟨b, hb⟩ := h
  exact hb.wf

theorem neighbour_eq (h : PortFrame d s t) (e n : Nat) : neighbour t e n = neighbour s e n := by
  obtain ⟨b, hb⟩ := h
  exact (congrArg (fun x => neighbour x e n) hb.rest :)

end PortFrame

/-- The write at one port. -/
def swapPort (d : Nat) (v : Word) (n : Nat) (s : State) : State :=
  if (neighbour s d n).isNone then s
  else if v.getLsbD n then
    swapDirect (setBridge s d n { bridge s d n with change := some ((reg s (Reg.BRIDGE_TPULSE d)).toNat, false) }) d 2 n
  else setBridge s d n { bridge s d n with change := none }

theorem bridgeSwapWrite_eq (s : State) (d : Nat) (v : Word) : bridgeSwapWrite s d v = each (List.range 3) (swapPort d v) s := rfl

theorem PortFrame.swapPort (h : PortFrame d s t) (v : Word) (n : Nat) : PortFrame d s (swapPort d v n t) := by
  unfold Machine.swapPort
  split
  · exact h
  · split
    · exact h.setBridge.swapDirect
    · exact h.setBridge

/-- The change of table that a write leaves pending at a port. -/
def wantedChange (s : State) (d : Nat) (v : Word) (n : Nat) : Option (Nat × Bool) :=
  if v.getLsbD n then some ((reg s (Reg.BRIDGE_TPULSE d)).toNat, false) else none

/-- The port itself. -/
theorem change_swapPort (h : PortFrame d s t) (hn : (neighbour s d n).isSome = true) (v : Word) :
    (bridge (swapPort d v n t) d n).change = wantedChange s d v n := by
  have hnb : (neighbour t d n).isNone = false := by rw [h.neighbour_eq]; simpa using hn
  obtain ⟨b, hwf, htp, -⟩ := h
  unfold swapPort wantedChange
  rw [hnb, if_neg (by decide)]
  split
  · rw [(SwapFrame.refl (State.wf_setBridge hwf _ _ _)).swapDirect.bridge_eq (d := d), bridge_setBridge_same hwf, htp]
    rfl
  · rw [bridge_setBridge_same hwf]

/-- The other ports of its die. -/
theorem bridge_swapPort_ne (hw : t.wf = true) {m : Nat} (hm : m ≠ n) (v : Word) : bridge (swapPort d v m t) d n = bridge t d n := by
  have hset (b : BridgePort) : bridge (setBridge t d m b) d n = bridge t d n := by
    rw [bridge_setBridge hw, if_neg (by omega)]
  unfold swapPort
  split
  · rfl
  · split
    · rw [(SwapFrame.refl (State.wf_setBridge hw _ _ _)).swapDirect.bridge_eq (d := d), hset]
    · exact hset _

/-- A write leaves pending at each port what it asks for there. -/
theorem change_bridgeSwapWrite (hw : s.wf = true) (hn : n < 3) (hnb : (neighbour s d n).isSome = true) (v : Word) :
    (bridge (bridgeSwapWrite s d v) d n).change = wantedChange s d v n := by
  rw [bridgeSwapWrite_eq]
  refine (each_once (P := PortFrame d s) (Q := fun u => PortFrame d s u ∧ (bridge u d n).change = wantedChange s d v n)
    List.nodup_range (List.mem_range.mpr hn) (fun m _ _ u hu => hu.swapPort v m)
    (fun u hu => ⟨hu.swapPort v n, change_swapPort hu hnb v⟩)
    (fun m _ hm u hu => ?_) (.refl hw)).2
  obtain ⟨hframe, hchange⟩ := hu
  exact ⟨hframe.swapPort v m, by rw [bridge_swapPort_ne hframe.wf hm, hchange]⟩

theorem bridgeSwapWrite_frame (hw : s.wf = true) (d : Nat) (v : Word) : PortFrame d s (bridgeSwapWrite s d v) :=
  each_keeps _ _ (fun n _ _ hu => hu.swapPort v n) (.refl hw)

/-- The word that names a set of ports. -/
theorem getLsbD_swapPorts (ports : Nat) (hn : n < 3) : (fieldIs F.BRIDGE_SWAP_PORTS ports).getLsbD n = ports.testBit n := by
  unfold fieldIs wSet
  rw [getLsbD_wPut _ (by decide) (by decide), if_pos ⟨Nat.zero_le n, by change n ≤ 2; omega⟩]
  rfl

/-- A write of BRIDGE_SWAP is taken. -/
theorem exec_bridgeSwapWrite (h : reachesReg s a (Reg.BRIDGE_SWAP d) = true) (ports : Nat) :
    exec (.bridgeSwapWrite a d ports) s = .next (bridgeSwapWrite s d (fieldIs F.BRIDGE_SWAP_PORTS ports)).answered :=
  regCmd_taken h (by decide) (by decide) rfl rfl rfl

/-- Settles O34: each command by what it does to its port, row list or register; a write of BRIDGE_SWAP by its ports in turn, where the
swap requests that it ends leave the bridges and BRIDGE_TPULSE alone. -/
theorem bridgesAndRepair : Obligations.BridgesAndRepair := by
  unfold Obligations.BridgesAndRepair
  refine ⟨fun s d n e hd hn hnb hdue hlock hmet hswap => ?_, fun s d n hw hd hn hdue => ?_, fun s d n hd hn hover hexp => ?_,
    fun s a d ports h => exec_bridgeSwapWrite h ports, fun s d n hw hd hn hmet => ?_, fun s d p row rest hw hd hp hwant hon => ?_,
    fun s a d p unc h hp => exec_podEccClear unc h hp, fun s a d k h hk hpod => exec_kernelEccClear h hk hpod,
    fun s a d n ports hw h hn _ hnb => ?_⟩
  · change execBridgeTransferRx d n s = _
    unfold execBridgeTransferRx
    rw [onUnit_true (by simp [hd, hn]), hnb]
    exact whenDue_true (by simp [hdue, hlock, hmet, hswap])
  · obtain ⟨hport, herr, hregs⟩ := failPort_effect hw d n
    refine ⟨failPort s d n, ?_, ?_, ?_, ?_, herr, failPort_rest s d n, hregs⟩
    · exact (onUnit_true (by simp [hd, hn])).trans (whenDue_true hdue)
    · rw [hport]
    · rw [hport]
    · rw [hport]
  · exact (onUnit_true (by simp [hd, hn])).trans (whenDue_true (by simp [hover, hexp]))
  · have hw' := State.wf_setBridge hw d n { bridge s d n with change := none }
    obtain ⟨hactive, hport, hregs⟩ := switchTable_effect hw' d hn
    refine ⟨_, (onUnit_true (by simp [hd, hn])).trans (whenDue_true hmet), hactive, ?_, ?_, rfl, hregs⟩
    · rw [hport, bridge_setBridge_same hw]
    · rw [hport]
  · exact exec_rowRepairCopyDone hw hd hp hwant hon
  · obtain ⟨b, -, -, hrest⟩ := bridgeSwapWrite_frame hw d (fieldIs F.BRIDGE_SWAP_PORTS ports)
    refine ⟨_, exec_bridgeSwapWrite h ports, ?_, rfl, (congrArg State.kern hrest :), (congrArg State.mem hrest :),
      (congrArg State.lines hrest :)⟩
    have hchange := change_bridgeSwapWrite hw hn hnb (fieldIs F.BRIDGE_SWAP_PORTS ports)
    rw [wantedChange, getLsbD_swapPorts ports hn] at hchange
    exact hchange

end Sys2Proof.Machine
end

section
/-! PROOFS. The ALU on accumulators (R94, R114–R118): the result and the flags of each function, and the slots of its rows. -/
namespace Sys2Proof.Machine

variable {s : State} {c : CoreRef} {m : Mode} {w : Nat}

/-! ### Flags -/

theorem flagDZ_mkFlg (z n c v vs sat dz : Bool) : flagDZ (mkFlg z n c v vs sat dz) = dz := by
  revert z n c v vs sat dz
  decide

theorem toNat_eq_zero_iff (r : BitVec w) : decide (r.toNat = 0) = decide (r = 0) := by simp [← BitVec.toNat_inj]

/-- The flags of a result with its C and V (R110). -/
theorem flags_result (f : Flg) (r : BitVec w) (cy v : Bool) :
    setV (setC (znOf f r) cy) v = mkFlg (decide (r = 0)) r.msb cy v (flagVS f || v) (flagSAT f) (flagDZ f) := by
  simp only [setV, setC, znOf, setZN, flags_mkFlg, flags_mkFlg_rest, flagDZ_mkFlg, toNat_eq_zero_iff]

/-- FLG flag by flag. -/
theorem flags_of_eq_mkFlg {g : Flg} {z n cy v vs sat dz : Bool} (h : g = mkFlg z n cy v vs sat dz) :
    flagZ g = z ∧ flagN g = n ∧ flagV g = v ∧ flagVS g = vs ∧ flagC g = cy := by
  obtain ⟨hz, hn, hv⟩ := flags_mkFlg z n cy v vs sat dz
  obtain ⟨hc, hvs, -⟩ := flags_mkFlg_rest z n cy v vs sat dz
  exact h ▸ ⟨hz, hn, hv, hvs, hc⟩

/-- A value within its own range. -/
theorem outOfRange_toInt (x : BitVec w) : outOfRange w x.toInt = false := by
  have hlow := BitVec.le_toInt x
  have hhigh := BitVec.toInt_lt (x := x)
  simp only [outOfRange, Bool.or_eq_false_iff, decide_eq_false_iff_not]
  push_cast
  omega

/-! ### Results -/

/-- ADD: the sum, its flags, and the carry out of the top bit (R112, R114). -/
theorem addRes_eq (f : Flg) (x y : BitVec w) :
    addRes f x y false = ⟨x + y, mkFlg (decide (x + y = 0)) (x + y).msb (decide (2 ^ w ≤ x.toNat + y.toNat))
      (outOfRange w (x.toInt + y.toInt)) (flagVS f || outOfRange w (x.toInt + y.toInt)) (flagSAT f) (flagDZ f)⟩ := by
  have hsum : BitVec.ofNat w (x.toNat + y.toNat) = x + y := (BitVec.add_def x y).symm
  simp only [addRes, Bool.toNat_false, hsum, flags_result, Nat.cast_zero, add_zero]

/-- SUB and CMP: the difference, its flags, and C where no borrow is needed (R112, R114). -/
theorem subRes_eq (f : Flg) (x y : BitVec w) :
    subRes f x y true = ⟨x - y, mkFlg (decide (x - y = 0)) (x - y).msb (decide (y.toNat ≤ x.toNat))
      (outOfRange w (x.toInt - y.toInt)) (flagVS f || outOfRange w (x.toInt - y.toInt)) (flagSAT f) (flagDZ f)⟩ := by
  have hy := y.isLt
  have hexact : x.toNat + (2 ^ w - 1 - y.toNat) + 1 = 2 ^ w - y.toNat + x.toNat := by omega
  have hdiff : BitVec.ofNat w (2 ^ w - y.toNat + x.toNat) = x - y := (BitVec.sub_def x y).symm
  have hborrow : decide (2 ^ w ≤ 2 ^ w - y.toNat + x.toNat) = decide (y.toNat ≤ x.toNat) := by
    rw [decide_eq_decide]
    omega
  simp only [subRes, Bool.toNat_true, hexact, hdiff, hborrow, flags_result, Nat.cast_one, sub_add_cancel]

theorem tstFlags_eq (f : Flg) (x : BitVec w) :
    tstFlags f x = mkFlg (decide (x = 0)) x.msb false false (flagVS f) (flagSAT f) (flagDZ f) := by
  rw [tstFlags, flags_result, Bool.or_false]

/-- MIN: the smaller of two signed numbers, with C where it is the second (R112). -/
theorem minRes_eq (f : Flg) (x y : BitVec w) :
    (minRes f x y).val = (if y.toInt < x.toInt then y else x) ∧ flagC (minRes f x y).flg = decide (y.toInt < x.toInt) := by
  simp only [minRes, flags_result, flags_mkFlg_rest, decide_eq_true_eq, and_self]

theorem maxRes_eq (f : Flg) (x y : BitVec w) :
    (maxRes f x y).val = (if x.toInt < y.toInt then y else x) ∧ flagC (maxRes f x y).flg = decide (x.toInt < y.toInt) := by
  simp only [maxRes, flags_result, flags_mkFlg_rest, decide_eq_true_eq, and_self]

/-- A left shift of ASH, by 0 included, is exact where it stays in range and saturates or wraps where it does not (R115). -/
theorem ashRes_left (f : Flg) (sat : Bool) (x : BitVec w) {n : Int} (hn : 0 ≤ n) :
    (ashRes f sat x n).val = if outOfRange w (x.toInt * (2 ^ n.toNat : Nat)) && sat then (if x.msb then minNeg w else maxPos w)
      else BitVec.ofInt w (x.toInt * (2 ^ n.toNat : Nat)) := by
  obtain ⟨hzero, -, hpos, -⟩ := ashRes_cases f sat x n
  obtain rfl | hlt := hn.eq_or_lt
  · rw [hzero rfl]
    simp [outOfRange_toInt]
  · exact hpos hlt

/-- LSH by a signed count, with V clear (R115). -/
theorem lshRes_eq (f : Flg) (x : BitVec w) (n : Int) :
    flagV (lshRes f x n).flg = false ∧ (lshRes f x n).val =
      if n < 0 then BitVec.ofNat w (x.toNat / 2 ^ (-n).toNat) else BitVec.ofNat w (x.toNat * 2 ^ n.toNat) := by
  unfold lshRes
  split
  · next hn =>
    subst hn
    exact ⟨flagV_setV _ _, by simp⟩
  · exact ⟨flagV_setV _ _, rfl⟩

/-- NEG: only the most negative value saturates (R116). -/
theorem negRes_eq (f : Flg) (x : BitVec w) :
    (x = minNeg w → (negRes f x).val = maxPos w ∧ flagV (negRes f x).flg = true ∧ flagSAT (negRes f x).flg = true) ∧
      (x ≠ minNeg w → (negRes f x).val = -x) := by
  refine ⟨fun h => ?_, fun h => ?_⟩
  · simp [negRes, h, addSAT, flags_result, flags_mkFlg, flags_mkFlg_rest]
  · simp [negRes, h, subRes_eq]

theorem absRes_eq (f : Flg) (x : BitVec w) :
    (x = minNeg w → (absRes f x).val = maxPos w ∧ flagV (absRes f x).flg = true ∧ flagSAT (absRes f x).flg = true) ∧
      (x ≠ minNeg w → (absRes f x).val = if x.msb then -x else x) := by
  refine ⟨fun h => ?_, fun h => ?_⟩
  · simp [absRes, h, addSAT, flagV_setV, flags_mkFlg, flags_mkFlg_rest]
  · simp [absRes, h]

/-- SAT on an accumulator clamps to the signed 64-bit range and sets V where it acts (R117). -/
theorem satRes72_eq (f : Flg) (x : Acc) :
    (satRes72 f x).val.toInt = max (-(2 ^ 63)) (min (2 ^ 63 - 1) x.toInt) ∧
      (flagV (satRes72 f x).flg ↔ x.toInt < -(2 ^ 63) ∨ 2 ^ 63 ≤ x.toInt) := by
  have hlo : (BitVec.ofInt 72 (-(2 ^ 63 : Nat))).toInt = -(2 ^ 63) := by decide
  have hhi : (BitVec.ofInt 72 ((2 ^ 63 : Nat) - 1)).toInt = 2 ^ 63 - 1 := by decide
  refine ⟨?_, ?_⟩
  · unfold satRes72 clampRes
    dsimp only
    split
    · rw [hlo]
      omega
    · split
      · rw [hhi]
        omega
      · omega
  · unfold satRes72 clampRes
    rw [flagV_addSAT, flagV_setV, Bool.or_eq_true, decide_eq_true_eq, decide_eq_true_eq]
    omega

/-- NORM of an accumulator: the sign bits below bit 71, less 8 (R118). -/
theorem normRes_acc (f : Flg) (x : Acc) :
    (normRes f x 8).val = BitVec.ofInt 32 ((signBits x : Int) - 8) ∧ flagZ (normRes f x 8).flg = decide (x = 0) ∧
      flagN (normRes f x 8).flg = decide (signBits x < 8) := by
  have hneg : decide ((signBits x : Int) - 8 < 0) = decide (signBits x < 8) := by
    rw [decide_eq_decide]
    omega
  refine ⟨rfl, ?_, ?_⟩
  · simp only [normRes, setV, setZN, flags_mkFlg, toNat_eq_zero_iff]
  · simp only [normRes, setV, setZN, flags_mkFlg]
    exact hneg

/-! ### The slots -/

/-- A binary operation on accumulators leaves its result in its destination, with its flags. -/
theorem binA_effect {f : BinFn} (hf : writesDest f = true) {cd : Cond} {cb ad as1 : Nat} {s2 : ASrc2}
    (h : slotRuns s c m ⟨cd, cb, .binA f ad as1 s2⟩ = true) :
    let r := slotRegs s c m
    let o := binRes f (satMode r) r.flg (accOf r as1) (asrc2 r s2) (asrcCount r s2)
    ∃ u, runSlot c (isBin f) (binBody c) s = .next u ∧ accOf (regsOf u c) ad = o.val ∧ (regsOf u c).flg = o.flg := by
  intro r o
  obtain ⟨u, hu, ⟨-, ha, -, -, -, -, -, -, hflg, -⟩, -⟩ := runSlot_regs h (want := isBin f) (by simp [isBin]) (body := binBody c)
    (f := binA f ad as1 s2) rfl
  have hres : binA f ad as1 s2 r = setAcc { r with flg := o.flg } ad o.val := if_pos hf
  rw [show slotRegs s c m = r from rfl, hres] at ha hflg
  exact ⟨u, hu, (congrArg (smGet (fun _ => (0 : Acc)) · ad) ha).trans (accOf_setAcc (regsOf_files_wf (slotRuns_wf h) c).1 ad _),
    hflg⟩

/-- CMP and TST write flags alone. -/
theorem binA_effect_flags {f : BinFn} (hf : writesDest f = false) {cd : Cond} {cb ad as1 : Nat} {s2 : ASrc2}
    (h : slotRuns s c m ⟨cd, cb, .binA f ad as1 s2⟩ = true) :
    let r := slotRegs s c m
    ∃ u, runSlot c (isBin f) (binBody c) s = .next u ∧ (regsOf u c).a = r.a ∧ (regsOf u c).d = r.d ∧
      (regsOf u c).flg = (binRes f (satMode r) r.flg (accOf r as1) (asrc2 r s2) (asrcCount r s2)).flg := by
  intro r
  obtain ⟨u, hu, ⟨hd, ha, -, -, -, -, -, -, hflg, -⟩, -⟩ := runSlot_regs h (want := isBin f) (by simp [isBin]) (body := binBody c)
    (f := binA f ad as1 s2) rfl
  have hres : binA f ad as1 s2 r =
      { r with flg := (binRes f (satMode r) r.flg (accOf r as1) (asrc2 r s2) (asrcCount r s2)).flg } := if_neg (by simp [hf])
  rw [show slotRegs s c m = r from rfl, hres] at hd ha hflg
  exact ⟨u, hu, ha, hd, hflg⟩

/-- A row that leaves a result in an accumulator, with its flags. -/
theorem unA_effect {f : UnFn} {cd : Cond} {cb ad as1 : Nat} {o : Res 72} (h : slotRuns s c m ⟨cd, cb, .unA f ad as1⟩ = true)
    (ho : unA f ad as1 (slotRegs s c m) = setAcc { slotRegs s c m with flg := o.flg } ad o.val) :
    ∃ u, runSlot c (isUn f) (unBody c) s = .next u ∧ accOf (regsOf u c) ad = o.val ∧ (regsOf u c).flg = o.flg := by
  obtain ⟨u, hu, ⟨-, ha, -, -, -, -, -, -, hflg, -⟩, -⟩ := runSlot_regs h (want := isUn f) (by simp [isUn]) (body := unBody c)
    (f := unA f ad as1) rfl
  rw [ho] at ha hflg
  exact ⟨u, hu, (congrArg (smGet (fun _ => (0 : Acc)) · ad) ha).trans (accOf_setAcc (regsOf_files_wf (slotRuns_wf h) c).1 ad _),
    hflg⟩

/-- Settles O4: each row leaves the result of its function, whose value and flags the rules give. -/
theorem aluAccumulatorForms : Obligations.AluAccumulatorForms := by
  refine ⟨?add, ?sub, ?cmp, ?tst, ?min, ?max, ?ash, ?lsh, ?neg, ?abs, ?sat, ?norm⟩
  case add =>
    intro s c m cd cb ad as1 s2 r x y v e h
    obtain ⟨u, hu, hval, hflg⟩ := binA_effect (f := .add) rfl h
    have hadd := addRes_eq r.flg x y
    exact ⟨u, hu, hval.trans (congrArg Res.val hadd), flags_of_eq_mkFlg (hflg.trans (congrArg Res.flg hadd))⟩
  case sub =>
    intro s c m cd cb ad as1 s2 r x y v e h
    obtain ⟨u, hu, hval, hflg⟩ := binA_effect (f := .sub) rfl h
    have hsub := subRes_eq r.flg x y
    exact ⟨u, hu, hval.trans (congrArg Res.val hsub), flags_of_eq_mkFlg (hflg.trans (congrArg Res.flg hsub))⟩
  case cmp =>
    intro s c m cd cb as1 s2 r x y v e h
    obtain ⟨u, hu, ha, -, hflg⟩ := binA_effect_flags (f := .cmp) rfl h
    exact ⟨u, hu, ha, flags_of_eq_mkFlg (hflg.trans (congrArg Res.flg (subRes_eq r.flg x y) :))⟩
  case tst =>
    intro s c m cd cb as1 s2 r x h
    obtain ⟨u, hu, ha, hd, hflg⟩ := binA_effect_flags (f := .tst) rfl h
    exact ⟨u, hu, ha, hd, hflg.trans (tstFlags_eq r.flg x)⟩
  case min =>
    intro s c m cd cb ad as1 s2 r x y h
    obtain ⟨u, hu, hval, hflg⟩ := binA_effect (f := .min) rfl h
    obtain ⟨hmin, hc⟩ := minRes_eq r.flg x y
    exact ⟨u, hu, hval.trans hmin, (congrArg flagC hflg).trans hc⟩
  case max =>
    intro s c m cd cb ad as1 s2 r x y h
    obtain ⟨u, hu, hval, hflg⟩ := binA_effect (f := .max) rfl h
    obtain ⟨hmax, hc⟩ := maxRes_eq r.flg x y
    exact ⟨u, hu, hval.trans hmax, (congrArg flagC hflg).trans hc⟩
  case ash =>
    intro s c m cd cb ad as1 s2 r x n h
    obtain ⟨u, hu, hval, -⟩ := binA_effect (f := .ash) rfl h
    obtain ⟨-, hright, -, -⟩ := ashRes_cases r.flg (satMode r) x n
    exact ⟨u, hu, fun hn => hval.trans (hright hn), fun hn => hval.trans (ashRes_left r.flg (satMode r) x hn)⟩
  case lsh =>
    intro s c m cd cb ad as1 s2 r x n h
    obtain ⟨u, hu, hval, hflg⟩ := binA_effect (f := .lsh) rfl h
    obtain ⟨hv, hshift⟩ := lshRes_eq r.flg x n
    exact ⟨u, hu, (congrArg flagV hflg).trans hv, hval.trans hshift⟩
  case neg =>
    intro s c m cd cb ad as1 r x h
    obtain ⟨u, hu, hval, hflg⟩ := unA_effect (o := negRes r.flg x) h rfl
    refine ⟨u, hu, ?_⟩
    rw [hval, hflg]
    exact negRes_eq r.flg x
  case abs =>
    intro s c m cd cb ad as1 r x h
    obtain ⟨u, hu, hval, hflg⟩ := unA_effect (o := absRes r.flg x) h rfl
    refine ⟨u, hu, ?_⟩
    rw [hval, hflg]
    exact absRes_eq r.flg x
  case sat =>
    intro s c m cd cb ad as1 r x h
    obtain ⟨u, hu, hval, hflg⟩ := unA_effect (o := satRes72 r.flg x) h rfl
    refine ⟨u, hu, ?_⟩
    rw [hval, hflg]
    exact satRes72_eq r.flg x
  case norm =>
    intro s c m cd cb dd as1 r x h
    obtain ⟨u, hu, ⟨hd, -, -, -, -, -, -, -, hflg, -⟩, -⟩ := runSlot_regs h (want := isUn .norm) rfl (body := unBody c)
      (f := normA dd as1) rfl
    obtain ⟨hval, hz, hn⟩ := normRes_acc r.flg x
    exact ⟨u, hu, (congrArg (rf · dd) hd).trans ((rf_setD (regsOf_d_wf (slotRuns_wf h) c) dd _).trans hval),
      (congrArg flagZ hflg).trans hz, (congrArg flagN hflg).trans hn⟩

end Sys2Proof.Machine
end

section
/-! PROOFS. Bit operations (R77, R93, R136): what a bit operand reads after it was written, and the slots of the eight rows. -/
namespace Sys2Proof.Machine

variable {s u : State} {c : CoreRef} {m : Mode}

/-! ### Bits written -/

/-- A flag written through its mirror reads back. -/
theorem getLsbD_flgBit (f : Flg) {i : Nat} (hi : i < 7) (b : Bool) : (flgBit f i b).getLsbD i = b := by
  have hold : (f.getLsbD i).toNat = f.toNat >>> i % 2 := by
    rw [BitVec.getLsbD, Nat.toNat_testBit, Nat.shiftRight_eq_div_pow]
  unfold flgBit
  rw [hold, setBits_split, BitVec.getLsbD_ofNat, Nat.testBit_two_pow_mul_add _ (Nat.mod_lt _ (by positivity))]
  cases b <;> simp [hi]

theorem readBit_mirror {a : Nat} (h : 0x10 ≤ a ∧ a ≤ 0x16) : readBit s c a = (regsOf s c).flg.getLsbD (a - 0x10) := by
  simp [readBit, h, regsOf]

theorem readBit_program {a : Nat} (h : 0x100 ≤ a) : readBit s c a = smGet (fun _ => false) (coreOf s c).bits a := by
  have hmirror : ¬ a ≤ 0x16 := by omega
  simp [readBit, h, hmirror]

theorem writeBit_mirror {a : Nat} (h : 0x10 ≤ a ∧ a ≤ 0x16) (k : Core) (b : Bool) :
    writeBit k a b = { k with r := { k.r with flg := flgBit k.r.flg (a - 0x10) b } } := by
  simp [writeBit, h]

theorem writeBit_program {a : Nat} (h : 0x100 ≤ a ∧ a < 0x1000) (k : Core) (b : Bool) :
    writeBit k a b = { k with bits := smSet (fun _ => false) a b k.bits } := by
  have hmirror : ¬ a ≤ 0x16 := by omega
  simp [writeBit, h, hmirror]

theorem bitWritable_space {a : Nat} : bitWritable (.space a) = true ↔ (0x10 ≤ a ∧ a ≤ 0x16) ∨ (0x100 ≤ a ∧ a < 0x1000) := by
  simp [bitWritable]

/-- A core that a write to a bit operand left reads the bit written there, where the write sticks. -/
theorem readBitOp_writeBitOp {k : Core} (hk : k.wf = true) {o : BitOp} (hw : bitWritable o = true) (b : Bool)
    (hu : SameCore (writeBitOp k o b) (coreOf u c)) : readBitOp u c o = b := by
  simp only [Core.wf, Regs.wf, List.all_cons, Bool.and_eq_true] at hk
  obtain ⟨⟨⟨⟨-, hd, -⟩, -⟩, -⟩, hbits⟩ := hk
  obtain ⟨⟨hud, -, -, -, -, -, -, -, huflg, -⟩, -, hubits⟩ := hu
  cases o with
  | dreg n i =>
    have hi : i < 32 := by simpa [bitWritable] using hw
    have hword : rf (coreOf u c).r.d n = wPut (rf k.r.d n) i i b.toNat := (congrArg (rf · n) hud).trans (rf_setD hd n _)
    change (rf (coreOf u c).r.d n).getLsbD i = b
    rw [hword, getLsbD_wPut _ (Nat.le_refl i) hi, if_pos ⟨Nat.le_refl i, Nat.le_refl i⟩]
    cases b <;> simp
  | space a =>
    change readBit u c a = b
    obtain ha | ha := bitWritable_space.mp hw
    · rw [readBit_mirror ha, regsOf, huflg, writeBitOp, writeBit_mirror ha]
      exact getLsbD_flgBit _ (by omega) b
    · rw [readBit_program ha.1, hubits, writeBitOp, writeBit_program ha]
      exact smGet_smSet_same hbits a b

/-- A write to a read-only bit leaves the core (R93). -/
theorem writeBitOp_readOnly {o : BitOp} (h : bitReadOnly o = true) (k : Core) (b : Bool) : writeBitOp k o b = k := by
  cases o with
  | dreg n i => cases h
  | space a =>
    have hno : bitWritable (.space a) = false := by simpa [bitReadOnly] using h
    simp only [bitWritable, Bool.or_eq_false_iff] at hno
    change writeBit k a b = k
    simp only [writeBit, hno, Bool.false_eq_true, if_false]

/-! ### The slots -/

/-- A bit operation other than BTST writes its operand. -/
theorem bitBody_writes {f : BitFn} (hf : f ≠ .btst) (bd bs : BitOp) (b : Bool) :
    bitBody c (.bit f bd bs) m b s =
      .done (setCore s c (writeBitOp (coreOf s c) bd (bitRes f (readBitOp s c bd) (readBitOp s c bs)))) := by
  cases f
  case btst => exact absurd rfl hf
  all_goals rfl

/-- What a slot of a bit operation other than BTST leaves of its operand (R93, R136). -/
theorem bit_effect {f : BitFn} (hf : f ≠ .btst) {cd : Cond} {cb : Nat} {bd bs : BitOp}
    (h : slotRuns s c m ⟨cd, cb, .bit f bd bs⟩ = true) :
    ∃ u, runSlot c (isBit f) (bitBody c) s = .next u ∧
      (bitWritable bd = true →
        readBitOp u c bd = bitRes f (readBitOp (slotState s c m) c bd) (readBitOp (slotState s c m) c bs)) ∧
      (bitReadOnly bd = true → (regsOf u c).d = (slotRegs s c m).d ∧ (regsOf u c).flg = (slotRegs s c m).flg ∧
        (coreOf u c).bits = (coreOf (slotState s c m) c).bits) := by
  have hwf := slotRuns_wf h
  obtain ⟨u, hu, hcore⟩ := finishSlot_done (s := s) (sl := ⟨cd, cb, .bit f bd bs⟩) (m := m) (c := c)
    ((State.coresWf hwf).setCore (c := c) (writeBitOp (coreOf (slotState s c m) c) bd
      (bitRes f (readBitOp (slotState s c m) c bd) (readBitOp (slotState s c m) c bs))))
  rw [coreOf_setCore (State.coresWf hwf)] at hcore
  refine ⟨u, ?_, fun hw => readBitOp_writeBitOp (coreOf_wf hwf c) hw _ hcore, fun hro => ?_⟩
  · rw [runSlot_runs h (by simp [isBit]), bitBody_writes hf]
    exact hu
  · rw [writeBitOp_readOnly hro] at hcore
    obtain ⟨⟨hd, -, -, -, -, -, -, -, hflg, -⟩, -, hbits⟩ := hcore
    exact ⟨hd, hflg, hbits⟩

/-- BTST puts the bit in C and its complement in Z (R136). -/
theorem btst_effect {cd : Cond} {cb : Nat} {bd bs : BitOp} (h : slotRuns s c m ⟨cd, cb, .bit .btst bd bs⟩ = true) :
    let b := readBitOp (slotState s c m) c bd
    ∃ u, exec (.btst c) s = .next u ∧ flagC (regsOf u c).flg = b ∧ flagZ (regsOf u c).flg = !b ∧
      (regsOf u c).d = (slotRegs s c m).d ∧ (coreOf u c).bits = (coreOf (slotState s c m) c).bits := by
  intro b
  obtain ⟨u, hu, ⟨hd, -, -, -, -, -, -, -, hflg, -⟩, -, hbits⟩ := runSlot_regs h (want := isBit .btst) rfl (body := bitBody c)
    (f := fun r => { r with flg := setC (setZN r.flg (!b) (flagN r.flg)) b }) rfl
  refine ⟨u, hu, ?_, ?_, hd, hbits⟩
  · rw [hflg, setC, (flags_mkFlg_rest _ _ _ _ _ _ _).1]
  · rw [hflg, setC, (flags_mkFlg _ _ _ _ _ _ _).1, setZN, (flags_mkFlg _ _ _ _ _ _ _).1]

/-- Settles O5: the operand that a bit operation writes reads back, or, read-only, leaves the core; BTST writes flags alone. -/
theorem bitOperations : Obligations.BitOperations :=
  ⟨fun _ _ _ _ _ _ _ h => bit_effect (by decide) h, fun _ _ _ _ _ _ _ h => bit_effect (by decide) h,
    fun _ _ _ _ _ _ _ => bit_effect (f := .bnot) (by decide), fun _ _ _ _ _ _ _ => btst_effect,
    fun _ _ _ _ _ _ _ => bit_effect (f := .band) (by decide), fun _ _ _ _ _ _ _ => bit_effect (f := .bor) (by decide),
    fun _ _ _ _ _ _ _ => bit_effect (f := .bxor) (by decide), fun _ _ _ _ _ _ _ => bit_effect (f := .bmov) (by decide)⟩

end Sys2Proof.Machine
end

section
/-! PROOFS. What a slot leaves beside its core (R94, R110, R112, R123, R137): the frame of the ALU, multiply and search rows. -/
namespace Sys2Proof.Machine

variable {s t u w : State} {c : CoreRef} {m : Mode}

/-! ### Every other core -/

theorem SameElsewhere.trans (h : SameElsewhere s t c) (g : SameElsewhere t u c) : SameElsewhere s u c := by
  obtain ⟨hregs, htabs, hmem, hlines, hpub, hslip, hcore⟩ := h
  obtain ⟨gregs, gtabs, gmem, glines, gpub, gslip, gcore⟩ := g
  exact ⟨gregs.trans hregs, gtabs.trans htabs, gmem.trans hmem, glines.trans hlines, gpub.trans hpub, gslip.trans hslip,
    fun e he => (gcore e he).trans (hcore e he)⟩

theorem sameElsewhere_setKern (hc : c.stew = false) (h : CoresWf s) (x : Kern) :
    SameElsewhere s (setKern s c.die c.idx x) c := by
  refine ⟨rfl, rfl, rfl, rfl, rfl, rfl, fun e he => ?_⟩
  unfold coreOf
  cases hstew : e.stew with
  | true => rfl
  | false =>
    have hkey : e.die * 144 + e.idx ≠ c.die * 144 + c.idx := by simpa [hc, hstew] using he
    exact congrArg Kern.core (smGet_smSet_ne h.1 hkey x)

theorem sameElsewhere_setStew (hc : c.stew = true) (h : CoresWf s) (x : Stew) :
    SameElsewhere s (setStew s c.die c.idx x) c := by
  refine ⟨rfl, rfl, rfl, rfl, rfl, rfl, fun e he => ?_⟩
  unfold coreOf
  cases hstew : e.stew with
  | false => rfl
  | true =>
    have hkey : e.die * 2 + e.idx ≠ c.die * 2 + c.idx := by simpa [hc, hstew] using he
    exact congrArg Stew.core (smGet_smSet_ne h.2 hkey x)

theorem sameElsewhere_setCore (h : CoresWf s) (k : Core) : SameElsewhere s (setCore s c k) c := by
  unfold setCore
  split
  · next hc => exact sameElsewhere_setStew hc h _
  · next hc => exact sameElsewhere_setKern (by simpa using hc) h _

theorem sameElsewhere_settle (h : CoresWf s) : SameElsewhere s (settle c s) c := by
  unfold settle settleHold
  dsimp only
  split
  · next hc =>
    split
    · exact sameElsewhere_setStew hc h _
    · exact ⟨rfl, rfl, rfl, rfl, rfl, rfl, fun _ _ => rfl⟩
  · exact ⟨rfl, rfl, rfl, rfl, rfl, rfl, fun _ _ => rfl⟩

/-- A slot whose body changes registers in `w` leaves all else of `w` as it is, and of its core what control does not touch. -/
theorem runSlot_elsewhere {sl : Slot} (h : slotRuns s c m sl = true) {want : Op → Bool} (hwant : want sl.op = true)
    {body : Op → Mode → Bool → State → Eff} {f : Regs → Regs}
    (hb : body sl.op m (slotCond (slotState s c m) c sl) (slotState s c m) = regsEff c w f) (hw : CoresWf w) :
    ∃ u, runSlot c want body s = .next u ∧ SameElsewhere w u c ∧ SameData (f (regsOf w c)) (regsOf u c) ∧
      (coreOf u c).free = (coreOf w c).free ∧ (coreOf u c).bits = (coreOf w c).bits := by
  have hset := hw.updRegs (c := c) f
  obtain ⟨u, hu, hdata, hfree, hbits⟩ := finishSlot_done (s := s) (sl := sl) (m := m) (c := c) hset
  rw [coreOf_updRegs hw] at hdata hfree hbits
  refine ⟨u, (runSlot_runs h hwant body).trans ((congrArg _ hb).trans hu), ?_, hdata, hfree, hbits⟩
  cases hu
  exact ((sameElsewhere_setCore hw _).trans (sameElsewhere_setCore hset _)).trans (sameElsewhere_settle (hset.setCore _))

/-- Of the core, what these rows leave of `w` beside the registers that they write and the pointers, with `x` in IX. -/
def RestStays (x : Word) (w u : State) (c : CoreRef) : Prop :=
  (regsOf u c).e = (regsOf w c).e ∧ (regsOf u c).b = (regsOf w c).b ∧ (regsOf u c).l = (regsOf w c).l ∧
    (regsOf u c).m = (regsOf w c).m ∧ (regsOf u c).ix = x ∧ (regsOf u c).kmode = (regsOf w c).kmode ∧
    (coreOf u c).free = (coreOf w c).free ∧ (coreOf u c).bits = (coreOf w c).bits

/-! ### Rows that write D registers -/

/-- `q` is `r` but for FLG, the pointers, IX and the D registers, of which those in `kept` stay. -/
structure WritesD (kept : Nat → Prop) (r q : Regs) : Prop where
  d : ∀ n, kept n → rf q.d n = rf r.d n
  rest : { q with d := r.d, flg := r.flg, p := r.p, ix := r.ix } = r

theorem writesD_setD {kept : Nat → Prop} {r : Regs} (hr : smWf (fun _ => (0 : Word)) 0 r.d = true) {dd : Nat} (hk : ¬ kept dd)
    (v : Word) (g : Flg) : WritesD kept r (setD { r with flg := g } dd v) :=
  ⟨fun n hn => smGet_smSet_ne hr (fun e : n = dd => hk (e ▸ hn)) v, rfl⟩

/-- What a slot leaves whose row writes D registers. -/
theorem writesD_effect {sl : Slot} {kept : Nat → Prop} (h : slotRuns s c m sl = true) {want : Op → Bool} (hwant : want sl.op = true)
    {body : Op → Mode → Bool → State → Eff} {f : Regs → Regs}
    (hb : body sl.op m (slotCond (slotState s c m) c sl) (slotState s c m) = regsEff c w f) (hw : CoresWf w)
    (hf : WritesD kept (regsOf w c) (f (regsOf w c))) :
    ∃ u, runSlot c want body s = .next u ∧ SameElsewhere w u c ∧ (∀ n, kept n → rf (regsOf u c).d n = rf (regsOf w c).d n) ∧
      (regsOf u c).a = (regsOf w c).a ∧ (regsOf u c).p = (f (regsOf w c)).p ∧ RestStays (f (regsOf w c)).ix w u c := by
  obtain ⟨hkept, hrest⟩ := hf
  obtain ⟨u, hu, helse, ⟨hd, ha, he, hp, hb, hl, hm, hix, -, hkm⟩, hfree, hbits⟩ := runSlot_elsewhere h hwant hb hw
  exact ⟨u, hu, helse, fun n hn => (congrArg (rf · n) hd).trans (hkept n hn), ha.trans (congrArg Regs.a hrest :), hp,
    he.trans (congrArg Regs.e hrest :), hb.trans (congrArg Regs.b hrest :), hl.trans (congrArg Regs.l hrest :),
    hm.trans (congrArg Regs.m hrest :), hix, hkm.trans (congrArg Regs.kmode hrest :), hfree, hbits⟩

/-! ### Rows that write accumulators -/

/-- `q` is `r` but for FLG, the pointers and the accumulators, of which those in `kept` stay. -/
structure WritesA (kept : Nat → Prop) (r q : Regs) : Prop where
  a : ∀ n, kept n → accOf q n = accOf r n
  rest : { q with a := r.a, flg := r.flg, p := r.p } = r

theorem writesA_setAcc {kept : Nat → Prop} {r : Regs} (hr : smWf (fun _ => (0 : Acc)) 0 r.a = true) {n : Nat} (hk : ¬ kept n)
    (v : Acc) (g : Flg) : WritesA kept r (setAcc { r with flg := g } n v) :=
  ⟨fun i hi => smGet_smSet_ne hr (fun e : i = n => hk (e ▸ hi)) v, rfl⟩

theorem writesA_setPair {kept : Nat → Prop} {r : Regs} (hr : smWf (fun _ => (0 : Acc)) 0 r.a = true) {n : Nat}
    (hk : ∀ i, kept i → i ≠ n ∧ i ≠ n + 1) (re im : Int) (g : Flg) : WritesA kept r { setPair r n re im with flg := g } := by
  refine ⟨fun i hi => ?_, rfl⟩
  obtain ⟨hre, him⟩ := hk i hi
  exact (smGet_smSet_ne (smWf_smSet hr (Nat.zero_le n) _) him _).trans (smGet_smSet_ne hr hre _)

/-- What a slot leaves whose row writes accumulators. -/
theorem writesA_effect {sl : Slot} {kept : Nat → Prop} (h : slotRuns s c m sl = true) {want : Op → Bool} (hwant : want sl.op = true)
    {body : Op → Mode → Bool → State → Eff} {f : Regs → Regs}
    (hb : body sl.op m (slotCond (slotState s c m) c sl) (slotState s c m) = regsEff c w f) (hw : CoresWf w)
    (hf : WritesA kept (regsOf w c) (f (regsOf w c))) :
    ∃ u, runSlot c want body s = .next u ∧ SameElsewhere w u c ∧ (∀ n, kept n → accOf (regsOf u c) n = accOf (regsOf w c) n) ∧
      (regsOf u c).p = (f (regsOf w c)).p ∧ (regsOf u c).d = (regsOf w c).d ∧ RestStays (regsOf w c).ix w u c := by
  obtain ⟨hkept, hrest⟩ := hf
  obtain ⟨u, hu, helse, ⟨hd, ha, he, hp, hb, hl, hm, hix, -, hkm⟩, hfree, hbits⟩ := runSlot_elsewhere h hwant hb hw
  exact ⟨u, hu, helse, fun n hn => (congrArg (smGet (fun _ => (0 : Acc)) · n) ha).trans (hkept n hn), hp,
    hd.trans (congrArg Regs.d hrest :), he.trans (congrArg Regs.e hrest :), hb.trans (congrArg Regs.b hrest :),
    hl.trans (congrArg Regs.l hrest :), hm.trans (congrArg Regs.m hrest :), hix.trans (congrArg Regs.ix hrest :),
    hkm.trans (congrArg Regs.kmode hrest :), hfree, hbits⟩

/-! ### Pointers of operands -/

/-- The registers that an update of a pointer reads are the same. -/
def SamePtrs (r q : Regs) : Prop := q.p = r.p ∧ q.b = r.b ∧ q.l = r.l ∧ q.m = r.m

theorem SamePtrs.postDual {r q : Regs} (h : SamePtrs r q) (o : DualOp) : SamePtrs (postDual c r o) (postDual c q o) := by
  cases o with
  | reg n => exact h
  | mem mo =>
    obtain ⟨hp, hb, hl, hm⟩ := h
    refine ⟨?_, hb, hl, hm⟩
    simp only [Machine.postDual, postMod, mSigned, hp, hb, hl, hm]

theorem WritesA.postDual {kept : Nat → Prop} {r q : Regs} (h : WritesA kept r q) (o : DualOp) : WritesA kept r (postDual c q o) := by
  cases o with
  | reg n => exact h
  | mem mo => exact ⟨h.a, h.rest⟩

theorem WritesD.postDual {kept : Nat → Prop} {r q : Regs} (h : WritesD kept r q) (o : DualOp) : WritesD kept r (postDual c q o) := by
  cases o with
  | reg n => exact h
  | mem mo => exact ⟨h.d, h.rest⟩

/-! ### The rows -/

theorem exec_binInstr (f : BinFn) (c : CoreRef) (s : State) : exec (binInstr f c) s = runSlot c (isBin f) (binBody c) s := by
  cases f <;> rfl

theorem exec_unInstr (f : UnFn) (c : CoreRef) (s : State) : exec (unInstr f c) s = runSlot c (isUn f) (unBody c) s := by
  cases f <;> rfl

theorem writesDest_eq_false {f : BinFn} (h : f = .cmp ∨ f = .tst) : writesDest f = false := by
  obtain rfl | rfl := h <;> rfl

theorem binD_writes (f : BinFn) (dd ds1 : Nat) (s2 : Src2) {r : Regs} (hr : smWf (fun _ => (0 : Word)) 0 r.d = true) :
    WritesD (fun n => n ≠ dd ∨ f = .cmp ∨ f = .tst) r (binD f dd ds1 s2 r) := by
  unfold binD
  dsimp only
  split
  · next hdest =>
    refine writesD_setD hr (fun hkept => ?_) _ _
    simp [writesDest_eq_false (hkept.resolve_left fun hne => hne rfl)] at hdest
  · exact ⟨fun _ _ => rfl, rfl⟩

theorem binA_writes (f : BinFn) (ad as1 : Nat) (s2 : ASrc2) {r : Regs} (hr : smWf (fun _ => (0 : Acc)) 0 r.a = true) :
    WritesA (fun n => n ≠ ad ∨ f = .cmp ∨ f = .tst) r (binA f ad as1 s2 r) := by
  unfold binA
  dsimp only
  split
  · next hdest =>
    refine writesA_setAcc hr (fun hkept => ?_) _ _
    simp [writesDest_eq_false (hkept.resolve_left fun hne => hne rfl)] at hdest
  · exact ⟨fun _ _ => rfl, rfl⟩

theorem binD_p_ix (f : BinFn) (dd ds1 : Nat) (s2 : Src2) (r : Regs) :
    (binD f dd ds1 s2 r).p = r.p ∧ (binD f dd ds1 s2 r).ix = r.ix := by
  unfold binD
  dsimp only
  split
  · exact ⟨rfl, rfl⟩
  · exact ⟨rfl, rfl⟩

theorem binA_p (f : BinFn) (ad as1 : Nat) (s2 : ASrc2) (r : Regs) : (binA f ad as1 s2 r).p = r.p := by
  unfold binA
  dsimp only
  split
  · rfl
  · rfl

theorem mulComplex_writes (f : MulFn) (n : Nat) (x y : Word × Word) {r : Regs} (hr : smWf (fun _ => (0 : Acc)) 0 r.a = true) :
    WritesA (fun i => f ≠ .bfly ∧ i ≠ n ∧ i ≠ n + 1) r (mulComplex f n x y r) ∧ SamePtrs r (mulComplex f n x y r) := by
  cases f
  case bfly => exact ⟨⟨fun i hi => absurd rfl hi.1, rfl⟩, rfl, rfl, rfl, rfl⟩
  all_goals exact ⟨writesA_setPair hr (fun i hi => hi.2) _ _ _, rfl, rfl, rfl, rfl⟩

theorem searchD_writes (f : SearchFn) (dd : Nat) (v : Word) (a : Option Word) {r : Regs}
    (hr : smWf (fun _ => (0 : Word)) 0 r.d = true) :
    WritesD (· ≠ dd) r (searchD f dd v a r) ∧ SamePtrs r (searchD f dd v a r) := by
  have hd := writesD_setD (kept := (· ≠ dd)) hr (fun hne => hne rfl) (searchRes r.flg f (rf r.d dd) v).val
    (searchRes r.flg f (rf r.d dd) v).flg
  unfold searchD
  dsimp only
  split
  · split
    · exact ⟨⟨hd.d, hd.rest⟩, rfl, rfl, rfl, rfl⟩
    · exact ⟨hd, rfl, rfl, rfl, rfl⟩
  · exact ⟨hd, rfl, rfl, rfl, rfl⟩

theorem mulBody_real {f : MulFn} (hf : isComplex f = false) {n : Nat} {s1 s2 : DualOp} {int b : Bool} {x y : Word}
    (hx : readDual s c s1 = .ok x t) (hy : readDual t c s2 = .ok y u) :
    mulBody c (.mul f n s1 s2 int .none) m b s = regsEff c u fun r => postDual c (postDual c (mulReal f n int x y r) s1) s2 := by
  simp only [mulBody, hf, hx, hy, Got.toEff]
  rfl

theorem mulBody_complex {f : MulFn} (hf : isComplex f = true) {n : Nat} {s1 s2 : DualOp} {b : Bool} {x y : Word × Word}
    (hx : readPair s c s1 = .ok x t) (hy : readPair t c s2 = .ok y u) :
    mulBody c (.mul f n s1 s2 false .none) m b s = regsEff c u fun r => postDual c (postDual c (mulComplex f n x y r) s1) s2 := by
  simp only [mulBody, hf, hx, hy, Got.toEff]
  rfl

/-- The address that IX takes from a search step on a word of memory. -/
def searchAddr (r : Regs) (src : DualOp) : Option Word :=
  match src with
  | .mem mo => some (rf r.p mo.ptr)
  | .reg _ => none

theorem searchBody_plain {f : SearchFn} {dd : Nat} {src : DualOp} {b : Bool} {y : Word} (hy : readDual s c src = .ok y t) :
    searchBody c (.search f dd src .none) m b s =
      regsEff c t fun r => postDual c (searchD f dd y (searchAddr (regsOf s c) src) r) src := by
  simp only [searchBody, hy, Got.toEff]
  cases src <;> rfl

/-- Settles O16: each row changes registers alone, in the state that its operands' reads leave, so that everything outside the core stays;
of the registers it writes its destination, FLG and the pointers of its operands. -/
theorem aluFrame : Obligations.AluFrame := by
  refine ⟨?binD, ?unD, ?div, ?binA, ?unA, ?normA, ?real, ?complex, ?search⟩
  case binD =>
    intro s c m cd cb f dd ds1 s2 v h
    have hwf := slotRuns_wf h
    obtain ⟨hp, hix⟩ := binD_p_ix f dd ds1 s2 (regsOf v c)
    have heffect := writesD_effect h (want := isBin f) (by simp [isBin]) (body := binBody c) rfl (State.coresWf hwf)
      (binD_writes f dd ds1 s2 (regsOf_d_wf hwf c))
    rw [hp, hix] at heffect
    exact exec_binInstr f c s ▸ heffect
  case unD =>
    intro s c m cd cb f dd ds v h
    have hwf := slotRuns_wf h
    exact exec_unInstr f c s ▸ writesD_effect h (by simp [isUn]) (f := unD f dd ds) rfl (State.coresWf hwf)
      (writesD_setD (kept := (· ≠ dd)) (regsOf_d_wf hwf c) (fun hne => hne rfl) _ _)
  case div =>
    intro s c m cd cb frac dd ds1 ds2 v h
    have hwf := slotRuns_wf h
    exact writesD_effect h (want := isDiv) rfl (f := divD frac dd ds1 ds2) rfl (State.coresWf hwf)
      (writesD_setD (kept := (· ≠ dd)) (regsOf_d_wf hwf c) (fun hne => hne rfl) _ _)
  case binA =>
    intro s c m cd cb f ad as1 s2 v h
    have hwf := slotRuns_wf h
    obtain ⟨u, hu, helse, ha, hp, hd, hrest⟩ := writesA_effect h (want := isBin f) (by simp [isBin]) (body := binBody c) rfl
      (State.coresWf hwf) (binA_writes f ad as1 s2 (regsOf_files_wf hwf c).1)
    exact ⟨u, (exec_binInstr f c s).trans hu, helse, ha, hd, hp.trans (binA_p f ad as1 s2 _), hrest⟩
  case unA =>
    intro s c m cd cb f ad as1 v h
    have hwf := slotRuns_wf h
    obtain ⟨u, hu, helse, ha, hp, hd, hrest⟩ := writesA_effect h (want := isUn f) (by simp [isUn]) (body := unBody c)
      (f := unA f ad as1) rfl
      (State.coresWf hwf) (writesA_setAcc (kept := (· ≠ ad)) (regsOf_files_wf hwf c).1 (fun hne => hne rfl) _ _)
    exact ⟨u, (exec_unInstr f c s).trans hu, helse, ha, hd, hp, hrest⟩
  case normA =>
    intro s c m cd cb dd as1 v h
    have hwf := slotRuns_wf h
    exact writesD_effect h (want := isUn .norm) rfl (f := normA dd as1) rfl (State.coresWf hwf)
      (writesD_setD (kept := (· ≠ dd)) (regsOf_d_wf hwf c) (fun hne => hne rfl) _ _)
  case real =>
    intro s c m cd cb f n s1 s2 int x y w v h hf hx hy hv
    have hwrites := writesA_setAcc (kept := (· ≠ n)) (regsOf_files_wf hv c).1 (fun hne => hne rfl)
    have hptrs : SamePtrs (regsOf v c) (mulReal f n int x y (regsOf v c)) := ⟨rfl, rfl, rfl, rfl⟩
    obtain ⟨u, hu, helse, ha, hp, hrest⟩ := writesA_effect h (want := isMul f) (by simp [isMul]) (mulBody_real hf hx hy)
      (State.coresWf hv) (((hwrites _ _).postDual s1).postDual s2)
    exact ⟨u, (exec_mulInstr f c s).trans hu, helse, ha, hp.trans ((hptrs.postDual s1).postDual s2).1, hrest⟩
  case complex =>
    intro s c m cd cb f n s1 s2 x y w v h hf hx hy hv
    obtain ⟨hwrites, hptrs⟩ := mulComplex_writes f n x y (regsOf_files_wf hv c).1
    obtain ⟨u, hu, helse, ha, hp, hrest⟩ := writesA_effect h (want := isMul f) (by simp [isMul]) (mulBody_complex hf hx hy)
      (State.coresWf hv) ((hwrites.postDual s1).postDual s2)
    exact ⟨u, (exec_mulInstr f c s).trans hu, helse, fun hb i hn hn1 => ha i ⟨hb, hn, hn1⟩,
      hp.trans ((hptrs.postDual s1).postDual s2).1, hrest⟩
  case search =>
    intro s c m cd cb f dd src y v h hy hv
    obtain ⟨hwrites, hptrs⟩ := searchD_writes f dd y (searchAddr (slotRegs s c m) src) (regsOf_d_wf hv c)
    obtain ⟨u, hu, helse, hd, ha, hp, he, hb, hl, hm, -, hrest⟩ := writesD_effect h (want := isSearch f) (by simp [isSearch])
      (searchBody_plain hy) (State.coresWf hv) (hwrites.postDual src)
    exact ⟨u, (exec_searchInstr f c s).trans hu, helse, hd, hp.trans (hptrs.postDual src).1, ha, he, hb, hl, hm, hrest⟩

end Sys2Proof.Machine
end

section
/-! PROOFS. END, TRAP, BRK, VOTE and SWAPREQ (R104, R140, R147, R157, R161): the state that such a slot leaves, and the core that enters a
vector once its word has completed. -/
namespace Sys2Proof.Machine

variable {s t : State} {c : CoreRef} {m : Mode}

/-! ### What a slot leaves -/

theorem setCore_rest (s : State) (c : CoreRef) (k : Core) : { setCore s c k with kern := s.kern, stew := s.stew } = s := by
  unfold setCore
  split <;> rfl

theorem settle_rest (s : State) (c : CoreRef) : { settle c s with stew := s.stew } = s := by
  unfold settle settleHold
  dsimp only
  split
  · split <;> rfl
  · rfl

/-- The end of a slot leaves all but cores and the states of stewards. -/
theorem settle_setCore_rest (s : State) (c : CoreRef) (k : Core) :
    { settle c (setCore s c k) with kern := s.kern, stew := s.stew } = s :=
  (congrArg (fun x => { x with kern := s.kern, stew := s.stew }) (settle_rest (setCore s c k) c) :).trans (setCore_rest s c k)

/-- A steward that neither runs nor waits is not held. -/
theorem settle_stopped (hrun : (stew s c.die c.idx).st ≠ .run) (hwait : (stew s c.die c.idx).st ≠ .wait) : settle c s = s := by
  simp [settle, settleHold, hrun, hwait]

/-- A slot whose body completed in `t` changes beside cores nothing of it. -/
theorem runSlot_leaves {sl : Slot} (h : slotRuns s c m sl = true) {want : Op → Bool} (hwant : want sl.op = true)
    {body : Op → Mode → Bool → State → Eff}
    (hb : body sl.op m (slotCond (slotState s c m) c sl) (slotState s c m) = .done t) (ht : CoresWf t) :
    ∃ u, runSlot c want body s = .next u ∧ SameCore (coreOf t c) (coreOf u c) ∧ { u with kern := t.kern, stew := t.stew } = t := by
  obtain ⟨u, hu, hcore⟩ := finishSlot_done (s := s) (sl := sl) (m := m) (c := c) ht
  refine ⟨u, (runSlot_runs h hwant body).trans ((congrArg _ hb).trans hu), hcore, ?_⟩
  cases hu
  exact settle_setCore_rest t c _

/-- A slot whose body set control itself in `t` charges its core there. -/
theorem runSlot_charges {sl : Slot} (h : slotRuns s c m sl = true) {want : Op → Bool} (hwant : want sl.op = true)
    {body : Op → Mode → Bool → State → Eff}
    (hb : body sl.op m (slotCond (slotState s c m) c sl) (slotState s c m) = .jump t) :
    ∃ n b, runSlot c want body s = .next (settle c (setCore t c (charge (coreOf t c) n b))) :=
  ⟨slotCost c.stew sl, m = .sample && takesHoard (hoardMode (coreOf t c).r) sl, (runSlot_runs h hwant body).trans (by rw [hb]; rfl)⟩

/-- The kernel at the end of its slot. -/
theorem kern_settle_setCore (hc : c.stew = false) (h : CoresWf s) (k : Core) :
    kern (settle c (setCore s c k)) c.die c.idx = { kern s c.die c.idx with core := k } := by
  unfold settle
  rw [if_neg (by simp [hc]), kern_setCore hc h]

/-- The steward at the end of a slot that stopped it. -/
theorem stew_settle_setCore (hc : c.stew = true) (h : CoresWf s) (hrun : (stew s c.die c.idx).st ≠ .run)
    (hwait : (stew s c.die c.idx).st ≠ .wait) (k : Core) :
    stew (settle c (setCore s c k)) c.die c.idx = { stew s c.die c.idx with core := k } := by
  have hset : stew (setCore s c k) c.die c.idx = { stew s c.die c.idx with core := k } := by
    unfold setCore
    rw [if_pos hc]
    exact smGet_smSet_same h.2 _ _
  rw [settle_stopped (by rw [hset]; exact hrun) (by rw [hset]; exact hwait), hset]

/-! ### END (R147) -/

/-- The standby of a kernel depends on the registers and on the states of the kernels. -/
theorem standbyOf_setKern (h : CoresWf s) {d k : Nat} {x : Kern} (hx : x.st = (kern s d k).st) (e j : Nat) :
    standbyOf (setKern s d k x) e j = standbyOf s e j := by
  have hst (i : Nat) : (kern (setKern s d k x) e i).st = (kern s e i).st := by
    unfold kern setKern
    rw [smGet_smSet h.1]
    split
    · next hkey => rw [hx, kern, hkey]
    · rfl
  simp only [standbyOf, hst]
  rfl

/-- A kernel that has completed its END. -/
def endedKern (s : State) (d k tm : Nat) : Kern :=
  { kern s d k with
    ended := true, margin := some ((deadlineTenths s : Int) - tm)
    core := { (kern s d k).core with img := (kern s d k).core.r } }

/-- END of a kernel that no standby mirrors changes that kernel alone. -/
theorem endBody_alone (h : CoresWf s) {tm : Nat} (hdl : tm ≤ deadlineTenths s) (hsb : standbyOf s c.die c.idx = none) (b : Bool) :
    endBody tm c .end_ m b s = .jump (setKern s c.die c.idx (endedKern s c.die c.idx tm)) := by
  have hnone : standbyCopy (setKern s c.die c.idx (endedKern s c.die c.idx tm)) c.die c.idx =
      setKern s c.die c.idx (endedKern s c.die c.idx tm) := by
    unfold standbyCopy
    rw [standbyOf_setKern h (x := endedKern s c.die c.idx tm) rfl, hsb]
  refine (if_neg (Nat.not_lt.mpr hdl)).trans (congrArg Eff.jump ?_)
  exact (ite_congr rfl (fun _ => hnone) fun _ => rfl).trans (ite_self _)

theorem end_effect {cd : Cond} {cb tm : Nat} (h : slotRuns s c m ⟨cd, cb, .end_⟩ = true) (hc : c.stew = false)
    (hsb : standbyOf (slotState s c m) c.die c.idx = none) (hdl : tm ≤ deadlineTenths (slotState s c m)) :
    ∃ u, exec (.end_ c tm) s = .next u ∧ (kern u c.die c.idx).ended = true ∧
      (kern u c.die c.idx).margin = some ((deadlineTenths (slotState s c m) : Int) - tm) ∧
      (kern u c.die c.idx).core.img = slotRegs s c m ∧ regsOf u c = slotRegs s c m := by
  have hwf := State.coresWf (slotRuns_wf h)
  obtain ⟨n, b, hu⟩ := runSlot_charges h (want := isEnd) rfl (body := endBody tm c) (endBody_alone hwf hdl hsb _)
  have hset : kern (setKern (slotState s c m) c.die c.idx (endedKern (slotState s c m) c.die c.idx tm)) c.die c.idx =
      endedKern (slotState s c m) c.die c.idx tm := smGet_smSet_same hwf.1 _ _
  refine ⟨_, hu, ?_⟩
  rw [regsOf, slotRegs, regsOf, coreOf_kernel hc, coreOf_kernel hc, coreOf_kernel hc, kern_settle_setCore hc (hwf.setKern _ _ _), hset]
  exact ⟨rfl, rfl, rfl, rfl⟩

/-! ### TRAP in sample mode (R157, R372) -/

theorem queuePush_stew (s : State) (d q : Nat) (ws : List Word) : (queuePush s d q ws).stew = s.stew :=
  (StewFrame.queuePush (.refl s)).stew

/-- A disabled queue counts an entry as lost (R370). -/
theorem queuePush_disabled {d q : Nat} (h : bitF s (Reg.QUEUE_CFG d q) F.QUEUE_CFG_EN = false) (ws : List Word) :
    queuePush s d q ws = incReg s (Reg.QUEUE_LOST d q) := if_pos (by rw [h]; rfl)

/-- TRAP in sample mode pushes its event and leaves its core. -/
theorem trap_sample {cd : Cond} {cb n : Nat} (h : slotRuns s c .sample ⟨cd, cb, .trap n⟩ = true) :
    let v := slotState s c .sample
    let q := queuePush v c.die 0 [BitVec.ofNat 32 (2 ^ 28 + n * 2 ^ 16 + c.idx), pulseLow v]
    ∃ u, exec (.trap c) s = .next u ∧ SameCore (coreOf v c) (coreOf u c) ∧ { u with kern := q.kern, stew := q.stew } = q := by
  intro v q
  obtain ⟨hkern, hstew⟩ := State.coresWf (slotRuns_wf h)
  have hqkern : q.kern = v.kern := queuePush_kern _ _ _ _
  have hqstew : q.stew = v.stew := queuePush_stew _ _ _ _
  have hbody (b : Bool) : trapBody c (.trap n) .sample b v = .done q := by
    simp only [trapBody, if_true, postEvent, q, Nat.one_mul, Nat.zero_mul, Nat.add_zero]
  obtain ⟨u, hu, hcore, hrest⟩ := runSlot_leaves h (want := isTrap) rfl (body := trapBody c) (hbody _)
    ⟨by rw [hqkern]; exact hkern, by rw [hqstew]; exact hstew⟩
  have hsame : coreOf q c = coreOf v c := by
    unfold coreOf kern stew
    rw [hqkern, hqstew]
  exact ⟨u, hu, hsame ▸ hcore, hrest⟩

/-! ### Vectors of a completed word (R161, R162) -/

theorem iplExc_mkIpl (f : FreeRegs) (exc ie : Bool) (level : Nat) (h : f.ipl = mkIpl exc ie level) : iplExc f = exc := by
  have hbit : (exc.toNat * 16 + ie.toNat * 8 + level % 8) / 2 ^ 4 % 2 = exc.toNat := by
    have hie := ie.toNat_le
    have hexc := exc.toNat_le
    omega
  rw [iplExc, h, mkIpl, BitVec.getLsbD_ofNat, Nat.testBit_eq_decide_div_mod_eq, hbit]
  cases exc <;> rfl

theorem nextSlot_pc {k : Core} {pc : Nat} (h : levelAt k pc = none) : (nextSlot k pc).r.pc = pcAfter pc := by
  have hann : levelAt (if (({ k with annulMul := k.annulMul.filter fun e => e.1 ≠ pc } : Core).annulTo = some (pcAfter pc)) then
      { k with annulMul := k.annulMul.filter fun e => e.1 ≠ pc, annulTo := none }
      else { k with annulMul := k.annulMul.filter fun e => e.1 ≠ pc }) pc = none := by
    split <;> exact h
  unfold nextSlot
  dsimp only
  split
  · rfl
  · next j hj => rw [hann] at hj; cases hj

/-- The core of a word that has completed, entered at vector `vec` (R161, R162). -/
structure Entered (c : CoreRef) (k : Core) (vec code : Nat) (j : Core) : Prop where
  epc : j.free.epc = BitVec.ofNat 32 ((k.r.pc + 1) % 2 ^ 29)
  pc : j.r.pc = wrapPc c ((k.free.ivb.toNat + 8 * vec) % 2 ^ 29)
  icause : j.free.icause = BitVec.ofNat 32 (code * 2 ^ 16 + vec)
  exc : iplExc j.free = true

/-- TRAP and BRK of free mode enter their vector from the next address. -/
theorem raiseException_completed (h : CoresWf s) {vec : Nat} (hvec : vec = 1 ∨ vec = 2) (hexc : iplExc (coreOf s c).free = false)
    (hlev : levelAt (coreOf s c) (coreOf s c).r.pc = none) (code : Nat) :
    CoresWf (raiseException s c vec code) ∧ Entered c (coreOf s c) vec code (coreOf (raiseException s c vec code) c) := by
  have hsel : (decide (vec = 1) || decide (vec = 2)) = true := by simpa using hvec
  have hfree := (sameCore_nextSlot (coreOf s c) (coreOf s c).r.pc).2.1
  unfold raiseException
  simp only [hexc, hsel, Bool.false_eq_true, if_false, if_true]
  refine ⟨h.setCore _, ?_⟩
  rw [coreOf_setCore h]
  refine ⟨?_, ?_, ?_, iplExc_mkIpl _ true false _ rfl⟩
  · simp only [enterVector, nextSlot_pc hlev, pcAfter, Nat.mod_mod]
  · simp only [enterVector, hfree]
  · simp [enterVector]

/-- A slot whose body raises the vector of a completed word. -/
theorem runSlot_enters {sl : Slot} (h : slotRuns s c m sl = true) {want : Op → Bool} (hwant : want sl.op = true)
    {body : Op → Mode → Bool → State → Eff} {vec code : Nat} (hvec : vec = 1 ∨ vec = 2)
    (hb : body sl.op m (slotCond (slotState s c m) c sl) (slotState s c m) = .exc vec code (slotState s c m))
    (hexc : iplExc (coreOf (slotState s c m) c).free = false)
    (hlev : levelAt (coreOf (slotState s c m) c) (coreOf (slotState s c m) c).r.pc = none) :
    ∃ u, runSlot c want body s = .next u ∧ Entered c (coreOf (slotState s c m) c) vec code (coreOf u c) := by
  have hwf := State.coresWf (slotRuns_wf h)
  refine ⟨_, (runSlot_runs h hwant body).trans (by rw [hb]; rfl), ?_⟩
  obtain ⟨hcores, hentered⟩ := raiseException_completed (c := c) (hwf.setCore (c := c) (charge (coreOf (slotState s c m) c) (slotCost c.stew sl)
    (m = .sample && takesHoard (hoardMode (coreOf (slotState s c m) c).r) sl))) hvec
    (by rw [coreOf_setCore hwf]; exact hexc) (by rw [coreOf_setCore hwf]; exact hlev) code
  rw [coreOf_settle hcores]
  rw [coreOf_setCore hwf] at hentered
  exact ⟨hentered.epc, hentered.pc, hentered.icause, hentered.exc⟩

/-! ### BRK in a debug session (R161, R407) -/

/-- The state with a core halted for the debugger. -/
def debugHalt (s : State) (c : CoreRef) : State :=
  if c.stew then setStew s c.die c.idx { stew s c.die c.idx with st := .debug }
  else setKern s c.die c.idx { kern s c.die c.idx with suspended := true }

/-- Halting a core leaves its registers. -/
theorem debugHalt_core (h : CoresWf s) : CoresWf (debugHalt s c) ∧ coreOf (debugHalt s c) c = coreOf s c := by
  unfold debugHalt
  split
  · next hc =>
    refine ⟨⟨h.1, smWf_smSet h.2 (Nat.zero_le _) _⟩, ?_⟩
    rw [coreOf, coreOf, if_pos hc, if_pos hc]
    exact (congrArg Stew.core (smGet_smSet_same h.2 _ _) :)
  · exact ⟨h.setKern _ _ _, coreOf_setKern_same h rfl⟩

theorem stew_debugHalt (hc : c.stew = true) (h : CoresWf s) : (stew (debugHalt s c) c.die c.idx).st = .debug := by
  unfold debugHalt
  rw [if_pos hc]
  exact congrArg Stew.st (smGet_smSet_same h.2 _ _)

theorem kern_debugHalt (hc : c.stew = false) (h : CoresWf s) : (kern (debugHalt s c) c.die c.idx).suspended = true := by
  unfold debugHalt
  rw [if_neg (by simp [hc])]
  exact congrArg Kern.suspended (smGet_smSet_same h.1 _ _)

theorem brk_halts {cd : Cond} {cb n : Nat} (h : slotRuns s c m ⟨cd, cb, .brk n⟩ = true)
    (hdbg : debugHalts (slotState s c m) = true)
    (hlev : levelAt (coreOf (slotState s c m) c) (coreOf (slotState s c m) c).r.pc = none) :
    let k := coreOf (slotState s c m) c
    ∃ u, exec (.brk c) s = .next u ∧ (coreOf u c).brk = some n ∧ (regsOf u c).pc = pcAfter k.r.pc ∧
      (c.stew = true → (stew u c.die c.idx).st = .debug) ∧ (c.stew = false → (kern u c.die c.idx).suspended = true) ∧
      (regsOf u c).d = k.r.d := by
  intro k
  have hwf := State.coresWf (slotRuns_wf h)
  have hset := hwf.setCore (c := c) { afterPc k with brk := some n }
  obtain ⟨hhalt, hcore⟩ := debugHalt_core (c := c) hset
  obtain ⟨x, b, hu⟩ := runSlot_charges h (want := isBrk) rfl (body := brkBody c)
    (t := debugHalt (setCore (slotState s c m) c { afterPc k with brk := some n }) c) (if_pos hdbg)
  refine ⟨_, hu, ?_⟩
  rw [regsOf, coreOf_settle (hhalt.setCore _), coreOf_setCore hhalt, hcore.trans (coreOf_setCore hwf _)]
  refine ⟨rfl, nextSlot_pc hlev, fun hc => ?_, fun hc => ?_, (sameCore_nextSlot k k.r.pc).1.1⟩
  · have hst := stew_debugHalt hc hset
    rw [stew_settle_setCore hc hhalt (by rw [hst]; exact nofun) (by rw [hst]; exact nofun)]
    exact hst
  · rw [kern_settle_setCore hc hhalt]
    exact kern_debugHalt hc hset

/-! ### VOTE (R140, R411) -/

theorem SyncFrame.tabs_eq {d : Nat} (h : SyncFrame d s t) : t.tabs = s.tabs := (congrArg State.tabs h.rest :)

/-- A vote cast writes the word of the steward's own client. -/
theorem vote_casts {cd : Cond} {cb : Nat} {op : Op} {w : Word} (h : slotRuns s c m ⟨cd, cb, op⟩ = true) (hop : isVote op = true)
    (hb : voteBody c op m (slotCond (slotState s c m) c ⟨cd, cb, op⟩) (slotState s c m) =
      .done (powerSync (setTab (slotState s c m) tVote c.die c.idx w) c.die)) :
    ∃ u, exec (.vote c) s = .next u ∧ tab u tVote c.die c.idx = w := by
  have hwf := slotRuns_wf h
  have hsync := (SyncFrame.refl (d := c.die) (State.wf_setTab hwf tVote c.die c.idx w)).powerSync
  obtain ⟨u, hu, -, hrest⟩ := runSlot_leaves h (want := isVote) hop (body := voteBody c) hb (State.coresWf hsync.wf)
  refine ⟨u, hu, ?_⟩
  have htabs : u.tabs = (setTab (slotState s c m) tVote c.die c.idx w).tabs :=
    (congrArg State.tabs hrest :).trans hsync.tabs_eq
  rw [tab, htabs]
  exact tab_setTab_same hwf _ _ _ _

theorem natSum_range_succ (f : Nat → Nat) (n : Nat) :
    natSum ((List.range (n + 1)).map f) = natSum ((List.range n).map f) + f n := by
  simp [natSum, List.range_succ]

/-- The digits of a number in base 4. -/
theorem natSum_digits {b : Nat → Nat} (hb : ∀ i, b i < 4) (n : Nat) :
    natSum ((List.range n).map fun i => b i * 4 ^ i) < 4 ^ n ∧
      ∀ i < n, natSum ((List.range n).map fun i => b i * 4 ^ i) / 4 ^ i % 4 = b i := by
  induction n with
  | zero => exact ⟨by simp [natSum], nofun⟩
  | succ n ih =>
    obtain ⟨hlt, hdigit⟩ := ih
    rw [natSum_range_succ]
    refine ⟨?_, fun i hi => ?_⟩
    · have hle : (b n + 1) * 4 ^ n ≤ 4 * 4 ^ n := Nat.mul_le_mul_right _ (hb n)
      rw [Nat.pow_succ']
      linarith
    · obtain rfl | hlow : i = n ∨ i < n := by omega
      · rw [Nat.add_mul_div_right _ _ (by positivity), Nat.div_eq_of_lt hlt, Nat.zero_add, Nat.mod_eq_of_lt (hb i)]
      · have hpow : b n * 4 ^ n = 4 ^ i * (4 * (b n * 4 ^ (n - i - 1))) := by
          rw [show 4 ^ n = 4 ^ i * 4 * 4 ^ (n - i - 1) by rw [← Nat.pow_succ, ← Nat.pow_add]; congr 1; omega]
          ring
        rw [hpow, Nat.add_mul_div_left _ _ (by positivity), Nat.add_mul_mod_self_left, hdigit i hlow]

/-- The level that a set of nine bits gives domain `i`. -/
theorem wField_voteBits (w : Word) {i : Nat} (hi : i < 9) :
    wField (BitVec.ofNat 32 (voteBits w)) (2 * i + 1) (2 * i) = if w.getLsbD i then 2 else 0 := by
  have hlevel (j : Nat) : (w.getLsbD j).toNat * 2 < 4 := by
    have := (w.getLsbD j).toNat_le
    omega
  obtain ⟨hlt, hdigit⟩ := natSum_digits hlevel 9
  have hpow : (2 : Nat) ^ (2 * i) = 4 ^ i := Nat.pow_mul 2 2 i
  unfold wField voteBits
  rw [BitVec.toNat_ofNat, Nat.mod_eq_of_lt (hlt.trans (by decide)), Nat.shiftRight_eq_div_pow, hpow,
    show 2 * i + 1 + 1 - 2 * i = 2 by omega]
  refine (hdigit i hi).trans ?_
  cases w.getLsbD i <;> rfl

/-! ### SWAPREQ (R104, R140, R225) -/

theorem busyWho_state (s : State) (d g k : Nat) : ∃ n, (busyWho s d g k).1 = { s with fresh := n } := by
  unfold busyWho
  split
  · exact ⟨_, rfl⟩
  · exact ⟨s.fresh, rfl⟩

/-- A swap request leaves, but for the draw of a busy member, what `SwapFrame` says: no core among it. -/
theorem requestSwap_frame (h : s.wf = true) (d g low : Nat) (y : Bool) (o : Option Nat) :
    ∃ n, SwapFrame d { s with fresh := n } (requestSwap s d g low y o) := by
  have href : SwapFrame d s s := .refl h
  unfold requestSwap
  dsimp only
  split
  · exact ⟨s.fresh, .reportSwap href⟩
  · split
    · exact ⟨s.fresh, .reportSwap href⟩
    · split
      · obtain ⟨n, hn⟩ := busyWho_state s d g (swapBusy s g)
        rw [hn]
        exact ⟨n, .reportSwap (.refl (s := { s with fresh := n }) h)⟩
      · split
        · exact ⟨s.fresh, .reportSwap href⟩
        · exact ⟨s.fresh, .each (.powerSyncAll (.setSwaps href)) fun _ _ hu => .deviceSend hu⟩

theorem SwapFrame.coreOf_eq {d : Nat} (h : SwapFrame d s t) (c : CoreRef) : coreOf t c = coreOf s c :=
  (congrArg (fun x => coreOf x c) h.rest :)

theorem swapreq_effect {cd : Cond} {cb dg dt : Nat} {y : Bool} (h : slotRuns s c m ⟨cd, cb, .swapreq dg dt y⟩ = true) :
    let v := slotState s c m
    ∃ u, exec (.swapreq c) s = .next u ∧
      u.swaps = (requestSwap v c.die (rf (regsOf v c).d dg).toNat (rf (regsOf v c).d dt).toNat y none).swaps ∧
      (regsOf u c).d = (regsOf v c).d := by
  intro v
  obtain ⟨n, hframe⟩ := requestSwap_frame (slotRuns_wf h) c.die (rf (regsOf v c).d dg).toNat (rf (regsOf v c).d dt).toNat y none
  obtain ⟨u, hu, hcore, hrest⟩ := runSlot_leaves h (want := isSwapreq) rfl (body := swapreqBody c) rfl (State.coresWf hframe.wf)
  exact ⟨u, hu, (congrArg State.swaps hrest :), hcore.1.1.trans (congrArg (fun k => k.r.d) (hframe.coreOf_eq c))⟩

/-- Settles O14: END changes its kernel alone; TRAP in sample mode pushes its event; TRAP and BRK of free mode enter their vectors; BRK in a
debug session, VOTE and SWAPREQ each by what its body leaves of the core, the votes or the swap requests. -/
theorem endAndEvents : Obligations.EndAndEvents := by
  refine ⟨?end_, ?trapDisabled, ?trapQueued, ?trapFree, ?brkVector, ?brkHalts, ?voteOne, ?voteSet, ?swapreq⟩
  case end_ => exact fun s c m cd cb tm h hc hsb hdl => end_effect h hc hsb hdl
  case trapDisabled =>
    rintro s c m cd cb n h rfl hen
    obtain ⟨u, hu, hcore, hrest⟩ := trap_sample h
    refine ⟨u, hu, ?_, hcore.1.1⟩
    rw [queuePush_disabled hen] at hrest
    exact (congrArg (fun x => reg x (Reg.QUEUE_LOST c.die 0)) hrest :).trans (reg_setReg_same (slotRuns_wf h) _ _)
  case trapQueued =>
    rintro s c m cd cb n v q h rfl
    obtain ⟨u, hu, hcore, hrest⟩ := trap_sample h
    exact ⟨u, hu, (congrArg State.regs hrest :), (congrArg State.mem hrest :), hcore.1.1⟩
  case trapFree =>
    intro s c m cd cb n k h hm hexc hlev
    obtain ⟨u, hu, hepc, hpc, hcause, hset⟩ := runSlot_enters h (want := isTrap) rfl (body := trapBody c) (.inl rfl)
      (if_neg hm) hexc hlev
    exact ⟨u, hu, hepc, hpc, hcause, hset⟩
  case brkVector =>
    intro s c m cd cb n k h hdbg hexc hlev
    obtain ⟨u, hu, hepc, hpc, hcause, hset⟩ := runSlot_enters h (want := isBrk) rfl (body := brkBody c) (.inr rfl)
      (if_neg (by simp [hdbg])) hexc hlev
    exact ⟨u, hu, hepc, hpc, hcause, hset⟩
  case brkHalts =>
    intro s c m cd cb n k h hdbg hlev
    exact brk_halts h hdbg hlev
  case voteOne => exact fun s c m cd cb n b h _ => vote_casts h rfl rfl
  case voteSet =>
    intro s c m cd cb n h
    obtain ⟨u, hu, htab⟩ := vote_casts h rfl rfl
    exact ⟨u, hu, fun i hi => htab ▸ wField_voteBits _ hi⟩
  case swapreq =>
    intro s c m cd cb dg dt y v h
    exact swapreq_effect h

end Sys2Proof.Machine
end

section
/-! PROOFS. WAIT_RESUME (R167, R413): a steward stays in WAIT until PD_STEW of its die is ON again. -/
namespace Sys2Proof.Machine

variable {s : State} {c : CoreRef}

/-- While PD_STEW is not ON no waiting steward resumes (R413). -/
theorem waitResume_retained (hcore : hasCore s c = true) (hdom : domOn s c.die pdStew = false) :
    exec (.waitResume c) s = .next s := by
  change execWaitResume c s = _
  simp [execWaitResume, onUnit_true hcore, hdom]

/-- The reset state with a doorbell rung and enabled at steward 0 of die 0, which waits while PD_STEW of its die is in RET. -/
def retainedWait : State :=
  let rung := setReg (setReg State.reset (Reg.STEWARD_DBELL 0 0) 1) (Reg.STEWARD_IE 0 0) (BitVec.twoPow 32 25)
  setStew (setDom rung 0 pdStew { DomX.zero with st := .ret }) 0 0 { Stew.zero 0 with st := .wait }

theorem wf_retainedWait : retainedWait.wf = true :=
  State.wf_setStew (State.wf_setDom (State.wf_setReg (State.wf_setReg rfl _ _) _ _) _ _ _) _ _ _ rfl

/-- Refutes O15: the clauses of WAIT_RESUME ask only for a pending source, but R413 has a steward in WAIT resume no earlier than PD_STEW is
ON again. In `retainedWait` the doorbell of steward 0 is pending and not accepted, IE being 0, and WAIT_RESUME leaves the steward in
WAIT, where the sixth clause has it run. -/
theorem not_interruptsAndReturn : ¬ Obligations.InterruptsAndReturn := by
  unfold Obligations.InterruptsAndReturn
  rintro ⟨-, -, -, -, -, hresume, -⟩
  have hpending : irqPending retainedWait 0 0 ≠ 0 := by decide +kernel
  have haccepted : irqAccepted retainedWait 0 0 = none := by decide +kernel
  obtain ⟨u, hu, hrun, -⟩ := hresume retainedWait ⟨0, true, 0⟩ wf_retainedWait rfl rfl rfl hpending (.inl haccepted)
  have hstays := waitResume_retained (s := retainedWait) (c := ⟨0, true, 0⟩) rfl rfl
  obtain rfl : retainedWait = u := Host.Outcome.next.inj (hstays.symm.trans hu)
  exact absurd hrun (by decide)

end Sys2Proof.Machine
end

section
/-! PROOFS. The ALU on D registers (R110, R112, R113): the result and the flags of each binary function, and the slots of its rows. -/
namespace Sys2Proof.Machine

variable {s : State} {c : CoreRef} {m : Mode} {w : Nat}

/-! ### Flags -/

/-- A result whose flags are set from it, with C as it was. -/
theorem flags_result_keepC (f : Flg) (r : BitVec w) (v sat : Bool) :
    addSAT (setV (znOf f r) v) sat =
      mkFlg (decide (r = 0)) r.msb (flagC f) v (flagVS f || v) (flagSAT f || sat) (flagDZ f) := by
  simp only [addSAT, setV, znOf, setZN, flags_mkFlg, flags_mkFlg_rest, flagDZ_mkFlg, toNat_eq_zero_iff]

theorem flags_setV_keepC (f : Flg) (r : BitVec w) (v : Bool) :
    setV (znOf f r) v = mkFlg (decide (r = 0)) r.msb (flagC f) v (flagVS f || v) (flagSAT f) (flagDZ f) := by
  simp only [setV, znOf, setZN, flags_mkFlg, flags_mkFlg_rest, flagDZ_mkFlg, toNat_eq_zero_iff]

/-- A value within the signed range of `w` bits. -/
theorem outOfRange_eq_false_iff {v : Int} : outOfRange w v = false ↔ -(2 ^ (w - 1)) ≤ v ∧ v < 2 ^ (w - 1) := by
  simp [outOfRange]

/-! ### Results -/

/-- ADDC: the sum with the carry, and the carry out of the top bit (R112, R113). -/
theorem addRes_carry_eq (f : Flg) (x y : BitVec w) (cin : Bool) :
    let v := x + y + BitVec.ofNat w cin.toNat
    let e := x.toInt + y.toInt + (cin.toNat : Int)
    addRes f x y cin = ⟨v, mkFlg (decide (v = 0)) v.msb (decide (2 ^ w ≤ x.toNat + y.toNat + cin.toNat)) (outOfRange w e)
      (flagVS f || outOfRange w e) (flagSAT f) (flagDZ f)⟩ := by
  intro v e
  have hsum : BitVec.ofNat w (x.toNat + y.toNat + cin.toNat) = v := by
    rw [BitVec.ofNat_add, BitVec.ofNat_add, BitVec.ofNat_toNat, BitVec.ofNat_toNat, BitVec.setWidth_eq, BitVec.setWidth_eq]
  simp only [addRes, hsum, flags_result, e]

/-- SUBC: the difference less the borrow that C = 0 stands for, and C where no borrow is needed (R112, R113). -/
theorem subRes_borrow_eq (f : Flg) (x y : BitVec w) (cin : Bool) :
    let v := x - y - BitVec.ofNat w (!cin).toNat
    let e := x.toInt - y.toInt - ((!cin).toNat : Int)
    subRes f x y cin = ⟨v, mkFlg (decide (v = 0)) v.msb (decide (y.toNat + (!cin).toNat ≤ x.toNat)) (outOfRange w e)
      (flagVS f || outOfRange w e) (flagSAT f) (flagDZ f)⟩ := by
  intro v e
  cases cin with
  | true => simpa [v, e] using subRes_eq f x y
  | false =>
    have hy := y.isLt
    have hexact : x.toNat + (2 ^ w - 1 - y.toNat) = x.toNat + (~~~y).toNat := by rw [BitVec.toNat_not]
    have hdiff : BitVec.ofNat w (x.toNat + (~~~y).toNat) = v := by
      rw [BitVec.ofNat_add, BitVec.ofNat_toNat, BitVec.ofNat_toNat, BitVec.setWidth_eq, BitVec.setWidth_eq, BitVec.not_eq_neg_add,
        BitVec.sub_eq_add_neg, ← BitVec.add_assoc]
      simp [v, BitVec.sub_eq_add_neg]
    have hborrow : decide (2 ^ w ≤ x.toNat + (~~~y).toNat) = decide (y.toNat + 1 ≤ x.toNat) := by
      rw [decide_eq_decide, BitVec.toNat_not]
      omega
    simp only [subRes, Bool.toNat_false, hexact, hdiff, hborrow, flags_result, Nat.cast_zero, add_zero, e, Bool.not_false,
      Bool.toNat_true, Nat.cast_one]

/-- AND, OR, XOR and NOT keep C and clear V (R112). -/
theorem logicRes_eq (f : Flg) (r : BitVec w) :
    logicRes f r = ⟨r, mkFlg (decide (r = 0)) r.msb (flagC f) false (flagVS f) (flagSAT f) (flagDZ f)⟩ := by
  rw [logicRes, flags_setV_keepC, Bool.or_false]

/-- MIN: C says whether op2 was taken, V is clear (R112). -/
theorem minRes_flags (f : Flg) (x y : BitVec w) :
    let v := if y.toInt < x.toInt then y else x
    minRes f x y = ⟨v, mkFlg (decide (v = 0)) v.msb (decide (y.toInt < x.toInt)) false (flagVS f) (flagSAT f) (flagDZ f)⟩ := by
  simp only [minRes, flags_result, decide_eq_true_eq, Bool.or_false]

theorem maxRes_flags (f : Flg) (x y : BitVec w) :
    let v := if x.toInt < y.toInt then y else x
    maxRes f x y = ⟨v, mkFlg (decide (v = 0)) v.msb (decide (x.toInt < y.toInt)) false (flagVS f) (flagSAT f) (flagDZ f)⟩ := by
  simp only [maxRes, flags_result, decide_eq_true_eq, Bool.or_false]

/-! ### The slots -/

/-- A row that leaves a result in a D register, with its flags. -/
theorem runSlot_setD {sl : Slot} {o : Res 32} {dd : Nat} (h : slotRuns s c m sl = true) {want : Op → Bool} (hwant : want sl.op = true)
    {body : Op → Mode → Bool → State → Eff} {f : Regs → Regs}
    (hb : body sl.op m (slotCond (slotState s c m) c sl) (slotState s c m) = regsEff c (slotState s c m) f)
    (ho : f (slotRegs s c m) = setD { slotRegs s c m with flg := o.flg } dd o.val) :
    ∃ u, runSlot c want body s = .next u ∧ rf (regsOf u c).d dd = o.val ∧ (regsOf u c).flg = o.flg := by
  obtain ⟨u, hu, ⟨hd, -, -, -, -, -, -, -, hflg, -⟩, -⟩ := runSlot_regs h hwant hb
  rw [ho] at hd hflg
  exact ⟨u, hu, (congrArg (rf · dd) hd).trans (rf_setD (regsOf_d_wf (slotRuns_wf h) c) dd _), hflg⟩

/-- The result of a binary operation on D registers. -/
def binResD (f : BinFn) (ds1 : Nat) (s2 : Src2) (r : Regs) : Res 32 :=
  binRes f (satMode r) r.flg (rf r.d ds1) (src2 r s2) (count8 (src2 r s2))

/-- A binary operation on D registers leaves its result in its destination, with its flags. -/
theorem binD_effect {f : BinFn} (hf : writesDest f = true) {cd : Cond} {cb dd ds1 : Nat} {s2 : Src2} {o : Res 32}
    (h : slotRuns s c m ⟨cd, cb, .binD f dd ds1 s2⟩ = true) (ho : binResD f ds1 s2 (slotRegs s c m) = o) :
    ∃ u, exec (binInstr f c) s = .next u ∧ rf (regsOf u c).d dd = o.val ∧ (regsOf u c).flg = o.flg := by
  rw [exec_binInstr]
  subst ho
  exact runSlot_setD h (by simp [isBin]) (f := binD f dd ds1 s2) rfl (if_pos hf)

/-- CMP and TST write flags alone. -/
theorem binD_effect_flags {f : BinFn} (hf : writesDest f = false) {cd : Cond} {cb dd ds1 : Nat} {s2 : Src2} {g : Flg}
    (h : slotRuns s c m ⟨cd, cb, .binD f dd ds1 s2⟩ = true) (hg : (binResD f ds1 s2 (slotRegs s c m)).flg = g) :
    ∃ u, exec (binInstr f c) s = .next u ∧ (regsOf u c).d = (slotRegs s c m).d ∧ (regsOf u c).flg = g := by
  obtain ⟨u, hu, ⟨hd, -, -, -, -, -, -, -, hflg, -⟩, -⟩ := runSlot_regs h (want := isBin f) (by simp [isBin]) (body := binBody c)
    (f := binD f dd ds1 s2) rfl
  have hres : binD f dd ds1 s2 (slotRegs s c m) = { slotRegs s c m with flg := (binResD f ds1 s2 (slotRegs s c m)).flg } :=
    if_neg (by simp [hf])
  rw [hres] at hd hflg
  exact ⟨u, (exec_binInstr f c s).trans hu, hd, hflg.trans hg⟩

/-- A one-operand function leaves its result in its destination, with its flags. -/
theorem unD_effect {f : UnFn} {cd : Cond} {cb dd ds : Nat} {o : Res 32} (h : slotRuns s c m ⟨cd, cb, .unD f dd ds⟩ = true)
    (ho : unD f dd ds (slotRegs s c m) = setD { slotRegs s c m with flg := o.flg } dd o.val) :
    ∃ u, exec (unInstr f c) s = .next u ∧ rf (regsOf u c).d dd = o.val ∧ (regsOf u c).flg = o.flg := by
  rw [exec_unInstr]
  exact runSlot_setD h (by simp [isUn]) (f := unD f dd ds) rfl ho

/-- Settles O1: each row leaves the sum or difference with its flags, and CMP the flags alone. -/
theorem aluAddAndSubtract : Obligations.AluAddAndSubtract := by
  refine ⟨?add, ?addc, ?sub, ?subc, ?cmp⟩
  case add => exact fun _ _ _ _ _ _ _ _ h => binD_effect (f := .add) rfl h (addRes_eq _ _ _)
  case addc =>
    exact fun _ _ _ _ _ _ _ _ h => binD_effect (f := .addc) rfl h (addRes_carry_eq _ _ _ _)
  case sub => exact fun _ _ _ _ _ _ _ _ h => binD_effect (f := .sub) rfl h (subRes_eq _ _ _)
  case subc =>
    exact fun _ _ _ _ _ _ _ _ h => binD_effect (f := .subc) rfl h (subRes_borrow_eq _ _ _ _)
  case cmp =>
    exact fun _ _ _ _ _ _ _ _ h => binD_effect_flags (f := .cmp) rfl h (congrArg Res.flg (subRes_eq _ _ _) :)

/-- Settles O2: each row leaves its result with Z and N, C as its function gives it, and V clear; TST leaves the flags alone. -/
theorem aluLogicMinMax : Obligations.AluLogicMinMax := by
  refine ⟨?and, ?or, ?xor, ?not, ?tst, ?min, ?max⟩
  case and => exact fun _ _ _ _ _ _ _ _ h => binD_effect (f := .and) rfl h (logicRes_eq _ _)
  case or => exact fun _ _ _ _ _ _ _ _ h => binD_effect (f := .or) rfl h (logicRes_eq _ _)
  case xor => exact fun _ _ _ _ _ _ _ _ h => binD_effect (f := .xor) rfl h (logicRes_eq _ _)
  case not =>
    intro s c m cd cb dd ds r x v h
    obtain ⟨u, hu, hval, hflg⟩ := unD_effect (o := logicRes r.flg v) h rfl
    exact ⟨u, hu, hval, hflg.trans (congrArg Res.flg (logicRes_eq r.flg v))⟩
  case tst => exact fun _ _ _ _ _ _ _ _ h => binD_effect_flags (f := .tst) rfl h (tstFlags_eq _ _)
  case min => exact fun _ _ _ _ _ _ _ _ h => binD_effect (f := .min) rfl h (minRes_flags _ _ _)
  case max => exact fun _ _ _ _ _ _ _ _ h => binD_effect (f := .max) rfl h (maxRes_flags _ _ _)

end Sys2Proof.Machine
end

section
/-! PROOFS. Shifts, one-operand functions and DIV on D registers (R109, R115–R119): values, flags, and the steps of a slot. -/
namespace Sys2Proof.Machine

variable {s : State} {c : CoreRef} {m : Mode} {w : Nat}

/-! ### Flags of a result -/

/-- Z and N are those of the result. -/
def ZNOf (o : Res w) : Prop := flagZ o.flg = decide (o.val = 0) ∧ flagN o.flg = o.val.msb

/-! ### Values -/

theorem ashRes_zero_flagC (f : Flg) (sat : Bool) (x : BitVec w) : flagC (ashRes f sat x 0).flg = flagC f := by
  simp only [ashRes, if_true, flags_setV_keepC, flags_mkFlg_rest]

theorem lshRes_zero_flagC (f : Flg) (x : BitVec w) : flagC (lshRes f x 0).flg = flagC f := by
  simp only [lshRes, if_true, flags_setV_keepC, flags_mkFlg_rest]

/-- The flags of NEG: those of 0 − op1, or of the saturation (R116). -/
theorem negRes_flags (f : Flg) (x : BitVec w) :
    ZNOf (negRes f x) ∧ (x = minNeg w → flagVS (negRes f x).flg = true) ∧
      (x ≠ minNeg w → flagC (negRes f x).flg = decide (x = 0)) := by
  by_cases h : x = minNeg w
  · simp [ZNOf, negRes, h, addSAT, flags_result, flags_mkFlg, flags_mkFlg_rest]
  · simp [ZNOf, negRes, h, subRes_eq, flags_mkFlg, flags_mkFlg_rest, ← BitVec.toNat_inj]

/-- ABS leaves C (R116). -/
theorem absRes_flags (f : Flg) (x : BitVec w) :
    ZNOf (absRes f x) ∧ (x = minNeg w → flagVS (absRes f x).flg = true) ∧ flagC (absRes f x).flg = flagC f := by
  by_cases h : x = minNeg w
  · simp [ZNOf, absRes, h, flags_result_keepC, flags_mkFlg, flags_mkFlg_rest]
  · simp [ZNOf, absRes, h, flags_setV_keepC, flags_mkFlg, flags_mkFlg_rest]

/-- A clamp to a range of signed numbers that sets V where it acts (R117). -/
theorem clampRes_eq (f : Flg) (x : BitVec w) {lo hi : Int} (hlo : (BitVec.ofInt w lo).toInt = lo) (hhi : (BitVec.ofInt w hi).toInt = hi)
    (hle : lo ≤ hi) :
    (clampRes f x lo hi).val.toInt = max lo (min hi x.toInt) ∧ (flagV (clampRes f x lo hi).flg ↔ x.toInt < lo ∨ hi < x.toInt) := by
  refine ⟨?_, ?_⟩
  · unfold clampRes
    dsimp only
    split
    · omega
    · split <;> omega
  · rw [clampRes, flagV_addSAT, flagV_setV, Bool.or_eq_true, decide_eq_true_eq, decide_eq_true_eq]

/-- NORM of a D register counts its redundant sign bits (R118). -/
theorem normRes_word (f : Flg) (x : Word) :
    (normRes f x 0).val = BitVec.ofNat 32 (signBits x) ∧ flagZ (normRes f x 0).flg = decide (x = 0) ∧
      flagC (normRes f x 0).flg = flagC f := by
  refine ⟨?_, ?_, ?_⟩
  · simp [normRes]
  · simp only [normRes, setV, setZN, flags_mkFlg, toNat_eq_zero_iff]
  · simp only [normRes, setV, setZN, flags_mkFlg_rest]

/-- An exact value within 32 bits is what the word reads. -/
theorem toInt_ofInt_of_inRange {v : Int} (h : outOfRange 32 v = false) : (BitVec.ofInt 32 v).toInt = v := by
  obtain ⟨hlo, hhi⟩ := outOfRange_eq_false_iff.mp h
  exact BitVec.toInt_ofInt_eq_self (by decide) hlo hhi

/-- DIV: a zero divisor, an exact quotient, and one that saturates; C stays (R119). -/
theorem divRes_cases (f : Flg) (frac : Bool) (x y : Word) :
    let q := (if frac then x.toInt * (2 ^ 31 : Nat) else x.toInt).tdiv y.toInt
    let o := divRes f frac x y
    (y = 0 → o.val = (if 0 < x.toInt then maxPos 32 else if x.toInt < 0 then minNeg 32 else 0) ∧
      flagDZ o.flg = true ∧ flagV o.flg = false) ∧
    (y ≠ 0 → outOfRange 32 q = false → o.val.toInt = q ∧ flagV o.flg = false) ∧
    (y ≠ 0 → outOfRange 32 q = true → o.val = (if q < 0 then minNeg 32 else maxPos 32) ∧
      flagV o.flg = true ∧ flagVS o.flg = true ∧ flagSAT o.flg = true) ∧
    flagC o.flg = flagC f := by
  intro q o
  by_cases hy : y = 0
  · subst hy
    simp [o, divRes, addDZ, flags_setV_keepC, flags_mkFlg, flags_mkFlg_rest, flagDZ_mkFlg]
  · have hint : y.toInt ≠ 0 := fun h => hy (BitVec.eq_of_toInt_eq (h.trans BitVec.toInt_zero.symm))
    have ho : o = ⟨if outOfRange 32 q then (if q < 0 then minNeg 32 else maxPos 32) else BitVec.ofInt 32 q,
        addSAT (setV (znOf f (if outOfRange 32 q then (if q < 0 then minNeg 32 else maxPos 32) else BitVec.ofInt 32 q))
          (outOfRange 32 q)) (outOfRange 32 q)⟩ := if_neg hint
    rw [flags_result_keepC] at ho
    refine ⟨fun h => absurd h hy, fun _ hov => ?_, fun _ hov => ?_, ?_⟩
    · simp [ho, hov, flags_mkFlg, toInt_ofInt_of_inRange hov]
    · simp [ho, hov, flags_mkFlg, flags_mkFlg_rest]
    · simp only [ho, flags_mkFlg_rest]

/-! ### Steps of a slot (R109) -/

theorem nextSlot_steps (k : Core) (pc : Nat) : (nextSlot k pc).steps = k.steps := by
  unfold nextSlot
  extract_lets k₁ k₂
  have hkept : k₂.steps = k.steps := by
    unfold k₂
    split <;> rfl
  split
  · exact hkept
  · dsimp only
    split <;> exact hkept

theorem afterSlot_steps (k : Core) (pc : Nat) : (afterSlot c m k pc).steps = k.steps := by
  unfold afterSlot
  split
  · exact nextSlot_steps k pc
  · split
    · rfl
    · dsimp only
      split
      · exact nextSlot_steps _ pc
      · split
        · split
          · rfl
          · exact nextSlot_steps _ pc
        · split <;> rfl

/-- Control after a slot charges no step more. -/
theorem advance_steps (k : Core) : (advance c m k).steps = k.steps := by
  unfold advance
  dsimp only
  split
  · split
    · split <;> rfl
    · rw [afterSlot_steps]
      split <;> rfl
  · exact afterSlot_steps _ _
  · exact afterSlot_steps _ _

theorem charge_steps (k : Core) (n : Nat) (b : Bool) : (charge k n b).steps = k.steps + n * annulWeight k := rfl

/-- A slot that changes registers alone is charged its steps, where no annulled block weighs on it. -/
theorem runSlot_steps {sl : Slot} (h : slotRuns s c m sl = true) {want : Op → Bool} (hwant : want sl.op = true)
    {body : Op → Mode → Bool → State → Eff} {f : Regs → Regs}
    (hb : body sl.op m (slotCond (slotState s c m) c sl) (slotState s c m) = regsEff c (slotState s c m) f)
    {u : State} (hu : runSlot c want body s = .next u) (hmul : (coreOf (slotState s c m) c).annulMul = []) :
    (coreOf u c).steps = (coreOf (slotState s c m) c).steps + slotCost c.stew sl := by
  have hcores := State.coresWf (slotRuns_wf h)
  have hset := hcores.updRegs (c := c) f
  have hweight : annulWeight (coreOf (updRegs (slotState s c m) c f) c) = 1 := by
    rw [coreOf_updRegs hcores]
    exact annulWeight_one (slotRuns_notAnnul h) hmul
  rw [runSlot_runs h hwant, hb] at hu
  cases hu
  rw [coreOf_settle (hset.setCore _), coreOf_setCore hset, advance_steps, charge_steps, hweight, Nat.mul_one, coreOf_updRegs hcores]

/-- Settles O3: each row leaves the result of its function, whose value and flags the rules give; DIV is charged its 20 steps. -/
theorem shiftsUnaryAndDivide : Obligations.ShiftsUnaryAndDivide := by
  refine ⟨?ash, ?lsh, ?neg, ?abs, ?sat, ?norm, ?div⟩
  case ash =>
    intro s c m cd cb dd ds1 s2 r x n h
    obtain ⟨u, hu, hval, hflg⟩ := binD_effect (f := .ash) rfl h (o := ashRes r.flg (satMode r) x n) rfl
    obtain ⟨hzero, hright, hleft, hv⟩ := ashRes_cases r.flg (satMode r) x n
    refine ⟨u, hu, ?_⟩
    rw [hval, hflg]
    refine ⟨hzero, hright, hleft, ?_, fun hn => ?_⟩
    · rw [hv, Bool.and_eq_true, decide_eq_true_eq]
    · rw [hn, ashRes_zero_flagC]
  case lsh =>
    intro s c m cd cb dd ds1 s2 r x n h
    obtain ⟨u, hu, hval, hflg⟩ := binD_effect (f := .lsh) rfl h (o := lshRes r.flg x n) rfl
    obtain ⟨hv, hshift⟩ := lshRes_eq r.flg x n
    refine ⟨u, hu, ?_⟩
    rw [hval, hflg]
    exact ⟨hshift, hv, fun hn => by rw [hn, lshRes_zero_flagC]⟩
  case neg =>
    intro s c m cd cb dd ds r x h
    obtain ⟨u, hu, hval, hflg⟩ := unD_effect (o := negRes r.flg x) h rfl
    obtain ⟨hmin, hother⟩ := negRes_eq r.flg x
    obtain ⟨⟨hz, hn⟩, hvs, hc⟩ := negRes_flags r.flg x
    refine ⟨u, hu, ?_⟩
    rw [hval, hflg]
    refine ⟨fun hx => ?_, fun hx => ⟨hother hx, hc hx⟩, hz, hn⟩
    obtain ⟨hmax, hv, hsat⟩ := hmin hx
    exact ⟨hmax, hv, hvs hx, hsat⟩
  case abs =>
    intro s c m cd cb dd ds r x h
    obtain ⟨u, hu, hval, hflg⟩ := unD_effect (o := absRes r.flg x) h rfl
    obtain ⟨hmin, hother⟩ := absRes_eq r.flg x
    obtain ⟨⟨hz, hn⟩, hvs, hc⟩ := absRes_flags r.flg x
    refine ⟨u, hu, ?_⟩
    rw [hval, hflg]
    refine ⟨fun hx => ?_, hother, hc, hz, hn⟩
    obtain ⟨hmax, hv, hsat⟩ := hmin hx
    exact ⟨hmax, hv, hvs hx, hsat⟩
  case sat =>
    intro s c m cd cb dd ds r x h
    obtain ⟨u, hu, hval, hflg⟩ := unD_effect (o := satRes32 r.flg x) h rfl
    refine ⟨u, hu, ?_⟩
    rw [hval, hflg]
    exact clampRes_eq r.flg x (by decide) (by decide) (by decide)
  case norm =>
    intro s c m cd cb dd ds r x h
    obtain ⟨u, hu, hval, hflg⟩ := unD_effect (o := normRes r.flg x 0) h rfl
    refine ⟨u, hu, ?_⟩
    rw [hval, hflg]
    exact normRes_word r.flg x
  case div =>
    intro s c m cd cb frac dd ds1 ds2 r x y q h
    obtain ⟨u, hu, hval, hflg⟩ := runSlot_setD (o := divRes r.flg frac x y) (dd := dd) h (want := isDiv) rfl (body := unBody c)
      (f := divD frac dd ds1 ds2) rfl rfl
    obtain ⟨hzero, hexact, hover, hc⟩ := divRes_cases r.flg frac x y
    have hcost : slotCost c.stew ⟨cd, cb, .div frac dd ds1 ds2⟩ = 20 := by
      obtain ⟨-, -, -, -, -, hcd, -⟩ := slotRuns_fetch h
      exact if_neg hcd
    refine ⟨u, hu, ?_⟩
    rw [hval, hflg]
    exact ⟨hzero, hexact, hover, hc, fun hmul => hcost ▸ runSlot_steps h rfl (f := divD frac dd ds1 ds2) rfl hu hmul⟩

end Sys2Proof.Machine
end

section
/-! PROOFS. MPY, MPYU, MAC and MSU (R110, R111, R121, R122): what a parallel move leaves of the result of its main operation, and the
products. -/
namespace Sys2Proof.Machine

variable {s t w : State} {c : CoreRef} {m : Mode}

/-! ### What the parallel move leaves of the main operation -/

/-- No parallel move touches Z, N, C or IX. -/
theorem moveRegs_keeps (r0 : Regs) (mainV : Bool) (pm : PMove) (ldv : Word) (r : Regs) :
    let q := moveRegs r0 mainV pm ldv r
    flagZ q.flg = flagZ r.flg ∧ flagN q.flg = flagN r.flg ∧ flagC q.flg = flagC r.flg ∧ q.ix = r.ix := by
  cases pm with
  | none | ldl | stlD | mov => exact ⟨rfl, rfl, rfl, rfl⟩
  | stlA l a | sta l a =>
    obtain ⟨e, he⟩ := storeRegs_frame r0 mainV a r
    obtain ⟨-, -, -, hz, hn, hc⟩ := mergeStore_flags r.flg mainV (store32 (satMode r0) (accOf r0 a))
    simp only [moveRegs, setD, he]
    exact ⟨hz, hn, hc, trivial⟩

/-- `q` has the accumulators and the flags Z and N of `o`, a main operation's result, and V as that and the parallel move `pm` from `r`
make it (R111). -/
structure MainKept (r : Regs) (pm : PMove) (o q : Regs) : Prop where
  acc : ∀ i, accOf q i = accOf o i
  z : flagZ q.flg = flagZ o.flg
  n : flagN q.flg = flagN o.flg
  v : flagV q.flg = (flagV o.flg || moveSetsV r pm)

/-- The update of an operand's pointer leaves results and flags. -/
theorem postDual_keeps (r : Regs) (o : DualOp) :
    (postDual c r o).d = r.d ∧ (postDual c r o).a = r.a ∧ (postDual c r o).ix = r.ix ∧ (postDual c r o).flg = r.flg := by
  cases o with
  | mem mo => exact ⟨rfl, rfl, rfl, rfl⟩
  | reg n => exact ⟨rfl, rfl, rfl, rfl⟩

/-- A multiply whose operands are read in `w`, and whose main operation is `g` before the pointers are updated. -/
theorem runSlot_mul {sl : Slot} (h : slotRuns s c m sl = true) {want : Op → Bool} (hwant : want sl.op = true)
    {body : Op → Mode → Bool → State → Eff} {pm : PMove} {g : Regs → Regs} {s1 s2 : DualOp}
    (hb : body sl.op m (slotCond (slotState s c m) c sl) (slotState s c m) =
      withPM c true pm (fun r => postDual c (postDual c (g r) s1) s2) w) (hw : CoresWf w) :
    ∃ u, runSlot c want body s = .next u ∧ MainKept (regsOf w c) pm (g (regsOf w c)) (regsOf u c) := by
  obtain ⟨u, hu, ⟨-, ha, -, -, -, -, -, -, hflg, -⟩, -⟩ := runSlot_withPM h hwant hb hw
  obtain ⟨-, ha₁, -, hf₁⟩ := postDual_keeps (c := c) (g (regsOf w c)) s1
  obtain ⟨-, ha₂, -, hf₂⟩ := postDual_keeps (c := c) (postDual c (g (regsOf w c)) s1) s2
  obtain ⟨hz, hn, -, -⟩ := moveRegs_keeps (regsOf w c) true pm (pmLoad w c pm) (postDual c (postDual c (g (regsOf w c)) s1) s2)
  refine ⟨u, hu, fun i => ?_, ?_, ?_, ?_⟩
  · rw [accOf, ha, moveRegs_a, ha₂, ha₁, accOf]
  · rw [hflg, hz, hf₂, hf₁]
  · rw [hflg, hn, hf₂, hf₁]
  · rw [hflg, moveRegs_flagV, hf₂, hf₁]

/-! ### Real products -/

/-- A product of two words stays far within 72 bits. -/
theorem mul_toInt_bounds (x y : Word) : -(2 ^ 62) ≤ x.toInt * y.toInt ∧ x.toInt * y.toInt ≤ 2 ^ 62 :=
  ⟨BitVec.le_toInt_mul_toInt, BitVec.toInt_mul_toInt_le⟩

theorem outOfRange_prodExact (int : Bool) (x y : Word) : outOfRange 72 (prodExact int x y) = false := by
  obtain ⟨hlo, hhi⟩ := mul_toInt_bounds x y
  rw [outOfRange_eq_false_iff, prodExact]
  split <;> omega

/-- A real product whose operands are read, and whose exact value is `p`: its accumulator takes `p` modulo 2^72, Z and N follow it, V is
`v` or set by the parallel move (R110, R111). -/
theorem mulReal_effect {f : MulFn} (hf : isComplex f = false) {cd : Cond} {cb n : Nat} {s1 s2 : DualOp} {int : Bool} {pm : PMove}
    {x y : Word} (h : slotRuns s c m ⟨cd, cb, .mul f n s1 s2 int pm⟩ = true) (hx : readDual (slotState s c m) c s1 = .ok x t)
    (hy : readDual t c s2 = .ok y w) (hw : w.wf = true) {p : Int} {v : Bool}
    (hp : mulReal f n int x y (regsOf w c) =
      setAcc { regsOf w c with flg := setV (znOf (regsOf w c).flg (BitVec.ofInt 72 p)) v } n (BitVec.ofInt 72 p)) :
    ∃ u, exec (mulInstr f c) s = .next u ∧ accOf (regsOf u c) n = BitVec.ofInt 72 p ∧
      flagZ (regsOf u c).flg = decide (BitVec.ofInt 72 p = 0) ∧ flagN (regsOf u c).flg = (BitVec.ofInt 72 p).msb ∧
      flagV (regsOf u c).flg = (v || moveSetsV (regsOf w c) pm) := by
  have hbody (b : Bool) : mulBody c (.mul f n s1 s2 int pm) m b (slotState s c m) =
      withPM c true pm (fun r => postDual c (postDual c (mulReal f n int x y r) s1) s2) w := by
    simp only [mulBody, hf, hx, hy, Got.toEff]
    rfl
  obtain ⟨u, hu, hacc, hz, hn, hv⟩ := runSlot_mul h (want := isMul f) (by simp [isMul]) (hbody _) (State.coresWf hw)
  rw [hp] at hacc hz hn hv
  refine ⟨u, (exec_mulInstr f c s).trans hu, (hacc n).trans (accOf_setAcc (regsOf_files_wf hw c).1 n _), ?_, ?_, ?_⟩
  · rw [hz, setAcc, flags_setV_keepC, (flags_mkFlg _ _ _ _ _ _ _).1]
  · rw [hn, setAcc, flags_setV_keepC, (flags_mkFlg _ _ _ _ _ _ _).2.1]
  · rw [hv, setAcc, flagV_setV]

/-- Settles O6: each row puts its exact value in the accumulator; a product alone never leaves the 72-bit range. -/
theorem multiplyAndAccumulate : Obligations.MultiplyAndAccumulate := by
  refine ⟨?mpy, ?mpyu, ?mac, ?msu⟩
  case mpy =>
    intro s c m cd cb n s1 s2 int pm x y v w r p h hx hy hw
    obtain ⟨u, hu, hacc, hz, hn, hv⟩ := mulReal_effect (f := .mpy) rfl h hx hy hw (p := p) rfl
    exact ⟨u, hu, hacc, hz, hn, hv.trans (congrArg (· || moveSetsV r pm) (outOfRange_prodExact int x y))⟩
  case mpyu => exact fun _ _ _ _ _ _ _ _ _ _ _ _ _ _ h hx hy hw => mulReal_effect (f := .mpyu) rfl h hx hy hw rfl
  case mac => exact fun _ _ _ _ _ _ _ _ _ _ _ _ _ _ h hx hy hw => mulReal_effect (f := .mac) rfl h hx hy hw rfl
  case msu => exact fun _ _ _ _ _ _ _ _ _ _ _ _ _ _ h hx hy hw => mulReal_effect (f := .msu) rfl h hx hy hw rfl

end Sys2Proof.Machine
end

section
/-! PROOFS. The accumulator pairs that complex words name (R95–R103): what the decoder answers for the multiply opcodes alone. -/
namespace Sys2Proof.Machine

variable {s t : State} {c : CoreRef} {m : Mode}

/-- A complex operation names the pair A0 and A1 or A2 and A3 (R101); anything holds of other operations. -/
def pairNamed (op : Op) : Bool :=
  match op with
  | .mul f n _ _ _ _ => !isComplex f || n = 0 || n = 2
  | _ => true

/-- Where a decoder answers, what it answers names a pair if it is complex. -/
def DecodesPairs (o : Option Op) : Prop := o.all pairNamed = true

theorem iField_lt (w : IWord) (hi lo : Nat) : iField w hi lo < 2 ^ (hi + 1 - lo) := Nat.mod_lt _ (by positivity)

@[simp] theorem decodesPairs_none : DecodesPairs none := rfl

@[simp] theorem decodesPairs_some (op : Op) : DecodesPairs (some op) ↔ pairNamed op = true := Iff.rfl

@[simp] theorem decodesPairs_bind {α : Type} {o : Option α} {f : α → Option Op} :
    DecodesPairs (o.bind f) ↔ ∀ a, o = some a → DecodesPairs (f a) := by
  cases o with
  | none => simp
  | some a => simp

@[simp] theorem decodesPairs_ite {p : Prop} [Decidable p] {o q : Option Op} :
    DecodesPairs (if p then o else q) ↔ (p → DecodesPairs o) ∧ (¬p → DecodesPairs q) := by
  by_cases h : p
  · simp [h]
  · simp [h]

theorem decodeMul_pairs (f : MulFn) (w : IWord) : DecodesPairs (decodeMul f w) := by
  have hacc : iField w 53 52 < 4 := iField_lt w 53 52
  refine (Option.all_eq_true _ _).mpr fun op hop => ?_
  simp only [decodeMul, Option.bind_eq_bind, Option.bind_eq_some_iff, need, Option.some.injEq] at hop
  obtain ⟨-, -, s1, -, s2, -, pm, -, _, hneed, rfl⟩ := hop
  simp only [Option.ite_none_right_eq_some, Bool.or_eq_true, Bool.and_eq_true, decide_eq_true_eq] at hneed
  simp only [pairNamed, Bool.or_eq_true, decide_eq_true_eq]
  obtain ⟨hreal | ⟨⟨⟨heven, -⟩, -⟩, -⟩, -⟩ := hneed
  · exact .inl (.inl hreal)
  · omega

theorem decodeFlow_pairs (opc : Nat) (w : IWord) : DecodesPairs (decodeFlow opc w) := by
  unfold decodeFlow
  split
  all_goals simp [pairNamed]

theorem decodeBin_pairs (f : BinFn) (w : IWord) : DecodesPairs (decodeBin f w) := by
  unfold decodeBin
  split
  · simp [pairNamed]
  · refine decodesPairs_bind.mpr fun _ _ => decodesPairs_bind.mpr fun _ _ => ?_
    split
    all_goals simp [pairNamed]

theorem decodeUnary_pairs (w : IWord) : DecodesPairs (decodeUnary w) := by
  unfold decodeUnary
  extract_lets rest
  have hrest (f : UnFn) : DecodesPairs (rest f) := by
    unfold rest
    cases f
    all_goals simp [pairNamed]
  split
  case h_6 => rfl
  all_goals exact decodesPairs_bind.mpr fun f _ => hrest f

theorem decodeDiv_pairs (w : IWord) : DecodesPairs (decodeDiv w) := by simp [decodeDiv, pairNamed]

theorem decodeBitOp_pairs (w : IWord) : DecodesPairs (decodeBitOp w) := by simp [decodeBitOp, pairNamed]

theorem decodeSearch_pairs (f : SearchFn) (w : IWord) : DecodesPairs (decodeSearch f w) := by simp [decodeSearch, pairNamed]

theorem decodeAcc_pairs (opc : Nat) (w : IWord) : DecodesPairs (decodeAcc opc w) := by
  unfold decodeAcc
  refine decodesPairs_bind.mpr fun pm _ => ?_
  dsimp only
  split
  case h_2 =>
    split
    all_goals simp [pairNamed]
  all_goals simp [pairNamed]

theorem decodeLoad_pairs (opc : Nat) (w : IWord) : DecodesPairs (decodeLoad opc w) := by
  unfold decodeLoad
  split
  case h_11 =>
    refine decodesPairs_bind.mpr fun _ _ => decodesPairs_bind.mpr fun s1 _ => decodesPairs_bind.mpr fun s2 _ => ?_
    cases s1 <;> rfl
  all_goals simp [pairNamed]

/-- A word that is decoded names a pair if it is complex. -/
theorem decodeOp_pairs (w : IWord) : DecodesPairs (decodeOp w) := by
  unfold decodeOp
  dsimp only
  split
  · exact decodeFlow_pairs _ w
  · split
    · exact decodeBin_pairs _ w
    · split
      case h_1 => exact decodeUnary_pairs w
      case h_2 => exact decodeDiv_pairs w
      case h_3 => exact decodeBitOp_pairs w
      case h_13 | h_14 | h_15 => exact decodeSearch_pairs _ w
      case h_16 | h_17 | h_18 | h_19 => exact decodeAcc_pairs _ w
      case h_20 => exact decodeLoad_pairs _ w
      all_goals exact decodeMul_pairs _ w

theorem decodeWord_pairNamed {w : IWord} {sl : Slot} (h : decodeWord w = some sl) : pairNamed sl.op = true := by
  unfold decodeWord at h
  dsimp only at h
  split at h
  · cases h
    rfl
  · obtain ⟨op, hop, hrest⟩ := Option.bind_eq_some_iff.mp h
    obtain ⟨-, -, heq⟩ := Option.bind_eq_some_iff.mp hrest
    cases heq
    exact (Option.all_eq_true _ _).mp (decodeOp_pairs w) op hop

/-- A slot that is fetched is a word decoded. -/
theorem fetchSlot_decoded {sl : Slot} (h : fetchSlot s c m = .ok (some sl) t) : ∃ w, decodeWord w = some sl := by
  unfold fetchSlot at h
  split at h
  · cases h
  · obtain ⟨w, u, -, hdecode⟩ := Got.andThen_ok h
    split at hdecode
    · next x hx =>
      split at hdecode
      · cases hdecode
        exact ⟨w, hx⟩
      · cases hdecode
    · cases hdecode

/-- The pair that a complex word names, where its slot runs (R101). -/
theorem slotRuns_pair {cd : Cond} {cb n : Nat} {f : MulFn} {s1 s2 : DualOp} {int : Bool} {pm : PMove} (hf : isComplex f = true)
    (h : slotRuns s c m ⟨cd, cb, .mul f n s1 s2 int pm⟩ = true) : n = 0 ∨ n = 2 := by
  obtain ⟨-, -, hfetch, -⟩ := slotRuns_fetch h
  obtain ⟨w, hword⟩ := fetchSlot_decoded hfetch
  simpa [pairNamed, hf] using decodeWord_pairNamed hword

end Sys2Proof.Machine
end

section
/-! PROOFS. CMPY, CMAC, CMSU, CMACJ and BFLY; MAXI, MINI and MAXAI (R110, R111, R123, R124, R137). -/
namespace Sys2Proof.Machine

variable {s t w : State} {c : CoreRef} {m : Mode}

/-! ### Accumulator pairs -/

/-- The pair at `n` reads back. -/
theorem accOf_setPair {r : Regs} (ha : smWf (fun _ => (0 : Acc)) 0 r.a = true) (n : Nat) (re im : Int) :
    accOf (setPair r n re im) n = BitVec.ofInt 72 re ∧ accOf (setPair r n re im) (n + 1) = BitVec.ofInt 72 im := by
  have hre : smWf (fun _ => (0 : Acc)) 0 (setAcc r n (BitVec.ofInt 72 re)).a = true := smWf_smSet ha (Nat.zero_le n) _
  exact ⟨(smGet_smSet_ne hre (Nat.succ_ne_self n).symm _).trans (accOf_setAcc ha n _), accOf_setAcc hre (n + 1) _⟩

/-- Accumulators outside the pair stay. -/
theorem accOf_setPair_ne {r : Regs} (ha : smWf (fun _ => (0 : Acc)) 0 r.a = true) {n i : Nat} (hn : i ≠ n) (hn1 : i ≠ n + 1)
    (re im : Int) : accOf (setPair r n re im) i = accOf r i :=
  (smGet_smSet_ne (smWf_smSet ha (Nat.zero_le n) _) hn1 _).trans (smGet_smSet_ne ha hn _)

theorem setPair_a_wf {r : Regs} (ha : smWf (fun _ => (0 : Acc)) 0 r.a = true) (n : Nat) (re im : Int) :
    smWf (fun _ => (0 : Acc)) 0 (setPair r n re im).a = true :=
  smWf_smSet (smWf_smSet ha (Nat.zero_le n) _) (Nat.zero_le _) _

/-- Z of a pair is 1 only when both parts are 0, N follows the real part (R110). -/
theorem pairFlags_flags (f : Flg) (re im : Int) (v : Bool) :
    flagZ (pairFlags f re im v) = (decide (BitVec.ofInt 72 re = 0) && decide (BitVec.ofInt 72 im = 0)) ∧
      flagN (pairFlags f re im v) = (BitVec.ofInt 72 re).msb ∧ flagV (pairFlags f re im v) = v := by
  simp only [pairFlags, setV, setZN, flags_mkFlg, toNat_eq_zero_iff, and_self]

/-- The parts of a product alone stay within 72 bits. -/
theorem pairOver_cprod (x y : Word × Word) : pairOver (cprod x.1 x.2 y.1 y.2).1 (cprod x.1 x.2 y.1 y.2).2 = false := by
  obtain ⟨hrr, hrr'⟩ := mul_toInt_bounds x.1 y.1
  obtain ⟨hii, hii'⟩ := mul_toInt_bounds x.2 y.2
  obtain ⟨hri, hri'⟩ := mul_toInt_bounds x.1 y.2
  obtain ⟨hir, hir'⟩ := mul_toInt_bounds x.2 y.1
  rw [pairOver, Bool.or_eq_false_iff, outOfRange_eq_false_iff, outOfRange_eq_false_iff, cprod]
  omega

/-! ### Complex products -/

/-- A complex operation, once both operand pairs are read. -/
theorem mulComplex_effect {f : MulFn} (hf : isComplex f = true) {cd : Cond} {cb n : Nat} {s1 s2 : DualOp} {pm : PMove} {x y : Word × Word}
    (h : slotRuns s c m ⟨cd, cb, .mul f n s1 s2 false pm⟩ = true) (hx : readPair (slotState s c m) c s1 = .ok x t)
    (hy : readPair t c s2 = .ok y w) (hw : w.wf = true) :
    ∃ u, exec (mulInstr f c) s = .next u ∧ MainKept (regsOf w c) pm (mulComplex f n x y (regsOf w c)) (regsOf u c) := by
  have hbody (b : Bool) : mulBody c (.mul f n s1 s2 false pm) m b (slotState s c m) =
      withPM c true pm (fun r => postDual c (postDual c (mulComplex f n x y r) s1) s2) w := by
    simp only [mulBody, hf, if_true, hx, hy, Got.toEff]
  rw [exec_mulInstr]
  exact runSlot_mul h (by simp [isMul]) (hbody _) (State.coresWf hw)

/-- A complex product whose exact parts are `re` and `im`: its pair takes them modulo 2^72, with their flags. -/
theorem mulComplex_pair {f : MulFn} (hf : isComplex f = true) {cd : Cond} {cb n : Nat} {s1 s2 : DualOp} {pm : PMove} {x y : Word × Word}
    (h : slotRuns s c m ⟨cd, cb, .mul f n s1 s2 false pm⟩ = true) (hx : readPair (slotState s c m) c s1 = .ok x t)
    (hy : readPair t c s2 = .ok y w) (hw : w.wf = true) {re im : Int}
    (hp : mulComplex f n x y (regsOf w c) =
      { setPair (regsOf w c) n re im with flg := pairFlags (regsOf w c).flg re im (pairOver re im) }) :
    ∃ u, exec (mulInstr f c) s = .next u ∧
      accOf (regsOf u c) n = BitVec.ofInt 72 re ∧ accOf (regsOf u c) (n + 1) = BitVec.ofInt 72 im ∧
      flagZ (regsOf u c).flg = (decide (BitVec.ofInt 72 re = 0) && decide (BitVec.ofInt 72 im = 0)) ∧
      flagN (regsOf u c).flg = (BitVec.ofInt 72 re).msb ∧
      flagV (regsOf u c).flg = (pairOver re im || moveSetsV (regsOf w c) pm) := by
  obtain ⟨u, hu, hacc, hz, hn, hv⟩ := mulComplex_effect hf h hx hy hw
  rw [hp] at hacc hz hn hv
  obtain ⟨hre, him⟩ := accOf_setPair (regsOf_files_wf hw c).1 n re im
  obtain ⟨hpz, hpn, hpv⟩ := pairFlags_flags (regsOf w c).flg re im (pairOver re im)
  exact ⟨u, hu, (hacc n).trans hre, (hacc (n + 1)).trans him, hz.trans hpz, hn.trans hpn, hv.trans (congrArg (· || _) hpv)⟩

/-- The registers after BFLY of exact sum `re`, `im` and difference `re'`, `im'` (R124). -/
def bflyRegs (n : Nat) (re im re' im' : Int) (r : Regs) : Regs :=
  { setPair (setPair r n re im) (2 - n) re' im' with flg := pairFlags r.flg re im (pairOver re im || pairOver re' im') }

theorem mulComplex_bfly {n : Nat} (hn : n = 0 ∨ n = 2) (x y : Word × Word) (r : Regs) :
    let p := cprod x.1 x.2 y.1 y.2
    mulComplex .bfly n x y r = bflyRegs n ((accOf r n).toInt + p.1) ((accOf r (n + 1)).toInt + p.2) ((accOf r n).toInt - p.1)
      ((accOf r (n + 1)).toInt - p.2) r := by
  obtain rfl | rfl := hn <;> rfl

/-- Both pairs read back. -/
theorem accOf_bflyRegs {r : Regs} (ha : smWf (fun _ => (0 : Acc)) 0 r.a = true) {n : Nat} (hn : n = 0 ∨ n = 2) (re im re' im' : Int) :
    let q := bflyRegs n re im re' im' r
    accOf q n = BitVec.ofInt 72 re ∧ accOf q (n + 1) = BitVec.ofInt 72 im ∧
      accOf q (2 - n) = BitVec.ofInt 72 re' ∧ accOf q (2 - n + 1) = BitVec.ofInt 72 im' := by
  obtain ⟨hre, him⟩ := accOf_setPair ha n re im
  have hset := setPair_a_wf ha n re im
  obtain ⟨hre', him'⟩ := accOf_setPair hset (2 - n) re' im'
  exact ⟨(accOf_setPair_ne hset (by omega) (by omega) _ _).trans hre, (accOf_setPair_ne hset (by omega) (by omega) _ _).trans him,
    hre', him'⟩

/-- BFLY of exact sum `re`, `im` and difference `re'`, `im'`: both pairs take them modulo 2^72, with the flags of the sum, and V where any of
the four leaves the range. -/
theorem mulComplex_bflyPairs {cd : Cond} {cb n : Nat} {s1 s2 : DualOp} {pm : PMove} {x y : Word × Word} (hn : n = 0 ∨ n = 2)
    (h : slotRuns s c m ⟨cd, cb, .mul .bfly n s1 s2 false pm⟩ = true) (hx : readPair (slotState s c m) c s1 = .ok x t)
    (hy : readPair t c s2 = .ok y w) (hw : w.wf = true) {re im re' im' : Int}
    (hp : mulComplex .bfly n x y (regsOf w c) = bflyRegs n re im re' im' (regsOf w c)) :
    ∃ u, exec (.bfly c) s = .next u ∧
      accOf (regsOf u c) n = BitVec.ofInt 72 re ∧ accOf (regsOf u c) (n + 1) = BitVec.ofInt 72 im ∧
      flagZ (regsOf u c).flg = (decide (BitVec.ofInt 72 re = 0) && decide (BitVec.ofInt 72 im = 0)) ∧
      flagN (regsOf u c).flg = (BitVec.ofInt 72 re).msb ∧
      accOf (regsOf u c) (2 - n) = BitVec.ofInt 72 re' ∧ accOf (regsOf u c) (2 - n + 1) = BitVec.ofInt 72 im' ∧
      flagV (regsOf u c).flg =
        (outOfRange 72 re || outOfRange 72 im || outOfRange 72 re' || outOfRange 72 im' || moveSetsV (regsOf w c) pm) := by
  obtain ⟨u, hu, hacc, hz, hn', hv⟩ := mulComplex_effect (f := .bfly) rfl h hx hy hw
  rw [hp] at hacc hz hn' hv
  obtain ⟨hre, him, hre', him'⟩ := accOf_bflyRegs (regsOf_files_wf hw c).1 hn re im re' im'
  obtain ⟨hpz, hpn, hpv⟩ := pairFlags_flags (regsOf w c).flg re im (pairOver re im || pairOver re' im')
  refine ⟨u, hu, (hacc n).trans hre, (hacc (n + 1)).trans him, hz.trans hpz, hn'.trans hpn, (hacc _).trans hre', (hacc _).trans him', ?_⟩
  rw [hv, bflyRegs, hpv, pairOver, pairOver, ← Bool.or_assoc]

/-! ### Search steps (R137) -/

/-- A D register that the parallel move does not write keeps what the main operation left. -/
theorem moveRegs_d {r : Regs} (hd : smWf (fun _ => (0 : Word)) 0 r.d = true) (r0 : Regs) (mainV : Bool) {pm : PMove} (ldv : Word) {dd : Nat}
    (hpm : pmDest pm ≠ some dd) : rf (moveRegs r0 mainV pm ldv r).d dd = rf r.d dd := by
  have hother {d : Nat} (h : pmDest pm = some d) (v : Word) :
      smGet (fun _ => (0 : Word)) (smSet (fun _ => (0 : Word)) d v r.d) dd = rf r.d dd :=
    smGet_smSet_ne hd (fun e => hpm (h.trans (congrArg some e.symm))) v
  cases pm with
  | none | stlD => rfl
  | ldl l d | mov d ds => exact hother rfl _
  | stlA l a =>
    obtain ⟨e, he⟩ := storeRegs_frame r0 mainV a r
    simp only [moveRegs, he]
  | sta d a =>
    obtain ⟨e, he⟩ := storeRegs_frame r0 mainV a r
    simp only [moveRegs, setD, he]
    exact hother rfl _

/-- What a search step leaves in Dd, FLG and IX: the address of the operand goes to IX where the operand wins. -/
theorem searchD_effect {r : Regs} (hd : smWf (fun _ => (0 : Word)) 0 r.d = true) (f : SearchFn) (dd : Nat) (v : Word) (a : Option Word) :
    let o := searchRes r.flg f (rf r.d dd) v
    let q := searchD f dd v a r
    rf q.d dd = o.val ∧ q.flg = o.flg ∧ q.ix = if o.win then a.getD r.ix else r.ix := by
  intro o q
  have hval : rf (setD { r with flg := o.flg } dd o.val).d dd = o.val := rf_setD (r := { r with flg := o.flg }) hd dd _
  cases a with
  | none => exact ⟨hval, rfl, (ite_self _).symm⟩
  | some x =>
    have hq : q = if o.win then { setD { r with flg := o.flg } dd o.val with ix := x } else setD { r with flg := o.flg } dd o.val := rfl
    cases hwin : o.win with
    | true => rw [hq, hwin]; exact ⟨hval, rfl, rfl⟩
    | false => rw [hq, hwin]; exact ⟨hval, rfl, rfl⟩

/-- IX after a search step: the address of an operand in memory that wins. -/
def searchIx (r : Regs) (src : DualOp) (win : Prop) [Decidable win] : Word :=
  match src with
  | .mem mo => if win then rf r.p mo.ptr else r.ix
  | .reg _ => r.ix

theorem searchIx_eq (r : Regs) (src : DualOp) (win : Prop) [Decidable win] :
    searchIx r src win = if win then (searchAddr r src).getD r.ix else r.ix := by
  cases src with
  | mem mo => rfl
  | reg n => exact (ite_self _).symm

/-- What a compare comes to: whether the operand wins, and with which value, C, and V. -/
structure SearchIs (o : SearchRes) (d g : Word) (wins : Prop) [Decidable wins] (v : Bool) : Prop where
  win : o.win = decide wins
  val : o.val = if wins then g else d
  c : flagC o.flg = decide wins
  ov : flagV o.flg = v

/-- A search step whose operand is read in `w`. -/
theorem search_effect {f : SearchFn} {cd : Cond} {cb dd : Nat} {src : DualOp} {pm : PMove} {y g : Word} {win : Prop}
    [Decidable win] {b : Bool} (h : slotRuns s c m ⟨cd, cb, .search f dd src pm⟩ = true) (hpm : pmDest pm ≠ some dd)
    (hy : readDual (slotState s c m) c src = .ok y w) (hw : w.wf = true)
    (ho : SearchIs (searchRes (regsOf w c).flg f (rf (regsOf w c).d dd) y) (rf (regsOf w c).d dd) g win b) :
    ∃ u, exec (searchInstr f c) s = .next u ∧ rf (regsOf u c).d dd = (if win then g else rf (regsOf w c).d dd) ∧
      flagC (regsOf u c).flg = decide win ∧ (regsOf u c).ix = searchIx (regsOf w c) src win ∧
      flagV (regsOf u c).flg = (b || moveSetsV (regsOf w c) pm) := by
  obtain ⟨hwin, hres, hc, hv⟩ := ho
  have hd := regsOf_d_wf hw c
  have hregs : regsOf (slotState s c m) c = regsOf w c := congrArg Core.r (readDual_core (slotRuns_wf h) hy).symm
  have hbody (b : Bool) : searchBody c (.search f dd src pm) m b (slotState s c m) =
      withPM c true pm (fun q => postDual c (searchD f dd y (searchAddr (regsOf w c) src) q) src) w := by
    rw [← hregs]
    simp only [searchBody, hy, Got.toEff]
    cases src <;> rfl
  obtain ⟨u, hu, ⟨hud, -, -, -, -, -, -, huix, huflg, -⟩, -⟩ := runSlot_withPM h (want := isSearch f) (by simp [isSearch]) (hbody _)
    (State.coresWf hw)
  obtain ⟨hval, hflg, hix⟩ := searchD_effect hd f dd y (searchAddr (regsOf w c) src)
  obtain ⟨hpd, -, hpix, hpf⟩ := postDual_keeps (c := c) (searchD f dd y (searchAddr (regsOf w c) src) (regsOf w c)) src
  obtain ⟨-, -, hkept⟩ := (searchD_kept f dd y (searchAddr (regsOf w c) src) (regsOf w c)).trans (postDual_kept (c := c) _ src)
  obtain ⟨-, -, hmc, hmix⟩ := moveRegs_keeps (regsOf w c) true pm (pmLoad w c pm)
    (postDual c (searchD f dd y (searchAddr (regsOf w c) src) (regsOf w c)) src)
  refine ⟨u, (exec_searchInstr f c s).trans hu, ?_, ?_, ?_, ?_⟩
  · rw [hud, moveRegs_d (hkept hd) _ _ _ hpm, hpd, hval, hres]
  · rw [huflg, hmc, hpf, hflg, hc]
  · rw [huix, hmix, hpix, hix, hwin, searchIx_eq]
    simp only [decide_eq_true_eq]
  · rw [huflg, moveRegs_flagV, hpf, hflg, hv]

/-- MAXI and MINI compare as signed numbers; V is clear (R137). -/
theorem searchRes_maxi (f : Flg) (d v : Word) : SearchIs (searchRes f .maxi d v) d v (d.toInt < v.toInt) false := by
  constructor
  all_goals simp only [searchRes, flags_result, flags_mkFlg, flags_mkFlg_rest, decide_eq_true_eq]

theorem searchRes_mini (f : Flg) (d v : Word) : SearchIs (searchRes f .mini d v) d v (v.toInt < d.toInt) false := by
  constructor
  all_goals simp only [searchRes, flags_result, flags_mkFlg, flags_mkFlg_rest, decide_eq_true_eq]

/-- The magnitude that MAXAI compares with the running extreme (R137; assumption log 23). -/
def magnitude (v : Word) : Word := if v = 0x80000000 then 0x7FFFFFFF else if v.msb then -v else v

theorem searchRes_maxai (f : Flg) (d v : Word) :
    SearchIs (searchRes f .maxai d v) d (magnitude v) (d.toInt < (magnitude v).toInt) (decide (v = 0x80000000)) := by
  constructor
  all_goals
    simp only [searchRes, flags_result, addSAT, flags_mkFlg, flags_mkFlg_rest, decide_eq_true_eq]
    rfl

/-- Settles O7: a complex word leaves its exact parts in the pairs that it names; a search step leaves what its compare gives. -/
theorem complexMultiplyAndSearch : Obligations.ComplexMultiplyAndSearch := by
  refine ⟨?cmpy, ?cmac, ?cmsu, ?cmacj, ?bfly, ?maxi, ?mini, ?maxai⟩
  case cmpy =>
    intro s c m cd cb n s1 s2 pm x y v w r pr qi re im h hx hy hw
    obtain ⟨u, hu, hre, him, hz, hn, hv⟩ := mulComplex_pair (f := .cmpy) rfl h hx hy hw (re := re) (im := im) rfl
    exact ⟨u, hu, hre, him, hz, hn, hv.trans (congrArg (· || moveSetsV r pm) (pairOver_cprod x y))⟩
  case cmac => exact fun _ _ _ _ _ _ _ _ _ _ _ _ _ h hx hy hw => mulComplex_pair (f := .cmac) rfl h hx hy hw rfl
  case cmsu => exact fun _ _ _ _ _ _ _ _ _ _ _ _ _ h hx hy hw => mulComplex_pair (f := .cmsu) rfl h hx hy hw rfl
  case cmacj => exact fun _ _ _ _ _ _ _ _ _ _ _ _ _ h hx hy hw => mulComplex_pair (f := .cmacj) rfl h hx hy hw rfl
  case bfly =>
    intro s c m cd cb n s1 s2 pm x y v w r pr qi re im h hx hy hw
    have hpair := slotRuns_pair (f := .bfly) rfl h
    exact mulComplex_bflyPairs hpair h hx hy hw (mulComplex_bfly hpair x y r)
  case maxi => exact fun _ _ _ _ _ _ _ _ _ _ h hpm hy hw => search_effect (f := .maxi) h hpm hy hw (searchRes_maxi _ _ _)
  case mini => exact fun _ _ _ _ _ _ _ _ _ _ h hpm hy hw => search_effect (f := .mini) h hpm hy hw (searchRes_mini _ _ _)
  case maxai => exact fun _ _ _ _ _ _ _ _ _ _ h hpm hy hw => search_effect (f := .maxai) h hpm hy hw (searchRes_maxai _ _ _)

end Sys2Proof.Machine
end

section
/-! PROOFS. Stewards and their doorbells (R166, R347, R350): what a write of RUN leaves of a steward, and the doorbell bits that a write
sets or clears. -/
namespace Sys2Proof.Machine

variable {s t : State} {a : Access} {d i : Nat}

/-! ### Writes to a STEWARD page -/

/-- Both STEWARD pages take registers. -/
theorem pageRows_steward (hi : i < 2) : (pageRows (0x200 + i)).isEmpty = false := by
  revert i; decide

theorem regWrite_steward (hi : i < 2) (s : State) (d o : Nat) (a : Access) (v : Word) :
    regWrite s d (0x200 + i) o a v = writeSteward s d i o a v := by
  have hhi : 0x200 + i ≤ 0x201 := by omega
  have hne (n : Nat) (hn : n < 0x200) : 0x200 + i ≠ n := by omega
  have hgt (n : Nat) (hn : n < 0x200) : ¬ 0x200 + i ≤ n := by omega
  simp [regWrite, hhi, hne, hgt]

/-- A write to a STEWARD page that its block takes. -/
theorem unitCmd_steward {o : Nat} (h : reachesReg s a (regA d (0x200 + i) o) = true) (hi : i < 2) (ho : o < 0x1000) (h4 : o % 4 = 0)
    {v : Word} (hwrite : writeSteward s d i o a v = done t) : unitCmd i 2 a (regA d (0x200 + i) o) v s = .next t.answered := by
  unfold unitCmd
  rw [onUnit_true (by simpa using hi)]
  exact regCmd_taken h (by omega) ho h4 (pageRows_steward hi) ((regWrite_steward hi s d o a v).trans hwrite)

/-! ### RUN (R347) -/

/-- The state with RUN of a steward written. -/
def runWritten (s : State) (d i : Nat) (run : Bool) : State := setFld s (Reg.STEWARD_CTL d i) F.STEWARD_CTL_RUN run.toNat

theorem runWritten_wf (h : s.wf = true) (d i : Nat) (run : Bool) : (runWritten s d i run).wf = true := State.wf_setFld h _ _ _

theorem runWritten_regs (h : s.wf = true) (d i : Nat) (run : Bool) : RegsBut s (runWritten s d i run) [Reg.STEWARD_CTL d i] :=
  fun r hr => (reg_setReg h _ _ _).trans (if_neg (by simpa using hr))

/-- RUN leaves the START address. -/
theorem fld_start_runWritten (h : s.wf = true) (d i : Nat) (run : Bool) :
    fld (runWritten s d i run) (Reg.STEWARD_START d i) F.STEWARD_START_ADDR = fld s (Reg.STEWARD_START d i) F.STEWARD_START_ADDR := by
  have hne : Reg.STEWARD_START d i ≠ Reg.STEWARD_CTL d i := regA_ne (by decide) (by decide) (.inr (by decide))
  unfold fld
  rw [runWritten_regs h d i run _ (by simpa using hne)]

/-- A steward that starts at a word address: IPL 0, nothing of a repeat, a delay slot or a loop in progress, and every other register
as it stands (assumption log 72). -/
def startedAt (k : Core) (pc : Nat) : Stew where
  core := { k with r := { k.r with pc := pc }, free := { k.free with ipl := 0 }
                   rep := .idle, dly := none, lact := 0, iterEnd := false, brk := none }
  st := .run

/-- The word of STEWARD_CTL with RUN alone. -/
theorem one_run : one F.STEWARD_CTL_RUN = 1 := by decide

/-- RUN 1 starts a steward that is HELD, HALTED or in DEBUG. -/
theorem stewardCtlWrite_starts (h : s.wf = true)
    (hst : (stew s d i).st = .held ∨ (stew s d i).st = .halted ∨ (stew s d i).st = .debug) :
    stewardCtlWrite s d i (one F.STEWARD_CTL_RUN) = setStew (runWritten s d i true) d i
      (startedAt (stew s d i).core (fld s (Reg.STEWARD_START d i) F.STEWARD_START_ADDR)) := by
  rw [← fld_start_runWritten h d i true]
  rcases hst with hst | hst | hst
  all_goals simp [stewardCtlWrite, runWritten, startedAt, one_run, hst]

/-- RUN 1 leaves a steward that runs or waits. -/
theorem stewardCtlWrite_goesOn (hst : (stew s d i).st = .run ∨ (stew s d i).st = .wait) :
    stewardCtlWrite s d i (one F.STEWARD_CTL_RUN) = runWritten s d i true := by
  rcases hst with hst | hst
  all_goals simp [stewardCtlWrite, runWritten, one_run, hst]

/-- The state of a steward with RUN 0: HELD where it waits, or runs at a point at which R166 would allow an interrupt. -/
def heldState (x : Stew) : SState := if x.st = .wait ∨ (x.st = .run ∧ heldOff x.core = false) then .held else x.st

theorem settleHold_rest (s : State) (d i : Nat) : { settleHold s d i with stew := s.stew } = s := by
  unfold settleHold
  dsimp only
  split
  · rfl
  · rfl

/-- A hold that is owed acts on its steward's state alone. -/
theorem stew_settleHold (h : s.wf = true) (hrun : bitF s (Reg.STEWARD_CTL d i) F.STEWARD_CTL_RUN = false) :
    stew (settleHold s d i) d i = { stew s d i with st := heldState (stew s d i) } := by
  unfold settleHold heldState
  simp only [hrun, Bool.not_false, Bool.true_and, Bool.or_eq_true, Bool.and_eq_true, Bool.not_eq_true', decide_eq_true_eq]
  split
  · exact stew_setStew_same h _ _ _
  · rfl

/-- RUN 0 holds the steward once the bit is written. -/
theorem stewardCtlWrite_holds (s : State) (d i : Nat) : stewardCtlWrite s d i 0 = settleHold (runWritten s d i false) d i := rfl

/-- A change of stewards alone leaves every register. -/
theorem reg_of_restEq {u : State} (ht : { t with stew := s.stew } = u) (r : Nat) : reg t r = reg u r := (congrArg (reg · r) ht :)

/-- Where a write of RUN changes stewards beside the bit, its answer leaves everything else. -/
theorem runWritten_frame {run : Bool} (h : s.wf = true) (ht : { t with stew := s.stew } = runWritten s d i run) :
    { t.answered with regs := s.regs, stew := s.stew, resp := s.resp } = s ∧ RegsBut s t.answered [Reg.STEWARD_CTL d i] := by
  have hrest : { t with regs := s.regs, stew := s.stew, resp := s.resp } = s :=
    congrArg (fun u : State => { u with regs := s.regs, resp := s.resp }) ht
  exact ⟨hrest, fun r hr => (reg_of_restEq ht r).trans (runWritten_regs h d i run r hr)⟩

/-! ### The four commands -/

theorem exec_stewardRun (h : reachesReg s a (Reg.STEWARD_CTL d i) = true) (hi : i < 2) :
    exec (.stewardRun a d i) s = .next (stewardCtlWrite s d i (one F.STEWARD_CTL_RUN)).answered :=
  unitCmd_steward h hi (by decide) rfl rfl

theorem exec_stewardHold (h : reachesReg s a (Reg.STEWARD_CTL d i) = true) (hi : i < 2) :
    exec (.stewardHold a d i) s = .next (settleHold (runWritten s d i false) d i).answered :=
  unitCmd_steward h hi (by decide) rfl (congrArg done (stewardCtlWrite_holds s d i))

/-- DBSET adds the bits written to those of DBELL (R350). -/
theorem exec_doorbellSet (h : reachesReg s a (Reg.STEWARD_DBSET d i) = true) (hi : i < 2) (v : Word) :
    exec (.doorbellSet a d i v) s = .next (setReg s (Reg.STEWARD_DBELL d i) (reg s (Reg.STEWARD_DBELL d i) ||| v)).answered :=
  unitCmd_steward h hi (by decide) rfl rfl

/-- The row of DBELL has 32 bits that a 1 clears. -/
theorem dbell_row (hi : i < 2) :
    (pageRows (0x200 + i)).find? (fun r => rowAt r 0x24) = some ⟨0x24, 0, 1, 0, 1, 0, 0, 0xffffffff, 0, 0⟩ := by
  revert i; decide

/-- DBELL loses the bits written as 1 (R350). -/
theorem exec_doorbellClear (h : reachesReg s a (Reg.STEWARD_DBELL d i) = true) (hi : i < 2) (v : Word) :
    exec (.doorbellClear a d i v) s =
      .next (setReg s (Reg.STEWARD_DBELL d i) (reg s (Reg.STEWARD_DBELL d i) &&& ~~~v)).answered := by
  refine unitCmd_steward h hi (by decide) rfl ?_
  change done (plainWrite s d (0x200 + i) 0x24 a v) = _
  rw [plainWrite_row (by omega) (by decide) (dbell_row hi), maskWrite_w1c rfl rfl rfl]
  change done (setReg s _ (_ &&& ~~~(v &&& 0xFFFF_FFFF#32))) = _
  rw [Word.and_ones]
  rfl

/-- Settles O45: a write of RUN starts, leaves or holds its steward and changes nothing else; DBSET and DBELL set and clear the doorbell
bits written as 1. -/
theorem stewardsAndDoorbells : Obligations.StewardsAndDoorbells := by
  refine ⟨?starts, ?goesOn, ?holds, ?set, ?clear⟩
  case starts =>
    intro s a d i st h hi hst
    have hwf := reachesReg_wf h
    have hnew := stew_setStew_same (runWritten_wf hwf d i true) d i
      (startedAt (stew s d i).core (fld s (Reg.STEWARD_START d i) F.STEWARD_START_ADDR))
    have hexec := exec_stewardRun h hi
    rw [stewardCtlWrite_starts hwf hst] at hexec
    exact ⟨_, hexec, congrArg Stew.st hnew, congrArg (·.core.free) hnew, congrArg (·.core.r) hnew, runWritten_frame hwf rfl⟩
  case goesOn =>
    intro s a d i st h hi hst
    have hexec := exec_stewardRun h hi
    rw [stewardCtlWrite_goesOn hst] at hexec
    exact ⟨_, hexec, rfl, runWritten_frame (reachesReg_wf h) rfl⟩
  case holds =>
    intro s a d i st h hi
    have hwf := reachesReg_wf h
    have hrun := bitF_setFld_zero hwf (Reg.STEWARD_CTL d i) (f := F.STEWARD_CTL_RUN) (by decide) (by decide)
    have hnew := stew_settleHold (runWritten_wf hwf d i false) hrun
    have hrest := settleHold_rest (runWritten s d i false) d i
    have hbit := congrArg (fun w => decide (wGet w F.STEWARD_CTL_RUN = 1)) (reg_of_restEq hrest (Reg.STEWARD_CTL d i))
    exact ⟨_, exec_stewardHold h hi, hbit.trans hrun, congrArg Stew.st hnew, (congrArg Stew.core hnew :), runWritten_frame hwf hrest⟩
  case set => exact fun _ _ _ _ v h hi => exec_doorbellSet h hi v
  case clear => exact fun _ _ _ _ v h hi => exec_doorbellClear h hi v

end Sys2Proof.Machine
end

section
/-! PROOFS. The LPDDR4X controller (R198–R205): the writes of its page, training and retraining, refreshes, the critical window and
power-down. -/
namespace Sys2Proof.Machine

variable {s t : State} {a : Access} {d : Nat} {v : Word}

/-! ### DDR_CTL (R201) -/

/-- EN 0 stops the channel, whatever it was doing. -/
theorem ddrCtlWrite_stops (hv : wGet v F.DDR_CTL_EN ≠ 1) (s : State) (d : Nat) :
    ddrCtlWrite s d v = setDdr (setFld (setFld (setFld s (Reg.DDR_CTL d) F.DDR_CTL_EN 0) (Reg.DDR_STAT d) F.DDR_STAT_READY 0)
      (Reg.DDR_STAT d) F.DDR_STAT_TRAINING 0) d Ddr.zero := by
  simp [ddrCtlWrite, hv]

/-- Two ranks of 12 or 16 Gb, which the controller does not take. -/
def tooDense (s : State) (d : Nat) : Bool :=
  fld s (Reg.DDR_CFG d) F.DDR_CFG_RANKS = 1 &&
    (fld s (Reg.DDR_CFG d) F.DDR_CFG_DENS = 3 || fld s (Reg.DDR_CFG d) F.DDR_CFG_DENS = 4)

/-- A rise of EN starts training, but not from a setting that is too dense. -/
theorem ddrCtlWrite_enables (hv : wGet v F.DDR_CTL_EN = 1) (hoff : bitF s (Reg.DDR_CTL d) F.DDR_CTL_EN = false) :
    ddrCtlWrite s d v = if tooDense s d then setFld s (Reg.DDR_STAT d) F.DDR_STAT_CFGREJ 1
      else startTraining (setFld s (Reg.DDR_CTL d) F.DDR_CTL_EN 1) d := by
  unfold ddrCtlWrite
  simp only [hv, hoff, decide_true, Bool.not_false, Bool.not_true, Bool.and_true, Bool.true_and, Bool.false_eq_true, if_true, if_false]
  rfl

/-- RETRAIN while EN stays 1 trains again, once a critical window is over. -/
theorem ddrCtlWrite_retrains (hv : wGet v F.DDR_CTL_EN = 1) (hre : wGet v F.DDR_CTL_RETRAIN = 1)
    (hon : bitF s (Reg.DDR_CTL d) F.DDR_CTL_EN = true) :
    ddrCtlWrite s d v =
      if (ddr s d).window then setDdr (setFld s (Reg.DDR_CTL d) F.DDR_CTL_EN 1) d { ddr s d with retrain := true }
      else startTraining (setFld s (Reg.DDR_CTL d) F.DDR_CTL_EN 1) d := by
  unfold ddrCtlWrite
  simp only [hv, hre, hon, decide_true, Bool.not_true, Bool.and_false, Bool.false_and, Bool.false_eq_true, if_true, if_false,
    Bool.toNat_true, ddr_setFld]

/-- A write of DDR_CTL is taken. -/
theorem regCmd_ddrCtl (h : reachesReg s a (Reg.DDR_CTL d) = true) (v : Word) :
    regCmd a (Reg.DDR_CTL d) v s = .next (ddrCtlWrite s d v).answered :=
  regCmd_taken h (by decide) (by decide) rfl rfl rfl

/-- The word that DDR_RETRAIN writes: EN as it stands, and RETRAIN. -/
def retrainWord (s : State) (d : Nat) : Word := keepField s (Reg.DDR_CTL d) F.DDR_CTL_EN ||| one F.DDR_CTL_RETRAIN

theorem exec_ddrRetrain (h : reachesReg s a (Reg.DDR_CTL d) = true) :
    exec (.ddrRetrain a d) s = .next (ddrCtlWrite s d (retrainWord s d)).answered := regCmd_ddrCtl h _

/-- Its bits 0 and 1. -/
theorem retrainWord_eq (s : State) (d : Nat) : retrainWord s d = reg s (Reg.DDR_CTL d) &&& 1 ||| 2 :=
  congrArg (· ||| 2) (keepField_bit0 s _)

theorem wGet_retrainWord_en (s : State) (d : Nat) :
    decide (wGet (retrainWord s d) F.DDR_CTL_EN = 1) = bitF s (Reg.DDR_CTL d) F.DDR_CTL_EN := by
  rw [F.DDR_CTL_EN, wGet_bit, bitF_bit, retrainWord_eq]
  simp

theorem wGet_retrainWord_retrain (s : State) (d : Nat) : wGet (retrainWord s d) F.DDR_CTL_RETRAIN = 1 := by
  refine of_decide_eq_true ?_
  rw [F.DDR_CTL_RETRAIN, wGet_bit, retrainWord_eq]
  simp

/-! ### DDR_CFG (R201) -/

/-- While EN is 0 DDR_CFG takes its twelve bits. -/
theorem ddrCfgWrite_eq (s : State) (d : Nat) (v : Word) :
    ddrCfgWrite s d v = if bitF s (Reg.DDR_CTL d) F.DDR_CTL_EN then setFld s (Reg.DDR_STAT d) F.DDR_STAT_CFGREJ 1
      else maskPut s (Reg.DDR_CFG d) 0xFFF v := by
  have hrow : regRow (Reg.DDR_CFG d) = some ⟨4, 0, 1, 0, 1, 0x800, 0xfff, 0, 0, 0⟩ := regRow_regA (by decide) (by decide)
  unfold ddrCfgWrite
  rw [hrow]
  simp only [maskWrite_rw]
  rfl

theorem exec_ddrCfgWrite (h : reachesReg s a (Reg.DDR_CFG d) = true) (v : Word) :
    exec (.ddrCfgWrite a d v) s = .next (ddrCfgWrite s d v).answered :=
  regCmd_taken h (by decide) (by decide) rfl rfl rfl

/-! ### The critical window (R204) -/

/-- The window closed starts the retraining that waited for it. -/
theorem closeWindow_eq (h : s.wf = true) (d : Nat) :
    closeWindow s d = if (ddr s d).retrain then startTraining (setDdr s d { ddr s d with window := false }) d
      else setDdr s d { ddr s d with window := false } := by
  unfold closeWindow
  dsimp only
  rw [ddr_setDdr_same h]

/-! ### Commands of the controller -/

/-- A command of a die's controller whose conditions hold takes effect. -/
theorem onDie_due (hd : d < dieCount s.part) {b : Bool} (hb : b = true) (t : State) :
    onUnit (d < dieCount s.part) (whenDue s b t) = .next t :=
  (onUnit_true (by simpa using hd)).trans (whenDue_true hb)

/-- Settles O37: a write of DDR_CTL or DDR_CFG by the case of EN that it meets; every other command is due under the conditions of its
clause, and its effect is the one named. -/
theorem lpddr : Obligations.Lpddr := by
  refine ⟨?enable, ?reject, ?disable, ?retrain, ?retrainOff, ?trained, ?cfg, ?refreshDue, ?refreshIssue, ?windowOpen, ?windowClose,
    ?zq, ?mr4, ?powerDown⟩
  case enable =>
    refine fun s a d h hoff hfit => (regCmd_ddrCtl h (one F.DDR_CTL_EN)).trans ?_
    have hdense : tooDense s d = false := by
      unfold tooDense
      rcases hfit with hranks | hdens
      · simp [hranks]
      · simp [show fld s (Reg.DDR_CFG d) F.DDR_CFG_DENS ≠ 3 ∧ fld s (Reg.DDR_CFG d) F.DDR_CFG_DENS ≠ 4 by omega]
    rw [ddrCtlWrite_enables (by decide) hoff, hdense]
    rfl
  case reject =>
    refine fun s a d h hoff hranks hdens => (regCmd_ddrCtl h (one F.DDR_CTL_EN)).trans ?_
    rw [ddrCtlWrite_enables (by decide) hoff, tooDense, if_pos (by simpa [hranks] using hdens)]
  case disable => exact fun s a d h => (regCmd_ddrCtl h 0).trans (by rw [ddrCtlWrite_stops (by decide)])
  case retrain =>
    refine fun s a d h hon => (exec_ddrRetrain h).trans ?_
    have hen := of_decide_eq_true ((wGet_retrainWord_en s d).trans hon)
    rw [ddrCtlWrite_retrains hen (wGet_retrainWord_retrain s d) hon]
  case retrainOff =>
    refine fun s a d h hoff => (exec_ddrRetrain h).trans ?_
    rw [ddrCtlWrite_stops (of_decide_eq_false ((wGet_retrainWord_en s d).trans hoff))]
  case trained => exact fun s d ok hd htr hlive hpads => onDie_due hd (by simp [htr, hlive, hpads]) _
  case cfg => exact fun s a d v h => (exec_ddrCfgWrite h v).trans (by rw [ddrCfgWrite_eq])
  case refreshDue =>
    refine fun s d hd hruns => (onDie_due hd hruns _).trans ?_
    simp only [Bool.and_eq_true, decide_eq_true_eq, Nat.lt_succ_iff]
    rfl
  case refreshIssue => exact fun s d hd hruns hw hdebt => onDie_due hd (by simp [hruns, hw, hdebt]) _
  case windowOpen => exact fun s d hd hruns hp ho hlen => onDie_due hd (by simp [hruns, hp, ho, hlen]) _
  case windowClose => exact fun s d hwf hd hw => (onDie_due hd hw _).trans (by rw [closeWindow_eq hwf])
  case zq => exact fun s d hd hruns hw => onDie_due hd (by simp [hruns, hw]) _
  case mr4 => exact fun s d mul hd hruns hw => onDie_due hd (by simp [hruns, hw]) _
  case powerDown =>
    exact fun s d hd hruns hw hdown hn hidle => onDie_due hd (by simp [hruns, hw, hdown, hn, hidle]) _

end Sys2Proof.Machine
end

section
/-! PROOFS. Changes of schedule table and shares (R208, R209, R214, R233): what the end of a swap request leaves of an engine's status,
the writes of a CARAVAN page, and the switch of tables. -/
namespace Sys2Proof.Machine

variable {s t u : State} {a : Access} {d p r : Nat}

/-! ### Registers that swap requests leave alone (R225–R233) -/

/-- A register of a page above those of the Pulse, the governor, power and the link, the pages that the end of a swap request writes. -/
def PastSwaps (r : Nat) : Prop := ∀ e q o, q ≤ 0x68 → o < 0x1000 → r ≠ regA e q o

theorem pastSwaps_caravan (d : Nat) {p o : Nat} (hp : p < 8) (ho : o < 0x1000) : PastSwaps (regA d (0x78 + p) o) := by
  intro e q o' hq ho'
  unfold regA
  omega

/-- `t` is in canonical form, and register `r` reads in it as in `s`. -/
structure ReadsAs (r : Nat) (s t : State) : Prop where
  wf : t.wf = true
  reg : reg t r = reg s r

namespace ReadsAs

theorem refl (h : s.wf = true) : ReadsAs r s s := ⟨h, rfl⟩

theorem ite {c : Prop} [Decidable c] (ht : ReadsAs r s t) (hu : ReadsAs r s u) : ReadsAs r s (if c then t else u) := by
  split
  · exact ht
  · exact hu

theorem each {α : Type} {xs : List α} {f : α → State → State} (h : ReadsAs r s t)
    (hf : ∀ x u, ReadsAs r s u → ReadsAs r s (f x u)) : ReadsAs r s (each xs f t) :=
  each_keeps xs f (fun x _ u hu => hf x u hu) h

theorem setSwaps (h : ReadsAs r s t) {x : List SwapReq} : ReadsAs r s { t with swaps := x } := ⟨h.wf, h.reg⟩
theorem noteSeen (h : ReadsAs r s t) {p : Packet} : ReadsAs r s (noteSeen t p) := ⟨h.wf, h.reg⟩
theorem setLinkPort (h : ReadsAs r s t) {e : Nat} {x : LinkPort} : ReadsAs r s (setLinkPort t e x) :=
  ⟨State.wf_setLinkPort h.wf e x, h.reg⟩

theorem setReg (h : ReadsAs r s t) {x : Nat} (hx : r ≠ x) {w : Word} : ReadsAs r s (setReg t x w) :=
  ⟨State.wf_setReg h.wf x w, ((reg_setReg h.wf _ _ _).trans (if_neg hx)).trans h.reg⟩

theorem setFld (h : ReadsAs r s t) {x v : Nat} {f : Fld} (hx : r ≠ x) : ReadsAs r s (setFld t x f v) := h.setReg hx
theorem satFld (h : ReadsAs r s t) {x : Nat} {f : Fld} (hx : r ≠ x) : ReadsAs r s (satFld t x f) := .ite (h.setFld hx) h

section
variable (hr : PastSwaps r)
include hr

theorem powerSyncAll (h : ReadsAs r s t) : ReadsAs r s (powerSyncAll t none) := by
  refine .each h fun e u hu => ?_
  obtain ⟨hwf, hregs, -⟩ := (SyncFrame.refl (d := e) hu.wf).powerSync
  refine ⟨hwf, (hregs r ?_).trans hu.reg⟩
  simp only [syncRegs, List.mem_cons, List.not_mem_nil, or_false, not_or]
  refine ⟨?_, ?_, ?_, ?_, ?_⟩
  all_goals exact hr _ _ _ (by decide) (by decide)

theorem recordSwap (h : ReadsAs r s t) {e g tgt res det w : Nat} : ReadsAs r s (recordSwap t e g tgt res det w) := by
  have hpulse {o : Nat} (ho : o < 0x1000) : r ≠ regA e 1 o := hr e 1 o (by decide) ho
  have hres : r ≠ Reg.PULSE_SWAP_RES e := hpulse (by decide)
  exact .satFld (.setReg (.setReg (.setFld (.setFld (.setFld (.setFld h hres) hres) hres) hres) (hpulse (by decide)))
    (hpulse (by decide))) (hpulse (by decide))

theorem deviceSend (h : ReadsAs r s t) {e : Nat} {x : Packet} {fast : Bool} : ReadsAs r s (deviceSend t e x fast) := by
  unfold Machine.deviceSend
  split
  · exact .each h.noteSeen fun _ _ hu => .ite hu.setLinkPort hu
  · split
    · exact h.setLinkPort
    · split
      · exact .ite h.setLinkPort h.setLinkPort
      · exact h.setFld (hr _ _ _ (by decide) (by decide))

theorem reportSwap (h : ReadsAs r s t) {q : SwapReq} {res det w : Nat} : ReadsAs r s (reportSwap t q res det w) := by
  have hrec := h.recordSwap hr (e := q.coord) (g := q.group) (tgt := q.target) (res := res) (det := det) (w := w)
  unfold Machine.reportSwap
  dsimp only
  split
  · exact .ite hrec (.deviceSend hr hrec)
  · exact hrec

/-- A table written directly (R233). -/
theorem swapDirect (h : ReadsAs r s t) {e kind unit : Nat} : ReadsAs r s (swapDirect t e kind unit) := by
  unfold Machine.swapDirect
  dsimp only
  split
  · exact h
  · exact .ite (.ite h.setSwaps (.reportSwap hr (.setSwaps h.setSwaps))) (.reportSwap hr (.powerSyncAll hr h.setSwaps))

end

end ReadsAs

/-! ### Writes to a CARAVAN page -/

/-- Every CARAVAN page takes registers. -/
theorem pageRows_caravan (hp : p < 8) : (pageRows (0x78 + p)).isEmpty = false := by
  revert p; decide

theorem regWrite_caravan (hp : p < 8) (s : State) (d o : Nat) (a : Access) (v : Word) :
    regWrite s d (0x78 + p) o a v = writeCaravan s d p o a v := by
  have hhi : 0x78 + p ≤ 0x7F := by omega
  have hne (n : Nat) (hn : n < 0x78) : 0x78 + p ≠ n := by omega
  have hgt (n : Nat) (hn : n < 0x78) : ¬ 0x78 + p ≤ n := by omega
  simp [regWrite, hhi, hne, hgt]

/-- A write to a CARAVAN page that its block takes. -/
theorem unitCmd_caravan {o : Nat} (h : reachesReg s a (regA d (0x78 + p) o) = true) (hp : p < 8) (ho : o < 0x1000) (h4 : o % 4 = 0)
    {v : Word} (hwrite : writeCaravan s d p o a v = done t) : unitCmd p 8 a (regA d (0x78 + p) o) v s = .next t.answered := by
  unfold unitCmd
  rw [onUnit_true (by simpa using hp)]
  exact regCmd_taken h (by omega) ho h4 (pageRows_caravan hp) ((regWrite_caravan hp s d o a v).trans hwrite)

theorem exec_caravanSwapGo (h : reachesReg s a (Reg.CARAVAN_SWAP d p) = true) (hp : p < 8) :
    exec (.caravanSwapGo a d p) s = .next (carSwapGo s d p).answered := unitCmd_caravan h hp (by decide) rfl rfl

theorem exec_caravanShareWrite (h : reachesReg s a (Reg.CARAVAN_SHARE d p) = true) (hp : p < 8) (v : Word) :
    exec (.caravanShareWrite a d p v) s = .next (shareWrite s d p v).answered := unitCmd_caravan h hp (by decide) rfl rfl

/-! ### GO (R214, R233) -/

/-- The state in which GO has noted at an engine the change of table that it asks for. -/
def goNoted (s : State) (d p : Nat) : State :=
  setFld (setCaravan s d p { caravan s d p with change := some ((reg s (Reg.CARAVAN_TPULSE d p)).toNat, false), passed := false })
    (Reg.CARAVAN_STAT d p) F.CARAVAN_STAT_PEND 1

theorem carSwapGo_eq (s : State) (d p : Nat) : carSwapGo s d p = swapDirect (goNoted s d p) d 1 p := rfl

theorem goNoted_pend (h : s.wf = true) (d p : Nat) : bitF (goNoted s d p) (Reg.CARAVAN_STAT d p) F.CARAVAN_STAT_PEND = true :=
  decide_eq_true (fld_setFld_same (State.wf_setCaravan h _ _ _) _ (by decide) (by decide) 1)

/-- The change stays noted and PEND set, whatever GO ends of a swap request. -/
theorem carSwapGo_effect (h : s.wf = true) (d : Nat) (hp : p < 8) :
    caravan (carSwapGo s d p) d p =
        { caravan s d p with change := some ((reg s (Reg.CARAVAN_TPULSE d p)).toNat, false), passed := false } ∧
      bitF (carSwapGo s d p) (Reg.CARAVAN_STAT d p) F.CARAVAN_STAT_PEND = true ∧
      (carSwapGo s d p).kern = s.kern ∧ (carSwapGo s d p).mem = s.mem ∧ (carSwapGo s d p).lines = s.lines := by
  have hwf : (goNoted s d p).wf = true := State.wf_setFld (State.wf_setCaravan h _ _ _) _ _ _
  have hrest := ((SwapFrame.refl (d := d) hwf).swapDirect (e := d) (kind := 1) (unit := p)).rest
  have hstat := ((ReadsAs.refl hwf).swapDirect (pastSwaps_caravan d hp (o := 8) (by decide)) (e := d) (kind := 1) (unit := p)).reg
  rw [carSwapGo_eq]
  refine ⟨?_, ?_, (congrArg State.kern hrest :), (congrArg State.mem hrest :), (congrArg State.lines hrest :)⟩
  · exact (congrArg (fun x => caravan x d p) hrest :).trans (caravan_setCaravan_same h d p _)
  · exact (congrArg (fun w => decide (wGet w F.CARAVAN_STAT_PEND = 1)) hstat).trans (goNoted_pend h d p)

/-! ### Shares (R208) -/

/-- What stands against a share word: one of its halves above its limit, or the sum of the die's shares above the budget. -/
def shareOver (s : State) (d p : Nat) (v : Word) : Prop :=
  (if rateCode s ≤ 3 then 32768 else 16384) < wGet v F.CARAVAN_SHARE_FETCH ∨ 16384 < wGet v F.CARAVAN_SHARE_STORE ∨
    ddrBudget s d < shareSum s d - fetchShare s d p - storeShare s d p + wGet v F.CARAVAN_SHARE_FETCH + wGet v F.CARAVAN_SHARE_STORE

theorem shareWrite_over {v : Word} (h : shareOver s d p v) : shareWrite s d p v = setFld s (Reg.DDR_STAT d) F.DDR_STAT_SHAREREJ 1 :=
  if_pos (by simpa [shareOver, or_assoc] using h)

theorem shareWrite_fits {v : Word} (h : ¬ shareOver s d p v) : shareWrite s d p v = setReg s (Reg.CARAVAN_SHARE d p) v :=
  if_neg (by simpa [shareOver, or_assoc] using h)

/-! ### The switch of tables (R209, R214) -/

/-- `t` is in canonical form and differs from `s` in its tables alone. -/
structure SameButTabs (s t : State) : Prop where
  wf : t.wf = true
  rest : { t with tabs := s.tabs } = s

theorem SameButTabs.setCarWord (h : SameButTabs s t) {k e i : Nat} {v : Word} : SameButTabs s (setCarWord t d p k e i v) :=
  ⟨State.wf_setTab h.wf _ _ _ _, h.rest⟩

/-- Entries stop by their schedule words alone. -/
theorem carRelease_sameButTabs (h : s.wf = true) (d p k : Nat) : SameButTabs s (carRelease s d p k) :=
  each_keeps _ _ (fun _ _ _ hu => hu.setCarWord) ⟨h, rfl⟩

/-- Entries start by their schedule words alone. -/
theorem carRestart_sameButTabs (h : s.wf = true) (d p k : Nat) : SameButTabs s (carRestart s d p k) :=
  each_keeps _ _ (fun _ _ _ hu => hu.setCarWord.setCarWord) ⟨h, rfl⟩

theorem SameButTabs.reg_eq (h : SameButTabs s t) (r : Nat) : reg t r = reg s r := (congrArg (reg · r) h.rest :)

theorem SameButTabs.caravan_eq (h : SameButTabs s t) (d p : Nat) : caravan t d p = caravan s d p := (congrArg (caravan · d p) h.rest :)

/-- The state in which the other table of an engine is active and its entries are about to start. -/
def tableTurned (s : State) (d p : Nat) : State :=
  let t := setFld (carRelease s d p (carActive s d p)) (Reg.CARAVAN_STAT d p) F.CARAVAN_STAT_ACTIVE (1 - carActive s d p)
  setCaravan t d p { caravan t d p with served := [] }

theorem carSwitch_eq (s : State) (d p : Nat) : carSwitch s d p = carRestart (tableTurned s d p) d p (1 - carActive s d p) := rfl

section
variable (h : s.wf = true)
include h

theorem tableTurned_wf (d p : Nat) : (tableTurned s d p).wf = true :=
  State.wf_setCaravan (State.wf_setFld (carRelease_sameButTabs h d p _).wf _ _ _) _ _ _

/-- ACTIVE turns, and every other register stays. -/
theorem reg_tableTurned (d p r : Nat) : reg (tableTurned s d p) r = if r = Reg.CARAVAN_STAT d p then
    wSet (reg s (Reg.CARAVAN_STAT d p)) F.CARAVAN_STAT_ACTIVE (1 - carActive s d p) else reg s r := by
  have hrel := carRelease_sameButTabs h d p (carActive s d p)
  unfold tableTurned
  rw [reg_setCaravan, setFld, reg_setReg hrel.wf, hrel.reg_eq, hrel.reg_eq]

theorem caravan_tableTurned (d p : Nat) : caravan (tableTurned s d p) d p = { caravan s d p with served := [] } := by
  have hrel := carRelease_sameButTabs h d p (carActive s d p)
  unfold tableTurned
  rw [caravan_setCaravan_same (State.wf_setFld hrel.wf _ _ _), caravan_setFld, hrel.caravan_eq]

theorem tableTurned_rest (d p : Nat) : { tableTurned s d p with regs := s.regs, tabs := s.tabs, carav := s.carav } = s :=
  (congrArg (fun x : State => { x with regs := s.regs, carav := s.carav }) (carRelease_sameButTabs h d p (carActive s d p)).rest :)

theorem carSwitch_sameButTabs (d p : Nat) : SameButTabs (tableTurned s d p) (carSwitch s d p) := by
  rw [carSwitch_eq]
  exact carRestart_sameButTabs (tableTurned_wf h d p) d p _

/-- A switch of tables turns ACTIVE and forgets the entries served; beside that it writes schedule words alone. -/
theorem carSwitch_effect (d p : Nat) :
    carActive (carSwitch s d p) d p = 1 - carActive s d p ∧
      bitF (carSwitch s d p) (Reg.CARAVAN_STAT d p) F.CARAVAN_STAT_PEND = bitF s (Reg.CARAVAN_STAT d p) F.CARAVAN_STAT_PEND ∧
      caravan (carSwitch s d p) d p = { caravan s d p with served := [] } ∧
      { carSwitch s d p with regs := s.regs, tabs := s.tabs, carav := s.carav } = s ∧
      RegsBut s (carSwitch s d p) [Reg.CARAVAN_STAT d p] := by
  have hsame := carSwitch_sameButTabs h d p
  have hreg (r : Nat) := (hsame.reg_eq r).trans (reg_tableTurned h d p r)
  have hstat := (hreg _).trans (if_pos rfl)
  refine ⟨?_, ?_, (hsame.caravan_eq d p).trans (caravan_tableTurned h d p), ?_,
    fun r hr => (hreg r).trans (if_neg (by simpa using hr))⟩
  · have hle : 1 - carActive s d p < 2 := by omega
    unfold carActive fld at hle ⊢
    rw [hstat, wGet_wSet_same _ (by decide) (by decide)]
    exact Nat.mod_eq_of_lt hle
  · unfold bitF fld
    rw [hstat, wGet_wSet_ne _ (by decide) (by decide) (.inr (by decide))]
  · have hrest := congrArg (fun x : State => { x with regs := s.regs, tabs := s.tabs, carav := s.carav }) hsame.rest
    exact Eq.trans hrest (tableTurned_rest h d p)

/-- A pending change is dropped before the switch that it asked for. -/
theorem carDrop_effect (d p : Nat) :
    (carDrop s d p).wf = true ∧ caravan (carDrop s d p) d p = { caravan s d p with change := none, passed := false } ∧
      bitF (carDrop s d p) (Reg.CARAVAN_STAT d p) F.CARAVAN_STAT_PEND = false ∧
      carActive (carDrop s d p) d p = carActive s d p ∧ RegsBut s (carDrop s d p) [Reg.CARAVAN_STAT d p] := by
  have hwf := State.wf_setFld h (Reg.CARAVAN_STAT d p) F.CARAVAN_STAT_PEND 0
  refine ⟨State.wf_setCaravan hwf d p _, caravan_setCaravan_same hwf d p _, ?_, ?_, ?_⟩
  · exact bitF_setFld_zero h (Reg.CARAVAN_STAT d p) (by decide) (by decide)
  · exact fld_setFld_ne h (Reg.CARAVAN_STAT d p) (by decide) (by decide) (.inl (by decide)) 0
  · exact fun r hr => (reg_setReg h _ _ _).trans (if_neg (by simpa using hr))

theorem exec_caravanTableSwitch (hpod : hasPod s d p = true) (hmet : isMet (caravan s d p).change = true)
    (hpassed : (caravan s d p).passed = true) :
    ∃ t, exec (.caravanTableSwitch d p) s = .next t ∧ carActive t d p = 1 - carActive s d p ∧
      (caravan t d p).change = none ∧ (caravan t d p).served = [] ∧ bitF t (Reg.CARAVAN_STAT d p) F.CARAVAN_STAT_PEND = false ∧
      { t with regs := s.regs, tabs := s.tabs, carav := s.carav } = s ∧ RegsBut s t [Reg.CARAVAN_STAT d p] := by
  obtain ⟨hwf, hdropped, hpend, hactive, hregs⟩ := carDrop_effect h d p
  obtain ⟨hactive', hpend', hcar, hrest, hregs'⟩ := carSwitch_effect hwf d p
  refine ⟨carSwitch (carDrop s d p) d p, (onUnit_true hpod).trans (whenDue_true (by simp [hmet, hpassed])),
    hactive'.trans (by rw [hactive]), ?_, ?_, hpend'.trans hpend, ?_, fun r hr => (hregs' r hr).trans (hregs r hr)⟩
  · rw [hcar, hdropped]
  · rw [hcar]
  · exact (congrArg (fun x : State => { x with regs := s.regs, carav := s.carav }) hrest :)

end

/-- Settles O36: GO, the check, the switch and a share each by the lemma of its effect. -/
theorem caravanTables : Obligations.CaravanTables := by
  refine ⟨?go, ?check, ?switch, ?share, ?shareRefused, ?goNotes⟩
  case go => exact fun s a d p h hp => exec_caravanSwapGo h hp
  case check =>
    refine fun s d p hpod hsome hpassed => ((onUnit_true hpod).trans (whenDue_true (by simp [hsome, hpassed]))).trans ?_
    by_cases hcode : carCheck s d p = 0
    · cases isMet (caravan s d p).change <;> simp [hcode]
    · simp [hcode]
  case switch => exact fun s d p h hpod hmet hpassed => exec_caravanTableSwitch h hpod hmet hpassed
  case share =>
    refine fun s a d p v h hp hf hg hsum => (exec_caravanShareWrite h hp v).trans ?_
    rw [shareWrite_fits (by unfold shareOver; omega)]
  case shareRefused =>
    refine fun s a d p v h hp hover => (exec_caravanShareWrite h hp v).trans ?_
    rw [shareWrite_over hover]
  case goNotes =>
    intro s a d p hwf h hp
    obtain ⟨hcar, hpend, hkern, hmem, hlines⟩ := carSwapGo_effect hwf d hp
    exact ⟨_, exec_caravanSwapGo h hp, congrArg Caravan.change hcar, congrArg Caravan.passed hcar, hpend, rfl, hkern, hmem, hlines⟩

end Sys2Proof.Machine
end

section
/-! PROOFS. Caravan blocks (R209–R217): words stored one after the other, late blocks, and the commands that issue, stage and store a
block. -/
namespace Sys2Proof.Machine

variable {s u : State} {d p e : Nat} {f : Flight}

/-! ### Words stored one after the other -/

section
variable {g : Nat → State → State} {base : Nat} {w : Nat → Word} (hg : ∀ i u, (g i u).mem = (storeW u (base + 4 * i) (w i)).mem)
include hg

theorem wf_storesWord {i : Nat} (h : Memory.wf u.mem = true) : Memory.wf (g i u).mem = true := by
  rw [hg]
  exact mem_wf_storeW h _ _

/-- A byte beside the words stored reads as before. -/
theorem loadByte_eachWord (h : Memory.wf s.mem = true) {n b : Nat} (hb : b < base ∨ base + 4 * n ≤ b) :
    loadByte (each (List.range n) g s) b = loadByte s b := by
  refine (each_keeps (P := fun u => Memory.wf u.mem = true ∧ loadByte u b = loadByte s b) _ _ (fun i hi u hu => ?_) ⟨h, rfl⟩).2
  have hlt := List.mem_range.mp hi
  obtain ⟨hwf, hbyte⟩ := hu
  refine ⟨wf_storesWord hg hwf, Eq.trans ?_ hbyte⟩
  rw [loadByte_congr (hg i u), storeW, loadByte_storeBytes_ne hwf _ _ _ _ (by omega)]

/-- Each word stored reads back. -/
theorem loadW_eachWord (h : Memory.wf s.mem = true) {n i : Nat} (hi : i < n) :
    loadW (each (List.range n) g s) (base + 4 * i) = w i := by
  refine (each_once (P := fun u => Memory.wf u.mem = true) (Q := fun u => Memory.wf u.mem = true ∧ loadW u (base + 4 * i) = w i)
    List.nodup_range (List.mem_range.mpr hi) (fun _ _ _ _ hu => wf_storesWord hg hu) (fun u hu => ⟨wf_storesWord hg hu, ?_⟩)
    (fun j _ hj u hu => ⟨wf_storesWord hg hu.1, Eq.trans ?_ hu.2⟩) h).2
  · rw [loadW_congr (hg i u), loadW_storeW hu]
  · rw [loadW_congr (hg j u)]
    unfold loadW storeW
    rw [loadBytes_storeBytes_ne hu.1 _ _ _ _ _ (by omega)]

end

/-- A word stored changes memory alone. -/
theorem storeW_rest (s : State) (a : Nat) (v : Word) : { storeW s a v with mem := s.mem } = s := by
  unfold storeW
  rw [storeBytes_eq]

/-- Steps that change memory alone. -/
theorem each_memRest {g : Nat → State → State} (hg : ∀ i u, { g i u with mem := u.mem } = u) (s : State) (xs : List Nat) :
    { each xs g s with mem := s.mem } = s :=
  each_keeps (P := fun u => { u with mem := s.mem } = s) xs g
    (fun i _ u hu => Eq.trans (congrArg (fun x : State => { x with mem := s.mem }) (hg i u) :) hu) rfl

/-! ### Blocks staged (R210) -/

theorem hoardA_add (d p a i : Nat) : hoardA d p (a + i) = hoardA d p a + 4 * i := by
  unfold hoardA pkgA
  omega

/-- Word `i` of a block written into the Hoard, with fresh ECC. -/
def hoardWord (d p : Nat) (f : Flight) (i : Nat) (s : State) : State :=
  setEcc (storeW s (hoardA d p (f.hptr + i)) (f.data.getD i 0)) (hoardA d p (f.hptr + i)) .clean

theorem hoardBlock_eq (s : State) (d p : Nat) (f : Flight) : hoardBlock d p f s = each (List.range f.words) (hoardWord d p f) s := rfl

theorem hoardWord_mem (d p : Nat) (f : Flight) (i : Nat) (u : State) :
    (hoardWord d p f i u).mem = (storeW u (hoardA d p f.hptr + 4 * i) (f.data.getD i 0)).mem := by
  rw [← hoardA_add]
  rfl

theorem hoardWord_wf (h : u.wf = true) (d p : Nat) (f : Flight) (i : Nat) : (hoardWord d p f i u).wf = true :=
  State.wf_setEcc (State.wf_storeW h _ _) _ _

/-- What a block leaves in the Hoard: its words with fresh ECC, every other byte as it was, and nothing beside memory. -/
theorem hoardBlock_effect (h : s.wf = true) (d p : Nat) (f : Flight) :
    (∀ i, i < f.words → loadW (hoardBlock d p f s) (hoardA d p (f.hptr + i)) = f.data.getD i 0 ∧
        eccAt (hoardBlock d p f s) (hoardA d p (f.hptr + i)) = .clean) ∧
      (∀ b, (b < hoardA d p f.hptr ∨ hoardA d p (f.hptr + f.words) ≤ b) → loadByte (hoardBlock d p f s) b = loadByte s b) ∧
      { hoardBlock d p f s with mem := s.mem, ecc := s.ecc } = s := by
  have hmem := State.wf_mem h
  rw [hoardBlock_eq]
  refine ⟨fun i hi => ⟨?_, ?_⟩, fun b hb => ?_, ?_⟩
  · rw [hoardA_add]
    exact loadW_eachWord (hoardWord_mem d p f) hmem hi
  · refine each_establishes (P := fun u => u.wf = true) (Q := fun u => eccAt u (hoardA d p (f.hptr + i)) = .clean)
      (List.mem_range.mpr hi) (fun j u hu => hoardWord_wf hu d p f j)
      (fun u hu => eccAt_setEcc_same (State.wf_storeW hu _ _) _ _) (fun j u hu hclean => ?_) h
    rw [hoardWord, eccAt_setEcc (State.wf_storeW hu _ _)]
    split
    · rfl
    · rw [storeW, storeBytes_eq]
      exact hclean
  · rw [hoardA_add] at hb
    exact loadByte_eachWord (hoardWord_mem d p f) hmem hb
  · refine each_keeps (P := fun u => { u with mem := s.mem, ecc := s.ecc } = s) _ _ (fun i _ u hu => Eq.trans ?_ hu) rfl
    exact (congrArg (fun x : State => { x with mem := s.mem, ecc := s.ecc }) (storeW_rest u _ _) :)

/-! ### Blocks that end (R210, R211, R216) -/

theorem carLand_wf (h : s.wf = true) (d p : Nat) (f : Flight) : (carLand s d p f).wf = true := State.wf_setCaravan h _ _ _

theorem flight_carLand (h : s.wf = true) (d p : Nat) (f : Flight) :
    (caravan (carLand s d p f) d p).flight = (caravan s d p).flight.erase f :=
  congrArg Caravan.flight (caravan_setCaravan_same h d p _)

/-- A block staged in time is copied into the Hoard, and the channel notes the access. -/
theorem exec_caravanFetchStaged (hpod : hasPod s d p = true) (he : e < 256) (hf : fetchFlight s d p e = some f)
    (htime : inTime s f = true) (hserves : ddrServes s d = true) (hlive : domLive s d (pdPod p) = true) :
    exec (.caravanFetchStaged d p e) s = .next (ddrTouch (hoardBlock d p f (carLand s d p f)) d) := by
  change execCaravanFetchStaged d p e s = _
  unfold execCaravanFetchStaged
  rw [onUnit_true (by simp [hpod, he]), hf]
  exact whenDue_true (by simp [htime, hserves, hlive])

/-- A late block is counted and, if the log is empty, recorded. -/
theorem carLate_effect (h : s.wf = true) (d p e : Nat) (store : Bool) (tick : Nat) :
    reg (carLate s d p e store tick) (Reg.CARAVAN_LATE_CNT d p) = reg s (Reg.CARAVAN_LATE_CNT d p) + 1 ∧
      { carLate s d p e store tick with regs := s.regs } = s ∧
      RegsBut s (carLate s d p e store tick) [Reg.CARAVAN_LATE_CNT d p, Reg.CARAVAN_LATE_LOG d p] := by
  have hne : Reg.CARAVAN_LATE_CNT d p ≠ Reg.CARAVAN_LATE_LOG d p := regA_ne (by decide) (by decide) (.inr (by decide))
  have hcnt : reg (incReg s (Reg.CARAVAN_LATE_CNT d p)) (Reg.CARAVAN_LATE_CNT d p) = reg s (Reg.CARAVAN_LATE_CNT d p) + 1 :=
    reg_setReg_same h _ _
  have hkeeps : KeepsRegs [Reg.CARAVAN_LATE_CNT d p, Reg.CARAVAN_LATE_LOG d p] s (incReg s (Reg.CARAVAN_LATE_CNT d p)) :=
    KeepsRegs.setReg ⟨rfl, State.wf_regs h, fun _ _ => rfl⟩ (by simp)
  unfold carLate
  dsimp only
  split
  · exact ⟨hcnt, rfl, hkeeps.regs⟩
  · refine ⟨?_, rfl, (hkeeps.setReg (by simp)).regs⟩
    rw [reg_setReg (State.wf_incReg h _), if_neg hne, hcnt]

/-- A block that is not staged in time is discarded and counted. -/
theorem exec_caravanFetchLate (h : s.wf = true) (hpod : hasPod s d p = true) (he : e < 256) (hf : fetchFlight s d p e = some f)
    (hlate : f.due ≤ pulseCount s + 1) :
    ∃ t, exec (.caravanFetchLate d p e) s = .next t ∧ reg t (Reg.CARAVAN_LATE_CNT d p) = reg s (Reg.CARAVAN_LATE_CNT d p) + 1 ∧
      (caravan t d p).flight = (caravan s d p).flight.erase f ∧ { t with regs := s.regs, carav := s.carav } = s ∧
      RegsBut s t [Reg.CARAVAN_LATE_CNT d p, Reg.CARAVAN_LATE_LOG d p] := by
  obtain ⟨hcnt, hrest, hregs⟩ := carLate_effect (carLand_wf h d p f) d p e false f.due
  refine ⟨carLate (carLand s d p f) d p e false f.due, ?_, hcnt, ?_, ?_, hregs⟩
  · change execCaravanFetchLate d p e s = _
    unfold execCaravanFetchLate
    rw [onUnit_true (by simp [hpod, he]), hf]
    exact whenDue_true (by simpa using hlate)
  · exact (congrArg (fun x : State => (caravan x d p).flight) hrest :).trans (flight_carLand h d p f)
  · exact (congrArg (fun x : State => { x with carav := s.carav }) hrest :)

/-- Word `i` of a block written to LPDDR4X. -/
def channelWord (d : Nat) (f : Flight) (i : Nat) (s : State) : State :=
  storeW s (pkgA d (0x8_0000_0000 + f.doff + 4 * i)) (f.data.getD i 0)

theorem pkgA_add (d a i : Nat) : pkgA d (a + i) = pkgA d a + i := (Nat.add_assoc _ _ _).symm

theorem channelWord_mem (d : Nat) (f : Flight) (i : Nat) (u : State) :
    (channelWord d f i u).mem = (storeW u (pkgA d (0x8_0000_0000 + f.doff) + 4 * i) (f.data.getD i 0)).mem := by
  rw [← pkgA_add]
  rfl

/-- A store block reaches LPDDR4X outside the critical window once no block before it waits for the same words. -/
theorem exec_caravanStoreDone (hpod : hasPod s d p = true) (he : e < 256)
    (hf : (caravan s d p).flight.find? (fun x => x.store && decide (x.entry = e)) = some f) (hserves : ddrServes s d = true)
    (hwindow : (ddr s d).window = false) (hfirst : storeWaits s d f = false) :
    exec (.caravanStoreDone d p e) s = .next (ddrTouch (each (List.range f.words) (channelWord d f) (carLand s d p f)) d) := by
  change execCaravanStoreDone d p e s = _
  unfold execCaravanStoreDone
  rw [onUnit_true (by simp [hpod, he]), hf]
  exact whenDue_true (by simp [hserves, hwindow, hfirst])

/-! ### Blocks issued (R209–R211, R215, R217) -/

theorem exec_caravanFetchIssue {c : CarEntry} (hpod : hasPod s d p = true) (he : e < 256) (hdue : carDue s d p e false = some c) :
    exec (.caravanFetchIssue d p e) s = .next (if carParked s d p then carServe s d p e c
      else carLaunch (carServe s d p e c) d p (carFlight s d p e c)) := by
  change execCaravanFetchIssue d p e s = _
  unfold execCaravanFetchIssue
  rw [onUnit_true (by simp [hpod, he]), hdue]

/-- A store entry that is due: served alone, late for want of room, or staged. -/
theorem exec_caravanStoreIssue {c : CarEntry} (hpod : hasPod s d p = true) (he : e < 256) (hdue : carDue s d p e true = some c) :
    exec (.caravanStoreIssue d p e) s = .next (
      if carParked s d p then carServe s d p e c
      else if 32768 < stagedBytes s d p + 4 * c.words then carLate (carServe s d p e c) d p e true (pulseCount s)
      else storeEcc d p (carFlight s d p e c) (carLaunch (carServe s d p e c) d p (carFlight s d p e c))) := by
  change execCaravanStoreIssue d p e s = _
  unfold execCaravanStoreIssue
  rw [onUnit_true (by simp [hpod, he]), hdue, apply_ite Host.Outcome.next, apply_ite Host.Outcome.next]

/-- Settles O35: an issue by the case of its pod and of staging, a block that ends by the words that it leaves in memory. -/
theorem caravanBlocks : Obligations.CaravanBlocks := by
  refine ⟨?fetchIssue, ?staged, ?late, ?storeIssue, ?noRoom, ?stored⟩
  case fetchIssue => exact fun s d p e c hpod he hdue => exec_caravanFetchIssue hpod he hdue
  case staged =>
    intro s d p e f h hpod he hf htime hserves hlive _
    obtain ⟨hwords, hbytes, hrest⟩ := hoardBlock_effect (carLand_wf h d p f) d p f
    exact ⟨_, exec_caravanFetchStaged hpod he hf htime hserves hlive, hwords, hbytes,
      (congrArg (fun x : State => { x with carav := s.carav, ddr := s.ddr }) hrest :)⟩
  case late => exact fun s d p e f h hpod he hf hlate => exec_caravanFetchLate h hpod he hf hlate
  case storeIssue =>
    refine fun s d p e c hpod he hdue hroom => (exec_caravanStoreIssue hpod he hdue).trans ?_
    rcases hroom with hparked | hroom
    · rw [if_pos hparked, if_pos hparked]
    · rw [if_neg (Nat.not_lt.mpr hroom)]
  case noRoom =>
    refine fun s d p e c hpod he hdue hparked hfull => (exec_caravanStoreIssue hpod he hdue).trans ?_
    rw [hparked, if_neg Bool.false_ne_true, if_pos hfull]
  case stored =>
    intro s d p e f h hpod he hf hserves hwindow hfirst
    have hmem := State.wf_mem (carLand_wf h d p f)
    have hrest := each_memRest (g := channelWord d f) (fun _ u => storeW_rest u _ _) (carLand s d p f) (List.range f.words)
    refine ⟨_, exec_caravanStoreDone hpod he hf hserves hwindow hfirst, fun i hi => ?_, fun b hb => ?_, ?_, ?_⟩
    · rw [pkgA_add]
      exact loadW_eachWord (channelWord_mem d f) hmem hi
    · rw [pkgA_add d _ (4 * f.words)] at hb
      exact loadByte_eachWord (channelWord_mem d f) hmem hb
    · exact (congrArg (fun x : State => (caravan x d p).flight) hrest :).trans (flight_carLand h d p f)
    · exact (congrArg (fun x : State => { x with carav := s.carav, ddr := s.ddr }) hrest :)

end Sys2Proof.Machine
end

section
/-! PROOFS. A die's check of a request that asks more than its faders (R226, R238). -/
namespace Sys2Proof.Machine

variable {s : State} {g d : Nat} {r : SwapReq}

/-- A die with kernels or engines to check starts that check, whatever its faders answer; it reports once it has ended (R226). -/
theorem swapRequestRx_checks (hd : d < dieCount s.part) (hr : pendingGroup s g = some r) (hsent : alGet d r.jobs = some .sent)
    (hslow : slowCheck s d r = true) : exec (.swapRequestRx g d) s = .next (setJob s r d .checking) := by
  change execSwapRequestRx g d s = _
  unfold execSwapRequestRx
  rw [onUnit_true (by simpa using hd), hr]
  simp only [if_pos hsent, if_pos hslow]

/-- A request of group 0, coordinated by die 0 and sent to every die of the package. -/
def sentRequest : SwapReq := ⟨0, 100, false, 0, none, 0, (dies State.reset).map fun d => (d, .sent), [], false, false, [], false⟩

/-- The reset state with that request pending, where the group has two members on die 0: caravan engine 0, and fader entry 1, enabled
for kernel 200, which no die has. -/
def requestReceived : State :=
  setTab (setTab { State.reset with swaps := [sentRequest] } tSgrp 0 5 1) tFade 0 4 0x800000C8

/-- Refutes O32: the first clause has a die report a refusing fader at once, even while kernels or engines wait for their check; the model
has it report when all its checks are done (R226, assumption log 108). In `requestReceived` fader entry 1 refuses with DETAIL 1
(R238), and die 0 first checks engine 0. -/
theorem not_swapReports : ¬ Obligations.SwapReports := by
  unfold Obligations.SwapReports
  rintro ⟨hrequest, -⟩
  have hpending : pendingGroup requestReceived 0 = some sentRequest := by decide +kernel
  have hslow : slowCheck requestReceived 0 sentRequest = true := by decide +kernel
  have hfader : faderCheck requestReceived 0 0 = some (1, 1) := by decide +kernel
  have hclaim := hrequest requestReceived 0 0 sentRequest (by decide) hpending rfl
  rw [hfader, swapRequestRx_checks (by decide) hpending rfl hslow] at hclaim
  have hjobs := congrArg (fun t => t.swaps.map fun q => alGet 0 q.jobs) (Host.Outcome.next.inj hclaim)
  exact absurd hjobs (by decide +kernel)

end Sys2Proof.Machine
end

section
/-! PROOFS. A request of another device that has split before its target Pulse (R229, R232, R233): what is recorded of it stays. -/
namespace Sys2Proof.Machine

variable {s t : State} {g : Nat} {r : SwapReq}

/-! ### The end of a request whose split is recorded -/

/-- At its target Pulse such a request is dropped and nothing further recorded: the first report is the one that counts (R229). -/
theorem swapApply_splitDropped (howed : metersOwed s = false) (hr : targetSwap s g = some r) (hc : r.committed = false)
    (horigin : r.origin.isSome = true) (hsplit : r.split = true) : exec (.swapApply g) s = .next (dropSwap s r) := by
  change execSwapApply g s = _
  unfold targetSwap at hr
  unfold execSwapApply
  simp [howed, hr, hc, horigin, hsplit]

/-! ### The registers of page PULSE -/

/-- No register of page PULSE lies on another page. -/
theorem pulsePage_ne {c e o o' q : Nat} (hq : 1 < q) (hq' : q < 0x10000) (ho : o < 0x1000) (ho' : o' < 0x1000) :
    regA c 1 o ≠ regA e q o' := by
  unfold regA
  omega

/-- A request dropped leaves page PULSE as it was. -/
theorem readsAs_dropSwap (h : s.wf = true) (r : SwapReq) {c o : Nat} (ho : o < 0x1000) :
    ReadsAs (regA c 1 o) s (dropSwap s r) := by
  refine .each (ReadsAs.setSwaps (.refl h)) fun e u hu => ?_
  obtain ⟨hwf, hregs, -⟩ := (SyncFrame.refl (d := e) hu.wf).powerSync
  refine ⟨hwf, (hregs _ ?_).trans hu.reg⟩
  simp only [syncRegs, List.mem_cons, List.not_mem_nil, or_false, not_or]
  refine ⟨?_, ?_, ?_, ?_, ?_⟩
  all_goals exact pulsePage_ne (by decide) (by decide) ho (by decide)

/-- So does a packet sent to one device. -/
theorem readsAs_deviceSend {c o : Nat} (h : ReadsAs (regA c 1 o) s t) (ho : o < 0x1000) {x : Packet} (hx : x.bcast = false) (e : Nat)
    (fast : Bool) : ReadsAs (regA c 1 o) s (deviceSend t e x fast) := by
  unfold deviceSend
  rw [if_neg (by simp [hx])]
  split
  · exact h.setLinkPort
  · split
    · exact .ite h.setLinkPort h.setLinkPort
    · exact h.setFld (pulsePage_ne (by decide) (by decide) ho (by decide))

/-- Every result but 0, 5, 7 and 0xA leaves the member that it names in PULSE_SWAP_WHO (R229). -/
theorem who_recordSwap (h : s.wf = true) (d group target detail who : Nat) {result : Nat}
    (hres : (result = 0 || result = 5 || result = 7 || result = 0xA) = false) :
    (recordSwap s d group target result detail who).wf = true ∧
      reg (recordSwap s d group target result detail who) (Reg.PULSE_SWAP_WHO d) = BitVec.ofNat 32 who := by
  have htgt : Reg.PULSE_SWAP_WHO d ≠ Reg.PULSE_SWAP_TGT d := regA_ne (by decide) (by decide) (.inr (by decide))
  have hcnt : Reg.PULSE_SWAP_WHO d ≠ Reg.PULSE_SWAP_CNT d := regA_ne (by decide) (by decide) (.inr (by decide))
  unfold recordSwap
  simp only [hres, Bool.false_eq_true, if_false]
  generalize hu : setFld (setFld (setFld (setFld s _ _ _) _ _ _) _ _ _) _ _ _ = u
  have hwf : u.wf = true := hu ▸ State.wf_setFld (State.wf_setFld (State.wf_setFld (State.wf_setFld h _ _ _) _ _ _) _ _ _) _ _ _
  obtain ⟨hlater, hkept⟩ := ((ReadsAs.refl (State.wf_setReg hwf (Reg.PULSE_SWAP_WHO d) (BitVec.ofNat 32 who))).setReg htgt
    (w := BitVec.ofNat 32 target)).satFld hcnt (f := if result = 0 then F.PULSE_SWAP_CNT_COMMITTED else F.PULSE_SWAP_CNT_REFUSED)
  exact ⟨hlater, hkept.trans (reg_setReg_same hwf _ _)⟩

/-- So does the end of a request at its coordinating die. -/
theorem who_endSwap (h : s.wf = true) (r : SwapReq) (detail who : Nat) {result : Nat}
    (hres : (result = 0 || result = 5 || result = 7 || result = 0xA) = false) :
    reg (endSwap s r result detail who) (Reg.PULSE_SWAP_WHO r.coord) = BitVec.ofNat 32 who := by
  have hdrop : (dropSwap s r).wf = true := (readsAs_dropSwap h r (c := r.coord) (o := 0x50) (by decide)).wf
  obtain ⟨hwf, hrec⟩ := who_recordSwap hdrop r.coord r.group r.target detail who hres
  unfold endSwap reportSwap
  dsimp only
  split
  · split
    · exact hrec
    · exact (readsAs_deviceSend (.refl hwf) (by decide) rfl _ _).reg.trans hrec
  · exact hrec

/-! ### A request that has split -/

/-- Group 0, requested by device 5 and not committed: engine 0 of die 0 was written directly after the decision Pulse (R233). -/
def splitRequest : SwapReq := ⟨0, 100, false, 0, some 5, 0, [(0, .heard)], [], false, false, [0x8400], true⟩

/-- The reset state at the target Pulse of that request, with its split recorded: result 9, DETAIL 3, and engine 0 as its WHO. -/
def splitRecorded : State :=
  recordSwap (setReg { State.reset with phase := .tick, swaps := [splitRequest] } (Reg.PULSE_COUNT_LO 0) 100) 0 0 100 9 3 0x8400

/-- Refutes O33: the clause of a request of another device that was not committed in time does not ask that no split has been recorded for
it. In `splitRecorded` one has, so SWAP_APPLY drops the request and the first report stays (R229, R232); the clause has result 9
recorded once more, with die 0 in place of engine 0. -/
theorem not_swapOutcome : ¬ Obligations.SwapOutcome := by
  unfold Obligations.SwapOutcome
  rintro ⟨-, -, -, -, -, -, huncommitted, -⟩
  have hwf : splitRecorded.wf = true := by decide +kernel
  have howed : metersOwed splitRecorded = false := rfl
  have htarget : targetSwap splitRecorded 0 = some splitRequest := by decide +kernel
  have hclaim := huncommitted splitRecorded 0 5 splitRequest howed htarget rfl rfl
  have hfact := swapApply_splitDropped howed htarget rfl rfl rfl
  have hsame := Host.Outcome.next.inj (hfact.symm.trans hclaim)
  have hkept : reg (dropSwap splitRecorded splitRequest) (Reg.PULSE_SWAP_WHO 0) = reg splitRecorded (Reg.PULSE_SWAP_WHO 0) :=
    (readsAs_dropSwap hwf _ (by decide)).reg
  rw [hsame] at hkept
  exact absurd ((who_endSwap hwf splitRequest 2 _ rfl).symm.trans hkept) (by decide +kernel)

end Sys2Proof.Machine
end

section
/-! PROOFS. The trigger Pulse of a serial audio port (R261, R262), and what bringing the power domains in line with the votes does to the
governor at it (R416, R422). -/
namespace Sys2Proof.Machine

variable {s : State} {d m : Nat}

/-- The state once the trigger Pulse of a port has come: STARTING, with the lines that a rate-locked slave sends first queued (R250, R262). -/
def sapTriggered (s : State) (d m : Nat) : State :=
  setSapState (setSap s d m { sap s d m with
    trig := .idle, queue := if isSlave s d m && !isConv s d m then [txNow s d m] else [] }) d m sapStarting

/-- An armed port whose trigger has been met starts. -/
theorem exec_sapTriggerPulse (hd : d < dieCount s.part) (hm : m < 10) (harmed : sapState s d m = sapArmed)
    (hmet : (sap s d m).trig = .met) : exec (.sapTriggerPulse d m) s = .next (sapTriggered s d m) := by
  change execSapTriggerPulse d m s = _
  unfold execSapTriggerPulse
  rw [onUnit_true (by simp [hd, hm])]
  exact whenDue_true (by simp [harmed, hmet])

/-- Port 0 of die 0 is ARMED and its trigger Pulse has come. The domain of pods 0 and 1 is on its way from RET to OFF, before its pad-hold
point, although client 32 votes it ON, as PWR_HOLD has it after reset. -/
def armedWhilePodsEnter : State :=
  setDom (setSap (setFld State.reset (Reg.SAP_STAT 0 0) F.SAP_STAT_STATE sapArmed) 0 0 { SapPort.zero with trig := .met })
    0 (pdPod 0) ⟨.entering 0 1 false, none, 0, false⟩

theorem wf_armedWhilePodsEnter : armedWhilePodsEnter.wf = true :=
  State.wf_setDom (State.wf_setSap (State.wf_setFld rfl _ _ _) _ _ _) _ _ _

/-- With the new state of the port the votes are looked at: the entry is aborted, the domain exits to ON (R422), and the governor prepares
for that exit (R416). -/
theorem sapTriggered_prepares :
    (dom (sapTriggered armedWhilePodsEnter 0 0) 0 (pdPod 0)).st = .exiting 1 ∧
      bitF armedWhilePodsEnter (Reg.GOV_STAT 0) F.GOV_STAT_PREP = false ∧
      bitF (sapTriggered armedWhilePodsEnter 0 0) (Reg.GOV_STAT 0) F.GOV_STAT_PREP = true := by
  decide +kernel

/-- Refutes O51: the clause of SAP_TRIGGER_PULSE asks of its state only that it is canonical, and leaves GOV_STAT out of the registers that
may read differently. In `armedWhilePodsEnter` the change of the port's state brings the power domains in line with the votes, which
starts the exit of a pod domain; R416 has the governor set PREP in GOV_STAT then. -/
theorem not_sapTriggersAndFrames : ¬ Obligations.SapTriggersAndFrames := by
  unfold Obligations.SapTriggersAndFrames
  rintro ⟨-, -, htrigger, -⟩
  obtain ⟨t, ht, -, -, -, hregs⟩ := htrigger armedWhilePodsEnter 0 0 wf_armedWhilePodsEnter (by decide) (by decide) (by decide) rfl
  obtain rfl : sapTriggered armedWhilePodsEnter 0 0 = t :=
    Host.Outcome.next.inj ((exec_sapTriggerPulse (by decide) (by decide) (by decide) rfl).symm.trans ht)
  have hkept : bitF (sapTriggered armedWhilePodsEnter 0 0) (Reg.GOV_STAT 0) F.GOV_STAT_PREP =
      bitF armedWhilePodsEnter (Reg.GOV_STAT 0) F.GOV_STAT_PREP := by
    unfold bitF fld
    rw [hregs _ (by decide)]
  obtain ⟨-, hbefore, hafter⟩ := sapTriggered_prepares
  rw [hbefore, hafter] at hkept
  exact absurd hkept (by decide)

end Sys2Proof.Machine
end

section
/-! PROOFS. Converter entries, tracked ratios and the rate-follow loop (R282, R283, R286, R288). -/
namespace Sys2Proof.Machine

variable {s t : State} {a : Access} {d e m : Nat}

/-! ### Writes of the SRC pages -/

theorem pageRows_src (he : e < 6) : (pageRows (0x50 + e)).isEmpty = false := by
  revert e; decide

theorem regWrite_src (he : e < 6) (s : State) (d o : Nat) (a : Access) (v : Word) :
    regWrite s d (0x50 + e) o a v = writeSrc s d e o a v := by
  have hhi : 0x50 + e ≤ 0x55 := by omega
  have hne (n : Nat) (hn : n < 0x50) : 0x50 + e ≠ n := by omega
  have hgt (n : Nat) (hn : n < 0x50) : ¬ 0x50 + e ≤ n := by omega
  simp [regWrite, hhi, hne, hgt]

/-- A write of the DATA window of a converter engine is the page's own, answered. -/
theorem exec_srcEntryWrite (h : reachesReg s a (Reg.SRC_CHDATA d e) = true) (he : e < 6) (v : Word) :
    exec (.srcEntryWrite a d e v) s = .next (answer d (Reg.SRC_CHDATA d e) a true (writeSrc s d e 0x0C a v)) := by
  change unitCmd e 6 a (Reg.SRC_CHDATA d e) v s = _
  unfold unitCmd
  rw [onUnit_true (by simpa using he), ← regWrite_src he]
  exact regCmd_reaches h (by omega) (by decide) rfl (pageRows_src he) v

/-! ### The words of an entry (R282) -/

/-- Whether word 0 of an entry names no port, or one that is STOPPED. -/
def entryFree (s : State) (d : Nat) (x : Word) : Bool :=
  decide (10 ≤ wField x 3 0) || decide (sapState s d (wField x 3 0) = sapStopped)

/-- Word 1 ignores writes. -/
theorem writeSrc_wordOne (hw : wField (reg s (Reg.SRC_CHSEL d e)) 0 0 = 1) (v : Word) : writeSrc s d e 0x0C a v = done s := by
  unfold writeSrc
  rw [if_pos rfl]
  exact if_pos hw

/-- Word 0 goes to the entry selected. -/
theorem writeSrc_wordZero (hw : wField (reg s (Reg.SRC_CHSEL d e)) 0 0 = 0) (v : Word) :
    writeSrc s d e 0x0C a v = takeOr (srcEntryWrite s d e (wField (reg s (Reg.SRC_CHSEL d e)) 6 1) v) := by
  unfold writeSrc
  rw [if_pos rfl]
  exact if_neg (by rw [hw]; decide)

/-- An entry is taken while the ports that it names, before and after, are STOPPED. -/
theorem srcEntryWrite_taken {i : Nat} {v : Word} (hold : entryFree s d (tab s tSrc d (e * 64 + i)) = true) (hnew : entryFree s d v = true) :
    srcEntryWrite s d e i v = (srcMarkDup (setTab s tSrc d (e * 64 + i) (v &&& 0xE0001F0F)) d, true) :=
  if_pos (Bool.and_eq_true_iff.mpr ⟨hold, hnew⟩)

/-- Otherwise CFGREJ of its engine is set. -/
theorem srcEntryWrite_rejected {i : Nat} {v : Word}
    (hbusy : entryFree s d (tab s tSrc d (e * 64 + i)) = false ∨ entryFree s d v = false) :
    srcEntryWrite s d e i v = (setFld s (Reg.SRC_STAT d e) F.SRC_STAT_CFGREJ 1, false) :=
  if_neg (Bool.eq_false_iff.mp (Bool.and_eq_false_iff.mpr hbusy))

/-! ### Ratios (R283) -/

/-- A port whose channels of one direction relock: their ratio is gone. -/
def relocking (x : SapPort) (tx : Bool) : SapPort :=
  if tx then { x with ratioTx := none, relockTx := true, convTx := [] }
  else { x with ratioRx := none, ratioWas := x.ratioRx.getD x.ratioWas, relockRx := true }

theorem relocking_ratio (x : SapPort) (tx : Bool) : (if tx then (relocking x tx).ratioTx else (relocking x tx).ratioRx) = none := by
  cases tx <;> rfl

theorem relocking_relocks (x : SapPort) (tx : Bool) : (if tx then (relocking x tx).relockTx else (relocking x tx).relockRx) = true := by
  cases tx <;> rfl

/-- The count of engine `e` after channels of port `m` of one direction relock: one more where the engine serves one of them in `s`. -/
def countRelock (s : State) (d m : Nat) (tx : Bool) (e : Nat) (u : State) : State :=
  if (List.range 64).any fun i => (srcWord1 s d e i).getLsbD 29 && (tab s tSrc d (e * 64 + i)).getLsbD 30 == tx
      && wField (tab s tSrc d (e * 64 + i)) 3 0 = m
  then incReg u (Reg.SRC_RELOCK_CNT d e) else u

/-- The state once the channels of a port and direction relock, which their engines count. -/
def relocked (s : State) (d m : Nat) (tx : Bool) : State :=
  each (List.range 6) (countRelock s d m tx) (setSap s d m (relocking (sap s d m) tx))

/-- SRC_RELOCK is due where the ratio is tracked and has been acquired. -/
theorem exec_srcRelock {tx : Bool} (hd : d < dieCount s.part) (hm : m < 10) (htracks : tracksNow s d m tx = true)
    (hratio : (if tx then (sap s d m).ratioTx else (sap s d m).ratioRx).isSome = true) :
    exec (.srcRelock d m tx) s = .next (relocked s d m tx) := by
  change execSrcRelock d m tx s = _
  unfold execSrcRelock
  rw [onUnit_true (by simp [hd, hm])]
  exact whenDue_true (by simp [htracks, hratio])

/-- The engines write their counts alone. -/
theorem relocked_counts (h : s.wf = true) (d m : Nat) (tx : Bool) :
    { relocked s d m tx with regs := s.regs } = setSap s d m (relocking (sap s d m) tx) ∧
      KeepsRegs ((List.range 6).map (Reg.SRC_RELOCK_CNT d)) s (relocked s d m tx) := by
  refine each_keeps
    (P := fun u => { u with regs := s.regs } = setSap s d m (relocking (sap s d m) tx) ∧
      KeepsRegs ((List.range 6).map (Reg.SRC_RELOCK_CNT d)) s u)
    (List.range 6) (countRelock s d m tx) ?step ⟨rfl, rfl, State.wf_regs (s := s) h, fun _ _ => rfl⟩
  intro e he u ⟨hrest, hregs⟩
  unfold countRelock
  split
  · exact ⟨hrest, hregs.setReg (List.mem_map_of_mem he)⟩
  · exact ⟨hrest, hregs⟩

theorem sap_relocked (h : s.wf = true) (d m : Nat) (tx : Bool) : sap (relocked s d m tx) d m = relocking (sap s d m) tx :=
  (congrArg (sap · d m) (relocked_counts h d m tx).1).trans (sap_setSap_same h d m _)

/-- A port whose channels of one direction run at a ratio. -/
def atRatio (x : SapPort) (tx : Bool) (v : Nat) : SapPort :=
  if tx then { x with ratioTx := some v, relockTx := false }
  else { x with
    ratioRx := some v, relockRx := false, held := false, convRx := if x.relockRx then [] else x.convRx
    convAge := if x.relockRx then none else x.convAge, convNew := if x.relockRx then 0 else x.convNew }

/-- SRC_RATIO_LOCK gives channels that relock from their master its exact ratio, and others the ratio measured where they may take it. -/
theorem exec_srcRatioLock {tx : Bool} {r : Nat} (hd : d < dieCount s.part) (hm : m < 10)
    (hdue : relocksExact s d m tx = true ∨
      tracksNow s d m tx = true ∧ ratioMoves (if tx then (sap s d m).ratioTx else (sap s d m).ratioRx) r = true) :
    exec (.srcRatioLock d m tx r) s =
      .next (setSap s d m (atRatio (sap s d m) tx (if relocksExact s d m tx then masterRatio s d m else r))) := by
  change execSrcRatioLock d m tx r s = _
  unfold execSrcRatioLock
  rw [onUnit_true (by simp [hd, hm])]
  exact whenDue_true (by simpa using hdue)

/-! ### The rate-follow loop (R286) -/

theorem exec_clksteerEnable (h : reachesReg s a (Reg.CLKSTEER_CTL 0) = true) (v : Word) :
    exec (.clksteerEnable a v) s = .next (steerCtlWrite s v).answered :=
  regCmd_taken h (by decide) (by decide) rfl rfl rfl

theorem exec_clksteerSelWrite (h : reachesReg s a (Reg.CLKSTEER_SEL 0) = true) (v : Word) :
    exec (.clksteerSelWrite a v) s = .next (steerSelWrite s v).answered :=
  regCmd_taken h (by decide) (by decide) rfl rfl rfl

/-- Settles O53: the writes reach their pages, whose own effect the clauses name; the events of the converters and of the loop are due. -/
theorem convertersAndSteering : Obligations.ConvertersAndSteering := by
  refine ⟨?taken, ?wordOne, ?rejected, ?measured, ?fromMaster, ?relock, ?enable, ?select, ?lock⟩
  case taken =>
    intro s a d e v r w i free h he hw hold hnew
    rw [exec_srcEntryWrite h he, writeSrc_wordZero hw, srcEntryWrite_taken hold hnew]
    rfl
  case wordOne =>
    intro s a d e v r w h he hw
    rw [exec_srcEntryWrite h he, writeSrc_wordOne hw]
    rfl
  case rejected =>
    intro s a d e v r w i free h he hw hbusy
    rw [exec_srcEntryWrite h he, writeSrc_wordZero hw, srcEntryWrite_rejected hbusy]
    rfl
  case measured =>
    intro s d m r tx x hd hm hown htracks hmoves
    rw [exec_srcRatioLock hd hm (.inr ⟨htracks, hmoves⟩), hown]
    rfl
  case fromMaster =>
    intro s d m r tx x hd hm hexact
    rw [exec_srcRatioLock hd hm (.inl hexact), hexact]
    rfl
  case relock =>
    intro s d m tx h hd hm htracks hratio
    obtain ⟨hrest, hregs⟩ := relocked_counts h d m tx
    refine ⟨_, exec_srcRelock hd hm htracks hratio, ?ratio, ?relocks,
      congrArg (fun u : State => { u with saps := s.saps }) hrest, hregs.regs⟩
    case ratio => rw [sap_relocked h, relocking_ratio]
    case relocks => rw [sap_relocked h, relocking_relocks]
  case enable => exact fun _ _ v h => exec_clksteerEnable h v
  case select => exact fun _ _ v h => exec_clksteerSelWrite h v
  case lock => exact fun s hacq hcalm => whenDue_true (by simp [hacq, hcalm])

end Sys2Proof.Machine
end

section
/-! PROOFS. The loss of a serial audio port's clock (R277, R280), and what bringing the power domains in line with the votes does to the
governor at it (R416, R422). -/
namespace Sys2Proof.Machine

/-- Port 0 of die 0 is a RUNNING slave. The domain of pods 0 and 1 is on its way from RET to OFF, before its pad-hold point, although
client 32 votes it ON, as PWR_HOLD has it after reset. -/
def runsWhilePodsEnter : State :=
  setDom (setFld (setFld State.reset (Reg.SAP_CFG 0 0) F.SAP_CFG_MODE 1) (Reg.SAP_STAT 0 0) F.SAP_STAT_STATE sapRunning)
    0 (pdPod 0) ⟨.entering 0 1 false, none, 0, false⟩

theorem wf_runsWhilePodsEnter : runsWhilePodsEnter.wf = true :=
  State.wf_setDom (State.wf_setFld (State.wf_setFld rfl _ _ _) _ _ _) _ _ _

/-- Whether a command completes with PREP of die 0 set. -/
def leavesPrep (o : Out) : Bool :=
  match o with
  | .next t => bitF t (Reg.GOV_STAT 0) F.GOV_STAT_PREP
  | _ => false

/-- With the new state of the port the votes are looked at: the entry is aborted, the domain exits to ON (R422), and the governor prepares
for that exit (R416). -/
theorem sapClockLoss_prepares :
    bitF runsWhilePodsEnter (Reg.GOV_STAT 0) F.GOV_STAT_PREP = false ∧
      leavesPrep (exec (.sapClockLoss 0 0 1) runsWhilePodsEnter) = true := by
  decide +kernel

/-- Refutes O52: the clause of SAP_CLOCK_LOSS asks of its state only that it is canonical and the loss due, and leaves GOV_STAT out of the
registers that may read differently. In `runsWhilePodsEnter` the port's change to LOST brings the power domains in line with the votes,
which starts the exit of a pod domain; R416 has the governor set PREP in GOV_STAT then. -/
theorem not_clockLossAndBiphase : ¬ Obligations.ClockLossAndBiphase := by
  unfold Obligations.ClockLossAndBiphase
  rintro ⟨hloss, -⟩
  have hdue : lossDue runsWhilePodsEnter 0 0 1 = true := by decide +kernel
  obtain ⟨t, ht, -, -, -, -, -, hregs⟩ := hloss runsWhilePodsEnter 0 0 1 wf_runsWhilePodsEnter (by decide) (by decide) hdue
  obtain ⟨hbefore, hafter⟩ := sapClockLoss_prepares
  have hkept : bitF t (Reg.GOV_STAT 0) F.GOV_STAT_PREP = bitF runsWhilePodsEnter (Reg.GOV_STAT 0) F.GOV_STAT_PREP := by
    unfold bitF fld
    rw [hregs _ (by decide)]
  rw [ht] at hafter
  exact Bool.false_ne_true (hbefore.symm.trans (hkept.symm.trans hafter))

end Sys2Proof.Machine
end

section
/-! PROOFS. The step of the block (R81, R370): which command it runs, two worked words, and a command that is well formed and has no
meaning on any part. -/
namespace Sys2Proof.Machine

/-- Settles O17: the step matches on the queue, which the hypothesis names. -/
theorem stepTakesFront : Obligations.StepTakesFront := by
  unfold Obligations.StepTakesFront
  refine ⟨fun _ _ _ => rfl, fun s hempty => ?_⟩
  unfold step
  rw [hempty]

/-- Settles O23: both words are closed, and the decoder computes them. -/
theorem wordsDecode : Obligations.WordsDecode := by
  unfold Obligations.WordsDecode
  exact ⟨by decide +kernel, by decide +kernel⟩

/-- A staged word for DATA0 of a queue: the check of operands takes word 0, the command only words 1 to 55 (R370). -/
def stageWordZero : Instr := .queueStage ⟨2, 0⟩ 0 0 0 0

/-- No state gives it a meaning. -/
theorem exec_stageWordZero (s : State) : exec stageWordZero s = .refused .noSuchUnit := rfl

/-- Refutes O19: QUEUE_STAGE of word 0 is well formed, since the check asks only that the word lies below 56, but it is refused on every part,
for a write of DATA0 pushes and stages nothing. -/
theorem not_everyCommandCompletes : ¬ Obligations.EveryCommandCompletes := by
  unfold Obligations.EveryCommandCompletes
  rintro ⟨hcompletes, -⟩
  obtain ⟨t, ht⟩ := hcompletes State.reset stageWordZero rfl (by decide) (fun _ => Instr.noConfusion)
  rw [exec_stageWordZero] at ht
  cases ht

end Sys2Proof.Machine
end

section
/-! PROOFS. Statements of what stays that leave something out (R370, R411, R416, R420, R422, R455): a governor that prepares for the
exit of a pod domain, the index after the last entry of a queue, and blocks in flight to LPDDR4X. -/
namespace Sys2Proof.Machine

/-! ### The governor prepares -/

/-- Die 0 with the domain of pods 0 and 1 on its way from RET to OFF, before its pad-hold point, although client 32 votes it ON, as
PWR_HOLD has it after reset. -/
def podsEnter : State := setDom State.reset 0 (pdPod 0) ⟨.entering 0 1 false, none, 0, false⟩

theorem wf_podsEnter : podsEnter.wf = true := State.wf_setDom rfl _ _ _

/-- The answer of a command that lets the governor prepare on die 0: it has a Pulse by which PREP ends, which it has not before. -/
def leavesPrepTo (o : Out) : Bool :=
  match o with
  | .next t => (dieX t 0).prepTo.isSome
  | _ => false

/-- A command that lets the governor prepare does not leave the dies' own record as it was. -/
theorem dieX_ne_of_leavesPrepTo {o : Out} {s t : State} (h : leavesPrepTo o = true) (ht : o = .next t)
    (hs : (Machine.dieX s 0).prepTo = none) : t.dieX ≠ s.dieX := by
  intro heq
  subst ht
  have hprep : (Machine.dieX t 0).prepTo.isSome = true := h
  rw [show Machine.dieX t 0 = Machine.dieX s 0 from congrArg (smGet (fun _ => DieX.zero) · 0) heq, hs] at hprep
  exact Bool.false_ne_true hprep

/-- The votes of client 58 withdrawn, the domains are brought in line with the votes: the entry is aborted, and the domain's exit to ON
has the governor prepare (R416, R422). -/
theorem wakerel_prepares :
    reachesReg podsEnter ⟨0, 0⟩ (Reg.PWR_CTL 0) = true ∧ leavesPrepTo (exec (.wakerel ⟨0, 0⟩ 0) podsEnter) = true := by
  decide +kernel

/-- Refutes O46: its clause of WAKEREL keeps each die's own record beside the registers. In `podsEnter` the write starts the exit of a pod
domain, at which the governor notes the Pulse by which its preparation ends (R416). -/
theorem not_powerVotesAndWakes : ¬ Obligations.PowerVotesAndWakes := by
  unfold Obligations.PowerVotesAndWakes
  rintro ⟨-, -, -, -, hwakerel, -⟩
  obtain ⟨hreaches, hprepares⟩ := wakerel_prepares
  obtain ⟨t, ht, -, -, hrest⟩ := hwakerel podsEnter ⟨0, 0⟩ 0 hreaches
  exact dieX_ne_of_leavesPrepTo (s := podsEnter) hprepares ht rfl (congrArg State.dieX hrest :)

/-- `podsEnter` with port 0 of the link enabled. -/
def podsEnterLinkOn : State := setFld podsEnter (Reg.LINK_CTL 0) F.LINK_CTL_EN 1

/-- A write of LINK_CTL brings the domains in line with the votes of the link. -/
theorem linkRetrain_prepares :
    reachesReg podsEnterLinkOn ⟨0, 0⟩ (Reg.LINK_CTL 0) = true ∧ bitF podsEnterLinkOn (Reg.LINK_CTL 0) F.LINK_CTL_EN = true ∧
      leavesPrepTo (exec (.linkRetrain ⟨0, 0⟩ 0) podsEnterLinkOn) = true := by
  decide +kernel

/-- Refutes O55: its clause of LINK_RETRAIN keeps each die's own record beside the registers. In `podsEnterLinkOn` the write starts the exit
of a pod domain, at which the governor notes the Pulse by which its preparation ends (R416). -/
theorem not_linkTraining : ¬ Obligations.LinkTraining := by
  unfold Obligations.LinkTraining
  rintro ⟨-, hretrain, -⟩
  obtain ⟨hreaches, hen, hprepares⟩ := linkRetrain_prepares
  obtain ⟨t, ht, -, -, -, hrest⟩ := hretrain podsEnterLinkOn ⟨0, 0⟩ 0 hreaches hen
  exact dieX_ne_of_leavesPrepTo (s := podsEnterLinkOn) hprepares ht rfl (congrArg State.dieX hrest :)

/-- `podsEnter` in a tick at which the wake delay of pod 2, in another domain, is over. -/
def podsEnterPodWakes : State := { setPodX podsEnter 0 2 { PodX.zero with wakeIn := some 0 } with phase := .tick }

theorem wf_podsEnterPodWakes : podsEnterPodWakes.wf = true := 
  (State.wf_setPodX wf_podsEnter 0 2 { PodX.zero with wakeIn := some 0 } :)

/-- The kernels of pod 2 run again, and the domains are brought in line with what votes for them then. -/
theorem podResume_prepares :
    (podX podsEnterPodWakes 0 2).wakeIn = some 0 ∧ domOn podsEnterPodWakes 0 (pdPod 2) = true ∧
      bitF podsEnterPodWakes (Reg.GOV_STAT 0) F.GOV_STAT_PREP = false ∧
      leavesPrep (exec (.podResume 0 2) podsEnterPodWakes) = true := by
  decide +kernel

/-- Refutes O54: its clause of POD_RESUME leaves GOV_STAT out of the registers that may read differently. In `podsEnterPodWakes` the resume
of pod 2 brings the power domains in line with the votes, which starts the exit of another pod domain; R416 has the governor set
PREP in GOV_STAT then. -/
theorem not_metersSilenceAndGenerators : ¬ Obligations.MetersSilenceAndGenerators := by
  unfold Obligations.MetersSilenceAndGenerators
  rintro ⟨-, -, -, -, -, -, -, hresume, -⟩
  obtain ⟨hdue, hon, hbefore, hafter⟩ := podResume_prepares
  obtain ⟨t, ht, -, -, -, -, hregs⟩ := hresume podsEnterPodWakes 0 2 wf_podsEnterPodWakes (by decide) (by decide) hdue rfl hon
  have hkept : bitF t (Reg.GOV_STAT 0) F.GOV_STAT_PREP = bitF podsEnterPodWakes (Reg.GOV_STAT 0) F.GOV_STAT_PREP := by
    unfold bitF fld
    rw [hregs _ (by decide)]
  rw [ht] at hafter
  exact Bool.false_ne_true (hbefore.symm.trans (hkept.symm.trans hafter))

/-! ### A queue deeper than its index -/

/-- Queue 3 of die 0 enabled with entries of one word, a DEPTH of 5,000, and its tail at entry 4,095. -/
def deepQueue : State :=
  setReg (setReg State.reset (Reg.QUEUE_CFG 0 3) (BitVec.ofNat 32 (2 ^ 31 + 2 ^ 16 + 5000))) (Reg.QUEUE_TAIL 0 3) 4095

theorem wf_deepQueue : deepQueue.wf = true := State.wf_setReg (State.wf_setReg rfl _ _) _ _

/-- It is enabled and has room for an entry, and a push takes its tail from 4,095 to 0. -/
theorem queuePush_deepQueue :
    bitF deepQueue (Reg.QUEUE_CFG 0 3) F.QUEUE_CFG_EN = true ∧
      fld deepQueue (Reg.QUEUE_STAT 0 3) F.QUEUE_STAT_COUNT < fld deepQueue (Reg.QUEUE_CFG 0 3) F.QUEUE_CFG_DEPTH ∧
      0 < queueWords deepQueue 0 3 ∧
      fld (queuePush deepQueue 0 3 [0]) (Reg.QUEUE_TAIL 0 3) F.QUEUE_TAIL_INDEX ≠
        queueNext deepQueue 0 3 (fld deepQueue (Reg.QUEUE_TAIL 0 3) F.QUEUE_TAIL_INDEX) := by
  decide +kernel

/-- Refutes O44: the clause of a push asks of the queue only that it is enabled and has room, and the canonical form does not bound DEPTH.
QUEUE_CFG takes no DEPTH above 4,096 (R369); in `deepQueue`, where it is 5,000, the index after 4,095 is 4,096, which QUEUE_TAIL has
no bit for. -/
theorem not_queues : ¬ Obligations.Queues := by
  unfold Obligations.Queues
  rintro ⟨-, -, -, -, -, -, -, hpush, -⟩
  obtain ⟨hen, hroom, hwords, hwraps⟩ := queuePush_deepQueue
  obtain ⟨-, htail, -⟩ := hpush deepQueue 0 3 [0] wf_deepQueue (by decide) (by decide) hen hroom hwords
  exact hwraps htail

/-! ### An aborted entry that receives into LPDDR4X -/

/-- An entry of the serial port of die 0 whose data phase receives one bit on two lanes into the first byte of LPDDR4X. A phase
shorter than one clock period is over once the entry has started, whatever number of its periods has gone by. -/
def shortEntry : List Word := [0x1010_0000, 0, 1, 0, 0, 0x80]

/-- `shortEntry` in progress while a caravan block of one word is in flight to the same address. -/
def receivesUnderFlight : State :=
  setCsp (setCaravan (setFld (setFld State.reset (Reg.DDR_CTL 0) F.DDR_CTL_EN 1) (Reg.DDR_STAT 0) F.DDR_STAT_READY 1) 0 0
    { Caravan.zero with flight := [⟨0, true, 0, 0, 0, 0, 1, [0xFF], 0⟩] }) 0 { Csp.zero with busy := some shortEntry }

/-- Whether a command leaves the word of the block in flight as 0. -/
def clearsFlight (o : Out) : Bool :=
  match o with
  | .next t => decide ((caravan t 0 0).flight.map (·.data) = [[0]])
  | _ => false

/-- The byte that the entry has received goes to memory, and with it into the block in flight (R216, R455). -/
theorem cspAbort_clearsFlight :
    reachesReg receivesUnderFlight ⟨0, 0⟩ (Reg.CSP_CTL 0) = true ∧ clearsFlight (.next receivesUnderFlight) = false ∧
      clearsFlight (exec (.cspAbort ⟨0, 0⟩ 0) receivesUnderFlight) = true := by
  decide +kernel

/-- Refutes O59: its clause of CSP_ABORT keeps the caravan engines. In `receivesUnderFlight` the abort stores what the entry has received
into LPDDR4X, where a block of an engine is in flight, which takes the byte. -/
theorem not_cspController : ¬ Obligations.CspController := by
  unfold Obligations.CspController
  rintro ⟨-, -, -, habort, -⟩
  obtain ⟨hreaches, hbefore, hcleared⟩ := cspAbort_clearsFlight
  obtain ⟨t, ht, -, -, hrest⟩ := habort receivesUnderFlight ⟨0, 0⟩ 0 hreaches
  rw [ht] at hcleared
  have hkept : caravan t 0 0 = caravan receivesUnderFlight 0 0 :=
    (congrArg (fun u : State => smGet (fun _ => Caravan.zero) u.carav 0) hrest :)
  have hsame : clearsFlight (.next t) = clearsFlight (.next receivesUnderFlight) := by simp only [clearsFlight, hkept]
  exact Bool.false_ne_true ((hbefore.symm.trans hsame.symm).trans hcleared)

end Sys2Proof.Machine
end

section
/-! PROOFS. What every step keeps: the part, the queue of commands, canonical memory, and with a canonical state the whole canonical form.
Here: the frame, and its rules for the operations on the state. -/
namespace Sys2Proof.Machine

variable {s t : State}

/-- `t` keeps the part, the queue and the canonical memory of `s`; where `s` is in canonical form, so is `t`. -/
structure Keeps (s t : State) : Prop where
  part : t.part = s.part
  pending : t.pending = s.pending
  mem : Memory.wf s.mem = true → Memory.wf t.mem = true
  wf : s.wf = true → t.wf = true

namespace Keeps

theorem refl (s : State) : Keeps s s := ⟨rfl, rfl, id, id⟩

theorem trans {u : State} (h : Keeps s t) (hu : Keeps t u) : Keeps s u :=
  ⟨hu.part.trans h.part, hu.pending.trans h.pending, hu.mem ∘ h.mem, hu.wf ∘ h.wf⟩

/-- A further change that leaves memory alone. -/
theorem change {u : State} (h : Keeps s t) (hpart : u.part = t.part) (hpending : u.pending = t.pending) (hmem : u.mem = t.mem)
    (hwf : t.wf = true → u.wf = true) : Keeps s u :=
  h.trans ⟨hpart, hpending, fun hm => hmem ▸ hm, hwf⟩

theorem ite {c : Prop} {_ : Decidable c} {u : State} (ht : Keeps s t) (hu : Keeps s u) : Keeps s (if c then t else u) := by
  split
  · exact ht
  · exact hu

/-- The same for a state beside another value. -/
theorem ite' {β : Type} {c : Prop} {_ : Decidable c} {x y : State × β} (hx : Keeps s x.1) (hy : Keeps s y.1) :
    Keeps s (if c then x else y).1 := by
  split
  · exact hx
  · exact hy

theorem each {α : Type} {xs : List α} {f : α → State → State} (h : Keeps s t) (hf : ∀ x u, Keeps s u → Keeps s (f x u)) :
    Keeps s (each xs f t) :=
  each_keeps xs f (fun x _ u hu => hf x u hu) h

/-- A fold that carries the state beside another value. -/
theorem foldl {α β : Type} {f : State × β → α → State × β} (hf : ∀ acc x, Keeps s acc.1 → Keeps s (f acc x).1) (xs : List α)
    {acc : State × β} (h : Keeps s acc.1) : Keeps s (xs.foldl f acc).1 := by
  induction xs generalizing acc with
  | nil => exact h
  | cons x xs ih => exact ih (hf acc x h)

/-- The state of a pair. -/
theorem ofPair {β : Type} {x : State × β} {b : β} (heq : x = (t, b)) (h : Keeps s x.1) : Keeps s t := by
  rw [heq] at h
  exact h

/-! ### The accessors of the state -/

theorem setReg (h : Keeps s t) {a : Nat} {w : Word} : Keeps s (setReg t a w) := h.change rfl rfl rfl fun ht => State.wf_setReg ht a w
theorem setFld (h : Keeps s t) {a v : Nat} {f : Fld} : Keeps s (setFld t a f v) := .setReg h
theorem incFld (h : Keeps s t) {a : Nat} {f : Fld} : Keeps s (incFld t a f) := .setReg h
theorem incReg (h : Keeps s t) {a : Nat} : Keeps s (incReg t a) := .setReg h
theorem satFld (h : Keeps s t) {a : Nat} {f : Fld} : Keeps s (satFld t a f) := .ite (.incFld h) h

theorem setTab (h : Keeps s t) {u d i : Nat} {w : Word} : Keeps s (setTab t u d i w) :=
  h.change rfl rfl rfl fun ht => State.wf_setTab ht u d i w
theorem setEcc (h : Keeps s t) {a : Nat} {e : EccMark} : Keeps s (setEcc t a e) :=
  h.change rfl rfl rfl fun ht => State.wf_setEcc ht a e
theorem publish (h : Keeps s t) {d n : Nat} {v : Word} {ok : Bool} : Keeps s (publish t d n v ok) :=
  h.change rfl rfl rfl fun ht => State.wf_publish ht d n v ok
theorem setLastPub (h : Keeps s t) {d n : Nat} {v : Word} : Keeps s (setLastPub t d n v) :=
  h.change rfl rfl rfl fun ht => State.wf_setLastPub ht d n v
theorem setSlip (h : Keeps s t) {d p n : Nat} {v : Slip} : Keeps s (setSlip t d p n v) :=
  h.change rfl rfl rfl fun ht => State.wf_setSlip ht d p n v
theorem setDom (h : Keeps s t) {d m : Nat} {x : DomX} : Keeps s (setDom t d m x) :=
  h.change rfl rfl rfl fun ht => State.wf_setDom ht d m x
theorem setPodX (h : Keeps s t) {d p : Nat} {x : PodX} : Keeps s (setPodX t d p x) :=
  h.change rfl rfl rfl fun ht => State.wf_setPodX ht d p x
theorem setDieX (h : Keeps s t) {d : Nat} {x : DieX} : Keeps s (setDieX t d x) :=
  h.change rfl rfl rfl fun ht => State.wf_setDieX ht d x
theorem setRows (h : Keeps s t) {d p : Nat} {r : Rows} : Keeps s (setRows t d p r) :=
  h.change rfl rfl rfl fun ht => State.wf_setRows ht d p r
theorem setBridge (h : Keeps s t) {d n : Nat} {b : BridgePort} : Keeps s (setBridge t d n b) :=
  h.change rfl rfl rfl fun ht => State.wf_setBridge ht d n b
theorem setLinkPort (h : Keeps s t) {d : Nat} {p : LinkPort} : Keeps s (setLinkPort t d p) :=
  h.change rfl rfl rfl fun ht => State.wf_setLinkPort ht d p
theorem setCaravan (h : Keeps s t) {d p : Nat} {x : Caravan} : Keeps s (setCaravan t d p x) :=
  h.change rfl rfl rfl fun ht => State.wf_setCaravan ht d p x
theorem setDdr (h : Keeps s t) {d : Nat} {x : Ddr} : Keeps s (setDdr t d x) := h.change rfl rfl rfl fun ht => State.wf_setDdr ht d x
theorem setSap (h : Keeps s t) {d m : Nat} {x : SapPort} : Keeps s (setSap t d m x) :=
  h.change rfl rfl rfl fun ht => State.wf_setSap ht d m x
theorem setMeter (h : Keeps s t) {d m : Nat} {x : Meter} : Keeps s (setMeter t d m x) :=
  h.change rfl rfl rfl fun ht => State.wf_setMeter ht d m x
theorem setGen (h : Keeps s t) {d c : Nat} {x : Gen} : Keeps s (setGen t d c x) :=
  h.change rfl rfl rfl fun ht => State.wf_setGen ht d c x
theorem setCsp (h : Keeps s t) {d : Nat} {x : Csp} : Keeps s (setCsp t d x) := h.change rfl rfl rfl fun ht => State.wf_setCsp ht d x

/-- The fields that hold no sparse table. -/
theorem others (h : Keeps s t) {phase : Phase} {keep : Keep} {swaps : List SwapReq} {linkDev : LinkDev} {steer : Steer}
    {pads : List (Nat × List (Pad × Pin × Pull))} {fuses : Fuses} {boot : Boot} {resp : Resp} {fresh : Nat} :
    Keeps s { t with phase := phase, keep := keep, swaps := swaps, linkDev := linkDev, steer := steer, pads := pads, fuses := fuses, boot := boot, resp := resp, fresh := fresh } :=
  { h with }

theorem storeByte (h : Keeps s t) {a : Nat} {v : Byte} : Keeps s (storeByte t a v) :=
  h.trans ⟨rfl, rfl, fun hm => mem_wf_storeByte hm a v, fun ht => State.wf_storeByte ht a v⟩

theorem storeBytes (h : Keeps s t) {a v n : Nat} : Keeps s (storeBytes t a v n) := by
  induction n generalizing t a v with
  | zero => exact h
  | succ n ih => exact ih (.storeByte h)

theorem storeW (h : Keeps s t) {a : Nat} {w : Word} : Keeps s (storeW t a w) := .storeBytes h

/-! ### Kernels, stewards and their cores -/

theorem setKern (h : Keeps s t) {d k : Nat} {v : Kern} (hv : s.wf = true → v.core.wf = true) : Keeps s (setKern t d k v) where
  part := h.part
  pending := h.pending
  mem := h.mem
  wf hs := State.wf_setKern (h.wf hs) d k v (hv hs)

theorem setStew (h : Keeps s t) {d i : Nat} {v : Stew} (hv : s.wf = true → v.core.wf = true) : Keeps s (setStew t d i v) where
  part := h.part
  pending := h.pending
  mem := h.mem
  wf hs := State.wf_setStew (h.wf hs) d i v (hv hs)

end Keeps

/-- An entry read from a table all of whose entries have a property has it, if the default has. -/
theorem smGet_all {α : Type} {d : Nat → α} {p : α → Bool} {m : List (Nat × α)} (h : (m.all fun e => p e.2) = true) {k : Nat}
    (hd : p (d k) = true) : p (smGet d m k) = true := by
  induction m with
  | nil => exact hd
  | cons e m ih =>
    obtain ⟨k', v⟩ := e
    obtain ⟨hv, hm⟩ := Bool.and_eq_true_iff.mp h
    unfold smGet
    split
    · exact hd
    · split
      · exact hv
      · exact ih hm

theorem Core.wf_zero : Core.zero.wf = true := rfl

namespace Keeps

theorem kernCore (h : Keeps s t) {d k : Nat} (hs : s.wf = true) : (kern t d k).core.wf = true :=
  smGet_all (p := fun x : Kern => x.core.wf) (State.wf_kernCore (h.wf hs)) Core.wf_zero

theorem stewCore (h : Keeps s t) {d i : Nat} (hs : s.wf = true) : (stew t d i).core.wf = true :=
  smGet_all (p := fun x : Stew => x.core.wf) (State.wf_stewCore (h.wf hs)) Core.wf_zero

theorem coreOf (h : Keeps s t) {c : CoreRef} (hs : s.wf = true) : (coreOf t c).wf = true := by
  unfold Machine.coreOf
  split
  · exact h.stewCore hs
  · exact h.kernCore hs

/-- A kernel that keeps the core of one read before. -/
theorem kernFrom {u : State} (h : Keeps s t) (hu : Keeps s u) {d k d' k' : Nat} {v : Kern} (hv : v.core = (kern u d' k').core := by rfl) :
    Keeps s (Machine.setKern t d k v) :=
  .setKern h fun hs => hv ▸ hu.kernCore hs

theorem sameKern (h : Keeps s t) {d k : Nat} {v : Kern} (hv : v.core = (kern t d k).core := by rfl) : Keeps s (Machine.setKern t d k v) :=
  h.kernFrom h hv

/-- A steward that keeps its core. -/
theorem sameStew (h : Keeps s t) {d i : Nat} {v : Stew} (hv : v.core = (stew t d i).core := by rfl) : Keeps s (Machine.setStew t d i v) :=
  .setStew h fun hs => hv ▸ h.stewCore hs

theorem setCore (h : Keeps s t) {c : CoreRef} {v : Core} (hv : s.wf = true → v.wf = true) : Keeps s (setCore t c v) :=
  .ite (.setStew h hv) (.setKern h hv)

end Keeps
end Sys2Proof.Machine
end

section
/-! PROOFS. What every step keeps, for an outcome: its rules. -/
namespace Sys2Proof.Machine

variable {s t : State}

/-- An outcome whose next state, if it is one, keeps what `Keeps` says of `s`. -/
def Answers (s : State) (o : Out) : Prop := ∀ u, o = .next u → Keeps s u

namespace Answers

theorem next (h : Keeps s t) : Answers s (.next t) := by
  intro u hu
  cases hu
  exact h

theorem refused {r : Refusal} : Answers s (.refused r) := fun _ hu => nomatch hu

theorem fault {f : Fault} : Answers s (.fault f) := fun _ hu => nomatch hu

theorem ite {c : Prop} {_ : Decidable c} {x y : Out} (hx : Answers s x) (hy : Answers s y) : Answers s (if c then x else y) := by
  split
  · exact hx
  · exact hy

theorem whenDue {u : State} {b : Bool} (ht : Keeps s t) (hu : Keeps s u) : Answers s (whenDue t b u) := .next (.ite hu ht)

theorem onUnit {b : Bool} {k : Out} (hk : Answers s k) : Answers s (onUnit b k) := .ite hk .refused

end Answers
end Sys2Proof.Machine
end

section
/-! PROOFS. The canonical form of registers and cores: every operation of a core on its own registers keeps it (R67–R93, R141–R164). -/
namespace Sys2Proof.Machine

/-! ### Register files -/

/-- A register file in canonical form. -/
def RfWf (f : List (Nat × Word)) : Prop := smWf (fun _ => (0 : Word)) 0 f = true

theorem RfWf.set {f : List (Nat × Word)} (h : RfWf f) {n : Nat} {w : Word} : RfWf (rfSet f n w) := smWf_smSet h (Nat.zero_le _) w

namespace Regs

variable {r : Regs}

theorem wf_iff : r.wf = true ↔ smWf (fun _ => (0 : Acc)) 0 r.a = true ∧ RfWf r.d ∧ RfWf r.e ∧ RfWf r.p ∧ RfWf r.b ∧ RfWf r.l ∧ RfWf r.m ∧
    RfWf r.ls ∧ RfWf r.le ∧ RfWf r.lc := by
  simp only [Regs.wf, List.all_cons, List.all_nil, Bool.and_true, Bool.and_eq_true, RfWf]

theorem wf_setAcc (h : r.wf = true) {n : Nat} {v : Acc} : (setAcc r n v).wf = true := by
  obtain ⟨ha, hfiles⟩ := wf_iff.mp h
  exact wf_iff.mpr ⟨smWf_smSet ha (Nat.zero_le _) v, hfiles⟩

theorem wf_setD (h : r.wf = true) {n : Nat} {w : Word} : (setD r n w).wf = true := by
  obtain ⟨ha, hd, hfiles⟩ := wf_iff.mp h
  exact wf_iff.mpr ⟨ha, hd.set, hfiles⟩

theorem wf_setE (h : r.wf = true) {n : Nat} {w : Word} : Regs.wf { r with e := rfSet r.e n w } = true := by
  obtain ⟨ha, hd, he, hfiles⟩ := wf_iff.mp h
  exact wf_iff.mpr ⟨ha, hd, he.set, hfiles⟩

theorem wf_setP (h : r.wf = true) {n : Nat} {w : Word} : Regs.wf { r with p := rfSet r.p n w } = true := by
  obtain ⟨ha, hd, he, hp, hfiles⟩ := wf_iff.mp h
  exact wf_iff.mpr ⟨ha, hd, he, hp.set, hfiles⟩

theorem wf_setB (h : r.wf = true) {n : Nat} {w : Word} : Regs.wf { r with b := rfSet r.b n w } = true := by
  obtain ⟨ha, hd, he, hp, hb, hfiles⟩ := wf_iff.mp h
  exact wf_iff.mpr ⟨ha, hd, he, hp, hb.set, hfiles⟩

theorem wf_setL (h : r.wf = true) {n : Nat} {w : Word} : Regs.wf { r with l := rfSet r.l n w } = true := by
  obtain ⟨ha, hd, he, hp, hb, hl, hfiles⟩ := wf_iff.mp h
  exact wf_iff.mpr ⟨ha, hd, he, hp, hb, hl.set, hfiles⟩

theorem wf_setM (h : r.wf = true) {n : Nat} {w : Word} : Regs.wf { r with m := rfSet r.m n w } = true := by
  obtain ⟨ha, hd, he, hp, hb, hl, hm, hloops⟩ := wf_iff.mp h
  exact wf_iff.mpr ⟨ha, hd, he, hp, hb, hl, hm.set, hloops⟩

/-- The registers of loops replaced. -/
theorem wf_loops (h : r.wf = true) {ls le lc : List (Nat × Word)} (hls : RfWf ls) (hle : RfWf le) (hlc : RfWf lc) :
    Regs.wf { r with ls := ls, le := le, lc := lc } = true := by
  obtain ⟨ha, hd, he, hp, hb, hl, hm, -⟩ := wf_iff.mp h
  exact wf_iff.mpr ⟨ha, hd, he, hp, hb, hl, hm, hls, hle, hlc⟩

theorem wf_ls (h : r.wf = true) : RfWf r.ls := by
  obtain ⟨-, -, -, -, -, -, -, hls, -⟩ := wf_iff.mp h
  exact hls

theorem wf_le (h : r.wf = true) : RfWf r.le := by
  obtain ⟨-, -, -, -, -, -, -, -, hle, -⟩ := wf_iff.mp h
  exact hle

theorem wf_lc (h : r.wf = true) : RfWf r.lc := by
  obtain ⟨-, -, -, -, -, -, -, -, -, hlc⟩ := wf_iff.mp h
  exact hlc

theorem wf_postMod (h : r.wf = true) {c : CoreRef} {m : MemOp} : (postMod c r m).wf = true := wf_setP h

theorem wf_postDual (h : r.wf = true) {c : CoreRef} {o : DualOp} : (postDual c r o).wf = true := by
  cases o with
  | mem m => exact wf_postMod h
  | reg n => exact h

theorem wf_captureRes (h : r.wf = true) {n : Nat} {st : StoreRes} : (captureRes r n st).wf = true := by
  unfold captureRes
  split
  · exact wf_setE h
  · exact h

theorem wf_ite {c : Prop} {_ : Decidable c} {x y : Regs} (hx : x.wf = true) (hy : y.wf = true) : (if c then x else y).wf = true := by
  split
  · exact hx
  · exact hy

/-- One of the four modifier files, written at an entry (R66). -/
theorem wf_modifier (h : r.wf = true) (i n : Nat) (w : Word) :
    Regs.wf (match i with
      | 0 => { r with p := rfSet r.p n w }
      | 1 => { r with b := rfSet r.b n w }
      | 2 => { r with l := rfSet r.l n w }
      | _ => { r with m := rfSet r.m n w }) = true := by
  split
  · exact wf_setP h
  · exact wf_setB h
  · exact wf_setL h
  · exact wf_setM h

/-- One of the three files of loops, written at a level (R66). -/
theorem wf_loopFile (h : r.wf = true) (i j : Nat) (w v : Word) :
    Regs.wf (match i with
      | 0 => { r with ls := rfSet r.ls j w }
      | 1 => { r with le := rfSet r.le j w }
      | _ => { r with lc := rfSet r.lc j v }) = true := by
  split
  · exact wf_loops h (wf_ls h).set (wf_le h) (wf_lc h)
  · exact wf_loops h (wf_ls h) (wf_le h).set (wf_lc h)
  · exact wf_loops h (wf_ls h) (wf_le h) (wf_lc h).set

/-- A register written through the image of a window (R66). -/
theorem wf_imageWrite (h : r.wf = true) {o : Nat} {v : Word} : (imageWrite r o v).wf = true := by
  unfold imageWrite
  extract_lets low n j
  exact wf_ite (wf_setD h) (wf_ite (wf_setAcc h) (wf_ite (wf_setE h) (wf_ite (wf_modifier h _ _ _) (wf_ite h
    (wf_ite (wf_loopFile h _ _ _ _) (wf_ite h (wf_ite h (wf_ite h (wf_ite h h)))))))))

end Regs
end Sys2Proof.Machine
end

section
/-! PROOFS. The canonical form of a core: control, entry, writes of register codes and bits, and the start of a tick keep it
(R66–R68, R92, R93, R141–R164). -/
namespace Sys2Proof.Machine

namespace Core

variable {k j : Core}

theorem wf_iff : k.wf = true ↔ k.r.wf = true ∧ k.img.wf = true ∧ k.snap.wf = true ∧ smWf (fun _ => false) 0 k.bits = true := by
  simp only [Core.wf, Bool.and_eq_true, and_assoc]

theorem wf_r (h : k.wf = true) : k.r.wf = true := (wf_iff.mp h).1

/-- A core that differs in its registers and in what holds no table. -/
theorem wf_of (h : k.wf = true) (hr : j.r.wf = true) (himg : j.img = k.img) (hsnap : j.snap = k.snap) (hbits : j.bits = k.bits) :
    j.wf = true := by
  obtain ⟨-, hi, hs, hb⟩ := wf_iff.mp h
  exact wf_iff.mpr ⟨hr, himg ▸ hi, hsnap ▸ hs, hbits ▸ hb⟩

/-- The same with the image taken from the registers. -/
theorem wf_image (h : k.wf = true) (hr : j.r.wf = true) (himg : j.img = j.r) (hsnap : j.snap = k.snap) (hbits : j.bits = k.bits) :
    j.wf = true := by
  obtain ⟨-, -, hs, hb⟩ := wf_iff.mp h
  exact wf_iff.mpr ⟨hr, himg ▸ hr, hsnap ▸ hs, hbits ▸ hb⟩

theorem wf_ite {c : Prop} {_ : Decidable c} {x y : Core} (hx : x.wf = true) (hy : y.wf = true) : (if c then x else y).wf = true := by
  split
  · exact hx
  · exact hy

/-- The core at a new program counter. -/
theorem wf_pc (h : k.wf = true) (pc : Nat) : Core.wf { k with r := { k.r with pc := pc } } = true := wf_of h (wf_r h) rfl rfl rfl

/-- The core with a change of what holds neither registers nor tables. -/
theorem wf_aside (h : k.wf = true) (hr : j.r = k.r) (himg : j.img = k.img) (hsnap : j.snap = k.snap) (hbits : j.bits = k.bits) :
    j.wf = true := wf_of h (hr ▸ wf_r h) himg hsnap hbits

end Core

/-- Two cores: the registers and image of the one, the snapshot of the other (R434, R437). -/
theorem Core.wf_copy {j k x : Core} (hj : j.wf = true) (hk : k.wf = true) (hr : x.r.wf = true) (himg : x.img = k.img)
    (hsnap : x.snap = j.snap) (hbits : x.bits = k.bits) : x.wf = true := by
  obtain ⟨-, -, hs, -⟩ := Core.wf_iff.mp hj
  obtain ⟨-, hi, -, hb⟩ := Core.wf_iff.mp hk
  exact Core.wf_iff.mpr ⟨hr, himg ▸ hi, hsnap ▸ hs, hbits ▸ hb⟩

namespace Core

variable {k : Core}

/-! ### Control -/

theorem wf_nextSlot (h : k.wf = true) (pc : Nat) : (nextSlot k pc).wf = true := by
  unfold nextSlot
  extract_lets k1 k2
  have h2 : k2.wf = true := wf_ite h h
  split
  · exact wf_of h2 (wf_r h2) rfl rfl rfl
  · next j _ =>
    dsimp only
    have hlc (w : Word) := Regs.wf_loops (wf_r h2) (Regs.wf_ls (wf_r h2)) (Regs.wf_le (wf_r h2)) ((Regs.wf_lc (wf_r h2)).set (n := j) (w := w))
    exact wf_ite (wf_of h2 (hlc _) rfl rfl rfl) (wf_of h2 (hlc _) rfl rfl rfl)

theorem wf_leaveLevels (h : k.wf = true) {c : CoreRef} {t : Nat} : (leaveLevels c k t).wf = true :=
  wf_aside h rfl rfl rfl rfl

theorem wf_afterSlot (h : k.wf = true) {c : CoreRef} {m : Mode} {pc : Nat} : (afterSlot c m k pc).wf = true := by
  have hd : Core.wf { k with dly := none } = true := wf_aside h rfl rfl rfl rfl
  unfold afterSlot
  split
  · exact wf_nextSlot h pc
  · refine wf_ite (wf_of h (wf_r h) rfl rfl rfl) ?_
    dsimp only
    split
    · exact wf_nextSlot hd pc
    · split
      · exact wf_ite (wf_of h (wf_r h) rfl rfl rfl) (wf_nextSlot hd pc)
      · exact wf_pc (wf_ite (wf_leaveLevels hd) hd) _

theorem wf_rep (h : k.wf = true) (rep : Repeat) : Core.wf { k with rep := rep } = true := wf_aside h rfl rfl rfl rfl

theorem wf_advance (h : k.wf = true) {c : CoreRef} {m : Mode} : (advance c m k).wf = true := by
  unfold advance
  split
  · next n det _ =>
    have hk : Core.wf (if det then k else { k with r := { k.r with rpc := BitVec.ofNat 32 (n - 1) } }) = true :=
      wf_ite h (wf_of h (wf_r h) rfl rfl rfl)
    exact wf_ite (wf_rep hk _) (wf_afterSlot (wf_rep hk _))
  · exact wf_afterSlot (wf_rep h _)
  · exact wf_afterSlot h

theorem wf_charge (h : k.wf = true) {n : Nat} {hoard : Bool} : (charge k n hoard).wf = true :=
  wf_aside h rfl rfl rfl rfl

theorem wf_passCore (h : k.wf = true) {c : CoreRef} {m : Mode} {sl : Slot} : (passCore c m k sl).wf = true := by
  unfold passCore
  dsimp only
  split
  · exact wf_of h (wf_r h) rfl rfl rfl
  · exact wf_of h (wf_r h) rfl rfl rfl
  · exact wf_advance (wf_charge h)

theorem wf_enterVector (h : k.wf = true) {vec code epc : Nat} {ds rpt : Bool} {prio : Option Nat} :
    (enterVector k vec code epc ds rpt prio).wf = true := wf_of h (wf_r h) rfl rfl rfl

/-! ### Ticks and stops -/

theorem wf_startTick (h : k.wf = true) : (startTick k).wf = true := by
  obtain ⟨hr, hi, -, hb⟩ := wf_iff.mp h
  have hr : (startTick k).r.wf = true := Regs.wf_loops hr rfl rfl rfl
  exact wf_iff.mpr ⟨hr, hi, hr, hb⟩

/-- The pointers of the tick's start, put back (R19). -/
theorem wf_stopLate {kn : Kern} (h : kn.core.wf = true) : (stopLate kn).core.wf = true := by
  obtain ⟨hr, hi, hs, hb⟩ := wf_iff.mp h
  obtain ⟨ha, hd, he, -, -, -, -, hls, hle, hlc⟩ := Regs.wf_iff.mp hr
  obtain ⟨-, -, -, hp, hbs, hl, hm, -⟩ := Regs.wf_iff.mp hs
  have hr : (stopLate kn).core.r.wf = true := by
    rw [Regs.wf_iff]
    exact ⟨ha, hd, he, hp, hbs, hl, hm, hls, hle, hlc⟩
  exact wf_image h hr rfl rfl rfl

theorem wf_enterTest {kn : Kern} (h : kn.core.wf = true) : (enterTest kn).core.wf = true := wf_aside h rfl rfl rfl rfl

theorem wf_enterRun {kn : Kern} (h : kn.core.wf = true) : (enterRun kn).core.wf = true := h

theorem wf_startKern {kn : Kern} (h : kn.core.wf = true) : (startKern kn).core.wf = true := wf_startTick h

theorem wf_leaveTest {kn : Kern} (h : kn.core.wf = true) : (leaveTest kn).core.wf = true := by
  have hr := wf_r h
  exact wf_image h hr rfl rfl rfl

/-! ### Writes -/

theorem wf_setBits (h : k.wf = true) {a : Nat} {b : Bool} : Core.wf { k with bits := smSet (fun _ => false) a b k.bits } = true := by
  obtain ⟨hr, hi, hs, hb⟩ := wf_iff.mp h
  exact wf_iff.mpr ⟨hr, hi, hs, smWf_smSet hb (Nat.zero_le _) b⟩

theorem wf_bitWordWrite {kn : Kern} (h : kn.core.wf = true) {w : Nat} {v : Word} : (bitWordWrite kn w v).core.wf = true := by
  have hfold (xs : List Nat) (m : List (Nat × Bool)) (hm : smWf (fun _ => false) 0 m = true) :
      smWf (fun _ => false) 0 (xs.foldl (fun m i => smSet (fun _ => false) (32 * w + i) (v.getLsbD i) m) m) = true := by
    induction xs generalizing m with
    | nil => exact hm
    | cons i xs ih => exact ih _ (smWf_smSet hm (Nat.zero_le _) _)
  obtain ⟨hr, hi, hs, hb⟩ := wf_iff.mp h
  unfold bitWordWrite
  split
  · exact h
  · rw [wf_iff]
    dsimp only
    exact ⟨hr, hi, hs, hfold (List.range 32) _ hb⟩

theorem wf_writeBitOp (h : k.wf = true) {o : BitOp} {b : Bool} : (writeBitOp k o b).wf = true := by
  cases o with
  | space a =>
    change (writeBit k a b).wf = true
    unfold writeBit
    split
    · exact wf_of h (wf_r h) rfl rfl rfl
    · split
      · exact wf_setBits h
      · exact h
  | dreg n i =>
    have hd := Regs.wf_setD (wf_r h) (n := n) (w := wPut (rf k.r.d n) i i b.toNat)
    exact wf_of h hd rfl rfl rfl

theorem wf_writeCode (h : k.wf = true) {c : CoreRef} {m : Mode} {code : Nat} {v : Word} : (writeCode c m k code v).wf = true := by
  have hr := (wf_r h)
  have hloop {ls le lc : List (Nat × Word)} (hls : RfWf ls) (hle : RfWf le) (hlc : RfWf lc) :
      Core.wf { k with r := { k.r with ls := ls, le := le, lc := lc } } = true := wf_of h (Regs.wf_loops hr hls hle hlc) rfl rfl rfl
  unfold writeCode
  dsimp only
  split
  · exact wf_of h (Regs.wf_setD hr) rfl rfl rfl
  · exact wf_of h (Regs.wf_setP hr) rfl rfl rfl
  · exact wf_of h (Regs.wf_setB hr) rfl rfl rfl
  · exact wf_of h (Regs.wf_setL hr) rfl rfl rfl
  · exact wf_of h (Regs.wf_setM hr) rfl rfl rfl
  · refine wf_ite (wf_of h (Regs.wf_setE hr) rfl rfl rfl) (wf_ite (wf_of h hr rfl rfl rfl)
      (wf_ite (hloop (Regs.wf_ls hr).set (Regs.wf_le hr) (Regs.wf_lc hr)) (wf_ite (hloop (Regs.wf_ls hr) (Regs.wf_le hr).set (Regs.wf_lc hr))
        (wf_ite (hloop (Regs.wf_ls hr) (Regs.wf_le hr) (Regs.wf_lc hr).set) ?_))))
    split
    · exact wf_of h hr rfl rfl rfl
    · exact wf_of h hr rfl rfl rfl
    · exact wf_of h hr rfl rfl rfl
    · exact wf_aside h rfl rfl rfl rfl
    · exact wf_aside h rfl rfl rfl rfl
    · exact wf_aside h rfl rfl rfl rfl
    · exact wf_aside h rfl rfl rfl rfl
    · exact wf_aside h rfl rfl rfl rfl
    · exact h

end Core

/-! ### The register operations of instruction bodies -/

/-- A change of registers that keeps their canonical form. -/
def RegsKept (f : Regs → Regs) : Prop := ∀ r, r.wf = true → (f r).wf = true

namespace Regs

variable {r : Regs}

theorem wf_binD {f : BinFn} {dd ds1 : Nat} {s2 : Src2} : RegsKept (binD f dd ds1 s2) := fun _ h => wf_ite (wf_setD h) h

theorem wf_binA {f : BinFn} {ad as1 : Nat} {s2 : ASrc2} : RegsKept (binA f ad as1 s2) := fun _ h => wf_ite (wf_setAcc h) h

theorem wf_unD {f : UnFn} {dd ds : Nat} : RegsKept (unD f dd ds) := fun _ h => wf_setD h

theorem wf_unA {f : UnFn} {ad as : Nat} : RegsKept (unA f ad as) := fun _ h => wf_setAcc h

theorem wf_normA {dd as : Nat} : RegsKept (normA dd as) := fun _ h => wf_setD h

theorem wf_divD {frac : Bool} {dd ds1 ds2 : Nat} : RegsKept (divD frac dd ds1 ds2) := fun _ h => wf_setD h

theorem wf_mulReal {f : MulFn} {n : Nat} {int : Bool} {x y : Word} : RegsKept (mulReal f n int x y) := fun _ h => wf_setAcc h

theorem wf_setPair (h : r.wf = true) {p : Nat} {re im : Int} : (setPair r p re im).wf = true := wf_setAcc (wf_setAcc h)

theorem wf_mulComplex {f : MulFn} {p : Nat} {x y : Word × Word} : RegsKept (mulComplex f p x y) := by
  intro r h
  cases f with
  | bfly => exact wf_setPair (wf_setPair h)
  | mpy | mpyu | mac | msu | cmpy | cmac | cmsu | cmacj => exact wf_setPair h

theorem wf_searchD {f : SearchFn} {dd : Nat} {v : Word} {a : Option Word} : RegsKept (searchD f dd v a) := by
  intro r h
  cases a with
  | none => exact wf_setD h
  | some w => exact wf_ite (wf_setD h) (wf_setD h)

theorem wf_staRegs {n : Nat} {st : StoreRes} : RegsKept (staRegs n st) := by
  intro r h
  have hf : Regs.wf { r with flg := addSAT (setV (znOf r.flg st.val) st.v) st.sat } = true := h
  exact wf_captureRes hf

end Regs
end Sys2Proof.Machine
end

section
/-! PROOFS. Whole tables replaced: memory and tables cut, copied, moved and reset keep the canonical form. -/
namespace Sys2Proof.Machine

variable {s t : State}

/-! ### Tables -/

/-- Entries moved up or down by one distance stay canonical where the default is the same at every key. -/
theorem smWf_shift {α : Type} [DecidableEq α] {x : α} {lo src dst : Nat} {m : List (Nat × α)} (h : smWf (fun _ => x) lo m = true)
    (hs : src ≤ lo) : smWf (fun _ => x) (lo - src + dst) (m.map fun e => (e.1 - src + dst, e.2)) = true := by
  induction m generalizing lo with
  | nil => rfl
  | cons e m ih =>
    obtain ⟨k, v⟩ := e
    simp only [smWf, Bool.and_eq_true, decide_eq_true_eq] at h
    have hrest := ih h.2 (by omega)
    have hkey : k + 1 - src + dst = k - src + dst + 1 := by omega
    rw [hkey] at hrest
    simp only [List.map_cons, smWf, Bool.and_eq_true, decide_eq_true_eq]
    exact ⟨⟨by omega, h.1.2⟩, hrest⟩

/-- A window copied onto another one leaves the table canonical where the default is the same at every key. -/
theorem smWf_copyWindow {α : Type} [DecidableEq α] {x : α} {src dst : Nat} {m : List (Nat × α)} (h : smWf (fun _ => x) 0 m = true) :
    smWf (fun _ => x) 0 (copyWindow src dst m) = true := by
  have hbelow := smWf_filter h fun e => decide (e.1 < dst)
  have hfrom := smWf_from (mid := src) (smWf_filter h fun e => decide (src ≤ e.1) && decide (e.1 < src + 0x2_0000)) fun e he => by
    simp only [List.mem_filter, Bool.and_eq_true, decide_eq_true_eq] at he
    exact he.2.1
  have habove := smWf_from (mid := dst + 0x2_0000) (smWf_filter h fun e => decide (dst + 0x2_0000 ≤ e.1)) fun e he => by
    simp only [List.mem_filter, decide_eq_true_eq] at he
    exact he.2
  have hmoved := smWf_shift (dst := dst) hfrom (Nat.le_refl _)
  rw [Nat.sub_self, Nat.zero_add] at hmoved
  have hupper := smWf_append hmoved (Nat.le_add_right _ _) (fun e he => by
    simp only [List.mem_map, List.mem_filter, Bool.and_eq_true, decide_eq_true_eq] at he
    obtain ⟨y, hy, rfl⟩ := he
    dsimp only
    omega) habove
  have hall := smWf_append hbelow (Nat.zero_le _) (fun e he => by
    simp only [List.mem_filter, decide_eq_true_eq] at he
    exact he.2) hupper
  unfold copyWindow
  rw [List.append_assoc]
  exact hall

/-- A table set at keys one after the other. -/
theorem smWf_foldl {α β : Type} [DecidableEq α] {d : Nat → α} {k : β → Nat} {v : β → α} (xs : List β) {m : List (Nat × α)}
    (h : smWf d 0 m = true) : smWf d 0 (xs.foldl (fun acc x => smSet d (k x) (v x) acc) m) = true := by
  induction xs generalizing m with
  | nil => exact h
  | cons x xs ih => exact ih (smWf_smSet h (Nat.zero_le _) _)

theorem smWf_txViews (u : State) : smWf (fun _ => (0 : Word)) 0 (txViews u) = true := smWf_foldl _ rfl

/-- The handshake of every slipface line open again; a line that then reads as reset is left out (R187). -/
theorem smWf_openSlips {lo : Nat} {m : List (Nat × Slip)} (h : smWf (fun _ => (⟨0, false⟩ : Slip)) lo m = true) :
    smWf (fun _ => (⟨0, false⟩ : Slip)) lo ((m.map fun e => (e.1, { e.2 with done := false })).filter fun e => e.2.val ≠ 0) = true := by
  induction m generalizing lo with
  | nil => rfl
  | cons e m ih =>
    obtain ⟨k, v⟩ := e
    simp only [smWf, Bool.and_eq_true, decide_eq_true_eq] at h
    by_cases hv : v.val = 0
    · rw [List.map_cons, List.filter_cons_of_neg (by simpa using hv)]
      exact smWf_mono (ih h.2) (Nat.le_succ_of_le h.1.1)
    · rw [List.map_cons, List.filter_cons_of_pos (by simpa using hv)]
      simp only [smWf, Bool.and_eq_true, decide_eq_true_eq]
      exact ⟨⟨h.1.1, fun heq => hv (congrArg Slip.val heq)⟩, ih h.2⟩

/-! ### The Shell store -/

/-- A Shell store in canonical form. -/
def ShellWf (x : Shell) : Prop := smWf (fun _ => (0 : Byte)) 0 x.cells = true

theorem ShellWf.shellPut {x : Shell} (h : ShellWf x) {o : Nat} {bs : List Byte} : ShellWf (shellPut x o bs) := by
  have hfold (m : List (Nat × Byte)) (a : Nat) (hm : smWf (fun _ => (0 : Byte)) 0 m = true) :
      smWf (fun _ => (0 : Byte)) 0 (bs.foldl (fun (acc : List (Nat × Byte) × Nat) b =>
        (smSet (fun _ => (0 : Byte)) acc.2 b acc.1, acc.2 + 1)) (m, a)).1 = true := by
    induction bs generalizing m a with
    | nil => exact hm
    | cons b bs ih => exact ih _ _ (smWf_smSet hm (Nat.zero_le _) b)
  exact hfold x.cells o h

theorem ShellWf.writeRecord {x : Shell} (h : ShellWf x) {o : Nat} {body : List Byte} : ShellWf (writeRecord x o body) :=
  ShellWf.shellPut h

theorem ShellWf.rejectAdd {x : Shell} (h : ShellWf x) {dg : List Byte} : ShellWf (rejectAdd x dg) := ShellWf.shellPut h

theorem State.wf_shell (h : s.wf = true) : ShellWf s.shell := by
  simp only [State.wf, Bool.and_eq_true] at h
  simp_all only [ShellWf]

/-! ### States with a table replaced -/

theorem State.wf_withShell (h : s.wf = true) {x : Shell} (hx : ShellWf x) : State.wf { s with shell := x } = true := by
  have hs := h
  simp only [State.wf, Bool.and_eq_true] at hs ⊢
  simp_all only [ShellWf, and_self]

theorem State.wf_withRegs (h : s.wf = true) {m : List (Nat × Word)} (hm : smWf (resetReg s.part) 0 m = true) :
    State.wf { s with regs := m } = true := by
  have hs := h
  simp only [State.wf, Bool.and_eq_true] at hs ⊢
  simp_all only [and_self]

theorem State.wf_withTabs (h : s.wf = true) {m : List (Nat × Word)} (hm : smWf tabReset 0 m = true) :
    State.wf { s with tabs := m } = true := by
  have hs := h
  simp only [State.wf, Bool.and_eq_true] at hs ⊢
  simp_all only [and_self]

theorem State.wf_withMem (h : s.wf = true) {m : List Host.Cell} (hm : Memory.wf m = true) {e : List (Nat × EccMark)}
    (he : smWf (fun _ => EccMark.clean) 0 e = true) : State.wf { s with mem := m, ecc := e } = true := by
  have hs := h
  simp only [State.wf, Bool.and_eq_true] at hs ⊢
  simp_all only [and_self]

theorem State.wf_withSlip (h : s.wf = true) {m : List (Nat × Slip)} (hm : smWf (fun _ => (⟨0, false⟩ : Slip)) 0 m = true) :
    State.wf { s with slip := m } = true := by
  have hs := h
  simp only [State.wf, Bool.and_eq_true] at hs ⊢
  simp_all only [and_self]

theorem State.wf_withSaps (h : s.wf = true) {m : List (Nat × SapPort)} (hm : smWf (fun _ => SapPort.zero) 0 m = true) {x : Steer} :
    State.wf { s with saps := m, steer := x } = true := by
  have hs := h
  simp only [State.wf, Bool.and_eq_true] at hs ⊢
  simp_all only [and_self]

theorem State.wf_noStew (h : s.wf = true) : State.wf { s with stew := [] } = true := by
  have hnil : smWf Stew.zero 0 [] = true := rfl
  have hs := h
  simp only [State.wf, Bool.and_eq_true] at hs ⊢
  simp_all only [List.all_nil, and_self]

theorem State.wf_lookahead (h : s.wf = true) {k : Nat} {w : Word} {ls : List Line} :
    State.wf { s with laEff := smSet (fun _ => (0 : Word)) k w s.laEff, laHist := smSet (fun _ => ([] : List Line)) k ls s.laHist } = true := by
  have heff := smWf_smSet (State.wf_laEff h) (Nat.zero_le k) w
  have hhist := smWf_smSet (State.wf_laHist h) (Nat.zero_le k) ls
  have hs := h
  simp only [State.wf, Bool.and_eq_true] at hs ⊢
  simp_all only [and_self]

theorem State.wf_withTx (h : s.wf = true) {m : List (Nat × Word)} (hm : smWf (fun _ => (0 : Word)) 0 m = true) :
    State.wf { s with txOld := m } = true := by
  have hs := h
  simp only [State.wf, Bool.and_eq_true] at hs ⊢
  simp_all only [and_self]

/-- The lines published for the tick that ends become the lines of the next one (R28). -/
theorem State.wf_nextLines (h : s.wf = true) : State.wf { s with lines := s.pub, pub := [] } = true := by
  have hnil : smWf (fun _ => deadLine) 0 [] = true := rfl
  have hs := h
  simp only [State.wf, Bool.and_eq_true] at hs ⊢
  simp_all only [and_self]

namespace Keeps

theorem done (h : Keeps s t) : Keeps s (done t).1 := h

/-- A fold over states. -/
theorem folded {α : Type} {f : State → α → State} (hf : ∀ u x, Keeps s u → Keeps s (f u x)) (xs : List α) (h : Keeps s t) :
    Keeps s (xs.foldl f t) := by
  induction xs generalizing t with
  | nil => exact h
  | cons x xs ih => exact ih (hf t x h)

theorem withShell (h : Keeps s t) {x : Shell} (hx : ShellWf t.shell → ShellWf x) : Keeps s { t with shell := x } :=
  h.change rfl rfl rfl fun ht => State.wf_withShell ht (hx (State.wf_shell ht))

theorem dropTab (h : Keeps s t) {t' d lo hi : Nat} : Keeps s (dropTab t t' d lo hi) :=
  h.change rfl rfl rfl fun ht => State.wf_withTabs ht (smWf_smDrop (State.wf_tabs ht) _)

theorem dropRegs (h : Keeps s t) {d m : Nat} : Keeps s (dropRegs t d m) :=
  h.change rfl rfl rfl fun ht => State.wf_withRegs ht (smWf_filter (State.wf_regs ht) _)

theorem clearMem (h : Keeps s t) {lo hi : Nat} : Keeps s (clearMem t lo hi) :=
  h.trans ⟨rfl, rfl, fun hm => mem_wf_clearMem hm lo hi,
    fun ht => State.wf_withMem ht (mem_wf_filter (State.wf_mem ht) _) (smWf_smDrop (State.wf_ecc ht) _)⟩

theorem moveTab (h : Keeps s t) {t' d from_ to_ n : Nat} : Keeps s (moveTab t t' d from_ to_ n) := by
  have hdrop (p : Nat → Bool) : Keeps s { t with tabs := smDrop p t.tabs } :=
    h.change rfl rfl rfl fun ht => State.wf_withTabs ht (smWf_smDrop (State.wf_tabs ht) p)
  exact .each (hdrop _) fun _ _ hu => .setTab hu

theorem openSlips (h : Keeps s t) : Keeps s (openSlips t) :=
  h.change rfl rfl rfl fun ht => State.wf_withSlip ht (smWf_openSlips (State.wf_slip ht))

theorem laPulse (h : Keeps s t) {d n : Nat} : Keeps s (laPulse d n t) := 
  h.change rfl rfl rfl fun ht => State.wf_lookahead ht

theorem withTx (h : Keeps s t) : Keeps s { t with txOld := txViews t } :=
  h.change rfl rfl rfl fun ht => State.wf_withTx ht (smWf_txViews t)

theorem nextLines (h : Keeps s t) : Keeps s { t with lines := t.pub, pub := [] } := h.change rfl rfl rfl State.wf_nextLines

theorem dropSlips (h : Keeps s t) {p : Nat → Bool} : Keeps s { t with slip := smDrop p t.slip } :=
  h.change rfl rfl rfl fun ht => State.wf_withSlip ht (smWf_smDrop (State.wf_slip ht) p)

theorem dropSaps (h : Keeps s t) {p : Nat → Bool} {x : Steer} : Keeps s { t with saps := smDrop p t.saps, steer := x } :=
  h.change rfl rfl rfl fun ht => State.wf_withSaps ht (smWf_smDrop (State.wf_saps ht) p)

theorem noStew (h : Keeps s t) : Keeps s { t with stew := [] } := h.change rfl rfl rfl State.wf_noStew

end Keeps
end Sys2Proof.Machine
end

section
/-! PROOFS. What every step keeps, for operand accesses and for the bodies of instructions. -/
namespace Sys2Proof.Machine

variable {s t : State}

/-- An operand access whose state, where it has one, keeps what `Keeps` says of `s`. -/
def Reads {α : Type} (s : State) : Got α → Prop
  | .ok _ t | .busErr t | .unc t | .unowned t => Keeps s t
  | .later => True

/-- A body whose state, where it has one, keeps what `Keeps` says of `s`. -/
def Does (s : State) : Eff → Prop
  | .done t | .jump t | .exc _ _ t | .fault _ t => Keeps s t
  | .later => True

namespace Does

theorem done (h : Keeps s t) : Does s (.done t) := h

theorem jump (h : Keeps s t) : Does s (.jump t) := h

theorem exc (h : Keeps s t) {vec code : Nat} : Does s (.exc vec code t) := h

theorem ite {c : Prop} {_ : Decidable c} {x y : Eff} (hx : Does s x) (hy : Does s y) : Does s (if c then x else y) := by
  split
  · exact hx
  · exact hy

end Does

namespace Reads

variable {α β : Type}

theorem ok (h : Keeps s t) {v : α} : Reads s (.ok v t) := h

theorem ite {c : Prop} {_ : Decidable c} {x y : Got α} (hx : Reads s x) (hy : Reads s y) : Reads s (if c then x else y) := by
  split
  · exact hx
  · exact hy

theorem andThen {g : Got α} {f : α → State → Got β} (h : Reads s g) (hf : ∀ v u, Keeps s u → Reads s (f v u)) :
    Reads s (g.andThen f) := by
  cases g with
  | ok v u => exact hf v u h
  | busErr u => exact h
  | unc u => exact h
  | unowned u => exact h
  | later => trivial

end Reads

/-- A body from an operand access. -/
theorem Does.toEff {α : Type} {g : Got α} {m : Mode} {f : α → State → Eff} (h : Reads s g) (hf : ∀ v u, Keeps s u → Does s (f v u)) :
    Does s (g.toEff m f) := by
  cases g with
  | ok v u => exact hf v u h
  | busErr u => exact h
  | unc u => exact Does.ite (c := m = .sample) (x := .fault 2 u) h h
  | unowned u => exact h
  | later => trivial

namespace Keeps

variable {α : Type} {g : Got α}

theorem ofGot {v : α} (heq : g = .ok v t) (h : Reads s g) : Keeps s t := by
  rw [heq] at h
  exact h

theorem ofBusErr (heq : g = .busErr t) (h : Reads s g) : Keeps s t := by
  rw [heq] at h
  exact h

theorem ofUnc (heq : g = .unc t) (h : Reads s g) : Keeps s t := by
  rw [heq] at h
  exact h

end Keeps

end Sys2Proof.Machine
end

section
/-! PROOFS. What every step keeps: queues, the governor, admission and domains (R42–R54, R169–R185, R369–R371, R408–R423). -/
namespace Sys2Proof.Machine

-- Elaborated in turn, the rules need less memory than side by side.
set_option Elab.async false
variable {s t : State}

theorem Keeps.updRegs (h : Keeps s t) {c : CoreRef} {f : Regs → Regs} (hf : RegsKept f) : Keeps s (updRegs t c f) :=
  .setCore h fun hs => Core.wf_of (h.coreOf hs) (hf _ (Core.wf_r (h.coreOf hs))) rfl rfl rfl

theorem Keeps.orderRepair (h : Keeps s t) {d p row : Nat} : Keeps s (orderRepair t d p row) :=
  .ite h (.ite (.setFld (.setRows h)) (.ite (.setRows h) (.setFld (.setRows h))))

theorem Keeps.tallyRow (h : Keeps s t) {d p row : Nat} : Keeps s (tallyRow t d p row) :=
  .ite (.orderRepair (.setRows h)) (.setRows h)

theorem Keeps.hoardCorrected (h : Keeps s t) {d p w : Nat} : Keeps s (hoardCorrected t d p w) :=
  .tallyRow (.setEcc (.setFld (.setFld (.satFld h))))

theorem Keeps.hoardUncorrectable (h : Keeps s t) {d p w : Nat} : Keeps s (hoardUncorrectable t d p w) :=
  .orderRepair (.setFld (.setFld (.satFld h)))

theorem Keeps.kernelCorrected (h : Keeps s t) {d k mem : Nat} {bankB : Bool} {w a : Nat} :
    Keeps s (kernelCorrected t d k mem bankB w a) :=
  .setEcc (.setFld (.setFld (.setFld (.satFld h))))

theorem Keeps.scrubKernel (h : Keeps s t) {d k lo hi : Nat} : Keeps s (scrubKernel t d k lo hi) :=
  .each h fun _ _ hu => .kernelCorrected hu

theorem Keeps.wmLine (h : Keeps s t) {d line : Nat} : Keeps s (wmLine t d line).1 := by
  unfold Machine.wmLine
  dsimp only
  split
  · exact h
  · exact .tallyRow (.satFld (.setEcc h))
  · exact .orderRepair (.satFld h)

theorem Keeps.wmLines (h : Keeps s t) {d loc n : Nat} : Keeps s (wmLines t d loc n).1 := by
  refine .foldl (fun acc i hacc => ?_) _ h
  exact .wmLine hacc

theorem Keeps.wmFresh (h : Keeps s t) {d loc n : Nat} : Keeps s (wmFresh t d loc n) := .each h fun _ _ hu => .setEcc hu

theorem Keeps.setQueueCount (h : Keeps s t) {d q n : Nat} : Keeps s (setQueueCount t d q n) := .setFld (.setFld (.setFld h))

theorem Keeps.storeEntry (h : Keeps s t) {d q e : Nat} {ws : List Word} : Keeps s (storeEntry t d q e ws) :=
  .wmFresh (.each h fun _ _ hu => .storeW hu)

theorem Keeps.queueDrop (h : Keeps s t) {d q : Nat} : Keeps s (queueDrop t d q) := .setQueueCount (.setFld h)

theorem Keeps.queueAppend (h : Keeps s t) {d q : Nat} {ws : List Word} : Keeps s (queueAppend t d q ws) :=
  .setQueueCount (.setFld (.storeEntry h))

theorem Keeps.queuePush (h : Keeps s t) {d q : Nat} {ws : List Word} : Keeps s (queuePush t d q ws) :=
  .ite (.incReg h) (.ite (.queueAppend h) (.ite (.queueAppend (.queueDrop (.setFld (.incReg h)))) (.setFld (.incReg h))))

theorem Keeps.queueLines (h : Keeps s t) {d q : Nat} : Keeps s (queueLines t d q).1 := .wmLines h

theorem Keeps.queueTake (h : Keeps s t) {d q : Nat} : Keeps s (queueTake t d q).1 :=
  .queueDrop (.ite (.queueLines h) (.others (.queueLines h)))

theorem Keeps.queuePop (h : Keeps s t) {d q : Nat} {a : Access} : Keeps s (queuePop t d q a).1 :=
  .ite' (.each (.queueTake h) fun _ _ hu => .setTab hu) (.each (.setFld h) fun _ _ hu => .setTab hu)

theorem Keeps.queuePushData (h : Keeps s t) {d q : Nat} {a : Access} {w : Word} : Keeps s (queuePushData t d q a w) :=
  .each (.queuePush h) fun _ _ hu => .setTab hu

theorem Keeps.postEvent (h : Keeps s t) {d k ty fcode number : Nat} : Keeps s (postEvent t d k ty fcode number) := .queuePush h

theorem Keeps.spareLog (h : Keeps s t) {d ty a b c : Nat} : Keeps s (spareLog t d ty a b c) :=
  .incReg (.setTab (.setTab (.each h fun _ _ hu => .setTab (.setTab hu))))

theorem Keeps.setSpares (h : Keeps s t) {d p : Nat} {slots : List Nat} : Keeps s (setSpares t d p slots) :=
  .setFld (.setFld (.setFld (.setFld h)))

theorem Keeps.dropSpare (h : Keeps s t) {d p i : Nat} : Keeps s (dropSpare t d p i) := .setPodX (.setSpares h)

theorem Keeps.spareTrigger (h : Keeps s t) {d k cause : Nat} : Keeps s (spareTrigger t d k cause) := .setPodX h

theorem Keeps.setPoint (h : Keeps s t) {d vid : Nat} {bb : Int} : Keeps s (setPoint t d vid bb) := .setFld (.setFld (.setFld h))

theorem Keeps.frozenPoint (h : Keeps s t) {d : Nat} : Keeps s (frozenPoint t d) := .ite (.setFld (.setFld h)) h

theorem Keeps.retainPoint (h : Keeps s t) {d : Nat} : Keeps s (retainPoint t d) := .setFld (.setFld (.setFld h))

theorem Keeps.capPoint (h : Keeps s t) {d : Nat} : Keeps s (capPoint t d) :=
  .ite (.retainPoint h) (.ite (.setPoint h) (.ite (.setPoint h) (.frozenPoint h)))

theorem Keeps.govRefresh (h : Keeps s t) {d : Nat} : Keeps s (govRefresh t d) := by
  unfold Machine.govRefresh
  extract_lets a t1 t2 x
  have h1 : Keeps s t1 := .capPoint h
  have h2 : Keeps s t2 := .setFld (.setFld (.setFld h1))
  exact .ite h2 (.setDieX (.setFld h2))

theorem Keeps.govPrep (h : Keeps s t) {d target : Nat} : Keeps s (govPrep t d target) :=
  .ite (.setDieX (.setFld (.setPoint h))) h

theorem Keeps.govCapture (h : Keeps s t) {d : Nat} {w : Option (Nat × Int)} : Keeps s (govCapture t d w) := by
  unfold Machine.govCapture
  dsimp only
  split
  · exact .setFld (.setFld h)
  · exact .ite (.setFld (.setFld (.setFld (.setFld h)))) (.setFld (.setFld h))

theorem Keeps.govClamp (h : Keeps s t) {d : Nat} : Keeps s (govClamp t d) := .ite (.ite h (.setPoint h)) h

theorem Keeps.govPulse (h : Keeps s t) {d : Nat} {w : Option (Nat × Int)} : Keeps s (govPulse t d w) := by
  unfold Machine.govPulse
  extract_lets t1 x a atTop
  have h1 : Keeps s t1 := .govClamp (.govCapture h)
  split
  · exact .setFld h1
  · exact .ite (.setDieX (.setFld h1)) (.ite (.setDieX (.setFld h1)) (.setDieX (.setFld h1)))

theorem Answers.execGovRaise (h : Keeps s t) {d : Nat} : Answers s (execGovRaise d t) :=
  .onUnit (.whenDue h (.setDieX (.setPoint h)))

theorem Keeps.lowerPoint (h : Keeps s t) {d : Nat} : Keeps s (lowerPoint t d) :=
  .ite (.setPoint h) (.ite (.setPoint h) (.ite (.ite (.setPoint h) (.ite (.setPoint h) h)) h))

theorem Answers.execGovLower (h : Keeps s t) {d : Nat} : Answers s (execGovLower d t) :=
  .onUnit (.whenDue h (.setDieX (.lowerPoint h)))

theorem Answers.execGovPrepEnd (h : Keeps s t) {d : Nat} : Answers s (execGovPrepEnd d t) := by
  refine .onUnit ?_
  split
  · exact .whenDue h (.setDieX (.setFld h))
  · exact .next h

theorem Keeps.escalate (h : Keeps s t) {d k : Nat} : Keeps s (escalate t d k) :=
  .ite (.sameKern h) (.ite (.sameKern h) (.ite (.setDieX (.satFld (.setPoint (.sameKern h)))) (.spareTrigger (.satFld
    (.sameKern h)))))

theorem Keeps.wearTick (h : Keeps s t) {d k : Nat} : Keeps s (wearTick t d k) := by
  unfold Machine.wearTick
  dsimp only
  split
  · exact .sameKern h
  · exact h

theorem Answers.execWearReport (h : Keeps s t) {d k : Nat} : Answers s (execWearReport d k t) :=
  .onUnit (.whenDue h (.ite (.spareTrigger (.setTab (.sameKern h))) (.setTab (.sameKern h))))

theorem Keeps.scrubBank (h : Keeps s t) {d k : Nat} {bankB : Bool} : Keeps s (scrubBank t d k bankB) := .ite h (.scrubKernel h)

theorem Keeps.logRefusal (h : Keeps s t) {d k : Nat} {bankB : Bool} {code a : Nat} : Keeps s (logRefusal t d k bankB code a) :=
  .ite (.incReg h) (.setReg (.incReg h))

theorem Keeps.loadHoardMode (h : Keeps s t) {d k j : Nat} : Keeps s (loadHoardMode t d k j) :=
  .setKern h fun hs => Core.wf_of (h.kernCore hs) (Core.wf_r (h.kernCore hs)) rfl rfl rfl

theorem Keeps.recountPod (h : Keeps s t) {d p : Nat} : Keeps s (recountPod t d p) := .each h fun _ _ hu => .setFld hu

theorem Keeps.startKernel (h : Keeps s t) {d : Nat} {res : Refusals × List (Nat × Nat)} {c : Cand} :
    Keeps s (startKernel d res c t) := by
  unfold Machine.startKernel
  extract_lets x kn t1
  have h1 : Keeps s t1 := .ite (.setFld h) h
  split
  · exact .logRefusal (.kernFrom h1 h)
  · refine .setKern h1 fun hs => ?_
    have hk : kn.core.wf = true := h.kernCore (d := d) (k := c.k) hs
    split
    · exact hk
    · exact Core.wf_enterRun hk

theorem Keeps.admitStart (h : Keeps s t) {d p : Nat} : Keeps s (admitStart d p t) := by
  unfold Machine.admitStart
  extract_lets t1 t2 cs
  have h1 : Keeps s t1 := .each h fun _ _ hu => .loadHoardMode hu
  have h2 : Keeps s t2 := .each h1 fun _ _ hu => .scrubBank hu
  exact .ite (.each h2 fun _ _ hu => .startKernel hu) (.each h2 fun _ _ hu => .startKernel hu)

theorem Keeps.admitRejoin (h : Keeps s t) {d k : Nat} : Keeps s (admitRejoin d k t) := by
  unfold Machine.admitRejoin
  extract_lets kn t1 c high res t2 t3 t4
  have h1 : Keeps s t1 := .scrubBank h
  have h2 : Keeps s t2 := .ite (.setFld h1) h1
  split
  · exact .logRefusal (.kernFrom h2 h)
  · have h4 : Keeps s t4 := .loadHoardMode (.each (.kernFrom h2 h) fun _ _ hu => .setFld hu)
    exact .ite (.govPrep h4) h4

theorem Keeps.admitSwap (h : Keeps s t) {d : Nat} {ms : List Nat} {target : Nat} : Keeps s (admitSwap d ms target t).1 := by
  refine .ite ?_ ?_
  · refine .govPrep ?_
    refine .each (.each h fun _ _ hu => .scrubBank hu) fun _ _ hu => ?_
    split
    · exact .logRefusal (.setFld hu)
    · exact .setFld hu
  · refine .each (.each h fun _ _ hu => .scrubBank hu) fun _ _ hu => ?_
    split
    · exact .logRefusal (.setFld hu)
    · exact .setFld hu

theorem Keeps.withdraw (h : Keeps s t) {d k : Nat} : Keeps s (withdraw t d k) := .setFld h

theorem Keeps.noteEntry (h : Keeps s t) {d : Nat} {abort : Bool} {client domain : Nat} :
    Keeps s (noteEntry t d abort client domain) :=
  .ite (.setFld (.satFld h)) (.setReg (.setFld (.satFld h)))

theorem Keeps.refuseEntry (h : Keeps s t) {d m c : Nat} : Keeps s (refuseEntry t d m c) := .ite h (.noteEntry (.setDom h))

theorem Keeps.exitPrep (h : Keeps s t) {d m : Nat} : Keeps s (exitPrep t d m) := .ite (.govPrep h) h

theorem Keeps.moveDom (h : Keeps s t) {d m : Nat} {x : DomX} : Keeps s (moveDom t d m x) := by
  unfold Machine.moveDom
  split
  · exact .exitPrep (.setDom h)
  · exact .setDom h

theorem Keeps.recheckEntry (h : Keeps s t) {d m : Nat} : Keeps s (recheckEntry d m t) := by
  unfold Machine.recheckEntry
  dsimp only
  split
  · exact .refuseEntry (.moveDom h)
  · exact h

theorem Keeps.retarget (h : Keeps s t) {wake : Option Nat} {d m : Nat} : Keeps s (retarget wake d m t) := by
  unfold Machine.retarget
  extract_lets x t' y t1
  have h1 : Keeps s t1 := .setDom (.satFld h)
  refine .ite h ?_
  split
  · exact .ite (.noteEntry (.moveDom h)) h1
  · exact h1
  · exact h1
  · exact .setDom h

theorem Keeps.syncDomain (h : Keeps s t) {wake : Option Nat} {d m : Nat} : Keeps s (syncDomain wake d m t) :=
  .recheckEntry (.retarget h)

theorem Keeps.powerSync (h : Keeps s t) {d : Nat} : Keeps s (powerSync t d) := .each h fun _ _ hu => .syncDomain hu

theorem Keeps.powerSyncAll (h : Keeps s t) {wake : Option Nat} : Keeps s (powerSyncAll t wake) :=
  .each h fun _ _ hu => .each hu fun _ _ hv => .syncDomain hv

theorem Answers.fromPads (h : Keeps s t) {d m : Nat} {o : Out} (ho : Answers s o) :
    Answers s (fromPads t d m o) := .ite (.next h) ho

theorem Keeps.portSend (h : Keeps s t) {d : Nat} {p : Packet} {fast : Bool} : Keeps s (portSend t d p fast) := .setLinkPort h

theorem Keeps.countDrop (h : Keeps s t) {d : Nat} : Keeps s (countDrop t d) := .incFld h

theorem Keeps.routeSend (h : Keeps s t) {d : Nat} {p : Packet} {fast : Bool} : Keeps s (routeSend t d p fast) :=
  .ite (.setLinkPort h) (.portSend h)

theorem Keeps.noteSeen (h : Keeps s t) {p : Packet} : Keeps s (noteSeen t p) := .others h

theorem Keeps.deviceSend (h : Keeps s t) {d : Nat} {p : Packet} {fast : Bool} : Keeps s (deviceSend t d p fast) := by
  refine .ite (.each (.noteSeen h) fun _ _ hu => .ite (.portSend hu) hu) ?_
  refine .ite (.setLinkPort h) ?_
  split
  · exact .routeSend h
  · exact .countDrop h

end Sys2Proof.Machine
end

section
/-! PROOFS. What every step keeps: bridges, swaps, caravans and LPDDR4X (R186–R239). -/
namespace Sys2Proof.Machine

-- Elaborated in turn, the rules need less memory than side by side.
set_option Elab.async false
variable {s t : State}

theorem Keeps.setPortBit (h : Keeps s t) {a : Nat} {f : Fld} {n : Nat} {b : Bool} : Keeps s (setPortBit t a f n b) := .setFld h

theorem Keeps.sendTransfers (h : Keeps s t) {d : Nat} : Keeps s (sendTransfers t d) := .each h fun _ _ hu => .setBridge hu

theorem Keeps.switchTable (h : Keeps s t) {d n : Nat} : Keeps s (switchTable t d n) := .setBridge (.setPortBit h)

theorem Keeps.failPort (h : Keeps s t) {d n : Nat} : Keeps s (failPort t d n) := .ite (.incReg (.setBridge h)) (.setBridge h)

theorem Keeps.publishImport {acc : State × List Nat} (h : Keeps s acc.1) {d : Nat} {e : Nat × Line} :
    Keeps s (publishImport d acc e).1 :=
  .publish (.ite (.ite h (.setFld (.setFld h))) h)

theorem Keeps.publishImports (h : Keeps s t) {d : Nat} : Keeps s (publishImports t d) := by
  refine .foldl (fun acc x hacc => ?_) _ h
  refine .ite' hacc ?_
  split
  · refine .foldl (fun acc x hacc => ?_) _ (.setBridge hacc)
    exact .publishImport hacc
  · exact .ite' (.each hacc fun _ _ hv => .publish hv) (.each (.ite hacc (.failPort hacc)) fun _ _ hv => .publish hv)

theorem Keeps.switchRow (h : Keeps s t) {d p row : Nat} : Keeps s (switchRow d p row t) := by
  refine .ite ?_ ?_
  · refine .spareLog ?_
    refine .setFld ?_
    refine .setFld ?_
    refine .setFld ?_
    refine .each h fun _ _ hu => ?_
    split
    · exact .setEcc (.storeBytes hu)
    · exact .setEcc hu
  · refine .spareLog ?_
    refine .setFld ?_
    refine .setFld ?_
    refine .setFld ?_
    refine .each h fun _ _ hu => ?_
    split
    · exact .setEcc (.storeBytes hu)
    · exact .setEcc hu

theorem Keeps.switchRows (h : Keeps s t) {d : Nat} : Keeps s (switchRows t d) :=
  .each h fun _ _ hu => .setRows (.each hu fun _ _ hv => .switchRow hv)

theorem Answers.execRowRepairCopyDone (h : Keeps s t) {d p : Nat} : Answers s (execRowRepairCopyDone d p t) := by
  refine .onUnit ?_
  split
  · exact .whenDue h (.ite (.setFld (.setRows h)) (.setRows h))
  · exact .next h

theorem Answers.execBridgeTransferRx (h : Keeps s t) {d n : Nat} : Answers s (execBridgeTransferRx d n t) := by
  refine .onUnit ?_
  split
  · exact .whenDue h (.setBridge h)
  · exact .next h

theorem Answers.execBridgeTransferFail (h : Keeps s t) {d n : Nat} : Answers s (execBridgeTransferFail d n t) :=
  .onUnit (.whenDue h (.failPort h))

theorem Answers.execBridgeHoldExpire (h : Keeps s t) {d n : Nat} : Answers s (execBridgeHoldExpire d n t) :=
  .onUnit (.whenDue h (.setBridge h))

theorem Answers.execBridgeTableSwitch (h : Keeps s t) {d n : Nat} : Answers s (execBridgeTableSwitch d n t) :=
  .onUnit (.whenDue h (.switchTable (.setBridge h)))

theorem Keeps.recordSwap (h : Keeps s t) {d group target result detail who : Nat} :
    Keeps s (recordSwap t d group target result detail who) :=
  .satFld (.setReg (.setReg (.setFld (.setFld (.setFld (.setFld h))))))

theorem Keeps.reportSwap (h : Keeps s t) {r : SwapReq} {result detail who : Nat} : Keeps s (reportSwap t r result detail who) := by
  unfold Machine.reportSwap
  extract_lets t1
  have h1 : Keeps s t1 := .recordSwap h
  split
  · exact .ite h1 (.deviceSend h1)
  · exact h1

theorem Keeps.splitSwap (h : Keeps s t) {r : SwapReq} {result detail who : Nat} : Keeps s (splitSwap t r result detail who) :=
  .ite h (.reportSwap (.others h))

theorem Keeps.dropSwap (h : Keeps s t) {r : SwapReq} : Keeps s (dropSwap t r) := .powerSyncAll (.others h)

theorem Keeps.endSwap (h : Keeps s t) {r : SwapReq} {result detail who : Nat} : Keeps s (endSwap t r result detail who) :=
  .reportSwap (.dropSwap h)

theorem Keeps.setJob (h : Keeps s t) {r : SwapReq} {d : Nat} {j : Job} : Keeps s (setJob t r d j) := .others h

theorem Keeps.swapDirect (h : Keeps s t) {d kind unit : Nat} : Keeps s (swapDirect t d kind unit) := by
  unfold Machine.swapDirect
  dsimp only
  split
  · exact h
  · exact .ite (.splitSwap (.others h)) (.endSwap h)

theorem Keeps.withdrawBank (h : Keeps s t) {d k : Nat} : Keeps s (withdrawBank t d k) := by
  refine .ite h ?_
  extract_lets t1
  have h1 : Keeps s t1 := .withdraw h
  split
  · exact .logRefusal (.setJob h1)
  · exact h1

theorem Keeps.withdrawActive (h : Keeps s t) {d k : Nat} : Keeps s (withdrawActive t d k) := .ite (.sameKern h) h

theorem Keeps.withdrawBy (h : Keeps s t) {d k : Nat} {bankB : Bool} : Keeps s (withdrawBy t d k bankB) :=
  .ite (.withdrawActive h) (.withdrawBank h)

theorem Keeps.busyWho (h : Keeps s t) {d g detail : Nat} : Keeps s (busyWho t d g detail).1 := by
  unfold Machine.busyWho
  split
  · exact .others h
  · exact h

theorem Keeps.requestSwap (h : Keeps s t) {d group low : Nat} {yonly : Bool} {origin : Option Nat} :
    Keeps s (requestSwap t d group low yonly origin) :=
  .ite (.reportSwap h) (.ite (.reportSwap h) (.ite (.reportSwap (.busyWho h)) (.ite (.reportSwap h) (.each (.powerSyncAll
    (.others h)) fun _ _ hu => .deviceSend hu))))

theorem Keeps.fadeFlag (h : Keeps s t) {d e bit : Nat} {b : Bool} : Keeps s (fadeFlag t d e bit b) := .setTab h

theorem Keeps.fadeClear (h : Keeps s t) {d e : Nat} : Keeps s (fadeClear t d e) := .fadeFlag (.fadeFlag (.setTab h))

theorem Keeps.fadeBegin (h : Keeps s t) {d e : Nat} : Keeps s (fadeBegin d e t) :=
  .ite h (.ite (.fadeClear h) (.setTab (.fadeFlag (.fadeFlag h))))

theorem Keeps.ddrTouch (h : Keeps s t) {d : Nat} : Keeps s (ddrTouch t d) := .setDdr h

theorem Keeps.startTraining (h : Keeps s t) {d : Nat} : Keeps s (startTraining t d) := .setDdr (.setFld (.setFld h))

theorem Keeps.ddrCtlWrite (h : Keeps s t) {d : Nat} {v : Word} : Keeps s (ddrCtlWrite t d v) := by
  unfold Machine.ddrCtlWrite
  extract_lets a was en big t1 x
  have h1 : Keeps s t1 := .setFld h
  exact .ite (.setFld h) (.ite (.setDdr (.setFld (.setFld h1))) (.ite (.startTraining h1)
    (.ite (.ite (.setDdr h1) (.startTraining h1)) h1)))

theorem Keeps.ddrCfgWrite (h : Keeps s t) {d : Nat} {v : Word} : Keeps s (ddrCfgWrite t d v) := by
  refine .ite (.setFld h) ?_
  split
  · exact .setReg h
  · exact h

theorem Keeps.shareWrite (h : Keeps s t) {d p : Nat} {v : Word} : Keeps s (shareWrite t d p v) := .ite (.setFld h) (.setReg h)

theorem Keeps.setCarWord (h : Keeps s t) {d p t' e w : Nat} {v : Word} : Keeps s (setCarWord t d p t' e w v) := .setTab h

theorem Keeps.carReject (h : Keeps s t) {d p code : Nat} : Keeps s (carReject t d p code) := .setFld (.setFld h)

theorem Keeps.carRestart (h : Keeps s t) {d p t' : Nat} : Keeps s (carRestart t d p t') :=
  .each h fun _ _ hu => .setCarWord (.setCarWord hu)

theorem Keeps.carRelease (h : Keeps s t) {d p t' : Nat} : Keeps s (carRelease t d p t') := .each h fun _ _ hu => .setCarWord hu

theorem Keeps.carSwitch (h : Keeps s t) {d p : Nat} : Keeps s (carSwitch t d p) :=
  .carRestart (.setCaravan (.setFld (.carRelease h)))

theorem Keeps.carSwapGo (h : Keeps s t) {d p : Nat} : Keeps s (carSwapGo t d p) := .swapDirect (.setFld (.setCaravan h))

theorem Keeps.carDrop (h : Keeps s t) {d p : Nat} : Keeps s (carDrop t d p) := .setCaravan (.setFld h)

theorem Keeps.carAdvance (h : Keeps s t) {d p t' e : Nat} {c : CarEntry} : Keeps s (carAdvance t d p t' e c) :=
  .setCarWord (.setCarWord h)

theorem Keeps.carLate (h : Keeps s t) {d p e : Nat} {store : Bool} {tick : Nat} : Keeps s (carLate t d p e store tick) :=
  .ite (.incReg h) (.setReg (.incReg h))

theorem Keeps.ddrWrite (h : Keeps s t) {d loc : Nat} {bs : List Byte} : Keeps s (ddrWrite t d loc bs) :=
  .ddrTouch (.each (.foldl (fun _ _ hacc => .storeByte hacc) _ h) fun _ _ hu => .setCaravan hu)

theorem Keeps.carServe (h : Keeps s t) {d p e : Nat} {c : CarEntry} : Keeps s (carServe t d p e c) :=
  .setCaravan (.carAdvance h)

theorem Keeps.carLaunch (h : Keeps s t) {d p : Nat} {f : Flight} : Keeps s (carLaunch t d p f) := .ddrTouch (.setCaravan h)

theorem Keeps.carLand (h : Keeps s t) {d p : Nat} {f : Flight} : Keeps s (carLand t d p f) := .setCaravan h

theorem Answers.execCaravanFetchIssue (h : Keeps s t) {d p e : Nat} : Answers s (execCaravanFetchIssue d p e t) := by
  refine .onUnit ?_
  split
  · exact .next (.ite (.carServe h) (.carLaunch (.carServe h)))
  · exact .next h

theorem Keeps.hoardBlock (h : Keeps s t) {d p : Nat} {f : Flight} : Keeps s (hoardBlock d p f t) :=
  .each h fun _ _ hu => .setEcc (.storeW hu)

theorem Answers.execCaravanFetchStaged (h : Keeps s t) {d p e : Nat} : Answers s (execCaravanFetchStaged d p e t) := by
  refine .onUnit ?_
  split
  · exact .whenDue h (.ddrTouch (.hoardBlock (.carLand h)))
  · exact .next h

theorem Answers.execCaravanFetchLate (h : Keeps s t) {d p e : Nat} : Answers s (execCaravanFetchLate d p e t) := by
  refine .onUnit ?_
  split
  · exact .whenDue h (.carLate (.carLand h))
  · exact .next h

theorem Keeps.storeEcc (h : Keeps s t) {d p : Nat} {f : Flight} : Keeps s (storeEcc d p f t) := by
  refine .each h fun _ _ hu => ?_
  split
  · exact hu
  · exact .hoardCorrected hu
  · exact .hoardUncorrectable hu

theorem Answers.execCaravanStoreIssue (h : Keeps s t) {d p e : Nat} : Answers s (execCaravanStoreIssue d p e t) := by
  refine .onUnit ?_
  split
  · exact .ite (.next (.carServe h)) (.ite (.next (.carLate (.carServe h))) (.next (.storeEcc (.carLaunch (.carServe h)))))
  · exact .next h

theorem Answers.execCaravanStoreDone (h : Keeps s t) {d p e : Nat} : Answers s (execCaravanStoreDone d p e t) := by
  refine .onUnit ?_
  split
  · exact .whenDue h (.ddrTouch (.each (.carLand h) fun _ _ hu => .storeW hu))
  · exact .next h

theorem Answers.execCaravanTableCheckDone (h : Keeps s t) {d p : Nat} : Answers s (execCaravanTableCheckDone d p t) :=
  .onUnit (.whenDue h (.ite (.setCaravan h) (.carReject (.carDrop h))))

theorem Answers.execCaravanTableSwitch (h : Keeps s t) {d p : Nat} : Answers s (execCaravanTableSwitch d p t) :=
  .onUnit (.whenDue h (.carSwitch (.carDrop h)))

theorem Answers.execDdrTrainingDone (h : Keeps s t) {d : Nat} {ok : Bool} : Answers s (execDdrTrainingDone d ok t) :=
  .onUnit (.whenDue h (.ite (.setFld (.setFld h)) (.setFld (.setFld h))))

theorem Answers.execDdrRefreshDue (h : Keeps s t) {d : Nat} : Answers s (execDdrRefreshDue d t) :=
  .onUnit (.whenDue h (.ite (.setDdr (.setFld (.incReg h))) (.setDdr h)))

theorem Answers.execDdrRefreshIssue (h : Keeps s t) {d : Nat} : Answers s (execDdrRefreshIssue d t) :=
  .onUnit (.whenDue h (.setDdr h))

theorem Answers.execDdrWindowOpen (h : Keeps s t) {d : Nat} : Answers s (execDdrWindowOpen d t) :=
  .onUnit (.whenDue h (.setDdr h))

theorem Keeps.closeWindow (h : Keeps s t) {d : Nat} : Keeps s (closeWindow t d) := .ite (.startTraining (.setDdr h)) (.setDdr h)

theorem Answers.execDdrWindowClose (h : Keeps s t) {d : Nat} : Answers s (execDdrWindowClose d t) :=
  .onUnit (.whenDue h (.closeWindow h))

theorem Answers.execDdrZqCalibration (h : Keeps s t) {d : Nat} : Answers s (execDdrZqCalibration d t) := .onUnit (.whenDue h h)

theorem Answers.execDdrMr4Poll (h : Keeps s t) {d mul : Nat} : Answers s (execDdrMr4Poll d mul t) :=
  .onUnit (.whenDue h (.setFld h))

theorem Answers.execDdrPowerDown (h : Keeps s t) {d : Nat} : Answers s (execDdrPowerDown d t) :=
  .onUnit (.whenDue h (.setDdr h))

theorem Keeps.ddrPulse (h : Keeps s t) {d : Nat} : Keeps s (ddrPulse t d) :=
  .each (.setDdr (.ite (.closeWindow h) h)) fun _ _ hu => .setCaravan hu

theorem Keeps.busError (h : Keeps s t) {d kind addr : Nat} {a : Access} {write : Bool} : Keeps s (busError t d kind addr a write) :=
  .ite h (.setReg (.setReg h))

theorem Keeps.dmaReadPage (h : Keeps s t) {d loc n : Nat} {a : Access} : Keeps s (dmaReadPage t d loc n a).1 := by
  unfold Machine.dmaReadPage
  dsimp only
  split
  · exact .others (.busError h)
  · exact .ite' (.ite' (.wmLines h) (.others (.busError (.wmLines h)))) (.ddrTouch h)

theorem Keeps.dmaWritePage (h : Keeps s t) {d loc : Nat} {bs : List Byte} {a : Access} : Keeps s (dmaWritePage t d loc bs a) := by
  unfold Machine.dmaWritePage
  split
  · exact .busError h
  · exact .ite (.wmFresh (.foldl (fun _ _ hacc => .storeByte hacc) _ h)) (.ddrWrite h)

theorem Keeps.dmaRead (h : Keeps s t) {d loc n : Nat} {a : Access} : Keeps s (dmaRead t d loc n a).1 :=
  .ite' (.dmaReadPage h) (.dmaReadPage (.dmaReadPage h))

theorem Keeps.dmaWrite (h : Keeps s t) {d loc : Nat} {bs : List Byte} {a : Access} : Keeps s (dmaWrite t d loc bs a) :=
  .ite (.dmaWritePage h) (.dmaWritePage (.dmaWritePage h))

end Sys2Proof.Machine
end

section
/-! PROOFS. What every step keeps: sample ports and biphase ports (R240–R290). -/
namespace Sys2Proof.Machine

-- Elaborated in turn, the rules need less memory than side by side.
set_option Elab.async false
variable {s t : State}

theorem Keeps.pdmTake (h : Keeps s t) {d m : Nat} {f : SapFrame} : Keeps s (pdmTake t d m f) := .setSap h

theorem Keeps.ringRead (h : Keeps s t) {d base size o n : Nat} : Keeps s (ringRead t d base size o n).1 := by
  refine .foldl (fun acc p hacc => ?_) _ h
  exact .dmaRead hacc

theorem Keeps.ringWrite (h : Keeps s t) {d base size o : Nat} {bs : List Byte} : Keeps s (ringWrite t d base size o bs) :=
  .foldl (fun _ _ hacc => .dmaWrite hacc) _ h

theorem Keeps.sapGainStat (h : Keeps s t) {d m : Nat} : Keeps s (sapGainStat t d m) := .setFld (.setFld h)

theorem Keeps.setSapState (h : Keeps s t) {d m st : Nat} : Keeps s (setSapState t d m st) :=
  .powerSync (.sapGainStat (.setFld (.setFld h)))

theorem Keeps.sapFlag (h : Keeps s t) {d m : Nat} {f : Fld} : Keeps s (sapFlag t d m f) := .setFld h

theorem Keeps.sapStop (h : Keeps s t) {d m : Nat} {flag : Bool} : Keeps s (sapStop t d m flag) := by
  unfold Machine.sapStop
  extract_lets t1 t2 t3
  have h1 : Keeps s t1 := .setSap h
  have h2 : Keeps s t2 := .ite (.setFld (.setFld h1)) h1
  have h3 : Keeps s t3 := .setSapState h2
  exact .ite (.sapFlag h3) h3

theorem Keeps.sapArm (h : Keeps s t) {d m : Nat} : Keeps s (sapArm t d m) :=
  .ite (.setFld (.sapFlag h)) (.setSapState (.setSap h))

theorem Keeps.sapCtlWrite (h : Keeps s t) {d m : Nat} {v : Word} : Keeps s (sapCtlWrite t d m v) := by
  unfold Machine.sapCtlWrite
  extract_lets t1 st
  have h1 : Keeps s t1 := .setFld h
  exact .ite (.ite (.setSapState h1) (.ite (.sapStop h1) (.sapFlag h1))) (.ite h1 (.ite (.sapStop h1) (.ite (.sapArm h1)
    (.sapFlag h1))))

theorem Keeps.sapMaskWrite (h : Keeps s t) {d m : Nat} {tx : Bool} {v : Word} : Keeps s (sapMaskWrite t d m tx v) :=
  .setSap (.setFld (.setReg h))

theorem Keeps.sapTrigWrite (h : Keeps s t) {d : Nat} {v : Word} : Keeps s (sapTrigWrite t d v) :=
  .each h fun _ _ hu => .ite (.setSap hu) hu

theorem Keeps.sapTrigAll (h : Keeps s t) {src : Nat} {ok : Nat → Nat → Bool} {trig : Trig} : Keeps s (sapTrigAll t src ok trig) :=
  .each h fun _ _ hu => .each hu fun _ _ hv => .ite (.setSap hv) hv

theorem Keeps.ringRotFit (h : Keeps s t) {d m : Nat} {tx : Bool} : Keeps s (ringRotFit t d m tx) := .ite h (.setFld h)

theorem Keeps.sapMaskApply (h : Keeps s t) {d m : Nat} {tx fit zero : Bool} : Keeps s (sapMaskApply t d m tx fit zero) :=
  .ite (.ringRotFit (.setReg (.setFld (.setSap h)))) h

theorem Keeps.sapSlip (h : Keeps s t) {d m : Nat} : Keeps s (sapSlip t d m) := .ite h (.sapFlag (.incReg h))

theorem Keeps.ringLost (h : Keeps s t) {d m : Nat} {tx : Bool} : Keeps s (ringLost t d m tx) := .sapFlag (.incReg h)

theorem Keeps.ringRun (h : Keeps s t) {d m : Nat} {tx : Bool} {i : Nat} {lost : Bool} : Keeps s (ringRun t d m tx i lost) :=
  .ite h (.ite (.setSap h) (.sapFlag (.setSap h)))

theorem Keeps.sampleLost (h : Keeps s t) {d m : Nat} {tx : Bool} {i n : Nat} : Keeps s (sampleLost t d m tx i n) :=
  .setFld (.ringRun (.ringLost h))

theorem Keeps.rxQueue (h : Keeps s t) {d m : Nat} {bs : List Byte} : Keeps s (rxQueue t d m bs) := .setSap h

theorem Keeps.rxJudge (h : Keeps s t) {d m n : Nat} : Keeps s (rxJudge t d m n) := .setSap (.ite (.ringRun h) (.sampleLost h))

theorem Keeps.rxJudgeFrame (h : Keeps s t) {d m : Nat} : Keeps s (rxJudgeFrame t d m) := .setSap (.ite h (.ringLost h))

theorem Keeps.rxJudgeSome (h : Keeps s t) {d m : Nat} : Keeps s (rxJudgeSome t d m) :=
  .ite h (.ite (.ite (.rxJudgeFrame (.others h)) (.others h)) (.each (.others h) fun _ _ hu => .rxJudge hu))

theorem Keeps.ringReceive (h : Keeps s t) {d m : Nat} {val : Nat → Word} : Keeps s (ringReceive t d m val) := by
  unfold Machine.ringReceive
  extract_lets slots n top t1 ok x t2 t3 x' kept
  have h1 : Keeps s t1 := .ite (.rxJudgeFrame h) h
  have h2 : Keeps s t2 := .setSap h1
  have h3 : Keeps s t3 := .each h fun _ _ hu => .rxJudge hu
  exact .ite h (.ite (.ite (.rxQueue h2) h2) (.setSap h3))

theorem Keeps.ringTake (h : Keeps s t) {d m n : Nat} {u : State} {bs : List Byte} (htake : ringTake t d m n = some (u, bs)) :
    Keeps s u := by
  unfold Machine.ringTake at htake
  dsimp only at htake
  split at htake
  · cases htake
    exact .setSap h
  · split at htake
    · cases htake
      exact .setSap (.setFld (.ringRead h))
    · cases htake

theorem Keeps.ringSend (h : Keeps s t) {d m : Nat} : Keeps s (ringSend t d m).1 := by
  unfold Machine.ringSend
  extract_lets slots n
  refine .ite' h ?_
  split
  · split
    · next u bs htake => exact .ringTake h htake
    · exact .ite (.ringLost h) (.setSap h)
  · refine .setSap (.foldl (fun acc e hacc => ?_) _ h)
    refine .ite' hacc ?_
    split
    · next u bs htake => exact .ringRun (.ringTake hacc htake)
    · exact .ite' (.sampleLost hacc) hacc

theorem Keeps.ringFillFrame (h : Keeps s t) {d m : Nat} : Keeps s (ringFillFrame t d m) := by
  unfold Machine.ringFillFrame
  extract_lets due t1
  have h1 : Keeps s t1 := .others h
  refine .ite (.ringLost (.setSap h1)) ?_
  split
  · next u bs htake => exact .each (.setSap (.ringTake h1 htake)) fun _ _ hv => .setSap hv
  · exact h1

theorem Keeps.ringFillPacked (h : Keeps s t) {d m : Nat} : Keeps s (ringFillPacked t d m) := by
  refine .each (.setSap (.each (.others h) fun _ _ hu => .sampleLost hu)) fun e u hu => ?_
  refine .ite hu ?_
  split
  · next v bs htake => exact .ringRun (.setSap (.ringTake hu htake))
  · exact hu

theorem Keeps.ringFill (h : Keeps s t) {d m : Nat} : Keeps s (ringFill t d m) :=
  .ite h (.ite (.ringFillFrame h) (.ringFillPacked h))

theorem Keeps.ringFinish (h : Keeps s t) {d m : Nat} {cut : Option Nat} : Keeps s (ringFinish t d m cut) :=
  .ite (.ite (.ringLost (.setSap h)) (.setSap h)) (.each (.setSap h) fun _ _ hu => .sampleLost hu)

theorem Keeps.convAgePulse (h : Keeps s t) {d m : Nat} : Keeps s (convAgePulse t d m) :=
  .ite h (.ite (.setSap (.others h)) (.setSap h))

theorem Keeps.convTxBegin (h : Keeps s t) {d m : Nat} : Keeps s (convTxBegin t d m) := by
  refine .ite h ?_
  split
  · exact .setSap h
  · exact .setSap (.others h)

theorem Keeps.txFrame (h : Keeps s t) {d m : Nat} : Keeps s (txFrame t d m).1 := by
  refine .ite' h ?_
  refine .ite' h ?_
  split
  · exact .setSap h
  · exact .sapSlip h
  · exact h

theorem Keeps.sapSend (h : Keeps s t) {d m : Nat} : Keeps s (sapSend t d m) := by
  have hframe {b : Bool} : Keeps s (if b then (t, some []) else Machine.txFrame t d m).1 := .ite' h (.txFrame h)
  have hring {b : Bool} {u : State} (hu : Keeps s u) : Keeps s (if b then (u, []) else Machine.ringSend u d m).1 :=
    .ite' hu (.ringSend hu)
  unfold Machine.sapSend
  exact .setSap (.others (.convTxBegin (hring hframe)))

theorem Keeps.sapBegin (h : Keeps s t) {d m : Nat} {zero fitRx fitTx rx : Bool} : Keeps s (sapBegin t d m zero fitRx fitTx rx) := by
  unfold Machine.sapBegin
  extract_lets t1 x up len g gr p back cfg x' bip t2 judged
  have h1 : Keeps s t1 := .sapMaskApply (.sapMaskApply h)
  have h2 : Keeps s t2 := .ite (.setFld h1) h1
  exact .sapSend (.sapGainStat (.setSap h2))

theorem Keeps.sapDeliver (h : Keeps s t) {d m : Nat} {late : Bool} {val : Nat → Word} : Keeps s (sapDeliver t d m late val) := by
  unfold Machine.sapDeliver
  extract_lets x g t1 y received t2 z
  have h1 : Keeps s t1 := .ringReceive h
  have h2 : Keeps s t2 := .ite (.sapSlip h1) h1
  exact .ite (.ite h1 (.setSap h1)) (.ite (.setSap (.ite (.sapSlip h1) h1)) (.setSap h2))

theorem Keeps.blockDiscard (h : Keeps s t) {d m : Nat} : Keeps s (blockDiscard t d m) := .ite h (.setFld (.incFld (.setSap h)))

theorem Keeps.bipFrame (h : Keeps s t) {d m : Nat} {f : SapFrame} : Keeps s (bipFrame t d m f) :=
  .setSap (.ite (.setFld (.setFld (.ite (.blockDiscard h) h))) (.setFld (.setFld (.setFld (.ite (.blockDiscard h) h)))))

theorem Keeps.sapReceive (h : Keeps s t) {d m : Nat} {f : SapFrame} {whole : Bool} : Keeps s (sapReceive t d m f whole) :=
  .ite (.ite (.sapDeliver (.bipFrame h)) (.bipFrame h)) (.ite h (.ite (.sapDeliver (.pdmTake h)) (.sapDeliver h)))

theorem Keeps.heldPins (h : Keeps s t) {d m : Nat} {f : SapFrame} : Keeps s (heldPins t d m f).1 := .others h

theorem Keeps.bipAside (h : Keeps s t) {d m : Nat} {f : SapFrame} : Keeps s (bipAside t d m f) := by
  unfold Machine.bipAside
  extract_lets t1 x t2 t3 x'
  have h1 : Keeps s t1 := .sapReceive h
  have h2 : Keeps s t2 := .setSap h1
  have h3 : Keeps s t3 := .ite (.sapMaskApply (.sapMaskApply (.incReg h2))) h2
  exact .ite (.sapGainStat h2) (.ite (.sapStop h2) (.sapGainStat (.setSap h3)))

theorem Answers.execSapFrame (h : Keeps s t) {d m : Nat} {own : Bool} {f : SapFrame} : Answers s (execSapFrame d m own f t) := by
  refine .onUnit ?_
  extract_lets held aside rx
  refine .ite (.next h) (.ite (.next (.setFld h)) (.ite (.whenDue h (.bipAside h)) (.whenDue h ?_)))
  have hpins : Keeps s (if held then Machine.heldPins t d m f else (t, f)).1 := .ite' (.heldPins h) h
  split
  next u g hsplit =>
    have hu : Keeps s u := .ofPair hsplit hpins
    extract_lets t1 t2 t3 x t4 ok t5 y t6
    have h2 : Keeps s t2 := .ringFinish (.ite hu (.sapFlag hu))
    have h3 : Keeps s t3 := .ite (.sapReceive h2) h2
    have h4 : Keeps s t4 := .ite (.setSap h3) h3
    have h5 : Keeps s t5 := .ite (.incReg h4) h4
    exact .ite (.sapStop h4) (.sapBegin (.setSap h5))

theorem Answers.execSapFrameZero (h : Keeps s t) {d m : Nat} {fitRx fitTx : Bool} :
    Answers s (execSapFrameZero d m fitRx fitTx t) :=
  .onUnit (.ite (.next h) (.whenDue h (.sapBegin (.sapFlag (.setSapState (.setSap (.setFld (.setFld (.setReg h)))))))))

theorem Answers.execSapTriggerPulse (h : Keeps s t) {d m : Nat} : Answers s (execSapTriggerPulse d m t) :=
  .onUnit (.whenDue h (.setSapState (.setSap h)))

theorem Answers.execStartPinEdge (h : Keeps s t) : Answers s (execStartPinEdge t) := .whenDue h (.sapTrigAll h)

theorem Answers.execSapRingTransfer (h : Keeps s t) {d m : Nat} {tx : Bool} : Answers s (execSapRingTransfer d m tx t) := by
  refine .onUnit ?_
  refine .ite (.whenDue h (.ringFill (.setSap (.setFld (.ringRead h))))) ?_
  split
  · exact .ite (.next (.ringLost (.setSap h))) (.whenDue h (.setSap (.setFld (.ringWrite (.rxJudgeSome h)))))
  · exact .next h

theorem Keeps.sapPublish (h : Keeps s t) {d m : Nat} {r : List (Nat × Word)} {valid : Bool} : Keeps s (sapPublish t d m r valid) :=
  .each h fun _ _ hu => .publish hu

theorem Keeps.rxStepDown (h : Keeps s t) {d m : Nat} : Keeps s (rxStepDown t d m) := .sapGainStat (.setSap h)

theorem Keeps.convLines (h : Keeps s t) {d m : Nat} : Keeps s (convLines t d m) := by
  unfold Machine.convLines
  extract_lets t1 x out
  have h1 : Keeps s t1 := .convAgePulse h
  exact .ite (.setFld h1) (.ite (.sapPublish h1) (.ite (.sapPublish h1) h1))

theorem Keeps.sapPulseRx (h : Keeps s t) {d m : Nat} : Keeps s (sapPulseRx t d m) := by
  unfold Machine.sapPulseRx
  extract_lets st t1 x
  have h1 : Keeps s t1 := .ite (.rxStepDown h) h
  refine .ite h ?_
  refine .ite (.sapStop h) ?_
  refine .ite (.convLines h1) ?_
  refine .ite ?_ ?_
  · split
    · exact .setSap (.sapPublish h1)
    · exact h1
  · refine .ite ?_ ?_
    · split
      · exact .sapPublish h1
      · exact h1
    · split
      · exact .setSap (.sapPublish h1)
      · exact .setSap h1
      · exact .setSap (.ite (.sapPublish h1) (.sapPublish (.sapSlip h1)))

theorem Keeps.sapPulseTx (h : Keeps s t) {d m : Nat} : Keeps s (sapPulseTx t d m) :=
  .ite h (.ite (.ite (.sapSlip (.setSap h)) (.setSap h)) (.setSap h))

theorem Keeps.setSteer (h : Keeps s t) {st : Nat} : Keeps s (setSteer t st) :=
  .ite h (.ite (.others (.setFld h)) (.others (.setFld h)))

theorem Keeps.steerNear (h : Keeps s t) : Keeps s (steerNear t).1 := .ite' h (.others h)

theorem Keeps.steerEnter (h : Keeps s t) : Keeps s (steerEnter t) :=
  .ite (.setSteer (.steerNear h)) (.ite (.setSteer (.steerNear h)) (.setSteer (.steerNear h)))

theorem Keeps.steerCtlWrite (h : Keeps s t) {v : Word} : Keeps s (steerCtlWrite t v) :=
  .ite (.setReg h) (.ite (.steerEnter (.setReg h)) (.setSteer (.setReg h)))

theorem Keeps.steerSelWrite (h : Keeps s t) {v : Word} : Keeps s (steerSelWrite t v) := .ite (.setFld h) (.setReg h)

theorem Keeps.steerSync (h : Keeps s t) : Keeps s (steerSync t) := .ite (.setSteer h) (.ite (.setSteer h) h)

theorem Keeps.steerMeasure (h : Keeps s t) : Keeps s (steerMeasure t) := .ite h (.setReg (.others h))

theorem Keeps.steerPulse (h : Keeps s t) : Keeps s (steerPulse t) := by
  unfold Machine.steerPulse
  refine .ite h ?_
  extract_lets st fillA freqA show_
  have hshow (u : State) (hu : Keeps s u) : Keeps s (show_ u) := .setReg hu
  have hnear : Keeps s (if st = steerAcq || st = steerLock then Machine.steerNear t else (t, true)).1 := .ite' (.steerNear h) h
  split
  next u near hsplit =>
    have hu : Keeps s u := .ofPair hsplit hnear
    extract_lets st' w fill err sum raw
    have hw : Keeps s w := .ite hu (.setSteer hu)
    refine .ite (hshow _ (.setReg hw)) ?_
    split
    · exact hshow _ hw
    · exact hshow _ (.ite (.setSteer (.others hw)) (.others hw))

theorem Keeps.steerHoldNow (h : Keeps s t) : Keeps s (steerHoldNow t) := .ite h (.others (.setSteer (.others h)))

theorem Keeps.steerResume (h : Keeps s t) : Keeps s (steerResume t) := .ite h (.others (.setSteer h))

theorem Keeps.steerWake (h : Keeps s t) : Keeps s (steerWake t) :=
  .ite (.steerHoldNow (.steerSync h)) (.ite (.steerResume (.steerSync h)) (.steerSync h))

theorem Answers.execClksteerLock (h : Keeps s t) : Answers s (execClksteerLock t) := .whenDue h (.setSteer h)

theorem Answers.execSapClockLoss (h : Keeps s t) {d m cause : Nat} : Answers s (execSapClockLoss d m cause t) := by
  refine .onUnit ?_
  refine .ite (.next (.setFld (.setSap (.blockDiscard h)))) ?_
  refine .whenDue h ?_
  extract_lets a t1 t2 x slave x' t3 t4 t5 t6
  have h1 : Keeps s t1 := .blockDiscard h
  have h2 : Keeps s t2 := .setFld (.setFld (.incFld h1))
  have h3 : Keeps s t3 := .setSap h2
  have h4 : Keeps s t4 := .setFld h3
  have h5 : Keeps s t5 := .ite (.ite (.setFld h4) h4) h3
  have h6 : Keeps s t6 := .ite (.setSapState h5) h5
  exact .ite (.steerHoldNow h6) h6

theorem Answers.execSapClockRecover (h : Keeps s t) {d m : Nat} : Answers s (execSapClockRecover d m t) := by
  refine .onUnit ?_
  refine .fromPads h ?_
  refine .whenDue h ?_
  refine .ite (.ite (.steerResume (.setFld h)) (.setFld h)) ?_
  extract_lets fb x t1
  have h1 : Keeps s t1 := .setSap (.ite (.steerResume (.setFld h)) (.setFld h))
  exact .ite (.setSapState h1) h1

theorem Answers.execBiphaseLock (h : Keeps s t) {d m hz : Nat} : Answers s (execBiphaseLock d m hz t) :=
  .onUnit (.fromPads h (.whenDue h (.ite (.setSap h) (.setFld (.setSap h)))))

theorem Keeps.writeArray (h : Keeps s t) {a : Nat} {ws : List Word} : Keeps s (writeArray t a ws) :=
  .each h fun _ _ hu => .setReg hu

theorem Keeps.statusWrite (h : Keeps s t) {d m : Nat} {bs : List Byte} : Keeps s (statusWrite d m bs t) :=
  .ite (.setFld (.incFld h)) (.setFld (.ringWrite h))

theorem Keeps.statusDrain (h : Keeps s t) {d m : Nat} : Keeps s (statusDrain t d m) :=
  .ite h (.each (.setSap h) fun _ _ hu => .statusWrite hu)

theorem Keeps.statusRecord (h : Keeps s t) {d m : Nat} {ws : List Word} {flags : Nat} : Keeps s (statusRecord t d m ws flags) :=
  .ite h (.ite (.setFld (.incFld h)) (.statusDrain (.setSap h)))

theorem Keeps.blockComplete (h : Keeps s t) {d m : Nat} : Keeps s (blockComplete t d m) := by
  unfold Machine.blockComplete
  extract_lets st x b ws seen badN t1 t2 flags t3 cA cB chg t4 t5 t6 b0
  have h1 : Keeps s t1 := .setSap h
  have h2 : Keeps s t2 := .ite h1 (.setFld (.setFld h1))
  have h3 : Keeps s t3 := .statusRecord h2
  have h4 : Keeps s t4 := .writeArray (.writeArray (.writeArray (.writeArray h3)))
  have h5 : Keeps s t5 := .setFld h4
  have h6 : Keeps s t6 := .ite (.setFld h5) h5
  exact .ite h3 (.setFld (.setFld h6))

theorem Answers.execBiphaseBlockRx (h : Keeps s t) {d m : Nat} {complete : Bool} {ws : List Word} :
    Answers s (execBiphaseBlockRx d m complete ws t) :=
  .onUnit (.fromPads h (.whenDue h (.ite (.blockComplete h) (.setSap (.blockDiscard h)))))

theorem Answers.execBiphaseBlockTx (h : Keeps s t) {d m : Nat} : Answers s (execBiphaseBlockTx d m t) :=
  .onUnit (.whenDue h (.setSap (.ite' h (.ite' (.setFld (.incFld h)) (.setFld (.ringRead h))))))

theorem Keeps.bipCapture (h : Keeps s t) {d : Nat} : Keeps s (bipCapture t d) := .each h fun _ _ hu => .setFld hu

theorem Keeps.srcMarkDup (h : Keeps s t) {d : Nat} : Keeps s (srcMarkDup t d) := .each h fun _ _ hu => .ite (.setFld hu) hu

theorem Keeps.srcEntryWrite (h : Keeps s t) {d e i : Nat} {v : Word} : Keeps s (srcEntryWrite t d e i v).1 :=
  .ite' (.srcMarkDup (.setTab h)) (.setFld h)

theorem Answers.execSrcRatioLock (h : Keeps s t) {d m : Nat} {tx : Bool} {r : Nat} : Answers s (execSrcRatioLock d m tx r t) :=
  .onUnit (.whenDue h (.setSap h))

theorem Answers.execSrcRelock (h : Keeps s t) {d m : Nat} {tx : Bool} : Answers s (execSrcRelock d m tx t) :=
  .onUnit (.whenDue h (.each (.setSap h) fun _ _ hu => .ite (.incReg hu) hu))

end Sys2Proof.Machine
end

section
/-! PROOFS. What every step keeps: swap requests and the link (R225–R239, R310–R344). -/
namespace Sys2Proof.Machine

-- Elaborated in turn, the rules need less memory than side by side.
set_option Elab.async false
variable {s t : State}

theorem Keeps.countHeaders (h : Keeps s t) {d : Nat} {ns : List Nat} : Keeps s (countHeaders t d ns) :=
  .each (.setLinkPort h) fun _ _ hu => .setReg hu

theorem Keeps.countBlocks (h : Keeps s t) {d k : Nat} {bs : List LinkBlock} : Keeps s (countBlocks t d k bs) :=
  .ite h (.countHeaders h)

theorem Keeps.checkSpare (h : Keeps s t) {d : Nat} {sp : List (LinkBlock × Nat)} : Keeps s (checkSpare t d sp) :=
  .ite h (.ite (.setLinkPort (.ite h (.countHeaders h))) (.ite h (.countHeaders h)))

theorem Keeps.recapture (h : Keeps s t) {d k : Nat} : Keeps s (recapture t d k) := .sameKern h

theorem Keeps.captureDie (h : Keeps s t) {d : Nat} : Keeps s (captureDie d t) := .each (.setDieX h) fun _ _ hu => .recapture hu

theorem Keeps.applyKernel (h : Keeps s t) {d : Nat} {yonly : Bool} {k : Nat} : Keeps s (applyKernel d yonly k t) := by
  unfold Machine.applyKernel
  extract_lets t1 a held old t2 x t3
  have h1 : Keeps s t1 := .each h fun _ _ hu => .sameKern hu
  have h2 : Keeps s t2 := .setFld (.setFld h1)
  have h3 : Keeps s t3 := .ite (.setKern h2 fun hs => Core.wf_startTick (h2.kernCore (d := d) (k := k) hs)) h2
  exact .ite (.each h1 fun _ _ hu => .recapture hu) (.each h3 fun _ _ hu => .recapture (.loadHoardMode hu))

theorem Keeps.applyDie (h : Keeps s t) {d : Nat} {r : SwapReq} : Keeps s (applyDie d r t) := by
  unfold Machine.applyDie
  extract_lets bad ms t1 t2 t3 t4 t5
  have h1 : Keeps s t1 := .each h fun _ _ hu => .logRefusal hu
  have h2 : Keeps s t2 := .each h1 fun _ _ hu => .applyKernel hu
  have h3 : Keeps s t3 := .ite h2 (.each h2 fun _ _ hu => .ite (.recountPod hu) hu)
  have h4 : Keeps s t4 := .each h3 fun _ _ hu => .carSwitch (.carDrop hu)
  have h5 : Keeps s t5 := .each h4 fun _ _ hu => .switchTable (.setBridge hu)
  exact .each h5 fun _ _ hu => .fadeBegin hu

theorem Keeps.checkDie (h : Keeps s t) {d : Nat} {r : SwapReq} : Keeps s (checkDie d r t).1 :=
  .each (.ite' h (.admitSwap h)) fun _ _ hu => .carReject hu

theorem Answers.execSwapRequestRx (h : Keeps s t) {g d : Nat} : Answers s (execSwapRequestRx g d t) := by
  refine .onUnit ?_
  split
  · exact .ite (.next (.setJob h)) (.next h)
  · exact .next h

theorem Answers.execAdmissionDone (h : Keeps s t) {d : Nat} {rejoin : Bool} {n : Nat} :
    Answers s (execAdmissionDone d rejoin n t) := by
  refine .onUnit (.ite (.whenDue h (.powerSync (.admitRejoin h))) ?_)
  split
  · refine .ite ?_ (.next h)
    split
    · next u code detail who hcheck => exact .next (.setJob (.ofPair hcheck (.checkDie h)))
    · next u hcheck => exact .next (.setJob (.ofPair hcheck (.checkDie h)))
  · exact .next h

theorem Keeps.noteReady (h : Keeps s t) {r r' : SwapReq} : Keeps s (noteReady t r r') := by
  unfold Machine.noteReady
  extract_lets t1
  have h1 : Keeps s t1 := .others h
  split
  · exact .ite (.deviceSend h1) h1
  · exact h1

theorem Answers.execSwapReadyRx (h : Keeps s t) {g d : Nat} : Answers s (execSwapReadyRx g d t) := by
  refine .onUnit ?_
  split
  · exact .whenDue h (.noteReady h)
  · exact .next h

theorem Answers.execSwapRefusalRx (h : Keeps s t) {g d : Nat} : Answers s (execSwapRefusalRx g d t) := by
  refine .onUnit ?_
  split
  · split
    · exact .next (.endSwap h)
    · exact .next (.splitSwap (.others h))
    · exact .next h
  · exact .next h

theorem Answers.execSwapDecision (h : Keeps s t) {g : Nat} : Answers s (execSwapDecision g t) := by
  unfold Machine.execSwapDecision
  split
  · exact .ite (.next h) (.ite (.next (.each (.others h) fun _ _ hu => .deviceSend hu)) (.next (.endSwap h)))
  · exact .next h

theorem Answers.execSwapCommitRx (h : Keeps s t) {g d : Nat} : Answers s (execSwapCommitRx g d t) := by
  refine .onUnit ?_
  split
  · exact .whenDue h (.each (.setJob h) fun _ _ hu => .fadeFlag hu)
  · exact .next h

theorem Answers.execSwapApply (h : Keeps s t) {g : Nat} : Answers s (execSwapApply g t) := by
  refine .ite (.next h) ?_
  split
  · refine .ite ?_ (.ite (.next (.ite (.dropSwap h) (.endSwap h))) (.next h))
    extract_lets armed jobs r' t1 t2 t3
    have h1 : Keeps s t1 := .each h fun _ _ hu => .applyDie hu
    have h2 : Keeps s t2 := .others h1
    have h3 : Keeps s t3 := .powerSyncAll h2
    exact .next (.ite h3 (.reportSwap h3))
  · exact .next h

theorem Answers.execFaderEnd (h : Keeps s t) {d e : Nat} : Answers s (execFaderEnd d e t) := .onUnit (.whenDue h (.fadeClear h))

theorem Keeps.fadePulse (h : Keeps s t) {d : Nat} : Keeps s (fadePulse t d) := .each h fun _ _ hu => .ite (.setTab hu) hu

theorem Keeps.stopWaiting (h : Keeps s t) : Keeps s (stopWaiting t) := by
  refine .others (.each (.folded (fun _ _ hu => .endSwap hu) _ h) fun d u hu => .setLinkPort (.each (.each (.each hu
    fun e v hv => ?_)
    fun _ _ hv => .setBridge hv) fun _ _ hv => .ite (.carDrop hv) hv))
  exact .ite (.fadeClear hv) (.fadeFlag hv)

theorem Keeps.drainHost (h : Keeps s t) {d n : Nat} : Keeps s (drainHost d n t) := by
  induction n generalizing t with
  | zero => exact h
  | succ n ih => exact .ite h (ih (.deviceSend (.queueTake h)))

theorem Keeps.sendFrame (h : Keeps s t) {d : Nat} {f : Frame} : Keeps s (sendFrame t d f) := .setLinkPort (.others h)

theorem Keeps.sendCtl (h : Keeps s t) {d : Nat} {c : Ctl} : Keeps s (sendCtl t d c) := .setLinkPort h

theorem Keeps.drainDie (h : Keeps s t) {d : Nat} : Keeps s (drainDie d t) := .ite (.drainHost h) h

theorem Keeps.pulseFrame (h : Keeps s t) {n d : Nat} : Keeps s (pulseFrame t n d) :=
  .ite (.sendFrame (.drainDie h)) (.drainDie h)

theorem Answers.execNominalTickFrame (h : Keeps s t) {d : Nat} : Answers s (execNominalTickFrame d t) :=
  .onUnit (.whenDue h (.sendFrame (.each h fun _ _ hu => .drainDie hu)))

theorem Keeps.countFail (h : Keeps s t) {d : Nat} : Keeps s (countFail t d) := .setFld (.incReg h)

theorem Keeps.linkDue (h : Keeps s t) {n d : Nat} : Keeps s (linkDue t n d) := by
  refine .ite (.setLinkPort h) ?_
  refine .ite (.setLinkPort h) ?_
  split
  · exact .ite (.setLinkPort (.countFail h)) (.setLinkPort h)
  · exact .setLinkPort h
  · exact .ite (.setLinkPort (.countFail h)) (.setLinkPort h)

theorem Keeps.publishLink (h : Keeps s t) {d : Nat} : Keeps s (publishLink t d) := .ite h (.each h fun _ _ hu => .publish hu)

theorem Keeps.setTime (h : Keeps s t) {st gmid hops up : Nat} : Keeps s (setTime t st gmid hops up) :=
  .steerSync (.setFld (.setFld (.setFld (.setFld h))))

theorem Keeps.elect (h : Keeps s t) : Keeps s (elect t) := by
  refine .ite h ?_
  refine .ite (.ite h (.setTime h)) ?_
  split
  · exact .ite (.ite h (.setTime h)) (.ite (.setFld h) (.setTime (.others h)))
  · exact .ite (.ite h (.setTime h)) (.ite h (.setTime h))

theorem Keeps.lossOfTime (h : Keeps s t) {d : Nat} : Keeps s (lossOfTime t d) := .ite (.setTime (.others h)) h

theorem Keeps.upstreamTime (h : Keeps s t) {f : Frame} {err : Int} {stood : Bool} : Keeps s (upstreamTime t f err stood) := by
  unfold Machine.upstreamTime
  extract_lets apart near calm x t1 st go t2 a n
  have h1 : Keeps s t1 := .others h
  have h2 : Keeps s t2 := .ite (.ite h1 (.setFld h1)) (.ite (.setFld h1) h1)
  exact .ite (.ite h1 (.setFld h1)) (.ite h2 (.setReg (.setReg h2)))

theorem Keeps.timeCapture (h : Keeps s t) : Keeps s (timeCapture t) := .setReg h

theorem Answers.execLinkTimeLock (h : Keeps s t) : Answers s (execLinkTimeLock t) := .whenDue h (.steerSync (.setFld h))

theorem Keeps.noteFrame (h : Keeps s t) {d num : Nat} {v : Option (List (Nat × Line))} : Keeps s (noteFrame t d num v) :=
  .ite h (.setLinkPort h)

theorem Keeps.takeRunning (h : Keeps s t) {d num : Nat} {v : Option (List (Nat × Line))} : Keeps s (takeRunning t d num v) :=
  .ite h (.noteFrame (.ite (.countFail h) h))

theorem Keeps.takeStopped (h : Keeps s t) {d num : Nat} {v : Option (List (Nat × Line))} : Keeps s (takeStopped t d num v) :=
  .ite (.setLinkPort (.ite (.noteFrame h) h)) (.setLinkPort (.countFail h))

theorem Keeps.takeHead (h : Keeps s t) {d : Nat} {f : Frame} : Keeps s (takeHead t d f) := .setLinkPort h

theorem Keeps.takeFrame (h : Keeps s t) {d : Nat} {bs : List LinkBlock} {err : Int} : Keeps s (takeFrame t d bs err) := by
  unfold Machine.takeFrame
  split
  · exact .ite h (.takeStopped h)
  · extract_lets stood t1 v t2
    have h1 : Keeps s t1 := .takeHead h
    have h2 : Keeps s t2 := .elect (.ite (.takeRunning h1) (.takeStopped h1))
    exact .ite (.upstreamTime h2) h2

theorem Answers.execLinkFrameRx (h : Keeps s t) {d : Nat} {bs sp : List LinkBlock} {err : Int} :
    Answers s (execLinkFrameRx d bs sp err t) :=
  .onUnit (.whenDue h (.ite (.takeFrame (.checkSpare (.countBlocks h))) (.checkSpare (.countBlocks h))))

theorem Answers.execLinkFrameFail (h : Keeps s t) {d num : Nat} {bs : List LinkBlock} : Answers s (execLinkFrameFail d num bs t) :=
  .onUnit (.whenDue h (.ite (.countBlocks h) (.ite (.takeRunning (.countBlocks h)) (.takeStopped (.countBlocks h)))))

theorem Keeps.startLink (h : Keeps s t) {d : Nat} : Keeps s (startLink t d) := .setLinkPort h

theorem Keeps.hearLane (h : Keeps s t) {d : Nat} {line : List (Option Bool)} : Keeps s (hearLane t d line) := .ite (.others h) h

theorem Keeps.portDown (h : Keeps s t) {d : Nat} : Keeps s (portDown t d) :=
  .ite h (.lossOfTime (.setLinkPort (.setFld (.setFld h))))

theorem Keeps.trainFrom (h : Keeps s t) {d st : Nat} : Keeps s (trainFrom t d st) := by
  unfold Machine.trainFrom
  extract_lets t1 a t2 t3 x t4
  have h1 : Keeps s t1 := .portDown h
  have h2 : Keeps s t2 := .setReg h1
  have h3 : Keeps s t3 := .setFld h2
  have h4 : Keeps s t4 := .setLinkPort h3
  exact .steerSync (.ite h4 (.elect h4))

theorem Keeps.linkCtlWrite (h : Keeps s t) {d : Nat} {v : Word} : Keeps s (linkCtlWrite t d v) := by
  unfold Machine.linkCtlWrite
  extract_lets a was en t1 t2 x t3
  have h1 : Keeps s t1 := .setFld h
  have h2 : Keeps s t2 := .ite (.trainFrom h1) (.ite (.trainFrom h1) h1)
  have h3 : Keeps s t3 := .ite h2 (.ite (.setFld h2) (.setLinkPort h2))
  exact .powerSync h3

theorem Keeps.trainFail (h : Keeps s t) {d code : Nat} : Keeps s (trainFail t d code) := .setLinkPort (.setFld h)

theorem Keeps.trainTo (h : Keeps s t) {d st : Nat} : Keeps s (trainTo t d st) := .setFld (.setLinkPort h)

theorem Keeps.spareLane (h : Keeps s t) {d lane : Nat} : Keeps s (spareLane t d lane) := .setFld (.setFld (.setFld h))

theorem Answers.execLinkTrainStep (h : Keeps s t) {d : Nat} {ok : Bool} {a b : Nat} {c : TrainSeen} :
    Answers s (execLinkTrainStep d ok a b c t) := by
  refine .onUnit ?_
  extract_lets t1 bad t2 p t3 n t4 st t5 x
  have h1 : Keeps s t1 := .hearLane h
  have h2 : Keeps s t2 := .ite (.countHeaders h1) h1
  have h3 : Keeps s t3 := .setFld (.setFld h2)
  have h4 : Keeps s t4 := .setFld h2
  have h5 : Keeps s t5 := .setFld (.setFld (.trainTo h4))
  refine .ite (.next h1) ?_
  refine .ite (.next h2) ?_
  split
  · exact .next (.ite (.trainTo h2) (.setFld h2))
  · exact .next (.ite (.trainTo (.ite (.spareLane h2) h2)) (.trainFail h2))
  · exact .whenDue h2 (.trainTo h2)
  · exact .next (.ite (.trainTo h2) (.trainFail h2))
  · exact .whenDue h2 (.ite (.trainFail h3) (.ite (.trainFail h3) (.trainTo (.sendCtl h3))))
  · exact .whenDue h2 (.ite (.trainFail h4) (.steerSync (.elect (.setLinkPort h5))))
  · exact .next h2

theorem Answers.execLinkTrainRestart (h : Keeps s t) {d : Nat} : Answers s (execLinkTrainRestart d t) :=
  .onUnit (.whenDue h (.trainFrom h))

theorem Answers.execLinkLoss (h : Keeps s t) {d cause : Nat} : Answers s (execLinkLoss d cause t) :=
  .onUnit (.whenDue h (.trainFrom h))

theorem Answers.execLinkDelayMeasure (h : Keeps s t) {d : Nat} {raw : Nat × Nat} : Answers s (execLinkDelayMeasure d raw t) :=
  .onUnit (.whenDue h (.setLinkPort (.setFld h)))

theorem Answers.execLinkDelayEcho (h : Keeps s t) {d turn : Nat} : Answers s (execLinkDelayEcho d turn t) :=
  .onUnit (.whenDue h (.sendCtl (.setLinkPort h)))

theorem Keeps.windowEnd (h : Keeps s t) {d lane : Nat} {hs : List Nat} {ts : List (LinkBlock × Nat)} :
    Keeps s (windowEnd t d lane hs ts) :=
  .ite (.ite (.checkSpare h) h) (.countHeaders (.ite (.checkSpare h) h))

theorem Answers.execLinkSpareRequest (h : Keeps s t) {d lane : Nat} {hs : List Nat} {ts : List (LinkBlock × Nat)} :
    Answers s (execLinkSpareRequest d lane hs ts t) := by
  refine .onUnit ?_
  extract_lets a t1 x n y t2 f bad
  have h1 : Keeps s t1 := .ite (.windowEnd h) h
  have h2 : Keeps s t2 := .setLinkPort h1
  exact .whenDue h1 (.ite (.setLinkPort h1) (.ite h2 (.ite (.ite (.setFld h2) h2) (.ite h2 (.sendCtl (.setLinkPort h1))))))

theorem Answers.execLinkSpareBlock (h : Keeps s t) {d : Nat} {ack : Bool} {lane f : Nat} :
    Answers s (execLinkSpareBlock d ack lane f t) := by
  refine .onUnit ?_
  refine .ite ?_ (.whenDue h (.sendCtl (.setLinkPort h)))
  split
  · exact .whenDue h (.setLinkPort h)
  · exact .next h

theorem Keeps.replaceLane (h : Keeps s t) {d lane : Nat} {l0 l1 sp : Fld} : Keeps s (replaceLane t d lane l0 l1 sp) :=
  .setFld (.setFld (.ite (.setFld h) (.setFld h)))

theorem Answers.execLinkSpareSwitch (h : Keeps s t) {d : Nat} {tx : Bool} : Answers s (execLinkSpareSwitch d tx t) := by
  refine .onUnit ?_
  refine .ite ?_ ?_
  · split
    · exact .whenDue h (.replaceLane (.setLinkPort h))
    · exact .next h
  · split
    · exact .whenDue h (.replaceLane (.setLinkPort h))
    · exact .whenDue h (.setLinkPort h)
    · exact .next h

theorem Keeps.exportSwapGo (h : Keeps s t) {d : Nat} {v : Word} : Keeps s (exportSwapGo t d v) := .ite (.setLinkPort h) h

theorem Answers.execLinkExportSwitch (h : Keeps s t) {d : Nat} : Answers s (execLinkExportSwitch d t) :=
  .onUnit (.whenDue h (.setFld (.setLinkPort h)))

theorem Keeps.routeSwapGo (h : Keeps s t) {v : Word} : Keeps s (routeSwapGo t v) := .ite (.others h) h

theorem Answers.execLinkRouteSwitch (h : Keeps s t) : Answers s (execLinkRouteSwitch t) := .whenDue h (.others (.setFld h))

theorem Keeps.holdTick (h : Keeps s t) : Keeps s (holdTick t) := .others (.each h fun _ _ hu => .setLinkPort hu)

theorem Answers.execLinkRtholdEnd (h : Keeps s t) : Answers s (execLinkRtholdEnd t) :=
  .whenDue h (.each h fun _ _ hu => .folded (fun _ _ hv => .portSend hv) _ (.setLinkPort hu))

theorem Keeps.exportWrite (h : Keeps s t) {d : Nat} {v : Word} : Keeps s (exportWrite t d v).1 := .ite' h (.setTab h)

theorem Keeps.routeWrite (h : Keeps s t) {v : Word} : Keeps s (routeWrite t v).1 := .ite' h (.setTab h)

theorem Keeps.linkIdWrite (h : Keeps s t) {v : Word} : Keeps s (linkIdWrite t v) := .ite (.setFld h) (.setFld h)

end Sys2Proof.Machine
end

section
/-! PROOFS. What every step keeps: meters, detectors, parking, generators and spares (R291–R308, R432–R444). -/
namespace Sys2Proof.Machine

-- Elaborated in turn, the rules need less memory than side by side.
set_option Elab.async false
variable {s t : State}

theorem Keeps.meterAlarm (h : Keeps s t) {d m : Nat} : Keeps s (meterAlarm t d m) :=
  .ite h (.ite (.setReg (.setFld h)) (.setFld h))

theorem Keeps.meterPublish (h : Keeps s t) {d m : Nat} : Keeps s (meterPublish d m t) := by
  unfold Machine.meterPublish
  dsimp only
  split
  · exact .ite (.publish h) h
  · exact h

theorem Keeps.meterTake (h : Keeps s t) {d m : Nat} : Keeps s (meterTake d m t) := .ite (.setFld h) h

theorem Keeps.meterPulse (h : Keeps s t) {d m : Nat} : Keeps s (meterPulse d m t) :=
  .ite (.setMeter h) (.setMeter (.ite (.ite (.meterAlarm (.setReg h)) (.setReg h)) h))

theorem Answers.execMeterBlockEnd (h : Keeps s t) {d m : Nat} : Answers s (execMeterBlockEnd d m t) := by
  refine .onUnit ?_
  extract_lets x w mode1 st t1 mark hold
  split
  · exact .next h
  · next peak sum inval whole tpeak _ =>
    extract_lets t2 t3 t4 t5
    have h1 : Keeps s t1 := .setMeter h
    have hmark (u : State) (hu : Keeps s u) : Keeps s (mark u) := .setFld (.setFld hu)
    have h2 : Keeps s t2 := .setReg (.setReg h1)
    have h3 : Keeps s t3 := .ite h2 (.setReg h2)
    have h5 : Keeps s t5 := .setFld (.setFld (.setReg h3))
    exact .next (.ite (.ite (hmark _ h1) h1) (hmark _ (.ite h5 (.meterAlarm h5))))

theorem Keeps.meterCfgWrite (h : Keeps s t) {d m : Nat} {v : Word} : Keeps s (meterCfgWrite t d m v) := .setMeter (.setReg h)

theorem Keeps.detSet (h : Keeps s t) {d n : Nat} {silent : Bool} {count : Nat} : Keeps s (detSet t d n silent count) :=
  .setTab h

theorem Keeps.detPulse (h : Keeps s t) {d n : Nat} : Keeps s (detPulse d n t) := .detSet h

theorem Keeps.detectors (h : Keeps s t) {d : Nat} : Keeps s (detectors t d) :=
  .setDieX (.each (.each (.each h fun _ _ hu => .detSet hu) fun _ _ hu => .detPulse hu) fun _ _ hu => .setReg hu)

theorem Keeps.mapPublish (h : Keeps s t) {d : Nat} : Keeps s (mapPublish t d) := .each h fun _ _ hu => .publish hu

theorem Keeps.kickPod (h : Keeps s t) {d p : Nat} : Keeps s (kickPod d p t) := .setPodX h

theorem Keeps.detWrite (h : Keeps s t) {d n w : Nat} {v : Word} : Keeps s (detWrite t d n w v) :=
  .ite h (.each (.setDieX (.ite (.setTab h) (.detSet (.setTab h)))) fun _ _ hu => .kickPod hu)

theorem Keeps.slistWrite (h : Keeps s t) {d : Nat} {v : Word} : Keeps s (slistWrite t d v).1 := .ite' h (.ite' h (.setTab h))

theorem Keeps.parkWrite (h : Keeps s t) {d p : Nat} {cfg : Bool} {v : Word} : Keeps s (parkWrite t d p cfg v) :=
  .kickPod (.ite (.ite (.setReg h) (.setFld (.setReg h))) (.setReg h))

theorem Keeps.laWrite (h : Keeps s t) {d n : Nat} {v : Word} : Keeps s (laWrite t d n v) := .setDieX (.setReg h)

theorem Keeps.lookaheads (h : Keeps s t) {d : Nat} : Keeps s (lookaheads t d) := .setDieX (.each h fun _ _ hu => .laPulse hu)

theorem Keeps.setGenState (h : Keeps s t) {d c st : Nat} : Keeps s (setGenState t d c st) := .setFld (.setFld (.setFld h))

theorem Keeps.genCtlWrite (h : Keeps s t) {d c : Nat} {v : Word} : Keeps s (genCtlWrite t d c v) := by
  unfold Machine.genCtlWrite
  extract_lets t1 stop x trig x'
  have h1 : Keeps s t1 := .setFld h
  exact .ite (.ite (.setGen h1) h1) (.ite h1 (.ite (.setGenState (.setGen h1)) (.setFld h1)))

theorem Keeps.genPublish (h : Keeps s t) {d c : Nat} : Keeps s (genPublish t d c) := .publish h

theorem Keeps.genPulse (h : Keeps s t) {d c : Nat} : Keeps s (genPulse d c t) :=
  .ite h (.ite (.setFld (.setGenState (.setGen h))) (.ite (.ite (.setFld (.genPublish (.setGen h))) (.setGen h)) (.ite (.setFld
    (.setGen h)) (.setFld (.genPublish (.setGen h))))))

theorem Answers.execGenTrigger (h : Keeps s t) {d c : Nat} : Answers s (execGenTrigger d c t) :=
  .onUnit (.whenDue h (.setGenState (.setGen h)))

theorem Answers.execGenDone (h : Keeps s t) {d c : Nat} : Answers s (execGenDone d c t) :=
  .onUnit (.whenDue h (.setFld (.setGenState (.setGen h))))

theorem Keeps.setTarget (h : Keeps s t) {d p slot : Nat} : Keeps s (setTarget t d p slot) := .setFld h

theorem Keeps.setSlotState (h : Keeps s t) {d p i : Nat} {st : KState} : Keeps s (setSlotState t d p i st) := .kernFrom h h

theorem Keeps.spareRoles (h : Keeps s t) {d p : Nat} : Keeps s (spareRoles t d p) :=
  .each h fun _ _ hu => .ite (.setSlotState hu) hu

theorem Keeps.startSpares (h : Keeps s t) {d p : Nat} : Keeps s (startSpares t d p) := by
  refine .spareRoles (.setPodX (.setTarget (.setSpares (.each h fun i u hu => .setKern hu fun hs => ?_))))
  have hk : (slotKern u d p i).core.wf = true := hu.kernCore hs
  dsimp only
  split
  · exact Core.wf_leaveTest hk
  · exact hk

theorem Keeps.copyMem (h : Keeps s t) {d j k : Nat} : Keeps s (copyMem t d j k) :=
  (Keeps.scrubKernel h).trans ⟨rfl, rfl, fun hm => smWf_copyWindow hm,
    fun ht => State.wf_withMem ht (smWf_copyWindow (State.wf_mem ht)) (smWf_copyWindow (State.wf_ecc ht))⟩

theorem Keeps.loadSpare (h : Keeps s t) {d j k : Nat} : Keeps s (loadSpare d j k t) := by
  refine .setKern (.copyMem h) fun hs => ?_
  have hj := h.kernCore (d := d) (k := j) hs
  obtain ⟨-, himg, -⟩ := Core.wf_iff.mp hj
  exact Core.wf_copy (h.kernCore (d := d) (k := k) hs) hj himg rfl rfl rfl

theorem Keeps.loadCopy (h : Keeps s t) {d p : Nat} : Keeps s (loadCopy t d p) := .each h fun _ _ hu => .loadSpare hu

theorem Answers.execShadowPeriodStart (h : Keeps s t) {d p : Nat} : Answers s (execShadowPeriodStart d p t) := by
  refine .onUnit ?_
  dsimp only
  split
  · exact .next (.spareRoles (.setTarget (.setPodX h)))
  · exact .next h

theorem Answers.execShadowLoadDone (h : Keeps s t) {d p : Nat} : Answers s (execShadowLoadDone d p t) :=
  .onUnit (.whenDue h (.loadCopy (.setPodX h)))

theorem Keeps.mismatch (h : Keeps s t) {d p : Nat} : Keeps s (mismatch t d p) := by
  unfold Machine.mismatch
  extract_lets x tgt sh t1 twice t2 t3 y
  have h1 : Keeps s t1 := .setFld h
  have h2 : Keeps s t2 := .setSlotState h1
  have h3 : Keeps s t3 := .dropSpare (.setPodX h2)
  exact .ite (.spareLog h3) (.ite (.spareTrigger (.setPodX h1)) (.setPodX h1))

theorem Keeps.lockstepCheck (h : Keeps s t) {d : Nat} : Keeps s (lockstepCheck t d) :=
  .each h fun _ _ hu => .ite (.mismatch hu) hu

theorem Keeps.decideTrigger (h : Keeps s t) {d p : Nat} {tr : Nat × Nat} : Keeps s (decideTrigger t d p tr) := by
  unfold Machine.decideTrigger
  obtain ⟨slot, cause⟩ := tr
  extract_lets x sp t1 len
  have h1 : Keeps s t1 := .ite (.setFld h) h
  refine .ite (.spareLog h1) (.ite h1 ?_)
  split
  · split
    · exact .setPodX h1
    · exact .spareLog h1
  · exact .ite (.setPodX h1) (.setPodX h1)

theorem Keeps.rampPulse (h : Keeps s t) {d p : Nat} : Keeps s (rampPulse t d p) := by
  unfold Machine.rampPulse
  dsimp only
  split
  · exact h
  · exact .ite (.setPodX h) (.setPodX h)

theorem Keeps.backsPulse (h : Keeps s t) {d p : Nat} : Keeps s (backsPulse t d p) := .setPodX h

theorem Keeps.dropTake (h : Keeps s t) {d p : Nat} {k : Takeover} : Keeps s (dropTake t d p k) :=
  .spareRoles (.setTarget (.ite (.setSpares (.setPodX h)) (.setPodX h)))

theorem Keeps.takePulse (h : Keeps s t) {d p : Nat} : Keeps s (takePulse t d p) := by
  unfold Machine.takePulse
  dsimp only
  split
  · exact h
  · exact .ite (.dropTake h) (.ite h (.setPodX (.ite h (.loadCopy h))))

theorem Keeps.takeTriggers (h : Keeps s t) {d p n : Nat} : Keeps s (takeTriggers d p n t) := by
  induction n generalizing t with
  | zero => exact h
  | succ n ih =>
    unfold Machine.takeTriggers
    dsimp only
    split
    · exact h
    · exact .ite h (ih (.decideTrigger (.setPodX h)))

theorem Keeps.freezePeriod (h : Keeps s t) {d p : Nat} : Keeps s (freezePeriod t d p) := .setPodX h

theorem Keeps.periodPulse (h : Keeps s t) {d p : Nat} : Keeps s (periodPulse t d p) := by
  unfold Machine.periodPulse
  extract_lets x cur runs again y t1
  have h1 : Keeps s t1 := .setPodX h
  split
  · exact .ite (.freezePeriod h) h
  · exact .ite (.spareRoles (.setTarget (.setPodX h))) (.ite (.freezePeriod h) (.ite (.ite (.spareRoles (.setPodX (.loadCopy h)))
    (.setPodX h)) (.ite (.spareRoles (.setTarget h1)) h1)))

theorem Keeps.thawPeriod (h : Keeps s t) {d p : Nat} : Keeps s (thawPeriod t d p) := by
  refine .ite h ?_
  dsimp only
  split
  · exact .ite (.setPodX h) (.setPodX h)
  · exact .setPodX h

theorem Keeps.sparesPulse (h : Keeps s t) {d p : Nat} : Keeps s (sparesPulse t d p) :=
  .ite (.setPodX h) (.periodPulse (.backsPulse (.takeTriggers (.takePulse (.rampPulse (.setPodX h))))))

theorem Keeps.moveReg (h : Keeps s t) {a b : Nat} : Keeps s (moveReg t a b) := .setReg (.setReg h)

theorem Keeps.renameKernel (h : Keeps s t) {d j k : Nat} : Keeps s (renameKernel t d j k) := by
  unfold Machine.renameKernel
  extract_lets bit t1 t2
  have h1 : Keeps s t1 := .each h fun _ _ hu => .ite (.setTab (.setTab hu)) hu
  have h2 : Keeps s t2 := .each h1 fun _ _ hu => .ite (.setTab hu) hu
  exact .ite (.setFld h2) h2

theorem Keeps.takeOver (h : Keeps s t) {d p : Nat} {k : Takeover} : Keeps s (takeOver t d p k) := by
  unfold Machine.takeOver
  extract_lets j n old fault mirrored t1 x t2 t3 t4 t5 t6 c t7
  have h1 : Keeps s t1 := .setKern (.ite h (.copyMem h)) fun hs => Core.wf_startTick (h.kernCore (d := d) (k := j) hs)
  have h2 : Keeps s t2 := .sameKern h1
  have h6 : Keeps s t6 := .moveTab (.moveTab (.moveReg (.moveReg (.moveReg h2))))
  exact .renameKernel (.setReg h6)

theorem Answers.execSpareTakeover (h : Keeps s t) {d p : Nat} : Answers s (execSpareTakeover d p t) := by
  refine .onUnit ?_
  split
  · exact .next h
  · refine .whenDue h ?_
    extract_lets t1 t2 t3 t4 more x t5
    have h1 : Keeps s t1 := .takeOver h
    have h2 : Keeps s t2 := .spareLog h1
    have h3 : Keeps s t3 := .setFld h2
    have h4 : Keeps s t4 := .setSpares h3
    have h5 : Keeps s t5 := .setPodX h4
    exact .powerSync (.recapture (.spareRoles (.ite h5 (.setTarget h5))))

theorem Answers.execDisplacementRampEnd (h : Keeps s t) {d p : Nat} : Answers s (execDisplacementRampEnd d p t) := by
  refine .onUnit ?_
  dsimp only
  split
  · exact .whenDue h (.setPodX (.kernFrom h h))
  · exact .next h

theorem Keeps.spareCmdWrite (h : Keeps s t) {d : Nat} {v : Word} : Keeps s (spareCmdWrite t d v) :=
  .ite (.setFld h) (.ite (.spareTrigger (.setFld h)) (.setFld (.setFld h)))

theorem Answers.execSrcEngineCheck (h : Keeps s t) {d e : Nat} {ok : Bool} : Answers s (execSrcEngineCheck d e ok t) :=
  .onUnit (.whenDue h (.setDieX h))

theorem Keeps.enginePulse (h : Keeps s t) {d : Nat} : Keeps s (enginePulse t d) := by
  refine .ite h ?_
  split
  · exact h
  · extract_lets a sp moved ports x t1 t2 t3 t4 t5 t6
    have h1 : Keeps s t1 := .setDieX (.moveTab h)
    have h2 : Keeps s t2 := .setReg h1
    have h3 : Keeps s t3 := .setFld (.setFld (.setFld h2))
    have h4 : Keeps s t4 := .setFld h3
    have h5 : Keeps s t5 := .spareLog h4
    have h6 : Keeps s t6 := .each h5 fun _ _ hu => .setSap hu
    exact .ite h6 (.incReg h6)

end Sys2Proof.Machine
end

section
/-! PROOFS. What every step keeps: the Pulse and the deadline (R17–R41). -/
namespace Sys2Proof.Machine

-- Elaborated in turn, the rules need less memory than side by side.
set_option Elab.async false
variable {s t : State}

theorem Keeps.silenceEvt (h : Keeps s t) {d p : Nat} {f : Fld} : Keeps s (silenceEvt t d p f) := .ite h (.setFld h)

theorem Keeps.podMove (h : Keeps s t) {d p : Nat} {a b : KState} : Keeps s (podMove t d p a b) :=
  .each h fun _ _ hu => .ite (.sameKern hu) hu

theorem Keeps.parkPulse (h : Keeps s t) {d p : Nat} : Keeps s (parkPulse t d p) := by
  unfold Machine.parkPulse
  extract_lets a err t1 t2 quiet x t3
  have h1 : Keeps s t1 := .ite (.silenceEvt h) h
  have h2 : Keeps s t2 := .setFld h1
  have h3 : Keeps s t3 := .setPodX h2
  refine .ite ?_ (.ite (.satFld (.silenceEvt (.setFld (.podMove h3)))) h3)
  split
  · exact .setPodX h2
  · exact .ite (.silenceEvt (.setPodX h2)) h3

theorem Answers.execPodResume (h : Keeps s t) {d p : Nat} : Answers s (execPodResume d p t) := by
  refine .onUnit (.whenDue h (.powerSync (.thawPeriod (.setPodX (.setFld (.each h fun k u hu => ?_))))))
  exact .recapture (.setKern hu fun hs => Core.wf_startKern (Core.wf_enterRun (hu.kernCore hs)))

theorem Keeps.peekCapture (h : Keeps s t) {d : Nat} : Keeps s (peekCapture t d) := .each h fun _ _ hu => .setFld (.setReg hu)

theorem Keeps.convTerm (h : Keeps s t) {d m slot : Nat} {tx : Bool} {plain std low : Nat} :
    Keeps s (convTerm t d m slot tx plain std low).1 := by
  refine .ite' h ?_
  split
  · exact h
  · exact .others h

theorem Keeps.latCapture (h : Keeps s t) {d i : Nat} : Keeps s (latCapture d i t) := by
  have hterm {c : Prop} {_ : Decidable c} {u : State} (hu : Keeps s u) {e n m : Nat} {b : Bool} {x y z : Nat} :
      Keeps s (if c then Machine.convTerm u e n m b x y z else (u, 0)).1 := .ite' (.convTerm hu) hu
  unfold Machine.latCapture
  exact .setTab (.setTab (hterm (hterm h)))

theorem Keeps.latencies (h : Keeps s t) {d : Nat} : Keeps s (latencies t d) := .each h fun _ _ hu => .latCapture hu

theorem Keeps.kernelPulse (h : Keeps s t) {d k : Nat} : Keeps s (kernelPulse d k t) := by
  unfold Machine.kernelPulse
  extract_lets kn enters st stop t1 x core
  have h1 : Keeps s t1 := .ite (.logRefusal h) h
  refine .setKern h1 fun hs => ?_
  have hk : kn.core.wf = true := h.kernCore hs
  have hr := Core.wf_r hk
  have hstop : Core.wf { x with img := kn.core.r } = true := Core.wf_image hk hr rfl rfl rfl
  exact Core.wf_ite hstop hk

theorem Keeps.kernelStart (h : Keeps s t) {d k : Nat} : Keeps s (kernelStart d k t) :=
  .ite (.setKern h fun hs => Core.wf_startTick (h.kernCore hs)) h

theorem Keeps.clearLines (h : Keeps s t) {d : Nat} {leaving : Nat → Bool} : Keeps s (clearLines t d leaving) :=
  .each h fun _ _ hu => .publish hu

theorem Keeps.testLines (h : Keeps s t) {d : Nat} : Keeps s (testLines t d) := .ite (.each h fun _ _ hu => .publish hu) h

theorem Keeps.blocksPublish (h : Keeps s t) {d : Nat} : Keeps s (blocksPublish d t) := by
  unfold Machine.blocksPublish
  extract_lets t1 t2 t3 t4
  have h1 : Keeps s t1 := .each h fun _ _ hu => .meterTake hu
  have h2 : Keeps s t2 := .each h1 fun _ _ hu => .meterPublish hu
  have h3 : Keeps s t3 := .each (.mapPublish h2) fun _ _ hu => .genPulse hu
  have h4 : Keeps s t4 := .publishImports h3
  exact .each h4 fun _ _ hu => .sapPulseRx hu

theorem Keeps.diePulse (h : Keeps s t) {d : Nat} : Keeps s (diePulse d t) := by
  unfold Machine.diePulse
  extract_lets t1 t2 t3 t4 t5 t6 t7 low t8 t9
  have h1 : Keeps s t1 := .govPulse h
  have h2 : Keeps s t2 := .each h1 fun _ _ hu => .kernelPulse hu
  have h3 : Keeps s t3 := .detectors h2
  have h4 : Keeps s t4 := .peekCapture (.each h3 fun _ _ hu => .parkPulse hu)
  have h5 : Keeps s t5 := .each h4 fun _ _ hu => .sapPulseTx hu
  have h6 : Keeps s t6 := .each h5 fun _ _ hu => .meterPulse hu
  have h7 : Keeps s t7 := .fadePulse h6
  have h8 : Keeps s t8 := .each h7 fun _ _ hu => .setBridge hu
  have h9 : Keeps s t9 := .enginePulse (.switchRows h8)
  exact .each h9 fun _ _ hu => .sparesPulse hu

theorem Keeps.baseCapture (h : Keeps s t) {d : Nat} : Keeps s (baseCapture d t) :=
  .each (.govPulse h) fun _ _ hu => .sameKern hu

theorem Keeps.packageCapture (h : Keeps s t) : Keeps s (packageCapture t) :=
  .each (.each (.each h fun _ _ hu => .lookaheads hu) fun _ _ hu => .latencies hu) fun _ _ hu => .bipCapture hu

theorem Keeps.pulseGather (h : Keeps s t) {n : Nat} : Keeps s (pulseGather t n) := by
  unfold Machine.pulseGather
  extract_lets t1 ds live t2 t3 t4 t5 t6 t7
  have h1 : Keeps s t1 := .setReg (.setReg h)
  have h3 : Keeps s t3 := .each (.steerMeasure (.withTx h1)) fun _ _ hu => .publishLink hu
  have h5 : Keeps s t5 := .elect (.holdTick (.each h3 fun _ _ hu => .linkDue hu))
  have h7 : Keeps s t7 := .each (.each h5 fun _ _ hu => .pulseFrame hu) fun _ _ hu => .blocksPublish hu
  exact .each h7 fun _ _ hu => .ite (.clearLines hu) hu

theorem Keeps.pulseWork (h : Keeps s t) {n : Nat} : Keeps s (pulseWork t n) := by
  unfold Machine.pulseWork
  extract_lets t1 ds live t2 x t3 t4 t5 t6 t7 t8 t9 t10 t11
  have h2 : Keeps s t2 := .nextLines (.pulseGather h)
  have h4 : Keeps s t4 := .packageCapture (.steerPulse (.timeCapture (.others h2)))
  have h5 : Keeps s t5 := .each h4 fun _ _ hu => .ite (.diePulse hu) (.baseCapture hu)
  have h6 : Keeps s t6 := .each h5 fun _ _ hu => .setLinkPort hu
  have h7 : Keeps s t7 := .each h6 fun _ _ hu => .each (.ddrPulse hu) fun _ _ hv => .statusDrain hv
  have h9 : Keeps s t9 := .openSlips (.each h7 fun _ _ hu => .sendTransfers hu)
  have h11 : Keeps s t11 := .each (.each h9 fun _ _ hu => .captureDie hu) fun _ _ hu => .each hu fun _ _ hv => .kernelStart hv
  exact .powerSyncAll (.others h11)

theorem Answers.execPulse (h : Keeps s t) : Answers s (execPulse t) := .whenDue h (.pulseWork h)

theorem Keeps.overrun (h : Keeps s t) {d k : Nat} : Keeps s (overrun d k t) := by
  unfold Machine.overrun
  extract_lets kn late x t1 t2 t3 t4 t5
  have h1 : Keeps s t1 := .setKern h fun hs => Core.wf_stopLate (h.kernCore (d := d) (k := k) hs)
  have h3 : Keeps s t3 := .incReg (.incReg (.setFld h1))
  have h4 : Keeps s t4 := .ite h3 (.setReg (.setReg h3))
  exact .escalate (.each h4 fun _ _ hu => .publish hu)

theorem Keeps.commitKernel (h : Keeps s t) {d k : Nat} : Keeps s (commitKernel d k t) :=
  .each h fun _ _ hu => .ite (.setLastPub (.publish hu)) (.setFld (.incReg hu))

theorem Keeps.noteShared (h : Keeps s t) {d : Nat} {ks : List Nat} : Keeps s (noteShared t d ks) := by
  unfold Machine.noteShared
  split
  · exact .ite h (.setReg (.setFld h))
  · exact h

theorem Keeps.parkedLines (h : Keeps s t) {d k : Nat} : Keeps s (parkedLines d k t) :=
  .each (.each h fun _ _ hu => .publish hu) fun _ _ hu => .setSlip hu

theorem Keeps.dieDeadline (h : Keeps s t) {d : Nat} : Keeps s (dieDeadline d t) := by
  unfold Machine.dieDeadline
  extract_lets t1 ks late t2 t3 parked t4 done t5 t6 t7
  have h2 : Keeps s t2 := .each (.lockstepCheck h) fun _ _ hu => .overrun hu
  have h3 : Keeps s t3 := .each h2 fun k _ hu => .setKern hu fun hs => Core.wf_stopLate (hu.kernCore (d := d) (k := k) hs)
  have h5 : Keeps s t5 := .noteShared (.each h3 fun _ _ hu => .parkedLines hu)
  have h7 : Keeps s t7 := .each (.each h5 fun _ _ hu => .commitKernel hu) fun _ _ hu => .wearTick hu
  exact .testLines h7

theorem Answers.execDeadline (h : Keeps s t) : Answers s (execDeadline t) :=
  .whenDue h (.others (.each h fun _ _ hu => .dieDeadline hu))

theorem Keeps.startDie (h : Keeps s t) {d : Nat} : Keeps s (startDie d t) := by
  unfold Machine.startDie
  extract_lets t1 t2 t3 last x t4
  have h1 : Keeps s t1 := .each h fun _ _ hu => .admitStart hu
  have h2 : Keeps s t2 := .setFld h1
  have h3 : Keeps s t3 := .each h2 fun _ _ hu => .startSpares hu
  have h4 : Keeps s t4 := .setDieX h3
  exact .testLines (.govPrep (.clearLines h4))

theorem Answers.execPulseStart (h : Keeps s t) : Answers s (execPulseStart t) :=
  .whenDue h (.pulseWork (.each (.each h fun _ _ hu => .startDie hu) fun _ _ hu => .startLink hu))

theorem Answers.execPulseHalt (h : Keeps s t) : Answers s (execPulseHalt t) :=
  .whenDue h (.powerSyncAll (.elect (.others (.stopWaiting h))))

theorem Answers.execSynthLockLoss (h : Keeps s t) {d : Nat} : Answers s (execSynthLockLoss d t) :=
  .onUnit (.whenDue h (.setFld (.setFld h)))

theorem Answers.execSynthRelock (h : Keeps s t) {d : Nat} : Answers s (execSynthRelock d t) := .onUnit (.whenDue h (.setFld h))

theorem Keeps.pulseCtlWrite (h : Keeps s t) {v : Word} : Keeps s (pulseCtlWrite t v) := .setFld h

theorem Keeps.pulseCfgWrite (h : Keeps s t) {v : Word} : Keeps s (pulseCfgWrite t v) := .ite (.setFld h) (.setFld (.setFld h))

theorem Keeps.pulseCountWrite (h : Keeps s t) {hi : Bool} {v : Word} : Keeps s (pulseCountWrite t hi v) :=
  .ite (.setFld h) (.setReg h)

end Sys2Proof.Machine
end

section
/-! PROOFS. What every step keeps: kernel windows, the clocked serial port and pins (R64–R66, R450–R456). -/
namespace Sys2Proof.Machine

-- Elaborated in turn, the rules need less memory than side by side.
set_option Elab.async false
variable {s t : State}

theorem Keeps.okW (h : Keeps s t) {w : Word} : Keeps s (okW t w).1 := h

theorem Keeps.refuse (h : Keeps s t) : Keeps s (refuse t).1 := h

theorem Keeps.errK (h : Keeps s t) {k : Nat} : Keeps s (errK t k).1 := h

theorem Keeps.takeOr {x : State × Bool} (h : Keeps s x.1) : Keeps s (takeOr x).1 := .ite' h h

theorem Keeps.kernelCtlWrite (h : Keeps s t) {d k : Nat} {v : Word} : Keeps s (kernelCtlWrite t d k v) := by
  have hput {x : Kern} (hx : s.wf = true → x.core.wf = true) : Keeps s (Machine.powerSync (Machine.setKern t d k x) d) :=
    .powerSync (.setKern h hx)
  have hk (hs : s.wf = true) : (kern t d k).core.wf = true := h.kernCore hs
  unfold Machine.kernelCtlWrite
  dsimp only
  split
  · exact h
  · exact .setFld h
  · refine .ite (hput hk) ?_
    split
    · exact hput hk
    · exact hput hk
    · exact hput hk
    · exact .setFld h
  · split
    · exact hput fun hs => Core.wf_enterTest (hk hs)
    · exact hput fun hs => Core.wf_leaveTest (hk hs)
    · exact .setFld h

theorem Keeps.bankModeWrite (h : Keeps s t) {d k : Nat} {v : Word} : Keeps s (bankModeWrite t d k v).1 :=
  .ite' h (.each (.setReg h) fun _ _ hu => .withdrawBy hu)

theorem Keeps.hownWrite (h : Keeps s t) {d p i : Nat} {v : Word} : Keeps s (hownWrite t d p i v).1 :=
  .ite' h (.each (.setReg h) fun _ _ hu => .withdrawBy hu)

theorem Keeps.eccClear (h : Keeps s t) {a bit : Nat} {v : Word} : Keeps s (eccClear t a bit v) := .ite (.setReg h) h

theorem Keeps.winWord (h : Keeps s t) {d k off : Nat} : Keeps s (winWord t d k off).1 := by
  unfold Machine.winWord
  dsimp only
  split
  · split
    · exact h
    · exact .kernelCorrected h
    · exact h
  · split
    · exact h
    · exact .kernelCorrected h
    · exact h
  · exact h
  · exact h
  · exact h

theorem Keeps.winRead (h : Keeps s t) {d k off width : Nat} : Keeps s (winRead t d k off width).1 := by
  refine .ite' h (.ite' h (.ite' h ?_))
  split
  · next u hlow => exact .ofPair hlow (.winWord h)
  · next u lo hlow =>
    have hu : Keeps s u := .ofPair hlow (.winWord h)
    refine .ite' hu ?_
    split
    · next v hhigh => exact .ofPair hhigh (.winWord hu)
    · next v hi hhigh => exact .ofPair hhigh (.winWord hu)

theorem Keeps.storeKernel (h : Keeps s t) {d k off key : Nat} {v : Word} : Keeps s (storeKernel t d k off key v) :=
  .each h fun _ _ hu => .setEcc (.storeW hu)

theorem Keeps.winStore (h : Keeps s t) {d k off : Nat} {v : Word} : Keeps s (winStore t d k off v) := by
  have hbits (w : Nat) : Keeps s (Machine.each (k :: sparesOf t d k) (fun j u => Machine.setKern u d j (bitWordWrite
    (kern u d j) w v)) t) :=
    .each h fun _ _ hu => .setKern hu fun hs => Core.wf_bitWordWrite (hu.kernCore hs)
  have himage (o : Nat) : Keeps s (Machine.setKern t d k { kern t d k with
      core := { (kern t d k).core with r := imageWrite (kern t d k).core.r o v } }) := by
    refine .setKern h fun hs => ?_
    have hk := h.kernCore (d := d) (k := k) hs
    exact Core.wf_of hk (Regs.wf_imageWrite (Core.wf_r hk) (o := o) (v := v)) rfl rfl rfl
  unfold Machine.winStore
  dsimp only
  split
  · exact .storeKernel h
  · exact .storeKernel h
  · exact hbits _
  · exact himage _
  · exact h

theorem Keeps.winWrite (h : Keeps s t) {d k off width v : Nat} : Keeps s (winWrite t d k off width v).1 := by
  unfold Machine.winWrite
  extract_lets kn t1 t2
  have h1 : Keeps s t1 := .winStore h
  have h2 : Keeps s t2 := .ite h1 (.winStore h1)
  refine .ite' h ?_
  refine .ite' h ?_
  refine .ite' h ?_
  refine .ite' h ?_
  split
  · exact .withdrawBy h2
  · exact h2

theorem Keeps.hoardBusWord (h : Keeps s t) {d p w : Nat} : Keeps s (hoardBusWord t d p w).1 := by
  unfold Machine.hoardBusWord
  split
  · exact h
  · exact .hoardCorrected h
  · exact .hoardUncorrectable h

theorem Keeps.hoardRead (h : Keeps s t) {d p off width : Nat} : Keeps s (hoardRead t d p off width).1 := by
  refine .ite' h (.ite' h ?_)
  split
  · next u hlow => exact .ofPair hlow (.hoardBusWord h)
  · next u lo hlow =>
    have hu : Keeps s u := .ofPair hlow (.hoardBusWord h)
    refine .ite' hu ?_
    split
    · next v hhigh => exact .ofPair hhigh (.hoardBusWord hu)
    · next v hi hhigh => exact .ofPair hhigh (.hoardBusWord hu)

theorem Keeps.hoardWrite (h : Keeps s t) {d p off width v : Nat} : Keeps s (hoardWrite t d p off width v).1 :=
  .ite' h (.ite' h (.ite (.setEcc (.storeW h)) (.setEcc (.storeW (.setEcc (.storeW h))))))

theorem Keeps.cspStage (h : Keeps s t) {d : Nat} {a : Access} {n : Nat} {v : Word} : Keeps s (cspStage t d a n v) := .setTab h

theorem Keeps.cspPush (h : Keeps s t) {d : Nat} {a : Access} {v : Word} : Keeps s (cspPush t d a v) := by
  unfold Machine.cspPush
  extract_lets e t1 x
  have h1 : Keeps s t1 := .each h fun _ _ hu => .setTab hu
  split
  · exact .setFld (.setFld h1)
  · exact .setCsp h1

theorem Keeps.cspLast (h : Keeps s t) {d bits : Nat} {abort : Bool} : Keeps s (cspLast t d bits abort) := .setReg h

theorem Keeps.cspStore (h : Keeps s t) {d : Nat} {e : List Word} {bits : Nat} {rx : List (List Bool)} :
    Keeps s (cspStore t d e bits rx) :=
  .ite h (.dmaWrite h)

theorem Keeps.cspCut (h : Keeps s t) {d moved : Nat} {rx : List (List Bool)} : Keeps s (cspCut t d moved rx) := by
  refine .setCsp ?_
  split
  · exact .cspLast (.cspStore h)
  · exact h

theorem Keeps.freeLanes (h : Keeps s t) {n : Nat} : Keeps s (freeLanes t n).1 := .others h

theorem Keeps.cspAbort (h : Keeps s t) {d : Nat} : Keeps s (cspAbort t d) := by
  refine .setCsp ?_
  split
  · exact .cspCut (.freeLanes (.others h))
  · exact .cspLast (.setCsp h)

theorem Keeps.cspCtlWrite (h : Keeps s t) {d : Nat} {v : Word} : Keeps s (cspCtlWrite t d v) :=
  have h1 : Keeps s (if v.getLsbD 1 then Machine.cspAbort t d else t) := .ite (.cspAbort h) h
  .ite (.setFld h1) (.ite (.setFld h1) (.setCsp (.setFld h1)))

theorem Keeps.cspCfgWrite (h : Keeps s t) {d : Nat} {v : Word} : Keeps s (cspCfgWrite t d v) :=
  .ite (.setFld h) (.ite (.setReg h) (.setCsp (.setReg h)))

theorem Answers.execCspEntryStart (h : Keeps s t) {d : Nat} : Answers s (execCspEntryStart d t) := by
  refine .onUnit ?_
  dsimp only
  split
  · exact .next h
  · exact .whenDue h (.setCsp (.ite' h (.dmaRead h)))

theorem Answers.execCspEntryDone (h : Keeps s t) {d : Nat} {rx : List (List Bool)} : Answers s (execCspEntryDone d rx t) := by
  have hlanes {b : Bool} {n : Nat} : Keeps s (if b then Machine.freeLanes t n else (t, rx)).1 := .ite' (.freeLanes h) h
  refine .onUnit ?_
  dsimp only
  split
  · exact .next h
  · exact .whenDue h (.ite (.setFld (.incReg (.cspLast (.setCsp (.cspStore hlanes))))) (.incReg (.cspLast (.setCsp
    (.cspStore hlanes)))))

theorem Answers.execCspModf (h : Keeps s t) {d moved : Nat} {rx : List (List Bool)} : Answers s (execCspModf d moved rx t) :=
  .onUnit (.fromPads h (.whenDue h (.setFld (.setFld (.cspCut h)))))

theorem Keeps.latchPads (h : Keeps s t) {d m : Nat} : Keeps s (latchPads t d m) := .others h

theorem Keeps.freePads (h : Keeps s t) {d m : Nat} : Keeps s (freePads t d m) := .others h

end Sys2Proof.Machine
end

section
/-! PROOFS. What every step keeps: reset, power and the handoff (R372–R401, R408–R430). -/
namespace Sys2Proof.Machine

-- Elaborated in turn, the rules need less memory than side by side.
set_option Elab.async false
variable {s t : State}

theorem Keeps.setOasis (h : Keeps s t) {o : Nat} {w : Word} : Keeps s (setOasis t o w) := .storeW h

theorem Keeps.incOasis (h : Keeps s t) {o : Nat} : Keeps s (incOasis t o) := .setOasis h

theorem Keeps.storeList (h : Keeps s t) {a : Nat} {bs : List Byte} : Keeps s (storeList t a bs) :=
  .foldl (fun _ _ hacc => .storeByte hacc) _ h

theorem Keeps.copyLmode (h : Keeps s t) {d m lvl : Nat} : Keeps s (copyLmode t d m lvl) := .ite (.setFld (.others h)) h

theorem Keeps.keepOver (h : Keeps s t) : Keeps s (keepOver t) := .ite (.copyLmode h) h

theorem Keeps.resetDies (h : Keeps s t) {powerLost : Bool} : Keeps s (resetDies t powerLost) := by
  unfold Machine.resetDies
  extract_lets u x
  have hu : Keeps s u := .keepOver h
  refine hu.trans ⟨rfl, rfl, fun hm => mem_wf_filter hm _, fun hw => ?_⟩
  have hregs := smWf_filter (State.wf_regs hw) fun e => keepReg e.1
  have hmem := mem_wf_filter (State.wf_mem hw) fun e => keepsCell e.1 || (!powerLost && !kernelCell e.1)
  have hshell : smWf (fun _ => (0 : Byte)) 0 u.shell.cells = true := State.wf_shell hw
  simp only [State.wf, hregs, hmem, hshell, Bool.and_true]
  rfl

theorem Keeps.assertReset (h : Keeps s t) {cause : Nat} : Keeps s (assertReset t cause) := .others (.resetDies h)

theorem Keeps.zeroize (h : Keeps s t) : Keeps s (zeroize t) := .others h

theorem Keeps.bootError (h : Keeps s t) : Keeps s (bootError t) := .others (.setFld (.zeroize h))

theorem Keeps.settleTrial (h : Keeps s t) {cause : Nat} : Keeps s (settleTrial t cause) :=
  .ite (.setOasis (.withShell h fun hx => hx.rejectAdd)) (.ite (.storeList (.setOasis h)) h)

theorem Keeps.loadRepairs (h : Keeps s t) : Keeps s (loadRepairs t) := .each h fun _ _ hu => .setFld (.setFld hu)

theorem Keeps.loadFuseRows (h : Keeps s t) : Keeps s (loadFuseRows t) := by
  refine .each h fun d u hu => ?_
  refine .foldl (fun acc row hacc => ?_) _ hu
  exact .spareLog hacc

theorem Keeps.releaseReset (h : Keeps s t) {recov ok : Bool} : Keeps s (releaseReset t recov ok) := by
  unfold Machine.releaseReset
  extract_lets c a x t1 woke y t2 t3 t4 tgt en up
  have h1 : Keeps s t1 := .setFld (.others h)
  have h2 : Keeps s t2 := .ite (.others (.setFld h1)) h1
  have h3 : Keeps s t3 := .loadFuseRows (.loadRepairs h2)
  have h4 : Keeps s t4 := .settleTrial (.noStew h3)
  have hup : Keeps s up := .setFld (.setFld (.setFld h4))
  exact .ite (.bootError h3) (.ite (.others (.setFld hup)) (.ite (.others (.setFld h4)) (.others h4)))

theorem Answers.execResetNAssert (h : Keeps s t) : Answers s (execResetNAssert t) := .next (.ite (.assertReset h) h)

theorem Answers.execResetRelease (h : Keeps s t) {recov ok : Bool} : Answers s (execResetRelease recov ok t) :=
  .whenDue h (.releaseReset h)

theorem Keeps.dropPod (h : Keeps s t) {d p : Nat} : Keeps s (dropPod d p t) := by
  unfold Machine.dropPod
  extract_lets lo t1 t2 t3 x t4 t5 t6 t7
  have h3 : Keeps s t3 := .dropTab (.dropTab (.clearMem (.clearMem h)))
  have h4 : Keeps s t4 := .each h3 fun _ _ hu => .setKern hu fun _ => Core.wf_zero
  have h5 : Keeps s t5 := .dropSlips h4
  exact .setTarget (.setSpares (.setCaravan (.setPodX (.setFld (.setRows h5)))))

theorem Keeps.restPod (h : Keeps s t) {d p : Nat} : Keeps s (restPod d p t) := .each h fun _ _ hu => .sameKern hu

theorem Keeps.dropRatios (h : Keeps s t) {d : Nat} : Keeps s (dropRatios t d) := .each h fun _ _ hu => .setSap hu

theorem Keeps.meterRest (h : Keeps s t) {d : Nat} : Keeps s (meterRest t d) :=
  .each (.each h fun _ _ hu => .setMeter hu) fun _ _ hu => .setFld hu

theorem Keeps.domainLoss (h : Keeps s t) {d m lvl : Nat} : Keeps s (domainLoss t d m lvl) := by
  have hddr (lo hi : Nat) : Keeps s (Machine.clearMem (Machine.setDdr (Machine.dropRegs t d m) d Ddr.zero) lo hi) :=
    .clearMem (.setDdr (.dropRegs h))
  unfold Machine.domainLoss
  extract_lets off t1 x t2 t3 t4 t5 y keep t6 z ps
  have h1 : Keeps s t1 := .each h fun _ _ hu => .sapStop hu
  clear_value t1
  have h2 : Keeps s t2 := .dropRatios h
  have h3 : Keeps s t3 := .trainFrom h
  have h4 : Keeps s t4 := .dropTab (.setLinkPort (.dropRegs h3))
  have h5 : Keeps s t5 := .dropTab h4
  have h6 : Keeps s t6 := .each h fun _ _ hu => .clearMem hu
  have hsaps (st : Steer) : Keeps s { Machine.dropRegs t1 d m with saps := smDrop (fun k => k / 10 = d) t1.saps, steer := st } :=
    .dropSaps (.dropRegs h1)
  have hlink : Keeps s { t5 with linkDev :=
    { State.reset.linkDev with woke := t5.linkDev.woke, heard := t5.linkDev.heard } } := .others h5
  refine .ite (.ite (hsaps _) h1) ?_
  refine .ite (.ite (.dropTab (.dropRegs h2)) h2) ?_
  refine .ite (.ite (.ite hlink h4) h3) ?_
  refine .ite (.meterRest h6) ?_
  refine .ite (.ite (hddr _ _) (.setDdr h)) ?_
  exact .ite (.dropRegs (.each (.clearLines h) fun _ _ hu => .dropPod hu)) (.each h fun _ _ hu => .restPod hu)

theorem Answers.execDomainEntryStart (h : Keeps s t) {d m : Nat} : Answers s (execDomainEntryStart d m t) := by
  refine .onUnit ?_
  dsimp only
  split
  · split
    · exact .whenDue h (.refuseEntry h)
    · exact .whenDue h (.copyLmode (.setDom h))
  · exact .next h

theorem Answers.execPadHoldPoint (h : Keeps s t) {d m : Nat} : Answers s (execPadHoldPoint d m t) := by
  refine .onUnit ?_
  dsimp only
  split
  · split
    · exact .next (.refuseEntry (.moveDom h))
    · exact .whenDue h (.ite (.latchPads (.setFld (.setDom h))) (.setDom h))
  · exact .next h

theorem Keeps.endTransition (h : Keeps s t) {d m lvl : Nat} : Keeps s (endTransition t d m lvl) := by
  unfold Machine.endTransition
  dsimp only
  split
  · refine .ite (.setDom h) ?_
    refine .ite (.moveDom h) ?_
    split
    · exact .refuseEntry (.setDom h)
    · exact .copyLmode (.setDom h)
  · exact .setDom h

theorem Answers.execDomainEntryDone (h : Keeps s t) {d m : Nat} : Answers s (execDomainEntryDone d m t) := by
  refine .onUnit ?_
  split
  · exact .next (.powerSync (.govRefresh (.endTransition (.domainLoss h))))
  · exact .next h

theorem Answers.execDomainExitStart (h : Keeps s t) {d m : Nat} : Answers s (execDomainExitStart d m t) := by
  refine .onUnit ?_
  dsimp only
  split
  · exact .whenDue h (.govRefresh (.moveDom h))
  · exact .next h

theorem Keeps.domainWake (h : Keeps s t) {d m from_ : Nat} : Keeps s (domainWake t d m from_) :=
  .ite (.ite (.testLines (.sendTransfers h)) (.sendTransfers h)) (.ite (.ite (.others (.setFld (.ite (.trainFrom h) h))) (.ite
    (.trainFrom h) h)) (.ite (.ite (.startTraining h) h) (.ite (.each h fun _ _ hu => .podMove hu) (.ite (.steerWake h) h))))

theorem Answers.execDomainExitDone (h : Keeps s t) {d m : Nat} : Answers s (execDomainExitDone d m t) := by
  refine .onUnit ?_
  dsimp only
  split
  · exact .next (.powerSync (.exitPrep (.govRefresh (.endTransition (.domainWake (.setDom h))))))
  · exact .next h

theorem Keeps.vdataWrite (h : Keeps s t) {d : Nat} {v : Word} : Keeps s (vdataWrite t d v) := .ite (.powerSync (.setTab h)) h

theorem Keeps.holdWrite (h : Keeps s t) {v : Word} : Keeps s (holdWrite t v) := .powerSyncAll (.setFld h)

theorem Keeps.modeWrite (h : Keeps s t) {d : Nat} {v : Word} : Keeps s (modeWrite t d v) := .ite (.setFld h) (.setFld h)

theorem Keeps.pwrCtlWrite (h : Keeps s t) {d : Nat} {v : Word} : Keeps s (pwrCtlWrite t d v) := by
  unfold Machine.pwrCtlWrite
  extract_lets a t1 t2
  have h1 : Keeps s t1 := .ite (.setFld h) h
  have h2 : Keeps s t2 := .ite (.setFld (.setFld h1)) h1
  exact .ite (.powerSync (.setTab h2)) h2

theorem Keeps.padrelWrite (h : Keeps s t) {d : Nat} {v : Word} : Keeps s (padrelWrite t d v) :=
  .each h fun _ _ hu => .ite (.freePads (.setFld hu)) hu

theorem Keeps.countHusk (h : Keeps s t) : Keeps s (countHusk t) := .incOasis h

theorem Keeps.startExit (h : Keeps s t) {cause : Nat} : Keeps s (startExit t cause) := .others h

theorem Keeps.wakeEvent (h : Keeps s t) {b : Nat} : Keeps s (wakeEvent t b) := by
  refine .ite ?_ ?_
  · refine .powerSyncAll ?_
    refine .others ?_
    refine .each ?_ fun _ _ hu => .setFld (.setTab (.setDieX (.setFld hu)))
    refine .ite ?_ (.ite h (.setReg h))
    extract_lets t1 t2
    have h1 : Keeps s t1 := .noteEntry (.ite h (.setReg h))
    have h2 : Keeps s t2 := .countHusk h1
    exact .ite (.others h2) (.others h1)
  · refine .ite ?_ ?_
    · refine .others ?_
      refine .powerSyncAll ?_
      refine .others ?_
      refine .each ?_ fun _ _ hu => .setFld (.setTab (.setDieX (.setFld hu)))
      refine .ite ?_ (.ite h (.setReg h))
      extract_lets t1 t2
      have h1 : Keeps s t1 := .noteEntry (.ite h (.setReg h))
      have h2 : Keeps s t2 := .countHusk h1
      exact .ite (.others h2) (.others h1)
    · refine .setOasis ?_
      refine .startExit ?_
      refine .powerSyncAll ?_
      refine .others ?_
      refine .each ?_ fun _ _ hu => .setFld (.setTab (.setDieX (.setFld hu)))
      refine .ite ?_ (.ite h (.setReg h))
      extract_lets t1 t2
      have h1 : Keeps s t1 := .noteEntry (.ite h (.setReg h))
      have h2 : Keeps s t2 := .countHusk h1
      exact .ite (.others h2) (.others h1)

theorem Keeps.pinChange (h : Keeps s t) {i : Nat} {high soon : Bool} : Keeps s (pinChange t i high soon) := by
  unfold Machine.pinChange
  extract_lets p active a old t1 x t2 x'
  have h1 : Keeps s t1 := .setFld h
  have h2 : Keeps s t2 := .ite (.incReg h1) (.wakeEvent h1)
  exact .ite (.others h1) (.ite h1 (.ite h1 (.powerSyncAll (.others h2))))

theorem Answers.execWakePinAccept (h : Keeps s t) {i : Nat} {high soon : Bool} : Answers s (execWakePinAccept i high soon t) :=
  .onUnit (.whenDue h (.pinChange h))

theorem Keeps.wakeTimerWrite (h : Keeps s t) {v : Word} : Keeps s (wakeTimerWrite t v) := .setReg (.setReg h)

theorem Keeps.timerExpire (h : Keeps s t) : Keeps s (timerExpire t) := .wakeEvent (.setReg (.ite h (.setFld h)))

theorem Answers.execIntervalTimerExpiry (h : Keeps s t) : Answers s (execIntervalTimerExpiry t) := .whenDue h (.timerExpire h)

theorem Keeps.linkWake (h : Keeps s t) : Keeps s (linkWake t) := .wakeEvent (.others h)

theorem Answers.execLinkWakeDetect (h : Keeps s t) : Answers s (execLinkWakeDetect t) := .whenDue h (.linkWake h)

theorem Keeps.wakeBy (h : Keeps s t) {b : Nat} {u : State} (hwake : wakeBy t b = some u) : Keeps s u := by
  unfold Machine.wakeBy at hwake
  dsimp only at hwake
  split at hwake
  · split at hwake
    · cases hwake
      exact .pinChange h
    · cases hwake
  · split at hwake
    · split at hwake
      · cases hwake
        exact .timerExpire h
      · cases hwake
    · split at hwake
      · cases hwake
        exact .linkWake h
      · cases hwake

theorem Answers.execHuskEntry (h : Keeps s t) {wake : Option Nat} : Answers s (execHuskEntry wake t) := by
  unfold Machine.execHuskEntry
  split
  · exact .whenDue h (.noteEntry (.others h))
  · refine .whenDue h ?_
    extract_lets t1 x t2 y
    have h2 : Keeps s t2 := .others (.resetDies (.countHusk h))
    split
    · next u b hwake =>
      exact .setOasis (.wakeBy (.others h2) (b := b) hwake)
    · exact h2

theorem Answers.execHuskDeferredExit (h : Keeps s t) : Answers s (execHuskDeferredExit t) := .whenDue h (.startExit h)

theorem Answers.execSupplyPgRise (h : Keeps s t) : Answers s (execSupplyPgRise t) := .whenDue h (.others h)

theorem Answers.execReferenceReady (h : Keeps s t) {recov ok : Bool} : Answers s (execReferenceReady recov ok t) :=
  .whenDue h (.releaseReset (.ite (.incOasis h) h))

theorem Keeps.pulseFault (h : Keeps s t) : Keeps s (pulseFault t) := .others h

theorem Answers.execHuskExitTimeout (h : Keeps s t) : Answers s (execHuskExitTimeout t) :=
  .whenDue h (.ite (.others h) (.pulseFault (.others (.setOasis (.incOasis (.others h))))))

theorem Answers.execHuskExitRetry (h : Keeps s t) : Answers s (execHuskExitRetry t) := .whenDue h (.others h)

theorem Answers.execSupplyPgLoss (h : Keeps s t) : Answers s (execSupplyPgLoss t) :=
  .whenDue h (.pulseFault (.others (.resetDies h)))

theorem Answers.execVddKeepApply (h : Keeps s t) : Answers s (execVddKeepApply t) := .whenDue h (.startExit h)

theorem Answers.execVddKeepLoss (h : Keeps s t) : Answers s (execVddKeepLoss t) := by
  refine .whenDue h ?_
  extract_lets t1 x
  have h1 : Keeps s t1 := .resetDies h
  have hcut {p : Host.Cell → Bool} : Keeps s { t1 with regs := [], mem := t1.mem.filter p } :=
    h1.trans ⟨rfl, rfl, fun hm => mem_wf_filter hm p, fun hw =>
      State.wf_withRegs (State.wf_withMem hw (mem_wf_filter (State.wf_mem hw) p) (State.wf_ecc hw)) rfl⟩
  exact .others hcut

theorem Keeps.shutdown (h : Keeps s t) : Keeps s (shutdown t) := .pulseFault (.others (.resetDies (.countHusk h)))

theorem Answers.execThermSample (h : Keeps s t) {d : Nat} {t1 t2 t3 t4 : Int} : Answers s (execThermSample d t1 t2 t3 t4 t) := by
  refine .onUnit (.whenDue h ?_)
  extract_lets hot u v alarm w n x
  have hv : Keeps s v := .ite (.setFld (.setFld h)) (.setFld h)
  have hw : Keeps s w := .ite (.setFld hv) hv
  exact .ite (.shutdown hw) (.setDieX hw)

theorem Answers.execThermCapStep (h : Keeps s t) {d : Nat} : Answers s (execThermCapStep d t) :=
  .onUnit (.whenDue h (.govRefresh (.ite (.setFld (.setFld (.setFld h))) (.setFld (.setFld h)))))

theorem Keeps.thermMaxWrite (h : Keeps s t) {d : Nat} {v : Word} : Keeps s (thermMaxWrite t d v) := .ite (.setFld h) h

theorem Keeps.startTrial (h : Keeps s t) {h' : List Byte} : Keeps s (startTrial t h') :=
  .storeList (.setOasis (.setReg (.setFld h)))

theorem Keeps.handoff (h : Keeps s t) {entry : Nat} : Keeps s (handoff t entry) := by
  unfold Machine.handoff
  extract_lets hd t1 t2 a t3 t4 t5 t6 x t7
  have h1 : Keeps s t1 := .zeroize h
  have h5 : Keeps s t5 := .setReg (.setFld (.setFld (.each h1 fun _ _ hu => .setReg hu)))
  have h6 : Keeps s t6 := .ite (.startTrial h5) h5
  exact .setStew (.others h6) fun _ => rfl

theorem Keeps.handoffWrite (h : Keeps s t) {a : Access} {v : Word} : Keeps s (handoffWrite t a v) := .ite (.handoff h) h

theorem Keeps.clearFast (h : Keeps s t) : Keeps s (clearFast t) := .setOasis h

theorem Keeps.writeFast (h : Keeps s t) {h' : List Byte} : Keeps s (writeFast t h') :=
  .storeList (.setOasis (.setOasis (.setOasis (.setOasis h))))

theorem Keeps.confirm (h : Keeps s t) : Keeps s (confirm t) := by
  unfold Machine.confirm
  extract_lets hd t1 x y t2
  have h1 : Keeps s t1 := .setReg (.setFld h)
  have hy (hw : ShellWf t1.shell) : ShellWf y := by
    have hx : ShellWf x := hw.writeRecord
    unfold y
    split
    · exact hx.writeRecord
    · exact hx
  exact .writeFast (.setOasis (.others (.withShell h1 hy)))

theorem Keeps.confirmWrite (h : Keeps s t) {v : Word} : Keeps s (confirmWrite t v) := .ite (.confirm h) h

theorem Answers.execTrialExpiry (h : Keeps s t) : Answers s (execTrialExpiry t) := .whenDue h (.assertReset h)

theorem Keeps.recovWrite (h : Keeps s t) {v : Word} : Keeps s (recovWrite t v) :=
  .ite h (.ite (.others (.setFld (.setFld h))) (.setFld h))

theorem Keeps.statusnWrite (h : Keeps s t) {v : Word} : Keeps s (statusnWrite t v) := .ite h (.setFld h)

end Sys2Proof.Machine
end

section
/-! PROOFS. What every step keeps: registers and bus accesses (R345–R368). -/
namespace Sys2Proof.Machine

-- Elaborated in turn, the rules need less memory than side by side.
set_option Elab.async false
variable {s t : State}

theorem Keeps.engineDone (h : Keeps s t) {d status : Nat} {words : List Word} : Keeps s (engineDone t d status words) :=
  .each (.setFld (.setFld (.setFld (.setLinkPort h)))) fun _ _ hu => .setReg hu

theorem Keeps.remoteCmdWrite (h : Keeps s t) {d : Nat} {v : Word} : Keeps s (remoteCmdWrite t d v) := by
  refine .ite (.setReg h) ?_
  refine .ite (.setFld h) ?_
  extract_lets t1 p x t2 t3 t4
  have h1 : Keeps s t1 := .setReg h
  have h2 : Keeps s t2 := .setLinkPort h1
  have h3 : Keeps s t3 := .setFld h2
  have h4 : Keeps s t4 := .deviceSend h3
  exact .ite (.ite (.engineDone h4) h4) (.ite (.engineDone h4) h4)

theorem Keeps.startPorts (h : Keeps s t) {num low : Nat} : Keeps s (startPorts t num low) := .sapTrigAll h

theorem Keeps.startWrite (h : Keeps s t) {d : Nat} {v : Word} : Keeps s (startWrite t d v) :=
  .ite (.setFld h) (.startPorts (.deviceSend (.others (.setFld h))))

theorem Keeps.countLowRead (h : Keeps s t) {d : Nat} {a : Access} : Keeps s (countLowRead t d a).1 := .setTab (.setTab h)

theorem Keeps.readPulse (h : Keeps s t) {d o : Nat} {a : Access} : Keeps s (readPulse t d o a).1 := by
  unfold Machine.readPulse
  split
  · exact h
  · exact h
  · exact h
  · exact h
  · exact .countLowRead h
  · exact h
  · exact h
  · exact h
  · exact h
  · exact h
  · exact h
  · exact h

theorem Keeps.timeLeft (h : Keeps s t) {a : Nat} : Keeps s (timeLeft t a).1 := .setReg (.others h)

theorem Keeps.readWake (h : Keeps s t) {o : Nat} : Keeps s (readWake t o).1 := by
  unfold Machine.readWake
  split
  · exact .ite' (.timeLeft h) h
  · exact h
  · exact h

theorem Keeps.readBoot (h : Keeps s t) {o : Nat} : Keeps s (readBoot t o).1 := by
  unfold Machine.readBoot
  split
  · exact h
  · exact .ite' (.timeLeft h) h
  · exact h
  · exact h
  · exact h
  · exact h
  · exact h

theorem Keeps.readQueue (h : Keeps s t) {d q o : Nat} {a : Access} : Keeps s (readQueue t d q o a).1 :=
  .ite' (.ite' h (.ite' (.queuePop h) h)) h

theorem Keeps.regRead (h : Keeps s t) {d q o : Nat} {a : Access} : Keeps s (regRead t d q o a).1 :=
  .ite' (.readPulse h) (.ite' h (.ite' h (.ite' (.ite' h (.ite' (.readWake h) (.ite' (.readBoot h) h))) (.ite' h (.ite' h (.ite'
    (.readQueue h) (.ite' h (.ite' h (.ite' h (.ite' h (.ite' h (.ite' h (.ite' h (.ite' h (.ite' h (.ite' h (.ite' h
      (.ite' h h))))))))))))))))))

theorem Keeps.plainWrite (h : Keeps s t) {d q o : Nat} {a : Access} {v : Word} : Keeps s (plainWrite t d q o a v) := by
  obtain heq | ⟨w, heq⟩ := plainWrite_cases t d q o a v
  · rw [heq]
    exact h
  · rw [heq]
    exact .setReg h

theorem Keeps.clearValid (h : Keeps s t) {a : Nat} {v : Word} : Keeps s (clearValid t a v) := .ite (.setReg h) h

theorem Keeps.sgrpWrite (h : Keeps s t) {d : Nat} {v : Word} : Keeps s (sgrpWrite t d v).1 := .ite' h (.setTab h)

theorem Keeps.fadeWrite (h : Keeps s t) {d : Nat} {v : Word} : Keeps s (fadeWrite t d v).1 := by
  refine .ite' h ?_
  split
  · exact .setTab h
  · exact .setTab h
  · exact h

theorem Keeps.latWrite (h : Keeps s t) {d : Nat} {v : Word} : Keeps s (latWrite t d v) := by
  unfold Machine.latWrite
  dsimp only
  split
  · exact .setTab h
  · exact .setTab h
  · exact h

theorem Keeps.writePulse (h : Keeps s t) {d o : Nat} {a : Access} {v : Word} : Keeps s (writePulse t d o a v).1 := by
  unfold Machine.writePulse
  split
  · exact .ite (.pulseCtlWrite h) h
  · exact .ite (.pulseCfgWrite h) h
  · exact .ite (.pulseCountWrite h) h
  · exact .ite (.pulseCountWrite h) h
  · exact .clearValid h
  · exact .ite (.setReg (.setReg h)) h
  · exact .ite (.setReg (.setReg h)) h
  · exact .sgrpWrite h
  · exact .fadeWrite h
  · exact .latWrite h
  · exact .plainWrite h

theorem Keeps.writeGov (h : Keeps s t) {d o : Nat} {a : Access} {v : Word} : Keeps s (writeGov t d o a v).1 := by
  unfold Machine.writeGov
  split
  · exact .govRefresh (.plainWrite h)
  · exact .govRefresh (.plainWrite h)
  · exact .govRefresh (.plainWrite h)
  · exact .govRefresh (.plainWrite h)
  · exact .ite (.setFld (.setFld h)) h
  · exact .plainWrite h

theorem Keeps.writePwr (h : Keeps s t) {d o : Nat} {a : Access} {v : Word} : Keeps s (writePwr t d o a v).1 := by
  unfold Machine.writePwr
  split
  · exact .pwrCtlWrite h
  · exact .modeWrite h
  · exact .ite (.holdWrite h) h
  · exact .vdataWrite h
  · exact .clearValid h
  · exact .padrelWrite h
  · exact .plainWrite h

theorem Keeps.writeWake (h : Keeps s t) {o : Nat} {a : Access} {v : Word} : Keeps s (writeWake t o a v).1 :=
  .powerSyncAll (.ite (.wakeTimerWrite h) (.plainWrite h))

theorem Keeps.writeBoot (h : Keeps s t) {o : Nat} {a : Access} {v : Word} : Keeps s (writeBoot t o a v).1 := by
  unfold Machine.writeBoot
  split
  · exact .confirmWrite h
  · exact .ite' (.handoffWrite h) h
  · exact .statusnWrite h
  · exact .recovWrite h
  · exact .plainWrite h

theorem Keeps.writeFw (h : Keeps s t) {d o : Nat} {a : Access} {v : Word} : Keeps s (writeFw t d o a v).1 :=
  .ite' h (.ite' h (.ite' h (.ite' (.setReg h) (.ite' (.setTab h) (.plainWrite h)))))

theorem Keeps.writeBus (h : Keeps s t) {d o : Nat} {a : Access} {v : Word} : Keeps s (writeBus t d o a v).1 := by
  unfold Machine.writeBus
  split
  · exact .ite' (.setReg h) h
  · exact .ite h (.setFld (.setReg h))
  · exact .ite (.setReg (.setReg h)) h
  · exact .setReg h
  · exact .plainWrite h

theorem Keeps.queueEmpty (h : Keeps s t) {d q : Nat} : Keeps s (queueEmpty t d q) := .setQueueCount (.setReg (.setReg h))

theorem Keeps.queueCfgWrite (h : Keeps s t) {d q : Nat} {v : Word} : Keeps s (queueCfgWrite t d q v) :=
  .ite (.ite h (.queueEmpty (.setFld h))) (.ite (.setFld h) (.setQueueCount (.setReg h)))

theorem Keeps.writeQueue (h : Keeps s t) {d q o : Nat} {a : Access} {v : Word} : Keeps s (writeQueue t d q o a v).1 :=
  .ite' (.ite' h (.ite' (.queuePushData h) (.setTab h))) (.ite' (.queueCfgWrite h) (.ite' h (.plainWrite h)))

theorem Keeps.writeWadi (h : Keeps s t) {d o : Nat} {a : Access} {v : Word} : Keeps s (writeWadi t d o a v).1 :=
  .ite (.setReg (.plainWrite h)) (.plainWrite h)

theorem Keeps.bridgeSwapWrite (h : Keeps s t) {d : Nat} {v : Word} : Keeps s (bridgeSwapWrite t d v) :=
  .each h fun _ _ hu => .ite hu (.ite (.swapDirect (.setBridge hu)) (.setBridge hu))

theorem Keeps.bridgeDataWrite (h : Keeps s t) {d : Nat} {v : Word} : Keeps s (bridgeDataWrite t d v).1 :=
  .ite' h (.ite' h (.setTab h))

theorem Keeps.writeBridge (h : Keeps s t) {d o : Nat} {a : Access} {v : Word} : Keeps s (writeBridge t d o a v).1 := by
  unfold Machine.writeBridge
  split
  · exact .plainWrite h
  · exact .ite (.setFld (.plainWrite h)) (.plainWrite h)
  · exact .bridgeSwapWrite h
  · exact .bridgeDataWrite h
  · exact .plainWrite h

theorem Keeps.writeMeter (h : Keeps s t) {d q o : Nat} {a : Access} {v : Word} : Keeps s (writeMeter t d q o a v).1 := by
  unfold Machine.writeMeter
  dsimp only
  split
  · exact .meterCfgWrite h
  · exact .ite (.setReg h) h
  · exact .plainWrite h

theorem Keeps.writeSilence (h : Keeps s t) {d o : Nat} {a : Access} {v : Word} : Keeps s (writeSilence t d o a v).1 :=
  .ite' (.detWrite h) (.ite' (.takeOr (.slistWrite h)) (.ite' (.parkWrite h) (.ite' (.laWrite h) (.plainWrite h))))

theorem Keeps.writeGen (h : Keeps s t) {d o : Nat} {a : Access} {v : Word} : Keeps s (writeGen t d o a v).1 :=
  .ite' (.ite' (.setFld h) (.ite' (.genCtlWrite h) (.plainWrite h))) (.plainWrite h)

theorem Keeps.writeSap (h : Keeps s t) {d m o : Nat} {a : Access} {v : Word} : Keeps s (writeSap t d m o a v).1 := by
  unfold Machine.writeSap
  extract_lets t1 t2 t3
  have h1 : Keeps s t1 := .ite (.rxJudgeSome h) h
  have h2 : Keeps s t2 := .ringRotFit (.ringRotFit (.plainWrite h1))
  have h3 : Keeps s t3 := .ite (.sapCtlWrite h) (.ite (.sapMaskWrite h) (.ite (.sapMaskWrite h) (.ite (.sapTrigWrite h)
    (.ite (.sapFlag h) (.ite (.ringFill h2) h2)))))
  exact .done (.powerSync h3)

theorem Keeps.writeSrc (h : Keeps s t) {d e o : Nat} {a : Access} {v : Word} : Keeps s (writeSrc t d e o a v).1 :=
  .ite' (.ite' h (.takeOr (.srcEntryWrite h))) (.plainWrite h)

theorem Keeps.writeSteer (h : Keeps s t) {d o : Nat} {a : Access} {v : Word} : Keeps s (writeSteer t d o a v).1 :=
  .ite' (.ite' h (.ite' (.steerCtlWrite h) (.ite' (.steerSelWrite h) (.plainWrite h)))) (.ite' (.sapFlag h) (.plainWrite h))

theorem Keeps.writeCsp (h : Keeps s t) {d o : Nat} {a : Access} {v : Word} : Keeps s (writeCsp t d o a v).1 :=
  .ite' (.cspCtlWrite h) (.ite' (.cspCfgWrite h) (.ite' (.cspPush h) (.ite' (.cspStage h) (.plainWrite h))))

theorem Keeps.writeLink (h : Keeps s t) {d o : Nat} {a : Access} {v : Word} : Keeps s (writeLink t d o a v).1 := by
  refine .ite' h ?_
  split
  · exact .done (.linkIdWrite h)
  · exact .done (.elect (.plainWrite h))
  · exact .takeOr (.routeWrite h)
  · exact .done (.routeSwapGo h)
  · exact .done (.linkCtlWrite h)
  · exact .takeOr (.exportWrite h)
  · exact .done (.exportSwapGo h)
  · exact .done (.startWrite h)
  · exact .done (.remoteCmdWrite h)
  · exact .done (.plainWrite h)

theorem Keeps.carDataWrite (h : Keeps s t) {d p : Nat} {v : Word} : Keeps s (carDataWrite t d p v).1 :=
  .ite' h (.ite' h (.setTab h))

theorem Keeps.writeCaravan (h : Keeps s t) {d p o : Nat} {a : Access} {v : Word} : Keeps s (writeCaravan t d p o a v).1 := by
  unfold Machine.writeCaravan
  split
  · exact .done (.powerSync (.plainWrite h))
  · exact .done (.shareWrite h)
  · exact .done (.ite (.carSwapGo h) h)
  · exact .carDataWrite h
  · exact .done (.clearValid h)
  · exact .done (.plainWrite h)

theorem Keeps.writeDdr (h : Keeps s t) {d o : Nat} {a : Access} {v : Word} : Keeps s (writeDdr t d o a v).1 := by
  unfold Machine.writeDdr
  split
  · exact .ddrCtlWrite h
  · exact .ddrCfgWrite h
  · exact .plainWrite h

theorem Keeps.ltabWrite (h : Keeps s t) {d p : Nat} {v : Word} : Keeps s (ltabWrite t d p v).1 := by
  unfold Machine.ltabWrite
  split
  · exact h
  · exact .ite' h (.setTab h)

theorem Keeps.writePod (h : Keeps s t) {d p o : Nat} {a : Access} {v : Word} : Keeps s (writePod t d p o a v).1 :=
  .ite' (.ltabWrite h) (.ite' (.eccClear h) (.ite' (.eccClear h) (.ite' (.hownWrite h) (.plainWrite h))))

theorem Keeps.writeKernel (h : Keeps s t) {d k o : Nat} {a : Access} {v : Word} : Keeps s (writeKernel t d k o a v).1 := by
  refine .ite' h ?_
  split
  · exact .kernelCtlWrite h
  · exact .bankModeWrite h
  · exact .eccClear h
  · exact .plainWrite h

theorem Keeps.settleHold (h : Keeps s t) {d i : Nat} : Keeps s (settleHold t d i) := .ite (.sameStew h) h

theorem Keeps.stewardCtlWrite (h : Keeps s t) {d i : Nat} {v : Word} : Keeps s (stewardCtlWrite t d i v) := by
  unfold Machine.stewardCtlWrite
  extract_lets run t1 st k
  have h1 : Keeps s t1 := .setFld h
  have hrun : Keeps s (Machine.setStew t1 d i
      { core := { k with r := { k.r with pc := fld t1 (Reg.STEWARD_START d i) F.STEWARD_START_ADDR }, free :=
        { k.free with ipl := 0 },
                         rep := .idle, dly := none, lact := 0, iterEnd := false, brk := none }, st := .run }) :=
    .setStew h1 fun hs => Core.wf_of (h1.stewCore hs) (Core.wf_r (h1.stewCore hs)) rfl rfl rfl
  refine .ite (.settleHold h1) ?_
  split
  · exact hrun
  · exact hrun
  · exact hrun
  · exact h1

theorem Keeps.writeSteward (h : Keeps s t) {d i o : Nat} {a : Access} {v : Word} : Keeps s (writeSteward t d i o a v).1 := by
  unfold Machine.writeSteward
  split
  · exact .stewardCtlWrite h
  · exact .setReg h
  · exact .plainWrite h

theorem Keeps.regWrite (h : Keeps s t) {d q o : Nat} {a : Access} {v : Word} : Keeps s (regWrite t d q o a v).1 :=
  .ite' (.writePulse h) (.ite' (.writeGov h) (.ite' (.writePwr h) (.ite' (.ite' h (.ite' (.writeWake h) (.ite' (.writeBoot h) h)))
    (.ite' (.writeFw h) (.ite' (.writeBus h) (.ite' (.spareCmdWrite h) (.ite' (.thermMaxWrite h) (.ite' (.writeQueue h) (.ite'
      (.writeWadi h) (.ite' (.writeBridge h) (.ite' (.writeMeter h) (.ite' (.writeSilence h) (.ite' (.writeGen h) (.ite'
        (.writeSap h) (.ite' (.writeSrc h) (.ite' (.writeSteer h) (.ite' (.writeCsp h) (.ite' (.writeLink h) (.ite' (.writeDdr h)
          (.ite' (.writeCaravan h) (.ite' (.writePod h) (.ite' (.writeKernel h) (.ite' (.writeSteward h)
            (.plainWrite h))))))))))))))))))))))))

theorem Keeps.okBytes (h : Keeps s t) {addr width : Nat} : Keeps s (okBytes t addr width).1 := h

theorem Keeps.targetRead (h : Keeps s t) {d loc width : Nat} {a : Access} : Keeps s (targetRead t d loc width a).1 := by
  refine .ite' h ?_
  split
  · exact h
  · exact .ite' (.ite' (.okBytes (.wmLines h)) (.wmLines h)) h
  · exact .hoardRead h
  · exact .winRead h
  · exact .ite' h (.ite' (.regRead h) (.okW (.regRead h)))
  · exact .ite' (.okBytes h) h
  · exact .ite' h h
  · exact .ite' (.okBytes h) h
  · exact .ite' (.ddrTouch h) h

theorem Keeps.targetWrite (h : Keeps s t) {d loc width : Nat} {a : Access} {v : Nat} :
    Keeps s (targetWrite t d loc width a v).1 := by
  refine .ite' h ?_
  split
  · exact h
  · exact .ite' (.wmFresh (.storeBytes h)) h
  · exact .hoardWrite h
  · exact .winWrite h
  · exact .ite' h (.regWrite h)
  · exact h
  · exact .ite' h (.ite' h (.ite' (.withShell h fun hx => hx.shellPut) h))
  · exact .ite' h (.ite' (.storeBytes h) h)
  · exact .ite' (.ddrWrite h) h

theorem Keeps.answer {x : Ans} (h : Keeps s x.1) {d addr : Nat} {a : Access} {write : Bool} :
    Keeps s (answer d addr a write x) := by
  unfold Machine.answer
  split
  · exact .others (.busError h)
  · exact .others h

theorem Keeps.busAccess (h : Keeps s t) {a : Access} {addr : Nat} {write : Bool} {go : Nat → Nat → Ans}
    (hgo : ∀ d loc, Keeps s (go d loc).1) : Keeps s (busAccess a addr write go t) :=
  .ite (.others h) (.ite h (.ite (.answer h) (.ite (.answer h) (.answer (hgo _ _)))))

theorem Keeps.busRead (h : Keeps s t) {a : Access} {addr width : Nat} : Keeps s (busRead a addr width t) :=
  .busAccess h fun _ _ => .targetRead h

theorem Keeps.busWrite (h : Keeps s t) {a : Access} {addr width v : Nat} : Keeps s (busWrite a addr width v t) :=
  .busAccess h fun _ _ => .targetWrite h

end Sys2Proof.Machine
end

section
/-! PROOFS. What every step keeps: boot and the target side of the serial port (R375–R407, R457–R461). -/
namespace Sys2Proof.Machine

-- Elaborated in turn, the rules need less memory than side by side.
set_option Elab.async false
variable {s t : State}

theorem Keeps.setSlotCode (h : Keeps s t) {i code : Nat} : Keeps s (setSlotCode t i code) := .ite (.setFld h) (.setFld h)

theorem Keeps.attemptFail (h : Keeps s t) {k : Nat} : Keeps s (attemptFail t k) := .others (.setOasis (.incOasis h))

theorem Answers.execBootDirectoryRead (h : Keeps s t) {p q again : List Byte} : Answers s (execBootDirectoryRead p q again t) := by
  refine .whenDue h ?_
  extract_lets x t1 x'
  have h1 : Keeps s t1 := .others h
  split
  · exact .attemptFail h1
  · exact .others h1

theorem Keeps.startLoad (h : Keeps s t) {i : Nat} : Keeps s (startLoad t i) := .others (.ite (.clearFast h) h)

theorem Keeps.afterCheck (h : Keeps s t) : Keeps s (afterCheck t) := by
  unfold Machine.afterCheck
  split
  · exact .startLoad h
  · exact .attemptFail h

theorem Keeps.fastFail (h : Keeps s t) : Keeps s (fastFail t) := .others (.setFld (.clearFast h))

theorem Keeps.checkReady (h : Keeps s t) : Keeps s (checkReady t) := .ite (.others (.setFld h)) h

theorem Keeps.fastHeader (h : Keeps s t) {img : Option (List Byte)} : Keeps s (fastHeader t img) := by
  unfold Machine.fastHeader
  split
  · exact .fastFail h
  · exact .ite (.checkReady (.others h)) (.fastFail h)

theorem Keeps.noteHeader (h : Keeps s t) {off : Nat} {reads : Bool} {h' : List Byte} : Keeps s (noteHeader t off reads h') :=
  .ite h (.others h)

theorem Answers.execSlotCheck (h : Keeps s t) {i : Nat} {img : Option (List Byte)} : Answers s (execSlotCheck i img t) := by
  refine .whenDue h ?_
  extract_lets t1 code h' t2 t3 x t4
  have h1 : Keeps s t1 := .noteHeader h
  have h2 : Keeps s t2 := .setSlotCode h1
  have h3 : Keeps s t3 := .setReg h2
  have h4 : Keeps s t4 := .others h3
  exact .ite (.fastHeader h1) (.ite (.afterCheck h4) h4)

theorem Keeps.loaderWrite {bs : List Byte} {a : Nat} (h : Keeps s t) : Keeps s (loaderWrite bs a t) := by
  induction bs, a, t using Machine.loaderWrite.induct with
  | case1 b0 b1 b2 b3 bs a t ih =>
    unfold Machine.loaderWrite
    exact ih (.ite (.busWrite h) (.busWrite (.busWrite (.busWrite (.busWrite h)))))
  | case2 bs a t hshort =>
    unfold Machine.loaderWrite
    split
    · next b0 b1 b2 b3 bs => exact absurd rfl (hshort b0 b1 b2 b3 bs)
    · exact h

theorem Keeps.loadSegment (h : Keeps s t) {recov : Bool} {h' : List Byte} {i : Nat} {data : List Byte} :
    Keeps s (loadSegment t recov h' i data).1 := by
  unfold Machine.loadSegment
  extract_lets e x x' t1 x'' t2
  have h1 : Keeps s t1 := .others h
  have h2 : Keeps s t2 := .loaderWrite h1
  refine .ite' h1 ?_
  split
  · exact .loaderWrite h1
  · exact .ite' (.others h1) h1
  · exact h2

theorem Keeps.segmentFail (h : Keeps s t) {code : Nat} : Keeps s (segmentFail t code) :=
  .ite (.assertReset (.clearFast h)) (.ite (.fastFail h) (.ite (.startLoad (.others (.setSlotCode h))) (.attemptFail (.others
    (.setSlotCode h)))))

theorem Keeps.noteSegment (h : Keeps s t) {h' : List Byte} {i : Nat} : Keeps s (noteSegment t h' i) := .others h

theorem Answers.execSegmentLoad (h : Keeps s t) {data : List Byte} : Answers s (execSegmentLoad data t) := by
  unfold Machine.execSegmentLoad
  dsimp only
  split
  · exact .whenDue h (.ite (.segmentFail (.loadSegment (.noteSegment h))) (.checkReady (.others (.loadSegment (.noteSegment h)))))
  · exact .whenDue h (.ite (.segmentFail (.loadSegment (.noteSegment h))) (.others (.loadSegment (.noteSegment h))))
  · exact .next h

theorem Answers.execFastWakeLoadDone (h : Keeps s t) : Answers s (execFastWakeLoadDone t) := .whenDue h (.setFld h)

theorem Answers.execBootRetryWaitEnd (h : Keeps s t) : Answers s (execBootRetryWaitEnd t) := .whenDue h (.others h)

theorem Keeps.fwApply (h : Keeps s t) {r : List Byte} : Keeps s (fwApply r t) :=
  .ite h (.ite (.setReg (.setReg (.setFld h))) (.ite (.setTab (.setTab (.setTab (.setTab (.setFld h))))) (.setFld h)))

theorem Keeps.fwProgram (h : Keeps s t) : Keeps s (fwProgram t) :=
  .each (.folded (fun _ _ hu => .each hu fun _ _ hv => .fwApply hv) _ h) fun _ _ hu => .setFld hu

theorem Answers.execBootHandoff (h : Keeps s t) : Answers s (execBootHandoff t) := .whenDue h (.handoff (.fwProgram h))

theorem Keeps.recovRead (h : Keeps s t) {o n : Nat} : Keeps s (recovRead t o n).1 := .dmaRead h

theorem Keeps.loadAll (h : Keeps s t) {hd : List Byte} {is : List Nat} : Keeps s (loadAll hd is t).1 := by
  induction is generalizing t with
  | nil => exact h
  | cons i is ih =>
    unfold Machine.loadAll
    extract_lets e r
    have hr : Keeps s r.1 := .ite' h (.recovRead h)
    split
    · next u hload => exact ih (.ofPair hload (.loadSegment hr))
    · exact .loadSegment hr

theorem Keeps.recoverImage (h : Keeps s t) : Keeps s (recoverImage t).1 :=
  .ite' h (.ite' (.others (.recovRead (.recovRead h))) (.loadAll (.others (.recovRead (.recovRead h)))))

theorem Answers.execRecoveryCheckDone (h : Keeps s t) : Answers s (execRecoveryCheckDone t) := by
  have hshow : Keeps s (Machine.setFld (Machine.setFld (Machine.recoverImage t).1 (Reg.BOOT_RECOV 0) F.BOOT_RECOV_BUSY 0)
      (Reg.BOOT_RECOV 0) F.BOOT_RECOV_RESULT (Machine.recoverImage t).2) := .setFld (.setFld (.recoverImage h))
  exact .whenDue h (.ite (.others (.setFld hshow)) (.others hshow))

theorem Answers.execDebugCertVerify (h : Keeps s t) {c : List Byte} : Answers s (execDebugCertVerify c t) :=
  .whenDue h (.ite (.powerSyncAll (.setFld (.setFld (.zeroize h)))) h)

theorem Answers.execStewardDebugHalt (h : Keeps s t) {d i : Nat} : Answers s (execStewardDebugHalt d i t) := by
  refine .onUnit (.whenDue h (.powerSync (.setStew h fun hs => ?_)))
  exact Core.wf_aside (h.stewCore (d := d) (i := i) hs) rfl rfl rfl rfl

theorem Answers.execDebugFuseProgram (h : Keeps s t) {o : FuseOp} : Answers s (execDebugFuseProgram o t) :=
  .whenDue h (.others h)

theorem Keeps.setXfer (h : Keeps s t) {t' : Option CspTarget} : Keeps s (setXfer t t') := .setCsp h

theorem Keeps.cspFlag (h : Keeps s t) {f : Fld} : Keeps s (cspFlag t f) := .setFld h

theorem Keeps.issueRead (h : Keeps s t) {auto : Bool} {width addr count : Nat} : Keeps s (issueRead t auto width addr count) :=
  .setXfer (.ite (.busRead h) (.cspFlag (.busRead h)))

theorem Keeps.issueNext (h : Keeps s t) {auto : Bool} {width addr count : Nat} : Keeps s (issueNext t auto width addr count) :=
  .issueRead (.ite (.cspFlag h) h)

theorem Answers.execCspTargetSelect (h : Keeps s t) : Answers s (execCspTargetSelect t) := .fromPads h (.whenDue h (.setXfer h))

theorem Answers.execCspTargetCommand (h : Keeps s t) {cmd addr : Nat} : Answers s (execCspTargetCommand cmd addr t) :=
  .fromPads h (.whenDue h (.ite (.setXfer (.cspFlag h)) (.ite (.issueRead h) (.setXfer h))))

theorem Answers.execCspTargetReadWord (h : Keeps s t) {late : Bool} : Answers s (execCspTargetReadWord late t) := by
  refine .fromPads h ?_
  split
  · exact .whenDue h (.issueNext (.ite (.cspFlag (.setCsp h)) (.setCsp h)))
  · exact .next h

theorem Keeps.targetWord (h : Keeps s t) {e : Nat × Nat × Nat} : Keeps s (targetWord e t) :=
  .ite (.busWrite h) (.cspFlag (.busWrite h))

theorem Keeps.drainWords (h : Keeps s t) : Keeps s (drainWords t) := .each (.setCsp h) fun _ _ hu => .targetWord hu

theorem Answers.execCspTargetWriteWord (h : Keeps s t) {v : Nat} {stalled : Bool} :
    Answers s (execCspTargetWriteWord v stalled t) := by
  refine .fromPads h ?_
  split
  · refine .whenDue h ?_
    extract_lets e x t1 n
    have h1 : Keeps s t1 := .ite (.targetWord (.drainWords h)) (.ite (.setCsp h) (.cspFlag h))
    exact .setXfer (.ite (.cspFlag h1) h1)
  · exact .next h

theorem Answers.execCspTargetRelease (h : Keeps s t) {mid : Option Bool} : Answers s (execCspTargetRelease mid t) := by
  refine .fromPads h ?_
  refine .whenDue h ?_
  extract_lets t1
  have h1 : Keeps s t1 := .drainWords h
  split
  · exact h1
  · exact .setXfer h1
  · exact .setXfer (.cspFlag h1)
  · extract_lets t2 t3
    have h2 : Keeps s t2 := .ite (.cspFlag h1) h1
    have h3 : Keeps s t3 := .ite (.issueNext h2) h2
    exact .setXfer (.ite (.cspFlag h3) h3)

end Sys2Proof.Machine
end

section
/-! PROOFS. What every step keeps: operands, exceptions, lines and slots (R61–R93, R128–R189). -/
namespace Sys2Proof.Machine

-- Elaborated in turn, the rules need less memory than side by side.
set_option Elab.async false
variable {s t : State}

theorem Reads.readKernelWord (h : Keeps s t) {d k mem : Nat} {bankB : Bool} {w a : Nat} :
    Reads s (readKernelWord t d k mem bankB w a) := by
  unfold Machine.readKernelWord
  split
  · exact h
  · exact Keeps.kernelCorrected h
  · exact h

theorem Reads.readHoardWord (h : Keeps s t) {d p w : Nat} : Reads s (readHoardWord t d p w) := by
  unfold Machine.readHoardWord
  split
  · exact h
  · exact Keeps.hoardCorrected h
  · exact Keeps.hoardUncorrectable h

theorem Keeps.noteHoardRead (h : Keeps s t) {d k : Nat} {v : Word} : Keeps s (noteHoardRead t d k v) := .sameKern h

theorem Reads.readHoardOp (h : Keeps s t) {c : CoreRef} {w : Nat} : Reads s (readHoardOp t c w) := by
  unfold Machine.readHoardOp
  dsimp only
  split
  · split
    · exact Keeps.noteHoardRead h
    · trivial
  · exact .readHoardWord h
  · exact .ite (.andThen (.readHoardWord h) fun _ _ hu => Keeps.noteHoardRead hu) h

theorem Reads.writeHoardOp (h : Keeps s t) {c : CoreRef} {w : Nat} {v : Word} : Reads s (writeHoardOp t c w v) := by
  unfold Machine.writeHoardOp
  extract_lets kn noted a
  have hnoted : Keeps s noted := .sameKern h
  split
  · exact hnoted
  · exact Keeps.setEcc (.storeW h)
  · exact .ite (Keeps.setEcc (.storeW hnoted)) h

theorem Reads.stewRead (h : Keeps s t) {c : CoreRef} {w : Nat} : Reads s (stewRead t c w) := by
  unfold Machine.stewRead
  dsimp only
  split
  · exact Keeps.busRead h
  · exact Keeps.busRead h

theorem Reads.stewWrite (h : Keeps s t) {c : CoreRef} {w : Nat} {v : Word} : Reads s (stewWrite t c w v) := by
  unfold Machine.stewWrite
  dsimp only
  split
  · exact Keeps.busWrite h
  · exact Keeps.busWrite h

theorem Reads.readMem (h : Keeps s t) {c : CoreRef} {ptr p : Nat} : Reads s (readMem t c ptr p) :=
  .ite (.stewRead h) (.ite (.readKernelWord h) (.ite (.readHoardOp h) (.readKernelWord h)))

theorem Keeps.writeKernelWord (h : Keeps s t) {c : CoreRef} {off : Nat} {v : Word} : Keeps s (writeKernelWord t c off v) :=
  .ite (.each (.kernFrom (.setEcc (.storeW h)) h) fun _ _ hu => .setEcc (.storeW hu)) (.kernFrom (.setEcc (.storeW h)) h)

theorem Reads.writeMem (h : Keeps s t) {c : CoreRef} {ptr p : Nat} {v : Word} : Reads s (writeMem t c ptr p v) :=
  .ite (.stewWrite h) (.ite (.ok (.writeKernelWord h)) (.ite (.writeHoardOp h) (.ok (.writeKernelWord h))))

theorem Reads.readDual (h : Keeps s t) {c : CoreRef} {o : DualOp} : Reads s (readDual t c o) := by
  cases o with
  | reg n => exact h
  | mem m => exact .readMem h

theorem Reads.readPair (h : Keeps s t) {c : CoreRef} {o : DualOp} : Reads s (readPair t c o) := by
  cases o with
  | reg n => exact h
  | mem m => exact .andThen (.readMem h) fun _ _ hu => .andThen (.readMem hu) fun _ _ hv => .ok hv

theorem Keeps.faultKernel (h : Keeps s t) {d k fcode : Nat} : Keeps s (faultKernel t d k fcode) := by
  refine .postEvent (.setFld (.setKern h fun hs => ?_))
  have hk := h.kernCore (d := d) (k := k) hs
  have hr := Core.wf_r hk
  exact Core.wf_image hk hr rfl rfl rfl

theorem Keeps.kernelFault (h : Keeps s t) {d k fcode : Nat} : Keeps s (kernelFault t d k fcode) :=
  .ite (.spareTrigger (.faultKernel h)) (.ite (.dropSpare (.faultKernel h)) (.faultKernel h))

theorem Keeps.doubleException (h : Keeps s t) {c : CoreRef} {vec : Nat} : Keeps s (doubleException t c vec) :=
  .ite (.setFld (.sameStew h)) (.faultKernel h)

theorem Keeps.raiseException (h : Keeps s t) {c : CoreRef} {vec code : Nat} : Keeps s (raiseException t c vec code) := by
  have hk (hs : s.wf = true) : (Machine.coreOf t c).wf = true := h.coreOf hs
  have hrpc (hs : s.wf = true) {w : Word} : Core.wf { Machine.coreOf t c with r := {
    (Machine.coreOf t c).r with rpc := w } } = true :=
    Core.wf_of (hk hs) (Core.wf_r (hk hs)) rfl rfl rfl
  refine .ite (.doubleException h) (.ite (.setCore h fun hs => ?_) (.setCore h fun hs => ?_))
  · exact Core.wf_pc (Core.wf_enterVector (Core.wf_nextSlot (hk hs) _)) _
  · exact Core.wf_pc (Core.wf_enterVector (hrpc hs)) _

theorem Keeps.takeInterrupt (h : Keeps s t) {d i n : Nat} : Keeps s (takeInterrupt t d i n) :=
  .setStew h fun hs => Core.wf_enterVector (h.stewCore hs)

theorem Reads.fetchWord (h : Keeps s t) {c : CoreRef} : Reads s (fetchWord t c) := by
  refine .ite ?_ ?_
  · split
    · exact Keeps.busRead h
    · exact Keeps.busRead h
  · split
    · exact h
    · exact Keeps.kernelCorrected h
    · exact h

theorem Reads.fetchSlot (h : Keeps s t) {c : CoreRef} {m : Mode} : Reads s (fetchSlot t c m) := by
  refine .ite h (.andThen (.fetchWord h) fun w u hu => ?_)
  split
  · exact hu
  · exact hu

theorem Keeps.noteSlip (h : Keeps s t) {c : CoreRef} {m : Mode} {sl : Slot} {u : State} (hnote : noteSlip t c m sl = some u) :
    Keeps s u := by
  unfold Machine.noteSlip at hnote
  split at hnote
  · obtain ⟨v, -, rfl⟩ := Option.map_eq_some_iff.mp hnote
    exact .sameKern h
  · cases hnote
    exact h

theorem Keeps.storeLine (h : Keeps s t) {c : CoreRef} {l : LineOp} {v : Word} : Keeps s (storeLine t c l v) := by
  unfold Machine.storeLine
  dsimp only
  split
  · split
    · exact .sameKern h
    · exact .ite (.setSlip (.sameKern h)) (.sameKern h)
  · split
    · exact .sameKern h
    · exact .ite (.setSlip (.sameKern h)) (.sameKern h)
  · exact h

theorem Keeps.passStore (h : Keeps s t) {c : CoreRef} {l : LineOp} : Keeps s (passStore t c l) := by
  unfold Machine.passStore
  dsimp only
  split
  · split
    · exact .sameKern h
    · exact .ite (.setSlip h) h
  · split
    · exact .sameKern h
    · exact .ite (.setSlip h) h
  · exact h

theorem Keeps.settle (h : Keeps s t) {c : CoreRef} : Keeps s (settle c t) := .ite (.settleHold h) h

theorem Keeps.passSlot (h : Keeps s t) {c : CoreRef} {m : Mode} {sl : Slot} : Keeps s (passSlot t c m sl) := by
  unfold Machine.passSlot
  extract_lets u
  have hu : Keeps s u := by
    unfold u
    split
    · exact .passStore h
    · exact h
  exact .settle (.setCore hu fun hs => Core.wf_passCore (hu.coreOf hs))

theorem Answers.finishSlot (h : Keeps s t) {c : CoreRef} {m : Mode} {sl : Slot} {e : Eff} (he : Does s e) :
    Answers s (finishSlot t c m sl e) := by
  have hcharge {u : State} (hu : Keeps s u) {n : Nat} {b : Bool} (hs : s.wf = true) : (charge (Machine.coreOf u c) n b).wf = true :=
    Core.wf_charge (hu.coreOf hs)
  cases e with
  | done u => exact .next (.settle (.setCore he fun hs => Core.wf_advance (hcharge he hs)))
  | jump u => exact .next (.settle (.setCore he (hcharge he)))
  | exc vec code u => exact .next (.settle (.raiseException (.setCore he (hcharge he))))
  | fault f u => exact .next (.kernelFault he)
  | later => exact .next h

theorem Keeps.waitSlip (h : Keeps s t) {c : CoreRef} {n : Nat} : Keeps s (waitSlip t c n) := .sameKern h

theorem Answers.runSlot (h : Keeps s t) {c : CoreRef} {want : Op → Bool} {body : Op → Mode → Bool → State → Eff}
    (hbody : ∀ {op m b u}, Keeps s u → Does s (body op m b u)) : Answers s (runSlot c want body t) := by
  refine .onUnit ?_
  split
  · exact .next h
  · split
    · next sl u hfetch =>
      have hu : Keeps s u := .ofGot hfetch (.fetchSlot h)
      refine .ite (.next h) ?_
      split
      · exact .next (.waitSlip hu)
      · exact .next h
      · next v _ hnote =>
        have hv : Keeps s v := .noteSlip hu hnote
        exact .ite (.next (.passSlot hv)) (.finishSlot h (hbody hv))
    · exact .next h

theorem Keeps.movePM (h : Keeps s t) {c : CoreRef} {r0 : Regs} {mainV : Bool} {pm : PMove} {ldv : Word} :
    Keeps s (movePM c r0 mainV pm ldv t) := by
  have hcapture {a : Nat} {st : StoreRes} : RegsKept fun r => captureRes { r with flg := mergeStore r.flg mainV st } a st := by
    intro r hr
    have hflg : Regs.wf { r with flg := mergeStore r.flg mainV st } = true := hr
    exact Regs.wf_captureRes hflg
  unfold Machine.movePM
  split
  · exact h
  · exact .updRegs h fun _ hr => Regs.wf_setD hr
  · exact .storeLine h
  · exact .storeLine (.updRegs h hcapture)
  · exact .updRegs h fun _ hr => Regs.wf_setD hr
  · exact .updRegs h fun _ hr => Regs.wf_setD (hcapture _ hr)

theorem Keeps.endWait (h : Keeps s t) {c : CoreRef} : Keeps s (endWait t c) := .sameKern h

theorem Keeps.standbyCopy (h : Keeps s t) {d k : Nat} : Keeps s (standbyCopy t d k) := by
  unfold Machine.standbyCopy
  split
  · next sb _ =>
    refine .setKern h fun hs => ?_
    have hk := h.kernCore (d := d) (k := k) hs
    have hr := Core.wf_r hk
    exact Core.wf_copy (h.kernCore (d := d) (k := sb) hs) hk hr rfl rfl rfl
  · exact h

end Sys2Proof.Machine
end

section
/-! PROOFS. What every step keeps: the bodies of instructions and the commands that run them (R83–R168). -/
namespace Sys2Proof.Machine

-- Elaborated in turn, the rules need less memory than side by side.
set_option Elab.async false
variable {s t : State}

theorem Does.regsEff (h : Keeps s t) {c : CoreRef} {f : Regs → Regs} (hf : RegsKept f) :
    Does s (regsEff c t f) := Keeps.updRegs h hf

theorem Does.binBody (h : Keeps s t) {c : CoreRef} {op : Op} {m : Mode} {b : Bool} : Does s (binBody c op m b t) := by
  unfold Machine.binBody
  split
  · exact .regsEff h Regs.wf_binD
  · exact .regsEff h Regs.wf_binA
  · exact h

theorem Does.unBody (h : Keeps s t) {c : CoreRef} {op : Op} {m : Mode} {b : Bool} : Does s (unBody c op m b t) := by
  unfold Machine.unBody
  split
  · exact .regsEff h Regs.wf_unD
  · exact .regsEff h Regs.wf_unA
  · exact .regsEff h Regs.wf_normA
  · exact .regsEff h Regs.wf_divD
  · exact h

theorem Does.bitBody (h : Keeps s t) {c : CoreRef} {op : Op} {m : Mode} {b : Bool} : Does s (bitBody c op m b t) := by
  have hk (hs : s.wf = true) : (Machine.coreOf t c).wf = true := h.coreOf hs
  unfold Machine.bitBody
  split
  · dsimp only
    split
    · exact Keeps.setCore h fun hs => Core.wf_of (hk hs) (Core.wf_r (hk hs)) rfl rfl rfl
    · exact Keeps.setCore h fun hs => Core.wf_writeBitOp (hk hs)
  · exact h

theorem Does.withPM (h : Keeps s t) {c : CoreRef} {mainV : Bool} {pm : PMove} {f : Regs → Regs} (hf : RegsKept f) :
    Does s (withPM c mainV pm f t) :=
  Keeps.movePM (.updRegs h hf)

theorem Does.mulBody (h : Keeps s t) {c : CoreRef} {op : Op} {m : Mode} {b : Bool} : Does s (mulBody c op m b t) := by
  unfold Machine.mulBody
  split
  · next f n s1 s2 int pm =>
    have hpost (g : Regs → Regs) (hg : RegsKept g) : RegsKept fun r => postDual c (postDual c (g r) s1) s2 :=
      fun r hr => Regs.wf_postDual (Regs.wf_postDual (hg r hr))
    refine .ite ?_ ?_
    · exact .toEff (.readPair h) fun x _ hu => .toEff (.readPair hu) fun y _ hv =>
        .withPM hv (hpost (mulComplex f n x y) Regs.wf_mulComplex)
    · exact .toEff (.readDual h) fun x _ hu => .toEff (.readDual hu) fun y _ hv =>
        .withPM hv (hpost (mulReal f n int x y) Regs.wf_mulReal)
  · exact h

theorem Does.searchBody (h : Keeps s t) {c : CoreRef} {op : Op} {m : Mode} {b : Bool} : Does s (searchBody c op m b t) := by
  unfold Machine.searchBody
  split
  · exact .toEff (.readDual h) fun _ _ hu => .withPM hu fun r hr => Regs.wf_postDual (Regs.wf_searchD r hr)
  · exact h

theorem Does.accBody (h : Keeps s t) {c : CoreRef} {op : Op} {m : Mode} {b : Bool} : Does s (accBody c op m b t) := by
  unfold Machine.accBody
  split
  · exact .withPM h fun _ hr => Regs.wf_setAcc hr
  · exact .withPM h fun _ hr => Regs.wf_setAcc hr
  · exact .withPM h fun _ hr => Regs.wf_setAcc hr
  · exact .withPM h fun _ hr => Regs.wf_setAcc hr
  · exact .withPM h fun _ hr => Regs.wf_setAcc hr
  · exact h

theorem Does.storedEff (h : Keeps s t) {c : CoreRef} {u : State} {f : Regs → Regs} (hf : RegsKept f) : Does s (storedEff c u t f) :=
  .ite h (.regsEff h hf)

theorem Does.staBody (h : Keeps s t) {c : CoreRef} {op : Op} {m : Mode} {b : Bool} : Does s (staBody c op m b t) := by
  unfold Machine.staBody
  dsimp only
  split
  · exact .regsEff h fun r hr => Regs.wf_setD (Regs.wf_staRegs r hr)
  · exact .toEff (.writeMem h) fun _ _ hu => .storedEff hu fun r hr => Regs.wf_postMod (Regs.wf_staRegs r hr)
  · exact h

theorem Does.ftapBody (h : Keeps s t) {c : CoreRef} {op : Op} {m : Mode} {b : Bool} : Does s (ftapBody c op m b t) := by
  unfold Machine.ftapBody
  split
  · exact .toEff (.readMem h) fun _ _ hu => .toEff (.readDual hu) fun _ _ hv => .toEff (.writeMem hv) fun _ _ hw =>
      .storedEff hw fun r hr => Regs.wf_postDual (Regs.wf_postMod (Regs.wf_mulReal r hr))
  · exact h

theorem Does.loadBody (h : Keeps s t) {c : CoreRef} {op : Op} {m : Mode} {b : Bool} : Does s (loadBody c op m b t) := by
  unfold Machine.loadBody
  dsimp only
  split
  · exact .toEff (.readMem h) fun _ _ hu => .regsEff hu fun _ hr => Regs.wf_setD (Regs.wf_postMod hr)
  · exact .toEff (.writeMem h) fun _ _ hu => .storedEff hu fun _ hr => Regs.wf_postMod hr
  · exact .regsEff h fun _ hr => Regs.wf_postMod hr
  · exact h

theorem Does.moveBody (h : Keeps s t) {c : CoreRef} {op : Op} {m : Mode} {b : Bool} : Does s (moveBody c op m b t) := by
  unfold Machine.moveBody
  dsimp only
  split
  · exact Keeps.setCore h fun hs => Core.wf_writeCode (h.coreOf hs)
  · exact Keeps.setCore h fun hs => Core.wf_writeCode (h.coreOf hs)
  · exact h

theorem Does.lineBody (h : Keeps s t) {c : CoreRef} {op : Op} {m : Mode} {b : Bool} : Does s (lineBody c op m b t) := by
  unfold Machine.lineBody
  split
  · exact .regsEff h fun _ hr => Regs.wf_setD hr
  · exact Keeps.storeLine h
  · exact h

theorem Does.hoardBody (h : Keeps s t) {c : CoreRef} {op : Op} {m : Mode} {b : Bool} : Does s (hoardBody c op m b t) := by
  unfold Machine.hoardBody
  dsimp only
  split
  · exact .toEff (.readHoardOp h) fun _ _ hu => .regsEff hu fun _ hr => Regs.wf_setD (Regs.wf_postMod hr)
  · exact .toEff (.writeHoardOp h) fun _ _ hu => .regsEff hu fun _ hr => Regs.wf_postMod hr
  · exact h

theorem Does.slipBody (h : Keeps s t) {c : CoreRef} {op : Op} {m : Mode} {b : Bool} : Does s (slipBody c op m b t) := by
  unfold Machine.slipBody
  split
  · exact .lineBody h
  · exact .mulBody h
  · exact .searchBody h
  · exact .accBody h

theorem Does.nopBody (h : Keeps s t) {op : Op} {m : Mode} {b : Bool} : Does s (nopBody op m b t) := h

theorem Does.endBody (h : Keeps s t) {n : Nat} {c : CoreRef} {op : Op} {m : Mode} {b : Bool} : Does s (endBody n c op m b t) := by
  unfold Machine.endBody
  split
  · refine .ite trivial ?_
    extract_lets kn x kn' u
    have hu : Keeps s u := .setKern h fun hs => by
      have hk := h.kernCore (d := c.die) (k := c.idx) hs
      have hr := Core.wf_r hk
      exact Core.wf_image hk hr rfl rfl rfl
    exact .jump (.ite (.standbyCopy hu) hu)
  · exact h

theorem Does.startBranch (h : Keeps s t) {c : CoreRef} {target : Option Nat} {leaves : Bool} {ra : Option Nat} :
    Does s (startBranch c t target leaves ra) := by
  refine Keeps.setCore h fun hs => ?_
  have hk : (Machine.coreOf t c).wf = true := h.coreOf hs
  cases ra with
  | none => exact Core.wf_of hk (Core.wf_r hk) rfl rfl rfl
  | some a => exact Core.wf_of hk (Core.wf_r hk) rfl rfl rfl

theorem Does.branchBody (h : Keeps s t) {c : CoreRef} {op : Op} {m : Mode} {b : Bool} : Does s (branchBody c op m b t) := by
  unfold Machine.branchBody
  dsimp only
  split
  · exact .startBranch h
  · exact .startBranch h
  · exact .startBranch h

theorem Does.repBody (h : Keeps s t) {c : CoreRef} {op : Op} {m : Mode} {b : Bool} : Does s (repBody c op m b t) := by
  unfold Machine.repBody
  split
  · refine Keeps.setCore h fun hs => ?_
    have hk : (Machine.coreOf t c).wf = true := h.coreOf hs
    exact Core.wf_of hk (Core.wf_r hk) rfl rfl rfl
  · exact h

theorem Does.brptBody (h : Keeps s t) {c : CoreRef} {op : Op} {m : Mode} {b : Bool} : Does s (brptBody c op m b t) := by
  unfold Machine.brptBody
  split
  · next j n len =>
    have hloop (hs : s.wf = true) {a e w : Word} : Regs.wf { (Machine.coreOf t c).r with
        ls := rfSet (Machine.coreOf t c).r.ls j a, le := rfSet (Machine.coreOf t c).r.le j e, lc := rfSet
          (Machine.coreOf t c).r.lc j w } = true :=
      have hr := Core.wf_r (h.coreOf (c := c) hs)
      Regs.wf_loops hr (Regs.wf_ls hr).set (Regs.wf_le hr).set (Regs.wf_lc hr).set
    refine .ite (Keeps.setCore h fun hs => ?_) (Keeps.setCore h fun hs => ?_)
    · exact Core.wf_of (h.coreOf (c := c) hs) (hloop hs) rfl rfl rfl
    · exact Core.wf_of (h.coreOf (c := c) hs) (hloop hs) rfl rfl rfl
  · exact h

theorem Does.trapBody (h : Keeps s t) {c : CoreRef} {op : Op} {m : Mode} {b : Bool} : Does s (trapBody c op m b t) := by
  unfold Machine.trapBody
  split
  · exact .ite (.done (.postEvent h)) h
  · exact h

theorem Does.brkBody (h : Keeps s t) {c : CoreRef} {op : Op} {m : Mode} {b : Bool} : Does s (brkBody c op m b t) := by
  unfold Machine.brkBody
  split
  · refine .ite ?_ h
    extract_lets x t1
    have h1 : Keeps s t1 := .setCore h fun hs => Core.wf_aside (Core.wf_nextSlot (h.coreOf (c := c) hs) _) rfl rfl rfl rfl
    exact .jump (.ite (.sameStew h1) (.sameKern h1))
  · exact h

theorem Does.rtiBody (h : Keeps s t) {c : CoreRef} {op : Op} {m : Mode} {b : Bool} : Does s (rtiBody c op m b t) := by
  unfold Machine.rtiBody
  split
  · refine Keeps.setCore h fun hs => ?_
    have hk : (Machine.coreOf t c).wf = true := h.coreOf hs
    exact Core.wf_of hk (Core.wf_r hk) rfl rfl rfl
  · exact h

theorem Does.eidiBody (h : Keeps s t) {c : CoreRef} {op : Op} {m : Mode} {b : Bool} : Does s (eidiBody c op m b t) :=
  Keeps.setCore h fun hs => Core.wf_aside (h.coreOf (c := c) hs) rfl rfl rfl rfl

theorem Does.waitBody (h : Keeps s t) {c : CoreRef} {op : Op} {m : Mode} {b : Bool} : Does s (waitBody c op m b t) := by
  unfold Machine.waitBody
  split
  · extract_lets t1 x t2 md y
    have h1 : Keeps s t1 := .setCore h fun hs => Core.wf_nextSlot (h.coreOf hs) _
    have h2 : Keeps s t2 := .sameStew h1
    exact .ite (.jump (.ite h2 (.powerSyncAll (.setDieX h2)))) (.jump (.sameKern h1))
  · exact h

theorem Does.voteBody (h : Keeps s t) {c : CoreRef} {op : Op} {m : Mode} {b : Bool} : Does s (voteBody c op m b t) := by
  unfold Machine.voteBody
  dsimp only
  split
  · exact .done (.powerSync (.setTab h))
  · exact .done (.powerSync (.setTab h))
  · exact h

theorem Does.swapreqBody (h : Keeps s t) {c : CoreRef} {op : Op} {m : Mode} {b : Bool} : Does s (swapreqBody c op m b t) := by
  unfold Machine.swapreqBody
  split
  · exact .done (.requestSwap h)
  · exact h

theorem Answers.execAdd (h : Keeps s t) {c : CoreRef} : Answers s (execAdd c t) := .runSlot h fun hu => .binBody hu

theorem Answers.execAddc (h : Keeps s t) {c : CoreRef} : Answers s (execAddc c t) := .runSlot h fun hu => .binBody hu

theorem Answers.execSub (h : Keeps s t) {c : CoreRef} : Answers s (execSub c t) := .runSlot h fun hu => .binBody hu

theorem Answers.execSubc (h : Keeps s t) {c : CoreRef} : Answers s (execSubc c t) := .runSlot h fun hu => .binBody hu

theorem Answers.execAnd (h : Keeps s t) {c : CoreRef} : Answers s (execAnd c t) := .runSlot h fun hu => .binBody hu

theorem Answers.execOr (h : Keeps s t) {c : CoreRef} : Answers s (execOr c t) := .runSlot h fun hu => .binBody hu

theorem Answers.execXor (h : Keeps s t) {c : CoreRef} : Answers s (execXor c t) := .runSlot h fun hu => .binBody hu

theorem Answers.execCmp (h : Keeps s t) {c : CoreRef} : Answers s (execCmp c t) := .runSlot h fun hu => .binBody hu

theorem Answers.execTst (h : Keeps s t) {c : CoreRef} : Answers s (execTst c t) := .runSlot h fun hu => .binBody hu

theorem Answers.execMin (h : Keeps s t) {c : CoreRef} : Answers s (execMin c t) := .runSlot h fun hu => .binBody hu

theorem Answers.execMax (h : Keeps s t) {c : CoreRef} : Answers s (execMax c t) := .runSlot h fun hu => .binBody hu

theorem Answers.execAsh (h : Keeps s t) {c : CoreRef} : Answers s (execAsh c t) := .runSlot h fun hu => .binBody hu

theorem Answers.execLsh (h : Keeps s t) {c : CoreRef} : Answers s (execLsh c t) := .runSlot h fun hu => .binBody hu

theorem Answers.execNeg (h : Keeps s t) {c : CoreRef} : Answers s (execNeg c t) := .runSlot h fun hu => .unBody hu

theorem Answers.execAbs (h : Keeps s t) {c : CoreRef} : Answers s (execAbs c t) := .runSlot h fun hu => .unBody hu

theorem Answers.execNot (h : Keeps s t) {c : CoreRef} : Answers s (execNot c t) := .runSlot h fun hu => .unBody hu

theorem Answers.execSat (h : Keeps s t) {c : CoreRef} : Answers s (execSat c t) := .runSlot h fun hu => .unBody hu

theorem Answers.execNorm (h : Keeps s t) {c : CoreRef} : Answers s (execNorm c t) := .runSlot h fun hu => .unBody hu

theorem Answers.execDiv (h : Keeps s t) {c : CoreRef} : Answers s (execDiv c t) := .runSlot h fun hu => .unBody hu

theorem Answers.execBset (h : Keeps s t) {c : CoreRef} : Answers s (execBset c t) := .runSlot h fun hu => .bitBody hu

theorem Answers.execBclr (h : Keeps s t) {c : CoreRef} : Answers s (execBclr c t) := .runSlot h fun hu => .bitBody hu

theorem Answers.execBnot (h : Keeps s t) {c : CoreRef} : Answers s (execBnot c t) := .runSlot h fun hu => .bitBody hu

theorem Answers.execBtst (h : Keeps s t) {c : CoreRef} : Answers s (execBtst c t) := .runSlot h fun hu => .bitBody hu

theorem Answers.execBand (h : Keeps s t) {c : CoreRef} : Answers s (execBand c t) := .runSlot h fun hu => .bitBody hu

theorem Answers.execBor (h : Keeps s t) {c : CoreRef} : Answers s (execBor c t) := .runSlot h fun hu => .bitBody hu

theorem Answers.execBxor (h : Keeps s t) {c : CoreRef} : Answers s (execBxor c t) := .runSlot h fun hu => .bitBody hu

theorem Answers.execBmov (h : Keeps s t) {c : CoreRef} : Answers s (execBmov c t) := .runSlot h fun hu => .bitBody hu

theorem Answers.execMpy (h : Keeps s t) {c : CoreRef} : Answers s (execMpy c t) := .runSlot h fun hu => .mulBody hu

theorem Answers.execMpyu (h : Keeps s t) {c : CoreRef} : Answers s (execMpyu c t) := .runSlot h fun hu => .mulBody hu

theorem Answers.execMac (h : Keeps s t) {c : CoreRef} : Answers s (execMac c t) := .runSlot h fun hu => .mulBody hu

theorem Answers.execMsu (h : Keeps s t) {c : CoreRef} : Answers s (execMsu c t) := .runSlot h fun hu => .mulBody hu

theorem Answers.execCmpy (h : Keeps s t) {c : CoreRef} : Answers s (execCmpy c t) := .runSlot h fun hu => .mulBody hu

theorem Answers.execCmac (h : Keeps s t) {c : CoreRef} : Answers s (execCmac c t) := .runSlot h fun hu => .mulBody hu

theorem Answers.execCmsu (h : Keeps s t) {c : CoreRef} : Answers s (execCmsu c t) := .runSlot h fun hu => .mulBody hu

theorem Answers.execCmacj (h : Keeps s t) {c : CoreRef} : Answers s (execCmacj c t) := .runSlot h fun hu => .mulBody hu

theorem Answers.execBfly (h : Keeps s t) {c : CoreRef} : Answers s (execBfly c t) := .runSlot h fun hu => .mulBody hu

theorem Answers.execMaxi (h : Keeps s t) {c : CoreRef} : Answers s (execMaxi c t) := .runSlot h fun hu => .searchBody hu

theorem Answers.execMini (h : Keeps s t) {c : CoreRef} : Answers s (execMini c t) := .runSlot h fun hu => .searchBody hu

theorem Answers.execMaxai (h : Keeps s t) {c : CoreRef} : Answers s (execMaxai c t) := .runSlot h fun hu => .searchBody hu

theorem Answers.execClra (h : Keeps s t) {c : CoreRef} : Answers s (execClra c t) := .runSlot h fun hu => .accBody hu

theorem Answers.execMova (h : Keeps s t) {c : CoreRef} : Answers s (execMova c t) := .runSlot h fun hu => .accBody hu

theorem Answers.execShacc (h : Keeps s t) {c : CoreRef} : Answers s (execShacc c t) := .runSlot h fun hu => .accBody hu

theorem Answers.execResadd (h : Keeps s t) {c : CoreRef} : Answers s (execResadd c t) := .runSlot h fun hu => .accBody hu

theorem Answers.execSta (h : Keeps s t) {c : CoreRef} : Answers s (execSta c t) := .runSlot h fun hu => .staBody hu

theorem Answers.execFtap (h : Keeps s t) {c : CoreRef} : Answers s (execFtap c t) := .runSlot h fun hu => .ftapBody hu

theorem Answers.execLd (h : Keeps s t) {c : CoreRef} : Answers s (execLd c t) := .runSlot h fun hu => .loadBody hu

theorem Answers.execSt (h : Keeps s t) {c : CoreRef} : Answers s (execSt c t) := .runSlot h fun hu => .loadBody hu

theorem Answers.execLdi (h : Keeps s t) {c : CoreRef} : Answers s (execLdi c t) := .runSlot h fun hu => .moveBody hu

theorem Answers.execMov (h : Keeps s t) {c : CoreRef} : Answers s (execMov c t) := .runSlot h fun hu => .moveBody hu

theorem Answers.execLdl (h : Keeps s t) {c : CoreRef} : Answers s (execLdl c t) := .runSlot h fun hu => .lineBody hu

theorem Answers.execStl (h : Keeps s t) {c : CoreRef} : Answers s (execStl c t) := .runSlot h fun hu => .lineBody hu

theorem Answers.execLdh (h : Keeps s t) {c : CoreRef} : Answers s (execLdh c t) := .runSlot h fun hu => .hoardBody hu

theorem Answers.execSth (h : Keeps s t) {c : CoreRef} : Answers s (execSth c t) := .runSlot h fun hu => .hoardBody hu

theorem Answers.execModp (h : Keeps s t) {c : CoreRef} : Answers s (execModp c t) := .runSlot h fun hu => .loadBody hu

theorem Answers.execSlipfaceLdlRelease (h : Keeps s t) {c : CoreRef} : Answers s (execSlipfaceLdlRelease c t) := by
  refine .onUnit ?_
  split
  · exact .next h
  · exact .ite (.next h) (.runSlot (.endWait h) fun hu => .slipBody hu)

theorem Answers.execNop (h : Keeps s t) {c : CoreRef} : Answers s (execNop c t) := .runSlot h fun hu => .nopBody hu

theorem Answers.execEnd (h : Keeps s t) {c : CoreRef} {t' : Nat} : Answers s (execEnd c t' t) :=
  .runSlot h fun hu => .endBody hu

theorem Answers.execBra (h : Keeps s t) {c : CoreRef} : Answers s (execBra c t) := .runSlot h fun hu => .branchBody hu

theorem Answers.execJmp (h : Keeps s t) {c : CoreRef} : Answers s (execJmp c t) := .runSlot h fun hu => .branchBody hu

theorem Answers.execBsr (h : Keeps s t) {c : CoreRef} : Answers s (execBsr c t) := .runSlot h fun hu => .branchBody hu

theorem Answers.execRts (h : Keeps s t) {c : CoreRef} : Answers s (execRts c t) := .runSlot h fun hu => .branchBody hu

theorem Answers.execRep (h : Keeps s t) {c : CoreRef} : Answers s (execRep c t) := .runSlot h fun hu => .repBody hu

theorem Answers.execBrpt (h : Keeps s t) {c : CoreRef} : Answers s (execBrpt c t) := .runSlot h fun hu => .brptBody hu

theorem Answers.execTrap (h : Keeps s t) {c : CoreRef} : Answers s (execTrap c t) := .runSlot h fun hu => .trapBody hu

theorem Answers.execBrk (h : Keeps s t) {c : CoreRef} : Answers s (execBrk c t) := .runSlot h fun hu => .brkBody hu

theorem Answers.execRti (h : Keeps s t) {c : CoreRef} : Answers s (execRti c t) := .runSlot h fun hu => .rtiBody hu

theorem Answers.execEi (h : Keeps s t) {c : CoreRef} : Answers s (execEi c t) := .runSlot h fun hu => .eidiBody hu

theorem Answers.execDi (h : Keeps s t) {c : CoreRef} : Answers s (execDi c t) := .runSlot h fun hu => .eidiBody hu

theorem Answers.execWait (h : Keeps s t) {c : CoreRef} : Answers s (execWait c t) := .runSlot h fun hu => .waitBody hu

theorem Answers.execNvSlot (h : Keeps s t) {c : CoreRef} : Answers s (execNvSlot c t) := by
  refine .onUnit ?_
  split
  · exact .next h
  · split
    · next sl u hfetch =>
      have hu : Keeps s u := .ofGot hfetch (.fetchSlot h)
      exact .ite (.next (.settle (.setCore hu fun hs => Core.wf_passCore (hu.coreOf hs)))) (.next h)
    · exact .next h

theorem Answers.execWaitResume (h : Keeps s t) {c : CoreRef} : Answers s (execWaitResume c t) := by
  refine .onUnit ?_
  refine .ite ?_ (.next h)
  refine .ite (.next (.sameStew h)) ?_
  split
  · exact .next (.takeInterrupt h)
  · exact .next (.sameStew h)

theorem Answers.execInterruptEntry (h : Keeps s t) {c : CoreRef} : Answers s (execInterruptEntry c t) := by
  refine .onUnit ?_
  refine .ite ?_ (.next h)
  split
  · exact .next (.takeInterrupt h)
  · exact .next h

theorem Answers.execExceptionEntry (h : Keeps s t) {c : CoreRef} : Answers s (execExceptionEntry c t) := by
  have hfetch {m : Mode} : Reads s (Machine.fetchSlot t c m) := .fetchSlot h
  refine .onUnit ?_
  split
  · exact .next h
  · split
    · next u heq => exact .next (.kernelFault (.ofUnc heq hfetch))
    · exact .fault
    · exact .next h
  · split
    · next u heq => exact .next (.settle (.raiseException (.ofGot heq hfetch)))
    · next u heq => exact .next (.settle (.raiseException (.ofBusErr heq hfetch)))
    · next u heq => exact .next (.settle (.raiseException (.ofUnc heq hfetch)))
    · exact .next h

theorem Answers.execVote (h : Keeps s t) {c : CoreRef} : Answers s (execVote c t) := .runSlot h fun hu => .voteBody hu

theorem Answers.execSwapreq (h : Keeps s t) {c : CoreRef} : Answers s (execSwapreq c t) := .runSlot h fun hu => .swapreqBody hu

end Sys2Proof.Machine
end

section
/-! PROOFS. What every step keeps: packets of the link and register writes as commands (R319–R330, R345–R368). -/
namespace Sys2Proof.Machine

-- Elaborated in turn, the rules need less memory than side by side.
set_option Elab.async false
variable {s t : State}

theorem Keeps.forwardBcast (h : Keeps s t) {d : Nat} {p : Packet} : Keeps s (forwardBcast t d p) :=
  .each (.noteSeen h) fun _ _ hu => .ite (.portSend hu) hu

theorem Keeps.takeArrival (h : Keeps s t) {d : Nat} {a : Arrival} : Keeps s (takeArrival t d a) := by
  unfold Machine.takeArrival
  split
  · exact .ite (.countBlocks h) h
  · exact .setLinkPort h
  · exact .setLinkPort h

theorem Keeps.takePacket (h : Keeps s t) {d : Nat} {a : Arrival} {p : Packet} : Keeps s (takePacket t d a p) :=
  .ite (.forwardBcast (.takeArrival h)) (.takeArrival h)

theorem Answers.onPacket (h : Keeps s t) {d : Nat} {a : Arrival} {ty : Nat} {aged : Bool} {f : State → Packet → State}
    (hf : ∀ u p, Keeps s u → Keeps s (f u p)) : Answers s (onPacket t d a ty aged f) := by
  refine .onUnit ?_
  split
  · exact .next (hf _ _ (.takePacket h))
  · exact .next h

theorem Keeps.remoteRead (h : Keeps s t) {d n addr : Nat} : Keeps s (remoteRead d n addr t).1 := by
  induction n generalizing t addr with
  | zero => exact h
  | succ n ih => exact .ite' (ih (.busRead h)) (.busRead h)

theorem Keeps.remoteWrite (h : Keeps s t) {d : Nat} {ws : List Word} {addr : Nat} : Keeps s (remoteWrite d ws addr t).1 := by
  induction ws generalizing t addr with
  | nil => exact h
  | cons w ws ih => exact .ite' (ih (.busWrite h)) (.busWrite h)

theorem Keeps.respond (h : Keeps s t) {d : Nat} {r : Packet} {fast : Bool} : Keeps s (respond t d r fast) :=
  .ite (.portSend h) (.deviceSend h)

theorem Keeps.serve (h : Keeps s t) {d : Nat} {a : Arrival} {p : Packet} {ahead : Nat} {f : State → State}
    (hf : ∀ u, Keeps s u → Keeps s (f u)) : Keeps s (serve t d a p ahead f) :=
  .ite (.ite h (.respond h)) (.ite (hf _ h) (.setLinkPort h))

theorem Answers.execLinkRdreq (h : Keeps s t) {d : Nat} {a : Arrival} {ahead : Nat} : Answers s (execLinkRdreq d a ahead t) :=
  .onPacket h fun _ _ hu => .serve hu fun _ hv => .respond (.remoteRead hv)

theorem Answers.execLinkWrreq (h : Keeps s t) {d : Nat} {a : Arrival} {ahead : Nat} {aged : Bool} :
    Answers s (execLinkWrreq d a ahead aged t) :=
  .onPacket h fun _ _ hu => .serve hu fun _ hv => .ite (.remoteWrite hv) (.respond (.remoteWrite hv))

theorem Answers.execLinkRdrsp (h : Keeps s t) {d : Nat} {a : Arrival} : Answers s (execLinkRdrsp d a t) :=
  .onPacket h fun _ _ hu => .ite (.engineDone hu) hu

theorem Answers.execLinkWrack (h : Keeps s t) {d : Nat} {a : Arrival} : Answers s (execLinkWrack d a t) :=
  .onPacket h fun _ _ hu => .ite (.engineDone hu) hu

theorem Answers.execLinkRemoteTimeout (h : Keeps s t) {d : Nat} : Answers s (execLinkRemoteTimeout d t) :=
  .onUnit (.whenDue h (.engineDone h))

theorem Keeps.swapReadyPacket (h : Keeps s t) {p : Packet} {g : Nat} : Keeps s (swapReadyPacket t p g) := by
  unfold Machine.swapReadyPacket
  split
  · exact .ite (.noteReady h) h
  · exact h

theorem Keeps.swapRefusalPacket (h : Keeps s t) {p : Packet} {g : Nat} : Keeps s (swapRefusalPacket t p g) := by
  unfold Machine.swapRefusalPacket
  dsimp only
  split
  · exact .ite (.endSwap h) (.ite (.splitSwap h) (.splitSwap h))
  · exact h

theorem Keeps.swapCommitPacket (h : Keeps s t) {p : Packet} {g : Nat} : Keeps s (swapCommitPacket t p g) := by
  unfold Machine.swapCommitPacket
  split
  · exact .each (.others h) fun _ _ hu => .deviceSend hu
  · exact h

theorem Answers.execLinkSwapPacket (h : Keeps s t) {d : Nat} {a : Arrival} {aged : Bool} :
    Answers s (execLinkSwapPacket d a aged t) := by
  refine .onPacket h fun u p hu => ?_
  dsimp only
  split
  · exact .requestSwap hu
  · exact .swapReadyPacket hu
  · exact .swapRefusalPacket hu
  · exact .swapCommitPacket hu
  · exact hu

theorem Answers.execLinkStartPacket (h : Keeps s t) {d : Nat} {a : Arrival} {aged : Bool} :
    Answers s (execLinkStartPacket d a aged t) :=
  .onPacket h fun _ _ hu => .startPorts hu

theorem Answers.execLinkHostPacket (h : Keeps s t) {d : Nat} {a : Arrival} {aged : Bool} :
    Answers s (execLinkHostPacket d a aged t) :=
  .onPacket h fun _ _ hu => .queuePush hu

theorem Keeps.routePacket (h : Keeps s t) {d : Nat} {p : Packet} : Keeps s (routePacket t d p) := by
  unfold Machine.routePacket
  dsimp only
  split
  · exact .routeSend h
  · exact .ite (.deviceSend (.countDrop h)) (.countDrop h)

theorem Answers.execLinkPacketRoute (h : Keeps s t) {d : Nat} {a : Arrival} {aged : Bool} :
    Answers s (execLinkPacketRoute d a aged t) := by
  refine .onUnit ?_
  refine .whenDue h ?_
  split
  · exact .takeArrival h
  · exact .ite (.incFld (.takeArrival h)) (.ite (.ite (.takeArrival h) h) (.ite (.routePacket (.takeArrival h)) h))

theorem Answers.execLinkPacketTimeout (h : Keeps s t) {d i : Nat} : Answers s (execLinkPacketTimeout d i t) :=
  .onUnit (.whenDue h (.countDrop (.setLinkPort h)))

theorem Answers.regCmd (h : Keeps s t) {a : Access} {r : Nat} {v : Word} : Answers s (regCmd a r v t) :=
  .onUnit (.next (.busWrite h))

theorem Answers.unitCmd (h : Keeps s t) {n cnt : Nat} {a : Access} {r : Nat} {v : Word} : Answers s (unitCmd n cnt a r v t) :=
  .onUnit (.regCmd h)

theorem Answers.execRegisterWrite (h : Keeps s t) {a : Access} {addr : Nat} {v : Word} : Answers s (execRegisterWrite a addr v t) :=
  .regCmd h

theorem Answers.execMemoryWrite (h : Keeps s t) {a : Access} {addr width v : Nat} : Answers s (execMemoryWrite a addr width v t) :=
  .onUnit (.next (.busWrite h))

theorem Answers.execMemoryRead (h : Keeps s t) {a : Access} {addr width : Nat} : Answers s (execMemoryRead a addr width t) :=
  .onUnit (.next (.busRead h))

theorem Answers.execProgramBankWrite (h : Keeps s t) {a : Access} {d k : Nat} {bankB : Bool} {off width v : Nat} :
    Answers s (execProgramBankWrite a d k bankB off width v t) :=
  .onUnit (.next (.busWrite h))

theorem Answers.execKernelImageWrite (h : Keeps s t) {a : Access} {d k off width v : Nat} :
    Answers s (execKernelImageWrite a d k off width v t) :=
  .onUnit (.next (.busWrite h))

theorem Answers.execCounter64LowRead (h : Keeps s t) {a : Access} {d : Nat} : Answers s (execCounter64LowRead a d t) :=
  .onUnit (.next (.busRead h))

theorem Answers.execBootConfirm (h : Keeps s t) {a : Access} : Answers s (execBootConfirm a t) := .regCmd h

theorem Answers.execRecoveryGo (h : Keeps s t) {a : Access} {len : Nat} : Answers s (execRecoveryGo a len t) := .regCmd h

theorem Answers.execBootStatusnWrite (h : Keeps s t) {a : Access} {drive : Bool} : Answers s (execBootStatusnWrite a drive t) :=
  .regCmd h

theorem Answers.execPulseRunSet (h : Keeps s t) {a : Access} : Answers s (execPulseRunSet a t) := .regCmd h

theorem Answers.execPulseRunClear (h : Keeps s t) {a : Access} : Answers s (execPulseRunClear a t) := .regCmd h

theorem Answers.execPulseConfigWrite (h : Keeps s t) {a : Access} {r : PulseReg} {v : Word} :
    Answers s (execPulseConfigWrite a r v t) :=
  .regCmd h

theorem Answers.execGovManualWrite (h : Keeps s t) {a : Access} {d : Nat} {v : Word} : Answers s (execGovManualWrite a d v t) :=
  .regCmd h

theorem Answers.execGovMarginMinClr (h : Keeps s t) {a : Access} {d : Nat} : Answers s (execGovMarginMinClr a d t) := .regCmd h

theorem Answers.execThermMaxClr (h : Keeps s t) {a : Access} {d : Nat} : Answers s (execThermMaxClr a d t) := .regCmd h

theorem Answers.execBridgeSwapWrite (h : Keeps s t) {a : Access} {d ports : Nat} : Answers s (execBridgeSwapWrite a d ports t) :=
  .regCmd h

theorem Answers.execPodEccClear (h : Keeps s t) {a : Access} {d p : Nat} {unc : Bool} : Answers s (execPodEccClear a d p unc t) :=
  .unitCmd h

theorem Answers.execKernelEccClear (h : Keeps s t) {a : Access} {d k : Nat} : Answers s (execKernelEccClear a d k t) :=
  .unitCmd h

theorem Answers.execCaravanSwapGo (h : Keeps s t) {a : Access} {d p : Nat} : Answers s (execCaravanSwapGo a d p t) := .unitCmd h

theorem Answers.execCaravanShareWrite (h : Keeps s t) {a : Access} {d p : Nat} {v : Word} :
    Answers s (execCaravanShareWrite a d p v t) :=
  .unitCmd h

theorem Answers.execDdrEnable (h : Keeps s t) {a : Access} {d : Nat} : Answers s (execDdrEnable a d t) := .regCmd h

theorem Answers.execDdrDisable (h : Keeps s t) {a : Access} {d : Nat} : Answers s (execDdrDisable a d t) := .regCmd h

theorem Answers.execDdrRetrain (h : Keeps s t) {a : Access} {d : Nat} : Answers s (execDdrRetrain a d t) := .regCmd h

theorem Answers.execDdrCfgWrite (h : Keeps s t) {a : Access} {d : Nat} {v : Word} : Answers s (execDdrCfgWrite a d v t) :=
  .regCmd h

theorem Answers.execPodHownWrite (h : Keeps s t) {a : Access} {d p i : Nat} {v : Word} : Answers s (execPodHownWrite a d p i v t) :=
  .onUnit (.unitCmd h)

theorem Answers.execKernelBankmodeWrite (h : Keeps s t) {a : Access} {d k : Nat} {v : Word} :
    Answers s (execKernelBankmodeWrite a d k v t) :=
  .unitCmd h

theorem Answers.execKernelStopRequest (h : Keeps s t) {a : Access} {d k : Nat} : Answers s (execKernelStopRequest a d k t) :=
  .unitCmd h

theorem Answers.execKernelStopCancel (h : Keeps s t) {a : Access} {d k : Nat} : Answers s (execKernelStopCancel a d k t) :=
  .unitCmd h

theorem Answers.execKernelRejoin (h : Keeps s t) {a : Access} {d k : Nat} : Answers s (execKernelRejoin a d k t) := .unitCmd h

theorem Answers.execKernelTestEnter (h : Keeps s t) {a : Access} {d k : Nat} : Answers s (execKernelTestEnter a d k t) :=
  .unitCmd h

theorem Answers.execKernelTestExit (h : Keeps s t) {a : Access} {d k : Nat} : Answers s (execKernelTestExit a d k t) :=
  .unitCmd h

theorem Answers.execStewardRun (h : Keeps s t) {a : Access} {d i : Nat} : Answers s (execStewardRun a d i t) := .unitCmd h

theorem Answers.execStewardHold (h : Keeps s t) {a : Access} {d i : Nat} : Answers s (execStewardHold a d i t) := .unitCmd h

theorem Answers.execDoorbellSet (h : Keeps s t) {a : Access} {d i : Nat} {v : Word} : Answers s (execDoorbellSet a d i v t) :=
  .unitCmd h

theorem Answers.execDoorbellClear (h : Keeps s t) {a : Access} {d i : Nat} {v : Word} : Answers s (execDoorbellClear a d i v t) :=
  .unitCmd h

theorem Answers.execBusWinWrite (h : Keeps s t) {a : Access} {d w : Nat} {v : Word} : Answers s (execBusWinWrite a d w v t) :=
  .unitCmd h

theorem Answers.execBusSliceWrite (h : Keeps s t) {a : Access} {d : Nat} {v : Word} : Answers s (execBusSliceWrite a d v t) :=
  .regCmd h

theorem Answers.execBusSliceApply (h : Keeps s t) {d : Nat} : Answers s (execBusSliceApply d t) :=
  .onUnit (.whenDue h (.setFld h))

theorem Answers.execRomlockSet (h : Keeps s t) {a : Access} {d : Nat} : Answers s (execRomlockSet a d t) := .regCmd h

theorem Answers.execRemapWrite (h : Keeps s t) {a : Access} {d : Nat} {remap : Bool} : Answers s (execRemapWrite a d remap t) :=
  .regCmd h

theorem Answers.execFwLockSet (h : Keeps s t) {a : Access} {d : Nat} : Answers s (execFwLockSet a d t) := .regCmd h

theorem Answers.execQueueStage (h : Keeps s t) {a : Access} {d q i : Nat} {v : Word} : Answers s (execQueueStage a d q i v t) :=
  .onUnit (.unitCmd h)

theorem Answers.execQueuePush (h : Keeps s t) {a : Access} {d q : Nat} {v : Word} : Answers s (execQueuePush a d q v t) :=
  .unitCmd h

theorem Answers.execQueuePop (h : Keeps s t) {a : Access} {d q : Nat} : Answers s (execQueuePop a d q t) :=
  .onUnit (.next (.busRead h))

theorem Answers.execQueueCfgWrite (h : Keeps s t) {a : Access} {d q : Nat} {v : Word} : Answers s (execQueueCfgWrite a d q v t) :=
  .unitCmd h

theorem Answers.execPwrVdataWrite (h : Keeps s t) {a : Access} {d : Nat} {v : Word} : Answers s (execPwrVdataWrite a d v t) :=
  .regCmd h

theorem Answers.execPwrHoldWrite (h : Keeps s t) {a : Access} {v : Word} : Answers s (execPwrHoldWrite a v t) := .regCmd h

theorem Answers.execPwrModeWrite (h : Keeps s t) {a : Access} {d : Nat} {v : Word} : Answers s (execPwrModeWrite a d v t) :=
  .regCmd h

theorem Answers.execVoteonlySet (h : Keeps s t) {a : Access} {d : Nat} : Answers s (execVoteonlySet a d t) := .regCmd h

theorem Answers.execWakerel (h : Keeps s t) {a : Access} {d : Nat} : Answers s (execWakerel a d t) := .regCmd h

theorem Answers.execPadrel (h : Keeps s t) {a : Access} {d : Nat} {v : Word} : Answers s (execPadrel a d v t) := .regCmd h

theorem Answers.execWakeTimerWrite (h : Keeps s t) {a : Access} {v : Word} : Answers s (execWakeTimerWrite a v t) := .regCmd h

theorem Answers.execSpareCmd (h : Keeps s t) {a : Access} {d k : Nat} : Answers s (execSpareCmd a d k t) := .regCmd h

theorem Answers.execSapArm (h : Keeps s t) {a : Access} {d m : Nat} : Answers s (execSapArm a d m t) := .unitCmd h

theorem Answers.execSapDisarm (h : Keeps s t) {a : Access} {d m : Nat} : Answers s (execSapDisarm a d m t) := .unitCmd h

theorem Answers.execSapStop (h : Keeps s t) {a : Access} {d m : Nat} : Answers s (execSapStop a d m t) := .unitCmd h

theorem Answers.execSapMute (h : Keeps s t) {a : Access} {d m : Nat} {mute : Bool} : Answers s (execSapMute a d m mute t) :=
  .unitCmd h

theorem Answers.execSapTrig (h : Keeps s t) {a : Access} {d : Nat} {v : Word} : Answers s (execSapTrig a d v t) := .regCmd h

theorem Answers.execSapMaskWrite (h : Keeps s t) {a : Access} {d m : Nat} {tx : Bool} {v : Word} :
    Answers s (execSapMaskWrite a d m tx v t) :=
  .unitCmd h

theorem Answers.execCsnewRelease (h : Keeps s t) {a : Access} {d m : Nat} : Answers s (execCsnewRelease a d m t) := .unitCmd h

theorem Answers.execSrcEntryWrite (h : Keeps s t) {a : Access} {d e : Nat} {v : Word} : Answers s (execSrcEntryWrite a d e v t) :=
  .unitCmd h

theorem Answers.execClksteerEnable (h : Keeps s t) {a : Access} {v : Word} : Answers s (execClksteerEnable a v t) := .regCmd h

theorem Answers.execClksteerSelWrite (h : Keeps s t) {a : Access} {v : Word} : Answers s (execClksteerSelWrite a v t) :=
  .regCmd h

theorem Answers.execMeterCfgWrite (h : Keeps s t) {a : Access} {d m : Nat} {v : Word} : Answers s (execMeterCfgWrite a d m v t) :=
  .unitCmd h

theorem Answers.execMeterHoldclr (h : Keeps s t) {a : Access} {d m : Nat} : Answers s (execMeterHoldclr a d m t) := .unitCmd h

theorem Answers.execDetectorWrite (h : Keeps s t) {a : Access} {d : Nat} {v : Word} : Answers s (execDetectorWrite a d v t) :=
  .regCmd h

theorem Answers.execParkEntryWrite (h : Keeps s t) {a : Access} {d p : Nat} {cfg : Bool} {v : Word} :
    Answers s (execParkEntryWrite a d p cfg v t) :=
  .unitCmd h

theorem Answers.execLookaheadWrite (h : Keeps s t) {a : Access} {d n : Nat} {v : Word} : Answers s (execLookaheadWrite a d n v t) :=
  .unitCmd h

theorem Answers.execGenArm (h : Keeps s t) {a : Access} {d c : Nat} {now : Bool} : Answers s (execGenArm a d c now t) :=
  .unitCmd h

theorem Answers.execGenStop (h : Keeps s t) {a : Access} {d c : Nat} : Answers s (execGenStop a d c t) := .unitCmd h

theorem Answers.execLinkEnable (h : Keeps s t) {a : Access} {d : Nat} : Answers s (execLinkEnable a d t) := .regCmd h

theorem Answers.execLinkRetrain (h : Keeps s t) {a : Access} {d : Nat} : Answers s (execLinkRetrain a d t) := .regCmd h

theorem Answers.execLinkWaketx (h : Keeps s t) {a : Access} {d : Nat} : Answers s (execLinkWaketx a d t) := .regCmd h

theorem Answers.execLinkRemoteGo (h : Keeps s t) {a : Access} {d : Nat} {write : Bool} {words : Nat} :
    Answers s (execLinkRemoteGo a d write words t) :=
  .regCmd h

theorem Answers.execLinkStartGo (h : Keeps s t) {a : Access} {d num : Nat} : Answers s (execLinkStartGo a d num t) := .regCmd h

theorem Answers.execLinkTswapGo (h : Keeps s t) {a : Access} {d : Nat} : Answers s (execLinkTswapGo a d t) := .regCmd h

theorem Answers.execLinkRtswapGo (h : Keeps s t) {a : Access} : Answers s (execLinkRtswapGo a t) := .regCmd h

theorem Answers.execLinkIdWrite (h : Keeps s t) {a : Access} {v : Word} : Answers s (execLinkIdWrite a v t) := .regCmd h

theorem Answers.execCspStage (h : Keeps s t) {a : Access} {d n : Nat} {v : Word} : Answers s (execCspStage a d n v t) :=
  .onUnit (.regCmd h)

theorem Answers.execCspPush (h : Keeps s t) {a : Access} {d : Nat} {v : Word} : Answers s (execCspPush a d v t) := .regCmd h

theorem Answers.execCspEnable (h : Keeps s t) {a : Access} {d : Nat} {en : Bool} : Answers s (execCspEnable a d en t) :=
  .regCmd h

theorem Answers.execCspAbort (h : Keeps s t) {a : Access} {d : Nat} : Answers s (execCspAbort a d t) := .regCmd h

theorem Answers.execCspModfClear (h : Keeps s t) {a : Access} {d : Nat} : Answers s (execCspModfClear a d t) := .regCmd h

theorem Answers.execCspCfgWrite (h : Keeps s t) {a : Access} {d : Nat} {v : Word} : Answers s (execCspCfgWrite a d v t) :=
  .regCmd h

end Sys2Proof.Machine
end

section
/-! PROOFS. Every step keeps the part, canonical memory and the canonical form. -/
namespace Sys2Proof.Machine

-- Elaborated in turn, the rules need less memory than side by side.
set_option Elab.async false
variable {s t : State}

/-- Every command keeps the part, the queue behind it, canonical memory and the canonical form. -/
theorem Answers.exec (h : Keeps s t) {i : Instr} : Answers s (exec i t) := by
  unfold Machine.exec
  split
  · exact .execResetNAssert h
  · exact .execResetRelease h
  · exact .execBootDirectoryRead h
  · exact .execSlotCheck h
  · exact .execSegmentLoad h
  · exact .execBootRetryWaitEnd h
  · exact .execBootHandoff h
  · exact .execBootConfirm h
  · exact .execTrialExpiry h
  · exact .execRecoveryGo h
  · exact .execRecoveryCheckDone h
  · exact .execFastWakeLoadDone h
  · exact .execDebugCertVerify h
  · exact .execBootStatusnWrite h
  · exact .execPulse h
  · exact .execDeadline h
  · exact .execPulseRunSet h
  · exact .execPulseStart h
  · exact .execPulseRunClear h
  · exact .execPulseHalt h
  · exact .execPulseConfigWrite h
  · exact .execSynthLockLoss h
  · exact .execSynthRelock h
  · exact .execAdmissionDone h
  · exact .execGovPrepEnd h
  · exact .execGovRaise h
  · exact .execGovLower h
  · exact .execGovManualWrite h
  · exact .execGovMarginMinClr h
  · exact .execWearReport h
  · exact .execThermSample h
  · exact .execThermCapStep h
  · exact .execThermMaxClr h
  · exact .execNop h
  · exact .execNvSlot h
  · exact .execEnd h
  · exact .execBra h
  · exact .execJmp h
  · exact .execBsr h
  · exact .execRts h
  · exact .execRep h
  · exact .execBrpt h
  · exact .execTrap h
  · exact .execBrk h
  · exact .execRti h
  · exact .execEi h
  · exact .execDi h
  · exact .execWait h
  · exact .execWaitResume h
  · exact .execInterruptEntry h
  · exact .execExceptionEntry h
  · exact .execAdd h
  · exact .execAddc h
  · exact .execSub h
  · exact .execSubc h
  · exact .execAnd h
  · exact .execOr h
  · exact .execXor h
  · exact .execCmp h
  · exact .execTst h
  · exact .execMin h
  · exact .execMax h
  · exact .execAsh h
  · exact .execLsh h
  · exact .execNeg h
  · exact .execAbs h
  · exact .execNot h
  · exact .execSat h
  · exact .execNorm h
  · exact .execDiv h
  · exact .execBset h
  · exact .execBclr h
  · exact .execBnot h
  · exact .execBtst h
  · exact .execBand h
  · exact .execBor h
  · exact .execBxor h
  · exact .execBmov h
  · exact .execMpy h
  · exact .execMpyu h
  · exact .execMac h
  · exact .execMsu h
  · exact .execCmpy h
  · exact .execCmac h
  · exact .execCmsu h
  · exact .execCmacj h
  · exact .execBfly h
  · exact .execMaxi h
  · exact .execMini h
  · exact .execMaxai h
  · exact .execClra h
  · exact .execMova h
  · exact .execShacc h
  · exact .execResadd h
  · exact .execLd h
  · exact .execSt h
  · exact .execLdi h
  · exact .execMov h
  · exact .execLdl h
  · exact .execSlipfaceLdlRelease h
  · exact .execStl h
  · exact .execLdh h
  · exact .execSth h
  · exact .execModp h
  · exact .execSta h
  · exact .execFtap h
  · exact .execVote h
  · exact .execSwapreq h
  · exact .execSwapRequestRx h
  · exact .execSwapReadyRx h
  · exact .execSwapRefusalRx h
  · exact .execSwapDecision h
  · exact .execSwapCommitRx h
  · exact .execSwapApply h
  · exact .execFaderEnd h
  · exact .execBridgeTransferRx h
  · exact .execBridgeTransferFail h
  · exact .execBridgeHoldExpire h
  · exact .execBridgeSwapWrite h
  · exact .execBridgeTableSwitch h
  · exact .execRowRepairCopyDone h
  · exact .execPodEccClear h
  · exact .execKernelEccClear h
  · exact .execCaravanSwapGo h
  · exact .execCaravanTableCheckDone h
  · exact .execCaravanTableSwitch h
  · exact .execCaravanFetchIssue h
  · exact .execCaravanFetchStaged h
  · exact .execCaravanFetchLate h
  · exact .execCaravanStoreIssue h
  · exact .execCaravanStoreDone h
  · exact .execCaravanShareWrite h
  · exact .execDdrEnable h
  · exact .execDdrDisable h
  · exact .execDdrRetrain h
  · exact .execDdrTrainingDone h
  · exact .execDdrCfgWrite h
  · exact .execDdrRefreshDue h
  · exact .execDdrRefreshIssue h
  · exact .execDdrWindowOpen h
  · exact .execDdrWindowClose h
  · exact .execDdrZqCalibration h
  · exact .execDdrMr4Poll h
  · exact .execDdrPowerDown h
  · exact .execMemoryWrite h
  · exact .execMemoryRead h
  · exact .execProgramBankWrite h
  · exact .execKernelImageWrite h
  · exact .execKernelBankmodeWrite h
  · exact .execPodHownWrite h
  · exact .execKernelStopRequest h
  · exact .execKernelStopCancel h
  · exact .execKernelRejoin h
  · exact .execKernelTestEnter h
  · exact .execKernelTestExit h
  · exact .execBusWinWrite h
  · exact .execBusSliceWrite h
  · exact .execBusSliceApply h
  · exact .execRomlockSet h
  · exact .execRemapWrite h
  · exact .execFwLockSet h
  · exact .execCounter64LowRead h
  · exact .execQueueStage h
  · exact .execQueuePush h
  · exact .execQueuePop h
  · exact .execQueueCfgWrite h
  · exact .execStewardRun h
  · exact .execStewardHold h
  · exact .execDoorbellSet h
  · exact .execDoorbellClear h
  · exact .execPwrVdataWrite h
  · exact .execPwrHoldWrite h
  · exact .execPwrModeWrite h
  · exact .execVoteonlySet h
  · exact .execWakerel h
  · exact .execPadrel h
  · exact .execDomainEntryStart h
  · exact .execPadHoldPoint h
  · exact .execDomainEntryDone h
  · exact .execDomainExitStart h
  · exact .execDomainExitDone h
  · exact .execWakePinAccept h
  · exact .execWakeTimerWrite h
  · exact .execIntervalTimerExpiry h
  · exact .execLinkWakeDetect h
  · exact .execHuskEntry h
  · exact .execSupplyPgRise h
  · exact .execReferenceReady h
  · exact .execHuskExitTimeout h
  · exact .execHuskExitRetry h
  · exact .execSupplyPgLoss h
  · exact .execVddKeepApply h
  · exact .execVddKeepLoss h
  · exact .execShadowPeriodStart h
  · exact .execShadowLoadDone h
  · exact .execSpareCmd h
  · exact .execSpareTakeover h
  · exact .execDisplacementRampEnd h
  · exact .execSrcEngineCheck h
  · exact .execSapArm h
  · exact .execSapDisarm h
  · exact .execSapStop h
  · exact .execSapMute h
  · exact .execSapTrig h
  · exact .execStartPinEdge h
  · exact .execSapTriggerPulse h
  · exact .execSapFrameZero h
  · exact .execSapFrame h
  · exact .execSapRingTransfer h
  · exact .execSapMaskWrite h
  · exact .execSapClockLoss h
  · exact .execSapClockRecover h
  · exact .execBiphaseLock h
  · exact .execBiphaseBlockRx h
  · exact .execBiphaseBlockTx h
  · exact .execCsnewRelease h
  · exact .execSrcEntryWrite h
  · exact .execSrcRatioLock h
  · exact .execSrcRelock h
  · exact .execClksteerEnable h
  · exact .execClksteerSelWrite h
  · exact .execClksteerLock h
  · exact .execMeterCfgWrite h
  · exact .execMeterBlockEnd h
  · exact .execMeterHoldclr h
  · exact .execDetectorWrite h
  · exact .execParkEntryWrite h
  · exact .execPodResume h
  · exact .execLookaheadWrite h
  · exact .execGenArm h
  · exact .execGenStop h
  · exact .execGenTrigger h
  · exact .execGenDone h
  · exact .execLinkEnable h
  · exact .execLinkRetrain h
  · exact .execLinkTrainStep h
  · exact .execLinkTrainRestart h
  · exact .execLinkWaketx h
  · exact .execLinkFrameRx h
  · exact .execLinkFrameFail h
  · exact .execLinkTimeLock h
  · exact .execLinkRdreq h
  · exact .execLinkWrreq h
  · exact .execLinkRdrsp h
  · exact .execLinkWrack h
  · exact .execLinkSwapPacket h
  · exact .execLinkStartPacket h
  · exact .execLinkHostPacket h
  · exact .execLinkPacketRoute h
  · exact .execLinkPacketTimeout h
  · exact .execLinkRemoteGo h
  · exact .execLinkRemoteTimeout h
  · exact .execLinkStartGo h
  · exact .execLinkTswapGo h
  · exact .execLinkExportSwitch h
  · exact .execLinkRtswapGo h
  · exact .execLinkRouteSwitch h
  · exact .execLinkRtholdEnd h
  · exact .execLinkDelayMeasure h
  · exact .execLinkDelayEcho h
  · exact .execLinkSpareRequest h
  · exact .execLinkSpareBlock h
  · exact .execLinkSpareSwitch h
  · exact .execLinkLoss h
  · exact .execLinkIdWrite h
  · exact .execCspStage h
  · exact .execCspPush h
  · exact .execCspEnable h
  · exact .execCspAbort h
  · exact .execCspEntryStart h
  · exact .execCspEntryDone h
  · exact .execCspModf h
  · exact .execCspModfClear h
  · exact .execCspCfgWrite h
  · exact .execCspTargetSelect h
  · exact .execCspTargetCommand h
  · exact .execCspTargetReadWord h
  · exact .execCspTargetWriteWord h
  · exact .execCspTargetRelease h
  · exact .execRegisterWrite h
  · exact .execNominalTickFrame h
  · exact .execHuskDeferredExit h
  · exact .execStewardDebugHalt h
  · exact .execDebugFuseProgram h

/-- A step keeps the part, canonical memory and the canonical form, and takes the front off the queue. -/
theorem step_keeps (hstep : step s = .next t) :
    t.part = s.part ∧ t.pending = s.pending.tail ∧ (Memory.wf s.mem = true → Memory.wf t.mem = true) ∧ (s.wf = true → t.wf = true) := by
  unfold step at hstep
  split at hstep
  · next hempty =>
    cases hstep
    exact ⟨rfl, by rw [hempty]; rfl, id, id⟩
  · next c rest hqueue =>
    obtain ⟨hpart, hpending, hmem, hwf⟩ := Answers.exec (.refl { s with pending := rest }) t hstep
    exact ⟨hpart, by rw [hpending, hqueue]; rfl, hmem, hwf⟩

/-- Settles O18, by a walk over the functions of the model with the frame `Keeps`. -/
theorem stepKeepsCanonical : Obligations.StepKeepsCanonical := by
  unfold Obligations.StepKeepsCanonical
  intro s t hs hstep
  obtain ⟨hpart, hpending, -, hwf⟩ := step_keeps hstep
  exact ⟨hwf hs, hpart, hpending⟩

/-- Settles O20, by the same walk: memory alone needs no more of the state than its own canonical form. -/
theorem stepKeepsMemory : Obligations.StepKeepsMemory := by
  unfold Obligations.StepKeepsMemory
  intro s t hs hstep
  obtain ⟨hpart, -, hmem, -⟩ := step_keeps hstep
  exact ⟨hmem hs, hpart⟩

end Sys2Proof.Machine
end

section
/-! PROOFS. What a step may change: a frame of the fields that may differ and of the registers that may read differently, and how a
register reads after a field was set. -/
namespace Sys2Proof.Machine

variable {s t u : State}

/-! ### Registers and fields beside the one written -/

theorem reg_setReg_ne (h : s.wf = true) {a b : Nat} (hne : b ≠ a) (w : Word) : reg (setReg s a w) b = reg s b := by
  rw [reg_setReg h, if_neg hne]

theorem reg_setFld_ne (h : s.wf = true) {a b : Nat} (hne : b ≠ a) (f : Fld) (v : Nat) : reg (setFld s a f v) b = reg s b :=
  reg_setReg_ne h hne _

theorem fld_setReg_ne (h : s.wf = true) {a b : Nat} (hne : b ≠ a) (w : Word) (f : Fld) : fld (setReg s a w) b f = fld s b f := by
  unfold fld
  rw [reg_setReg_ne h hne]

theorem fld_setFld_reg_ne (h : s.wf = true) {a b : Nat} (hne : b ≠ a) (f : Fld) (v : Nat) (g : Fld) :
    fld (setFld s a f v) b g = fld s b g := fld_setReg_ne h hne _ g

theorem fld_of_reg {a b : Nat} (h : reg t a = reg s b) (f : Fld) : fld t a f = fld s b f := by
  unfold fld
  rw [h]

theorem bitF_of_reg {a b : Nat} (h : reg t a = reg s b) (f : Fld) : bitF t a f = bitF s b f := by
  unfold bitF
  rw [fld_of_reg h]

/-- A bit that was set reads 1. -/
theorem bitF_setFld_one (h : s.wf = true) (r : Nat) {f : Fld} (hl : f.lo ≤ f.hi) (hh : f.hi < 32) : bitF (setFld s r f 1) r f = true := by
  have hsize : 2 ≤ 2 ^ (f.hi + 1 - f.lo) := by
    calc 2 = 2 ^ 1 := rfl
      _ ≤ 2 ^ (f.hi + 1 - f.lo) := Nat.pow_le_pow_right (by decide) (by omega)
  unfold bitF
  rw [fld_setFld_same h r hl hh, Nat.mod_eq_of_lt (by omega)]
  rfl

/-- A bit set to a truth value reads it. -/
theorem bitF_setFld_bool (h : s.wf = true) (r : Nat) {f : Fld} (hl : f.lo ≤ f.hi) (hh : f.hi < 32) (b : Bool) :
    bitF (setFld s r f b.toNat) r f = b := by
  cases b
  · exact bitF_setFld_zero h r hl hh
  · exact bitF_setFld_one h r hl hh

theorem bitF_setFld_ne (h : s.wf = true) (r : Nat) {f g : Fld} (hl : f.lo ≤ f.hi) (hh : f.hi < 32)
    (hne : g.hi < f.lo ∨ f.hi < g.lo) (v : Nat) : bitF (setFld s r f v) r g = bitF s r g := by
  unfold bitF
  rw [fld_setFld_ne h r hl hh hne]

/-! ### The frame -/

/-- `t` is in canonical form, registers outside `may` read as in `s`, and `t` is `s` once `back` has put back the fields that may
differ. -/
structure Within (back : State → State → State) (may : Nat → Prop) (s t : State) : Prop where
  wf : t.wf = true
  regs : ∀ a, ¬ may a → reg t a = reg s a
  rest : back s t = s

/-- Only registers may differ. -/
def backRegs (s t : State) : State := { t with regs := s.regs }

/-- Registers and the hidden records of the dies may differ. -/
def backDieX (s t : State) : State := { t with regs := s.regs, dieX := s.dieX }

namespace Within

variable {back back' : State → State → State} {may may' : Nat → Prop}

theorem refl (h : s.wf = true) (hself : back s s = s := by rfl) : Within back may s s := ⟨h, fun _ _ => rfl, hself⟩

/-- A step that changes less follows one that stays within the frame. -/
theorem trans (h : Within back may s t) (h' : Within back' may' t u) (hmay : ∀ a, may' a → may a)
    (hback : ∀ x, back s x = back s (back' t x) := by intro; rfl) : Within back may s u := by
  refine ⟨h'.wf, fun a ha => (h'.regs a fun ha' => ha (hmay a ha')).trans (h.regs a ha), ?_⟩
  rw [hback u, h'.rest]
  exact h.rest

theorem setReg (h : Within back may s t) {r : Nat} (hr : may r) (w : Word)
    (hback : ∀ x a v, back s (setReg x a v) = back s x := by intros; rfl) : Within back may s (setReg t r w) := by
  refine ⟨State.wf_setReg h.wf r w, fun a ha => ?_, (hback t r w).trans h.rest⟩
  exact (reg_setReg_ne h.wf (fun hra : a = r => ha (hra ▸ hr)) w).trans (h.regs a ha)

theorem setFld (h : Within back may s t) {r : Nat} (hr : may r) (f : Fld) (v : Nat)
    (hback : ∀ x a v, back s (Machine.setReg x a v) = back s x := by intros; rfl) : Within back may s (setFld t r f v) := h.setReg hr _ hback

theorem satFld (h : Within back may s t) {r : Nat} (hr : may r) (f : Fld)
    (hback : ∀ x a v, back s (Machine.setReg x a v) = back s x := by intros; rfl) : Within back may s (satFld t r f) := by
  unfold Machine.satFld
  split
  · exact h.setFld hr f _ hback
  · exact h

theorem setDieX (h : Within back may s t) (d : Nat) (x : DieX) (hback : ∀ y e v, back s (setDieX y e v) = back s y := by intros; rfl) :
    Within back may s (setDieX t d x) := ⟨State.wf_setDieX h.wf d x, h.regs, (hback t d x).trans h.rest⟩

theorem ite {c : Prop} {_ : Decidable c} (ht : Within back may s t) (hu : Within back may s u) :
    Within back may s (if c then t else u) := by
  split
  · exact ht
  · exact hu

end Within

end Sys2Proof.Machine
end

section
/-! PROOFS. The words that commands write: their fields, and a field set to the low bits of a value. -/
namespace Sys2Proof.Machine

variable {s : State}

theorem wGet_or (v w : Word) (f : Fld) : wGet (v ||| w) f = wGet v f ||| wGet w f := by
  refine Nat.eq_of_testBit_eq fun i => ?_
  unfold wGet
  rw [Nat.testBit_or, testBit_wField, testBit_wField, testBit_wField, BitVec.getLsbD_or, Bool.and_or_distrib_left]

theorem wGet_fieldIs_same {f : Fld} (hl : f.lo ≤ f.hi) (hh : f.hi < 32) (v : Nat) :
    wGet (fieldIs f v) f = v % 2 ^ (f.hi + 1 - f.lo) := wGet_wSet_same 0 hl hh v

theorem wGet_fieldIs_ne {f g : Fld} (hl : f.lo ≤ f.hi) (hh : f.hi < 32) (hne : g.hi < f.lo ∨ f.hi < g.lo) (v : Nat) :
    wGet (fieldIs f v) g = 0 := by
  refine (wGet_wSet_ne 0 hl hh hne v).trans ?_
  simp [wGet, wField]

theorem wSet_mod (w : Word) (f : Fld) (v : Nat) : wSet w f (v % 2 ^ (f.hi + 1 - f.lo)) = wSet w f v := by
  unfold wSet wPut
  simp only [Nat.mod_mod]

theorem setFld_mod (s : State) (r : Nat) (f : Fld) (v : Nat) : setFld s r f (v % 2 ^ (f.hi + 1 - f.lo)) = setFld s r f v := by
  unfold setFld
  rw [wSet_mod]

/-- Stored bytes change the memory alone. -/
theorem storeList_eq (s : State) (a : Nat) (bs : List Byte) : storeList s a bs = { s with mem := (storeList s a bs).mem } := by
  unfold storeList
  induction bs generalizing s a with
  | nil => rfl
  | cons b bs ih => exact (ih (storeByte s a b) (a + 1)).trans rfl

end Sys2Proof.Machine
end

section
/-! PROOFS. The frame of the power domains brought in line with the votes on every die. -/
namespace Sys2Proof.Machine

variable {s t : State} {d : Nat}

/-- Registers, domains and the hidden records of the dies may differ. -/
def backDoms (s t : State) : State := { t with regs := s.regs, doms := s.doms, dieX := s.dieX }

/-- A register that a change of votes or targets can write. -/
def SyncReg (r : Nat) : Prop := ∃ d, r ∈ syncRegs d

theorem SyncFrame.syncDie (h : SyncFrame d s t) (wake : Option Nat) : SyncFrame d s (each (List.range 9) (syncDomain wake d) t) :=
  each_keeps _ _ (fun m _ _ ht => (ht.retarget wake m).recheckEntry m) h

theorem SyncFrame.within (h : SyncFrame d s t) : Within backDoms SyncReg s t :=
  ⟨h.wf, fun r hr => h.regs r fun hmem => hr ⟨d, hmem⟩, h.rest⟩

theorem powerSyncAll_within (h : s.wf = true) (wake : Option Nat) : Within backDoms SyncReg s (powerSyncAll s wake) :=
  each_keeps (P := Within backDoms SyncReg s) _ _
    (fun _ _ _ hu => hu.trans ((SyncFrame.refl hu.wf).syncDie wake).within fun _ hr => hr) (.refl h)

end Sys2Proof.Machine
end

section
/-! PROOFS. Frames: what the time of the links, the steering loop and the training of a port change. -/
namespace Sys2Proof.Machine

variable {s t u : State}

/-- A step within a smaller frame after one within a larger. -/
theorem rest_after {back back' : State → State → State} (hu : back' t u = t) (h : back s t = s)
    (hback : ∀ x, back s (back' t x) = back s x := by intro; rfl) : back s u = s := by
  rw [← hback u, hu]
  exact h

/-- Registers and the steering loop may differ. -/
def backSteer (s t : State) : State := { t with regs := s.regs, steer := s.steer }

theorem setSteer_rest (s : State) (st : Nat) : backSteer s (setSteer s st) = s := by
  unfold setSteer
  split
  · rfl
  · dsimp only
    split <;> rfl

theorem steerSync_rest (s : State) : backSteer s (steerSync s) = s := by
  unfold steerSync
  dsimp only
  split
  · exact setSteer_rest s _
  · split
    · exact setSteer_rest s _
    · rfl

/-- Registers, the steering loop and the record of the link's device may differ. -/
def backTime (s t : State) : State := { t with regs := s.regs, steer := s.steer, linkDev := s.linkDev }

theorem setTime_rest (s : State) (st gmid hops up : Nat) : backTime s (setTime s st gmid hops up) = s := by
  unfold setTime
  exact rest_after (back := backTime) (back' := backSteer) (steerSync_rest _) rfl

theorem elect_rest (s : State) : backTime s (elect s) = s := by
  unfold elect
  extract_lets own st self dev
  have hself (p i : Nat) : backTime s (self s) = s := by
    unfold self
    split
    · rfl
    · exact setTime_rest s _ _ _ _
  split
  · rfl
  · split
    · split
      · rfl
      · exact setTime_rest s _ _ _ _
    · split
      · split
        · exact hself 0 0
        · dsimp only
          split
          · rfl
          · exact rest_after (back := backTime) (back' := backTime) (setTime_rest { s with linkDev := { dev with calm := 0 } } _ _ _ _) rfl
      · split
        · exact hself 0 0
        · split
          · rfl
          · exact setTime_rest s _ _ _ _

theorem lossOfTime_rest (s : State) (d : Nat) : backTime s (lossOfTime s d) = s := by
  unfold lossOfTime
  split
  · exact rest_after (back := backTime) (back' := backTime) (setTime_rest { s with linkDev := { s.linkDev with calm := 0 } } _ _ _ _) rfl
  · rfl

/-- What the time of the links may change, and the records of the ports. -/
def backLink (s t : State) : State := { t with regs := s.regs, steer := s.steer, linkDev := s.linkDev, link := s.link }

theorem portDown_rest (s : State) (d : Nat) : backLink s (portDown s d) = s := by
  unfold portDown
  split
  · rfl
  · exact rest_after (back := backLink) (back' := backTime) (lossOfTime_rest _ d) rfl

theorem trainFrom_rest (s : State) (d st : Nat) : backLink s (trainFrom s d st) = s := by
  unfold trainFrom
  extract_lets t1 a t2 t3 x t4
  have h1 : backLink s t1 = s := portDown_rest s d
  clear_value t1
  have h4 : backLink s t4 = s := h1
  clear_value t4
  refine rest_after (back := backLink) (back' := backSteer) (steerSync_rest _) ?_
  split
  · exact h4
  · exact rest_after (back := backLink) (back' := backTime) (elect_rest t4) h4

end Sys2Proof.Machine
end

section
/-! PROOFS. The target side of the clocked serial port (R457–R461): what reaches it over its pads, and each step of a transfer. -/
namespace Sys2Proof.Machine

variable {s : State}

/-- What pads that are not held receive reaches the block behind them. -/
theorem fromPads_free {d m : Nat} {o : Out} (h : padHeld s d m = false) : fromPads s d m o = o := by simp [fromPads, h]

/-- Held pads hide what they receive (R420). -/
theorem fromPads_held {d m : Nat} {o : Out} (h : padHeld s d m = true) : fromPads s d m o = .next s := by simp [fromPads, h]

/-- A target that works has its pads to itself. -/
theorem fromPads_targetOn {o : Out} (h : targetOn s = true) : fromPads s 0 pdStew o = o := by
  unfold targetOn at h
  simp only [Bool.and_eq_true, Bool.not_eq_true'] at h
  obtain ⟨-, hfree⟩ := h
  exact fromPads_free hfree

/-- A command event of a working target has its effect where the transfer awaits a command. -/
theorem exec_cspTargetCommand (hon : targetOn s = true) (ht : (csp s 0).tgt = some .command) (cmd addr : Nat) :
    exec (.cspTargetCommand cmd addr) s = .next
      (if cmd / 16 % 4 = 3 ∨ cmd % 16 ≠ 0 then setXfer (cspFlag s F.CSP_STAT_TERR) (some .ignored)
       else if cmd / 128 % 2 = 1 then
         issueRead s (decide (cmd / 64 % 2 = 1)) (2 ^ (cmd / 16 % 4)) (addr % 2 ^ 32 / 2 ^ (cmd / 16 % 4) * 2 ^ (cmd / 16 % 4)) 0
       else setXfer s (some (.xfer false (decide (cmd / 64 % 2 = 1)) (2 ^ (cmd / 16 % 4))
         (addr % 2 ^ 32 / 2 ^ (cmd / 16 % 4) * 2 ^ (cmd / 16 % 4)) 0 0))) := by
  change fromPads s 0 pdStew _ = _
  rw [fromPads_targetOn hon, whenDue_true (by simp [hon, ht])]
  simp

/-- The release of a working target: the words of the write buffer are written, and the transfer that then stands ends. -/
theorem exec_cspTargetRelease (hon : targetOn s = true) (mid : Option Bool) :
    exec (.cspTargetRelease mid) s = .next (match (csp (drainWords s) 0).tgt with
      | none => drainWords s
      | some .ignored => setXfer (drainWords s) none
      | some .command => setXfer (cspFlag (drainWords s) F.CSP_STAT_PARTIAL) none
      | some (.xfer rd auto width addr _ count) =>
        let u := drainWords s
        let w := if rd && mid = some true then cspFlag u F.CSP_STAT_TLATE else u
        let t := if rd && mid.isSome && !bitF u (Reg.CSP_TCFG 0) F.CSP_TCFG_NOAHEAD then issueNext w auto width addr count else w
        setXfer (if mid.isSome || count = 0 then cspFlag t F.CSP_STAT_PARTIAL else t) none) := by
  exact (fromPads_targetOn hon).trans (whenDue_true hon)

/-- Settles O60: each event over pads that are not held has its effect, and none over pads that are. -/
theorem cspTarget : Obligations.CspTarget := by
  unfold Obligations.CspTarget
  refine ⟨?select, ?badCommand, ?command, ?readWord, ?writeWord, ?drain, ?early, ?ignored, ?release, ?held⟩
  case select =>
    intro s hon hidle
    change fromPads s 0 pdStew _ = _
    rw [fromPads_targetOn hon, whenDue_true (by simp [hon, hidle])]
  case badCommand =>
    intro s cmd addr hon ht hbad
    rw [exec_cspTargetCommand hon ht, if_pos hbad]
  case command =>
    intro s cmd addr w hon ht hsize hlow
    rw [exec_cspTargetCommand hon ht, if_neg (by simp [hsize, hlow])]
  case readWord =>
    intro s auto late width addr word count t hon ht
    change fromPads s 0 pdStew _ = _
    rw [fromPads_targetOn hon, ht]
    exact whenDue_true hon
  case writeWord =>
    intro s auto stalled v width addr word count e x t hon ht
    change fromPads s 0 pdStew _ = _
    rw [fromPads_targetOn hon, ht]
    refine (whenDue_true hon).trans ?_
    cases stalled <;> rfl
  case drain =>
    intro s e hbuf
    refine ⟨?_, rfl⟩
    unfold drainWords
    rw [hbuf]
    rfl
  case early =>
    intro s mid hon ht
    rw [exec_cspTargetRelease hon, ht]
  case ignored =>
    intro s mid hon ht
    rw [exec_cspTargetRelease hon, ht]
  case release =>
    intro s mid rd auto width addr word count u w t hon ht
    rw [exec_cspTargetRelease hon, ht]
  case held =>
    intro s cmd addr v late stalled mid i hheld hi
    simp only [List.mem_cons, List.not_mem_nil, or_false] at hi
    obtain rfl | rfl | rfl | rfl | rfl := hi <;> exact fromPads_held hheld

end Sys2Proof.Machine
end

section
/-! PROOFS. The spare lane of a link port (R339, R340): that the count of a window leaves the port UP, and the three commands. -/
namespace Sys2Proof.Machine

variable {s : State} {d : Nat}

/-! ### A port that is UP stays UP while its headers are counted -/

/-- An entry that differs from its default stands in any table after a write elsewhere. -/
theorem smGet_smSet_of_ne_default {α : Type} [DecidableEq α] {f : Nat → α} {j k : Nat} (hne : j ≠ k) (v : α) {xs : List (Nat × α)}
    (hj : smGet f xs j ≠ f j) : smGet f (smSet f k v xs) j = smGet f xs j := by
  induction xs with
  | nil => exact absurd rfl hj
  | cons e xs ih =>
    obtain ⟨i, w⟩ := e
    have hij : ¬ j < i := fun h => hj (by simp [smGet, h])
    rcases Nat.lt_trichotomy k i with h | rfl | h
    · by_cases hv : v = f k
      · simp [smSet, h, hv]
      · have hjk : ¬ j < k := by omega
        simp [smSet, smGet, h, hv, hjk, hne]
    · by_cases hv : v = f k <;> simp [smSet, smGet, hv, hij, hne]
    · have hki : ¬ k < i := by omega
      have hne' : k ≠ i := by omega
      by_cases hji : j = i
      · simp [smSet, smGet, hki, hne', hji]
      · simp only [smGet, hij, if_false, hji] at hj
        simp [smSet, smGet, hki, hne', hij, hji, ih hj]

theorem resetReg_linkStat (p : Part) (d : Nat) : resetReg p (Reg.LINK_STAT d) = 0 := by
  change resetReg p (regA d 0x68 0x48) = 0
  rw [resetReg_regA_die p (by decide) (by decide) (by decide)]
  rcases Nat.eq_zero_or_pos d with rfl | hd
  · cases p <;> decide
  · rw [Nat.min_eq_right hd]; cases p <;> decide

/-- A port in training state 7 is so whatever other registers are written. -/
theorem linkUp_setReg {a : Nat} (w : Word) (hup : linkUp s d = true) (ha : a ≠ Reg.LINK_STAT d) : linkUp (setReg s a w) d = true := by
  have hstat : reg (setReg s a w) (Reg.LINK_STAT d) = reg s (Reg.LINK_STAT d) := by
    refine smGet_smSet_of_ne_default ha.symm w ?_
    intro hreset
    have hzero : reg s (Reg.LINK_STAT d) = 0 := hreset.trans (resetReg_linkStat _ _)
    have hstate : fld s (Reg.LINK_STAT d) F.LINK_STAT_STATE = 7 := of_decide_eq_true (Bool.and_eq_true_iff.mp hup).1
    rw [fld, hzero] at hstate
    exact absurd hstate (by decide)
  unfold linkUp fld
  rw [hstat]
  exact hup

theorem linkUp_countHeaders (ns : List Nat) (hup : linkUp s d = true) : linkUp (countHeaders s d ns) d = true := by
  refine each_keeps (P := fun t => linkUp t d = true) _ _ (fun n hn t ht => linkUp_setReg _ ht ?_) hup
  have hlt := List.mem_range.mp hn
  simp only [Reg.LINK_LERR, Reg.LINK_STAT, regA]
  omega

theorem linkUp_checkSpare (sp : List (LinkBlock × Nat)) (hup : linkUp s d = true) : linkUp (checkSpare s d sp) d = true := by
  unfold checkSpare
  dsimp only
  have hcounted : linkUp (if (sp.filter fun e => spareBadHead e.2 e.1).length = 0 then s else countHeaders s d ((List.range 3).map fun l =>
      if l = fld s (Reg.LINK_LANE d) F.LINK_LANE_RXSP then (sp.filter fun e => spareBadHead e.2 e.1).length else 0)) d = true := by
    split
    · exact hup
    · exact linkUp_countHeaders _ hup
  split
  · exact hup
  · split <;> exact hcounted

theorem linkUp_windowEnd (lane : Nat) (hs : List Nat) (ts : List (LinkBlock × Nat)) (hup : linkUp s d = true) :
    linkUp (windowEnd s d lane hs ts) d = true := by
  unfold windowEnd
  dsimp only
  have hchecked : linkUp (if fld s (Reg.LINK_LANE d) F.LINK_LANE_RXSP = lane then checkSpare s d ts else s) d = true := by
    split
    · exact linkUp_checkSpare ts hup
    · exact hup
  split
  · exact hchecked
  · exact linkUp_countHeaders _ hchecked

/-! ### The end of a window -/

/-- The port after the end of a window of a lane: its count of invalid headers begins again. -/
def windowOver (x : LinkPort) (lane : Nat) : LinkPort :=
  { x with lerr := (List.range 3).map fun l => if l = lane then 0 else x.lerr.getD l 0 }

/-- What the window of a lane of an UP port leads to, with what it counted in `u`. -/
theorem exec_linkSpareRequest (hd : d < dieCount s.part) (hup : linkUp s d = true) (lane : Nat) (hs : List Nat)
    (ts : List (LinkBlock × Nat)) :
    exec (.linkSpareRequest d lane hs ts) s = .next (
      let u := windowEnd s d lane hs ts
      let a := Reg.LINK_LANE d
      let x := linkPort u d
      let f := (currentFrame u + 8) % 2 ^ 32
      let bad := decide (fld u a F.LINK_LANE_THR < x.lerr.getD lane 0)
      if fld u a F.LINK_LANE_RXSP = lane then
        setLinkPort u d { windowOver x lane with spareBad := x.trainBad || decide (x.lerr.getD lane 0 ≠ 0), trainBad := false }
      else if !(fld u a F.LINK_LANE_RXL0 = lane || fld u a F.LINK_LANE_RXL1 = lane) || (!bad && x.spareAgain ≠ some lane) then
        setLinkPort u d (windowOver x lane)
      else if fld u a F.LINK_LANE_RXSP = 3 then
        (if bad then setFld (setLinkPort u d (windowOver x lane)) (Reg.LINK_STAT d) F.LINK_STAT_NOSPARE 1
         else setLinkPort u d (windowOver x lane))
      else if x.spareBad || x.spare.isSome then setLinkPort u d (windowOver x lane)
      else sendCtl (setLinkPort u d { windowOver x lane with spare := some (lane, f, false), spareAgain := none }) d
        (.request lane f)) := by
  have hend : (if linkUp s d then windowEnd s d lane hs ts else s) = windowEnd s d lane hs ts := if_pos hup
  refine (onUnit_true (decide_eq_true hd)).trans ?_
  dsimp only
  rw [hend]
  exact whenDue_true (linkUp_windowEnd lane hs ts hup)

/-- Settles O57: a window by its count and the lanes of the map, a block and a switch by the request that stands. -/
theorem linkLanes : Obligations.LinkLanes := by
  unfold Obligations.LinkLanes
  refine ⟨?request, ?noSpare, ?spareWindow, ?ack, ?accept, ?txSwitch, ?rxSwitch, ?lapse⟩
  case request =>
    intro s d lane hs ts u x n y r hd hup hnotSpare hactive hbad hspare hgood hnone
    rw [exec_linkSpareRequest hd hup]
    have hwanted : ¬ ((!(decide (fld u r F.LINK_LANE_RXL0 = lane) || decide (fld u r F.LINK_LANE_RXL1 = lane)) ||
        (!decide (fld u r F.LINK_LANE_THR < n) && decide (x.spareAgain ≠ some lane))) = true) := by
      rcases hactive with h | h <;> rcases hbad with g | g <;> simp [h, g]
    have hfree : ¬ ((x.spareBad || x.spare.isSome) = true) := by simp [hgood, hnone]
    exact congrArg Host.Outcome.next ((if_neg hnotSpare).trans ((if_neg hwanted).trans ((if_neg hspare).trans (if_neg hfree))))
  case noSpare =>
    intro s d lane hs ts u x n y r hd hup hlane hactive hbad hspare
    rw [exec_linkSpareRequest hd hup]
    have hnotSpare : ¬ fld u r F.LINK_LANE_RXSP = lane := by omega
    have hwanted : ¬ ((!(decide (fld u r F.LINK_LANE_RXL0 = lane) || decide (fld u r F.LINK_LANE_RXL1 = lane)) ||
        (!decide (fld u r F.LINK_LANE_THR < n) && decide (x.spareAgain ≠ some lane))) = true) := by
      rcases hactive with h | h <;> simp [h, hbad]
    exact congrArg Host.Outcome.next ((if_neg hnotSpare).trans ((if_neg hwanted).trans ((if_pos hspare).trans (if_pos (decide_eq_true hbad)))))
  case spareWindow =>
    intro s d lane hs ts u x n y r hd hup hspare
    rw [exec_linkSpareRequest hd hup]
    exact congrArg Host.Outcome.next (if_pos hspare)
  case ack =>
    intro s d lane f x hd hup hasked
    refine (onUnit_true (decide_eq_true hd)).trans ?_
    rw [if_pos rfl, show (linkPort s d).spare = _ from hasked]
    exact whenDue_true (by simp [hup])
  case accept =>
    intro s d lane f x r hd hup hspare hnone hactive
    refine (onUnit_true (decide_eq_true hd)).trans ((if_neg Bool.false_ne_true).trans (whenDue_true ?_))
    rcases hactive with h | h <;> simp [hup, hspare, hnone, h, x, r]
  case txSwitch =>
    intro s d lane f x hd hasked hreached
    refine (onUnit_true (decide_eq_true hd)).trans ?_
    rw [if_pos rfl, show (linkPort s d).txSpare = _ from hasked]
    exact whenDue_true hreached
  case rxSwitch =>
    intro s d lane f x hd hasked hreached
    refine (onUnit_true (decide_eq_true hd)).trans ?_
    rw [if_neg Bool.false_ne_true, show (linkPort s d).spare = _ from hasked]
    exact whenDue_true hreached
  case lapse =>
    intro s d lane f x hd hasked hreached
    refine (onUnit_true (decide_eq_true hd)).trans ?_
    rw [if_neg Bool.false_ne_true, show (linkPort s d).spare = _ from hasked]
    exact whenDue_true hreached

end Sys2Proof.Machine
end

section
/-! PROOFS. Error responses and their record (R351, R352, R361, R365), and the counter read low word first (R368). -/
namespace Sys2Proof.Machine

variable {s t : State} {a : Access} {d : Nat}

/-! ### The record of an error -/

theorem busErrHi_fields {kind master odie hi : Nat} (hk : kind < 4) (hm : master < 32) (ho : odie < 8) (w : Bool) :
    let v := BitVec.ofNat 32 (2 ^ 31 + kind * 2 ^ 29 + master * 2 ^ 24 + w.toNat * 2 ^ 23 + odie * 2 ^ 20 + hi % 256)
    wGet v F.BUS_ERR_HI_VALID = 1 ∧ wGet v F.BUS_ERR_HI_KIND = kind ∧ wGet v F.BUS_ERR_HI_MASTER = master := by
  have hw : w.toNat < 2 := Bool.toNat_lt w
  intro v
  have hv : v.toNat = 2 ^ 31 + kind * 2 ^ 29 + master * 2 ^ 24 + w.toNat * 2 ^ 23 + odie * 2 ^ 20 + hi % 256 := by
    rw [BitVec.toNat_ofNat]
    omega
  simp only [wGet, wField, F.BUS_ERR_HI_VALID, F.BUS_ERR_HI_KIND, F.BUS_ERR_HI_MASTER, hv, Nat.shiftRight_eq_div_pow]
  omega

theorem busErrLo_ne_busErrHi (d : Nat) : Reg.BUS_ERR_LO d ≠ Reg.BUS_ERR_HI d := by
  simp only [Reg.BUS_ERR_LO, Reg.BUS_ERR_HI, regA]
  omega

/-- While VALID is set the record stands (R361). -/
theorem busError_valid {kind addr : Nat} {w : Bool} (h : bitF s (Reg.BUS_ERR_HI d) F.BUS_ERR_HI_VALID = true) :
    busError s d kind addr a w = s := if_pos h

/-- The first error since VALID was cleared is recorded (R361). -/
theorem busError_first {kind addr : Nat} {w : Bool} (h : bitF s (Reg.BUS_ERR_HI d) F.BUS_ERR_HI_VALID = false) :
    busError s d kind addr a w = setReg (setReg s (Reg.BUS_ERR_LO d) (BitVec.ofNat 32 addr)) (Reg.BUS_ERR_HI d)
      (BitVec.ofNat 32 (2 ^ 31 + kind * 2 ^ 29 + a.master * 2 ^ 24 + w.toNat * 2 ^ 23 + a.odie * 2 ^ 20
        + addr / 2 ^ 32 % 256)) :=
  if_neg (by simp [h])

/-! ### Accesses without a target -/

/-- An access of a master that acts, while the dies are out of reset. -/
theorem busAccess_acts {addr : Nat} {w : Bool} (hrun : running s = true) (hacts : masterActs s a = true) (go : Nat → Nat → Ans) :
    busAccess a addr w go s =
      if !(canReach s a (addrDie addr) && masterReaches a (addrLocal addr)) then answer a.odie addr a w (errK s 0)
      else if !fwAllows s (addrDie addr) a (addrLocal addr) w then answer (addrDie addr) addr a w (errK s 2)
      else answer (addrDie addr) addr a w (go (addrDie addr) (addrLocal addr)) := by
  simp [busAccess, hrun, hacts]

theorem targetRead_default {loc width : Nat} (h : target s d loc width = .default_) : targetRead s d loc width a = errK s 0 := by
  simp [targetRead, targetAnswers, h]

theorem targetWrite_default {loc width v : Nat} (h : target s d loc width = .default_) :
    targetWrite s d loc width a v = errK s 0 := by
  simp [targetWrite, targetAnswers, h]

/-- Working memory takes aligned writes of its widths alone. -/
theorem targetWrite_memory_width {loc width : Nat} (hdom : domOn s d pdStew = true) (h : loc + width ≤ 0x40_0000)
    (hw : widthOk loc width = false) (v : Nat) : targetWrite s d loc width a v = errK s 1 := by
  unfold targetWrite
  rw [target_memory s d h]
  simp [targetAnswers, hdom, hw]

/-- Settles O39: each access by what answers it, and the record by its bits. -/
theorem busErrors : Obligations.BusErrors := by
  unfold Obligations.BusErrors
  refine ⟨?firewall, ?write, ?read, ?width, ?apart, ?debug, ?record⟩
  case firewall =>
    intro s a addr width v d hok hrun _ hacts hreach hmaster hfw
    refine (onUnit_true hok).trans (congrArg _ ((busAccess_acts hrun hacts _).trans ?_))
    rw [if_neg (by simp [hmaster, show canReach s a (addrDie addr) = true from hreach]), if_pos (by simp [show fwAllows s (addrDie addr) a _ true = false from hfw])]
    rfl
  case write =>
    intro s a d loc width v h hloc ht
    rw [memoryWrite_reaches h hloc, targetWrite_default ht]
    rfl
  case read =>
    intro s a d loc width h hloc ht
    rw [memoryRead_reaches h hloc, targetRead_default ht]
    rfl
  case width =>
    intro s a d loc width v h hdom hend hw
    rw [memoryWrite_reaches h (by omega), targetWrite_memory_width hdom hend hw]
    rfl
  case apart =>
    intro s a addr width hok hrun _ hacts hapart
    refine (onUnit_true hok).trans (congrArg _ ((busAccess_acts hrun hacts _).trans ?_))
    rw [if_pos (by rcases hapart with h | h <;> simp [h])]
    rfl
  case debug =>
    intro s a addr width hok hrun _ hacts
    refine (onUnit_true hok).trans (congrArg _ ?_)
    simp [busRead, busAccess, hrun, hacts]
  case record =>
    intro s d kind addr a w t hwf hinvalid hm ho hk
    obtain ⟨hvalid, hkind, hmaster⟩ := busErrHi_fields (hi := addr / 2 ^ 32) hk hm ho w
    have ht : t = _ := busError_first hinvalid
    have hlo := State.wf_setReg hwf (Reg.BUS_ERR_LO d) (BitVec.ofNat 32 addr)
    have hhi : reg t (Reg.BUS_ERR_HI d) = _ := ht ▸ reg_setReg_same hlo _ _
    have hbit : bitF t (Reg.BUS_ERR_HI d) F.BUS_ERR_HI_VALID = true := by rw [bitF, fld, hhi, hvalid]; rfl
    refine ⟨hbit, ?_, ?_, ?_, busError_valid hbit, by rw [ht]; rfl, by rw [ht]; rfl⟩
    · rw [fld, hhi, hkind]
    · rw [fld, hhi, hmaster]
    · rw [ht, reg_setReg hlo, if_neg (busErrLo_ne_busErrHi d), reg_setReg_same hwf]

/-! ### Reads of registers -/

theorem regA_pkgA (d q o : Nat) : regA d q o = pkgA d (0x4000_0000 + q * 0x1000 + o) := by
  unfold regA pkgA; omega

theorem target_page {q o : Nat} (hq : q < 0x10000) (ho : o < 0x1000) (hp : (pageRows q).isEmpty = false) :
    target s d (0x4000_0000 + q * 0x1000 + o) 4 = .page q o := by
  have h1 : ¬ (0x4000_0000 + q * 0x1000 + o + 4 ≤ 0x40_0000) := by omega
  have h2 : ¬ (0x4000_0000 + q * 0x1000 + o < 0x1001_0000) := by omega
  have h3 : ¬ (0x4000_0000 + q * 0x1000 + o < 0x2080_0000) := by omega
  have h4 : ¬ (0x4000_0000 + q * 0x1000 + o < 0x3240_0000) := by omega
  have h5 : 0x4000_0000 ≤ 0x4000_0000 + q * 0x1000 + o := by omega
  have h6 : 0x4000_0000 + q * 0x1000 + o < 0x5000_0000 := by omega
  have h7 : (0x4000_0000 + q * 0x1000 + o - 0x4000_0000) / 0x1000 = q := by omega
  have h8 : (0x4000_0000 + q * 0x1000 + o) % 0x1000 = o := by omega
  unfold target
  simp only [h1, h2, h3, h4, h5, h6, h7, h8, hp, if_false, if_true, decide_false, decide_true, Bool.and_false, Bool.and_true,
    Bool.false_eq_true]

/-- A read that reaches a register answers what the register reads, unless it is a pop that cannot be answered. -/
theorem memoryRead_reg {q o : Nat} (h : readsReg s a (regA d q o) = true) (hq : q < 0x10000) (ho : o < 0x1000) (h4 : o % 4 = 0)
    (hp : (pageRows q).isEmpty = false) (hpop : popFails s d q o = false) :
    exec (.memoryRead a (regA d q o) 4) s = .next ((regRead s d q o a).1.read (regRead s d q o a).2) := by
  unfold readsReg at h
  rw [addrDie_regA hq ho, addrPage_regA hq ho, addrLocal_regA hq ho] at h
  obtain ⟨hreach, hpage⟩ := Bool.and_eq_true_iff.mp h
  rw [regA_pkgA, memoryRead_reaches hreach (by omega)]
  have hread : targetRead s d (0x4000_0000 + q * 0x1000 + o) 4 a = okW (regRead s d q o a).1 (regRead s d q o a).2 := by
    unfold targetRead
    rw [target_page hq ho hp]
    simp [targetAnswers, hpage, h4, hpop]
  rw [hread]
  rfl

theorem readsReg_wf {r : Nat} (h : readsReg s a r = true) : s.wf = true := reachesAt_wf (Bool.and_eq_true_iff.mp h).1

/-! ### The shadow of a counter's high word -/

/-- A read of PULSE_COUNT_LO keeps the shadows of the other masters (R368). -/
theorem countHighRead_countLowRead_other (hwf : s.wf = true) {b : Access} (hne : highKey b ≠ highKey a) (hb : highKey b < 256)
    (ha : highKey a < 256) : countHighRead (countLowRead s d a).1 d b = countHighRead s d b := by
  have hshadow := State.wf_setTab hwf tHigh d (highKey a) (reg s (Reg.PULSE_COUNT_HI 0))
  have h1 : tabKey tHigh d (highKey b) ≠ tabKey tHigh d (highKey a + 2 ^ 32) := by unfold tabKey; omega
  have h2 : tabKey tHigh d (highKey b) ≠ tabKey tHigh d (highKey a) := by unfold tabKey; omega
  have h3 : tabKey tHigh d (highKey b + 2 ^ 32) ≠ tabKey tHigh d (highKey a + 2 ^ 32) := by unfold tabKey; omega
  have h4 : tabKey tHigh d (highKey b + 2 ^ 32) ≠ tabKey tHigh d (highKey a) := by unfold tabKey; omega
  unfold countHighRead countLowRead
  simp only [tab_setTab hshadow, tab_setTab hwf, h1, h2, h3, h4, if_false]
  rfl

/-- It latches the high word for the reading master. -/
theorem tab_countLowRead (hwf : s.wf = true) :
    tab (countLowRead s d a).1 tHigh d (highKey a + 2 ^ 32) = 1 ∧
      tab (countLowRead s d a).1 tHigh d (highKey a) = reg s (Reg.PULSE_COUNT_HI 0) := by
  have hshadow := State.wf_setTab hwf tHigh d (highKey a) (reg s (Reg.PULSE_COUNT_HI 0))
  have hkey : tabKey tHigh d (highKey a) ≠ tabKey tHigh d (highKey a + 2 ^ 32) := by unfold tabKey; omega
  refine ⟨tab_setTab_same hshadow _ _ _ _, ?_⟩
  unfold countLowRead
  rw [tab_setTab hshadow, if_neg hkey, tab_setTab_same hwf]

/-- Settles O40: a read of the low word sets the shadow in two entries of its master, and the high word reads them. -/
theorem counterReads : Obligations.CounterReads := by
  unfold Obligations.CounterReads
  refine ⟨?low, ?high⟩
  case low =>
    intro s a d h
    have hwf := readsReg_wf h
    have hexec := memoryRead_reg (q := 1) (o := 0x10) h (by decide) (by decide) (by decide) rfl rfl
    obtain ⟨hset, hshadow⟩ := tab_countLowRead (a := a) (d := d) hwf
    have hreads (u : State) (hu : u.tabs = (countLowRead s d a).1.tabs) : countHighRead u d a = reg s (Reg.PULSE_COUNT_HI 0) := by
      have htab (i : Nat) : tab u tHigh d i = tab (countLowRead s d a).1 tHigh d i := congrArg (smGet tabReset · _) hu
      unfold countHighRead
      rw [htab, htab, hset, hshadow, if_pos rfl]
    refine ⟨_, hexec, rfl, rfl, hreads _ rfl, hreads, ?_⟩
    exact fun b hne hb ha => countHighRead_countLowRead_other hwf hne hb ha
  case high =>
    intro s a d h
    refine ⟨memoryRead_reg (q := 1) (o := 0x14) h (by decide) (by decide) (by decide) rfl rfl, fun hnone => ?_⟩
    unfold countHighRead
    rw [hnone, if_neg (by decide)]

end Sys2Proof.Machine
end

section
/-! PROOFS. The thermal monitor (R445–R447): the registers that a sample writes, the shutdown, and the cap with the governor's point. -/
namespace Sys2Proof.Machine

variable {s t : State} {d : Nat}

/-! ### Resets of the dies -/

theorem countHusk_eq (s : State) : countHusk s = { s with mem := (countHusk s).mem } := storeBytes_eq s _ _ _

/-- A reset of the dies clears the kernels and the lines, and keeps the Keep domain, the fuses and the Shell store (R375). -/
theorem resetDies_fields (s : State) (p : Bool) :
    (resetDies s p).keep = s.keep ∧ (resetDies s p).kern = [] ∧ (resetDies s p).lines = [] ∧ (resetDies s p).fuses = s.fuses ∧
      (resetDies s p).shell = s.shell ∧ (resetDies s p).part = s.part := by
  unfold resetDies keepOver copyLmode
  refine ⟨?_, rfl, rfl, ?_, ?_, ?_⟩ <;> dsimp only <;> split <;> (try split) <;> rfl

/-- A shutdown leaves the package in HUSK, deaf to wakes, with FAULT_N driven once (R446). -/
theorem shutdown_keep (s : State) :
    (shutdown s).keep.seq = .husk ∧ (shutdown s).keep.supplyEn = false ∧ (shutdown s).keep.deaf = true ∧
      (shutdown s).keep.faults = s.keep.faults + 1 := by
  obtain ⟨hkeep, -⟩ := resetDies_fields (countHusk s) true
  have hkept : (resetDies (countHusk s) true).keep = s.keep := hkeep.trans (congrArg State.keep (countHusk_eq s) :)
  exact ⟨rfl, rfl, rfl, (congrArg (fun k : Keep => k.faults + 1) hkept :)⟩

/-! ### A sample -/

/-- TJ as a sample whose hottest sensor is `hot` leaves it. -/
def tjSet (s : State) (d : Nat) (hot : Int) : State := setFld s (Reg.THERM_TEMP d) F.THERM_TEMP_TJ (ofSigned hot 16)

/-- The maximum raised to `hot`. -/
def maxSet (s : State) (d : Nat) (hot : Int) : State :=
  if toSigned (fld s (Reg.THERM_MAX d) F.THERM_MAX_TJ) 16 < hot then setFld s (Reg.THERM_MAX d) F.THERM_MAX_TJ (ofSigned hot 16) else s

/-- ALARM set at the alarm temperature. -/
def alarmSet (s : State) (d : Nat) (hot : Int) : State :=
  if (4 * fld s (Reg.THERM_CFG d) F.THERM_CFG_ALARM : Nat) ≤ hot then setFld s (Reg.THERM_STAT d) F.THERM_STAT_ALARM 1 else s

/-- The registers after a sample. -/
def tempSampled (s : State) (d : Nat) (hot : Int) : State := alarmSet (maxSet (tjSet s d hot) d hot) d hot

theorem exec_thermSample (hd : d < dieCount s.part) (hrun : running s = true) (t1 t2 t3 t4 : Int) :
    exec (.thermSample d t1 t2 t3 t4) s = .next (
      let t := tempSampled s d (max (max t1 t2) (max t3 t4))
      let n := if 500 ≤ max (max t1 t2) (max t3 t4) then (dieX t d).hot + 1 else 0
      if 2 ≤ n then shutdown t else setDieX t d { dieX t d with hot := n }) :=
  (onUnit_true (decide_eq_true hd)).trans (whenDue_true hrun)

/-- A sample writes registers alone. -/
theorem tempSampled_within (h : s.wf = true) (hot : Int) : Within backRegs (fun _ => True) s (tempSampled s d hot) := by
  have htj : Within backRegs (fun _ => True) s (tjSet s d hot) := .setFld (.refl h) trivial _ _
  have hmax : Within backRegs (fun _ => True) s (maxSet (tjSet s d hot) d hot) := .ite (htj.setFld trivial _ _) htj
  exact .ite (hmax.setFld trivial _ _) hmax

theorem tempSampled_rest (s : State) (hot : Int) : (tempSampled s d hot).dieX = s.dieX ∧ (tempSampled s d hot).keep = s.keep := by
  unfold tempSampled alarmSet maxSet
  split <;> split <;> exact ⟨rfl, rfl⟩

theorem toSigned_ofSigned_16 {i : Int} (hlo : -32768 ≤ i) (hhi : i < 32768) : toSigned (ofSigned i 16 % 2 ^ 16) 16 = i := by
  unfold toSigned ofSigned
  norm_num
  split <;> omega

/-- The registers of page THERM are four. -/
theorem therm_registers_ne (d : Nat) :
    Reg.THERM_TEMP d ≠ Reg.THERM_MAX d ∧ Reg.THERM_TEMP d ≠ Reg.THERM_STAT d ∧ Reg.THERM_MAX d ≠ Reg.THERM_STAT d ∧
      Reg.THERM_CFG d ≠ Reg.THERM_TEMP d ∧ Reg.THERM_CFG d ≠ Reg.THERM_MAX d ∧ Reg.THERM_STAT d ≠ Reg.GOV_STAT d := by
  simp only [Reg.THERM_TEMP, Reg.THERM_MAX, Reg.THERM_STAT, Reg.THERM_CFG, Reg.GOV_STAT, regA]
  omega

theorem fld_maxSet (h : s.wf = true) {hot : Int} {b : Nat} (hb : b ≠ Reg.THERM_MAX d) (f : Fld) :
    fld (maxSet s d hot) b f = fld s b f := by
  unfold maxSet
  split
  · exact fld_setFld_reg_ne h hb _ _ _
  · rfl

theorem fld_alarmSet (h : s.wf = true) {hot : Int} {b : Nat} (hb : b ≠ Reg.THERM_STAT d) (f : Fld) :
    fld (alarmSet s d hot) b f = fld s b f := by
  unfold alarmSet
  split
  · exact fld_setFld_reg_ne h hb _ _ _
  · rfl

/-- The maximum after a sample. -/
theorem toSigned_maxSet (h : s.wf = true) {hot : Int} (hlo : -32768 ≤ hot) (hhi : hot < 32768) :
    toSigned (fld (maxSet s d hot) (Reg.THERM_MAX d) F.THERM_MAX_TJ) 16 =
      max (toSigned (fld s (Reg.THERM_MAX d) F.THERM_MAX_TJ) 16) hot := by
  unfold maxSet
  split
  · next hless =>
    rw [fld_setFld_same h _ (by decide) (by decide), max_eq_right (le_of_lt hless)]
    exact toSigned_ofSigned_16 hlo hhi
  · next hmore => rw [max_eq_left (not_lt.mp hmore)]

/-- ALARM after a sample. -/
theorem bitF_alarmSet (h : s.wf = true) (hot : Int) :
    bitF (alarmSet s d hot) (Reg.THERM_STAT d) F.THERM_STAT_ALARM = true ↔
      bitF s (Reg.THERM_STAT d) F.THERM_STAT_ALARM = true ∨ (4 * fld s (Reg.THERM_CFG d) F.THERM_CFG_ALARM : Nat) ≤ hot := by
  unfold alarmSet
  split
  · next hhot => exact iff_of_true (bitF_setFld_one h _ (by decide) (by decide)) (Or.inr hhot)
  · next hcool => exact ⟨Or.inl, fun h => h.resolve_right hcool⟩

/-- What the registers read after a sample: TJ, its maximum, and the alarm (R445). -/
theorem tempSampled_reads (h : s.wf = true) {hot : Int} (hlo : -32768 ≤ hot) (hhi : hot < 32768) :
    dieTemp (tempSampled s d hot) d = hot ∧
      toSigned (fld (tempSampled s d hot) (Reg.THERM_MAX d) F.THERM_MAX_TJ) 16 =
        max (toSigned (fld s (Reg.THERM_MAX d) F.THERM_MAX_TJ) 16) hot ∧
      (bitF (tempSampled s d hot) (Reg.THERM_STAT d) F.THERM_STAT_ALARM = true ↔
        bitF s (Reg.THERM_STAT d) F.THERM_STAT_ALARM = true ∨ (4 * fld s (Reg.THERM_CFG d) F.THERM_CFG_ALARM : Nat) ≤ hot) := by
  obtain ⟨hTM, hTS, hMS, hCT, hCM, -⟩ := therm_registers_ne d
  have hwTj : (tjSet s d hot).wf = true := State.wf_setFld h _ _ _
  have hwMax : (maxSet (tjSet s d hot) d hot).wf = true := by
    unfold maxSet
    split
    · exact State.wf_setFld hwTj _ _ _
    · exact hwTj
  refine ⟨?_, ?_, ?_⟩
  · rw [dieTemp, tempSampled, fld_alarmSet hwMax hTS, fld_maxSet hwTj hTM, tjSet, fld_setFld_same h _ (by decide) (by decide)]
    exact toSigned_ofSigned_16 hlo hhi
  · rw [tempSampled, fld_alarmSet hwMax hMS, toSigned_maxSet hwTj hlo hhi, tjSet, fld_setFld_reg_ne h hTM.symm]
  · rw [tempSampled, bitF_alarmSet hwMax, bitF, fld_maxSet hwTj hMS.symm, fld_maxSet hwTj hCM, tjSet, fld_setFld_reg_ne h hTS.symm,
      fld_setFld_reg_ne h hCT]
    rfl

/-! ### The cap -/

theorem setPoint_within (h : s.wf = true) (vid : Nat) (bb : Int) : Within backRegs (· = Reg.GOV_STAT d) s (setPoint s d vid bb) := by
  have hself : Within backRegs (· = Reg.GOV_STAT d) s s := .refl h
  exact ((hself.setFld rfl _ _).setFld rfl _ _).setFld rfl _ _

/-- The governor's point under a cap changes GOV_STAT alone (R51). -/
theorem capPoint_within (h : s.wf = true) : Within backRegs (· = Reg.GOV_STAT d) s (capPoint s d) := by
  have hself : Within backRegs (· = Reg.GOV_STAT d) s s := .refl h
  exact .ite (((hself.setFld rfl _ _).setFld rfl _ _).setFld rfl _ _)
    (.ite (setPoint_within h _ _) (.ite (setPoint_within h _ _) (.ite ((hself.setFld rfl _ _).setFld rfl _ _) hself)))

/-- The governor brought in line with its limits changes GOV_STAT and the hidden record of its die. -/
theorem govRefresh_within (h : s.wf = true) : Within backDieX (· = Reg.GOV_STAT d) s (govRefresh s d) := by
  have hpoint : Within backDieX (· = Reg.GOV_STAT d) s (capPoint s d) := .trans (.refl h) (capPoint_within h) fun _ h => h
  have hflags := ((hpoint.setFld rfl F.GOV_STAT_VIDCAP (govCeiling s d)).setFld rfl F.GOV_STAT_THCAP
    (decide (thermCap s d < govVmax s d)).toNat).setFld rfl F.GOV_STAT_UNSAFE (decide (govCeiling s d < 50)).toNat
  exact .ite hflags (.setDieX (hflags.setFld rfl _ _) _ _)

/-- The cap that a step leads to (R445). -/
def nextCap (s : State) (d : Nat) : Nat :=
  if throttleAt s d ≤ dieTemp s d then thermCap s d - 1
  else if dieTemp s d ≤ throttleAt s d - 12 then min 60 (thermCap s d + 1) else thermCap s d

theorem nextCap_lt (s : State) (d : Nat) : nextCap s d < 2 ^ 7 := by
  have hcap : thermCap s d < 2 ^ 7 := wGet_lt _ _
  unfold nextCap
  split
  · omega
  · split <;> omega

/-- THERM_STAT as a step writes it. -/
def capStepped (s : State) (d : Nat) : State :=
  let a := Reg.THERM_STAT d
  let t := setFld (setFld s a F.THERM_STAT_CAP (nextCap s d)) a F.THERM_STAT_THROTTLING (decide (nextCap s d < 60)).toNat
  if nextCap s d < 60 && thermCap s d = 60 then setFld t a F.THERM_STAT_THROTEVT 1 else t

theorem exec_thermCapStep (hd : d < dieCount s.part) (hrun : running s = true) :
    exec (.thermCapStep d) s = .next (govRefresh (capStepped s d) d) :=
  (onUnit_true (decide_eq_true hd)).trans (whenDue_true hrun)

theorem capStepped_within (h : s.wf = true) : Within backRegs (· = Reg.THERM_STAT d) s (capStepped s d) := by
  have hself : Within backRegs (· = Reg.THERM_STAT d) s s := .refl h
  have hcap := hself.setFld rfl F.THERM_STAT_CAP (nextCap s d)
  have hthrottling := hcap.setFld rfl F.THERM_STAT_THROTTLING (decide (nextCap s d < 60)).toNat
  exact .ite (hthrottling.setFld rfl _ _) hthrottling

/-- A step leaves its cap in THERM_STAT, with THROTTLING below 60. -/
theorem capStepped_reads (h : s.wf = true) :
    thermCap (capStepped s d) d = nextCap s d ∧
      bitF (capStepped s d) (Reg.THERM_STAT d) F.THERM_STAT_THROTTLING = decide (nextCap s d < 60) := by
  have hcap := State.wf_setFld h (Reg.THERM_STAT d) F.THERM_STAT_CAP (nextCap s d)
  have hthr := State.wf_setFld hcap (Reg.THERM_STAT d) F.THERM_STAT_THROTTLING (decide (nextCap s d < 60)).toNat
  have hevt (g : Fld) (hg : 1 < g.lo ∨ g.hi < 1) : fld (capStepped s d) (Reg.THERM_STAT d) g =
      fld (setFld (setFld s (Reg.THERM_STAT d) F.THERM_STAT_CAP (nextCap s d)) (Reg.THERM_STAT d) F.THERM_STAT_THROTTLING
        (decide (nextCap s d < 60)).toNat) (Reg.THERM_STAT d) g := by
    unfold capStepped
    dsimp only
    split
    · exact fld_setFld_ne hthr _ (by decide) (by decide) hg.symm _
    · rfl
  constructor
  · rw [thermCap, hevt _ (by decide), fld_setFld_ne hcap _ (by decide) (by decide) (by decide),
      fld_setFld_same h _ (by decide) (by decide)]
    exact Nat.mod_eq_of_lt (nextCap_lt s d)
  · unfold bitF
    rw [hevt _ (by decide)]
    exact bitF_setFld_bool hcap _ (by decide) (by decide) _

/-- Settles O31: a sample by the registers that it leaves, or by the shutdown; a step by the cap that it writes before the governor
takes it up. -/
theorem thermalMonitor : Obligations.ThermalMonitor := by
  unfold Obligations.ThermalMonitor
  refine ⟨?sample, ?shutdown, ?step, ?clear⟩
  case sample =>
    intro s d t1 t2 t3 t4 hot hwf hd hrun ⟨hlo, hhi⟩ hcool
    have hframe := tempSampled_within (d := d) hwf hot
    obtain ⟨htj, hmax, halarm⟩ := tempSampled_reads (d := d) hwf hlo hhi
    have hdie : dieX (tempSampled s d hot) d = dieX s d := (congrArg (fun u : State => dieX u d) hframe.rest :)
    have hcalm : ¬ 2 ≤ (if 500 ≤ hot then (dieX (tempSampled s d hot) d).hot + 1 else 0) := by
      rw [hdie]
      split <;> omega
    refine ⟨_, (exec_thermSample hd hrun t1 t2 t3 t4).trans (congrArg _ (if_neg hcalm)), htj, ?_, halarm, hmax, ?_, ?_, ?_⟩
    · rw [dieX_setDieX_same hframe.wf, hdie]
    · exact (congrArg State.keep hframe.rest :)
    · exact (congrArg State.kern hframe.rest :)
    · exact (congrArg State.mem hframe.rest :)
  case shutdown =>
    intro s d t1 t2 t3 t4 hot hd hrun hhot hbefore
    obtain ⟨hdies, hkeep⟩ := tempSampled_rest (d := d) s hot
    have hdie : dieX (tempSampled s d hot) d = dieX s d := congrArg (smGet (fun _ => DieX.zero) · d) hdies
    have hagain : 2 ≤ (if 500 ≤ hot then (dieX (tempSampled s d hot) d).hot + 1 else 0) := by
      rw [hdie, if_pos hhot]
      omega
    obtain ⟨hseq, hsupply, hdeaf, hfaults⟩ := shutdown_keep (tempSampled s d hot)
    refine ⟨_, (exec_thermSample hd hrun t1 t2 t3 t4).trans (congrArg _ (if_pos hagain)), hseq, hsupply, hdeaf, ?_⟩
    rw [hfaults, hkeep]
  case step =>
    intro s d hwf hd hrun
    obtain ⟨-, -, -, -, -, hSG⟩ := therm_registers_ne d
    have hstepped := capStepped_within (d := d) hwf
    have hrefresh := govRefresh_within (d := d) hstepped.wf
    have hframe : Within backDieX (fun r => r = Reg.THERM_STAT d ∨ r = Reg.GOV_STAT d) s (govRefresh (capStepped s d) d) :=
      .trans (.trans (.refl hwf) hstepped fun _ => Or.inl) hrefresh fun _ => Or.inr
    obtain ⟨hcap, hthrottling⟩ := capStepped_reads (d := d) hwf
    have hkept := hrefresh.regs (Reg.THERM_STAT d) hSG
    have hnew : thermCap (govRefresh (capStepped s d) d) d = nextCap s d := (fld_of_reg hkept _).trans hcap
    refine ⟨_, exec_thermCapStep hd hrun, hnew, ?_, ?_, ?_⟩
    · rw [bitF_of_reg hkept, hthrottling, hnew]
    · exact (congrArg (fun u : State => { u with stew := s.stew }) hframe.rest :)
    · exact fun r hr => hframe.regs r (by simpa using hr)
  case clear =>
    intro s a d r h
    exact regCmd_taken (q := 0xA) (o := 4) h (by decide) (by decide) (by decide) rfl rfl

end Sys2Proof.Machine
end

section
/-! PROOFS. Recovery mode, STATUS_N and the debug port (R385, R397–R399, R407). -/
namespace Sys2Proof.Machine

variable {s : State} {a : Access}

/-! ### BOOT_RECOV -/

theorem regWrite_boot (s : State) (o : Nat) (a : Access) (v : Word) : regWrite s 0 5 o a v = writeBoot s o a v := rfl

/-- The word that GO writes: bit 31, and the length. -/
theorem recovWord_fields (len : Nat) :
    wGet (0x8000_0000 ||| fieldIs F.BOOT_RECOV_LEN len) F.BOOT_RECOV_LEN = len % 2 ^ 22 ∧
      (0x8000_0000 ||| fieldIs F.BOOT_RECOV_LEN len).getLsbD 31 = true := by
  constructor
  · rw [wGet_or, wGet_fieldIs_same (by decide) (by decide)]
    have hlow : wGet 0x8000_0000 F.BOOT_RECOV_LEN = 0 := by decide
    rw [hlow, Nat.zero_or]
    rfl
  · rw [BitVec.getLsbD_or]
    rfl

/-- In recovery mode GO starts the check of the image in the buffer (R385). -/
theorem recovWrite_go (hmode : bootMode s = 2) (hstep : s.boot.step = .recovery) (len : Nat) :
    recovWrite s (0x8000_0000 ||| fieldIs F.BOOT_RECOV_LEN len) =
      { setFld (setFld s (Reg.BOOT_RECOV 0) F.BOOT_RECOV_LEN len) (Reg.BOOT_RECOV 0) F.BOOT_RECOV_BUSY 1 with
        boot := { s.boot with step := .checking, status := 0 } } := by
  obtain ⟨hlen, hgo⟩ := recovWord_fields len
  have hset : setFld s (Reg.BOOT_RECOV 0) F.BOOT_RECOV_LEN (len % 2 ^ 22) = setFld s (Reg.BOOT_RECOV 0) F.BOOT_RECOV_LEN len :=
    setFld_mod s _ F.BOOT_RECOV_LEN len
  unfold recovWrite
  rw [if_neg (by simp [hmode])]
  simp only [hlen, hgo, hstep, decide_true, Bool.and_self, if_true, hset]
  rfl

theorem recovWrite_elsewhere (hmode : bootMode s ≠ 2) (v : Word) : recovWrite s v = s := if_pos hmode

theorem regCmd_recov (h : reachesReg s a (Reg.BOOT_RECOV 0) = true) (v : Word) :
    regCmd a (Reg.BOOT_RECOV 0) v s = .next (recovWrite s v).answered :=
  regCmd_taken h (by decide) (by decide) rfl rfl (regWrite_boot s 0x34 a v)

/-! ### The end of the check -/

theorem imageCode_le (s : State) (len : Nat) (h : List Byte) : imageCode s len h ≤ 9 := by
  unfold imageCode
  repeat' split
  all_goals decide

theorem loadSegment_code_le (s : State) (recov : Bool) (h : List Byte) (i : Nat) (data : List Byte) :
    (loadSegment s recov h i data).2 ≤ 11 := by
  unfold loadSegment
  dsimp only
  generalize (if segKind (segEntry h i) = 1 then s.boot.secret else segSecret s h i data) = x
  split
  · exact Nat.le_refl 11
  · split
    · exact Nat.zero_le _
    · split
      · exact Nat.zero_le _
      · exact (by decide : 10 ≤ 11)
    · dsimp only
      split
      · exact Nat.zero_le _
      · exact (by decide : 10 ≤ 11)

theorem loadAll_code_le (h : List Byte) : ∀ (is : List Nat) (s : State), (loadAll h is s).2 ≤ 11
  | [], _ => Nat.zero_le 11
  | i :: is, s => by
    unfold loadAll
    dsimp only
    split
    · exact loadAll_code_le h is _
    · exact loadSegment_code_le _ _ _ _ _

/-- Every code of a check fits BOOT_RECOV.RESULT. -/
theorem recoverImage_code_lt (s : State) : (recoverImage s).2 < 16 := by
  unfold recoverImage
  extract_lets len r q h u code b x t
  have hcode : code ≤ 9 := imageCode_le _ _ _
  have hload : (loadAll h (List.range (imgNseg h)) t).2 ≤ 11 := loadAll_code_le _ _ _
  clear_value code t
  split
  · exact (by decide : 3 < 16)
  · split
    · exact Nat.lt_of_le_of_lt hcode (by decide)
    · exact Nat.lt_of_le_of_lt hload (by decide)

/-- BOOT_RECOV after a check that ended with `code`. -/
def recovReported (s : State) (code : Nat) : State :=
  setFld (setFld s (Reg.BOOT_RECOV 0) F.BOOT_RECOV_BUSY 0) (Reg.BOOT_RECOV 0) F.BOOT_RECOV_RESULT code

theorem recovReported_fields (h : s.wf = true) {code : Nat} (hc : code < 16) :
    bitF (recovReported s code) (Reg.BOOT_RECOV 0) F.BOOT_RECOV_BUSY = false ∧
      fld (recovReported s code) (Reg.BOOT_RECOV 0) F.BOOT_RECOV_RESULT = code := by
  have hbusy := State.wf_setFld h (Reg.BOOT_RECOV 0) F.BOOT_RECOV_BUSY 0
  constructor
  · exact (bitF_setFld_ne hbusy _ (by decide) (by decide) (by decide) _).trans (bitF_setFld_zero h _ (by decide) (by decide))
  · exact (fld_setFld_same hbusy _ (by decide) (by decide) _).trans (Nat.mod_eq_of_lt hc)

/-- The Seed's record put in place of the old one. -/
def setBoot (s : State) (b : Boot) : State := { s with boot := b }

theorem reg_setBoot (s : State) (b : Boot) (r : Nat) : reg (setBoot s b) r = reg s r := rfl

/-- The Seed after a check that left `r.1` with the code `r.2`. -/
def recovEnded (r : State × Nat) : State :=
  let u := recovReported r.1 r.2
  let v := setFld u (Reg.BOOT_STAT 0) F.BOOT_STAT_LOADED 1
  if r.2 = 0 then setBoot v { v.boot with step := .ready, todo := [], later := [] }
  else setBoot u { u.boot with step := .recovery, status := 5 }

theorem recovEnded_step (r : State × Nat) : (recovEnded r).boot.step = if r.2 = 0 then .ready else .recovery := by
  unfold recovEnded
  split <;> rfl

theorem reg_recovEnded {r : State × Nat} (h : r.1.wf = true) :
    reg (recovEnded r) (Reg.BOOT_RECOV 0) = reg (recovReported r.1 r.2) (Reg.BOOT_RECOV 0) := by
  unfold recovEnded
  split
  · rw [reg_setBoot]
    exact reg_setFld_ne (State.wf_setFld (State.wf_setFld h _ _ _) _ _ _) (by decide) _ _
  · rw [reg_setBoot]

/-- The end of a check clears BUSY, shows its code, and makes the image ready or lets the Seed wait for another (R385). -/
theorem recoveryCheckDone_effect (h : s.wf = true) (hseed : seedRuns s = true) (hstep : s.boot.step = .checking) :
    ∃ t, exec .recoveryCheckDone s = .next t ∧ bitF t (Reg.BOOT_RECOV 0) F.BOOT_RECOV_BUSY = false ∧
      fld t (Reg.BOOT_RECOV 0) F.BOOT_RECOV_RESULT = (recoverImage s).2 ∧
      t.boot.step = (if (recoverImage s).2 = 0 then .ready else .recovery) := by
  have hw : (recoverImage s).1.wf = true := (Keeps.recoverImage (Keeps.refl s)).wf h
  obtain ⟨hbusy, hresult⟩ := recovReported_fields hw (recoverImage_code_lt s)
  have hdue : (seedRuns s && decide (s.boot.step = .checking)) = true := by simp [hseed, hstep]
  have hexec : exec .recoveryCheckDone s = .next (recovEnded (recoverImage s)) := whenDue_true hdue
  have hreg := reg_recovEnded hw
  exact ⟨_, hexec, (bitF_of_reg hreg _).trans hbusy, (fld_of_reg hreg _).trans hresult, recovEnded_step _⟩

/-! ### STATUS_N -/

/-- STATUS_N follows DRIVE once the Seed has handed over (R397). -/
theorem bootStatusnWrite_effect (h : reachesReg s a (Reg.BOOT_STATUSN 0) = true) (drive : Bool) :
    exec (.bootStatusnWrite a drive) s = .next
      (if bitF s (Reg.BOOT_STAT 0) F.BOOT_STAT_PRIV then s
       else setFld s (Reg.BOOT_STATUSN 0) F.BOOT_STATUSN_DRIVE drive.toNat).answered := by
  have hbit : (fieldIs F.BOOT_STATUSN_DRIVE drive.toNat).toNat % 2 = drive.toNat := by cases drive <;> decide
  have hwrite : statusnWrite s (fieldIs F.BOOT_STATUSN_DRIVE drive.toNat) =
      if bitF s (Reg.BOOT_STAT 0) F.BOOT_STAT_PRIV then s else setFld s (Reg.BOOT_STATUSN 0) F.BOOT_STATUSN_DRIVE drive.toNat := by
    unfold statusnWrite
    rw [hbit]
  rw [← hwrite]
  exact regCmd_taken h (by decide) (by decide) rfl rfl (regWrite_boot s 0x30 a _)

/-! ### The debug port -/

/-- The debug port halts a steward before LOCK is blown or under permission bit 0 (R399). -/
theorem stewardDebugHalt_effect {d i : Nat} (hd : d < dieCount s.part) (hi : i < 2) (hrun : running s = true)
    (hperm : s.fuses.lock = false ∨ (fld s (Reg.BOOT_DBG 0) F.BOOT_DBG_PERM).testBit 0 = true)
    (hst : (stew s d i).st = .run ∨ (stew s d i).st = .wait) :
    exec (.stewardDebugHalt d i) s = .next
      (powerSync (setStew s d i { stew s d i with st := .debug, core := { (stew s d i).core with brk := none } }) d) := by
  have hallowed : (!s.fuses.lock || (fld s (Reg.BOOT_DBG 0) F.BOOT_DBG_PERM).testBit 0) = true := by
    rcases hperm with hlock | hbit
    · simp [hlock]
    · simp [hbit]
  have hrunning : (decide ((stew s d i).st = .run) || decide ((stew s d i).st = .wait)) = true := by simpa using hst
  refine (onUnit_true (by simp [hd, hi])).trans (whenDue_true ?_)
  simp only [hrun, hallowed, hrunning, Bool.and_self]

/-- Settles O27: GO and the end of the check in recovery mode, the STATUS_N pin, certificates, and what the debug port may do. -/
theorem bootRecoveryDebug : Obligations.BootRecoveryDebug := by
  unfold Obligations.BootRecoveryDebug
  refine ⟨?go, ?elsewhere, ?checked, ?statusn, ?cert, ?halt, ?fuse, ?locked⟩
  case go =>
    intro s a len r h hmode hstep
    rw [← recovWrite_go hmode hstep len]
    exact regCmd_recov h _
  case elsewhere =>
    intro s a len r h hmode
    refine (regCmd_recov h _).trans ?_
    rw [recovWrite_elsewhere hmode]
  case checked => exact fun s h hseed hstep => recoveryCheckDone_effect h hseed hstep
  case statusn => exact fun s a drive h => bootStatusnWrite_effect h drive
  case cert => exact fun s c hrun => whenDue_true hrun
  case halt => exact fun s d i hd hi hrun hperm hst => stewardDebugHalt_effect hd hi hrun hperm hst
  case fuse => exact fun s o hlock => whenDue_true (by simp [hlock])
  case locked =>
    intro s o hlock
    unfold exec execDebugFuseProgram whenDue
    simp [hlock]

end Sys2Proof.Machine
end

section
/-! PROOFS. HUSK and the supplies (R421, R428–R430, R475, R476). -/
namespace Sys2Proof.Machine

variable {s t : State}

/-! ### Entry into HUSK -/

theorem storeW_fields (s : State) (a : Nat) (w : Word) : (storeW s a w).keep = s.keep ∧ (storeW s a w).fuses = s.fuses :=
  ⟨(congrArg State.keep (storeBytes_eq s a w.toNat 4) :), (congrArg State.fuses (storeBytes_eq s a w.toNat 4) :)⟩

/-- The dies reset for HUSK, with the sequencer in step `q`. -/
def huskReset (s : State) (q : Seq) : State :=
  let t := resetDies (countHusk s) true
  { t with keep := { t.keep with seq := q, supplyEn := false, refused := false } }

theorem resetDies_countHusk (s : State) :
    (resetDies (countHusk s) true).keep = s.keep ∧ (resetDies (countHusk s) true).kern = [] ∧
      (resetDies (countHusk s) true).lines = [] ∧ (resetDies (countHusk s) true).fuses = s.fuses ∧
      (resetDies (countHusk s) true).shell = s.shell := by
  obtain ⟨hkeep, hkern, hlines, hfuses, hshell, -⟩ := resetDies_fields (countHusk s) true
  rw [countHusk_eq s] at hkeep hfuses hshell ⊢
  exact ⟨hkeep, hkern, hlines, hfuses, hshell⟩

theorem huskReset_rest (s : State) (q : Seq) :
    (huskReset s q).kern = [] ∧ (huskReset s q).lines = [] ∧ (huskReset s q).fuses = s.fuses ∧ (huskReset s q).shell = s.shell :=
  (resetDies_countHusk s).2

theorem wf_huskReset (h : s.wf = true) (q : Seq) : (huskReset s q).wf = true :=
  (Keeps.resetDies (powerLost := true) (Keeps.countHusk (Keeps.refl s))).wf h

/-- The package in HUSK; a wake event after the last refusal defers the exit (R428). -/
theorem exec_huskEntry (hr : huskReady s = true) (hnone : huskRefuser s = none) (wake : Option Nat) :
    exec (.huskEntry wake) s = .next
      (match wake.bind (wakeBy (huskReset s .deferred)), wake with
        | some u, some b => setOasis u 0x88 (BitVec.ofNat 32 (2 ^ min 9 b))
        | _, _ => huskReset s .husk) := by
  change execHuskEntry wake s = _
  unfold execHuskEntry
  rw [hnone]
  exact whenDue_true hr

/-! ### What the wakes of a deferred exit see -/

theorem keepOver_reg (h : s.wf = true) {r : Nat} (hr : r ≠ Reg.WAKE_CTL 0) : reg (keepOver s) r = reg s r := by
  unfold keepOver copyLmode
  split
  · exact reg_setFld_ne (s := { s with linkDev := { s.linkDev with heard := [] } }) h hr _ _
  · rfl

theorem keepOver_linken (h : s.wf = true) :
    bitF (keepOver s) (Reg.WAKE_CTL 0) F.WAKE_CTL_LINKEN = bitF s (Reg.WAKE_CTL 0) F.WAKE_CTL_LINKEN := by
  unfold keepOver copyLmode
  split
  · exact bitF_setFld_ne (s := { s with linkDev := { s.linkDev with heard := [] } }) h _ (by decide) (by decide) (by decide) _
  · rfl

/-- The registers of the WAKE page as the reset for HUSK leaves them. -/
theorem reg_huskReset (h : s.wf = true) (q : Seq) {r : Nat} (hr : keepReg r = true) :
    reg (huskReset s q) r = reg (keepOver (countHusk s)) r := by
  have hcounted : (countHusk s).wf = true := (Keeps.countHusk (Keeps.refl s)).wf h
  exact (reg_assertReset hcounted 0 r).trans (if_pos hr)

theorem reg_countHusk (s : State) (r : Nat) : reg (countHusk s) r = reg s r := by
  rw [countHusk_eq s]
  rfl

theorem keepReg_pin {b : Nat} (hb : b < 8) : keepReg (Reg.WAKE_PIN 0 b) = true := by
  revert b
  decide

theorem pin_ne_ctl {b : Nat} (hb : b < 8) : Reg.WAKE_PIN 0 b ≠ Reg.WAKE_CTL 0 := by
  revert b
  decide

theorem bitF_pin_huskReset (h : s.wf = true) (q : Seq) {b : Nat} (hb : b < 8) (f : Fld) :
    bitF (huskReset s q) (Reg.WAKE_PIN 0 b) f = bitF s (Reg.WAKE_PIN 0 b) f := by
  have hcounted : (countHusk s).wf = true := (Keeps.countHusk (Keeps.refl s)).wf h
  exact bitF_of_reg ((reg_huskReset h q (keepReg_pin hb)).trans ((keepOver_reg hcounted (pin_ne_ctl hb)).trans (reg_countHusk s _))) f

theorem bitF_timer_huskReset (h : s.wf = true) (q : Seq) (f : Fld) :
    bitF (huskReset s q) (Reg.WAKE_TIMER 0) f = bitF s (Reg.WAKE_TIMER 0) f := by
  have hcounted : (countHusk s).wf = true := (Keeps.countHusk (Keeps.refl s)).wf h
  exact bitF_of_reg ((reg_huskReset h q (by decide)).trans ((keepOver_reg hcounted (by decide)).trans (reg_countHusk s _))) f

theorem linken_huskReset (h : s.wf = true) (q : Seq) :
    bitF (huskReset s q) (Reg.WAKE_CTL 0) F.WAKE_CTL_LINKEN = bitF s (Reg.WAKE_CTL 0) F.WAKE_CTL_LINKEN := by
  have hcounted : (countHusk s).wf = true := (Keeps.countHusk (Keeps.refl s)).wf h
  exact (bitF_of_reg (reg_huskReset h q (by decide)) _).trans ((keepOver_linken hcounted).trans (bitF_of_reg (reg_countHusk s _) _))

/-! ### A wake event while the exit is deferred -/

/-- The state is in canonical form, the exit from HUSK is deferred, and the fuses are `x`. -/
structure ExitDeferred (x : Fuses) (t : State) : Prop where
  wf : t.wf = true
  seq : t.keep.seq = .deferred
  supply : t.keep.supplyEn = false
  fuses : t.fuses = x

namespace ExitDeferred

variable {x : Fuses}

theorem setReg (h : ExitDeferred x t) (r : Nat) (w : Word) : ExitDeferred x (setReg t r w) :=
  ⟨State.wf_setReg h.wf r w, h.seq, h.supply, h.fuses⟩

theorem setFld (h : ExitDeferred x t) (r : Nat) (f : Fld) (v : Nat) : ExitDeferred x (setFld t r f v) := h.setReg r _

theorem setTab (h : ExitDeferred x t) (n d i : Nat) (w : Word) : ExitDeferred x (setTab t n d i w) :=
  ⟨State.wf_setTab h.wf n d i w, h.seq, h.supply, h.fuses⟩

theorem setDieX (h : ExitDeferred x t) (d : Nat) (v : DieX) : ExitDeferred x (setDieX t d v) :=
  ⟨State.wf_setDieX h.wf d v, h.seq, h.supply, h.fuses⟩

theorem ite {c : Prop} {_ : Decidable c} {u : State} (ht : ExitDeferred x t) (hu : ExitDeferred x u) :
    ExitDeferred x (if c then t else u) := by
  split
  · exact ht
  · exact hu

theorem powerSyncAll (h : ExitDeferred x t) (wake : Option Nat) : ExitDeferred x (powerSyncAll t wake) := by
  obtain ⟨hwf, -, hrest⟩ := powerSyncAll_within h.wf wake
  have hkeep : (Machine.powerSyncAll t wake).keep = t.keep := (congrArg State.keep hrest :)
  have hfuses : (Machine.powerSyncAll t wake).fuses = t.fuses := (congrArg State.fuses hrest :)
  exact ⟨hwf, hkeep ▸ h.seq, hkeep ▸ h.supply, hfuses.trans h.fuses⟩

theorem withKeep (h : ExitDeferred x t) (k : Keep) (hseq : k.seq = t.keep.seq) (hsupply : k.supplyEn = t.keep.supplyEn) :
    ExitDeferred x { t with keep := k } := ⟨h.wf, hseq.trans h.seq, hsupply.trans h.supply, h.fuses⟩

theorem not_huskReady (h : ExitDeferred x t) : huskReady t = false := by
  unfold huskReady running
  simp [h.seq]

/-- A wake event records itself and wakes the stewards, and leaves the exit deferred (R424). -/
theorem wakeEvent (h : ExitDeferred x t) (b : Nat) : ExitDeferred x (wakeEvent t b) := by
  unfold Machine.wakeEvent
  extract_lets src a t1 n counted t2 t3 k t4
  have h1 : ExitDeferred x t1 := .ite h (h.setReg _ _)
  have h2 : ExitDeferred x t2 := by
    have hno : t2 = t1 := if_neg (by simp [h.not_huskReady])
    rw [hno]
    exact h1
  have h3 : ExitDeferred x t3 :=
    each_keeps (P := ExitDeferred x) _ _ (fun d _ u hu => (((hu.setFld _ _ _).setDieX _ _).setTab _ _ _ _).setFld _ _ _) h2
  have h4 : ExitDeferred x t4 := (h3.withKeep { k with refused := false } rfl rfl).powerSyncAll _
  clear_value t4
  rw [if_pos (by simp [h4.seq])]
  exact h4

theorem pinChange (h : ExitDeferred x t) (i : Nat) (high : Bool) : ExitDeferred x (pinChange t i high false) := by
  unfold Machine.pinChange
  extract_lets p active a old t1 k u k'
  have h1 : ExitDeferred x t1 := h.setFld _ _ _
  have hu : ExitDeferred x u := .ite (h1.setReg _ _) (h1.wakeEvent i)
  have hevent := hu.withKeep { k' with pinEv := i :: u.keep.pinEv.filter fun j => j ≠ i } rfl rfl
  exact .ite (h1.withKeep _ rfl rfl) (.ite h1 (.ite h1 (hevent.powerSyncAll none)))

theorem timerExpire (h : ExitDeferred x t) : ExitDeferred x (timerExpire t) := by
  unfold Machine.timerExpire
  extract_lets a again t1 t2
  have h1 : ExitDeferred x t1 := .ite h (h.setFld _ _ _)
  have h2 : ExitDeferred x t2 := h1.setReg _ _
  exact h2.wakeEvent 8

theorem linkWake (h : ExitDeferred x t) : ExitDeferred x (linkWake t) := by
  have hwoken : ExitDeferred x { t with linkDev := { t.linkDev with woke := true, heard := [] } } := ⟨h.wf, h.seq, h.supply, h.fuses⟩
  exact hwoken.wakeEvent 9

/-- A source that is set wakes the package. -/
theorem wakeBy (h : ExitDeferred x t) {b : Nat} {u : State} (hu : wakeBy t b = some u) : ExitDeferred x u := by
  unfold Machine.wakeBy at hu
  dsimp only at hu
  split at hu
  · split at hu
    · exact Option.some.inj hu ▸ h.pinChange b _
    · cases hu
  · split at hu
    · split at hu
      · exact Option.some.inj hu ▸ h.timerExpire
      · cases hu
    · split at hu
      · exact Option.some.inj hu ▸ h.linkWake
      · cases hu

end ExitDeferred

theorem exitDeferred_huskReset (h : s.wf = true) : ExitDeferred s.fuses (huskReset s .deferred) :=
  ⟨wf_huskReset h _, rfl, rfl, (huskReset_rest s _).2.2.1⟩

/-- A wake from a source that is set, after the last refusal, defers the exit (R428). -/
theorem huskEntry_deferred (h : s.wf = true) (hr : huskReady s = true) (hnone : huskRefuser s = none) {b : Nat} {u : State}
    (hwake : wakeBy (huskReset s .deferred) b = some u) :
    ∃ t, exec (.huskEntry (some b)) s = .next t ∧ t.keep.seq = .deferred ∧ t.keep.supplyEn = false ∧ t.fuses = s.fuses := by
  have hu := (exitDeferred_huskReset h).wakeBy hwake
  obtain ⟨hkeep, hfuses⟩ := storeW_fields u (oasisA + 0x88) (BitVec.ofNat 32 (2 ^ min 9 b))
  refine ⟨setOasis u 0x88 (BitVec.ofNat 32 (2 ^ min 9 b)), ?_, ?_, ?_, hfuses.trans hu.fuses⟩
  · rw [exec_huskEntry hr hnone, Option.bind_some, hwake]
  · exact (congrArg Keep.seq hkeep :).trans hu.seq
  · exact (congrArg Keep.supplyEn hkeep :).trans hu.supply

/-- A wake from a source that is not set is not heard. -/
theorem huskEntry_unheard (hr : huskReady s = true) (hnone : huskRefuser s = none) {b : Nat}
    (hwake : wakeBy (huskReset s .deferred) b = none) :
    ∃ t, exec (.huskEntry (some b)) s = .next t ∧ t.keep.seq = .husk ∧ t.keep.supplyEn = false ∧ t.fuses = s.fuses := by
  refine ⟨huskReset s .husk, ?_, rfl, rfl, (huskReset_rest s _).2.2.1⟩
  rw [exec_huskEntry hr hnone, Option.bind_some, hwake]

theorem wakeBy_pin {b : Nat} (hb : b < 8) (hen : bitF s (Reg.WAKE_PIN 0 b) F.WAKE_PIN_EN = true)
    (hlevel : bitF s (Reg.WAKE_PIN 0 b) F.WAKE_PIN_LEVEL = false) : ∃ u, wakeBy s b = some u := by
  simp [wakeBy, hb, hen, hlevel]

theorem wakeBy_timer (hen : bitF s (Reg.WAKE_TIMER 0) F.WAKE_TIMER_EN = true) : ∃ u, wakeBy s 8 = some u := by
  simp [wakeBy, hen]

theorem wakeBy_pin_off {b : Nat} (hb : b < 8) (hen : bitF s (Reg.WAKE_PIN 0 b) F.WAKE_PIN_EN = false) : wakeBy s b = none := by
  simp [wakeBy, hb, hen]

theorem wakeBy_timer_off (hen : bitF s (Reg.WAKE_TIMER 0) F.WAKE_TIMER_EN = false) : wakeBy s 8 = none := by
  simp [wakeBy, hen]

theorem wakeBy_link_off {b : Nat} (hb : 8 < b) (hen : bitF s (Reg.WAKE_CTL 0) F.WAKE_CTL_LINKEN = false) : wakeBy s b = none := by
  simp [wakeBy, detectorOn, hen, show ¬ b < 8 by omega, show b ≠ 8 by omega]

/-! ### A refused entry -/

/-- A refused entry sets REFUSE (R416). -/
theorem noteEntry_refuse (h : s.wf = true) (d c m : Nat) : bitF (noteEntry s d false c m) (Reg.PWR_EVT d) F.PWR_EVT_REFUSE = true := by
  have hsat : (satFld s (Reg.PWR_REFCNT d) F.PWR_REFCNT_REFUSED).wf = true := by
    unfold satFld
    split
    · exact State.wf_setFld h _ _ _
    · exact h
  have hset : bitF (setFld (satFld s (Reg.PWR_REFCNT d) F.PWR_REFCNT_REFUSED) (Reg.PWR_EVT d) F.PWR_EVT_REFUSE 1) (Reg.PWR_EVT d)
      F.PWR_EVT_REFUSE = true := bitF_setFld_one hsat _ (by decide) (by decide)
  have hne : Reg.PWR_EVT d ≠ Reg.PWR_REFUSE d := by
    simp only [Reg.PWR_EVT, Reg.PWR_REFUSE, regA]
    omega
  unfold noteEntry
  dsimp only
  split
  · exact hset
  · exact (bitF_of_reg (reg_setReg_ne (State.wf_setFld hsat _ _ _) hne _) _).trans hset

theorem huskEntry_refused (h : s.wf = true) (hr : huskReady s = true) (hfirst : s.keep.refused = false) {c : Nat}
    (hc : huskRefuser s = some c) (w : Option Nat) :
    ∃ t, exec (.huskEntry w) s = .next t ∧ t.keep = { s.keep with refused := true } ∧
      bitF t (Reg.PWR_EVT 0) F.PWR_EVT_REFUSE = true ∧ t.kern = s.kern ∧ t.mem = s.mem := by
  have hexec : exec (.huskEntry w) s = .next (noteEntry { s with keep := { s.keep with refused := true } } 0 false c 0xF) := by
    change execHuskEntry w s = _
    unfold execHuskEntry
    rw [hc]
    exact whenDue_true (by simp [hr, hfirst])
  have hnoted := (SyncFrame.refl (d := 0) (s := { s with keep := { s.keep with refused := true } }) h).noteEntry false c 0xF
  exact ⟨_, hexec, (congrArg State.keep hnoted.rest :), noteEntry_refuse (s := { s with keep := { s.keep with refused := true } }) h 0 c 0xF,
    hnoted.kern_eq, hnoted.mem_eq⟩

/-! ### The dies out of reset -/

/-- What a reset cause does to an image on trial stands in memory and in the Shell store (R405). -/
theorem settleTrial_fields (s : State) (c : Nat) :
    (settleTrial s c).part = s.part ∧ (settleTrial s c).regs = s.regs ∧ (settleTrial s c).keep = s.keep := by
  unfold settleTrial setOasis storeW
  split
  · rw [storeBytes_eq]
    exact ⟨rfl, rfl, rfl⟩
  · split
    · rw [storeList_eq, storeBytes_eq]
      exact ⟨rfl, rfl, rfl⟩
    · exact ⟨rfl, rfl, rfl⟩

/-- The state is in canonical form, the package runs, and BOOT_STAT.CAUSE reads `c`. -/
structure RunsWithCause (c : Nat) (t : State) : Prop where
  wf : t.wf = true
  seq : t.keep.seq = .run
  cause : fld t (Reg.BOOT_STAT 0) F.BOOT_STAT_CAUSE = c

namespace RunsWithCause

variable {c : Nat}

theorem setReg (h : RunsWithCause c t) {r : Nat} (hr : r ≠ Reg.BOOT_STAT 0) (w : Word) : RunsWithCause c (setReg t r w) :=
  ⟨State.wf_setReg h.wf r w, h.seq, (fld_setReg_ne h.wf hr.symm w _).trans h.cause⟩

theorem setFld (h : RunsWithCause c t) {r : Nat} (hr : r ≠ Reg.BOOT_STAT 0) (f : Fld) (v : Nat) : RunsWithCause c (setFld t r f v) :=
  h.setReg hr _

/-- Another field of BOOT_STAT. -/
theorem setStat (h : RunsWithCause c t) {f : Fld} (hl : f.lo ≤ f.hi) (hh : f.hi < 32) (hf : 19 < f.lo) (v : Nat) :
    RunsWithCause c (Machine.setFld t (Reg.BOOT_STAT 0) f v) :=
  ⟨State.wf_setFld h.wf _ f v, h.seq, (fld_setFld_ne h.wf _ hl hh (.inl hf) v).trans h.cause⟩

theorem setTab (h : RunsWithCause c t) (n d i : Nat) (w : Word) : RunsWithCause c (setTab t n d i w) :=
  ⟨State.wf_setTab h.wf n d i w, h.seq, h.cause⟩

theorem spareLog (h : RunsWithCause c t) (d ty a b e : Nat) : RunsWithCause c (spareLog t d ty a b e) := by
  have hne : Reg.SPARE_LOGCNT d ≠ Reg.BOOT_STAT 0 := by
    simp only [Reg.SPARE_LOGCNT, Reg.BOOT_STAT, regA]
    omega
  have hshift := each_keeps (P := RunsWithCause c) (List.range 15).reverse
    (fun i t => Machine.setTab (Machine.setTab t tLog d (2 * (i + 1)) (tab t tLog d (2 * i))) tLog d (2 * (i + 1) + 1)
      (tab t tLog d (2 * i + 1))) (fun _ _ _ hu => (hu.setTab _ _ _ _).setTab _ _ _ _) h
  exact ((hshift.setTab _ _ _ _).setTab _ _ _ _).setReg hne _

theorem loadRepairs (h : RunsWithCause c t) : RunsWithCause c (loadRepairs t) := by
  refine each_keeps (P := RunsWithCause c) _ _ (fun e _ u hu => ?_) h
  have hne : Reg.POD_REPAIR (e.1 / 8) (e.1 % 8) ≠ Reg.BOOT_STAT 0 := by
    simp only [Reg.POD_REPAIR, Reg.BOOT_STAT, regA]
    omega
  exact (hu.setFld hne _ _).setFld hne _ _

/-- The rows of one die that the fuses name bad, logged one after another. -/
theorem logRows (h : RunsWithCause c t) (d : Nat) (rows : List Nat) (n : Nat) :
    RunsWithCause c (rows.foldl (fun (acc : State × Nat) row => (Machine.spareLog acc.1 d 0xC row acc.2 0, acc.2 + 1)) (t, n)).1 := by
  induction rows generalizing t n with
  | nil => exact h
  | cons row rows ih =>
    have hlog : RunsWithCause c (Machine.spareLog t d 0xC row n 0) := h.spareLog d 0xC row n 0
    rw [List.foldl_cons]
    exact ih hlog (n + 1)

theorem loadFuseRows (h : RunsWithCause c t) : RunsWithCause c (loadFuseRows t) :=
  each_keeps (P := RunsWithCause c) _ _ (fun d _ _ hu => hu.logRows d _ 0) h

theorem bootError (h : RunsWithCause c t) : RunsWithCause c (bootError t) := by
  have hset : RunsWithCause c (Machine.setFld (zeroize t) (Reg.BOOT_STAT 0) F.BOOT_STAT_SELFFAIL 1) :=
    RunsWithCause.setStat (f := F.BOOT_STAT_SELFFAIL) (t := zeroize t) ⟨h.wf, h.seq, h.cause⟩ (by decide) (by decide) (by decide) _
  exact ⟨hset.wf, hset.seq, hset.cause⟩

theorem withBoot (h : RunsWithCause c t) (b : Boot) : RunsWithCause c { t with boot := b } := ⟨h.wf, h.seq, h.cause⟩

theorem ite {p : Prop} {_ : Decidable p} {u : State} (ht : RunsWithCause c t) (hu : RunsWithCause c u) :
    RunsWithCause c (if p then t else u) := by
  split
  · exact ht
  · exact hu

/-- A step that leaves registers and the Keep domain. -/
theorem others {u : State} (h : RunsWithCause c t) (hw : u.wf = true) (hpart : u.part = t.part) (hregs : u.regs = t.regs)
    (hkeep : u.keep = t.keep) : RunsWithCause c u := by
  have hreg : reg u (Reg.BOOT_STAT 0) = reg t (Reg.BOOT_STAT 0) := by
    unfold reg
    rw [hpart, hregs]
  exact ⟨hw, (congrArg Keep.seq hkeep :).trans h.seq, (fld_of_reg hreg _).trans h.cause⟩

theorem settleTrial (h : RunsWithCause c t) (cause : Nat) : RunsWithCause c (settleTrial t cause) := by
  obtain ⟨hpart, hregs, hkeep⟩ := settleTrial_fields t cause
  exact h.others ((Keeps.settleTrial (Keeps.refl t)).wf h.wf) hpart hregs hkeep

/-- The detector of the link port shown as having woken the package (R427). -/
theorem linkWoken (h : RunsWithCause c t) :
    RunsWithCause c (if t.linkDev.woke then
      { Machine.setFld t (Reg.LINK_WAKE 0) F.LINK_WAKE_DETECTED 1 with linkDev := { t.linkDev with woke := false } } else t) := by
  split
  · have hset := h.setFld (r := Reg.LINK_WAKE 0) (by decide) F.LINK_WAKE_DETECTED 1
    exact hset.others hset.wf rfl rfl rfl
  · exact h

end RunsWithCause

/-- BOOT_STAT.CAUSE reads the cause of the reset after the release (R375). -/
theorem releaseReset_cause (h : s.wf = true) (recov ok : Bool) : RunsWithCause (s.keep.cause % 16) (releaseReset s recov ok) := by
  unfold releaseReset
  extract_lets c a k t1 w x t2 t3 t4 tgt en up recovered b fast b'
  have h1 : RunsWithCause (s.keep.cause % 16) t1 :=
    ⟨State.wf_setFld (s := { s with keep := { s.keep with seq := .run } }) h _ _ _, rfl,
      fld_setFld_same (s := { s with keep := { s.keep with seq := .run } }) h _ (by decide) (by decide) _⟩
  clear_value t1
  have h2 : RunsWithCause (s.keep.cause % 16) t2 := h1.linkWoken
  clear_value t2
  have h3 : RunsWithCause (s.keep.cause % 16) t3 := h2.loadRepairs.loadFuseRows
  clear_value t3
  have hstew : RunsWithCause (s.keep.cause % 16) { t3 with stew := [] } := h3.others (State.wf_noStew h3.wf) rfl rfl rfl
  have h4 : RunsWithCause (s.keep.cause % 16) t4 := hstew.settleTrial c
  clear_value t4
  have hup : RunsWithCause (s.keep.cause % 16) up :=
    ((h4.setFld (r := Reg.CSP_CFG 0) (by decide) F.CSP_CFG_ROLE 1).setFld (r := Reg.LINK_CTL 0) (by decide) F.LINK_CTL_EN 1).setFld
      (r := Reg.LINK_STAT 0) (by decide) F.LINK_STAT_STATE 1
  clear_value up
  have hrecovered : RunsWithCause (s.keep.cause % 16) recovered :=
    hup.setStat (f := F.BOOT_STAT_MODE) (by decide) (by decide) (by decide) 2
  clear_value recovered
  have hfast : RunsWithCause (s.keep.cause % 16) fast := h4.setStat (f := F.BOOT_STAT_MODE) (by decide) (by decide) (by decide) 1
  clear_value fast
  exact .ite h3.bootError (.ite (hrecovered.withBoot _) (.ite (hfast.withBoot _) (h4.withBoot _)))

/-- An exit that a wake event caused is counted. -/
def exitCounted (s : State) : State := if s.keep.cause = 4 then incOasis s 0x84 else s

theorem exitCounted_fields (h : s.wf = true) : (exitCounted s).wf = true ∧ (exitCounted s).keep = s.keep := by
  unfold exitCounted incOasis setOasis
  split
  · exact ⟨State.wf_storeW h _ _, (storeW_fields s _ _).1⟩
  · exact ⟨h, rfl⟩

theorem referenceReady_effect (h : s.wf = true) (hseq : s.keep.seq = .refWait) (recov ok : Bool) :
    ∃ t, exec (.referenceReady recov ok) s = .next t ∧ t.keep.seq = .run ∧
      fld t (Reg.BOOT_STAT 0) F.BOOT_STAT_CAUSE = s.keep.cause % 16 := by
  obtain ⟨hwf, hkeep⟩ := exitCounted_fields h
  obtain ⟨-, hrun, hcause⟩ := releaseReset_cause hwf recov ok
  have hexec : exec (.referenceReady recov ok) s = .next (releaseReset (exitCounted s) recov ok) := whenDue_true (decide_eq_true hseq)
  rw [hkeep] at hcause
  exact ⟨_, hexec, hrun, hcause⟩

/-! ### The supplies -/

/-- A late supply or reference fails the attempt; after the fourth the package stays in HUSK with FAULT_N driven (R430). -/
theorem huskExitTimeout_effect (hseq : s.keep.seq = .pgWait ∨ s.keep.seq = .refWait ∨ s.keep.seq = .pgLost) :
    ∃ t, exec .huskExitTimeout s = .next t ∧ t.keep.seq = (if s.keep.attempts < 4 then .retryWait else .husk) ∧
      t.keep.supplyEn = false ∧ t.keep.faults = s.keep.faults + (if s.keep.attempts < 4 then 0 else 1) := by
  have hdue : (decide (s.keep.seq = .pgWait) || decide (s.keep.seq = .refWait) || decide (s.keep.seq = .pgLost)) = true := by
    simpa [or_assoc] using hseq
  refine ⟨_, whenDue_true hdue, ?_⟩
  by_cases hmore : s.keep.attempts < 4
  · simp [hmore]
  · simp [hmore, pulseFault, setOasis, incOasis, storeW_fields]

/-- Settles O48: entry into HUSK, its refusal and its deferred exit, the attempts of an exit, and the supplies. -/
theorem huskAndSupplies : Obligations.HuskAndSupplies := by
  unfold Obligations.HuskAndSupplies
  refine ⟨?entry, ?heard, ?unheard, ?refused, ?exit, ?good, ?ready, ?late, ?retry, ?lost, ?apply, ?keepLost⟩
  case entry => exact fun s hr hnone => ⟨_, exec_huskEntry hr hnone none, rfl, rfl, huskReset_rest s _⟩
  case heard =>
    rintro s b h hr hnone (⟨hb, hen, hlevel⟩ | ⟨rfl, hen⟩)
    · obtain ⟨u, hu⟩ := wakeBy_pin hb ((bitF_pin_huskReset h .deferred hb _).trans hen)
        ((bitF_pin_huskReset h .deferred hb _).trans hlevel)
      exact huskEntry_deferred h hr hnone hu
    · obtain ⟨u, hu⟩ := wakeBy_timer ((bitF_timer_huskReset h .deferred _).trans hen)
      exact huskEntry_deferred h hr hnone hu
  case unheard =>
    rintro s b h hr hnone (⟨hb, hen⟩ | ⟨rfl, hen⟩ | ⟨hb, hen⟩)
    · exact huskEntry_unheard hr hnone (wakeBy_pin_off hb ((bitF_pin_huskReset h .deferred hb _).trans hen))
    · exact huskEntry_unheard hr hnone (wakeBy_timer_off ((bitF_timer_huskReset h .deferred _).trans hen))
    · exact huskEntry_unheard hr hnone (wakeBy_link_off hb ((linken_huskReset h .deferred).trans hen))
  case refused => exact fun s w c h hr hfirst hc => huskEntry_refused h hr hfirst hc w
  case exit => exact fun s hseq => ⟨_, whenDue_true (decide_eq_true hseq), rfl, rfl, rfl, rfl, rfl⟩
  case good => exact fun s hseq => whenDue_true (by simpa using hseq)
  case ready => exact fun s recov ok h hseq => referenceReady_effect h hseq recov ok
  case late => exact fun s hseq => huskExitTimeout_effect hseq
  case retry => exact fun s hseq => whenDue_true (decide_eq_true hseq)
  case lost =>
    intro s hseq
    obtain ⟨hkeep, hkern, -, hfuses, -⟩ := resetDies_fields s true
    exact ⟨_, whenDue_true (by simpa using hseq), rfl, (congrArg Keep.supplyEn hkeep :), rfl,
      (congrArg (fun k : Keep => k.faults + 1) hkeep :), hkern, hfuses⟩
  case apply => exact fun s hseq => ⟨_, whenDue_true (decide_eq_true hseq), rfl, rfl, rfl, rfl⟩
  case keepLost =>
    intro s hseq
    obtain ⟨-, hkern, -, hfuses, hshell, -⟩ := resetDies_fields s true
    exact ⟨_, whenDue_true (decide_eq_true hseq), rfl, rfl, rfl, hkern, hfuses, hshell⟩

end Sys2Proof.Machine
end

section
/-! PROOFS. The targets of the domains: what the votes read, and that bringing a die in line with them leaves them. -/
namespace Sys2Proof.Machine

variable {s t u : State} {d m : Nat}

/-! ### What the votes read -/

/-- The registers that votes read, beside the state of a port (R410). -/
inductive VoteReg : Nat → Prop
  | sap {p : Nat} (d o : Nat) (hp : p < 10) (ho : o = 4 ∨ o = 0x40 ∨ o = 0x44 ∨ o = 0x60 ∨ o = 0x64) : VoteReg (regA d (0x40 + p) o)
  | bip {p : Nat} (d o : Nat) (hp : p < 4) (ho : o = 0x114 ∨ o = 0x118 ∨ o = 0x124 ∨ o = 0x128) : VoteReg (regA d 0x58 (o + 0x100 * p))
  | link (d : Nat) : VoteReg (Reg.LINK_CTL d)
  | park {p : Nat} (d : Nat) (hp : p < 8) : VoteReg (Reg.SILENCE_PARK_STAT d p)
  | caravan {p : Nat} (d : Nat) (hp : p < 8) : VoteReg (Reg.CARAVAN_CTL d p)
  | debug : VoteReg (Reg.BOOT_DBG 0)
  | hold : VoteReg (Reg.PWR_HOLD 0)

/-- Registers, domains, hidden records of the dies, and ports may differ. -/
def backVotes (s t : State) : State := { t with regs := s.regs, doms := s.doms, dieX := s.dieX, saps := s.saps }

/-- `t` holds what the votes and the start-up modes read in `s`. -/
structure VoteSame (s t : State) : Prop where
  wf : t.wf = true
  rest : backVotes s t = s
  mode : ∀ e, (dieX t e).mode = (dieX s e).mode
  state : ∀ e p, p < 10 → fld t (Reg.SAP_STAT e p) F.SAP_STAT_STATE = fld s (Reg.SAP_STAT e p) F.SAP_STAT_STATE
  regs : ∀ r, VoteReg r → reg t r = reg s r

namespace VoteSame

theorem refl (h : s.wf = true) : VoteSame s s := ⟨h, rfl, fun _ => rfl, fun _ _ _ => rfl, fun _ _ => rfl⟩

theorem trans (h : VoteSame s t) (hu : VoteSame t u) : VoteSame s u where
  wf := hu.wf
  rest := rest_after hu.rest h.rest
  mode e := (hu.mode e).trans (h.mode e)
  state e p hp := (hu.state e p hp).trans (h.state e p hp)
  regs r hr := (hu.regs r hr).trans (h.regs r hr)

theorem ringInDdr (h : VoteSame s t) {p : Nat} (hp : p < 10) : ringInDdr t d p = ringInDdr s d p := by
  have hsap (o : Nat) (ho : o = 4 ∨ o = 0x40 ∨ o = 0x44 ∨ o = 0x60 ∨ o = 0x64) (f : Fld) :
      fld t (regA d (0x40 + p) o) f = fld s (regA d (0x40 + p) o) f := fld_of_reg (h.regs _ (.sap d o hp ho)) f
  have hbip (hlow : p < 4) (o : Nat) (ho : o = 0x114 ∨ o = 0x118 ∨ o = 0x124 ∨ o = 0x128) (f : Fld) :
      fld t (regA d 0x58 (o + 0x100 * p)) f = fld s (regA d 0x58 (o + 0x100 * p)) f := fld_of_reg (h.regs _ (.bip d o hlow ho)) f
  unfold Machine.ringInDdr Reg.SAP_CFG Reg.SAP_RXR_BASE Reg.SAP_TXR_BASE Reg.SAP_RXR_SIZE Reg.SAP_TXR_SIZE Reg.BIP_SRXBASE
    Reg.BIP_STXBASE Reg.BIP_SRXSIZE Reg.BIP_STXSIZE
  rw [hsap 4 (by decide), hsap 0x40 (by decide), hsap 0x44 (by decide), hsap 0x60 (by decide), hsap 0x64 (by decide)]
  by_cases hlow : p < 4
  · dsimp only
    rw [hbip hlow 0x114 (by decide), hbip hlow 0x118 (by decide), hbip hlow 0x124 (by decide), hbip hlow 0x128 (by decide)]
  · simp only [hlow, decide_false, Bool.false_and]

theorem podParked (h : VoteSame s t) {p : Nat} (hp : p < 8) : podParked t d p = podParked s d p := by
  have hpod : podX t d p = podX s d p := (congrArg (podX · d p) h.rest :)
  unfold Machine.podParked
  rw [bitF_of_reg (h.regs _ (.park d hp)), hpod]

theorem voteOf (h : VoteSame s t) (c : Nat) : voteOf t d c m = voteOf s d c m := by
  have htab : tab t tVote d c = tab s tVote d c := (congrArg (tab · tVote d c) h.rest :)
  have hbusy : podBusy t d (c - 14) = podBusy s d (c - 14) := (congrArg (podBusy · d (c - 14)) h.rest :)
  have hhere : swapHere t d = swapHere s d := (congrArg (swapHere · d) h.rest :)
  have hpods : swapPods t d = swapPods s d := (congrArg (swapPods · d) h.rest :)
  have hlink : bitF t (Reg.LINK_CTL d) F.LINK_CTL_EN = bitF s (Reg.LINK_CTL d) F.LINK_CTL_EN := bitF_of_reg (h.regs _ (.link d)) _
  have hdebug : fld t (Reg.BOOT_DBG 0) F.BOOT_DBG_PERM = fld s (Reg.BOOT_DBG 0) F.BOOT_DBG_PERM := fld_of_reg (h.regs _ .debug) _
  have hhold : reg t (Reg.PWR_HOLD 0) = reg s (Reg.PWR_HOLD 0) := h.regs _ .hold
  unfold Machine.voteOf
  dsimp only
  rw [htab, hbusy, hhere, hpods, hlink, hdebug, hhold]
  by_cases hport : c ≤ 12
  · have hcfg : bitF t (Reg.SAP_CFG d (c - 3)) F.SAP_CFG_PATH = bitF s (Reg.SAP_CFG d (c - 3)) F.SAP_CFG_PATH :=
      bitF_of_reg (h.regs _ (.sap d 4 (by omega) (by decide))) _
    rw [h.state d (c - 3) (by omega), hcfg, h.ringInDdr (by omega : c - 3 < 10)]
    simp only [hport, if_true]
  · by_cases hpod : c ≤ 21
    · rw [h.podParked (by omega : c - 14 < 8)]
      simp only [hport, hpod, if_true, if_false]
    · by_cases hcar : c ≤ 29
      · have hen : bitF t (Reg.CARAVAN_CTL d (c - 22)) F.CARAVAN_CTL_EN = bitF s (Reg.CARAVAN_CTL d (c - 22)) F.CARAVAN_CTL_EN :=
          bitF_of_reg (h.regs _ (.caravan d (by omega))) _
        rw [hen]
        simp only [hport, hpod, if_false]
      · simp only [hport, hpod, hcar, if_false]

/-- The targets follow (R410–R413). -/
theorem domTarget (h : VoteSame s t) : domTarget t d m = domTarget s d m := by
  have hhigh : highestVote t d m = highestVote s d m := by
    unfold highestVote
    simp only [h.voteOf]
  unfold Machine.domTarget startupTarget
  rw [h.mode 0, h.mode d, h.voteOf, hhigh]

/-! ### Steps that leave them -/

/-- A register that votes do not read. -/
theorem setReg (h : VoteSame s t) {r : Nat} (hr : ¬ VoteReg r) (hsap : ∀ e p, p < 10 → r ≠ Reg.SAP_STAT e p) (w : Word) :
    VoteSame s (setReg t r w) where
  wf := State.wf_setReg h.wf r w
  rest := h.rest
  mode := h.mode
  state e p hp := (fld_setReg_ne h.wf (hsap e p hp).symm w _).trans (h.state e p hp)
  regs b hb := (reg_setReg_ne h.wf (fun heq : b = r => hr (heq ▸ hb)) w).trans (h.regs b hb)

theorem setFld (h : VoteSame s t) {r : Nat} (hr : ¬ VoteReg r) (hsap : ∀ e p, p < 10 → r ≠ Reg.SAP_STAT e p) (f : Fld) (v : Nat) :
    VoteSame s (setFld t r f v) := h.setReg hr hsap _

end VoteSame

/-- The pages and the offsets of those registers. -/
theorem VoteReg.shape {r : Nat} (h : VoteReg r) : ∃ d q o, r = regA d q o ∧ o < 0x1000 ∧ q < 0x80 ∧
    (0x40 ≤ q ∧ q < 0x4A ∧ (o = 4 ∨ o = 0x40 ∨ o = 0x44 ∨ o = 0x60 ∨ o = 0x64) ∨ q = 0x58 ∧ 0x14 ≤ o % 0x100 ∨ q = 0x68 ∨ q = 0x38 ∨
      0x78 ≤ q ∨ q = 5 ∨ q = 3 ∧ o = 8) := by
  cases h with
  | @sap p e o hp ho => exact ⟨e, _, o, rfl, by omega, by omega, by omega⟩
  | @bip p e o _ ho => exact ⟨e, _, _, rfl, by omega, by omega, by omega⟩
  | link e => exact ⟨e, _, _, rfl, by omega, by omega, by omega⟩
  | park e hp => exact ⟨e, _, _, rfl, by omega, by omega, by omega⟩
  | caravan e hp => exact ⟨e, _, _, rfl, by omega, by omega, by omega⟩
  | debug => exact ⟨0, _, _, rfl, by omega, by omega, by omega⟩
  | hold => exact ⟨0, _, _, rfl, by omega, by omega, by omega⟩

theorem not_voteReg_sync {r : Nat} (hr : r ∈ syncRegs d) : ¬ VoteReg r := by
  intro h
  obtain ⟨e, q, o, rfl, ho, hq, hshape⟩ := h.shape
  simp only [syncRegs, Reg.PWR_REFCNT, Reg.PWR_EVT, Reg.PWR_REFUSE, Reg.PWR_QCNT, Reg.GOV_STAT, regA, List.mem_cons,
    List.not_mem_nil, or_false] at hr
  omega

theorem sync_ne_sapStat {r : Nat} (hr : r ∈ syncRegs d) {e p : Nat} (_ : p < 10) : r ≠ Reg.SAP_STAT e p := by
  simp only [syncRegs, Reg.PWR_REFCNT, Reg.PWR_EVT, Reg.PWR_REFUSE, Reg.PWR_QCNT, Reg.GOV_STAT, Reg.SAP_STAT, regA, List.mem_cons,
    List.not_mem_nil, or_false] at hr ⊢
  omega

/-- A step that brings domains in line with the votes leaves the votes. -/
theorem VoteSame.sync (h : VoteSame s t) (hu : SyncFrame d t u) (hmode : ∀ e, (dieX u e).mode = (dieX t e).mode) : VoteSame s u :=
  h.trans
    { wf := hu.wf
      rest := rest_after (back := backVotes) (back' := backDoms) hu.rest rfl
      mode := hmode
      state := fun _ _ hp => fld_of_reg (hu.regs _ fun hmem => sync_ne_sapStat hmem hp rfl) _
      regs := fun _ hr => hu.regs _ fun hmem => not_voteReg_sync hmem hr }

/-! ### What the step of another domain leaves -/

/-- Domain `m` of die `d` is as in `s`, and so are the start-up modes; ABORT is not cleared. -/
structure Elsewhere (d m : Nat) (s t : State) : Prop where
  wf : t.wf = true
  dom : dom t d m = dom s d m
  mode : ∀ e, (dieX t e).mode = (dieX s e).mode
  abort : bitF s (Reg.PWR_EVT d) F.PWR_EVT_ABORT = true → bitF t (Reg.PWR_EVT d) F.PWR_EVT_ABORT = true

namespace Elsewhere

theorem refl (h : s.wf = true) : Elsewhere d m s s := ⟨h, rfl, fun _ => rfl, id⟩

theorem trans (h : Elsewhere d m s t) (hu : Elsewhere d m t u) : Elsewhere d m s u :=
  ⟨hu.wf, hu.dom.trans h.dom, fun e => (hu.mode e).trans (h.mode e), hu.abort ∘ h.abort⟩

theorem setReg (h : Elsewhere d m s t) {r : Nat} (hr : r ≠ Reg.PWR_EVT d) (w : Word) : Elsewhere d m s (setReg t r w) :=
  ⟨State.wf_setReg h.wf r w, h.dom, h.mode, fun hs => (bitF_of_reg (reg_setReg_ne h.wf hr.symm w) _).trans (h.abort hs)⟩

theorem setFld (h : Elsewhere d m s t) {r : Nat} (hr : r ≠ Reg.PWR_EVT d) (f : Fld) (v : Nat) : Elsewhere d m s (setFld t r f v) :=
  h.setReg hr _

theorem satFld (h : Elsewhere d m s t) {r : Nat} (hr : r ≠ Reg.PWR_EVT d) (f : Fld) : Elsewhere d m s (satFld t r f) := by
  unfold Machine.satFld
  split
  · exact h.setFld hr f _
  · exact h

/-- A flag of PWR_EVT set. -/
theorem setEvt (h : Elsewhere d m s t) (abort : Bool) :
    Elsewhere d m s (Machine.setFld t (Reg.PWR_EVT d) (if abort then F.PWR_EVT_ABORT else F.PWR_EVT_REFUSE) 1) := by
  refine ⟨State.wf_setFld h.wf _ _ _, h.dom, h.mode, fun hs => ?_⟩
  cases abort
  · exact (bitF_setFld_ne h.wf _ (by decide) (by decide) (by decide) _).trans (h.abort hs)
  · exact bitF_setFld_one h.wf _ (by decide) (by decide)

theorem setDom (h : Elsewhere d m s t) {j : Nat} (hj : j ≠ m) (x : DomX) : Elsewhere d m s (setDom t d j x) := by
  refine ⟨State.wf_setDom h.wf d j x, ?_, h.mode, h.abort⟩
  rw [dom_setDom h.wf, if_neg (by omega), h.dom]

theorem setDieX (h : Elsewhere d m s t) {x : DieX} (hx : x.mode = (dieX t d).mode) : Elsewhere d m s (setDieX t d x) := by
  refine ⟨State.wf_setDieX h.wf d x, h.dom, fun e => ?_, h.abort⟩
  rw [dieX_setDieX h.wf]
  split
  case isTrue he => rw [hx, he, h.mode d]
  case isFalse => exact h.mode e

theorem noteEntry (h : Elsewhere d m s t) (abort : Bool) (c j : Nat) : Elsewhere d m s (noteEntry t d abort c j) := by
  have hcnt : Reg.PWR_REFCNT d ≠ Reg.PWR_EVT d := by simp only [Reg.PWR_REFCNT, Reg.PWR_EVT, regA]; omega
  have hrefuse : Reg.PWR_REFUSE d ≠ Reg.PWR_EVT d := by simp only [Reg.PWR_REFUSE, Reg.PWR_EVT, regA]; omega
  have hnoted := (h.satFld hcnt (if abort then F.PWR_REFCNT_ABORTED else F.PWR_REFCNT_REFUSED)).setEvt abort
  unfold Machine.noteEntry
  dsimp only
  split
  · exact hnoted
  · exact hnoted.setReg hrefuse _

/-- The governor prepares the start of an exit (R421). -/
theorem govPrep (h : Elsewhere d m s t) (n : Nat) : Elsewhere d m s (govPrep t d n) := by
  have hgov : Reg.GOV_STAT d ≠ Reg.PWR_EVT d := by simp only [Reg.GOV_STAT, Reg.PWR_EVT, regA]; omega
  unfold Machine.govPrep setPoint
  split
  · exact ((((h.setFld hgov _ _).setFld hgov _ _).setFld hgov _ _).setFld hgov _ _).setDieX rfl
  · exact h

theorem exitPrep (h : Elsewhere d m s t) (j : Nat) : Elsewhere d m s (exitPrep t d j) := by
  unfold Machine.exitPrep
  split
  · exact h.govPrep _
  · exact h

theorem moveDom (h : Elsewhere d m s t) {j : Nat} (hj : j ≠ m) (x : DomX) : Elsewhere d m s (moveDom t d j x) := by
  unfold Machine.moveDom
  split
  · exact (h.setDom hj x).exitPrep j
  · exact h.setDom hj x

theorem refuseEntry (h : Elsewhere d m s t) {j : Nat} (hj : j ≠ m) (c : Nat) : Elsewhere d m s (refuseEntry t d j c) := by
  unfold Machine.refuseEntry
  dsimp only
  split
  · exact h
  · exact (h.setDom hj _).noteEntry _ _ _

theorem recheckEntry (h : Elsewhere d m s t) {j : Nat} (hj : j ≠ m) : Elsewhere d m s (recheckEntry d j t) := by
  unfold Machine.recheckEntry
  dsimp only
  split
  · exact (h.moveDom hj _).refuseEntry hj _
  · exact h

theorem retarget (h : Elsewhere d m s t) (wake : Option Nat) {j : Nat} (hj : j ≠ m) : Elsewhere d m s (retarget wake d j t) := by
  have hcnt : Reg.PWR_QCNT d ≠ Reg.PWR_EVT d := by simp only [Reg.PWR_QCNT, Reg.PWR_EVT, regA]; omega
  have hqueue (f : Fld) (x : DomX) : Elsewhere d m s (Machine.setDom (Machine.satFld t (Reg.PWR_QCNT d) f) d j x) :=
    (h.satFld hcnt f).setDom hj x
  unfold Machine.retarget
  dsimp only
  split
  · exact h
  · split
    · split
      · exact (h.moveDom hj _).noteEntry _ _ _
      · exact hqueue _ _
    · exact hqueue _ _
    · exact hqueue _ _
    · exact h.setDom hj _

theorem syncDomain (h : Elsewhere d m s t) (wake : Option Nat) {j : Nat} (hj : j ≠ m) : Elsewhere d m s (syncDomain wake d j t) :=
  (h.retarget wake hj).recheckEntry hj

end Elsewhere

/-! ### The step of the domain itself -/

theorem syncFrame_syncDomain (h : s.wf = true) (wake : Option Nat) (j : Nat) : SyncFrame d s (syncDomain wake d j s) :=
  ((SyncFrame.refl h).retarget wake j).recheckEntry j

/-- No entry stands before its pad-hold point. -/
def Settled (x : DomSt) : Prop := ∀ lvl from_, x ≠ .entering lvl from_ false

theorem recheckEntry_settled (hs : Settled (dom s d m).st) : recheckEntry d m s = s := by
  unfold recheckEntry
  dsimp only
  split
  case h_1 hst _ => exact absurd hst (hs _ _)
  case h_2 => rfl

theorem retarget_same (ht : domTarget s d m = (dom s d m).tgt) (wake : Option Nat) : retarget wake d m s = s := if_pos ht

/-- A domain past its pad-hold point, or in a state, keeps its state. -/
theorem retarget_st (h : s.wf = true) (hs : Settled (dom s d m).st) (wake : Option Nat) :
    (dom (retarget wake d m s) d m).st = (dom s d m).st := by
  have hqueue (f : Fld) (y : DomX) (hy : y.st = (dom s d m).st) :
      (dom (setDom (satFld s (Reg.PWR_QCNT d) f) d m y) d m).st = (dom s d m).st := by
    rw [dom_setDom_same ((SyncFrame.refl (d := d) h).satFld (by simp [syncRegs]) f).wf, hy]
  unfold retarget
  dsimp only
  split
  · rfl
  · split
    case h_1 hst => exact absurd hst (hs _ _)
    case h_2 => exact hqueue _ _ rfl
    case h_3 => exact hqueue _ _ rfl
    case h_4 =>
      rw [dom_setDom_same h]

theorem syncDomain_st (h : s.wf = true) (hs : Settled (dom s d m).st) (wake : Option Nat) :
    (dom (syncDomain wake d m s) d m).st = (dom s d m).st := by
  have hst := retarget_st h hs wake
  unfold syncDomain
  rw [recheckEntry_settled (hst.symm ▸ hs), hst]

/-- Bringing the domains in line with the votes keeps the state of a domain that is not before its pad-hold point (R423). -/
theorem powerSync_st (h : s.wf = true) (hs : Settled (dom s d m).st) : (dom (powerSync s d) d m).st = (dom s d m).st := by
  have hkeep : (powerSync s d).wf = true ∧ (dom (powerSync s d) d m).st = (dom s d m).st := by
    refine each_keeps (P := fun u => u.wf = true ∧ (dom u d m).st = (dom s d m).st) _ _ (fun j _ u hu => ?_) ⟨h, rfl⟩
    obtain ⟨hw, hst⟩ := hu
    refine ⟨(syncFrame_syncDomain (d := d) hw none j).wf, ?_⟩
    by_cases hj : j = m
    · subst hj
      exact (syncDomain_st hw (hst.symm ▸ hs) none).trans hst
    · exact (congrArg DomX.st ((Elsewhere.refl hw).syncDomain none hj).dom :).trans hst
  exact hkeep.2

end Sys2Proof.Machine
end

section
/-! PROOFS. What a transition leaves: the loss of a domain's content, its return, and the end of the transition (R418, R421–R423). -/
namespace Sys2Proof.Machine

variable {s t u : State} {d m : Nat}

/-! ### The loss of content -/

/-- What a domain's content is kept in may differ. -/
def backContent (s t : State) : State :=
  { t with
    regs := s.regs, tabs := s.tabs, mem := s.mem, ecc := s.ecc, kern := s.kern, pub := s.pub, slip := s.slip, rows := s.rows
    pods := s.pods, link := s.link, linkDev := s.linkDev, carav := s.carav, ddr := s.ddr, saps := s.saps, steer := s.steer
    meters := s.meters }

/-- `t` differs from `s` at most there. -/
structure ContentFrame (s t : State) : Prop where
  rest : backContent s t = s

namespace ContentFrame

theorem refl (s : State) : ContentFrame s s := ⟨rfl⟩

theorem ite {c : Prop} {_ : Decidable c} (ht : ContentFrame s t) (hu : ContentFrame s u) : ContentFrame s (if c then t else u) := by
  split
  · exact ht
  · exact hu

theorem each {α : Type} (h : ContentFrame s t) {xs : List α} {f : α → State → State}
    (hf : ∀ x v, ContentFrame s v → ContentFrame s (f x v)) : ContentFrame s (each xs f t) := each_keeps xs f (fun x _ v hv => hf x v hv) h

theorem setReg (h : ContentFrame s t) (r : Nat) (w : Word) : ContentFrame s (setReg t r w) := ⟨h.rest⟩

theorem setFld (h : ContentFrame s t) (r : Nat) (f : Fld) (v : Nat) : ContentFrame s (setFld t r f v) := h.setReg r _

theorem withSlip (h : ContentFrame s t) (x : List (Nat × Slip)) : ContentFrame s { t with slip := x } := ⟨h.rest⟩

theorem withDevice (h : ContentFrame s t) (x : LinkDev) : ContentFrame s { t with linkDev := x } := ⟨h.rest⟩

theorem dropRegs (h : ContentFrame s t) (d m : Nat) : ContentFrame s (dropRegs t d m) := ⟨h.rest⟩

theorem dropTab (h : ContentFrame s t) (n d lo hi : Nat) : ContentFrame s (dropTab t n d lo hi) := ⟨h.rest⟩

theorem setLinkPort (h : ContentFrame s t) (d : Nat) (p : LinkPort) : ContentFrame s (setLinkPort t d p) := ⟨h.rest⟩

theorem clearMem (h : ContentFrame s t) (lo hi : Nat) : ContentFrame s (clearMem t lo hi) := ⟨h.rest⟩

theorem setDdr (h : ContentFrame s t) (d : Nat) (x : Ddr) : ContentFrame s (setDdr t d x) := ⟨h.rest⟩

theorem setKern (h : ContentFrame s t) (d k : Nat) (v : Kern) : ContentFrame s (setKern t d k v) := ⟨h.rest⟩

theorem setRows (h : ContentFrame s t) (d p : Nat) (r : Rows) : ContentFrame s (setRows t d p r) := ⟨h.rest⟩

theorem setPodX (h : ContentFrame s t) (d p : Nat) (x : PodX) : ContentFrame s (setPodX t d p x) := ⟨h.rest⟩

theorem setCaravan (h : ContentFrame s t) (d p : Nat) (x : Caravan) : ContentFrame s (setCaravan t d p x) := ⟨h.rest⟩

theorem setSpares (h : ContentFrame s t) (d p : Nat) (slots : List Nat) : ContentFrame s (setSpares t d p slots) :=
  (((h.setFld _ _ _).setFld _ _ _).setFld _ _ _).setFld _ _ _

theorem setSap (h : ContentFrame s t) (d m : Nat) (x : SapPort) : ContentFrame s (setSap t d m x) := ⟨h.rest⟩

theorem setMeter (h : ContentFrame s t) (d i : Nat) (x : Meter) : ContentFrame s (setMeter t d i x) := ⟨h.rest⟩

theorem publish (h : ContentFrame s t) (d n : Nat) (v : Word) (valid : Bool) : ContentFrame s (publish t d n v valid) := ⟨h.rest⟩

theorem trainFrom (h : ContentFrame s t) (d st : Nat) : ContentFrame s (trainFrom t d st) :=
  ⟨rest_after (back := backContent) (back' := backLink) (trainFrom_rest t d st) h.rest⟩

theorem clearLines (h : ContentFrame s t) (d : Nat) (leaving : Nat → Bool) : ContentFrame s (clearLines t d leaving) :=
  h.each fun n _ hv => hv.publish d n 0 false

theorem dropPod (h : ContentFrame s t) (d p : Nat) : ContentFrame s (dropPod d p t) := by
  unfold Machine.dropPod
  extract_lets lo t1 t2 t3 x t4 t5 t6 t7
  have h3 : ContentFrame s t3 := (((h.clearMem _ _).clearMem _ _).dropTab _ _ _ _).dropTab _ _ _ _
  clear_value t3
  have h4 : ContentFrame s t4 := h3.each fun k _ hv => hv.setKern d k _
  clear_value t4
  have h5 : ContentFrame s t5 := h4.withSlip _
  clear_value t5
  have h6 : ContentFrame s t6 := (h5.setRows _ _ _).setFld _ _ _
  clear_value t6
  have h7 : ContentFrame s t7 := (h6.setPodX _ _ _).setCaravan _ _ _
  exact (h7.setSpares _ _ _).setFld _ _ _

theorem restPod (h : ContentFrame s t) (d p : Nat) : ContentFrame s (restPod d p t) := h.each fun k _ hv => hv.setKern d k _

theorem meterRest (h : ContentFrame s t) (d : Nat) : ContentFrame s (meterRest t d) :=
  (h.each fun i _ hv => hv.setMeter d i _).each fun _ _ hv => hv.setFld _ _ _

/-- The loss of a domain's content changes that content (R418). -/
theorem domainLoss (h : ContentFrame s t) (hm : m ≠ pdSap) (lvl : Nat) : ContentFrame s (domainLoss t d m lvl) := by
  unfold Machine.domainLoss
  extract_lets off t1 x t2 t3 t4 t5 y keep t6 z ps
  have h2 : ContentFrame s t2 := h.each fun n _ hv => hv.setSap d n _
  have h3 : ContentFrame s t3 := h.trainFrom d 0
  clear_value t2 t3
  have h4 : ContentFrame s t4 := ((h3.dropRegs _ _).setLinkPort _ _).dropTab _ _ _ _
  clear_value t4
  have h5 : ContentFrame s t5 := h4.dropTab _ _ _ _
  clear_value t5
  have hdevice : ContentFrame s { t5 with linkDev := { State.reset.linkDev with woke := t5.linkDev.woke, heard := t5.linkDev.heard } } :=
    h5.withDevice _
  have h6 : ContentFrame s t6 := h.each fun _ _ hv => hv.clearMem _ _
  clear_value t6
  have hddr := (((h.dropRegs d m).setDdr d Ddr.zero).clearMem (pkgA d 0x8_0000_0000) (pkgA d 0x10_0000_0000))
  have hpods := (((h.clearLines d fun k => pdPod (k / 18) = m).each fun p _ hv => hv.dropPod d p).dropRegs d m :
    ContentFrame s (Machine.dropRegs (Machine.each ps (Machine.dropPod d) _) d m))
  rw [if_neg hm]
  refine .ite (.ite ((h2.dropRegs _ _).dropTab _ _ _ _) h2) (.ite (.ite (.ite hdevice h4) h3) (.ite (h6.meterRest d) ?_))
  exact .ite (.ite hddr (h.setDdr _ _)) (.ite hpods (h.each fun p _ hv => hv.restPod d p))

end ContentFrame

end Sys2Proof.Machine
end

section
/-! PROOFS. Domains enter RET or OFF and leave it (R408–R423). -/
namespace Sys2Proof.Machine

variable {s t u : State} {d m : Nat}

/-! ### The ports of the SAP domain stopped -/

/-- Bringing a die in line with the votes leaves a domain whose target is unchanged and that is past its pad-hold point. -/
theorem powerSync_fixed (h : VoteSame s t) (hd : dom t d m = dom s d m) (htgt : (dom s d m).tgt = domTarget s d m)
    (hset : Settled (dom s d m).st) : VoteSame s (powerSync t d) ∧ dom (powerSync t d) d m = dom s d m := by
  refine each_keeps (P := fun v => VoteSame s v ∧ dom v d m = dom s d m) _ _ (fun j _ v hv => ?_) ⟨h, hd⟩
  obtain ⟨hsame, hdom⟩ := hv
  by_cases hj : j = m
  · subst hj
    have hkept : syncDomain none d j v = v := by
      unfold syncDomain
      rw [retarget_same (by rw [hsame.domTarget, hdom, htgt]), recheckEntry_settled (hdom.symm ▸ hset)]
    rw [hkept]
    exact ⟨hsame, hdom⟩
  · have helse := (Elsewhere.refl hsame.wf).syncDomain (d := d) none hj
    exact ⟨hsame.sync (syncFrame_syncDomain hsame.wf none j) helse.mode, helse.dom.trans hdom⟩

theorem VoteSame.setSap (h : VoteSame s t) (d i : Nat) (x : SapPort) : VoteSame s (setSap t d i x) :=
  ⟨(Keeps.setSap (Keeps.refl t)).wf h.wf, h.rest, h.mode, h.state, h.regs⟩

theorem not_voteReg_sapCtl {e i : Nat} (_ : i < 10) : ¬ VoteReg (Reg.SAP_CTL e i) := by
  intro h
  obtain ⟨d, q, o, hr, ho, hq, hshape⟩ := h.shape
  simp only [Reg.SAP_CTL, regA] at hr
  omega

theorem not_voteReg_bipStat {e i : Nat} (_ : i < 4) : ¬ VoteReg (Reg.BIP_STAT e i) := by
  intro h
  obtain ⟨d, q, o, hr, ho, hq, hshape⟩ := h.shape
  simp only [Reg.BIP_STAT, regA] at hr
  omega

theorem not_voteReg_sapStat {e i : Nat} (_ : i < 10) : ¬ VoteReg (Reg.SAP_STAT e i) := by
  intro h
  obtain ⟨d, q, o, hr, ho, hq, hshape⟩ := h.shape
  simp only [Reg.SAP_STAT, regA] at hr
  omega

theorem sapCtl_ne_sapStat {e i : Nat} (_ : i < 10) (e' p : Nat) (_ : p < 10) : Reg.SAP_CTL e i ≠ Reg.SAP_STAT e' p := by
  simp only [Reg.SAP_CTL, Reg.SAP_STAT, regA]
  omega

theorem bipStat_ne_sapStat {e i : Nat} (_ : i < 4) (e' p : Nat) (_ : p < 10) : Reg.BIP_STAT e i ≠ Reg.SAP_STAT e' p := by
  simp only [Reg.BIP_STAT, Reg.SAP_STAT, regA]
  omega

/-- A field of a port's status that leaves STATE as it reads. -/
theorem VoteSame.setSapStat (h : VoteSame s t) {e i : Nat} (hi : i < 10) (f : Fld) (v : Nat)
    (hstate : fld (Machine.setFld t (Reg.SAP_STAT e i) f v) (Reg.SAP_STAT e i) F.SAP_STAT_STATE =
      fld t (Reg.SAP_STAT e i) F.SAP_STAT_STATE) : VoteSame s (Machine.setFld t (Reg.SAP_STAT e i) f v) where
  wf := State.wf_setFld h.wf _ _ _
  rest := h.rest
  mode := h.mode
  state e' p hp := by
    by_cases heq : Reg.SAP_STAT e' p = Reg.SAP_STAT e i
    · rw [heq, hstate, ← heq, h.state e' p hp]
    · exact (fld_setFld_reg_ne h.wf heq _ _ _).trans (h.state e' p hp)
  regs r hr := (reg_setFld_ne h.wf (fun heq : r = Reg.SAP_STAT e i => not_voteReg_sapStat hi (heq ▸ hr)) _ _).trans (h.regs r hr)

/-- A stopped port stopped again by the loss of its domain keeps the votes and the domain (R418). -/
theorem sapStop_fixed {i : Nat} (h : VoteSame s t) (hd : dom t d m = dom s d m) (htgt : (dom s d m).tgt = domTarget s d m)
    (hset : Settled (dom s d m).st) (hi : i < 10) (hstop : sapState s d i = sapStopped) :
    VoteSame s (sapStop t d i false) ∧ dom (sapStop t d i false) d m = dom s d m := by
  unfold sapStop setSapState sapGainStat
  extract_lets t1 t2 t3 a live x u
  have h1 : VoteSame s t1 := h.setSap d i _
  have hd1 : dom t1 d m = dom s d m := (dom_setSap _ _ _ _ _ _).trans hd
  clear_value t1
  have h2 : VoteSame s t2 ∧ dom t2 d m = dom s d m := by
    unfold t2
    split
    case isTrue hlow =>
      exact ⟨(h1.setFld (not_voteReg_bipStat hlow) (bipStat_ne_sapStat hlow) _ _).setFld (not_voteReg_bipStat hlow)
        (bipStat_ne_sapStat hlow) _ _, hd1⟩
    case isFalse => exact ⟨h1, hd1⟩
  obtain ⟨h2, hd2⟩ := h2
  clear_value t2
  have hnow : fld t2 (Reg.SAP_STAT d i) F.SAP_STAT_STATE = 0 := (h2.state d i hi).trans hstop
  have hzero : fld (setFld t2 (Reg.SAP_STAT d i) F.SAP_STAT_STATE sapStopped) (Reg.SAP_STAT d i) F.SAP_STAT_STATE =
      fld t2 (Reg.SAP_STAT d i) F.SAP_STAT_STATE := by
    rw [fld_setFld_same h2.wf _ (by decide) (by decide), hnow]
    rfl
  have h3 : VoteSame s t3 := (h2.setSapStat hi _ _ hzero).setFld (not_voteReg_sapCtl hi) (sapCtl_ne_sapStat hi) _ _
  have hd3 : dom t3 d m = dom s d m := (dom_setFld _ _ _ _ _ _).trans ((dom_setFld _ _ _ _ _ _).trans hd2)
  clear_value t3
  have h4 := h3.setSapStat (e := d) hi F.SAP_STAT_RAMP (live && (x.gain.ramps || x.gainRx.ramps)).toNat
    (fld_setFld_ne h3.wf _ (by decide) (by decide) (by decide) _)
  have h5 := h4.setSapStat (e := d) hi F.SAP_STAT_MUTED (live && decide (x.gainRx.j = 0)).toNat
    (fld_setFld_ne h4.wf _ (by decide) (by decide) (by decide) _)
  exact powerSync_fixed h5 ((dom_setFld _ _ _ _ _ _).trans ((dom_setFld _ _ _ _ _ _).trans hd3)) htgt hset

/-- What the loss of a domain may change (R418). -/
def backLoss (s t : State) : State :=
  { t with
    regs := s.regs, tabs := s.tabs, mem := s.mem, ecc := s.ecc, kern := s.kern, stew := s.stew, pub := s.pub, slip := s.slip
    rows := s.rows, pods := s.pods, dieX := s.dieX, doms := s.doms, keep := s.keep, link := s.link, linkDev := s.linkDev
    carav := s.carav, ddr := s.ddr, saps := s.saps, steer := s.steer, meters := s.meters }

/-- The votes on a domain stand, and where it is that of the ports, they are stopped. -/
def LossQuiet (s : State) (d m : Nat) : Prop :=
  m ≠ pdSap ∨ ((dom s d m).tgt = domTarget s d m ∧ ((List.range 10).all fun i => decide (sapState s d i = sapStopped)) = true)

theorem backLoss_ofVotes (h : backVotes s t = s) : backLoss s t = s :=
  rest_after (back := backLoss) (back' := backVotes) h rfl

theorem backLoss_dropSaps (h : backVotes s t = s) (d m : Nat) (x : List (Nat × SapPort)) (y : Steer) :
    backLoss s { dropRegs t d m with saps := x, steer := y } = s := backLoss_ofVotes (t := t) h

/-- The loss of its content leaves the domain's sequencer. -/
theorem domainLoss_dom (h : s.wf = true) (hquiet : LossQuiet s d m) (hset : Settled (dom s d m).st) (lvl : Nat) :
    backLoss s (domainLoss s d m lvl) = s ∧ dom (domainLoss s d m lvl) d m = dom s d m := by
  by_cases hm : m = pdSap
  · obtain hne | ⟨htgt, hall⟩ := hquiet
    · exact absurd hm hne
    · have hstop (i : Nat) (hi : i < 10) : sapState s d i = sapStopped := of_decide_eq_true (List.all_eq_true.mp hall i (List.mem_range.mpr hi))
      have hports : VoteSame s (each (List.range 10) (fun i v => sapStop v d i false) s) ∧
          dom (each (List.range 10) (fun i v => sapStop v d i false) s) d m = dom s d m :=
        each_keeps (P := fun v => VoteSame s v ∧ dom v d m = dom s d m) _ _ (fun i hi _ hv =>
          sapStop_fixed hv.1 hv.2 htgt hset (List.mem_range.mp hi) (hstop i (List.mem_range.mp hi))) ⟨.refl h, rfl⟩
      obtain ⟨hsame, hdom⟩ := hports
      unfold domainLoss
      rw [if_pos hm]
      generalize each (List.range 10) (fun i v => sapStop v d i false) s = t at hsame hdom
      dsimp only
      split
      · exact ⟨backLoss_dropSaps hsame.rest d m _ _, hdom⟩
      · exact ⟨backLoss_ofVotes hsame.rest, hdom⟩
  · have hrest := ((ContentFrame.refl s).domainLoss (d := d) hm lvl).rest
    have hdoms : (domainLoss s d m lvl).doms = s.doms := (congrArg State.doms hrest :)
    refine ⟨rest_after (back := backLoss) (back' := backContent) hrest rfl, ?_⟩
    unfold dom
    rw [hdoms]

end Sys2Proof.Machine
end

section
/-! PROOFS. The end of a transition and the return of a domain's content (R421–R423). -/
namespace Sys2Proof.Machine

variable {s t u : State} {d m lvl : Nat}

/-! ### The end of a transition -/

theorem endTransition_reached (hq : (dom s d m).queued = none ∨ (dom s d m).queued = some lvl) :
    endTransition s d m lvl = setDom s d m { dom s d m with st := domAt lvl, queued := none } := by
  unfold endTransition
  dsimp only
  rcases hq with hq | hq
  · rw [hq]
  · rw [hq]
    exact if_pos rfl

theorem endTransition_queued {q : Nat} (hq : (dom s d m).queued = some q) (hlt : lvl < q) :
    endTransition s d m lvl = moveDom s d m { dom s d m with st := .exiting lvl, queued := none } := by
  unfold endTransition
  dsimp only
  rw [hq]
  dsimp only
  rw [if_neg (by omega), if_pos hlt]

theorem govPrep_doms (s : State) (d n : Nat) : (govPrep s d n).doms = s.doms := by
  unfold govPrep
  split <;> rfl

theorem exitPrep_doms (s : State) (d m : Nat) : (exitPrep s d m).doms = s.doms := by
  unfold exitPrep
  split
  · exact govPrep_doms s d _
  · rfl

theorem moveDom_doms (s : State) (d m : Nat) (x : DomX) : (moveDom s d m x).doms = (setDom s d m x).doms := by
  unfold moveDom
  split
  · exact exitPrep_doms _ d m
  · rfl

theorem dom_of_doms (h : t.doms = s.doms) : dom t d m = dom s d m := by
  unfold dom
  rw [h]

theorem dom_moveDom_same (h : s.wf = true) (x : DomX) : dom (moveDom s d m x) d m = x :=
  (dom_of_doms (moveDom_doms s d m x)).trans (dom_setDom_same h d m x)

theorem backRegs_setReg (s t : State) (r : Nat) (w : Word) : backRegs s (setReg t r w) = backRegs s t := rfl

theorem satFld_rest (s : State) (r : Nat) (f : Fld) : backRegs s (satFld s r f) = s := by
  unfold satFld
  split <;> rfl

/-- A recorded refusal or abort stands in registers alone. -/
theorem noteEntry_rest (s : State) (d : Nat) (abort : Bool) (c j : Nat) : backRegs s (noteEntry s d abort c j) = s := by
  unfold noteEntry
  extract_lets t v
  have hv : backRegs s v = s := (backRegs_setReg _ _ _ _).trans (satFld_rest s _ _)
  clear_value v
  split
  · exact hv
  · exact (backRegs_setReg _ _ _ _).trans hv

theorem noteEntry_doms (s : State) (d : Nat) (abort : Bool) (c j : Nat) : (noteEntry s d abort c j).doms = s.doms :=
  (congrArg State.doms (noteEntry_rest s d abort c j) :)

theorem govRefresh_doms (h : s.wf = true) : (govRefresh s d).doms = s.doms := (congrArg State.doms (govRefresh_within h).rest :)

theorem settled_exiting : Settled (.exiting lvl) := fun _ _ h => DomSt.noConfusion h

theorem settled_domAt : Settled (domAt lvl) := by
  intro l f h
  unfold domAt at h
  split at h
  · cases h
  · split at h <;> cases h

theorem settled_padded {from_ : Nat} : Settled (.entering lvl from_ true) := by
  intro l f h
  cases h

/-- The governor's point and the votes brought in line keep the state that the domain has. -/
theorem transition_settles (h : s.wf = true) (hset : Settled (dom s d m).st) :
    backDoms s (powerSync (govRefresh s d) d) = s ∧ (dom (powerSync (govRefresh s d) d) d m).st = (dom s d m).st := by
  have hgov := govRefresh_within (d := d) h
  have hdom : dom (govRefresh s d) d m = dom s d m := dom_of_doms (govRefresh_doms h)
  refine ⟨rest_after (back := backDoms) (back' := backDoms) ((SyncFrame.refl hgov.wf).powerSync).rest
    (rest_after (back := backDoms) (back' := backDieX) hgov.rest rfl), ?_⟩
  rw [powerSync_st hgov.wf (hdom.symm ▸ hset), hdom]

theorem exit_settles (h : s.wf = true) (hset : Settled (dom s d m).st) :
    backDoms s (powerSync (exitPrep (govRefresh s d) d m) d) = s ∧
      (dom (powerSync (exitPrep (govRefresh s d) d m) d) d m).st = (dom s d m).st := by
  have hgov := govRefresh_within (d := d) h
  have hprep : SyncFrame d (govRefresh s d) (exitPrep (govRefresh s d) d m) := by
    unfold exitPrep
    split
    · exact (SyncFrame.refl hgov.wf).govPrep _
    · exact .refl hgov.wf
  have hdom : dom (exitPrep (govRefresh s d) d m) d m = dom s d m :=
    dom_of_doms ((exitPrep_doms _ d m).trans (govRefresh_doms h))
  refine ⟨rest_after (back := backDoms) (back' := backDoms) ((SyncFrame.refl hprep.wf).powerSync).rest
    (rest_after (back := backDoms) (back' := backDoms) hprep.rest (rest_after (back := backDoms) (back' := backDieX) hgov.rest rfl)), ?_⟩
  rw [powerSync_st hprep.wf (hdom.symm ▸ hset), hdom]

/-! ### The return of content -/

/-- What the return of a domain's content may change (R421). -/
def backWaken (s t : State) : State :=
  { t with
    regs := s.regs, kern := s.kern, pub := s.pub, bridges := s.bridges, link := s.link, linkDev := s.linkDev, ddr := s.ddr
    steer := s.steer, fresh := s.fresh }

/-- `t` differs from `s` at most there. -/
structure WakenFrame (s t : State) : Prop where
  rest : backWaken s t = s

namespace WakenFrame

theorem refl (s : State) : WakenFrame s s := ⟨rfl⟩

theorem ite {c : Prop} {_ : Decidable c} (ht : WakenFrame s t) (hu : WakenFrame s u) : WakenFrame s (if c then t else u) := by
  split
  · exact ht
  · exact hu

theorem each {α : Type} (h : WakenFrame s t) {xs : List α} {f : α → State → State}
    (hf : ∀ x v, WakenFrame s v → WakenFrame s (f x v)) : WakenFrame s (each xs f t) := each_keeps xs f (fun x _ v hv => hf x v hv) h

theorem setReg (h : WakenFrame s t) (r : Nat) (w : Word) : WakenFrame s (setReg t r w) := ⟨h.rest⟩

theorem setFld (h : WakenFrame s t) (r : Nat) (f : Fld) (v : Nat) : WakenFrame s (setFld t r f v) := h.setReg r _

theorem setKern (h : WakenFrame s t) (d k : Nat) (v : Kern) : WakenFrame s (setKern t d k v) := ⟨h.rest⟩

theorem setBridge (h : WakenFrame s t) (d n : Nat) (b : BridgePort) : WakenFrame s (setBridge t d n b) := ⟨h.rest⟩

theorem publish (h : WakenFrame s t) (d n : Nat) (v : Word) (valid : Bool) : WakenFrame s (publish t d n v valid) := ⟨h.rest⟩

theorem setDdr (h : WakenFrame s t) (d : Nat) (x : Ddr) : WakenFrame s (setDdr t d x) := ⟨h.rest⟩

theorem withDevice (h : WakenFrame s t) (x : LinkDev) : WakenFrame s { t with linkDev := x } := ⟨h.rest⟩

theorem withFresh (h : WakenFrame s t) (n : Nat) : WakenFrame s { t with fresh := n } := ⟨h.rest⟩

theorem withSteer (h : WakenFrame s t) (x : Steer) : WakenFrame s { t with steer := x } := ⟨h.rest⟩

theorem trainFrom (h : WakenFrame s t) (d st : Nat) : WakenFrame s (trainFrom t d st) :=
  ⟨rest_after (back := backWaken) (back' := backLink) (trainFrom_rest t d st) h.rest⟩

theorem setSteer (h : WakenFrame s t) (st : Nat) : WakenFrame s (setSteer t st) :=
  ⟨rest_after (back := backWaken) (back' := backSteer) (setSteer_rest t st) h.rest⟩

theorem steerHoldNow (h : WakenFrame s t) : WakenFrame s (steerHoldNow t) :=
  .ite h (((h.withFresh _).setSteer _).withSteer _)

theorem steerResume (h : WakenFrame s t) : WakenFrame s (steerResume t) := .ite h ((h.setSteer _).withSteer _)

theorem steerWake (h : WakenFrame s t) : WakenFrame s (steerWake t) := by
  have hsync : WakenFrame s (steerSync t) := ⟨rest_after (back := backWaken) (back' := backSteer) (steerSync_rest t) h.rest⟩
  exact .ite hsync.steerHoldNow (.ite hsync.steerResume hsync)

theorem sendTransfers (h : WakenFrame s t) (d : Nat) : WakenFrame s (sendTransfers t d) := h.each fun n _ hv => hv.setBridge d n _

theorem testLines (h : WakenFrame s t) (d : Nat) : WakenFrame s (testLines t d) := .ite (h.each fun _ _ hv => hv.publish d _ _ _) h

theorem startTraining (h : WakenFrame s t) (d : Nat) : WakenFrame s (startTraining t d) :=
  ((h.setFld _ _ _).setFld _ _ _).setDdr d _

theorem podMove (h : WakenFrame s t) (d p : Nat) (a b : KState) : WakenFrame s (podMove t d p a b) :=
  h.each fun k _ hv => .ite (hv.setKern d k _) hv

/-- The return of a domain's content keeps the rest, the sequencers among it. -/
theorem domainWake (h : WakenFrame s t) (d m from_ : Nat) : WakenFrame s (domainWake t d m from_) := by
  unfold Machine.domainWake
  extract_lets t1 t2 x
  have h1 : WakenFrame s t1 := h.sendTransfers d
  have h2 : WakenFrame s t2 := .ite (h.trainFrom d 1) h
  clear_value t1 t2
  have hwoken := (h2.setFld (Reg.LINK_WAKE 0) F.LINK_WAKE_DETECTED 1).withDevice { t2.linkDev with woke := false }
  refine .ite (.ite (h1.testLines d) h1) (.ite (.ite hwoken h2) (.ite (.ite (h.startTraining d) h) ?_))
  exact .ite (h.each fun p _ hv => hv.podMove d p .off .held) (.ite h.steerWake h)

theorem doms_eq (h : WakenFrame s t) : t.doms = s.doms := (congrArg State.doms h.rest :)

end WakenFrame

end Sys2Proof.Machine
end

section
/-! PROOFS. Domains enter RET or OFF, and leave it (R408–R423). -/
namespace Sys2Proof.Machine

variable {s t u : State} {d m lvl from_ : Nat} {a : Access} {v : Word}

theorem domUnit (hd : d < dieCount s.part) (hm : m < 9) : (decide (d < dieCount s.part) && decide (m < 9)) = true := by
  simp [hd, hm]

/-! ### The start of an entry -/

/-- The wake mode of the link port copied on its way out of ON (R426). -/
theorem copyLmode_frame (h : s.wf = true) (d m lvl : Nat) :
    (copyLmode s d m lvl).doms = s.doms ∧ { copyLmode s d m lvl with regs := s.regs, linkDev := s.linkDev } = s ∧
      RegsBut s (copyLmode s d m lvl) [Reg.WAKE_CTL 0] := by
  unfold copyLmode
  split
  · exact ⟨rfl, rfl, fun r hr => reg_setFld_ne (s := { s with linkDev := { s.linkDev with heard := [] } }) h (by simpa using hr) _ _⟩
  · exact ⟨rfl, rfl, fun _ _ => rfl⟩

theorem domainEntryStart_effect (h : s.wf = true) (hd : d < dieCount s.part) (hm : m < 9) (hrun : running s = true)
    (hst : (dom s d m).st = .on) (htgt : domTarget s d m < 2) (hno : entryRefuser s d m = none) :
    ∃ t, exec (.domainEntryStart d m) s = .next t ∧ (dom t d m).st = .entering (domTarget s d m) 2 false ∧
      (dom t d m).tgt = domTarget s d m ∧ { t with regs := s.regs, doms := s.doms, linkDev := s.linkDev } = s ∧
      RegsBut s t [Reg.WAKE_CTL 0] := by
  have hset : (setDom s d m { dom s d m with st := .entering (domTarget s d m) 2 false, tgt := domTarget s d m, refused := false }).wf =
    true := State.wf_setDom h d m _
  have hexec : exec (.domainEntryStart d m) s = .next (copyLmode (setDom s d m { dom s d m with
      st := .entering (domTarget s d m) 2 false, tgt := domTarget s d m, refused := false }) d m 2) := by
    refine (onUnit_true (domUnit hd hm)).trans ?_
    dsimp only
    rw [hst, hno]
    exact whenDue_true (by simp [hrun, htgt])
  obtain ⟨hdoms, hrest, hregs⟩ := copyLmode_frame hset d m 2
  have hdom := (dom_of_doms (d := d) (m := m) hdoms).trans (dom_setDom_same h d m _)
  refine ⟨_, hexec, ?_, ?_, ?_, hregs⟩
  · rw [hdom]
  · rw [hdom]
  · exact (congrArg (fun v : State => { v with doms := s.doms }) hrest :)

/-- The registers that record a refusal (R416). -/
theorem noteEntry_regs (h : s.wf = true) (abort : Bool) (c j : Nat) :
    RegsBut s (noteEntry s d abort c j) [Reg.PWR_EVT d, Reg.PWR_REFCNT d, Reg.PWR_REFUSE d] := by
  have hself : Within backRegs (· ∈ [Reg.PWR_EVT d, Reg.PWR_REFCNT d, Reg.PWR_REFUSE d]) s s := .refl h
  have hnoted := (hself.satFld (r := Reg.PWR_REFCNT d) (by simp) (if abort then F.PWR_REFCNT_ABORTED else F.PWR_REFCNT_REFUSED)).setFld
    (r := Reg.PWR_EVT d) (by simp) (if abort then F.PWR_EVT_ABORT else F.PWR_EVT_REFUSE) 1
  unfold noteEntry
  dsimp only
  split
  · exact hnoted.regs
  · exact (hnoted.setReg (r := Reg.PWR_REFUSE d) (by simp) _).regs

theorem refuseEntry_first (hfirst : (dom s d m).refused = false) (c : Nat) :
    refuseEntry s d m c = noteEntry (setDom s d m { dom s d m with refused := true }) d false c m := if_neg (by simp [hfirst])

theorem domainEntryStart_refused (h : s.wf = true) (hd : d < dieCount s.part) (hm : m < 9) (hrun : running s = true)
    (hst : (dom s d m).st = .on) (hfirst : (dom s d m).refused = false) (htgt : domTarget s d m < 2) {c : Nat}
    (hc : entryRefuser s d m = some c) :
    ∃ t, exec (.domainEntryStart d m) s = .next t ∧ (dom t d m).st = (dom s d m).st ∧ (dom t d m).refused = true ∧
      bitF t (Reg.PWR_EVT d) F.PWR_EVT_REFUSE = true ∧ { t with regs := s.regs, doms := s.doms, linkDev := s.linkDev } = s ∧
      RegsBut s t [Reg.PWR_EVT d, Reg.PWR_REFCNT d, Reg.PWR_REFUSE d] := by
  have hset : (setDom s d m { dom s d m with refused := true }).wf = true := State.wf_setDom h d m _
  have hexec : exec (.domainEntryStart d m) s = .next (refuseEntry s d m c) := by
    refine (onUnit_true (domUnit hd hm)).trans ?_
    dsimp only
    rw [hst, hc]
    exact whenDue_true (by simp [hrun, htgt, hfirst])
  rw [refuseEntry_first hfirst] at hexec
  have hdom := (dom_of_doms (d := d) (m := m) (noteEntry_doms _ d false c m)).trans
    (dom_setDom_same h d m { dom s d m with refused := true })
  refine ⟨_, hexec, ?_, ?_, noteEntry_refuse hset d c m, ?_, noteEntry_regs hset false c m⟩
  · rw [hdom]
  · rw [hdom]
  · exact (congrArg (fun v : State => { v with doms := s.doms, linkDev := s.linkDev }) (noteEntry_rest _ d false c m) :)

/-! ### The pad-hold point -/

/-- A bit that is clear added to a field below its end. -/
theorem testBit_add_two_pow {n i w : Nat} (hi : i < w) (hclear : n.testBit i = false) : ((n + 2 ^ i) % 2 ^ w).testBit i = true := by
  rw [Nat.testBit_mod_two_pow, Nat.add_comm, Nat.testBit_two_pow_add_eq, hclear]
  simp [hi]

/-- The pads of a domain held at its pad-hold point (R420). -/
def padsHeldAt (s : State) (d m : Nat) : State :=
  let h := fld s (Reg.PWR_PADSTAT d) F.PWR_PADSTAT_HELD
  if hasPads m && !h.testBit m then latchPads (setFld s (Reg.PWR_PADSTAT d) F.PWR_PADSTAT_HELD (h + 2 ^ m)) d m else s

theorem padsHeldAt_held (h : s.wf = true) (hm : m < 9) (hpads : hasPads m = true) :
    (fld (padsHeldAt s d m) (Reg.PWR_PADSTAT d) F.PWR_PADSTAT_HELD).testBit m = true := by
  unfold padsHeldAt
  dsimp only
  by_cases hheld : (fld s (Reg.PWR_PADSTAT d) F.PWR_PADSTAT_HELD).testBit m = true
  · rw [if_neg (by simp [hheld])]
    exact hheld
  · have hclear : (fld s (Reg.PWR_PADSTAT d) F.PWR_PADSTAT_HELD).testBit m = false := by simpa using hheld
    rw [if_pos (by simp [hpads, hclear])]
    change (fld (setFld s (Reg.PWR_PADSTAT d) F.PWR_PADSTAT_HELD _) (Reg.PWR_PADSTAT d) F.PWR_PADSTAT_HELD).testBit m = true
    rw [fld_setFld_same h _ (by decide) (by decide)]
    exact testBit_add_two_pow (w := 9) hm hclear

theorem padsHeldAt_frame (h : s.wf = true) (d m : Nat) :
    (padsHeldAt s d m).doms = s.doms ∧ { padsHeldAt s d m with regs := s.regs, pads := s.pads, fresh := s.fresh } = s ∧
      ∀ r, r ≠ Reg.PWR_PADSTAT d → reg (padsHeldAt s d m) r = reg s r := by
  unfold padsHeldAt
  dsimp only
  split
  · exact ⟨rfl, rfl, fun r hr => reg_setFld_ne h hr _ _⟩
  · exact ⟨rfl, rfl, fun _ _ => rfl⟩

theorem padHoldPoint_effect (h : s.wf = true) (hd : d < dieCount s.part) (hm : m < 9) (hst : (dom s d m).st = .entering lvl from_ false)
    (hno : entryRefuser s d m = none) (hquiet : outstanding s d m = false) :
    ∃ t, exec (.padHoldPoint d m) s = .next t ∧ (dom t d m).st = .entering lvl from_ true ∧
      (hasPads m = true → (fld t (Reg.PWR_PADSTAT d) F.PWR_PADSTAT_HELD).testBit m = true) ∧
      { t with regs := s.regs, stew := s.stew, dieX := s.dieX, doms := s.doms, pads := s.pads, fresh := s.fresh } = s ∧
      RegsBut s t [Reg.PWR_PADSTAT d, Reg.PWR_EVT d, Reg.PWR_REFCNT d, Reg.PWR_REFUSE d] := by
  have hset : (setDom s d m { dom s d m with st := .entering lvl from_ true }).wf = true := State.wf_setDom h d m _
  have hexec : exec (.padHoldPoint d m) s = .next (padsHeldAt (setDom s d m { dom s d m with st := .entering lvl from_ true }) d m) := by
    refine (onUnit_true (domUnit hd hm)).trans ?_
    dsimp only
    rw [hst, hno]
    exact whenDue_true (by simp [hquiet])
  obtain ⟨hdoms, hrest, hregs⟩ := padsHeldAt_frame hset d m
  have hdom := (dom_of_doms (d := d) (m := m) hdoms).trans (dom_setDom_same h d m _)
  refine ⟨_, hexec, ?_, padsHeldAt_held hset hm, ?_, fun r hr => hregs r fun heq => hr (by simp [heq])⟩
  · rw [hdom]
  · exact (congrArg (fun v : State => { v with stew := s.stew, dieX := s.dieX, doms := s.doms }) hrest :)

/-! ### Exits, and the ends of transitions -/

/-- A move of a sequencer may prepare the governor's point (R421). -/
theorem exitMove_within (h : s.wf = true) (m : Nat) (x : DomX) : Within backDoms (· = Reg.GOV_STAT d) s (moveDom s d m x) := by
  have hset : Within backDoms (· = Reg.GOV_STAT d) s (setDom s d m x) := ⟨State.wf_setDom h d m x, fun _ _ => rfl, rfl⟩
  have hprep (n : Nat) : Within backDoms (· = Reg.GOV_STAT d) s (govPrep (setDom s d m x) d n) :=
    .ite (((hset.trans (setPoint_within hset.wf _ _) fun _ hr => hr).setFld rfl _ _).setDieX _ _) hset
  unfold moveDom exitPrep
  split
  · exact .ite (hprep _) hset
  · exact hset

theorem domainExitStart_effect (h : s.wf = true) (hd : d < dieCount s.part) (hm : m < 9) (hrun : running s = true)
    (hst : (dom s d m).st = .off ∨ (dom s d m).st = .ret) (htgt : (if (dom s d m).st = .off then 0 else 1) < domTarget s d m) :
    ∃ t, exec (.domainExitStart d m) s = .next t ∧ (dom t d m).st = .exiting (if (dom s d m).st = .off then 0 else 1) ∧
      (dom t d m).tgt = domTarget s d m ∧ { t with regs := s.regs, stew := s.stew, dieX := s.dieX, doms := s.doms } = s ∧
      RegsBut s t [Reg.GOV_STAT d] := by
  have hlevel : stableLevel (dom s d m).st = some (if (dom s d m).st = .off then 0 else 1) := by
    rcases hst with hst | hst <;> rw [hst] <;> rfl
  generalize (if (dom s d m).st = .off then 0 else 1) = n at hlevel htgt
  have hexec : exec (.domainExitStart d m) s =
      .next (govRefresh (moveDom s d m { dom s d m with st := .exiting n, tgt := domTarget s d m }) d) := by
    refine (onUnit_true (domUnit hd hm)).trans ?_
    dsimp only
    rw [hlevel]
    exact whenDue_true (by simp [hrun, htgt])
  have hmoved := exitMove_within (d := d) h m { dom s d m with st := .exiting n, tgt := domTarget s d m }
  have hgov := govRefresh_within (d := d) hmoved.wf
  have hdom : dom (govRefresh (moveDom s d m { dom s d m with st := .exiting n, tgt := domTarget s d m }) d) d m =
      { dom s d m with st := .exiting n, tgt := domTarget s d m } :=
    (dom_of_doms (govRefresh_doms hmoved.wf)).trans (dom_moveDom_same h _)
  have hboth := hmoved.trans hgov fun _ hr => hr
  refine ⟨_, hexec, ?_, ?_, ?_, fun r hr => hboth.regs r (by simpa using hr)⟩
  · rw [hdom]
  · rw [hdom]
  · exact (congrArg (fun v : State => { v with stew := s.stew }) hboth.rest :)

theorem domainEntryDone_exec (hd : d < dieCount s.part) (hm : m < 9) (hst : (dom s d m).st = .entering lvl from_ true) :
    exec (.domainEntryDone d m) s = .next (powerSync (govRefresh (endTransition (domainLoss s d m lvl) d m lvl) d) d) := by
  refine (onUnit_true (domUnit hd hm)).trans ?_
  rw [hst]

theorem domainExitDone_exec (hd : d < dieCount s.part) (hm : m < 9) (hst : (dom s d m).st = .exiting from_) :
    exec (.domainExitDone d m) s = .next (powerSync (exitPrep (govRefresh
      (endTransition (domainWake (setDom s d m { dom s d m with st := .on }) d m from_) d m 2) d) d m) d) := by
  refine (onUnit_true (domUnit hd hm)).trans ?_
  dsimp only
  rw [hst]

/-- What the end of an exit may change (R421). -/
def backExit (s t : State) : State :=
  { t with
    regs := s.regs, kern := s.kern, stew := s.stew, pub := s.pub, dieX := s.dieX, doms := s.doms, keep := s.keep
    bridges := s.bridges, link := s.link, linkDev := s.linkDev, ddr := s.ddr, steer := s.steer, fresh := s.fresh }

theorem backExit_setDom (s t : State) (d m : Nat) (x : DomX) : backExit s (setDom t d m x) = backExit s t := rfl

/-- A domain that ends its entry reaches its level, or starts the exit that a queued target asks for (R423). -/
theorem domainEntryDone_effect (h : s.wf = true) (hd : d < dieCount s.part) (hm : m < 9) (hst : (dom s d m).st = .entering lvl from_ true)
    (hquiet : LossQuiet s d m) {y : DomSt} (hy : Settled y)
    (hend : ∀ t, t.wf = true → dom t d m = dom s d m →
      backDoms t (endTransition t d m lvl) = t ∧ (dom (endTransition t d m lvl) d m).st = y) :
    ∃ t, exec (.domainEntryDone d m) s = .next t ∧ (dom t d m).st = y ∧ backLoss s t = s := by
  obtain ⟨hlossRest, hlossDom⟩ := domainLoss_dom h hquiet (hst.symm ▸ settled_padded) lvl
  have hlossWf : (domainLoss s d m lvl).wf = true := (Keeps.domainLoss (Keeps.refl s)).wf h
  obtain ⟨hendRest, hendSt⟩ := hend _ hlossWf hlossDom
  have hendWf : (endTransition (domainLoss s d m lvl) d m lvl).wf = true := (Keeps.endTransition (Keeps.refl _)).wf hlossWf
  obtain ⟨hrest, hdom⟩ := transition_settles (d := d) hendWf (hendSt.symm ▸ hy)
  refine ⟨_, domainEntryDone_exec hd hm hst, hdom.trans hendSt, ?_⟩
  exact rest_after (back := backLoss) (back' := backDoms) hrest (rest_after (back := backLoss) (back' := backDoms) hendRest hlossRest)

/-- A domain that ends its exit is ON (R421). -/
theorem domainExitDone_effect (h : s.wf = true) (hd : d < dieCount s.part) (hm : m < 9) (hst : (dom s d m).st = .exiting from_)
    (hq : (dom s d m).queued = none ∨ (dom s d m).queued = some 2) :
    ∃ t, exec (.domainExitDone d m) s = .next t ∧ (dom t d m).st = .on ∧
      { t with regs := s.regs, kern := s.kern, stew := s.stew, pub := s.pub, dieX := s.dieX, doms := s.doms, keep := s.keep, bridges := s.bridges, link := s.link, linkDev := s.linkDev, ddr := s.ddr, steer := s.steer, fresh := s.fresh } = s := by
  have hset : (setDom s d m { dom s d m with st := .on }).wf = true := State.wf_setDom h d m _
  have hwaken := (WakenFrame.refl (setDom s d m { dom s d m with st := .on })).domainWake d m from_
  have hwakenWf : (domainWake (setDom s d m { dom s d m with st := .on }) d m from_).wf = true := (Keeps.domainWake (Keeps.refl _)).wf hset
  have hwakenDom := (dom_of_doms (d := d) (m := m) hwaken.doms_eq).trans (dom_setDom_same h d m _)
  have hexec := domainExitDone_exec hd hm hst
  have hwakenRest := hwaken.rest
  generalize domainWake (setDom s d m { dom s d m with st := .on }) d m from_ = t at hwakenWf hwakenDom hexec hwakenRest
  rw [endTransition_reached (lvl := 2) (by rw [hwakenDom]; exact hq)] at hexec
  have hendWf : (setDom t d m { dom t d m with st := domAt 2, queued := none }).wf = true := State.wf_setDom hwakenWf d m _
  have hendSt : (dom (setDom t d m { dom t d m with st := domAt 2, queued := none }) d m).st = .on := by
    rw [dom_setDom_same hwakenWf]
    rfl
  obtain ⟨hrest, hdom⟩ := exit_settles (d := d) (m := m) hendWf (hendSt.symm ▸ settled_domAt (lvl := 2))
  refine ⟨_, hexec, hdom.trans hendSt, ?_⟩
  have hmoved : backExit s t = s := rest_after (back := backExit) (back' := backWaken) hwakenRest rfl
  have hreached : backExit s (setDom t d m { dom t d m with st := domAt 2, queued := none }) = s := (backExit_setDom _ _ _ _ _).trans hmoved
  exact rest_after (back := backExit) (back' := backDoms) hrest hreached

/-! ### Votes written during a transition -/

/-- The die with a vote of the client selected set (R411). -/
def voted (s : State) (d : Nat) (v : Word) : State := setTab s tVote d (fld s (Reg.PWR_VSEL d) F.PWR_VSEL_CLIENT) (v &&& 0x3FFFF)

theorem voted_fields (h : s.wf = true) (v : Word) :
    (voted s d v).wf = true ∧ dom (voted s d v) d m = dom s d m ∧ (voted s d v).kern = s.kern ∧ (voted s d v).mem = s.mem ∧
      (voted s d v).lines = s.lines := ⟨State.wf_setTab h _ _ _ _, rfl, rfl, rfl, rfl⟩

theorem dom_answered (s : State) (d m : Nat) : dom s.answered d m = dom s d m := rfl

theorem vdataWrite_exec (h : reachesReg s a (Reg.PWR_VDATA d) = true)
    (hc : fld s (Reg.PWR_VSEL d) F.PWR_VSEL_CLIENT = 2 ∨
      33 ≤ fld s (Reg.PWR_VSEL d) F.PWR_VSEL_CLIENT ∧ fld s (Reg.PWR_VSEL d) F.PWR_VSEL_CLIENT ≤ 47) (v : Word) :
    exec (.pwrVdataWrite a d v) s = .next (powerSync (voted s d v) d).answered := by
  have hwrite : vdataWrite s d v = powerSync (voted s d v) d := if_pos (by simpa using hc)
  rw [← hwrite]
  exact regCmd_taken h (by decide) (by decide) rfl rfl rfl

/-- Before the step of domain `m` the votes and the domain are as they were. -/
theorem sync_before (h : VoteSame u s) (hd : dom s d m = dom u d m) {j : Nat} (hj : j ≠ m) :
    VoteSame u (syncDomain none d j s) ∧ dom (syncDomain none d j s) d m = dom u d m := by
  have helse := (Elsewhere.refl (d := d) h.wf).syncDomain none hj
  exact ⟨h.sync (syncFrame_syncDomain h.wf none j) helse.mode, helse.dom.trans hd⟩

/-- What the step of a domain makes of it and of ABORT stands at the end. -/
theorem powerSync_domain (h : u.wf = true) (hm : m < 9) {y : DomX} {abort : Bool}
    (hstep : ∀ s, VoteSame u s → dom s d m = dom u d m → dom (syncDomain none d m s) d m = y ∧
      (abort = true → bitF (syncDomain none d m s) (Reg.PWR_EVT d) F.PWR_EVT_ABORT = true)) :
    dom (powerSync u d) d m = y ∧ (abort = true → bitF (powerSync u d) (Reg.PWR_EVT d) F.PWR_EVT_ABORT = true) := by
  have hend : (powerSync u d).wf = true ∧ dom (powerSync u d) d m = y ∧
      (abort = true → bitF (powerSync u d) (Reg.PWR_EVT d) F.PWR_EVT_ABORT = true) := by
    refine each_once (P := fun s => VoteSame u s ∧ dom s d m = dom u d m)
      (Q := fun s => s.wf = true ∧ dom s d m = y ∧ (abort = true → bitF s (Reg.PWR_EVT d) F.PWR_EVT_ABORT = true))
      List.nodup_range (List.mem_range.mpr hm) (fun j _ hj s hs => sync_before hs.1 hs.2 hj) (fun s hs => ?_) (fun j _ hj s hs => ?_)
      ⟨.refl h, rfl⟩
    · exact ⟨(syncFrame_syncDomain (d := d) hs.1.wf none m).wf, hstep s hs.1 hs.2⟩
    · obtain ⟨hw, hdom, habort⟩ := hs
      have helse := (Elsewhere.refl (d := d) hw).syncDomain none hj
      exact ⟨helse.wf, helse.dom.trans hdom, fun ha => helse.abort (habort ha)⟩
  exact hend.2

/-- The abort of an entry sets ABORT (R422). -/
theorem noteEntry_abort (h : s.wf = true) (d c j : Nat) : bitF (noteEntry s d true c j) (Reg.PWR_EVT d) F.PWR_EVT_ABORT = true := by
  have hsat : (satFld s (Reg.PWR_REFCNT d) F.PWR_REFCNT_ABORTED).wf = true := ((SyncFrame.refl (d := d) h).satFld (by simp [syncRegs]) _).wf
  have hset : bitF (setFld (satFld s (Reg.PWR_REFCNT d) F.PWR_REFCNT_ABORTED) (Reg.PWR_EVT d) F.PWR_EVT_ABORT 1) (Reg.PWR_EVT d)
      F.PWR_EVT_ABORT = true := bitF_setFld_one hsat _ (by decide) (by decide)
  have hne : Reg.PWR_EVT d ≠ Reg.PWR_REFUSE d := by
    simp only [Reg.PWR_EVT, Reg.PWR_REFUSE, regA]
    omega
  unfold noteEntry
  dsimp only
  split
  · exact hset
  · exact (bitF_of_reg (reg_setReg_ne (State.wf_setFld hsat _ _ _) hne _) _).trans hset

/-- A vote above the level of an entry before its pad-hold point aborts the entry (R422). -/
theorem syncDomain_aborts (h : s.wf = true) (hst : (dom s d m).st = .entering lvl 2 false) (hne : domTarget s d m ≠ (dom s d m).tgt)
    (hlt : lvl < domTarget s d m) :
    dom (syncDomain none d m s) d m = { dom s d m with st := .on, queued := none, tgt := domTarget s d m, refused := false } ∧
      bitF (syncDomain none d m s) (Reg.PWR_EVT d) F.PWR_EVT_ABORT = true := by
  have hretarget : retarget none d m s = noteEntry (moveDom s d m { dom s d m with
      st := .on, queued := none, tgt := domTarget s d m, refused := false }) d true (abortClient s d m (domTarget s d m) none) m := by
    unfold retarget
    dsimp only
    rw [if_neg hne, hst]
    exact if_pos hlt
  have hmoved := (exitMove_within (d := d) h m { dom s d m with st := .on, queued := none, tgt := domTarget s d m, refused := false }).wf
  have hdom : dom (retarget none d m s) d m =
      { dom s d m with st := .on, queued := none, tgt := domTarget s d m, refused := false } := by
    rw [hretarget]
    exact (dom_of_doms (noteEntry_doms _ _ _ _ _)).trans (dom_moveDom_same h _)
  unfold syncDomain
  rw [recheckEntry_settled (hdom.symm ▸ fun _ _ heq => DomSt.noConfusion heq), hdom, hretarget]
  exact ⟨rfl, noteEntry_abort hmoved _ _ _⟩

/-- A target that changes later in a transition is queued (R423). -/
theorem syncDomain_queues (h : s.wf = true) (hst : (dom s d m).st = .entering lvl from_ true ∨ (dom s d m).st = .exiting from_)
    (hne : domTarget s d m ≠ (dom s d m).tgt) :
    dom (syncDomain none d m s) d m =
      { dom s d m with queued := some (domTarget s d m), tgt := domTarget s d m, refused := false } := by
  have hqueue (f : Fld) : dom (setDom (satFld s (Reg.PWR_QCNT d) f) d m
      { dom s d m with queued := some (domTarget s d m), tgt := domTarget s d m, refused := false }) d m =
        { dom s d m with queued := some (domTarget s d m), tgt := domTarget s d m, refused := false } :=
    dom_setDom_same ((SyncFrame.refl (d := d) h).satFld (by simp [syncRegs]) f).wf d m _
  have hdom : dom (retarget none d m s) d m =
      { dom s d m with queued := some (domTarget s d m), tgt := domTarget s d m, refused := false } := by
    unfold retarget
    dsimp only
    rw [if_neg hne]
    rcases hst with hst | hst
    · split
      case h_1 heq => cases hst.symm.trans heq
      case h_2 => exact hqueue _
      case h_3 => exact hqueue _
      case h_4 hno _ => exact absurd hst (hno _ _)
    · split
      case h_1 heq => cases hst.symm.trans heq
      case h_2 => exact hqueue _
      case h_3 => exact hqueue _
      case h_4 hno => exact absurd hst (hno _)
  have hset : Settled (dom (retarget none d m s) d m).st := by
    rw [hdom]
    rcases hst with hst | hst
    · exact hst.symm ▸ settled_padded
    · exact hst.symm ▸ settled_exiting
  unfold syncDomain
  rw [recheckEntry_settled hset, hdom]

/-- A vote that raises the target of an entry above its level before the pad-hold point aborts it. -/
theorem pwrVdataWrite_aborts (h : s.wf = true) (hu : voted s d v = u) (hexec : exec (.pwrVdataWrite a d v) s = .next (powerSync u d).answered)
    (hm : m < 9) (hst : (dom s d m).st = .entering lvl 2 false) (hne : domTarget u d m ≠ (dom s d m).tgt) (hlt : lvl < domTarget u d m) :
    ∃ t, exec (.pwrVdataWrite a d v) s = .next t ∧ (dom t d m).st = .on ∧ (dom t d m).queued = none ∧
      bitF t (Reg.PWR_EVT d) F.PWR_EVT_ABORT = true ∧ t.kern = s.kern ∧ t.mem = s.mem ∧ t.lines = s.lines := by
  obtain ⟨hwf, hdomU, hkern, hmem, hlines⟩ := voted_fields (d := d) (m := m) h v
  rw [hu] at hwf hdomU hkern hmem hlines
  obtain ⟨hdom, habort⟩ := powerSync_domain (abort := true) (y := { dom u d m with
      st := .on, queued := none, tgt := domTarget u d m, refused := false }) hwf hm fun w hw hd => by
    obtain ⟨hy, ha⟩ := syncDomain_aborts (lvl := lvl) hw.wf (by rw [hd, hdomU]; exact hst) (by rw [hw.domTarget, hd, hdomU]; exact hne)
      (by rw [hw.domTarget]; exact hlt)
    rw [hd, hw.domTarget] at hy
    exact ⟨hy, fun _ => ha⟩
  have hsync := (SyncFrame.refl (d := d) hwf).powerSync
  generalize powerSync u d = t at hexec hdom habort hsync
  refine ⟨t.answered, hexec, ?_, ?_, habort rfl, hsync.kern_eq.trans hkern, hsync.mem_eq.trans hmem, hsync.lines_eq.trans hlines⟩
  · rw [dom_answered, hdom]
  · rw [dom_answered, hdom]

/-- A vote that changes the target later in a transition queues it. -/
theorem pwrVdataWrite_queues (h : s.wf = true) (hu : voted s d v = u) (hexec : exec (.pwrVdataWrite a d v) s = .next (powerSync u d).answered)
    (hm : m < 9) (hne : domTarget u d m ≠ (dom s d m).tgt)
    (hst : (dom s d m).st = .entering lvl from_ true ∨ (dom s d m).st = .exiting from_) :
    ∃ t, exec (.pwrVdataWrite a d v) s = .next t ∧ (dom t d m).st = (dom s d m).st ∧ (dom t d m).queued = some (domTarget u d m) ∧
      (dom t d m).tgt = domTarget u d m ∧ t.kern = s.kern ∧ t.mem = s.mem ∧ t.lines = s.lines := by
  obtain ⟨hwf, hdomU, hkern, hmem, hlines⟩ := voted_fields (d := d) (m := m) h v
  rw [hu] at hwf hdomU hkern hmem hlines
  obtain ⟨hdom, -⟩ := powerSync_domain (abort := false) (y := { dom u d m with
      queued := some (domTarget u d m), tgt := domTarget u d m, refused := false }) hwf hm fun w hw hd => by
    have hy := syncDomain_queues (lvl := lvl) (from_ := from_) hw.wf (by rw [hd, hdomU]; exact hst)
      (by rw [hw.domTarget, hd, hdomU]; exact hne)
    rw [hd, hw.domTarget] at hy
    exact ⟨hy, fun ha => Bool.noConfusion ha⟩
  have hsync := (SyncFrame.refl (d := d) hwf).powerSync
  generalize powerSync u d = t at hexec hdom hsync
  refine ⟨t.answered, hexec, ?_, ?_, ?_, hsync.kern_eq.trans hkern, hsync.mem_eq.trans hmem, hsync.lines_eq.trans hlines⟩
  · rw [dom_answered, hdom, hdomU]
  · rw [dom_answered, hdom]
  · rw [dom_answered, hdom]

/-- Settles O47: the start of an entry and its refusal, the pad-hold point, the ends of entries and exits, and the votes that
abort an entry or queue a target. -/
theorem domainTransitions : Obligations.DomainTransitions := by
  unfold Obligations.DomainTransitions
  refine ⟨?start, ?refused, ?pads, ?done, ?exit, ?exited, ?reached, ?queued, ?on, ?abort, ?later⟩
  case start => exact fun s d m h hd hm hrun hst htgt hno => domainEntryStart_effect h hd hm hrun hst htgt hno
  case refused => exact fun s d m c h hd hm hrun hst hfirst htgt hc => domainEntryStart_refused h hd hm hrun hst hfirst htgt hc
  case pads => exact fun s d m lvl from_ h hd hm hst hno hquiet => padHoldPoint_effect h hd hm hst hno hquiet
  case done => exact fun s d m lvl from_ hd hm hst => domainEntryDone_exec hd hm hst
  case exit => exact fun s d m h hd hm hrun hst htgt => domainExitStart_effect h hd hm hrun hst htgt
  case exited => exact fun s d m from_ hd hm hst => domainExitDone_exec hd hm hst
  case reached =>
    intro s d m lvl from_ x h hd hm hlvl hst hq hquiet
    have hlevel : domAt lvl = if lvl = 0 then .off else .ret := by
      unfold domAt
      split
      · rfl
      · exact if_pos (by omega)
    rw [← hlevel]
    refine domainEntryDone_effect h hd hm hst hquiet settled_domAt fun t ht hdom => ?_
    rw [endTransition_reached (by rw [hdom]; exact hq)]
    exact ⟨rfl, by rw [dom_setDom_same ht]⟩
  case queued =>
    intro s d m lvl from_ q x h hd hm hst hq hlt hquiet
    refine domainEntryDone_effect h hd hm hst hquiet settled_exiting fun t ht hdom => ?_
    rw [endTransition_queued (by rw [hdom]; exact hq) hlt]
    exact ⟨(exitMove_within (d := d) ht m _).rest, by rw [dom_moveDom_same ht]⟩
  case on => exact fun s d m from_ h hd hm hst hq => domainExitDone_effect h hd hm hst hq
  case abort =>
    exact fun s a d m lvl v h hreach hc hm hst hne hlt => pwrVdataWrite_aborts h rfl (vdataWrite_exec hreach hc v) hm hst hne hlt
  case later =>
    exact fun s a d m lvl from_ v h hreach hc hm hne hst => pwrVdataWrite_queues h rfl (vdataWrite_exec hreach hc v) hm hne hst

end Sys2Proof.Machine
end

section
/-! PROOFS. Frames of the link: the headers counted, and the registers that the time of the links writes (R313, R315, R333). -/
namespace Sys2Proof.Machine

variable {s t u : State} {d : Nat}

/-! ### Headers counted as the blocks arrive -/

/-- `t` is `s` with headers counted on the lanes of port `d`. -/
structure HeadersCounted (d : Nat) (s t : State) : Prop where
  wf : t.wf = true
  regs : RegsBut s t [Reg.LINK_LERR d 0, Reg.LINK_LERR d 1, Reg.LINK_LERR d 2]
  port : ∃ l b, linkPort t d = { linkPort s d with lerr := l, trainBad := b }
  rest : { t with regs := s.regs, link := s.link } = s

namespace HeadersCounted

theorem refl (h : s.wf = true) : HeadersCounted d s s := ⟨h, fun _ _ => rfl, ⟨_, _, rfl⟩, rfl⟩

theorem setLerr (h : HeadersCounted d s t) {n : Nat} (hn : n < 3) (w : Word) : HeadersCounted d s (setReg t (Reg.LINK_LERR d n) w) := by
  have hmem : Reg.LINK_LERR d n ∈ [Reg.LINK_LERR d 0, Reg.LINK_LERR d 1, Reg.LINK_LERR d 2] := by
    obtain rfl | rfl | rfl : n = 0 ∨ n = 1 ∨ n = 2 := by omega
    all_goals simp
  refine ⟨State.wf_setReg h.wf _ w, fun r hr => ?_, h.port, h.rest⟩
  exact (reg_setReg_ne h.wf (fun heq : r = Reg.LINK_LERR d n => hr (heq ▸ hmem)) w).trans (h.regs r hr)

theorem setPort (h : HeadersCounted d s t) (l : List Nat) (b : Bool) :
    HeadersCounted d s (setLinkPort t d { linkPort t d with lerr := l, trainBad := b }) := by
  obtain ⟨l', b', hport⟩ := h.port
  refine ⟨State.wf_setLinkPort h.wf _ _, h.regs, ⟨l, b, ?_⟩, h.rest⟩
  rw [linkPort_setLinkPort_same h.wf, hport]

theorem countHeaders (h : HeadersCounted d s t) (ns : List Nat) : HeadersCounted d s (countHeaders t d ns) :=
  each_keeps _ _ (fun _ hn _ hv => hv.setLerr (List.mem_range.mp hn) _) (h.setPort _ _)

theorem countBlocks (h : HeadersCounted d s t) (k : Nat) (bs : List LinkBlock) : HeadersCounted d s (countBlocks t d k bs) := by
  unfold Machine.countBlocks
  dsimp only
  split
  · exact h
  · exact h.countHeaders _

theorem checkSpare (h : HeadersCounted d s t) (sp : List (LinkBlock × Nat)) : HeadersCounted d s (checkSpare t d sp) := by
  unfold Machine.checkSpare
  extract_lets n heads bad v
  have hv : HeadersCounted d s v := by
    unfold v
    split
    · exact h
    · exact h.countHeaders _
  clear_value v
  split
  · exact h
  · split
    · exact hv.setPort _ _
    · exact hv

/-- Registers beside the lane counts read as before. -/
theorem reg_eq (h : HeadersCounted d s t) {r : Nat} (hr : ∀ n, n < 3 → r ≠ Reg.LINK_LERR d n) : reg t r = reg s r :=
  h.regs r (by simp [hr 0 (by decide), hr 1 (by decide), hr 2 (by decide)])

theorem pulseRuns_eq (h : HeadersCounted d s t) : pulseRuns t = pulseRuns s := (congrArg pulseRuns h.rest :)

theorem pulsePage (h : HeadersCounted d s t) {o : Nat} (ho : o < 0x1000) : reg t (regA 0 1 o) = reg s (regA 0 1 o) := by
  refine h.reg_eq fun n hn => ?_
  unfold Reg.LINK_LERR regA
  omega

theorem linkStat (h : HeadersCounted d s t) : reg t (Reg.LINK_STAT d) = reg s (Reg.LINK_STAT d) := by
  refine h.reg_eq fun n hn => ?_
  unfold Reg.LINK_LERR Reg.LINK_STAT regA
  omega

theorem rateCode_eq (h : HeadersCounted d s t) : rateCode t = rateCode s := fld_of_reg (h.pulsePage (by decide)) _

theorem pulseCount_eq (h : HeadersCounted d s t) : pulseCount t = pulseCount s := by
  unfold pulseCount
  rw [show reg t (Reg.PULSE_COUNT_LO 0) = reg s (Reg.PULSE_COUNT_LO 0) from h.pulsePage (by decide),
    show reg t (Reg.PULSE_COUNT_HI 0) = reg s (Reg.PULSE_COUNT_HI 0) from h.pulsePage (by decide)]

theorem frameFits_eq (h : HeadersCounted d s t) (num : Nat) : frameFits t num = frameFits s num := by
  unfold frameFits hopTerm byRate
  rw [h.pulseRuns_eq, h.pulseCount_eq, h.rateCode_eq]

theorem frames_eq (h : HeadersCounted d s t) : (linkPort t d).frames = (linkPort s d).frames := by
  obtain ⟨l, b, hport⟩ := h.port
  rw [hport]

theorem fails_eq (h : HeadersCounted d s t) : (linkPort t d).fails = (linkPort s d).fails := by
  obtain ⟨l, b, hport⟩ := h.port
  rw [hport]

theorem linkUp_eq (h : HeadersCounted d s t) : linkUp t d = linkUp s d := by
  have hlive : domLive t d pdLink = domLive s d pdLink := (congrArg (domLive · d pdLink) h.rest :)
  unfold linkUp
  rw [fld_of_reg h.linkStat, hlive]

end HeadersCounted

/-! ### The status of a port beside the time -/

/-- A register that the time of the links does not write. -/
def BesideTime (r : Nat) : Prop :=
  r ≠ Reg.LINK_GMSTAT 0 ∧ r ≠ Reg.CLKSTEER_STAT 0 ∧ r ≠ Reg.PULSE_COUNT_LO 0 ∧ r ≠ Reg.PULSE_COUNT_HI 0

theorem besideTime_linkStat (d : Nat) : BesideTime (Reg.LINK_STAT d) := by
  unfold BesideTime Reg.LINK_STAT Reg.LINK_GMSTAT Reg.CLKSTEER_STAT Reg.PULSE_COUNT_LO Reg.PULSE_COUNT_HI regA
  omega

namespace ReadsAs

variable {r : Nat}

theorem withSteer (h : ReadsAs r s t) (x : Steer) : ReadsAs r s { t with steer := x } := ⟨h.wf, h.reg⟩

theorem withDevice (h : ReadsAs r s t) (x : LinkDev) : ReadsAs r s { t with linkDev := x } := ⟨h.wf, h.reg⟩

section
variable (hr : BesideTime r)
include hr

theorem setSteer (h : ReadsAs r s t) (st : Nat) : ReadsAs r s (setSteer t st) := by
  unfold Machine.setSteer
  split
  · exact h
  · dsimp only
    split
    · exact (h.setFld hr.2.1).withSteer _
    · exact (h.setFld hr.2.1).withSteer _

theorem steerSync (h : ReadsAs r s t) : ReadsAs r s (steerSync t) := .ite (h.setSteer hr _) (.ite (h.setSteer hr _) h)

theorem setTime (h : ReadsAs r s t) (st gmid hops up : Nat) : ReadsAs r s (setTime t st gmid hops up) :=
  steerSync hr ((((h.setFld hr.1).setFld hr.1).setFld hr.1).setFld hr.1)

theorem elect (h : ReadsAs r s t) : ReadsAs r s (elect t) := by
  have hself : ReadsAs r s (if timeState t = tGm then t else Machine.setTime t tGm (linkId t) 0 0) := .ite h (h.setTime hr _ _ _ _)
  have hacq (id hops up : Nat) :
      ReadsAs r s (Machine.setTime { t with linkDev := { t.linkDev with calm := 0 } } tAcq id hops up) :=
    (h.withDevice { t.linkDev with calm := 0 }).setTime hr _ _ _ _
  unfold Machine.elect
  dsimp only
  split
  · exact h
  · split
    · exact .ite h (h.setTime hr _ _ _ _)
    · split
      · exact .ite hself (.ite (h.setFld hr.1) (hacq _ _ _))
      · exact .ite hself (.ite h (h.setTime hr _ _ _ _))

/-- The time that a frame of the upstream port brings (R333). -/
theorem upstreamTime (h : ReadsAs r s t) (f : Frame) (err : Int) (stood : Bool) : ReadsAs r s (upstreamTime t f err stood) := by
  unfold Machine.upstreamTime
  extract_lets apart near calm dev v st go w c n
  have hv : ReadsAs r s v := h.withDevice { dev with err := err, calm := calm }
  clear_value v
  have hgo (k : Nat) : ReadsAs r s (go k) := hv.setFld hr.1
  have hw : ReadsAs r s w := by
    unfold w
    exact .ite (.ite hv (hgo _)) (.ite (hgo _) hv)
  clear_value w
  exact .ite (.ite hv (hgo _)) (.ite hw ((hw.setReg hr.2.2.1).setReg hr.2.2.2))

end

end ReadsAs

theorem upstreamTime_rest (s : State) (f : Frame) (err : Int) (stood : Bool) : backTime s (upstreamTime s f err stood) = s := by
  unfold upstreamTime
  extract_lets apart near calm dev v st go w c n
  have hv : backTime s v = s := rfl
  have hgo (k : Nat) : backTime s (go k) = s := rfl
  have hw : backTime s w = s := by
    unfold w
    split
    · split
      · exact hv
      · exact hgo _
    · split
      · exact hgo _
      · exact hv
  clear_value w
  split
  · split
    · exact hv
    · exact hgo _
  · split
    · exact hw
    · exact hw

end Sys2Proof.Machine
end

section
/-! PROOFS. Frames, tables of slots and routes (R313–R318, R324, R333, R337). -/
namespace Sys2Proof.Machine

variable {s t u : State} {d num : Nat} {bs sp : List LinkBlock} {f : Frame} {v : Option (List (Nat × Line))} {a : Access}

/-! ### A frame taken -/

theorem alGet_filter_none {α : Type} {k : Nat} {xs : List (Nat × α)} (p : Nat × α → Bool) (h : alGet k xs = none) :
    alGet k (xs.filter p) = none := by
  induction xs with
  | nil => rfl
  | cons e xs ih =>
    obtain ⟨j, w⟩ := e
    unfold alGet at h
    split at h
    · cases h
    case isFalse hne =>
      rw [List.filter_cons]
      split
      · unfold alGet
        rw [if_neg hne]
        exact ih h
      · exact ih h

/-- A frame counted as failed sets FFAIL (R315). -/
theorem countFail_fields (h : s.wf = true) :
    (countFail s d).wf = true ∧ reg (countFail s d) (Reg.LINK_FERR d) = reg s (Reg.LINK_FERR d) + 1 ∧
      bitF (countFail s d) (Reg.LINK_STAT d) F.LINK_STAT_FFAIL = true ∧ backRegs s (countFail s d) = s ∧
      RegsBut s (countFail s d) [Reg.LINK_STAT d, Reg.LINK_FERR d] := by
  have hinc : (incReg s (Reg.LINK_FERR d)).wf = true := State.wf_setReg h _ _
  have hne : Reg.LINK_FERR d ≠ Reg.LINK_STAT d := by
    unfold Reg.LINK_FERR Reg.LINK_STAT regA
    omega
  refine ⟨State.wf_setFld hinc _ _ _, ?_, bitF_setFld_one hinc _ (by decide) (by decide), rfl, fun r hr => ?_⟩
  · exact (reg_setFld_ne hinc hne _ _).trans (reg_setReg_same h _ _)
  · simp only [List.mem_cons, List.not_mem_nil, or_false, not_or] at hr
    exact (reg_setFld_ne hinc hr.1 _ _).trans (reg_setReg_ne h hr.2 _)

theorem linkPort_countFail (s : State) (d e : Nat) : linkPort (countFail s d) e = linkPort s e := rfl

/-- The port with the slots of frame `num` noted. -/
def notedPort (s : State) (d num : Nat) (v : Option (List (Nat × Line))) : LinkPort :=
  { linkPort s d with frames := alPut num v ((linkPort s d).frames.filter fun e => frameFits s e.1) }

theorem noteFrame_eq (hnew : alGet num (linkPort s d).frames = none) : noteFrame s d num v = setLinkPort s d (notedPort s d num v) := by
  unfold noteFrame
  dsimp only
  rw [alGet_filter_none _ hnew]
  rfl

theorem alGet_notedPort (s : State) (d num : Nat) (v : Option (List (Nat × Line))) : alGet num (notedPort s d num v).frames = some v :=
  alGet_alPut _ _ _

/-- A frame that arrives in its window while the Pulse runs is noted, and counted where it failed (assumption log 50). -/
theorem takeRunning_effect (h : s.wf = true) (hfits : frameFits s num = true) (hnew : alGet num (linkPort s d).frames = none) :
    (takeRunning s d num v).wf = true ∧ (linkPort (takeRunning s d num v) d).credit = (linkPort s d).credit ∧
      alGet num (linkPort (takeRunning s d num v) d).frames = some v ∧
      (v = none → bitF (takeRunning s d num v) (Reg.LINK_STAT d) F.LINK_STAT_FFAIL = true ∧
        reg (takeRunning s d num v) (Reg.LINK_FERR d) = reg s (Reg.LINK_FERR d) + 1) ∧
      { takeRunning s d num v with regs := s.regs, link := s.link } = s ∧
      RegsBut s (takeRunning s d num v) [Reg.LINK_STAT d, Reg.LINK_FERR d] := by
  obtain ⟨hwf, hferr, hflag, hrest, hregs⟩ := countFail_fields (d := d) h
  unfold takeRunning
  rw [hfits, hnew]
  cases v with
  | none =>
    have heq : noteFrame (countFail s d) d num none = setLinkPort (countFail s d) d (notedPort (countFail s d) d num none) :=
      noteFrame_eq hnew
    simp only [Bool.not_true, Option.isSome_none, Bool.or_false, Option.isNone_none, if_true, Bool.false_eq_true, if_false]
    rw [heq, linkPort_setLinkPort_same hwf]
    exact ⟨State.wf_setLinkPort hwf _ _, rfl, alGet_notedPort _ _ _ _, fun _ => ⟨hflag, hferr⟩,
      (congrArg (fun x : State => { x with link := s.link }) hrest :), hregs⟩
  | some ls =>
    have heq : noteFrame s d num (some ls) = setLinkPort s d (notedPort s d num (some ls)) := noteFrame_eq hnew
    simp only [Bool.not_true, Option.isSome_none, Bool.or_false, Option.isNone_some, Bool.false_eq_true, if_false]
    rw [heq, linkPort_setLinkPort_same h]
    exact ⟨State.wf_setLinkPort h _ _, rfl, alGet_notedPort _ _ _ _, fun hno => absurd hno (Option.some_ne_none _), rfl, fun _ _ => rfl⟩

/-- While the Pulse is stopped a frame is judged as it arrives (assumption log 50). -/
theorem takeStopped_effect (h : s.wf = true) :
    (takeStopped s d num v).wf = true ∧ (linkPort (takeStopped s d num v) d).frameOk = v.isSome ∧
      (linkPort (takeStopped s d num v) d).fails = (if v.isSome then 0 else (linkPort s d).fails + 1) ∧
      { takeStopped s d num v with regs := s.regs, link := s.link } = s := by
  obtain ⟨hwf, -, -, hrest, -⟩ := countFail_fields (d := d) h
  unfold takeStopped
  cases v with
  | none =>
    simp only [Option.isSome_none, Bool.false_eq_true, if_false]
    rw [linkPort_setLinkPort_same hwf]
    exact ⟨State.wf_setLinkPort hwf _ _, rfl, congrArg (fun x : LinkPort => x.fails + 1) (linkPort_countFail s d d),
      (congrArg (fun x : State => { x with link := s.link }) hrest :)⟩
  | some ls =>
    have hnoted : (if frameFits s num then noteFrame s d num (some ls) else s).wf = true ∧
        { (if frameFits s num then noteFrame s d num (some ls) else s) with regs := s.regs, link := s.link } = s := by
      refine ⟨(Keeps.ite (Keeps.noteFrame (Keeps.refl s)) (Keeps.refl s)).wf h, ?_⟩
      split
      · unfold noteFrame
        dsimp only
        split <;> rfl
      · rfl
    obtain ⟨hnoteWf, hnoteRest⟩ := hnoted
    simp only [Option.isSome_some, if_true]
    generalize (if frameFits s num then noteFrame s d num (some ls) else s) = t at hnoteWf hnoteRest
    rw [linkPort_setLinkPort_same hnoteWf]
    exact ⟨State.wf_setLinkPort hnoteWf _ _, rfl, rfl, hnoteRest⟩

/-- What a frame taken may change. -/
def backFrame (s t : State) : State :=
  { t with regs := s.regs, keep := s.keep, link := s.link, linkDev := s.linkDev, steer := s.steer }

/-- The time after a frame that was taken: an election, and the upstream port's count (R333). -/
def frameTimed (s : State) (d : Nat) (f : Frame) (err : Int) (stood : Bool) : State :=
  if follows (elect s) && upDie (elect s) = d then upstreamTime (elect s) f err stood else elect s

theorem frameTimed_fields (h : s.wf = true) (f : Frame) (err : Int) (stood : Bool) :
    backTime s (frameTimed s d f err stood) = s ∧ ReadsAs (Reg.LINK_STAT d) s (frameTimed s d f err stood) := by
  have helect := (ReadsAs.refl (r := Reg.LINK_STAT d) h).elect (besideTime_linkStat d)
  unfold frameTimed
  split
  · exact ⟨rest_after (back := backTime) (back' := backTime) (upstreamTime_rest _ _ _ _) (elect_rest s),
      helect.upstreamTime (besideTime_linkStat d) _ _ _⟩
  · exact ⟨elect_rest s, helect⟩

theorem linkPort_of_backTime (h : backTime s t = s) (d : Nat) : linkPort t d = linkPort s d := (congrArg (linkPort · d) h :)

/-- The slots of a frame of the rate in use, where they can be read. -/
def frameSlots (s : State) (bs : List LinkBlock) (f : Frame) : Option (List (Nat × Line)) :=
  if f.rate = rateCode s then readLines bs (slotsLimit f.rate f.slots) else none

theorem takeFrame_eq (hhead : readHead bs = some f) (err : Int) :
    takeFrame s d bs err = frameTimed (if pulseRuns s then takeRunning (takeHead s d f) d f.num (frameSlots s bs f)
      else takeStopped (takeHead s d f) d f.num (frameSlots s bs f)) d f err (decide ((linkPort s d).seenCount = some f.count)) := by
  unfold takeFrame
  rw [hhead]
  rfl

theorem takeHead_fields (h : s.wf = true) :
    (takeHead s d f).wf = true ∧ (linkPort (takeHead s d f) d).credit = min 512 f.credit ∧
      (linkPort (takeHead s d f) d).frames = (linkPort s d).frames ∧ (linkPort (takeHead s d f) d).fails = (linkPort s d).fails := by
  unfold takeHead
  rw [linkPort_setLinkPort_same h]
  exact ⟨State.wf_setLinkPort h _ _, rfl, rfl, rfl⟩

/-- The frame as the port takes it while the Pulse runs. -/
theorem takeFrame_running (h : s.wf = true) (hrun : pulseRuns s = true) (hhead : readHead bs = some f)
    (hfits : frameFits s f.num = true) (hnew : alGet f.num (linkPort s d).frames = none) (err : Int) :
    (linkPort (takeFrame s d bs err) d).credit = min 512 f.credit ∧
      alGet f.num (linkPort (takeFrame s d bs err) d).frames = some (frameSlots s bs f) ∧
      (frameSlots s bs f = none → bitF (takeFrame s d bs err) (Reg.LINK_STAT d) F.LINK_STAT_FFAIL = true) ∧
      backFrame s (takeFrame s d bs err) = s := by
  obtain ⟨hheadWf, hcredit, hframes, -⟩ := takeHead_fields (d := d) (f := f) h
  obtain ⟨hwf, hcredit', hgot, hfail, hrest, -⟩ := takeRunning_effect (d := d) (v := frameSlots s bs f) hheadWf
    (num := f.num) hfits (hframes.symm ▸ hnew)
  rw [takeFrame_eq hhead, if_pos hrun]
  have hheadRest : backFrame s (takeHead s d f) = s := rfl
  generalize takeHead s d f = p at hcredit hcredit' hgot hfail hrest hwf hheadRest
  generalize takeRunning p d f.num (frameSlots s bs f) = q at hcredit' hgot hfail hrest hwf
  obtain ⟨htime, hstat⟩ := frameTimed_fields (d := d) hwf f err (decide ((linkPort s d).seenCount = some f.count))
  have hport := linkPort_of_backTime htime d
  have hq : backFrame s q = s := (congrArg (backFrame s) hrest :).trans hheadRest
  refine ⟨?_, ?_, fun hno => (bitF_of_reg hstat.reg _).trans (hfail hno).1, rest_after (back := backFrame) (back' := backTime) htime hq⟩
  · rw [hport, hcredit', hcredit]
  · rw [hport, hgot]

/-- The frame as the port takes it while the Pulse is stopped. -/
theorem takeFrame_stopped (h : s.wf = true) (hrun : pulseRuns s = false) (hhead : readHead bs = some f) (err : Int) :
    (linkPort (takeFrame s d bs err) d).frameOk = (frameSlots s bs f).isSome ∧
      (linkPort (takeFrame s d bs err) d).fails = (if (frameSlots s bs f).isSome then 0 else (linkPort s d).fails + 1) ∧
      backFrame s (takeFrame s d bs err) = s := by
  obtain ⟨hheadWf, -, -, hfails⟩ := takeHead_fields (d := d) (f := f) h
  obtain ⟨hwf, hok, hfails', hrest⟩ := takeStopped_effect (d := d) (num := f.num) (v := frameSlots s bs f) hheadWf
  rw [takeFrame_eq hhead, if_neg (by simp [hrun])]
  have hheadRest : backFrame s (takeHead s d f) = s := rfl
  generalize takeHead s d f = p at hfails hok hfails' hrest hwf hheadRest
  generalize takeStopped p d f.num (frameSlots s bs f) = q at hok hfails' hrest hwf
  obtain ⟨htime, -⟩ := frameTimed_fields (d := d) hwf f err (decide ((linkPort s d).seenCount = some f.count))
  have hport := linkPort_of_backTime htime d
  have hq : backFrame s q = s := (congrArg (backFrame s) hrest :).trans hheadRest
  refine ⟨?_, ?_, rest_after (back := backFrame) (back' := backTime) htime hq⟩
  · rw [hport, hok]
  · rw [hport, hfails', hfails]

/-! ### Frames as they arrive -/

theorem seesBlocks_up (hup : linkUp s d = true) (hpads : padHeld s d pdLink = false) : seesBlocks s d = true := by
  unfold linkUp at hup
  simp only [Bool.and_eq_true, decide_eq_true_eq] at hup
  obtain ⟨hstate, hlive⟩ := hup
  simp [seesBlocks, hlive, hpads, hstate]

/-- The port with the headers of a frame counted. -/
def framed (s : State) (d : Nat) (bs sp : List LinkBlock) : State := checkSpare (countBlocks s d 0 bs) d (sp.zip (List.range sp.length))

theorem headersCounted_framed (h : s.wf = true) (bs sp : List LinkBlock) : HeadersCounted d s (framed s d bs sp) :=
  ((HeadersCounted.refl h).countBlocks 0 bs).checkSpare _

theorem linkFrameRx_exec (h : s.wf = true) (hd : d < dieCount s.part) (hup : linkUp s d = true) (hpads : padHeld s d pdLink = false)
    (err : Int) : exec (.linkFrameRx d bs sp err) s = .next (takeFrame (framed s d bs sp) d bs err) := by
  refine (onUnit_true (decide_eq_true hd)).trans ((whenDue_true (seesBlocks_up hup hpads)).trans ?_)
  have hup' : linkUp (framed s d bs sp) d = true := (headersCounted_framed h bs sp).linkUp_eq.trans hup
  exact congrArg Host.Outcome.next (if_pos hup')

theorem linkFrameRx_running (h : s.wf = true) (hd : d < dieCount s.part) (hup : linkUp s d = true) (hpads : padHeld s d pdLink = false)
    (hrun : pulseRuns s = true) (hhead : readHead bs = some f) (hfits : frameFits s f.num = true)
    (hnew : alGet f.num (linkPort s d).frames = none) (err : Int) :
    ∃ t, exec (.linkFrameRx d bs sp err) s = .next t ∧ (linkPort t d).credit = min 512 f.credit ∧
      (f.rate = rateCode s → alGet f.num (linkPort t d).frames = some (readLines bs (slotsLimit f.rate f.slots))) ∧
      (f.rate ≠ rateCode s → alGet f.num (linkPort t d).frames = some none) ∧
      ((f.rate ≠ rateCode s ∨ readLines bs (slotsLimit f.rate f.slots) = none) → bitF t (Reg.LINK_STAT d) F.LINK_STAT_FFAIL = true) ∧
      { t with regs := s.regs, keep := s.keep, link := s.link, linkDev := s.linkDev, steer := s.steer } = s := by
  have hcount := headersCounted_framed (d := d) h bs sp
  have hexec := linkFrameRx_exec (bs := bs) (sp := sp) h hd hup hpads err
  generalize framed s d bs sp = p at hcount hexec
  obtain ⟨hcredit, hgot, hfail, hrest⟩ := takeFrame_running (d := d) hcount.wf (hcount.pulseRuns_eq.trans hrun) hhead
    ((hcount.frameFits_eq _).trans hfits) (hcount.frames_eq.symm ▸ hnew) err
  have hslots : frameSlots p bs f = if f.rate = rateCode s then readLines bs (slotsLimit f.rate f.slots) else none := by
    unfold frameSlots
    rw [hcount.rateCode_eq]
  rw [hslots] at hgot hfail
  refine ⟨_, hexec, hcredit, fun hrate => ?_, fun hrate => ?_, fun hbad => hfail ?_, ?_⟩
  · rw [hgot, if_pos hrate]
  · rw [hgot, if_neg hrate]
  · rcases hbad with hrate | hno
    · exact if_neg hrate
    · rw [hno]
      exact ite_self _
  · exact rest_after (back := backFrame) (back' := backFrame) hrest (congrArg (backFrame s) hcount.rest :)

theorem linkFrameRx_stopped (h : s.wf = true) (hd : d < dieCount s.part) (hup : linkUp s d = true) (hpads : padHeld s d pdLink = false)
    (hrun : pulseRuns s = false) (hhead : readHead bs = some f) (err : Int) :
    ∃ t, exec (.linkFrameRx d bs sp err) s = .next t ∧
      ((linkPort t d).frameOk = decide (f.rate = rateCode s ∧ (readLines bs (slotsLimit f.rate f.slots)).isSome = true)) ∧
      (linkPort t d).fails = (if (linkPort t d).frameOk then 0 else (linkPort s d).fails + 1) ∧
      { t with regs := s.regs, keep := s.keep, link := s.link, linkDev := s.linkDev, steer := s.steer } = s := by
  have hcount := headersCounted_framed (d := d) h bs sp
  have hexec := linkFrameRx_exec (bs := bs) (sp := sp) h hd hup hpads err
  generalize framed s d bs sp = p at hcount hexec
  obtain ⟨hok, hfails, hrest⟩ := takeFrame_stopped (d := d) hcount.wf (hcount.pulseRuns_eq.trans hrun) hhead err
  have hslots : (frameSlots p bs f).isSome = decide (f.rate = rateCode s ∧ (readLines bs (slotsLimit f.rate f.slots)).isSome = true) := by
    unfold frameSlots
    rw [hcount.rateCode_eq]
    by_cases hrate : f.rate = rateCode s
    · simp [hrate]
    · simp [hrate]
  refine ⟨_, hexec, hok.trans hslots, ?_, ?_⟩
  · rw [hfails, hok, hcount.fails_eq]
  · exact rest_after (back := backFrame) (back' := backFrame) hrest (congrArg (backFrame s) hcount.rest :)

theorem linkFrameFail_effect (h : s.wf = true) (hd : d < dieCount s.part) (hup : linkUp s d = true) (hpads : padHeld s d pdLink = false)
    (hrun : pulseRuns s = true) (hfits : frameFits s num = true) (hnew : alGet num (linkPort s d).frames = none) :
    ∃ t, exec (.linkFrameFail d num bs) s = .next t ∧ alGet num (linkPort t d).frames = some none ∧
      reg t (Reg.LINK_FERR d) = reg s (Reg.LINK_FERR d) + 1 ∧ bitF t (Reg.LINK_STAT d) F.LINK_STAT_FFAIL = true ∧
      { t with regs := s.regs, link := s.link } = s ∧
      RegsBut s t [Reg.LINK_STAT d, Reg.LINK_FERR d, Reg.LINK_LERR d 0, Reg.LINK_LERR d 1, Reg.LINK_LERR d 2] := by
  have hcount := (HeadersCounted.refl (d := d) h).countBlocks 0 bs
  have hexec : exec (.linkFrameFail d num bs) s = .next (takeRunning (countBlocks s d 0 bs) d num none) := by
    refine (onUnit_true (decide_eq_true hd)).trans ((whenDue_true (seesBlocks_up hup hpads)).trans ?_)
    dsimp only
    rw [hcount.linkUp_eq, hup, hcount.pulseRuns_eq, hrun]
    rfl
  generalize countBlocks s d 0 bs = p at hcount hexec
  obtain ⟨-, -, hgot, hfail, hrest, hregs⟩ := takeRunning_effect (d := d) (v := none) hcount.wf ((hcount.frameFits_eq _).trans hfits)
    (hcount.frames_eq.symm ▸ hnew)
  obtain ⟨hflag, hferr⟩ := hfail rfl
  have hferr' : reg p (Reg.LINK_FERR d) = reg s (Reg.LINK_FERR d) := by
    refine hcount.reg_eq fun n hn => ?_
    unfold Reg.LINK_FERR Reg.LINK_LERR regA
    omega
  refine ⟨_, hexec, hgot, by rw [hferr, hferr'], hflag, ?_, fun r hr => ?_⟩
  · exact (congrArg (fun x : State => { x with regs := s.regs, link := s.link }) hrest :).trans hcount.rest
  · simp only [List.mem_cons, List.not_mem_nil, or_false, not_or] at hr
    obtain ⟨hstat, hfe, h0, h1, h2⟩ := hr
    exact (hregs r (by simp [hstat, hfe])).trans (hcount.regs r (by simp [h0, h1, h2]))

end Sys2Proof.Machine
end

section
/-! PROOFS. Frames of a stopped Pulse, tables of slots and routes (R317, R318, R324, R337). -/
namespace Sys2Proof.Machine

variable {s t u : State} {d : Nat} {a : Access}

/-! ### Frames while the Pulse is stopped -/

/-- What the host queues, drained into the ports, may change. -/
def backDrain (s t : State) : State :=
  { t with regs := s.regs, ecc := s.ecc, rows := s.rows, link := s.link, linkDev := s.linkDev, fresh := s.fresh }

/-- `t` differs from `s` at most there, and the frames of port `d` are counted as in `s`. -/
structure DrainFrame (d : Nat) (s t : State) : Prop where
  wf : t.wf = true
  rest : backDrain s t = s
  frameNo : (linkPort t d).frameNo = (linkPort s d).frameNo

namespace DrainFrame

theorem refl (h : s.wf = true) : DrainFrame d s s := ⟨h, rfl, rfl⟩

theorem ite {c : Prop} {_ : Decidable c} (ht : DrainFrame d s t) (hu : DrainFrame d s u) : DrainFrame d s (if c then t else u) := by
  split
  · exact ht
  · exact hu

theorem each {α : Type} (h : DrainFrame d s t) {xs : List α} {f : α → State → State}
    (hf : ∀ x v, DrainFrame d s v → DrainFrame d s (f x v)) : DrainFrame d s (each xs f t) := each_keeps xs f (fun x _ v hv => hf x v hv) h

theorem setReg (h : DrainFrame d s t) (r : Nat) (w : Word) : DrainFrame d s (setReg t r w) :=
  ⟨State.wf_setReg h.wf r w, h.rest, h.frameNo⟩

theorem setFld (h : DrainFrame d s t) (r : Nat) (f : Fld) (v : Nat) : DrainFrame d s (setFld t r f v) := h.setReg r _

theorem satFld (h : DrainFrame d s t) (r : Nat) (f : Fld) : DrainFrame d s (satFld t r f) := .ite (h.setFld r f _) h

theorem setRows (h : DrainFrame d s t) (e p : Nat) (x : Rows) : DrainFrame d s (setRows t e p x) :=
  ⟨State.wf_setRows h.wf e p x, h.rest, h.frameNo⟩

theorem setEcc (h : DrainFrame d s t) (b : Nat) (x : EccMark) : DrainFrame d s (setEcc t b x) :=
  ⟨(Keeps.setEcc (Keeps.refl t)).wf h.wf, h.rest, h.frameNo⟩

theorem withFresh (h : DrainFrame d s t) (n : Nat) : DrainFrame d s { t with fresh := n } := ⟨h.wf, h.rest, h.frameNo⟩

/-- A port changed in other respects. -/
theorem setLinkPort (h : DrainFrame d s t) {e : Nat} {x : LinkPort} (hx : x.frameNo = (linkPort t e).frameNo) :
    DrainFrame d s (setLinkPort t e x) := by
  refine ⟨State.wf_setLinkPort h.wf e x, h.rest, ?_⟩
  rw [linkPort_setLinkPort h.wf]
  split
  case isTrue heq => rw [hx, ← heq, h.frameNo]
  case isFalse => exact h.frameNo

theorem noteSeen (h : DrainFrame d s t) (p : Packet) : DrainFrame d s (noteSeen t p) := ⟨h.wf, h.rest, h.frameNo⟩

theorem portSend (h : DrainFrame d s t) (e : Nat) (p : Packet) (fast : Bool) : DrainFrame d s (portSend t e p fast) := h.setLinkPort rfl

theorem routeSend (h : DrainFrame d s t) (e : Nat) (p : Packet) (fast : Bool) : DrainFrame d s (routeSend t e p fast) :=
  .ite (h.setLinkPort rfl) (h.portSend e p fast)

theorem deviceSend (h : DrainFrame d s t) (e : Nat) (p : Packet) (fast : Bool) : DrainFrame d s (deviceSend t e p fast) := by
  unfold Machine.deviceSend
  split
  · exact (h.noteSeen p).each fun e' v hv => .ite (hv.portSend e' p fast) hv
  · split
    · exact h.setLinkPort rfl
    · split
      · exact h.routeSend _ p fast
      · exact h.setFld _ _ _

theorem orderRepair (h : DrainFrame d s t) (e p row : Nat) : DrainFrame d s (orderRepair t e p row) := by
  unfold Machine.orderRepair
  dsimp only
  split
  · exact h
  · split
    · exact (h.setRows _ _ _).setFld _ _ _
    · split
      · exact h.setRows _ _ _
      · exact (h.setRows _ _ _).setFld _ _ _

theorem tallyRow (h : DrainFrame d s t) (e p row : Nat) : DrainFrame d s (tallyRow t e p row) := by
  unfold Machine.tallyRow
  dsimp only
  split
  · exact (h.setRows _ _ _).orderRepair _ _ _
  · exact h.setRows _ _ _

theorem wmLine (h : DrainFrame d s t) (e line : Nat) : DrainFrame d s (wmLine t e line).1 := by
  unfold Machine.wmLine
  dsimp only
  split
  · exact h
  · exact ((h.setEcc _ _).satFld _ _).tallyRow _ _ _
  · exact (h.satFld _ _).orderRepair _ _ _

theorem wmLines (h : DrainFrame d s t) (e loc n : Nat) : DrainFrame d s (wmLines t e loc n).1 := by
  unfold Machine.wmLines
  generalize List.range ((loc + n + 7) / 8 - loc / 8) = is
  generalize true = ok
  induction is generalizing t ok with
  | nil => exact h
  | cons i is ih => exact ih (h.wmLine e (loc / 8 + i)) _

theorem queueDrop (h : DrainFrame d s t) (e q : Nat) : DrainFrame d s (queueDrop t e q) :=
  (((h.setFld _ _ _).setFld _ _ _).setFld _ _ _).setFld _ _ _

/-- The head entry taken from a queue (R370). -/
theorem queueTake (h : DrainFrame d s t) (e q : Nat) : DrainFrame d s (queueTake t e q).1 := by
  have hlines : DrainFrame d s (queueLines t e q).1 := h.wmLines _ _ _
  unfold Machine.queueTake
  dsimp only
  exact queueDrop (.ite hlines (hlines.withFresh _)) e q

theorem drainHost (h : DrainFrame d s t) (e n : Nat) : DrainFrame d s (drainHost e n t) := by
  induction n generalizing t with
  | zero => exact h
  | succ n ih =>
    unfold Machine.drainHost
    split
    · exact h
    · exact ih ((h.queueTake e 2).deviceSend e _ false)

theorem drainDie (h : DrainFrame d s t) (e : Nat) : DrainFrame d s (drainDie e t) := .ite (h.drainHost e _) h

end DrainFrame

theorem sendFrame_port (h : s.wf = true) (f : Frame) :
    (linkPort (sendFrame s d f) d).out = some f ∧ (linkPort (sendFrame s d f) d).frameNo = (linkPort s d).frameNo + 1 := by
  have hfresh : { s with fresh := s.fresh + 1 }.wf = true := h
  unfold sendFrame
  dsimp only
  rw [linkPort_setLinkPort_same hfresh]
  exact ⟨rfl, rfl⟩

theorem sendFrame_rest (s : State) (d : Nat) (f : Frame) : backDrain s (sendFrame s d f) = s := rfl

theorem nominalTickFrame_effect (h : s.wf = true) (hd : d < dieCount s.part) (hstop : pulseRuns s = false) (hup : linkUp s d = true)
    (hrun : running s = true) :
    ∃ t, exec (.nominalTickFrame d) s = .next t ∧ (linkPort t d).out.map (fun f => f.slots) = some 0 ∧
      (linkPort t d).frameNo = (linkPort s d).frameNo + 1 ∧
      { t with regs := s.regs, ecc := s.ecc, rows := s.rows, link := s.link, linkDev := s.linkDev, fresh := s.fresh } = s := by
  have hdrain : DrainFrame d s (each (dies s) drainDie s) := (DrainFrame.refl h).each fun e _ hv => hv.drainDie e
  have hexec : exec (.nominalTickFrame d) s = .next (sendFrame (each (dies s) drainDie s) d
      (buildFrame (each (dies s) drainDie s) d ((pulseCount (each (dies s) drainDie s) + 2 ^ 64 - 1) % 2 ^ 64) 0 [])) :=
    (onUnit_true (decide_eq_true hd)).trans (whenDue_true (by simp [hstop, hup, hrun]))
  generalize each (dies s) drainDie s = t at hdrain hexec
  obtain ⟨hout, hno⟩ := sendFrame_port (d := d) hdrain.wf (buildFrame t d ((pulseCount t + 2 ^ 64 - 1) % 2 ^ 64) 0 [])
  refine ⟨_, hexec, ?_, hno.trans (congrArg (· + 1) hdrain.frameNo), ?_⟩
  · rw [hout]
    rfl
  · exact rest_after (back := backDrain) (back' := backDrain) (sendFrame_rest t d _) hdrain.rest

/-! ### Routes -/

theorem alGet_cons {α : Type} (k j : Nat) (w : α) (xs : List (Nat × α)) :
    alGet k ((j, w) :: xs) = if k = j then some w else alGet k xs := rfl

theorem alGet_append {α : Type} (k : Nat) (xs ys : List (Nat × α)) : alGet k (xs ++ ys) = (alGet k xs).or (alGet k ys) := by
  induction xs with
  | nil => rfl
  | cons e xs ih =>
    obtain ⟨j, w⟩ := e
    rw [List.cons_append, alGet_cons, alGet_cons]
    split
    · rfl
    · exact ih

theorem alGet_map_mem {α : Type} {k : Nat} {ks : List Nat} (g : Nat → α) (hk : k ∈ ks) : alGet k (ks.map fun j => (j, g j)) = some (g k) := by
  induction ks with
  | nil => cases hk
  | cons j ks ih =>
    rw [List.map_cons]
    unfold alGet
    split
    case isTrue heq => rw [heq]
    case isFalse hne => exact ih ((List.mem_cons.mp hk).resolve_left hne)

theorem alGet_map_not_mem {α : Type} {k : Nat} {ks : List Nat} (g : Nat → α) (hk : k ∉ ks) : alGet k (ks.map fun j => (j, g j)) = none := by
  refine alGet_eq_none fun e he hkey => hk ?_
  obtain ⟨j, hj, rfl⟩ := List.mem_map.mp he
  exact hkey ▸ hj

/-- Entries of other keys taken out leave what a key finds. -/
theorem alGet_filter_keep {α : Type} {k : Nat} {xs : List (Nat × α)} {p : Nat → Bool} (hk : p k = true) :
    alGet k (xs.filter fun e => p e.1) = alGet k xs := by
  induction xs with
  | nil => rfl
  | cons e xs ih =>
    obtain ⟨j, w⟩ := e
    rw [List.filter_cons]
    by_cases heq : k = j
    · subst heq
      rw [if_pos hk]
      simp [alGet]
    · have hrest : alGet k ((j, w) :: xs) = alGet k xs := if_neg heq
      rw [hrest]
      split
      · exact (if_neg heq).trans ih
      · exact ih

theorem alGet_filter_drop {α : Type} {k : Nat} {xs : List (Nat × α)} {p : Nat → Bool} (hk : p k = false) :
    alGet k (xs.filter fun e => p e.1) = none := by
  refine alGet_eq_none fun e he hkey => ?_
  have hp : p e.1 = true := (List.mem_filter.mp he).2
  rw [hkey, hk] at hp
  cases hp

/-- The holds of routes after a switch that moved `new`: RTHOLD ticks, or what is left of an earlier hold (R324). -/
def routeHolds (s : State) (new : List Nat) : List (Nat × Nat) :=
  s.linkDev.moved.filter (fun e => !new.contains e.1) ++
    new.map fun k => (k, max (fld s (Reg.LINK_RTCFG 0) F.LINK_RTCFG_RTHOLD) ((alGet k s.linkDev.moved).getD 0))

theorem alGet_routeHolds_mem {k : Nat} {new : List Nat} (hk : k ∈ new) :
    alGet k (routeHolds s new) = some (max (fld s (Reg.LINK_RTCFG 0) F.LINK_RTCFG_RTHOLD) ((alGet k s.linkDev.moved).getD 0)) := by
  unfold routeHolds
  rw [alGet_append, alGet_filter_drop (p := fun j => !new.contains j) (by simpa using hk),
    alGet_map_mem (fun k => max (fld s (Reg.LINK_RTCFG 0) F.LINK_RTCFG_RTHOLD) ((alGet k s.linkDev.moved).getD 0)) hk]
  rfl

theorem alGet_routeHolds_not_mem {k : Nat} {new : List Nat} (hk : k ∉ new) :
    alGet k (routeHolds s new) = alGet k s.linkDev.moved := by
  unfold routeHolds
  rw [alGet_append, alGet_filter_keep (p := fun j => !new.contains j) (by simpa using hk),
    alGet_map_not_mem (fun k => max (fld s (Reg.LINK_RTCFG 0) F.LINK_RTCFG_RTHOLD) ((alGet k s.linkDev.moved).getD 0)) hk]
  exact Option.or_none

theorem linkRouteSwitch_effect (h : s.wf = true) (hmet : isMet s.linkDev.change = true) :
    ∃ t, exec .linkRouteSwitch s = .next t ∧ routeCopy t = 1 - routeCopy s ∧ t.linkDev.change = none ∧
      (∀ k, k ∈ routesMoved s → alGet k t.linkDev.moved =
        some (max (fld s (Reg.LINK_RTCFG 0) F.LINK_RTCFG_RTHOLD) ((alGet k s.linkDev.moved).getD 0))) ∧
      (∀ k, k ∉ routesMoved s → alGet k t.linkDev.moved = alGet k s.linkDev.moved) ∧
      { t with regs := s.regs, linkDev := s.linkDev } = s ∧ RegsBut s t [Reg.LINK_RTCFG 0] := by
  have hexec : exec .linkRouteSwitch s = .next { setFld s (Reg.LINK_RTCFG 0) F.LINK_RTCFG_ACTIVE (1 - routeCopy s) with
      linkDev := { s.linkDev with change := none, moved := routeHolds s (routesMoved s) } } := whenDue_true hmet
  have hcopy : fld (setFld s (Reg.LINK_RTCFG 0) F.LINK_RTCFG_ACTIVE (1 - routeCopy s)) (Reg.LINK_RTCFG 0) F.LINK_RTCFG_ACTIVE =
      1 - routeCopy s := by
    rw [fld_setFld_same h _ (by decide) (by decide)]
    exact Nat.mod_eq_of_lt (Nat.lt_of_le_of_lt (Nat.sub_le 1 _) (by decide))
  refine ⟨_, hexec, hcopy, rfl, fun k hk => alGet_routeHolds_mem hk, fun k hk => alGet_routeHolds_not_mem hk, rfl, fun r hr => ?_⟩
  exact reg_setFld_ne h (by simpa using hr) _ _

/-! ### Packets held for a route -/

theorem mem_placePacket {q : List Packet} {p x : Packet} {fast : Bool} : x ∈ placePacket q p fast ↔ x = p ∨ x ∈ q := by
  unfold placePacket
  split
  · have hsplit : x ∈ q ↔ x ∈ q.takeWhile urgent ∨ x ∈ q.dropWhile urgent := by
      rw [← List.mem_append, List.takeWhile_append_dropWhile]
    rw [hsplit]
    simp only [List.mem_append, List.mem_singleton]
    tauto
  · simp only [List.mem_append, List.mem_singleton]
    tauto

/-- Packets sent on a port join its queue; nothing else of the port changes. -/
theorem sendAll_port (h : s.wf = true) (es : List (Packet × Nat)) :
    (es.foldl (fun u e => portSend u d e.1 false) s).wf = true ∧
      (linkPort (es.foldl (fun u e => portSend u d e.1 false) s) d).heldPk = (linkPort s d).heldPk ∧
      (∀ p, (p ∈ (linkPort s d).queue ∨ ∃ e ∈ es, e.1 = p) → p ∈ (linkPort (es.foldl (fun u e => portSend u d e.1 false) s) d).queue) ∧
      (∀ e, e ≠ d → linkPort (es.foldl (fun u e => portSend u d e.1 false) s) e = linkPort s e) ∧
      { es.foldl (fun u e => portSend u d e.1 false) s with link := s.link } = s := by
  induction es generalizing s with
  | nil => exact ⟨h, rfl, fun p hp => hp.elim id fun ⟨e, he, _⟩ => absurd he List.not_mem_nil, fun _ _ => rfl, rfl⟩
  | cons e es ih =>
    have hsend : (portSend s d e.1 false).wf = true := State.wf_setLinkPort h _ _
    have hport : linkPort (portSend s d e.1 false) d = { linkPort s d with queue := placePacket (linkPort s d).queue e.1 false } :=
      linkPort_setLinkPort_same h _ _
    obtain ⟨hwf, hheld, hqueue, hother, hrest⟩ := ih hsend
    rw [List.foldl_cons]
    refine ⟨hwf, ?_, fun p hp => hqueue p ?_, fun e' he' => ?_,
      (congrArg (fun x : State => { x with link := s.link }) hrest :)⟩
    · rw [hheld, hport]
    · rw [hport]
      rcases hp with hp | ⟨x, hx, rfl⟩
      · exact .inl (mem_placePacket.mpr (.inr hp))
      · rcases List.mem_cons.mp hx with rfl | hx
        · exact .inl (mem_placePacket.mpr (.inl rfl))
        · exact .inr ⟨x, hx, rfl⟩
    · rw [hother e' he']
      exact (linkPort_setLinkPort h d _ e').trans (if_neg he')

/-- The packets of one port whose ticks are over leave. -/
def releaseHeld (s : State) (d : Nat) (t : State) : State :=
  ((linkPort t d).heldPk.filter (mayLeave s)).foldl (fun u e => portSend u d e.1 false)
    (setLinkPort t d { linkPort t d with heldPk := (linkPort t d).heldPk.filter fun e => !mayLeave s e })

theorem releaseHeld_port (h : t.wf = true) :
    (releaseHeld s d t).wf = true ∧ (linkPort (releaseHeld s d t) d).heldPk = (linkPort t d).heldPk.filter (fun e => !mayLeave s e) ∧
      (∀ e, e ∈ (linkPort t d).heldPk → mayLeave s e = true → e.1 ∈ (linkPort (releaseHeld s d t) d).queue) ∧
      (∀ e, e ≠ d → linkPort (releaseHeld s d t) e = linkPort t e) ∧ { releaseHeld s d t with link := t.link } = t := by
  have hset : (setLinkPort t d { linkPort t d with heldPk := (linkPort t d).heldPk.filter fun e => !mayLeave s e }).wf = true :=
    State.wf_setLinkPort h _ _
  obtain ⟨hwf, hheld, hqueue, hother, hrest⟩ := sendAll_port (d := d) hset ((linkPort t d).heldPk.filter (mayLeave s))
  refine ⟨hwf, ?_, fun e he hleave => hqueue e.1 (.inr ⟨e, List.mem_filter.mpr ⟨he, hleave⟩, rfl⟩), fun e he => ?_, ?_⟩
  · rw [linkPort_setLinkPort_same h] at hheld
    exact hheld
  · exact (hother e he).trans ((linkPort_setLinkPort h d _ e).trans (if_neg he))
  · exact (congrArg (fun x : State => { x with link := t.link }) hrest :)

theorem linkRtholdEnd_effect (h : s.wf = true) (hdue : ((dies s).any fun d => (linkPort s d).heldPk.any (mayLeave s)) = true) :
    ∃ t, exec .linkRtholdEnd s = .next t ∧
      (∀ d, d < dieCount s.part → (linkPort t d).heldPk = (linkPort s d).heldPk.filter (fun e => !mayLeave s e)) ∧
      (∀ d, d < dieCount s.part → ∀ e, e ∈ (linkPort s d).heldPk → mayLeave s e = true → e.1 ∈ (linkPort t d).queue) ∧
      { t with link := s.link } = s := by
  have hexec : exec .linkRtholdEnd s = .next (each (dies s) (releaseHeld s) s) := whenDue_true hdue
  have hport (d : Nat) (hd : d < dieCount s.part) : (each (dies s) (releaseHeld s) s).wf = true ∧
      (linkPort (each (dies s) (releaseHeld s) s) d).heldPk = (linkPort s d).heldPk.filter (fun e => !mayLeave s e) ∧
      ∀ e, e ∈ (linkPort s d).heldPk → mayLeave s e = true → e.1 ∈ (linkPort (each (dies s) (releaseHeld s) s) d).queue := by
    refine each_once (P := fun t => t.wf = true ∧ linkPort t d = linkPort s d) (x := d)
      (Q := fun t => t.wf = true ∧ (linkPort t d).heldPk = (linkPort s d).heldPk.filter (fun e => !mayLeave s e) ∧
        ∀ e, e ∈ (linkPort s d).heldPk → mayLeave s e = true → e.1 ∈ (linkPort t d).queue)
      List.nodup_range (List.mem_range.mpr hd) (fun e _ he t ht => ?_) (fun t ht => ?_) (fun e _ he t ht => ?_) ⟨h, rfl⟩
    · obtain ⟨hwf, -, -, hother, -⟩ := releaseHeld_port (s := s) (d := e) ht.1
      exact ⟨hwf, (hother d he.symm).trans ht.2⟩
    · obtain ⟨hwf, hheld, hqueue, -, -⟩ := releaseHeld_port (s := s) (d := d) ht.1
      rw [ht.2] at hheld hqueue
      exact ⟨hwf, hheld, hqueue⟩
    · obtain ⟨hwf, -, -, hother, -⟩ := releaseHeld_port (s := s) (d := e) ht.1
      rw [hother d he.symm]
      exact ⟨hwf, ht.2⟩
  have hrest : (each (dies s) (releaseHeld s) s).wf = true ∧ { each (dies s) (releaseHeld s) s with link := s.link } = s := by
    refine each_keeps (P := fun t => t.wf = true ∧ { t with link := s.link } = s) _ _ (fun e _ t ht => ?_) ⟨h, rfl⟩
    obtain ⟨hwf, -, -, -, hback⟩ := releaseHeld_port (s := s) (d := e) ht.1
    exact ⟨hwf, (congrArg (fun x : State => { x with link := s.link }) hback :).trans ht.2⟩
  exact ⟨_, hexec, fun d hd => (hport d hd).2.1, fun d hd => (hport d hd).2.2, hrest.2⟩

/-- Settles O56: frames noted, judged and counted, frames of a stopped Pulse, table and route changes, held packets, and the
lock of the time. -/
theorem linkFrames : Obligations.LinkFrames := by
  unfold Obligations.LinkFrames
  refine ⟨?arrives, ?judged, ?failed, ?nominal, ?tswap, ?exported, ?rtswap, ?route, ?held, ?lock⟩
  case arrives => exact fun s d bs sp f err h hd hup hpads hrun hhead hfits hnew => linkFrameRx_running h hd hup hpads hrun hhead hfits hnew err
  case judged => exact fun s d bs sp f err h hd hup hpads hrun hhead => linkFrameRx_stopped h hd hup hpads hrun hhead err
  case failed => exact fun s d num bs h hd hup hpads hrun hfits hnew => linkFrameFail_effect h hd hup hpads hrun hfits hnew
  case nominal => exact fun s d h hd hstop hup hrun => nominalTickFrame_effect h hd hstop hup hrun
  case tswap => exact fun s a d h => regCmd_taken h (by decide) (by decide) rfl rfl rfl
  case exported => exact fun s d hd hmet => (onUnit_true (decide_eq_true hd)).trans (whenDue_true hmet)
  case rtswap => exact fun s a h => regCmd_taken h (by decide) (by decide) rfl rfl rfl
  case route => exact fun s h hmet => linkRouteSwitch_effect h hmet
  case held => exact fun s h hdue => linkRtholdEnd_effect h hdue
  case lock => exact fun s hst hcalm => whenDue_true (by simp [hst, hcalm])

end Sys2Proof.Machine
end

section
/-! PROOFS. Packets delivered, and remote requests (R319–R330). -/
namespace Sys2Proof.Machine

variable {s t u : State} {d e ahead i : Nat} {a : Arrival} {p : Packet} {aged : Bool} {b : Access} {v : Word}

/-! ### Packets delivered -/

theorem onPacket_delivered {ty : Nat} (hd : d < dieCount s.part) (hp : delivered s d a ty aged = some p) (f : State → Packet → State) :
    onPacket s d a ty aged f = .next (f (takePacket s d a p) p) := by
  unfold onPacket
  rw [onUnit_true (decide_eq_true hd), hp]

/-- A request that is carried out where it can be (assumption log 66). -/
theorem serve_eq (f : State → State) :
    serve t d a p ahead f = if a ≠ .waiting ∧ 16 ≤ ahead + (linkPort t d).rx.length then
        (if p.bcast then t else respond t d (responseTo t d p 5 0 []) false)
      else if servable t d a p = true then f t
      else setLinkPort t d { linkPort t d with rx := if a = .waiting then p :: (linkPort t d).rx else (linkPort t d).rx ++ [p] } := by
  unfold serve
  simp only [Bool.and_eq_true, decide_eq_true_eq]

theorem malformed_bcast (h : malformed p = false) (hb : p.bcast = true) : p.ty ≠ pkRdreq := by
  intro hty
  rw [malformed, hb, hty] at h
  simp [pkRdreq, pkWrreq, pkSwap, pkStart, pkHost] at h

/-- A read request is not broadcast (R322). -/
theorem delivered_rdreq (hp : delivered s d a pkRdreq aged = some p) : p.bcast = false := by
  obtain ⟨-, hok⟩ := Option.filter_eq_some_iff.mp hp
  simp only [Bool.and_eq_true, Bool.not_eq_true', decide_eq_true_eq] at hok
  obtain ⟨⟨⟨-, hform⟩, hty⟩, -⟩ := hok
  by_contra hb
  exact malformed_bcast hform (by simpa using hb) hty

theorem linkRdreq_effect (hd : d < dieCount s.part) (hp : delivered s d a pkRdreq false = some p) :
    let t0 := takePacket s d a p
    let x := remoteRead d p.words p.addr t0
    exec (.linkRdreq d a ahead) s = .next (if a ≠ .waiting ∧ 16 ≤ ahead + (linkPort t0 d).rx.length then respond t0 d (responseTo t0 d p 5 0 []) false
        else if servable t0 d a p = true then respond x.1 d (responseTo x.1 d p x.2.2 x.2.1.length x.2.1) (decide (a ≠ .waiting) && fastResponse p ahead)
        else setLinkPort t0 d { linkPort t0 d with rx := if a = .waiting then p :: (linkPort t0 d).rx else (linkPort t0 d).rx ++ [p] }) := by
  intro t0 x
  change execLinkRdreq d a ahead s = _
  unfold execLinkRdreq
  rw [onPacket_delivered hd hp, serve_eq, delivered_rdreq hp]
  simp only [Bool.false_eq_true, if_false]
  rfl

theorem linkWrreq_effect (hd : d < dieCount s.part) (hp : delivered s d a pkWrreq aged = some p) :
    let t0 := takePacket s d a p
    let x := remoteWrite d (p.data.take p.words) p.addr t0
    exec (.linkWrreq d a ahead aged) s = .next (if a ≠ .waiting ∧ 16 ≤ ahead + (linkPort t0 d).rx.length then (if p.bcast then t0 else respond t0 d (responseTo t0 d p 5 0 []) false)
        else if servable t0 d a p = true then (if p.bcast then x.1 else respond x.1 d (responseTo x.1 d p x.2.2 x.2.1 []) false)
        else setLinkPort t0 d { linkPort t0 d with rx := if a = .waiting then p :: (linkPort t0 d).rx else (linkPort t0 d).rx ++ [p] }) := by
  intro t0 x
  change execLinkWrreq d a ahead aged s = _
  unfold execLinkWrreq
  rw [onPacket_delivered hd hp, serve_eq]

theorem linkSwapPacket_other (hd : d < dieCount s.part) (hp : delivered s d a pkSwap aged = some p)
    (hkind : wField (p.data.getD 0 0) 31 28 ≠ 1) :
    exec (.linkSwapPacket d a aged) s = .next (match wField (p.data.getD 0 0) 31 28 with
      | 2 => swapReadyPacket (takePacket s d a p) p (wField (p.data.getD 0 0) 7 0)
      | 3 => swapRefusalPacket (takePacket s d a p) p (wField (p.data.getD 0 0) 7 0)
      | 4 => swapCommitPacket (takePacket s d a p) p (wField (p.data.getD 0 0) 7 0)
      | _ => takePacket s d a p) := by
  change execLinkSwapPacket d a aged s = _
  unfold execLinkSwapPacket
  rw [onPacket_delivered hd hp]
  dsimp only
  generalize wField (p.data.getD 0 0) 31 28 = k at hkind
  split
  case h_1 => exact absurd rfl hkind
  case h_2 => rfl
  case h_3 => rfl
  case h_4 => rfl
  case h_5 hne hsecond hthird hfourth =>
    split
    case h_1 => exact absurd rfl hsecond
    case h_2 => exact absurd rfl hthird
    case h_3 => exact absurd rfl hfourth
    case h_4 => rfl

theorem linkPacketRoute_effect (hd : d < dieCount s.part) (hrun : running s = true) (ha : a ≠ .waiting) (hp : arrival s d a = some p)
    (hwhere : malformed p = true ∨ (if p.bcast then repeated s p aged = true else p.dst ≠ linkId s)) :
    exec (.linkPacketRoute d a aged) s = .next (if malformed p then incFld (takeArrival s d a) (Reg.LINK_PERR d) F.LINK_PERR_BAD
      else if p.bcast then takeArrival s d a else routePacket (takeArrival s d a) d p) := by
  refine (onUnit_true (decide_eq_true hd)).trans ((whenDue_true (by simp [hrun, ha])).trans ?_)
  rw [hp]
  dsimp only
  by_cases hbad : malformed p = true
  · rw [if_pos hbad, if_pos hbad]
  · have hgood := hwhere.resolve_left hbad
    rw [if_neg hbad, if_neg hbad]
    by_cases hb : p.bcast = true
    · rw [if_pos hb] at hgood
      rw [if_pos hb, if_pos hb, if_pos hgood]
    · rw [if_neg hb] at hgood
      rw [if_neg hb, if_neg hb, if_pos hgood]

theorem linkPacketRoute_none (hd : d < dieCount s.part) (hrun : running s = true) (ha : a ≠ .waiting) (hp : arrival s d a = none) :
    exec (.linkPacketRoute d a aged) s = .next (takeArrival s d a) := by
  refine (onUnit_true (decide_eq_true hd)).trans ((whenDue_true (by simp [hrun, ha])).trans ?_)
  rw [hp]

theorem linkPacketTimeout_queue (hd : d < dieCount s.part) (hi : i < (linkPort s d).queue.length) :
    exec (.linkPacketTimeout d i) s =
      .next (countDrop (setLinkPort s d { linkPort s d with queue := (linkPort s d).queue.eraseIdx i }) d) := by
  refine (onUnit_true (decide_eq_true hd)).trans ((whenDue_true (by simp; omega)).trans ?_)
  rw [if_pos hi]

theorem linkPacketTimeout_held (hd : d < dieCount s.part) (hlow : (linkPort s d).queue.length ≤ i)
    (hi : i < (linkPort s d).queue.length + (linkPort s d).heldPk.length) :
    exec (.linkPacketTimeout d i) s = .next (countDrop (setLinkPort s d
      { linkPort s d with heldPk := (linkPort s d).heldPk.eraseIdx (i - (linkPort s d).queue.length) }) d) := by
  refine (onUnit_true (decide_eq_true hd)).trans ((whenDue_true (by simpa using hi)).trans ?_)
  rw [if_neg (by omega)]

end Sys2Proof.Machine
end

section
/-! PROOFS. Remote requests of the firmware (R325–R327). -/
namespace Sys2Proof.Machine

variable {s t u : State} {d e : Nat} {a : Access} {p : Packet} {v : Word} {words : Nat} {write : Bool}

/-! ### The end of a request -/

theorem setLinkPort_same_other (h : s.wf = true) {x : LinkPort} (hne : e ≠ d) : linkPort (setLinkPort s d x) e = linkPort s e :=
  (linkPort_setLinkPort h d x e).trans (if_neg hne)

/-- A request that ends shows its status, and nothing is outstanding (R325). -/
structure RequestEnded (d status : Nat) (s t : State) : Prop where
  wf : t.wf = true
  busy : bitF t (Reg.LINK_RSTAT d) F.LINK_RSTAT_BUSY = false
  done : bitF t (Reg.LINK_RSTAT d) F.LINK_RSTAT_DONE = true
  status : fld t (Reg.LINK_RSTAT d) F.LINK_RSTAT_STATUS = status
  port : linkPort t d = { linkPort s d with wait := none }
  other : ∀ e, e ≠ d → linkPort t e = linkPort s e
  rest : { t with regs := s.regs, link := s.link } = s
  regs : RegsBut s t [Reg.LINK_RSTAT d]

theorem engineDone_ended (h : s.wf = true) {status : Nat} (hstatus : status < 16) : RequestEnded d status s (engineDone s d status []) := by
  have hport : (setLinkPort s d { linkPort s d with wait := none }).wf = true := State.wf_setLinkPort h _ _
  have hbusy := State.wf_setFld hport (Reg.LINK_RSTAT d) F.LINK_RSTAT_BUSY 0
  have hdone := State.wf_setFld hbusy (Reg.LINK_RSTAT d) F.LINK_RSTAT_DONE 1
  refine ⟨State.wf_setFld hdone _ _ _, ?_, ?_, ?_, linkPort_setLinkPort_same h _ _, fun e he => setLinkPort_same_other h he, rfl,
    fun r hr => ?_⟩
  · exact (bitF_setFld_ne hdone _ (by decide) (by decide) (by decide) _).trans ((bitF_setFld_ne hbusy _ (by decide) (by decide)
      (by decide) _).trans (bitF_setFld_zero hport _ (by decide) (by decide)))
  · exact (bitF_setFld_ne hdone _ (by decide) (by decide) (by decide) _).trans (bitF_setFld_one hbusy _ (by decide) (by decide))
  · exact (fld_setFld_same hdone _ (by decide) (by decide) _).trans (Nat.mod_eq_of_lt hstatus)
  · have hne : r ≠ Reg.LINK_RSTAT d := by simpa using hr
    exact (reg_setFld_ne hdone hne _ _).trans ((reg_setFld_ne hbusy hne _ _).trans (reg_setFld_ne hport hne _ _))

/-! ### The word of a request -/

/-- The word that GO of LINK_RCMD writes. -/
def remoteWord (write : Bool) (words : Nat) : Word := 0x80000000 ||| fieldIs F.LINK_RCMD_WRITE write.toNat ||| fieldIs F.LINK_RCMD_WORDS words

theorem remoteWord_go (write : Bool) (words : Nat) : (remoteWord write words).getLsbD 31 = true := by
  unfold remoteWord
  rw [BitVec.getLsbD_or, BitVec.getLsbD_or]
  rfl

theorem remoteWord_write (write : Bool) (words : Nat) : wGet (remoteWord write words) F.LINK_RCMD_WRITE = write.toNat := by
  unfold remoteWord
  rw [wGet_or, wGet_or, wGet_fieldIs_ne (f := F.LINK_RCMD_WORDS) (by decide) (by decide) (by decide)]
  cases write <;> decide

/-- The packet of a request (R325): its TYPE, and that it is not urgent. -/
theorem remotePacket_type (s : State) (d : Nat) (write : Bool) (words : Nat) :
    decide ((remotePacket s d (remoteWord write words)).ty = pkWrreq) = write ∧
      urgent (remotePacket s d (remoteWord write words)) = false := by
  unfold remotePacket urgent
  dsimp only
  rw [remoteWord_write]
  cases write
  · exact ⟨rfl, rfl⟩
  · exact ⟨rfl, rfl⟩

/-! ### The request under way -/

/-- The request of word `v` under way on port `d`. -/
def requested (s : State) (d : Nat) (v : Word) : State :=
  let t := setReg s (Reg.LINK_RCMD d) (v &&& 0x4000003F)
  let p := remotePacket t d v
  setFld (setLinkPort t d { linkPort t d with tag := ((linkPort t d).tag + 1) % 256, wait := some (p.tag, p.ty = pkWrreq) })
    (Reg.LINK_RSTAT d) F.LINK_RSTAT_BUSY 1

/-- The command register is not among those that describe the request. -/
theorem remotePacket_setReg (h : s.wf = true) (w : Word) : remotePacket (setReg s (Reg.LINK_RCMD d) w) d v = remotePacket s d v := by
  have hne (e o : Nat) (ho : o < 0xa4 ∨ 0xa8 ≤ o ∧ o < 0x1000) : regA e 0x68 o ≠ Reg.LINK_RCMD d := by
    unfold Reg.LINK_RCMD regA
    omega
  have hdata (i : Nat) : Reg.LINK_RDATA d i ≠ Reg.LINK_RCMD d := by
    unfold Reg.LINK_RDATA Reg.LINK_RCMD regA
    omega
  have hdst : reg (setReg s (Reg.LINK_RCMD d) w) (Reg.LINK_RDST d) = reg s (Reg.LINK_RDST d) := reg_setReg_ne h (hne d _ (by decide)) w
  have hcfg : reg (setReg s (Reg.LINK_RCMD d) w) (Reg.LINK_CFG d) = reg s (Reg.LINK_CFG d) := reg_setReg_ne h (hne d _ (by decide)) w
  have hid : reg (setReg s (Reg.LINK_RCMD d) w) (Reg.LINK_ID 0) = reg s (Reg.LINK_ID 0) := reg_setReg_ne h (hne 0 _ (by decide)) w
  have hlo : reg (setReg s (Reg.LINK_RCMD d) w) (Reg.LINK_RADDR_LO d) = reg s (Reg.LINK_RADDR_LO d) :=
    reg_setReg_ne h (hne d _ (by decide)) w
  have hhi : reg (setReg s (Reg.LINK_RCMD d) w) (Reg.LINK_RADDR_HI d) = reg s (Reg.LINK_RADDR_HI d) :=
    reg_setReg_ne h (hne d _ (by decide)) w
  have hrdata (i : Nat) : reg (setReg s (Reg.LINK_RCMD d) w) (Reg.LINK_RDATA d i) = reg s (Reg.LINK_RDATA d i) :=
    reg_setReg_ne h (hdata i) w
  have hport : linkPort (setReg s (Reg.LINK_RCMD d) w) d = linkPort s d := rfl
  unfold remotePacket ownHops linkId
  simp only [bitF_of_reg hdst, fld_of_reg hdst, fld_of_reg hcfg, fld_of_reg hid, hlo, fld_of_reg hhi, hrdata, hport]

/-- The request `p` under way: its tag is awaited, BUSY is set, and the queues are as they were. -/
structure RequestOut (d : Nat) (p : Packet) (write : Bool) (s t : State) : Prop where
  wf : t.wf = true
  port : linkPort t d = { linkPort s d with tag := ((linkPort s d).tag + 1) % 256, wait := some (p.tag, write) }
  other : ∀ e, e ≠ d → linkPort t e = linkPort s e
  busy : bitF t (Reg.LINK_RSTAT d) F.LINK_RSTAT_BUSY = true
  rest : { t with regs := s.regs, link := s.link } = s
  regs : RegsBut s t [Reg.LINK_RCMD d, Reg.LINK_RSTAT d]

theorem requested_out (h : s.wf = true) (write : Bool) (words : Nat) :
    RequestOut d (remotePacket s d (remoteWord write words)) write s (requested s d (remoteWord write words)) := by
  have hset : (setReg s (Reg.LINK_RCMD d) (remoteWord write words &&& 0x4000003F)).wf = true := State.wf_setReg h _ _
  have hpacket := remotePacket_setReg (d := d) (v := remoteWord write words) h (remoteWord write words &&& 0x4000003F)
  have hsame (e : Nat) : linkPort (setReg s (Reg.LINK_RCMD d) (remoteWord write words &&& 0x4000003F)) e = linkPort s e := rfl
  obtain ⟨htype, -⟩ := remotePacket_type s d write words
  unfold requested
  dsimp only
  rw [hpacket, htype, hsame]
  have hport : (setLinkPort (setReg s (Reg.LINK_RCMD d) (remoteWord write words &&& 0x4000003F)) d { linkPort s d with
      tag := ((linkPort s d).tag + 1) % 256, wait := some ((remotePacket s d (remoteWord write words)).tag, write) }).wf = true :=
    State.wf_setLinkPort hset _ _
  refine ⟨State.wf_setFld hport _ _ _, (linkPort_setFld _ _ _ _ _).trans (linkPort_setLinkPort_same hset _ _),
    fun e he => (linkPort_setFld _ _ _ _ _).trans (setLinkPort_same_other hset he), bitF_setFld_one hport _ (by decide) (by decide), rfl, fun r hr => ?_⟩
  simp only [List.mem_cons, List.not_mem_nil, or_false, not_or] at hr
  exact (reg_setFld_ne hport hr.2 _ _).trans (reg_setReg_ne h hr.1 _)

namespace RequestOut

variable (h : RequestOut d p write s t)
include h

theorem queue_eq (e : Nat) : (linkPort t e).queue = (linkPort s e).queue ∧ (linkPort t e).heldPk = (linkPort s e).heldPk ∧
    (linkPort t e).own = (linkPort s e).own := by
  by_cases he : e = d
  · subst he
    rw [h.port]
    exact ⟨rfl, rfl, rfl⟩
  · rw [h.other e he]
    exact ⟨rfl, rfl, rfl⟩

/-- Registers of the link page below the command. -/
theorem page (e : Nat) {o : Nat} (ho : o < 0xa4) : reg t (regA e 0x68 o) = reg s (regA e 0x68 o) := by
  refine h.regs _ ?_
  simp only [Reg.LINK_RCMD, Reg.LINK_RSTAT, regA, List.mem_cons, List.not_mem_nil, or_false, not_or]
  omega

theorem linkId_eq : linkId t = linkId s := fld_of_reg (h.page 0 (by decide)) _

theorem linkUp_eq (e : Nat) : linkUp t e = linkUp s e := by
  have hlive : domLive t e pdLink = domLive s e pdLink := (congrArg (domLive · e pdLink) h.rest :)
  have hstat : fld t (Reg.LINK_STAT e) F.LINK_STAT_STATE = fld s (Reg.LINK_STAT e) F.LINK_STAT_STATE :=
    fld_of_reg (h.page e (by decide)) _
  unfold linkUp
  rw [hstat, hlive]

theorem part_eq : t.part = s.part := (congrArg State.part h.rest :)

theorem routePort_eq (dst : Nat) : routePort t dst = routePort s dst := by
  have htab (k : Nat) : tab t tRoute 0 k = tab s tRoute 0 k := (congrArg (tab · tRoute 0 k) h.rest :)
  have hcopy : routeCopy t = routeCopy s := fld_of_reg (h.page 0 (by decide)) _
  unfold routePort routeOf
  simp only [htab, hcopy, h.linkId_eq, h.linkUp_eq, h.part_eq]

theorem holdTicks_eq (e : Nat) (q : Packet) : holdTicks t e q = holdTicks s e q := by
  have hmoved : t.linkDev = s.linkDev := (congrArg State.linkDev h.rest :)
  obtain ⟨-, hheld, -⟩ := h.queue_eq e
  unfold holdTicks routeKey
  rw [hheld, hmoved, h.linkId_eq]

end RequestOut

end Sys2Proof.Machine
end

section
/-! PROOFS. GO of LINK_RCMD: where the request goes (R325–R327). -/
namespace Sys2Proof.Machine

variable {s t u : State} {d e : Nat} {a : Access} {p : Packet} {v : Word} {words : Nat} {write fast : Bool}

/-! ### A broadcast on the ports -/

/-- `u` is `t` with packets in queues of ports. -/
structure QueuesOnly (t u : State) : Prop where
  wf : u.wf = true
  rest : { u with link := t.link } = t
  port : ∀ e, ∃ q, linkPort u e = { linkPort t e with queue := q }

namespace QueuesOnly

theorem refl (h : t.wf = true) : QueuesOnly t t := ⟨h, rfl, fun _ => ⟨_, rfl⟩⟩

theorem portSend (h : QueuesOnly t u) (e : Nat) (p : Packet) (fast : Bool) : QueuesOnly t (portSend u e p fast) := by
  refine ⟨State.wf_setLinkPort h.wf _ _, h.rest, fun e' => ?_⟩
  obtain ⟨q, hq⟩ := h.port e'
  by_cases he : e' = e
  · subst he
    exact ⟨_, (linkPort_setLinkPort_same h.wf _ _).trans (by rw [hq])⟩
  · exact ⟨q, (setLinkPort_same_other h.wf he).trans hq⟩

theorem linkUp_eq (h : QueuesOnly t u) (e : Nat) : linkUp u e = linkUp t e := (congrArg (linkUp · e) h.rest :)

end QueuesOnly

/-- The step of a broadcast on one port (R322). -/
def bcastStep (p : Packet) (fast : Bool) (e : Nat) (t : State) : State :=
  let near := fld t (Reg.LINK_PARTNER e) F.LINK_PARTNER_DEVID / 256 = linkId t / 256
  if linkUp t e && (p.scope || near) then portSend t e p fast else t

theorem deviceSend_bcast (hb : p.bcast = true) : deviceSend s d p fast = each (dies s) (bcastStep p fast) (noteSeen s p) := by
  unfold deviceSend
  rw [if_pos hb]
  rfl

theorem QueuesOnly.bcastStep (h : QueuesOnly t u) (p : Packet) (fast : Bool) (e : Nat) : QueuesOnly t (bcastStep p fast e u) := by
  unfold Machine.bcastStep
  dsimp only
  split
  · exact h.portSend e p fast
  · exact h

theorem linkPort_bcastStep_ne (h : t.wf = true) {e e' : Nat} (he : e' ≠ e) : linkPort (bcastStep p fast e t) e' = linkPort t e' := by
  unfold bcastStep
  dsimp only
  split
  · exact setLinkPort_same_other h he
  · rfl

/-- A broadcast with SCOPE joins the queue of every port that is UP (R322). -/
theorem bcast_queues (h : t.wf = true) (p : Packet) (fast : Bool) (n : Nat) :
    QueuesOnly t (each (List.range n) (bcastStep p fast) t) ∧ ∀ e, e < n → linkUp t e = true → p.scope = true →
      (linkPort (each (List.range n) (bcastStep p fast) t) e).queue = placePacket (linkPort t e).queue p fast := by
  constructor
  · exact each_keeps (P := QueuesOnly t) _ _ (fun e _ _ hu => hu.bcastStep p fast e) (.refl h)
  · intro e he hup hscope
    have hend : QueuesOnly t (each (List.range n) (bcastStep p fast) t) ∧
        (linkPort (each (List.range n) (bcastStep p fast) t) e).queue = placePacket (linkPort t e).queue p fast := by
      refine each_once (P := fun u => QueuesOnly t u ∧ linkPort u e = linkPort t e) (x := e)
        (Q := fun u => QueuesOnly t u ∧ (linkPort u e).queue = placePacket (linkPort t e).queue p fast)
        List.nodup_range (List.mem_range.mpr he) (fun e' _ hne u hu => ?_) (fun u hu => ?_) (fun e' _ hne u hu => ?_) ⟨.refl h, rfl⟩
      · exact ⟨hu.1.bcastStep p fast e', (linkPort_bcastStep_ne hu.1.wf hne.symm).trans hu.2⟩
      · refine ⟨hu.1.bcastStep p fast e, ?_⟩
        unfold bcastStep
        dsimp only
        rw [hu.1.linkUp_eq, hup, hscope, Bool.true_or, Bool.true_and, if_pos rfl]
        unfold portSend
        dsimp only
        rw [linkPort_setLinkPort_same hu.1.wf, hu.2]
      · exact ⟨hu.1.bcastStep p fast e', by rw [linkPort_bcastStep_ne hu.1.wf hne.symm]; exact hu.2⟩
    exact hend.2

/-! ### GO -/

theorem backLinkRegs_setLinkPort (h : { t with regs := s.regs, link := s.link } = s) (d : Nat) (x : LinkPort) :
    { setLinkPort t d x with regs := s.regs, link := s.link } = s := h

/-- The state with the record of the device in place of the old one. -/
def setLinkDev (s : State) (x : LinkDev) : State := { s with linkDev := x }

theorem setLinkDev_back (h : { t with regs := s.regs, link := s.link } = s) (x : LinkDev) :
    { setLinkDev t x with regs := s.regs, link := s.link, linkDev := s.linkDev } = s :=
  (congrArg (fun y : State => { y with linkDev := s.linkDev }) h :)

theorem setLinkDev_fields (s : State) (x : LinkDev) : ((setLinkDev s x).wf = s.wf) ∧ (∀ e, linkPort (setLinkDev s x) e = linkPort s e) ∧
    (∀ e, linkUp (setLinkDev s x) e = linkUp s e) ∧ ∀ r, reg (setLinkDev s x) r = reg s r :=
  ⟨rfl, fun _ => rfl, fun _ => rfl, fun _ => rfl⟩

theorem noteSeen_eq (s : State) (p : Packet) :
    noteSeen s p = setLinkDev s { s.linkDev with seen := ((p.src, p.tag) :: s.linkDev.seen).take 64 } := rfl

/-- The request under way sent, and ended where it has no response to wait for (R325). -/
def remoteSent (t : State) (d : Nat) (p : Packet) : State :=
  let u := deviceSend t d p false
  if p.bcast then (if p.ty = pkWrreq then engineDone u d 0 [] else u)
  else if p.dst ≠ linkId t && (routePort t p.dst).isNone then engineDone u d 3 []
  else u

theorem remoteCmdWrite_cases (s : State) (d : Nat) (v : Word) :
    remoteCmdWrite s d v =
      if !v.getLsbD 31 then setReg s (Reg.LINK_RCMD d) (v &&& 0x4000003F)
      else if (linkPort s d).wait.isSome then setFld s (Reg.LINK_STAT d) F.LINK_STAT_CFGREJ 1
      else remoteSent (requested s d v) d (remotePacket (setReg s (Reg.LINK_RCMD d) (v &&& 0x4000003F)) d v) := rfl

theorem remoteCmdWrite_go (h : s.wf = true) (hgo : v.getLsbD 31 = true) (hwait : (linkPort s d).wait = none) :
    remoteCmdWrite s d v = remoteSent (requested s d v) d (remotePacket s d v) := by
  have hport : (linkPort s d).wait.isSome = false := by rw [hwait]; rfl
  rw [remoteCmdWrite_cases, hgo, hport, remotePacket_setReg h]
  rfl

theorem linkRemoteGo_exec (h : reachesReg s a (Reg.LINK_RCMD d) = true) (write : Bool) (words : Nat) :
    exec (.linkRemoteGo a d write words) s = .next (remoteCmdWrite s d (remoteWord write words)).answered :=
  regCmd_taken h (by decide) (by decide) rfl rfl rfl

theorem remotePacket_bcast (hb : bitF s (Reg.LINK_RDST d) F.LINK_RDST_BCAST = true) : (remotePacket s d v).bcast = true := hb

theorem remotePacket_direct (hb : bitF s (Reg.LINK_RDST d) F.LINK_RDST_BCAST = false) : (remotePacket s d v).bcast = false := hb

/-! ### Where the request goes -/

variable (hout : RequestOut d p write s t)

/-- What is left of the die around a request that was sent: its registers, queues and tag. -/
structure RequestSent (d : Nat) (p : Packet) (write : Bool) (s t : State) : Prop where
  tag : (linkPort t d).tag = ((linkPort s d).tag + 1) % 256
  busy : bitF t (Reg.LINK_RSTAT d) F.LINK_RSTAT_BUSY = true
  wait : (linkPort t d).wait = some (p.tag, write)
  rest : { t with regs := s.regs, link := s.link } = s
  regs : RegsBut s t [Reg.LINK_RCMD d, Reg.LINK_RSTAT d]

include hout

theorem deviceSend_routed (hbc : p.bcast = false) (hdst : p.dst ≠ linkId s) (hroute : routePort s p.dst = some e) (hhold : holdTicks s e p = 0)
    (hfree : ((linkPort s e).heldPk.any fun q => q.1.src = p.src && q.1.dst = p.dst) = false) :
    deviceSend t d p false = portSend t e p false := by
  obtain ⟨-, hheld, -⟩ := hout.queue_eq e
  unfold deviceSend routeSend
  rw [hbc, hout.linkId_eq, hout.routePort_eq, hroute]
  simp only [Bool.false_eq_true, if_false, if_neg hdst]
  rw [hout.holdTicks_eq, hhold, hheld, hfree]
  simp

/-- A request with a route joins the queue of its port. -/
theorem remoteSent_routed (hurgent : urgent p = false) (hbc : p.bcast = false) (hdst : p.dst ≠ linkId s) (hroute : routePort s p.dst = some e)
    (hhold : holdTicks s e p = 0) (hfree : ((linkPort s e).heldPk.any fun q => q.1.src = p.src && q.1.dst = p.dst) = false) :
    RequestSent d p write s (remoteSent t d p) ∧ (linkPort (remoteSent t d p) e).queue = (linkPort s e).queue ++ [p] := by
  obtain ⟨hqueue, -⟩ := hout.queue_eq e
  have hsent : remoteSent t d p = portSend t e p false := by
    unfold remoteSent
    rw [deviceSend_routed hout hbc hdst hroute hhold hfree, hbc, hout.routePort_eq, hroute]
    simp
  have hq := (QueuesOnly.refl hout.wf).portSend e p false
  obtain ⟨q, hport⟩ := hq.port d
  have hjoined : (linkPort (portSend t e p false) e).queue = (linkPort s e).queue ++ [p] := by
    unfold portSend placePacket
    dsimp only
    rw [linkPort_setLinkPort_same hout.wf, hurgent, hqueue]
    rfl
  have hregs (r : Nat) : reg (portSend t e p false) r = reg t r := (congrArg (reg · r) hq.rest :)
  have hback : { portSend t e p false with regs := s.regs, link := s.link } = s :=
    (congrArg (fun x : State => { x with regs := s.regs, link := s.link }) hq.rest :).trans hout.rest
  rw [hsent]
  generalize portSend t e p false = w at hport hjoined hregs hback
  rw [hout.port] at hport
  exact ⟨⟨(congrArg LinkPort.tag hport :), (bitF_of_reg (hregs _) _).trans hout.busy, (congrArg LinkPort.wait hport :), hback,
    fun r hr => (hregs r).trans (hout.regs r hr)⟩, hjoined⟩

/-- A request to the device itself joins its own packets. -/
theorem remoteSent_own (hbc : p.bcast = false) (hdst : p.dst = linkId s) :
    RequestSent d p write s (remoteSent t d p) ∧ (linkPort (remoteSent t d p) d).own = (linkPort s d).own ++ [p] := by
  have hsent : remoteSent t d p = setLinkPort t d { linkPort t d with own := (linkPort t d).own ++ [p] } := by
    unfold remoteSent deviceSend
    rw [hbc, hout.linkId_eq, hdst]
    simp
  have hport := linkPort_setLinkPort_same hout.wf d { linkPort t d with own := (linkPort t d).own ++ [p] }
  have hback : { setLinkPort t d { linkPort t d with own := (linkPort t d).own ++ [p] } with regs := s.regs, link := s.link } = s :=
    backLinkRegs_setLinkPort hout.rest d _
  have hregs (r : Nat) : reg (setLinkPort t d { linkPort t d with own := (linkPort t d).own ++ [p] }) r = reg t r := reg_setLinkPort _ _ _ _
  rw [hsent]
  generalize setLinkPort t d { linkPort t d with own := (linkPort t d).own ++ [p] } = w at hport hregs hback
  rw [hout.port] at hport
  exact ⟨⟨(congrArg LinkPort.tag hport :), (bitF_of_reg (hregs _) _).trans hout.busy, (congrArg LinkPort.wait hport :), hback,
    fun r hr => (hregs r).trans (hout.regs r hr)⟩, (congrArg LinkPort.own hport :)⟩

omit hout

/-- What is left of the die around a request that ended at once. -/
structure RequestOver (d status : Nat) (s t : State) : Prop where
  tag : (linkPort t d).tag = ((linkPort s d).tag + 1) % 256
  busy : bitF t (Reg.LINK_RSTAT d) F.LINK_RSTAT_BUSY = false
  done : bitF t (Reg.LINK_RSTAT d) F.LINK_RSTAT_DONE = true
  status : fld t (Reg.LINK_RSTAT d) F.LINK_RSTAT_STATUS = status
  wait : (linkPort t d).wait = none

/-- The end of a request on a die whose port still waits for it. -/
theorem RequestEnded.over {status : Nat} (h : RequestEnded d status t u) {x : LinkPort} (hport : linkPort t d = x)
    (htag : x.tag = ((linkPort s d).tag + 1) % 256) : RequestOver d status s u :=
  ⟨(congrArg LinkPort.tag h.port :).trans ((congrArg LinkPort.tag hport :).trans htag), h.busy, h.done, h.status, (congrArg LinkPort.wait h.port :)⟩

/-- A packet dropped at port `d` counts in its DROP, and the rest stays. -/
structure Dropped (d : Nat) (s t : State) : Prop where
  wf : t.wf = true
  port : ∀ e, linkPort t e = linkPort s e
  rest : { t with regs := s.regs } = s
  count : fld t (Reg.LINK_PERR d) F.LINK_PERR_DROP = (fld s (Reg.LINK_PERR d) F.LINK_PERR_DROP + 1) % 2 ^ 16
  regs : RegsBut s t [Reg.LINK_PERR d]

theorem countDrop_dropped (h : s.wf = true) (d : Nat) : Dropped d s (countDrop s d) :=
  ⟨State.wf_setFld h _ _ _, fun _ => linkPort_setFld _ _ _ _ _, rfl, fld_setFld_same h _ (by decide) (by decide) _,
    fun _ hr => reg_setFld_ne h (by simpa using hr) _ _⟩

include hout

/-- A request without a route ends at once with status 3. -/
theorem remoteSent_lost (hbc : p.bcast = false) (hdst : p.dst ≠ linkId s) (hroute : routePort s p.dst = none) :
    RequestOver d 3 s (remoteSent t d p) ∧
      fld (remoteSent t d p) (Reg.LINK_PERR d) F.LINK_PERR_DROP = (fld s (Reg.LINK_PERR d) F.LINK_PERR_DROP + 1) % 2 ^ 16 ∧
      { remoteSent t d p with regs := s.regs, link := s.link } = s ∧
      RegsBut s (remoteSent t d p) [Reg.LINK_RCMD d, Reg.LINK_RSTAT d, Reg.LINK_PERR d] := by
  have hsent : remoteSent t d p = engineDone (countDrop t d) d 3 [] := by
    unfold remoteSent deviceSend
    rw [hbc, hout.linkId_eq, hout.routePort_eq, hroute]
    simp [hdst]
  have hdrop := countDrop_dropped hout.wf d
  have hbefore : fld t (Reg.LINK_PERR d) F.LINK_PERR_DROP = fld s (Reg.LINK_PERR d) F.LINK_PERR_DROP := fld_of_reg (hout.page d (by decide)) _
  have hperr : Reg.LINK_PERR d ≠ Reg.LINK_RSTAT d := by
    unfold Reg.LINK_PERR Reg.LINK_RSTAT regA
    omega
  rw [hsent]
  generalize countDrop t d = w at hdrop
  have hended := engineDone_ended (d := d) (status := 3) hdrop.wf (by decide)
  generalize engineDone w d 3 [] = x at hended
  have hback : { w with regs := s.regs, link := s.link } = s :=
    (congrArg (fun y : State => { y with regs := s.regs, link := s.link }) hdrop.rest :).trans hout.rest
  refine ⟨hended.over ((hdrop.port d).trans hout.port) rfl, ?_, (congrArg (fun y : State => { y with regs := s.regs, link := s.link }) hended.rest :).trans hback,
    fun r hr => ?_⟩
  · rw [← hbefore, ← hdrop.count]
    exact fld_of_reg (hended.regs _ (by simpa using hperr)) _
  · simp only [List.mem_cons, List.not_mem_nil, or_false, not_or] at hr
    obtain ⟨hcmd, hstat, hpe⟩ := hr
    exact (hended.regs r (by simpa using hstat)).trans ((hdrop.regs r (by simpa using hpe)).trans (hout.regs r (by simp [hcmd, hstat])))

/-- A broadcast write ends at once with status 0, and joins the queues of the ports that are UP. -/
theorem remoteSent_bcast (hurgent : urgent p = false) (hbc : p.bcast = true) (htype : p.ty = pkWrreq) :
    RequestOver d 0 s (remoteSent t d p) ∧
      (∀ e, e < dieCount s.part → linkUp s e = true → p.scope = true → (linkPort (remoteSent t d p) e).queue = (linkPort s e).queue ++ [p]) ∧
      { remoteSent t d p with regs := s.regs, link := s.link, linkDev := s.linkDev } = s ∧
      RegsBut s (remoteSent t d p) [Reg.LINK_RCMD d, Reg.LINK_RSTAT d] := by
  have hsent : remoteSent t d p = engineDone (each (List.range (dieCount s.part)) (bcastStep p false) (noteSeen t p)) d 0 [] := by
    unfold remoteSent
    rw [deviceSend_bcast hbc, if_pos hbc, if_pos htype, ← hout.part_eq]
    rfl
  obtain ⟨hwf, hports, hup, hregs⟩ := setLinkDev_fields t { t.linkDev with seen := ((p.src, p.tag) :: t.linkDev.seen).take 64 }
  have hseen := setLinkDev_back hout.rest { t.linkDev with seen := ((p.src, p.tag) :: t.linkDev.seen).take 64 }
  rw [← noteSeen_eq] at hwf hports hup hregs hseen
  have hw := hwf.trans hout.wf
  rw [hsent]
  clear hwf hsent
  generalize noteSeen t p = w at hw hports hup hregs hseen
  obtain ⟨hqueues, hjoin⟩ := bcast_queues hw p false (dieCount s.part)
  generalize each (List.range (dieCount s.part)) (bcastStep p false) w = x at hqueues hjoin
  have hended := engineDone_ended (d := d) (status := 0) hqueues.wf (by decide)
  obtain ⟨q, hq⟩ := hqueues.port d
  have hrest : { x with regs := s.regs, link := s.link, linkDev := s.linkDev } = s :=
    (congrArg (fun z : State => { z with regs := s.regs, link := s.link, linkDev := s.linkDev }) hqueues.rest :).trans hseen
  have hxregs (r : Nat) : reg x r = reg w r := (congrArg (reg · r) hqueues.rest :)
  generalize engineDone x d 0 [] = y at hended
  refine ⟨hended.over (hq.trans (by rw [hports, hout.port])) rfl, fun e he hlinkUp hscope => ?_,
    (congrArg (fun z : State => { z with regs := s.regs, link := s.link, linkDev := s.linkDev }) hended.rest :).trans hrest, fun r hr => ?_⟩
  · have hqueue : (linkPort y e).queue = (linkPort x e).queue := by
      by_cases hed : e = d
      · subst hed
        rw [hended.port]
      · rw [hended.other e hed]
    have hplace : placePacket (linkPort s e).queue p false = (linkPort s e).queue ++ [p] := by
      unfold placePacket
      rw [hurgent]
      rfl
    obtain ⟨hsame, -⟩ := hout.queue_eq e
    rw [← hplace, ← hsame, ← hports e]
    exact hqueue.trans (hjoin e he ((hup e).trans ((hout.linkUp_eq e).trans hlinkUp)) hscope)
  · have hr' := hr
    simp only [List.mem_cons, List.not_mem_nil, or_false, not_or] at hr'
    exact (hended.regs r (by simpa using hr'.2)).trans ((hxregs r).trans ((hregs r).trans (hout.regs r hr)))

omit hout

/-! ### GO of LINK_RCMD -/

/-- GO on a die whose port waits for nothing. -/
theorem linkRemoteGo_sent (h : reachesReg s a (Reg.LINK_RCMD d) = true) (hwait : (linkPort s d).wait = none) (write : Bool) (words : Nat) :
    ∃ t, RequestOut d (remotePacket s d (remoteWord write words)) write s t ∧
      exec (.linkRemoteGo a d write words) s = .next (remoteSent t d (remotePacket s d (remoteWord write words))).answered := by
  have hw := reachesReg_wf h
  refine ⟨_, requested_out hw write words, ?_⟩
  rw [linkRemoteGo_exec h, remoteCmdWrite_go hw (remoteWord_go _ _) hwait]

/-- A GO while a request is outstanding is refused (R326). -/
theorem linkRemoteGo_refused (h : reachesReg s a (Reg.LINK_RCMD d) = true) (hwait : (linkPort s d).wait.isSome = true) (write : Bool) (words : Nat) :
    exec (.linkRemoteGo a d write words) s = .next (setFld s (Reg.LINK_STAT d) F.LINK_STAT_CFGREJ 1).answered := by
  rw [linkRemoteGo_exec h, remoteCmdWrite_cases, remoteWord_go, hwait]
  rfl

end Sys2Proof.Machine
end

section
/-! PROOFS. GO of LINK_START and the ports that wait for its number (R328). -/
namespace Sys2Proof.Machine

variable {s t u : State} {d e m src num : Nat} {a : Access} {p : Packet} {trig : Trig} {ok : Nat → Nat → Bool}

/-! ### Ports that wait for a trigger -/

/-- `t` is `s` with other port states. -/
structure SapsOnly (s t : State) : Prop where
  wf : t.wf = true
  rest : { t with saps := s.saps } = s

namespace SapsOnly

theorem refl (h : s.wf = true) : SapsOnly s s := ⟨h, rfl⟩

theorem setSap (h : SapsOnly s t) (d m : Nat) (x : SapPort) : SapsOnly s (setSap t d m x) := ⟨State.wf_setSap h.wf d m x, h.rest⟩

theorem sapState_eq (h : SapsOnly s t) (d m : Nat) : sapState t d m = sapState s d m := (congrArg (sapState · d m) h.rest :)

theorem sapCfg_eq (h : SapsOnly s t) (d m : Nat) (f : Fld) : sapCfg t d m f = sapCfg s d m f := (congrArg (sapCfg · d m f) h.rest :)

end SapsOnly

/-- One port at a trigger of source `src`. -/
def trigStep (src : Nat) (ok : Nat → Nat → Bool) (trig : Trig) (d m : Nat) (u : State) : State :=
  if sapState u d m = sapArmed && sapCfg u d m F.SAP_CFG_TSRC = src && (sap u d m).trig = .idle && ok d m then
    setSap u d m { sap u d m with trig := trig } else u

theorem sapTrigAll_eq (s : State) (src : Nat) (ok : Nat → Nat → Bool) (trig : Trig) :
    sapTrigAll s src ok trig = each (dies s) (fun d t => each (List.range 10) (trigStep src ok trig d) t) s := rfl

theorem SapsOnly.trigStep (h : SapsOnly s t) (src : Nat) (ok : Nat → Nat → Bool) (trig : Trig) (d m : Nat) :
    SapsOnly s (trigStep src ok trig d m t) := by
  unfold Machine.trigStep
  split
  · exact h.setSap d m _
  · exact h

theorem SapsOnly.trigDie (h : SapsOnly s t) (src : Nat) (ok : Nat → Nat → Bool) (trig : Trig) (d : Nat) :
    SapsOnly s (each (List.range 10) (Machine.trigStep src ok trig d) t) :=
  each_keeps (P := SapsOnly s) _ _ (fun m _ _ hu => hu.trigStep src ok trig d m) h

theorem sapTrigAll_sapsOnly (h : s.wf = true) (src : Nat) (ok : Nat → Nat → Bool) (trig : Trig) :
    SapsOnly s (sapTrigAll s src ok trig) := by
  rw [sapTrigAll_eq]
  exact each_keeps (P := SapsOnly s) _ _ (fun d _ _ hu => hu.trigDie src ok trig d) (.refl h)

theorem sap_trigStep_ne (h : t.wf = true) {d' m' : Nat} (hne : d' * 10 + m' ≠ d * 10 + m) :
    sap (trigStep src ok trig d' m' t) d m = sap t d m := by
  unfold trigStep
  split
  · exact smGet_smSet_ne (State.wf_saps h) hne.symm _
  · rfl

/-- The other ports keep what they had. -/
theorem sap_trigDie_ne (h : t.wf = true) {d' : Nat} (hm : m < 10) (hne : d' ≠ d) :
    sap (each (List.range 10) (trigStep src ok trig d') t) d m = sap t d m := by
  have hkeep : SapsOnly t (each (List.range 10) (trigStep src ok trig d') t) ∧
      sap (each (List.range 10) (trigStep src ok trig d') t) d m = sap t d m := by
    refine each_keeps (P := fun u => SapsOnly t u ∧ sap u d m = sap t d m) _ _ (fun m' hm' u hu => ?_) ⟨.refl h, rfl⟩
    have hlt := List.mem_range.mp hm'
    exact ⟨hu.1.trigStep src ok trig d' m', (sap_trigStep_ne hu.1.wf (by omega)).trans hu.2⟩
  exact hkeep.2

/-- A port that waits for the trigger has it. -/
theorem sap_trigDie (h : t.wf = true) (hm : m < 10) (hstate : sapState t d m = sapArmed) (hsrc : sapCfg t d m F.SAP_CFG_TSRC = src)
    (hidle : (sap t d m).trig = .idle) (hok : ok d m = true) :
    (sap (each (List.range 10) (trigStep src ok trig d) t) d m).trig = trig := by
  have hends : SapsOnly t (each (List.range 10) (trigStep src ok trig d) t) ∧
      (sap (each (List.range 10) (trigStep src ok trig d) t) d m).trig = trig := by
    refine each_once (P := fun u => SapsOnly t u ∧ sap u d m = sap t d m) (x := m) (Q := fun u => SapsOnly t u ∧ (sap u d m).trig = trig)
      List.nodup_range (List.mem_range.mpr hm) (fun m' _ hne u hu => ?_) (fun u hu => ?_) (fun m' _ hne u hu => ?_) ⟨.refl h, rfl⟩
    · exact ⟨hu.1.trigStep src ok trig d m', (sap_trigStep_ne hu.1.wf (by omega)).trans hu.2⟩
    · refine ⟨hu.1.trigStep src ok trig d m, ?_⟩
      unfold trigStep
      rw [hu.1.sapState_eq, hu.1.sapCfg_eq, hu.2, hstate, hsrc, hidle, hok]
      simp only [decide_true, Bool.and_self, if_true]
      exact congrArg SapPort.trig (sap_setSap_same hu.1.wf _ _ _)
    · exact ⟨hu.1.trigStep src ok trig d m', by rw [sap_trigStep_ne hu.1.wf (by omega)]; exact hu.2⟩
  exact hends.2

theorem sapTrigAll_waiting (h : s.wf = true) (hd : d < dieCount s.part) (hm : m < 10) (hstate : sapState s d m = sapArmed)
    (hsrc : sapCfg s d m F.SAP_CFG_TSRC = src) (hidle : (sap s d m).trig = .idle) (hok : ok d m = true) :
    (sap (sapTrigAll s src ok trig) d m).trig = trig := by
  rw [sapTrigAll_eq]
  have hends : SapsOnly s (each (dies s) (fun d t => each (List.range 10) (trigStep src ok trig d) t) s) ∧
      (sap (each (dies s) (fun d t => each (List.range 10) (trigStep src ok trig d) t) s) d m).trig = trig := by
    refine each_once (P := fun u => SapsOnly s u ∧ sap u d m = sap s d m) (x := d) (Q := fun u => SapsOnly s u ∧ (sap u d m).trig = trig)
      List.nodup_range (List.mem_range.mpr hd) (fun d' _ hne u hu => ?_) (fun u hu => ?_) (fun d' _ hne u hu => ?_) ⟨.refl h, rfl⟩
    · exact ⟨hu.1.trigDie src ok trig d', (sap_trigDie_ne hu.1.wf hm hne).trans hu.2⟩
    · exact ⟨hu.1.trigDie src ok trig d, sap_trigDie hu.1.wf hm ((hu.1.sapState_eq d m).trans hstate) ((hu.1.sapCfg_eq d m _).trans hsrc)
        (by rw [hu.2]; exact hidle) hok⟩
    · exact ⟨hu.1.trigDie src ok trig d', by rw [sap_trigDie_ne hu.1.wf hm hne]; exact hu.2⟩
  exact hends.2

end Sys2Proof.Machine
end

section
/-! PROOFS. GO of LINK_START: the message and the ports it starts (R328). -/
namespace Sys2Proof.Machine

variable {s t u : State} {d e m num : Nat} {a : Access} {p : Packet} {v : Word}

/-- The word that GO of LINK_START writes. -/
def startWord (num : Nat) : Word := 0x80000000 ||| fieldIs F.LINK_START_NUM num

theorem startWord_go (num : Nat) : (startWord num).getLsbD 31 = true := by
  unfold startWord
  rw [BitVec.getLsbD_or]
  rfl

theorem startWord_num (hn : num < 16) : wGet (startWord num) F.LINK_START_NUM = num := by
  unfold startWord
  rw [wGet_or, wGet_fieldIs_same (by decide) (by decide)]
  exact (Nat.zero_or _).trans (Nat.mod_eq_of_lt hn)

/-- The START message of a die (R328). -/
def startPacket (t : State) (d num : Nat) : Packet :=
  { ty := pkStart, bcast := true, scope := true, hops := ownHops t d, words := 2, dst := 0, src := linkId t,
    tag := Config.freeNat t.fresh % 256, addr := 0, status := 0,
    data := [BitVec.ofNat 32 num, reg t (Reg.LINK_START_TP d)], bad := false }

/-- The state with its next free value taken. -/
def bumpFresh (s : State) : State := { s with fresh := s.fresh + 1 }

theorem startWrite_cases (s : State) (d : Nat) (v : Word) :
    startWrite s d v =
      if !v.getLsbD 31 then setFld s (Reg.LINK_START d) F.LINK_START_NUM (wGet v F.LINK_START_NUM)
      else startPorts (deviceSend (bumpFresh (setFld s (Reg.LINK_START d) F.LINK_START_NUM (wGet v F.LINK_START_NUM))) d
          (startPacket (setFld s (Reg.LINK_START d) F.LINK_START_NUM (wGet v F.LINK_START_NUM)) d (wGet v F.LINK_START_NUM)) false)
        (wGet v F.LINK_START_NUM)
        (reg (setFld s (Reg.LINK_START d) F.LINK_START_NUM (wGet v F.LINK_START_NUM)) (Reg.LINK_START_TP d)).toNat := rfl

/-- Only the number of LINK_START was written, and the message may be in the queues. -/
structure StartPage (d : Nat) (s t : State) : Prop where
  wf : t.wf = true
  rest : { t with regs := s.regs, link := s.link, linkDev := s.linkDev, fresh := s.fresh } = s
  regs : RegsBut s t [Reg.LINK_START d]

namespace StartPage

theorem reg_eq (h : StartPage d s t) {r : Nat} (hr : r ≠ Reg.LINK_START d) : reg t r = reg s r := h.regs r (by simpa using hr)

theorem page (h : StartPage d s t) (e : Nat) {o : Nat} (ho : o < 0x90 ∨ o = 0x94) : reg t (regA e 0x68 o) = reg s (regA e 0x68 o) := by
  refine h.reg_eq ?_
  simp only [Reg.LINK_START, regA]
  omega

theorem sapPage (h : StartPage d s t) (e : Nat) {m o : Nat} (hm : m < 10) (ho : o < 0x1000) : reg t (regA e (0x40 + m) o) = reg s (regA e (0x40 + m) o) := by
  refine h.reg_eq ?_
  simp only [Reg.LINK_START, regA]
  omega

theorem linkUp_eq (h : StartPage d s t) (e : Nat) : linkUp t e = linkUp s e := by
  have hlive : domLive t e pdLink = domLive s e pdLink := (congrArg (domLive · e pdLink) h.rest :)
  have hstat : fld t (Reg.LINK_STAT e) F.LINK_STAT_STATE = fld s (Reg.LINK_STAT e) F.LINK_STAT_STATE := fld_of_reg (h.page e (by decide)) _
  unfold linkUp
  rw [hstat, hlive]

theorem startTarget_eq (h : StartPage d s t) (low : Nat) : startTarget t low = startTarget s low := by
  have hphase : pulseRuns t = pulseRuns s := (congrArg pulseRuns h.rest :)
  have hlo : reg t (Reg.PULSE_COUNT_LO 0) = reg s (Reg.PULSE_COUNT_LO 0) :=
    h.reg_eq (by simp only [Reg.LINK_START, Reg.PULSE_COUNT_LO, regA]; omega)
  have hhi : reg t (Reg.PULSE_COUNT_HI 0) = reg s (Reg.PULSE_COUNT_HI 0) :=
    h.reg_eq (by simp only [Reg.LINK_START, Reg.PULSE_COUNT_HI, regA]; omega)
  unfold startTarget nextPulse pulseCount
  rw [hphase, hlo, hhi]

theorem sap_eq (h : StartPage d s t) (e m : Nat) : sap t e m = sap s e m := (congrArg (sap · e m) h.rest :)

theorem part_eq (h : StartPage d s t) : t.part = s.part := (congrArg State.part h.rest :)

theorem sapState_eq (h : StartPage d s t) (e : Nat) (hm : m < 10) : sapState t e m = sapState s e m :=
  fld_of_reg (h.sapPage e hm (by decide)) _

theorem sapCfg_eq (h : StartPage d s t) (e : Nat) (hm : m < 10) (f : Fld) : sapCfg t e m f = sapCfg s e m f :=
  fld_of_reg (h.sapPage e hm (by decide)) f

end StartPage

theorem bumpFresh_page (h : StartPage d s t) : StartPage d s (bumpFresh t) := ⟨h.wf, h.rest, h.regs⟩

theorem noteSeen_page (h : StartPage d s t) (p : Packet) : StartPage d s (noteSeen t p) := by
  rw [noteSeen_eq]
  obtain ⟨hwf, -, -, hregs⟩ := setLinkDev_fields t { t.linkDev with seen := ((p.src, p.tag) :: t.linkDev.seen).take 64 }
  generalize ({ t.linkDev with seen := ((p.src, p.tag) :: t.linkDev.seen).take 64 } : LinkDev) = x at hwf hregs
  exact ⟨hwf.trans h.wf, h.rest, fun r hr => (hregs r).trans (h.regs r hr)⟩

theorem setNum_page (h : s.wf = true) (d num : Nat) : StartPage d s (setFld s (Reg.LINK_START d) F.LINK_START_NUM num) :=
  ⟨State.wf_setFld h _ _ _, rfl, fun _ hr => reg_setFld_ne h (by simpa using hr) _ _⟩

theorem QueuesOnly.page (h : StartPage d s t) (hq : QueuesOnly t u) : StartPage d s u :=
  ⟨hq.wf, (congrArg (fun x : State => { x with regs := s.regs, link := s.link, linkDev := s.linkDev, fresh := s.fresh }) hq.rest :).trans h.rest,
    fun r hr => (congrArg (reg · r) hq.rest :).trans (h.regs r hr)⟩

/-- The message joins the queue of every port that is UP, before what is not urgent. -/
theorem deviceSend_start (h : StartPage d s t) (hlink : ∀ e, linkPort t e = linkPort s e) (hbc : p.bcast = true) (hscope : p.scope = true)
    (hurgent : urgent p = true) :
    StartPage d s (deviceSend t d p false) ∧ (∀ r, reg (deviceSend t d p false) r = reg t r) ∧
      ∀ e, e < dieCount s.part → linkUp s e = true → (linkPort (deviceSend t d p false) e).queue =
        (linkPort s e).queue.takeWhile urgent ++ [p] ++ (linkPort s e).queue.dropWhile urgent := by
  have hdies : dies t = List.range (dieCount s.part) := by rw [dies, h.part_eq]
  obtain ⟨-, hports, -, hregs⟩ := setLinkDev_fields t { t.linkDev with seen := ((p.src, p.tag) :: t.linkDev.seen).take 64 }
  have hseen := noteSeen_page h p
  rw [← noteSeen_eq] at hports hregs
  rw [deviceSend_bcast hbc, hdies]
  generalize noteSeen t p = w at hports hregs hseen
  obtain ⟨hqueues, hjoin⟩ := bcast_queues hseen.wf p false (dieCount s.part)
  refine ⟨hqueues.page hseen, fun r => (congrArg (reg · r) hqueues.rest :).trans (hregs r), fun e he hup => ?_⟩
  rw [hjoin e he ((hseen.linkUp_eq e).trans hup) hscope, hports, hlink]
  unfold placePacket
  rw [hurgent]
  rfl

theorem linkStartGo_exec (h : reachesReg s a (Reg.LINK_START d) = true) (num : Nat) :
    exec (.linkStartGo a d num) s = .next (startWrite s d (startWord num)).answered :=
  regCmd_taken h (by decide) (by decide) rfl rfl rfl

/-- What GO of LINK_START does (R328). -/
structure StartMessageSent (d num : Nat) (s t : State) : Prop where
  number : fld t (Reg.LINK_START d) F.LINK_START_NUM = num
  sent : ∀ e, e < dieCount s.part → linkUp s e = true → ∃ p : Packet,
    (linkPort t e).queue = (linkPort s e).queue.takeWhile urgent ++ [p] ++ (linkPort s e).queue.dropWhile urgent ∧
      p.ty = pkStart ∧ p.bcast = true ∧ p.scope = true ∧ p.src = linkId s ∧ p.data = [BitVec.ofNat 32 num, reg s (Reg.LINK_START_TP d)]
  armed : ∀ e m, e < dieCount s.part → m < 10 → sapState s e m = sapArmed → sapCfg s e m F.SAP_CFG_TSRC = 3 →
    sapCfg s e m F.SAP_CFG_STARTID = num → (sap s e m).trig = .idle →
    (sap t e m).trig = .at (startTarget s (reg s (Reg.LINK_START_TP d)).toNat)
  rest : { t with regs := s.regs, link := s.link, linkDev := s.linkDev, saps := s.saps, fresh := s.fresh } = s
  regs : RegsBut s t [Reg.LINK_START d]

/-- The ports that wait are triggered after the message is sent. -/
theorem startPorts_sent (h : StartPage d s t) (hnum : fld t (Reg.LINK_START d) F.LINK_START_NUM = num)
    (hsent : ∀ e, e < dieCount s.part → linkUp s e = true →
      (linkPort t e).queue = (linkPort s e).queue.takeWhile urgent ++ [p] ++ (linkPort s e).queue.dropWhile urgent)
    (hp : p.ty = pkStart ∧ p.bcast = true ∧ p.scope = true ∧ p.src = linkId s ∧ p.data = [BitVec.ofNat 32 num, reg s (Reg.LINK_START_TP d)]) :
    StartMessageSent d num s (startPorts t num (reg s (Reg.LINK_START_TP d)).toNat) := by
  have hsaps : SapsOnly t (startPorts t num (reg s (Reg.LINK_START_TP d)).toNat) := sapTrigAll_sapsOnly h.wf _ _ _
  have hregs (r : Nat) : reg (startPorts t num (reg s (Reg.LINK_START_TP d)).toNat) r = reg t r := (congrArg (reg · r) hsaps.rest :)
  have hport (e : Nat) : linkPort (startPorts t num (reg s (Reg.LINK_START_TP d)).toNat) e = linkPort t e := (congrArg (linkPort · e) hsaps.rest :)
  have harmed (e m : Nat) (he : e < dieCount s.part) (hm : m < 10) (hstate : sapState s e m = sapArmed)
      (hsrc : sapCfg s e m F.SAP_CFG_TSRC = 3) (hid : sapCfg s e m F.SAP_CFG_STARTID = num) (hidle : (sap s e m).trig = .idle) :
      (sap (startPorts t num (reg s (Reg.LINK_START_TP d)).toNat) e m).trig = .at (startTarget s (reg s (Reg.LINK_START_TP d)).toNat) := by
    rw [← h.startTarget_eq]
    exact sapTrigAll_waiting h.wf (by rw [h.part_eq]; exact he) hm ((h.sapState_eq e hm).trans hstate) ((h.sapCfg_eq e hm _).trans hsrc)
      (by rw [h.sap_eq]; exact hidle) (decide_eq_true ((h.sapCfg_eq e hm _).trans hid))
  generalize startPorts t num (reg s (Reg.LINK_START_TP d)).toNat = w at hsaps hregs hport harmed
  exact ⟨(fld_of_reg (hregs _) _).trans hnum, fun e he hup => ⟨p, by rw [hport]; exact hsent e he hup, hp⟩, harmed,
    (congrArg (fun x : State => { x with regs := s.regs, link := s.link, linkDev := s.linkDev, saps := s.saps, fresh := s.fresh }) hsaps.rest :).trans
      (congrArg (fun x : State => { x with saps := s.saps }) h.rest :),
    fun r hr => (hregs r).trans (h.regs r hr)⟩

/-- The message of a die whose LINK_START was written is that of the die before. -/
theorem startPacket_eq (h : StartPage d s t) (num : Nat) :
    (startPacket t d num).src = linkId s ∧ (startPacket t d num).data = [BitVec.ofNat 32 num, reg s (Reg.LINK_START_TP d)] := by
  have hid : linkId t = linkId s := fld_of_reg (h.page 0 (by decide)) _
  have htp : reg t (Reg.LINK_START_TP d) = reg s (Reg.LINK_START_TP d) := h.page d (by decide)
  unfold startPacket
  rw [hid, htp]
  exact ⟨rfl, rfl⟩

theorem startWrite_sent (h : s.wf = true) (hgo : v.getLsbD 31 = true) (hv : wGet v F.LINK_START_NUM = num) (hn : num < 16) :
    StartMessageSent d num s (startWrite s d v) := by
  have hpage := setNum_page h d num
  have hlink (e : Nat) : linkPort (setFld s (Reg.LINK_START d) F.LINK_START_NUM num) e = linkPort s e := linkPort_setFld _ _ _ _ _
  have hset : fld (setFld s (Reg.LINK_START d) F.LINK_START_NUM num) (Reg.LINK_START d) F.LINK_START_NUM = num :=
    (fld_setFld_same h _ (by decide) (by decide) _).trans (Nat.mod_eq_of_lt hn)
  rw [startWrite_cases, hgo, hv, Bool.not_true, if_neg Bool.false_ne_true]
  generalize setFld s (Reg.LINK_START d) F.LINK_START_NUM num = t at hpage hlink hset
  have htp : reg t (Reg.LINK_START_TP d) = reg s (Reg.LINK_START_TP d) := hpage.page d (by decide)
  obtain ⟨hsrc, hdata⟩ := startPacket_eq hpage num
  have hp : (startPacket t d num).ty = pkStart ∧ (startPacket t d num).bcast = true ∧ (startPacket t d num).scope = true := ⟨rfl, rfl, rfl⟩
  have hurgent : urgent (startPacket t d num) = true := rfl
  generalize startPacket t d num = p at hsrc hdata hp hurgent
  obtain ⟨hty, hbc, hscope⟩ := hp
  have hbump (e : Nat) : linkPort (bumpFresh t) e = linkPort s e := hlink e
  have hbumpNum : fld (bumpFresh t) (Reg.LINK_START d) F.LINK_START_NUM = num := hset
  have hbumpPage := bumpFresh_page hpage
  rw [htp]
  generalize bumpFresh t = w at hbump hbumpNum hbumpPage
  obtain ⟨hsentPage, hsentRegs, hsent⟩ := deviceSend_start hbumpPage hbump hbc hscope hurgent
  exact startPorts_sent hsentPage ((fld_of_reg (hsentRegs _) _).trans hbumpNum) hsent ⟨hty, hbc, hscope, hsrc, hdata⟩

end Sys2Proof.Machine
end

section
/-! PROOFS. Packets of the link (R319–R330). -/
namespace Sys2Proof.Machine

variable {s : State} {d words num : Nat} {a : Access}

theorem linkRemoteTimeout_effect (hd : d < dieCount s.part) (hwait : (linkPort s d).wait.isSome = true) :
    exec (.linkRemoteTimeout d) s = .next (engineDone s d 4 []) :=
  (onUnit_true (decide_eq_true hd)).trans (whenDue_true hwait)

/-- Settles O58: a packet that is delivered runs its handler, a request goes where its route leads, and START reaches every port that waits. -/
theorem linkPackets : Obligations.LinkPackets := by
  unfold Obligations.LinkPackets
  refine ⟨?rdreq, ?wrreq, ?rdrsp, ?wrack, ?swapAsk, ?swapOther, ?start, ?host, ?routed, ?lost, ?queueTimeout, ?heldTimeout, ?go, ?goRouted, ?goOwn,
    ?goLost, ?goBcast, ?goRefused, ?timeout, ?timeoutEnds, ?startGo, ?started⟩
  case rdreq => exact fun s d ahead a p hd hp => linkRdreq_effect hd hp
  case wrreq => exact fun s d ahead a p aged hd hp => linkWrreq_effect hd hp
  case rdrsp =>
    intro s d a p t0 hd hp
    change execLinkRdrsp d a s = _
    exact onPacket_delivered hd hp _
  case wrack =>
    intro s d a p t0 hd hp
    change execLinkWrack d a s = _
    exact onPacket_delivered hd hp _
  case swapAsk =>
    intro s d a p aged t0 hd hp hkind
    change execLinkSwapPacket d a aged s = _
    unfold execLinkSwapPacket
    rw [onPacket_delivered hd hp]
    dsimp only
    generalize wField (p.data.getD 0 0) 31 28 = kind at hkind
    subst hkind
    rfl
  case swapOther => exact fun s d a p aged hd hp hkind => linkSwapPacket_other hd hp hkind
  case start =>
    intro s d a p aged t0 hd hp
    change execLinkStartPacket d a aged s = _
    exact onPacket_delivered hd hp _
  case host =>
    intro s d a p aged t0 hd hp
    change execLinkHostPacket d a aged s = _
    exact onPacket_delivered hd hp _
  case routed => exact fun s d a p aged hd hrun ha hp hwhere => linkPacketRoute_effect hd hrun ha hp hwhere
  case lost => exact fun s d a aged hd hrun ha hp => linkPacketRoute_none hd hrun ha hp
  case queueTimeout => exact fun s d i hd hi => linkPacketTimeout_queue hd hi
  case heldTimeout => exact fun s d i hd hlow hi => linkPacketTimeout_held hd hlow hi
  case go => exact fun s a d words write h => linkRemoteGo_exec h write words
  case goRouted =>
    intro s a d words e write v p h hwait hb hdst hroute hhold hfree
    obtain ⟨t, hout, hexec⟩ := linkRemoteGo_sent h hwait write words
    obtain ⟨⟨htag, hbusy, hw, hrest, hregs⟩, hqueue⟩ :=
      remoteSent_routed hout (remotePacket_type s d write words).2 (remotePacket_direct hb) hdst hroute hhold hfree
    exact ⟨_, hexec, htag, rfl, hbusy, hw, hqueue, (congrArg (fun x : State => { x with resp := s.resp }) hrest :), hregs⟩
  case goOwn =>
    intro s a d words write v p h hwait hb hdst
    obtain ⟨t, hout, hexec⟩ := linkRemoteGo_sent h hwait write words
    obtain ⟨⟨htag, hbusy, hw, hrest, hregs⟩, hown⟩ := remoteSent_own hout (remotePacket_direct hb) hdst
    exact ⟨_, hexec, htag, rfl, hbusy, hw, hown, (congrArg (fun x : State => { x with resp := s.resp }) hrest :), hregs⟩
  case goLost =>
    intro s a d words write v p h hwait hb hdst hroute
    obtain ⟨t, hout, hexec⟩ := linkRemoteGo_sent h hwait write words
    obtain ⟨⟨htag, hbusy, hdone, hstatus, hw⟩, hdrop, hrest, hregs⟩ := remoteSent_lost hout (remotePacket_direct hb) hdst hroute
    exact ⟨_, hexec, htag, rfl, hbusy, hdone, hstatus, hw, hdrop, (congrArg (fun x : State => { x with resp := s.resp }) hrest :), hregs⟩
  case goBcast =>
    intro s a d words v p h hwait hb
    obtain ⟨t, hout, hexec⟩ := linkRemoteGo_sent h hwait true words
    obtain ⟨htype, hurgent⟩ := remotePacket_type s d true words
    obtain ⟨⟨htag, hbusy, hdone, hstatus, hw⟩, hqueues, hrest, hregs⟩ :=
      remoteSent_bcast hout hurgent (remotePacket_bcast hb) (of_decide_eq_true htype)
    exact ⟨_, hexec, htag, rfl, hbusy, hdone, hstatus, hw, hqueues, (congrArg (fun x : State => { x with resp := s.resp }) hrest :), hregs⟩
  case goRefused => exact fun s a d words write h hwait => linkRemoteGo_refused h hwait write words
  case timeout => exact fun s d hd hwait => linkRemoteTimeout_effect hd hwait
  case timeoutEnds =>
    intro s d h hd hwait
    have hended := engineDone_ended (d := d) (status := 4) h (by decide)
    exact ⟨_, linkRemoteTimeout_effect hd hwait, hended.busy, hended.done, hended.status, (congrArg LinkPort.wait hended.port :),
      hended.rest, hended.regs, hended.rest⟩
  case startGo => exact fun s a d num h => linkStartGo_exec h num
  case started =>
    intro s a d num h hn
    obtain ⟨hnum, hsent, harmed, hrest, hregs⟩ := startWrite_sent (reachesReg_wf h) (startWord_go num) (startWord_num hn) hn (d := d)
    exact ⟨_, linkStartGo_exec h num, hnum, hsent, harmed, rfl, (congrArg (fun x : State => { x with resp := s.resp }) hrest :), hregs⟩

end Sys2Proof.Machine
end

section
/-! PROOFS. The Oasis words of the Seed (R400). -/
namespace Sys2Proof.Machine

variable {s t : State} {a b i : Nat} {bs : List Byte}

/-! ### Bytes of a list -/

theorem storeList_cons (s : State) (a : Nat) (x : Byte) (bs : List Byte) : storeList s a (x :: bs) = storeList (storeByte s a x) (a + 1) bs := rfl

theorem loadByte_storeList_ne (h : Memory.wf s.mem = true) (hb : b < a ∨ a + bs.length ≤ b) : loadByte (storeList s a bs) b = loadByte s b := by
  induction bs generalizing s a with
  | nil => rfl
  | cons x bs ih =>
    rw [List.length_cons] at hb
    rw [storeList_cons, ih (mem_wf_storeByte h a x) (by omega)]
    exact smGet_smSet_ne h (by omega) x

theorem loadByte_storeList_same (h : Memory.wf s.mem = true) (hi : i < bs.length) : loadByte (storeList s a bs) (a + i) = bs.getD i 0 := by
  induction bs generalizing s a i with
  | nil => exact absurd hi (Nat.not_lt_zero _)
  | cons x bs ih =>
    rw [storeList_cons]
    cases i with
    | zero =>
      rw [loadByte_storeList_ne (mem_wf_storeByte h a x) (by omega)]
      exact smGet_smSet_same h a x
    | succ i =>
      rw [show a + (i + 1) = a + 1 + i by omega]
      exact ih (mem_wf_storeByte h a x) (by simpa using hi)

theorem loadBytes_eq_of_bytes {n : Nat} (h : ∀ j, j < n → loadByte t (a + j) = loadByte s (a + j)) : loadBytes t a n = loadBytes s a n := by
  induction n generalizing a with
  | zero => rfl
  | succ n ih =>
    have hhead := h 0 (Nat.succ_pos n)
    have htail := ih (a := a + 1) fun j hj => by
      have hj' := h (j + 1) (Nat.succ_lt_succ hj)
      rwa [Nat.add_comm j 1, ← Nat.add_assoc] at hj'
    unfold loadBytes
    rw [htail, show loadByte t a = loadByte s a from hhead]

/-! ### Words of the Oasis -/

theorem oasis_setOasis_same (h : Memory.wf s.mem = true) (o : Nat) (w : Word) : oasis (setOasis s o w) o = w := loadW_storeW h _ w

theorem oasis_setOasis_ne (h : Memory.wf s.mem = true) {o q : Nat} (hne : q + 4 ≤ o ∨ o + 4 ≤ q) (w : Word) : oasis (setOasis s o w) q = oasis s q := by
  unfold oasis loadW setOasis storeW
  rw [loadBytes_storeBytes_ne h _ _ _ _ _ (by omega)]

theorem oasis_storeList_ne (h : Memory.wf s.mem = true) {o q : Nat} (hne : q + 4 ≤ o ∨ o + bs.length ≤ q) :
    oasis (storeList s (oasisA + o) bs) q = oasis s q := by
  unfold oasis loadW
  rw [loadBytes_eq_of_bytes fun j hj => loadByte_storeList_ne h (by omega)]

/-- The fast-wake record: four words and the digest. -/
def recordWritten (t : State) (slot off version : Word) (digest : List Byte) : State :=
  storeList (setOasis (setOasis (setOasis (setOasis t 0 0x0A51_0001) 4 slot) 8 off) 0xC version) (oasisA + 0x10) digest

/-- A confirmed image's record in the Oasis. -/
structure OasisRecord (slot off version : Word) (digest : List Byte) (s t : State) : Prop where
  mark : oasis t 0 = 0x0A51_0001
  slot : oasis t 4 = slot
  off : oasis t 8 = off
  version : oasis t 0xC = version
  digest : ∀ i, i < digest.length → loadByte t (oasisA + 0x10 + i) = digest.getD i 0
  trial : oasis t 0x40 = 0
  other : ∀ b, (b < oasisA ∨ oasisA + 0x44 ≤ b) → loadByte t b = loadByte s b
  rest : { t with mem := s.mem } = s

theorem setOasis_mem_eq (s : State) (o : Nat) (w : Word) : setOasis s o w = { s with mem := (setOasis s o w).mem } := storeBytes_eq _ _ _ _

theorem setOasis_rest (h : { t with mem := s.mem } = s) (o : Nat) (w : Word) : { setOasis t o w with mem := s.mem } = s := by
  rw [setOasis_mem_eq]
  exact h

theorem storeList_rest (h : { t with mem := s.mem } = s) (a : Nat) (bs : List Byte) : { storeList t a bs with mem := s.mem } = s := by
  rw [storeList_eq]
  exact h

theorem loadByte_setOasis_ne (h : Memory.wf s.mem = true) {o : Nat} (w : Word) (hb : b < oasisA + o ∨ oasisA + o + 4 ≤ b) :
    loadByte (setOasis s o w) b = loadByte s b := loadByte_storeBytes_ne h _ _ _ _ hb

theorem recordWritten_record (h : Memory.wf s.mem = true) (slot off version : Word) {digest : List Byte} (hlen : digest.length ≤ 0x30) :
    OasisRecord slot off version digest s (recordWritten (setOasis s 0x40 0) slot off version digest) := by
  have h0 : Memory.wf (setOasis s 0x40 0).mem = true := mem_wf_storeW h _ _
  have hrest0 : { setOasis s 0x40 0 with mem := s.mem } = s := setOasis_rest rfl _ _
  have htrial0 := oasis_setOasis_same h 0x40 0
  have hother0 (b : Nat) (hb : b < oasisA ∨ oasisA + 0x44 ≤ b) := loadByte_setOasis_ne (b := b) h (o := 0x40) 0 (by omega)
  unfold recordWritten
  generalize setOasis s 0x40 0 = t0 at h0 hrest0 htrial0 hother0
  have h1 : Memory.wf (setOasis t0 0 0x0A51_0001).mem = true := mem_wf_storeW h0 _ _
  have h2 : Memory.wf (setOasis (setOasis t0 0 0x0A51_0001) 4 slot).mem = true := mem_wf_storeW h1 _ _
  have h3 : Memory.wf (setOasis (setOasis (setOasis t0 0 0x0A51_0001) 4 slot) 8 off).mem = true := mem_wf_storeW h2 _ _
  have h4 : Memory.wf (setOasis (setOasis (setOasis (setOasis t0 0 0x0A51_0001) 4 slot) 8 off) 0xC version).mem = true := mem_wf_storeW h3 _ _
  refine ⟨?mark, ?slot, ?off, ?version, fun i hi => loadByte_storeList_same h4 hi, ?trial, fun b hb => ?other, ?rest⟩
  case mark =>
    rw [oasis_storeList_ne h4 (by omega), oasis_setOasis_ne h3 (by omega), oasis_setOasis_ne h2 (by omega), oasis_setOasis_ne h1 (by omega),
      oasis_setOasis_same h0]
  case slot =>
    rw [oasis_storeList_ne h4 (by omega), oasis_setOasis_ne h3 (by omega), oasis_setOasis_ne h2 (by omega), oasis_setOasis_same h1]
  case off => rw [oasis_storeList_ne h4 (by omega), oasis_setOasis_ne h3 (by omega), oasis_setOasis_same h2]
  case version => rw [oasis_storeList_ne h4 (by omega), oasis_setOasis_same h3]
  case trial =>
    rw [oasis_storeList_ne h4 (by omega), oasis_setOasis_ne h3 (by omega), oasis_setOasis_ne h2 (by omega), oasis_setOasis_ne h1 (by omega),
      oasis_setOasis_ne h0 (by omega), htrial0]
  case other =>
    rw [loadByte_storeList_ne h4 (by omega), loadByte_setOasis_ne h3 _ (by omega), loadByte_setOasis_ne h2 _ (by omega),
      loadByte_setOasis_ne h1 _ (by omega), loadByte_setOasis_ne h0 _ (by omega), hother0 b hb]
  case rest => exact storeList_rest (setOasis_rest (setOasis_rest (setOasis_rest (setOasis_rest hrest0 _ _) _ _) _ _) _ _) _ _

end Sys2Proof.Machine
end

section
/-! PROOFS. Loading, handoff and confirmation (R386, R391, R400). -/
namespace Sys2Proof.Machine

variable {s t u : State} {d : Nat} {a : Access} {rest : List Nat} {data : List Byte} {i : Nat} {h : List Byte}

/-! ### Segments -/

theorem segmentLoad_first (hseed : seedRuns s = true) (hstep : s.boot.step = .load) (htodo : s.boot.todo = i :: rest)
    (hfits : dataFits (imageInHand s) i data = true) :
    let x := loadSegment (noteSegment s (imageInHand s) i) false (imageInHand s) i data
    exec (.segmentLoad data) s =
      .next (if x.2 ≠ 0 then segmentFail x.1 x.2 else checkReady { x.1 with boot := { x.1.boot with todo := rest } }) := by
  intro x
  change execSegmentLoad data s = _
  unfold execSegmentLoad
  dsimp only
  rw [hstep, htodo]
  exact whenDue_true (by rw [hseed, hfits]; rfl)

theorem segmentLoad_later (hrun : running s = true) (hstep : s.boot.step = .done) (hlater : s.boot.later = i :: rest)
    (hfits : dataFits (imageInHand s) i data = true) :
    let x := loadSegment (noteSegment s (imageInHand s) i) false (imageInHand s) i data
    exec (.segmentLoad data) s =
      .next (if x.2 ≠ 0 then segmentFail x.1 x.2 else { x.1 with boot := { x.1.boot with later := rest } }) := by
  intro x
  change execSegmentLoad data s = _
  unfold execSegmentLoad
  dsimp only
  rw [hstep, hlater]
  exact whenDue_true (by rw [hrun, hfits]; rfl)

theorem fastWakeLoadDone_effect (hrun : running s = true) (hstep : s.boot.step = .done) (hmode : bootMode s = 1) (hlater : s.boot.later = [])
    (hloaded : bitF s (Reg.BOOT_STAT 0) F.BOOT_STAT_LOADED = false) :
    exec .fastWakeLoadDone s = .next (setFld s (Reg.BOOT_STAT 0) F.BOOT_STAT_LOADED 1) :=
  whenDue_true (by rw [hrun, hstep, hmode, hlater, hloaded]; rfl)

/-! ### Handoff -/

/-- The Seed locks the firewall of every die (R386). -/
theorem fwProgram_locks (h : s.wf = true) (hd : d < dieCount s.part) : bitF (fwProgram s) (Reg.FW_CTL d) F.FW_CTL_LOCK = true := by
  have hrules : (s.boot.fw.foldl (fun u bs => each (fwRecords (bs.length / 20) bs) fwApply u) s).wf = true :=
    (Keeps.folded (s := s) (fun _ _ hu => .each hu fun _ _ hv => .fwApply hv) _ (Keeps.refl s)).wf h
  unfold fwProgram
  dsimp only
  generalize s.boot.fw.foldl (fun u bs => each (fwRecords (bs.length / 20) bs) fwApply u) s = t at hrules
  refine each_establishes (P := fun u => u.wf = true) (Q := fun u => bitF u (Reg.FW_CTL d) F.FW_CTL_LOCK = true) (x := d)
    (List.mem_range.mpr hd) (fun e u hu => State.wf_setFld hu _ _ _) (fun u hu => bitF_setFld_one hu _ (by decide) (by decide)) (fun e u hu hlock => ?_) hrules
  by_cases he : Reg.FW_CTL d = Reg.FW_CTL e
  · rw [he]
    exact bitF_setFld_one hu _ (by decide) (by decide)
  · exact (bitF_of_reg (reg_setFld_ne hu he _ _) _).trans hlock

/-- REMAP and ROMLOCK of every die. -/
def busOpened (n : Nat) (s : State) : State :=
  each (List.range n) (fun d u => setReg u (Reg.BUS_CTL d) (reg u (Reg.BUS_CTL d) ||| 3)) s

theorem wField_or_three (w : Word) : wField (w ||| 3) 1 0 = 3 := by
  have hor : wField (w ||| 3) 1 0 = wField w 1 0 ||| 3 := wGet_or w 3 ⟨1, 0⟩
  have hlt : wField w 1 0 < 4 := wGet_lt w ⟨1, 0⟩
  rw [hor]
  generalize wField w 1 0 = n at hlt
  interval_cases n <;> rfl

theorem busOpened_bus (h : s.wf = true) {n : Nat} (hd : d < n) : wField (reg (busOpened n s) (Reg.BUS_CTL d)) 1 0 = 3 := by
  refine each_establishes (P := fun u => u.wf = true) (Q := fun u => wField (reg u (Reg.BUS_CTL d)) 1 0 = 3) (x := d) (List.mem_range.mpr hd)
    (fun e u hu => State.wf_setReg hu _ _) (fun u hu => ?_) (fun e u hu hset => ?_) h
  · rw [reg_setReg_same hu]
    exact wField_or_three _
  · by_cases he : Reg.BUS_CTL d = Reg.BUS_CTL e
    · rw [he, reg_setReg_same hu]
      exact wField_or_three _
    · rw [reg_setReg_ne hu he]
      exact hset

theorem busOpened_other (h : s.wf = true) (n : Nat) {r : Nat} (hr : ∀ d, r ≠ Reg.BUS_CTL d) :
    (busOpened n s).wf = true ∧ reg (busOpened n s) r = reg s r :=
  each_keeps (P := fun u => u.wf = true ∧ reg u r = reg s r) _ _
    (fun e _ _ hu => ⟨State.wf_setReg hu.1 _ _, (reg_setReg_ne hu.1 (hr e) _).trans hu.2⟩) ⟨h, rfl⟩

/-- The Seed's own registers at a handoff. -/
def seedClosed (t : State) (slot : Nat) (version : Word) : State :=
  setReg (setFld (setFld t (Reg.BOOT_STAT 0) F.BOOT_STAT_PRIV 0) (Reg.BOOT_STAT 0) F.BOOT_STAT_SLOT slot) (Reg.BOOT_VERSION 0) version

/-- Only registers of the Seed's page changed, and PRIV is clear. -/
structure SeedLeft (s t : State) : Prop where
  wf : t.wf = true
  priv : bitF t (Reg.BOOT_STAT 0) F.BOOT_STAT_PRIV = false
  regs : RegsBut s t [Reg.BOOT_STAT 0, Reg.BOOT_VERSION 0, Reg.BOOT_TRIAL 0]

theorem seedClosed_left (h : t.wf = true) (slot : Nat) (version : Word) : SeedLeft t (seedClosed t slot version) := by
  have hpriv := State.wf_setFld h (Reg.BOOT_STAT 0) F.BOOT_STAT_PRIV 0
  have hslot := State.wf_setFld hpriv (Reg.BOOT_STAT 0) F.BOOT_STAT_SLOT slot
  refine ⟨State.wf_setReg hslot _ _, ?_, fun r hr => ?_⟩
  · exact (bitF_of_reg (reg_setReg_ne hslot (by decide) _) _).trans ((bitF_setFld_ne hpriv _ (by decide) (by decide) (by decide) _).trans
      (bitF_setFld_zero h _ (by decide) (by decide)))
  · simp only [List.mem_cons, List.not_mem_nil, or_false, not_or] at hr
    obtain ⟨hstat, hversion, -⟩ := hr
    exact (reg_setReg_ne hslot hversion _).trans ((reg_setFld_ne hpriv hstat _ _).trans (reg_setFld_ne h hstat _ _))

theorem reg_setOasis (s : State) (o : Nat) (w : Word) (r : Nat) : reg (setOasis s o w) r = reg s r := by
  rw [setOasis_mem_eq]
  rfl

theorem reg_storeList (s : State) (a : Nat) (bs : List Byte) (r : Nat) : reg (storeList s a bs) r = reg s r := by
  rw [storeList_eq]
  rfl

theorem SeedLeft.trial (h : SeedLeft s t) (ms : Word) (digest : List Byte) :
    SeedLeft s (storeList (setOasis (setReg (setFld t (Reg.BOOT_STAT 0) F.BOOT_STAT_TRIAL 1) (Reg.BOOT_TRIAL 0) ms) 0x40 1) (oasisA + 0x48) digest) := by
  have hset := State.wf_setFld h.wf (Reg.BOOT_STAT 0) F.BOOT_STAT_TRIAL 1
  have hms := State.wf_setReg hset (Reg.BOOT_TRIAL 0) ms
  refine ⟨State.wf_storeList (State.wf_storeW hms _ _) _ _, ?_, fun r hr => ?_⟩
  · exact (bitF_of_reg ((reg_storeList _ _ _ _).trans ((reg_setOasis _ _ _ _).trans (reg_setReg_ne hset (by decide) _))) _).trans
      ((bitF_setFld_ne h.wf _ (by decide) (by decide) (by decide) _).trans h.priv)
  · have hr' := hr
    simp only [List.mem_cons, List.not_mem_nil, or_false, not_or] at hr'
    obtain ⟨hstat, -, htrial⟩ := hr'
    exact (reg_storeList _ _ _ _).trans ((reg_setOasis _ _ _ _).trans ((reg_setReg_ne hset htrial _).trans
      ((reg_setFld_ne h.wf hstat _ _).trans (h.regs r hr))))

theorem SeedLeft.startTrial (h : SeedLeft s t) (hd : List Byte) : SeedLeft s (startTrial t hd) := h.trial _ _

theorem handoff_eq (s : State) (entry : Nat) : handoff s entry =
    let t := seedClosed (busOpened (dieCount s.part) (zeroize s)) (if bootMode (zeroize s) = 2 then 0 else s.boot.slot % 2)
      (BitVec.ofNat 32 (imgVersion (imageInHand s)))
    let u := if onTrial (zeroize s) (imageInHand s) then startTrial t (imageInHand s) else t
    setStew { u with boot := { u.boot with step := .done, status := 0, fw := [], images := [(s.boot.slot, imageInHand s)] } } 0 0
      { core := { Core.zero with r := { Regs.zero with pc := entry % 2 ^ 29 } }, st := .run } := rfl

/-- The last write of a handoff: steward 0 runs at the entry (R376). -/
theorem setStew_handoff (h : SeedLeft s t) (x : Boot) (hx : x.step = .done) (entry : Nat) (v : Stew) (hv : v.st = .run)
    (hpc : v.core.r.pc = entry) :
    let u := setStew { t with boot := x } 0 0 v
    u.boot.step = .done ∧ bitF u (Reg.BOOT_STAT 0) F.BOOT_STAT_PRIV = false ∧ (stew u 0 0).st = .run ∧ (stew u 0 0).core.r.pc = entry ∧
      RegsBut s u [Reg.BOOT_STAT 0, Reg.BOOT_VERSION 0, Reg.BOOT_TRIAL 0] := by
  have hwf : ({ t with boot := x } : State).wf = true := h.wf
  have hstew := stew_setStew_same hwf 0 0 v
  intro u
  refine ⟨hx, h.priv, ?_, ?_, h.regs⟩
  · rw [hstew]
    exact hv
  · rw [hstew]
    exact hpc

theorem bootHandoff_effect (h : s.wf = true) (hseed : seedRuns s = true) (hstep : s.boot.step = .ready) :
    ∃ t, exec .bootHandoff s = .next t ∧ t.boot.step = .done ∧ bitF t (Reg.BOOT_STAT 0) F.BOOT_STAT_PRIV = false ∧ (stew t 0 0).st = .run ∧
      (stew t 0 0).core.r.pc = imgEntry (imageInHand s) % 2 ^ 29 ∧
      ∀ d, d < dieCount s.part → bitF t (Reg.FW_CTL d) F.FW_CTL_LOCK = true ∧ wField (reg t (Reg.BUS_CTL d)) 1 0 = 3 := by
  have hexec : exec .bootHandoff s = .next (handoff (fwProgram s) (imgEntry (imageInHand s))) := whenDue_true (by rw [hseed, hstep]; rfl)
  have hkeeps := Keeps.fwProgram (Keeps.refl s)
  have hwf := hkeeps.wf h
  have hpart := hkeeps.part
  have hlocks (d : Nat) (hd : d < dieCount s.part) := fwProgram_locks h hd
  generalize fwProgram s = f at hexec hwf hpart hlocks
  generalize imgEntry (imageInHand s) = entry at hexec
  have hzero : (zeroize f).wf = true := hwf
  have hzeroRegs (r : Nat) : reg (zeroize f) r = reg f r := rfl
  rw [handoff_eq, hpart] at hexec
  dsimp only at hexec
  have hbus (d : Nat) (hd : d < dieCount s.part) := busOpened_bus hzero hd
  have hfw (d : Nat) := busOpened_other hzero (dieCount s.part) (r := Reg.FW_CTL d) (fun e => by unfold Reg.FW_CTL Reg.BUS_CTL regA; omega)
  generalize busOpened (dieCount s.part) (zeroize f) = b at hexec hbus hfw
  obtain ⟨hbwf, -⟩ := hfw 0
  have hleft := seedClosed_left hbwf (if bootMode (zeroize f) = 2 then 0 else f.boot.slot % 2) (BitVec.ofNat 32 (imgVersion (imageInHand f)))
  generalize seedClosed b (if bootMode (zeroize f) = 2 then 0 else f.boot.slot % 2) (BitVec.ofNat 32 (imgVersion (imageInHand f))) = c
    at hexec hleft
  have hafter : SeedLeft b (if onTrial (zeroize f) (imageInHand f) then startTrial c (imageInHand f) else c) := by
    split
    · exact hleft.startTrial _
    · exact hleft
  generalize (if onTrial (zeroize f) (imageInHand f) then startTrial c (imageInHand f) else c) = e at hexec hafter
  obtain ⟨hdone, hpriv, hrun, hpc, hregs⟩ := setStew_handoff hafter
    { e.boot with step := .done, status := 0, fw := [], images := [(f.boot.slot, imageInHand f)] } rfl (entry % 2 ^ 29)
    { core := { Core.zero with r := { Regs.zero with pc := entry % 2 ^ 29 } }, st := .run } rfl rfl
  refine ⟨_, hexec, hdone, hpriv, hrun, hpc, fun d hd => ?_⟩
  have hpageFw : Reg.FW_CTL d ∉ [Reg.BOOT_STAT 0, Reg.BOOT_VERSION 0, Reg.BOOT_TRIAL 0] := by
    simp only [Reg.FW_CTL, Reg.BOOT_STAT, Reg.BOOT_VERSION, Reg.BOOT_TRIAL, regA, List.mem_cons, List.not_mem_nil, or_false, not_or]
    omega
  have hpageBus : Reg.BUS_CTL d ∉ [Reg.BOOT_STAT 0, Reg.BOOT_VERSION 0, Reg.BOOT_TRIAL 0] := by
    simp only [Reg.BUS_CTL, Reg.BOOT_STAT, Reg.BOOT_VERSION, Reg.BOOT_TRIAL, regA, List.mem_cons, List.not_mem_nil, or_false, not_or]
    omega
  constructor
  · exact (bitF_of_reg ((hregs _ hpageFw).trans ((hfw d).2.trans (hzeroRegs _))) _).trans (hlocks d hd)
  · rw [hregs _ hpageBus]
    exact hbus d hd

/-! ### Confirmation -/

/-- What a confirmation records besides the Oasis: the shell's record and the revoked key slots. -/
def noted (t : State) (x : Shell) (revoke : Nat) : State :=
  { t with shell := x, fuses := { t.fuses with revoked := t.fuses.revoked ||| revoke } }

/-- The shell after the confirmed record of image `h` in slot `slot`, with its floor. -/
def shellConfirmedBy (x : Shell) (h : List Byte) (slot : Nat) : Shell :=
  let y := writeRecord x 0x100 (imgDigest h ++ toBytes 4 (imgVersion h) ++ toBytes 4 slot)
  if imgRaise h && decide (shellFloor y < imgVersion h) then writeRecord y 0 (toBytes 4 (imgVersion h)) else y

theorem confirm_eq (s : State) : confirm s =
    recordWritten (setOasis (noted (setReg (setFld s (Reg.BOOT_STAT 0) F.BOOT_STAT_TRIAL 0) (Reg.BOOT_TRIAL 0) 0)
        (shellConfirmedBy s.shell (imageInHand s) (s.boot.slot % 2)) (imgRevoke (imageInHand s) % 16)) 0x40 0)
      (BitVec.ofNat 32 (s.boot.slot % 2)) (BitVec.ofNat 32 (slotOff s (s.boot.slot % 2))) (BitVec.ofNat 32 (imgVersion (imageInHand s)))
      (imgDigest (imageInHand s)) := rfl

theorem imgDigest_length (h : List Byte) : (imgDigest h).length ≤ 0x30 := List.length_take_le _ _

theorem bootConfirm_exec (h : reachesReg s a (Reg.BOOT_CONFIRM 0) = true) :
    exec (.bootConfirm a) s = .next (if bitF s (Reg.BOOT_STAT 0) F.BOOT_STAT_TRIAL then confirm s else s).answered := by
  refine (regCmd_taken h (by decide) (by decide) rfl rfl (t := confirmWrite s 0x5EED) rfl).trans ?_
  unfold confirmWrite
  rw [show wField (0x5EED : Word) 15 0 = 0x5EED from rfl]
  simp

/-- The registers of an image on trial that is confirmed. -/
theorem trialCleared (h : s.wf = true) :
    let t := setReg (setFld s (Reg.BOOT_STAT 0) F.BOOT_STAT_TRIAL 0) (Reg.BOOT_TRIAL 0) 0
    t.wf = true ∧ bitF t (Reg.BOOT_STAT 0) F.BOOT_STAT_TRIAL = false ∧ reg t (Reg.BOOT_TRIAL 0) = 0 ∧ { t with regs := s.regs } = s ∧
      RegsBut s t [Reg.BOOT_STAT 0, Reg.BOOT_TRIAL 0] := by
  have hset := State.wf_setFld h (Reg.BOOT_STAT 0) F.BOOT_STAT_TRIAL 0
  refine ⟨State.wf_setReg hset _ _, ?_, reg_setReg_same hset _ _, rfl, fun r hr => ?_⟩
  · exact (bitF_of_reg (reg_setReg_ne hset (by decide) _) _).trans (bitF_setFld_zero h _ (by decide) (by decide))
  · simp only [List.mem_cons, List.not_mem_nil, or_false, not_or] at hr
    exact (reg_setReg_ne hset hr.2 _).trans (reg_setFld_ne h hr.1 _ _)

end Sys2Proof.Machine
end

section
/-! PROOFS. Segments are loaded and the image takes over (R386–R401). -/
namespace Sys2Proof.Machine

variable {s : State} {a : Access}

theorem noted_facts {t : State} (hwf : t.wf = true) (hrest : { t with regs := s.regs } = s) (x : Shell) (revoke : Nat) :
    Memory.wf (noted t x revoke).mem = true ∧ { noted t x revoke with regs := s.regs, shell := s.shell, fuses := s.fuses } = s ∧
      (noted t x revoke).mem = s.mem ∧ (noted t x revoke).shell = x ∧
      (noted t x revoke).fuses = { s.fuses with revoked := s.fuses.revoked ||| revoke } ∧ ∀ r, reg (noted t x revoke) r = reg t r := by
  have hfuses : t.fuses = s.fuses := (congrArg State.fuses hrest :)
  exact ⟨(State.wf_mem hwf :), (congrArg (fun y : State => { y with shell := s.shell, fuses := s.fuses }) hrest :), (congrArg State.mem hrest :), rfl,
    congrArg (fun f : Fuses => { f with revoked := f.revoked ||| revoke }) hfuses, fun _ => rfl⟩

/-- An image on trial is confirmed (R400). -/
theorem bootConfirm_effect (h : reachesReg s a (Reg.BOOT_CONFIRM 0) = true) (htrial : bitF s (Reg.BOOT_STAT 0) F.BOOT_STAT_TRIAL = true) :
    ∃ t, exec (.bootConfirm a) s = .next t.answered ∧ bitF t (Reg.BOOT_STAT 0) F.BOOT_STAT_TRIAL = false ∧ reg t (Reg.BOOT_TRIAL 0) = 0 ∧
      ∃ u : State, OasisRecord (BitVec.ofNat 32 (s.boot.slot % 2)) (BitVec.ofNat 32 (slotOff s (s.boot.slot % 2)))
          (BitVec.ofNat 32 (imgVersion (imageInHand s))) (imgDigest (imageInHand s)) u t ∧
        u.mem = s.mem ∧ u.shell = shellConfirmedBy s.shell (imageInHand s) (s.boot.slot % 2) ∧
        u.fuses = { s.fuses with revoked := s.fuses.revoked ||| imgRevoke (imageInHand s) % 16 } ∧
        { u with regs := s.regs, shell := s.shell, fuses := s.fuses } = s ∧ RegsBut s t [Reg.BOOT_STAT 0, Reg.BOOT_TRIAL 0] := by
  have hexec := bootConfirm_exec h
  rw [htrial, if_pos rfl, confirm_eq] at hexec
  obtain ⟨hwf, hcleared, htimer, hrest, hregs⟩ := trialCleared (reachesReg_wf h)
  generalize setReg (setFld s (Reg.BOOT_STAT 0) F.BOOT_STAT_TRIAL 0) (Reg.BOOT_TRIAL 0) 0 = t at hexec hwf hcleared htimer hrest hregs
  obtain ⟨hmem, hnoted, hnotedMem, hnotedShell, hnotedFuses, hnotedRegs⟩ :=
    noted_facts hwf hrest (shellConfirmedBy s.shell (imageInHand s) (s.boot.slot % 2)) (imgRevoke (imageInHand s) % 16)
  generalize noted t (shellConfirmedBy s.shell (imageInHand s) (s.boot.slot % 2)) (imgRevoke (imageInHand s) % 16) = u
    at hexec hmem hnoted hnotedMem hnotedShell hnotedFuses hnotedRegs
  have hrecord := recordWritten_record hmem (BitVec.ofNat 32 (s.boot.slot % 2)) (BitVec.ofNat 32 (slotOff s (s.boot.slot % 2)))
    (BitVec.ofNat 32 (imgVersion (imageInHand s))) (imgDigest_length (imageInHand s))
  generalize recordWritten (setOasis u 0x40 0) (BitVec.ofNat 32 (s.boot.slot % 2)) (BitVec.ofNat 32 (slotOff s (s.boot.slot % 2)))
    (BitVec.ofNat 32 (imgVersion (imageInHand s))) (imgDigest (imageInHand s)) = w at hexec hrecord
  have hwregs (r : Nat) : reg w r = reg t r := (congrArg (reg · r) hrecord.rest :).trans (hnotedRegs r)
  exact ⟨w, hexec, (bitF_of_reg (hwregs _) _).trans hcleared, (hwregs _).trans htimer, u, hrecord, hnotedMem, hnotedShell, hnotedFuses, hnoted,
    fun r hr => (hwregs r).trans (hregs r hr)⟩

/-- Settles O26: a segment goes to its destination or fails its slot, the handoff opens the bus and closes the Seed, a confirmation is recorded. -/
theorem bootLoading : Obligations.BootLoading := by
  unfold Obligations.BootLoading
  refine ⟨?first, ?later, ?loaded, ?handed, ?confirmWrite, ?confirmed⟩
  case first => exact fun s i rest data hseed hstep htodo hfits => segmentLoad_first hseed hstep htodo hfits
  case later => exact fun s i rest data hrun hstep hlater hfits => segmentLoad_later hrun hstep hlater hfits
  case loaded =>
    intro s h hrun hstep hmode hlater hloaded
    exact ⟨_, fastWakeLoadDone_effect hrun hstep hmode hlater hloaded, bitF_setFld_one h _ (by decide) (by decide), rfl,
      fun r hr => reg_setFld_ne h (by simpa using hr) _ _⟩
  case handed => exact fun s h hseed hstep => bootHandoff_effect h hseed hstep
  case confirmWrite => exact fun s a h => bootConfirm_exec h
  case confirmed =>
    intro s a img x h htrial
    obtain ⟨t, hexec, hcleared, htimer, u, hrecord, hmem, hshell, hfuses, hrest, hregs⟩ := bootConfirm_effect h htrial
    have htshell : t.shell = u.shell := (congrArg State.shell hrecord.rest :)
    have htfuses : t.fuses = u.fuses := (congrArg State.fuses hrecord.rest :)
    have hbytes (b : Nat) : loadByte u b = loadByte s b := by
      unfold loadByte
      rw [hmem]
    have hback : { t with mem := s.mem, ecc := s.ecc, regs := s.regs, shell := s.shell, fuses := s.fuses } = s :=
      (congrArg (fun y : State => { y with mem := s.mem, ecc := s.ecc, regs := s.regs, shell := s.shell, fuses := s.fuses }) hrecord.rest :).trans
        (congrArg (fun y : State => { y with mem := s.mem, ecc := s.ecc }) hrest :)
    exact ⟨_, hexec, hcleared, htimer, htshell.trans hshell, htfuses.trans hfuses, hrecord.mark, hrecord.slot, hrecord.off, hrecord.version,
      hrecord.digest, hrecord.trial, fun b hb => (hrecord.other b hb).trans (hbytes b), rfl,
      (congrArg (fun y : State => { y with resp := s.resp }) hback :), hregs⟩

end Sys2Proof.Machine
end
